-- ==== Sys2Proof/Word.lean ====
section
/-! DEFINITION. The two word types of the register and memory interface, and the byte strings built from them. -/
namespace Sys2Proof

/-- One byte of a memory, a frame or a record. -/
abbrev Byte := BitVec 8

/-- One register word: registers are 32 bits wide (R7). -/
abbrev Word := BitVec 32

/-- A byte string, first byte first. -/
abbrev Bytes := List Byte

end Sys2Proof
end

