-- ==== Sys2Proof/Syntax.lean ====
section
/-! DEFINITION. The commands of the block: one constructor per row of the opcode table, with the operands that the row's
rule names. Indices are of the width the manual gives, so a command for an instance that does not exist cannot be written. -/
namespace Sys2Proof

/-- R80: a MAC, 0 to 255. -/
abbrev Port := Fin 256
/-- R32: a Faush link, FL0 to FL2. -/
abbrev Link := Fin 3
/-- R440: a PCIe function, 0 for PF0 and 1 + n for VF n. Log 14 (DESIGN CHOICE). -/
abbrev Fn := Fin 65
/-- R106: a tick domain. -/
abbrev Td := Fin 8
/-- R111: a hardware interval timer. -/
abbrev Timer := Fin 16
/-- R108: a SYNC_IO ball. -/
abbrev Ball := Fin 8
/-- R50: a leaf. -/
abbrev Leaf := Fin 32768
/-- R174: a table bank. -/
abbrev Bank := Fin 64
/-- R228: an essence flow context. -/
abbrev Ctx := Fin 65536
/-- R262: a stream context. -/
abbrev Sc := Fin 1024
/-- R259: a coding engine. -/
abbrev Eng := Fin 48
/-- R405: a scratch window of an engine. -/
abbrev Win := Fin 8
/-- R418: a DMA channel. -/
abbrev Chan := Fin 64
/-- R432: a completion queue. -/
abbrev Cq := Fin 16
/-- R458: an interrupt group. -/
abbrev Grp := Fin 64
/-- R456: an interrupt source. -/
abbrev IntSrc := Fin 4096
/-- R509: a Hasp source. -/
abbrev HaspSrc := Fin 64
/-- R160: a trie slot. -/
abbrev TrieSlot := Fin 8

/-- R209: what a received pause frame asks: a PAUSE time, or a priority vector with a time for each priority. -/
inductive PauseFrame where
  | pause (quanta : BitVec 16)
  | pfc (enable : BitVec 8) (quanta : List (BitVec 16))
  deriving DecidableEq, Repr

/-- R116: why flit lock is lost. -/
inductive LockLoss where
  | controlBlock
  | crcFailures
  deriving DecidableEq, Repr

/-- R434, R439: what a started descriptor meets. -/
inductive DmaErr where
  | poisoned
  | pcieError
  deriving DecidableEq, Repr

/-- R439: a device request that meets an error, other than the data moves of a descriptor. -/
inductive ReqError where
  | descriptorFetch (c : Chan)
  | commandFetch (sc : Sc)
  | completion (poisoned : Bool)
  | poisonedWrite
  deriving DecidableEq, Repr

/-- R589: the wake sources. -/
inductive WakeSrc where
  | wakeN
  | stbyReqN
  | perstN
  | alarm
  deriving DecidableEq, Repr

/-- R290: what abandons a segment, with the engine's own checkers as the usual cause. -/
inductive RestartCause where
  | correctable
  | poisoned
  deriving DecidableEq, Repr

/-- R351: what the entropy coder reports for one CTU: bits and bins of the trial and of the degraded form (R349). -/
structure CtuResult where
  bits : Nat
  bins : Nat
  degBits : Nat
  degBins : Nat
  deriving DecidableEq, Repr

/-- R381: a fault that the decoder finds in a stream, with its place. -/
structure DecFault where
  kind : Nat
  sub : Nat
  poc : Int
  offset : Nat
  ctu : Nat
  deriving DecidableEq, Repr

/-- R390: what the parameter sets and slice headers of one access unit say of its picture (the codec standards lay them
out). -/
structure AuInfo where
  poc : Int
  width : Nat
  height : Nat
  chroma : Nat
  depth : Nat
  ctuSize : Nat
  /-- Tile columns and rows of the active PPS, in CTUs; none for a picture of one tile (R379). -/
  colW : List Nat
  rowH : List Nat
  /-- Wavefronts, and loop filters across tiles (R379, R380). -/
  wpp : Bool
  lfAcross : Bool
  profileIdc : Nat
  levelIdc : Nat
  /-- sps_max_num_reorder_pics, sps_max_latency_increase_plus1 and the DPB size of the active SPS (C.5.2). -/
  reorder : Nat
  latencyPlus1 : Nat
  dpbSize : Nat
  /-- NoOutputOfPriorPicsFlag of an IRAP picture (C.5.2). -/
  noPrior : Bool
  /-- PicOutputFlag. -/
  outFlag : Bool
  bins : Nat
  /-- User data of the raw SEI, empty when there is none (R378). -/
  raw : Bytes
  /-- Plane-0 values of a decoded picture hash SEI as carried and as computed; empty when there is none (R389). -/
  hashSei : Bytes
  hashCalc : Bytes
  /-- Every plane's hash agreed. -/
  hashOk : Bool
  /-- POCs that the reference picture set keeps, and those the picture itself needs, in list order (R385). -/
  kept : List Int
  refs : List Int
  deriving DecidableEq, Repr

/-- An access unit of which nothing is known yet. -/
def AuInfo.blank : AuInfo :=
  { poc := 0, width := 0, height := 0, chroma := 0, depth := 0, ctuSize := 0, colW := [], rowH := [], wpp := false,
    lfAcross := false, profileIdc := 0, levelIdc := 0, reorder := 0, latencyPlus1 := 0, dpbSize := 0, noPrior := false,
    outFlag := true, bins := 0, raw := [], hashSei := [], hashCalc := [], hashOk := true, kept := [], refs := [] }

/-- R289: what an engine reports with a commit: for an encoder the CTUs of the segment, the coded slices and
adaptation parameter sets in Annex B form, the bytes of O (R348) that these take, and the MD5 of the picture's planes;
for a decoder the access unit's syntax, the CTUs that each member has reconstructed, the finished lines as staged
bytes, whether the access unit has ended, and a stream fault; for both, the reconstructed samples of the commit, and
whether poisoned data was met (R403). Log 13 (DESIGN CHOICE). -/
structure SegResult where
  ctus : List CtuResult
  coded : Bytes
  overhead : Nat
  md5 : Bytes
  au : AuInfo
  done : List Nat
  samples : Bytes
  last : Bool
  fault : Option DecFault
  poisoned : Bool
  deriving DecidableEq, Repr

/-- R471: a firmware image as secure boot finds it in a flash slot; none where its signature, root hash or form fails
(R545 asks for the form by itself). Log 13 (DESIGN CHOICE). -/
structure FwImage where
  svn : Nat
  patchSvn : Nat
  patchLevel : Nat
  keyways : Nat
  patchOk : Bool
  digest : Bytes
  patchDigest : Bytes
  deriving DecidableEq, Repr

/-- R471, R579: what the boot steps find: the self-test's failing unit (0 for a pass), the PUF, the two flash slots, and
whether each flash's copy of the Ward store authenticates. Log 13 (DESIGN CHOICE). -/
structure BootIn where
  bistFail : Nat
  pufOk : Bool
  slotA : Option FwImage
  slotB : Option FwImage
  store0Ok : Bool
  store1Ok : Bool
  deriving DecidableEq, Repr

/-- R481: how an Adyel frame arrives: in the mailbox (MBX_REQ holds it, with the indirect payload that Tchien reads from
the host), or as a UDP datagram with its source. -/
inductive AdyelIn where
  | mailbox (indirect : Bytes)
  | udp (src : Nat) (fragmented : Bool) (frame : Bytes)
  deriving DecidableEq, Repr

/-- R538, R543: what Tchien logs, and whether an erase or a program then fails on flash 0 and on flash 1. -/
structure LogIn where
  bytes : Bytes
  fail0 : Bool
  fail1 : Bool
  deriving DecidableEq, Repr

/-- R499: an SPDM request, over DOE or over MCTP. -/
structure SpdmIn where
  doe : Bool
  msg : Bytes
  deriving DecidableEq, Repr

/-- R495: an MKPDU as Tchien parses it: the bytes under the ICV, the ICV, and a distributed SAK in its wrapped form. -/
structure Mkpdu where
  body : Bytes
  icv : Bytes
  wrappedSak : Bytes
  deriving DecidableEq, Repr

/-- R90, R495: a secure association to install: transmit, or receive from an SCI; its AN; whether the SAK was received
and unwrapped or drawn by the Ward as key server; the replay window and the first packet number. -/
structure SakIn where
  rxSci : Option Bytes
  an : Fin 4
  received : Bool
  window : Nat
  firstPn : Nat
  deriving DecidableEq, Repr

/-- PCIe configuration registers, by DWORD, whose fields the rules name (R438, R440, R448, R459). -/
inductive CfgReg where
  | vendorDevice
  | classRevision
  | msixTable
  | msixPba
  | sriovVfs
  | sriovStride
  | sriovVfDevice
  | command
  | msixControl
  | sriovControl
  | sriovNumVfs
  | l1SubstatesControl2
  deriving DecidableEq, Repr

/-- R601: the space that a host access names. -/
inductive RegSpace where
  | bar0
  | bar2
  | bar4
  | config (r : CfgReg)
  deriving DecidableEq, Repr

/-- R442: a host access: the space, the byte address, the byte enables of a write, and the number of DWORDs. -/
structure RegAddr where
  space : RegSpace
  addr : Nat
  be : BitVec 4 := 0xF#4
  dwords : Nat := 1
  deriving DecidableEq, Repr

/-- R534: what a sensor sample reads. Log 13 (DESIGN CHOICE). -/
inductive Sensor where
  | temp (n : Fin 16)
  | volt (n : Fin 24)
  deriving DecidableEq, Repr

/-- R582: the instructions of the TAP. -/
inductive JtagInstr where
  | bypass | idcode | samplePreload | extest | extestPulse | extestTrain | clamp
  deriving DecidableEq, Repr

/-- The commands: one constructor per row of the opcode table, in its order. Log 12 (DESIGN CHOICE). -/
inductive Instr where
  /-- FRAME_INGRESS (R13). -/
  | frameIngress (p : Port) (frame : Bytes) (fecCw fecSym : Nat)
  /-- CUT_THROUGH_TAIL (R202). -/
  | cutThroughTail (eg : Port)
  /-- L2_LEARN (R149). -/
  | l2Learn
  /-- L2_SWEEP (R152). -/
  | l2Sweep
  /-- SCHEDULER_SELECT (R204). -/
  | schedulerSelect (p : Port)
  /-- FRAME_EGRESS (R181). -/
  | frameEgress (p : Port)
  /-- SHAPER_REFILL (R207). -/
  | shaperRefill
  /-- PAUSE_RECEIVE (R209). -/
  | pauseReceive (p : Port) (f : PauseFrame)
  /-- PAUSE_EXPIRE (R209). -/
  | pauseExpire (p : Port) (classes : BitVec 8)
  /-- GCL_ARM (R214). -/
  | gclArm (fn : Fn) (p : Port) (w : Word)
  /-- GCL_ENABLE (R216). -/
  | gclEnable (fn : Fn) (p : Port) (w : Word)
  /-- GCL_DISABLE (R215). -/
  | gclDisable (fn : Fn) (p : Port) (w : Word)
  /-- GCL_CHANGE (R214). -/
  | gclChange (p : Port)
  /-- GATE_ENTRY_ADVANCE (R213). -/
  | gateEntryAdvance (p : Port)
  /-- LEAF_STALL (R217). -/
  | leafStall (q : Leaf)
  /-- LEAF_FLUSH (R218). -/
  | leafFlush (fn : Fn) (q : Leaf) (w : Word)
  /-- LEAF_FLUSH_END (R218). -/
  | leafFlushEnd (q : Leaf)
  /-- MAC_ENABLE (R88). -/
  | macEnable (fn : Fn) (p : Port) (w : Word)
  /-- MAC_DISABLE (R86). -/
  | macDisable (fn : Fn) (p : Port) (w : Word)
  /-- MAC_DRAIN_END (R88). -/
  | macDrainEnd (p : Port)
  /-- AN_RESTART (R84). -/
  | anRestart (fn : Fn) (p : Port) (w : Word)
  /-- AN_DONE (R82). -/
  | anDone (p : Port)
  /-- LINK_UP (R85). -/
  | linkUp (p : Port)
  /-- LINK_DOWN (R89). -/
  | linkDown (p : Port)
  /-- FEC_UNCORR_CODEWORD (R85). -/
  | fecUncorrCodeword (p : Port)
  /-- FREQ_IN_LOST (R95). -/
  | freqInLost
  /-- FREQ_IN_RESTORE (R95). -/
  | freqInRestore
  /-- FREQ_IN_DISABLE_SET (R95). -/
  | freqInDisableSet (fn : Fn) (w : Word)
  /-- FREQ_IN_DISABLE_CLEAR (R95). -/
  | freqInDisableClear (fn : Fn) (w : Word)
  /-- TIME_STEP (R96). -/
  | timeStep (fn : Fn) (w : Word)
  /-- SNAPSHOT (R104). -/
  | snapshot (fn : Fn) (w : Word)
  /-- TIME_RUN (R107). -/
  | timeRun (fn : Fn) (w : Word)
  /-- TIME_INCR_WRITE (R103). -/
  | timeIncrWrite (fn : Fn) (w : Word)
  /-- PPS_CAPTURE (R625). -/
  | ppsCapture
  /-- PPS_SECOND (R108). -/
  | ppsSecond
  /-- OUTPUT_PULSE_END (R108). -/
  | outputPulseEnd (line : Fin 9)
  /-- TICK (R21). -/
  | tick (td : Td)
  /-- TXTS_POP (R102). -/
  | txtsPop (fn : Fn) (p : Port)
  /-- SYNC_GPIO_WRITE (R110). -/
  | syncGpioWrite (fn : Fn) (w : Word)
  /-- TIMER_CAPTURE (R108). -/
  | timerCapture (b : Ball)
  /-- TIMER_START (R114). -/
  | timerStart (fn : Fn) (t : Timer) (w : Word)
  /-- TIMER_STOP (R112). -/
  | timerStop (fn : Fn) (t : Timer) (w : Word)
  /-- TIMER_FIRE (R114). -/
  | timerFire (t : Timer)
  /-- FLIT_LOCK (R116). -/
  | flitLock (l : Link)
  /-- FLIT_LOCK_LOSS (R116). -/
  | flitLockLoss (l : Link) (cause : LockLoss)
  /-- FLIT_SEND (R118). -/
  | flitSend (l : Link)
  /-- FLIT_RECEIVE (R118). -/
  | flitReceive (l : Link) (flit : Bytes)
  /-- HELLO (R122). -/
  | hello (l : Link) (body : Bytes)
  /-- LINK_STATE (R123). -/
  | linkState (l : Link) (body : Bytes)
  /-- TIME_SYNC (R132). -/
  | timeSync (l : Link) (body : Bytes)
  /-- TIME_SYNC_SEND (R132). -/
  | timeSyncSend
  /-- PEER_LOST (R124). -/
  | peerLost (l : Link)
  /-- LINK_RESTORE (R126). -/
  | linkRestore (l : Link)
  /-- FL_ENABLE (R128). -/
  | flEnable (fn : Fn) (l : Link) (w : Word)
  /-- FL_DISABLE (R128). -/
  | flDisable (fn : Fn) (l : Link) (w : Word)
  /-- FL_DRAIN_END (R128). -/
  | flDrainEnd (l : Link)
  /-- SHK_TICK_EDGE (R132). -/
  | shkTickEdge
  /-- SHK_TICK_LOST (R133). -/
  | shkTickLost
  /-- SHK_FAULT_SEEN (R130). -/
  | shkFaultSeen
  /-- SHK_RESET (R131). -/
  | shkReset
  /-- TRIE_RING_TAIL (R161). -/
  | trieRingTail (fn : Fn) (s : TrieSlot) (w : Word)
  /-- TRIE_RECORD_COMMIT (R162). -/
  | trieRecordCommit (s : TrieSlot) (fits : Bool)
  /-- TABLE_WRITE_COMMIT (R175). -/
  | tableWriteCommit (b : Bank) (index : Nat) (entry : Bytes)
  /-- TBL_LOCK (R177). -/
  | tblLock (fn : Fn) (b : Bank) (w : Word)
  /-- LOCK_ACTIVE (R177). -/
  | lockActive (b : Bank)
  /-- TBL_UNLOCK (R177). -/
  | tblUnlock (fn : Fn) (b : Bank) (w : Word)
  /-- ESSENCE_COPY (R236). -/
  | essenceCopy (s : Fin 8)
  /-- LINE_DEADLINE (R236). -/
  | lineDeadline (c : Ctx) (line : Nat)
  /-- PICTURE_CLOSE (R237). -/
  | pictureClose (c : Ctx)
  /-- LINE_TO_SLOT (R242). -/
  | lineToSlot (c : Ctx)
  /-- SLOT_RELEASE (R242). -/
  | slotRelease (e : Eng) (w : Win) (slot : Nat)
  /-- EGRESS_PACKET_DUE (R248). -/
  | egressPacketDue (c : Ctx)
  /-- EGRESS_PIC_TRUNC (R249). -/
  | egressPicTrunc (c : Ctx)
  /-- CODED_PACKET_SEND (R251). -/
  | codedPacketSend (c : Ctx)
  /-- ESS_OPEN (R231). -/
  | essOpen (fn : Fn) (w : Word)
  /-- ESS_CLOSE (R256). -/
  | essClose (fn : Fn) (w : Word)
  /-- ESS_ENABLE (R255). -/
  | essEnable (fn : Fn) (w : Word)
  /-- ESS_DISABLE (R255). -/
  | essDisable (fn : Fn) (w : Word)
  /-- ESS_READ (R233). -/
  | essRead (fn : Fn) (w : Word)
  /-- ESS_REKEY (R254). -/
  | essRekey (fn : Fn) (w : Word)
  /-- ESS_BIND (R233). -/
  | essBind (fn : Fn) (w : Word)
  /-- ESS_DRAIN_END (R255). -/
  | essDrainEnd (c : Ctx)
  /-- SRTP_OLD_KEY_EXPIRE (R254). -/
  | srtpOldKeyExpire (c : Ctx)
  /-- CG_ALLOC (R263). -/
  | cgAlloc (fn : Fn) (w : Word)
  /-- DOORBELL (R266). -/
  | doorbell (fn : Fn) (sc : Sc) (w : Word)
  /-- COMMAND_FETCH (R266). -/
  | commandFetch (sc : Sc) (records : List Bytes)
  /-- OPEN (R270). -/
  | scOpen (sc : Sc) (params : Bytes)
  /-- CLOSE (R296). -/
  | scClose (sc : Sc)
  /-- ENABLE (R295). -/
  | scEnable (sc : Sc)
  /-- DISABLE (R294). -/
  | scDisable (sc : Sc)
  /-- QUERY (R265). -/
  | scQuery (sc : Sc)
  /-- SET_PARAMS (R314). -/
  | scSetParams (sc : Sc) (params : Bytes)
  /-- SET_RC (R345). -/
  | scSetRc (sc : Sc) (record : Bytes)
  /-- SET_POLICY (R269). -/
  | scSetPolicy (sc : Sc)
  /-- ENCODE_PICTURE (R311). -/
  | scEncodePicture (sc : Sc)
  /-- DECODE_AU (R372). -/
  | scDecodeAu (sc : Sc)
  /-- FLUSH (R269). -/
  | scFlush (sc : Sc)
  /-- KEY_PICTURE (R318). -/
  | scKeyPicture (sc : Sc)
  /-- RELEASE_OUTPUT (R375). -/
  | scReleaseOutput (sc : Sc)
  /-- RESTART (R393). -/
  | scRestart (sc : Sc)
  /-- NOP (R269). -/
  | scNop (sc : Sc)
  /-- SEGMENT_COMMIT (R289). -/
  | segmentCommit (e : Eng) (r : SegResult)
  /-- SWAP_COMPLETE (R275). -/
  | swapComplete (e : Eng)
  /-- LIVE_OVERRUN (R284). -/
  | liveOverrun (sc : Sc)
  /-- ENGINE_RESTART (R290). -/
  | engineRestart (e : Eng) (cause : RestartCause)
  /-- CE_ENABLE (R293). -/
  | ceEnable (fn : Fn) (e : Eng) (w : Word)
  /-- CE_DISABLE (R292). -/
  | ceDisable (fn : Fn) (e : Eng) (w : Word)
  /-- CE_DRAIN_END (R293). -/
  | ceDrainEnd (e : Eng)
  /-- LIVE_EXCLUSIVE (R261). -/
  | liveExclusive (fn : Fn) (e : Eng) (w : Word)
  /-- SC_DRAIN_END (R295). -/
  | scDrainEnd (sc : Sc)
  /-- DECODE_UNDERRUN (R388). -/
  | decodeUnderrun (sc : Sc)
  /-- DC_ARM (R422). -/
  | dcArm (fn : Fn) (c : Chan) (w : Word)
  /-- SHADOW_WRITE (R424). -/
  | shadowWrite (fn : Fn) (c : Chan) (i : Fin 16) (w : Word)
  /-- HINGE (R423). -/
  | hinge (c : Chan)
  /-- DESCRIPTOR_END (R427). -/
  | descriptorEnd (c : Chan) (hostData : Bytes)
  /-- DMA_ERROR (R434). -/
  | dmaError (c : Chan) (err : DmaErr) (hostData : Bytes) (moved : Nat)
  /-- DC_RESUME (R434). -/
  | dcResume (fn : Fn) (c : Chan) (w : Word)
  /-- DC_ENABLE (R435). -/
  | dcEnable (fn : Fn) (c : Chan) (w : Word)
  /-- DC_DISABLE (R435). -/
  | dcDisable (fn : Fn) (c : Chan) (w : Word)
  /-- DC_DRAIN_END (R435). -/
  | dcDrainEnd (c : Chan)
  /-- DC_RING_TAIL (R426). -/
  | dcRingTail (fn : Fn) (c : Chan) (w : Word)
  /-- DESCRIPTOR_FETCH (R426). -/
  | descriptorFetch (c : Chan) (desc : Bytes)
  /-- CQ_ENABLE (R437). -/
  | cqEnable (fn : Fn) (q : Cq) (w : Word)
  /-- POOL_REQUEST (R411). -/
  | poolRequest (fn : Fn) (w : Word)
  /-- POOL_RETURN (R415). -/
  | poolReturn (fn : Fn) (w : Word)
  /-- WIN_CFG_WRITE (R405). -/
  | winCfgWrite (fn : Fn) (e : Eng) (win : Win) (w : Word)
  /-- WIN_ALLOC (R406). -/
  | winAlloc (fn : Fn) (e : Eng) (win : Win) (w : Word)
  /-- WIN_FREE (R406). -/
  | winFree (fn : Fn) (e : Eng) (win : Win) (w : Word)
  /-- HBM_CORRECTABLE_ERROR (R401). -/
  | hbmCorrectableError (addr : Nat)
  /-- HBM_UNCORRECTABLE_ERROR (R401). -/
  | hbmUncorrectableError (addr : Nat)
  /-- SRAM_ERROR (R402). -/
  | sramError (unit : Fin 5) (correctable : Bool)
  /-- HBM_INIT_DONE (R399). -/
  | hbmInitDone
  /-- HBM_PROMOTION (R26). -/
  | hbmPromotion (cls : Fin 3)
  /-- HBM_REFRESH_FORCED (R27). -/
  | hbmRefreshForced (bank : Nat)
  /-- SRAM_PATROL_SCRUB (R30). -/
  | sramPatrolScrub
  /-- HBM_PATROL_SCRUB (R30). -/
  | hbmPatrolScrub
  /-- SERDES_ADAPTATION (R30). -/
  | serdesAdaptation (lane : Fin 280)
  /-- BACKGROUND_OVERRUN (R31). -/
  | backgroundOverrun (activity : Fin 8)
  /-- LINK_TRAINED (R438). -/
  | linkTrained (speed width : Nat) (flit : Bool)
  /-- PCIE_REQUEST_ERROR (R439). -/
  | pcieRequestError (e : ReqError)
  /-- FUNCTION_LEVEL_RESET (R446). -/
  | functionLevelReset (fn : Fn)
  /-- VF_ENABLE_CLEAR (R446). -/
  | vfEnableClear
  /-- DSTATE_CHANGE (R447). -/
  | dstateChange (fn : Fn) (d3hot pmeEn clearPme : Bool)
  /-- PME_RESEND (R449). -/
  | pmeResend (fn : Fn)
  /-- L1_EXIT (R448). -/
  | l1Exit
  /-- MBX_GO (R451). -/
  | mbxGo (fn : Fn) (w : Word)
  /-- MBX_RESPONSE (R452). -/
  | mbxResponse
  /-- INT_SOURCE_RISE (R457). -/
  | intSourceRise (n : IntSrc)
  /-- INT_FORCE (R457). -/
  | intForce (fn : Fn) (word : Fin 128) (w : Word)
  /-- INT_MASK_WRITE (R460). -/
  | intMaskWrite (fn : Fn) (word : Fin 128) (w : Word)
  /-- RESEND (R458). -/
  | resend (fn : Fn) (g : Grp) (w : Word)
  /-- GROUP_COMMIT (R459). -/
  | groupCommit (g : Grp)
  /-- MSIX_UNMASK (R459). -/
  | msixUnmask (fn : Fn) (entry : Nat)
  /-- DUE_DELIVERY (R459). -/
  | dueDelivery (g : Grp)
  /-- DC_OWNER_WRITE (R444). -/
  | dcOwnerWrite (fn : Fn) (target : Chan ⊕ Cq) (w : Word)
  /-- GET_INFO (R482). -/
  | getInfo (a : AdyelIn)
  /-- GET_CERTS (R482). -/
  | getCerts (a : AdyelIn)
  /-- KEY_INFO (R482). -/
  | keyInfo (a : AdyelIn)
  /-- TAKE_OWNERSHIP (R475). -/
  | takeOwnership (a : AdyelIn)
  /-- RELEASE_OWNERSHIP (R476). -/
  | releaseOwnership (a : AdyelIn)
  /-- DECOMMISSION (R476). -/
  | decommission (a : AdyelIn)
  /-- SIGNER_SET (R494). -/
  | signerSet (a : AdyelIn)
  /-- KEY_IMPORT (R490). -/
  | keyImport (a : AdyelIn)
  /-- KEY_DESTROY (R492). -/
  | keyDestroy (a : AdyelIn)
  /-- IMAGE_LOAD (R67). -/
  | imageLoad (a : AdyelIn)
  /-- IMAGE_DELTA (R67). -/
  | imageDelta (a : AdyelIn)
  /-- LOAD_VALIDATION_END (R68). -/
  | loadValidationEnd
  /-- DELTA_VALIDATION_END (R71). -/
  | deltaValidationEnd
  /-- DELTA_APPLY (R72). -/
  | deltaApply
  /-- SVN_COMMIT (R474). -/
  | svnCommit (a : AdyelIn)
  /-- DEBUG_GRANT (R503). -/
  | debugGrant (a : AdyelIn)
  /-- DEBUG_REVOKE (R503). -/
  | debugRevoke (a : AdyelIn)
  /-- GRANT_EXPIRE (R503). -/
  | grantExpire
  /-- MACSEC_CAK_BIND (R495). -/
  | macsecCakBind (a : AdyelIn)
  /-- PTP_SMPTE_TLV (R482). -/
  | ptpSmpteTlv (a : AdyelIn)
  /-- MKPDU_RECEIVE (R495). -/
  | mkpduReceive (p : Port) (m : Mkpdu)
  /-- SAK_INSTALL (R495). -/
  | sakInstall (p : Port) (k : SakIn)
  /-- ENTROPY_FAIL (R466). -/
  | entropyFail
  /-- GET_VERSION (R498). -/
  | getVersion (q : SpdmIn)
  /-- GET_CAPABILITIES (R498). -/
  | getCapabilities (q : SpdmIn)
  /-- NEGOTIATE_ALGORITHMS (R498). -/
  | negotiateAlgorithms (q : SpdmIn)
  /-- GET_DIGESTS (R498). -/
  | getDigests (q : SpdmIn)
  /-- GET_CERTIFICATE (R498). -/
  | getCertificate (q : SpdmIn)
  /-- CHALLENGE (R498). -/
  | challenge (q : SpdmIn)
  /-- GET_MEASUREMENTS (R502). -/
  | getMeasurements (q : SpdmIn)
  /-- HASP_LINE_RISE (R514). -/
  | haspLineRise (n : HaspSrc) (detail : Byte)
  /-- HASP_WINDOW_CLOSE (R517). -/
  | haspWindowClose (n : HaspSrc)
  /-- HASP_ACK (R523). -/
  | haspAck (fn : Fn) (hi : Bool) (w : Word)
  /-- HASP_CLEAR (R524). -/
  | haspClear (fn : Fn) (hi : Bool) (w : Word)
  /-- SENSOR_SAMPLE (R535). -/
  | sensorSample (s : Sensor) (reading : BitVec 16)
  /-- LOG_ENTRY (R543). -/
  | logEntry (kind : BitVec 16) (data : LogIn)
  /-- SENSOR_READ (R544). -/
  | sensorRead (a : AdyelIn)
  /-- SENSOR_LIMITS (R536). -/
  | sensorLimits (a : AdyelIn)
  /-- LOG_INFO (R544). -/
  | logInfo (a : AdyelIn)
  /-- LOG_READ (R544). -/
  | logRead (a : AdyelIn)
  /-- LOG_CERT (R541). -/
  | logCert (a : AdyelIn)
  /-- LOG_SEAL (R541). -/
  | logSeal (a : AdyelIn)
  /-- FW_WRITE (R545). -/
  | fwWrite (a : AdyelIn) (wellFormed : Bool) (image : Option FwImage) (readBackOk : Bool)
  /-- FW_STATUS (R544). -/
  | fwStatus (a : AdyelIn)
  /-- FW_REBOOT (R544). -/
  | fwReboot (a : AdyelIn)
  /-- MGMT_NET (R544). -/
  | mgmtNet (a : AdyelIn)
  /-- CONSOLE_INFO (R547). -/
  | consoleInfo
  /-- CONSOLE_SENSORS (R547). -/
  | consoleSensors
  /-- CONSOLE_HASP (R547). -/
  | consoleHasp
  /-- CONSOLE_LOG (R547). -/
  | consoleLog (n : Nat)
  /-- CONSOLE_PEEK (R547). -/
  | consolePeek (addr : Nat)
  /-- CONSOLE_POKE (R547). -/
  | consolePoke (addr : Nat) (w : Word)
  /-- CONSOLE_EYE (R547). -/
  | consoleEye (octet lane : Nat)
  /-- CONSOLE_TRACE (R547). -/
  | consoleTrace (w : Word)
  /-- DUMP_TRIGGER (R552). -/
  | dumpTrigger
  /-- DUMP_NOW (R552). -/
  | dumpNow (fn : Fn) (w : Word)
  /-- DUMP_COMPLETE (R553). -/
  | dumpComplete
  /-- BW_WINDOW_END (R551). -/
  | bwWindowEnd
  /-- BW_WINDOW_WRITE (R551). -/
  | bwWindowWrite (fn : Fn) (w : Word)
  /-- PEAK_CLEAR (R568). -/
  | peakClear (fn : Fn) (w : Word)
  /-- TRC_DATA_READ (R563). -/
  | trcDataRead (fn : Fn)
  /-- TRC_FLUSH (R564). -/
  | trcFlush (fn : Fn) (w : Word)
  /-- TRC_IDLE_CLOSE (R565). -/
  | trcIdleClose
  /-- TRC_SINK_SET (R567). -/
  | trcSinkSet (fn : Fn) (w : Word)
  /-- OBS_WORD_SEND (R567). -/
  | obsWordSend
  /-- POWER_UP (R571). -/
  | powerUp (testEn : Bool)
  /-- RAIL_LOSS (R571). -/
  | railLoss
  /-- PORST_FALL (R576). -/
  | porstFall
  /-- SYSRST (R578). -/
  | sysrst
  /-- BOOT_COMPLETE (R648). -/
  | bootComplete (b : BootIn)
  /-- PERST_FALL (R577). -/
  | perstFall
  /-- PERST_RISE (R589). -/
  | perstRise
  /-- MODE_REQ_OPERATE (R583). -/
  | modeReqOperate (fn : Fn) (w : Word)
  /-- MODE_REQ_CONFIGURE (R584). -/
  | modeReqConfigure (fn : Fn) (w : Word)
  /-- CONFIGURE_ENTRY (R584). -/
  | configureEntry
  /-- STANDBY_REQUEST (R585). -/
  | standbyRequest (fn : Fn) (w : Word)
  /-- STBY_REQ_PIN (R585). -/
  | stbyReqPin
  /-- L2_READY_ENTRY (R585). -/
  | l2ReadyEntry
  /-- STANDBY_GATING (R586). -/
  | standbyGating
  /-- STANDBY_REACHED (R586). -/
  | standbyReached
  /-- WAKE (R589). -/
  | wake (src : WakeSrc) (release : Bool)
  /-- ALARM (R599). -/
  | alarm
  /-- WAKE_DWELL_END (R590). -/
  | wakeDwellEnd
  /-- WAKE_RESUME (R591). -/
  | wakeResume
  /-- REGISTER_WRITE (R605). -/
  | registerWrite (fn : Fn) (a : RegAddr) (w : Word)
  /-- COUNTER_READ_CLEAR (R606). -/
  | counterReadClear (fn : Fn) (a : RegAddr)
  /-- LATCHED_READ (R608). -/
  | latchedRead (fn : Fn) (a : RegAddr)
  /-- RAIL_UP (R573). -/
  | railUp
  /-- RESET_RELEASE (R578). -/
  | resetRelease (testEn : Bool)
  /-- LINK_L1_ENTRY (R448). -/
  | linkL1Entry (substate : Bool)
  /-- HASP_LINE_FALL (R509). -/
  | haspLineFall (n : HaspSrc)
  /-- ENTROPY_RESTORE (R466). -/
  | entropyRestore
  /-- ADYEL_BAD_FRAME (R483). -/
  | adyelBadFrame (a : AdyelIn)
  /-- DENIED_ACCESS (R441). -/
  | deniedAccess (fn : Fn) (a : RegAddr) (write : Bool)
  /-- BOUNDARY_SCAN (R582). -/
  | boundaryScan (i : JtagInstr) (data : Bytes)
  deriving DecidableEq, Repr

end Sys2Proof
end

