-- ==== Sys2Proof/WellFormed.lean ====
section
/-! DEFINITION. The checks a command passes beside the ranges that its operand types already hold. -/
namespace Sys2Proof

/-- R209: eight pause times, one for each priority. -/
def PauseFrame.wf : PauseFrame → Bool
  | .pause _ => true
  | .pfc _ q => q.length == 8

/-- R442: a host address lies within its BAR, and an access moves at least one DWORD. -/
def RegAddr.wf (a : RegAddr) : Bool :=
  decide (1 ≤ a.dwords) &&
    match a.space with
    | .bar0 => decide (a.addr < 2 ^ 26)
    | .bar2 => decide (a.addr < 2 ^ 28)
    | .bar4 => decide (a.addr < 2 ^ 16)
    | .config _ => true

/-- The command is one that the block can be given. -/
def Instr.wf : Instr → Bool
  | .frameIngress _ f _ _ => decide (4 < f.length)
  | .pauseReceive _ f => f.wf
  | .flitReceive _ f => f.length == 512
  | .hello _ b => b.length == 16
  | .linkState _ b => b.length == 16
  | .timeSync _ b => b.length == 16
  | .tableWriteCommit _ i e => decide (i < 65536) && decide (e.length ≤ 64)
  | .lineDeadline _ l => decide (l < 8640)
  | .slotRelease _ _ n => decide (n < 4096)
  | .commandFetch _ rs => decide (rs.length ≤ 16) && rs.all (fun r => r.length == 64)
  | .descriptorFetch _ d => d.length == 64
  | .hbmCorrectableError a => decide (a < 72 * 2 ^ 30)
  | .hbmUncorrectableError a => decide (a < 72 * 2 ^ 30)
  | .linkTrained sp w _ => decide (1 ≤ sp) && decide (sp ≤ 6) && decide (1 ≤ w) && decide (w ≤ 16)
  | .msixUnmask fn e => decide (e < if fn.val = 0 then 1024 else 16)
  | .logEntry _ d => decide (d.bytes.length ≤ 24)
  | .consolePeek a => decide (a < 2 ^ 26)
  | .consolePoke a _ => decide (a < 2 ^ 26)
  | .consoleEye o l => decide (o < 35) && decide (l < 8)
  | .bootComplete b => decide (b.bistFail ≤ 8)
  | .sakInstall _ k => decide (k.window ≤ 2 ^ 30)
  | .registerWrite _ a _ => a.wf
  | .counterReadClear _ a => a.wf
  | .latchedRead _ a => a.wf
  | .deniedAccess _ a _ => a.wf
  | _ => true

end Sys2Proof
end

