-- ==== Sys2Proof/Config.lean ====
section
/-! DEFINITION. What the manual leaves open: the free values (constants with no body), and the functions whose results
the manual takes from a named standard (cryptography) without giving them here. Nothing in Lean can evaluate them, so a
claim about one holds whatever it is. -/
namespace Sys2Proof.Config

/-! ### What an encoder signals (chapters 08 and 09) -/

/-- R307, R308, R356: a coding tool that the encoder's tables mark as used. A tool that the tables mark "Never" has no name
here. -/
inductive Tool where
  | asymmetricPartitions
  | strongIntraSmoothing
  | transformSkip
  | temporalMotion
  | signDataHiding
  | ctuQpDelta
  | deblocking
  | sao
  | tiles
  | wavefronts
  | dependentSlices
  | crossComponent
  | extendedPrecision
  | pictureHash
  | dualTree
  | multipleReferenceLines
  | matrixIntra
  | crossComponentLinear
  | multipleTransforms
  | lfnst
  | dependentQuantisation
  | jointChroma
  | mmvd
  | subblockMerge
  | affine
  | adaptiveMotionResolution
  | bdof
  | dmvr
  | alf
  | ccAlf
  | rectangularSlices
  deriving DecidableEq, Repr

/-- R358: the one schedule of hrd_parameters. -/
structure HrdInfo where
  cbr : Bool
  bitRate : Nat
  cpbSize : Nat
  deriving DecidableEq, Repr

/-- R302 to R308, R312, R320, R329, R358: what the parameter sets of a stream say. Log 213 (DESIGN CHOICE). -/
structure ParamSets where
  codec : Nat
  profileIdc : Nat
  levelIdc : Nat
  tier : Nat
  chroma : Nat
  depth : Nat
  /-- Coded size, and the columns and lines that the conformance window cuts off. -/
  width : Nat
  height : Nat
  cropRight : Nat
  cropBottom : Nat
  ctu : Nat
  /-- Widths of the tile columns and heights of the tile rows, in CTUs. -/
  tileCols : List Nat
  tileRows : List Nat
  lfAcrossTiles : Bool
  tools : List Tool
  primaries : Nat
  transfer : Nat
  matrix : Nat
  fullRange : Nat
  /-- num_units_in_tick and time_scale. -/
  timing : Option (Nat × Nat)
  hrd : Option HrdInfo
  deriving DecidableEq, Repr

/-- R307, R317, R358: a NAL unit that the encoder writes beside its slices, by what it says. -/
inductive CodedNal where
  | vps (p : ParamSets)
  | sps (p : ParamSets)
  | pps (p : ParamSets)
  /-- Buffering period SEI: the initial removal delay in 90 kHz units. -/
  | bufferingPeriod (codec delay : Nat)
  /-- Picture timing SEI: picture periods since the access unit of the last buffering period. -/
  | pictureTiming (codec delay : Nat)
  /-- Decoded picture hash SEI of the MD5 type. -/
  | pictureHash (codec : Nat) (md5 : Bytes)
  deriving DecidableEq, Repr

/-- The bytes of a NAL unit, from its header on, that H.265 and H.266 lay out. Log 213 (DESIGN CHOICE). -/
opaque nalUnit : CodedNal → Bytes

/-- R381, R382: the largest picture buffer that a level allows for a picture size (codec, level times ten, luma samples), in
pictures. -/
opaque maxDpb : (codec level luma : Nat) → Nat

/-! ### Randomness, cryptography and constants of the die -/

/-- R466: the n-th random draw of the device (DRBG, slice random sources, engine sampling), as `len` bytes. Log 8
(DESIGN CHOICE). -/
opaque random : (draw len : Nat) → Bytes

/-- R469: HMAC-SHA-384 of a message under a key. -/
opaque hmac384 : (key msg : Bytes) → Bytes

/-- SHA-384 of a byte string (R35, R500, R540). -/
opaque sha384 : Bytes → Bytes

/-- ECDSA P-384 with SHA-384: does the signature verify under the public key (R37, R475, R545). -/
opaque ecdsaVerify : (pub msg sig : Bytes) → Bool

/-- ECDSA P-384 signature that the Ward makes with the key derived from a seed (R498, R541). -/
opaque ecdsaSign : (seed msg : Bytes) → Bytes

/-- R475: is the byte string a point on the P-384 curve. -/
opaque onCurve : Bytes → Bool

/-- R475: X coordinate of the DevID private key times a point. -/
opaque ecdhX : (seed pub : Bytes) → Bytes

/-- R489: RFC 5649 unwrap; none when the integrity check fails. -/
opaque unwrap5649 : (kek wrapped : Bytes) → Option Bytes

/-- AES-256-GCM open: the plaintext, or none when the tag fails (R38, R91, R253). -/
opaque gcmOpen : (key nonce aad ct tag : Bytes) → Option Bytes

/-- AES-256-GCM seal: ciphertext followed by the 16-byte tag (R91, R253, R337). -/
opaque gcmSeal : (key nonce aad pt : Bytes) → Bytes

/-- R91, R202: the plaintext that the decryption stream gives before the tag is known. -/
opaque gcmStream : (key nonce ct : Bytes) → Bytes

/-- R495: RFC 3394 unwrap of a received SAK under a KEK; none when the check fails. -/
opaque unwrap3394 : (kek wrapped : Bytes) → Option Bytes

/-- R495: does the ICV of an MKPDU verify under the ICK that IEEE 802.1X derives from CAK and CKN. -/
opaque mkaIcvOk : (cakCkn body icv : Bytes) → Bool

/-- R495: the KEK that IEEE 802.1X derives from CAK and CKN. -/
opaque mkaKek : (cakCkn : Bytes) → Bytes

/-- R90: the SCI of a port's transmit secure channel, 8 bytes. Log 50 (DEDUCED). -/
opaque portSci : Nat → Bytes

/-- R496: session key and salt of an SRTP flow from master key and salt (RFC 3711 KDF). -/
opaque srtpKdf : Bytes → Bytes

/-- R467: fuses written at manufacture, 16 bytes of SERIAL. -/
opaque serial : Bytes

/-- R467: fuses written at manufacture, 48 bytes of FW_ROOT_HASH. -/
opaque fwRootHash : Bytes

/-- R465: the DEVICE_SEED and PUF secrets of this die, as one seed of the DevID key. -/
opaque devidSeed : Bytes

/-- R470: the certificate chain issued at manufacture. -/
opaque devidChain : Bytes

/-- R500: digest of the boot ROM and the Ward ROM (measurement 1). -/
opaque romDigest : Bytes

/-- R469: the alias key seed of one boot, from measurements 1 to 3. -/
opaque aliasSeed : Bytes → Bytes

/-- R544: the management MAC address that GET_INFO reports, 6 bytes. -/
opaque mgmtMac : Bytes

/-- R297: sequencer ROM revision reported in CE_UCODE.ROM_REV. -/
opaque romRev : BitVec 16

/-- R482, R544, R547: bytes of an answer whose inner layout the manual does not give, by opcode and the items it
carries. Log 6 (DESIGN CHOICE). -/
opaque answerLayout : (opcode : Nat) → (items : List Nat) → Bytes

/-- R498: bytes of an SPDM response body that the SPDM standard lays out, by request and the device's digests. -/
opaque spdmBody : (request : Bytes) → (content : Bytes) → Bytes

/-- R304, R320, R343: the level limits of H.265 and H.266 (codec, level times ten, tier, item): 0 largest luma picture
size, 1 luma sample rate, 4 tile columns, 5 tile rows, and, plus 16 times the profile, 2 bit rate in 1,000 bit/s and 3
coded picture buffer in bits. The manual names the standards and does not copy the tables. -/
opaque levelLimit : (codec level tier item : Nat) → Nat

/-- R353: bytes of cabac_zero_words that the standards' limit on bins per VCL byte asks for. -/
opaque zeroWordBytes : (codec bins vclBytes luma : Nat) → Nat

/-- R23, R27: the bank to which a requester's burst at a core cycle goes. The manual gives no address of these bursts.
Log 195 (DESIGN CHOICE). -/
opaque hbmBank : (requester cclk : Nat) → Nat

/-- A free value for a result the manual leaves open: which one, and the number of the draw. Log 7 (DESIGN CHOICE).
Log 67 (DESIGN CHOICE). -/
opaque freeValue : (what draw : Nat) → Nat

end Sys2Proof.Config
end

