-- ==== Sys2Proof/Machine/Bytes.lean ====
section
/-! DEFINITION. Byte strings as numbers (R7: little-endian unless a rule says otherwise), bit fields, CRC-32. -/
namespace Sys2Proof.Machine

/-- Little-endian value of a byte string (R7). -/
def leNat : Bytes → Nat
  | [] => 0
  | b :: bs => b.toNat + 256 * leNat bs

/-- Big-endian value of a byte string (network fields, R37, R333). -/
def beNat (bs : Bytes) : Nat := bs.foldl (fun a b => a * 256 + b.toNat) 0

/-- The low `n` bytes of `v`, least significant first. -/
def leBytes : (n v : Nat) → Bytes
  | 0, _ => []
  | n + 1, v => BitVec.ofNat 8 v :: leBytes n (v / 256)

/-- The low `n` bytes of `v`, most significant first. -/
def beBytes (n v : Nat) : Bytes := (leBytes n v).reverse

/-- `n` bytes from offset `off`; missing bytes are left out. -/
def slice (bs : Bytes) (off n : Nat) : Bytes := (bs.drop off).take n

/-- `n`-byte little-endian field at `off`. -/
def fieldLE (bs : Bytes) (off n : Nat) : Nat := leNat (slice bs off n)

/-- `n`-byte big-endian field at `off`. -/
def fieldBE (bs : Bytes) (off n : Nat) : Nat := beNat (slice bs off n)

/-- Exactly `n` bytes: cut, or padded with zeros. -/
def fitTo (n : Nat) (bs : Bytes) : Bytes := (bs ++ List.replicate n 0#8).take n

/-- Bits `hi` down to `lo` of `v`. -/
def bits (v hi lo : Nat) : Nat := (v >>> lo) % 2 ^ (hi + 1 - lo)

/-- Bit `n` of `v`. -/
def bit (v n : Nat) : Bool := v.testBit n

/-- A Bool as a bit. -/
def b2n (b : Bool) : Nat := if b then 1 else 0

/-- The 32-bit two's complement reading of `v`. -/
def signed (w v : Nat) : Int := if v < 2 ^ (w - 1) then (v : Int) else (v : Int) - 2 ^ w

/-- The low `w` bits of an integer, two's complement. -/
def twos (w : Nat) (v : Int) : Nat := (v % (2 ^ w : Nat)).toNat

/-- Quotient rounded up. -/
def ceilDiv (a b : Nat) : Nat := if b = 0 then 0 else (a + b - 1) / b

/-- `v` held between two limits. -/
def clampN (lo hi v : Nat) : Nat := if v < lo then lo else if v > hi then hi else v

/-- Saturating addition at `m`. -/
def satAdd (m a b : Nat) : Nat := min m (a + b)

/-- Overwrite bytes of `bs` from `off` with `new` (never grows past its length). -/
def splice (bs : Bytes) (off : Nat) (new : Bytes) : Bytes :=
  (bs.take off ++ new ++ bs.drop (off + new.length)).take bs.length

/-- One bit of the reflected CRC-32 division (R165). -/
def crcBit (h : Nat) : Nat := if h % 2 = 1 then (h / 2) ^^^ 0xEDB88320 else h / 2

/-- R165: one byte of CRC32H. -/
def crcByte (h : Nat) (b : Byte) : Nat :=
  crcBit (crcBit (crcBit (crcBit (crcBit (crcBit (crcBit (crcBit (h ^^^ b.toNat))))))))

/-- R165: CRC32H(seed, key), no final inversion. -/
def crc32h (seed : Nat) (key : Bytes) : Nat := key.foldl crcByte seed

/-- CRC-32 of IEEE 802.3 (R40, R83, R117). -/
def crc32 (bs : Bytes) : Nat := (crc32h 0xFFFFFFFF bs) ^^^ 0xFFFFFFFF

/-- R182: `e1` is at or after `e2`, modulo 2^32. -/
def atOrAfter32 (e1 e2 : Nat) : Bool := (e1 + 2 ^ 32 - e2 % 2 ^ 32) % 2 ^ 32 < 2 ^ 31

/-- One's complement sum of 16-bit words of a header (IPv4 header checksum, UDP checksum). -/
def onesSum : Bytes → Nat
  | [] => 0
  | [a] => a.toNat * 256
  | a :: b :: r => a.toNat * 256 + b.toNat + onesSum r

/-- Folded one's complement checksum of a byte string. -/
def inetChecksum (bs : Bytes) : Nat :=
  let f := fun v : Nat => v % 65536 + v / 65536
  65535 - f (f (f (onesSum bs)))

/-- Bit string extraction from the front of a byte string, transmission order: `w` bits from bit `off` (R45). -/
def bitField (bs : Bytes) (off w : Nat) : Nat :=
  let n := (off + w + 7) / 8 - off / 8
  bits (fieldBE bs (off / 8) n) (n * 8 - off % 8 - 1) (n * 8 - off % 8 - w)

end Sys2Proof.Machine
end

