-- ==== Sys2Proof/Machine/Regs.lean ====
section
/-! DEFINITION. Every register of R613 with its place (R602), and every field with its bits, access type (R9) and
reset value, as the field tables of the chapters give them. A register of a repeated block has one instance per index. -/
namespace Sys2Proof.Machine

/-- R9: the access types of register fields. -/
inductive Access where
  | RW | RO | W1C | W1S | RC | WO | RWI | RWA
  deriving DecidableEq, Repr

/-- R613: the registers, by the names of the manual (numbered registers as one name with an instance). -/
inductive Reg where
  -- Global 00/16/17
  | GLB_ID
  | GLB_MODE
  | GLB_MODE_REQ
  | STBY_STATUS
  | GLB_WAKE_CFG
  | GLB_WAKE_TIME_NS
  | GLB_WAKE_TIME_SEC
  | GLB_RESET_CAUSE
  | GLB_BIST
  | IMG_STATUS
  | IMG_CLAIM_A
  | IMG_CLAIM_B
  | IMG_SERIAL
  | IMG_SVN
  -- Hasp 14
  | HASP_STATUS_LO
  | HASP_STATUS_HI
  | HASP_ACK_LO
  | HASP_ACK_HI
  | HASP_CAUSE_LO
  | HASP_CAUSE_HI
  | HASP_CTRL
  | HASP_PINS
  | HASP_FIRST
  | HASP_LATCHES
  | HASP_SRC_CLASS
  | HASP_SRC_WINDOW
  | HASP_SRC_STATE
  | HASP_SRC_WIN
  -- Time 03
  | TIME_CTRL
  | TIME_INCR
  | TIME_SNAP_NS
  | TIME_SNAP_SEC_LO
  | TIME_SNAP_SEC_HI
  | TIME_STEP_NS
  | TIME_STEP_SEC
  | TIME_STATUS
  | TIME_PPS_NS
  | TIME_PPS_SEC
  | SHK_CTRL
  | SHK_STATUS
  | SYNC_GPIO
  | TICK_CTRL
  | TICK_N
  | TICK_D
  | TICK_IDX_LO
  | TICK_IDX_HI
  | TICK_SKIP
  | TMR_CTRL
  | TMR_PERIOD_NS
  | TMR_START_NS
  | TMR_START_SEC
  | TMR_CAP_NS
  | TMR_CAP_SEC
  | TMR_PULSE_NS
  -- Interrupt sources 12
  | INT_PEND
  | INT_MASK
  | INT_RAW
  | INT_FORCE
  -- Host interface 12
  | HIF_LINK
  | HIF_L1_COUNT
  | HIF_NUM_VFS
  | HIF_DENIED
  | HIF_REQ_ERR
  | HIF_DC_OWNER
  | HIF_CQ_OWNER
  | HIF_VF_QUOTA
  | HIF_FUNC_PM
  | HIF_CPG_PERM
  -- Ward 13
  | WARD_STATE
  | WARD_BOOT
  | WARD_SVN
  | WARD_IMG_FLOOR
  | WARD_CTR_LO
  | WARD_CTR_HI
  | WARD_KEYS
  | WARD_AUTH_FAIL
  | WARD_REPLAY
  | WARD_GRANT_LEFT
  -- MAC 03
  | MAC_CTRL
  | MAC_STATUS
  | MAC_PTP
  | MAC_TXTS_ID
  | MAC_TXTS_NS
  | MAC_TXTS_SEC
  -- Faush links 03
  | FL_CTRL
  | FL_STATUS
  | FL_REPLAYS
  | FL_LOST_PKTS
  -- Pipeline 04
  | PL_HASH_SEED
  | PL_LAG_SEED
  | PL_TAG_CTRL
  | PL_FLOOD_BASE
  | PL_L2_LEARN_FAIL
  | PL_L2_DEFER_DROP
  | PL_PARSE_LIMIT
  | PL_MC_NO_RECORD
  | PL_TBL_BAD_WR
  | PL_PUNT_DROP
  | TBL_CTRL
  | TBL_EPOCH
  | TBL_DRAIN_EPOCH
  | TBL_STATUS
  | TRIE_RING_TAIL
  | TRIE_RING_HEAD
  | TRIE_STATUS
  | PL_PORT_CFG0
  | PL_PORT_CFG1
  | PL_PORT_CFG2
  | PL_PORT_CFG3
  | PL_VRF_LEN0
  | PL_VRF_LEN1
  | PL_VRF_LEN2
  | PL_VRF_LEN3
  -- Traffic manager 05
  | TM_CTRL
  | TM_SHARED_USED
  | TM_SHARED_PEAK
  | TM_NO_LEAF
  | TM_LEAF_MISMATCH
  | TM_CTRL_DROP
  | TM_SHARED_DROP
  | TM_STALLED_LEAVES
  | TM_STALL_FIRST
  | TM_PORT_CTRL
  | TM_PORT_SHAPE
  | TM_PORT_BURST
  | TM_PORT_PAUSED
  | TM_CT_FRAMES
  | TM_CT_FALLBACK
  | TM_CT_STOMP_RX
  | TM_CT_STOMP_TX
  | TM_MC_LEAF
  | TM_CLS_SHAPE
  | TM_CLS_BURST
  | TM_LEAF_SHAPE
  | TM_LEAF_BURST
  | TM_LEAF_DEPTH
  | TM_LEAF_DROP
  | TM_LEAF_ECN
  | TM_LEAF_STALL
  | TM_LEAF_FLUSHED
  | TM_LEAF_STATUS
  | TM_POL_RATE
  | TM_POL_BURST
  | TM_POL_DROP
  | TM_GCL_CTRL
  | TM_GCL_LEN
  | TM_GCL_CYCLE_NS
  | TM_GCL_BASE_NS
  | TM_GCL_BASE_SEC
  | TM_GCL_BASE_SEC_HI
  | TM_GCL_CHANGE_NS
  | TM_GCL_CHANGE_SEC
  | TM_GCL_STATUS
  | TM_GCL_TRUNC
  -- Essence 06
  | ESS_CMD
  | ESS_CMD_CTX
  | ESS_CTX_OVERFLOW
  | ESS_OPEN_REFUSED
  | ESS_ATTACH_DROP
  | ESS_OPEN_COUNT
  | ESS_RING_FREE
  | ESS_EVENT
  | ESS_ARG
  -- Engines 07/11
  | CE_CTRL
  | CE_STATUS
  | CE_UCODE
  | CE_KEYWAYS
  | CE_LIVE_LOAD
  | CE_PREEMPTS
  | CE_RESTARTS
  | CE_OVERRUNS
  | CE_MAX_WAIT
  | CE_BUSY_LO
  | CE_BUSY_HI
  | CE_WIN_CFG
  | CE_WIN_CTRL
  | CE_WIN_STATUS
  -- Coding global 07
  | CG_ALLOC
  | CG_OPEN_COUNT
  | CG_NO_CONTEXT
  | SC_RING_LO
  | SC_RING_HI
  | SC_RING_CFG
  | SC_DOORBELL
  | SC_HEAD
  | SC_STATE
  | SC_STAT_HEAD
  | SC_STAT_TAIL
  -- Memory 11
  | MEM_HBM_CE
  | MEM_HBM_UE
  | MEM_UE_ADDR_LO
  | MEM_UE_ADDR_HI
  | MEM_SRAM_CE
  | MEM_SRAM_UE
  | MEM_STATUS
  | POOL_LOG2
  | POOL_COUNT
  | POOL_BASE_LO
  | POOL_BASE_HI
  | POOL_FREE
  | POOL_MIN_FREE
  | POOL_FALLBACK
  | POOL_REQ
  | POOL_RESP
  | POOL_PTR_LO
  | POOL_PTR_HI
  | POOL_RET_LO
  | POOL_RET_HI
  | POOL_RET_RESP
  | POOL_BAD_RET
  -- DMA 11
  | DC_CTRL
  | DC_STATUS
  | DC_HINGE_CNT
  | DC_SHD_STAMP
  | DC_BYTES
  | DC_BYTES_HI
  | DC_SHD
  | DC_ACT
  | DC_RING_LO
  | DC_RING_HI
  | DC_RING_CFG
  | DC_RING_TAIL
  | DC_RING_HEAD
  | CQ_BASE_LO
  | CQ_BASE_HI
  | CQ_CFG
  | CQ_HEAD
  | CQ_TAIL
  | CQ_LOST
  | CQ_STATUS
  -- Interrupt groups 12
  | INT_GRP_CFG
  | INT_GRP_HOLDOFF
  | INT_GRP_CTRL
  | INT_GRP_STATUS
  | INT_GRP_LEFT
  | INT_GRP_SENT
  | INT_GRP_PME
  -- Counters trace sensors 15
  | TRC_CTRL
  | TRC_STATUS
  | TRC_DROPS
  | TRC_DATA
  | TRC_SEQ_CTRL
  | DUMP_CTRL
  | DUMP_STATUS
  | DUMP_SKIPPED
  | BW_CTRL
  | MGMT_TEMP
  | MGMT_TEMP_PEAK
  | MGMT_TEMP_LIMITS
  | MGMT_VOLT
  | MGMT_VOLT_WIN
  -- Mailbox BAR4 12
  | MBX_REQ_LEN
  | MBX_IND_LO
  | MBX_IND_HI
  | MBX_IND_LEN
  | MBX_CTRL
  | MBX_STATUS
  | MBX_SEQ
  deriving DecidableEq, Repr

/-- A number for each register, the order of R613. -/
def Reg.idx : Reg → Nat
  | .GLB_ID => 0
  | .GLB_MODE => 1
  | .GLB_MODE_REQ => 2
  | .STBY_STATUS => 3
  | .GLB_WAKE_CFG => 4
  | .GLB_WAKE_TIME_NS => 5
  | .GLB_WAKE_TIME_SEC => 6
  | .GLB_RESET_CAUSE => 7
  | .GLB_BIST => 8
  | .IMG_STATUS => 9
  | .IMG_CLAIM_A => 10
  | .IMG_CLAIM_B => 11
  | .IMG_SERIAL => 12
  | .IMG_SVN => 13
  | .HASP_STATUS_LO => 14
  | .HASP_STATUS_HI => 15
  | .HASP_ACK_LO => 16
  | .HASP_ACK_HI => 17
  | .HASP_CAUSE_LO => 18
  | .HASP_CAUSE_HI => 19
  | .HASP_CTRL => 20
  | .HASP_PINS => 21
  | .HASP_FIRST => 22
  | .HASP_LATCHES => 23
  | .HASP_SRC_CLASS => 24
  | .HASP_SRC_WINDOW => 25
  | .HASP_SRC_STATE => 26
  | .HASP_SRC_WIN => 27
  | .TIME_CTRL => 28
  | .TIME_INCR => 29
  | .TIME_SNAP_NS => 30
  | .TIME_SNAP_SEC_LO => 31
  | .TIME_SNAP_SEC_HI => 32
  | .TIME_STEP_NS => 33
  | .TIME_STEP_SEC => 34
  | .TIME_STATUS => 35
  | .TIME_PPS_NS => 36
  | .TIME_PPS_SEC => 37
  | .SHK_CTRL => 38
  | .SHK_STATUS => 39
  | .SYNC_GPIO => 40
  | .TICK_CTRL => 41
  | .TICK_N => 42
  | .TICK_D => 43
  | .TICK_IDX_LO => 44
  | .TICK_IDX_HI => 45
  | .TICK_SKIP => 46
  | .TMR_CTRL => 47
  | .TMR_PERIOD_NS => 48
  | .TMR_START_NS => 49
  | .TMR_START_SEC => 50
  | .TMR_CAP_NS => 51
  | .TMR_CAP_SEC => 52
  | .TMR_PULSE_NS => 53
  | .INT_PEND => 54
  | .INT_MASK => 55
  | .INT_RAW => 56
  | .INT_FORCE => 57
  | .HIF_LINK => 58
  | .HIF_L1_COUNT => 59
  | .HIF_NUM_VFS => 60
  | .HIF_DENIED => 61
  | .HIF_REQ_ERR => 62
  | .HIF_DC_OWNER => 63
  | .HIF_CQ_OWNER => 64
  | .HIF_VF_QUOTA => 65
  | .HIF_FUNC_PM => 66
  | .HIF_CPG_PERM => 67
  | .WARD_STATE => 68
  | .WARD_BOOT => 69
  | .WARD_SVN => 70
  | .WARD_IMG_FLOOR => 71
  | .WARD_CTR_LO => 72
  | .WARD_CTR_HI => 73
  | .WARD_KEYS => 74
  | .WARD_AUTH_FAIL => 75
  | .WARD_REPLAY => 76
  | .WARD_GRANT_LEFT => 77
  | .MAC_CTRL => 78
  | .MAC_STATUS => 79
  | .MAC_PTP => 80
  | .MAC_TXTS_ID => 81
  | .MAC_TXTS_NS => 82
  | .MAC_TXTS_SEC => 83
  | .FL_CTRL => 84
  | .FL_STATUS => 85
  | .FL_REPLAYS => 86
  | .FL_LOST_PKTS => 87
  | .PL_HASH_SEED => 88
  | .PL_LAG_SEED => 89
  | .PL_TAG_CTRL => 90
  | .PL_FLOOD_BASE => 91
  | .PL_L2_LEARN_FAIL => 92
  | .PL_L2_DEFER_DROP => 93
  | .PL_PARSE_LIMIT => 94
  | .PL_MC_NO_RECORD => 95
  | .PL_TBL_BAD_WR => 96
  | .PL_PUNT_DROP => 97
  | .TBL_CTRL => 98
  | .TBL_EPOCH => 99
  | .TBL_DRAIN_EPOCH => 100
  | .TBL_STATUS => 101
  | .TRIE_RING_TAIL => 102
  | .TRIE_RING_HEAD => 103
  | .TRIE_STATUS => 104
  | .PL_PORT_CFG0 => 105
  | .PL_PORT_CFG1 => 106
  | .PL_PORT_CFG2 => 107
  | .PL_PORT_CFG3 => 108
  | .PL_VRF_LEN0 => 109
  | .PL_VRF_LEN1 => 110
  | .PL_VRF_LEN2 => 111
  | .PL_VRF_LEN3 => 112
  | .TM_CTRL => 113
  | .TM_SHARED_USED => 114
  | .TM_SHARED_PEAK => 115
  | .TM_NO_LEAF => 116
  | .TM_LEAF_MISMATCH => 117
  | .TM_CTRL_DROP => 118
  | .TM_SHARED_DROP => 119
  | .TM_STALLED_LEAVES => 120
  | .TM_STALL_FIRST => 121
  | .TM_PORT_CTRL => 122
  | .TM_PORT_SHAPE => 123
  | .TM_PORT_BURST => 124
  | .TM_PORT_PAUSED => 125
  | .TM_CT_FRAMES => 126
  | .TM_CT_FALLBACK => 127
  | .TM_CT_STOMP_RX => 128
  | .TM_CT_STOMP_TX => 129
  | .TM_MC_LEAF => 130
  | .TM_CLS_SHAPE => 131
  | .TM_CLS_BURST => 132
  | .TM_LEAF_SHAPE => 133
  | .TM_LEAF_BURST => 134
  | .TM_LEAF_DEPTH => 135
  | .TM_LEAF_DROP => 136
  | .TM_LEAF_ECN => 137
  | .TM_LEAF_STALL => 138
  | .TM_LEAF_FLUSHED => 139
  | .TM_LEAF_STATUS => 140
  | .TM_POL_RATE => 141
  | .TM_POL_BURST => 142
  | .TM_POL_DROP => 143
  | .TM_GCL_CTRL => 144
  | .TM_GCL_LEN => 145
  | .TM_GCL_CYCLE_NS => 146
  | .TM_GCL_BASE_NS => 147
  | .TM_GCL_BASE_SEC => 148
  | .TM_GCL_BASE_SEC_HI => 149
  | .TM_GCL_CHANGE_NS => 150
  | .TM_GCL_CHANGE_SEC => 151
  | .TM_GCL_STATUS => 152
  | .TM_GCL_TRUNC => 153
  | .ESS_CMD => 154
  | .ESS_CMD_CTX => 155
  | .ESS_CTX_OVERFLOW => 156
  | .ESS_OPEN_REFUSED => 157
  | .ESS_ATTACH_DROP => 158
  | .ESS_OPEN_COUNT => 159
  | .ESS_RING_FREE => 160
  | .ESS_EVENT => 161
  | .ESS_ARG => 162
  | .CE_CTRL => 163
  | .CE_STATUS => 164
  | .CE_UCODE => 165
  | .CE_KEYWAYS => 166
  | .CE_LIVE_LOAD => 167
  | .CE_PREEMPTS => 168
  | .CE_RESTARTS => 169
  | .CE_OVERRUNS => 170
  | .CE_MAX_WAIT => 171
  | .CE_BUSY_LO => 172
  | .CE_BUSY_HI => 173
  | .CE_WIN_CFG => 174
  | .CE_WIN_CTRL => 175
  | .CE_WIN_STATUS => 176
  | .CG_ALLOC => 177
  | .CG_OPEN_COUNT => 178
  | .CG_NO_CONTEXT => 179
  | .SC_RING_LO => 180
  | .SC_RING_HI => 181
  | .SC_RING_CFG => 182
  | .SC_DOORBELL => 183
  | .SC_HEAD => 184
  | .SC_STATE => 185
  | .SC_STAT_HEAD => 186
  | .SC_STAT_TAIL => 187
  | .MEM_HBM_CE => 188
  | .MEM_HBM_UE => 189
  | .MEM_UE_ADDR_LO => 190
  | .MEM_UE_ADDR_HI => 191
  | .MEM_SRAM_CE => 192
  | .MEM_SRAM_UE => 193
  | .MEM_STATUS => 194
  | .POOL_LOG2 => 195
  | .POOL_COUNT => 196
  | .POOL_BASE_LO => 197
  | .POOL_BASE_HI => 198
  | .POOL_FREE => 199
  | .POOL_MIN_FREE => 200
  | .POOL_FALLBACK => 201
  | .POOL_REQ => 202
  | .POOL_RESP => 203
  | .POOL_PTR_LO => 204
  | .POOL_PTR_HI => 205
  | .POOL_RET_LO => 206
  | .POOL_RET_HI => 207
  | .POOL_RET_RESP => 208
  | .POOL_BAD_RET => 209
  | .DC_CTRL => 210
  | .DC_STATUS => 211
  | .DC_HINGE_CNT => 212
  | .DC_SHD_STAMP => 213
  | .DC_BYTES => 214
  | .DC_BYTES_HI => 215
  | .DC_SHD => 216
  | .DC_ACT => 217
  | .DC_RING_LO => 218
  | .DC_RING_HI => 219
  | .DC_RING_CFG => 220
  | .DC_RING_TAIL => 221
  | .DC_RING_HEAD => 222
  | .CQ_BASE_LO => 223
  | .CQ_BASE_HI => 224
  | .CQ_CFG => 225
  | .CQ_HEAD => 226
  | .CQ_TAIL => 227
  | .CQ_LOST => 228
  | .CQ_STATUS => 229
  | .INT_GRP_CFG => 230
  | .INT_GRP_HOLDOFF => 231
  | .INT_GRP_CTRL => 232
  | .INT_GRP_STATUS => 233
  | .INT_GRP_LEFT => 234
  | .INT_GRP_SENT => 235
  | .INT_GRP_PME => 236
  | .TRC_CTRL => 237
  | .TRC_STATUS => 238
  | .TRC_DROPS => 239
  | .TRC_DATA => 240
  | .TRC_SEQ_CTRL => 241
  | .DUMP_CTRL => 242
  | .DUMP_STATUS => 243
  | .DUMP_SKIPPED => 244
  | .BW_CTRL => 245
  | .MGMT_TEMP => 246
  | .MGMT_TEMP_PEAK => 247
  | .MGMT_TEMP_LIMITS => 248
  | .MGMT_VOLT => 249
  | .MGMT_VOLT_WIN => 250
  | .MBX_REQ_LEN => 251
  | .MBX_IND_LO => 252
  | .MBX_IND_HI => 253
  | .MBX_IND_LEN => 254
  | .MBX_CTRL => 255
  | .MBX_STATUS => 256
  | .MBX_SEQ => 257

/-- One field: its register, lowest bit, width, access type and reset value. -/
structure Fld where
  reg : Reg
  lsb : Nat
  w : Nat
  acc : Access
  rst : Nat
  deriving DecidableEq, Repr

/-- The key of a field of one instance in the register file. -/
def Fld.key (f : Fld) (i : Nat) : Nat := f.reg.idx * 32 + f.lsb + 16384 * i

namespace F

/-- R612, chapter 17. -/
def GLB_ID_DEVICE : Fld := ⟨.GLB_ID, 16, 16, .RO, 0x7264⟩
/-- R612, chapter 17. -/
def GLB_ID_FAMILY : Fld := ⟨.GLB_ID, 8, 8, .RO, 1⟩
/-- R612, chapter 17. -/
def GLB_ID_MASK : Fld := ⟨.GLB_ID, 4, 4, .RO, 0xa⟩
/-- R612, chapter 17. -/
def GLB_ID_METAL : Fld := ⟨.GLB_ID, 0, 4, .RO, 1⟩
/-- R596, chapter 16. -/
def GLB_MODE_TARGET : Fld := ⟨.GLB_MODE, 9, 3, .RO, 0⟩
/-- R596, chapter 16. -/
def GLB_MODE_TRANSITION : Fld := ⟨.GLB_MODE, 8, 1, .RO, 0⟩
/-- R596, chapter 16. -/
def GLB_MODE_RETAINED : Fld := ⟨.GLB_MODE, 5, 1, .RO, 0⟩
/-- R596, chapter 16. -/
def GLB_MODE_BOARD_TEST : Fld := ⟨.GLB_MODE, 4, 1, .RO, 0⟩
/-- R596, chapter 16. -/
def GLB_MODE_MODE : Fld := ⟨.GLB_MODE, 0, 3, .RO, 1⟩
/-- R597, chapter 16. -/
def GLB_MODE_REQ_RESULT : Fld := ⟨.GLB_MODE_REQ, 24, 8, .RO, 0⟩
/-- R597, chapter 16. -/
def GLB_MODE_REQ_AT_L2 : Fld := ⟨.GLB_MODE_REQ, 9, 1, .WO, 0⟩
/-- R597, chapter 16. -/
def GLB_MODE_REQ_RETAIN_HBM : Fld := ⟨.GLB_MODE_REQ, 8, 1, .WO, 0⟩
/-- R597, chapter 16. -/
def GLB_MODE_REQ_REQ : Fld := ⟨.GLB_MODE_REQ, 0, 4, .WO, 0⟩
/-- R598, chapter 16. -/
def STBY_STATUS_ENTRIES : Fld := ⟨.STBY_STATUS, 16, 16, .RO, 0⟩
/-- R598, chapter 16. -/
def STBY_STATUS_WAKE_SRC : Fld := ⟨.STBY_STATUS, 8, 8, .RO, 0⟩
/-- R598, chapter 16. -/
def STBY_STATUS_WAKE_LATCHED : Fld := ⟨.STBY_STATUS, 7, 1, .W1C, 0⟩
/-- R598, chapter 16. -/
def STBY_STATUS_STATUS : Fld := ⟨.STBY_STATUS, 0, 7, .RO, 0⟩
/-- R599, chapter 16. -/
def GLB_WAKE_CFG_PIN_RETAIN : Fld := ⟨.GLB_WAKE_CFG, 9, 1, .RW, 0⟩
/-- R599, chapter 16. -/
def GLB_WAKE_CFG_PIN_REQ : Fld := ⟨.GLB_WAKE_CFG, 8, 1, .RW, 1⟩
/-- R599, chapter 16. -/
def GLB_WAKE_CFG_ALARM : Fld := ⟨.GLB_WAKE_CFG, 3, 1, .RW, 0⟩
/-- R599, chapter 16. -/
def GLB_WAKE_CFG_PERST : Fld := ⟨.GLB_WAKE_CFG, 2, 1, .RW, 1⟩
/-- R599, chapter 16. -/
def GLB_WAKE_CFG_STBY_PIN : Fld := ⟨.GLB_WAKE_CFG, 1, 1, .RW, 1⟩
/-- R599, chapter 16. -/
def GLB_WAKE_CFG_WAKE_PIN : Fld := ⟨.GLB_WAKE_CFG, 0, 1, .RW, 1⟩
/-- R599, chapter 16. -/
def GLB_WAKE_TIME_NS_NS : Fld := ⟨.GLB_WAKE_TIME_NS, 0, 30, .RW, 0⟩
/-- R599, chapter 16. -/
def GLB_WAKE_TIME_SEC_SEC : Fld := ⟨.GLB_WAKE_TIME_SEC, 0, 32, .RW, 0⟩
/-- R600, chapter 16. -/
def GLB_RESET_CAUSE_PERST : Fld := ⟨.GLB_RESET_CAUSE, 7, 1, .W1C, 0⟩
/-- R600, chapter 16. -/
def GLB_RESET_CAUSE_STANDBY_WAKE : Fld := ⟨.GLB_RESET_CAUSE, 6, 1, .W1C, 0⟩
/-- R600, chapter 16. -/
def GLB_RESET_CAUSE_LOCKDOWN_EXIT : Fld := ⟨.GLB_RESET_CAUSE, 5, 1, .W1C, 0⟩
/-- R600, chapter 16. -/
def GLB_RESET_CAUSE_FW_REBOOT : Fld := ⟨.GLB_RESET_CAUSE, 4, 1, .W1C, 0⟩
/-- R600, chapter 16. -/
def GLB_RESET_CAUSE_SHK_RST : Fld := ⟨.GLB_RESET_CAUSE, 3, 1, .W1C, 0⟩
/-- R600, chapter 16. -/
def GLB_RESET_CAUSE_SYSRST : Fld := ⟨.GLB_RESET_CAUSE, 2, 1, .W1C, 0⟩
/-- R600, chapter 16. -/
def GLB_RESET_CAUSE_PORST : Fld := ⟨.GLB_RESET_CAUSE, 1, 1, .W1C, 0⟩
/-- R600, chapter 16. -/
def GLB_RESET_CAUSE_POWER_ON : Fld := ⟨.GLB_RESET_CAUSE, 0, 1, .W1C, 1⟩
/-- R600, chapter 16. -/
def GLB_BIST_DONE : Fld := ⟨.GLB_BIST, 31, 1, .RO, 0⟩
/-- R600, chapter 16. -/
def GLB_BIST_FAIL_UNIT : Fld := ⟨.GLB_BIST, 0, 8, .RO, 0⟩
/-- R76, chapter 02. -/
def IMG_STATUS_ERR : Fld := ⟨.IMG_STATUS, 24, 8, .RO, 0⟩
/-- R76, chapter 02. -/
def IMG_STATUS_SECTION : Fld := ⟨.IMG_STATUS, 16, 8, .RO, 0⟩
/-- R76, chapter 02. -/
def IMG_STATUS_DELTA_PENDING : Fld := ⟨.IMG_STATUS, 3, 1, .RO, 0⟩
/-- R76, chapter 02. -/
def IMG_STATUS_LOADED : Fld := ⟨.IMG_STATUS, 2, 1, .RO, 0⟩
/-- R76, chapter 02. -/
def IMG_STATUS_PHASE : Fld := ⟨.IMG_STATUS, 0, 2, .RO, 0⟩
/-- R77, chapter 02. -/
def IMG_CLAIM_A_SECTION : Fld := ⟨.IMG_CLAIM_A, 24, 8, .RO, 0⟩
/-- R77, chapter 02. -/
def IMG_CLAIM_A_OFFSET : Fld := ⟨.IMG_CLAIM_A, 0, 24, .RO, 0⟩
/-- R77, chapter 02. -/
def IMG_CLAIM_B_SECTION : Fld := ⟨.IMG_CLAIM_B, 24, 8, .RO, 0⟩
/-- R77, chapter 02. -/
def IMG_CLAIM_B_OFFSET : Fld := ⟨.IMG_CLAIM_B, 0, 24, .RO, 0⟩
/-- R78, chapter 02. -/
def IMG_SERIAL_SERIAL : Fld := ⟨.IMG_SERIAL, 0, 32, .RO, 0⟩
/-- R78, chapter 02. -/
def IMG_SVN_SVN : Fld := ⟨.IMG_SVN, 0, 32, .RO, 0⟩
/-- R529, chapter 14. -/
def HASP_STATUS_LO_STATUS : Fld := ⟨.HASP_STATUS_LO, 0, 32, .W1C, 0⟩
/-- R529, chapter 14. -/
def HASP_STATUS_HI_STATUS : Fld := ⟨.HASP_STATUS_HI, 0, 32, .W1C, 0⟩
/-- R529, chapter 14. -/
def HASP_ACK_LO_ACK : Fld := ⟨.HASP_ACK_LO, 0, 32, .W1S, 0⟩
/-- R529, chapter 14. -/
def HASP_ACK_HI_ACK : Fld := ⟨.HASP_ACK_HI, 0, 32, .W1S, 0⟩
/-- R529, chapter 14. -/
def HASP_CAUSE_LO_CAUSE : Fld := ⟨.HASP_CAUSE_LO, 0, 32, .RO, 0⟩
/-- R529, chapter 14. -/
def HASP_CAUSE_HI_CAUSE : Fld := ⟨.HASP_CAUSE_HI, 0, 32, .RO, 0⟩
/-- R530, chapter 14. -/
def HASP_CTRL_FAULT_N_CLASS : Fld := ⟨.HASP_CTRL, 8, 3, .RWI, 3⟩
/-- R530, chapter 14. -/
def HASP_CTRL_C4_EXIT : Fld := ⟨.HASP_CTRL, 4, 1, .RWI, 0⟩
/-- R530, chapter 14. -/
def HASP_CTRL_DRIVE_SHK_FAULT : Fld := ⟨.HASP_CTRL, 3, 1, .RWI, 1⟩
/-- R530, chapter 14. -/
def HASP_CTRL_POLICY_IMAGE : Fld := ⟨.HASP_CTRL, 0, 1, .RO, 0⟩
/-- R531, chapter 14. -/
def HASP_PINS_LOCK_VALID : Fld := ⟨.HASP_PINS, 15, 1, .RO, 0⟩
/-- R531, chapter 14. -/
def HASP_PINS_LOCK_SOURCE : Fld := ⟨.HASP_PINS, 8, 6, .RO, 0⟩
/-- R531, chapter 14. -/
def HASP_PINS_SHK_DRIVE : Fld := ⟨.HASP_PINS, 2, 1, .RO, 0⟩
/-- R531, chapter 14. -/
def HASP_PINS_READY : Fld := ⟨.HASP_PINS, 1, 1, .RO, 0⟩
/-- R531, chapter 14. -/
def HASP_PINS_FAULT_LOW : Fld := ⟨.HASP_PINS, 0, 1, .RO, 0⟩
/-- R529, chapter 14. -/
def HASP_FIRST_VALID : Fld := ⟨.HASP_FIRST, 31, 1, .RO, 0⟩
/-- R529, chapter 14. -/
def HASP_FIRST_SOURCE : Fld := ⟨.HASP_FIRST, 8, 6, .RO, 0⟩
/-- R529, chapter 14. -/
def HASP_FIRST_CLASS : Fld := ⟨.HASP_FIRST, 0, 3, .RO, 0⟩
/-- R529, chapter 14. -/
def HASP_LATCHES_COUNT : Fld := ⟨.HASP_LATCHES, 0, 32, .RC, 0⟩
/-- R532, chapter 14. -/
def HASP_SRC_CLASS_REACTION : Fld := ⟨.HASP_SRC_CLASS, 8, 2, .RWI, 0⟩
/-- R532, chapter 14. -/
def HASP_SRC_CLASS_CLASS : Fld := ⟨.HASP_SRC_CLASS, 0, 3, .RWI, 0⟩
/-- R532, chapter 14. -/
def HASP_SRC_WINDOW_WINDOW_MS : Fld := ⟨.HASP_SRC_WINDOW, 16, 16, .RWI, 0⟩
/-- R532, chapter 14. -/
def HASP_SRC_WINDOW_N : Fld := ⟨.HASP_SRC_WINDOW, 0, 16, .RWI, 0⟩
/-- R532, chapter 14. -/
def HASP_SRC_STATE_REPEAT : Fld := ⟨.HASP_SRC_STATE, 24, 8, .RO, 0⟩
/-- R532, chapter 14. -/
def HASP_SRC_STATE_DETAIL : Fld := ⟨.HASP_SRC_STATE, 16, 8, .RO, 0⟩
/-- R532, chapter 14. -/
def HASP_SRC_STATE_EFF_CLASS : Fld := ⟨.HASP_SRC_STATE, 8, 3, .RO, 0⟩
/-- R532, chapter 14. -/
def HASP_SRC_STATE_CAUSE : Fld := ⟨.HASP_SRC_STATE, 5, 1, .RO, 0⟩
/-- R532, chapter 14. -/
def HASP_SRC_STATE_LASTING : Fld := ⟨.HASP_SRC_STATE, 4, 1, .RO, 0⟩
/-- R532, chapter 14. -/
def HASP_SRC_STATE_ESCALATED : Fld := ⟨.HASP_SRC_STATE, 3, 1, .RO, 0⟩
/-- R532, chapter 14. -/
def HASP_SRC_STATE_ACKED : Fld := ⟨.HASP_SRC_STATE, 2, 1, .RO, 0⟩
/-- R532, chapter 14. -/
def HASP_SRC_STATE_SET : Fld := ⟨.HASP_SRC_STATE, 0, 1, .RO, 0⟩
/-- R532, chapter 14. -/
def HASP_SRC_WIN_COUNT : Fld := ⟨.HASP_SRC_WIN, 0, 16, .RO, 0⟩
/-- R104, chapter 03. -/
def TIME_CTRL_FREQ_IN_DISABLE : Fld := ⟨.TIME_CTRL, 3, 1, .RW, 0⟩
/-- R104, chapter 03. -/
def TIME_CTRL_STEP : Fld := ⟨.TIME_CTRL, 2, 1, .WO, 0⟩
/-- R104, chapter 03. -/
def TIME_CTRL_SNAPSHOT : Fld := ⟨.TIME_CTRL, 1, 1, .WO, 0⟩
/-- R104, chapter 03. -/
def TIME_CTRL_RUN : Fld := ⟨.TIME_CTRL, 0, 1, .RW, 0⟩
/-- R103, chapter 03. -/
def TIME_INCR_INCR : Fld := ⟨.TIME_INCR, 0, 32, .RW, 0x10000000⟩
/-- R103, chapter 03. -/
def TIME_SNAP_NS_NS : Fld := ⟨.TIME_SNAP_NS, 0, 32, .RO, 0⟩
/-- R103, chapter 03. -/
def TIME_SNAP_SEC_LO_SEC : Fld := ⟨.TIME_SNAP_SEC_LO, 0, 32, .RO, 0⟩
/-- R103, chapter 03. -/
def TIME_SNAP_SEC_HI_SEC : Fld := ⟨.TIME_SNAP_SEC_HI, 0, 16, .RO, 0⟩
/-- R103, chapter 03. -/
def TIME_STEP_NS_SIGN : Fld := ⟨.TIME_STEP_NS, 31, 1, .RW, 0⟩
/-- R103, chapter 03. -/
def TIME_STEP_NS_NS : Fld := ⟨.TIME_STEP_NS, 0, 30, .RW, 0⟩
/-- R103, chapter 03. -/
def TIME_STEP_SEC_SEC : Fld := ⟨.TIME_STEP_SEC, 0, 32, .RW, 0⟩
/-- R105, chapter 03. -/
def TIME_STATUS_STEPPED : Fld := ⟨.TIME_STATUS, 3, 1, .W1C, 0⟩
/-- R105, chapter 03. -/
def TIME_STATUS_PPS_CAPTURED : Fld := ⟨.TIME_STATUS, 2, 1, .W1C, 0⟩
/-- R105, chapter 03. -/
def TIME_STATUS_FREQ_IN_LOST : Fld := ⟨.TIME_STATUS, 1, 1, .W1C, 0⟩
/-- R105, chapter 03. -/
def TIME_STATUS_FREQ_SRC : Fld := ⟨.TIME_STATUS, 0, 1, .RO, 0⟩
/-- R103, chapter 03. -/
def TIME_PPS_NS_NS : Fld := ⟨.TIME_PPS_NS, 0, 32, .RO, 0⟩
/-- R103, chapter 03. -/
def TIME_PPS_SEC_SEC : Fld := ⟨.TIME_PPS_SEC, 0, 32, .RO, 0⟩
/-- R134, chapter 03. -/
def SHK_CTRL_DELAY_NS : Fld := ⟨.SHK_CTRL, 0, 8, .RW, 0⟩
/-- R134, chapter 03. -/
def SHK_STATUS_PHASE_ERR : Fld := ⟨.SHK_STATUS, 8, 8, .RO, 0⟩
/-- R134, chapter 03. -/
def SHK_STATUS_FAULT_SEEN : Fld := ⟨.SHK_STATUS, 3, 1, .RO, 0⟩
/-- R134, chapter 03. -/
def SHK_STATUS_TICK_LOST : Fld := ⟨.SHK_STATUS, 2, 1, .W1C, 0⟩
/-- R134, chapter 03. -/
def SHK_STATUS_TICK_LOCK : Fld := ⟨.SHK_STATUS, 1, 1, .RO, 0⟩
/-- R134, chapter 03. -/
def SHK_STATUS_MASTER : Fld := ⟨.SHK_STATUS, 0, 1, .RO, 0⟩
/-- R109, chapter 03. -/
def SYNC_GPIO_RESULT : Fld := ⟨.SYNC_GPIO, 24, 8, .RO, 0⟩
/-- R109, chapter 03. -/
def SYNC_GPIO_IN : Fld := ⟨.SYNC_GPIO, 16, 8, .RO, 0⟩
/-- R109, chapter 03. -/
def SYNC_GPIO_OE : Fld := ⟨.SYNC_GPIO, 8, 8, .RW, 0⟩
/-- R109, chapter 03. -/
def SYNC_GPIO_OUT : Fld := ⟨.SYNC_GPIO, 0, 8, .RW, 0⟩
/-- R106, chapter 03. -/
def TICK_CTRL_ENABLED : Fld := ⟨.TICK_CTRL, 0, 1, .RWI, 0⟩
/-- R106, chapter 03. -/
def TICK_N_N : Fld := ⟨.TICK_N, 0, 32, .RWI, 0⟩
/-- R106, chapter 03. -/
def TICK_D_D : Fld := ⟨.TICK_D, 0, 32, .RWI, 0⟩
/-- R106, chapter 03. -/
def TICK_IDX_LO_IDX : Fld := ⟨.TICK_IDX_LO, 0, 32, .RO, 0⟩
/-- R106, chapter 03. -/
def TICK_IDX_HI_IDX : Fld := ⟨.TICK_IDX_HI, 0, 32, .RO, 0⟩
/-- R106, chapter 03. -/
def TICK_SKIP_COUNT : Fld := ⟨.TICK_SKIP, 0, 16, .RC, 0⟩
/-- R112, chapter 03. -/
def TMR_CTRL_RESULT : Fld := ⟨.TMR_CTRL, 8, 8, .RO, 0⟩
/-- R112, chapter 03. -/
def TMR_CTRL_MODE : Fld := ⟨.TMR_CTRL, 4, 2, .RW, 0⟩
/-- R112, chapter 03. -/
def TMR_CTRL_RUNNING : Fld := ⟨.TMR_CTRL, 2, 1, .RO, 0⟩
/-- R112, chapter 03. -/
def TMR_CTRL_STOP : Fld := ⟨.TMR_CTRL, 1, 1, .WO, 0⟩
/-- R112, chapter 03. -/
def TMR_CTRL_START : Fld := ⟨.TMR_CTRL, 0, 1, .WO, 0⟩
/-- R111, chapter 03. -/
def TMR_PERIOD_NS_NS : Fld := ⟨.TMR_PERIOD_NS, 0, 32, .RW, 0⟩
/-- R111, chapter 03. -/
def TMR_START_NS_NS : Fld := ⟨.TMR_START_NS, 0, 32, .RW, 0⟩
/-- R111, chapter 03. -/
def TMR_START_SEC_SEC : Fld := ⟨.TMR_START_SEC, 0, 32, .RW, 0⟩
/-- R111, chapter 03. -/
def TMR_CAP_NS_NS : Fld := ⟨.TMR_CAP_NS, 0, 32, .RO, 0⟩
/-- R111, chapter 03. -/
def TMR_CAP_SEC_SEC : Fld := ⟨.TMR_CAP_SEC, 0, 32, .RO, 0⟩
/-- R111, chapter 03. -/
def TMR_PULSE_NS_NS : Fld := ⟨.TMR_PULSE_NS, 0, 32, .RW, 0⟩
/-- R462, chapter 12. -/
def INT_PEND_PEND : Fld := ⟨.INT_PEND, 0, 32, .W1C, 0⟩
/-- R462, chapter 12. -/
def INT_MASK_MASK : Fld := ⟨.INT_MASK, 0, 32, .RW, 0xffffffff⟩
/-- R462, chapter 12. -/
def INT_RAW_RAW : Fld := ⟨.INT_RAW, 0, 32, .RO, 0⟩
/-- R462, chapter 12. -/
def INT_FORCE_FORCE : Fld := ⟨.INT_FORCE, 0, 32, .W1S, 0⟩
/-- R464, chapter 12. -/
def HIF_LINK_FLIT : Fld := ⟨.HIF_LINK, 20, 1, .RO, 0⟩
/-- R464, chapter 12. -/
def HIF_LINK_SPEED : Fld := ⟨.HIF_LINK, 16, 4, .RO, 0⟩
/-- R464, chapter 12. -/
def HIF_LINK_WIDTH : Fld := ⟨.HIF_LINK, 8, 5, .RO, 0⟩
/-- R464, chapter 12. -/
def HIF_LINK_DEGRADED : Fld := ⟨.HIF_LINK, 4, 1, .W1C, 0⟩
/-- R464, chapter 12. -/
def HIF_L1_COUNT_COUNT : Fld := ⟨.HIF_L1_COUNT, 0, 32, .RC, 0⟩
/-- R464, chapter 12. -/
def HIF_NUM_VFS_COUNT : Fld := ⟨.HIF_NUM_VFS, 0, 7, .RO, 0⟩
/-- R464, chapter 12. -/
def HIF_DENIED_COUNT : Fld := ⟨.HIF_DENIED, 0, 32, .RC, 0⟩
/-- R464, chapter 12. -/
def HIF_REQ_ERR_COUNT : Fld := ⟨.HIF_REQ_ERR, 0, 32, .RC, 0⟩
/-- R464, chapter 12. -/
def HIF_DC_OWNER_RESULT : Fld := ⟨.HIF_DC_OWNER, 24, 8, .RO, 0⟩
/-- R464, chapter 12. -/
def HIF_DC_OWNER_OWNER : Fld := ⟨.HIF_DC_OWNER, 0, 7, .RW, 0⟩
/-- R464, chapter 12. -/
def HIF_CQ_OWNER_RESULT : Fld := ⟨.HIF_CQ_OWNER, 24, 8, .RO, 0⟩
/-- R464, chapter 12. -/
def HIF_CQ_OWNER_OWNER : Fld := ⟨.HIF_CQ_OWNER, 0, 7, .RW, 0⟩
/-- R464, chapter 12. -/
def HIF_VF_QUOTA_SC_QUOTA : Fld := ⟨.HIF_VF_QUOTA, 16, 11, .RW, 0⟩
/-- R464, chapter 12. -/
def HIF_VF_QUOTA_BUF_QUOTA_GIB : Fld := ⟨.HIF_VF_QUOTA, 0, 7, .RW, 0⟩
/-- R464, chapter 12. -/
def HIF_FUNC_PM_DSTATE : Fld := ⟨.HIF_FUNC_PM, 0, 2, .RO, 0⟩
/-- R464, chapter 12. -/
def HIF_CPG_PERM_PUBLIC : Fld := ⟨.HIF_CPG_PERM, 31, 1, .RW, 0⟩
/-- R464, chapter 12. -/
def HIF_CPG_PERM_OWNER : Fld := ⟨.HIF_CPG_PERM, 0, 7, .RW, 0⟩
/-- R507, chapter 13. -/
def WARD_STATE_EPOCH : Fld := ⟨.WARD_STATE, 16, 9, .RO, 0⟩
/-- R507, chapter 13. -/
def WARD_STATE_BANKS_USED : Fld := ⟨.WARD_STATE, 12, 3, .RO, 0⟩
/-- R507, chapter 13. -/
def WARD_STATE_ENTROPY_OK : Fld := ⟨.WARD_STATE, 9, 1, .RO, 0⟩
/-- R507, chapter 13. -/
def WARD_STATE_HBM_KEY_VALID : Fld := ⟨.WARD_STATE, 8, 1, .RO, 0⟩
/-- R507, chapter 13. -/
def WARD_STATE_CONSOLE : Fld := ⟨.WARD_STATE, 5, 1, .RO, 0⟩
/-- R507, chapter 13. -/
def WARD_STATE_OBSERVE : Fld := ⟨.WARD_STATE, 4, 1, .RO, 0⟩
/-- R507, chapter 13. -/
def WARD_STATE_SEC_STATE : Fld := ⟨.WARD_STATE, 0, 2, .RO, 0⟩
/-- R508, chapter 13. -/
def WARD_BOOT_FALLBACK : Fld := ⟨.WARD_BOOT, 8, 1, .RO, 0⟩
/-- R508, chapter 13. -/
def WARD_BOOT_FW_SLOT : Fld := ⟨.WARD_BOOT, 7, 1, .RO, 0⟩
/-- R508, chapter 13. -/
def WARD_BOOT_FAIL : Fld := ⟨.WARD_BOOT, 0, 5, .RO, 0⟩
/-- R506, chapter 13. -/
def WARD_SVN_PATCH_RUN : Fld := ⟨.WARD_SVN, 24, 8, .RO, 0⟩
/-- R506, chapter 13. -/
def WARD_SVN_PATCH_FLOOR : Fld := ⟨.WARD_SVN, 16, 8, .RO, 0⟩
/-- R506, chapter 13. -/
def WARD_SVN_FW_RUN : Fld := ⟨.WARD_SVN, 8, 8, .RO, 0⟩
/-- R506, chapter 13. -/
def WARD_SVN_FW_FLOOR : Fld := ⟨.WARD_SVN, 0, 8, .RO, 0⟩
/-- R506, chapter 13. -/
def WARD_IMG_FLOOR_FLOOR : Fld := ⟨.WARD_IMG_FLOOR, 0, 32, .RO, 0⟩
/-- R506, chapter 13. -/
def WARD_CTR_LO_CTR : Fld := ⟨.WARD_CTR_LO, 0, 32, .RO, 0⟩
/-- R506, chapter 13. -/
def WARD_CTR_HI_CTR : Fld := ⟨.WARD_CTR_HI, 0, 32, .RO, 0⟩
/-- R506, chapter 13. -/
def WARD_KEYS_USED : Fld := ⟨.WARD_KEYS, 0, 15, .RO, 0⟩
/-- R506, chapter 13. -/
def WARD_AUTH_FAIL_COUNT : Fld := ⟨.WARD_AUTH_FAIL, 0, 32, .RC, 0⟩
/-- R506, chapter 13. -/
def WARD_REPLAY_COUNT : Fld := ⟨.WARD_REPLAY, 0, 32, .RC, 0⟩
/-- R506, chapter 13. -/
def WARD_GRANT_LEFT_SECONDS : Fld := ⟨.WARD_GRANT_LEFT, 0, 17, .RO, 0⟩
/-- R84, chapter 03. -/
def MAC_CTRL_AN_RESTART : Fld := ⟨.MAC_CTRL, 4, 1, .WO, 0⟩
/-- R84, chapter 03. -/
def MAC_CTRL_ENABLE : Fld := ⟨.MAC_CTRL, 0, 1, .RW, 0⟩
/-- R85, chapter 03. -/
def MAC_STATUS_FEC_UNCORR_EVT : Fld := ⟨.MAC_STATUS, 9, 1, .W1C, 0⟩
/-- R85, chapter 03. -/
def MAC_STATUS_LINK_DOWN_EVT : Fld := ⟨.MAC_STATUS, 8, 1, .W1C, 0⟩
/-- R85, chapter 03. -/
def MAC_STATUS_FEC_LOCK : Fld := ⟨.MAC_STATUS, 5, 1, .RO, 0⟩
/-- R85, chapter 03. -/
def MAC_STATUS_AN_DONE : Fld := ⟨.MAC_STATUS, 4, 1, .RO, 0⟩
/-- R85, chapter 03. -/
def MAC_STATUS_ENABLE_PENDING : Fld := ⟨.MAC_STATUS, 3, 1, .RO, 0⟩
/-- R85, chapter 03. -/
def MAC_STATUS_DRAINING : Fld := ⟨.MAC_STATUS, 2, 1, .RO, 0⟩
/-- R85, chapter 03. -/
def MAC_STATUS_ENABLED : Fld := ⟨.MAC_STATUS, 1, 1, .RO, 0⟩
/-- R85, chapter 03. -/
def MAC_STATUS_LINK_UP : Fld := ⟨.MAC_STATUS, 0, 1, .RO, 0⟩
/-- R101, chapter 03. -/
def MAC_PTP_ASYM_NS : Fld := ⟨.MAC_PTP, 16, 16, .RW, 0⟩
/-- R101, chapter 03. -/
def MAC_PTP_P2P : Fld := ⟨.MAC_PTP, 3, 1, .RW, 0⟩
/-- R101, chapter 03. -/
def MAC_PTP_TC_ENABLE : Fld := ⟨.MAC_PTP, 2, 1, .RW, 0⟩
/-- R101, chapter 03. -/
def MAC_PTP_ONE_STEP : Fld := ⟨.MAC_PTP, 1, 1, .RW, 0⟩
/-- R101, chapter 03. -/
def MAC_PTP_TS_ENABLE : Fld := ⟨.MAC_PTP, 0, 1, .RW, 0⟩
/-- R102, chapter 03. -/
def MAC_TXTS_ID_VALID : Fld := ⟨.MAC_TXTS_ID, 31, 1, .RO, 0⟩
/-- R102, chapter 03. -/
def MAC_TXTS_ID_OVERFLOW : Fld := ⟨.MAC_TXTS_ID, 30, 1, .RO, 0⟩
/-- R102, chapter 03. -/
def MAC_TXTS_ID_DOMAIN : Fld := ⟨.MAC_TXTS_ID, 20, 8, .RO, 0⟩
/-- R102, chapter 03. -/
def MAC_TXTS_ID_MSGTYPE : Fld := ⟨.MAC_TXTS_ID, 16, 4, .RO, 0⟩
/-- R102, chapter 03. -/
def MAC_TXTS_ID_SEQID : Fld := ⟨.MAC_TXTS_ID, 0, 16, .RO, 0⟩
/-- R102, chapter 03. -/
def MAC_TXTS_NS_NS : Fld := ⟨.MAC_TXTS_NS, 0, 32, .RO, 0⟩
/-- R102, chapter 03. -/
def MAC_TXTS_SEC_SEC : Fld := ⟨.MAC_TXTS_SEC, 0, 32, .RO, 0⟩
/-- R127, chapter 03. -/
def FL_CTRL_ENABLE : Fld := ⟨.FL_CTRL, 0, 1, .RW, 0⟩
/-- R127, chapter 03. -/
def FL_STATUS_DRAINING : Fld := ⟨.FL_STATUS, 11, 1, .RO, 0⟩
/-- R127, chapter 03. -/
def FL_STATUS_ENABLE_PENDING : Fld := ⟨.FL_STATUS, 10, 1, .RO, 0⟩
/-- R127, chapter 03. -/
def FL_STATUS_HELLO_MISMATCH : Fld := ⟨.FL_STATUS, 9, 1, .W1C, 0⟩
/-- R127, chapter 03. -/
def FL_STATUS_PEER_LOST_EVT : Fld := ⟨.FL_STATUS, 8, 1, .W1C, 0⟩
/-- R127, chapter 03. -/
def FL_STATUS_PEER_INDEX : Fld := ⟨.FL_STATUS, 4, 2, .RO, 0⟩
/-- R127, chapter 03. -/
def FL_STATUS_PEER_UP : Fld := ⟨.FL_STATUS, 2, 1, .RO, 0⟩
/-- R127, chapter 03. -/
def FL_STATUS_FLIT_LOCK : Fld := ⟨.FL_STATUS, 1, 1, .RO, 0⟩
/-- R127, chapter 03. -/
def FL_STATUS_PCS_UP : Fld := ⟨.FL_STATUS, 0, 1, .RO, 0⟩
/-- R127, chapter 03. -/
def FL_REPLAYS_COUNT : Fld := ⟨.FL_REPLAYS, 0, 32, .RC, 0⟩
/-- R127, chapter 03. -/
def FL_LOST_PKTS_COUNT : Fld := ⟨.FL_LOST_PKTS, 0, 32, .RC, 0⟩
/-- R185, chapter 04. -/
def PL_HASH_SEED_SEED : Fld := ⟨.PL_HASH_SEED, 0, 32, .RW, 0⟩
/-- R185, chapter 04. -/
def PL_LAG_SEED_SEED : Fld := ⟨.PL_LAG_SEED, 0, 32, .RW, 0⟩
/-- R185, chapter 04. -/
def PL_TAG_CTRL_ENABLE : Fld := ⟨.PL_TAG_CTRL, 8, 1, .RW, 0⟩
/-- R185, chapter 04. -/
def PL_TAG_CTRL_K : Fld := ⟨.PL_TAG_CTRL, 0, 5, .RW, 0⟩
/-- R185, chapter 04. -/
def PL_FLOOD_BASE_GROUP : Fld := ⟨.PL_FLOOD_BASE, 0, 16, .RW, 0⟩
/-- R185, chapter 04. -/
def PL_L2_LEARN_FAIL_COUNT : Fld := ⟨.PL_L2_LEARN_FAIL, 0, 32, .RC, 0⟩
/-- R185, chapter 04. -/
def PL_L2_DEFER_DROP_COUNT : Fld := ⟨.PL_L2_DEFER_DROP, 0, 32, .RC, 0⟩
/-- R185, chapter 04. -/
def PL_PARSE_LIMIT_COUNT : Fld := ⟨.PL_PARSE_LIMIT, 0, 32, .RC, 0⟩
/-- R185, chapter 04. -/
def PL_MC_NO_RECORD_COUNT : Fld := ⟨.PL_MC_NO_RECORD, 0, 32, .RC, 0⟩
/-- R185, chapter 04. -/
def PL_TBL_BAD_WR_COUNT : Fld := ⟨.PL_TBL_BAD_WR, 0, 32, .RC, 0⟩
/-- R185, chapter 04. -/
def PL_PUNT_DROP_COUNT : Fld := ⟨.PL_PUNT_DROP, 0, 32, .RC, 0⟩
/-- R187, chapter 04. -/
def TBL_CTRL_LOCK : Fld := ⟨.TBL_CTRL, 0, 1, .RW, 0⟩
/-- R187, chapter 04. -/
def TBL_EPOCH_EPOCH : Fld := ⟨.TBL_EPOCH, 0, 32, .RO, 0⟩
/-- R187, chapter 04. -/
def TBL_DRAIN_EPOCH_DRAIN : Fld := ⟨.TBL_DRAIN_EPOCH, 0, 32, .RO, 0⟩
/-- R187, chapter 04. -/
def TBL_STATUS_UNLOCKED_WR : Fld := ⟨.TBL_STATUS, 3, 1, .W1C, 0⟩
/-- R187, chapter 04. -/
def TBL_STATUS_PARTIAL_WR : Fld := ⟨.TBL_STATUS, 2, 1, .W1C, 0⟩
/-- R187, chapter 04. -/
def TBL_STATUS_LOCK_ACTIVE : Fld := ⟨.TBL_STATUS, 0, 1, .RO, 0⟩
/-- R188, chapter 04. -/
def TRIE_RING_TAIL_TAIL : Fld := ⟨.TRIE_RING_TAIL, 0, 10, .RW, 0⟩
/-- R188, chapter 04. -/
def TRIE_RING_HEAD_HEAD : Fld := ⟨.TRIE_RING_HEAD, 0, 10, .RO, 0⟩
/-- R188, chapter 04. -/
def TRIE_STATUS_BAD_RECORD : Fld := ⟨.TRIE_STATUS, 3, 1, .W1C, 0⟩
/-- R188, chapter 04. -/
def TRIE_STATUS_NO_NODE : Fld := ⟨.TRIE_STATUS, 2, 1, .W1C, 0⟩
/-- R188, chapter 04. -/
def TRIE_STATUS_BUSY : Fld := ⟨.TRIE_STATUS, 0, 1, .RO, 0⟩
/-- R186, chapter 04. -/
def PL_PORT_CFG0_EM_ENABLE : Fld := ⟨.PL_PORT_CFG0, 31, 1, .RW, 0⟩
/-- R186, chapter 04. -/
def PL_PORT_CFG0_DEFAULT_VRF : Fld := ⟨.PL_PORT_CFG0, 20, 10, .RW, 0⟩
/-- R186, chapter 04. -/
def PL_PORT_CFG0_EM_PROF_IP4 : Fld := ⟨.PL_PORT_CFG0, 16, 4, .RW, 0⟩
/-- R186, chapter 04. -/
def PL_PORT_CFG0_EM_PROF_IP6 : Fld := ⟨.PL_PORT_CFG0, 12, 4, .RW, 0⟩
/-- R186, chapter 04. -/
def PL_PORT_CFG0_EM_PROF_OTHER : Fld := ⟨.PL_PORT_CFG0, 8, 4, .RW, 0⟩
/-- R186, chapter 04. -/
def PL_PORT_CFG0_L2_REGION : Fld := ⟨.PL_PORT_CFG0, 0, 4, .RW, 0⟩
/-- R186, chapter 04. -/
def PL_PORT_CFG1_PVID : Fld := ⟨.PL_PORT_CFG1, 16, 12, .RW, 0⟩
/-- R186, chapter 04. -/
def PL_PORT_CFG1_LEARN_LEAF : Fld := ⟨.PL_PORT_CFG1, 0, 15, .RW, 0⟩
/-- R186, chapter 04. -/
def PL_PORT_CFG2_ROUTER_MAC_LO : Fld := ⟨.PL_PORT_CFG2, 0, 32, .RW, 0⟩
/-- R186, chapter 04. -/
def PL_PORT_CFG3_ROUTER_MAC_HI : Fld := ⟨.PL_PORT_CFG3, 0, 16, .RW, 0⟩
/-- R154, chapter 04. -/
def PL_VRF_LEN0_LEN : Fld := ⟨.PL_VRF_LEN0, 0, 32, .RW, 0xffffffff⟩
/-- R154, chapter 04. -/
def PL_VRF_LEN1_LEN : Fld := ⟨.PL_VRF_LEN1, 0, 32, .RW, 0xffffffff⟩
/-- R154, chapter 04. -/
def PL_VRF_LEN2_LEN : Fld := ⟨.PL_VRF_LEN2, 0, 32, .RW, 0xffffffff⟩
/-- R154, chapter 04. -/
def PL_VRF_LEN3_LEN : Fld := ⟨.PL_VRF_LEN3, 0, 32, .RW, 0xffffffff⟩
/-- R221, chapter 05. -/
def TM_CTRL_SHAPE_OVERHEAD : Fld := ⟨.TM_CTRL, 16, 8, .RW, 0x14⟩
/-- R221, chapter 05. -/
def TM_CTRL_STALL_US : Fld := ⟨.TM_CTRL, 0, 16, .RW, 0x2710⟩
/-- R221, chapter 05. -/
def TM_SHARED_USED_CELLS : Fld := ⟨.TM_SHARED_USED, 0, 20, .RO, 0⟩
/-- R221, chapter 05. -/
def TM_SHARED_PEAK_CELLS : Fld := ⟨.TM_SHARED_PEAK, 0, 20, .RC, 0⟩
/-- R221, chapter 05. -/
def TM_NO_LEAF_COUNT : Fld := ⟨.TM_NO_LEAF, 0, 32, .RC, 0⟩
/-- R221, chapter 05. -/
def TM_LEAF_MISMATCH_COUNT : Fld := ⟨.TM_LEAF_MISMATCH, 0, 32, .RC, 0⟩
/-- R221, chapter 05. -/
def TM_CTRL_DROP_COUNT : Fld := ⟨.TM_CTRL_DROP, 0, 32, .RC, 0⟩
/-- R221, chapter 05. -/
def TM_SHARED_DROP_COUNT : Fld := ⟨.TM_SHARED_DROP, 0, 32, .RC, 0⟩
/-- R221, chapter 05. -/
def TM_STALLED_LEAVES_COUNT : Fld := ⟨.TM_STALLED_LEAVES, 0, 16, .RO, 0⟩
/-- R221, chapter 05. -/
def TM_STALL_FIRST_VALID : Fld := ⟨.TM_STALL_FIRST, 31, 1, .RO, 0⟩
/-- R221, chapter 05. -/
def TM_STALL_FIRST_LEAF : Fld := ⟨.TM_STALL_FIRST, 0, 15, .RO, 0⟩
/-- R222, chapter 05. -/
def TM_PORT_CTRL_PFC_RX : Fld := ⟨.TM_PORT_CTRL, 1, 1, .RW, 0⟩
/-- R222, chapter 05. -/
def TM_PORT_CTRL_PAUSE_RX : Fld := ⟨.TM_PORT_CTRL, 0, 1, .RW, 0⟩
/-- R222, chapter 05. -/
def TM_PORT_SHAPE_ENABLE : Fld := ⟨.TM_PORT_SHAPE, 31, 1, .RW, 0⟩
/-- R222, chapter 05. -/
def TM_PORT_SHAPE_RATE : Fld := ⟨.TM_PORT_SHAPE, 0, 24, .RW, 0⟩
/-- R222, chapter 05. -/
def TM_PORT_BURST_BURST : Fld := ⟨.TM_PORT_BURST, 0, 24, .RW, 0x2600⟩
/-- R222, chapter 05. -/
def TM_PORT_PAUSED_CLASS : Fld := ⟨.TM_PORT_PAUSED, 0, 8, .RO, 0⟩
/-- R222, chapter 05. -/
def TM_CT_FRAMES_COUNT : Fld := ⟨.TM_CT_FRAMES, 0, 32, .RC, 0⟩
/-- R222, chapter 05. -/
def TM_CT_FALLBACK_COUNT : Fld := ⟨.TM_CT_FALLBACK, 0, 32, .RC, 0⟩
/-- R222, chapter 05. -/
def TM_CT_STOMP_RX_COUNT : Fld := ⟨.TM_CT_STOMP_RX, 0, 32, .RC, 0⟩
/-- R222, chapter 05. -/
def TM_CT_STOMP_TX_COUNT : Fld := ⟨.TM_CT_STOMP_TX, 0, 32, .RC, 0⟩
/-- R222, chapter 05. -/
def TM_MC_LEAF_VALID : Fld := ⟨.TM_MC_LEAF, 31, 1, .RW, 0⟩
/-- R222, chapter 05. -/
def TM_MC_LEAF_LEAF : Fld := ⟨.TM_MC_LEAF, 0, 15, .RW, 0⟩
/-- R223, chapter 05. -/
def TM_CLS_SHAPE_ENABLE : Fld := ⟨.TM_CLS_SHAPE, 31, 1, .RW, 0⟩
/-- R223, chapter 05. -/
def TM_CLS_SHAPE_RATE : Fld := ⟨.TM_CLS_SHAPE, 0, 24, .RW, 0⟩
/-- R223, chapter 05. -/
def TM_CLS_BURST_BURST : Fld := ⟨.TM_CLS_BURST, 0, 24, .RW, 0x2600⟩
/-- R224, chapter 05. -/
def TM_LEAF_SHAPE_ENABLE : Fld := ⟨.TM_LEAF_SHAPE, 31, 1, .RW, 0⟩
/-- R224, chapter 05. -/
def TM_LEAF_SHAPE_RATE : Fld := ⟨.TM_LEAF_SHAPE, 0, 24, .RW, 0⟩
/-- R224, chapter 05. -/
def TM_LEAF_BURST_BURST : Fld := ⟨.TM_LEAF_BURST, 0, 24, .RW, 0x2600⟩
/-- R224, chapter 05. -/
def TM_LEAF_DEPTH_CELLS : Fld := ⟨.TM_LEAF_DEPTH, 0, 20, .RO, 0⟩
/-- R224, chapter 05. -/
def TM_LEAF_DROP_COUNT : Fld := ⟨.TM_LEAF_DROP, 0, 32, .RC, 0⟩
/-- R224, chapter 05. -/
def TM_LEAF_ECN_COUNT : Fld := ⟨.TM_LEAF_ECN, 0, 32, .RC, 0⟩
/-- R224, chapter 05. -/
def TM_LEAF_STALL_COUNT : Fld := ⟨.TM_LEAF_STALL, 0, 32, .RC, 0⟩
/-- R224, chapter 05. -/
def TM_LEAF_FLUSHED_COUNT : Fld := ⟨.TM_LEAF_FLUSHED, 0, 32, .RC, 0⟩
/-- R224, chapter 05. -/
def TM_LEAF_STATUS_FLUSH_BUSY : Fld := ⟨.TM_LEAF_STATUS, 2, 1, .RO, 0⟩
/-- R224, chapter 05. -/
def TM_LEAF_STATUS_STALLED : Fld := ⟨.TM_LEAF_STATUS, 1, 1, .RO, 0⟩
/-- R224, chapter 05. -/
def TM_LEAF_STATUS_FLUSH : Fld := ⟨.TM_LEAF_STATUS, 0, 1, .WO, 0⟩
/-- R225, chapter 05. -/
def TM_POL_RATE_ENABLE : Fld := ⟨.TM_POL_RATE, 31, 1, .RW, 0⟩
/-- R225, chapter 05. -/
def TM_POL_RATE_RATE : Fld := ⟨.TM_POL_RATE, 0, 24, .RW, 0⟩
/-- R225, chapter 05. -/
def TM_POL_BURST_BURST : Fld := ⟨.TM_POL_BURST, 0, 24, .RW, 0x2600⟩
/-- R225, chapter 05. -/
def TM_POL_DROP_COUNT : Fld := ⟨.TM_POL_DROP, 0, 32, .RC, 0⟩
/-- R226, chapter 05. -/
def TM_GCL_CTRL_RESULT : Fld := ⟨.TM_GCL_CTRL, 8, 8, .RO, 0⟩
/-- R226, chapter 05. -/
def TM_GCL_CTRL_ARM : Fld := ⟨.TM_GCL_CTRL, 1, 1, .WO, 0⟩
/-- R226, chapter 05. -/
def TM_GCL_CTRL_ENABLE : Fld := ⟨.TM_GCL_CTRL, 0, 1, .RW, 0⟩
/-- R226, chapter 05. -/
def TM_GCL_LEN_ADMIN_LEN : Fld := ⟨.TM_GCL_LEN, 0, 11, .RW, 0⟩
/-- R226, chapter 05. -/
def TM_GCL_CYCLE_NS_CYCLE : Fld := ⟨.TM_GCL_CYCLE_NS, 0, 32, .RW, 0⟩
/-- R226, chapter 05. -/
def TM_GCL_BASE_NS_NS : Fld := ⟨.TM_GCL_BASE_NS, 0, 30, .RW, 0⟩
/-- R226, chapter 05. -/
def TM_GCL_BASE_SEC_SEC : Fld := ⟨.TM_GCL_BASE_SEC, 0, 32, .RW, 0⟩
/-- R226, chapter 05. -/
def TM_GCL_BASE_SEC_HI_SEC_HI : Fld := ⟨.TM_GCL_BASE_SEC_HI, 0, 16, .RW, 0⟩
/-- R226, chapter 05. -/
def TM_GCL_CHANGE_NS_NS : Fld := ⟨.TM_GCL_CHANGE_NS, 0, 30, .RO, 0⟩
/-- R226, chapter 05. -/
def TM_GCL_CHANGE_SEC_SEC : Fld := ⟨.TM_GCL_CHANGE_SEC, 0, 32, .RO, 0⟩
/-- R226, chapter 05. -/
def TM_GCL_STATUS_LOCKED_WR : Fld := ⟨.TM_GCL_STATUS, 3, 1, .W1C, 0⟩
/-- R226, chapter 05. -/
def TM_GCL_STATUS_OPER_LIST : Fld := ⟨.TM_GCL_STATUS, 1, 1, .RO, 0⟩
/-- R226, chapter 05. -/
def TM_GCL_STATUS_PENDING : Fld := ⟨.TM_GCL_STATUS, 0, 1, .RO, 0⟩
/-- R226, chapter 05. -/
def TM_GCL_TRUNC_COUNT : Fld := ⟨.TM_GCL_TRUNC, 0, 32, .RC, 0⟩
/-- R258, chapter 06. -/
def ESS_CMD_RESULT : Fld := ⟨.ESS_CMD, 24, 8, .RO, 0⟩
/-- R258, chapter 06. -/
def ESS_CMD_DETAIL : Fld := ⟨.ESS_CMD, 16, 8, .RO, 0⟩
/-- R258, chapter 06. -/
def ESS_CMD_BUSY : Fld := ⟨.ESS_CMD, 15, 1, .RO, 0⟩
/-- R258, chapter 06. -/
def ESS_CMD_OP : Fld := ⟨.ESS_CMD, 0, 8, .WO, 0⟩
/-- R258, chapter 06. -/
def ESS_CMD_CTX_CTX : Fld := ⟨.ESS_CMD_CTX, 0, 16, .RW, 0⟩
/-- R258, chapter 06. -/
def ESS_CTX_OVERFLOW_COUNT : Fld := ⟨.ESS_CTX_OVERFLOW, 0, 32, .RC, 0⟩
/-- R258, chapter 06. -/
def ESS_OPEN_REFUSED_COUNT : Fld := ⟨.ESS_OPEN_REFUSED, 0, 32, .RC, 0⟩
/-- R258, chapter 06. -/
def ESS_ATTACH_DROP_COUNT : Fld := ⟨.ESS_ATTACH_DROP, 0, 32, .RC, 0⟩
/-- R258, chapter 06. -/
def ESS_OPEN_COUNT_COUNT : Fld := ⟨.ESS_OPEN_COUNT, 0, 17, .RO, 0⟩
/-- R258, chapter 06. -/
def ESS_RING_FREE_KIB : Fld := ⟨.ESS_RING_FREE, 0, 23, .RO, 0x400000⟩
/-- R258, chapter 06. -/
def ESS_EVENT_SRTP_FAIL : Fld := ⟨.ESS_EVENT, 2, 1, .W1C, 0⟩
/-- R258, chapter 06. -/
def ESS_EVENT_STAGE_OVERRUN : Fld := ⟨.ESS_EVENT, 1, 1, .W1C, 0⟩
/-- R258, chapter 06. -/
def ESS_EVENT_CTX_OVERFLOW : Fld := ⟨.ESS_EVENT, 0, 1, .W1C, 0⟩
/-- R258, chapter 06. -/
def ESS_ARG_DATA : Fld := ⟨.ESS_ARG, 0, 32, .RW, 0⟩
/-- R298, chapter 07. -/
def CE_CTRL_RESULT : Fld := ⟨.CE_CTRL, 24, 8, .RO, 0⟩
/-- R298, chapter 07. -/
def CE_CTRL_LIVE_EXCLUSIVE : Fld := ⟨.CE_CTRL, 1, 1, .RW, 0⟩
/-- R298, chapter 07. -/
def CE_CTRL_ENABLE : Fld := ⟨.CE_CTRL, 0, 1, .RW, 0⟩
/-- R299, chapter 07. -/
def CE_STATUS_CUR_SC : Fld := ⟨.CE_STATUS, 16, 10, .RO, 0⟩
/-- R299, chapter 07. -/
def CE_STATUS_USE : Fld := ⟨.CE_STATUS, 8, 2, .RO, 0⟩
/-- R299, chapter 07. -/
def CE_STATUS_CUR_LIVE : Fld := ⟨.CE_STATUS, 4, 1, .RO, 0⟩
/-- R299, chapter 07. -/
def CE_STATUS_ENABLE_PENDING : Fld := ⟨.CE_STATUS, 3, 1, .RO, 0⟩
/-- R299, chapter 07. -/
def CE_STATUS_DRAINING : Fld := ⟨.CE_STATUS, 2, 1, .RO, 0⟩
/-- R299, chapter 07. -/
def CE_STATUS_BUSY : Fld := ⟨.CE_STATUS, 1, 1, .RO, 0⟩
/-- R299, chapter 07. -/
def CE_STATUS_ENABLED : Fld := ⟨.CE_STATUS, 0, 1, .RO, 0⟩
/-- R297, chapter 07. -/
def CE_UCODE_ROM_REV : Fld := ⟨.CE_UCODE, 16, 16, .RO, 0⟩
/-- R297, chapter 07. -/
def CE_UCODE_PATCH_LEVEL : Fld := ⟨.CE_UCODE, 0, 16, .RO, 0⟩
/-- R297, chapter 07. -/
def CE_KEYWAYS_ACTIVE : Fld := ⟨.CE_KEYWAYS, 0, 6, .RO, 0⟩
/-- R297, chapter 07. -/
def CE_LIVE_LOAD_NS : Fld := ⟨.CE_LIVE_LOAD, 0, 32, .RO, 0⟩
/-- R297, chapter 07. -/
def CE_PREEMPTS_COUNT : Fld := ⟨.CE_PREEMPTS, 0, 32, .RC, 0⟩
/-- R297, chapter 07. -/
def CE_RESTARTS_COUNT : Fld := ⟨.CE_RESTARTS, 0, 32, .RC, 0⟩
/-- R297, chapter 07. -/
def CE_OVERRUNS_COUNT : Fld := ⟨.CE_OVERRUNS, 0, 32, .RC, 0⟩
/-- R297, chapter 07. -/
def CE_MAX_WAIT_CCLK : Fld := ⟨.CE_MAX_WAIT, 0, 32, .RC, 0⟩
/-- R297, chapter 07. -/
def CE_BUSY_LO_BUSY : Fld := ⟨.CE_BUSY_LO, 0, 32, .RO, 0⟩
/-- R297, chapter 07. -/
def CE_BUSY_HI_BUSY : Fld := ⟨.CE_BUSY_HI, 0, 32, .RO, 0⟩
/-- R405, chapter 11. -/
def CE_WIN_CFG_WRITER : Fld := ⟨.CE_WIN_CFG, 24, 7, .RO, 0⟩
/-- R405, chapter 11. -/
def CE_WIN_CFG_SIZE_U : Fld := ⟨.CE_WIN_CFG, 16, 8, .RW, 0⟩
/-- R405, chapter 11. -/
def CE_WIN_CFG_BASE_U : Fld := ⟨.CE_WIN_CFG, 0, 8, .RW, 0⟩
/-- R405, chapter 11. -/
def CE_WIN_CTRL_RESULT : Fld := ⟨.CE_WIN_CTRL, 24, 8, .RO, 0⟩
/-- R405, chapter 11. -/
def CE_WIN_CTRL_USE : Fld := ⟨.CE_WIN_CTRL, 8, 2, .RW, 0⟩
/-- R405, chapter 11. -/
def CE_WIN_CTRL_FREE : Fld := ⟨.CE_WIN_CTRL, 1, 1, .WO, 0⟩
/-- R405, chapter 11. -/
def CE_WIN_CTRL_ALLOC : Fld := ⟨.CE_WIN_CTRL, 0, 1, .WO, 0⟩
/-- R405, chapter 11. -/
def CE_WIN_STATUS_CLAIMED : Fld := ⟨.CE_WIN_STATUS, 15, 1, .RO, 0⟩
/-- R405, chapter 11. -/
def CE_WIN_STATUS_ALLOCATED : Fld := ⟨.CE_WIN_STATUS, 14, 1, .RO, 0⟩
/-- R405, chapter 11. -/
def CE_WIN_STATUS_SEALED : Fld := ⟨.CE_WIN_STATUS, 13, 1, .RO, 0⟩
/-- R405, chapter 11. -/
def CE_WIN_STATUS_BOUND : Fld := ⟨.CE_WIN_STATUS, 12, 1, .RO, 0⟩
/-- R405, chapter 11. -/
def CE_WIN_STATUS_OWNER : Fld := ⟨.CE_WIN_STATUS, 0, 7, .RO, 0⟩
/-- R300, chapter 07. -/
def CG_ALLOC_RESULT : Fld := ⟨.CG_ALLOC, 24, 8, .RO, 0⟩
/-- R300, chapter 07. -/
def CG_ALLOC_SC : Fld := ⟨.CG_ALLOC, 0, 10, .RO, 0⟩
/-- R300, chapter 07. -/
def CG_OPEN_COUNT_COUNT : Fld := ⟨.CG_OPEN_COUNT, 0, 11, .RO, 0⟩
/-- R300, chapter 07. -/
def CG_NO_CONTEXT_COUNT : Fld := ⟨.CG_NO_CONTEXT, 0, 32, .RC, 0⟩
/-- R301, chapter 07. -/
def SC_RING_LO_BASE_LO : Fld := ⟨.SC_RING_LO, 6, 26, .RW, 0⟩
/-- R301, chapter 07. -/
def SC_RING_HI_BASE_HI : Fld := ⟨.SC_RING_HI, 0, 32, .RW, 0⟩
/-- R301, chapter 07. -/
def SC_RING_CFG_LOG2_ENTRIES : Fld := ⟨.SC_RING_CFG, 0, 4, .RW, 4⟩
/-- R301, chapter 07. -/
def SC_DOORBELL_TAIL : Fld := ⟨.SC_DOORBELL, 0, 12, .WO, 0⟩
/-- R301, chapter 07. -/
def SC_HEAD_HEAD : Fld := ⟨.SC_HEAD, 0, 12, .RO, 0⟩
/-- R301, chapter 07. -/
def SC_STATE_STAT_FULL : Fld := ⟨.SC_STATE, 5, 1, .RO, 0⟩
/-- R301, chapter 07. -/
def SC_STATE_BAD_DOORBELL : Fld := ⟨.SC_STATE, 4, 1, .W1C, 0⟩
/-- R301, chapter 07. -/
def SC_STATE_ENABLE_PENDING : Fld := ⟨.SC_STATE, 3, 1, .RO, 0⟩
/-- R301, chapter 07. -/
def SC_STATE_STATE : Fld := ⟨.SC_STATE, 0, 3, .RO, 0⟩
/-- R301, chapter 07. -/
def SC_STAT_HEAD_HEAD : Fld := ⟨.SC_STAT_HEAD, 0, 12, .RO, 0⟩
/-- R301, chapter 07. -/
def SC_STAT_TAIL_TAIL : Fld := ⟨.SC_STAT_TAIL, 0, 12, .RW, 0⟩
/-- R417, chapter 11. -/
def MEM_HBM_CE_COUNT : Fld := ⟨.MEM_HBM_CE, 0, 32, .RC, 0⟩
/-- R417, chapter 11. -/
def MEM_HBM_UE_COUNT : Fld := ⟨.MEM_HBM_UE, 0, 32, .RC, 0⟩
/-- R417, chapter 11. -/
def MEM_UE_ADDR_LO_ADDR : Fld := ⟨.MEM_UE_ADDR_LO, 0, 32, .RO, 0⟩
/-- R417, chapter 11. -/
def MEM_UE_ADDR_HI_ADDR : Fld := ⟨.MEM_UE_ADDR_HI, 0, 5, .RO, 0⟩
/-- R417, chapter 11. -/
def MEM_SRAM_CE_COUNT : Fld := ⟨.MEM_SRAM_CE, 0, 32, .RC, 0⟩
/-- R417, chapter 11. -/
def MEM_SRAM_UE_COUNT : Fld := ⟨.MEM_SRAM_UE, 0, 32, .RC, 0⟩
/-- R417, chapter 11. -/
def MEM_STATUS_BAD_RETURN : Fld := ⟨.MEM_STATUS, 2, 1, .W1C, 0⟩
/-- R417, chapter 11. -/
def MEM_STATUS_UE_SEEN : Fld := ⟨.MEM_STATUS, 1, 1, .W1C, 0⟩
/-- R417, chapter 11. -/
def MEM_STATUS_INIT_DONE : Fld := ⟨.MEM_STATUS, 0, 1, .RO, 0⟩
/-- R417, chapter 11. -/
def POOL_LOG2_LOG2_SIZE : Fld := ⟨.POOL_LOG2, 0, 5, .RWI, 0⟩
/-- R417, chapter 11. -/
def POOL_COUNT_COUNT : Fld := ⟨.POOL_COUNT, 0, 32, .RWI, 0⟩
/-- R417, chapter 11. -/
def POOL_BASE_LO_BASE : Fld := ⟨.POOL_BASE_LO, 0, 32, .RO, 0⟩
/-- R417, chapter 11. -/
def POOL_BASE_HI_BASE : Fld := ⟨.POOL_BASE_HI, 0, 4, .RO, 0⟩
/-- R417, chapter 11. -/
def POOL_FREE_COUNT : Fld := ⟨.POOL_FREE, 0, 32, .RO, 0⟩
/-- R417, chapter 11. -/
def POOL_MIN_FREE_COUNT : Fld := ⟨.POOL_MIN_FREE, 0, 32, .RC, 0⟩
/-- R417, chapter 11. -/
def POOL_FALLBACK_COUNT : Fld := ⟨.POOL_FALLBACK, 0, 32, .RC, 0⟩
/-- R417, chapter 11. -/
def POOL_REQ_BYTES : Fld := ⟨.POOL_REQ, 0, 29, .WO, 0⟩
/-- R417, chapter 11. -/
def POOL_RESP_RESULT : Fld := ⟨.POOL_RESP, 24, 8, .RO, 0⟩
/-- R417, chapter 11. -/
def POOL_RESP_POOL : Fld := ⟨.POOL_RESP, 16, 3, .RO, 0⟩
/-- R417, chapter 11. -/
def POOL_RESP_PENDING : Fld := ⟨.POOL_RESP, 15, 1, .RO, 0⟩
/-- R417, chapter 11. -/
def POOL_PTR_LO_PTR : Fld := ⟨.POOL_PTR_LO, 0, 32, .RO, 0⟩
/-- R417, chapter 11. -/
def POOL_PTR_HI_PTR : Fld := ⟨.POOL_PTR_HI, 0, 32, .RO, 0⟩
/-- R417, chapter 11. -/
def POOL_RET_LO_PTR : Fld := ⟨.POOL_RET_LO, 0, 32, .RW, 0⟩
/-- R417, chapter 11. -/
def POOL_RET_HI_PTR : Fld := ⟨.POOL_RET_HI, 0, 32, .WO, 0⟩
/-- R417, chapter 11. -/
def POOL_RET_RESP_RESULT : Fld := ⟨.POOL_RET_RESP, 24, 8, .RO, 0⟩
/-- R417, chapter 11. -/
def POOL_BAD_RET_COUNT : Fld := ⟨.POOL_BAD_RET, 0, 32, .RC, 0⟩
/-- R436, chapter 11. -/
def DC_CTRL_RESULT : Fld := ⟨.DC_CTRL, 24, 8, .RO, 0⟩
/-- R436, chapter 11. -/
def DC_CTRL_HINGE_TD : Fld := ⟨.DC_CTRL, 8, 4, .RW, 0xf⟩
/-- R436, chapter 11. -/
def DC_CTRL_RESUME : Fld := ⟨.DC_CTRL, 5, 1, .WO, 0⟩
/-- R436, chapter 11. -/
def DC_CTRL_HALT_ON_ERR : Fld := ⟨.DC_CTRL, 4, 1, .RW, 0⟩
/-- R436, chapter 11. -/
def DC_CTRL_MODE : Fld := ⟨.DC_CTRL, 3, 1, .RW, 0⟩
/-- R436, chapter 11. -/
def DC_CTRL_ARM : Fld := ⟨.DC_CTRL, 1, 1, .WO, 0⟩
/-- R436, chapter 11. -/
def DC_CTRL_ENABLE : Fld := ⟨.DC_CTRL, 0, 1, .RW, 0⟩
/-- R436, chapter 11. -/
def DC_STATUS_BAD_TAIL : Fld := ⟨.DC_STATUS, 10, 1, .W1C, 0⟩
/-- R436, chapter 11. -/
def DC_STATUS_HALTED : Fld := ⟨.DC_STATUS, 9, 1, .RO, 0⟩
/-- R436, chapter 11. -/
def DC_STATUS_LOCKED_WR : Fld := ⟨.DC_STATUS, 8, 1, .W1C, 0⟩
/-- R436, chapter 11. -/
def DC_STATUS_ENABLE_PENDING : Fld := ⟨.DC_STATUS, 6, 1, .RO, 0⟩
/-- R436, chapter 11. -/
def DC_STATUS_DRAINING : Fld := ⟨.DC_STATUS, 5, 1, .RO, 0⟩
/-- R436, chapter 11. -/
def DC_STATUS_ENABLED : Fld := ⟨.DC_STATUS, 4, 1, .RO, 0⟩
/-- R436, chapter 11. -/
def DC_STATUS_SHADOW_ARMED : Fld := ⟨.DC_STATUS, 2, 1, .RO, 0⟩
/-- R436, chapter 11. -/
def DC_STATUS_ACTIVE_BUSY : Fld := ⟨.DC_STATUS, 1, 1, .RO, 0⟩
/-- R436, chapter 11. -/
def DC_HINGE_CNT_COUNT : Fld := ⟨.DC_HINGE_CNT, 0, 32, .RO, 0⟩
/-- R436, chapter 11. -/
def DC_SHD_STAMP_LANDED : Fld := ⟨.DC_SHD_STAMP, 31, 1, .RO, 0⟩
/-- R436, chapter 11. -/
def DC_SHD_STAMP_COUNT : Fld := ⟨.DC_SHD_STAMP, 0, 16, .RO, 0⟩
/-- R436, chapter 11. -/
def DC_BYTES_COUNT : Fld := ⟨.DC_BYTES, 0, 32, .RO, 0⟩
/-- R436, chapter 11. -/
def DC_BYTES_HI_COUNT_HI : Fld := ⟨.DC_BYTES_HI, 0, 1, .RO, 0⟩
/-- R436, chapter 11. -/
def DC_SHD_DATA : Fld := ⟨.DC_SHD, 0, 32, .RW, 0⟩
/-- R436, chapter 11. -/
def DC_ACT_DATA : Fld := ⟨.DC_ACT, 0, 32, .RO, 0⟩
/-- R436, chapter 11. -/
def DC_RING_LO_BASE : Fld := ⟨.DC_RING_LO, 6, 26, .RW, 0⟩
/-- R436, chapter 11. -/
def DC_RING_HI_BASE : Fld := ⟨.DC_RING_HI, 0, 32, .RW, 0⟩
/-- R436, chapter 11. -/
def DC_RING_CFG_LOG2_ENTRIES : Fld := ⟨.DC_RING_CFG, 0, 4, .RW, 4⟩
/-- R436, chapter 11. -/
def DC_RING_TAIL_TAIL : Fld := ⟨.DC_RING_TAIL, 0, 12, .WO, 0⟩
/-- R436, chapter 11. -/
def DC_RING_HEAD_HEAD : Fld := ⟨.DC_RING_HEAD, 0, 12, .RO, 0⟩
/-- R437, chapter 11. -/
def CQ_BASE_LO_BASE : Fld := ⟨.CQ_BASE_LO, 12, 20, .RW, 0⟩
/-- R437, chapter 11. -/
def CQ_BASE_HI_BASE : Fld := ⟨.CQ_BASE_HI, 0, 32, .RW, 0⟩
/-- R437, chapter 11. -/
def CQ_CFG_ENABLE : Fld := ⟨.CQ_CFG, 31, 1, .RW, 0⟩
/-- R437, chapter 11. -/
def CQ_CFG_LOG2_ENTRIES : Fld := ⟨.CQ_CFG, 0, 5, .RW, 4⟩
/-- R437, chapter 11. -/
def CQ_HEAD_HEAD : Fld := ⟨.CQ_HEAD, 0, 16, .RO, 0⟩
/-- R437, chapter 11. -/
def CQ_TAIL_TAIL : Fld := ⟨.CQ_TAIL, 0, 16, .RW, 0⟩
/-- R437, chapter 11. -/
def CQ_LOST_COUNT : Fld := ⟨.CQ_LOST, 0, 32, .RC, 0⟩
/-- R437, chapter 11. -/
def CQ_STATUS_FULL : Fld := ⟨.CQ_STATUS, 0, 1, .RO, 0⟩
/-- R463, chapter 12. -/
def INT_GRP_CFG_ENABLE : Fld := ⟨.INT_GRP_CFG, 31, 1, .RWI, 0⟩
/-- R463, chapter 12. -/
def INT_GRP_CFG_WAKE_ON_PENDING : Fld := ⟨.INT_GRP_CFG, 30, 1, .RWI, 0⟩
/-- R463, chapter 12. -/
def INT_GRP_CFG_FUNCTION : Fld := ⟨.INT_GRP_CFG, 16, 7, .RWI, 0⟩
/-- R463, chapter 12. -/
def INT_GRP_CFG_VECTOR : Fld := ⟨.INT_GRP_CFG, 0, 11, .RWI, 0⟩
/-- R463, chapter 12. -/
def INT_GRP_HOLDOFF_HOLDOFF : Fld := ⟨.INT_GRP_HOLDOFF, 0, 16, .RWI, 0⟩
/-- R463, chapter 12. -/
def INT_GRP_CTRL_RESEND : Fld := ⟨.INT_GRP_CTRL, 0, 1, .W1S, 0⟩
/-- R463, chapter 12. -/
def INT_GRP_STATUS_FIRST_VALID : Fld := ⟨.INT_GRP_STATUS, 31, 1, .RO, 0⟩
/-- R463, chapter 12. -/
def INT_GRP_STATUS_FIRST : Fld := ⟨.INT_GRP_STATUS, 16, 12, .RO, 0⟩
/-- R463, chapter 12. -/
def INT_GRP_STATUS_LATE_MASK : Fld := ⟨.INT_GRP_STATUS, 9, 1, .W1C, 0⟩
/-- R463, chapter 12. -/
def INT_GRP_STATUS_LIVE : Fld := ⟨.INT_GRP_STATUS, 8, 1, .RO, 0⟩
/-- R463, chapter 12. -/
def INT_GRP_STATUS_STATE : Fld := ⟨.INT_GRP_STATUS, 0, 2, .RO, 0⟩
/-- R463, chapter 12. -/
def INT_GRP_LEFT_UNITS : Fld := ⟨.INT_GRP_LEFT, 0, 16, .RO, 0⟩
/-- R463, chapter 12. -/
def INT_GRP_SENT_COUNT : Fld := ⟨.INT_GRP_SENT, 0, 32, .RC, 0⟩
/-- R463, chapter 12. -/
def INT_GRP_PME_COUNT : Fld := ⟨.INT_GRP_PME, 0, 32, .RC, 0⟩
/-- R568, chapter 15. -/
def TRC_CTRL_RESULT : Fld := ⟨.TRC_CTRL, 24, 8, .RO, 0⟩
/-- R568, chapter 15. -/
def TRC_CTRL_IDLE_CLOSE_US : Fld := ⟨.TRC_CTRL, 8, 8, .RW, 1⟩
/-- R568, chapter 15. -/
def TRC_CTRL_FLUSH : Fld := ⟨.TRC_CTRL, 2, 1, .WO, 0⟩
/-- R568, chapter 15. -/
def TRC_CTRL_SINK : Fld := ⟨.TRC_CTRL, 1, 1, .RW, 0⟩
/-- R568, chapter 15. -/
def TRC_CTRL_ENABLE : Fld := ⟨.TRC_CTRL, 0, 1, .RW, 0⟩
/-- R568, chapter 15. -/
def TRC_STATUS_UNDERRUN : Fld := ⟨.TRC_STATUS, 31, 1, .W1C, 0⟩
/-- R568, chapter 15. -/
def TRC_STATUS_GAP_PENDING : Fld := ⟨.TRC_STATUS, 30, 1, .RO, 0⟩
/-- R568, chapter 15. -/
def TRC_STATUS_LEVEL : Fld := ⟨.TRC_STATUS, 0, 13, .RO, 0⟩
/-- R568, chapter 15. -/
def TRC_DROPS_COUNT : Fld := ⟨.TRC_DROPS, 0, 32, .RC, 0⟩
/-- R568, chapter 15. -/
def TRC_DATA_DATA : Fld := ⟨.TRC_DATA, 0, 32, .RO, 0⟩
/-- R568, chapter 15. -/
def TRC_SEQ_CTRL_ENABLE : Fld := ⟨.TRC_SEQ_CTRL, 8, 1, .RW, 0⟩
/-- R568, chapter 15. -/
def TRC_SEQ_CTRL_J : Fld := ⟨.TRC_SEQ_CTRL, 0, 5, .RW, 0⟩
/-- R568, chapter 15. -/
def DUMP_CTRL_DUMP_NOW : Fld := ⟨.DUMP_CTRL, 0, 1, .WO, 0⟩
/-- R568, chapter 15. -/
def DUMP_STATUS_PENDING : Fld := ⟨.DUMP_STATUS, 1, 1, .RO, 0⟩
/-- R568, chapter 15. -/
def DUMP_STATUS_RUNNING : Fld := ⟨.DUMP_STATUS, 0, 1, .RO, 0⟩
/-- R568, chapter 15. -/
def DUMP_SKIPPED_COUNT : Fld := ⟨.DUMP_SKIPPED, 0, 32, .RC, 0⟩
/-- R568, chapter 15. -/
def BW_CTRL_PEAK_CLEAR : Fld := ⟨.BW_CTRL, 31, 1, .WO, 0⟩
/-- R568, chapter 15. -/
def BW_CTRL_WINDOW_US : Fld := ⟨.BW_CTRL, 0, 20, .RW, 0x3e8⟩
/-- R569, chapter 15. -/
def MGMT_TEMP_READING : Fld := ⟨.MGMT_TEMP, 0, 16, .RO, 0⟩
/-- R569, chapter 15. -/
def MGMT_TEMP_PEAK_PEAK : Fld := ⟨.MGMT_TEMP_PEAK, 0, 16, .RC, 0⟩
/-- R569, chapter 15. -/
def MGMT_TEMP_LIMITS_CRIT : Fld := ⟨.MGMT_TEMP_LIMITS, 16, 16, .RWA, 0x700⟩
/-- R569, chapter 15. -/
def MGMT_TEMP_LIMITS_WARN : Fld := ⟨.MGMT_TEMP_LIMITS, 0, 16, .RWA, 0x640⟩
/-- R569, chapter 15. -/
def MGMT_VOLT_NOMINAL_MV : Fld := ⟨.MGMT_VOLT, 16, 16, .RO, 0⟩
/-- R569, chapter 15. -/
def MGMT_VOLT_MV : Fld := ⟨.MGMT_VOLT, 0, 16, .RO, 0⟩
/-- R569, chapter 15. -/
def MGMT_VOLT_WIN_WIN_PCT : Fld := ⟨.MGMT_VOLT_WIN, 0, 4, .RWA, 5⟩
/-- R450, chapter 12. -/
def MBX_REQ_LEN_LEN : Fld := ⟨.MBX_REQ_LEN, 0, 15, .RW, 0⟩
/-- R450, chapter 12. -/
def MBX_IND_LO_ADDR : Fld := ⟨.MBX_IND_LO, 6, 26, .RW, 0⟩
/-- R450, chapter 12. -/
def MBX_IND_HI_ADDR : Fld := ⟨.MBX_IND_HI, 0, 32, .RW, 0⟩
/-- R450, chapter 12. -/
def MBX_IND_LEN_LEN : Fld := ⟨.MBX_IND_LEN, 0, 25, .RW, 0⟩
/-- R450, chapter 12. -/
def MBX_CTRL_GO : Fld := ⟨.MBX_CTRL, 0, 1, .WO, 0⟩
/-- R450, chapter 12. -/
def MBX_STATUS_RESULT : Fld := ⟨.MBX_STATUS, 24, 8, .RO, 0⟩
/-- R450, chapter 12. -/
def MBX_STATUS_RESP_READY : Fld := ⟨.MBX_STATUS, 16, 1, .W1C, 0⟩
/-- R450, chapter 12. -/
def MBX_STATUS_BUSY : Fld := ⟨.MBX_STATUS, 15, 1, .RO, 0⟩
/-- R450, chapter 12. -/
def MBX_STATUS_RESP_LEN : Fld := ⟨.MBX_STATUS, 0, 15, .RO, 0⟩
/-- R450, chapter 12. -/
def MBX_SEQ_COUNT : Fld := ⟨.MBX_SEQ, 0, 32, .RO, 0⟩

end F

/-- The fields of a register; bits no field lists are reserved and read 0 (R10). -/
def Reg.fields : Reg → List Fld
  | .GLB_ID => [F.GLB_ID_DEVICE, F.GLB_ID_FAMILY, F.GLB_ID_MASK, F.GLB_ID_METAL]
  | .GLB_MODE => [F.GLB_MODE_TARGET, F.GLB_MODE_TRANSITION, F.GLB_MODE_RETAINED, F.GLB_MODE_BOARD_TEST, F.GLB_MODE_MODE]
  | .GLB_MODE_REQ => [F.GLB_MODE_REQ_RESULT, F.GLB_MODE_REQ_AT_L2, F.GLB_MODE_REQ_RETAIN_HBM, F.GLB_MODE_REQ_REQ]
  | .STBY_STATUS => [F.STBY_STATUS_ENTRIES, F.STBY_STATUS_WAKE_SRC, F.STBY_STATUS_WAKE_LATCHED, F.STBY_STATUS_STATUS]
  | .GLB_WAKE_CFG => [F.GLB_WAKE_CFG_PIN_RETAIN, F.GLB_WAKE_CFG_PIN_REQ, F.GLB_WAKE_CFG_ALARM, F.GLB_WAKE_CFG_PERST, F.GLB_WAKE_CFG_STBY_PIN, F.GLB_WAKE_CFG_WAKE_PIN]
  | .GLB_WAKE_TIME_NS => [F.GLB_WAKE_TIME_NS_NS]
  | .GLB_WAKE_TIME_SEC => [F.GLB_WAKE_TIME_SEC_SEC]
  | .GLB_RESET_CAUSE => [F.GLB_RESET_CAUSE_PERST, F.GLB_RESET_CAUSE_STANDBY_WAKE, F.GLB_RESET_CAUSE_LOCKDOWN_EXIT, F.GLB_RESET_CAUSE_FW_REBOOT, F.GLB_RESET_CAUSE_SHK_RST, F.GLB_RESET_CAUSE_SYSRST, F.GLB_RESET_CAUSE_PORST, F.GLB_RESET_CAUSE_POWER_ON]
  | .GLB_BIST => [F.GLB_BIST_DONE, F.GLB_BIST_FAIL_UNIT]
  | .IMG_STATUS => [F.IMG_STATUS_ERR, F.IMG_STATUS_SECTION, F.IMG_STATUS_DELTA_PENDING, F.IMG_STATUS_LOADED, F.IMG_STATUS_PHASE]
  | .IMG_CLAIM_A => [F.IMG_CLAIM_A_SECTION, F.IMG_CLAIM_A_OFFSET]
  | .IMG_CLAIM_B => [F.IMG_CLAIM_B_SECTION, F.IMG_CLAIM_B_OFFSET]
  | .IMG_SERIAL => [F.IMG_SERIAL_SERIAL]
  | .IMG_SVN => [F.IMG_SVN_SVN]
  | .HASP_STATUS_LO => [F.HASP_STATUS_LO_STATUS]
  | .HASP_STATUS_HI => [F.HASP_STATUS_HI_STATUS]
  | .HASP_ACK_LO => [F.HASP_ACK_LO_ACK]
  | .HASP_ACK_HI => [F.HASP_ACK_HI_ACK]
  | .HASP_CAUSE_LO => [F.HASP_CAUSE_LO_CAUSE]
  | .HASP_CAUSE_HI => [F.HASP_CAUSE_HI_CAUSE]
  | .HASP_CTRL => [F.HASP_CTRL_FAULT_N_CLASS, F.HASP_CTRL_C4_EXIT, F.HASP_CTRL_DRIVE_SHK_FAULT, F.HASP_CTRL_POLICY_IMAGE]
  | .HASP_PINS => [F.HASP_PINS_LOCK_VALID, F.HASP_PINS_LOCK_SOURCE, F.HASP_PINS_SHK_DRIVE, F.HASP_PINS_READY, F.HASP_PINS_FAULT_LOW]
  | .HASP_FIRST => [F.HASP_FIRST_VALID, F.HASP_FIRST_SOURCE, F.HASP_FIRST_CLASS]
  | .HASP_LATCHES => [F.HASP_LATCHES_COUNT]
  | .HASP_SRC_CLASS => [F.HASP_SRC_CLASS_REACTION, F.HASP_SRC_CLASS_CLASS]
  | .HASP_SRC_WINDOW => [F.HASP_SRC_WINDOW_WINDOW_MS, F.HASP_SRC_WINDOW_N]
  | .HASP_SRC_STATE => [F.HASP_SRC_STATE_REPEAT, F.HASP_SRC_STATE_DETAIL, F.HASP_SRC_STATE_EFF_CLASS, F.HASP_SRC_STATE_CAUSE, F.HASP_SRC_STATE_LASTING, F.HASP_SRC_STATE_ESCALATED, F.HASP_SRC_STATE_ACKED, F.HASP_SRC_STATE_SET]
  | .HASP_SRC_WIN => [F.HASP_SRC_WIN_COUNT]
  | .TIME_CTRL => [F.TIME_CTRL_FREQ_IN_DISABLE, F.TIME_CTRL_STEP, F.TIME_CTRL_SNAPSHOT, F.TIME_CTRL_RUN]
  | .TIME_INCR => [F.TIME_INCR_INCR]
  | .TIME_SNAP_NS => [F.TIME_SNAP_NS_NS]
  | .TIME_SNAP_SEC_LO => [F.TIME_SNAP_SEC_LO_SEC]
  | .TIME_SNAP_SEC_HI => [F.TIME_SNAP_SEC_HI_SEC]
  | .TIME_STEP_NS => [F.TIME_STEP_NS_SIGN, F.TIME_STEP_NS_NS]
  | .TIME_STEP_SEC => [F.TIME_STEP_SEC_SEC]
  | .TIME_STATUS => [F.TIME_STATUS_STEPPED, F.TIME_STATUS_PPS_CAPTURED, F.TIME_STATUS_FREQ_IN_LOST, F.TIME_STATUS_FREQ_SRC]
  | .TIME_PPS_NS => [F.TIME_PPS_NS_NS]
  | .TIME_PPS_SEC => [F.TIME_PPS_SEC_SEC]
  | .SHK_CTRL => [F.SHK_CTRL_DELAY_NS]
  | .SHK_STATUS => [F.SHK_STATUS_PHASE_ERR, F.SHK_STATUS_FAULT_SEEN, F.SHK_STATUS_TICK_LOST, F.SHK_STATUS_TICK_LOCK, F.SHK_STATUS_MASTER]
  | .SYNC_GPIO => [F.SYNC_GPIO_RESULT, F.SYNC_GPIO_IN, F.SYNC_GPIO_OE, F.SYNC_GPIO_OUT]
  | .TICK_CTRL => [F.TICK_CTRL_ENABLED]
  | .TICK_N => [F.TICK_N_N]
  | .TICK_D => [F.TICK_D_D]
  | .TICK_IDX_LO => [F.TICK_IDX_LO_IDX]
  | .TICK_IDX_HI => [F.TICK_IDX_HI_IDX]
  | .TICK_SKIP => [F.TICK_SKIP_COUNT]
  | .TMR_CTRL => [F.TMR_CTRL_RESULT, F.TMR_CTRL_MODE, F.TMR_CTRL_RUNNING, F.TMR_CTRL_STOP, F.TMR_CTRL_START]
  | .TMR_PERIOD_NS => [F.TMR_PERIOD_NS_NS]
  | .TMR_START_NS => [F.TMR_START_NS_NS]
  | .TMR_START_SEC => [F.TMR_START_SEC_SEC]
  | .TMR_CAP_NS => [F.TMR_CAP_NS_NS]
  | .TMR_CAP_SEC => [F.TMR_CAP_SEC_SEC]
  | .TMR_PULSE_NS => [F.TMR_PULSE_NS_NS]
  | .INT_PEND => [F.INT_PEND_PEND]
  | .INT_MASK => [F.INT_MASK_MASK]
  | .INT_RAW => [F.INT_RAW_RAW]
  | .INT_FORCE => [F.INT_FORCE_FORCE]
  | .HIF_LINK => [F.HIF_LINK_FLIT, F.HIF_LINK_SPEED, F.HIF_LINK_WIDTH, F.HIF_LINK_DEGRADED]
  | .HIF_L1_COUNT => [F.HIF_L1_COUNT_COUNT]
  | .HIF_NUM_VFS => [F.HIF_NUM_VFS_COUNT]
  | .HIF_DENIED => [F.HIF_DENIED_COUNT]
  | .HIF_REQ_ERR => [F.HIF_REQ_ERR_COUNT]
  | .HIF_DC_OWNER => [F.HIF_DC_OWNER_RESULT, F.HIF_DC_OWNER_OWNER]
  | .HIF_CQ_OWNER => [F.HIF_CQ_OWNER_RESULT, F.HIF_CQ_OWNER_OWNER]
  | .HIF_VF_QUOTA => [F.HIF_VF_QUOTA_SC_QUOTA, F.HIF_VF_QUOTA_BUF_QUOTA_GIB]
  | .HIF_FUNC_PM => [F.HIF_FUNC_PM_DSTATE]
  | .HIF_CPG_PERM => [F.HIF_CPG_PERM_PUBLIC, F.HIF_CPG_PERM_OWNER]
  | .WARD_STATE => [F.WARD_STATE_EPOCH, F.WARD_STATE_BANKS_USED, F.WARD_STATE_ENTROPY_OK, F.WARD_STATE_HBM_KEY_VALID, F.WARD_STATE_CONSOLE, F.WARD_STATE_OBSERVE, F.WARD_STATE_SEC_STATE]
  | .WARD_BOOT => [F.WARD_BOOT_FALLBACK, F.WARD_BOOT_FW_SLOT, F.WARD_BOOT_FAIL]
  | .WARD_SVN => [F.WARD_SVN_PATCH_RUN, F.WARD_SVN_PATCH_FLOOR, F.WARD_SVN_FW_RUN, F.WARD_SVN_FW_FLOOR]
  | .WARD_IMG_FLOOR => [F.WARD_IMG_FLOOR_FLOOR]
  | .WARD_CTR_LO => [F.WARD_CTR_LO_CTR]
  | .WARD_CTR_HI => [F.WARD_CTR_HI_CTR]
  | .WARD_KEYS => [F.WARD_KEYS_USED]
  | .WARD_AUTH_FAIL => [F.WARD_AUTH_FAIL_COUNT]
  | .WARD_REPLAY => [F.WARD_REPLAY_COUNT]
  | .WARD_GRANT_LEFT => [F.WARD_GRANT_LEFT_SECONDS]
  | .MAC_CTRL => [F.MAC_CTRL_AN_RESTART, F.MAC_CTRL_ENABLE]
  | .MAC_STATUS => [F.MAC_STATUS_FEC_UNCORR_EVT, F.MAC_STATUS_LINK_DOWN_EVT, F.MAC_STATUS_FEC_LOCK, F.MAC_STATUS_AN_DONE, F.MAC_STATUS_ENABLE_PENDING, F.MAC_STATUS_DRAINING, F.MAC_STATUS_ENABLED, F.MAC_STATUS_LINK_UP]
  | .MAC_PTP => [F.MAC_PTP_ASYM_NS, F.MAC_PTP_P2P, F.MAC_PTP_TC_ENABLE, F.MAC_PTP_ONE_STEP, F.MAC_PTP_TS_ENABLE]
  | .MAC_TXTS_ID => [F.MAC_TXTS_ID_VALID, F.MAC_TXTS_ID_OVERFLOW, F.MAC_TXTS_ID_DOMAIN, F.MAC_TXTS_ID_MSGTYPE, F.MAC_TXTS_ID_SEQID]
  | .MAC_TXTS_NS => [F.MAC_TXTS_NS_NS]
  | .MAC_TXTS_SEC => [F.MAC_TXTS_SEC_SEC]
  | .FL_CTRL => [F.FL_CTRL_ENABLE]
  | .FL_STATUS => [F.FL_STATUS_DRAINING, F.FL_STATUS_ENABLE_PENDING, F.FL_STATUS_HELLO_MISMATCH, F.FL_STATUS_PEER_LOST_EVT, F.FL_STATUS_PEER_INDEX, F.FL_STATUS_PEER_UP, F.FL_STATUS_FLIT_LOCK, F.FL_STATUS_PCS_UP]
  | .FL_REPLAYS => [F.FL_REPLAYS_COUNT]
  | .FL_LOST_PKTS => [F.FL_LOST_PKTS_COUNT]
  | .PL_HASH_SEED => [F.PL_HASH_SEED_SEED]
  | .PL_LAG_SEED => [F.PL_LAG_SEED_SEED]
  | .PL_TAG_CTRL => [F.PL_TAG_CTRL_ENABLE, F.PL_TAG_CTRL_K]
  | .PL_FLOOD_BASE => [F.PL_FLOOD_BASE_GROUP]
  | .PL_L2_LEARN_FAIL => [F.PL_L2_LEARN_FAIL_COUNT]
  | .PL_L2_DEFER_DROP => [F.PL_L2_DEFER_DROP_COUNT]
  | .PL_PARSE_LIMIT => [F.PL_PARSE_LIMIT_COUNT]
  | .PL_MC_NO_RECORD => [F.PL_MC_NO_RECORD_COUNT]
  | .PL_TBL_BAD_WR => [F.PL_TBL_BAD_WR_COUNT]
  | .PL_PUNT_DROP => [F.PL_PUNT_DROP_COUNT]
  | .TBL_CTRL => [F.TBL_CTRL_LOCK]
  | .TBL_EPOCH => [F.TBL_EPOCH_EPOCH]
  | .TBL_DRAIN_EPOCH => [F.TBL_DRAIN_EPOCH_DRAIN]
  | .TBL_STATUS => [F.TBL_STATUS_UNLOCKED_WR, F.TBL_STATUS_PARTIAL_WR, F.TBL_STATUS_LOCK_ACTIVE]
  | .TRIE_RING_TAIL => [F.TRIE_RING_TAIL_TAIL]
  | .TRIE_RING_HEAD => [F.TRIE_RING_HEAD_HEAD]
  | .TRIE_STATUS => [F.TRIE_STATUS_BAD_RECORD, F.TRIE_STATUS_NO_NODE, F.TRIE_STATUS_BUSY]
  | .PL_PORT_CFG0 => [F.PL_PORT_CFG0_EM_ENABLE, F.PL_PORT_CFG0_DEFAULT_VRF, F.PL_PORT_CFG0_EM_PROF_IP4, F.PL_PORT_CFG0_EM_PROF_IP6, F.PL_PORT_CFG0_EM_PROF_OTHER, F.PL_PORT_CFG0_L2_REGION]
  | .PL_PORT_CFG1 => [F.PL_PORT_CFG1_PVID, F.PL_PORT_CFG1_LEARN_LEAF]
  | .PL_PORT_CFG2 => [F.PL_PORT_CFG2_ROUTER_MAC_LO]
  | .PL_PORT_CFG3 => [F.PL_PORT_CFG3_ROUTER_MAC_HI]
  | .PL_VRF_LEN0 => [F.PL_VRF_LEN0_LEN]
  | .PL_VRF_LEN1 => [F.PL_VRF_LEN1_LEN]
  | .PL_VRF_LEN2 => [F.PL_VRF_LEN2_LEN]
  | .PL_VRF_LEN3 => [F.PL_VRF_LEN3_LEN]
  | .TM_CTRL => [F.TM_CTRL_SHAPE_OVERHEAD, F.TM_CTRL_STALL_US]
  | .TM_SHARED_USED => [F.TM_SHARED_USED_CELLS]
  | .TM_SHARED_PEAK => [F.TM_SHARED_PEAK_CELLS]
  | .TM_NO_LEAF => [F.TM_NO_LEAF_COUNT]
  | .TM_LEAF_MISMATCH => [F.TM_LEAF_MISMATCH_COUNT]
  | .TM_CTRL_DROP => [F.TM_CTRL_DROP_COUNT]
  | .TM_SHARED_DROP => [F.TM_SHARED_DROP_COUNT]
  | .TM_STALLED_LEAVES => [F.TM_STALLED_LEAVES_COUNT]
  | .TM_STALL_FIRST => [F.TM_STALL_FIRST_VALID, F.TM_STALL_FIRST_LEAF]
  | .TM_PORT_CTRL => [F.TM_PORT_CTRL_PFC_RX, F.TM_PORT_CTRL_PAUSE_RX]
  | .TM_PORT_SHAPE => [F.TM_PORT_SHAPE_ENABLE, F.TM_PORT_SHAPE_RATE]
  | .TM_PORT_BURST => [F.TM_PORT_BURST_BURST]
  | .TM_PORT_PAUSED => [F.TM_PORT_PAUSED_CLASS]
  | .TM_CT_FRAMES => [F.TM_CT_FRAMES_COUNT]
  | .TM_CT_FALLBACK => [F.TM_CT_FALLBACK_COUNT]
  | .TM_CT_STOMP_RX => [F.TM_CT_STOMP_RX_COUNT]
  | .TM_CT_STOMP_TX => [F.TM_CT_STOMP_TX_COUNT]
  | .TM_MC_LEAF => [F.TM_MC_LEAF_VALID, F.TM_MC_LEAF_LEAF]
  | .TM_CLS_SHAPE => [F.TM_CLS_SHAPE_ENABLE, F.TM_CLS_SHAPE_RATE]
  | .TM_CLS_BURST => [F.TM_CLS_BURST_BURST]
  | .TM_LEAF_SHAPE => [F.TM_LEAF_SHAPE_ENABLE, F.TM_LEAF_SHAPE_RATE]
  | .TM_LEAF_BURST => [F.TM_LEAF_BURST_BURST]
  | .TM_LEAF_DEPTH => [F.TM_LEAF_DEPTH_CELLS]
  | .TM_LEAF_DROP => [F.TM_LEAF_DROP_COUNT]
  | .TM_LEAF_ECN => [F.TM_LEAF_ECN_COUNT]
  | .TM_LEAF_STALL => [F.TM_LEAF_STALL_COUNT]
  | .TM_LEAF_FLUSHED => [F.TM_LEAF_FLUSHED_COUNT]
  | .TM_LEAF_STATUS => [F.TM_LEAF_STATUS_FLUSH_BUSY, F.TM_LEAF_STATUS_STALLED, F.TM_LEAF_STATUS_FLUSH]
  | .TM_POL_RATE => [F.TM_POL_RATE_ENABLE, F.TM_POL_RATE_RATE]
  | .TM_POL_BURST => [F.TM_POL_BURST_BURST]
  | .TM_POL_DROP => [F.TM_POL_DROP_COUNT]
  | .TM_GCL_CTRL => [F.TM_GCL_CTRL_RESULT, F.TM_GCL_CTRL_ARM, F.TM_GCL_CTRL_ENABLE]
  | .TM_GCL_LEN => [F.TM_GCL_LEN_ADMIN_LEN]
  | .TM_GCL_CYCLE_NS => [F.TM_GCL_CYCLE_NS_CYCLE]
  | .TM_GCL_BASE_NS => [F.TM_GCL_BASE_NS_NS]
  | .TM_GCL_BASE_SEC => [F.TM_GCL_BASE_SEC_SEC]
  | .TM_GCL_BASE_SEC_HI => [F.TM_GCL_BASE_SEC_HI_SEC_HI]
  | .TM_GCL_CHANGE_NS => [F.TM_GCL_CHANGE_NS_NS]
  | .TM_GCL_CHANGE_SEC => [F.TM_GCL_CHANGE_SEC_SEC]
  | .TM_GCL_STATUS => [F.TM_GCL_STATUS_LOCKED_WR, F.TM_GCL_STATUS_OPER_LIST, F.TM_GCL_STATUS_PENDING]
  | .TM_GCL_TRUNC => [F.TM_GCL_TRUNC_COUNT]
  | .ESS_CMD => [F.ESS_CMD_RESULT, F.ESS_CMD_DETAIL, F.ESS_CMD_BUSY, F.ESS_CMD_OP]
  | .ESS_CMD_CTX => [F.ESS_CMD_CTX_CTX]
  | .ESS_CTX_OVERFLOW => [F.ESS_CTX_OVERFLOW_COUNT]
  | .ESS_OPEN_REFUSED => [F.ESS_OPEN_REFUSED_COUNT]
  | .ESS_ATTACH_DROP => [F.ESS_ATTACH_DROP_COUNT]
  | .ESS_OPEN_COUNT => [F.ESS_OPEN_COUNT_COUNT]
  | .ESS_RING_FREE => [F.ESS_RING_FREE_KIB]
  | .ESS_EVENT => [F.ESS_EVENT_SRTP_FAIL, F.ESS_EVENT_STAGE_OVERRUN, F.ESS_EVENT_CTX_OVERFLOW]
  | .ESS_ARG => [F.ESS_ARG_DATA]
  | .CE_CTRL => [F.CE_CTRL_RESULT, F.CE_CTRL_LIVE_EXCLUSIVE, F.CE_CTRL_ENABLE]
  | .CE_STATUS => [F.CE_STATUS_CUR_SC, F.CE_STATUS_USE, F.CE_STATUS_CUR_LIVE, F.CE_STATUS_ENABLE_PENDING, F.CE_STATUS_DRAINING, F.CE_STATUS_BUSY, F.CE_STATUS_ENABLED]
  | .CE_UCODE => [F.CE_UCODE_ROM_REV, F.CE_UCODE_PATCH_LEVEL]
  | .CE_KEYWAYS => [F.CE_KEYWAYS_ACTIVE]
  | .CE_LIVE_LOAD => [F.CE_LIVE_LOAD_NS]
  | .CE_PREEMPTS => [F.CE_PREEMPTS_COUNT]
  | .CE_RESTARTS => [F.CE_RESTARTS_COUNT]
  | .CE_OVERRUNS => [F.CE_OVERRUNS_COUNT]
  | .CE_MAX_WAIT => [F.CE_MAX_WAIT_CCLK]
  | .CE_BUSY_LO => [F.CE_BUSY_LO_BUSY]
  | .CE_BUSY_HI => [F.CE_BUSY_HI_BUSY]
  | .CE_WIN_CFG => [F.CE_WIN_CFG_WRITER, F.CE_WIN_CFG_SIZE_U, F.CE_WIN_CFG_BASE_U]
  | .CE_WIN_CTRL => [F.CE_WIN_CTRL_RESULT, F.CE_WIN_CTRL_USE, F.CE_WIN_CTRL_FREE, F.CE_WIN_CTRL_ALLOC]
  | .CE_WIN_STATUS => [F.CE_WIN_STATUS_CLAIMED, F.CE_WIN_STATUS_ALLOCATED, F.CE_WIN_STATUS_SEALED, F.CE_WIN_STATUS_BOUND, F.CE_WIN_STATUS_OWNER]
  | .CG_ALLOC => [F.CG_ALLOC_RESULT, F.CG_ALLOC_SC]
  | .CG_OPEN_COUNT => [F.CG_OPEN_COUNT_COUNT]
  | .CG_NO_CONTEXT => [F.CG_NO_CONTEXT_COUNT]
  | .SC_RING_LO => [F.SC_RING_LO_BASE_LO]
  | .SC_RING_HI => [F.SC_RING_HI_BASE_HI]
  | .SC_RING_CFG => [F.SC_RING_CFG_LOG2_ENTRIES]
  | .SC_DOORBELL => [F.SC_DOORBELL_TAIL]
  | .SC_HEAD => [F.SC_HEAD_HEAD]
  | .SC_STATE => [F.SC_STATE_STAT_FULL, F.SC_STATE_BAD_DOORBELL, F.SC_STATE_ENABLE_PENDING, F.SC_STATE_STATE]
  | .SC_STAT_HEAD => [F.SC_STAT_HEAD_HEAD]
  | .SC_STAT_TAIL => [F.SC_STAT_TAIL_TAIL]
  | .MEM_HBM_CE => [F.MEM_HBM_CE_COUNT]
  | .MEM_HBM_UE => [F.MEM_HBM_UE_COUNT]
  | .MEM_UE_ADDR_LO => [F.MEM_UE_ADDR_LO_ADDR]
  | .MEM_UE_ADDR_HI => [F.MEM_UE_ADDR_HI_ADDR]
  | .MEM_SRAM_CE => [F.MEM_SRAM_CE_COUNT]
  | .MEM_SRAM_UE => [F.MEM_SRAM_UE_COUNT]
  | .MEM_STATUS => [F.MEM_STATUS_BAD_RETURN, F.MEM_STATUS_UE_SEEN, F.MEM_STATUS_INIT_DONE]
  | .POOL_LOG2 => [F.POOL_LOG2_LOG2_SIZE]
  | .POOL_COUNT => [F.POOL_COUNT_COUNT]
  | .POOL_BASE_LO => [F.POOL_BASE_LO_BASE]
  | .POOL_BASE_HI => [F.POOL_BASE_HI_BASE]
  | .POOL_FREE => [F.POOL_FREE_COUNT]
  | .POOL_MIN_FREE => [F.POOL_MIN_FREE_COUNT]
  | .POOL_FALLBACK => [F.POOL_FALLBACK_COUNT]
  | .POOL_REQ => [F.POOL_REQ_BYTES]
  | .POOL_RESP => [F.POOL_RESP_RESULT, F.POOL_RESP_POOL, F.POOL_RESP_PENDING]
  | .POOL_PTR_LO => [F.POOL_PTR_LO_PTR]
  | .POOL_PTR_HI => [F.POOL_PTR_HI_PTR]
  | .POOL_RET_LO => [F.POOL_RET_LO_PTR]
  | .POOL_RET_HI => [F.POOL_RET_HI_PTR]
  | .POOL_RET_RESP => [F.POOL_RET_RESP_RESULT]
  | .POOL_BAD_RET => [F.POOL_BAD_RET_COUNT]
  | .DC_CTRL => [F.DC_CTRL_RESULT, F.DC_CTRL_HINGE_TD, F.DC_CTRL_RESUME, F.DC_CTRL_HALT_ON_ERR, F.DC_CTRL_MODE, F.DC_CTRL_ARM, F.DC_CTRL_ENABLE]
  | .DC_STATUS => [F.DC_STATUS_BAD_TAIL, F.DC_STATUS_HALTED, F.DC_STATUS_LOCKED_WR, F.DC_STATUS_ENABLE_PENDING, F.DC_STATUS_DRAINING, F.DC_STATUS_ENABLED, F.DC_STATUS_SHADOW_ARMED, F.DC_STATUS_ACTIVE_BUSY]
  | .DC_HINGE_CNT => [F.DC_HINGE_CNT_COUNT]
  | .DC_SHD_STAMP => [F.DC_SHD_STAMP_LANDED, F.DC_SHD_STAMP_COUNT]
  | .DC_BYTES => [F.DC_BYTES_COUNT]
  | .DC_BYTES_HI => [F.DC_BYTES_HI_COUNT_HI]
  | .DC_SHD => [F.DC_SHD_DATA]
  | .DC_ACT => [F.DC_ACT_DATA]
  | .DC_RING_LO => [F.DC_RING_LO_BASE]
  | .DC_RING_HI => [F.DC_RING_HI_BASE]
  | .DC_RING_CFG => [F.DC_RING_CFG_LOG2_ENTRIES]
  | .DC_RING_TAIL => [F.DC_RING_TAIL_TAIL]
  | .DC_RING_HEAD => [F.DC_RING_HEAD_HEAD]
  | .CQ_BASE_LO => [F.CQ_BASE_LO_BASE]
  | .CQ_BASE_HI => [F.CQ_BASE_HI_BASE]
  | .CQ_CFG => [F.CQ_CFG_ENABLE, F.CQ_CFG_LOG2_ENTRIES]
  | .CQ_HEAD => [F.CQ_HEAD_HEAD]
  | .CQ_TAIL => [F.CQ_TAIL_TAIL]
  | .CQ_LOST => [F.CQ_LOST_COUNT]
  | .CQ_STATUS => [F.CQ_STATUS_FULL]
  | .INT_GRP_CFG => [F.INT_GRP_CFG_ENABLE, F.INT_GRP_CFG_WAKE_ON_PENDING, F.INT_GRP_CFG_FUNCTION, F.INT_GRP_CFG_VECTOR]
  | .INT_GRP_HOLDOFF => [F.INT_GRP_HOLDOFF_HOLDOFF]
  | .INT_GRP_CTRL => [F.INT_GRP_CTRL_RESEND]
  | .INT_GRP_STATUS => [F.INT_GRP_STATUS_FIRST_VALID, F.INT_GRP_STATUS_FIRST, F.INT_GRP_STATUS_LATE_MASK, F.INT_GRP_STATUS_LIVE, F.INT_GRP_STATUS_STATE]
  | .INT_GRP_LEFT => [F.INT_GRP_LEFT_UNITS]
  | .INT_GRP_SENT => [F.INT_GRP_SENT_COUNT]
  | .INT_GRP_PME => [F.INT_GRP_PME_COUNT]
  | .TRC_CTRL => [F.TRC_CTRL_RESULT, F.TRC_CTRL_IDLE_CLOSE_US, F.TRC_CTRL_FLUSH, F.TRC_CTRL_SINK, F.TRC_CTRL_ENABLE]
  | .TRC_STATUS => [F.TRC_STATUS_UNDERRUN, F.TRC_STATUS_GAP_PENDING, F.TRC_STATUS_LEVEL]
  | .TRC_DROPS => [F.TRC_DROPS_COUNT]
  | .TRC_DATA => [F.TRC_DATA_DATA]
  | .TRC_SEQ_CTRL => [F.TRC_SEQ_CTRL_ENABLE, F.TRC_SEQ_CTRL_J]
  | .DUMP_CTRL => [F.DUMP_CTRL_DUMP_NOW]
  | .DUMP_STATUS => [F.DUMP_STATUS_PENDING, F.DUMP_STATUS_RUNNING]
  | .DUMP_SKIPPED => [F.DUMP_SKIPPED_COUNT]
  | .BW_CTRL => [F.BW_CTRL_PEAK_CLEAR, F.BW_CTRL_WINDOW_US]
  | .MGMT_TEMP => [F.MGMT_TEMP_READING]
  | .MGMT_TEMP_PEAK => [F.MGMT_TEMP_PEAK_PEAK]
  | .MGMT_TEMP_LIMITS => [F.MGMT_TEMP_LIMITS_CRIT, F.MGMT_TEMP_LIMITS_WARN]
  | .MGMT_VOLT => [F.MGMT_VOLT_NOMINAL_MV, F.MGMT_VOLT_MV]
  | .MGMT_VOLT_WIN => [F.MGMT_VOLT_WIN_WIN_PCT]
  | .MBX_REQ_LEN => [F.MBX_REQ_LEN_LEN]
  | .MBX_IND_LO => [F.MBX_IND_LO_ADDR]
  | .MBX_IND_HI => [F.MBX_IND_HI_ADDR]
  | .MBX_IND_LEN => [F.MBX_IND_LEN_LEN]
  | .MBX_CTRL => [F.MBX_CTRL_GO]
  | .MBX_STATUS => [F.MBX_STATUS_RESULT, F.MBX_STATUS_RESP_READY, F.MBX_STATUS_BUSY, F.MBX_STATUS_RESP_LEN]
  | .MBX_SEQ => [F.MBX_SEQ_COUNT]

/-- Where the instances of a register lie: base, two strides with their counts, whether it is a BAR4 register, and
whether every function has its own copy at one address (R417). -/
structure Layout where
  base : Nat
  stride1 : Nat := 0
  count1 : Nat := 1
  stride2 : Nat := 0
  count2 : Nat := 1
  bar4 : Bool := false
  perFn : Bool := false
  deriving DecidableEq, Repr

/-- R602, R613: the place of each register. -/
def Reg.layout : Reg → Layout
  | .GLB_ID => { base := 0x0 }
  | .GLB_MODE => { base := 0x4 }
  | .GLB_MODE_REQ => { base := 0x8 }
  | .STBY_STATUS => { base := 0xC }
  | .GLB_WAKE_CFG => { base := 0x10 }
  | .GLB_WAKE_TIME_NS => { base := 0x14 }
  | .GLB_WAKE_TIME_SEC => { base := 0x18 }
  | .GLB_RESET_CAUSE => { base := 0x1C }
  | .GLB_BIST => { base := 0x20 }
  | .IMG_STATUS => { base := 0x40 }
  | .IMG_CLAIM_A => { base := 0x44 }
  | .IMG_CLAIM_B => { base := 0x48 }
  | .IMG_SERIAL => { base := 0x4C }
  | .IMG_SVN => { base := 0x50 }
  | .HASP_STATUS_LO => { base := 0x100000 }
  | .HASP_STATUS_HI => { base := 0x100004 }
  | .HASP_ACK_LO => { base := 0x100008 }
  | .HASP_ACK_HI => { base := 0x10000C }
  | .HASP_CAUSE_LO => { base := 0x100010 }
  | .HASP_CAUSE_HI => { base := 0x100014 }
  | .HASP_CTRL => { base := 0x100018 }
  | .HASP_PINS => { base := 0x10001C }
  | .HASP_FIRST => { base := 0x100020 }
  | .HASP_LATCHES => { base := 0x100024 }
  | .HASP_SRC_CLASS => { base := 0x100100, stride1 := 0x10, count1 := 64 }
  | .HASP_SRC_WINDOW => { base := 0x100104, stride1 := 0x10, count1 := 64 }
  | .HASP_SRC_STATE => { base := 0x100108, stride1 := 0x10, count1 := 64 }
  | .HASP_SRC_WIN => { base := 0x10010C, stride1 := 0x10, count1 := 64 }
  | .TIME_CTRL => { base := 0x200000 }
  | .TIME_INCR => { base := 0x200004 }
  | .TIME_SNAP_NS => { base := 0x200008 }
  | .TIME_SNAP_SEC_LO => { base := 0x20000C }
  | .TIME_SNAP_SEC_HI => { base := 0x200010 }
  | .TIME_STEP_NS => { base := 0x200014 }
  | .TIME_STEP_SEC => { base := 0x200018 }
  | .TIME_STATUS => { base := 0x20001C }
  | .TIME_PPS_NS => { base := 0x200020 }
  | .TIME_PPS_SEC => { base := 0x200024 }
  | .SHK_CTRL => { base := 0x200030 }
  | .SHK_STATUS => { base := 0x200034 }
  | .SYNC_GPIO => { base := 0x200080 }
  | .TICK_CTRL => { base := 0x200100, stride1 := 0x20, count1 := 8 }
  | .TICK_N => { base := 0x200104, stride1 := 0x20, count1 := 8 }
  | .TICK_D => { base := 0x200108, stride1 := 0x20, count1 := 8 }
  | .TICK_IDX_LO => { base := 0x20010C, stride1 := 0x20, count1 := 8 }
  | .TICK_IDX_HI => { base := 0x200110, stride1 := 0x20, count1 := 8 }
  | .TICK_SKIP => { base := 0x200114, stride1 := 0x20, count1 := 8 }
  | .TMR_CTRL => { base := 0x200400, stride1 := 0x20, count1 := 16 }
  | .TMR_PERIOD_NS => { base := 0x200404, stride1 := 0x20, count1 := 16 }
  | .TMR_START_NS => { base := 0x200408, stride1 := 0x20, count1 := 16 }
  | .TMR_START_SEC => { base := 0x20040C, stride1 := 0x20, count1 := 16 }
  | .TMR_CAP_NS => { base := 0x200410, stride1 := 0x20, count1 := 16 }
  | .TMR_CAP_SEC => { base := 0x200414, stride1 := 0x20, count1 := 16 }
  | .TMR_PULSE_NS => { base := 0x200418, stride1 := 0x20, count1 := 16 }
  | .INT_PEND => { base := 0x400000, stride1 := 0x4, count1 := 128 }
  | .INT_MASK => { base := 0x400200, stride1 := 0x4, count1 := 128 }
  | .INT_RAW => { base := 0x400400, stride1 := 0x4, count1 := 128 }
  | .INT_FORCE => { base := 0x400600, stride1 := 0x4, count1 := 128 }
  | .HIF_LINK => { base := 0x440000 }
  | .HIF_L1_COUNT => { base := 0x440004 }
  | .HIF_NUM_VFS => { base := 0x440008 }
  | .HIF_DENIED => { base := 0x44000C }
  | .HIF_REQ_ERR => { base := 0x440010 }
  | .HIF_DC_OWNER => { base := 0x440100, stride1 := 0x4, count1 := 64 }
  | .HIF_CQ_OWNER => { base := 0x440200, stride1 := 0x4, count1 := 16 }
  | .HIF_VF_QUOTA => { base := 0x440400, stride1 := 0x4, count1 := 64 }
  | .HIF_FUNC_PM => { base := 0x440600, stride1 := 0x4, count1 := 65 }
  | .HIF_CPG_PERM => { base := 0x441000, stride1 := 0x4, count1 := 4096 }
  | .WARD_STATE => { base := 0x800000 }
  | .WARD_BOOT => { base := 0x800004 }
  | .WARD_SVN => { base := 0x800008 }
  | .WARD_IMG_FLOOR => { base := 0x80000C }
  | .WARD_CTR_LO => { base := 0x800010 }
  | .WARD_CTR_HI => { base := 0x800014 }
  | .WARD_KEYS => { base := 0x800018 }
  | .WARD_AUTH_FAIL => { base := 0x80001C }
  | .WARD_REPLAY => { base := 0x800020 }
  | .WARD_GRANT_LEFT => { base := 0x800024 }
  | .MAC_CTRL => { base := 0x1000000, stride1 := 0x1000, count1 := 256 }
  | .MAC_STATUS => { base := 0x1000004, stride1 := 0x1000, count1 := 256 }
  | .MAC_PTP => { base := 0x1000010, stride1 := 0x1000, count1 := 256 }
  | .MAC_TXTS_ID => { base := 0x1000018, stride1 := 0x1000, count1 := 256 }
  | .MAC_TXTS_NS => { base := 0x100001C, stride1 := 0x1000, count1 := 256 }
  | .MAC_TXTS_SEC => { base := 0x1000020, stride1 := 0x1000, count1 := 256 }
  | .FL_CTRL => { base := 0x1100000, stride1 := 0x4000, count1 := 3 }
  | .FL_STATUS => { base := 0x1100004, stride1 := 0x4000, count1 := 3 }
  | .FL_REPLAYS => { base := 0x1100008, stride1 := 0x4000, count1 := 3 }
  | .FL_LOST_PKTS => { base := 0x110000C, stride1 := 0x4000, count1 := 3 }
  | .PL_HASH_SEED => { base := 0x1400000 }
  | .PL_LAG_SEED => { base := 0x1400004 }
  | .PL_TAG_CTRL => { base := 0x1400008 }
  | .PL_FLOOD_BASE => { base := 0x140000C }
  | .PL_L2_LEARN_FAIL => { base := 0x1400010 }
  | .PL_L2_DEFER_DROP => { base := 0x1400014 }
  | .PL_PARSE_LIMIT => { base := 0x1400018 }
  | .PL_MC_NO_RECORD => { base := 0x140001C }
  | .PL_TBL_BAD_WR => { base := 0x1400020 }
  | .PL_PUNT_DROP => { base := 0x1400024 }
  | .TBL_CTRL => { base := 0x1401000, stride1 := 0x10, count1 := 64 }
  | .TBL_EPOCH => { base := 0x1401004, stride1 := 0x10, count1 := 64 }
  | .TBL_DRAIN_EPOCH => { base := 0x1401008, stride1 := 0x10, count1 := 64 }
  | .TBL_STATUS => { base := 0x140100C, stride1 := 0x10, count1 := 64 }
  | .TRIE_RING_TAIL => { base := 0x1401800, stride1 := 0x10, count1 := 8 }
  | .TRIE_RING_HEAD => { base := 0x1401804, stride1 := 0x10, count1 := 8 }
  | .TRIE_STATUS => { base := 0x1401808, stride1 := 0x10, count1 := 8 }
  | .PL_PORT_CFG0 => { base := 0x1402000, stride1 := 0x10, count1 := 256 }
  | .PL_PORT_CFG1 => { base := 0x1402004, stride1 := 0x10, count1 := 256 }
  | .PL_PORT_CFG2 => { base := 0x1402008, stride1 := 0x10, count1 := 256 }
  | .PL_PORT_CFG3 => { base := 0x140200C, stride1 := 0x10, count1 := 256 }
  | .PL_VRF_LEN0 => { base := 0x1404000, stride1 := 0x10, count1 := 1024 }
  | .PL_VRF_LEN1 => { base := 0x1404004, stride1 := 0x10, count1 := 1024 }
  | .PL_VRF_LEN2 => { base := 0x1404008, stride1 := 0x10, count1 := 1024 }
  | .PL_VRF_LEN3 => { base := 0x140400C, stride1 := 0x10, count1 := 1024 }
  | .TM_CTRL => { base := 0x1800000 }
  | .TM_SHARED_USED => { base := 0x1800004 }
  | .TM_SHARED_PEAK => { base := 0x1800008 }
  | .TM_NO_LEAF => { base := 0x180000C }
  | .TM_LEAF_MISMATCH => { base := 0x1800010 }
  | .TM_CTRL_DROP => { base := 0x1800014 }
  | .TM_SHARED_DROP => { base := 0x1800018 }
  | .TM_STALLED_LEAVES => { base := 0x180001C }
  | .TM_STALL_FIRST => { base := 0x1800020 }
  | .TM_PORT_CTRL => { base := 0x1801000, stride1 := 0x40, count1 := 256 }
  | .TM_PORT_SHAPE => { base := 0x1801004, stride1 := 0x40, count1 := 256 }
  | .TM_PORT_BURST => { base := 0x1801008, stride1 := 0x40, count1 := 256 }
  | .TM_PORT_PAUSED => { base := 0x180100C, stride1 := 0x40, count1 := 256 }
  | .TM_CT_FRAMES => { base := 0x1801010, stride1 := 0x40, count1 := 256 }
  | .TM_CT_FALLBACK => { base := 0x1801014, stride1 := 0x40, count1 := 256 }
  | .TM_CT_STOMP_RX => { base := 0x1801018, stride1 := 0x40, count1 := 256 }
  | .TM_CT_STOMP_TX => { base := 0x180101C, stride1 := 0x40, count1 := 256 }
  | .TM_MC_LEAF => { base := 0x1801020, stride1 := 0x40, count1 := 256, stride2 := 0x4, count2 := 8 }
  | .TM_CLS_SHAPE => { base := 0x1808000, stride1 := 0x10, count1 := 2048 }
  | .TM_CLS_BURST => { base := 0x1808004, stride1 := 0x10, count1 := 2048 }
  | .TM_LEAF_SHAPE => { base := 0x1810000, stride1 := 0x20, count1 := 32768 }
  | .TM_LEAF_BURST => { base := 0x1810004, stride1 := 0x20, count1 := 32768 }
  | .TM_LEAF_DEPTH => { base := 0x1810008, stride1 := 0x20, count1 := 32768 }
  | .TM_LEAF_DROP => { base := 0x181000C, stride1 := 0x20, count1 := 32768 }
  | .TM_LEAF_ECN => { base := 0x1810010, stride1 := 0x20, count1 := 32768 }
  | .TM_LEAF_STALL => { base := 0x1810014, stride1 := 0x20, count1 := 32768 }
  | .TM_LEAF_FLUSHED => { base := 0x1810018, stride1 := 0x20, count1 := 32768 }
  | .TM_LEAF_STATUS => { base := 0x181001C, stride1 := 0x20, count1 := 32768 }
  | .TM_POL_RATE => { base := 0x1910000, stride1 := 0x10, count1 := 4096 }
  | .TM_POL_BURST => { base := 0x1910004, stride1 := 0x10, count1 := 4096 }
  | .TM_POL_DROP => { base := 0x1910008, stride1 := 0x10, count1 := 4096 }
  | .TM_GCL_CTRL => { base := 0x1920000, stride1 := 0x40, count1 := 256 }
  | .TM_GCL_LEN => { base := 0x1920004, stride1 := 0x40, count1 := 256 }
  | .TM_GCL_CYCLE_NS => { base := 0x1920008, stride1 := 0x40, count1 := 256 }
  | .TM_GCL_BASE_NS => { base := 0x192000C, stride1 := 0x40, count1 := 256 }
  | .TM_GCL_BASE_SEC => { base := 0x1920010, stride1 := 0x40, count1 := 256 }
  | .TM_GCL_BASE_SEC_HI => { base := 0x1920014, stride1 := 0x40, count1 := 256 }
  | .TM_GCL_CHANGE_NS => { base := 0x1920018, stride1 := 0x40, count1 := 256 }
  | .TM_GCL_CHANGE_SEC => { base := 0x192001C, stride1 := 0x40, count1 := 256 }
  | .TM_GCL_STATUS => { base := 0x1920020, stride1 := 0x40, count1 := 256 }
  | .TM_GCL_TRUNC => { base := 0x1920024, stride1 := 0x40, count1 := 256 }
  | .ESS_CMD => { base := 0x1C00000 }
  | .ESS_CMD_CTX => { base := 0x1C00004 }
  | .ESS_CTX_OVERFLOW => { base := 0x1C00008 }
  | .ESS_OPEN_REFUSED => { base := 0x1C0000C }
  | .ESS_ATTACH_DROP => { base := 0x1C00010 }
  | .ESS_OPEN_COUNT => { base := 0x1C00014 }
  | .ESS_RING_FREE => { base := 0x1C00018 }
  | .ESS_EVENT => { base := 0x1C0001C }
  | .ESS_ARG => { base := 0x1C00100, stride1 := 0x4, count1 := 64 }
  | .CE_CTRL => { base := 0x2000000, stride1 := 0x4000, count1 := 48 }
  | .CE_STATUS => { base := 0x2000004, stride1 := 0x4000, count1 := 48 }
  | .CE_UCODE => { base := 0x2000008, stride1 := 0x4000, count1 := 48 }
  | .CE_KEYWAYS => { base := 0x200000C, stride1 := 0x4000, count1 := 48 }
  | .CE_LIVE_LOAD => { base := 0x2000010, stride1 := 0x4000, count1 := 48 }
  | .CE_PREEMPTS => { base := 0x2000020, stride1 := 0x4000, count1 := 48 }
  | .CE_RESTARTS => { base := 0x2000024, stride1 := 0x4000, count1 := 48 }
  | .CE_OVERRUNS => { base := 0x2000028, stride1 := 0x4000, count1 := 48 }
  | .CE_MAX_WAIT => { base := 0x200002C, stride1 := 0x4000, count1 := 48 }
  | .CE_BUSY_LO => { base := 0x2000030, stride1 := 0x4000, count1 := 48 }
  | .CE_BUSY_HI => { base := 0x2000034, stride1 := 0x4000, count1 := 48 }
  | .CE_WIN_CFG => { base := 0x2000100, stride1 := 0x4000, count1 := 48, stride2 := 0x10, count2 := 8 }
  | .CE_WIN_CTRL => { base := 0x2000104, stride1 := 0x4000, count1 := 48, stride2 := 0x10, count2 := 8 }
  | .CE_WIN_STATUS => { base := 0x2000108, stride1 := 0x4000, count1 := 48, stride2 := 0x10, count2 := 8 }
  | .CG_ALLOC => { base := 0x2700000 }
  | .CG_OPEN_COUNT => { base := 0x2700004 }
  | .CG_NO_CONTEXT => { base := 0x2700008 }
  | .SC_RING_LO => { base := 0x2710000, stride1 := 0x20, count1 := 1024 }
  | .SC_RING_HI => { base := 0x2710004, stride1 := 0x20, count1 := 1024 }
  | .SC_RING_CFG => { base := 0x2710008, stride1 := 0x20, count1 := 1024 }
  | .SC_DOORBELL => { base := 0x271000C, stride1 := 0x20, count1 := 1024 }
  | .SC_HEAD => { base := 0x2710010, stride1 := 0x20, count1 := 1024 }
  | .SC_STATE => { base := 0x2710014, stride1 := 0x20, count1 := 1024 }
  | .SC_STAT_HEAD => { base := 0x2710018, stride1 := 0x20, count1 := 1024 }
  | .SC_STAT_TAIL => { base := 0x271001C, stride1 := 0x20, count1 := 1024 }
  | .MEM_HBM_CE => { base := 0x2800000 }
  | .MEM_HBM_UE => { base := 0x2800004 }
  | .MEM_UE_ADDR_LO => { base := 0x2800008 }
  | .MEM_UE_ADDR_HI => { base := 0x280000C }
  | .MEM_SRAM_CE => { base := 0x2800010 }
  | .MEM_SRAM_UE => { base := 0x2800014 }
  | .MEM_STATUS => { base := 0x2800018 }
  | .POOL_LOG2 => { base := 0x2800100, stride1 := 0x20, count1 := 8 }
  | .POOL_COUNT => { base := 0x2800104, stride1 := 0x20, count1 := 8 }
  | .POOL_BASE_LO => { base := 0x2800108, stride1 := 0x20, count1 := 8 }
  | .POOL_BASE_HI => { base := 0x280010C, stride1 := 0x20, count1 := 8 }
  | .POOL_FREE => { base := 0x2800110, stride1 := 0x20, count1 := 8 }
  | .POOL_MIN_FREE => { base := 0x2800114, stride1 := 0x20, count1 := 8 }
  | .POOL_FALLBACK => { base := 0x2800118, stride1 := 0x20, count1 := 8 }
  | .POOL_REQ => { base := 0x2800200, perFn := true }
  | .POOL_RESP => { base := 0x2800204, perFn := true }
  | .POOL_PTR_LO => { base := 0x2800208, perFn := true }
  | .POOL_PTR_HI => { base := 0x280020C, perFn := true }
  | .POOL_RET_LO => { base := 0x2800210, perFn := true }
  | .POOL_RET_HI => { base := 0x2800214, perFn := true }
  | .POOL_RET_RESP => { base := 0x2800218, perFn := true }
  | .POOL_BAD_RET => { base := 0x280021C, perFn := true }
  | .DC_CTRL => { base := 0x3000000, stride1 := 0x100, count1 := 64 }
  | .DC_STATUS => { base := 0x3000004, stride1 := 0x100, count1 := 64 }
  | .DC_HINGE_CNT => { base := 0x3000008, stride1 := 0x100, count1 := 64 }
  | .DC_SHD_STAMP => { base := 0x300000C, stride1 := 0x100, count1 := 64 }
  | .DC_BYTES => { base := 0x3000010, stride1 := 0x100, count1 := 64 }
  | .DC_BYTES_HI => { base := 0x3000014, stride1 := 0x100, count1 := 64 }
  | .DC_SHD => { base := 0x3000020, stride1 := 0x100, count1 := 64, stride2 := 0x4, count2 := 16 }
  | .DC_ACT => { base := 0x3000060, stride1 := 0x100, count1 := 64, stride2 := 0x4, count2 := 16 }
  | .DC_RING_LO => { base := 0x30000A0, stride1 := 0x100, count1 := 64 }
  | .DC_RING_HI => { base := 0x30000A4, stride1 := 0x100, count1 := 64 }
  | .DC_RING_CFG => { base := 0x30000A8, stride1 := 0x100, count1 := 64 }
  | .DC_RING_TAIL => { base := 0x30000AC, stride1 := 0x100, count1 := 64 }
  | .DC_RING_HEAD => { base := 0x30000B0, stride1 := 0x100, count1 := 64 }
  | .CQ_BASE_LO => { base := 0x3008000, stride1 := 0x40, count1 := 16 }
  | .CQ_BASE_HI => { base := 0x3008004, stride1 := 0x40, count1 := 16 }
  | .CQ_CFG => { base := 0x3008008, stride1 := 0x40, count1 := 16 }
  | .CQ_HEAD => { base := 0x300800C, stride1 := 0x40, count1 := 16 }
  | .CQ_TAIL => { base := 0x3008010, stride1 := 0x40, count1 := 16 }
  | .CQ_LOST => { base := 0x3008014, stride1 := 0x40, count1 := 16 }
  | .CQ_STATUS => { base := 0x3008018, stride1 := 0x40, count1 := 16 }
  | .INT_GRP_CFG => { base := 0x3100000, stride1 := 0x40, count1 := 64 }
  | .INT_GRP_HOLDOFF => { base := 0x3100004, stride1 := 0x40, count1 := 64 }
  | .INT_GRP_CTRL => { base := 0x3100008, stride1 := 0x40, count1 := 64 }
  | .INT_GRP_STATUS => { base := 0x310000C, stride1 := 0x40, count1 := 64 }
  | .INT_GRP_LEFT => { base := 0x3100010, stride1 := 0x40, count1 := 64 }
  | .INT_GRP_SENT => { base := 0x3100014, stride1 := 0x40, count1 := 64 }
  | .INT_GRP_PME => { base := 0x3100018, stride1 := 0x40, count1 := 64 }
  | .TRC_CTRL => { base := 0x3800000 }
  | .TRC_STATUS => { base := 0x3800004 }
  | .TRC_DROPS => { base := 0x3800008 }
  | .TRC_DATA => { base := 0x3800010, stride1 := 0x4, count1 := 8 }
  | .TRC_SEQ_CTRL => { base := 0x3800030 }
  | .DUMP_CTRL => { base := 0x3800040 }
  | .DUMP_STATUS => { base := 0x3800044 }
  | .DUMP_SKIPPED => { base := 0x3800048 }
  | .BW_CTRL => { base := 0x3800050 }
  | .MGMT_TEMP => { base := 0x3800100, stride1 := 0x4, count1 := 16 }
  | .MGMT_TEMP_PEAK => { base := 0x3800140, stride1 := 0x4, count1 := 16 }
  | .MGMT_TEMP_LIMITS => { base := 0x3800180 }
  | .MGMT_VOLT => { base := 0x3800200, stride1 := 0x4, count1 := 24 }
  | .MGMT_VOLT_WIN => { base := 0x3800280 }
  | .MBX_REQ_LEN => { base := 0x8000, bar4 := true }
  | .MBX_IND_LO => { base := 0x8004, bar4 := true }
  | .MBX_IND_HI => { base := 0x8008, bar4 := true }
  | .MBX_IND_LEN => { base := 0x800C, bar4 := true }
  | .MBX_CTRL => { base := 0x8010, bar4 := true }
  | .MBX_STATUS => { base := 0x8014, bar4 := true }
  | .MBX_SEQ => { base := 0x8018, bar4 := true }

/-- Registers, part 0. -/
def regsPart0 : List Reg :=
  [.GLB_ID, .GLB_MODE, .GLB_MODE_REQ, .STBY_STATUS, .GLB_WAKE_CFG, .GLB_WAKE_TIME_NS, .GLB_WAKE_TIME_SEC, .GLB_RESET_CAUSE, .GLB_BIST, .IMG_STATUS, .IMG_CLAIM_A, .IMG_CLAIM_B, .IMG_SERIAL, .IMG_SVN, .HASP_STATUS_LO, .HASP_STATUS_HI, .HASP_ACK_LO, .HASP_ACK_HI, .HASP_CAUSE_LO, .HASP_CAUSE_HI, .HASP_CTRL, .HASP_PINS, .HASP_FIRST, .HASP_LATCHES, .HASP_SRC_CLASS, .HASP_SRC_WINDOW, .HASP_SRC_STATE, .HASP_SRC_WIN, .TIME_CTRL, .TIME_INCR, .TIME_SNAP_NS, .TIME_SNAP_SEC_LO, .TIME_SNAP_SEC_HI, .TIME_STEP_NS, .TIME_STEP_SEC, .TIME_STATUS, .TIME_PPS_NS, .TIME_PPS_SEC, .SHK_CTRL, .SHK_STATUS]
/-- Registers, part 1. -/
def regsPart1 : List Reg :=
  [.SYNC_GPIO, .TICK_CTRL, .TICK_N, .TICK_D, .TICK_IDX_LO, .TICK_IDX_HI, .TICK_SKIP, .TMR_CTRL, .TMR_PERIOD_NS, .TMR_START_NS, .TMR_START_SEC, .TMR_CAP_NS, .TMR_CAP_SEC, .TMR_PULSE_NS, .INT_PEND, .INT_MASK, .INT_RAW, .INT_FORCE, .HIF_LINK, .HIF_L1_COUNT, .HIF_NUM_VFS, .HIF_DENIED, .HIF_REQ_ERR, .HIF_DC_OWNER, .HIF_CQ_OWNER, .HIF_VF_QUOTA, .HIF_FUNC_PM, .HIF_CPG_PERM, .WARD_STATE, .WARD_BOOT, .WARD_SVN, .WARD_IMG_FLOOR, .WARD_CTR_LO, .WARD_CTR_HI, .WARD_KEYS, .WARD_AUTH_FAIL, .WARD_REPLAY, .WARD_GRANT_LEFT, .MAC_CTRL, .MAC_STATUS]
/-- Registers, part 2. -/
def regsPart2 : List Reg :=
  [.MAC_PTP, .MAC_TXTS_ID, .MAC_TXTS_NS, .MAC_TXTS_SEC, .FL_CTRL, .FL_STATUS, .FL_REPLAYS, .FL_LOST_PKTS, .PL_HASH_SEED, .PL_LAG_SEED, .PL_TAG_CTRL, .PL_FLOOD_BASE, .PL_L2_LEARN_FAIL, .PL_L2_DEFER_DROP, .PL_PARSE_LIMIT, .PL_MC_NO_RECORD, .PL_TBL_BAD_WR, .PL_PUNT_DROP, .TBL_CTRL, .TBL_EPOCH, .TBL_DRAIN_EPOCH, .TBL_STATUS, .TRIE_RING_TAIL, .TRIE_RING_HEAD, .TRIE_STATUS, .PL_PORT_CFG0, .PL_PORT_CFG1, .PL_PORT_CFG2, .PL_PORT_CFG3, .PL_VRF_LEN0, .PL_VRF_LEN1, .PL_VRF_LEN2, .PL_VRF_LEN3, .TM_CTRL, .TM_SHARED_USED, .TM_SHARED_PEAK, .TM_NO_LEAF, .TM_LEAF_MISMATCH, .TM_CTRL_DROP, .TM_SHARED_DROP]
/-- Registers, part 3. -/
def regsPart3 : List Reg :=
  [.TM_STALLED_LEAVES, .TM_STALL_FIRST, .TM_PORT_CTRL, .TM_PORT_SHAPE, .TM_PORT_BURST, .TM_PORT_PAUSED, .TM_CT_FRAMES, .TM_CT_FALLBACK, .TM_CT_STOMP_RX, .TM_CT_STOMP_TX, .TM_MC_LEAF, .TM_CLS_SHAPE, .TM_CLS_BURST, .TM_LEAF_SHAPE, .TM_LEAF_BURST, .TM_LEAF_DEPTH, .TM_LEAF_DROP, .TM_LEAF_ECN, .TM_LEAF_STALL, .TM_LEAF_FLUSHED, .TM_LEAF_STATUS, .TM_POL_RATE, .TM_POL_BURST, .TM_POL_DROP, .TM_GCL_CTRL, .TM_GCL_LEN, .TM_GCL_CYCLE_NS, .TM_GCL_BASE_NS, .TM_GCL_BASE_SEC, .TM_GCL_BASE_SEC_HI, .TM_GCL_CHANGE_NS, .TM_GCL_CHANGE_SEC, .TM_GCL_STATUS, .TM_GCL_TRUNC, .ESS_CMD, .ESS_CMD_CTX, .ESS_CTX_OVERFLOW, .ESS_OPEN_REFUSED, .ESS_ATTACH_DROP, .ESS_OPEN_COUNT]
/-- Registers, part 4. -/
def regsPart4 : List Reg :=
  [.ESS_RING_FREE, .ESS_EVENT, .ESS_ARG, .CE_CTRL, .CE_STATUS, .CE_UCODE, .CE_KEYWAYS, .CE_LIVE_LOAD, .CE_PREEMPTS, .CE_RESTARTS, .CE_OVERRUNS, .CE_MAX_WAIT, .CE_BUSY_LO, .CE_BUSY_HI, .CE_WIN_CFG, .CE_WIN_CTRL, .CE_WIN_STATUS, .CG_ALLOC, .CG_OPEN_COUNT, .CG_NO_CONTEXT, .SC_RING_LO, .SC_RING_HI, .SC_RING_CFG, .SC_DOORBELL, .SC_HEAD, .SC_STATE, .SC_STAT_HEAD, .SC_STAT_TAIL, .MEM_HBM_CE, .MEM_HBM_UE, .MEM_UE_ADDR_LO, .MEM_UE_ADDR_HI, .MEM_SRAM_CE, .MEM_SRAM_UE, .MEM_STATUS, .POOL_LOG2, .POOL_COUNT, .POOL_BASE_LO, .POOL_BASE_HI, .POOL_FREE]
/-- Registers, part 5. -/
def regsPart5 : List Reg :=
  [.POOL_MIN_FREE, .POOL_FALLBACK, .POOL_REQ, .POOL_RESP, .POOL_PTR_LO, .POOL_PTR_HI, .POOL_RET_LO, .POOL_RET_HI, .POOL_RET_RESP, .POOL_BAD_RET, .DC_CTRL, .DC_STATUS, .DC_HINGE_CNT, .DC_SHD_STAMP, .DC_BYTES, .DC_BYTES_HI, .DC_SHD, .DC_ACT, .DC_RING_LO, .DC_RING_HI, .DC_RING_CFG, .DC_RING_TAIL, .DC_RING_HEAD, .CQ_BASE_LO, .CQ_BASE_HI, .CQ_CFG, .CQ_HEAD, .CQ_TAIL, .CQ_LOST, .CQ_STATUS, .INT_GRP_CFG, .INT_GRP_HOLDOFF, .INT_GRP_CTRL, .INT_GRP_STATUS, .INT_GRP_LEFT, .INT_GRP_SENT, .INT_GRP_PME, .TRC_CTRL, .TRC_STATUS, .TRC_DROPS]
/-- Registers, part 6. -/
def regsPart6 : List Reg :=
  [.TRC_DATA, .TRC_SEQ_CTRL, .DUMP_CTRL, .DUMP_STATUS, .DUMP_SKIPPED, .BW_CTRL, .MGMT_TEMP, .MGMT_TEMP_PEAK, .MGMT_TEMP_LIMITS, .MGMT_VOLT, .MGMT_VOLT_WIN, .MBX_REQ_LEN, .MBX_IND_LO, .MBX_IND_HI, .MBX_IND_LEN, .MBX_CTRL, .MBX_STATUS, .MBX_SEQ]

/-- All registers. -/
def allRegs : List Reg := regsPart0 ++ regsPart1 ++ regsPart2 ++ regsPart3 ++ regsPart4 ++ regsPart5 ++ regsPart6

/-- Number of instances of a register. -/
def Reg.instances (r : Reg) : Nat := r.layout.count1 * r.layout.count2

/-- The instance of a register that lies at a byte address of its BAR, if one does (R11, R602). -/
def Reg.instAt (r : Reg) (addr : Nat) : Option Nat :=
  let l := r.layout
  if addr < l.base then none
  else
    let o := addr - l.base
    let i1 := if l.stride1 = 0 then 0 else min (o / l.stride1) (l.count1 - 1)
    let o2 := o - i1 * l.stride1
    let i2 := if l.stride2 = 0 then 0 else min (o2 / l.stride2) (l.count2 - 1)
    if o2 - i2 * l.stride2 = 0 then some (i1 * l.count2 + i2) else none

/-- The register at an address among a list of registers. -/
def regAmong (bar4 : Bool) (addr : Nat) : List Reg → Option (Reg × Nat)
  | [] => none
  | r :: rs =>
    if r.layout.bar4 = bar4 then
      match r.instAt addr with
      | some i => some (r, i)
      | none => regAmong bar4 addr rs
    else regAmong bar4 addr rs

/-- R603: the register and instance at a BAR0 address; none where the address holds no register. -/
def regAt (addr : Nat) : Option (Reg × Nat) := regAmong false addr allRegs

/-- R450: the register at a BAR4 address. -/
def regAt4 (addr : Nat) : Option (Reg × Nat) := regAmong true addr allRegs

/-- The register index that a key of the register file belongs to. -/
def keyReg (k : Nat) : Nat := (k % 16384) / 32

/-- The instance that a key of the register file belongs to. -/
def keyInst (k : Nat) : Nat := k / 16384

end Sys2Proof.Machine
end

