-- ==== Sys2Proof/Machine/State.lean ====
section
/-! DEFINITION. The state of the block as plain data, the reasons a command can stop, and the state after reset.
Register fields live in one register file (`regs`); everything else the manual names has a field of its own here. -/
namespace Sys2Proof.Machine

/-- Reasons a command stops. No meaning of this model raises one: every command of the table has an effect. -/
inductive Fault where
  /-- Raised by nothing: memory accesses of the block are checked by its own rules (R420) before they are made. Safe. -/
  | noSuchAddress (addr : Nat)
  deriving DecidableEq, Repr

/-- Reasons a command is refused by the model. -/
inductive Refusal where
  /-- Raised only by an arm of `exec` whose row has no meaning yet. Safe: the machine stops. -/
  | notModelled (mnemonic : String)
  deriving DecidableEq, Repr

/-- R570: the operating modes. -/
inductive Mode where
  | off | boot | configure | operate | standby | lockdown
  deriving DecidableEq, Repr

/-- What the block sends to the outside: an observation record of the model, newest first in `State.out`. Log 12
(DESIGN CHOICE). -/
inductive Out where
  /-- A read by a function returned this word (BAR0, BAR2 or BAR4). -/
  | readData (fn : Nat) (value : Nat)
  /-- The latency tolerance that the device reports from here on, in µs; none is no requirement (R448). -/
  | ltr (us : Option Nat)
  /-- Bytes written to host memory on behalf of a function (DMA data, records, R272, R421). -/
  | hostWrite (fn : Nat) (addr : Nat) (data : Bytes)
  /-- An MSI-X message (R459): function and table entry. -/
  | msix (fn entry : Nat)
  /-- A PM_PME message (R449). -/
  | pme (fn : Nat)
  /-- A frame leaves an egress MAC (R13), with its FCS. -/
  | frame (port : Nat) (bytes : Bytes)
  /-- A flit leaves a Faush link (R117). -/
  | flit (link : Nat) (bytes : Bytes)
  /-- An Adyel answer frame over UDP (R481). -/
  | adyelUdp (dst : Nat) (frame : Bytes)
  /-- An SPDM response (R499). -/
  | spdm (doe : Bool) (msg : Bytes)
  /-- Console output (R547). -/
  | console (text : Bytes)
  /-- A wide word leaves the observation port (R566), as its eight narrow words. -/
  | obs (wide : List Nat)
  /-- An edge on a SYNC_IO ball or SHK_TICK (R108, R129): ball 0 to 7, or 8 for SHK_TICK. -/
  | edge (line : Nat) (high : Bool)
  /-- A frame is handed to Tchien (R172), with the receive timestamp of an event message in ns (R97). -/
  | punt (port : Nat) (bytes : Bytes) (stamp : Option Nat)
  /-- A link in training sends the ordered set /FS/ (R116). -/
  | training (link : Nat)
  /-- The boundary clock emits the SMPTE synchronisation metadata (R100). -/
  | smpte (tlv : Bytes)
  /-- Bytes written to an SPI NOR flash (R537). -/
  | flash (which : Nat) (offset : Nat) (data : Bytes)
  /-- TDO bytes of the TAP (R582). -/
  | tdo (data : Bytes)
  /-- A tick seen by every block that takes ticks (R21). -/
  | tickSeen (td idx : Nat)
  deriving DecidableEq, Repr

/-- The time unit, its tick generator, timers and the follower of SHK_TICK (chapter 03). -/
structure TimeUnit where
  /-- Core cycles since power-on; the model's own count of time, 1 cclk = 0.625 ns (R5); reset 0. -/
  cclk : Nat
  /-- PTP time in units of 2^-28 ns (R94): 48 bits of seconds, 30 of ns, 28 of fraction; reset 0. -/
  ptp : Nat
  /-- Index of the next tick each domain emits (R20, R96); reset 0. -/
  tickNext : Tab Nat
  /-- A tick of the domain has been seen since power-on, so that its last index is known (R106); reset none. -/
  tickSeen : Tab Bool
  /-- First firing S of each started timer in ns (R114); reset none. -/
  tmrStart : Tab Nat
  /-- Period P of each started timer, as taken at START (R114); reset none. -/
  tmrPeriod : Tab Nat
  /-- Number m of the next firing of each started timer (R114); reset none. -/
  tmrNext : Tab Nat
  /-- End in ns, plus 1, of the pulse on each output line that is high: balls 0 to 7 (before INVERT), 8 for SHK_TICK
  (R108, R129); reset none. -/
  pulse : Tab Nat
  /-- A 10 MHz signal is present and clean on FREQ_IN (R95); reset false. -/
  freqClean : Bool
  /-- cclk from which the 10 ms of clean FREQ_IN are counted (R95); reset 0. -/
  freqFrom : Nat
  /-- Follower: consecutive SHK_TICK edges seen towards a relock (R133); reset 0. -/
  shkEdges : Nat
  /-- Follower: cclk of the last SHK_TICK edge (R133); reset none. -/
  edgeAt : Option Nat
  /-- Follower: seconds and TD0 index of the next SHK_TICK edge from TIME_SYNC (R132); reset none. -/
  nextSync : Option (Nat × Nat)
  /-- Each ball's level as driven from outside when the device does not drive it (R109); reset 0. -/
  ballIn : Tab Bool
  deriving DecidableEq, Repr

/-- A secure association of the MACsec engine (R90, R93). -/
structure Sa where
  key : Bytes
  salt : Bytes
  nextPn : Nat
  rekeyRaised : Bool
  deriving DecidableEq, Repr

/-- A secure channel: its SCI, replay window and associations by AN (R90, R91). -/
structure SecChan where
  port : Nat
  rx : Bool
  sci : Bytes
  window : Nat
  current : Nat
  sas : Tab Sa
  deriving DecidableEq, Repr

/-- A copy of a frame in a leaf queue, in a Faush link queue or on the wire (R170, R181, R195). -/
structure Copy where
  /-- Number of the frame in `Pipe.flights`. -/
  frame : Nat
  /-- The bytes from the destination address, without the FCS. -/
  bytes : Bytes
  leaf : Nat
  egr : Nat
  cls : Nat
  cells : Nat
  mcast : Bool
  /-- The frame was found bad at its end (R202, R120). -/
  bad : Bool
  cutThrough : Bool
  ingMac : Nat
  tIn : Nat
  tEnq : Nat
  tDeq : Nat
  depth : Nat
  tagged : Bool
  /-- SecTAG and ICV that the frame gets at its egress port (R83); reset 0. -/
  ovh : Nat
  /-- cclk in which it joined its leaf's queue (R218). -/
  enqAt : Nat
  /-- Its class is not that of its leaf: an egress flow gives it (R250). -/
  clsSet : Bool
  /-- For a Faush copy: the 16-byte header of R119. -/
  flHdr : Bytes
  deriving DecidableEq, Repr

/-- A frame in the device's keeping (R181): its epochs, the copies that have not gone, and the buffer it holds itself. -/
structure Flight where
  /-- (bank, epoch) pairs (R179). -/
  epochs : List (Nat × Nat)
  copies : Nat
  /-- Data cells of a multicast frame in SHARED_CELLS (R195). -/
  dataCells : Nat
  /-- It holds a replication record in MCAST_CELLS (R169). -/
  record : Bool
  ingMac : Nat
  fromPort : Bool
  /-- It was received at a port of this device or, over a Faush link, of another (R99). -/
  relayed : Bool
  /-- A copy has left a port (R550). -/
  leftPort : Bool
  deriving DecidableEq, Repr

/-- A copy on its way to the essence engine (R229, R246). -/
structure EssCopy where
  frame : Nat
  ctx : Nat
  bytes : Bytes
  /-- By an EM ESSENCE action, which is returned as a miss when there is no context (R230). -/
  byEm : Bool
  bad : Bool
  srcDev : Nat
  ingMac : Nat
  tagged : Bool
  tIn : Nat
  viaFaush : Bool
  /-- What S3 gave the frame: egress MAC, leaf and device of its DMAC hit; none floods it (R153). -/
  l2 : Option (Nat × Nat × Nat)
  /-- VLAN of its L2 key, 0 when unfilled (R147). -/
  vlan : Nat
  deriving DecidableEq, Repr

/-- A learning request that waits (R149, R151). -/
structure LearnReq where
  region : Nat
  vlan : Nat
  mac : Bytes
  egrMac : Nat
  leaf : Nat
  /-- The entry to rewrite on a station move. -/
  move : Option Nat
  /-- The frame that asked, to flood when both buckets are full (R150): already flooded frames need none. -/
  frame : Bytes
  ingMac : Nat
  /-- Whether its MAC found that frame bad, whether it is tagged, and its ingress timestamp (R150, R202). -/
  bad : Bool
  tagged : Bool
  tIn : Nat
  deriving DecidableEq, Repr

/-- Ports: timestamp queues, MACsec and the wire (chapter 03). -/
structure Ports where
  /-- Two-step timestamp entries of each port, oldest first: (ID, ns, seconds) (R102); reset empty. -/
  txts : Tab (List (Nat × Nat × Nat))
  /-- An entry was lost because the port's queue was full (R102); reset false. -/
  txtsOverflow : Tab Bool
  /-- Secure channels, from the pool of 512 (R90); reset none. -/
  secChans : Tab SecChan
  /-- Key handle bound to a port as its CAK, with KS_PRIORITY (R495); reset none. -/
  cak : Tab (Nat × Nat)
  /-- SAKs, key and salt (R495), by port * 8: + 0 the one last received, + 1 + AN the one drawn for an AN; reset none. -/
  sak : Tab Bytes
  /-- The frame on the wire of each port (R204); reset none. -/
  wire : Tab Copy
  /-- The frame that was in progress when the port's drain began may still arrive (R86); reset false. -/
  rxTail : Tab Bool
  /-- Each port's auto-negotiation is running (R82); reset false. -/
  anRunning : Tab Bool
  /-- The SMPTE synchronisation metadata that the boundary clock emits (R100, R482); reset empty. -/
  smpteTlv : Bytes
  deriving DecidableEq, Repr

/-- A Faush link's transmit and receive state (R115 to R128). -/
structure FlLink where
  /-- SEQ of the next DATA or CONTROL flit (R117); reset 0. -/
  txSeq : Nat
  /-- SEQ expected next (R118); reset 0. -/
  rxSeq : Nat
  /-- Flits not yet acknowledged, oldest first, as (SEQ, bytes) (R118); reset empty. -/
  replay : List (Nat × Bytes)
  /-- Flits of the replay buffer still to send again (R118); reset empty. -/
  resend : List (Nat × Bytes)
  /-- Times that the oldest unacknowledged flit was replayed (R124); reset 0. -/
  replays : Nat
  /-- A NAK is to be sent (R118); reset false. -/
  nak : Bool
  /-- Flits are discarded until the expected SEQ arrives (R118); reset false. -/
  discarding : Bool
  /-- An acknowledgement is known to send (R117); reset false. -/
  ackValid : Bool
  /-- Credits available per VC, in 64 B units (R121); reset 0, 1,024 at link-up. -/
  credit : Tab Nat
  /-- Credits owed to the peer per VC (R121); reset 0. -/
  owed : Tab Nat
  /-- VC at which the next credit return starts (R121); reset 0. -/
  owedTurn : Nat
  /-- Queues per VC, oldest first (R211); reset empty. -/
  queues : Tab (List Copy)
  /-- VC whose queue is served next (R211); reset 0. -/
  turn : Nat
  /-- Bytes of started packets still to go out (R119); reset empty. -/
  txBytes : Bytes
  /-- Frames whose packets lie in `txBytes`, with the bytes left of each (R181); reset empty. -/
  txFrames : List (Nat × Nat)
  /-- Control messages to send (R123); reset empty. -/
  control : List Bytes
  /-- Bytes of a received packet that is not complete (R119); reset empty. -/
  rxBytes : Bytes
  /-- Consecutive CRC failures (R116); reset 0. -/
  crcFails : Nat
  /-- cclk of flit lock (R126); reset 0. -/
  lockAt : Nat
  /-- cclk of the last flit that passed its CRC (R124); reset 0. -/
  goodAt : Nat
  /-- cclk at which the drain began (R128); reset 0. -/
  drainAt : Nat
  /-- Packets received on the link, which its two slices take in turn (R12); reset 0. -/
  rxPkts : Nat
  /-- The peer's last HELLO matched (R122); reset false. -/
  helloOk : Bool
  /-- The peer named itself tick master (R123); reset false. -/
  peerMaster : Bool
  /-- The direct link was lost and carries traffic only after R126; reset false. -/
  restoring : Bool
  deriving DecidableEq, Repr

/-- The Faush links and what is known of the mesh (R123, R125). -/
structure Mesh where
  links : Tab FlLink
  /-- STATE_SEQ last taken from each device (R123); reset 0. -/
  stateSeq : Tab Nat
  /-- UP_MASK of each device (R123); reset 0. -/
  upMask : Tab Nat
  deriving DecidableEq, Repr

/-- The lookup pipeline (chapter 04). -/
structure Pipe where
  /-- Table memory: bank * 65,536 + index, the entry as a little-endian number (R174); reset 0. -/
  tbl : Tab Nat
  /-- Hit bits, kept apart from the entries (R176); reset 0. -/
  hits : Tab Bool
  /-- Trie contents: slot, family, length and prefix packed, to RESULT + 1 (R160 to R162); reset none. -/
  trie : Tab Nat
  /-- Frames in the device's keeping by number (R181); reset none. -/
  flights : Tab Flight
  /-- Number of the next frame; the model's own; reset 0. -/
  nextFrame : Nat
  /-- Learning requests not yet carried out, oldest first (R149); reset empty. -/
  learn : List LearnReq
  /-- Learn queue: requests deferred by a held LOCK, at most 1,024 (R151); reset empty. -/
  deferred : List LearnReq
  /-- Second in which punts were last counted, and their number (R172); reset 0. -/
  puntWindow : Nat × Nat
  /-- Draws of each slice's random source (R173); reset 0. -/
  rnd : Tab Nat
  /-- Copies toward the essence engine, by slice, oldest first (R246); reset empty. -/
  attach : Tab (List EssCopy)
  /-- Sweep skipped these banks while locked (R152); reset none. -/
  sweepOwed : Tab Bool
  /-- Frames that no route had (R155, R164); no register shows the count; reset 0. -/
  routeMiss : Nat
  /-- The queue to Tchien: frames and the control cells that each holds, oldest first (R172, R190); reset empty. -/
  punts : List (Nat × Nat)
  deriving DecidableEq, Repr

/-- A gate list in operation (R213, R214). -/
structure GateRun where
  entry : Nat
  /-- ns at which the present cycle started. -/
  cycleStart : Nat
  /-- ns at which the present entry started. -/
  entryStart : Nat
  /-- Cycle time in force, ns; 0 when the cycle is tied to ticks. -/
  cycle : Nat
  len : Nat
  deriving DecidableEq, Repr

/-- Queues, shapers, gates and pauses (chapter 05). -/
structure Tm where
  /-- Leaf queues, oldest first (R204); reset empty. -/
  queues : Tab (List Copy)
  /-- Unicast cells of each leaf, whose excess over MIN_CELLS is shared (R193); TM_LEAF_DEPTH counts multicast too (R195). -/
  occ : Tab Nat
  /-- Control cells in use (R190); reset 0. -/
  controlUsed : Nat
  /-- Replication records in use (R169); reset 0. -/
  mcastUsed : Nat
  /-- Tokens of each shaper and policer in 1/16 B (R207): key of the node; reset full at BURST. -/
  tokens : Tab Int
  /-- RATE, BURST and ENABLE in force at each node since its last refill (R208). -/
  applied : Tab (Nat × Nat × Bool)
  /-- cclk of the last write of RATE, BURST or ENABLE of a node, and their values before that cclk (R208); reset none. -/
  shapeWr : Tab (Nat × Nat × Nat × Bool)
  /-- cclk of the last refill (R207, R208); reset 0. -/
  refillAt : Nat
  /-- Deficits of class nodes and leaves (R205); reset 0. -/
  deficit : Tab Nat
  /-- The members of each port and of each class node that hold frames, in the order of their turns (R205, R206); reset
  none. -/
  rounds : Tab (List Nat)
  /-- Members that have had their quantum in their present turn, by the keys of `deficit` (R205, R206); reset false. -/
  granted : Tab Bool
  /-- Admin copy of gate lists: port * 2,048 + list * 1,024 + entry, the 8 bytes as a number (R212); reset 0. -/
  gates : Tab Nat
  /-- Gate list in operation at each port (R213); reset none. -/
  running : Tab GateRun
  /-- Change time in ns of a pending ARM (R214), plus 1; the earliest instant of it where the cycle is tied to ticks
  (R216); reset none. -/
  change : Tab Nat
  /-- cclk at which each leaf last sent a frame or became backlogged (R217); reset 0. -/
  lastSent : Tab Nat
  /-- Time-outs of pauses per port and class, in cclk (R209); reset none. -/
  pauseUntil : Tab Nat
  deriving DecidableEq, Repr

/-- One line of an ingest picture (R236, R238, R244). -/
structure LineSt where
  /-- SRDs received: (first pixel, octets). -/
  srds : List (Nat × Bytes)
  /-- Merge deadline in cclk (R236). -/
  deadline : Option Nat
  closed : Bool
  /-- Payload octets of the line in the merge ring (R243). -/
  ringBytes : Nat
  /-- The line has reached its slot (R242). -/
  moved : Bool
  /-- The filled samples of its staged lines, by plane, of a line that has moved (R244). -/
  filled : List (List Nat)
  deriving DecidableEq, Repr

/-- A run of sequence values that had not arrived when a later one did (R236): its first value, its length, how many are
still missing, and the line of the packet that passed them over: they are counted in LOST_PKTS when no line up to it is open. -/
structure SeqGap where
  first : Nat
  span : Nat
  left : Nat
  /-- Tick of the picture of the packet that passed them over, and its line. -/
  tick : Nat
  line : Nat
  deriving DecidableEq, Repr

/-- An ingest picture in progress (R236, R237). -/
structure EssPic where
  tick : Nat
  ts : Nat
  lines : Tab LineSt
  deriving DecidableEq, Repr

/-- A staging slot of a window (R242). -/
structure SlotSt where
  tick : Nat
  row : Nat
  /-- Lines of the row that have reached the slot. -/
  arrived : Nat
  /-- The row has been given to its readers. -/
  given : Bool
  /-- Readers that have not released the row: stream contexts by number, egress contexts by 1,024 + number. -/
  readers : List Nat
  deriving DecidableEq, Repr

/-- What the essence engine keeps for one flow beside its 256 B context image (R234, R236, R243, R249, R252, R254). -/
structure EssFlow where
  /-- Value furthest ahead, none before the first copy (R236). -/
  top : Option Nat
  /-- seen[] of R236 by s mod 262,144. -/
  seen : Tab Bool
  /-- Ingest waits for the first packet of a new picture (R255). -/
  waitNew : Bool
  /-- Tick of the picture that R255 skips. -/
  skipTick : Option Nat
  /-- Pictures in progress, oldest first. -/
  pics : List EssPic
  /-- Sequence values passed over that may still arrive (R236). -/
  gaps : List SeqGap
  /-- SRTP ingest: the highest sequence number authenticated under ROC, `s_l` of RFC 3711 (R253). -/
  srtpTop : Option Nat
  /-- Tick of the last picture whose every line has reached a slot, or access unit handed over. -/
  doneTick : Option Nat
  /-- Old SRTP key handle in its overlap, and the ns of PTP time at which it ends (R254). -/
  oldKey : Option (Nat × Option Nat)
  /-- Egress: key handle that takes over at the next picture (R254). -/
  newKey : Option Nat
  /-- CLOSE is draining (R256). -/
  closing : Bool
  /-- ST 2110-22 ingest: packets that wait for their turn, by sequence value: (marker, timestamp, payload) (R252). -/
  packets : Tab (Bool × Nat × Bytes)
  /-- Deadline in cclk of the gap before the packets that wait (R236). -/
  gapAt : Option Nat
  /-- Sequence value consumed next (R252). -/
  nextSeq : Option Nat
  /-- Access unit under reassembly (R252): NAL units in Annex B form, its timestamp, lost data, fragment in progress. -/
  au : Bytes
  auTs : Option Nat
  auLost : Bool
  fu : Option Bytes
  /-- Egress: tick of the picture in progress, and the number of its next packet (R248). -/
  picTick : Option Nat
  pkt : Nat
  /-- The first tick whose picture is sent or, on ingest, taken (R255). -/
  startTick : Nat
  /-- Coded egress: position in the output window up to which NAL units have been sent, and within the NAL unit in
  progress (R251, R330). -/
  sent : Nat
  /-- Coded egress: the rest of the access unit is abandoned (R335). -/
  skipAu : Bool
  /-- Coded egress: a fragment of the NAL unit in progress has been sent (R330). -/
  fragged : Bool
  /-- Coded egress: token bucket in units of 2^-28 * 10^-6 bit, and the PTP time of its last filling (R251). -/
  bucket : Nat
  bucketAt : Nat
  deriving DecidableEq, Repr

/-- The essence engine (chapter 06). -/
structure Ess where
  /-- Context images of 256 B (R234); reset FREE. -/
  ctx : Tab Bytes
  /-- Sequence, line, ring and egress state of each flow; reset none. -/
  flow : Tab EssFlow
  /-- Staging slots by (engine * 8 + window) * 4,096 + slot (R242); reset none. -/
  slots : Tab SlotSt
  /-- Validity words by slot key * 512 + staged line (R244); reset 0. -/
  valid : Tab Nat
  /-- Session key and salt of each SRTP flow, and at 65,536 + flow those of a key in its overlap (R254, R496); reset
  none. -/
  srtp : Tab Bytes
  deriving DecidableEq, Repr

/-- A pending change of a stream's parameter or rate-control record (R314, R345). -/
structure PendRec where
  record : Bytes
  atIrap : Bool
  deriving DecidableEq, Repr

/-- The picture structure of an encode stream (R314 to R319). -/
structure GopSt where
  /-- Parameter record in force (R312). -/
  params : Bytes
  pend : Option PendRec
  /-- A record has taken effect that no picture has reported (R314). -/
  applied : Bool
  /-- Number of the next input picture, and the number that has POC 0 (R315). -/
  idx : Nat
  base : Nat
  /-- Pictures since the last IRAP; none before the first (R317). -/
  since : Option Nat
  /-- KEY_PICTURE waits (R318, R319). -/
  keyReq : Bool
  /-- cclk of the request, and whether pictures that precede its picture had not started (R318). -/
  keyAt : Nat
  keyEarly : Bool
  /-- The picture that serves the request is planned and not yet coded (R319). -/
  keyNow : Bool
  /-- Held input pictures of a hierarchical-B mini-GOP: number, presentation time and command record (R316). -/
  held : List (Nat × Nat × Bytes)
  /-- POC and TemporalId of the pictures coded since the last IDR, newest first (R315). -/
  coded : List (Int × Nat)
  deriving DecidableEq, Repr

/-- Activity of a CTU, and of its first and its last 16 columns (R354, R362). -/
structure CtuAct where
  all : Nat
  left : Nat
  right : Nat
  deriving DecidableEq, Repr

/-- The last picture of one kind and TemporalId (R354). -/
structure RcRef where
  qp : Int
  bits : Nat
  act : Nat
  deriving DecidableEq, Repr

/-- The rate control of an encode stream (chapter 09). -/
structure RcSt where
  /-- Rate-control record in force (R342, R344). -/
  record : Bytes
  pend : Option PendRec
  /-- The buffer model has started (R357). -/
  started : Bool
  /-- Fullness F in units of 1/(90,000 D) bit (R357). -/
  f : Int
  /-- A tick without an access unit is to be reported (R359). -/
  gap : Bool
  /-- Pictures and bits since the model restarted (R355). -/
  n : Nat
  total : Nat
  /-- Last pictures by kind * 8 + TemporalId (R354). -/
  refs : Tab RcRef
  /-- Activities of the last 16 pictures, newest first (R355). -/
  acts : List Nat
  /-- Activities of the CTUs of the previous picture. -/
  prev : List CtuAct
  /-- Picture periods since the removal of the last access unit with a buffering period (R358, R359). -/
  since : Nat
  deriving DecidableEq, Repr

/-- A picture that an encoder is to code (R315 to R319). -/
structure PicPlan where
  /-- Number of the input picture. -/
  idx : Nat
  poc : Int
  /-- 0 I, 1 P, 2 B. -/
  kind : Nat
  tid : Nat
  nal : Nat
  irap : Bool
  key : Bool
  early : Bool
  applied : Bool
  /-- The parameter record it is coded under. -/
  params : Bytes
  pts : Nat
  /-- FILE: the command record that names its planes (R311). -/
  src : Bytes
  /-- POCs of its two reference lists (R315). -/
  list0 : List Int
  list1 : List Int
  deriving DecidableEq, Repr

/-- A partition of the tile row in progress (R351, R356, R362). -/
structure Part where
  g : Nat
  fl : Nat
  /-- Target in 1/65,536 bit. -/
  t : Nat
  bc : Nat
  used : Nat
  bins : Nat
  /-- 0 normal, 1 floor, 2 degraded. -/
  mode : Nat
  /-- CTUs coded. -/
  coded : Nat
  rowBits : Nat
  rowAct : Nat
  /-- `used` at the start of the CTU row. -/
  rowUsed : Nat
  qpPrev : Option Int
  deriving DecidableEq, Repr

/-- A picture of a decoder's picture buffer (R374 to R376). -/
structure DpbPic where
  poc : Int
  /-- Buffer address plus 1, 0 for none. -/
  buf : Nat
  /-- Tag and opcode of the DECODE_AU that carried it. -/
  tag : Nat
  /-- It waits for output. -/
  wait : Bool
  /-- It is held as a reference. -/
  ref : Bool
  latency : Nat
  concealed : Bool
  len : Nat
  /-- Bytes 0x40 to 0xFF of its output record. -/
  record : Bytes
  /-- Start in ns, busy and waiting cycles, segments and restarts of its decoding (R271). -/
  startNs : Nat
  busy : Nat
  waited : Nat
  segs : Nat
  restarts : Nat
  deriving DecidableEq, Repr

/-- What a decode routine holds (chapter 10). -/
structure DecWork where
  /-- Access unit: address, length, DAMAGED and END_OF_STREAM (R373). -/
  addr : Nat
  len : Nat
  damaged : Bool
  eos : Bool
  pts : Nat
  /-- CONCEAL was in force when decoding started (R394). -/
  conceal : Bool
  /-- The first commit has been taken: the picture is known. -/
  known : Bool
  /-- nal_unit_type and TemporalId of its slices (R367). -/
  nal : Nat
  tid : Nat
  info : AuInfo
  fault : Option DecFault
  decoded : Nat
  /-- CTUs reconstructed by each member (R379). -/
  done : List Nat
  concealed : Nat
  /-- A missing reference was generated (R386). -/
  refGen : Bool
  /-- Its finished samples: FILE the picture's planes, LIVE staged rows (R374, R377). -/
  samples : Bytes
  /-- LIVE: rows that have been queued for the window. -/
  rows : Nat
  deriving DecidableEq, Repr

/-- Work on an engine: a picture or an access unit in progress (R273, R289, R351). -/
structure Work where
  sc : Nat
  /-- 1 encode picture, 2 decode picture. -/
  kind : Nat
  /-- Command record, empty for LIVE work. -/
  cmd : Bytes
  /-- LIVE: tick of the input picture (R273). -/
  tick : Nat
  plan : PicPlan
  /-- Further pictures of the command (R316). -/
  more : List PicPlan
  /-- It is a skip picture (R286), with the STATUS that its cause gives. -/
  skip : Option Nat
  /-- cclk at which it became ready, while it waits (R276). -/
  readyAt : Option Nat
  begun : Bool
  startNs : Nat
  wait : Nat
  busy : Nat
  segments : Nat
  restarts : Nat
  /-- ns of the tick k + 2 that found it incomplete (R284). -/
  late : Option Nat
  /-- The OVERRUN policy in force at its start is DROP (R269, R284). -/
  drop : Bool
  /-- The routine was selected at its dispatch for sequencer words (R558). -/
  sampled : Bool
  effort : Nat
  /-- Output buffer address plus 1, 0 for none. -/
  outBuf : Nat
  /-- AU_SEQ of the sealed record begun (R338). -/
  sealSeq : Nat
  /-- Encode: rate-control record, C, O, F at the start, T in 1/65,536 bit, base QP. -/
  rc : Bytes
  cap : Nat
  capByCpb : Bool
  rcApplied : Bool
  overhead : Option Nat
  target : Nat
  qpPic : Int
  tileRow : Nat
  parts : Tab Part
  used : Nat
  bins : Nat
  qpMin : Int
  qpMax : Int
  qpSum : Int
  qpCount : Nat
  floorRows : List Nat
  degRows : List Nat
  invalid : Nat
  skipped : Nat
  recoded : Bool
  /-- Activities of the CTUs of the rows staged so far, in raster order. -/
  acts : List CtuAct
  /-- CTU rows whose samples have been passed across every seam (R324). -/
  seams : Nat
  /-- Coded bytes, Annex B, and the MD5 of the planes (R307). -/
  coded : Bytes
  md5 : Bytes
  /-- Sealed encoder: the buffer of its reconstruction plus 1, 0 for none, and the bytes written to it (R416). -/
  recon : Nat
  reconLen : Nat
  dec : DecWork
  deriving DecidableEq, Repr

/-- A NAL unit in a coded output window (R335): its first and last position plus 1, complete, last of its access unit,
and the tick of the picture. -/
structure NalPos where
  first : Nat
  stop : Nat
  whole : Bool
  last : Bool
  tick : Nat
  deriving DecidableEq, Repr

/-- A stream context (R262, R265, chapters 07 to 10). -/
structure Stream where
  kind : Nat
  codec : Nat
  prio : Nat
  td : Nat
  engine : Nat
  gang : Nat
  overrun : Nat
  errPolicy : Nat
  fn : Nat
  cq : Nat
  srcStream : Nat
  statLog2 : Nat
  sealedS : Bool
  fastNext : Bool
  paramAddr : Nat
  statBase : Nat
  sealKey : Nat
  budget : Nat
  tickIdx : Nat
  pictures : Nat
  commands : Nat
  overruns : Nat
  drops : Nat
  debt : Nat
  restarts : Nat
  statusLost : Nat
  lastPoc : Int
  /-- Decoder: size, chroma format, depth and CTU size of the active parameter set (R265). -/
  width : Nat
  height : Nat
  chroma : Nat
  depth : Nat
  ctuSize : Nat
  gop : GopSt
  rc : RcSt
  /-- The stream's state before the command in progress (R290, R292, R294). -/
  snap : Option (GopSt × RcSt)
  /-- PHASE of the status ring's present pass (R271). -/
  phase : Bool
  /-- FILE: status records that wait for D0, for room in the ring or in the completion queue, with the IRQ flag of the
  completion record (R271, R432, R447), oldest first; reset empty. -/
  waits : List (Bytes × Bool)
  /-- Fetched commands not yet completed, oldest first (R268). -/
  queue : List Bytes
  /-- A doorbell's records have not all been fetched (R266): the tail. -/
  tail : Option Nat
  /-- CLOSE is draining (R296), with its command record. -/
  closing : Option Bytes
  /-- Sealed stream: STREAM_ID, data key and AU_SEQ (R337, R338). -/
  streamId : Bytes
  dataKey : Bytes
  auSeq : Nat
  /-- Bytes written to the coded output window, and its NAL units that have not been sent (R335). -/
  outPos : Nat
  nals : List NalPos
  /-- LIVE encode: staging rows handed and not yet done with: (tick, row) (R273). -/
  ready : List (Nat × Nat)
  /-- LIVE decode: access units handed over: (tick, (address, length, damaged)) (R252, R273). -/
  aus : Tab (Nat × Nat × Bool)
  /-- LIVE: tick of the last picture that ended; earlier input is discarded. -/
  doneTick : Option Nat
  /-- Decoder: picture buffer, waiting for an IRAP, RASL pictures skipped, discards, output buffers that the host
  holds (R375, R385, R392). -/
  dpb : List DpbPic
  waitIrap : Bool
  skipRasl : Bool
  ausDiscarded : Nat
  hostBufs : List Nat
  /-- Decoder: output is flagged CONCEALED (R387). -/
  concealing : Bool
  /-- LIVE decode: the previous output picture, as its staged rows (R377, R384, R388). -/
  lastOut : Bytes
  /-- LIVE decode: rows that wait for their slot: output tick, row and bytes (R377), and the records that they hold up,
  with their ticks. -/
  outRows : List (Nat × Nat × Bytes)
  outRecs : List (Nat × Bytes)
  /-- Sealed encoder: the SEALED buffers of its reconstructed and reference pictures, oldest first (R340, R416). -/
  recons : List Nat
  deriving DecidableEq, Repr

/-- What an engine is doing (R274, R275, R289). -/
structure Engine where
  work : Option Work
  /-- Works that wait, have been preempted or are not yet dispatched, by stream context (R275, R289). -/
  savedWorks : Tab Work
  /-- Incoming context of a swap in progress (R275). -/
  swapTo : Option Nat
  swapAt : Nat
  /-- Context whose working state is loaded, and whether it has been saved (R275). -/
  loaded : Option Nat
  saved : Bool
  /-- cclk at which the segment in progress started. -/
  segAt : Nat
  /-- LIVE context whose turn was last (R274). -/
  lastLive : Option Nat
  /-- FILE context whose turn was last, per class (R274). -/
  turn : Tab Nat
  /-- Errors in a row on the present segment (R290). -/
  failRun : Nat
  deriving DecidableEq, Repr

/-- Streams and engines (chapters 07 to 10). -/
structure Coding where
  sc : Tab Stream
  eng : Tab Engine
  /-- RESULT and SC of each function's last CG_ALLOC (R263, R607). -/
  allocOf : Tab (Nat × Nat)
  deriving DecidableEq, Repr

/-- Memory (chapter 11): HBM by physical byte address from 0 to 72 GiB - 1 (R397), scratch of engine e at 2^45 + e * 2^22
(R395). A byte that is not listed reads 0 (R399, R579). -/
structure Memory where
  cells : List Host.Cell
  /-- 64 B lines of HBM whose data is poisoned (R401). -/
  poison : Tab Bool
  /-- Buffers returned to each pool, most recent first (R412). -/
  returned : Tab (List Nat)
  /-- Buffers of each pool handed out at least once, by index, rising. -/
  touched : Tab (List Nat)
  /-- 16-bit buffer state by device address (R414). -/
  buf : Tab Nat
  /-- USE of each window allocated at run time, as ALLOC took it (R405); reset none. -/
  winUse : Tab Nat
  deriving DecidableEq, Repr

/-- A DMA channel beside its registers (R423, R425, R432). -/
structure Channel where
  /-- The completion record has been issued or none is due, so that the hinge may fall (R423). -/
  done : Bool
  /-- A record that waits for room in its queue: queue, function and bytes (R432). -/
  record : Option (Nat × Bytes)
  /-- A tick of HINGE_TD has been seen since the other conditions held (R423). -/
  tickSeen : Bool
  /-- cclk from which the hinge may fall (R425). -/
  hingeAt : Nat
  /-- Bytes written by the active descriptor (R436); DC_BYTES reads its low 32 bits. -/
  bytes : Nat
  /-- Ring index of the active and of the shadow descriptor (R431). -/
  actIdx : Nat
  shdIdx : Nat
  /-- cclk of the last hinge, in which ARM is refused (R422). -/
  hingedAt : Option Nat
  /-- A fetch failed: the next one waits for a write of the tail (R439). -/
  fetchHeld : Bool
  deriving DecidableEq, Repr

/-- R447: link states that the rules name. -/
inductive LinkState where
  | l0 | l1 | l12 | l2Ready | down
  deriving DecidableEq, Repr

/-- PCIe functions and link (chapter 12). -/
structure Pcie where
  link : LinkState
  /-- The link has trained since the entry to BOOT (R581). -/
  trained : Bool
  /-- Bus Master Enable of each function (R459); reset 0. -/
  bme : Tab Bool
  /-- Memory Space Enable of each function (R459); reset 0. -/
  mse : Tab Bool
  /-- MSI-X Enable of each function (R459); reset 0. -/
  msixEn : Tab Bool
  /-- MSI-X Function Mask of each function (R459); reset 0. -/
  fnMask : Tab Bool
  /-- PMCSR.PME_En (R449); reset 0. -/
  pmeEn : Tab Bool
  /-- PMCSR.PME_Status (R449); reset 0. -/
  pmeStatus : Tab Bool
  /-- Functions for which PCIE_WAKE_N is driven low (R449); reset none. -/
  wakeDrive : Tab Bool
  /-- VF Enable and NumVFs of the SR-IOV capability (R440); reset 0. -/
  vfEnable : Bool
  numVfs : Nat
  /-- MSI-X table words: function * 4,096 + entry * 4 + word (R440); reset 0. -/
  msix : Tab Nat
  /-- MSI-X entries whose mask bit is clear: function * 1,024 + entry (R459); reset none, every entry masked. -/
  unmasked : Tab Bool
  /-- Pending bit array: function * 1,024 + entry (R459); reset 0. -/
  pba : Tab Bool
  /-- T_POWER_ON in L1 PM Substates Control 2, µs (R448); reset 0. -/
  tPowerOn : Nat
  /-- What AER logged, newest first: function, and 0 Poisoned TLP Received, 1 a failed request (R439); reset empty. -/
  aer : List (Nat × Nat)
  deriving DecidableEq, Repr

/-- Interrupt timing beside the registers (R458, R460). -/
structure Ints where
  /-- Hold-off left of each group in cclk (R458); reset 0. -/
  left : Tab Nat
  /-- cclk at which each mask bit was last set (R460); reset none. -/
  maskedAt : Tab Nat
  deriving DecidableEq, Repr

/-- One copy of the Ward store (R478). -/
structure StoreCopy where
  os : Bytes
  counter : Nat
  lastMac : Bytes
  lastAnswer : Bytes
  floor : Nat
  signers : Tab Bytes
  enc : Tab Bytes
  gen : Nat
  epoch : Nat
  deriving DecidableEq, Repr

/-- The Ward (chapter 13). -/
structure Ward where
  /-- FW_SVN floor, thermometer fuses (R467); reset 0 of the model's die. -/
  fwSvn : Nat
  /-- PATCH_SVN floor (R467). -/
  patchSvn : Nat
  /-- OWNER_BANK0 to 3: key hash and RELEASED (R467). -/
  banks : List (Bytes × Bool)
  /-- DECOMMISSIONED fuse (R467). -/
  decommissioned : Bool
  /-- STORE_EPOCH bits burnt (R467). -/
  storeEpoch : Nat
  /-- Owner secret OS (R475). -/
  os : Bytes
  /-- K_CMD (R475). -/
  kCmd : Bytes
  /-- K_WRAP (R475). -/
  kWrap : Bytes
  /-- Command counter (R485). -/
  counter : Nat
  /-- Last accepted critical frame's MAC, with its cached answer (R478, R485). -/
  lastFrame : Bytes
  lastAnswer : Bytes
  /-- Image floor (R61). -/
  floor : Nat
  /-- Signer slots 0 to 7, 96 B each (R494). -/
  signers : Tab Bytes
  /-- ENC slots 0 to 7 (R489). -/
  enc : Tab Bytes
  /-- Generation of the store (R478). -/
  gen : Nat
  /-- The two copies of the Ward store in the flashes (R478). -/
  copy0 : Option StoreCopy
  copy1 : Option StoreCopy
  /-- Key table: slot to the 64 B record (R489). -/
  keys : Tab Bytes
  /-- GEN of each slot since BOOT, where it has advanced (R488). -/
  gens : Tab Nat
  /-- Draw that gave this boot's GEN values (R488). -/
  genDraw : Nat
  /-- HBM key (R398). -/
  hbmKey : Bytes
  /-- End of the debug grant in cclk, and its SECONDS (R503). -/
  grantEnd : Nat
  grantSecs : Nat
  /-- Alias key seed of this boot (R469). -/
  aliasSeed : Bytes
  /-- Measurements 2 and 3 (R500). -/
  fwDigest : Bytes
  patchDigest : Bytes
  /-- Keyways and patch level of the bundle loaded (R472). -/
  patchLevel : Nat
  keyways : Nat
  /-- WARD_BOOT.FAIL entered LOCKDOWN that only a power cycle leaves (R471, R580). -/
  powerCycleOnly : Bool
  deriving DecidableEq, Repr

/-- One block of the event log (R539). -/
structure LogBlock where
  erases : Nat
  firstSeq : Nat
  chainIn : Bytes
  boot : Nat
  entries : List Bytes
  chainOut : Bytes
  signature : Bytes
  aliasId : Bytes
  closed : Bool
  deriving DecidableEq, Repr

/-- Tchien (chapter 15). -/
structure Tchien where
  /-- Log blocks by ring place (R538). -/
  blocks : Tab LogBlock
  /-- Place of the open or newest block (R538). -/
  block : Nat
  /-- A block is open (R541). -/
  blockOpen : Bool
  /-- SEQ of the next entry (R540). -/
  seq : Nat
  /-- CHAIN of the last entry (R540). -/
  chain : Bytes
  /-- Entries to BOOT since the log was first written (R540). -/
  bootCount : Nat
  /-- Queued entries as (kind, data, time, flags), oldest first, at most 256 (R543). -/
  queue : List (Nat × Bytes × Nat × Nat)
  /-- Entries lost since the last KIND 0x00F0 entry (R543). -/
  lost : Nat
  /-- Bad blocks of each flash (R538). -/
  bad : Tab Bool
  /-- Alias certificates by ALIAS_ID (R541). -/
  certs : List (Bytes × Bytes)
  /-- cclk at which Tchien started (R540). -/
  startedAt : Nat
  /-- Consecutive samples of each sensor above its limit and at or below the limit of the fall, held at 2: source * 64 +
  sensor (R535). -/
  above : Tab Nat
  below : Tab Nat
  /-- The temperature sensor has given a reading, so that its peak is one (R569). -/
  peakTaken : Tab Bool
  /-- Sensor limits stored in the flashes: CRIT, WARN, WIN_PCT (R536). -/
  limits : Nat × Nat × Nat
  /-- Management network settings of MGMT_NET, 32 B (R544). -/
  net : Bytes
  /-- MBX_REQ and MBX_RESP bytes (R450). -/
  mbxReq : Bytes
  mbxResp : Bytes
  /-- A request was submitted and waits to be run (R452). -/
  mbxWaiting : Bool
  /-- Responses that have not been placed in MBX_RESP, oldest first (R452). -/
  mbxOut : List Bytes
  /-- What each firmware slot holds (R537, R545). -/
  slotA : Option FwImage
  slotB : Option FwImage
  /-- The boot ROM answers in place of firmware (R546). -/
  romOnly : Bool
  /-- Transport and header of the image command being validated: mailbox or UDP source, and its frame (R66, R68). -/
  imgReply : Option (Option Nat × Bytes)
  deriving DecidableEq, Repr

/-- Trace FIFO, observation port, dumps and bandwidth windows (chapter 15). -/
structure Trace where
  /-- Complete wide words, oldest first, each as eight narrow words (R559). -/
  fifo : List (List Nat)
  /-- Narrow words of the wide word being packed (R560). -/
  packing : List Nat
  /-- Drop count that waits for a GAP (R562). -/
  gap : Nat
  /-- Last written values of TIME_TOP, TIME_MID and TIME_LO (R561). -/
  lastTop : Option Nat
  lastMid : Option Nat
  lastLo : Option Nat
  /-- cclk of the last TIME_LO and of the last producer word (R561, R565). -/
  loAt : Nat
  wordAt : Nat
  /-- Words latched by the last read of TRC_DATA0 (R563). -/
  latch : List Nat
  /-- Postcard words queued, oldest first, eight to a postcard (R556). -/
  postcards : List Nat
  /-- Sequencer words queued, at most 64 (R558). -/
  seqq : List Nat
  /-- Number of the next postcard (R557). -/
  tag : Nat
  /-- Wide words sent since the last SYNC; none before the port starts (R567). -/
  sinceSync : Option Nat
  /-- What the counters have gained since the running dump read them (R552), by BAR2 offset / 8; reset none. -/
  late : Tab Nat
  /-- The running dump: cclk and PTP time (2^-28 ns) of its start, its tick, its FLAGS (R552, R553); reset 0. -/
  capFrom : Nat
  capPtp : Nat
  capTick : Nat
  capByCmd : Bool
  capLate : Bool
  /-- End of the window that page 147 reported when the running dump read it, where a later one has ended (R553). -/
  capBw : Option Nat
  /-- The pending dump's tick, and whether it is by command (R554); reset 0. -/
  pendTick : Nat
  pendByCmd : Bool
  /-- Triggers merged since reset (R554); reset 0. -/
  skipped : Nat
  /-- Counters that BAR2 shows (R553), by offset / 8. -/
  shown : Tab Nat
  /-- Dumps completed since reset (R553). -/
  dumps : Nat
  /-- Wire bytes of the window in progress by port (R551). -/
  rxNow : Tab Nat
  txNow : Tab Nat
  /-- End of the last completed window, ns; windows begin at this boundary (R551). -/
  bwEnd : Nat
  bwFrom : Nat
  deriving DecidableEq, Repr

/-- The image loader (chapter 02). -/
structure Loader where
  /-- Plaintext sections of the configuration in force, by type (R42). -/
  secs : Tab Bytes
  /-- Header of the full image in force, or empty (R35). -/
  header : Bytes
  /-- SHA-384 of the full image in force as stored (R500). -/
  digest : Bytes
  /-- SHA-384 of the last delta applied since, or empty (R500). -/
  deltaDigest : Bytes
  /-- Image or delta being validated, as stored (R68). -/
  image : Bytes
  /-- Sections of a validated delta that waits (R71), with its header and digest. -/
  pend : Tab Bytes
  pendHeader : Bytes
  pendDigest : Bytes
  /-- A tick of APPLY_TD has been seen since the delta's validation ended (R72); reset false. -/
  applySeen : Bool
  deriving DecidableEq, Repr

/-- Hasp state beside its registers (R517). -/
structure Hasp where
  /-- cclk at which the open window of a source closes (R517); reset none. -/
  window : Tab Nat
  /-- The bit was latched under R510 or R580: effective class C4 whatever its configured class; reset none. -/
  forced : Tab Bool
  deriving DecidableEq, Repr

/-- Pins, reset and standby (chapter 16). -/
structure Power where
  /-- Every rail is within tolerance (R573). -/
  rails : Bool
  /-- PORST_N is high (R574). -/
  porstHigh : Bool
  /-- SYSRST_N or SHK_RST_N holds the device in reset (R578). -/
  inReset : Bool
  /-- The reset in progress is one that the device took on its own pin, so it drives SHK_RST_N (R129). -/
  driveShkRst : Bool
  /-- SHK_FAULT_N is held low by another device (R130). -/
  shkFaultIn : Bool
  /-- PCIE_PERST_N is high (R577). -/
  perstHigh : Bool
  /-- WAKE_N is low (R585). -/
  wakeLow : Bool
  /-- STBY_REQ_N is low (R585). -/
  stbyLow : Bool
  /-- The device has reached CONFIGURE since its last entry to BOOT (R581). -/
  configured : Bool
  /-- Cause code that the entry to BOOT carries, and the mode that was left (R572). -/
  bootCause : Nat
  bootFrom : Nat
  /-- LOCKDOWN was requested during BOOT (R648). -/
  lockHeld : Bool
  /-- A standby request is armed for L2 (R585), with its retention. -/
  armed : Option Bool
  /-- A standby request is held for a delta freeze (R74), with its retention. -/
  held : Option Bool
  /-- A request for CONFIGURE is held for a delta freeze (R584). -/
  heldConfigure : Bool
  /-- Retention of the standby being entered (R586). -/
  retain : Bool
  /-- cclk at which the standby request was taken (R586). -/
  takenAt : Nat
  /-- Gating has begun (R586). -/
  gated : Bool
  /-- cclk at which STANDBY was reached (R590). -/
  reachedAt : Nat
  /-- The wake was acted on and core domains ungate (R591). -/
  resuming : Bool
  /-- Units whose ENABLE was recorded in retention (R586): 0 + MAC, 1,000 + link, 2,000 + engine, 3,000 + channel,
  10,000 + flow context. -/
  recorded : List Nat
  /-- Alarm time in ns, from the entry to STANDBY (R599, R646). -/
  alarmNs : Option Nat
  /-- Image in force that the Ward retained through a STANDBY without retention, with IMG_SERIAL and IMG_SVN, until BOOT
  ends (R591). -/
  retImage : Option (Loader × Nat × Nat)
  /-- cclk at which the wake was acted on (R591). -/
  wokeAt : Nat
  /-- Code of the wake that was latched first, 0 for none (R590). -/
  firstWake : Nat
  /-- cclk of the last wake that R589 enables (R585). -/
  wakeSeen : Option Nat
  deriving DecidableEq, Repr

/-- A request at the HBM arbiter (R23): its class now (0 A to 3 D), who asks, the bank, the cclk of the request, and
whether R26 has raised it. -/
structure HbmReq where
  cls : Nat
  who : Nat
  bank : Nat
  since : Nat
  raised : Bool
  deriving DecidableEq, Repr

/-- The HBM arbiter and the passes of background work (R23 to R27, R30, R31). -/
structure Arbiter where
  /-- Requests that wait, oldest first (R23, R26); reset empty. -/
  waiting : List HbmReq
  /-- The burst in flight, which nothing interrupts (R24); reset none. -/
  inFlight : Option HbmReq
  /-- Class A requester served last (R25); reset 0. -/
  turn : Nat
  /-- cclk at which a bank's forced refresh ends (R27); reset none. -/
  refresh : Tab Nat
  /-- cclk at which the present pass of each activity began (R30): 0 to 7 as Hasp sources 45 to 52, 8 + lane for the
  adaptation of a lane; reset none. -/
  pass : Tab Nat
  deriving DecidableEq, Repr

/-- The state of the block. -/
structure State where
  /-- The register file: field values by `Fld.key`; a field not listed holds its reset value. -/
  regs : Tab Nat
  mode : Mode
  /-- Latched HI halves of the pairs of R608, by the key of the HI field; reset 0. -/
  latch : Tab Nat
  time : TimeUnit
  ports : Ports
  mesh : Mesh
  pipe : Pipe
  tm : Tm
  ess : Ess
  coding : Coding
  mem : Memory
  hbm : Arbiter
  dma : Tab Channel
  /-- PHASE of each completion queue's present pass (R432); reset 1. -/
  cqPhase : Tab Bool
  pcie : Pcie
  ints : Ints
  ward : Ward
  hasp : Hasp
  tch : Tchien
  trc : Trace
  /-- The 64-bit counters that telemetry dumps capture, by BAR2 offset / 8 (R257, R548). -/
  counters : Tab Nat
  loader : Loader
  power : Power
  /-- Random draws made so far (R466); the model's own. -/
  draws : Nat
  /-- Free values used so far; the model's own. -/
  fresh : Nat
  /-- What the block has sent to the outside, newest first; the model's own. -/
  out : List Out
  /-- Commands that wait, first in first out. -/
  pending : List Instr
  deriving DecidableEq, Repr

/-- R115: a link that has not locked. -/
def FlLink.init : FlLink :=
  { txSeq := 0, rxSeq := 0, replay := [], resend := [], replays := 0, nak := false, discarding := false,
    ackValid := false, credit := [], owed := [], owedTurn := 0, queues := [], turn := 0, txBytes := [],
    txFrames := [], control := [], rxBytes := [], crcFails := 0, lockAt := 0, goodAt := 0,
    drainAt := 0, rxPkts := 0, helloOk := false,
    peerMaster := false, restoring := false }

/-- A flow that has no sequence, line or ring state (R255). -/
def EssFlow.init : EssFlow :=
  { top := none, seen := [], waitNew := false, skipTick := none, pics := [], gaps := [], srtpTop := none, doneTick := none, oldKey := none,
    newKey := none, closing := false, packets := [], gapAt := none, nextSeq := none, au := [], auTs := none,
    auLost := false, fu := none, picTick := none, pkt := 0, startTick := 0, sent := 0, skipAu := false,
    fragged := false, bucket := 0, bucketAt := 0 }

/-- A picture structure before its first picture (R295). -/
def GopSt.init : GopSt :=
  { params := [], pend := none, applied := false, idx := 0, base := 0, since := none, keyReq := false, keyAt := 0,
    keyEarly := false, keyNow := false, held := [], coded := [] }

/-- Rate control before its first picture (R295). -/
def RcSt.init : RcSt :=
  { record := [], pend := none, started := false, f := 0, gap := false, n := 0, total := 0, refs := [], acts := [],
    prev := [], since := 0 }

/-- A picture about which nothing is settled. -/
def PicPlan.blank : PicPlan :=
  { idx := 0, poc := 0, kind := 0, tid := 0, nal := 0, irap := false, key := false, early := false, applied := false,
    params := [], pts := 0, src := [], list0 := [], list1 := [] }

/-- No access unit. -/
def DecWork.blank : DecWork :=
  { addr := 0, len := 0, damaged := false, eos := false, pts := 0, conceal := false, known := false, nal := 0, tid := 0,
    info := AuInfo.blank, fault := none, decoded := 0, done := [], concealed := 0, refGen := false, samples := [], rows := 0 }

/-- Work that has not begun. -/
def Work.blank : Work :=
  { sc := 0, kind := 1, cmd := [], tick := 0, plan := PicPlan.blank, more := [], skip := none, readyAt := none,
    begun := false, startNs := 0, wait := 0, busy := 0, segments := 0, restarts := 0, late := none, drop := false, sampled := false,
    effort := 0, outBuf := 0, sealSeq := 0, rc := [], cap := 0, capByCpb := false, rcApplied := false, overhead := none,
    target := 0, qpPic := 0, tileRow := 0, parts := [], used := 0, bins := 0, qpMin := 0, qpMax := 0, qpSum := 0,
    qpCount := 0, floorRows := [], degRows := [], invalid := 0, skipped := 0, recoded := false, acts := [], seams := 0,
    coded := [], md5 := [], recon := 0, reconLen := 0, dec := DecWork.blank }

/-- A FREE stream context (R262). -/
def Stream.init : Stream :=
  { kind := 0, codec := 0, prio := 0, td := 0, engine := 0, gang := 0, overrun := 0, errPolicy := 0, fn := 0, cq := 0,
    srcStream := 0, statLog2 := 0, sealedS := false, fastNext := false, paramAddr := 0, statBase := 0, sealKey := 0,
    budget := 0, tickIdx := 0, pictures := 0, commands := 0, overruns := 0, drops := 0, debt := 0, restarts := 0,
    statusLost := 0, lastPoc := 0, width := 0, height := 0, chroma := 0, depth := 0, ctuSize := 0, gop := GopSt.init,
    rc := RcSt.init, snap := none, phase := false, waits := [], queue := [], tail := none, closing := none,
    streamId := [], dataKey := [], auSeq := 0, outPos := 0, nals := [], ready := [], aus := [], doneTick := none,
    dpb := [], waitIrap := false, skipRasl := false, ausDiscarded := 0, hostBufs := [], concealing := false,
    lastOut := [], outRows := [], outRecs := [], recons := [] }

/-- An engine with nothing loaded (R293). -/
def Engine.init : Engine :=
  { work := none, savedWorks := [], swapTo := none, swapAt := 0, loaded := none, saved := true, segAt := 0,
    lastLive := none, turn := [], failRun := 0 }

/-- A channel that is idle (R423). -/
def Channel.init : Channel :=
  { done := true, record := none, tickSeen := false, hingeAt := 0, bytes := 0, actIdx := 0xFFFFFFFF, shdIdx := 0xFFFFFFFF,
    hingedAt := none, fetchHeld := false }

/-- A time unit that has never run: time 0, no tick seen, no timer started, every line low. -/
def TimeUnit.init : TimeUnit :=
  { cclk := 0, ptp := 0, tickNext := [], tickSeen := [], tmrStart := [], tmrPeriod := [], tmrNext := [], pulse := [],
    freqClean := false, freqFrom := 0, shkEdges := 0, edgeAt := none, nextSync := none, ballIn := [] }

/-- Ports with nothing queued. -/
def Ports.init : Ports :=
  { txts := [], txtsOverflow := [], secChans := [], cak := [], sak := [], wire := [], rxTail := [], anRunning := [], smpteTlv := [] }

/-- A pipeline with empty tables (R579). -/
def Pipe.init : Pipe :=
  { tbl := [], hits := [], trie := [], flights := [], nextFrame := 0, learn := [], deferred := [], puntWindow := (0, 0),
    rnd := [], attach := [], sweepOwed := [], routeMiss := 0, punts := [] }

/-- A traffic manager with empty queues. -/
def Tm.init : Tm :=
  { queues := [], occ := [], controlUsed := 0, mcastUsed := 0, tokens := [], applied := [], refillAt := 0, deficit := [],
    rounds := [], shapeWr := [], granted := [], gates := [], running := [], change := [], lastSent := [], pauseUntil := [] }

/-- An essence engine with every context FREE. -/
def Ess.init : Ess := { ctx := [], flow := [], slots := [], valid := [], srtp := [] }

/-- Memory zeroed (R399, R579), with no buffer handed out. -/
def Memory.init : Memory := { cells := [], poison := [], returned := [], touched := [], buf := [], winUse := [] }

/-- An arbiter at which nothing waits. -/
def Arbiter.init : Arbiter := { waiting := [], inFlight := none, turn := 0, refresh := [], pass := [] }

/-- PCIe configuration space after its reset. Log 27 (PRESUMED). -/
def Pcie.init : Pcie :=
  { link := .down, trained := false, bme := [], mse := [], msixEn := [], fnMask := [], pmeEn := [], pmeStatus := [],
    wakeDrive := [], vfEnable := false, numVfs := 0, msix := [], unmasked := [], pba := [], tPowerOn := 0, aer := [] }

/-- A Ward with nothing burnt and nothing held. -/
def Ward.init : Ward :=
  { fwSvn := 0, patchSvn := 0, banks := [], decommissioned := false, storeEpoch := 0, os := [], kCmd := [], kWrap := [],
    counter := 0, lastFrame := [], lastAnswer := [], floor := 0, signers := [], enc := [], gen := 0, copy0 := none,
    copy1 := none, keys := [], gens := [], genDraw := 0, hbmKey := [], grantEnd := 0, grantSecs := 0, aliasSeed := [],
    fwDigest := [], patchDigest := [], patchLevel := 0, keyways := 0, powerCycleOnly := false }

/-- Tchien with an empty log and the limits of R536. -/
def Tchien.init : Tchien :=
  { blocks := [], block := 0, blockOpen := false, seq := 0, chain := [], bootCount := 0, queue := [], lost := 0, bad := [],
    certs := [], startedAt := 0, above := [], below := [], peakTaken := [], limits := (0x700, 0x640, 5),
    net := [], mbxReq := [], mbxResp := [], mbxWaiting := false, mbxOut := [], slotA := none, slotB := none,
    romOnly := false, imgReply := none }

/-- An empty trace FIFO. -/
def Trace.init : Trace :=
  { fifo := [], packing := [], gap := 0, lastTop := none, lastMid := none, lastLo := none, loAt := 0, wordAt := 0,
    latch := [], postcards := [], seqq := [], tag := 0, sinceSync := none, late := [], capFrom := 0, capPtp := 0,
    capTick := 0, capByCmd := false, capLate := false, capBw := none, pendTick := 0, pendByCmd := false, skipped := 0, shown := [], dumps := 0, rxNow := [],
    txNow := [], bwEnd := 0, bwFrom := 0 }

/-- A loader with no image in force. -/
def Loader.init : Loader :=
  { secs := [], header := [], digest := [], deltaDigest := [], image := [], pend := [], pendHeader := [],
    pendDigest := [], applySeen := false }

/-- Pins after PORST_N has risen. -/
def Power.init : Power :=
  { rails := true, porstHigh := true, inReset := false, driveShkRst := false, shkFaultIn := false, perstHigh := true,
    wakeLow := false, stbyLow := false, configured := false, bootCause := 1, bootFrom := 0, lockHeld := false, armed := none,
    held := none, heldConfigure := false, retain := false, takenAt := 0, gated := false, reachedAt := 0,
    resuming := false, recorded := [], alarmNs := none, retImage := none,
    wokeAt := 0, firstWake := 0, wakeSeen := none }

/-- R609: the block right after PORST_N has risen: every register at its Reset column, GLB_MODE.MODE reading BOOT (R596),
nothing queued, and no command waiting. Log 9 (DESIGN CHOICE). -/
def State.reset : State :=
  { regs := [], mode := .boot, latch := [], time := TimeUnit.init, ports := Ports.init, mesh := ⟨[], [], []⟩,
    pipe := Pipe.init, tm := Tm.init, ess := Ess.init, coding := ⟨[], [], []⟩, mem := Memory.init, hbm := Arbiter.init,
    dma := [], cqPhase := [],
    pcie := Pcie.init, ints := ⟨[], []⟩, ward := Ward.init, hasp := ⟨[], []⟩, tch := Tchien.init, trc := Trace.init,
    counters := [], loader := Loader.init, power := Power.init, draws := 0, fresh := 0, out := [], pending := [] }

end Sys2Proof.Machine
end

