-- ==== Sys2Proof/Machine/Operands.lean ====
section
/-! DEFINITION. The layouts of records that commands carry or name: the sections of the configuration image (chapter 02),
read on demand from the plaintext section bytes. -/
namespace Sys2Proof.Machine

/-- A configuration: plaintext sections by type (R42). -/
abbrev Cfg := Tab Bytes

/-- The bytes of a section, empty when it is absent. -/
def cfgSec (c : Cfg) (t : Nat) : Bytes := Tab.get [] c t

/-- R42: the section is present. -/
def secHas (c : Cfg) (t : Nat) : Bool := !(cfgSec c t).isEmpty

/-- R41: the fixed part. -/
def secFixed (c : Cfg) (t : Nat) : Bytes := slice (cfgSec c t) 8 (fieldLE (cfgSec c t) 0 2)

/-- R41: the number of records. -/
def secCount (c : Cfg) (t : Nat) : Nat := fieldLE (cfgSec c t) 4 4

/-- R41: record `i`. -/
def secRec (c : Cfg) (t i : Nat) : Bytes :=
  let b := cfgSec c t
  slice b (8 + fieldLE b 0 2 + fieldLE b 2 2 * i) (fieldLE b 2 2)

/-- R41: all records, in order. -/
def secRecs (c : Cfg) (t : Nat) : List Bytes := (List.range (secCount c t)).map (secRec c t)

/-- One byte of a record. -/
def byteAt (b : Bytes) (i : Nat) : Nat := fieldLE b i 1

/-- R43: LANE_MAP enables the lane group (0 to 31 octets, 32 to 34 Faush links). -/
def laneOn (c : Cfg) (g : Nat) : Bool :=
  (secRecs c 1).any (fun r => byteAt r 0 == g && byteAt r 1 == 1)

/-- R44: the record of a port. -/
def portRec (c : Cfg) (p : Nat) : Option Bytes := (secRecs c 2).find? (fun r => byteAt r 0 == p)

/-- A field of a port's record, 0 when the port does not exist. -/
def portF (c : Cfg) (p off n : Nat) : Nat := ((portRec c p).map (fun r => fieldLE r off n)).getD 0

/-- R44: the port exists. -/
def portOn (c : Cfg) (p : Nat) : Bool := (portRec c p).isSome

/-- R44: a SPEED code in Gbit/s. -/
def speedGbps : Nat → Nat
  | 1 => 10 | 2 => 25 | 3 => 50 | 4 => 100 | 5 => 200 | 6 => 400 | 7 => 800 | _ => 0

/-- R44: the port's rate in Gbit/s. -/
def portGbps (c : Cfg) (p : Nat) : Nat := speedGbps (portF c p 4 1)
def portAn (c : Cfg) (p : Nat) : Bool := bit (portF c p 6 1) 0
def portMacsec (c : Cfg) (p : Nat) : Bool := bit (portF c p 6 1) 1
def portCt (c : Cfg) (p : Nat) : Bool := bit (portF c p 6 1) 2
def portPtp (c : Cfg) (p : Nat) : Bool := bit (portF c p 6 1) 3
def portGateTd (c : Cfg) (p : Nat) : Nat := if portOn c p then portF c p 7 1 else 0xFF
def portMtu (c : Cfg) (p : Nat) : Nat := portF c p 8 2
def portFec (c : Cfg) (p : Nat) : Nat := portF c p 5 1

/-- R45: a parse node by its NODE_ID. -/
def parseNode (c : Cfg) (n : Nat) : Option Bytes := (secRecs c 3).find? (fun r => byteAt r 0 == n)

/-- R47: the regions of a table. -/
def regions (c : Cfg) (t : Nat) : List Bytes := (secRecs c 4).filter (fun r => byteAt r 0 == t)
def rgId (r : Bytes) : Nat := byteAt r 1
def rgProfile (r : Bytes) : Nat := byteAt r 2
def rgLearn (r : Bytes) : Bool := bit (byteAt r 3) 0
def rgBase (r : Bytes) : Nat := fieldLE r 4 4
def rgSize (r : Bytes) : Nat := fieldLE r 8 4
def rgVrf0 (r : Bytes) : Nat := fieldLE r 12 2
def rgVrf1 (r : Bytes) : Nat := fieldLE r 14 2
/-- R47: the region of a table with a region number. -/
def region (c : Cfg) (t n : Nat) : Option Bytes := (regions c t).find? (fun r => rgId r == n)
/-- R48: pool units that an LPM region spans. -/
def rgUnits (r : Bytes) : Nat := if byteAt r 0 = 3 then 4 * rgSize r else rgSize r
/-- R47: SWEEP_MS. -/
def sweepMs (c : Cfg) : Nat := fieldLE (secFixed c 4) 0 4

/-- R49: GUARANTEED, CONTROL, MCAST and SHARED cells. -/
def carveGuar (c : Cfg) : Nat := fieldLE (secFixed c 5) 0 4
def carveControl (c : Cfg) : Nat := fieldLE (secFixed c 5) 4 4
def carveMcast (c : Cfg) : Nat := fieldLE (secFixed c 5) 8 4
def carveShared (c : Cfg) : Nat := fieldLE (secFixed c 5) 12 4

/-- R50: the class node of class `k` on port `p`. -/
def classNode (c : Cfg) (p k : Nat) : Option Bytes :=
  (secRecs c 6).find? (fun r => byteAt r 0 == 0 && byteAt r 1 == k && byteAt r 2 == p)
/-- R50: a leaf number of a leaf record. -/
def lfNum (r : Bytes) : Nat := byteAt r 2 + 256 * (byteAt r 3 % 128)
def lfClass (r : Bytes) : Nat := byteAt r 1
def lfPort (r : Bytes) : Nat := byteAt r 4
def lfAlpha (r : Bytes) : Nat := byteAt r 5
def lfTenant (r : Bytes) : Nat := fieldLE r 6 2
def lfMin (r : Bytes) : Nat := fieldLE r 8 4
def lfEcn (r : Bytes) : Nat := fieldLE r 12 3
def lfWeight (r : Bytes) : Nat := byteAt r 15
/-- R50: the records of all leaves. -/
def leafRecs (c : Cfg) : List Bytes := (secRecs c 6).filter (fun r => byteAt r 0 == 1)
/-- R50: the record of a leaf. -/
def leafRec (c : Cfg) (q : Nat) : Option Bytes := (leafRecs c).find? (fun r => lfNum r == q)
def cnMode (r : Bytes) : Nat := byteAt r 3
def cnWeight (r : Bytes) : Nat := byteAt r 4
def cnCt (r : Bytes) : Bool := bit (byteAt r 5) 0

/-- R51: the record of an essence class. -/
def essClass (c : Cfg) (k : Nat) : Option Bytes := (secRecs c 7).find? (fun r => byteAt r 0 == k)
def ecDir (r : Bytes) : Nat := byteAt r 1
def ecFormat (r : Bytes) : Nat := byteAt r 2
def ecSampling (r : Bytes) : Nat := byteAt r 3
def ecDepth (r : Bytes) : Nat := byteAt r 4
def ecTd (r : Bytes) : Nat := byteAt r 5
def ecWidth (r : Bytes) : Nat := fieldLE r 6 2
def ecHeight (r : Bytes) : Nat := fieldLE r 8 2
def ecSender (r : Bytes) : Nat := byteAt r 10
def ecProtect (r : Bytes) : Bool := bit (byteAt r 11) 0
def ecSrtp (r : Bytes) : Bool := bit (byteAt r 11) 1
def ecGrey (r : Bytes) : Bool := bit (byteAt r 11) 2
def ecMergeUs (r : Bytes) : Nat := fieldLE r 12 2
def ecMaxFlows (r : Bytes) : Nat := fieldLE r 16 4
def ecMbs (r : Bytes) : Nat := fieldLE r 20 4

/-- R53: DUMP_TD; 0xFF without CODING_PLAN (R42). -/
def dumpTd (c : Cfg) : Nat := if secHas c 8 then byteAt (secFixed c 8) 0 else 0xFF
def dumpDiv (c : Cfg) : Nat := if secHas c 8 then fieldLE (secFixed c 8) 2 2 else 1
/-- R53: ENABLE, N and D of a tick domain. -/
def tdOn (c : Cfg) (td : Nat) : Bool := td < 8 && byteAt (secFixed c 8) (8 + 16 * td) == 1
def tdN (c : Cfg) (td : Nat) : Nat := fieldLE (secFixed c 8) (12 + 16 * td) 4
def tdD (c : Cfg) (td : Nat) : Nat := fieldLE (secFixed c 8) (16 + 16 * td) 4
/-- R20: t(k) of a domain in ns from the epoch. -/
def tickTime (c : Cfg) (td k : Nat) : Nat := if tdD c td = 0 then 0 else k * tdN c td * 10 ^ 9 / tdD c td
/-- R53: USE, GANG_SIZE, TD and CLASSA_MBS of an engine; FILE and alone without CODING_PLAN (R42). -/
def ceUse (c : Cfg) (e : Nat) : Nat := byteAt (secFixed c 8) (136 + 16 * e)
def ceGang (c : Cfg) (e : Nat) : Nat := if secHas c 8 then byteAt (secFixed c 8) (137 + 16 * e) else 1
def ceTd (c : Cfg) (e : Nat) : Nat := byteAt (secFixed c 8) (138 + 16 * e)
def ceMbs (c : Cfg) (e : Nat) : Nat := fieldLE (secFixed c 8) (140 + 16 * e) 4
/-- R55: first engine of the gang of an engine, and its members. -/
def gangHead (c : Cfg) (e : Nat) : Nat := e / max 1 (ceGang c e) * max 1 (ceGang c e)
def gangOf (c : Cfg) (e : Nat) : List Nat := (List.range (max 1 (ceGang c e))).map (gangHead c e + ·)
/-- R53: the window claim of window `w` of engine `e`. -/
def winClaim (c : Cfg) (e w : Nat) : Option Bytes :=
  (secRecs c 8).find? (fun r => byteAt r 0 == e && byteAt r 1 == w)
def wcUse (r : Bytes) : Nat := byteAt r 2
def wcClass (r : Bytes) : Nat := byteAt r 3
def wcBase (r : Bytes) : Nat := fieldLE r 4 2
def wcSize (r : Bytes) : Nat := fieldLE r 6 2

/-- R57: LOG2_SIZE and COUNT of a pool. -/
def poolRec (c : Cfg) (p : Nat) : Bytes := ((secRecs c 9).find? (fun r => byteAt r 0 == p)).getD []
def poolLog2 (c : Cfg) (p : Nat) : Nat := byteAt (poolRec c p) 1
def poolCount (c : Cfg) (p : Nat) : Nat := fieldLE (poolRec c p) 4 4

/-- R58: FUNCTION, TIMER and PARAM of a ball; NONE when it has no record. -/
def ballRec (c : Cfg) (b : Nat) : Option Bytes := (secRecs c 10).find? (fun r => byteAt r 0 == b)
def ballFn (c : Cfg) (b : Nat) : Nat := ((ballRec c b).map (byteAt · 1)).getD 0
def ballTimer (c : Cfg) (b : Nat) : Nat := ((ballRec c b).map (byteAt · 2)).getD 0xFF
def ballTd (c : Cfg) (b : Nat) : Nat := ((ballRec c b).map (byteAt · 3)).getD 0 % 8
def ballInvert (c : Cfg) (b : Nat) : Bool := bit (((ballRec c b).map (byteAt · 3)).getD 0) 7

/-- R59: fields of an interrupt group; the defaults of R42 without INT_GROUPS. -/
def grEnable (c : Cfg) (g : Nat) : Bool := if secHas c 11 then bit (byteAt (secFixed c 11) (8 * g)) 0 else true
def grWake (c : Cfg) (g : Nat) : Bool := secHas c 11 && bit (byteAt (secFixed c 11) (8 * g)) 1
def grFn (c : Cfg) (g : Nat) : Nat := if secHas c 11 then byteAt (secFixed c 11) (8 * g + 1) else 0
def grVector (c : Cfg) (g : Nat) : Nat := if secHas c 11 then fieldLE (secFixed c 11) (8 * g + 2) 2 else g
def grHoldoff (c : Cfg) (g : Nat) : Nat := if secHas c 11 then fieldLE (secFixed c 11) (8 * g + 4) 2 else 0
def grTimer (c : Cfg) (g : Nat) : Nat := if secHas c 11 then byteAt (secFixed c 11) (8 * g + 6) else 0xFF
/-- R59: the group of a source; n / 64 without INT_GROUPS (R42). -/
def srcGroup (c : Cfg) (n : Nat) : Nat := if secHas c 11 then byteAt (secFixed c 11) (512 + n) else n / 64

/-- R60: the fixed part and the record of a source. -/
def fpClass (c : Cfg) : Nat := byteAt (secFixed c 12) 0
def fpC4Exit (c : Cfg) : Nat := byteAt (secFixed c 12) 1
def fpDrive (c : Cfg) : Bool := bit (byteAt (secFixed c 12) 2) 0
def fpRec (c : Cfg) (n : Nat) : Option Bytes := (secRecs c 12).find? (fun r => byteAt r 0 == n)

/-- R61: a flag of SECURITY_POLICY, and its other fields. -/
def spFlag (c : Cfg) (n : Nat) : Bool := bit (fieldLE (secFixed c 13) 0 4) n
def spUdpPort (c : Cfg) : Nat := if fieldLE (secFixed c 13) 4 2 = 0 then 47620 else fieldLE (secFixed c 13) 4 2
def spMinPatch (c : Cfg) : Nat := fieldLE (secFixed c 13) 6 2
def spMinSvn (c : Cfg) : Nat := fieldLE (secFixed c 13) 8 4

/-- R35: MESH_INDEX, TICK_MASTER and MEMBERS of a header. -/
def hdMesh (h : Bytes) : Nat := byteAt h 0x0E
def hdTickMaster (h : Bytes) : Bool := bit (byteAt h 0x0F) 0
def hdMembers (h : Bytes) : Nat := byteAt h 0x0F / 16
/-- R32: the link of device `i` to device `j`. -/
def meshLink (i j : Nat) : Nat := (j + 4 - i - 1) % 4
/-- R32: the device that link `l` of device `i` reaches. -/
def meshPeer (i l : Nat) : Nat := (i + l + 1) % 4

end Sys2Proof.Machine
end

