-- ==== Sys2Proof/Machine/Ops.lean ====
section
/-! DEFINITION. The operations every command shares: register fields, time, memory, interrupt pending bits and groups,
trace words, log entries, and the reach of a host access. -/
namespace Sys2Proof.Machine

/-- R509: class, reaction, window and N that a Hasp source takes when no image is in force. -/
def haspDefault (n : Nat) : Nat × Nat × Nat × Nat :=
  if n = 0 then (1, 1, 0, 0) else if n = 1 then (2, 1, 0, 0) else if n = 2 then (4, 3, 0, 0)
  else if n = 3 then (3, 2, 0, 0) else if n = 4 then (2, 2, 0, 0) else if n = 5 then (1, 0, 0, 0)
  else if n = 6 then (1, 1, 0, 0) else if n = 7 then (4, 3, 0, 0) else if n = 8 then (3, 1, 0, 0)
  else if n = 9 then (3, 1, 0, 0) else if n = 10 then (0, 0, 0, 0) else if n = 11 then (2, 1, 0, 0)
  else if n = 12 then (0, 0, 1000, 64) else if n = 13 then (3, 1, 0, 0) else if n = 14 then (4, 3, 0, 0)
  else if n = 15 then (0, 0, 1000, 64) else if n = 16 then (3, 1, 0, 0) else if n = 17 then (2, 1, 0, 0)
  else if n = 18 then (1, 1, 0, 0) else if n = 19 then (3, 1, 0, 0) else if n = 20 then (3, 2, 0, 0)
  else if n ≤ 26 then (2, 1, 0, 0) else if n = 27 then (3, 1, 0, 0) else if n ≤ 35 then (2, 1, 0, 0)
  else if n = 36 then (3, 1, 0, 0) else if n ≤ 40 then (2, 1, 0, 0) else if n = 41 then (3, 2, 0, 0)
  else if n ≤ 44 then (2, 1, 0, 0) else if n ≤ 52 then (0, 0, 0, 0) else if n ≤ 54 then (3, 1, 0, 0)
  else if n = 55 then (4, 3, 0, 0) else (0, 0, 0, 0)

/-- R619: nominal value in mV of the rail that a monitor watches. -/
def nominalMv (n : Nat) : Nat :=
  if n ≤ 7 then 750 else if n ≤ 9 then 850 else if n ≤ 13 then 900 else if n ≤ 15 then 1100
  else if n ≤ 18 then 1800 else if n = 19 then 750 else if n ≤ 21 then 400 else if n = 22 then 900 else 750

/-- R609: the reset value of a field of one instance: the Reset column, with the rows "As R509" and "As the rail".
Log 9 (DESIGN CHOICE). -/
def resetOf (f : Fld) (i : Nat) : Nat :=
  match f.reg with
  | .HASP_SRC_CLASS => if f.lsb = 8 then (haspDefault i).2.1 else (haspDefault i).1
  | .HASP_SRC_WINDOW => if f.lsb = 16 then (haspDefault i).2.2.1 else (haspDefault i).2.2.2
  | .MGMT_VOLT => if f.lsb = 16 then nominalMv i else f.rst
  | _ => f.rst

/-- Value of a register field of instance `i`. -/
def fget (f : Fld) (i : Nat) (s : State) : Nat := Tab.get (resetOf f i) s.regs (f.key i)

/-- Set a register field of instance `i` (the low bits that fit). Log 191 (DEDUCED). -/
def fset (f : Fld) (i v : Nat) (s : State) : State :=
  { s with regs := Tab.set (resetOf f i) s.regs (f.key i) (v % 2 ^ f.w) }

/-- A one-bit field as a Bool. -/
def flag (f : Fld) (i : Nat) (s : State) : Bool := fget f i s == 1

/-- Set a one-bit field. -/
def setFlag (f : Fld) (i : Nat) (b : Bool) (s : State) : State := fset f i (b2n b) s

/-- Add to a counting field; it wraps at its width. Log 21 (DESIGN CHOICE). -/
def bumpBy (f : Fld) (i n : Nat) (s : State) : State := fset f i (fget f i s + n) s

/-- Add 1 to a counting field. -/
def bump (f : Fld) (i : Nat) (s : State) : State := bumpBy f i 1 s

/-- A field of a written word. -/
def wfld (f : Fld) (w : Word) : Nat := bits w.toNat (f.lsb + f.w - 1) f.lsb

/-- A one-bit field of a written word. -/
def wbit (f : Fld) (w : Word) : Bool := wfld f w == 1

/-- Send something to the outside. -/
def emit (o : Out) (s : State) : State := { s with out := o :: s.out }

/-- The configuration in force. Log 168 (DEDUCED). -/
def State.cfg (s : State) : Cfg := s.loader.secs

/-- R76: a full image is in force. -/
def loaded (s : State) : Bool := flag F.IMG_STATUS_LOADED 0 s

/-- A fresh free value. Log 7 (DESIGN CHOICE). -/
def freshValue (what : Nat) (s : State) : Nat × State :=
  (Config.freeValue what s.fresh, { s with fresh := s.fresh + 1 })

/-- R466: a random draw of `len` bytes. Log 8 (DESIGN CHOICE). -/
def drawBytes (len : Nat) (s : State) : Bytes × State :=
  (fitTo len (Config.random s.draws len), { s with draws := s.draws + 1 })

/-! ### Time (R5, R19, R94) -/

/-- Units of 2^-28 ns in one second. -/
def unitsPerSec : Nat := 10 ^ 9 * 2 ^ 28

/-- R94: where the 48 bits of seconds wrap. -/
def ptpWrap : Nat := 2 ^ 48 * unitsPerSec

/-- PTP time in whole ns from the epoch. -/
def nowNs (s : State) : Nat := s.time.ptp / 2 ^ 28

/-- Seconds and ns of an instant in ns. -/
def nsSec (t : Nat) : Nat := t / 10 ^ 9
def nsNs (t : Nat) : Nat := t % 10 ^ 9

/-- 1 GHz time-unit clocks up to a core cycle: five for every eight (R5, R17). -/
def edgesAt (c : Nat) : Nat := 5 * c / 8

/-- The time unit runs (R104). -/
def running (s : State) : Bool := flag F.TIME_CTRL_RUN 0 s

/-- `n` core cycles pass: PTP time follows TIME_INCR (R94), hold-offs run down (R458). Log 152 (DEDUCED). -/
def passCclk (n : Nat) (s : State) : State :=
  let e := edgesAt (s.time.cclk + n) - edgesAt s.time.cclk
  let p := if running s then (s.time.ptp + fget F.TIME_INCR_INCR 0 s * e) % ptpWrap else s.time.ptp
  { s with
    time := { s.time with cclk := s.time.cclk + n, ptp := p }
    ints := { s.ints with left := (s.ints.left.map (fun x => (x.1, x.2 - n))).filter (fun x => x.2 != 0) } }

/-- Carry time forward to a core cycle. Log 3 (DESIGN CHOICE). -/
def reachCclk (c : Nat) (s : State) : State := passCclk (c - s.time.cclk) s

/-- Core cycles until PTP time is at least `t` ns, 0 when the unit is stopped. -/
def cclkTo (t : Nat) (s : State) : Nat :=
  let i := fget F.TIME_INCR_INCR 0 s
  if running s && s.time.ptp < t * 2 ^ 28 && 0 < i then
    let e := ceilDiv (t * 2 ^ 28 - s.time.ptp) i + edgesAt s.time.cclk
    ceilDiv (8 * e) 5 - s.time.cclk
  else 0

/-- Carry time forward until PTP time is at least `t` ns (a stopped unit stays where it is). Log 3 (DESIGN CHOICE). -/
def reachPtp (t : Nat) (s : State) : State := passCclk (cclkTo t s) s

/-- R646: the 48-bit seconds nearest to the present that end in the given 32 bits; of two at 2^31 s the one in this
epoch of 2^32 s, and none below 0. Log 208 (DEDUCED). -/
def nearestSec (sec32 : Nat) (s : State) : Nat :=
  let cur := nsSec (nowNs s)
  let base := cur / 2 ^ 32 * 2 ^ 32 + sec32
  if base + 2 ^ 31 < cur then (base + 2 ^ 32) % 2 ^ 48
  else if base > cur + 2 ^ 31 && base ≥ 2 ^ 32 then base - 2 ^ 32
  else base

/-! ### Memory (R395 to R399) -/

/-- Base of the scratch of an engine in the model's address list. Log 11 (DESIGN CHOICE). -/
def scratchBase (e : Nat) : Nat := 2 ^ 45 + e * 2 ^ 22

/-- One byte of memory; a byte that nothing has written reads 0. Log 10 (DEDUCED). -/
def readByte (a : Nat) (s : State) : Byte := Tab.get 0#8 s.mem.cells a

/-- `n` bytes of memory from `a`. -/
def readMem (a n : Nat) (s : State) : Bytes := (List.range n).map (fun i => readByte (a + i) s)

/-- Write one byte. -/
def writeByte (a : Nat) (v : Byte) (s : State) : State :=
  { s with mem := { s.mem with cells := Tab.set 0#8 s.mem.cells a v } }

/-- Write bytes one after another from `a` on. -/
def writeBytes (a : Nat) : Bytes → State → State
  | [], s => s
  | b :: r, s => writeBytes (a + 1) r (writeByte a b s)

/-- R401: a 64 B line that is written whole holds good data again. -/
def healLines (a n : Nat) (s : State) : State :=
  { s with mem := { s.mem with poison := s.mem.poison.filter (fun p => !(decide (a ≤ p.1 * 64) && decide (p.1 * 64 + 64 ≤ a + n))) } }

/-- Write bytes from `a` on. -/
def writeMem (a : Nat) (b : Bytes) (s : State) : State := healLines a b.length (writeBytes a b s)

/-- The keys of a list rise strictly from above `n`. -/
def keysRise : Nat → List Host.Cell → Bool
  | _, [] => true
  | n, (k, _) :: r => n ≤ k && keysRise (k + 1) r

/-- Canonical form of the memory list: rising addresses, no byte equal to what an unlisted address reads as. Log 10
(DEDUCED). -/
def Memory.wf (m : Memory) : Bool := keysRise 0 m.cells && m.cells.all (fun c => c.2 != 0#8)

/-- The 64 B line that holds an HBM address is poisoned (R401). -/
def poisonedAt (a : Nat) (s : State) : Bool := Tab.get false s.mem.poison (a / 64)

/-- Some line of an HBM range is poisoned. -/
def poisonedIn (a n : Nat) (s : State) : Bool :=
  s.mem.poison.any (fun p => p.2 && decide (a / 64 ≤ p.1) && decide (p.1 * 64 < a + n))

/-! ### BAR2 counters (R548) -/

/-- R552: a running dump has read the counters at a BAR2 offset already: it reads 64 B in every cclk. -/
def cntTaken (off : Nat) (s : State) : Bool :=
  flag F.DUMP_STATUS_RUNNING 0 s && decide (s.trc.capFrom + off / 64 ≤ s.time.cclk)
/-- Set the 64-bit counter at a BAR2 offset; a running dump keeps what it has read. -/
def cntSet (off v : Nat) (s : State) : State :=
  let old := Tab.get 0 s.counters (off / 8)
  let s := { s with counters := Tab.set 0 s.counters (off / 8) (v % 2 ^ 64) }
  if cntTaken off s then
    { s with trc := { s.trc with late := Tab.mod 0 s.trc.late (off / 8) (fun x => (x + v % 2 ^ 64 + 2 ^ 64 - old) % 2 ^ 64) } }
  else s
/-- Add to the 64-bit counter at a BAR2 offset. -/
def cntBy (off n : Nat) (s : State) : State := cntSet off (Tab.get 0 s.counters (off / 8) + n) s
/-- R549: index `k` of the MAC record of a port. -/
def macCnt (p k n : Nat) (s : State) : State := cntBy (145 * 65536 + p * 256 + k * 8) n s
/-- R548: a flow counter set, one frame of `len` bytes. -/
def flowCnt (set len : Nat) (s : State) : State :=
  cntBy (129 * 65536 + set * 16 + 8) len (cntBy (129 * 65536 + set * 16) 1 s)
/-- R550: bin `b` of the ingress port's histogram. -/
def histCnt (p b : Nat) (s : State) : State := cntBy (146 * 65536 + p * 256 + b * 8) 1 s
/-- R548: word `k` of a leaf's record. -/
def leafCnt (q k n : Nat) (s : State) : State := cntBy (148 * 65536 + q * 32 + k * 8) n s

/-- R551: the window in ns. -/
def bwWindow (s : State) : Nat := fget F.BW_CTRL_WINDOW_US 0 s * 1000
/-- R551: a window is in progress: its boundary has been reached, or lies beyond any that the present time leads to. -/
def bwOpen (s : State) : Bool := decide (s.trc.bwFrom ≤ nowNs s) || decide (nowNs s + bwWindow s < s.trc.bwFrom)

/-! ### Interrupt sources and groups (R456 to R460) -/

/-- R457: the pending bit of a source. -/
def pendOf (n : Nat) (s : State) : Bool := bit (fget F.INT_PEND_PEND (n / 32) s) (n % 32)
/-- R462: the mask bit of a source. -/
def maskOf (n : Nat) (s : State) : Bool := bit (fget F.INT_MASK_MASK (n / 32) s) (n % 32)
/-- R460: the mask bit as a commit at this cclk applies it. -/
def effMask (n : Nat) (s : State) : Bool :=
  maskOf n s && (match Tab.find? s.ints.maskedAt n with
    | some c => decide (c + 64 ≤ s.time.cclk)
    | none => true)
/-- The sources whose pending bit is set, rising. -/
def pendList (s : State) : List Nat :=
  (List.range 128).flatMap (fun w =>
    let v := fget F.INT_PEND_PEND w s
    if v = 0 then [] else ((List.range 32).filter (fun b => bit v b)).map (32 * w + ·))
/-- R458: the sources of a group that are pending and not masked. -/
def liveList (g : Nat) (s : State) : List Nat :=
  (pendList s).filter (fun n => srcGroup s.cfg n == g && !effMask n s)
/-- R458: live of a group. Log 151 (DEDUCED). -/
def groupLive (g : Nat) (s : State) : Bool := !(liveList g s).isEmpty

/-- R463: states of a group. -/
def grpState (g : Nat) (s : State) : Nat := fget F.INT_GRP_STATUS_STATE g s

/-- R458: an event of a group: an enabled IDLE group starts its hold-off. Log 151 (DEDUCED). -/
def groupEvent (g : Nat) (s : State) : State :=
  if flag F.INT_GRP_CFG_ENABLE g s && grpState g s == 0 then
    let s := fset F.INT_GRP_STATUS_STATE g 1 s
    let l := fget F.INT_GRP_HOLDOFF_HOLDOFF g s * 400
    { s with ints := { s.ints with left := Tab.set 0 s.ints.left g l } }
  else s

/-- R457: set a pending bit; its rise while unmasked is an event of its group (R458). -/
def pendSet (n : Nat) (s : State) : State :=
  if pendOf n s then s
  else
    let v := fget F.INT_PEND_PEND (n / 32) s
    let s := fset F.INT_PEND_PEND (n / 32) (v ||| 2 ^ (n % 32)) s
    if maskOf n s then s else groupEvent (srcGroup s.cfg n) s

/-- Clear a pending bit. -/
def pendClear (n : Nat) (s : State) : State :=
  let v := fget F.INT_PEND_PEND (n / 32) s
  if bit v (n % 32) then fset F.INT_PEND_PEND (n / 32) (v ^^^ 2 ^ (n % 32)) s else s

/-- R217: leaves whose STALLED bit is set, rising. -/
def stalledLeaves (s : State) : List Nat :=
  (s.regs.filter (fun p => p.1 % 16384 == F.TM_LEAF_STATUS_STALLED.key 0 && p.2 == 1)).map (fun p => p.1 / 16384)

/-- R456: the level of a level source; a pulse source reads low. -/
def lineHigh (n : Nat) (s : State) : Bool :=
  if n < 24 then false
  else if n < 88 then
    flag F.HASP_SRC_STATE_SET (n - 24) s && decide (1 ≤ fget F.HASP_SRC_CLASS_REACTION (n - 24) s)
  else if n = 88 then flag F.ESS_EVENT_CTX_OVERFLOW 0 s
  else if n = 89 then flag F.ESS_EVENT_STAGE_OVERRUN 0 s
  else if n = 90 then flag F.ESS_EVENT_SRTP_FAIL 0 s
  else if n = 91 then !(stalledLeaves s).isEmpty
  else if n = 92 then flag F.TIME_STATUS_FREQ_IN_LOST 0 s
  else if n = 93 then flag F.TIME_STATUS_PPS_CAPTURED 0 s
  else if n = 94 then flag F.TIME_STATUS_STEPPED 0 s
  else if n = 95 then flag F.SHK_STATUS_TICK_LOST 0 s
  else if n = 97 then flag F.MBX_STATUS_RESP_READY 0 s
  else if n = 98 then flag F.MEM_STATUS_UE_SEEN 0 s
  else if n = 99 then flag F.MEM_STATUS_BAD_RETURN 0 s
  else if n = 96 ∨ n = 103 then false
  else if n < 103 then flag F.FL_STATUS_HELLO_MISMATCH (n - 100) s || flag F.FL_STATUS_PEER_LOST_EVT (n - 100) s
  else if n < 112 then flag F.TRIE_STATUS_NO_NODE (n - 104) s || flag F.TRIE_STATUS_BAD_RECORD (n - 104) s
  else if n < 160 then false
  else if n < 224 then flag F.DC_STATUS_HALTED (n - 160) s
  else if n < 480 then flag F.MAC_STATUS_LINK_DOWN_EVT (n - 224) s || flag F.MAC_STATUS_FEC_UNCORR_EVT (n - 224) s
  else false

/-- A change of state seen by level source `n`: its pending bit is set when its line rose. -/
def riseIf (n : Nat) (old new : State) : State :=
  if lineHigh n new && !lineHigh n old then pendSet n new else new

/-- Set an event bit that level source `n` follows. -/
def setEvent (f : Fld) (i n : Nat) (s : State) : State := riseIf n s (setFlag f i true s)

/-! ### Trace FIFO (R559 to R562) -/

/-- Pack one narrow word (R560). -/
def tracePush (w : Nat) (s : State) : State :=
  let p := s.trc.packing ++ [w]
  if p.length = 8 then { s with trc := { s.trc with fifo := s.trc.fifo ++ [p], packing := [] } }
  else { s with trc := { s.trc with packing := p } }

/-- R561: the time words due before a producer word. -/
def traceTime (s : State) : State :=
  let t := nowNs s
  let top := bits t 63 48
  let mid := bits t 47 24
  let lo := bits t 23 0
  let s := if s.trc.lastTop = some top then s
    else (fun s : State => { s with trc := { s.trc with lastTop := some top } }) (tracePush (0x03000000 + top) s)
  let s := if s.trc.lastMid = some mid then s
    else (fun s : State => { s with trc := { s.trc with lastMid := some mid } }) (tracePush (0x02000000 + mid) s)
  if s.trc.lastLo = some lo && decide (s.time.cclk < s.trc.loAt + 32) then s
  else (fun s : State => { s with trc := { s.trc with lastLo := some lo, loAt := s.time.cclk } })
    (tracePush (0x01000000 + lo) s)

/-- R561: the next time words are all three. -/
def traceForget (s : State) : State :=
  { s with trc := { s.trc with lastTop := none, lastMid := none, lastLo := none } }

/-- R562: words dropped count for the GAP and in TRC_DROPS. -/
def traceDrop (n : Nat) (s : State) : State :=
  bumpBy F.TRC_DROPS_COUNT 0 n { s with trc := { s.trc with gap := s.trc.gap + n } }

/-- R561, R562, R568: offer one producer word to the trace FIFO. -/
def traceOffer (w : Nat) (s : State) : State :=
  if !flag F.TRC_CTRL_ENABLE 0 s then s
  else if s.trc.fifo.length * 8 + s.trc.packing.length + 5 > 4096 * 8 then traceDrop 1 s
  else
    let s := if s.trc.gap = 0 then s
      else
        let s := tracePush (0x04000000 + min s.trc.gap 0xFFFFFF) s
        traceForget { s with trc := { s.trc with gap := 0 } }
    let s := tracePush w (traceTime s)
    { s with trc := { s.trc with wordAt := s.time.cclk } }

/-- R558: offer a sequencer word to the shared queue. -/
def seqWord (e event opcode seg : Nat) (s : State) : State :=
  if s.trc.seqq.length < 64 then
    { s with trc := { s.trc with
        seqq := s.trc.seqq ++ [0x20000000 + e * 2 ^ 22 + event * 2 ^ 20 + opcode % 256 * 2 ^ 12 + seg % 4096] } }
  else traceDrop 1 s

/-! ### Event log queue (R540, R543) -/

/-- R540: TIME and FLAGS of an entry made now. Log 191 (DEDUCED). -/
def logTime (s : State) : Nat × Nat :=
  if running s then (nowNs s, 1) else ((s.time.cclk - s.tch.startedAt) * 5 / 8, 0)

/-- R543: queue an entry, or count it when the queue is full. -/
def logPush (kind : Nat) (data : Bytes) (s : State) : State :=
  let t := logTime s
  if s.tch.queue.length < 256 then
    { s with tch := { s.tch with queue := s.tch.queue ++ [(kind, fitTo 24 data, t.1, t.2)] } }
  else { s with tch := { s.tch with lost := s.tch.lost + 1 } }

/-- R570: mode codes. -/
def Mode.code : Mode → Nat
  | .off => 0 | .boot => 1 | .configure => 2 | .operate => 3 | .standby => 4 | .lockdown => 5

/-- R571, R572: enter a mode, with its log entry. -/
def enterMode (m : Mode) (cause : Nat) (s : State) : State :=
  let old := s.mode
  let s := { s with mode := m }
  let s := fset F.GLB_MODE_MODE 0 m.code s
  if m = .off then s else logPush 2 [BitVec.ofNat 8 old.code, BitVec.ofNat 8 m.code, BitVec.ofNat 8 cause] s

/-! ### Reach of a host access (R441, R581, R604) -/

/-- R602: the register lies in a block that is served before CONFIGURE is reached (R581). -/
def bootBlock (r : Reg) : Bool :=
  let b := r.layout.base
  decide (b < 0x001000000) && (decide (b < 0x100000) || (decide (0x100000 ≤ b) && decide (b < 0x200000)) ||
    (decide (0x800000 ≤ b) && decide (b < 0x900000)))

/-- R604: blocks that a write reaches in LOCKDOWN. -/
def lockdownBlock (r : Reg) : Bool :=
  let b := r.layout.base
  decide (b < 0x1000000) || (decide (0x3100000 ≤ b) && decide (b < 0x3800000)) ||
    (decide (0x3800000 ≤ b) && decide (b < 0x3900000))

/-- R447: the link is down or in L2/L3 Ready, so no request passes; a function is then in D3cold. -/
def linkCold (s : State) : Bool := s.pcie.link == .l2Ready || s.pcie.link == .down

/-- R581, R582, R604: registers are served in this mode. -/
def modeOpen (s : State) : Bool :=
  !(s.mode == .off || s.mode == .standby) && !flag F.GLB_MODE_BOARD_TEST 0 s && !s.power.inReset

/-- R582, R604: host requests pass: the mode serves them and the link is up. -/
def busOpen (s : State) : Bool := modeOpen s && !linkCold s

/-- R581, R604: the mode lets an access reach the register. -/
def modeServes (write : Bool) (r : Reg) (s : State) : Bool :=
  modeOpen s && (s.power.configured || bootBlock r) &&
    (!(write && s.mode == .lockdown) || lockdownBlock r || r.layout.bar4)

/-- The link and the mode let a host access reach the register. Log 16 (DEDUCED). -/
def modeReach (write : Bool) (r : Reg) (s : State) : Bool := modeServes write r s && !linkCold s

/-- The stream context as it stands (R262). -/
def strm (k : Nat) (s : State) : Stream := Tab.get Stream.init s.coding.sc k
/-- Change a stream context. -/
def strmMod (k : Nat) (f : Stream → Stream) (s : State) : State :=
  { s with coding := { s.coding with sc := Tab.mod Stream.init s.coding.sc k f } }
/-- R262: state code of a stream context. -/
def scState (k : Nat) (s : State) : Nat := fget F.SC_STATE_STATE k s

/-- R441: the registers of an instance belong to VF function `fn` (1 to 64). -/
def vfOwns (fn : Nat) (r : Reg) (i : Nat) (s : State) : Bool :=
  match r with
  | .GLB_ID | .CG_ALLOC | .CG_OPEN_COUNT => true
  | .POOL_REQ | .POOL_RESP | .POOL_PTR_LO | .POOL_PTR_HI | .POOL_RET_LO | .POOL_RET_HI | .POOL_RET_RESP
  | .POOL_BAD_RET => true
  | .SC_RING_LO | .SC_RING_HI | .SC_RING_CFG | .SC_DOORBELL | .SC_HEAD | .SC_STATE | .SC_STAT_HEAD | .SC_STAT_TAIL =>
    scState i s != 0 && (strm i s).fn == fn
  | .DC_CTRL | .DC_STATUS | .DC_HINGE_CNT | .DC_SHD_STAMP | .DC_BYTES | .DC_BYTES_HI | .DC_RING_LO | .DC_RING_HI
  | .DC_RING_CFG | .DC_RING_TAIL | .DC_RING_HEAD => fget F.HIF_DC_OWNER_OWNER i s == fn
  | .DC_SHD | .DC_ACT => fget F.HIF_DC_OWNER_OWNER (i / 16) s == fn
  | .CQ_BASE_LO | .CQ_BASE_HI | .CQ_CFG | .CQ_HEAD | .CQ_TAIL | .CQ_LOST | .CQ_STATUS =>
    fget F.HIF_CQ_OWNER_OWNER i s == fn
  | .INT_GRP_CFG | .INT_GRP_HOLDOFF | .INT_GRP_CTRL | .INT_GRP_STATUS | .INT_GRP_LEFT | .INT_GRP_SENT | .INT_GRP_PME =>
    fget F.INT_GRP_CFG_FUNCTION i s == fn
  | .INT_PEND | .INT_MASK | .INT_RAW | .INT_FORCE =>
    (List.range 32).any (fun b => fget F.INT_GRP_CFG_FUNCTION (srcGroup s.cfg (32 * i + b)) s == fn)
  | .CE_WIN_CFG | .CE_WIN_CTRL => true
  | .CE_WIN_STATUS => flag F.CE_WIN_STATUS_ALLOCATED i s && fget F.CE_WIN_STATUS_OWNER i s == fn
  | .HIF_FUNC_PM => i == fn
  | _ => false

/-- R441: the function reaches the register; a VF reads its HIF_FUNC_PM and GLB_ID only. Log 16 (DEDUCED). -/
def fnReach (fn : Nat) (write : Bool) (r : Reg) (i : Nat) (s : State) : Bool :=
  fn == 0 || (vfOwns fn r i s && !(write && (r == .HIF_FUNC_PM || r == .GLB_ID)))

/-- R441: the bits of an interrupt source word that a function reaches. -/
def srcBits (fn w : Nat) (s : State) : Nat :=
  if fn = 0 then 0xFFFFFFFF
  else (List.range 32).foldl (fun m b =>
    if fget F.INT_GRP_CFG_FUNCTION (srcGroup s.cfg (32 * w + b)) s == fn then m + 2 ^ b else m) 0

/-- An access that is turned away (R441, R442): HIF_DENIED advances. -/
def denied (s : State) : State := bump F.HIF_DENIED_COUNT 0 s

/-- A host write to a register, when the mode and the function reach it. Log 16 (DEDUCED). -/
def hostWr (fn : Nat) (r : Reg) (i : Nat) (s : State) (k : State → State) : State :=
  if !modeReach true r s then s
  else if fnReach fn true r i s then k s
  else denied s

/-- A host read of a register, when the mode and the function reach it; otherwise 0 is returned (R441, R581). Log 16
(DEDUCED). -/
def hostRd (fn : Nat) (r : Reg) (i : Nat) (s : State) (k : State → Nat × State) : State :=
  if !modeReach false r s then emit (.readData fn 0) s
  else if fnReach fn false r i s then
    let x := k s
    emit (.readData fn x.1) x.2
  else emit (.readData fn 0) (denied s)

/-- R602: the pipeline slice of a port, four octets to a slice (R12). -/
def sliceOfPort (p : Nat) : Nat := p / 32

end Sys2Proof.Machine
end

