-- ==== Sys2Proof/Machine/Arbiter.lean ====
section
/-! DEFINITION. The HBM arbiter (R23 to R27) and the passes of background work (R30, R31): requests wait by class, one
burst is in flight at a time, and a core cycle in which no command waits ends it and issues the next. -/
namespace Sys2Proof.Machine

/-! ### Requests (R23) -/

/-- R23: requester numbers at the arbiter: 0 the essence engine, 1 + e coding engine e, 64 + c DMA channel c, 128 the
pool manager, 129 the telemetry dump, 130 the patrol scrub. Log 195 (DESIGN CHOICE). -/
def whoEngine (e : Nat) : Nat := 1 + e
/-- Requester number of a DMA channel. -/
def whoDma (c : Nat) : Nat := 64 + c

/-- R23: a requester asks for a burst in a class: 0 A, 1 B, 2 C, 3 D. Log 195 (DESIGN CHOICE). -/
def hbmAsk (cls who : Nat) (s : State) : State :=
  let r : HbmReq := { cls := cls, who := who, bank := Config.hbmBank who s.time.cclk, since := s.time.cclk, raised := false }
  { s with hbm := { s.hbm with waiting := s.hbm.waiting ++ [r] } }

/-- R27: a bank cannot take a burst until its refresh has ended. -/
def bankBusy (b : Nat) (s : State) : Bool := decide (s.time.cclk < Tab.get 0 s.hbm.refresh b)

/-- R27: class A requests to the bank are queued, so its refresh is postponed. -/
def refreshPostponed (b : Nat) (s : State) : Bool := s.hbm.waiting.any (fun r => r.cls == 0 && r.bank == b)

/-! ### Service (R23 to R25) -/

/-- Requests of a class that a bank can take, oldest first. -/
def canServe (cls : Nat) (s : State) : List HbmReq := s.hbm.waiting.filter (fun r => r.cls == cls && !bankBusy r.bank s)

/-- R25: of the class A requesters that wait, the next in the round after the one served last. -/
def roundRobin (last : Nat) (l : List HbmReq) : Option HbmReq :=
  let next := fun (l : List HbmReq) => l.foldl (fun (m : Option HbmReq) r => match m with
    | some q => if r.who < q.who then some r else m
    | none => some r) none
  (next (l.filter (fun r => decide (last < r.who)))).orElse (fun _ => next l)

/-- R23, R25: the request that is issued next. Log 195 (DESIGN CHOICE). -/
def arbPick (s : State) : Option HbmReq :=
  ((((roundRobin s.hbm.turn (canServe 0 s)).orElse (fun _ => (canServe 1 s).head?)).orElse
    (fun _ => (canServe 2 s).head?)).orElse (fun _ => (canServe 3 s).head?))

/-- R24: the burst in flight ends, never interrupted, and the next is issued. Log 195 (DESIGN CHOICE). -/
def arbCycle (s : State) : State :=
  match arbPick s with
  | none => { s with hbm := { s.hbm with inFlight := none } }
  | some r =>
    { s with hbm := { s.hbm with waiting := s.hbm.waiting.erase r, inFlight := some r,
                                 turn := if r.cls = 0 then r.who else s.hbm.turn } }

/-! ### Promotion and refresh (R26, R27) -/

/-- R26: 20 µs in core cycles. -/
def promoteAfter : Nat := 32000

/-- R26: the request may be raised: its class is `cls`, it has not been raised, and it has waited 20 µs. -/
def mayRaise (cls now : Nat) (r : HbmReq) : Bool := r.cls == cls && !r.raised && decide (r.since + promoteAfter ≤ now)

/-- R26: raise the first request that may be, by one class and never into class A. Log 195 (DESIGN CHOICE). -/
def raiseFirst (cls now : Nat) : List HbmReq → List HbmReq
  | [] => []
  | r :: l => if mayRaise cls now r then { r with cls := max 1 (cls - 1), raised := true } :: l else r :: raiseFirst cls now l

/-- HBM_PROMOTION (R26): the oldest request of class B, C or D that has waited 20 µs is raised by one class for its
burst; one of class B stays in class B. Log 195 (DESIGN CHOICE). -/
def execHbmPromotion (cls : Fin 3) (s : State) : Host.Outcome State Fault Refusal :=
  .next { s with hbm := { s.hbm with waiting := raiseFirst (cls.val + 1) s.time.cclk s.hbm.waiting } }

/-- HBM_REFRESH_FORCED (R27): the refresh of a bank that queued class A requests postpone has reached its limit: it is
issued, and the bank takes no burst for 190 ns, 304 cclk. HBM keeps its contents. Log 195 (DESIGN CHOICE). -/
def execHbmRefreshForced (bank : Nat) (s : State) : Host.Outcome State Fault Refusal :=
  .next (if refreshPostponed bank s then
      { s with hbm := { s.hbm with refresh := Tab.put s.hbm.refresh bank (s.time.cclk + 304) } }
    else s)

/-! ### Passes (R30, R31) -/

/-- R30: pass `key` begins: at once the first time, and then a period after the last one began. Log 196 (DEDUCED). -/
def passBegin (key period : Nat) (s : State) : State :=
  let s := match Tab.find? s.hbm.pass key with
    | some c => reachCclk (c + period) s
    | none => s
  { s with hbm := { s.hbm with pass := Tab.put s.hbm.pass key s.time.cclk } }

/-- SRAM_PATROL_SCRUB (R30): a pass over packet buffer, tables and scratch begins, every 200 ms; it takes idle SRAM
cycles only, and an error that it meets is SRAM_ERROR. Log 196 (DEDUCED). -/
def execSramPatrolScrub (s : State) : Host.Outcome State Fault Refusal :=
  .next (if s.mode = .off then s else passBegin 0 320000000 s)

/-- HBM_PATROL_SCRUB (R30): a pass over HBM begins, every 6 h, with class D requests; an error that it meets is
HBM_CORRECTABLE_ERROR or HBM_UNCORRECTABLE_ERROR. Log 196 (DEDUCED). -/
def execHbmPatrolScrub (s : State) : Host.Outcome State Fault Refusal :=
  .next (if s.mode = .off then s else hbmAsk 3 130 (passBegin 1 34560000000000 s))

/-- SERDES_ADAPTATION (R30): a lane's receiver adapts, every 10 ms, without disturbing its traffic. Log 196
(DEDUCED). -/
def execSerdesAdaptation (lane : Fin 280) (s : State) : Host.Outcome State Fault Refusal :=
  .next (if s.mode = .off then s else passBegin (8 + lane.val) 16000000 s)

end Sys2Proof.Machine
end

