-- ==== Sys2Proof/Machine/Buffer.lean ====
section
/-! DEFINITION. The shared buffer (chapter 05): cells, admission, ECN, the copies of a frame and what their end releases,
and the postcards of tagged copies (R556, R557). -/
namespace Sys2Proof.Machine

/-- R189: cells of a frame of length `len`. -/
def cellsOf (len : Nat) : Nat := ceilDiv len 256

/-- R91: the frame is EAPOL. -/
def isEapol (b : Bytes) : Bool := fieldBE b 12 2 == 0x888E

/-- R83: SecTAG and ICV that a frame gets at an egress port. -/
def secLen (p : Nat) (b : Bytes) (c : Cfg) : Nat := if portMacsec c p && !isEapol b then 32 else 0

/-- R83: frame length of a copy, with its FCS and, at a MACsec port, its SecTAG and ICV. -/
def Copy.len (c : Copy) : Nat := c.bytes.length + c.ovh + 4

/-- R83, R189: a copy for egress port `p` and leaf `q`, of the length that it has there. -/
def Copy.toward (c : Copy) (p q : Nat) (cfg : Cfg) : Copy :=
  let o := secLen p c.bytes cfg
  { c with egr := p, leaf := q, ovh := o, cells := cellsOf (c.bytes.length + o + 4) }

/-- R221: shared cells in use. -/
def sharedUsed (s : State) : Nat := fget F.TM_SHARED_USED_CELLS 0 s

/-- R221: set the shared cells in use, keeping the peak. -/
def setShared (v : Nat) (s : State) : State :=
  let s := fset F.TM_SHARED_USED_CELLS 0 v s
  fset F.TM_SHARED_PEAK_CELLS 0 (max v (fget F.TM_SHARED_PEAK_CELLS 0 s)) s

/-- MIN_CELLS of a leaf, 0 without a record. -/
def leafMin (q : Nat) (s : State) : Nat := ((leafRec s.cfg q).map lfMin).getD 0

/-- R193: cells beyond a leaf's minimum. -/
def overMin (cells minCells : Nat) : Nat := cells - minCells

/-- R193: the admission test for `c` cells at occupancy `occ`, minimum `m` and ALPHA_CODE `a`. -/
def admits (occ c m a free : Nat) : Bool :=
  let used := overMin occ m
  let need := overMin (occ + c) m - used
  need == 0 || (decide (need ≤ free) && decide ((used + need) * 128 ≤ 2 ^ a * free))

/-- R193: shared cells free. -/
def sharedFree (s : State) : Nat := carveShared s.cfg - sharedUsed s

/-- Occupancy of a leaf in cells (R224). -/
def leafDepth (q : Nat) (s : State) : Nat := fget F.TM_LEAF_DEPTH_CELLS q s

/-- Unicast cells of a leaf. -/
def leafUni (q : Nat) (s : State) : Nat := Tab.get 0 s.tm.occ q

/-- Set the unicast cells of a leaf; its shared use follows (R193). -/
def setLeafUni (q v : Nat) (s : State) : State :=
  let m := leafMin q s
  let before := overMin (leafUni q s) m
  let s := setShared (sharedUsed s - before + overMin v m) s
  { s with tm := { s.tm with occ := Tab.set 0 s.tm.occ q v } }

/-- A leaf's queue. -/
def leafQueue (q : Nat) (s : State) : List Copy := Tab.get [] s.tm.queues q

/-- Keys of the shaping nodes: ports, class nodes, leaves and tenant policers. -/
def portKey (p : Nat) : Nat := p
def classKey (p k : Nat) : Nat := 1000 + 8 * p + k
def leafKey (q : Nat) : Nat := 10000 + q
def tenantKey (t : Nat) : Nat := 50000 + t
/-- R205: key of a leaf's deficit. -/
def leafDefKey (q : Nat) : Nat := 100000 + q

/-- R205: a member that begins to hold frames takes its turn after those that wait. Log 90 (DEDUCED). -/
def drrJoin (ring m : Nat) (s : State) : State :=
  if (Tab.get [] s.tm.rounds ring).contains m then s
  else { s with tm := { s.tm with rounds := Tab.mod [] s.tm.rounds ring (· ++ [m]) } }

/-- R206: a member whose queue empties has its deficit set to 0; it leaves the round. -/
def drrEmptied (ring m key : Nat) (s : State) : State :=
  { s with tm := { s.tm with deficit := Tab.del s.tm.deficit key, granted := Tab.del s.tm.granted key
                             rounds := Tab.mod [] s.tm.rounds ring (fun l => l.filter (fun x => x != m)) } }

/-- The class of a port holds a frame. -/
def classHolds (p k : Nat) (s : State) : Bool := s.tm.queues.any (fun x => x.2.any (fun c => c.egr == p && c.cls == k))

/-- R205, R206, R217: set a leaf's queue; an empty queue ends its stall and its deficit, and a queue that ceases to be
empty starts its stall time. -/
def setLeafQueue (q : Nat) (l : List Copy) (s : State) : State :=
  let old := leafQueue q s
  let s := { s with tm := { s.tm with queues := Tab.set [] s.tm.queues q l } }
  if l.isEmpty then
    let s := match old with
      | c :: _ =>
        let s := drrEmptied (classKey c.egr c.cls) q (leafDefKey q) s
        if classHolds c.egr c.cls s then s else drrEmptied (portKey c.egr) c.cls (classKey c.egr c.cls) s
      | [] => s
    setFlag F.TM_LEAF_STATUS_STALLED q false { s with tm := { s.tm with lastSent := Tab.del s.tm.lastSent q } }
  else if old.isEmpty then
    let s := { s with tm := { s.tm with lastSent := Tab.put s.tm.lastSent q s.time.cclk } }
    match l with
    | c :: _ => drrJoin (portKey c.egr) c.cls (drrJoin (classKey c.egr c.cls) q s)
    | [] => s
  else s

/-! ### Postcards (R556, R557) -/

/-- R557: fates of a copy. -/
inductive Fate where
  | sent | dropped | essence | punt | faush | flushed
  deriving DecidableEq, Repr

def Fate.code : Fate → Nat
  | .sent => 0 | .dropped => 1 | .essence => 2 | .punt => 3 | .faush => 4 | .flushed => 5

/-- R557: the 160-bit payload of a postcard. -/
def postcardBits (c : Copy) (f : Fate) (tOut : Nat) : Nat :=
  let reachedEgress := f == .sent
  c.ingMac % 256 + (if reachedEgress then c.egr % 256 else 0xFF) * 2 ^ 8 + c.leaf % 2 ^ 15 * 2 ^ 16 + f.code * 2 ^ 31
    + c.len % 2 ^ 14 * 2 ^ 34 + c.tIn % 2 ^ 32 * 2 ^ 48
    + (if c.tEnq = 0 then 0 else min (c.tEnq - c.tIn) 0xFFFF) * 2 ^ 80 + min c.depth 0xFFFF * 2 ^ 96
    + (if c.tDeq = 0 then 0 else min (c.tDeq - c.tIn) 0xFFFFFF) * 2 ^ 112
    + (if tOut = 0 then 0 else min (tOut - c.tIn) 0xFFFFFF) * 2 ^ 136

/-- R557: the eight words of a postcard. -/
def postcardWords (tag p : Nat) : List Nat :=
  (List.range 8).map (fun w => 0x30000000 + w * 2 ^ 25 + tag % 32 * 2 ^ 20 + bits p (20 * w + 19) (20 * w))

/-- R556: emit the postcard of a tagged copy; a full queue discards its eight words, which count as drops. Log 188
(DEDUCED). -/
def postcard (c : Copy) (f : Fate) (tOut : Nat) (s : State) : State :=
  if !c.tagged then s
  else if s.trc.postcards.length + 8 ≤ 512 then
    { s with trc := { s.trc with
        postcards := s.trc.postcards ++ postcardWords s.trc.tag (postcardBits c f tOut), tag := s.trc.tag + 1 } }
  else traceDrop 8 { s with trc := { s.trc with tag := s.trc.tag + 1 } }

/-! ### Frames in flight (R181) and the end of a copy -/

/-- One copy of a frame has gone; with the last one the frame's epochs, its data cells and its record are released
(R181, R195), and a frame none of whose copies left a port counts in bin 31 (R550). Log 86 (DEDUCED). -/
def copyGone (n : Nat) (left : Bool) (s : State) : State :=
  match Tab.find? s.pipe.flights n with
  | none => s
  | some f =>
    let f := { f with copies := f.copies - 1, leftPort := f.leftPort || left }
    if f.copies = 0 then
      let s := { s with pipe := { s.pipe with flights := Tab.del s.pipe.flights n } }
      let s := if f.dataCells = 0 then s else setShared (sharedUsed s - f.dataCells) s
      let s := if f.record then { s with tm := { s.tm with mcastUsed := s.tm.mcastUsed - 1 } } else s
      if f.fromPort && !f.leftPort then histCnt f.ingMac 31 s else s
    else { s with pipe := { s.pipe with flights := Tab.put s.pipe.flights n f } }

/-- R193, R195: the cells of a queued copy return. -/
def releaseCells (c : Copy) (s : State) : State :=
  let s := fset F.TM_LEAF_DEPTH_CELLS c.leaf (leafDepth c.leaf s - c.cells) s
  if c.mcast then s else setLeafUni c.leaf (leafUni c.leaf s - c.cells) s

/-- R198: a copy is dropped at its leaf: cells and epochs released, counted in the leaf's drop counter. -/
def leafDropCount (q len : Nat) (s : State) : State :=
  leafCnt q 3 len (leafCnt q 2 1 (bump F.TM_LEAF_DROP_COUNT q s))

/-- R86, R181: discard a queued copy with its leaf's drop counter. -/
def dropQueued (c : Copy) (s : State) : State :=
  copyGone c.frame false (postcard c .dropped 0 (leafDropCount c.leaf c.len (releaseCells c s)))

/-- R218: remove a queued copy by a flush. -/
def flushQueued (c : Copy) (s : State) : State :=
  copyGone c.frame false (postcard c .flushed 0 (bump F.TM_LEAF_FLUSHED_COUNT c.leaf (releaseCells c s)))

/-- A list of copies, each put through an operation. -/
def eachCopy (f : Copy → State → State) (l : List Copy) (s : State) : State := l.foldl (fun s c => f c s) s

/-! ### ECN (R197) -/

/-- Set the IPv4 header checksum of a header at `o`. -/
def fixIp4 (b : Bytes) (o : Nat) : Bytes :=
  let h := slice b o (byteAt b o % 16 * 4)
  splice b (o + 10) (beBytes 2 (inetChecksum (splice h 10 [0#8, 0#8])))

/-- R197: the ECN field of an L3 header at `o` (version 4 or 6). -/
def ecnOf (b : Bytes) (o : Nat) (v6 : Bool) : Nat :=
  if v6 then byteAt b (o + 1) / 16 % 4 else byteAt b (o + 1) % 4

/-- R197: set the field to CE. -/
def setCe (b : Bytes) (o : Nat) (v6 : Bool) : Bytes :=
  if v6 then splice b (o + 1) [BitVec.ofNat 8 (byteAt b (o + 1) % 64 % 16 + byteAt b (o + 1) / 64 * 64 + 48)]
  else fixIp4 (splice b (o + 1) [BitVec.ofNat 8 (byteAt b (o + 1) / 4 * 4 + 3)]) o

/-- R192, R207: tokens of a node; one that was never refilled stands at its full BURST. Log 90 (DEDUCED). -/
def nodeTokens (k burst : Nat) (s : State) : Int := Tab.get (burst * 16 : Int) s.tm.tokens k

/-- R207: charge a frame of length `len` at a node. -/
def nodeCharge (k burst len : Nat) (s : State) : State :=
  let t := nodeTokens k burst s - ((len + fget F.TM_CTRL_SHAPE_OVERHEAD 0 s) * 16 : Nat)
  { s with tm := { s.tm with tokens := Tab.put s.tm.tokens k t } }

/-- R208: RATE, BURST and ENABLE in force at a node since its last refill. -/
def nodeApplied (k : Nat) (s : State) : Nat × Nat × Bool := Tab.get (0, 0x2600, false) s.tm.applied k

/-- R207: the node has tokens; a disabled shaper always does. Log 91 (DEDUCED). -/
def nodeOpen (k : Nat) (s : State) : Bool :=
  let a := nodeApplied k s
  !a.2.2 || decide (0 < nodeTokens k a.2.1 s)

/-- R207: a frame passes an enabled node. Log 91 (DEDUCED). -/
def nodePass (k len : Nat) (s : State) : State :=
  let a := nodeApplied k s
  if a.2.2 then nodeCharge k a.2.1 len s else s

/-- The L3 header of a frame: its offset and whether it is IPv6; none for other frames (R140). -/
abbrev L3 := Option (Nat × Bool)

/-- R193, R197: put an admitted copy in its leaf, counting its cells and marking it when the depth is above
ECN_CELLS. Log 87 (DEDUCED). -/
def enqueueCopy (c : Copy) (l3 : L3) (s : State) : State :=
  let d := leafDepth c.leaf s + c.cells
  let s := fset F.TM_LEAF_DEPTH_CELLS c.leaf d s
  let s := if c.mcast then s else setLeafUni c.leaf (leafUni c.leaf s + c.cells) s
  let ecn := ((leafRec s.cfg c.leaf).map lfEcn).getD 0
  let c := { c with tEnq := nowNs s, depth := d, enqAt := s.time.cclk }
  match l3 with
  | some (o, v6) =>
    let e := ecnOf c.bytes o v6
    if ecn != 0 && decide (d > ecn) && (e == 1 || e == 2) then
      let s := macCnt c.egr 22 1 (bump F.TM_LEAF_ECN_COUNT c.leaf s)
      setLeafQueue c.leaf (leafQueue c.leaf s ++ [{ c with bytes := setCe c.bytes o v6 }]) s
    else setLeafQueue c.leaf (leafQueue c.leaf s ++ [c]) s
  | none => setLeafQueue c.leaf (leafQueue c.leaf s ++ [c]) s

/-- A copy that ends before it was queued: its postcard, and its frame is told. -/
def endCopy (c : Copy) (f : Fate) (s : State) : State := copyGone c.frame false (postcard c f 0 s)

/-- R71: the pending delta removes the leaf. -/
def leafRemoved (q : Nat) (s : State) : Bool :=
  flag F.IMG_STATUS_DELTA_PENDING 0 s && secHas s.loader.pend 6 && (leafRec s.loader.pend q).isNone

/-- R191 to R197: a copy reaches its leaf: leaf check, MAC drain (R86), tenant policer, admission, enqueue. A
multicast copy is tested with MIN_CELLS 0 (R195). Log 87 (DEDUCED). Log 211 (DESIGN CHOICE). -/
def admitCopy (c : Copy) (l3 : L3) (s : State) : State :=
  match leafRec s.cfg c.leaf with
  | none => endCopy c .dropped (bump F.TM_NO_LEAF_COUNT 0 s)
  | some r =>
    if lfPort r != c.egr then
      endCopy c .dropped (if c.mcast then bump F.TM_NO_LEAF_COUNT 0 s else bump F.TM_LEAF_MISMATCH_COUNT 0 s)
    else if flag F.MAC_STATUS_DRAINING c.egr s then endCopy c .dropped (macCnt c.egr 23 1 (leafDropCount c.leaf c.len s))
    else if leafRemoved c.leaf s then endCopy c .dropped (leafDropCount c.leaf c.len s)
    else
      let tk := tenantKey (lfTenant r)
      if !nodeOpen tk s then endCopy c .dropped (bump F.TM_POL_DROP_COUNT (lfTenant r) s)
      else
        let s := nodePass tk c.len s
        let m := if c.mcast then 0 else lfMin r
        if admits (leafDepth c.leaf s) c.cells m (lfAlpha r) (sharedFree s) then
          enqueueCopy { c with cls := if c.clsSet then c.cls else lfClass r } l3 s
        else endCopy c .dropped (leafDropCount c.leaf c.len s)

/-- A copy that carries nothing of its way yet. -/
def Copy.blank : Copy :=
  { frame := 0, bytes := [], leaf := 0, egr := 0, cls := 0, cells := 0, mcast := false, bad := false, cutThrough := false,
    ingMac := 0, tIn := 0, tEnq := 0, tDeq := 0, depth := 0, tagged := false, ovh := 0, enqAt := 0, clsSet := false, flHdr := [] }

/-- R193: shared use follows MIN_CELLS when a change of the configuration `old` gives leaves other minimums. -/
def sharedRecount (old : Cfg) (s : State) : State :=
  s.tm.occ.foldl (fun s x =>
    let m := ((leafRec old x.1).map lfMin).getD 0
    setShared (sharedUsed s - overMin x.2 m + overMin x.2 (leafMin x.1 s)) s) s

/-- R172, R181, R190: Tchien accepts the oldest frame of its queue, which lets go of its control cells. Log 212 (DESIGN
CHOICE). -/
def puntAccept (s : State) : State :=
  match s.pipe.punts with
  | [] => s
  | (n, c) :: r =>
    copyGone n false { s with pipe := { s.pipe with punts := r }, tm := { s.tm with controlUsed := s.tm.controlUsed - c } }

/-- R182: the smallest epoch that a frame in flight holds in a bank, TBL_EPOCH when none does. -/
def drainEpoch (b : Nat) (s : State) : Nat :=
  let es := (s.pipe.flights.flatMap (fun p => p.2.epochs)).filterMap (fun e => if e.1 = b then some e.2 else none)
  match es with
  | [] => fget F.TBL_EPOCH_EPOCH b s
  | e :: r => r.foldl (fun m x => if atOrAfter32 m x then x else m) e

end Sys2Proof.Machine
end

