-- ==== Sys2Proof/Machine/Pool.lean ====
section
/-! DEFINITION. Buffer pools (R410 to R416) and scratch windows (R395, R405 to R408). -/
namespace Sys2Proof.Machine

/-- R410: bytes of a pool. -/
def poolBytes (c : Cfg) (p : Nat) : Nat := poolCount c p * 2 ^ poolLog2 c p

/-- R410: device address of the first buffer of a pool: P7 first, P0 last. -/
def poolBase (c : Cfg) (p : Nat) : Nat := ((List.range 8).map (fun j => if p < j then poolBytes c j else 0)).sum

/-- R410: the pool that holds an address of the pool region. -/
def poolOf (c : Cfg) (a : Nat) : Option Nat :=
  (List.range 8).find? (fun p => decide (poolBase c p ≤ a) && decide (a < poolBase c p + poolBytes c p))

/-- R395: every byte of a range lies inside the pools. -/
def inPools (c : Cfg) (a n : Nat) : Bool := decide (a + n ≤ poolBase c 0 + poolBytes c 0)

/-- R414: state bits of a buffer. -/
def bufState (a : Nat) (s : State) : Nat := Tab.get 0 s.mem.buf a
def bufAllocated (a : Nat) (s : State) : Bool := bit (bufState a s) 15
def bufSealed (a : Nat) (s : State) : Bool := bit (bufState a s) 14
def bufOwner (a : Nat) (s : State) : Nat := bufState a s % 128
/-- R414: set a buffer's state. -/
def setBuf (a : Nat) (alloc sld : Bool) (owner : Nat) (s : State) : State :=
  { s with mem := { s.mem with buf := Tab.set 0 s.mem.buf a (b2n alloc * 2 ^ 15 + b2n sld * 2 ^ 14 + owner % 128) } }

/-- The buffer that holds an address of the pool region. -/
def bufAt (c : Cfg) (a : Nat) : Option Nat :=
  (poolOf c a).map (fun p => a - (a - poolBase c p) % 2 ^ poolLog2 c p)

/-- R397, R414: HBM address of the state of the buffer at `a`; the parts above 64 GiB lie in the order of R397. -/
def bufStateAddr (c : Cfg) (a : Nat) : Nat :=
  match poolOf c a with
  | none => 0
  | some p =>
    let before := ((List.range 8).map (fun j => if p < j then poolCount c j else 0)).sum
    64 * 2 ^ 30 + (272 + 16 + 4096) * 2 ^ 20 + 2 * (before + (a - poolBase c p) / 2 ^ poolLog2 c p)

/-- R412, R417: free buffers of a pool. -/
def poolFree (p : Nat) (s : State) : Nat := fget F.POOL_FREE_COUNT p s

/-- R417: set POOL_FREE, keeping the lowest since the last read. -/
def setPoolFree (p v : Nat) (s : State) : State :=
  let s := fset F.POOL_FREE_COUNT p v s
  fset F.POOL_MIN_FREE_COUNT p (min v (fget F.POOL_MIN_FREE_COUNT p s)) s

/-- The k-th index that is not in a rising list. -/
def nthAbsent (k : Nat) (l : List Nat) : Nat := l.foldl (fun i t => if t ≤ i then i + 1 else i) k

/-- Insert into a rising list. -/
def insertRising (n : Nat) : List Nat → List Nat
  | [] => [n]
  | k :: r => if n < k then n :: k :: r else if n = k then k :: r else k :: insertRising n r

/-- R412: the buffer that a pool hands out next: the one most recently returned, else one that was never handed out
(which of those the manual leaves open: a free value). -/
def poolPick (p : Nat) (s : State) : Nat × State :=
  match Tab.get [] s.mem.returned p with
  | a :: r => (a, { s with mem := { s.mem with returned := Tab.set [] s.mem.returned p r } })
  | [] =>
    let tch := Tab.get [] s.mem.touched p
    let d := freshValue 1 s
    let left := poolCount s.cfg p - tch.length
    let i := nthAbsent (if left = 0 then 0 else d.1 % left) tch
    let s := d.2
    (poolBase s.cfg p + i * 2 ^ poolLog2 s.cfg p,
      { s with mem := { s.mem with touched := Tab.set [] s.mem.touched p (insertRising i tch) } })

/-- The outcome of a request to the pool manager. -/
structure PoolAns where
  result : Nat
  pool : Nat
  addr : Nat
  deriving DecidableEq, Repr

/-- R411: the pools that could serve a request, smallest first. -/
def poolsFor (c : Cfg) (size : Nat) : List Nat :=
  (List.range 8).filter (fun p => decide (0 < poolLog2 c p) && decide (size ≤ 2 ^ poolLog2 c p))

/-- R411 to R414: take a buffer of at least `size` bytes for an owner; 5 when its state is poisoned (R403). -/
def poolTake (size owner : Nat) (sld : Bool) (s : State) : PoolAns × State :=
  let fit := poolsFor s.cfg size
  if size = 0 ∨ 268435456 < size ∨ fit = [] then (⟨6, 0, 0⟩, s)
  else
    match fit.find? (fun p => decide (0 < poolFree p s)) with
    | none => (⟨1, 0, 0⟩, s)
    | some p =>
      let x := poolPick p s
      if poisonedIn (bufStateAddr s.cfg x.1) 2 s then (⟨5, 0, 0⟩, s)
      else
        let s := setBuf x.1 true sld owner (setPoolFree p (poolFree p x.2 - 1) x.2)
        let s := if fit.head? = some p then s else bump F.POOL_FALLBACK_COUNT p s
        (⟨0, p, x.1⟩, s)

/-- Write `n` zero bytes from `a` on: the bytes there are no longer listed. -/
def zeroMem (a n : Nat) (s : State) : State :=
  { s with mem := { s.mem with cells := s.mem.cells.filter (fun c => !(decide (a ≤ c.1) && decide (c.1 < a + n))) } }

/-- R412, R415, R416: a buffer returns to its pool; a SEALED one is first written with zeros. -/
def poolPut (a : Nat) (s : State) : State :=
  match poolOf s.cfg a with
  | none => s
  | some p =>
    if !bufAllocated a s then s
    else
      let s := if bufSealed a s then zeroMem a (2 ^ poolLog2 s.cfg p) s else s
      let s := setBuf a false false 0 s
      let s := setPoolFree p (poolFree p s + 1) s
      { s with mem := { s.mem with returned := Tab.set [] s.mem.returned p (a :: Tab.get [] s.mem.returned p) } }

/-- R443: bytes of pool buffers that a function owns. -/
def ownedBytes (fn : Nat) (s : State) : Nat :=
  ((s.mem.buf.filter (fun b => bit b.2 15 && b.2 % 128 == fn)).map
    (fun b => match poolOf s.cfg b.1 with | some p => 2 ^ poolLog2 s.cfg p | none => 0)).sum

/-- R374, R375: picture buffers that a decode context holds. -/
def decBufs (c : Stream) : List Nat :=
  (((c.dpb.map (fun (p : DpbPic) => p.buf)).filter (· != 0)).map (· - 1) ++ c.hostBufs).eraseDups

/-- R443: bytes of decoder picture buffers that the contexts of a function hold. -/
def decoderBytes (fn : Nat) (s : State) : Nat :=
  ((s.coding.sc.filter (fun (x : Nat × Stream) => x.2.fn == fn && x.2.kind == 1)).map (fun (x : Nat × Stream) =>
    ((decBufs x.2).map
      (fun a => match poolOf s.cfg a with | some p => 2 ^ poolLog2 s.cfg p | none => 0)).sum)).sum

/-- R443: the function's quota admits `n` more bytes; PF0 has none. -/
def quotaAllows (fn n : Nat) (s : State) : Bool :=
  fn == 0 || decide (ownedBytes fn s + decoderBytes fn s + n ≤ fget F.HIF_VF_QUOTA_BUF_QUOTA_GIB (fn - 1) s * 2 ^ 30)

/-- R411: bytes of the buffer that would serve a request. -/
def wouldTake (size : Nat) (s : State) : Nat :=
  match (poolsFor s.cfg size).find? (fun p => decide (0 < poolFree p s)) with
  | some p => 2 ^ poolLog2 s.cfg p
  | none => 0

/-! ### Scratch windows -/

/-- Index of window `w` of engine `e` among register instances. -/
def winIdx (e w : Nat) : Nat := e * 8 + w

/-- R405: the window is claimed by the image. -/
def winClaimed (s : State) (i : Nat) : Bool := (winClaim s.cfg (i / 8) (i % 8)).isSome
/-- R405: the window is allocated at run time. -/
def winAllocd (s : State) (i : Nat) : Bool := flag F.CE_WIN_STATUS_ALLOCATED i s
/-- R395: the window exists. -/
def winExists (s : State) (i : Nat) : Bool := winClaimed s i || winAllocd s i

/-- R405: base and size of a window in bytes. -/
def winBase (s : State) (i : Nat) : Nat :=
  match winClaim s.cfg (i / 8) (i % 8) with
  | some r => wcBase r * 1024
  | none => fget F.CE_WIN_CFG_BASE_U i s * 16384
def winSize (s : State) (i : Nat) : Nat :=
  match winClaim s.cfg (i / 8) (i % 8) with
  | some r => wcSize r * 1024
  | none => fget F.CE_WIN_CFG_SIZE_U i s * 16384
/-- R405: USE of a window. -/
def winUse (s : State) (i : Nat) : Nat :=
  match winClaim s.cfg (i / 8) (i % 8) with
  | some r => wcUse r
  | none => Tab.get 0 s.mem.winUse i

/-- R407: memory address of an offset in a window, which wraps at the window's size. -/
def winAddr (s : State) (i off : Nat) : Nat :=
  scratchBase (i / 8) + winBase s i + (if winSize s i = 0 then 0 else off % winSize s i)

/-- Write bytes into a window from an offset, wrapping (R407). -/
def winWrite (i off : Nat) : Bytes → State → State
  | [], s => s
  | b :: r, s => winWrite i (off + 1) r (writeByte (winAddr s i off) b s)

/-- Read bytes of a window from an offset, wrapping (R407). -/
def winRead (i off n : Nat) (s : State) : Bytes := (List.range n).map (fun k => readByte (winAddr s i (off + k)) s)

/-- R53, R239, R335: the windows of an engine with a USE, lowest first. -/
def winsOf (s : State) (e use : Nat) : List Nat :=
  ((List.range 8).map (winIdx e)).filter (fun i => winExists s i && winUse s i == use)

/-- R340: write a window with zeros. -/
def winZero (i : Nat) (s : State) : State := zeroMem (scratchBase (i / 8) + winBase s i) (winSize s i) s

end Sys2Proof.Machine
end

