-- ==== Sys2Proof/Machine/Slots.lean ====
section
/-! DEFINITION. Line staging (R238 to R242): the geometry of a flow's lines and slots, the slots of a window, and the
readers of a staged row. -/
namespace Sys2Proof.Machine

/-- The context image of a flow (R234). -/
def fctx (c : Nat) (s : State) : Bytes := Tab.get [] s.ess.ctx c
/-- A field of a flow context. -/
def fx (c off n : Nat) (s : State) : Nat := fieldLE (fctx c s) off n
/-- Write bytes of a flow context. -/
def fxSet (c off : Nat) (b : Bytes) (s : State) : State :=
  { s with ess := { s.ess with ctx := Tab.set [] s.ess.ctx c (splice (fitTo 256 (fctx c s)) off b) } }
def fState (c : Nat) (s : State) : Nat := fx c 0 1 s
def fClass (c : Nat) (s : State) : Nat := fx c 1 1 s
def fEnabled (c : Nat) (s : State) : Bool := bit (fx c 2 2 s) 0
def fPending (c : Nat) (s : State) : Bool := bit (fx c 2 2 s) 1
/-- Set a bit of FLAGS. -/
def fFlag (c n : Nat) (b : Bool) (s : State) : State :=
  let v := fx c 2 2 s
  fxSet c 2 (leBytes 2 (v - (if bit v n then 2 ^ n else 0) + b2n b * 2 ^ n)) s
def fSetState (c v : Nat) (s : State) : State := fxSet c 0 (leBytes 1 v) s
/-- Record of the class of a flow. -/
def fEc (c : Nat) (s : State) : Bytes := (essClass s.cfg (fClass c s)).getD []
/-- R51: the flow is ingest. -/
def fIngest (c : Nat) (s : State) : Bool := ecDir (fEc c s) == 0
def fFlow (c : Nat) (s : State) : EssFlow := Tab.get EssFlow.init s.ess.flow c
def fFlowMod (c : Nat) (f : EssFlow → EssFlow) (s : State) : State :=
  { s with ess := { s.ess with flow := Tab.mod EssFlow.init s.ess.flow c f } }
/-- Window index of a flow. -/
def fWin (c : Nat) (s : State) : Nat := winIdx (fx c 4 1 s) (fx c 5 1 s)
/-- R257: add to a counter of a flow. -/
def fCnt (c k n : Nat) (s : State) : State := cntBy (c * 128 + k * 8) n s

/-- R51, R239: what the lines of a flow look like: size, ROW_LINES, SAMPLING and DEPTH of its class. -/
structure EssGeo where
  w : Nat
  h : Nat
  rl : Nat
  smp : Nat
  depth : Nat
  deriving DecidableEq, Repr

/-- The geometry of an essence class with a ROW_LINES. -/
def geoOf (ec : Bytes) (rl : Nat) : EssGeo := ⟨ecWidth ec, ecHeight ec, rl, ecSampling ec, ecDepth ec⟩

/-- R240: quad-plane raw. -/
def EssGeo.raw (g : EssGeo) : Bool := g.smp == 5

/-- R238: octets of a pgroup. -/
def EssGeo.pgOct (g : EssGeo) : Nat :=
  let pick := fun (a b c d : Nat) => if g.depth = 8 then a else if g.depth = 10 then b else if g.depth = 12 then c else d
  match g.smp with
  | 0 => pick 4 5 6 8
  | 1 => pick 6 15 9 12
  | 2 | 3 => pick 3 15 9 6
  | _ => pick 1 5 3 2

/-- R238: pixels of a pgroup along its line; a 4:2:0 pgroup spans a line pair. -/
def EssGeo.pgPix (g : EssGeo) : Nat :=
  match g.smp with
  | 0 => 2
  | 1 => if g.depth = 10 then 4 else 2
  | _ => if g.depth = 10 then 4 else if g.depth = 12 then 2 else 1

/-- R238: the staged planes, as divisors of width and height. -/
def EssGeo.planes (g : EssGeo) : List (Nat × Nat) :=
  match g.smp with
  | 0 => [(1, 1), (2, 1), (2, 1)]
  | 1 => [(1, 1), (2, 2), (2, 2)]
  | 2 | 3 => [(1, 1), (1, 1), (1, 1)]
  | _ => [(1, 1)]

/-- R239: bytes of a staged sample. -/
def EssGeo.bps (g : EssGeo) : Nat := if g.depth = 8 then 1 else 2

/-- R239: bytes of a staged line of a plane, padded to 64. -/
def EssGeo.lineBytes (g : EssGeo) (pl : Nat × Nat) : Nat := ceilDiv (g.w / pl.1 * g.bps) 64 * 64

/-- R239: bytes of the planes before plane `p` in a slot. -/
def EssGeo.planeOff (g : EssGeo) (p : Nat) : Nat :=
  ((g.planes.take p).map (fun pl => g.rl / pl.2 * g.lineBytes pl)).sum

/-- R239: bytes of a slot. -/
def EssGeo.slotBytes (g : EssGeo) : Nat := g.planeOff g.planes.length

/-- R239: NSLOT of a window. -/
def EssGeo.nslot (g : EssGeo) (win : Nat) : Nat := if g.slotBytes = 0 then 0 else win / g.slotBytes

/-- R239, R240: the staging row of a line. -/
def EssGeo.rowOf (g : EssGeo) (y : Nat) : Nat := if g.raw then 2 * (y / 2 / g.rl) + y % 2 else y / g.rl

/-- R239, R240: staging rows of a picture. -/
def EssGeo.rows (g : EssGeo) : Nat := if g.raw then 2 * ceilDiv (g.h / 2) g.rl else ceilDiv g.h g.rl

/-- R239, R240: the lines of the picture that fill a staging row. -/
def EssGeo.rowLines (g : EssGeo) (r : Nat) : List Nat :=
  ((List.range g.rl).map (fun i => if g.raw then 2 * (r / 2 * g.rl + i) + r % 2 else r * g.rl + i)).filter (· < g.h)

/-- R239, R240: place of a line within the staging row, for a plane of that vertical divisor. -/
def EssGeo.lineIn (g : EssGeo) (y vd : Nat) : Nat := if g.raw then y / 2 % g.rl else y % g.rl / vd

/-- The line of the plane above that a fill repeats (R244). -/
def EssGeo.above (g : EssGeo) (y vd : Nat) : Option Nat :=
  let d := if g.raw then 2 else vd
  if y < d then none else some (y - d)

/-- R239: number of a staged line among the validity words of its slot, planes in sequence. -/
def EssGeo.wordAt (g : EssGeo) (p i : Nat) : Nat := ((g.planes.take p).map (fun pl => g.rl / pl.2)).sum + i

/-- R242: key of slot `n` of window `i`. -/
def slotKey (i n : Nat) : Nat := i * 4096 + n

/-- The slot, when a row holds it. -/
def slotOf (i n : Nat) (s : State) : Option SlotSt := Tab.find? s.ess.slots (slotKey i n)

/-- Set a slot. -/
def setSlot (i n : Nat) (x : SlotSt) (s : State) : State :=
  { s with ess := { s.ess with slots := Tab.put s.ess.slots (slotKey i n) x } }

/-- Free a slot. -/
def freeSlot (i n : Nat) (s : State) : State :=
  { s with ess := { s.ess with slots := Tab.del s.ess.slots (slotKey i n) } }

/-- R244: set the validity word of a staged line. -/
def setValid (i n line w : Nat) (s : State) : State :=
  { s with ess := { s.ess with valid := Tab.set 0 s.ess.valid (slotKey i n * 512 + line) w } }

/-- R312: SOURCE of a stream's parameter record. -/
def pSource (p : Bytes) : Nat := byteAt p 0x0C

/-- R242, R310: LIVE encode contexts that read the rows staged for stream `k`. -/
def streamReaders (k : Nat) (s : State) : List Nat :=
  let on := fun (j : Nat) (c : Stream) => scState j s == 3 && c.prio == 0 && c.kind == 0
  (s.coding.sc.filter (fun (x : Nat × Stream) => on x.1 x.2 && (x.1 == k ||
    (x.2.srcStream == k && pSource x.2.gop.params == 2)))).map (·.1)

/-- R242: egress contexts that name a window and are enabled, as readers. -/
def egressReaders (i : Nat) (s : State) : List Nat :=
  ((s.ess.ctx.map (·.1)).filter (fun c => fState c s == 1 && fEnabled c s && !fIngest c s && ecFormat (fEc c s) == 0 &&
    fWin c s == i)).map (1024 + ·)

/-- R249, R255: the picture that an egress flow sends, or sends next. -/
def egressTick (c : Nat) (s : State) : Nat := (fFlow c s).picTick.getD (fFlow c s).startTick

/-- R242: give a complete row to its readers; without one it is freed at once. -/
def giveRow (i n : Nat) (streams : List Nat) (s : State) : State :=
  match slotOf i n s with
  | none => s
  | some x =>
    let rs := streams ++ (egressReaders i s).filter (fun r => decide (egressTick (r - 1024) s ≤ x.tick))
    if rs.isEmpty then freeSlot i n s
    else
      let s := setSlot i n { x with given := true, readers := rs } s
      streams.foldl (fun s k => strmMod k (fun c => { c with ready := c.ready ++ [(x.tick, x.row)] }) s) s

/-- R242: a reader releases a slot. -/
def releaseSlot (i n r : Nat) (s : State) : State :=
  match slotOf i n s with
  | none => s
  | some x =>
    let rs := x.readers.filter (· != r)
    if x.given && rs.isEmpty then freeSlot i n s else setSlot i n { x with readers := rs } s

/-- R242, R292, R294: a reader releases every row it holds. -/
def dropReader (r : Nat) (s : State) : State :=
  (s.ess.slots.map (·.1)).foldl (fun s k => match Tab.find? s.ess.slots k with
    | some x => if x.readers.contains r then releaseSlot (k / 4096) (k % 4096) r s else s
    | none => s) s

end Sys2Proof.Machine
end

