-- ==== Sys2Proof/Machine/Units.lean ====
section
/-! DEFINITION. Turning units off and on, and the records they report with: MAC drains (R86 to R88), Faush drains (R128),
completion queues (R431 to R433), DMA channels (R434, R435), status records (R271, R272), streams and engines (R292,
R294, R296), essence flows (R255, R256), and the zeroising of keys (R493). -/
namespace Sys2Proof.Machine

/-! ### MACs -/

/-- R85: the fall of a link. Log 204 (DEDUCED). -/
def linkFall (p : Nat) (s : State) : State :=
  if flag F.MAC_STATUS_LINK_UP p s then
    let s := setFlag F.MAC_STATUS_LINK_UP p false s
    macCnt p 25 1 (setEvent F.MAC_STATUS_LINK_DOWN_EVT p (224 + p) s)
  else s

/-- R86 step 3: discard every frame queued for a port, each in its leaf's drop counter and in TX_DRAIN_DROP. -/
def macDrop (p : Nat) (s : State) : State :=
  let ls := (s.tm.queues.filter (fun x => x.2.any (fun c => c.egr == p))).map (·.1)
  ls.foldl (fun s q =>
    let cs := leafQueue q s
    eachCopy (fun c s => macCnt p 23 1 (dropQueued c s)) cs (setLeafQueue q [] s)) s

/-- R86, R88: ENABLE is written 0; the frame in progress may still arrive. Log 48 (DEDUCED). -/
def macOff (p : Nat) (s : State) : State :=
  let s := setFlag F.MAC_CTRL_ENABLE p false s
  if flag F.MAC_STATUS_DRAINING p s then setFlag F.MAC_STATUS_ENABLE_PENDING p false s
  else if flag F.MAC_STATUS_ENABLED p s then
    let s := { s with ports := { s.ports with rxTail := Tab.set false s.ports.rxTail p (flag F.MAC_STATUS_LINK_UP p s) } }
    macDrop p (setFlag F.MAC_STATUS_DRAINING p true (setFlag F.MAC_STATUS_ENABLED p false s))
  else s

/-- R82, R88: a port starts from the beginning, with auto-negotiation where AN is set. -/
def macStart (p : Nat) (s : State) : State :=
  let s := setFlag F.MAC_STATUS_ENABLED p true s
  { s with ports := { s.ports with anRunning := Tab.set false s.ports.anRunning p (portAn s.cfg p) } }

/-- R88: ENABLE is written 1. -/
def macOn (p : Nat) (s : State) : State :=
  let s := setFlag F.MAC_CTRL_ENABLE p true s
  if flag F.MAC_STATUS_DRAINING p s then setFlag F.MAC_STATUS_ENABLE_PENDING p true s
  else if flag F.MAC_STATUS_ENABLED p s then s
  else macStart p s

/-- R90, R88: forget a port's secure channels. Log 49 (DEDUCED). -/
def macsecClear (p : Nat) (s : State) : State :=
  { s with ports := { s.ports with secChans := s.ports.secChans.filter (fun (x : Nat × SecChan) => x.2.port != p)
                                   sak := s.ports.sak.filter (fun (x : Nat × Bytes) => x.1 / 8 != p) } }

/-- R86, R88: the drain of a MAC ends: electrical idle, and the pending enable. Log 48 (DEDUCED). -/
def macDrained (p : Nat) (s : State) : State :=
  let s := setFlag F.MAC_STATUS_DRAINING p false (linkFall p s)
  let s := setFlag F.MAC_STATUS_AN_DONE p false (setFlag F.MAC_STATUS_FEC_LOCK p false s)
  let s := macsecClear p { s with ports := { s.ports with anRunning := Tab.del s.ports.anRunning p
                                                          rxTail := Tab.del s.ports.rxTail p } }
  if flag F.MAC_STATUS_ENABLE_PENDING p s then macStart p (setFlag F.MAC_STATUS_ENABLE_PENDING p false s) else s

/-- R592: a MAC disabled at once, without drain: the frame on the wire is cut. Log 49 (DEDUCED). -/
def macStop (p : Nat) (s : State) : State :=
  let s := setFlag F.MAC_STATUS_ENABLE_PENDING p false (setFlag F.MAC_STATUS_DRAINING p false s)
  let s := setFlag F.MAC_STATUS_ENABLED p false (setFlag F.MAC_CTRL_ENABLE p false (linkFall p s))
  let s := setFlag F.MAC_STATUS_AN_DONE p false (setFlag F.MAC_STATUS_FEC_LOCK p false s)
  let s := { s with ports := { s.ports with anRunning := Tab.del s.ports.anRunning p, rxTail := Tab.del s.ports.rxTail p } }
  match Tab.find? s.ports.wire p with
  | some c => copyGone c.frame false { s with ports := { s.ports with wire := Tab.del s.ports.wire p } }
  | none => s

/-! ### Faush links -/

/-- The state of a link. -/
def flOf (l : Nat) (s : State) : FlLink := Tab.get FlLink.init s.mesh.links l
/-- Change the state of a link. -/
def flMod (l : Nat) (f : FlLink → FlLink) (s : State) : State :=
  { s with mesh := { s.mesh with links := Tab.mod FlLink.init s.mesh.links l f } }

/-- R119: packet headers that start in a payload from `o` on; `n` bounds the walk. -/
def pktStarts (pl : Bytes) : (n o : Nat) → Nat
  | 0, _ => 0
  | n + 1, o =>
    if o < 500 && byteAt pl o / 16 == 1 then
      1 + pktStarts pl n (o + 16 + 4 * ceilDiv (fieldLE pl (o + 2) 2) 4)
    else 0

/-- R117: FIRST_PKT of a flit in bytes; none for 0x7FFF. -/
def firstPkt (flit : Bytes) : Option Nat :=
  let v := fieldLE flit 6 2
  if v = 0x7FFF then none else some (4 * v)

/-- R124: packets with bytes in the replay buffer: those that start in it, and the one that its oldest flit continues. -/
def replayPkts (l : FlLink) : Nat :=
  let fs := (l.replay.map (·.2)).filter (fun f => fieldLE f 0 2 / 4096 == 1)
  let starts := (fs.map (fun f => match firstPkt f with
    | some o => pktStarts (slice f 8 500) 32 o
    | none => 0)).sum
  match fs with
  | [] => 0
  | f :: _ => starts + b2n (firstPkt f != some 0)

/-- R181: the frames whose packets still lie in the link's keeping end. -/
def flFramesEnd (l : Nat) (s : State) : State :=
  let fs := (flOf l s).txFrames
  fs.foldl (fun s f => copyGone f.1 false s) (flMod l (fun k => { k with txFrames := [] }) s)

/-- R211: cells of a link's queued packets return, and their frames end. -/
def flQueuesEnd (l : Nat) (s : State) : State :=
  let cs := (flOf l s).queues.flatMap (·.2)
  let s := flMod l (fun k => { k with queues := [] }) s
  cs.foldl (fun s c =>
    let s := if c.mcast then s else setShared (sharedUsed s - c.cells) s
    copyGone c.frame false (postcard c .dropped 0 (bump F.FL_LOST_PKTS_COUNT l s))) s

/-- R124: discard the packets of the replay buffer, counting them. -/
def flReplayEnd (l : Nat) (s : State) : State :=
  let k := flOf l s
  let s := bumpBy F.FL_LOST_PKTS_COUNT l (replayPkts k) s
  flFramesEnd l (flMod l (fun k => { k with replay := [], resend := [], txBytes := [], control := [] }) s)

/-- R128: ENABLE of a link is written 0. -/
def flOff (l : Nat) (s : State) : State :=
  if !flag F.FL_CTRL_ENABLE l s then s
  else
    let s := setFlag F.FL_CTRL_ENABLE l false s
    if flag F.FL_STATUS_DRAINING l s then setFlag F.FL_STATUS_ENABLE_PENDING l false s
    else setFlag F.FL_STATUS_DRAINING l true (flMod l (fun k => { k with drainAt := s.time.cclk }) s)

/-- R128: ENABLE of a link is written 1. -/
def flOn (l : Nat) (s : State) : State :=
  let s := setFlag F.FL_CTRL_ENABLE l true s
  if flag F.FL_STATUS_DRAINING l s then setFlag F.FL_STATUS_ENABLE_PENDING l true s else s

/-- The link goes down: lock, HELLO and traffic are lost, and the protocol state starts afresh. -/
def flDown (l : Nat) (s : State) : State :=
  let s := setFlag F.FL_STATUS_PCS_UP l false (setFlag F.FL_STATUS_FLIT_LOCK l false s)
  flMod l (fun _ => FlLink.init) (setFlag F.FL_STATUS_PEER_UP l false s)

/-- R592: a link disabled at once. -/
def flStop (l : Nat) (s : State) : State :=
  let s := setFlag F.FL_STATUS_ENABLE_PENDING l false (setFlag F.FL_STATUS_DRAINING l false s)
  flDown l (setFlag F.FL_CTRL_ENABLE l false (flQueuesEnd l (flReplayEnd l s)))

/-! ### Completion queues -/

/-- R447: the function is in D0. -/
def fnD0 (fn : Nat) (s : State) : Bool := fget F.HIF_FUNC_PM_DSTATE fn s == 0

/-- Log 143 (DEDUCED). -/
def cqOn (q : Nat) (s : State) : Bool := flag F.CQ_CFG_ENABLE q s
def cqSize (q : Nat) (s : State) : Nat := 2 ^ fget F.CQ_CFG_LOG2_ENTRIES q s
/-- R432: the queue is full. -/
def cqFull (q : Nat) (s : State) : Bool :=
  (fget F.CQ_HEAD_HEAD q s + 1) % cqSize q s == fget F.CQ_TAIL_TAIL q s % cqSize q s
def cqLose (q : Nat) (s : State) : State := bump F.CQ_LOST_COUNT q s
/-- Log 137 (DEDUCED). -/
def cqPhaseOf (q : Nat) (s : State) : Bool := Tab.get true s.cqPhase q

/-- R431 to R433: write a record whose FLAGS byte has PHASE clear; the queue's source becomes pending when IRQ is set.
Log 137 (DEDUCED). Log 144 (DEDUCED). -/
def cqWrite (q : Nat) (rec : Bytes) (s : State) : State :=
  let h := fget F.CQ_HEAD_HEAD q s
  let fl := byteAt rec 3
  let rb := splice rec 3 [BitVec.ofNat 8 (fl + b2n (cqPhaseOf q s))]
  let base := fget F.CQ_BASE_HI_BASE q s * 2 ^ 32 + fget F.CQ_BASE_LO_BASE q s * 4096
  let s := emit (.hostWrite (fget F.HIF_CQ_OWNER_OWNER q s) (base + 32 * h) rb) s
  let h' := (h + 1) % cqSize q s
  let s := fset F.CQ_HEAD_HEAD q h' s
  let s := if h' = 0 then { s with cqPhase := Tab.set true s.cqPhase q (!cqPhaseOf q s) } else s
  if bit fl 1 then pendSet q s else s

/-- R431: a completion record. -/
def cqRecord (status detail source flags id hinge tag bytes index : Nat) (s : State) : Bytes :=
  leBytes 1 status ++ leBytes 1 detail ++ leBytes 1 source ++ leBytes 1 flags ++ leBytes 2 id ++ leBytes 2 hinge ++
    leBytes 4 tag ++ leBytes 4 bytes ++ leBytes 8 (nowNs s) ++ leBytes 4 index ++ leBytes 4 (bytes / 2 ^ 32 % 2)

/-! ### DMA channels -/

def chan (c : Nat) (s : State) : Channel := Tab.get Channel.init s.dma c
def chanMod (c : Nat) (f : Channel → Channel) (s : State) : State := { s with dma := Tab.mod Channel.init s.dma c f }

/-- The active descriptor. -/
def actDesc (c : Nat) (s : State) : Bytes := (List.range 16).flatMap (fun i => leBytes 4 (fget F.DC_ACT_DATA (16 * c + i) s))
/-- The shadow descriptor. -/
def shdDesc (c : Nat) (s : State) : Bytes := (List.range 16).flatMap (fun i => leBytes 4 (fget F.DC_SHD_DATA (16 * c + i) s))
/-- Write the sixteen words of a set. -/
def setDesc (f : Fld) (c : Nat) (d : Bytes) (s : State) : State :=
  (List.range 16).foldl (fun s i => fset f (16 * c + i) (fieldLE d (4 * i) 4) s) s

/-- R423, R434: the active descriptor's record has been issued (or none is due): the set is idle, the channel halts after
an error when HALT_ON_ERR is set. Log 144 (DEDUCED). -/
def dmaIssued (c status : Nat) (s : State) : State :=
  let s := setFlag F.DC_STATUS_ACTIVE_BUSY c false s
  let s := chanMod c (fun k => { k with done := true, record := none, tickSeen := false, hingeAt := s.time.cclk + 1 }) s
  if status = 5 ∧ flag F.DC_CTRL_HALT_ON_ERR c s = true then riseIf (160 + c) s (setFlag F.DC_STATUS_HALTED c true s) else s

/-- R431 to R433: give the active descriptor's record; a full queue, or a function outside D0, makes it wait. -/
def dmaRecord (c status detail : Nat) (s : State) : State :=
  let d := actDesc c s
  let q := byteAt d 3 % 16
  let bytes := (chan c s).bytes
  let fl := byteAt d 1
  if bit fl 2 then dmaIssued c status s
  else
    let rb := cqRecord status detail 0 (2 * b2n (bit fl 3) + 4 * b2n (bit fl 0)) c (fget F.DC_HINGE_CNT_COUNT c s)
      (fieldLE d 4 4) bytes (chan c s).actIdx s
    if !cqOn q s then dmaIssued c status (cqLose q s)
    else if cqFull q s || !fnD0 (fget F.HIF_DC_OWNER_OWNER c s) s then
      chanMod c (fun k => { k with record := some (q, rb) }) s
    else dmaIssued c status (cqWrite q rb s)

/-- R432: a channel whose record waits tries again. -/
def dmaRetry (c : Nat) (s : State) : State :=
  match (chan c s).record with
  | none => s
  | some (q, rec) =>
    if !cqOn q s then dmaIssued c (byteAt rec 0) (cqLose q s)
    else if cqFull q s || !fnD0 (fget F.HIF_DC_OWNER_OWNER c s) s then s
    else dmaIssued c (byteAt rec 0) (cqWrite q (splice rec 0x10 (leBytes 8 (nowNs s))) s)

/-- R448: write ENABLE of a channel; the device reports a latency tolerance of 40 µs while any channel is enabled. Log
153 (DEDUCED). -/
def dcEnable (c : Nat) (v : Bool) (s : State) : State :=
  let any := fun (s : State) => (List.range 64).any (fun i => flag F.DC_CTRL_ENABLE i s)
  let t := setFlag F.DC_CTRL_ENABLE c v s
  if any t = any s then t else emit (.ltr (if any t then some 40 else none)) t

/-- R434, R435: ENABLE of a channel is written 0. -/
def dcOff (c : Nat) (s : State) : State :=
  if flag F.DC_CTRL_ENABLE c s then
    let s := dcEnable c false s
    if flag F.DC_STATUS_DRAINING c s then setFlag F.DC_STATUS_ENABLE_PENDING c false s
    else
      let s := setFlag F.DC_STATUS_DRAINING c true (setFlag F.DC_STATUS_ENABLED c false s)
      let s := setFlag F.DC_STATUS_SHADOW_ARMED c false s
      if flag F.DC_STATUS_ACTIVE_BUSY c s && (chan c s).record.isNone then dmaRecord c 5 6 s else s
  else if flag F.DC_STATUS_DRAINING c s then setFlag F.DC_STATUS_ENABLE_PENDING c false s
  else s

/-- R435: an ENABLE carried out reinitialises the channel in full. -/
def dcStart (c : Nat) (s : State) : State :=
  let s := setDesc F.DC_SHD_DATA c [] (setDesc F.DC_ACT_DATA c [] s)
  let s := setFlag F.DC_STATUS_SHADOW_ARMED c false (setFlag F.DC_STATUS_ACTIVE_BUSY c false s)
  let s := setFlag F.DC_STATUS_HALTED c false (setFlag F.DC_STATUS_ENABLED c true s)
  let s := if flag F.DC_CTRL_MODE c s then fset F.DC_RING_HEAD_HEAD c (fget F.DC_RING_TAIL_TAIL c s) s else s
  chanMod c (fun k => { Channel.init with record := k.record }) s

/-- R592: a channel disabled at once. -/
def dcStop (c : Nat) (s : State) : State :=
  let s := setFlag F.DC_STATUS_ENABLE_PENDING c false (setFlag F.DC_STATUS_DRAINING c false s)
  let s := setFlag F.DC_STATUS_ENABLED c false (dcEnable c false s)
  let s := setFlag F.DC_STATUS_SHADOW_ARMED c false (setFlag F.DC_STATUS_ACTIVE_BUSY c false s)
  chanMod c (fun _ => Channel.init) s

/-! ### Status records -/

/-- R271: what a status record says; `pic` holds bytes 0x40 to 0xFF. -/
structure StatRec where
  opcode : Nat := 0
  status : Nat := 0
  detail : Nat := 0
  tag : Nat := 0
  engine : Nat := 0
  flags : Nat := 0
  kind : Nat := 0
  tick : Nat := 0
  tStart : Nat := 0
  tEnd : Nat := 0
  busy : Nat := 0
  wait : Nat := 0
  overNs : Nat := 0
  segs : Nat := 0
  pic : Bytes := []
  deriving DecidableEq, Repr

/-- R271: the record with PHASE clear. -/
def StatRec.bytes (r : StatRec) (sc : Nat) : Bytes :=
  leBytes 1 r.opcode ++ leBytes 1 r.status ++ leBytes 2 r.detail ++ leBytes 4 r.tag ++ leBytes 2 sc ++
    leBytes 1 r.engine ++ leBytes 1 r.flags ++ leBytes 1 r.kind ++ leBytes 3 0 ++ leBytes 8 r.tick ++
    leBytes 8 r.tStart ++ leBytes 8 r.tEnd ++ leBytes 4 r.busy ++ leBytes 4 r.wait ++ leBytes 4 r.overNs ++
    leBytes 4 r.segs ++ leBytes 8 0 ++ fitTo 192 r.pic

/-- R271: the status ring is full. -/
def statFull (k : Nat) (s : State) : Bool :=
  let n := 2 ^ (strm k s).statLog2
  (fget F.SC_STAT_HEAD_HEAD k s + 1) % n == fget F.SC_STAT_TAIL_TAIL k s % n

/-- R271, R272: write a status record to the ring, with its completion record. -/
def statIssue (k : Nat) (rec : Bytes) (irq : Bool) (s : State) : State :=
  let c := strm k s
  let h := fget F.SC_STAT_HEAD_HEAD k s
  let rb := splice rec 0x0B [BitVec.ofNat 8 (byteAt rec 0x0B % 128 + 128 * b2n c.phase)]
  let s := emit (.hostWrite c.fn (c.statBase + 256 * h) rb) s
  let h' := (h + 1) % 2 ^ c.statLog2
  let s := fset F.SC_STAT_HEAD_HEAD k h' s
  let s := if h' = 0 then strmMod k (fun c => { c with phase := !c.phase }) s else s
  let cr := cqRecord (byteAt rb 1) 0 1 (2 * b2n irq) k 0 (fieldLE rb 4 4) 0 h s
  if !cqOn c.cq s || cqFull c.cq s then cqLose c.cq s else cqWrite c.cq cr s

/-- R271, R432, R447: a FILE context may write its next status record. -/
def statRoom (k : Nat) (s : State) : Bool :=
  let c := strm k s
  fnD0 c.fn s && !statFull k s && (!cqOn c.cq s || !cqFull c.cq s)

/-- Issue the waiting records of a FILE context while there is room. -/
def statFlush (k : Nat) (s : State) : State :=
  ((strm k s).waits).foldl (fun s _ =>
    match (strm k s).waits with
    | (rec, irq) :: r =>
      if statRoom k s then statIssue k rec irq (strmMod k (fun c => { c with waits := r }) s) else s
    | [] => s) s

/-- R271, R432, R447: send a status record. A FILE record waits for room; a LIVE record without room is lost. -/
def statSend (k : Nat) (rb : Bytes) (irq : Bool) (s : State) : State :=
  let c := strm k s
  if c.prio = 0 then
    if !fnD0 c.fn s then cqLose c.cq (strmMod k (fun c => { c with statusLost := c.statusLost + 1 }) s)
    else if statFull k s then strmMod k (fun c => { c with statusLost := c.statusLost + 1 }) s
    else statIssue k rb irq s
  else statFlush k (strmMod k (fun c => { c with waits := c.waits ++ [(rb, irq)] }) s)

/-- R271: report with a status record. Log 137 (DEDUCED). -/
def statWrite (k : Nat) (r : StatRec) (irq : Bool) (s : State) : State := statSend k (r.bytes k) irq s

/-- R267, R271: a record of a command, suppressed by NO_STATUS when its result is OK. -/
def cmdRecord (k : Nat) (cmd : Bytes) (r : StatRec) (s : State) : State :=
  let r := { r with opcode := byteAt cmd 0, tag := fieldLE cmd 4 4, tEnd := nowNs s }
  if r.status = 0 ∧ bit (byteAt cmd 1) 0 = true then s else statWrite k r (!bit (byteAt cmd 1) 1) s

/-- R265, R267: the end of a command. -/
def cmdStatus (k : Nat) (cmd : Bytes) (r : StatRec) (s : State) : State :=
  cmdRecord k cmd r (strmMod k (fun c => { c with commands := c.commands + 1 }) s)

/-- R432, R447: everything that waits for a queue or for D0 tries again. -/
def retryRecords (s : State) : State :=
  let s := (s.dma.map (·.1)).foldl (fun s c => dmaRetry c s) s
  (s.coding.sc.map (·.1)).foldl (fun s k => statFlush k s) s

/-! ### Engines and streams -/

def engOf (e : Nat) (s : State) : Engine := Tab.get Engine.init s.coding.eng e
def engMod (e : Nat) (f : Engine → Engine) (s : State) : State :=
  { s with coding := { s.coding with eng := Tab.mod Engine.init s.coding.eng e f } }

/-- R291: USE code of CE_STATUS: 0 FILE, 1 LIVE, 2 OFF. -/
def usable (e : Nat) (s : State) : Bool := ceUse s.cfg e != 2

/-- Put work on an engine, or none. -/
def setWork (e : Nat) (w : Option Work) (s : State) : State := engMod e (fun k => { k with work := w }) s

/-- R287, R299: the context whose routine an engine runs: its work, or the incoming context of a swap. Log 129
(DEDUCED). -/
def runningSc (e : Nat) (s : State) : Option Nat :=
  match (engOf e s).work with
  | some w => some w.sc
  | none => (engOf e s).swapTo

/-- R287, R558: dispatch opcode of a routine: the command's, or one of the device's own, which the manual does not
number. Log 134 (DESIGN CHOICE). -/
def routineOp (w : Work) : Nat :=
  if w.skip.isSome then 128 + Config.freeValue 302 0 % 128
  else if w.cmd.isEmpty then 128 + Config.freeValue (300 + w.kind) 0 % 128
  else byteAt w.cmd 0

/-- R558: a word of a sampled routine: 0 DISPATCH, 1 COMMIT, 2 RESTART, 3 END. -/
def routineWord (e event seg : Nat) (w : Work) (s : State) : State :=
  if w.sampled then seqWord e event (routineOp w) seg s else s

/-- R558: an END word of a sampled routine. -/
def endWord (e : Nat) (w : Work) (abandoned : Bool) (s : State) : State :=
  routineWord e 3 (2048 * b2n abandoned + w.segments % 2048) w s

/-- The work of a stream context, running or saved. -/
def workOf (k : Nat) (s : State) : Option Work :=
  let e := engOf (strm k s).engine s
  match e.work with
  | some w => if w.sc = k then some w else Tab.find? e.savedWorks k
  | none => Tab.find? e.savedWorks k

/-- R334, R374: a work's output buffer returns (`outBuf` holds its address plus 1). Log 123 (DEDUCED). -/
def workBufBack (w : Work) (s : State) : State := if w.outBuf = 0 then s else poolPut (w.outBuf - 1) s

/-- R291: set ENABLE of every member of a gang. -/
def gangEnable (e : Nat) (b : Bool) (s : State) : State :=
  (gangOf s.cfg e).foldl (fun s m => setFlag F.CE_CTRL_ENABLE m b s) s

/-- Set a status bit of every member of a gang. -/
def gangFlag (f : Fld) (e : Nat) (b : Bool) (s : State) : State :=
  (gangOf s.cfg e).foldl (fun s m => setFlag f m b s) s

/-- R293: an enable carried out: the engine reinitialises in full. -/
def ceStart (e : Nat) (s : State) : State :=
  let h := gangHead s.cfg e
  let s := (gangOf s.cfg h).foldl (fun s m => zeroMem (scratchBase m + 3072 * 1024) (1024 * 1024) s) s
  let s := gangFlag F.CE_STATUS_ENABLED h true s
  (gangOf s.cfg h).foldl (fun s m => engMod m (fun g => { Engine.init with savedWorks := g.savedWorks }) s) s

/-- R592: an engine disabled at once. -/
def ceStop (e : Nat) (s : State) : State :=
  let s := setFlag F.CE_STATUS_ENABLE_PENDING e false (setFlag F.CE_STATUS_DRAINING e false s)
  let s := setFlag F.CE_STATUS_ENABLED e false (setFlag F.CE_CTRL_ENABLE e false s)
  let ws := (match (engOf e s).work with | some w => [w] | none => []) ++ (engOf e s).savedWorks.map (·.2)
  let s := ws.foldl (fun s w => workBufBack w s) s
  engMod e (fun _ => Engine.init) (setWork e none s)

/-! ### Essence flows -/

/-- R242: free every slot of a window that an ingest flow fills. -/
def freeSlots (i : Nat) (s : State) : State :=
  { s with ess := { s.ess with slots := s.ess.slots.filter (fun x => x.1 / 4096 != i) } }

/-- R255: what a disabled flow discards: an ingest flow its ring, lines and slots, an egress flow its picture. -/
def flowDiscard (c : Nat) (s : State) : State :=
  let f := fFlow c s
  let s := if fIngest c s then freeSlots (fWin c s) s else dropReader (1024 + c) s
  fFlowMod c (fun _ => { EssFlow.init with oldKey := f.oldKey, newKey := f.newKey, srtpTop := f.srtpTop, closing := f.closing }) s

/-- R255: DISABLE of a flow. -/
def essOff (c : Nat) (s : State) : State := flowDiscard c (fSetState c 2 (fFlag c 0 false s))

/-- R256: CLOSE of a flow. -/
def essShut (c : Nat) (s : State) : State :=
  let s := fFlag c 1 false s
  let s := if fState c s = 1 then essOff c s else s
  fFlowMod c (fun f => { f with closing := true }) s

/-- R256: the context becomes FREE and its ring area returns. -/
def essFree (c : Nat) (s : State) : State :=
  let kib := fx c 0x1C 4 s
  let s := fset F.ESS_RING_FREE_KIB 0 (fget F.ESS_RING_FREE_KIB 0 s + kib) s
  let sr := Tab.del (Tab.del s.ess.srtp c) (65536 + c)
  { s with ess := { s.ess with ctx := Tab.del s.ess.ctx c, flow := Tab.del s.ess.flow c, srtp := sr } }

/-- R592: a flow disabled at once. -/
def essStop (c : Nat) (s : State) : State :=
  let s := flowDiscard c (fFlag c 1 false (fFlag c 0 false s))
  if fState c s = 2 then (if (fFlow c s).closing then essFree c s else fSetState c 1 s) else s

/-! ### Keys -/

/-- R493: the key table, the SA key registers and every user's key register are zeroised. -/
def zeroiseKeys (s : State) : State :=
  let s := fset F.WARD_KEYS_USED 0 0 s
  let s := { s with ward := { s.ward with keys := [] } }
  let s := { s with ports := { s.ports with secChans := s.ports.secChans.map (fun (x : Nat × SecChan) => (x.1, { x.2 with sas := [] })),
                                            cak := [], sak := [] } }
  let s := { s with ess := { s.ess with srtp := [] } }
  { s with coding := { s.coding with sc := s.coding.sc.map (fun (x : Nat × Stream) => (x.1, { x.2 with dataKey := [] })) } }

/-- The engines, MACs, links, channels and flows that are not idle. -/
def busyFlows (s : State) : List Nat := s.ess.ctx.map (·.1)

/-- R592: every MAC, link, engine, channel and flow is disabled at once. -/
def stopAll (s : State) : State :=
  let s := (List.range 256).foldl (fun s p => if portOn s.cfg p then macStop p s else s) s
  let s := (List.range 3).foldl (fun s l => flStop l s) s
  let s := (List.range 48).foldl (fun s e => ceStop e s) s
  let s := (List.range 64).foldl (fun s c => dcStop c s) s
  (busyFlows s).foldl (fun s c => essStop c s) s

end Sys2Proof.Machine
end

