-- ==== Sys2Proof/Machine/Params.lean ====
section
/-! DEFINITION. The parameter record of a stream (R302 to R313, R368, R369), the cycle caps, lanes and LIVE budgets that
follow from it (R279 to R282, R288, R370), and the rate-control record's fields (R342). -/
namespace Sys2Proof.Machine

/-! ### Fields of the parameter record (R312) -/

def pVersion (p : Bytes) : Nat := byteAt p 0x00
def pProfile (p : Bytes) : Nat := byteAt p 0x01
def pLevel (p : Bytes) : Nat := byteAt p 0x02
def pTier (p : Bytes) : Nat := byteAt p 0x03
def pGang (p : Bytes) : Nat := byteAt p 0x04
def pChroma (p : Bytes) : Nat := byteAt p 0x05
def pDepth (p : Bytes) : Nat := byteAt p 0x06
def pCtu (p : Bytes) : Nat := byteAt p 0x07
def pWidth (p : Bytes) : Nat := fieldLE p 0x08 2
def pHeight (p : Bytes) : Nat := fieldLE p 0x0A 2
def pRaw (p : Bytes) : Bool := byteAt p 0x0D == 1
def pCfa (p : Bytes) : Nat := byteAt p 0x0E
def pGop (p : Bytes) : Nat := byteAt p 0x0F
def pMini (p : Bytes) : Nat := byteAt p 0x10
def pNumRef (p : Bytes) : Nat := byteAt p 0x11
def pIrapPeriod (p : Bytes) : Nat := fieldLE p 0x12 2
def pIrapType (p : Bytes) : Nat := byteAt p 0x14
def pTileCols (p : Bytes) : Nat := byteAt p 0x15
def pTileRows (p : Bytes) : Nat := byteAt p 0x16
def pFlags (p : Bytes) : Nat := byteAt p 0x17
def pWpp (p : Bytes) : Bool := bit (pFlags p) 0
def pLfAcross (p : Bytes) : Bool := bit (pFlags p) 1
def pUll (p : Bytes) : Bool := bit (pFlags p) 2
def pInvalidSkip (p : Bytes) : Bool := bit (pFlags p) 3
def pVuiTiming (p : Bytes) : Bool := bit (pFlags p) 4
def pHashSei (p : Bytes) : Bool := bit (pFlags p) 5
def pEffort (p : Bytes) : Nat := byteAt p 0x18
def pSrX (p : Bytes) : Nat := fieldLE p 0x1A 2
def pSrY (p : Bytes) : Nat := fieldLE p 0x1C 2
def pOutMode (p : Bytes) : Nat := byteAt p 0x1E
def pOutWindow (p : Bytes) : Nat := byteAt p 0x1F
def pPrimaries (p : Bytes) : Nat := byteAt p 0x20
def pTransfer (p : Bytes) : Nat := byteAt p 0x21
def pMatrix (p : Bytes) : Nat := byteAt p 0x22
def pFullRange (p : Bytes) : Nat := byteAt p 0x23
def pTimeN (p : Bytes) : Nat := fieldLE p 0x24 4
def pTimeD (p : Bytes) : Nat := fieldLE p 0x28 4
def pRawBlack (p : Bytes) : Nat := fieldLE p 0x2C 2
def pRawWhite (p : Bytes) : Nat := fieldLE p 0x2E 2
def pMaxAu (p : Bytes) : Nat := fieldLE p 0x30 4

/-- R302, R303: PROFILE numbers of VVC. -/
def pCodec (p : Bytes) : Nat := if 0x21 ≤ pProfile p then 1 else 0

/-! ### Fields of the rate-control record (R342) -/

def rcMode (r : Bytes) : Nat := byteAt r 0x01
def rcHrd (r : Bytes) : Bool := bit (byteAt r 0x02) 0
def rcAq (r : Bytes) : Bool := bit (byteAt r 0x02) 1
def rcFloorAt (r : Bytes) : Nat := if byteAt r 0x03 = 0 then 240 else byteAt r 0x03
def rcCap (r : Bytes) : Nat := fieldLE r 0x04 4
def rcTarget (r : Bytes) : Nat := fieldLE r 0x08 4
def rcPeak (r : Bytes) : Nat := fieldLE r 0x0C 4
def rcCpb (r : Bytes) : Nat := fieldLE r 0x10 4
def rcInit (r : Bytes) : Nat := fieldLE r 0x14 4
def rcCsi (r : Bytes) : Nat := fieldLE r 0x18 4
def rcQp (r : Bytes) (kind : Nat) : Int := signed 8 (byteAt r (0x1C + kind))
def rcQpMin (r : Bytes) : Int := signed 8 (byteAt r 0x1F)
def rcQpMax (r : Bytes) : Int := signed 8 (byteAt r 0x20)
def rcStepCtu (r : Bytes) : Nat := byteAt r 0x21
def rcStepPic (r : Bytes) : Nat := byteAt r 0x22
def rcAqStrength (r : Bytes) : Nat := byteAt r 0x23
def rcTidOffset (r : Bytes) (tid : Nat) : Int := signed 8 (byteAt r (0x24 + min 4 tid))

/-- R342: QPMAX of a codec. -/
def qpTop (codec : Nat) : Int := if codec = 1 then 63 else 51
/-- R342: lowest QP at a depth. -/
def qpBottom (depth : Nat) : Int := -6 * ((depth : Int) - 8)

/-- R347: the bits that BIN_CAP and the pool buffer are taken from. -/
def rcCapBits (r : Bytes) : Nat := if rcMode r = 3 then 8 * rcCsi r else 8 * rcCap r

/-- R344: the record from OPEN until the first SET_RC. -/
def rcDefault (p : Bytes) : Bytes :=
  leBytes 1 1 ++ leBytes 1 0 ++ leBytes 1 0 ++ leBytes 1 240 ++ leBytes 4 (ceilDiv (pWidth p * pHeight p * pDepth p) 32) ++
    leBytes 4 0 ++ leBytes 4 0 ++ leBytes 4 0 ++ leBytes 4 0 ++ leBytes 4 0 ++ leBytes 1 30 ++ leBytes 1 32 ++
    leBytes 1 34 ++ leBytes 1 (twos 8 (qpBottom (pDepth p))) ++ leBytes 1 (twos 8 (qpTop (pCodec p))) ++ leBytes 1 6 ++
    leBytes 1 6 ++ leBytes 1 0 ++ leBytes 1 0 ++ leBytes 1 1 ++ leBytes 1 2 ++ leBytes 1 3 ++ leBytes 1 4 ++ leBytes 23 0

/-! ### Picture geometry -/

/-- R306: extended to the next multiple of 8. -/
def ext8 (n : Nat) : Nat := ceilDiv n 8 * 8
/-- R374: bytes of a picture's planes, each line padded to 64 B. -/
def planeBytes (width height chroma depth : Nat) : Nat :=
  let b := if depth = 8 then 1 else 2
  let line := fun n => ceilDiv (n * b) 64 * 64
  let cw := if chroma = 3 then width else width / 2
  let ch := if chroma = 1 then height / 2 else height
  line width * height + (if chroma = 0 then 0 else 2 * line cw * ch)
/-- CTU columns and rows of a picture. -/
def ctuCols (p : Bytes) : Nat := ceilDiv (ext8 (pWidth p)) (pCtu p)
def ctuRows (p : Bytes) : Nat := ceilDiv (ext8 (pHeight p)) (pCtu p)
def ctuCount (p : Bytes) : Nat := ctuCols p * ctuRows p
/-- R320: uniform spacing: where part `i` of `t` starts among `n` CTUs. H.266 gives every part but the last the same
size. Log 214 (PRESUMED). -/
def tileStart (codec n t i : Nat) : Nat :=
  if t = 0 then 0 else if codec = 1 then min n (i * ceilDiv n t) else i * n / t
/-- R320: the CTU column and the CTU row at which a tile column and a tile row start. -/
def tileColAt (p : Bytes) (i : Nat) : Nat := tileStart (pCodec p) (ctuCols p) (pTileCols p) i
def tileRowAt (p : Bytes) (j : Nat) : Nat := tileStart (pCodec p) (ctuRows p) (pTileRows p) j
def tileW (p : Bytes) (i : Nat) : Nat := tileColAt p (i + 1) - tileColAt p i
def tileH (p : Bytes) (j : Nat) : Nat := tileRowAt p (j + 1) - tileRowAt p j

/-- R322: the columns of a staged line that member `m` codes, widened by 16 columns at each seam (R241). -/
def memberCols (p : Bytes) (m : Nat) : Nat × Nat :=
  let g := max 1 (pGang p)
  let per := pTileCols p / g
  (tileColAt p (m * per) * pCtu p - 16, min (pWidth p) (tileColAt p ((m + 1) * per) * pCtu p + (if m + 1 < g then 16 else 0)))

/-! ### Caps, lanes and budgets (R279 to R282, R288) -/

/-- R279: cycle cap of a CTU. `work` is 0 inter encode, 1 intra encode, 2 decode. -/
def ctuCap (codec work chroma ctu : Nat) : Nat :=
  let base := if codec = 1 then (if work = 0 then 15 else 24) else (if work = 0 then 20 else 30)
  let f := if chroma = 0 then 160 else if chroma = 1 then 125 else if chroma = 2 then 100 else 75
  ceilDiv (ctu * ctu * 1600) (base * f)

/-- R279: cap of a CTU of an encode record; a structure with inter pictures takes the inter rate. -/
def encCap (p : Bytes) : Nat := ctuCap (pCodec p) (if pGop p = 0 then 1 else 0) (pChroma p) (pCtu p)

/-- R288: most CTUs of a commit segment. -/
def segMax (cap : Nat) : Nat := if cap = 0 then 8 else max 1 (min 8 (26240 / cap))

/-- R280, R321: entropy lanes of an encode record, per member. -/
def encLanes (p : Bytes) : Nat :=
  min 8 (pTileCols p / max 1 (pGang p) * pTileRows p * (if pWpp p then ctuRows p else 1))

/-- R281: picture time of an encode record with BIN_CAP from `capBits`, as a numerator over `24 * lanes * gang` ns. -/
def encPicNum (p : Bytes) (capBits : Nat) : Nat :=
  max (ctuCount p * encCap p * 15 * encLanes p) (capBits * 10)
def encPicDen (p : Bytes) : Nat := 24 * encLanes p * max 1 (pGang p)

/-- R282: commit segments of one CTU row of a gang: those of the member with the most. -/
def rowSegs (p : Bytes) : Nat :=
  let g := max 1 (pGang p)
  let per := pTileCols p / g
  ((List.range g).map (fun m => ((List.range per).map (fun i => ceilDiv (tileW p (m * per + i)) (segMax (encCap p)))).sum)).foldl max 0

/-- R278: y in ns. -/
def yNs (excl : Bool) : Nat := if excl then 7600 else 24000

/-- R282: LIVE budget of an encode record, rounded up to ns. -/
def encBudget (p : Bytes) (capBits : Nat) (excl : Bool) : Nat :=
  ceilDiv (encPicNum p capBits) (encPicDen p) + ctuRows p * rowSegs p * 286 + ctuRows p * yNs excl

/-- R370: LIVE budget of a decode record, rounded up to ns. -/
def decBudget (codec : Nat) (p : Bytes) (excl : Bool) : Nat :=
  let cols := ceilDiv (pWidth p) 64
  let rows := ceilDiv (pHeight p) 64
  let l := if pWpp p then min 8 rows else 1
  let g := max 1 (pGang p)
  let cap := if codec = 1 then 3641 else 2913
  let num := max (cols * rows * cap * 15 * l) (pMaxAu p * 80)
  ceilDiv num (24 * l * g) + ceilDiv cols 8 * rows * 286 + rows * yNs excl

/-- R282: the sum of budgets fits the period of a tick domain. -/
def fitsTick (c : Cfg) (td sum : Nat) : Bool := decide (sum * tdD c td ≤ tdN c td * 10 ^ 9)

/-- R329: under ULL the row time exceeds the row interval. -/
def ullLate (c : Cfg) (td : Nat) (p : Bytes) (capBits : Nat) : Bool :=
  let den := encPicDen p * ctuRows p
  pUll p && decide (tdN c td * 10 ^ 9 * pCtu p * den <
    (encPicNum p capBits + rowSegs p * 286 * den) * tdD c td * pHeight p)

/-! ### Validity -/

/-- R302, R303: chroma formats, depths and inter coding of a profile. -/
def profOk (codec prof chroma depth : Nat) (inter : Bool) : Bool :=
  let dOk := fun (lo hi : Nat) => decide (lo ≤ depth) && decide (depth ≤ hi)
  if codec = 0 then
    match prof with
    | 0x01 => chroma == 1 && depth == 8
    | 0x02 => chroma == 1 && dOk 8 10
    | 0x03 => chroma ≤ 1 && dOk 8 12
    | 0x04 => chroma ≤ 2 && dOk 8 10
    | 0x05 => chroma ≤ 2 && dOk 8 12
    | 0x06 => chroma ≤ 3 && dOk 8 12
    | 0x07 => chroma ≤ 3 && dOk 8 16 && !inter
    | 0x08 => chroma == 0 && dOk 8 12
    | 0x09 => chroma == 0 && dOk 8 16
    | _ => false
  else
    match prof with
    | 0x21 => chroma ≤ 1 && dOk 8 10
    | 0x22 => chroma ≤ 3 && dOk 8 10
    | 0x23 => chroma ≤ 1 && dOk 8 12
    | 0x24 => chroma ≤ 3 && dOk 8 12
    | 0x25 => chroma ≤ 1 && dOk 8 12 && !inter
    | 0x26 => chroma ≤ 3 && dOk 8 12 && !inter
    | _ => false

/-- R306: the picture size of a gang. -/
def sizeOk (g w h : Nat) : Bool :=
  w % 2 == 0 && h % 2 == 0 && decide (64 ≤ h) &&
    (if g = 1 then decide (64 ≤ w) && decide (w ≤ 8192) && decide (h ≤ 4352) && decide (w * h ≤ 35651584)
    else if g = 2 then decide (512 ≤ w) && decide (w ≤ 16384) && decide (h ≤ 8640) && decide (w * h ≤ 71303168)
    else decide (1024 ≤ w) && decide (w ≤ 16384) && decide (h ≤ 8640) && decide (w * h ≤ 141557760))

/-- R304: the highest level a gang may name. -/
def levelTop (codec g : Nat) : Nat := if g = 1 then 62 else if codec = 1 then 155 else 85

/-- R304, R306, R320: the named level admits the coded picture size, the sample rate (w * h * d / n per second) and the
tiles. -/
def levelOk (codec g : Nat) (p : Bytes) (n d : Nat) : Bool :=
  let l := pLevel p
  let lim := Config.levelLimit codec l (pTier p)
  let w := ext8 (pWidth p)
  let h := ext8 (pHeight p)
  decide (l ≤ levelTop codec g) &&
    (l == (if codec = 1 then 155 else 85) ||
      (decide (w * h ≤ lim 0) && decide (w ^ 2 ≤ 8 * lim 0) && decide (h ^ 2 ≤ 8 * lim 0) && decide (w * h * d ≤ lim 1 * n) && decide (pTileCols p ≤ lim 4) &&
        decide (pTileRows p ≤ lim 5)))

/-- R320: narrowest tile column in luma samples. Log 214 (PRESUMED). -/
def minTile (p : Bytes) : Nat :=
  let edge := fun i => min (ext8 (pWidth p)) (tileColAt p i * pCtu p)
  ((List.range (pTileCols p)).map (fun i => edge (i + 1) - edge i)).foldl min 65536

/-- R313, R369: OUT_WINDOW of the home engine is claimed by the image for that use, or has been allocated at run time.
Log 117 (DEDUCED). -/
def outWinOk (e use : Nat) (p : Bytes) (s : State) : Bool :=
  let i := winIdx e (pOutWindow p)
  decide (pOutWindow p < 8) && winExists s i && (!winClaimed s i || winUse s i == use)

/-- R309: the coded chroma format of an essence SAMPLING. -/
def samplingChroma (n : Nat) : Nat := if n = 0 then 2 else if n = 1 then 1 else if n ≤ 3 then 3 else 0

/-- R309: a class feeds a context of SOURCE 1: WIDTH, HEIGHT, DEPTH, chroma format and raw packing are those of the
parameter record. Log 215 (DEDUCED). -/
def feedFits (p ec : Bytes) : Bool :=
  ecWidth ec == pWidth p && ecHeight ec == pHeight p && ecDepth ec == pDepth p &&
    samplingChroma (ecSampling ec) == pChroma p && pRaw p == (ecSampling ec == 5)

/-- R309: every flow that feeds stream `k` fits its record. Log 215 (DEDUCED). -/
def feedsFit (k : Nat) (p : Bytes) (s : State) : Bool :=
  (s.ess.ctx.map (·.1)).all (fun c => !(fState c s != 0 && fIngest c s && fx c 6 2 s == k) || feedFits p (fEc c s))

/-- ROW_LINES of the flows that feed stream `k`. -/
def feedLines (k : Nat) (s : State) : List Nat :=
  ((s.ess.ctx.map (·.1)).filter (fun c => fState c s != 0 && fIngest c s && fx c 6 2 s == k)).map (fun c => fx c 8 1 s)

/-- R312: RGB input of stream `k`: a flow of SAMPLING 3 feeds it. -/
def feedRgb (k : Nat) (s : State) : Bool :=
  (s.ess.ctx.map (·.1)).any (fun c => fState c s != 0 && fIngest c s && fx c 6 2 s == k && ecSampling (fEc c s) == 3)

/-- R329: conditions of ULL other than the row time. -/
def ullOk (k e : Nat) (live : Bool) (p : Bytes) (s : State) : Bool :=
  let src := if pSource p = 2 then (strm k s).srcStream else k
  live && decide (pGop p ≤ 2) && pGang p == 1 && pTileCols p == 1 && pTileRows p == 1 && pWpp p &&
    (feedLines src s).all (· == pCtu p) &&
    (s.coding.sc.filter (fun (x : Nat × Stream) => x.1 != k && x.2.engine == e && x.2.prio == 0 && decide (2 ≤ scState x.1 s))).isEmpty &&
    flag F.CE_CTRL_LIVE_EXCLUSIVE e s

/-- R312, R313: the parameter record of an encode context is valid; `k` is the context, `src` its SRC_STREAM. Log 214
(PRESUMED). Log 215 (DEDUCED). -/
def encValid (k e codec td src : Nat) (live : Bool) (p : Bytes) (s : State) : Bool :=
  let g := pGang p
  let base := (strm src s).gop.params
  let dOk := pDepth p == 8 || pDepth p == 10 || pDepth p == 12 || pDepth p == 16
  let n := if live then tdN s.cfg td else pTimeN p
  let d := if live then tdD s.cfg td else pTimeD p
  pVersion p == 1 && profOk codec (pProfile p) (pChroma p) (pDepth p) (pGop p != 0) && dOk &&
    decide (pTier p ≤ 1) && (g == 1 || g == 2 || g == 4) &&
    (if codec = 1 then pCtu p == 32 || pCtu p == 64 || pCtu p == 128 else pCtu p == 16 || pCtu p == 32 || pCtu p == 64) &&
    sizeOk g (pWidth p) (pHeight p) && (if live then pSource p == 1 || pSource p == 2 else pSource p == 0) &&
    decide (byteAt p 0x0D ≤ 1) && !(pRaw p && pChroma p != 0) && !(pSource p == 0 && decide (3 < pCfa p)) &&
    decide (pGop p ≤ 3) && !(live && pGop p == 3) &&
    (if pGop p = 3 then pMini p == 2 || pMini p == 4 || pMini p == 8 || pMini p == 16 else pMini p == 1) &&
    (pGop p == 0 || pGop p == 3 || (decide (1 ≤ pNumRef p) && decide (pNumRef p ≤ 4))) &&
    decide (pIrapType p ≤ 1) && !(pIrapType p == 1 && pGop p != 3) &&
    decide (1 ≤ pTileCols p) && decide (pTileCols p ≤ 32) && decide (1 ≤ pTileRows p) && decide (pTileRows p ≤ 32) &&
    !(codec == 0 && decide (1 < pTileCols p * pTileRows p) && pWpp p) && pTileCols p % g == 0 &&
    (pTileCols p == 1 || decide (256 ≤ minTile p)) && (List.range (pTileRows p)).all (fun j => tileH p j != 0) && decide (pFlags p < 64) && decide (pEffort p ≤ 3) &&
    pSrX p % 16 == 0 && decide (16 ≤ pSrX p) && decide (pSrX p ≤ 512) && pSrY p % 16 == 0 && decide (16 ≤ pSrY p) &&
    decide (pSrY p ≤ 256) && decide (pOutMode p ≤ 2) && (pOutMode p == 0 || (live && outWinOk e 1 p s)) &&
    decide (pFullRange p ≤ 1) && (live || (pTimeN p != 0 && pTimeD p != 0)) && byteAt p 0x19 == 0 &&
    fieldLE p 0x34 12 == 0 &&
    (pSource p != 2 || (pDepth p == pDepth base && pChroma p == pChroma base && decide (pWidth p ≤ pWidth base) &&
      decide (pWidth base ≤ 8 * pWidth p) && decide (pHeight p ≤ pHeight base) && decide (pHeight base ≤ 8 * pHeight p))) &&
    (!live || (feedLines (if pSource p = 2 then src else k) s).all (fun r => r % pCtu p == 0)) &&
    (!live || pSource p != 1 || feedsFit k p s) && !(live && pMatrix p != 0 && feedRgb (if pSource p = 2 then src else k) s) &&
    (!pUll p || ullOk k e live p s) && levelOk codec g p n d

/-- R368, R369: the parameter record of a decode context is valid. -/
def decValid (e codec : Nat) (live : Bool) (p : Bytes) (s : State) : Bool :=
  let g := pGang p
  pVersion p == 1 && (g == 1 || g == 2 || g == 4) && sizeOk g (pWidth p) (pHeight p) &&
    decide (pLevel p ≤ levelTop codec g) && pOutMode p == b2n live && (!live || outWinOk e 2 p s) &&
    decide (4096 ≤ pMaxAu p) && decide (pMaxAu p ≤ 268000000) && byteAt p 0x19 == 0 && fieldLE p 0x34 12 == 0

/-- R270, R313, R369: the record is valid for a context. -/
def paramsValid (k kind e codec td src : Nat) (live : Bool) (p : Bytes) (s : State) : Bool :=
  if kind = 0 then encValid k e codec td src live p s else decValid e codec live p s

/-- R282, R370: LIVE budget of a context under a parameter record and a cap in bits. -/
def liveBudget (kind e codec : Nat) (p : Bytes) (capBits : Nat) (s : State) : Nat :=
  let x := flag F.CE_CTRL_LIVE_EXCLUSIVE e s
  if kind = 0 then encBudget p capBits x else decBudget codec p x

/-- R282: budgets of the LIVE contexts of an engine, other than `k`. -/
def liveLoad (k e : Nat) (s : State) : Nat :=
  ((s.coding.sc.filter (fun (x : Nat × Stream) => x.1 != k && x.2.prio == 0 && x.2.engine == e && decide (2 ≤ scState x.1 s))).map
    (fun x => x.2.budget)).sum

end Sys2Proof.Machine
end

