-- ==== Sys2Proof/Machine/Guard.lean ====
section
/-! DEFINITION. Rate control by block row (chapter 09): the checks of a record, the buffer model, targets and base QPs, the
division among tiles, the guard over each CTU, and the report. -/
namespace Sys2Proof.Machine

/-! ### Arithmetic -/

/-- `2^e <= (a / b)^m`, for a signed exponent. -/
def powLe (e : Int) (a b m : Nat) : Bool :=
  if 0 ≤ e then decide (2 ^ e.toNat * b ^ m ≤ a ^ m) else decide (b ^ m ≤ a ^ m * 2 ^ (-e).toNat)

/-- `round(m / d * log2(a / b))`, held between two limits. -/
def logRound (m d a b : Nat) (lo hi : Int) : Int :=
  (List.range ((hi - lo).toNat + 1)).foldl (fun r i =>
    let n : Int := lo + i
    if powLe ((2 * n - 1) * d) a b (2 * m) then max r n else r) lo

/-- A whole number held between two limits. -/
def clampI (lo hi v : Int) : Int := if v < lo then lo else if v > hi then hi else v

/-- R355: 2^(e / 6) as a whole number of 2^-64. -/
def pow2six (e : Int) : Nat :=
  let r := match (e % 6).toNat with
    | 0 => 4294967296 | 1 => 4820937788 | 2 => 5411319704 | 3 => 6074000999 | 4 => 6817835603 | _ => 7652761716
  r * 2 ^ (e / 6 + 32).toNat

/-! ### Reserve (R350) -/

/-- R350: D_raw of a degraded CTU; `kind` 0 is an I slice. Log 132 (DEDUCED). -/
def degRaw (kind : Nat) (p : Bytes) : Nat :=
  if kind ≠ 0 then 48
  else
    let s := if pCodec p = 1 then pCtu p / 64 else pCtu p / 32
    let n := max 1 (s * s)
    let q := if pChroma p = 0 then 0 else if pChroma p = 1 then 1 else if pChroma p = 2 then 2 else 4
    64 + (n + 2 * ceilDiv (n * q) 4) * (40 + 2 * pDepth p)

/-- R350: D. -/
def degBitsOf (kind : Nat) (p : Bytes) : Nat := (3 * degRaw kind p + 1) / 2

/-! ### Period and rate (R355) -/

/-- R355: the picture period of a stream as N and D. -/
def picPeriod (c : Stream) (s : State) : Nat × Nat :=
  if c.prio = 0 then (tdN s.cfg c.td, max 1 (tdD s.cfg c.td)) else (pTimeN c.gop.params, max 1 (pTimeD c.gop.params))

/-- R355: input rate of modes 1 and 2. -/
def rcRate (r : Bytes) : Nat := if rcMode r = 1 then rcTarget r * 1000 else if rcMode r = 2 then rcPeak r * 1000 else 0

/-- R347: the cap of a record before the buffer narrows it. -/
def rcCapBase (r : Bytes) : Nat := if rcMode r = 3 then 8 * (rcCsi r - 8) else 8 * rcCap r

/-- R355, R361: the rate that hrd_parameters signals, for a period of n / d seconds. -/
def hrdRate (r : Bytes) (n d : Nat) : Nat :=
  if rcMode r = 3 then (if n = 0 then 0 else ceilDiv (8 * rcCsi r * d) n) else rcRate r

/-- R358: hrd_parameters; none without HRD_SIGNAL. -/
def hrdInfo (r : Bytes) (n d : Nat) : Option Config.HrdInfo :=
  if rcHrd r then some { cbr := rcMode r == 1 || rcMode r == 3, bitRate := hrdRate r n d, cpbSize := rcCpb r } else none

/-- R342, R343, R361: a record is acceptable under parameter record `p` and a period of n / d seconds. -/
def rcValid (r p : Bytes) (n d : Nat) : Bool :=
  let m := rcMode r
  let qOk := fun q : Int => decide (qpBottom (pDepth p) ≤ q) && decide (q ≤ qpTop (pCodec p))
  let need := ctuCount p * degBitsOf 0 p + 65536
  let lim := Config.levelLimit (pCodec p) (pLevel p) (pTier p)
  let rate := hrdRate r n d
  let free := pLevel p == (if pCodec p = 1 then 155 else 85)
  byteAt r 0 == 1 && decide (m ≤ 3) && decide (byteAt r 2 < 4) && (byteAt r 3 == 0 || decide (128 ≤ byteAt r 3)) &&
    qOk (rcQp r 0) && qOk (rcQp r 1) && qOk (rcQp r 2) && qOk (rcQpMin r) && qOk (rcQpMax r) &&
    decide (rcQpMin r ≤ rcQpMax r) && decide (1 ≤ rcStepCtu r) && decide (rcStepCtu r ≤ 12) && decide (1 ≤ rcStepPic r) &&
    decide (rcStepPic r ≤ 12) && decide (rcAqStrength r ≤ 8) &&
    (List.range 5).all (fun i => decide (-12 ≤ rcTidOffset r i) && decide (rcTidOffset r i ≤ 12)) &&
    beNat (slice r 0x29 23) == 0 &&
    (if m = 3 then decide (4096 ≤ rcCsi r) && decide (rcCsi r ≤ 268000000) && pGop p == 0 &&
        !(rcHrd r && decide (rcCpb r < 8 * rcCsi r))
      else decide (4096 ≤ rcCap r) && decide (rcCap r ≤ 268000000)) &&
    !(m == 2 && decide (rcPeak r < rcTarget r)) && !(rcHrd r && (m == 0 || !pVuiTiming p)) &&
    (!(m == 1 || m == 2) || free || (decide (rcTarget r ≤ lim (2 + 16 * pProfile p)) &&
      (m == 1 || decide (rcPeak r ≤ lim (2 + 16 * pProfile p))) && decide (rcCpb r ≤ lim (3 + 16 * pProfile p)))) &&
    (!(m == 1 || m == 2 || (m == 3 && rcHrd r)) ||
      (decide (1 ≤ rcInit r) && decide (rcInit r * rate ≤ rcCpb r * 90000))) &&
    decide (need ≤ rcCapBase r) && (!(m == 1 || m == 2) || decide (need * d ≤ rate * n))

/-- R345: the change from record `o` to `r` waits for an IRAP picture. Log 132 (DEDUCED). -/
def rcAtIrap (o r : Bytes) : Bool :=
  rcMode r != rcMode o || rcHrd r != rcHrd o || rcCpb r != rcCpb o || rcInit r != rcInit o ||
    ((rcHrd r || rcHrd o) && (rcTarget r != rcTarget o || rcPeak r != rcPeak o))

/-- R357: a buffer field differs, so that the model starts afresh. Log 132 (DEDUCED). -/
def rcRestarts (o r : Bytes) : Bool :=
  rcMode r != rcMode o || rcCpb r != rcCpb o || rcInit r != rcInit o || rcTarget r != rcTarget o || rcPeak r != rcPeak o

/-! ### The buffer model (R357 to R360) -/

/-- Units of F in one bit. -/
def fUnit (d : Nat) : Nat := 90000 * d
/-- floor(F) in bits. -/
def floorF (f : Int) (d : Nat) : Int := f / (fUnit d : Nat)

/-- R357 step 1: the model starts. -/
def rcStart (d : Nat) (x : RcSt) : RcSt :=
  { x with started := true, f := (rcRate x.record * rcInit x.record * d : Nat), n := 0, total := 0, refs := [], acts := [],
           prev := [], since := 0 }

/-- R345, R357: rate control at the first CTU of a picture: true when a waiting record took effect. -/
def rcTake (irap : Bool) (d : Nat) (x : RcSt) : Bool × RcSt :=
  match x.pend with
  | some q =>
    if q.atIrap && !irap then (false, if x.started then x else rcStart d x)
    else
      let y := { x with record := q.record, pend := none }
      (true, if !x.started || (q.atIrap && rcRestarts x.record q.record) then rcStart d y else y)
  | none => (false, if x.started then x else rcStart d x)

/-- R359: a tick without an access unit. Log 132 (DEDUCED). Log 133 (DEDUCED). Log 219 (DEDUCED). -/
def rcGap (n d : Nat) (x : RcSt) : RcSt :=
  let f := x.f + (rcRate x.record * n * 90000 : Nat)
  { x with gap := true, since := x.since + 1, f := if rcMode x.record = 2 then min f (rcCpb x.record * fUnit d : Nat) else f }

/-- R357 step 4, R360, R361: filler bytes that an access unit of `au` bytes gets. -/
def rcFiller (n d au : Nat) (x : RcSt) : Nat :=
  let r := x.record
  if rcMode r = 3 then (if au < rcCsi r then max 7 (rcCsi r - au) else 0)
  else if rcMode r = 1 then
    let least := x.f + (rcRate r * n * 90000 : Nat) - (rcCpb r * fUnit d : Nat)
    let need := ceilDiv least.toNat (8 * fUnit d)
    if au < need then max 7 (need - au) else 0
  else 0

/-- R357 steps 2 and 3: an access unit is removed; floor(F) just after, and the model before the next. `irap` says
that it carries a buffering period (R358). Log 219 (DEDUCED). -/
def rcRemove (irap : Bool) (n d au : Nat) (x : RcSt) : Nat × RcSt :=
  let r := x.record
  let x : RcSt := { x with since := if irap then 1 else x.since + 1 }
  if rcMode r = 1 ∨ rcMode r = 2 then
    let f := x.f - (au * 8 * fUnit d : Nat)
    let g := f + (rcRate r * n * 90000 : Nat)
    let g := if rcMode r = 2 then min g (rcCpb r * fUnit d : Nat) else g
    ((floorF f d).toNat, { x with f := g, n := x.n + 1, total := x.total + 8 * au })
  else (0, { x with n := x.n + 1, total := x.total + 8 * au })

/-- R360: a filler data NAL unit of `m` bytes. -/
def fillerNal (codec m : Nat) : Bytes :=
  if m < 7 then []
  else [0#8, 0#8, 0#8, 1#8] ++ (if codec = 1 then [0x00#8, 0xC9#8] else [0x4C#8, 0x01#8]) ++
    List.replicate (m - 7) 0xFF#8 ++ [0x80#8]

/-! ### Targets and base QP (R347, R354, R355) -/

/-- R347: C, and whether floor(F) set it. -/
def rcC (d : Nat) (x : RcSt) : Nat × Bool :=
  let b := rcCapBase x.record
  if rcMode x.record = 1 ∨ rcMode x.record = 2 then
    let v := (floorF x.f d).toNat
    if v < b then (v, true) else (b, false)
  else (b, false)

/-- R354: the CQP value of a picture. -/
def qkOf (r : Bytes) (kind tid : Nat) : Int := rcQp r kind + rcTidOffset r tid

/-- R355: the weight s as a fraction. Log 131 (DEDUCED). -/
def weightS (r p : Bytes) (qk : Int) : Nat × Nat :=
  let w := fun q : Int => pow2six (-q)
  let per := pIrapPeriod p
  let mean := fun (tot m : Nat) =>
    if per = 0 then (w qk * m, tot) else (w qk * per * m, w (qkOf r 0 0) * m + (per - 1) * tot)
  match pGop p with
  | 0 => (1, 1)
  | 3 =>
    let depth := Nat.log2 (pMini p)
    mean (w (qkOf r 1 0) + ((List.range depth).map (fun t => 2 ^ t * w (qkOf r 2 (t + 1)))).sum) (pMini p)
  | k => mean (w (qkOf r k 0)) 1

/-- R347, R355: T in 1/65,536 bit. `a` is the picture activity, `c` the cap in force, `fl` the floor limit. Log 131
(DEDUCED). -/
def rcT (x : RcSt) (p : Bytes) (kind tid n d a c fl : Nat) : Nat :=
  let r := x.record
  let s := weightS r p (qkOf r kind tid)
  let lo := 65536 * rcRate r * n / (8 * d)
  let hold := fun v : Int => clampI lo (max lo (65536 * c)) v
  match rcMode r with
  | 1 =>
    let t1 := 65536 * s.1 * rcRate r * n / (max 1 s.2 * d)
    (hold ((t1 : Int) + 65536 * (x.f - (rcCpb r * 45000 * d : Nat)) / (8 * fUnit d : Nat))).toNat
  | 2 =>
    let av := rcTarget r * 1000
    let sum := x.acts.sum
    let cf := if sum = 0 then (1, 1) else
      let num := a * x.acts.length
      if 2 * num < sum then (1, 2) else if 2 * sum < num then (2, 1) else (num, sum)
    let t1 := 65536 * s.1 * cf.1 * av * n / (max 1 s.2 * cf.2 * d)
    (hold ((t1 : Int) + ((65536 * av * n * x.n / d : Nat) - (65536 * x.total : Nat) : Int) / 32)).toNat
  | 3 => 65536 * fl * 15 / 16
  | _ => 0

/-- R354: the base QP of a picture. -/
def qpPicOf (x : RcSt) (kind tid a t : Nat) : Int :=
  let r := x.record
  let qk := qkOf r kind tid
  let q := match Tab.find? x.refs (kind * 8 + tid) with
    | some f =>
      if rcMode r = 0 then qk
      else f.qp + logRound 6 1 (max 1 f.bits * max 1 a * 65536) (max 1 f.act * max 1 t) (-(rcStepPic r : Int)) (rcStepPic r)
    | none => qk
  clampI (rcQpMin r) (rcQpMax r) q

/-! ### Activities -/

/-- Activity of a CTU by raster number: measured, else of the previous picture, else the mean of those measured. Log
131 (DEDUCED). -/
def actOf (acts prev : List CtuAct) (i : Nat) : CtuAct :=
  match acts[i]? with
  | some a => a
  | none => match prev[i]? with
    | some a => a
    | none =>
      let mean := fun (f : CtuAct → Nat) => if acts.length = 0 then 1 else (acts.map f).sum / acts.length
      { all := mean (fun a => a.all), left := mean (fun a => a.left), right := mean (fun a => a.right) }

/-- R354: activity of the picture. Log 131 (DEDUCED). -/
def picAct (p : Bytes) (acts prev : List CtuAct) : Nat := ((List.range (ctuCount p)).map (fun i => (actOf acts prev i).all)).sum

/-- Raster number of CTU `i` of tile column `j` of tile row `t`. -/
def ctuAt (p : Bytes) (t j i : Nat) : Nat :=
  let w := max 1 (tileW p j)
  (tileRowAt p t + i / w) * ctuCols p + tileColAt p j + i % w

/-- Activity of rows `r` and on of a tile. -/
def tileActFrom (p : Bytes) (acts prev : List CtuAct) (t j r : Nat) : Nat :=
  let w := tileW p j
  ((List.range (tileH p t * w - r * w)).map (fun i => (actOf acts prev (ctuAt p t j (r * w + i))).all)).sum

/-- R323, R362: activity of tile `j` of tile row `t` and of the 16 columns beyond each side that borders another tile. -/
def tileWeight (p : Bytes) (acts prev : List CtuAct) (t j : Nat) : Nat :=
  let at_ := fun r c => actOf acts prev ((tileRowAt p t + r) * ctuCols p + c)
  let edge := fun r => (if j = 0 then 0 else (at_ r (tileColAt p j - 1)).right) +
    (if j + 1 < pTileCols p then (at_ r (tileColAt p (j + 1))).left else 0)
  tileActFrom p acts prev t j 0 + ((List.range (tileH p t)).map edge).sum

/-! ### Tile rows (R351, R362) -/

/-- CTUs of the picture in tile rows from `t` on. -/
def ctusFrom (p : Bytes) (t : Nat) : Nat :=
  (ctuRows p - tileRowAt p t) * ctuCols p

/-- A partition with its limits. -/
def Part.start (g fl t : Nat) (skip : Bool) : Part :=
  { g := g, fl := fl, t := t, bc := 4 * g, used := 0, bins := 0, mode := if skip then 2 else 0, coded := 0, rowBits := 0,
    rowAct := 0, rowUsed := 0, qpPrev := none }

/-- R351, R362: the partitions of the tile row that starts. -/
def startTileRow (prev : List CtuAct) (w : Work) : Work :=
  let p := w.plan.params
  let d := degBitsOf w.plan.kind p
  let bcap := w.cap - 8 * (w.overhead.getD 0)
  let bfl := bcap * rcFloorAt w.rc / 256
  let tc := pTileCols p
  if tc * pTileRows p ≤ 1 then { w with parts := [(0, Part.start bcap bfl w.target w.skip.isSome)] }
  else
    let all := ctusFrom p w.tileRow * d
    let h := bcap - w.used - all
    let hf := bfl - w.used - all
    let t := w.target - 65536 * (w.used + all)
    let wt := tileWeight p w.acts prev w.tileRow
    let sw := max 1 (((List.range tc).map wt).sum)
    { w with parts := (List.range tc).map (fun j =>
        let res := tileW p j * tileH p w.tileRow * d
        (j, Part.start (res + h * wt j / sw) (res + hf * wt j / sw) (t * wt j / sw) w.skip.isSome)) }

/-! ### The guard (R351, R352, R356) -/

/-- A CTU about which nothing was reported. -/
def CtuResult.blank : CtuResult := { bits := 0, bins := 0, degBits := 0, degBins := 0 }

/-- R356: the QP of a CTU in normal mode. `a` is its activity, `aPic` the picture's. -/
def ctuQp (prev : List CtuAct) (w : Work) (j : Nat) (x : Part) (a aPic : Nat) : Int :=
  let p := w.plan.params
  let r := w.rc
  let aq := if rcAq r then logRound (rcAqStrength r) 4 (max 1 a * ctuCount p) (max 1 aPic) (-6) 6 else 0
  let tw := max 1 (tileW p j)
  let rest := max 1 (tileActFrom p w.acts prev w.tileRow j (x.coded / tw))
  let fb := if rcMode r = 0 ∨ x.rowAct = 0 then 0
    else logRound 6 1 (max 1 x.rowBits * 65536 * rest) (max (65536 * rest) ((x.t - 65536 * x.rowUsed) * x.rowAct)) (-6) 6
  let q := w.qpPic + aq + fb
  let q := match x.qpPrev with
    | some v => clampI (v - rcStepCtu r) (v + rcStepCtu r) q
    | none => q
  clampI (rcQpMin r) (rcQpMax r) q

/-- Count a CTU's QP. -/
def Work.countQp (q : Int) (w : Work) : Work :=
  { w with qpMin := if w.qpCount = 0 then q else min q w.qpMin, qpMax := if w.qpCount = 0 then q else max q w.qpMax,
           qpSum := w.qpSum + q, qpCount := w.qpCount + 1 }

/-- R326, R351, R352, R356: code one CTU of tile column `j`; `inv` says which CTUs of the picture are invalid. -/
def codeCtu (prev : List CtuAct) (inv : Nat → Bool) (aPic : Nat) (j : Nat) (c : CtuResult) (w : Work) : Work :=
  let p := w.plan.params
  let kind := w.plan.kind
  let draw := degRaw kind p
  let d := degBitsOf kind p
  let x := Tab.get (Part.start 0 0 0 false) w.parts j
  let tw := max 1 (tileW p j)
  let x := if x.coded % tw = 0 then { x with rowBits := 0, rowAct := 0, rowUsed := x.used } else x
  let k := tileW p j * tileH p w.tileRow - x.coded - 1
  let pos := ctuAt p w.tileRow j x.coded
  let act := (actOf w.acts prev pos).all
  let mode := if x.mode = 0 ∧ x.fl ≤ x.used + (k + 1) * d then 1 else x.mode
  let q := if mode = 0 then ctuQp prev w j x act aPic else qpTop (pCodec p)
  let breaks := decide (x.g < x.used + c.bits + k * d) || decide (x.bc < 3 * (x.bins + c.bins + k * draw))
  let deg := mode == 2 || breaks
  let b := if deg then min c.degBits d else c.bits
  let n := if deg then min c.degBins draw else c.bins
  let row := pos / max 1 (ctuCols p)
  let coded := !deg || kind == 0
  let qp := if deg then qpTop (pCodec p) else q
  let x' := { x with used := x.used + b, bins := x.bins + n, mode := if deg then 2 else mode, coded := x.coded + 1,
                     rowBits := x.rowBits + b, rowAct := x.rowAct + act,
                     qpPrev := if coded then some qp else x.qpPrev }
  let w := { w with parts := Tab.put w.parts j x', recoded := w.recoded || (mode != 2 && breaks),
                    degRows := if deg then insertRising row w.degRows else w.degRows,
                    floorRows := if !deg && mode == 1 then insertRising row w.floorRows else w.floorRows,
                    invalid := w.invalid + b2n (inv pos),
                    skipped := w.skipped + b2n (inv pos && kind != 0 && pInvalidSkip p) }
  if coded then w.countQp qp else w

/-- R288, R322: what a commit of the gang covers: for each member, its tile column and the number of CTUs. Log 131
(DEDUCED). -/
def segPlan (w : Work) : List (Nat × Nat) :=
  let p := w.plan.params
  let g := max 1 (pGang p)
  let per := pTileCols p / g
  (List.range g).flatMap (fun m =>
    match ((List.range per).map (m * per + ·)).find? (fun j =>
      decide ((Tab.get (Part.start 0 0 0 false) w.parts j).coded < tileW p j * tileH p w.tileRow)) with
    | some j =>
      let tw := max 1 (tileW p j)
      [(j, min (segMax (encCap p)) (tw - (Tab.get (Part.start 0 0 0 false) w.parts j).coded % tw))]
    | none => [])

/-- R324: CTU rows of the tile row that every member has finished. Log 216 (DESIGN CHOICE). -/
def tileRowsDone (w : Work) : Nat :=
  w.parts.foldl (fun m (x : Nat × Part) => min m (x.2.coded / max 1 (tileW w.plan.params x.1))) (tileH w.plan.params w.tileRow)

/-- R324: with LF_ACROSS_TILES, the gang's members pass the samples at every seam at each CTU row commit; without, none are
passed. Log 216 (DESIGN CHOICE). -/
def Work.passSeams (w : Work) : Work :=
  let p := w.plan.params
  if pLfAcross p && decide (1 < pGang p) then { w with seams := max w.seams (tileRowAt p w.tileRow + tileRowsDone w) } else w

/-- R324, R351, R362: the CTUs of a commit, and the end of a tile row. Log 131 (DEDUCED). -/
def codeSegment (prev : List CtuAct) (inv : Nat → Bool) (cs : List CtuResult) (w : Work) : Work :=
  let p := w.plan.params
  let aPic := picAct p w.acts prev
  let r := (segPlan w).foldl (fun (x : List CtuResult × Work) jn =>
    (List.range jn.2).foldl (fun (x : List CtuResult × Work) _ =>
      (x.1.drop 1, codeCtu prev inv aPic jn.1 (x.1.head?.getD CtuResult.blank) x.2)) x) (cs, w)
  let w := r.2.passSeams
  if (segPlan w).isEmpty then
    let w := { w with used := w.used + (w.parts.map (fun x => x.2.used)).sum,
                      bins := w.bins + (w.parts.map (fun x => x.2.bins)).sum, tileRow := w.tileRow + 1, parts := [] }
    if w.tileRow < pTileRows p then startTileRow prev w else w
  else w

/-- The picture has no CTU left. -/
def Work.allCoded (w : Work) : Bool := w.overhead.isSome && decide (pTileRows w.plan.params ≤ w.tileRow)

/-- The next CTU row that some member codes, which must be staged. -/
def Work.nextRow (w : Work) : Nat :=
  let p := w.plan.params
  if w.overhead.isNone then 0
  else ((segPlan w).map (fun j =>
    ctuAt p w.tileRow j.1 (Tab.get (Part.start 0 0 0 false) w.parts j.1).coded / max 1 (ctuCols p))).foldl max 0

/-- R274: the engine stands at the end of a CTU row of the picture. -/
def Work.atRowEnd (w : Work) : Bool :=
  w.parts.all (fun x => x.2.coded % max 1 (tileW w.plan.params x.1) == 0)

/-- R348, R354, R355: what is fixed before the first CTU. -/
def startPicture (x : RcSt) (n d ovh : Nat) (acts : List CtuAct) (w : Work) : Work :=
  let p := w.plan.params
  let c := rcC d x
  let o := min 8192 ovh
  let fl := (c.1 - 8 * o) * rcFloorAt x.record / 256
  let a := picAct p acts x.prev
  let t := rcT x p w.plan.kind w.plan.tid n d a c.1 fl
  startTileRow x.prev
    { w with rc := x.record, cap := c.1, capByCpb := c.2, overhead := some o, target := t,
             qpPic := qpPicOf x w.plan.kind w.plan.tid a t, acts := acts, tileRow := 0 }

/-- R354, R355: rate control after a picture of slice-data bits and activities. -/
def rcNote (w : Work) (x : RcSt) : RcSt :=
  let a := picAct w.plan.params w.acts x.prev
  { x with refs := Tab.put x.refs (w.plan.kind * 8 + w.plan.tid) ⟨w.qpPic, w.used, a⟩, acts := (a :: x.acts).take 16,
           prev := (List.range (ctuCount w.plan.params)).map (actOf w.acts x.prev), gap := false }

end Sys2Proof.Machine
end

