-- ==== Sys2Proof/Machine/Gop.lean ====
section
/-! DEFINITION. Picture structures (R314 to R319): which pictures an input picture lets the encoder code, in coding order,
with their POC, slice kind, temporal layer and NAL unit type; and the fields that SET_PARAMS may change. -/
namespace Sys2Proof.Machine

/-- NAL unit types of H.265 and H.266 that the encoder gives its slices: 0 trailing, 1 RADL, 2 RASL, 3 IDR with leading
pictures, 4 IDR without, 5 CRA. In HEVC, `sub` marks a sub-layer non-reference picture. Log 118 (DEDUCED). Log 119
(PRESUMED). -/
def nalOf (codec role : Nat) (sub : Bool) : Nat :=
  if codec = 1 then
    match role with
    | 0 => 0 | 1 => 2 | 2 => 3 | 3 => 7 | 4 => 8 | _ => 9
  else
    match role with
    | 0 => 1 - b2n sub | 1 => 7 - b2n sub | 2 => 9 - b2n sub | 3 => 19 | 4 => 20 | _ => 21

/-- R314: a waiting record takes effect. Log 119 (PRESUMED). -/
def GopSt.take (g : GopSt) (irap : Bool) : GopSt :=
  match g.pend with
  | some q => if q.atIrap == irap then { g with params := q.record, pend := none, applied := true } else g
  | none => g

/-- R315: the reference lists of a picture of `kind` at a POC and TemporalId: the pictures coded before, or the nearest ones
on each side in a lower layer. An anchor refers to the anchor before it. -/
def GopSt.refLists (g : GopSt) (kind tid : Nat) (poc : Int) : List Int × List Int :=
  if kind = 0 then ([], [])
  else if pGop g.params ≠ 3 then
    let l := (g.coded.take (pNumRef g.params)).map (fun (x : Int × Nat) => x.1)
    (l, if kind = 2 then l else [])
  else
    let low := (g.coded.filter (fun (x : Int × Nat) => decide (x.2 < tid) || (tid == 0 && x.2 == 0))).map (fun (x : Int × Nat) => x.1)
    let near := fun (l : List Int) (better : Int → Int → Bool) => (l.foldl (fun (m : Option Int) v => match m with
      | some b => if better v b then some v else some b
      | none => some v) none).toList
    let before := near (low.filter (fun v => decide (v < poc))) (fun v b => decide (b < v))
    let after := near (low.filter (fun v => decide (poc < v))) (fun v b => decide (v < b))
    (before, if kind = 2 then after else [])

/-- R315, R317, R319: plan one picture. `lead` is 0, or the role of a leading picture; `some key` marks an IRAP. Log
118 (DEDUCED). -/
def GopSt.plan (g : GopSt) (i pts : Nat) (src : Bytes) (irap : Option Bool) (early : Bool) (kind tid : Nat) (sub : Bool)
    (lead : Nat) : PicPlan × GopSt :=
  match irap with
  | some key =>
    let first := g.since.isNone
    let g := g.take true
    let p := g.params
    let idr := key || first || pIrapType p == 0
    let base := if idr then i else g.base
    let poc : Int := (i : Int) - base
    let nal := nalOf (pCodec p) (if !idr then 5 else if g.held.isEmpty then 4 else 3) false
    ({ idx := i, poc := poc, kind := 0, tid := 0, nal := nal, irap := true, key := key, early := early,
       applied := g.applied, params := p, pts := pts, src := src, list0 := [], list1 := [] },
     { g with base := base, since := some 0, keyNow := g.keyNow || key, applied := false,
              coded := if idr then [(poc, 0)] else ((poc, 0) :: g.coded).take 32 })
  | none =>
    let poc : Int := (i : Int) - g.base
    let l := g.refLists kind tid poc
    ({ idx := i, poc := poc, kind := kind, tid := tid, nal := nalOf (pCodec g.params) lead sub, irap := false,
       key := false, early := early, applied := g.applied, params := g.params, pts := pts, src := src, list0 := l.1, list1 := l.2 },
     { g with applied := false, coded := ((poc, tid) :: g.coded).take 32 })

/-- R316: the dyadic order of the pictures between positions `lo` and `hi` (exclusive, counted from 1): position and
temporal layer; `n` bounds the depth. -/
def dyadic : (n lo hi tid : Nat) → List (Nat × Nat)
  | 0, _, _, _ => []
  | n + 1, lo, hi, tid =>
    if hi - lo < 2 then []
    else
      let mid := (lo + hi) / 2
      (mid, tid) :: (dyadic n lo mid (tid + 1) ++ dyadic n mid hi (tid + 1))

/-- R316: code the pictures held, the last of them as the anchor; `irap` when that anchor is an IRAP picture. -/
def GopSt.mini (g : GopSt) (irap : Bool) : List PicPlan × GopSt :=
  match g.held.reverse with
  | [] => ([], g)
  | a :: r =>
    let rest := r.reverse
    let x := { g with held := rest }.plan a.1 a.2.1 a.2.2 (if irap then some false else none) false 1 0 false 0
    let g := { x.2 with held := [] }
    let cra := x.1.nal == nalOf (pCodec g.params) 5 false
    let lead := if irap then (if cra then 2 else 1) else 0
    let depth := Nat.log2 (pMini g.params)
    (dyadic 6 0 (rest.length + 1) 1).foldl (fun (y : List PicPlan × GopSt) mt =>
      let q := (rest[mt.1 - 1]?).getD (0, 0, [])
      let z := y.2.plan q.1 q.2.1 q.2.2 none false 2 mt.2 (mt.2 == depth) lead
      (y.1 ++ [z.1], z.2)) ([x.1], g)

/-- R318: a key request acts on the picture chosen at this cclk: one that begins in the cclk of the fetch has started. -/
def GopSt.keyDue (g : GopSt) (now : Nat) : Bool := g.keyReq && !g.keyNow && decide (g.keyAt < now)

/-- R318: under GOP_KIND 3, K is the first of the pictures held, none of which has started; those after it stay held,
and the IRAP_PERIOD count restarts at K (R319). Log 223 (DEDUCED). -/
def GopSt.keyHeld (g : GopSt) : List PicPlan × GopSt :=
  match g.held with
  | [] => ([], g)
  | a :: r =>
    let x := { g with held := [] }.plan a.1 a.2.1 a.2.2 (some true) g.keyEarly 0 0 false 0
    ([x.1], { x.2 with held := r, since := some r.length })

/-- R315 to R319: an input picture arrives at cclk `now`, with the command `src` that names its planes: the pictures that are
coded now, in coding order. Log 119 (PRESUMED). -/
def GopSt.feed (g : GopSt) (pts : Nat) (src : Bytes) (now : Nat) : List PicPlan × GopSt :=
  let i := g.idx
  let g := { g with idx := i + 1, since := g.since.map (· + 1) }.take false
  let key := g.keyDue now
  let per := pIrapPeriod g.params
  let due := match g.since with
    | none => true
    | some n => per != 0 && decide (per ≤ n)
  let k := pGop g.params
  if k ≠ 3 then
    let x := g.plan i pts src (if key || due then some key else none) false k 0 false 0
    ([x.1], x.2)
  else
    let g := { g with held := g.held ++ [(i, pts, src)] }
    if key then g.keyHeld
    else if due || g.held.length == pMini g.params then g.mini due else ([], g)

/-- R316, R318: FLUSH codes the pictures held as a shortened mini-GOP, after the picture of a key request. -/
def GopSt.flush (g : GopSt) (now : Nat) : List PicPlan × GopSt :=
  let g := g.take false
  let x := if g.keyDue now then g.keyHeld else ([], g)
  let y := x.2.mini false
  (x.1 ++ y.1, y.2)

/-- R314: a record that changes fields at once reaches a planned picture whose first CTU has not started. -/
def GopSt.refresh (g : GopSt) (p : PicPlan) : PicPlan × GopSt :=
  let h := g.take false
  if h.applied && !g.applied then ({ p with params := h.params, applied := true }, { h with applied := false }) else (p, g)

/-- R319: the picture of a key request has been coded: the request ends. -/
def GopSt.keyServed (g : GopSt) : GopSt := { g with keyReq := false, keyNow := false }

/-- R318, R319: KEY_PICTURE is fetched at cclk `now`; `early` says that pictures before K have not started. A request
that still waits takes it in. Log 223 (DEDUCED). -/
def GopSt.keyAsk (g : GopSt) (now : Nat) (early : Bool) : GopSt :=
  if g.keyReq then g else { g with keyReq := true, keyAt := now, keyEarly := early }

/-- R315: a LIVE tick whose picture is not coded still advances POC. Log 120 (DEDUCED). -/
def GopSt.skip (g : GopSt) : GopSt := { g with idx := g.idx + 1, since := g.since.map (· + 1) }

/-- R295: an encoder starts afresh; a record that waits still waits. Log 120 (DEDUCED). -/
def GopSt.restart (g : GopSt) : GopSt := { GopSt.init with params := g.params, pend := g.pend }

/-- R314: bytes of the record that may change at once, with a mask of bits within each. -/
def freeByte (i : Nat) : Nat :=
  if i = 0x12 ∨ i = 0x13 ∨ i = 0x18 ∨ (0x1A ≤ i ∧ i ≤ 0x1D) then 0xFF else if i = 0x17 then 0x28 else 0

/-- R314: bytes of the record that may never change. -/
def fixedByte (i : Nat) : Nat :=
  if i = 0x00 ∨ i = 0x04 ∨ i = 0x05 ∨ i = 0x06 ∨ i = 0x0C ∨ i = 0x0D ∨ i = 0x1E ∨ i = 0x1F then 0xFF
  else if i = 0x17 then 0x04 else 0

/-- R314: the change from record `o` to record `p` is allowed. -/
def paramsChange (o p : Bytes) (atIrap : Bool) : Bool :=
  (List.range 64).all (fun i =>
    let x := byteAt o i ^^^ byteAt p i
    (x &&& fixedByte i) == 0 && (atIrap || (x &&& (0xFF ^^^ freeByte i)) == 0))

end Sys2Proof.Machine
end

