-- ==== Sys2Proof/Machine/Pictures.lean ====
section
/-! DEFINITION. How pictures end: the picture status of an encoder (R336, R365), pictures that are dropped or abandoned
(R286, R292, R294), and the drains and releases of stream contexts and engines (R291 to R296, R340). -/
namespace Sys2Proof.Machine

/-- R328: the share of the CTU cap at an effort level, in twentieths. -/
def effortShare (l : Nat) : Nat := if l = 0 then 20 else if l = 1 then 15 else if l = 2 then 10 else 6

/-- R328: the effort level of the next picture. Log 130 (DEDUCED). -/
def effortOf (c : Stream) (p : Bytes) : Nat :=
  if !c.fastNext then pEffort p
  else
    let fits := fun l => decide (c.debt * 160 * max 1 (pGang p) ≤ ctuCount p * encCap p * 5 * (20 - effortShare l))
    if pEffort p ≤ 0 && fits 0 then 0
    else if pEffort p ≤ 1 && fits 1 then 1
    else if pEffort p ≤ 2 && fits 2 then 2
    else 3

/-- R336: the mean QP times 16, to the nearest. -/
def qpMean (w : Work) : Int := if w.qpCount = 0 then 0 else (32 * w.qpSum + w.qpCount) / (2 * w.qpCount : Nat)

/-- What an encode status record says beyond the work itself. -/
structure EncOut where
  au : Nat
  len : Nat
  ptr : Nat
  after : Nat
  filler : Bool
  deriving DecidableEq, Repr

/-- R336, R365: bytes 0x40 to 0xFF of an encode status record. -/
def encPic (k : Nat) (w : Work) (o : EncOut) (s : State) : Bytes :=
  let c := strm k s
  let p := w.plan.params
  let live := c.prio == 0
  let flags := b2n w.plan.key + 2 * b2n w.plan.applied + 4 * b2n c.sealedS + 8 * b2n (w.invalid != 0) + 16 * b2n (pRaw p) +
    32 * b2n w.plan.early + 64 * b2n (w.plan.irap && w.overhead.isSome)
  let rcf := b2n w.rcApplied + 2 * b2n o.filler + 4 * b2n w.capByCpb + 8 * b2n w.recoded + 16 * b2n c.rc.gap
  let pts := if live then tickTime s.cfg c.td w.tick else w.plan.pts
  leBytes 4 (twos 32 w.plan.poc) ++ leBytes 1 w.plan.nal ++ leBytes 1 w.plan.kind ++ leBytes 1 w.plan.tid ++
    leBytes 1 flags ++ leBytes 4 o.au ++ leBytes 4 o.len ++ leBytes 8 o.ptr ++ leBytes 8 pts ++ leBytes 4 w.bins ++
    leBytes 2 (twos 16 (qpMean w)) ++ leBytes 1 (twos 8 w.qpMin) ++ leBytes 1 (twos 8 w.qpMax) ++
    leBytes 2 (w.floorRows.filter (fun r => !w.degRows.contains r)).length ++ leBytes 2 w.degRows.length ++
    leBytes 4 (w.target / 65536) ++ leBytes 4 w.cap ++
    leBytes 4 (if w.overhead.isSome then ctuCount p * degBitsOf w.plan.kind p else 0) ++ leBytes 4 o.after ++
    leBytes 1 rcf ++ leBytes 1 (twos 8 w.qpPic) ++ leBytes 2 (w.overhead.getD 0) ++
    leBytes 4 (if w.overhead.isSome then ctuCount p else 0) ++ leBytes 4 w.invalid ++ leBytes 4 w.skipped ++
    leBytes 1 w.effort ++ leBytes 1 (encLanes p) ++ leBytes 2 (pTileCols p * pTileRows p) ++
    leBytes 8 (if c.sealedS && o.len != 0 then w.sealSeq else 0) ++ leBytes 8 (if live then w.tick else 0) ++ leBytes 96 0

/-- R318, R319: an abandoned picture serves no request and reports no record taking effect: the next one does. -/
def PicPlan.gone (p : PicPlan) : PicPlan := { p with key := false, applied := false, early := false }

/-- R271, R284: nanoseconds by which LIVE work has missed tick k + 2. -/
def pastNs (k : Nat) (w : Work) (s : State) : Nat := nowNs s - tickTime s.cfg (strm k s).td (w.tick + 2)

/-- R271, R284: a record with STATUS OVERRUN gives the time past the deadline. -/
def StatRec.timed (r : StatRec) (k : Nat) (w : Work) (s : State) : StatRec :=
  if r.status = 0x0B then { r with overNs := pastNs k w s } else r

/-- R271: the common part of a record about a piece of work. Log 121 (DEDUCED). -/
def workRec (k : Nat) (w : Work) (s : State) : StatRec :=
  let c := strm k s
  { engine := c.engine, flags := 8 * b2n (w.restarts != 0), kind := w.kind,
    tick := if c.prio = 0 then w.tick + 1 else 0, tStart := if w.begun then w.startNs else nowNs s, tEnd := nowNs s,
    busy := w.busy, wait := w.wait, segs := w.segments }

/-- R390: a decode status record's bytes of a tick on which nothing was decoded. Log 121 (DEDUCED). -/
def decNone (k tick flags : Nat) (s : State) : Bytes :=
  let c := strm k s
  leBytes 4 0 ++ leBytes 2 flags ++ leBytes 18 0 ++ leBytes 8 (tickTime s.cfg c.td (tick + 1)) ++ leBytes 24 0 ++
    leBytes 4 0xFFFFFFFF ++ leBytes 12 0 ++ leBytes 4 c.ausDiscarded ++ leBytes 48 0 ++ leBytes 8 tick ++ leBytes 60 0

/-- R390: AUS_DISCARDED counts since the previous record. -/
def ausTold (k : Nat) (s : State) : State := strmMod k (fun c => { c with ausDiscarded := 0 }) s

/-- R289: a routine is abandoned and does not resume. Log 136 (DEDUCED). -/
def dropWork (k : Nat) (s : State) : State :=
  let e := (strm k s).engine
  match workOf k s with
  | none => s
  | some w =>
    let s := workBufBack w (if w.begun then endWord e w true s else s)
    let s := engMod e (fun g => { g with savedWorks := Tab.del g.savedWorks k,
                                         swapTo := if g.swapTo = some k then none else g.swapTo }) s
    match (engOf e s).work with
    | some w' => if w'.sc = k then setWork e none s else s
    | none => s

/-- R290, R292: a stream returns to its state before the command; requests made since then stay. Log 120 (DEDUCED). -/
def restoreSnap (k : Nat) (s : State) : State :=
  strmMod k (fun c => match c.snap with
    | some x =>
      let g := { x.1 with keyReq := x.1.keyReq || c.gop.keyReq, pend := if c.gop.pend.isSome then c.gop.pend else x.1.pend }
      let r := { x.2 with pend := if c.rc.pend.isSome then c.rc.pend else x.2.pend }
      { c with gop := g, rc := r, snap := none }
    | none => c) s

/-- R242, R273: a LIVE picture's tick is over: its staged rows are released, its access units return to their pools. -/
def endTick (k t : Nat) (s : State) : State :=
  let c := strm k s
  let old := c.aus.filter (fun (a : Nat × Nat × Nat × Bool) => a.1 ≤ t)
  let s := old.foldl (fun s (a : Nat × Nat × Nat × Bool) => poolPut a.2.1 s) s
  let s := (s.ess.slots.map (·.1)).foldl (fun s n => match Tab.find? s.ess.slots n with
    | some x => if x.given && decide (x.tick ≤ t) && x.readers.contains k then releaseSlot (n / 4096) (n % 4096) k s else s
    | none => s) s
  strmMod k (fun c => { c with
    doneTick := some (match c.doneTick with | some d => max d t | none => t)
    ready := c.ready.filter (fun (r : Nat × Nat) => t < r.1)
    aus := c.aus.filter (fun (a : Nat × Nat × Nat × Bool) => t < a.1)
    snap := none }) s

/-- R292, R294, R334: a LIVE picture ends without being coded, with its record. Log 136 (DEDUCED). -/
def liveGone (k t status detail flags : Nat) (s : State) : State :=
  let w := match workOf k s with
    | some w => if w.tick = t then w else { Work.blank with sc := k, tick := t, kind := 1 + (strm k s).kind }
    | none => { Work.blank with sc := k, tick := t, kind := 1 + (strm k s).kind }
  let s := if (workOf k s).any (fun w => w.tick == t) then dropWork k s else s
  let enc := (strm k s).kind == 0
  let s := if enc && w.skip.isNone then strmMod k (fun c => { c with gop := c.gop.skip }) (if w.begun then restoreSnap k s else s) else s
  let g := (strm k s).gop
  let w := if w.begun then { w with plan := w.plan.gone }
    else { w with plan := { PicPlan.blank with poc := ((g.idx - 1 : Nat) : Int) - g.base, params := g.params } }
  let pic := if enc then encPic k w ⟨0, 0, 0, 0, false⟩ s else decNone k t 0 s
  let r := { workRec k w s with status := status, detail := detail, flags := flags }
  let s := statWrite k ({ r with pic := pic }.timed k w s) true s
  endTick k t (if enc then s else ausTold k s)

/-- Ticks of which a LIVE context holds input, rising. -/
def liveTicks (k : Nat) (s : State) : List Nat :=
  let c := strm k s
  let w := match workOf k s with | some w => [w.tick] | none => []
  (w ++ c.ready.map (fun (r : Nat × Nat) => r.1) ++ c.aus.map (fun (a : Nat × Nat × Nat × Bool) => a.1)).foldr insertRising []

/-- R292, R294: end a context's routine: a FILE command fails with a DETAIL, LIVE pictures are reported as dropped. -/
def abandon (k detail liveStatus : Nat) (s : State) : State :=
  if (strm k s).prio = 0 then
    (liveTicks k s).foldl (fun s t => liveGone k t liveStatus (if liveStatus = 5 then detail else 0) 2 s) s
  else
    match workOf k s with
    | none => s
    | some w =>
      let r := { workRec k w s with kind := 0, status := 5, detail := detail }
      let s := restoreSnap k (dropWork k s)
      cmdStatus k w.cmd r (strmMod k (fun c => { c with queue := c.queue.drop 1 }) s)

/-- Set the state of a context (R262); entering STOPPED pulses its source (R456). -/
def setScState (k st : Nat) (s : State) : State :=
  let s := fset F.SC_STATE_STATE k st s
  if st = 5 then pendSet (480 + k) s else s

/-- R393, R394: pictures held for output are discarded; a buffer that the host does not hold returns. -/
def dpbDrop (k : Nat) (s : State) : State :=
  let c := strm k s
  let bufs := (c.dpb.filter (fun (p : DpbPic) => p.buf != 0 && !c.hostBufs.contains (p.buf - 1))).map (fun (p : DpbPic) => p.buf - 1)
  let s := bufs.eraseDups.foldl (fun s a => poolPut a s) s
  strmMod k (fun c => { c with dpb := [], outRows := [], outRecs := [] }) s

/-- R294: the drain of a context starts. Log 136 (DEDUCED). -/
def scDrain (k : Nat) (s : State) : State :=
  let s := abandon k 2 5 s
  let s := if (strm k s).kind = 1 then dpbDrop k s else s
  setScState k 4 (dropReader k s)

/-- R443, R446: contexts that a function owns. -/
def scsOf (fn : Nat) (s : State) : List Nat :=
  (s.coding.sc.filter (fun (x : Nat × Stream) => x.2.fn == fn && scState x.1 s != 0)).map (·.1)

/-- R408: the sealed contexts that still bind a window: a coded output window of their own, or one staged for them. -/
def sealBinds (i : Nat) (s : State) : Bool :=
  s.coding.sc.any (fun (x : Nat × Stream) => x.2.sealedS && decide (2 ≤ scState x.1 s) && x.2.prio == 0 &&
    ((pOutMode x.2.gop.params != 0 && winIdx x.2.engine (pOutWindow x.2.gop.params) == i) ||
      (s.ess.ctx.map (·.1)).any (fun c => fState c s != 0 && fIngest c s &&
        (fx c 6 2 s == x.1 || (fx c 6 2 s == x.2.srcStream && pSource x.2.gop.params == 2)) &&
        fx c 5 1 s == i % 8 && (gangOf s.cfg (fx c 4 1 s)).contains (i / 8))))

/-- R340, R408: windows that no sealed context reads or writes any longer lose their seal and are zeroed. -/
def unsealWindows (s : State) : State :=
  ((List.range 384).filter (fun i => flag F.CE_WIN_STATUS_SEALED i s && !sealBinds i s)).foldl (fun s i =>
    winZero i (setFlag F.CE_WIN_STATUS_SEALED i false s)) s

/-- R408: windows that a sealed context reads or writes are sealed. -/
def sealWindows (s : State) : State :=
  ((List.range 384).filter (fun i => !flag F.CE_WIN_STATUS_SEALED i s && sealBinds i s)).foldl (fun s i =>
    setFlag F.CE_WIN_STATUS_SEALED i true s) s

/-- R296, R340: free a context: its buffers return, its budget is given back, its key register is zeroised. Log 125
(DEDUCED). Log 224 (DESIGN CHOICE). -/
def scFree (k : Nat) (s : State) : State :=
  let c := strm k s
  let s := ((decBufs c ++ c.recons ++ c.aus.map (fun (a : Nat × Nat × Nat × Bool) => a.2.1)).eraseDups).foldl (fun s a => poolPut a s) s
  let s := if c.prio = 0 ∧ 2 ≤ scState k s then
      (gangOf s.cfg c.engine).foldl (fun s e => fset F.CE_LIVE_LOAD_NS e (fget F.CE_LIVE_LOAD_NS e s - c.budget) s) s
    else s
  let s := setFlag F.SC_STATE_ENABLE_PENDING k false (setScState k 0 s)
  let s := dropReader k s
  let s := if c.sealedS then unsealWindows s else s
  { s with coding := { s.coding with sc := Tab.del s.coding.sc k } }

/-- R296: close a context; `cmd` is its command record, empty when the device closes it itself. A RESERVED context is
freed at once. Log 125 (DEDUCED). -/
def scClose (k : Nat) (cmd : Bytes) (s : State) : State :=
  if scState k s = 0 then s
  else if scState k s = 1 then scFree k s
  else
    let s := setFlag F.SC_STATE_ENABLE_PENDING k false s
    let s := if scState k s = 4 then s else scDrain k s
    strmMod k (fun c => { c with closing := some cmd }) s

/-- R273: LIVE contexts of an engine. -/
def liveScs (e : Nat) (s : State) : List Nat :=
  (s.coding.sc.filter (fun (x : Nat × Stream) => x.2.prio == 0 && x.2.engine == e && decide (2 ≤ scState x.1 s))).map (·.1)

/-- R292, R293: ENABLE of an engine, and of its gang, is written 0. Log 136 (DEDUCED). -/
def ceOff (e : Nat) (s : State) : State :=
  let h := gangHead s.cfg e
  if flag F.CE_STATUS_DRAINING h s then gangFlag F.CE_STATUS_ENABLE_PENDING h false (gangEnable h false s)
  else if flag F.CE_STATUS_ENABLED h s then
    let ms := gangOf s.cfg h
    let s := (liveScs h s).foldl (fun s k => abandon k 1 0x0B s) s
    let s := (match (engOf h s).work with
      | some w => abandon w.sc 1 0x0B s
      | none => s)
    let ks := ((engOf h s).savedWorks.filter (fun (x : Nat × Work) => x.2.begun)).map (·.1)
    let s := ks.foldl (fun s k => abandon k 1 0x0B s) s
    let s := engMod h (fun g => { g with swapTo := none, loaded := none, saved := true }) s
    ms.foldl (fun s m => setFlag F.CE_STATUS_DRAINING m true (setFlag F.CE_STATUS_ENABLED m false (setFlag F.CE_CTRL_ENABLE m false s))) s
  else gangEnable h false s

/-- R291, R293: ENABLE of an engine, and of its gang, is written 1. -/
def ceOn (e : Nat) (s : State) : State :=
  let h := gangHead s.cfg e
  let s := gangEnable h true s
  if flag F.CE_STATUS_DRAINING h s then gangFlag F.CE_STATUS_ENABLE_PENDING h true s
  else if flag F.CE_STATUS_ENABLED h s then s
  else ceStart h s

end Sys2Proof.Machine
end

