-- ==== Sys2Proof/Machine/EventLog.lean ====
section
/-! DEFINITION. The signed event log in the flashes (R537 to R543): entries, blocks, chain and signature. -/
namespace Sys2Proof.Machine

/-- R470: the alias certificate of a boot, as X.509 lays it out. Log 167 (DESIGN CHOICE). -/
def aliasCert (s : State) : Bytes := Config.spdmBody [] s.ward.aliasSeed

/-- R541: ALIAS_ID of the present alias certificate. -/
def aliasId (s : State) : Bytes := fitTo 8 (Config.sha384 (aliasCert s))

/-- A block that was never opened. -/
def LogBlock.blank : LogBlock :=
  { erases := 0, firstSeq := 0, chainIn := [], boot := 0, entries := [], chainOut := [], signature := [], aliasId := [],
    closed := false }

def logBlock (n : Nat) (s : State) : LogBlock := Tab.get LogBlock.blank s.tch.blocks n
def logSet (n : Nat) (b : LogBlock) (s : State) : State :=
  { s with tch := { s.tch with blocks := Tab.put s.tch.blocks n b } }

/-- R539: the header of a block. -/
def LogBlock.header (b : LogBlock) : Bytes :=
  leBytes 4 0x474C5A44 ++ leBytes 4 b.erases ++ leBytes 8 b.firstSeq ++ fitTo 16 Config.serial ++ fitTo 16 b.chainIn ++
    leBytes 4 b.boot ++ leBytes 76 0

/-- R539: the first 32 bytes of the trailer, which the signature covers. -/
def LogBlock.trailer (b : LogBlock) : Bytes :=
  leBytes 2 b.entries.length ++ leBytes 6 0 ++ fitTo 16 b.chainOut ++ fitTo 8 b.aliasId

/-- R539: the 64 KiB of a block; a place that is not written reads as erased flash. Log 182 (DEDUCED). -/
def LogBlock.image (b : LogBlock) : Bytes :=
  let e := b.entries.flatten
  b.header ++ e ++ List.replicate (1020 * 64 - e.length) 0xFF#8 ++
    (if b.closed then fitTo 128 (b.trailer ++ fitTo 96 b.signature) else List.replicate 128 0xFF#8)

/-- R537, R538: write bytes to both flashes, skipping one on which the block is marked bad. Log 181 (DESIGN CHOICE).
-/
def flashBoth (block off : Nat) (d : Bytes) (s : State) : State :=
  [0, 1].foldl (fun s f =>
    if Tab.get false s.tch.bad (f * 720 + block) then s
    else emit (.flash f (0x1300000 + block * 65536 + off) d) s) s

/-- R538: the place is marked bad on both flashes. -/
def logLost (n : Nat) (s : State) : Bool := Tab.get false s.tch.bad n && Tab.get false s.tch.bad (720 + n)

/-- R538: the place of the ring that the next block takes. Log 181 (DESIGN CHOICE). -/
def logNext (s : State) : Nat :=
  let from_ := if s.tch.blocks.isEmpty then 0 else s.tch.block + 1
  (((List.range 720).map (fun i => (from_ + i) % 720)).find? (fun n => !logLost n s)).getD (from_ % 720)

/-- R538: open the next block of the ring. -/
def logOpen (s : State) : State :=
  if s.tch.blockOpen then s
  else
    let n := logNext s
    let b := { LogBlock.blank with erases := (logBlock n s).erases + 1, firstSeq := s.tch.seq, chainIn := s.tch.chain,
                                   boot := s.tch.bootCount }
    let s := logSet n b { s with tch := { s.tch with block := n, blockOpen := true } }
    flashBoth n 0 b.header s

/-- R541: close the open block, signed with the alias key. -/
def logClose (s : State) : State :=
  if !s.tch.blockOpen then s
  else
    let n := s.tch.block
    let b := logBlock n s
    let b := { b with chainOut := s.tch.chain, aliasId := aliasId s, closed := true }
    let sig := Config.ecdsaSign s.ward.aliasSeed (b.header ++ b.entries.flatten ++ b.trailer)
    let b := { b with signature := fitTo 96 sig }
    let s := logSet n b { s with tch := { s.tch with blockOpen := false } }
    let s := { s with tch := { s.tch with certs := (aliasId s, aliasCert s) :: s.tch.certs.filter (fun x => x.1 != aliasId s) } }
    flashBoth n 0xFF80 (fitTo 128 (b.trailer ++ b.signature)) s

/-- R540: program one entry. -/
def logProgram (kind : Nat) (data : Bytes) (time flags : Nat) (s : State) : State :=
  let s := logOpen s
  let body := leBytes 8 s.tch.seq ++ leBytes 8 time ++ leBytes 4 s.tch.bootCount ++ leBytes 2 kind ++ leBytes 2 flags ++
    fitTo 24 data
  let chain := fitTo 16 (Config.sha384 (fitTo 16 s.tch.chain ++ body))
  let n := s.tch.block
  let b := logBlock n s
  let i := b.entries.length
  let s := logSet n { b with entries := b.entries ++ [body ++ chain] } s
  let s := { s with tch := { s.tch with seq := s.tch.seq + 1, chain := chain } }
  let s := flashBoth n (128 + 64 * i) (body ++ chain) s
  if i + 1 ≥ 1020 then logClose s else s

/-- R543: write the oldest queued entry, after the entry that reports lost ones. -/
def logWriteOne (s : State) : State :=
  match s.tch.queue with
  | [] => s
  | (k, d, t, fl) :: r =>
    let s := if s.tch.lost = 0 then s
      else
        let n := s.tch.lost
        let t := logTime s
        logProgram 0xF0 (leBytes 4 n) t.1 t.2 { s with tch := { s.tch with lost := 0 } }
    logProgram k d t fl { s with tch := { s.tch with queue := r } }

/-- Write everything that is queued. -/
def logWriteAll (s : State) : State := s.tch.queue.foldl (fun s _ => logWriteOne s) s

/-- R541: write what is queued and close the block. -/
def logSealNow (s : State) : State := logClose (logWriteAll s)

end Sys2Proof.Machine
end

