-- ==== Sys2Proof/Machine/Flags.lean ====
section
/-! DEFINITION. The Hasp (chapter 14): effective class, latching, merging, escalation, windows, isolation, LOCKDOWN, and
the levels of the pins that follow them (R521, R593). -/
namespace Sys2Proof.Machine

def haspIsSet (n : Nat) (s : State) : Bool := flag F.HASP_SRC_STATE_SET n s
def haspCause (n : Nat) (s : State) : Bool := flag F.HASP_SRC_STATE_CAUSE n s
def haspAcked (n : Nat) (s : State) : Bool := flag F.HASP_SRC_STATE_ACKED n s
def haspForced (n : Nat) (s : State) : Bool := Tab.get false s.hasp.forced n

/-- CLASS + LASTING of a source. -/
def haspBase (n : Nat) (s : State) : Nat :=
  fget F.HASP_SRC_CLASS_CLASS n s + fget F.HASP_SRC_STATE_LASTING n s

/-- R515, R510, R580: the effective class; CLASS while the bit is clear (R532). -/
def haspEff (n : Nat) (s : State) : Nat :=
  if !haspIsSet n s then fget F.HASP_SRC_CLASS_CLASS n s
  else if haspForced n s then 4
  else min 4 (haspBase n s + fget F.HASP_SRC_STATE_ESCALATED n s)

/-- The sources whose bit is set. -/
def haspSetList (s : State) : List Nat := (List.range 64).filter (fun n => haspIsSet n s)

/-- R521: some set bit stands at or above FAULT_N_CLASS. -/
def haspFault (s : State) : Bool :=
  (haspSetList s).any (fun n => decide (fget F.HASP_CTRL_FAULT_N_CLASS 0 s ≤ haspEff n s))

/-- A set bit of effective class C4 stands. -/
def haspC4 (s : State) : Bool := (haspSetList s).any (fun n => haspEff n s == 4)

/-- R521, R593: FAULT_N is held low. -/
def faultLow (s : State) : Bool :=
  if s.mode == .off || s.power.inReset || flag F.GLB_MODE_BOARD_TEST 0 s then false
  else s.mode == .lockdown || haspFault s

/-- R521, R586, R593: the level of READY. -/
def readyHigh (s : State) : Bool := s.mode == .operate && !haspFault s && !s.power.gated && !s.power.inReset

/-- R129, R593: the device drives SHK_FAULT_N low. -/
def shkDrive (s : State) : Bool :=
  s.mode == .off || s.power.inReset || s.mode == .boot || (faultLow s && flag F.HASP_CTRL_DRIVE_SHK_FAULT 0 s)

/-- R532: HASP_SRC_STATE as a read returns it. -/
def haspStateWord (n : Nat) (s : State) : Nat :=
  fget F.HASP_SRC_STATE_REPEAT n s * 2 ^ 24 + fget F.HASP_SRC_STATE_DETAIL n s * 2 ^ 16 + haspEff n s * 2 ^ 8 +
    fget F.HASP_SRC_STATE_CAUSE n s * 32 + fget F.HASP_SRC_STATE_LASTING n s * 16 +
    fget F.HASP_SRC_STATE_ESCALATED n s * 8 + fget F.HASP_SRC_STATE_ACKED n s * 4 + fget F.HASP_SRC_STATE_SET n s

/-- R527: the trace word of an event. -/
def haspWord (ev n : Nat) (s : State) : Nat :=
  2 ^ 28 + ev * 2 ^ 25 + fget F.HASP_SRC_STATE_ESCALATED n s * 2 ^ 24 + n * 2 ^ 18 + haspEff n s * 2 ^ 15 +
    fget F.HASP_SRC_STATE_DETAIL n s * 2 ^ 7 + min 127 (fget F.HASP_SRC_STATE_REPEAT n s)

/-- R528: the log entry of an event. -/
def haspLog (ev n : Nat) (s : State) : State :=
  logPush 0x10 (leBytes 4 (haspWord ev n s) ++ leBytes 4 (haspStateWord n s)) s

/-- R527, R528: an event offers its trace word, and is logged where R528 says so. -/
def haspEvent (ev n : Nat) (s : State) : State :=
  let w := haspWord ev n s
  let logged := if ev = 5 then false else if ev = 1 then false else true
  traceOffer w (if logged then haspLog ev n s else s)

/-- R509: the isolate actions, as the register writes they are. Log 177 (DEDUCED). -/
def haspIsolate (n detail : Nat) (s : State) : State :=
  if n = 3 ∨ n = 4 then logClose { s with tch := { s.tch with startedAt := s.time.cclk } }
  else if n = 20 then (List.range 64).foldl (fun s c => dcOff c s) s
  else if 21 ≤ n ∧ n ≤ 26 then (if detail < 48 then ceOff detail s else s)
  else if 28 ≤ n ∧ n ≤ 35 then (List.range 32).foldl (fun s i => macOff (32 * (n - 28) + i) s) s
  else if 37 ≤ n ∧ n ≤ 40 then (if detail < 32 then (List.range 8).foldl (fun s i => macOff (8 * detail + i) s) s else s)
  else if n = 41 then macOff detail s
  else if 42 ≤ n ∧ n ≤ 44 then flOff (n - 42) s
  else s

/-- R592, R541: entry to LOCKDOWN. -/
def lockdownEnter (cause : Nat) (s : State) : State :=
  let s := zeroiseKeys (stopAll s)
  let s := setFlag F.GLB_MODE_TRANSITION 0 false s
  let s := { s with power := { s.power with armed := none, held := none, heldConfigure := false, gated := false,
                                            resuming := false, lockHeld := false } }
  logSealNow (enterMode .lockdown cause s)

/-- R519, R531, R571, R588, R648: a source requests LOCKDOWN. Log 36 (DEDUCED). Log 178 (DEDUCED). -/
def lockReq (n : Nat) (s : State) : State :=
  if s.mode == .lockdown || s.mode == .off then s
  else
    let s := haspEvent 6 n s
    let s := if flag F.HASP_PINS_LOCK_VALID 0 s then s
      else fset F.HASP_PINS_LOCK_SOURCE 0 n (setFlag F.HASP_PINS_LOCK_VALID 0 true s)
    if s.mode == .boot then { s with power := { s.power with lockHeld := true } }
    else if s.mode == .standby then
      let due := decide (s.power.reachedAt + 80000 ≤ s.time.cclk)
      let s := if s.power.resuming || due then fset F.GLB_MODE_TARGET 0 5 (setFlag F.GLB_MODE_TRANSITION 0 true s) else s
      let woke := if s.power.resuming then s.power.wokeAt else s.time.cclk
      { s with power := { s.power with lockHeld := true, resuming := s.power.resuming || due, wokeAt := woke } }
    else lockdownEnter 5 s

/-- R516: a latch of `n` would escalate. -/
def haspEscalates (n : Nat) (s : State) : Bool :=
  n != 11 && (haspSetList s).any (fun m => m != n && !haspAcked m s && haspEff m s == haspBase n s)

/-- R517: count a rise in the window; answers whether LASTING is due. Log 175 (DEDUCED). -/
def haspCountRise (n : Nat) (s : State) : Bool × State :=
  let lim := fget F.HASP_SRC_WINDOW_N n s
  if lim = 0 then (false, s)
  else
    let isOpen := match Tab.find? s.hasp.window n with
      | some c => decide (s.time.cclk < c)
      | none => false
    let cnt := if isOpen then min 65535 (fget F.HASP_SRC_WIN_COUNT n s + 1) else 1
    let s := if isOpen then s
      else { s with hasp := { s.hasp with
          window := Tab.put s.hasp.window n (s.time.cclk + fget F.HASP_SRC_WINDOW_WINDOW_MS n s * 1600000) } }
    (decide (lim ≤ cnt), fset F.HASP_SRC_WIN_COUNT n cnt s)

/-- R517: rises in the open window of a source; 0 when none is open. -/
def haspWinCount (n : Nat) (s : State) : Nat :=
  if (Tab.find? s.hasp.window n).any (fun c => decide (s.time.cclk < c)) then fget F.HASP_SRC_WIN_COUNT n s else 0

/-- R517: the window of a source is open and its count has reached N. -/
def haspLastingHolds (n : Nat) (s : State) : Bool :=
  let lim := fget F.HASP_SRC_WINDOW_N n s
  lim != 0 && decide (lim ≤ haspWinCount n s)

/-- R519: the reaction of a source at a latch or a merge, outside LOCKDOWN. -/
def haspReact (n detail : Nat) (s : State) : State :=
  if s.mode == .lockdown then s
  else if 2 ≤ fget F.HASP_SRC_CLASS_REACTION n s then haspIsolate n detail s else s

/-- R514 to R519: a latch. Log 226 (DEDUCED). -/
def haspLatch (n detail : Nat) (lasting forced : Bool) (s : State) : State :=
  let old := s
  let first := (haspSetList s).isEmpty
  let s := setFlag F.HASP_SRC_STATE_LASTING n lasting s
  let s := setFlag F.HASP_SRC_STATE_ESCALATED n (haspEscalates n s) s
  let s := fset F.HASP_SRC_STATE_REPEAT n 0 (setFlag F.HASP_SRC_STATE_ACKED n false s)
  let s := setFlag F.HASP_SRC_STATE_SET n true (fset F.HASP_SRC_STATE_DETAIL n detail s)
  let s := if forced then { s with hasp := { s.hasp with forced := Tab.set false s.hasp.forced n true } } else s
  let s := bump F.HASP_LATCHES_COUNT 0 s
  let s := if first then
      fset F.HASP_FIRST_CLASS 0 (haspEff n s) (fset F.HASP_FIRST_SOURCE 0 n (setFlag F.HASP_FIRST_VALID 0 true s))
    else s
  let s := haspReact n detail (haspEvent 0 n (riseIf (24 + n) old s))
  if haspEff n s = 4 then lockReq n s else s

/-- R514, R518: a merge. Log 175 (DEDUCED). Log 226 (DEDUCED). -/
def haspMerge (n detail : Nat) (lasting : Bool) (s : State) : State :=
  let was := haspEff n s
  let rep := fget F.HASP_SRC_STATE_REPEAT n s
  let s := fset F.HASP_SRC_STATE_DETAIL n detail (fset F.HASP_SRC_STATE_REPEAT n (min 255 (rep + 1)) s)
  let s := haspEvent 1 n s
  let s := if rep = 254 then haspLog 1 n s else s
  let s := haspReact n detail s
  if lasting && !flag F.HASP_SRC_STATE_LASTING n s then
    let s := haspEvent 2 n (setFlag F.HASP_SRC_STATE_LASTING n true s)
    if haspEff n s = 4 ∧ was ≠ 4 then lockReq n s else s
  else s

/-- R514: a rise of a source's line. Log 226 (DEDUCED). -/
def haspRise (n detail : Nat) (s : State) : State :=
  if 56 ≤ n then s
  else
    let c := haspCountRise n s
    if haspIsSet n c.2 then haspMerge n detail c.1 c.2 else haspLatch n detail c.1 false c.2

/-- R510, R580: the Ward or the self-test latches a source at effective class C4. -/
def haspForce (n detail : Nat) (s : State) : State :=
  if haspIsSet n s then
    let s := haspMerge n detail false { s with hasp := { s.hasp with forced := Tab.set false s.hasp.forced n true } }
    lockReq n s
  else haspLatch n detail false true s

/-- R403, R411: a request to the pool manager; poisoned buffer state raises its Hasp source. -/
def poolAsk (size owner : Nat) (sld : Bool) (s : State) : PoolAns × State :=
  let a := poolTake size owner sld s
  if a.1.result = 5 then (a.1, haspRise 17 0 a.2) else a

/-- R509: the line of a condition source. -/
def haspLevel (n : Nat) (high : Bool) (s : State) : State := setFlag F.HASP_SRC_STATE_CAUSE n high s

/-- R524: end a bit. Log 176 (DEDUCED). -/
def haspEnd (n : Nat) (s : State) : State :=
  let s := setFlag F.HASP_SRC_STATE_LASTING n false (setFlag F.HASP_SRC_STATE_ESCALATED n false s)
  let s := fset F.HASP_SRC_STATE_REPEAT n 0 (setFlag F.HASP_SRC_STATE_ACKED n false s)
  setFlag F.HASP_SRC_STATE_SET n false { s with hasp := { s.hasp with forced := Tab.del s.hasp.forced n } }

/-- R524, R525: a write of 1 to the bit of source `n`; true when the clear ends LOCKDOWN. Log 176 (DEDUCED). -/
def haspClearBit (n : Nat) (s : State) : Bool × State :=
  if !haspIsSet n s then (false, s)
  else
    let was := haspEff n s
    if was = 4 ∧ (flag F.HASP_CTRL_C4_EXIT 0 s = false ∨ haspForced n s = true) then (false, s)
    else if haspCause n s then
      let s := setFlag F.HASP_SRC_STATE_LASTING n (haspLastingHolds n s) s
      let s := setFlag F.HASP_SRC_STATE_ESCALATED n (haspEscalates n s) s
      let s := fset F.HASP_SRC_STATE_REPEAT n 0 (setFlag F.HASP_SRC_STATE_ACKED n false s)
      let s := haspEvent 4 n s
      (false, if haspEff n s = 4 ∧ was ≠ 4 then lockReq n s else s)
    else
      let s := haspEvent 3 n (haspEnd n s)
      if was = 4 ∧ haspC4 s = false then
        let s := setFlag F.HASP_PINS_LOCK_VALID 0 false s
        if s.mode == .lockdown then (true, haspEvent 7 n s) else (false, s)
      else (false, s)

/-- R513, R524: a write to HASP_STATUS_LO or HASP_STATUS_HI, bits in ascending order. -/
def haspClearWord (hi : Bool) (w : Nat) (s : State) : Bool × State :=
  (List.range 32).foldl (fun a b =>
    if bit w b then
      let r := haspClearBit (b + if hi then 32 else 0) a.2
      (a.1 || r.1, r.2)
    else a) (false, s)

/-- R523: a write to HASP_ACK_LO or HASP_ACK_HI. -/
def haspAckWord (hi : Bool) (w : Nat) (s : State) : State :=
  (List.range 32).foldl (fun s b =>
    let n := b + if hi then 32 else 0
    if bit w b && haspIsSet n s then haspEvent 5 n (setFlag F.HASP_SRC_STATE_ACKED n true s) else s) s

/-- R511: the effects of a change of policy from `old`: bits brought to C4 request LOCKDOWN, lines follow. -/
def haspPolicyChanged (old s : State) : State :=
  (List.range 64).foldl (fun s n =>
    let s := riseIf (24 + n) old s
    if haspIsSet n s && haspEff n s == 4 && haspEff n old != 4 then lockReq n s else s) s

/-- R511: the defaults of R509 and R511 return. -/
def haspDefaults (s : State) : State :=
  let old := s
  let gone := [F.HASP_SRC_CLASS_REACTION, F.HASP_SRC_CLASS_CLASS, F.HASP_SRC_WINDOW_WINDOW_MS, F.HASP_SRC_WINDOW_N,
    F.HASP_CTRL_FAULT_N_CLASS, F.HASP_CTRL_C4_EXIT, F.HASP_CTRL_DRIVE_SHK_FAULT, F.HASP_CTRL_POLICY_IMAGE]
  haspPolicyChanged old { s with regs := s.regs.filter (fun x => !gone.any (fun f => f.key 0 == x.1 % 16384)) }

/-- R511: the FAULT_POLICY of the image in force takes effect. -/
def haspPolicy (s : State) : State :=
  let old := s
  let c := s.cfg
  let s := fset F.HASP_CTRL_FAULT_N_CLASS 0 (fpClass c) (fset F.HASP_CTRL_C4_EXIT 0 (fpC4Exit c) s)
  let s := setFlag F.HASP_CTRL_POLICY_IMAGE 0 true (setFlag F.HASP_CTRL_DRIVE_SHK_FAULT 0 (fpDrive c) s)
  let s := (List.range 64).foldl (fun s n =>
    match fpRec c n with
    | some r =>
      let s := fset F.HASP_SRC_CLASS_CLASS n (byteAt r 1) (fset F.HASP_SRC_CLASS_REACTION n (byteAt r 2) s)
      fset F.HASP_SRC_WINDOW_N n (fieldLE r 6 2) (fset F.HASP_SRC_WINDOW_WINDOW_MS n (fieldLE r 4 2) s)
    | none => s) s
  haspPolicyChanged old s

end Sys2Proof.Machine
end

