-- ==== Sys2Proof/Machine/Time.lean ====
section
/-! DEFINITION. Facility time (chapter 03): the clock source, time steps, snapshots, the tick generator, the SYNC_IO balls
and the interval timers; and the core cycle that passes while no command waits. -/
namespace Sys2Proof.Machine

/-! ### One core cycle -/

/-- R556, R558, R560: in one core cycle the sequencer queue and the postcard queue each offer one word. Log 2
(DESIGN CHOICE). -/
def drainTrace (s : State) : State :=
  let s := match s.trc.seqq with
    | w :: r => traceOffer w { s with trc := { s.trc with seqq := r } }
    | [] => s
  match s.trc.postcards with
  | w :: r => traceOffer w { s with trc := { s.trc with postcards := r } }
  | [] => s

/-- What happens in one core cycle in which no command is at the front of the queue. Log 2 (DESIGN CHOICE). -/
def idleCclk (s : State) : State := drainTrace (puntAccept (arbCycle (passCclk 1 s)))

/-! ### Ticks (R20, R21, R96, R106, R107) -/

/-- PTP time in ns, rounded up. -/
def nowCeil (s : State) : Nat := ceilDiv s.time.ptp (2 ^ 28)

/-- The first index whose t(k) lies at or after an instant. -/
def firstTickAt (c : Cfg) (td t : Nat) : Nat := ceilDiv (t * tdD c td) (tdN c td * 10 ^ 9)

/-- R106: the domain is enabled by the image in force. -/
def tdEnabled (td : Nat) (s : State) : Bool := flag F.TICK_CTRL_ENABLED td s && tdN s.cfg td != 0

def tickNext (td : Nat) (s : State) : Nat := Tab.get 0 s.time.tickNext td
def setTickNext (td k : Nat) (s : State) : State :=
  { s with time := { s.time with tickNext := Tab.set 0 s.time.tickNext td k } }

/-- R106: index of the last tick seen. -/
def tickIdx (td : Nat) (s : State) : Nat := fget F.TICK_IDX_HI_IDX td s * 2 ^ 32 + fget F.TICK_IDX_LO_IDX td s

/-- R107: a domain's next tick, from the present on; no index is emitted twice. Log 57 (DEDUCED). -/
def tickArm (td : Nat) (s : State) : State := setTickNext td (max (tickNext td s) (firstTickAt s.cfg td (nowCeil s))) s

/-- R107: every enabled domain counts from the instant at which RUN becomes 1. -/
def tickArmAll (s : State) : State := (List.range 8).foldl (fun s td => if tdEnabled td s then tickArm td s else s) s

/-- R96: after a forward step, the ticks passed over are counted and not emitted. -/
def tickSkip (td : Nat) (s : State) : State :=
  let k := firstTickAt s.cfg td (nowCeil s)
  let n := tickNext td s
  if k ≤ n then s
  else setTickNext td k (fset F.TICK_SKIP_COUNT td (min 65535 (fget F.TICK_SKIP_COUNT td s + (k - n))) s)

/-! ### Output lines (R108, R109, R129) -/

/-- The level that an output line has before INVERT. -/
def lineUp (n : Nat) (s : State) : Bool := Tab.get 0 s.time.pulse n != 0

/-- R108: raise a line for `width` ns, with its edge at the ball. The pulse ends at an instant of PTP time. Log 205
(DEDUCED). -/
def pulseLine (n width : Nat) (s : State) : State :=
  let inv := n < 8 && ballInvert s.cfg n
  let s := if lineUp n s then s else emit (.edge n (!inv)) s
  { s with time := { s.time with pulse := Tab.put s.time.pulse n (nowNs s + width + 1) } }

/-- R109: the device drives the ball. -/
def ballDriven (b : Nat) (s : State) : Bool :=
  let f := ballFn s.cfg b
  f == 1 || f == 2 || f == 3 || (f == 5 && bit (fget F.SYNC_GPIO_OE 0 s) b)

/-- R108, R109: the level at a ball. Log 207 (DEDUCED). -/
def ballLevel (b : Nat) (s : State) : Bool :=
  let f := ballFn s.cfg b
  if !ballDriven b s then Tab.get false s.time.ballIn b
  else
    let v := if f = 5 then bit (fget F.SYNC_GPIO_OUT 0 s) b else lineUp b s
    v != ballInvert s.cfg b

/-- R109: SYNC_GPIO.IN. -/
def gpioIn (s : State) : Nat :=
  (List.range 8).foldl (fun v b => v + b2n (ballLevel b s != (ballInvert s.cfg b && ballFn s.cfg b != 0)) * 2 ^ b) 0

/-- R109, R110: a write to SYNC_GPIO. -/
def gpioWrite (w : Word) (s : State) : State :=
  let oe := wfld F.SYNC_GPIO_OE w
  let out := wfld F.SYNC_GPIO_OUT w
  let bad := (List.range 8).any (fun b => ballFn s.cfg b != 5 &&
    (bit oe b != bit (fget F.SYNC_GPIO_OE 0 s) b || bit out b != bit (fget F.SYNC_GPIO_OUT 0 s) b))
  if bad then fset F.SYNC_GPIO_RESULT 0 3 s
  else
    let old := s
    let s := fset F.SYNC_GPIO_RESULT 0 0 (fset F.SYNC_GPIO_OUT 0 out (fset F.SYNC_GPIO_OE 0 oe s))
    (List.range 8).foldl (fun s b =>
      if ballDriven b s && ballLevel b s != ballLevel b old then emit (.edge b (ballLevel b s)) s else s) s

/-! ### Timers (R111 to R114) -/

def tmrRunning (t : Nat) (s : State) : Bool := flag F.TMR_CTRL_RUNNING t s
def tmrP (t : Nat) (s : State) : Nat := Tab.get 0 s.time.tmrPeriod t
def tmrS (t : Nat) (s : State) : Nat := Tab.get 0 s.time.tmrStart t
/-- R114: instant of the next firing. -/
def tmrAt (t : Nat) (s : State) : Nat := tmrS t s + Tab.get 0 s.time.tmrNext t * tmrP t s

/-- Smallest m with S + m * P at or after an instant. -/
def firstFiring (st p t : Nat) : Nat := if t ≤ st then 0 else ceilDiv (t - st) p

/-- R114: start a timer. -/
def tmrStart (t : Nat) (s : State) : State :=
  let st := nearestSec (fget F.TMR_START_SEC_SEC t s) s * 10 ^ 9 + fget F.TMR_START_NS_NS t s
  let p := fget F.TMR_PERIOD_NS_NS t s
  let m := firstFiring st p (nowCeil s + 1000)
  let s := setFlag F.TMR_CTRL_RUNNING t true s
  { s with time := { s.time with tmrStart := Tab.put s.time.tmrStart t st, tmrPeriod := Tab.put s.time.tmrPeriod t p,
                                 tmrNext := Tab.put s.time.tmrNext t m } }

/-- R114: after a forward step, the firings passed over are not emitted. -/
def tmrSkip (t : Nat) (s : State) : State :=
  if !tmrRunning t s then s
  else
    let m := max (Tab.get 0 s.time.tmrNext t) (firstFiring (tmrS t s) (tmrP t s) (nowCeil s))
    { s with time := { s.time with tmrNext := Tab.put s.time.tmrNext t m } }

/-- R113: the mode that the image's owner of a timer uses, if it has one. -/
def tmrOwner (t : Nat) (s : State) : Option Nat :=
  let c := s.cfg
  if (List.range 8).any (fun b => ballFn c b == 3 && ballTimer c b == t) then some 1
  else if (List.range 8).any (fun b => ballFn c b == 4 && ballTimer c b == t) then some 2
  else if secHas c 11 && (List.range 64).any (fun g => grTimer c g == t) then some 0
  else none

/-- R113: the result of the checks of a write to TMR_CTRL. -/
def tmrCheck (t mode : Nat) (start : Bool) (s : State) : Nat :=
  let p := fget F.TMR_PERIOD_NS_NS t s
  let w := fget F.TMR_PULSE_NS_NS t s
  if mode = 3 then 6
  else
    let own := match tmrOwner t s with
      | some m => if m = mode then 0 else 3
      | none => if mode = 0 then 0 else 6
    if own ≠ 0 then own
    else if start && (decide (p < 1000) || (mode == 1 && (decide (w < 8) || decide (p < w + 8)))) then 6
    else 0

/-- R112, R113: a write to TMR_CTRL; a write of both STOP and START stops the timer. Log 60 (DEDUCED). -/
def tmrCtrlWrite (t : Nat) (w : Word) (s : State) : State :=
  let mode := wfld F.TMR_CTRL_MODE w
  let r := tmrCheck t mode (wbit F.TMR_CTRL_START w) s
  let s := fset F.TMR_CTRL_RESULT t r s
  if r ≠ 0 then s
  else
    let s := fset F.TMR_CTRL_MODE t mode s
    let s := if wbit F.TMR_CTRL_START w then tmrStart t s else s
    if wbit F.TMR_CTRL_STOP w then setFlag F.TMR_CTRL_RUNNING t false s else s

/-! ### TIME_CTRL (R95, R96, R104) -/

/-- R96: the signed step in TIME_STEP_SEC and TIME_STEP_NS, in units of 2^-28 ns. -/
def stepUnits (s : State) : Int :=
  let d : Int := ((fget F.TIME_STEP_SEC_SEC 0 s * 10 ^ 9 + fget F.TIME_STEP_NS_NS 0 s) * 2 ^ 28 : Nat)
  if flag F.TIME_STEP_NS_SIGN 0 s then -d else d

/-- R96: apply a step of `d` units of 2^-28 ns. Log 58 (DEDUCED). -/
def timeStepBy (d : Int) (s : State) : State :=
  let p := ((s.time.ptp : Int) + d) % (ptpWrap : Int)
  let s := { s with time := { s.time with ptp := p.toNat } }
  let s := if 0 < d then
      let s := (List.range 8).foldl (fun s td => if tdEnabled td s && running s then tickSkip td s else s) s
      (List.range 16).foldl (fun s t => tmrSkip t s) s
    else s
  setEvent F.TIME_STATUS_STEPPED 0 94 s

/-- R104: latch the time. -/
def takeSnapshot (s : State) : State :=
  let t := nowNs s
  fset F.TIME_SNAP_NS_NS 0 (nsNs t) (fset F.TIME_SNAP_SEC_LO_SEC 0 (nsSec t % 2 ^ 32)
    (fset F.TIME_SNAP_SEC_HI_SEC 0 (nsSec t / 2 ^ 32) s))

/-- R95: FREQ_IN_DISABLE changes. -/
def freqDisable (b : Bool) (s : State) : State :=
  let was := flag F.TIME_CTRL_FREQ_IN_DISABLE 0 s
  let s := setFlag F.TIME_CTRL_FREQ_IN_DISABLE 0 b s
  if b then setFlag F.TIME_STATUS_FREQ_SRC 0 false s
  else if was then { s with time := { s.time with freqFrom := s.time.cclk } } else s

/-- R104, R605: a write to TIME_CTRL. -/
def timeCtrlWrite (w : Word) (s : State) : State :=
  let was := running s
  let s := setFlag F.TIME_CTRL_RUN 0 (wbit F.TIME_CTRL_RUN w) (freqDisable (wbit F.TIME_CTRL_FREQ_IN_DISABLE w) s)
  let s := if running s && !was then tickArmAll s else s
  let s := if wbit F.TIME_CTRL_SNAPSHOT w then takeSnapshot s else s
  if wbit F.TIME_CTRL_STEP w then timeStepBy (stepUnits s) s else s

/-- R103: a value written to TIME_INCR is held within its range. -/
def timeIncrSet (v : Nat) (s : State) : State := fset F.TIME_INCR_INCR 0 (clampN 0x0FFBE76D 0x10041893 v) s

/-- A word with one bit forced. Log 15 (DEDUCED). -/
def withBit (w : Word) (n : Nat) (b : Bool) : Word := if b then w ||| BitVec.ofNat 32 (2 ^ n) else w &&& ~~~ BitVec.ofNat 32 (2 ^ n)

/-! ### The commands -/

/-- FREQ_IN_LOST (R95): the unit changes to SYSCLK without a step. -/
def execFreqInLost (s : State) : Host.Outcome State Fault Refusal :=
  let s := { s with time := { s.time with freqClean := false, freqFrom := s.time.cclk } }
  .next (if flag F.TIME_STATUS_FREQ_SRC 0 s then
    haspRise 10 0 (setEvent F.TIME_STATUS_FREQ_IN_LOST 0 92 (setFlag F.TIME_STATUS_FREQ_SRC 0 false s))
  else s)

/-- FREQ_IN_RESTORE (R95): 10 ms of a clean signal have passed. Log 61 (DEDUCED). -/
def execFreqInRestore (s : State) : Host.Outcome State Fault Refusal :=
  let s := { s with time := { s.time with freqClean := true } }
  .next (if flag F.TIME_CTRL_FREQ_IN_DISABLE 0 s then s
    else if flag F.TIME_STATUS_FREQ_SRC 0 s then s
    else setFlag F.TIME_STATUS_FREQ_SRC 0 true (reachCclk (s.time.freqFrom + 16000000) s))

/-- FREQ_IN_DISABLE_SET (R95). -/
def execFreqInDisableSet (fn : Fn) (w : Word) (s : State) : Host.Outcome State Fault Refusal :=
  .next (hostWr fn .TIME_CTRL 0 s (timeCtrlWrite (withBit w 3 true)))

/-- FREQ_IN_DISABLE_CLEAR (R95). -/
def execFreqInDisableClear (fn : Fn) (w : Word) (s : State) : Host.Outcome State Fault Refusal :=
  .next (hostWr fn .TIME_CTRL 0 s (timeCtrlWrite (withBit w 3 false)))

/-- TIME_STEP (R96). -/
def execTimeStep (fn : Fn) (w : Word) (s : State) : Host.Outcome State Fault Refusal :=
  .next (hostWr fn .TIME_CTRL 0 s (timeCtrlWrite (withBit w 2 true)))

/-- SNAPSHOT (R104). -/
def execSnapshot (fn : Fn) (w : Word) (s : State) : Host.Outcome State Fault Refusal :=
  .next (hostWr fn .TIME_CTRL 0 s (timeCtrlWrite (withBit w 1 true)))

/-- TIME_RUN (R107). -/
def execTimeRun (fn : Fn) (w : Word) (s : State) : Host.Outcome State Fault Refusal :=
  .next (hostWr fn .TIME_CTRL 0 s (timeCtrlWrite (withBit w 0 true)))

/-- TIME_INCR_WRITE (R103). -/
def execTimeIncrWrite (fn : Fn) (w : Word) (s : State) : Host.Outcome State Fault Refusal :=
  .next (hostWr fn .TIME_INCR 0 s (timeIncrSet (wfld F.TIME_INCR_INCR w)))

/-- PPS_CAPTURE (R103, R105, R625): a rising edge on PPS_IN. -/
def execPpsCapture (s : State) : Host.Outcome State Fault Refusal :=
  let t := nowNs s
  let s := fset F.TIME_PPS_NS_NS 0 (nsNs t) (fset F.TIME_PPS_SEC_SEC 0 (nsSec t % 2 ^ 32) s)
  .next (setEvent F.TIME_STATUS_PPS_CAPTURED 0 93 s)

/-- PPS_SECOND (R108): a whole PTP second; PPS_OUT balls rise for 100 ms, and the boundary clock emits the metadata that
the owner has set (R100). Log 206 (DESIGN CHOICE). -/
def execPpsSecond (s : State) : Host.Outcome State Fault Refusal :=
  if !running s then .next s
  else
    let s := reachPtp (ceilDiv (nowCeil s) (10 ^ 9) * 10 ^ 9) s
    let s := if s.ports.smpteTlv.isEmpty then s else emit (.smpte s.ports.smpteTlv) s
    .next ((List.range 8).foldl (fun s b => if ballFn s.cfg b == 2 then pulseLine b (10 ^ 8) s else s) s)

/-- OUTPUT_PULSE_END (R108, R129): the line falls at the end of its pulse. Log 205 (DEDUCED). -/
def execOutputPulseEnd (line : Fin 9) (s : State) : Host.Outcome State Fault Refusal :=
  let e := Tab.get 0 s.time.pulse line.val
  if e = 0 then .next s
  else
    let s := reachPtp (e - 1) s
    let inv := decide (line.val < 8) && ballInvert s.cfg line.val
    .next (emit (.edge line.val inv) { s with time := { s.time with pulse := Tab.del s.time.pulse line.val } })

/-- SYNC_GPIO_WRITE (R110). -/
def execSyncGpioWrite (fn : Fn) (w : Word) (s : State) : Host.Outcome State Fault Refusal :=
  .next (hostWr fn .SYNC_GPIO 0 s (gpioWrite w))

/-- TIMER_CAPTURE (R108, R109): a rising edge, after INVERT, at a TIMER_CAPTURE ball latches PTP time; the ball then
stands at the level of that edge. Log 207 (DEDUCED). -/
def execTimerCapture (b : Ball) (s : State) : Host.Outcome State Fault Refusal :=
  if ballFn s.cfg b.val == 4 then
    let t := ballTimer s.cfg b.val
    let n := nowNs s
    let s := { s with time := { s.time with ballIn := Tab.set false s.time.ballIn b.val (!ballInvert s.cfg b.val) } }
    .next (fset F.TMR_CAP_NS_NS t (nsNs n) (fset F.TMR_CAP_SEC_SEC t (nsSec n % 2 ^ 32) s))
  else .next s

/-- TIMER_START (R113, R114). -/
def execTimerStart (fn : Fn) (t : Timer) (w : Word) (s : State) : Host.Outcome State Fault Refusal :=
  .next (hostWr fn .TMR_CTRL t.val s (tmrCtrlWrite t.val (withBit w 0 true)))

/-- TIMER_STOP (R112, R113). -/
def execTimerStop (fn : Fn) (t : Timer) (w : Word) (s : State) : Host.Outcome State Fault Refusal :=
  .next (hostWr fn .TMR_CTRL t.val s (tmrCtrlWrite t.val (withBit w 1 true)))

/-- TIMER_FIRE (R114, R108, R456): the timer's next firing. -/
def execTimerFire (t : Timer) (s : State) : Host.Outcome State Fault Refusal :=
  if !(tmrRunning t.val s && running s) then .next s
  else
    let s := reachPtp (tmrAt t.val s) s
    let s := { s with time := { s.time with tmrNext := Tab.mod 0 s.time.tmrNext t.val (· + 1) } }
    let s := (List.range 8).foldl (fun s b =>
      if ballFn s.cfg b == 3 && ballTimer s.cfg b == t.val then pulseLine b (fget F.TMR_PULSE_NS_NS t.val s) s else s) s
    .next ((List.range 64).foldl (fun s g =>
      if secHas s.cfg 11 && grTimer s.cfg g == t.val then pendSet (4032 + g) s else s) s)

/-! ### The emission of a tick, before what each block does at it -/

/-- R21, R108, R129: tick k is emitted and seen: index, source, balls and SHK_TICK of the tick master. -/
def tickEmit (td : Nat) (s : State) : State :=
  let k := tickNext td s
  let s := reachPtp (tickTime s.cfg td k) s
  let s := (List.range 8).foldl (fun s b => if ballFn s.cfg b == 1 && ballTd s.cfg b == td then pulseLine b 100 s else s) s
  let s := if td = 0 && flag F.SHK_STATUS_MASTER 0 s && (s.mode == .configure || s.mode == .operate || s.mode == .standby || s.mode == .lockdown)
    then pulseLine 8 100 s else s
  let s := reachPtp (tickTime s.cfg td k + 8) s
  let s := fset F.TICK_IDX_LO_IDX td (k % 2 ^ 32) (fset F.TICK_IDX_HI_IDX td (k / 2 ^ 32) s)
  let s := setTickNext td (k + 1) s
  let s := { s with time := { s.time with tickSeen := Tab.set false s.time.tickSeen td true } }
  pendSet (16 + td) (emit (.tickSeen td k) s)

end Sys2Proof.Machine
end

