-- ==== Sys2Proof/Machine/Ports.lean ====
section
/-! DEFINITION. Ports (chapter 03): enable and drain, auto-negotiation, the link, FEC events, and the queue of two-step
transmit timestamps. -/
namespace Sys2Proof.Machine

/-- R84: auto-negotiation starts again on an AN port, whose link is down meanwhile. -/
def anAgain (p : Nat) (s : State) : State :=
  if portAn s.cfg p && flag F.MAC_STATUS_ENABLED p s then
    let s := setFlag F.MAC_STATUS_AN_DONE p false (setFlag F.MAC_STATUS_FEC_LOCK p false (linkFall p s))
    { s with ports := { s.ports with anRunning := Tab.set false s.ports.anRunning p true } }
  else s

/-- R84, R570: a write to MAC_CTRL; a port that does not exist, and every port outside OPERATE, stays disabled. Log
47 (DEDUCED). -/
def macCtrlWrite (p : Nat) (w : Word) (s : State) : State :=
  if !(s.mode == .operate && portOn s.cfg p) then s
  else
    let s := if wbit F.MAC_CTRL_ENABLE w then macOn p s else macOff p s
    if wbit F.MAC_CTRL_AN_RESTART w then anAgain p s else s

/-- R102: add a two-step timestamp; a full queue loses it and sets OVERFLOW. -/
def txtsPush (p id ns sec : Nat) (s : State) : State :=
  let q := Tab.get [] s.ports.txts p
  if q.length < 64 then
    { s with ports := { s.ports with txts := Tab.set [] s.ports.txts p (q ++ [(id, ns, sec)]) } }
  else { s with ports := { s.ports with txtsOverflow := Tab.set false s.ports.txtsOverflow p true } }

/-- R102: MAC_TXTS_ID of the oldest entry; VALID is 0 while the queue is empty. -/
def txtsId (p : Nat) (s : State) : Nat :=
  let ov := 2 ^ 30 * b2n (Tab.get false s.ports.txtsOverflow p)
  match Tab.get [] s.ports.txts p with
  | (id, _, _) :: _ => 2 ^ 31 + ov + id
  | [] => ov

/-- R102: MAC_TXTS_NS of the oldest entry. -/
def txtsNs (p : Nat) (s : State) : Nat :=
  match Tab.get [] s.ports.txts p with
  | (_, ns, _) :: _ => ns
  | [] => 0

/-- R102: a read of MAC_TXTS_SEC, which removes the entry (and with it the report of a lost one). Log 52 (DEDUCED). -/
def txtsPop (p : Nat) (s : State) : Nat × State :=
  match Tab.get [] s.ports.txts p with
  | (_, _, sec) :: r =>
    (sec, { s with ports := { s.ports with txts := Tab.set [] s.ports.txts p r,
                                           txtsOverflow := Tab.set false s.ports.txtsOverflow p false } })
  | [] => (0, s)

/-- MAC_ENABLE (R88). -/
def execMacEnable (fn : Fn) (p : Port) (w : Word) (s : State) : Host.Outcome State Fault Refusal :=
  .next (hostWr fn .MAC_CTRL p.val s (macCtrlWrite p.val (withBit w 0 true)))

/-- MAC_DISABLE (R86). -/
def execMacDisable (fn : Fn) (p : Port) (w : Word) (s : State) : Host.Outcome State Fault Refusal :=
  .next (hostWr fn .MAC_CTRL p.val s (macCtrlWrite p.val (withBit w 0 false)))

/-- AN_RESTART (R84). -/
def execAnRestart (fn : Fn) (p : Port) (w : Word) (s : State) : Host.Outcome State Fault Refusal :=
  .next (hostWr fn .MAC_CTRL p.val s (macCtrlWrite p.val (withBit w 4 true)))

/-- MAC_DRAIN_END (R86, R88): once the frame on the wire has gone. -/
def execMacDrainEnd (p : Port) (s : State) : Host.Outcome State Fault Refusal :=
  .next (if flag F.MAC_STATUS_DRAINING p.val s && (Tab.find? s.ports.wire p.val).isNone then macDrained p.val s else s)

/-- R43: the lane octet of a port is used. -/
def octetOn (p : Nat) (s : State) : Bool := laneOn s.cfg (p / 8)

/-- AN_DONE (R82): auto-negotiation and link training are complete. -/
def execAnDone (p : Port) (s : State) : Host.Outcome State Fault Refusal :=
  .next (if Tab.get false s.ports.anRunning p.val && flag F.MAC_STATUS_ENABLED p.val s && octetOn p.val s then
    setFlag F.MAC_STATUS_AN_DONE p.val true
      { s with ports := { s.ports with anRunning := Tab.del s.ports.anRunning p.val } }
  else s)

/-- LINK_UP (R85, R43): the PCS of an enabled port on a used octet reports link up; an AN port needs its negotiation
done. FEC_LOCK comes with it. Log 204 (DEDUCED). -/
def execLinkUp (p : Port) (s : State) : Host.Outcome State Fault Refusal :=
  .next (if flag F.MAC_STATUS_ENABLED p.val s && octetOn p.val s && (!portAn s.cfg p.val || flag F.MAC_STATUS_AN_DONE p.val s) then
    setFlag F.MAC_STATUS_LINK_UP p.val true (setFlag F.MAC_STATUS_FEC_LOCK p.val (portFec s.cfg p.val != 0) s)
  else s)

/-- LINK_DOWN (R85, R89): the link of a port falls, and FEC_LOCK with it; an AN port negotiates again. Log 204
(DEDUCED). -/
def execLinkDown (p : Port) (s : State) : Host.Outcome State Fault Refusal :=
  .next (if flag F.MAC_STATUS_LINK_UP p.val s then
    anAgain p.val (setFlag F.MAC_STATUS_FEC_LOCK p.val false (linkFall p.val s))
  else s)

/-- FEC_UNCORR_CODEWORD (R85): an enabled port with FEC receives an uncorrectable codeword. -/
def execFecUncorrCodeword (p : Port) (s : State) : Host.Outcome State Fault Refusal :=
  .next (if (flag F.MAC_STATUS_ENABLED p.val s || flag F.MAC_STATUS_DRAINING p.val s) && portFec s.cfg p.val != 0 then
    setEvent F.MAC_STATUS_FEC_UNCORR_EVT p.val (224 + p.val) (macCnt p.val 13 1 s)
  else s)

/-- TXTS_POP (R102). -/
def execTxtsPop (fn : Fn) (p : Port) (s : State) : Host.Outcome State Fault Refusal :=
  .next (hostRd fn.val .MAC_TXTS_SEC p.val s (txtsPop p.val))

end Sys2Proof.Machine
end

