-- ==== Sys2Proof/Machine/Mesh.lean ====
section
/-! DEFINITION. The mesh of devices (R119 to R126): which links carry traffic, the path to a device, link state messages,
and the queues in front of a link (R211). -/
namespace Sys2Proof.Machine

/-- R35: the mesh index of this device. -/
def selfDev (s : State) : Nat := hdMesh s.loader.header % 4

/-- R125, R128: the link carries traffic. -/
def linkLive (l : Nat) (s : State) : Bool :=
  flag F.FL_STATUS_PEER_UP l s && flag F.FL_CTRL_ENABLE l s && !flag F.FL_STATUS_DRAINING l s

/-- R32: the link that joins this device to device `j`. -/
def directLink (j : Nat) (s : State) : Nat := meshLink (selfDev s) j

/-- R125: the link on which a packet for device `j` leaves: the direct one, else that to the device with the smallest
index whose links both are up. -/
def routeLink (j : Nat) (s : State) : Option Nat :=
  if linkLive (directLink j s) s then some (directLink j s)
  else
    ((List.range 4).filter (fun k => k != selfDev s && k != j)).findSome? (fun k =>
      if linkLive (directLink k s) s && bit (Tab.get 0 s.mesh.upMask k) j then some (directLink k s) else none)

/-- R123: a control message. -/
def ctlMsg (ty : Nat) (body : Bytes) : Bytes := leBytes 1 ty ++ leBytes 1 1 ++ leBytes 2 16 ++ fitTo 16 body

/-- Queue a control message on a link. -/
def ctlSend (l : Nat) (m : Bytes) (s : State) : State := flMod l (fun k => { k with control := k.control ++ [m] }) s

/-- R125: the links that carry traffic from this device, as UP_MASK. -/
def ownUpMask (s : State) : Nat :=
  (List.range 3).foldl (fun m l => m + if linkLive l s then 2 ^ meshPeer (selfDev s) l else 0) 0

/-- R123, R125: at a change of its own links, the device sends its LINK_STATE on every live link. -/
def linkStateChanged (s : State) : State :=
  let i := selfDev s
  let m := ownUpMask s
  if Tab.get 0 s.mesh.upMask i = m then s
  else
    let q := (Tab.get 0 s.mesh.stateSeq i + 1) % 2 ^ 32
    let s := { s with mesh := { s.mesh with upMask := Tab.set 0 s.mesh.upMask i m,
                                            stateSeq := Tab.put s.mesh.stateSeq i q } }
    let msg := ctlMsg 2 (leBytes 1 i ++ leBytes 1 m ++ leBytes 2 0 ++ leBytes 4 q ++ leBytes 8 0)
    (List.range 3).foldl (fun s l => if linkLive l s then ctlSend l msg s else s) s

/-- R211: cells that a link queue holds. -/
def linkCells (l vc : Nat) (s : State) : Nat := ((Tab.get [] (flOf l s).queues vc).map (·.cells)).sum

/-- Append a copy to a link queue. -/
def linkPush (l : Nat) (c : Copy) (s : State) : State :=
  flMod l (fun k => { k with queues := Tab.mod [] k.queues c.cls (· ++ [c]) }) s

/-- R195, R211: admit a copy to the queue of its VC on a link; a multicast copy's cells are its frame's. `c.flHdr` is the
packet's header. -/
def linkAdmit (l : Nat) (c : Copy) (s : State) : State :=
  if admits (linkCells l c.cls s) c.cells 0 7 (sharedFree s) then
    linkPush l c (if c.mcast then s else setShared (sharedUsed s + c.cells) s)
  else endCopy c .dropped (bump F.FL_LOST_PKTS_COUNT l s)

/-- R119, R125: send a copy toward device `j`; without a path it is dropped and counted. -/
def meshSend (j : Nat) (c : Copy) (s : State) : State :=
  match routeLink j s with
  | some l => linkAdmit l c s
  | none => endCopy c .dropped (bump F.FL_LOST_PKTS_COUNT (directLink j s) s)

/-- R119: the header of a packet. -/
def pktHeader (mcast : Bool) (src dst hop len ingMac egr leaf group : Nat) (bad tagged : Bool) (vc ts : Nat) : Bytes :=
  leBytes 1 (16 + b2n mcast) ++ leBytes 1 (src + 4 * dst + 16 * hop) ++ leBytes 2 len ++ leBytes 1 ingMac ++
    leBytes 1 egr ++ leBytes 2 leaf ++ leBytes 2 group ++ leBytes 1 (b2n bad + 2 * b2n tagged) ++ leBytes 1 vc ++
    leBytes 4 ts

/-- R125: HOP of a packet's header. -/
def pktHop (h : Bytes) : Nat := byteAt h 1 / 16 % 4

/-- R125: the link on which a queued packet can still leave: one that has made its hop is only sent on directly. Log
63 (DEDUCED). -/
def restLink (h : Bytes) (s : State) : Option Nat :=
  let j := byteAt h 1 / 4 % 4
  if pktHop h = 0 then routeLink j s
  else if linkLive (directLink j s) s then some (directLink j s) else none

/-- R124, R125, R211: packets queued for a lost link are admitted to the path that is left, or are dropped and counted. Log
63 (DEDUCED). -/
def linkRequeue (l : Nat) (s : State) : State :=
  let cs := (flOf l s).queues.flatMap (·.2)
  let s := flMod l (fun k => { k with queues := [] }) s
  cs.foldl (fun s c =>
    let s := if c.mcast then s else setShared (sharedUsed s - c.cells) s
    match restLink c.flHdr s with
    | some l' => linkAdmit l' c s
    | none => endCopy c .dropped (bump F.FL_LOST_PKTS_COUNT l s)) s

end Sys2Proof.Machine
end

