-- ==== Sys2Proof/Machine/Wire.lean ====
section
/-! DEFINITION. Frames on the wire: where the EtherType lies, the FCS, MACsec at the port (R90 to R94), and PTP event
messages (R97 to R102). -/
namespace Sys2Proof.Machine

/-- Offset of the EtherType that follows the VLAN tags of a frame (at most two). -/
def typeOff (b : Bytes) : Nat :=
  let tag := fun o => fieldBE b o 2 == 0x8100 || fieldBE b o 2 == 0x88A8
  if tag 12 then (if tag 16 then 20 else 16) else 12

/-- The EtherType that follows the VLAN tags. -/
def etherType (b : Bytes) : Nat := fieldBE b (typeOff b) 2

/-- The FCS of a frame, in transmission order. -/
def fcsOf (b : Bytes) : Bytes := leBytes 4 (crc32 b)

/-- The bytewise exclusive or of two strings of one length. -/
def xorBytes (a b : Bytes) : Bytes := List.zipWith (fun x y => x ^^^ y) a b

/-! ### MACsec -/

/-- R90: the nonce of a packet: the salt and the packet number. Log 50 (DEDUCED). -/
def secNonce (a : Sa) (pn : Nat) : Bytes := xorBytes (fitTo 12 a.salt) (beBytes 12 pn)

/-- Keys of a port's channels in the pool. -/
def chansOf (p : Nat) (rx : Bool) (s : State) : List (Nat × SecChan) :=
  s.ports.secChans.filter (fun x => x.2.port == p && x.2.rx == rx)

/-- R90: the association a port transmits on. -/
def txSa (p : Nat) (s : State) : Option (Nat × SecChan × Sa) :=
  match chansOf p false s with
  | (k, c) :: _ => (Tab.find? c.sas c.current).map (fun a => (k, c, a))
  | [] => none

/-- R93: where an association is exhausted. -/
def pnEnd : Nat := 0xFFFFFFFFFFFFFFFF

/-- R91, R93: a MACsec port with no association that can send holds its frames. Log 203 (DEDUCED). -/
def macsecHeld (p : Nat) (s : State) : Bool :=
  portMacsec s.cfg p &&
    (match txSa p s with
    | some (_, _, a) => decide (pnEnd ≤ a.nextPn)
    | none => true)

/-- Frames queued for a port. -/
def queuedFor (p : Nat) (s : State) : Nat :=
  (s.tm.queues.map (fun x => (x.2.filter (fun c => c.egr == p)).length)).sum

/-- Put an association back in its channel. -/
def setSa (k an : Nat) (a : Sa) (s : State) : State :=
  match Tab.find? s.ports.secChans k with
  | some c => { s with ports := { s.ports with secChans := Tab.put s.ports.secChans k { c with sas := Tab.put c.sas an a } } }
  | none => s

/-- R91, R93: protect a frame on a MACsec port; EAPOL leaves as it is. The packet number rises, with the rekey event and
the end of the association. Log 50 (DEDUCED). Log 51 (DEDUCED). -/
def macsecTx (p : Nat) (b : Bytes) (s : State) : Bytes × State :=
  if !portMacsec s.cfg p || isEapol b then (b, s)
  else
    match txSa p s with
    | none => (b, s)
    | some (k, c, a) =>
      let data := b.drop 12
      let tag : Bytes := [0x88#8, 0xE5#8, BitVec.ofNat 8 (0x2C + c.current % 4),
        BitVec.ofNat 8 (if data.length < 48 then data.length else 0)] ++ beBytes 4 a.nextPn ++ fitTo 8 c.sci
      let aad := b.take 12 ++ tag
      let ct := fitTo (data.length + 16) (Config.gcmSeal a.key (secNonce a a.nextPn) aad data)
      let a' := { a with nextPn := a.nextPn + 1, rekeyRaised := a.rekeyRaised || decide (0xC000000000000000 ≤ a.nextPn + 1) }
      let s := macCnt p 19 1 (setSa k c.current a' s)
      let s := if a'.nextPn = pnEnd then macCnt p 24 (queuedFor p s) s else s
      (aad ++ ct, s)

/-- What MACsec verification makes of a received frame (R91). -/
inductive SecRx where
  | ok (b : Bytes)
  | noTag
  | icvFail (b : Bytes)
  | replay (b : Bytes)
  | eapol
  deriving DecidableEq, Repr

/-- XPN: the 64-bit packet number nearest above the window from its low 32 bits. -/
def pnFrom (next low : Nat) : Nat :=
  let cand := next / 2 ^ 32 * 2 ^ 32 + low
  if cand + 2 ^ 31 ≤ next then cand + 2 ^ 32 else cand

/-- R91: verify and decrypt a frame received on a MACsec port. Log 50 (DEDUCED). -/
def macsecRx (p : Nat) (b : Bytes) (s : State) : SecRx × State :=
  if isEapol b then (.eapol, s)
  else if fieldBE b 12 2 ≠ 0x88E5 then (.noTag, s)
  else
    let tci := byteAt b 14
    let an := tci % 4
    let hasSci := bit tci 5
    let hdr := if hasSci then 28 else 20
    let low := fieldBE b 16 4
    let ch := (chansOf p true s).find? (fun x => !hasSci || x.2.sci == slice b 20 8)
    let body := b.drop hdr
    let ct := body.take (body.length - 16)
    let plainOf := fun d : Bytes => b.take 12 ++ d
    match ch with
    | none => (.icvFail (plainOf ct), s)
    | some (k, c) =>
      match Tab.find? c.sas an with
      | none => (.icvFail (plainOf ct), s)
      | some a =>
        let pn := pnFrom a.nextPn low
        let enc := bit tci 3
        let pt := if enc then Config.gcmOpen a.key (secNonce a pn) (b.take hdr) ct (body.drop (body.length - 16))
          else (Config.gcmOpen a.key (secNonce a pn) (b.take (b.length - 16)) [] (body.drop (body.length - 16))).map (fun _ => ct)
        match pt with
        | none => (.icvFail (plainOf (if enc then fitTo ct.length (Config.gcmStream a.key (secNonce a pn) ct) else ct)), s)
        | some d =>
          let d := fitTo ct.length d
          if pn + c.window < a.nextPn then (.replay (plainOf d), s)
          else (.ok (plainOf d), setSa k an { a with nextPn := max a.nextPn (pn + 1) } s)

/-! ### PTP (R97 to R102) -/

/-- R97: offset of a PTP message in a frame, and of the UDP header that carries it. -/
def ptpAt (b : Bytes) : Option (Nat × Option Nat) :=
  let o := typeOff b
  let t := fieldBE b o 2
  let udp := fun u : Nat => if fieldBE b (u + 2) 2 = 319 then some (u + 8, some u) else none
  if t = 0x88F7 then some (o + 2, none)
  else if t = 0x0800 && byteAt b (o + 11) == 17 then udp (o + 2 + byteAt b (o + 2) % 16 * 4)
  else if t = 0x86DD && byteAt b (o + 8) == 17 then udp (o + 42)
  else none

/-- R97: the message is an event message: Sync, Delay_Req, Pdelay_Req or Pdelay_Resp. -/
def ptpEvent (b : Bytes) : Option (Nat × Option Nat) :=
  (ptpAt b).bind (fun x => if byteAt b x.1 % 16 < 4 then some x else none)

/-- R99: overwrite an even field of a UDP payload, with the checksum changed incrementally; a checksum of 0 stays. -/
def udpSplice (b : Bytes) (udp : Option Nat) (off : Nat) (new : Bytes) : Bytes :=
  let b' := splice b off new
  match udp with
  | none => b'
  | some u =>
    let c := fieldBE b (u + 6) 2
    if c = 0 then b'
    else
      let old := slice b off new.length
      let f := fun v : Nat => v % 65536 + v / 65536
      let sum := (65535 - c) + (65535 * ((old.length + 1) / 2) - onesSum old) + onesSum new
      let r := 65535 - f (f (f sum))
      splice b' (u + 6) (beBytes 2 (if r = 0 then 65535 else r))

/-- R101: the signed asymmetry of a port in ns. Log 54 (DEDUCED). -/
def asymNs (p : Nat) (s : State) : Int := signed 16 (fget F.MAC_PTP_ASYM_NS p s)

/-- R98: the timestamp of a frame whose first bit after the start-of-frame delimiter passes `n` bytes before its last bit,
at a port of a rate. Log 53 (DEDUCED). -/
def stampBefore (p n t : Nat) (s : State) : Nat := t - n * 8 / max 1 (portGbps s.cfg p)

/-- R98: the egress timestamp of a copy: its start on the wire, and the 8 B of its preamble. Log 53 (DEDUCED). -/
def egressStamp (p : Nat) (c : Copy) (s : State) : Nat := c.tDeq + 64 / max 1 (portGbps s.cfg p)

/-- R97, R101: the receive timestamp of a PTP event message that came in at port `p` at `t`, with ASYM_NS. -/
def ptpStamp (p t : Nat) (b : Bytes) (s : State) : Option Nat :=
  if portPtp s.cfg p && flag F.MAC_PTP_TS_ENABLE p s && (ptpEvent b).isSome then some ((t : Int) + asymNs p s).toNat else none

/-- R99, R101, R102: what the egress MAC does to a PTP event message at its egress timestamp `now`. The message was
received at `tIn` when it is relayed, at port `ingMac` of this device when it is `fromPort`. ONE_STEP and TC_ENABLE act
whatever TS_ENABLE holds. Log 53 (DEDUCED). Log 54 (DEDUCED). Log 202 (DEDUCED). -/
def ptpTx (p ingMac tIn now : Nat) (relayed fromPort : Bool) (b : Bytes) (s : State) : Bytes × State :=
  if !portPtp s.cfg p then (b, s)
  else
    match ptpEvent b with
    | none => (b, s)
    | some (o, u) =>
      let ty := byteAt b o % 16
      let tc := flag F.MAC_PTP_TC_ENABLE p s && relayed && (ty == 0 || !flag F.MAC_PTP_P2P p s)
      let b := if tc then
          let res : Int := (now : Int) - ((tIn : Int) + if fromPort then asymNs ingMac s else 0)
          udpSplice b u (o + 8) (beBytes 8 (twos 64 (signed 64 (fieldBE b (o + 8) 8) + res * 65536)))
        else b
      let one := flag F.MAC_PTP_ONE_STEP p s && ty == 0
      let b := if one && !tc then udpSplice b u (o + 34) (beBytes 6 (nsSec now) ++ beBytes 4 (nsNs now)) else b
      if !flag F.MAC_PTP_TS_ENABLE p s then (b, s)
      else
        let s := macCnt p 20 1 s
        if one || tc then (b, s)
        else
          let id := byteAt b (o + 4) * 2 ^ 20 + ty * 2 ^ 16 + fieldBE b (o + 30) 2
          (b, txtsPush p id (nsNs now) (nsSec now % 2 ^ 32) s)

end Sys2Proof.Machine
end

