-- ==== Sys2Proof/Machine/Tm.lean ====
section
/-! DEFINITION. The traffic manager (chapter 05): shapers, pauses, time gates, scheduling, egress of a copy, stalls and
flushes. -/
namespace Sys2Proof.Machine

/-! ### Shapers (R207, R208) -/

/-- Instances of a field that hold a value other than their reset value. -/
def instsOf (f : Fld) (s : State) : List Nat :=
  (s.regs.filter (fun x => x.1 % 16384 == f.key 0)).map (fun x => x.1 / 16384)

/-- R208: RATE, BURST and ENABLE that a refill in the present cclk applies: those written before it. -/
def shapeDue (k : Nat) (en rate burst : Fld) (i : Nat) (s : State) : Nat × Nat × Bool :=
  match Tab.find? s.tm.shapeWr k with
  | some x => if x.1 = s.time.cclk then x.2 else (fget rate i s, fget burst i s, flag en i s)
  | none => (fget rate i s, fget burst i s, flag en i s)

/-- R207, R208: one refill of a node: its written values come into force, RATE is added, the cap cuts. -/
def refillNode (k : Nat) (en rate burst : Fld) (i : Nat) (s : State) : State :=
  let d := shapeDue k en rate burst i s
  let t := min (nodeTokens k (nodeApplied k s).2.1 s + (d.1 : Int)) (d.2.1 * 16 : Nat)
  { s with tm := { s.tm with tokens := Tab.put s.tm.tokens k t,
                             applied := Tab.set (0, 0x2600, false) s.tm.applied k d } }

/-- Refill the `n` nodes of one kind whose values differ from their reset values, as written or as in force; the others
stand at their cap. -/
def refillKind (key : Nat → Nat) (n : Nat) (en rate burst : Fld) (s : State) : State :=
  let on := ((s.tm.applied.map (·.1) ++ s.tm.shapeWr.map (·.1)).filter (fun x => decide (key 0 ≤ x) && decide (x < key 0 + n))).map (· - key 0)
  let is := instsOf en s ++ instsOf rate s ++ instsOf burst s ++ on
  let is := is.foldl (fun l i => insertRising i l) []
  is.foldl (fun s i => refillNode (key i) en rate burst i s) s

/-- R207: a refill of every shaper and policer. -/
def refillAll (s : State) : State :=
  let s := refillKind portKey 256 F.TM_PORT_SHAPE_ENABLE F.TM_PORT_SHAPE_RATE F.TM_PORT_BURST_BURST s
  let s := refillKind (fun i => 1000 + i) 2048 F.TM_CLS_SHAPE_ENABLE F.TM_CLS_SHAPE_RATE F.TM_CLS_BURST_BURST s
  let s := refillKind leafKey 32768 F.TM_LEAF_SHAPE_ENABLE F.TM_LEAF_SHAPE_RATE F.TM_LEAF_BURST_BURST s
  let s := refillKind tenantKey 4096 F.TM_POL_RATE_ENABLE F.TM_POL_RATE_RATE F.TM_POL_BURST_BURST s
  { s with tm := { s.tm with shapeWr := s.tm.shapeWr.filter (fun (x : Nat × Nat × Nat × Nat × Bool) => x.2.1 == s.time.cclk) } }

/-- R208: note the values of a node before a write in the present cclk. -/
def shapeNote (k : Nat) (en rate burst : Fld) (i : Nat) (s : State) : State :=
  { s with tm := { s.tm with shapeWr := Tab.put s.tm.shapeWr k (s.time.cclk, shapeDue k en rate burst i s) } }

/-- R208: a write of a register of a shaper or policer is about to land. -/
def shapeWrite (r : Reg) (i : Nat) (s : State) : State :=
  match r with
  | .TM_PORT_SHAPE | .TM_PORT_BURST => shapeNote (portKey i) F.TM_PORT_SHAPE_ENABLE F.TM_PORT_SHAPE_RATE F.TM_PORT_BURST_BURST i s
  | .TM_CLS_SHAPE | .TM_CLS_BURST => shapeNote (1000 + i) F.TM_CLS_SHAPE_ENABLE F.TM_CLS_SHAPE_RATE F.TM_CLS_BURST_BURST i s
  | .TM_LEAF_SHAPE | .TM_LEAF_BURST => shapeNote (leafKey i) F.TM_LEAF_SHAPE_ENABLE F.TM_LEAF_SHAPE_RATE F.TM_LEAF_BURST_BURST i s
  | .TM_POL_RATE | .TM_POL_BURST => shapeNote (tenantKey i) F.TM_POL_RATE_ENABLE F.TM_POL_RATE_RATE F.TM_POL_BURST_BURST i s
  | _ => s

/-! ### Pauses (R209) -/

/-- The class of a port is paused. -/
def pausedAt (p k : Nat) (s : State) : Bool := bit (fget F.TM_PORT_PAUSED_CLASS p s) k

/-- R209: end or start the pause of a class, `quanta` pause quanta of 512 bit times long. -/
def setPause (p k quanta : Nat) (s : State) : State :=
  let m := fget F.TM_PORT_PAUSED_CLASS p s
  let off := if bit m k then m - 2 ^ k else m
  if quanta = 0 then
    { fset F.TM_PORT_PAUSED_CLASS p off s with tm := { s.tm with pauseUntil := Tab.del s.tm.pauseUntil (p * 8 + k) } }
  else
    let t := s.time.cclk + ceilDiv (quanta * 512 * 8) (5 * portGbps s.cfg p)
    { fset F.TM_PORT_PAUSED_CLASS p (off + 2 ^ k) s with
      tm := { s.tm with pauseUntil := Tab.put s.tm.pauseUntil (p * 8 + k) t } }

/-- R209, R549: a received pause frame. Log 92 (DEDUCED). -/
def pauseTake (p : Nat) (f : PauseFrame) (s : State) : State :=
  match f with
  | .pause q =>
    let s := macCnt p 5 1 s
    if flag F.TM_PORT_CTRL_PAUSE_RX p s then (List.range 8).foldl (fun s k => setPause p k q.toNat s) s else s
  | .pfc e qs =>
    let s := macCnt p 6 1 s
    if flag F.TM_PORT_CTRL_PFC_RX p s then
      (List.range 8).foldl (fun s k => if bit e.toNat k then setPause p k (qs.getD k 0).toNat s else s) s
    else s

/-! ### Time gates (R212 to R216) -/

/-- One entry of a gate list. -/
def gateWord (p list e : Nat) (s : State) : Nat := Tab.get 0 s.tm.gates (p * 2048 + list * 1024 + e)
def gateMask (w : Nat) : Nat := w % 256
/-- R212: duration of an entry in ns. -/
def gateNs (w : Nat) : Nat := 2 * (w / 2 ^ 32 % 2 ^ 32)
/-- R226: the list in operation. -/
def operList (p : Nat) (s : State) : Nat := fget F.TM_GCL_STATUS_OPER_LIST p s
/-- R213: the list that software prepares. -/
def adminList (p : Nat) (s : State) : Nat := 1 - operList p s
/-- R216: the port's cycle is tied to a tick domain. -/
def gateTied (p : Nat) (s : State) : Bool := decide (portGateTd s.cfg p < 8)

/-- The gate list in operation at a port, while gates operate. Log 93 (DEDUCED). -/
def gateRun (p : Nat) (s : State) : Option GateRun :=
  if flag F.TM_GCL_CTRL_ENABLE p s then Tab.find? s.tm.running p else none

/-- R213: the gate of a class is open. -/
def gateOpen (p k : Nat) (s : State) : Bool :=
  match gateRun p s with
  | none => true
  | some g => bit (gateMask (gateWord p (operList p s) g.entry s)) k

/-- End of the n-th cycle from the present one on. -/
def cycleEnd (p n : Nat) (g : GateRun) (s : State) : Nat :=
  if gateTied p s then tickTime s.cfg (portGateTd s.cfg p) (tickNext (portGateTd s.cfg p) s + n)
  else g.cycleStart + (n + 1) * g.cycle

/-- R213: end of entry `e` that started at `st` in cycle `n`, and whether the cycle ends with it. -/
def entryEnd (p n e st : Nat) (g : GateRun) (s : State) : Nat × Bool :=
  let c := cycleEnd p n g s
  let t := st + gateNs (gateWord p (operList p s) e s)
  if g.len ≤ e + 1 ∨ c ≤ t then (c, true) else (t, false)

/-- R213: when the gate of class `k`, open now, next closes; none when it stays open for the `fuel` entries ahead. -/
def gateCloses (p k : Nat) (g : GateRun) (s : State) : (fuel n e st : Nat) → Option Nat
  | 0, _, _, _ => none
  | fuel + 1, n, e, st =>
    let x := entryEnd p n e st g s
    let n' := if x.2 then n + 1 else n
    let e' := if x.2 then 0 else e + 1
    if bit (gateMask (gateWord p (operList p s) e' s)) k then gateCloses p k g s fuel n' e' x.1 else some x.1

/-- R213: a frame of `len` bytes of class `k` may start now. -/
def gateFits (p k len : Nat) (s : State) : Bool :=
  match gateRun p s with
  | none => true
  | some g =>
    gateOpen p k s &&
      (match gateCloses p k g s (g.len + 1) 0 g.entry g.entryStart with
      | none => true
      | some t => decide ((len + 20) * 8 ≤ (t - nowCeil s) * portGbps s.cfg p))

/-- R214: BASE of a port in ns. -/
def gclBase (p : Nat) (s : State) : Nat :=
  (fget F.TM_GCL_BASE_SEC_HI_SEC_HI p s * 2 ^ 32 + fget F.TM_GCL_BASE_SEC_SEC p s) * 10 ^ 9 + fget F.TM_GCL_BASE_NS_NS p s

/-- R215: an ARM is refused with BAD_ARG. -/
def gclBad (p : Nat) (s : State) : Bool :=
  let n := fget F.TM_GCL_LEN_ADMIN_LEN p s
  let c := fget F.TM_GCL_CYCLE_NS_CYCLE p s
  decide (n < 1) || decide (1024 < n) ||
    (List.range n).any (fun e => gateNs (gateWord p (adminList p s) e s) == 0) ||
    (!gateTied p s && (c % 2 == 1 || decide (c < 1000)))

/-- R214, R216: the change time of an ARM made now: the instant, and the earliest instant where a tick decides; a tick is
seen 8 ns after its instant (R21). Log 94 (DEDUCED). -/
def gclChangeAt (p : Nat) (s : State) : Nat × Nat :=
  if gateTied p s then
    let td := portGateTd s.cfg p
    let e := max (nowCeil s + 992) (gclBase p s)
    (tickTime s.cfg td (max (tickNext td s) (firstTickAt s.cfg td e)), e)
  else
    let c := fget F.TM_GCL_CYCLE_NS_CYCLE p s
    let t := gclBase p s + firstFiring (gclBase p s) c (nowCeil s + 1000) * c
    (t, t)

/-- R215: what a write with ARM answers: BUSY, BAD_ARG or OK. -/
def gclArmCheck (p : Nat) (s : State) : Nat :=
  if flag F.TM_GCL_STATUS_PENDING p s then 1 else if gclBad p s then 6 else 0

/-- R214: ARM, when it passes. -/
def gclArmNow (p : Nat) (s : State) : State :=
  let x := gclChangeAt p s
  let s := setFlag F.TM_GCL_STATUS_PENDING p true s
  let s := fset F.TM_GCL_CHANGE_NS_NS p (nsNs x.1) (fset F.TM_GCL_CHANGE_SEC_SEC p (nsSec x.1 % 2 ^ 32) s)
  { s with tm := { s.tm with change := Tab.put s.tm.change p (x.2 + 1) } }

/-- R214 to R216, R605: a write to TM_GCL_CTRL; a refused ARM refuses the whole write. Log 93 (DEDUCED). -/
def gclCtrlWrite (p : Nat) (w : Word) (s : State) : State :=
  let en := wbit F.TM_GCL_CTRL_ENABLE w
  let arm := wbit F.TM_GCL_CTRL_ARM w
  let r := if arm then gclArmCheck p s else 0
  let s := fset F.TM_GCL_CTRL_RESULT p r s
  if r ≠ 0 then s
  else
    let s := setFlag F.TM_GCL_CTRL_ENABLE p en s
    let s := if !en && flag F.TM_GCL_STATUS_PENDING p s then
        { setFlag F.TM_GCL_STATUS_PENDING p false s with tm := { s.tm with change := Tab.del s.tm.change p } }
      else s
    if arm then gclArmNow p s else s

/-- R214: the admin list takes over at an instant. -/
def gclTakeOver (p when : Nat) (s : State) : State :=
  let s := setFlag F.TM_GCL_STATUS_PENDING p false (fset F.TM_GCL_STATUS_OPER_LIST p (adminList p s) s)
  let g : GateRun :=
    { entry := 0, cycleStart := when, entryStart := when,
      cycle := if gateTied p s then 0 else fget F.TM_GCL_CYCLE_NS_CYCLE p s,
      len := fget F.TM_GCL_LEN_ADMIN_LEN p s }
  { s with tm := { s.tm with running := Tab.put s.tm.running p g, change := Tab.del s.tm.change p } }

/-- The time that the entries of the list in operation take, ns. -/
def gateSum (p : Nat) (g : GateRun) (s : State) : Nat :=
  ((List.range g.len).map (fun e => gateNs (gateWord p (operList p s) e s))).sum

/-- R216: what a tick at `t` of the domain that gates a port does. -/
def gateTick (p t : Nat) (s : State) : State :=
  let due := match Tab.find? s.tm.change p with
    | some c => decide (c ≤ t + 1)
    | none => false
  let s := match Tab.find? s.tm.running p with
    | some g =>
      let s := if flag F.TM_GCL_CTRL_ENABLE p s && decide (g.cycleStart + gateSum p g s > t) then bump F.TM_GCL_TRUNC_COUNT p s else s
      { s with tm := { s.tm with running := Tab.put s.tm.running p { g with entry := 0, cycleStart := t, entryStart := t } } }
    | none => s
  if due then gclTakeOver p t s else s

/-- R213: the list in operation goes to its next entry. -/
def gateAdvance (p : Nat) (s : State) : State :=
  match gateRun p s with
  | none => s
  | some g =>
    if !running s then s
    else
      let x := entryEnd p 0 g.entry g.entryStart g s
      if x.2 && gateTied p s then s
      else
        let s := reachPtp x.1 s
        if x.2 then
          let s := if g.cycleStart + gateSum p g s > x.1 then bump F.TM_GCL_TRUNC_COUNT p s else s
          { s with tm := { s.tm with running := Tab.put s.tm.running p { g with entry := 0, cycleStart := x.1, entryStart := x.1 } } }
        else { s with tm := { s.tm with running := Tab.put s.tm.running p { g with entry := g.entry + 1, entryStart := x.1 } } }

/-! ### Scheduling (R204 to R206, R210) -/

/-- A member of a deficit round: its number, the key of its deficit, its weight and the length of its head. -/
structure DrrMember where
  num : Nat
  key : Nat
  weight : Nat
  head : Nat
  deriving DecidableEq, Repr

/-- R205: a round while it is decided: deficits, started turns, and the order of turns. -/
structure DrrState where
  deficit : Tab Nat
  granted : Tab Bool
  order : List Nat
  deriving DecidableEq, Repr

/-- R205, R206: the first eligible member in the order of turns has its turn; one that may not send its head lets the next
one have its own. Members that are not eligible keep their place. Log 90 (DEDUCED). -/
def drrRun (ms : List DrrMember) : (fuel : Nat) → DrrState → Option (DrrMember × DrrState)
  | 0, _ => none
  | fuel + 1, d =>
    match d.order.findSome? (fun n => ms.find? (fun m => m.num == n)) with
    | none => none
    | some m =>
      let have_ := Tab.get 0 d.deficit m.key + if Tab.get false d.granted m.key then 0 else m.weight * 512
      if m.head ≤ have_ then
        some (m, { d with deficit := Tab.set 0 d.deficit m.key (have_ - m.head), granted := Tab.set false d.granted m.key true })
      else
        drrRun ms fuel { deficit := Tab.set 0 d.deficit m.key have_, granted := Tab.set false d.granted m.key false
                         order := d.order.filter (fun n => n != m.num) ++ [m.num] }

/-- R205: choose among the eligible members of a ring. Log 90 (DEDUCED). -/
def drrPick (ring : Nat) (ms : List DrrMember) (s : State) : Option (DrrMember × State) :=
  let o := Tab.get [] s.tm.rounds ring
  let o := o ++ (ms.map (·.num)).filter (fun n => !o.contains n)
  (drrRun ms (24 * (ms.length + 1)) ⟨s.tm.deficit, s.tm.granted, o⟩).map (fun x =>
    (x.1, { s with tm := { s.tm with deficit := x.2.deficit, granted := x.2.granted,
                                     rounds := Tab.put s.tm.rounds ring x.2.order } }))

/-- R210: leaves of class `k` of port `p` that could send their head now, as members. -/
def readyLeaves (p k : Nat) (s : State) : List DrrMember :=
  s.tm.queues.filterMap (fun x =>
    match x.2 with
    | c :: _ =>
      if c.egr == p && c.cls == k && nodeOpen (leafKey x.1) s && gateFits p k c.len s && (!macsecHeld p s || isEapol c.bytes)
      then some ⟨x.1, leafDefKey x.1, ((leafRec s.cfg x.1).map lfWeight).getD 1, c.len⟩
      else none
    | [] => none)

/-- R210: class `k` of port `p` is eligible. -/
def classReady (p k : Nat) (s : State) : Bool :=
  (classNode s.cfg p k).isSome && nodeOpen (classKey p k) s && !pausedAt p k s && !(readyLeaves p k s).isEmpty

/-- R204: choose the class and the leaf of the next frame of a port. -/
def schedPick (p : Nat) (s : State) : Option (Nat × State) :=
  let ks := (List.range 8).filter (fun k => classReady p k s)
  let mode := fun k => ((classNode s.cfg p k).map cnMode).getD 0
  let leafOf := fun (k : Nat) (s : State) => (drrPick (1000 + 8 * p + k) (readyLeaves p k s) s)
  match (ks.filter (fun k => mode k == 0)).getLast? with
  | some k => (leafOf k s).map (fun x => (x.1.num, x.2))
  | none =>
    let ms := ks.filterMap (fun k => (leafOf k s).map (fun x =>
      ⟨k, classKey p k, ((classNode s.cfg p k).map cnWeight).getD 1, x.1.head⟩))
    (drrPick p ms s).bind (fun y => (leafOf y.1.num y.2).map (fun x => (x.1.num, x.2)))

/-- R204, R207, R217: the head of leaf `q` goes to the wire of its port. -/
def startFrame (p q : Nat) (s : State) : State :=
  match leafQueue q s with
  | [] => s
  | c :: r =>
    let s := nodePass (portKey p) c.len (nodePass (classKey p c.cls) c.len (nodePass (leafKey q) c.len s))
    let s := setFlag F.TM_LEAF_STATUS_STALLED q false (setLeafQueue q r s)
    let s := if r.isEmpty then s else { s with tm := { s.tm with lastSent := Tab.put s.tm.lastSent q s.time.cclk } }
    { s with ports := { s.ports with wire := Tab.put s.ports.wire p { c with tDeq := nowNs s } } }

/-- R210, R89, R204: the port can start a frame. -/
def portReady (p : Nat) (s : State) : Bool :=
  flag F.MAC_STATUS_LINK_UP p s && flag F.MAC_STATUS_ENABLED p s && (Tab.find? s.ports.wire p).isNone &&
    nodeOpen (portKey p) s

/-- R204: one scheduling decision of a port. -/
def schedule (p : Nat) (s : State) : State :=
  if !portReady p s then s
  else
    match schedPick p s with
    | some (q, s) => startFrame p q s
    | none => s

/-! ### Egress (R13, R83, R99, R181) -/

/-- R550: the bin of a delay. -/
def histBin (d : Nat) : Nat := if d < 256 then 0 else min 30 (Nat.log2 d - 7)

/-- R13, R83, R91, R99, R202: what the egress MAC sends for a copy: the frame with its FCS, or nothing beyond the MTU or
where a MACsec port has lost the association that would protect it. Log 203 (DEDUCED). -/
def egressBytes (p : Nat) (c : Copy) (s : State) : Option Bytes × State :=
  let f := Tab.find? s.pipe.flights c.frame
  let x := ptpTx p c.ingMac c.tIn (egressStamp p c s) ((f.map (·.relayed)).getD false) ((f.map (·.fromPort)).getD false) c.bytes s
  if portMtu s.cfg p < x.1.length + secLen p x.1 s.cfg + 4 then (none, macCnt p 18 1 s)
  else if macsecHeld p s && !isEapol x.1 then (none, s)
  else
    let y := macsecTx p x.1 x.2
    let fcs := fcsOf y.1
    (some (y.1 ++ (if c.bad then fcs.map (fun b => ~~~ b) else fcs)), y.2)

/-- R181: the copy on the wire of a port finishes leaving; a cut-through frame waits for its tail. Log 53 (DEDUCED).
-/
def finishFrame (p : Nat) (s : State) : State :=
  match Tab.find? s.ports.wire p with
  | none => s
  | some c =>
    if c.cutThrough then s
    else
      let x := egressBytes p c s
      let s := { x.2 with ports := { x.2.ports with wire := Tab.del x.2.ports.wire p } }
      let s := releaseCells c s
      match x.1 with
      | none => copyGone c.frame false (postcard c .dropped 0 s)
      | some b =>
        let t := egressStamp p c s
        let s := macCnt p 17 b.length (macCnt p 16 1 s)
        let s := leafCnt c.leaf 1 c.len (leafCnt c.leaf 0 1 s)
        let s := if bwOpen s then { s with trc := { s.trc with txNow := Tab.mod 0 s.trc.txNow p (· + (b.length + 20)) } } else s
        let s := histCnt c.ingMac (histBin ((t - c.tIn) % 2 ^ 64)) s
        copyGone c.frame true (postcard c .sent t (emit (.frame p b) s))

/-! ### Commands -/

/-- SCHEDULER_SELECT (R204). -/
def execSchedulerSelect (p : Port) (s : State) : Host.Outcome State Fault Refusal := .next (schedule p.val s)

/-- FRAME_EGRESS (R181). -/
def execFrameEgress (p : Port) (s : State) : Host.Outcome State Fault Refusal := .next (finishFrame p.val s)

/-- SHAPER_REFILL (R207, R208): the refill 1,024 cclk after the one before. -/
def execShaperRefill (s : State) : Host.Outcome State Fault Refusal :=
  let t := s.tm.refillAt + 1024
  let s := reachCclk t s
  .next (refillAll { s with tm := { s.tm with refillAt := t } })

/-- PAUSE_RECEIVE (R209): a pause frame reaches an enabled port whose link is up. Log 97 (DEDUCED). -/
def execPauseReceive (p : Port) (f : PauseFrame) (s : State) : Host.Outcome State Fault Refusal :=
  .next (if flag F.MAC_STATUS_ENABLED p.val s && flag F.MAC_STATUS_LINK_UP p.val s then
    let s := macCnt p.val 1 64 (macCnt p.val 0 1 s)
    let s := if bwOpen s then { s with trc := { s.trc with rxNow := Tab.mod 0 s.trc.rxNow p.val (· + 84) } } else s
    pauseTake p.val f s
  else s)

/-- PAUSE_EXPIRE (R209): the times of the named classes' pauses run out. Log 92 (DEDUCED). -/
def execPauseExpire (p : Port) (classes : BitVec 8) (s : State) : Host.Outcome State Fault Refusal :=
  .next ((List.range 8).foldl (fun s k =>
    if bit classes.toNat k && pausedAt p.val k s then
      setPause p.val k 0 (reachCclk (Tab.get 0 s.tm.pauseUntil (p.val * 8 + k)) s)
    else s) s)

/-- GCL_ARM (R214, R215). -/
def execGclArm (fn : Fn) (p : Port) (w : Word) (s : State) : Host.Outcome State Fault Refusal :=
  .next (hostWr fn .TM_GCL_CTRL p.val s (gclCtrlWrite p.val (withBit w 1 true)))

/-- GCL_ENABLE (R216). -/
def execGclEnable (fn : Fn) (p : Port) (w : Word) (s : State) : Host.Outcome State Fault Refusal :=
  .next (hostWr fn .TM_GCL_CTRL p.val s (gclCtrlWrite p.val (withBit w 0 true)))

/-- GCL_DISABLE (R215). -/
def execGclDisable (fn : Fn) (p : Port) (w : Word) (s : State) : Host.Outcome State Fault Refusal :=
  .next (hostWr fn .TM_GCL_CTRL p.val s (gclCtrlWrite p.val (withBit w 0 false)))

/-- GCL_CHANGE (R214): the change time of a pending ARM; where the cycle is tied to ticks, the tick makes it (R216). -/
def execGclChange (p : Port) (s : State) : Host.Outcome State Fault Refusal :=
  match Tab.find? s.tm.change p.val with
  | none => .next s
  | some c =>
    if gateTied p.val s || !running s then .next s
    else .next (gclTakeOver p.val (c - 1) (reachPtp (c - 1) s))

/-- GATE_ENTRY_ADVANCE (R213). -/
def execGateEntryAdvance (p : Port) (s : State) : Host.Outcome State Fault Refusal := .next (gateAdvance p.val s)

/-- R217: the leaf has waited for STALL_US. Log 96 (DEDUCED). -/
def stallAt (q : Nat) (s : State) : Nat :=
  Tab.get 0 s.tm.lastSent q + max 1 (fget F.TM_CTRL_STALL_US 0 s) * 1600

/-- LEAF_STALL (R217). Log 96 (DEDUCED). -/
def execLeafStall (q : Leaf) (s : State) : Host.Outcome State Fault Refusal :=
  if (leafQueue q.val s).isEmpty || flag F.TM_LEAF_STATUS_STALLED q.val s then .next s
  else
    let s := reachCclk (stallAt q.val s) s
    .next (riseIf 91 s (bump F.TM_LEAF_STALL_COUNT q.val (setFlag F.TM_LEAF_STATUS_STALLED q.val true s)))

/-- R218: remove every frame that a leaf's queue held before the present cclk. Log 95 (DEDUCED). -/
def leafFlushNow (q : Nat) (s : State) : State :=
  let old := fun (c : Copy) => decide (c.enqAt < s.time.cclk)
  let cs := leafQueue q s
  setFlag F.TM_LEAF_STATUS_FLUSH_BUSY q true
    (eachCopy flushQueued (cs.filter old) (setLeafQueue q (cs.filter (fun c => !old c)) s))

/-- R218: a write to TM_LEAF_CTRL. -/
def leafCtrlWrite (q : Nat) (w : Word) (s : State) : State :=
  if wbit F.TM_LEAF_STATUS_FLUSH w then leafFlushNow q s else s

/-- LEAF_FLUSH (R218). -/
def execLeafFlush (fn : Fn) (q : Leaf) (w : Word) (s : State) : Host.Outcome State Fault Refusal :=
  .next (hostWr fn .TM_LEAF_STATUS q.val s (leafCtrlWrite q.val (withBit w 0 true)))

/-- LEAF_FLUSH_END (R218). Log 95 (DEDUCED). -/
def execLeafFlushEnd (q : Leaf) (s : State) : Host.Outcome State Fault Refusal :=
  .next (setFlag F.TM_LEAF_STATUS_FLUSH_BUSY q.val false s)

end Sys2Proof.Machine
end

