-- ==== Sys2Proof/Machine/Tables.lean ====
section
/-! DEFINITION. The forwarding tables (chapter 04): banks, entries, epochs and hit bits, commits, the layer-2 lookup with
learning and ageing, the LPM and trie lookups, and the trie builder. -/
namespace Sys2Proof.Machine

/-! ### Banks and entries (R174 to R180) -/

/-- R174: bytes of an entry of a bank. -/
def entSize (b : Nat) : Nat := if b < 16 then 64 else if b < 48 then 16 else if b < 56 then 32 else if b < 58 then 8 else if b < 60 then 16 else 64
/-- R174: entries of a bank. -/
def entCount (b : Nat) : Nat :=
  if b < 16 then 4096 else if b < 32 then 16384 else if b < 48 then 65536 else if b < 56 then 1024 else if b < 58 then 2048
  else if b < 60 then 32768 else 16384
/-- R174: first bank and entries per bank of EM 0, L2 1, LPM 2, ECMP 5, MCAST 6 and next-hop members 7. -/
def tableBank (t : Nat) : Nat := match t with | 0 => 0 | 1 => 16 | 2 => 32 | 5 => 56 | 6 => 60 | _ => 58
/-- R174: bank of entry `n` of a table. -/
def bankOf (t n : Nat) : Nat := tableBank t + n / entCount (tableBank t)
/-- Key of entry `n` of a table in table memory. -/
def entKey (t n : Nat) : Nat := bankOf t n * 65536 + n % entCount (tableBank t)
/-- An entry as its bytes, without its hit bit. -/
def entry (t n : Nat) (s : State) : Bytes := leBytes (entSize (tableBank t)) (Tab.get 0 s.pipe.tbl (entKey t n))
/-- FLAGS.VALID of an entry. -/
def entValid (e : Bytes) : Bool := bit (byteAt e 0) 0

/-- R176: a lookup sets the hit bit. -/
def setHit (key : Nat) (s : State) : State := { s with pipe := { s.pipe with hits := Tab.set false s.pipe.hits key true } }

/-- R180: the epoch of a bank advances. -/
def bumpEpoch (b : Nat) (s : State) : State := bump F.TBL_EPOCH_EPOCH b s

/-- R175, R176: an entry is written whole. -/
def commitEntry (key : Nat) (e : Bytes) (s : State) : State :=
  let b := key / 65536
  let e := if b < 32 then splice e 0 [BitVec.ofNat 8 (byteAt e 0 - b2n (bit (byteAt e 0) 1) * 2)] else e
  bumpEpoch b { s with pipe := { s.pipe with tbl := Tab.set 0 s.pipe.tbl key (leNat e),
                                             hits := Tab.del s.pipe.hits key } }

/-- R176: an entry as a DMA read returns it. -/
def readEntry (b i : Nat) (s : State) : Bytes :=
  let key := b * 65536 + i
  let e := leBytes (entSize b) (Tab.get 0 s.pipe.tbl key)
  if b < 32 && Tab.get false s.pipe.hits key then splice e 0 [BitVec.ofNat 8 (byteAt e 0 ||| 2)] else e

/-- R177: writers of the device are held off the bank. Log 78 (DEDUCED). -/
def bankLocked (b : Nat) (s : State) : Bool := flag F.TBL_STATUS_LOCK_ACTIVE b s

/-- R157, R174: bytes of the entry that a write begins: an IPv6 entry of the LPM pool spans four units. Log 69
(DEDUCED). -/
def entLen (b : Nat) (e : Bytes) : Nat := if 32 ≤ b ∧ b < 48 ∧ bit (byteAt e 0) 1 = true then 64 else entSize b

/-- R157, R175: the units of an IPv6 entry after the first, which commit with it. -/
def restUnits (key : Nat) (e : Bytes) (s : State) : State :=
  let t := (List.range 3).foldl (fun t k => Tab.set 0 t (key + 1 + k) (leNat (slice e (16 + 16 * k) 16))) s.pipe.tbl
  { s with pipe := { s.pipe with tbl := t } }

/-- R156, R157: the entries of an LPM bucket, as first unit and number of units: a valid IPv6 entry takes four, every
other unit stands for itself. Log 69 (DEDUCED). -/
def lpmEntries (s : State) (stop : Nat) : (fuel n : Nat) → List (Nat × Nat)
  | 0, _ => []
  | fuel + 1, n =>
    let e := entry 2 n s
    if stop ≤ n then []
    else if entValid e && bit (byteAt e 0) 1 then (n, 4) :: lpmEntries s stop fuel (n + 4)
    else (n, 1) :: lpmEntries s stop fuel (n + 1)

/-- The entries of the bucket that starts at unit `u`. -/
def bucketEntries (u : Nat) (s : State) : List (Nat × Nat) := lpmEntries s (u + 16) 16 u

/-- R175: a write of units `n` to `n + len - 1` of the LPM pool covers part of a stored IPv6 entry. Log 69 (DEDUCED).
-/
def cutsEntry (n len : Nat) (s : State) : Bool :=
  (bucketEntries (n / 16 * 16) s ++ bucketEntries ((n + len - 1) / 16 * 16) s).any (fun x =>
    x.2 == 4 && decide (x.1 < n + len) && decide (n < x.1 + 4) && (decide (x.1 < n) || decide (n + len < x.1 + 4)))

/-- R175: a write of a bank covers part of an entry. Log 69 (DEDUCED). -/
def tablePartial (b i : Nat) (e : Bytes) (s : State) : Bool :=
  e.length != entLen b e || decide (entCount b * entSize b < i * entSize b + entLen b e) ||
    (decide (32 ≤ b) && decide (b < 48) && cutsEntry ((b - 32) * 65536 + i) (entLen b e / 16) s)

/-- R175, R177: a DMA write of a bank: an L2 bank must be locked, whole entries commit; beyond the last entry there is
nothing to write. Log 69 (DEDUCED). Log 79 (DEDUCED). -/
def tableWrite (b i : Nat) (e : Bytes) (s : State) : State :=
  if entCount b ≤ i then s
  else if 16 ≤ b ∧ b < 32 ∧ bankLocked b s = false then
    bump F.PL_TBL_BAD_WR_COUNT 0 (setFlag F.TBL_STATUS_UNLOCKED_WR b true s)
  else if tablePartial b i e s then
    bump F.PL_TBL_BAD_WR_COUNT 0 (setFlag F.TBL_STATUS_PARTIAL_WR b true s)
  else if 48 ≤ b ∧ b < 56 then
    { s with pipe := { s.pipe with tbl := Tab.set 0 s.pipe.tbl (b * 65536 + i) (leNat e) } }
  else if entLen b e = entSize b then commitEntry (b * 65536 + i) e s
  else commitEntry (b * 65536 + i) (e.take 16) (restUnits (b * 65536 + i) e s)

/-- R179: frame `n` holds the epoch of a bank that one of its lookups hit; of two in one bank the smaller. -/
def holdEpoch (n b : Nat) (s : State) : State :=
  match Tab.find? s.pipe.flights n with
  | none => s
  | some f =>
    if f.epochs.any (fun e => e.1 == b) then s
    else
      let f := { f with epochs := f.epochs ++ [(b, fget F.TBL_EPOCH_EPOCH b s)] }
      { s with pipe := { s.pipe with flights := Tab.put s.pipe.flights n f } }

/-! ### Layer 2 (R146 to R153) -/

/-- R148: the candidate buckets of an L2 key in a region. -/
def l2Buckets (r : Bytes) (vlan : Nat) (mac : Bytes) : Option (Nat × Nat) :=
  let nb := rgSize r / 4
  if nb = 0 then none
  else
    let h := crc32h 0x4C32 (leBytes 2 vlan ++ mac)
    some (rgBase r / 4 + h % 65536 % nb, rgBase r / 4 + h / 65536 % nb)

/-- R148: the entry that matches, by number. -/
def l2Find (r : Bytes) (vlan : Nat) (mac : Bytes) (s : State) : Option Nat :=
  match l2Buckets r vlan mac with
  | none => none
  | some (b1, b2) =>
    ((List.range 4).map (4 * b1 + ·) ++ (List.range 4).map (4 * b2 + ·)).find? (fun n =>
      let e := entry 1 n s
      entValid e && fieldLE e 2 2 % 4096 == vlan && slice e 4 6 == mac)

/-- R150: valid entries of a bucket. -/
def bucketFill (b : Nat) (s : State) : Nat := ((List.range 4).filter (fun k => entValid (entry 1 (4 * b + k) s))).length

/-- R149, R151: what becomes of a learning request now. -/
inductive LearnAct where
  | nothing
  | locked
  | move (n : Nat)
  | insert (n : Nat)
  | full
  deriving DecidableEq, Repr

/-- R149 to R151: decide a learning request. Log 75 (DEDUCED). Log 76 (DEDUCED). -/
def learnAct (q : LearnReq) (s : State) : LearnAct :=
  match region s.cfg 1 q.region with
  | none => .nothing
  | some r =>
    match l2Buckets r q.vlan q.mac with
    | none => .nothing
    | some (b1, b2) =>
      match l2Find r q.vlan q.mac s with
      | some n =>
        let e := entry 1 n s
        if bit (byteAt e 0) 2 || !bit (byteAt e 0) 4 || byteAt e 1 == q.egrMac then .nothing
        else if bankLocked (bankOf 1 n) s then .locked else .move n
      | none =>
        if !rgLearn r || bit (byteAt q.mac 0) 0 then .nothing
        else if bankLocked (bankOf 1 (4 * b1)) s || bankLocked (bankOf 1 (4 * b2)) s then .locked
        else
          let b := if bucketFill b1 s ≤ bucketFill b2 s then b1 else b2
          match ((List.range 4).map (4 * b + ·)).find? (fun n => !entValid (entry 1 n s)) with
          | some n => .insert n
          | none => .full

/-- R149: the entry that learning writes. -/
def learntEntry (q : LearnReq) (s : State) : Bytes :=
  [0x11#8, BitVec.ofNat 8 q.egrMac] ++ leBytes 2 q.vlan ++ fitTo 6 q.mac ++ leBytes 2 (q.leaf % 32768) ++
    [BitVec.ofNat 8 (selfDev s)] ++ leBytes 3 0

/-- R151: a request for a locked bank waits, or is discarded when the learn queue is full. Log 76 (DEDUCED). -/
def learnDefer (q : LearnReq) (s : State) : State :=
  if s.pipe.deferred.length < 1024 then { s with pipe := { s.pipe with deferred := s.pipe.deferred ++ [q] } }
  else bump F.PL_L2_DEFER_DROP_COUNT 0 s

/-- R149 to R151: carry out a learning request, up to the flood of R150. -/
def learnDo (q : LearnReq) (s : State) : State :=
  match learnAct q s with
  | .nothing => s
  | .locked => learnDefer q s
  | .move n =>
    let e := entry 1 n s
    commitEntry (entKey 1 n) (splice (splice e 1 [BitVec.ofNat 8 q.egrMac]) 10 (leBytes 2 (q.leaf % 32768))) s
  | .insert n => commitEntry (entKey 1 n) (learntEntry q s) s
  | .full => bump F.PL_L2_LEARN_FAIL_COUNT 0 s

/-- R152: one entry at a pass of the sweeper. -/
def sweepEntry (n : Nat) (s : State) : State :=
  let k := entKey 1 n
  let e := entry 1 n s
  let fl := byteAt e 0
  if !entValid e || bit fl 2 then s
  else
    let put := fun (v : Nat) (s : State) =>
      { s with pipe := { s.pipe with tbl := Tab.set 0 s.pipe.tbl k (leNat (splice e 0 [BitVec.ofNat 8 v])) } }
    if Tab.get false s.pipe.hits k then
      let s := { s with pipe := { s.pipe with hits := Tab.del s.pipe.hits k } }
      put (fl - if bit fl 3 then 8 else 0) s
    else if !bit fl 3 then put (fl + 8) s
    else bumpEpoch (bankOf 1 n) (put (fl - 1) s)

/-- The L2 entries of a bank that lie in a region and hold something, rising. -/
def l2InBank (b : Nat) (s : State) : List Nat :=
  let is := ((s.pipe.tbl.filter (fun x => x.1 / 65536 == b && decide (x.1 % 65536 < 16384))).map (fun x =>
    (b - 16) * 16384 + x.1 % 65536)).foldl (fun l i => insertRising i l) []
  is.filter (fun n => (regions s.cfg 1).any (fun r => decide (rgBase r ≤ n) && decide (n < rgBase r + rgSize r)))

/-- R152: the sweeper passes over one bank, or owes it while the bank is locked. -/
def sweepBank (b : Nat) (s : State) : State :=
  if bankLocked b s then { s with pipe := { s.pipe with sweepOwed := Tab.set false s.pipe.sweepOwed b true } }
  else (l2InBank b s).foldl (fun s n => sweepEntry n s) s

/-! ### Routes (R154 to R162) -/

/-- R158: KIND and TARGET of a RESULT. -/
def resKind (r : Nat) : Nat := r / 2 ^ 30 % 4
def resTarget (r : Nat) : Nat := r % 65536

/-- R154: the lengths that a VRF names for a family, longest first. -/
def vrfLens (vrf : Nat) (v6 : Bool) (s : State) : List Nat :=
  let w := if v6 then fget F.PL_VRF_LEN2_LEN vrf s + 2 ^ 32 * fget F.PL_VRF_LEN3_LEN vrf s
    else fget F.PL_VRF_LEN0_LEN vrf s + 2 ^ 32 * fget F.PL_VRF_LEN1_LEN vrf s
  let m := if v6 then 128 else 32
  let ls := (List.range 8).map (fun i => w / 256 ^ i % 256)
  ((List.range (m + 1)).reverse).filter (fun l => ls.contains l)

/-- An address masked to its first `l` bits, as a number. -/
def maskLen (w l a : Nat) : Nat := a / 2 ^ (w - l) * 2 ^ (w - l)

/-- R156: the two candidate buckets of a prefix, as their first units. -/
def lpmUnits (r : Bytes) (vrf l : Nat) (pfx : Bytes) : List Nat :=
  let nb := rgUnits r / 16
  if nb = 0 then []
  else
    let h := crc32h 0x4C50 (leBytes 2 vrf ++ leBytes 1 l ++ pfx)
    [rgBase r + 16 * (h % 65536 % nb), rgBase r + 16 * (h / 65536 % nb)]

/-- R157: an entry at a unit that holds the prefix; its RESULT. The PREFIX of an IPv4 entry is taken in transmission
order (R156), most significant byte first. Log 69 (DEDUCED). Log 210 (DESIGN CHOICE). -/
def lpmMatch (vrf l : Nat) (v6 : Bool) (pfx : Bytes) (n : Nat) (s : State) : Option Nat :=
  let e := entry 2 n s
  if !(entValid e && bit (byteAt e 0) 1 == v6 && byteAt e 1 == l && fieldLE e 2 2 == vrf) then none
  else if v6 then
    let p := slice e 8 8 ++ slice (entry 2 (n + 1) s) 0 8
    if p == pfx then some (fieldLE e 4 4) else none
  else if slice e 4 4 == pfx then some (fieldLE e 8 4) else none

/-- R155: look an address up in the default LPM: the bank and the RESULT of the longest hit. Log 68 (DEDUCED). -/
def lpmLookup (vrf : Nat) (v6 : Bool) (addr : Nat) (s : State) : Option (Nat × Nat) :=
  match (regions s.cfg (if v6 then 3 else 2)).find? (fun r => decide (rgVrf0 r ≤ vrf) && decide (vrf ≤ rgVrf1 r)) with
  | none => none
  | some r =>
    let w := if v6 then 128 else 32
    (vrfLens vrf v6 s).findSome? (fun l =>
      let pfx := beBytes (w / 8) (maskLen w l addr)
      ((lpmUnits r vrf l pfx).flatMap (fun u => (bucketEntries u s).map (·.1))).findSome? (fun n =>
        (lpmMatch vrf l v6 pfx n s).map (fun res => (bankOf 2 n, res))))

/-- R160: the privileged VRFs of a configuration, rising. -/
def privVrfs (c : Cfg) : List Nat :=
  (List.range 1024).filter (fun v => (regions c 4).any (fun r => decide (rgVrf0 r ≤ v) && decide (v ≤ rgVrf1 r)))
/-- R160: the trie slot of a VRF. -/
def trieSlot (c : Cfg) (vrf : Nat) : Option Nat := (privVrfs c).findIdx? (· == vrf)

/-- Key of a prefix in a trie. -/
def trieKey (slot : Nat) (v6 : Bool) (l pfx : Nat) : Nat := ((slot * 2 + b2n v6) * 256 + l) * 2 ^ 128 + pfx

/-- R160: look an address up in a trie: the longest prefix wins. -/
def trieLookup (slot : Nat) (v6 : Bool) (addr : Nat) (s : State) : Option Nat :=
  let w := if v6 then 128 else 32
  ((List.range (w + 1)).reverse).findSome? (fun l =>
    (Tab.find? s.pipe.trie (trieKey slot v6 l (maskLen w l addr))).map (· - 1))

/-- R155, R160: route an address: the bank that gave the result, and the RESULT. -/
def routeLookup (vrf : Nat) (v6 : Bool) (addr : Nat) (s : State) : Option (Nat × Nat) :=
  match trieSlot s.cfg vrf with
  | some t => (trieLookup t v6 addr s).map (fun r => (48 + t, r))
  | none => lpmLookup vrf v6 addr s

/-- R162: the trie builder takes the record at HEAD; `fits` says whether node memory can hold it. Log 79 (DEDUCED). -/
def trieBuild (t : Nat) (fits : Bool) (s : State) : State :=
  let h := fget F.TRIE_RING_HEAD_HEAD t s
  let r := leBytes 32 (Tab.get 0 s.pipe.tbl ((48 + t) * 65536 + h))
  let s := fset F.TRIE_RING_HEAD_HEAD t ((h + 1) % 1024) s
  let op := byteAt r 0
  let l := byteAt r 1
  let fam := byteAt r 24
  let v6 := fam == 6
  let w := if v6 then 128 else 32
  if (privVrfs s.cfg)[t]? ≠ some (fieldLE r 2 2) ∨ (fam ≠ 4 ∧ fam ≠ 6) ∨ w < l ∨ 2 < op then
    setEvent F.TRIE_STATUS_BAD_RECORD t (104 + t) s
  else if op = 0 then bumpEpoch (48 + t) s
  else if op = 1 ∧ fits = false then setEvent F.TRIE_STATUS_NO_NODE t (104 + t) s
  else
    let k := trieKey t v6 l (maskLen w l (fieldBE r 8 (w / 8)))
    let tr := if op = 1 then Tab.put s.pipe.trie k (fieldLE r 4 4 + 1) else Tab.del s.pipe.trie k
    bumpEpoch (48 + t) { s with pipe := { s.pipe with trie := tr } }

/-! ### Locks (R177) -/

/-- R177 step 4, R151, R152: the lock of a bank is released: what waited for it goes on. Log 76 (DEDUCED). -/
def bankUnlock (b : Nat) (s : State) : State :=
  let s := setFlag F.TBL_CTRL_LOCK b false s
  if !bankLocked b s then s
  else
    let s := setFlag F.TBL_STATUS_LOCK_ACTIVE b false s
    let qs := s.pipe.deferred
    let s := qs.foldl (fun s q => learnDo q s) { s with pipe := { s.pipe with deferred := [] } }
    if Tab.get false s.pipe.sweepOwed b then
      sweepBank b { s with pipe := { s.pipe with sweepOwed := Tab.del s.pipe.sweepOwed b } }
    else s

/-- R177: a write to TBL_CTRL. -/
def tblCtrlWrite (b : Nat) (w : Word) (s : State) : State :=
  if wbit F.TBL_CTRL_LOCK w then setFlag F.TBL_CTRL_LOCK b true s else bankUnlock b s

/-! ### Commands -/

/-- L2_SWEEP (R152): one pass over every L2 region. -/
def execL2Sweep (s : State) : Host.Outcome State Fault Refusal :=
  .next ((List.range 16).foldl (fun s i => sweepBank (16 + i) s) s)

/-- TABLE_WRITE_COMMIT (R175, R177): the last byte of an entry arrives by DMA. -/
def execTableWriteCommit (b : Bank) (index : Nat) (e : Bytes) (s : State) : Host.Outcome State Fault Refusal :=
  .next (tableWrite b.val index e s)

/-- TBL_LOCK (R177). -/
def execTblLock (fn : Fn) (b : Bank) (w : Word) (s : State) : Host.Outcome State Fault Refusal :=
  .next (hostWr fn .TBL_CTRL b.val s (tblCtrlWrite b.val (withBit w 0 true)))

/-- LOCK_ACTIVE (R177): the lock that was asked for takes hold. Log 78 (DEDUCED). -/
def execLockActive (b : Bank) (s : State) : Host.Outcome State Fault Refusal :=
  .next (if flag F.TBL_CTRL_LOCK b.val s then setFlag F.TBL_STATUS_LOCK_ACTIVE b.val true s else s)

/-- TBL_UNLOCK (R177). -/
def execTblUnlock (fn : Fn) (b : Bank) (w : Word) (s : State) : Host.Outcome State Fault Refusal :=
  .next (hostWr fn .TBL_CTRL b.val s (tblCtrlWrite b.val (withBit w 0 false)))

/-- TRIE_RING_TAIL (R161, R188). -/
def execTrieRingTail (fn : Fn) (t : TrieSlot) (w : Word) (s : State) : Host.Outcome State Fault Refusal :=
  .next (hostWr fn .TRIE_RING_TAIL t.val s (fset F.TRIE_RING_TAIL_TAIL t.val (wfld F.TRIE_RING_TAIL_TAIL w)))

/-- TRIE_RECORD_COMMIT (R162): the builder has built the record at HEAD. -/
def execTrieRecordCommit (t : TrieSlot) (fits : Bool) (s : State) : Host.Outcome State Fault Refusal :=
  .next (if fget F.TRIE_RING_HEAD_HEAD t.val s = fget F.TRIE_RING_TAIL_TAIL t.val s then s else trieBuild t.val fits s)

end Sys2Proof.Machine
end

