-- ==== Sys2Proof/Machine/Pipeline.lean ====
section
/-! DEFINITION. The lookup pipeline (chapter 04): parsing, classification, bridging, routing, resolving, replication, the
precedence of actions, cut-through, and what an ingress MAC does with a frame. -/
namespace Sys2Proof.Machine

/-! ### Parsing (R138 to R141) -/

/-- `w` bits from bit `off` in transmission order; bits beyond the end read 0. -/
def bitsAt (b : Bytes) (off w : Nat) : Nat :=
  let n := (off % 8 + w + 7) / 8
  bits (beNat (fitTo n (b.drop (off / 8)))) (n * 8 - off % 8 - 1) (n * 8 - off % 8 - w)

/-- R139 to R141: what the parser makes of a frame: the filled slots, where the L3 header starts, PARSE_LIMIT. -/
structure Parsed where
  slots : Tab Nat
  l3At : Nat
  limit : Bool
  deriving DecidableEq, Repr

/-- R45, R139: the extracts of a node whose header starts at byte `o`. -/
def nodeExtracts (n b : Bytes) (o : Nat) (p : Parsed) : Parsed :=
  (List.range (byteAt n 45)).foldl (fun p i =>
    let w := byteAt n (50 + 4 * i)
    let k := byteAt n (51 + 4 * i)
    let at0 := 8 * o + fieldLE n (48 + 4 * i) 2
    { p with slots := Tab.put p.slots k (bitsAt b at0 w), l3At := if k = 4 then (at0 + w) / 8 else p.l3At }) p

/-- R45: the node that follows. -/
def nodeNext (n b : Bytes) (o : Nat) : Nat :=
  let v := bitsAt b (8 * o + fieldLE n 8 2) (byteAt n 10)
  match (List.range (byteAt n 11)).find? (fun i => fieldLE n (12 + 4 * i) 3 == v) with
  | some i => byteAt n (15 + 4 * i)
  | none => byteAt n 44

/-- R141: walk the parse graph from a node at byte `o`. -/
def parseWalk (c : Cfg) (b : Bytes) : (fuel node o : Nat) → Parsed → Parsed
  | 0, _, _, p => p
  | fuel + 1, node, o, p =>
    match parseNode c node with
    | none => p
    | some n =>
      let len := if byteAt n 1 = 1 then bitsAt b (8 * o + fieldLE n 4 2) (byteAt n 6) * byteAt n 7 else fieldLE n 2 2
      if 256 < o + len ∨ b.length < o + len then { p with limit := true }
      else
        let p := nodeExtracts n b o p
        let nx := nodeNext n b o
        if nx = 0xFF then p else parseWalk c b fuel nx (o + len) p

/-- R141: parse a frame. -/
def parseFrame (c : Cfg) (b : Bytes) : Parsed := parseWalk c b 17 (byteAt (secFixed c 3) 0) 0 ⟨[], 0, false⟩

/-- A filled slot. -/
def Parsed.slot (p : Parsed) (n : Nat) : Option Nat := Tab.find? p.slots n
/-- R140: L3 type: 4, 6, or 0 for other. -/
def Parsed.l3 (p : Parsed) : Nat :=
  if p.slot 4 = some 0x0800 then 4 else if p.slot 4 = some 0x86DD then 6 else 0
/-- The L3 header for ECN and the route rewrite. -/
def Parsed.l3Hdr (p : Parsed) : L3 := if p.l3 = 0 then none else some (p.l3At, p.l3 == 6)

/-! ### A frame in the slice -/

/-- A frame head in a slice (R135). -/
structure Head where
  num : Nat
  bytes : Bytes
  ing : Nat
  slice : Nat
  bad : Bool
  tagged : Bool
  tIn : Nat
  fromPort : Bool
  srcDev : Nat
  /-- R229: it came over a Faush link. -/
  viaFaush : Bool
  /-- R250: class that an egress flow gives its copies. -/
  cls : Option Nat := none
  /-- R83: SecTAG and ICV that the frame had on the wire. -/
  secIn : Nat := 0
  deriving DecidableEq, Repr

/-- Frame length with the FCS. -/
def Head.len (h : Head) : Nat := h.bytes.length + 4

/-- A new frame in the device's keeping (R181); it holds one copy for itself until its fate is decided. -/
def newFlight (ing : Nat) (fromPort relayed : Bool) (s : State) : Nat × State :=
  let n := s.pipe.nextFrame
  let f : Flight := { epochs := [], copies := 1, dataCells := 0, record := false, ingMac := ing, fromPort := fromPort,
                      relayed := relayed, leftPort := false }
  (n, { s with pipe := { s.pipe with nextFrame := n + 1, flights := Tab.put s.pipe.flights n f } })

/-- One more copy of a frame. -/
def addCopy (n : Nat) (s : State) : State :=
  match Tab.find? s.pipe.flights n with
  | some f => { s with pipe := { s.pipe with flights := Tab.put s.pipe.flights n { f with copies := f.copies + 1 } } }
  | none => s

/-- A copy of a head. -/
def Head.copy (h : Head) : Copy :=
  { Copy.blank with frame := h.num, bytes := h.bytes, cells := cellsOf h.len, bad := h.bad, ingMac := h.ing,
                    tIn := h.tIn, tagged := h.tagged }

/-- R173: the slice's random source advances; the tagging decision. -/
def tagDraw (sl : Nat) (s : State) : Bool × State :=
  let n := Tab.get 0 s.pipe.rnd sl
  let v := Config.freeValue (200 + sl) n
  let k := min 24 (fget F.PL_TAG_CTRL_K 0 s)
  (flag F.PL_TAG_CTRL_ENABLE 0 s && v % 2 ^ k == 0,
    { s with pipe := { s.pipe with rnd := Tab.set 0 s.pipe.rnd sl (n + 1) } })

/-! ### Exact match (R142 to R145) -/

/-- R143: fields of a profile's key, as (slot, width); slot 255 is the ingress MAC. -/
def profFields (n : Nat) : List (Nat × Nat) :=
  match n with
  | 0 => [(255, 8), (2, 12)]
  | 1 => [(5, 32), (6, 32), (9, 8), (11, 16), (12, 16)]
  | 2 => [(5, 32), (6, 32), (12, 16)]
  | 3 => [(8, 128), (9, 8), (12, 16)]
  | 4 => [(8, 128), (12, 16), (13, 32)]
  | 5 => [(0, 48), (2, 12), (4, 16)]
  | m => (255, 8) :: (List.range 5).map (fun i => (10 + m + i, 32))

/-- R141, R143: the key of a profile; none when a slot of it is unfilled. -/
def emKey (prof ing : Nat) (p : Parsed) : Option Nat :=
  (profFields prof).foldl (fun k f =>
    match k, (if f.1 = 255 then some ing else p.slot f.1) with
    | some k, some v => some (k * 2 ^ f.2 + v % 2 ^ f.2)
    | _, _ => none) (some 0)

/-- R142: the profile of a frame's search. -/
def emProfile (ing : Nat) (p : Parsed) (s : State) : Nat :=
  if p.l3 = 4 then fget F.PL_PORT_CFG0_EM_PROF_IP4 ing s
  else if p.l3 = 6 then fget F.PL_PORT_CFG0_EM_PROF_IP6 ing s
  else fget F.PL_PORT_CFG0_EM_PROF_OTHER ing s

/-- R142, R144: the entries that match, by number. -/
def emMatches (prof vrf key : Nat) (s : State) : List Nat :=
  s.pipe.tbl.filterMap (fun x =>
    let b := x.1 / 65536
    let n := b * 4096 + x.1 % 65536
    let e := leBytes 64 x.2
    if b < 16 && entValid e && byteAt e 1 == prof && fieldLE e 2 2 == vrf && fieldLE e 4 24 == key &&
      (regions s.cfg 0).any (fun r => rgProfile r == prof && decide (rgBase r ≤ n) && decide (n < rgBase r + rgSize r))
    then some n else none)

/-- R142: one of the entries that match; no rule says which of several it is: a free value picks it. Log 67 (DESIGN
CHOICE). -/
def emPick (l : List Nat) (s : State) : Option Nat × State :=
  if l.length ≤ 1 then (l.head?, s)
  else
    let v := freshValue 4 s
    (l[v.1 % l.length]?, v.2)

/-- R142: the EM search of a head. -/
def emSearch (h : Head) (p : Parsed) (s : State) : Option Nat × State :=
  if !flag F.PL_PORT_CFG0_EM_ENABLE h.ing s then (none, s)
  else
    let prof := emProfile h.ing p s
    match emKey prof h.ing p with
    | none => (none, s)
    | some k => emPick (emMatches prof (fget F.PL_PORT_CFG0_DEFAULT_VRF h.ing s) k s) s

/-! ### Resolve (R163 to R167) -/

/-- R166: the flow hash key. -/
def hashKey (p : Parsed) : Bytes :=
  let f := fun (n k : Nat) => beBytes n ((p.slot k).getD 0)
  if p.l3 = 4 then f 4 5 ++ f 4 6 ++ f 1 9 ++ f 2 11 ++ f 2 12
  else if p.l3 = 6 then f 16 7 ++ f 16 8 ++ f 1 9 ++ f 3 14 ++ f 2 11 ++ f 2 12
  else f 6 0 ++ f 6 1 ++ f 2 2 ++ f 2 4

/-- R167: the member of a group for a flow hash. -/
def ecmpMember (base countM1 h : Nat) : Nat := base + h / 65536 % 65536 * (countM1 + 1) / 65536

/-- R186: the router MAC of a port. Log 73 (DEDUCED). -/
def routerMac (p : Nat) (s : State) : Bytes :=
  beBytes 2 (fget F.PL_PORT_CFG3_ROUTER_MAC_HI p s) ++ beBytes 4 (fget F.PL_PORT_CFG2_ROUTER_MAC_LO p s)

/-- R163: the rewrite of a routed frame. Log 72 (DEDUCED). -/
def routeRewrite (p : Parsed) (m : Bytes) (b : Bytes) (s : State) : Bytes :=
  let b := splice b 0 (slice m 4 6 ++ routerMac (byteAt m 1) s)
  let b := if fieldBE b 12 2 = 0x8100 ∨ fieldBE b 12 2 = 0x88A8 then
      splice b 14 (beBytes 2 (fieldBE b 14 2 / 4096 * 4096 + fieldLE m 10 2 % 4096))
    else b
  match p.l3Hdr with
  | some (o, true) => splice b (o + 7) [BitVec.ofNat 8 (byteAt b (o + 7) - 1)]
  | some (o, false) => fixIp4 (splice b (o + 8) [BitVec.ofNat 8 (byteAt b (o + 8) - 1)]) o
  | none => b

/-! ### Cut-through (R200, R201) -/

/-- R200: classes of the same or a higher precedence than class `k` of a port. -/
def precedes (p k k' : Nat) (s : State) : Bool :=
  let mode := fun j => ((classNode s.cfg p j).map cnMode).getD 0
  if mode k = 0 then mode k' == 0 && decide (k ≤ k') else true

/-- R200: a head marked by its EM entry may travel in the cut-through class. -/
def ctEligible (h : Head) (marked : Bool) (egr leaf : Nat) (s : State) : Bool :=
  match leafRec s.cfg leaf with
  | none => false
  | some r =>
    let k := lfClass r
    marked && h.fromPort && portCt s.cfg h.ing && portCt s.cfg egr && decide (400 ≤ portGbps s.cfg h.ing) &&
      decide (400 ≤ portGbps s.cfg egr) && decide (portGbps s.cfg egr ≤ portGbps s.cfg h.ing) &&
      ((classNode s.cfg egr k).map cnCt).getD false && (leafQueue leaf s).isEmpty &&
      !((List.range 8).any (fun k' => precedes egr k k' s && classHolds egr k' s)) &&
      nodeOpen (leafKey leaf) s && nodeOpen (classKey egr k) s && nodeOpen (portKey egr) s &&
      gateFits egr k (portMtu s.cfg egr) s

/-! ### Fates (R170 to R172) -/

/-- R191 to R193, R200, R201: a copy for a port of this device. -/
def toPortAny (c : Copy) (l3 : L3) (s : State) : State :=
  let before := (leafQueue c.leaf s).length
  let s := admitCopy c l3 s
  if (leafQueue c.leaf s).length ≤ before then s
  else
    let s := if macsecHeld c.egr s && !isEapol c.bytes then macCnt c.egr 24 1 s else s
    if c.cutThrough then schedule c.egr (bump F.TM_CT_FRAMES_COUNT c.egr s) else s

/-- R202, R203, R120: as above; a stored frame that its own MAC found bad is not sent. Log 89 (DEDUCED). -/
def toPort (viaFaush : Bool) (c : Copy) (l3 : L3) (s : State) : State :=
  if c.bad && !c.cutThrough && !viaFaush then endCopy c .dropped s else toPortAny c l3 s

/-- R119, R125, R250: VC of a frame for another device: the class that an egress flow gives it, else that of its leaf,
which that device's tree gives. Log 85 (DESIGN CHOICE). Log 106 (DEDUCED). -/
def unicastVc (cls : Option Nat) (leaf : Nat) (s : State) : Nat × State :=
  match cls, leafRec s.cfg leaf with
  | some k, _ => (k, s)
  | none, some r => (lfClass r, s)
  | none, none =>
    let x := freshValue 2 s
    (x.1 % 8, x.2)

/-- R250: a copy in a class that its egress flow gives. Log 106 (DEDUCED). -/
def Copy.inClass (c : Copy) (k : Option Nat) : Copy :=
  match k with
  | some k => { c with cls := k, clsSet := true }
  | none => c

/-- R120, R200: a unicast copy for EGR_MAC and LEAF at a device; one for another device counts as a fallback there.
Log 84 (DEDUCED). Log 106 (DEDUCED). -/
def toUnicast (h : Head) (l3 : L3) (egr leaf dev : Nat) (ct : Bool) (s : State) : State :=
  let s := addCopy h.num s
  if dev = selfDev s then
    let c := (h.copy.toward egr leaf s.cfg).inClass (h.cls.filter (fun k => (classNode s.cfg egr k).isSome))
    if ctEligible h ct egr leaf s then
      toPort h.viaFaush { c with cells := cellsOf (portMtu s.cfg egr), cutThrough := true } l3 s
    else toPort h.viaFaush c l3 (bump F.TM_CT_FALLBACK_COUNT egr s)
  else
    let v := unicastVc h.cls leaf s
    let hd := pktHeader false (selfDev s) dev 0 h.len h.ing egr leaf 0 h.bad h.tagged v.1 (h.tIn % 2 ^ 32)
    meshSend dev { h.copy with egr := egr, leaf := leaf, cls := v.1, flHdr := hd } v.2

/-- R246: a copy joins its slice's queue toward the ingest attach, 64 KiB long. Log 89 (DEDUCED). -/
def toEssence (h : Head) (ctx : Nat) (byEm : Bool) (l2 : Option (Nat × Nat × Nat)) (vlan : Nat) (s : State) : State :=
  let s := addCopy h.num s
  let q := Tab.get [] s.pipe.attach h.slice
  let used := (q.map (fun c => c.bytes.length + 4)).sum
  if 65536 < used + h.len then endCopy h.copy .dropped (bump F.ESS_ATTACH_DROP_COUNT 0 s)
  else
    let e : EssCopy := { frame := h.num, ctx := ctx, bytes := h.bytes, byEm := byEm, bad := h.bad, srcDev := h.srcDev,
                         ingMac := h.ing, tagged := h.tagged, tIn := h.tIn, viaFaush := h.viaFaush, l2 := l2, vlan := vlan }
    { s with pipe := { s.pipe with attach := Tab.put s.pipe.attach h.slice (q ++ [e]) } }

/-- R196: multicast leaf of a port for a class. -/
def mcLeaf (p k : Nat) (s : State) : Option Nat :=
  if flag F.TM_MC_LEAF_VALID (8 * p + k) s then some (fget F.TM_MC_LEAF_LEAF (8 * p + k) s) else none

/-- R170, R196: the copy of a multicast frame for a port. -/
def mcastPort (h : Head) (l3 : L3) (k p : Nat) (s : State) : State :=
  let s := addCopy h.num s
  match mcLeaf p k s with
  | none => endCopy { h.copy with egr := p, cls := k, mcast := true } .dropped (bump F.TM_NO_LEAF_COUNT 0 s)
  | some q => toPort h.viaFaush { h.copy.toward p q s.cfg with cls := k, mcast := true } l3 s

/-- R169, R195: the buffer that a frame holds itself: its data cells, and its record. -/
def setHeld (n cells : Nat) (rec_ : Bool) (s : State) : State :=
  match Tab.find? s.pipe.flights n with
  | some f => { s with pipe := { s.pipe with flights := Tab.put s.pipe.flights n { f with dataCells := cells, record := rec_ } } }
  | none => s

/-- R170: the copies that a group entry `e` names, in class `k`, for essence, ports and other devices. -/
def groupCopies (h : Head) (l3 : L3) (g k : Nat) (e : Bytes) (ports devs : List Nat) (s : State) : State :=
  let ess := (List.range (min 12 (byteAt e 34))).map (fun i => fieldLE e (36 + 2 * i) 2)
  let s := ess.foldl (fun s c => toEssence h c false none 0 s) s
  let s := ports.foldl (fun s p => mcastPort h l3 k p s) s
  devs.foldl (fun s d =>
    let hd := pktHeader true (selfDev s) d 0 h.len h.ing 0 0 g h.bad h.tagged k (h.tIn % 2 ^ 32)
    meshSend d { h.copy with cls := k, mcast := true, flHdr := hd } (addCopy h.num s)) s

/-- R169, R170, R195: replicate a head under a group; `local_` makes no copies for other devices, `cls` stands in place of
the group's class (R250). Log 88 (DEDUCED). Log 106 (DEDUCED). -/
def replicateAs (h : Head) (l3 : L3) (g : Nat) (local_ : Bool) (cls : Option Nat) (s : State) : State :=
  let e := entry 6 g s
  if 65535 < g ∨ bit (byteAt e 32) 0 = false then postcard h.copy .dropped 0 s
  else
    let s := holdEpoch h.num (bankOf 6 g) s
    let k := cls.getD (byteAt e 35 % 8)
    let ports := (List.range 256).filter (fun p => bit (fieldLE e 0 32) p && !(h.fromPort && p == h.ing))
    let devs := if local_ then [] else (List.range 4).filter (fun d => bit (byteAt e 33) d && d != selfDev s)
    let c := if ports.isEmpty && devs.isEmpty then 0 else cellsOf h.len
    if carveMcast s.cfg ≤ s.tm.mcastUsed then postcard h.copy .dropped 0 (bump F.PL_MC_NO_RECORD_COUNT 0 s)
    else if sharedFree s < c then postcard h.copy .dropped 0 (bump F.TM_SHARED_DROP_COUNT 0 s)
    else
      let s := setHeld h.num c true { s with tm := { s.tm with mcastUsed := s.tm.mcastUsed + 1 } }
      groupCopies h l3 g k e ports devs (if c = 0 then s else setShared (sharedUsed s + c) s)

/-- R169, R170: replicate a head under a group. -/
def replicate (h : Head) (l3 : L3) (g : Nat) (local_ : Bool) (s : State) : State := replicateAs h l3 g local_ none s

/-- R97, R172, R190: a frame for Tchien: it joins the queue and holds control cells there. Log 80 (DEDUCED). Log 212
(DESIGN CHOICE). -/
def puntHead (h : Head) (s : State) : State :=
  let sec := nsSec (nowNs s)
  let n := if s.pipe.puntWindow.1 = sec then s.pipe.puntWindow.2 else 0
  if h.bad then postcard h.copy .dropped 0 s
  else if 10000 ≤ n then postcard h.copy .dropped 0 (bump F.PL_PUNT_DROP_COUNT 0 s)
  else
    let s := { s with pipe := { s.pipe with puntWindow := (sec, n + 1) } }
    let c := cellsOf h.len
    if carveControl s.cfg < s.tm.controlUsed + c then postcard h.copy .dropped 0 (bump F.TM_CTRL_DROP_COUNT 0 s)
    else
      let s := addCopy h.num { s with pipe := { s.pipe with punts := s.pipe.punts ++ [(h.num, c)] }
                                      tm := { s.tm with controlUsed := s.tm.controlUsed + c } }
      let stamp := if h.fromPort then ptpStamp h.ing h.tIn h.bytes s else none
      postcard h.copy .punt 0 (emit (.punt h.ing (h.bytes ++ fcsOf h.bytes) stamp) s)

/-- A frame that S7 drops. Log 71 (DEDUCED). -/
def dropHead (h : Head) (s : State) : State := postcard h.copy .dropped 0 s

/-- R155, R164: a frame is dropped as a route miss, and counted. Log 71 (DEDUCED). -/
def routeMissed (h : Head) (s : State) : State :=
  dropHead h { s with pipe := { s.pipe with routeMiss := s.pipe.routeMiss + 1 } }

/-- R163: resolve a member. Log 71 (DEDUCED). -/
def toMember (h : Head) (p : Parsed) (routed : Bool) (i : Nat) (leaf : Option Nat) (ct : Bool) (s : State) : State :=
  let m := entry 7 i s
  if 65535 < i ∨ entValid m = false then dropHead h s
  else
    let s := holdEpoch h.num (bankOf 7 i) s
    let h := if routed && bit (byteAt m 0) 1 then { h with bytes := routeRewrite p m h.bytes s } else h
    toUnicast h p.l3Hdr (byteAt m 1) (leaf.getD (fieldLE m 2 2 % 32768)) (byteAt m 12 % 4) ct s

/-- R164 to R167: resolve an ECMP or LAG group. Log 71 (DEDUCED). -/
def toGroup (h : Head) (p : Parsed) (routed : Bool) (g : Nat) (leaf : Option Nat) (ct : Bool) (s : State) : State :=
  let e := entry 5 g s
  if 4095 < g ∨ entValid e = false then routeMissed h s
  else
    let s := holdEpoch h.num (bankOf 5 g) s
    let base := fieldLE e 2 2
    let m1 := byteAt e 1
    if 65535 < base + m1 then routeMissed h s
    else
      let seed := if bit (byteAt e 0) 1 then fget F.PL_LAG_SEED_SEED 0 s else fget F.PL_HASH_SEED_SEED 0 s
      toMember h p routed (ecmpMember base m1 (crc32h seed (hashKey p))) leaf ct s

/-- R158: act on a route result. -/
def toRoute (h : Head) (p : Parsed) (r : Nat) (leaf : Option Nat) (ct : Bool) (s : State) : State :=
  match resKind r with
  | 1 => toMember h p true (resTarget r) leaf ct s
  | 2 => toGroup h p true (resTarget r) leaf ct s
  | 3 => puntHead h s
  | _ => dropHead h s

/-- R138, R163: TTL or hop limit of a frame: slot 15, else as its L3 header has it. Log 70 (DEDUCED). -/
def ttlOf (p : Parsed) (b : Bytes) : Nat := (p.slot 15).getD (byteAt b (p.l3At + if p.l3 = 6 then 7 else 8))

/-- R158, R163: the frame is punted by its route or by its TTL. Log 70 (DEDUCED). -/
def routePunts (p : Parsed) (b : Bytes) (route : Option Nat) : Bool :=
  (route.map resKind) == some 3 || (p.l3 != 0 && decide (ttlOf p b ≤ 1))

/-- R155: the destination of a routed frame. -/
def destAddr (p : Parsed) : Option Nat := if p.l3 = 4 then p.slot 6 else if p.l3 = 6 then p.slot 8 else none

/-- R154 to R160: S4 for a frame: it is routed, and its result. -/
def routeStage (h : Head) (p : Parsed) (vrf : Nat) (s : State) : Option Nat × State :=
  match (destAddr p).bind (fun a => routeLookup vrf (p.l3 == 6) a s) with
  | some (b, r) => (some r, holdEpoch h.num b s)
  | none => (none, s)

/-- R153: flood a head. Log 74 (DEDUCED). -/
def floodHead (h : Head) (p : Parsed) (vlan : Nat) (s : State) : State :=
  replicate h p.l3Hdr (fget F.PL_FLOOD_BASE_GROUP 0 s + vlan) false s

/-- R155: the conditions of routing, the EM action apart. -/
def routable (h : Head) (p : Parsed) (s : State) : Bool :=
  p.l3 != 0 && p.slot 0 == some (beNat (routerMac h.ing s))

/-- R171: S4 to S7 for a frame without an EM action: rows 2 and 6 to 8. -/
def actDefault (h : Head) (p : Parsed) (vrf : Nat) (l2 : Option (Nat × Nat × Nat)) (vlan : Nat) (leaf : Option Nat)
    (ct : Bool) (s : State) : State :=
  if routable h p s then
    let r := routeStage h p vrf s
    if routePunts p h.bytes r.1 then puntHead h r.2
    else
      match r.1 with
      | some res => toRoute h p res leaf ct r.2
      | none => routeMissed h r.2
  else
    match l2 with
    | some (egr, q, dev) => if egr = h.ing ∧ dev = selfDev s then dropHead h s else toUnicast h p.l3Hdr egr (leaf.getD q) dev ct s
    | none => floodHead h p vlan s

/-- R171: S7 for a frame that the EM table was searched for. -/
def actEm (h : Head) (p : Parsed) (em : Option Bytes) (l2 : Option (Nat × Nat × Nat)) (vlan : Nat) (s : State) : State :=
  let vrf0 := fget F.PL_PORT_CFG0_DEFAULT_VRF h.ing s
  match em with
  | none => actDefault h p vrf0 l2 vlan none false s
  | some e =>
    let ct := bit (byteAt e 0) 2
    let leaf := if bit (byteAt e 33) 1 then some (fieldLE e 36 2 % 32768) else none
    let target := fieldLE e 40 4
    match byteAt e 32 with
    | 0 => actDefault h p (if bit (byteAt e 33) 0 then fieldLE e 34 2 else vrf0) l2 vlan leaf ct s
    | 2 => toMember h p false target leaf ct s
    | 3 => toGroup h p false target leaf ct s
    | 4 => replicate h p.l3Hdr target false s
    | 5 => toEssence h (fieldLE e 38 2) true l2 vlan s
    | 6 => puntHead h s
    | _ => dropHead h s

/-! ### Bridging (R147 to R153) -/

/-- R147: VLAN of a head's L2 key; none when it stays unfilled. -/
def keyVlan (h : Head) (p : Parsed) (s : State) : Option Nat :=
  let prof := ((region s.cfg 1 (fget F.PL_PORT_CFG0_L2_REGION h.ing s)).map rgProfile).getD 0
  let pvid := fget F.PL_PORT_CFG1_PVID h.ing s
  match p.slot (if prof = 1 then 3 else 2) with
  | some v => some v
  | none => if pvid = 0 then none else some pvid

/-- R148, R176, R179: look a MAC up in the port's region. -/
def l2Lookup (h : Head) (vlan mac : Nat) (s : State) : Option Nat × State :=
  match (region s.cfg 1 (fget F.PL_PORT_CFG0_L2_REGION h.ing s)).bind (fun r => l2Find r vlan (beBytes 6 mac) s) with
  | some n => (some n, holdEpoch h.num (bankOf 1 n) (setHit (entKey 1 n) s))
  | none => (none, s)

/-- R149 to R151: what the source address asks of learning; true when R150 floods the frame. Log 77 (DEDUCED). -/
def learnStage (h : Head) (vlan smac : Nat) (keep : Bool) (s : State) : Bool × State :=
  let q : LearnReq := { region := fget F.PL_PORT_CFG0_L2_REGION h.ing s, vlan := vlan, mac := beBytes 6 smac,
                        egrMac := h.ing, leaf := fget F.PL_PORT_CFG1_LEARN_LEAF h.ing s, move := none,
                        frame := if keep then h.bytes else [], ingMac := h.ing, bad := h.bad, tagged := h.tagged
                        tIn := h.tIn }
  match learnAct q s with
  | .nothing => (false, s)
  | .locked => (false, learnDefer q s)
  | .full => (true, bump F.PL_L2_LEARN_FAIL_COUNT 0 s)
  | .move n => (false, { s with pipe := { s.pipe with learn := s.pipe.learn ++ [{ q with move := some n }] } })
  | .insert _ => (false, { s with pipe := { s.pipe with learn := s.pipe.learn ++ [q] } })

/-- R147 to R153: S3: the DMAC's hit, the VLAN, and the learning of the SMAC. Log 74 (DEDUCED). -/
def bridgeStage (h : Head) (p : Parsed) (em : Option Bytes) (s : State) : (Option (Nat × Nat × Nat) × Nat) × State :=
  match keyVlan h p s with
  | none => ((none, 0), s)
  | some vlan =>
    let d := match p.slot 0 with
      | some m => l2Lookup h vlan m s
      | none => (none, s)
    let hit := match d.1 with
      | some n =>
        let e := entry 1 n d.2
        if p.slot 0 = some 0xFFFFFFFFFFFF then none else some (byteAt e 1, fieldLE e 10 2 % 32768, byteAt e 12 % 4)
      | none => none
    match p.slot 1 with
    | none => ((hit, vlan), d.2)
    | some m =>
      let u := l2Lookup h vlan m d.2
      let bridged := hit.isSome && !routable h p s && ((em.map (byteAt · 32)).getD 0 == 0)
      let r := if h.fromPort then learnStage h vlan m bridged u.2 else (false, u.2)
      ((if r.1 then none else hit, vlan), r.2)

/-- R135, R171: the stages of a slice for a head that enters at S1. -/
def sliceRun (h : Head) (s : State) : State :=
  let p := parseFrame s.cfg h.bytes
  let s := if p.limit then bump F.PL_PARSE_LIMIT_COUNT 0 s else s
  let x := emSearch h p s
  let em := x.1.map (fun n => entry 0 n s)
  let s := match x.1 with
    | some n => holdEpoch h.num (bankOf 0 n) (setHit (entKey 0 n) x.2)
    | none => x.2
  let b := bridgeStage h p em s
  let s := flowCnt ((em.map (fun e => fieldLE e 28 4)).getD 0 % 65536) (h.len + h.secIn) b.2
  copyGone h.num false (actEm h p em b.1.1 b.1.2 s)

/-! ### Ingress -/

/-- R13, R98, R173: a frame of `len` bytes that a MAC accepted enters its slice as the bytes `b` and an FCS. -/
def enterSlice (p len : Nat) (b : Bytes) (bad : Bool) (s : State) : State :=
  let f := newFlight p true true s
  let t := tagDraw (sliceOfPort p) f.2
  sliceRun { num := f.1, bytes := b, ing := p, slice := sliceOfPort p, bad := bad, tagged := t.1,
             tIn := stampBefore p len (nowNs s) s, fromPort := true, srcDev := selfDev s, viaFaush := false,
             secIn := len - 4 - b.length } t.2

/-- R91: a frame of the uncontrolled port goes to Tchien. Log 83 (DEDUCED). -/
def eapolIn (p len : Nat) (b : Bytes) (bad : Bool) (s : State) : State :=
  let f := newFlight p true true s
  let h : Head := { num := f.1, bytes := b, ing := p, slice := sliceOfPort p, bad := bad, tagged := false,
                    tIn := stampBefore p len (nowNs s) s, fromPort := true, srcDev := selfDev s, viaFaush := false }
  copyGone f.1 false (puntHead h (macCnt p 11 1 f.2))

/-- R91, R97: MACsec verification, then the slice; `len` is the frame's length on the wire. Log 82 (DEDUCED). -/
def macRx (p len : Nat) (b : Bytes) (bad : Bool) (s : State) : State :=
  let go := fun (b : Bytes) (bad : Bool) (s : State) =>
    let s := if !bad && portPtp s.cfg p && flag F.MAC_PTP_TS_ENABLE p s && (ptpEvent b).isSome then macCnt p 10 1 s else s
    enterSlice p len b bad s
  if !portMacsec s.cfg p then go b bad s
  else
    let r := macsecRx p b s
    match r.1 with
    | .ok b => go b bad r.2
    | .eapol => eapolIn p len b bad r.2
    | .noTag => macCnt p 7 1 r.2
    | .icvFail b => go b true (macCnt p 8 1 r.2)
    | .replay b => go b true (macCnt p 9 1 r.2)

/-- R209: a MAC control frame that R209 honours: its PAUSE time, or its priorities and times. Log 83 (DEDUCED). -/
def macControl (b : Bytes) : Option PauseFrame :=
  if fieldBE b 12 2 ≠ 0x8808 then none
  else if fieldBE b 14 2 = 0x0001 then some (.pause (BitVec.ofNat 16 (fieldBE b 16 2)))
  else if fieldBE b 14 2 = 0x0101 then
    some (.pfc (BitVec.ofNat 8 (byteAt b 17)) ((List.range 8).map (fun k => BitVec.ofNat 16 (fieldBE b (18 + 2 * k) 2))))
  else none

/-- R13, R83, R549: a frame received whole at an ingress MAC. Log 53 (DEDUCED). Log 82 (DEDUCED). -/
def macIngress (p : Nat) (f : Bytes) (fecCw fecSym : Nat) (s : State) : State :=
  let len := f.length
  let mtu := portMtu s.cfg p
  let s := macCnt p 14 fecSym (macCnt p 12 fecCw s)
  let s := macCnt p 1 len (macCnt p 0 1 s)
  let s := if bwOpen s then { s with trc := { s.trc with rxNow := Tab.mod 0 s.trc.rxNow p (· + (len + 20)) } } else s
  if len < 64 then macCnt p 3 1 s
  else if mtu < len then macRx p mtu (f.take (mtu - 4)) true (macCnt p 4 1 s)
  else
    let b := f.take (len - 4)
    if fcsOf b ≠ f.drop (len - 4) then macRx p len b true (macCnt p 2 1 s)
    else
      match macControl b with
      | some q => pauseTake p q s
      | none => macRx p len b false s

/-- R13, R86: a port whose link is up receives a frame while it is enabled, and the frame that was in progress when its
drain began. -/
def rxOpen (p : Nat) (s : State) : Bool :=
  flag F.MAC_STATUS_LINK_UP p s &&
    (flag F.MAC_STATUS_ENABLED p s || (flag F.MAC_STATUS_DRAINING p s && Tab.get false s.ports.rxTail p))

/-- FRAME_INGRESS (R13, R86): a port receives a frame. Log 211 (DESIGN CHOICE). -/
def execFrameIngress (p : Port) (frame : Bytes) (fecCw fecSym : Nat) (s : State) : Host.Outcome State Fault Refusal :=
  .next (if rxOpen p.val s then
    macIngress p.val frame fecCw fecSym { s with ports := { s.ports with rxTail := Tab.del s.ports.rxTail p.val } }
  else s)

/-- R201: cells that a cut-through copy did not use return. -/
def tailCells (c : Copy) (s : State) : State :=
  let n := c.cells - cellsOf c.len
  let s := fset F.TM_LEAF_DEPTH_CELLS c.leaf (leafDepth c.leaf s - n) s
  setLeafUni c.leaf (leafUni c.leaf s - n) s

/-- R202: a cut-through copy whose head has left was found bad. -/
def stompCount (c : Copy) (s : State) : State :=
  macCnt c.egr 21 1 (macCnt c.ingMac 15 1 (bump F.TM_CT_STOMP_TX_COUNT c.egr (bump F.TM_CT_STOMP_RX_COUNT c.ingMac s)))

/-- R201, R202: the tail of the cut-through frame of a port arrives. -/
def tailArrives (eg : Nat) (s : State) : State :=
  let queued := s.tm.queues.findSome? (fun x => (x.2.find? (fun c => c.cutThrough && c.egr == eg)).map (fun c => (x.1, c)))
  let done := fun (c : Copy) => { c with cutThrough := false, cells := cellsOf c.len }
  match (Tab.find? s.ports.wire eg).filter (·.cutThrough) with
  | some c =>
    let s := tailCells c s
    let s := { s with ports := { s.ports with wire := Tab.put s.ports.wire eg (done c) } }
    if c.bad then stompCount c s else s
  | none =>
    match queued with
    | none => s
    | some (q, c) =>
      let s := tailCells c s
      if c.bad then
        endCopy c .dropped (releaseCells (done c) (setLeafQueue q ((leafQueue q s).filter (fun x => x.frame != c.frame)) s))
      else setLeafQueue q ((leafQueue q s).map (fun x => if x.frame = c.frame then done x else x)) s

/-- CUT_THROUGH_TAIL (R201, R202). -/
def execCutThroughTail (eg : Port) (s : State) : Host.Outcome State Fault Refusal := .next (tailArrives eg.val s)

/-- L2_LEARN (R149, R150): the oldest learning request is carried out; a failure floods its frame. Log 77 (DEDUCED).
-/
def execL2Learn (s : State) : Host.Outcome State Fault Refusal :=
  match s.pipe.learn with
  | [] => .next s
  | q :: r =>
    let s := { s with pipe := { s.pipe with learn := r } }
    let full := learnAct q s == .full
    let s := learnDo q s
    if full && !q.frame.isEmpty then
      let f := newFlight q.ingMac true true s
      let h : Head := { num := f.1, bytes := q.frame, ing := q.ingMac, slice := sliceOfPort q.ingMac, bad := q.bad,
                        tagged := q.tagged, tIn := q.tIn, fromPort := true, srcDev := selfDev s, viaFaush := false }
      .next (copyGone f.1 false (floodHead h (parseFrame s.cfg q.frame) q.vlan f.2))
    else .next s

end Sys2Proof.Machine
end

