-- ==== Sys2Proof/Machine/KeyTab.lean ====
section
/-! DEFINITION. The Ward's key table as its users see it (R488, R489, R491): handles, generations, records, and the test of
a handle for a usage. -/
namespace Sys2Proof.Machine

/-- R488: SLOT of a handle. -/
def keySlot (h : Nat) : Nat := h % 16384

/-- R488: present GEN of a slot; each starts this boot at a random value from 1 to 262,143. Log 166 (DEDUCED). -/
def keyGen (slot : Nat) (s : State) : Nat :=
  match Tab.find? s.ward.gens slot with
  | some g => g
  | none => 1 + fieldLE (fitTo 65536 (Config.random s.ward.genDraw 65536)) (4 * slot) 4 % 262143

/-- R488: the handle of a slot. -/
def keyHandle (slot : Nat) (s : State) : Nat := keyGen slot s * 16384 + slot

/-- R488: each destroy advances GEN, wrapping from 262,143 to 1. Log 166 (DEDUCED). -/
def keyAdvance (slot : Nat) (s : State) : State :=
  let g := keyGen slot s
  { s with ward := { s.ward with gens := Tab.put s.ward.gens slot (if g = 262143 then 1 else g + 1) } }

/-- R489: the record that a handle names, when its GEN matches. -/
def keyRec (h : Nat) (s : State) : Option Bytes :=
  if h ≠ 0 ∧ keyGen (keySlot h) s = h / 16384 then Tab.find? s.ward.keys (keySlot h) else none

def krUsage (r : Bytes) : Nat := byteAt r 1
def krFn (r : Bytes) : Nat := byteAt r 2
def krLen (r : Bytes) : Nat := byteAt r 3
def krId (r : Bytes) : Nat := fieldLE r 4 4
def krKey (r : Bytes) : Bytes := slice r 16 (krLen r)

/-- R489: USAGE bits. -/
def useSeal : Nat := 1
def useSrtp : Nat := 2
def useCak : Nat := 8
def useWrap : Nat := 16
def useImage : Nat := 32

/-- R491: a handle is usable by function `fn` for a usage. -/
def keyUsable (h use fn : Nat) (s : State) : Bool :=
  match keyRec h s with
  | some r => krUsage r == use && (krFn r == fn || krFn r == 0xFF) && (s.mode == .configure || s.mode == .operate)
  | none => false

/-- R338: the data key of a sealed stream. -/
def sealDataKey (h : Nat) (streamId : Bytes) (s : State) : Bytes :=
  match keyRec h s with
  | some r => (Config.hmac384 (krKey r) ([0x44#8, 0x5A#8, 0x4D#8, 0x37#8, 0x32#8, 0x36#8, 0x34#8, 0x2D#8, 0x53#8, 0x45#8, 0x41#8, 0x4C#8] ++
      streamId)).take 32
  | none => []

end Sys2Proof.Machine
end

