-- ==== Sys2Proof/Machine/Coded.lean ====
section
/-! DEFINITION. Coded output (R333 to R338, R353, R360): how an access unit is put together from what the entropy coder
commits, the coded output window, the sealed record, and the start and end of an encoder's picture. -/
namespace Sys2Proof.Machine

/-! ### Annex B -/

/-- One byte of a walk over a byte stream: zeros seen in a row, the NAL unit in progress (reversed), those before it. -/
def nalByte (x : Nat × Option Bytes × List Bytes) (b : Byte) : Nat × Option Bytes × List Bytes :=
  if b = 1#8 ∧ 3 ≤ x.1 then
    (0, some [], match x.2.1 with | some c => x.2.2 ++ [(c.drop 3).reverse] | none => x.2.2)
  else (if b = 0#8 then x.1 + 1 else 0, x.2.1.map (b :: ·), x.2.2)

/-- R334: the NAL units of a byte stream with 4-byte start codes. -/
def nalsOf (b : Bytes) : List Bytes :=
  let x := b.foldl nalByte (0, none, [])
  match x.2.1 with
  | some c => x.2.2 ++ [c.reverse]
  | none => x.2.2

/-- R372: one byte of a walk that takes 3-byte start codes too: position, zeros seen in a row, the NAL unit in progress
(position and bytes reversed), those before it. -/
def annexByte (x : Nat × Nat × Option (Nat × Bytes) × List (Nat × Bytes)) (b : Byte) :
    Nat × Nat × Option (Nat × Bytes) × List (Nat × Bytes) :=
  let n := x.1 + 1
  if b = 1#8 ∧ 2 ≤ x.2.1 then (n, 0, some (n, []), x.2.2.2 ++ (x.2.2.1.map (fun u => (u.1, u.2.drop x.2.1))).toList)
  else (n, if b = 0#8 then x.2.1 + 1 else 0, x.2.2.1.map (fun u => (u.1, b :: u.2)), x.2.2.2)

/-- R372: the NAL units of an access unit in Annex B form, with their byte offsets. -/
def annexB (b : Bytes) : List (Nat × Bytes) :=
  let x := b.foldl annexByte (0, 0, none, [])
  (x.2.2.2 ++ (x.2.2.1.map (fun u => (u.1, u.2.drop x.2.1))).toList).map (fun u => (u.1, u.2.reverse))

/-- Drop trailing zeros, which may belong to the next start code. -/
def trimZeros (b : Bytes) : Bytes := (b.reverse.dropWhile (· == 0#8)).reverse

/-- R330, R335: the NAL units of an access unit as far as they are committed; `whole` at the end of the picture. -/
def nalsSoFar (b : Bytes) (whole : Bool) : List Bytes :=
  let ns := nalsOf b
  if whole then ns
  else match ns.reverse with
    | [] => []
    | l :: r => (trimZeros l :: r).reverse

/-- nal_unit_type of a NAL unit. -/
def nalType (codec : Nat) (nal : Bytes) : Nat := if codec = 1 then byteAt nal 1 / 8 else byteAt nal 0 / 2 % 64

/-- nuh_layer_id and TemporalId of a NAL unit. -/
def nalLayer (codec : Nat) (nal : Bytes) : Nat :=
  if codec = 1 then byteAt nal 0 % 64 else byteAt nal 0 % 2 * 32 + byteAt nal 1 / 8
def nalTid (nal : Bytes) : Nat := byteAt nal 1 % 8 - 1

/-- R381: nal_unit_type values that H.265 and H.266 reserve. Log 217 (PRESUMED). -/
def nalReserved (codec t : Nat) : Bool :=
  if codec = 1 then (4 ≤ t && t ≤ 6) || t == 11 || t == 26 || t == 27
  else (10 ≤ t && t ≤ 15) || (22 ≤ t && t ≤ 31) || (41 ≤ t && t ≤ 47)

/-- A slice NAL unit. -/
def nalVcl (codec : Nat) (nal : Bytes) : Bool := if codec = 1 then decide (nalType codec nal < 12) else decide (nalType codec nal < 32)

/-- A 4-byte start code. -/
def startCode : Bytes := [0#8, 0#8, 0#8, 1#8]

/-- R333: the user data of the raw SEI. -/
def rawUser (p : Bytes) (cfa rl : Nat) : Bytes :=
  beBytes 1 1 ++ beBytes 1 cfa ++ beBytes 1 rl ++ beBytes 1 (pDepth p) ++ beBytes 2 (pRawBlack p) ++ beBytes 2 (pRawWhite p) ++
    beBytes 2 (pWidth p / 2) ++ beBytes 2 (pHeight p / 2) ++ beBytes 4 0

/-- R333: the UUID of the raw SEI. Log 122 (DEDUCED). -/
def rawUuid : Bytes :=
  [0xD7#8, 0x4E#8, 0x2A#8, 0x91#8, 0x5C#8, 0x03#8, 0x4B#8, 0x8F#8, 0xA6#8, 0x1E#8, 0x70#8, 0xC2#8, 0x39#8, 0xB5#8, 0x08#8, 0x64#8]

/-- R333: the NAL unit of the raw SEI, with its start code: 41 B. Log 122 (DEDUCED). -/
def rawSei (p : Bytes) (cfa rl : Nat) : Bytes :=
  startCode ++ (if pCodec p = 1 then [0x00#8, 0xB9#8] else [0x4E#8, 0x01#8]) ++ [0x05#8, 0x20#8] ++ rawUuid ++
    rawUser p cfa rl ++ [0x80#8]

/-- R317: an adaptation parameter set, which only H.266 has. Log 119 (PRESUMED). -/
def nalAps (codec : Nat) (nal : Bytes) : Bool := codec == 1 && (nalType codec nal == 17 || nalType codec nal == 18)

/-- R302, R303: general_profile_idc of a PROFILE. -/
def profileIdc (prof : Nat) : Nat :=
  match prof with
  | 0x01 => 1 | 0x02 => 2 | 0x21 => 1 | 0x22 => 33 | 0x23 => 2 | 0x24 => 34 | 0x25 => 10 | 0x26 => 42 | _ => 4

/-- R304: general_level_idc: 30 times the level number in H.265, 16 times the whole part plus 3 times the fraction digit in
H.266, and 255 above level 6.2. Log 218 (DEDUCED). -/
def levelIdc (codec l : Nat) : Nat := if 62 < l then 255 else if codec = 1 then l / 10 * 16 + l % 10 * 3 else 3 * l

/-- R307, R308, R329, R356: the tools that the encoder uses under a parameter record `p` and a rate-control record `r`. -/
def toolsOf (p r : Bytes) : List Config.Tool :=
  let on := fun (b : Bool) (t : Config.Tool) => if b then [t] else []
  let inter := pGop p != 0
  let tiles := decide (1 < pTileCols p * pTileRows p)
  let qp := on (rcAq r || rcMode r != 0) .ctuQpDelta
  let common := [.deblocking, .sao] ++ on tiles .tiles ++ on (pWpp p) .wavefronts ++ on (pHashSei p) .pictureHash ++ qp
  if pCodec p = 1 then
    common ++ [.dualTree, .multipleReferenceLines, .matrixIntra, .multipleTransforms, .lfnst, .dependentQuantisation, .alf] ++
      on (pChroma p != 0) .crossComponentLinear ++ on (pChroma p != 0) .jointChroma ++ on (pChroma p != 0) .ccAlf ++
      (if inter then [.mmvd, .subblockMerge, .affine, .adaptiveMotionResolution, .bdof, .dmvr] else []) ++
      on (pUll p) .rectangularSlices
  else
    common ++ [.strongIntraSmoothing, .transformSkip, .signDataHiding] ++ on inter .temporalMotion ++
      on (inter && decide (pEffort p ≤ 1)) .asymmetricPartitions ++ on (pChroma p == 3) .crossComponent ++
      on (pDepth p == 16) .extendedPrecision ++ on (pUll p) .dependentSlices

/-- R302 to R308, R312, R320, R358: the parameter sets of a stream under its records, with a picture period of n / d
seconds. Log 213 (DESIGN CHOICE). -/
def paramSetsOf (p r : Bytes) (n d : Nat) : Config.ParamSets :=
  { codec := pCodec p, profileIdc := profileIdc (pProfile p), levelIdc := levelIdc (pCodec p) (pLevel p), tier := pTier p
    chroma := pChroma p, depth := pDepth p, width := ext8 (pWidth p), height := ext8 (pHeight p)
    cropRight := ext8 (pWidth p) - pWidth p, cropBottom := ext8 (pHeight p) - pHeight p, ctu := pCtu p
    tileCols := (List.range (pTileCols p)).map (tileW p), tileRows := (List.range (pTileRows p)).map (tileH p)
    lfAcrossTiles := pLfAcross p, tools := toolsOf p r, primaries := pPrimaries p, transfer := pTransfer p, matrix := pMatrix p
    fullRange := pFullRange p, timing := if pVuiTiming p then some (n, d) else none, hrd := hrdInfo r n d }

/-- A NAL unit with its start code. -/
def nalOut (x : Config.CodedNal) : Bytes := startCode ++ Config.nalUnit x

/-- R357, R358: the initial removal delay in 90 kHz units: the time in which the fullness F arrives, or INIT_DELAY_90K where no
model runs. Log 219 (DEDUCED). -/
def hrdDelay (d : Nat) (x : RcSt) : Nat :=
  if rcRate x.record = 0 then rcInit x.record else x.f.toNat / (rcRate x.record * d)

/-- R317, R358: the parameter sets and the SEI of rate control before the slices of a picture. Log 213 (DESIGN
CHOICE). Log 219 (DEDUCED). -/
def headNals (plan : PicPlan) (x : RcSt) (n d : Nat) : List Config.CodedNal × List Config.CodedNal :=
  let p := plan.params
  let ps := paramSetsOf p x.record n d
  let sets := if plan.irap then (if pCodec p = 1 then [.sps ps, .pps ps] else [.vps ps, .sps ps, .pps ps]) else []
  let sei := if rcHrd x.record then
      (if plan.irap then [.bufferingPeriod (pCodec p) (hrdDelay d x)] else []) ++ [.pictureTiming (pCodec p) x.since]
    else []
  (sets, sei)

/-- R317, R333: what an access unit begins with: parameter sets, then prefix SEI, then the slices that the first
commit `coded` holds. Log 122 (DEDUCED). Log 213 (DESIGN CHOICE). -/
def auHead (plan : PicPlan) (x : RcSt) (n d cfa rl : Nat) (coded : Bytes) : Bytes × Bytes :=
  let p := plan.params
  let ns := nalsOf coded
  let pre := ns.takeWhile (fun u => !nalVcl (pCodec p) u)
  let h := headNals plan x n d
  (h.1.flatMap nalOut ++ (pre.filter (nalAps (pCodec p))).flatMap (startCode ++ ·) ++ h.2.flatMap nalOut ++
      (if pRaw p then rawSei p cfa rl else []),
    (ns.drop pre.length).flatMap (startCode ++ ·))

/-- R307, R317: the suffix SEI of a picture. Log 213 (DESIGN CHOICE). -/
def auTail (p md5 : Bytes) : Bytes := if pHashSei p then nalOut (.pictureHash (pCodec p) md5) else []

/-- R234, R312: the flow that feeds a LIVE context. -/
def feedFlow (k : Nat) (s : State) : Option Nat :=
  (s.ess.ctx.map (·.1)).find? (fun c => fState c s == 1 && fIngest c s && fx c 6 2 s == k)

/-- R310: the context whose staged input context `k` reads. -/
def feedOf (k : Nat) (s : State) : Nat :=
  let c := strm k s
  if pSource c.gop.params = 2 then c.srcStream else k

/-- ROW_LINES of the flow that feeds a context; CTU_SIZE where none does. -/
def feedRl (k : Nat) (s : State) : Nat :=
  match feedFlow (feedOf k s) s with
  | some c => max 1 (fx c 8 1 s)
  | none => max 1 (pCtu (strm k s).gop.params)

/-- R312: CFA_PHASE of a picture. -/
def cfaOf (k : Nat) (p : Bytes) (s : State) : Nat :=
  if (strm k s).prio = 0 then (match feedFlow (feedOf k s) s with | some c => fx c 0x0A 1 s | none => 0) else pCfa p

/-! ### The coded output window (R335) -/

/-- Window index of a stream's coded or picture output. Log 117 (DEDUCED). -/
def outWin (k : Nat) (s : State) : Nat := winIdx (strm k s).engine (pOutWindow (strm k s).gop.params)

/-- R330, R335: write what a commit adds to an access unit into the window. Log 123 (DEDUCED). -/
def windowOut (k t : Nat) (old new : Bytes) (whole : Bool) (s : State) : State :=
  let b := (nalsSoFar old false).flatten.length
  let ns := nalsSoFar new whole
  let c := strm k s
  let base := c.outPos - b
  let add := ns.flatten.drop b
  let size := winSize s (outWin k s)
  let s := winWrite (outWin k s) (if size = 0 then 0 else c.outPos % size) add s
  let pos := ns.foldl (fun (x : List NalPos × Nat) n =>
    (x.1 ++ [NalPos.mk x.2 (x.2 + n.length) true false t], x.2 + n.length)) ([], base)
  let ps := (List.range pos.1.length).map (fun i =>
    let n := (pos.1[i]?).getD ⟨0, 0, false, false, 0⟩
    let fin := i + 1 == pos.1.length
    { n with whole := whole || !fin, last := whole && fin })
  strmMod k (fun c => { c with
    outPos := c.outPos + add.length
    nals := (c.nals.filter (fun (n : NalPos) => n.tick != t && decide (t < n.tick + 8))) ++ ps }) s

/-! ### The sealed record (R337, R338) -/

/-- R337: KEY_ID of the key that a handle names. -/
def keyIdOf (h : Nat) (s : State) : Nat := match keyRec h s with | some r => krId r | none => 0

/-- R337: bytes 0x00 to 0x3F of a sealed record. -/
def sealHead (k : Nat) (irap : Bool) (seq pts len : Nat) (s : State) : Bytes :=
  let c := strm k s
  leBytes 4 0x4C535A44 ++ leBytes 1 1 ++ leBytes 1 c.codec ++ leBytes 1 (b2n irap) ++ leBytes 1 0 ++ leBytes 2 k ++
    leBytes 2 0 ++ leBytes 4 (keyIdOf c.sealKey s) ++ fitTo 16 c.streamId ++ leBytes 8 seq ++ leBytes 8 pts ++
    fitTo 4 c.streamId ++ leBytes 8 seq ++ leBytes 4 len

/-- R337: the sealed record of an access unit. -/
def sealRecord (k : Nat) (irap : Bool) (seq pts : Nat) (au : Bytes) (s : State) : Bytes :=
  let h := sealHead k irap seq pts au.length s
  h ++ fitTo (au.length + 16) (Config.gcmSeal (strm k s).dataKey (slice h 0x30 12) h au)

/-! ### A picture starts -/

/-- What is carried from picture to picture of one command. Log 126 (DEDUCED). -/
def Work.fresh (w : Work) : Work :=
  { Work.blank with sc := w.sc, kind := w.kind, cmd := w.cmd, tick := w.tick, plan := w.plan, more := w.more,
                    skip := w.skip, readyAt := w.readyAt, begun := w.begun, startNs := w.startNs, wait := w.wait,
                    late := w.late, drop := w.drop, sampled := w.sampled }

/-- R315, R316: pictures that an encoder keeps at once, the one in progress included. Log 224 (DESIGN CHOICE). -/
def reconKeep (p : Bytes) : Nat := if pGop p = 0 then 1 else if pGop p = 3 then pMini p + 2 else pNumRef p + 1

/-- R416: take a SEALED buffer for a reconstructed picture; its address plus 1, 0 when none could be had. Log 123
(DEDUCED). -/
def reconAsk (k n : Nat) (s : State) : Nat × State :=
  let a := poolAsk n 127 true s
  if a.1.result = 0 then (a.1.addr + 1, strmMod k (fun c => { c with recons := c.recons ++ [a.1.addr] }) a.2) else (0, a.2)

/-- R340, R416: the SEALED buffer of a sealed stream's next picture: that of the oldest picture which is no reference any
longer, when it is large enough, else a new one. Log 224 (DESIGN CHOICE). -/
def reconTake (k : Nat) (p : Bytes) (s : State) : Nat × State :=
  let n := planeBytes (ext8 (pWidth p)) (ext8 (pHeight p)) (pChroma p) (pDepth p)
  match (strm k s).recons with
  | a :: r =>
    if (strm k s).recons.length < reconKeep p then reconAsk k n s
    else if (poolOf s.cfg a).any (fun q => decide (n ≤ 2 ^ poolLog2 s.cfg q)) then
      (a + 1, strmMod k (fun c => { c with recons := r ++ [a] }) s)
    else reconAsk k n (poolPut a (strmMod k (fun c => { c with recons := r }) s))
  | [] => reconAsk k n s

/-- R416: the reconstruction of a commit goes to the picture's SEALED buffer. Log 224 (DESIGN CHOICE). -/
def reconWrite (v : Bytes) (w : Work) (s : State) : Work × State :=
  if w.recon = 0 then (w, s)
  else
    let size := match poolOf s.cfg (w.recon - 1) with | some q => 2 ^ poolLog2 s.cfg q | none => 0
    let v := v.take (size - w.reconLen)
    ({ w with reconLen := w.reconLen + v.length }, writeMem (w.recon - 1 + w.reconLen) v s)

/-- R314, R334, R338, R345: a picture is about to start: waiting records take effect, the output buffer is taken. None
when no buffer can be had. -/
def pictureStart (k : Nat) (w : Work) (s : State) : Option Work × State :=
  let pg := if w.skip.isSome then (w.plan, (strm k s).gop) else (strm k s).gop.refresh w.plan
  let s := strmMod k (fun c => { c with gop := pg.2 }) s
  let w := { w with plan := pg.1 }
  let c := strm k s
  let p := w.plan.params
  let d := (picPeriod c s).2
  let x := if w.skip.isSome then (false, if c.rc.started then c.rc else rcStart d c.rc) else rcTake w.plan.irap d c.rc
  let lvl := if w.skip.isSome then pEffort p else effortOf c p
  let s := strmMod k (fun c => { c with rc := x.2 }) s
  let y := if c.sealedS then reconTake k p s else (0, s)
  let s := y.2
  let w := { w.fresh with rcApplied := x.1, effort := lvl, rc := x.2.record, startNs := nowNs s, recon := y.1 }
  if pOutMode p = 1 then (some w, s)
  else
    let a := poolAsk (ceilDiv (rcCapBits x.2.record) 8 + 1024 + 80 * b2n c.sealedS) 127 false s
    if a.1.result = 0 then
      let s := if c.sealedS then strmMod k (fun c => { c with auSeq := c.auSeq + 1 }) a.2 else a.2
      (some { w with outBuf := a.1.addr + 1, sealSeq := c.auSeq }, s)
    else (none, a.2)

/-! ### A picture ends -/

/-- R357 step 4, R360, R361: the access unit of a finished picture, its bytes and the model after it. -/
structure AuDone where
  data : Bytes
  filler : Bool
  after : Nat
  rc : RcSt
  deriving DecidableEq, Repr

/-- R307, R317, R348, R353, R357 to R361: close the access unit of a coded picture: cabac_zero_words after the last slice,
suffix SEI, filler. -/
def auDone (k : Nat) (w : Work) (s : State) : AuDone :=
  let c := strm k s
  let p := w.plan.params
  let t := picPeriod c s
  let sl := ceilDiv w.used 8
  let au := sl + w.overhead.getD 0
  let pad := min (Config.zeroWordBytes (pCodec p) w.bins sl (pWidth p * pHeight p)) (w.cap / 8 - au)
  let m := rcFiller t.1 t.2 (au + pad) c.rc
  let tail := auTail p w.md5
  let data := fitTo (au + pad - tail.length) w.coded ++ tail ++ fillerNal (pCodec p) m
  let x := rcRemove w.plan.irap t.1 t.2 data.length c.rc
  { data := data, filler := m != 0, after := x.1, rc := x.2 }

/-- R334, R336, R337, R357: a picture has been coded: its access unit is written, its buffer handed over, its record
made. -/
def pictureEnd (k : Nat) (w : Work) (s : State) : StatRec × State :=
  let c := strm k s
  let p := w.plan.params
  let a := auDone k w s
  let live := c.prio == 0
  let pts := if live then tickTime s.cfg c.td w.tick else w.plan.pts
  let s := if live && pOutMode p != 0 then windowOut k w.tick w.coded a.data true s else s
  let bytes := if c.sealedS then sealRecord k w.plan.irap w.sealSeq pts a.data s else a.data
  let s := if w.outBuf = 0 then s else setBuf (w.outBuf - 1) true false c.fn (writeMem (w.outBuf - 1) bytes s)
  let len := if w.outBuf = 0 then 0 else bytes.length
  let pic := encPic k w ⟨a.data.length, len, w.outBuf - 1, a.after, a.filler⟩ s
  let r := workRec k w s
  let late := w.late.isSome
  let ns := match w.late with | some n => nowNs s - n | none => 0
  let st := if late then 0x0B else w.skip.getD 0
  let r := { r with status := st, flags := r.flags + b2n late + 2 * b2n w.skip.isSome, pic := pic }.timed k w s
  let s := strmMod k (fun c => { c with
    gop := if w.plan.key then c.gop.keyServed else c.gop
    rc := rcNote w a.rc, pictures := c.pictures + 1, lastPoc := w.plan.poc, tickIdx := if live then w.tick + 1 else 0
    debt := if late then ns else if live && w.skip.isNone then 0 else c.debt
    fastNext := if late then true else if live && w.skip.isNone then false else c.fastNext }) s
  (r, s)

end Sys2Proof.Machine
end

