-- ==== Sys2Proof/Machine/Samples.lean ====
section
/-! DEFINITION. The samples that an encoder reads (R240, R309 to R311, R332): where a coded line lies among the staged rows or
in the planes of a command, whether samples of a CTU are missing (R326), and the activities of rate control (R354, R362). -/
namespace Sys2Proof.Machine

/-! ### Flows and their slots -/

/-- The geometry of a flow. -/
def fGeo (c : Nat) (s : State) : EssGeo := geoOf (fEc c s) (fx c 8 1 s)

/-- R241: the columns of a line that member `m` of a gang receives. Log 102 (DEDUCED). -/
def memberSpan (g : EssGeo) (c m : Nat) (s : State) : Nat × Nat :=
  let k := fx c 6 2 s
  let x := memberCols (strm k s).gop.params m
  if max 1 (ceGang s.cfg (fx c 4 1 s)) = 1 ∨ 1023 < k ∨ scState k s < 2 then (0, g.w) else (x.1, min g.w x.2)

/-- The members of the gang that a flow's engine heads. Log 102 (DEDUCED). -/
def fMembers (c : Nat) (s : State) : List Nat := List.range (max 1 (ceGang s.cfg (fx c 4 1 s)))

/-- NSLOT of a flow's window. -/
def fSlots (c : Nat) (s : State) : Nat := max 1 ((fGeo c s).nslot (winSize s (fWin c s)))

/-- R269: an argument of a command record. Log 138 (DEDUCED). -/
def cmdArg (cmd : Bytes) (n : Nat) : Nat := fieldLE cmd (8 + 8 * n) 8

/-! ### Where coded lines come from -/

/-- R332: the plane pair and the plane line from which coded line `y` of a quad-plane raw picture takes its samples. -/
def rawSrc (h rl y : Nat) : Nat × Nat :=
  let ph := h / 2
  let full := ph / max 1 rl
  let rem := ph - full * rl
  if y < 2 * rl * full then
    let b := y / (2 * rl)
    let o := y % (2 * rl)
    if o < rl then (0, b * rl + o) else (1, b * rl + o - rl)
  else
    let o := y - 2 * rl * full
    if o < rem then (0, full * rl + o) else (1, full * rl + o - rem)

/-- R240, R309: the staging row that supplies a coded line, and the line within that row's first plane. -/
def stagedRow (p : Bytes) (rl y : Nat) : Nat :=
  if pRaw p then
    let q := rawSrc (pHeight p) rl y
    2 * (q.2 / max 1 rl) + q.1
  else y / max 1 rl
def stagedLine (p : Bytes) (rl y : Nat) : Nat := (if pRaw p then (rawSrc (pHeight p) rl y).2 else y) % max 1 rl

/-- R310: the record whose pictures are staged for a context: that of its SRC_STREAM under SOURCE 2. -/
def stagedParams (k : Nat) (p : Bytes) (s : State) : Bytes :=
  if pSource p = 2 then (strm (strm k s).srcStream s).gop.params else p

/-- R310: a context of SOURCE 2 codes a picture that the engine scales. -/
def scaled (k : Nat) (p : Bytes) (s : State) : Bool :=
  let b := stagedParams k p s
  pWidth b != pWidth p || pHeight b != pHeight p

/-- R309, R310: the staged coded lines that supply CTU row `n`. The 8 taps of a vertical scaling reach 3 lines up and 4 lines
down. Log 220 (DESIGN CHOICE). -/
def supplyLines (k : Nat) (p : Bytes) (n : Nat) (s : State) : List Nat :=
  let y0 := n * pCtu p
  let y1 := min (pHeight p) ((n + 1) * pCtu p)
  let hb := pHeight (stagedParams k p s)
  let h := max 1 (pHeight p)
  let lo := if hb = pHeight p then y0 else y0 * hb / h - 3
  let hi := if hb = pHeight p then y1 else min hb (ceilDiv (y1 * hb) h + 4)
  (List.range (hi - lo)).map (lo + ·)

/-- R309, R310: the staging rows that supply CTU row `n` of a LIVE context. -/
def needRows (k : Nat) (p : Bytes) (n : Nat) (s : State) : List Nat :=
  ((supplyLines k p n s).map (stagedRow (stagedParams k p s) (feedRl k s))).eraseDups

/-! ### Samples -/

/-- R322: the member that codes a CTU column. -/
def memberAt (p : Bytes) (col : Nat) : Nat :=
  ((List.range (pTileCols p)).filter (fun j => decide (tileColAt p j ≤ col))).length.pred / max 1 (pTileCols p / max 1 (pGang p))

/-- R239, R240, R332: a staged sample of the first plane that flow `c` stages, of coded line `y`. -/
def slotSample (c : Nat) (p : Bytes) (x y : Nat) (s : State) : Nat :=
  let g := fGeo c s
  let m := memberAt p (x / max 1 (pCtu p))
  let off := stagedRow p g.rl y % fSlots c s * g.slotBytes + stagedLine p g.rl y * g.lineBytes (1, 1) +
    (x - (memberSpan g c m s).1) * g.bps
  leNat (winRead (fWin c s + 8 * m) off g.bps s)

/-- R240, R311, R332: a luma sample of an ENCODE_PICTURE command `cmd`; raw pictures take it from the mosaic. -/
def planeSample (cmd p : Bytes) (rl x y : Nat) (s : State) : Nat :=
  let b := if pDepth p = 8 then 1 else 2
  let q := rawSrc (pHeight p) rl y
  let half := max 1 (pWidth p / 2)
  let site := 2 * q.1 + min 1 (x / half)
  let xy := if pRaw p then (2 * (x % half) + site % 2, 2 * q.2 + site / 2) else (x, y)
  leNat (readMem (cmdArg cmd 0 + xy.2 * (cmdArg cmd 3 % 2 ^ 32) + xy.1 * b) b s)

/-- R306, R309 to R311: the luma sample that the encoder reads at a place of the coded picture, where the last column
and line are repeated; none for a scaled picture, whose filter the manual does not give. Log 220 (DESIGN CHOICE). -/
def lumaSample (k : Nat) (w : Work) (s : State) : Option (Nat → Nat → Nat) :=
  let p := w.plan.params
  let clip := fun (f : Nat → Nat → Nat) (x y : Nat) => f (min x (pWidth p - 1)) (min y (pHeight p - 1))
  if (strm k s).prio ≠ 0 then some (clip (fun x y => planeSample w.plan.src p (feedRl k s) x y s))
  else if scaled k p s then none
  else match feedFlow (feedOf k s) s with
    | some c => some (clip (fun x y => slotSample c (stagedParams k p s) x y s))
    | none => none

/-! ### Activity (R354, R362) -/

/-- R354: activity of an 8 x 8 block: 1 + floor(log2(1 + variance)), of samples shifted to 8 bits. -/
def blockAct (f : Nat → Nat → Nat) (depth bx by_ : Nat) : Nat :=
  let vs := (List.range 64).map (fun i => f (8 * bx + i % 8) (8 * by_ + i / 8) / 2 ^ (depth - 8))
  let s1 := vs.sum
  let s2 := (vs.map (fun v => v * v)).sum
  1 + Nat.log2 ((4096 + 64 * s2 - s1 * s1) / 4096)

/-- R354, R362: activity of a CTU by raster number, and of its first and its last 16 columns. -/
def ctuActOf (f : Nat → Nat → Nat) (p : Bytes) (i : Nat) : CtuAct :=
  let n := pCtu p / 8
  let bx := i % max 1 (ctuCols p) * n
  let by_ := i / max 1 (ctuCols p) * n
  let w := min n (ext8 (pWidth p) / 8 - bx)
  let h := min n (ext8 (pHeight p) / 8 - by_)
  let sum := fun (a b : Nat) => ((List.range (b - a)).map (fun x =>
    ((List.range h).map (fun y => blockAct f (pDepth p) (bx + a + x) (by_ + y))).sum)).sum
  { all := sum 0 w, left := sum 0 (min 2 w), right := sum (w - 2) w }

/-- R354: activity of a CTU of a scaled picture, which the manual leaves open. Log 220 (DESIGN CHOICE). -/
def ctuActFree (tick i : Nat) : CtuAct :=
  let v := fun n => 1 + Config.freeValue 310 (4 * (tick * 2 ^ 20 + i) + n)
  { all := v 0, left := v 1, right := v 2 }

/-- R273, R309: CTU row `n` has been staged, or its command's planes are given. -/
def rowStaged (k : Nat) (w : Work) (n : Nat) (s : State) : Bool :=
  (strm k s).prio != 0 || (needRows k w.plan.params n s).all (fun r => (strm k s).ready.contains (w.tick, r))

/-- R354: the activities of the CTU rows staged so far, in order. -/
def measured (k : Nat) (w : Work) (s : State) : List CtuAct :=
  let p := w.plan.params
  let cols := ctuCols p
  let one := match lumaSample k w s with | some f => ctuActOf f p | none => ctuActFree w.tick
  (List.range (ctuRows p)).foldl (fun a n =>
    if a.length = n * cols ∧ rowStaged k w n s = true then a ++ (List.range cols).map (fun x => one (n * cols + x)) else a) w.acts

/-! ### Lost input (R326) -/

/-- R244, R326: a validity word has a 0 bit among segments `a` to `b`. -/
def segMissing (word a b : Nat) : Bool := (List.range (b + 1 - a)).any (fun n => !bit word (a + n))

/-- R326: some plane line within a CTU has a 0 bit for a segment that overlaps the CTU's columns. -/
def ctuInvalid (k : Nat) (w : Work) (s : State) (i : Nat) : Bool :=
  let p := w.plan.params
  if (strm k s).prio ≠ 0 then false
  else match feedFlow (feedOf k s) s with
    | none => false
    | some c =>
      let b := stagedParams k p s
      let g := fGeo c s
      let cx := i % max 1 (ctuCols p)
      let cy := i / max 1 (ctuCols p)
      let x0 := cx * pCtu p * g.w / max 1 (pWidth p)
      let x1 := ceilDiv (min (pWidth p) ((cx + 1) * pCtu p) * g.w) (max 1 (pWidth p))
      let y0 := cy * pCtu p * g.h / max 1 (pHeight p)
      let y1 := ceilDiv (min (pHeight p) ((cy + 1) * pCtu p) * g.h) (max 1 (pHeight p))
      let m := memberAt p cx
      let lo := (memberSpan g c m s).1
      (List.range g.planes.length).any (fun q =>
        let pl := (g.planes[q]?).getD (1, 1)
        (List.range (y1 - y0)).any (fun j =>
          let y := y0 + j
          let slot := stagedRow b g.rl y % fSlots c s
          let word := Tab.get 0 s.ess.valid (slotKey (fWin c s + 8 * m) slot * 512 + g.wordAt q (stagedLine b g.rl y / pl.2))
          y % pl.2 == 0 && segMissing word ((x0 / pl.1 - lo / pl.1) / 256) ((ceilDiv x1 pl.1 - 1 - lo / pl.1) / 256)))

end Sys2Proof.Machine
end

