-- ==== Sys2Proof/Machine/Dpb.lean ====
section
/-! DEFINITION. Decoding (chapter 10): the checks of an access unit, its faults under STOP and CONCEAL, the picture buffer
and its output order, the output window of a LIVE context, and the decode picture status. -/
namespace Sys2Proof.Machine

/-- R374: bytes of a decoded picture in its buffer. -/
def picBytes (i : AuInfo) : Nat := planeBytes i.width i.height i.chroma i.depth

/-! ### Tiles and the members of a gang (R379, R380) -/

/-- Tile columns and rows of a decoded picture, in CTUs; a picture without tiles is one of them. -/
def auCols (i : AuInfo) : List Nat := if i.colW.isEmpty then [ceilDiv i.width (max 1 i.ctuSize)] else i.colW
def auRows (i : AuInfo) : List Nat := if i.rowH.isEmpty then [ceilDiv i.height (max 1 i.ctuSize)] else i.rowH
def auTiles (i : AuInfo) : Nat := (auCols i).length * (auRows i).length
def auCtus (i : AuInfo) : Nat := (auCols i).sum * (auRows i).sum

/-- R379: the number of tile columns before the end of each member's run. Each run ends at the first tile column that brings
the lower members up to their share of the CTU columns, as far as every member keeps one. Log 221 (DEDUCED). -/
def runEnds (g : Nat) (ws : List Nat) : List Nat :=
  (List.range g).foldl (fun ends m =>
    let prev := ends.getLast?.getD 0
    let want := ((List.range (ws.length + 1)).find? (fun e => decide (prev < e) && decide ((m + 1) * ws.sum ≤ (ws.take e).sum * g))).getD
      ws.length
    ends ++ [max (prev + 1) (min want (ws.length - (g - 1 - m)))]) []

/-- R379: widths of the tile columns that member `m` of a gang decodes, in CTUs. Log 221 (DEDUCED). -/
def memberRun (g : Nat) (i : AuInfo) (m : Nat) : List Nat :=
  let ends := runEnds g (auCols i)
  let a := if m = 0 then 0 else (ends[m - 1]?).getD 0
  ((auCols i).take ((ends[m]?).getD 0)).drop a

/-- R379: the gang cannot decode the picture's tiles. -/
def gangTilingBad (g : Nat) (i : AuInfo) : Bool :=
  decide (1 < g) && (decide ((auCols i).length < g) || (List.range g).any (fun m => decide (8192 < (memberRun g i m).sum * i.ctuSize)))

/-- R380: L of a decoded picture: that of the member with the fewest tiles. Log 221 (DEDUCED). -/
def decLanes (g : Nat) (i : AuInfo) : Nat :=
  let t := ((List.range (max 1 g)).map (fun m => (memberRun (max 1 g) i m).length * (auRows i).length)).foldl min (auTiles i)
  min 8 (max 1 t * (if i.wpp then max 1 (ceilDiv i.height (max 1 i.ctuSize)) else 1))

/-- Tiles of a member in coding order: width and height in CTUs. -/
def memberTiles (g : Nat) (i : AuInfo) (m : Nat) : List (Nat × Nat) :=
  (auRows i).flatMap (fun h => (memberRun g i m).map (fun w => (w, h)))

/-- R288: CTUs up to the end of the commit segment that starts after `d` CTUs of these tiles. -/
def segRest (cap : Nat) : List (Nat × Nat) → Nat → Nat
  | [], _ => 0
  | (w, h) :: r, d => if d < w * h then min (segMax cap) (w - d % w) else segRest cap r (d - w * h)

/-- After `d` CTUs of these tiles, a CTU row of a tile has just ended. -/
def atTileRow : List (Nat × Nat) → Nat → Bool
  | [], _ => true
  | (w, h) :: r, d => if d < w * h then d % w == 0 else atTileRow r (d - w * h)

/-- R288, R379: the CTUs that a commit covers, by member: as many as the engine reports, within a segment. -/
def decPlan (g codec : Nat) (i : AuInfo) (done new : List Nat) : List Nat :=
  let cap := ctuCap codec 2 i.chroma i.ctuSize
  (List.range (max 1 g)).map (fun m =>
    min ((new[m]?).getD 0) (segRest cap (memberTiles (max 1 g) i m) ((done[m]?).getD 0)))

/-- What a decode record reports beyond the access unit itself. -/
structure DecRep where
  poc : Int := 0
  flags : Nat := 0
  fault : Option DecFault := none
  ptr : Nat := 0
  len : Nat := 0
  deriving DecidableEq, Repr

/-- R367, R392: kinds of pictures by the nal_unit_type of their slices. Log 217 (PRESUMED). -/
def nalIrap (codec t : Nat) : Bool := if codec = 1 then decide (7 ≤ t) && decide (t ≤ 9) else decide (16 ≤ t) && decide (t ≤ 21)
/-- Log 217 (PRESUMED). -/
def nalGdr (codec t : Nat) : Bool := codec == 1 && t == 10
/-- Log 217 (PRESUMED). -/
def nalRasl (codec t : Nat) : Bool := if codec = 1 then t == 3 else t == 8 || t == 9

/-- R390: bytes 0x40 to 0xFF of a decode status record. -/
def decPic (k : Nat) (w : Work) (r : DecRep) (s : State) : Bytes :=
  let c := strm k s
  let i := w.dec.info
  let f := r.fault.getD { kind := 0, sub := 0, poc := 0, offset := 0, ctu := if r.fault.isNone then 0xFFFFFFFF else 0 }
  let live := c.prio == 0
  leBytes 4 (twos 32 r.poc) ++ leBytes 2 r.flags ++ leBytes 1 w.dec.nal ++ leBytes 1 w.dec.tid ++ leBytes 1 f.kind ++
    leBytes 1 0 ++ leBytes 2 f.sub ++ leBytes 4 (if f.kind = 6 then twos 32 f.poc else 0) ++ leBytes 8 r.ptr ++
    leBytes 8 (if live then tickTime s.cfg c.td (w.tick + 1) else w.dec.pts) ++ leBytes 4 r.len ++ leBytes 4 w.dec.len ++
    leBytes 4 i.bins ++ leBytes 4 w.dec.decoded ++ leBytes 4 w.dec.concealed ++ leBytes 4 f.offset ++ leBytes 4 f.ctu ++
    leBytes 2 i.width ++ leBytes 2 i.height ++ leBytes 1 i.chroma ++ leBytes 1 i.depth ++ leBytes 1 i.ctuSize ++
    leBytes 1 (if w.dec.known then decLanes c.gang i else 0) ++ leBytes 2 (if w.dec.known then auTiles i else 0) ++ leBytes 1 i.profileIdc ++
    leBytes 1 i.levelIdc ++ leBytes 4 c.ausDiscarded ++ fitTo 16 i.raw ++ fitTo 16 i.hashSei ++ fitTo 16 i.hashCalc ++
    leBytes 8 (if live then w.tick else 0) ++ leBytes 60 0

/-- R370: L of the declared envelope. -/
def nominalLanes (p : Bytes) : Nat := if pWpp p then min 8 (ceilDiv (pHeight p) 64) else 1

/-- R378, R389, R390: flags that follow from the access unit itself. -/
def decFlags (k : Nat) (w : Work) (s : State) : Nat :=
  let c := strm k s
  let p := w.plan.params
  let i := w.dec.info
  let chk := pHashSei p && !i.hashSei.isEmpty
  let live := c.prio == 0
  4 * b2n chk + 8 * b2n (chk && !i.hashOk) + 16 * b2n (!i.raw.isEmpty) + 32 * b2n (nalIrap c.codec w.dec.nal) +
    64 * b2n (live && decide (decLanes c.gang i < nominalLanes p)) + 128 * b2n w.dec.refGen + 1024 * b2n w.dec.eos +
    2048 * b2n (live && decide (i.ctuSize < 64))

/-! ### The output window of a LIVE context (R377) -/

/-- R377: the egress context that reads a LIVE decoder's window. -/
def outReader (k : Nat) (s : State) : Option Nat := (egressReaders (outWin k s) s).head?.map (· - 1024)

/-- R377: geometry of the window's rows. -/
def outGeo (k : Nat) (s : State) : Option EssGeo := (outReader k s).map (fun c => geoOf (fEc c s) (fx c 8 1 s))

/-- R377: write one waiting row, when its slot is free. -/
def flushRow (k : Nat) (s : State) : State :=
  match (strm k s).outRows with
  | [] => s
  | (t, row, bytes) :: r =>
    match outGeo k s with
    | none => strmMod k (fun c => { c with outRows := r }) s
    | some g =>
      let i := outWin k s
      let n := if g.nslot (winSize s i) = 0 then 0 else row % g.nslot (winSize s i)
      if (slotOf i n s).isSome then s
      else
        let s := winWrite i (n * g.slotBytes) bytes s
        let s := setSlot i n ⟨t, row, g.rl, false, []⟩ s
        giveRow i n [] (strmMod k (fun c => { c with outRows := r }) s)

/-- R377: records whose rows have all been written are sent. -/
def flushRecs (k : Nat) (s : State) : State :=
  (strm k s).outRecs.foldl (fun s _ =>
    match (strm k s).outRecs with
    | (t, rec) :: r =>
      if (strm k s).outRows.any (fun (x : Nat × Nat × Bytes) => x.1 == t) then s
      else statSend k (splice rec 0x20 (leBytes 8 (nowNs s))) true (strmMod k (fun c => { c with outRecs := r }) s)
    | [] => s) s

/-- R377: rows and records that wait go out as far as they can. Log 127 (DEDUCED). -/
def flushRows (k : Nat) (s : State) : State :=
  flushRecs k ((strm k s).outRows.foldl (fun s _ => flushRow k s) s)

/-- A released slot may let a decoder's row in: every LIVE decode context of the engine tries. -/
def flushEngine (e : Nat) (s : State) : State :=
  ((s.coding.sc.filter (fun (x : Nat × Stream) => x.2.engine == e && x.2.prio == 0 && x.2.kind == 1 &&
    (!x.2.outRows.isEmpty || !x.2.outRecs.isEmpty))).map (·.1)).foldl (fun s k => flushRows k s) s

/-- Cut staged bytes into rows of `n` bytes from row `i` on. -/
def rowsOf (n : Nat) (b : Bytes) (i cnt : Nat) : List (Nat × Bytes) :=
  (List.range cnt).map (fun j => (i + j, slice b ((i + j) * n) n))

/-- R377: queue the finished rows of a picture; at its end the last one too, whatever its length. -/
def queueRows (k : Nat) (w : Work) (last : Bool) (s : State) : Work × State :=
  match outGeo k s with
  | none => (w, s)
  | some g =>
    let n := max 1 g.slotBytes
    let have_ := min g.rows (if last then ceilDiv w.dec.samples.length n else w.dec.samples.length / n)
    let rs := rowsOf n w.dec.samples w.dec.rows (have_ - w.dec.rows)
    let w := { w with dec := { w.dec with rows := max have_ w.dec.rows } }
    (w, strmMod k (fun c => { c with outRows := c.outRows ++ rs.map (fun r => (w.tick + 1, r.1, r.2)) }) s)

/-- R377: the record of a LIVE tick, after its rows. Log 127 (DEDUCED). -/
def liveRecord (k : Nat) (w : Work) (r : StatRec) (s : State) : State :=
  flushRows k (strmMod k (fun c => { c with outRecs := c.outRecs ++ [(w.tick + 1, r.bytes k)] }) s)

/-- R284, R285: work that tick k + 2 has found incomplete ends: its debt, and FAST_NEXT. -/
def lateDebt (k : Nat) (w : Work) (s : State) : State :=
  match w.late with
  | some n => strmMod k (fun c => { c with debt := nowNs s - n, fastNext := true }) s
  | none => s

/-- R284, R285: its record has STATUS OVERRUN in place of OK, FLAGS.LATE and the time past the deadline. -/
def StatRec.lateMark (r : StatRec) (k : Nat) (w : Work) (s : State) : StatRec :=
  if w.late.isSome then
    { r with status := if r.status = 0 then 0x0B else r.status, flags := r.flags + 1, overNs := pastNs k w s }
  else r.timed k w s

/-- R286, R384, R388: the previous output picture is committed again for a tick. Log 127 (DEDUCED). -/
def liveRepeat (k : Nat) (w : Work) (status flags : Nat) (f : Option DecFault) (s : State) : State :=
  let c := strm k s
  let s := if c.errPolicy = 1 then strmMod k (fun c => { c with concealing := true }) s else s
  let w := { w with dec := { w.dec with samples := c.lastOut, rows := 0 } }
  let s := strmMod k (fun c => { c with outRows := c.outRows.filter (fun (x : Nat × Nat × Bytes) => x.1 != w.tick + 1) }) s
  let s := (queueRows k w true s).2
  let pf := b2n (!c.lastOut.isEmpty) + 2 * b2n (strm k s).concealing + (decFlags k w s / 4) * 4
  let pic := decPic k w { poc := c.lastPoc, flags := pf, fault := f } s
  let r := workRec k w s
  ausTold k (endTick k w.tick (liveRecord k w ({ r with status := status, flags := r.flags + flags, pic := pic }.lateMark k w s)
    (lateDebt k w s)))

/-! ### The decoded picture buffer (R374 to R376, R386) -/

/-- Return a picture's buffer, unless the host holds it. -/
def picDrop (k : Nat) (p : DpbPic) (s : State) : State :=
  if p.buf = 0 || (strm k s).hostBufs.contains (p.buf - 1) then s else poolPut (p.buf - 1) s

/-- Pictures that neither wait for output nor are held as references leave the buffer. -/
def dpbTrim (k : Nat) (s : State) : State :=
  let c := strm k s
  let s := (c.dpb.filter (fun (p : DpbPic) => !p.wait && !p.ref)).foldl (fun s p => picDrop k p s) s
  strmMod k (fun c => { c with dpb := c.dpb.filter (fun (p : DpbPic) => p.wait || p.ref) }) s

/-- R375, R376: output a picture of a FILE context, with its record. -/
def picOut (k : Nat) (p : DpbPic) (s : State) : State :=
  let c := strm k s
  let fl := (fieldLE p.record 4 2 / 2) * 2 + 1
  let r : StatRec := { opcode := 0x11, tag := p.tag, engine := c.engine, flags := 8 * b2n (p.restarts != 0), kind := 2,
                       tStart := p.startNs, tEnd := nowNs s, busy := p.busy, wait := p.waited, segs := p.segs,
                       pic := splice (splice p.record 4 (leBytes 2 fl)) 0x48 (leBytes 4 c.ausDiscarded) }
  let s := strmMod k (fun c => { c with
    hostBufs := if p.buf = 0 then c.hostBufs else c.hostBufs ++ [p.buf - 1]
    dpb := c.dpb.map (fun (q : DpbPic) => if q.poc = p.poc ∧ q.wait = true then { q with wait := false } else q) }) s
  ausTold k (dpbTrim k (statWrite k r true s))

/-- The picture that is output next. -/
def nextOut (l : List DpbPic) : Option DpbPic :=
  (l.filter (fun (p : DpbPic) => p.wait)).foldl (fun m p => match m with
    | some q => if p.poc < q.poc then some p else m
    | none => some p) none

/-- Output pictures in output order while `more` asks for it. -/
def bumpWhile (more : List DpbPic → Bool) (k : Nat) : Nat → State → State
  | 0, s => s
  | n + 1, s =>
    let l := (strm k s).dpb
    if more l then (match nextOut l with | some p => bumpWhile more k n (picOut k p s) | none => s) else s

/-- R376: every picture that waits is output. -/
def dpbFlush (k : Nat) (s : State) : State := bumpWhile (fun _ => true) k (strm k s).dpb.length s

/-- R383: pictures that precede a POC in output order are output. Log 128 (DEDUCED). -/
def dpbBefore (k : Nat) (poc : Int) (s : State) : State :=
  bumpWhile (fun l => match nextOut l with | some p => decide (p.poc < poc) | none => false) k (strm k s).dpb.length s

/-- C.5.2: the number of waiting pictures or their latency asks for output. -/
def overDue (i : AuInfo) (l : List DpbPic) : Bool :=
  let ws := l.filter (fun (p : DpbPic) => p.wait)
  decide (i.reorder < ws.length) ||
    (i.latencyPlus1 != 0 && ws.any (fun (p : DpbPic) => decide (i.reorder + i.latencyPlus1 ≤ p.latency + 1)))

/-- The IRAP picture starts a coded video sequence: NoRaslOutputFlag is 1. -/
def noRasl (codec : Nat) (waiting : Bool) (nal : Nat) : Bool :=
  nalIrap codec nal && (waiting || (if codec = 1 then nal == 7 || nal == 8 else decide (16 ≤ nal) && decide (nal ≤ 20)))

/-- C.5.2.2: pictures leave the buffer before the present picture. -/
def dpbMakeRoom (k : Nat) (w : Work) (s : State) : State :=
  let c := strm k s
  let i := w.dec.info
  if noRasl c.codec c.waitIrap w.dec.nal then
    let s := if i.noPrior then s else dpbFlush k s
    dpbTrim k (strmMod k (fun c => { c with dpb := c.dpb.map (fun (p : DpbPic) => { p with wait := false, ref := false }) }) s)
  else
    let s := strmMod k (fun c => { c with dpb := c.dpb.map (fun (p : DpbPic) => { p with ref := i.kept.contains p.poc }) }) s
    let s := dpbTrim k s
    bumpWhile (fun l => overDue i l || (i.dpbSize != 0 && decide (i.dpbSize ≤ l.length))) k (strm k s).dpb.length s

/-- C.5.2.3: the present picture enters the buffer, with further output. -/
def dpbInsert (k : Nat) (w : Work) (p : DpbPic) (s : State) : State :=
  let s := strmMod k (fun c => { c with dpb :=
    (c.dpb.map (fun (q : DpbPic) => if p.wait && q.wait && decide (p.poc < q.poc) then { q with latency := q.latency + 1 } else q)) ++ [p] }) s
  bumpWhile (overDue w.dec.info) k (strm k s).dpb.length s

/-! ### Access units -/

/-- R390: the KIND 0 record of a DECODE_AU, and the end of its command. -/
def auCmdEnd (k : Nat) (w : Work) (status : Nat) (r : DecRep) (s : State) : State :=
  let pic := decPic k w r s
  let s := strmMod k (fun c => { c with queue := c.queue.drop 1, snap := none }) s
  ausTold k (cmdStatus k w.cmd { workRec k w s with kind := 0, status := status, pic := pic } s)

/-- R385, R390, R392: an access unit ends without a picture; `bit` is its flag in PIC_FLAGS. -/
def auSkip (k : Nat) (w : Work) (bit : Nat) (s : State) : State :=
  let s := if bit = 256 then strmMod k (fun c => { c with ausDiscarded := c.ausDiscarded + 1 }) s else s
  let r : DecRep := { poc := w.dec.info.poc, flags := (decFlags k w s) + bit }
  if (strm k s).prio = 0 then
    ausTold k (endTick k w.tick (liveRecord k w ({ workRec k w s with pic := decPic k w r s }.lateMark k w s) (lateDebt k w s)))
  else auCmdEnd k w 0 r s

/-- R383: Stop. -/
def decStop (k : Nat) (w : Work) (f : DecFault) (s : State) : State :=
  let s := dpbBefore k w.dec.info.poc (workBufBack w s)
  let r : DecRep := { poc := w.dec.info.poc, flags := decFlags k w s, fault := some f }
  let s := if (strm k s).prio = 0 then
      let s := strmMod k (fun c => { c with outRows := c.outRows.filter (fun (x : Nat × Nat × Bytes) => x.1 != w.tick + 1) }) s
      ausTold k (endTick k w.tick (liveRecord k w ({ workRec k w s with status := 6, pic := decPic k w r s }.lateMark k w s)
        (lateDebt k w s)))
    else auCmdEnd k w 6 r s
  setScState k 5 s

/-- R304, R368: ten times the level number that a stream names. Log 128 (DEDUCED). -/
def levelNamed (codec idc : Nat) : Nat := if codec = 1 then idc / 16 * 10 + idc % 16 / 3 else idc / 3

/-- A fault of the model's own checks. Log 128 (DEDUCED). -/
def faultAt (kind sub : Nat) (poc : Int) : DecFault := { kind := kind, sub := sub, poc := poc, offset := 0, ctu := 0xFFFFFFFF }

/-- R302, R303, R366: general_profile_idc values that a decoder of the profiles takes; H.265 decoders of Main take Main Still
Picture, and H.266 decoders the still picture profiles. Log 217 (PRESUMED). -/
def profileTaken (codec idc : Nat) : Bool :=
  if codec = 1 then [1, 2, 10, 33, 34, 42, 65, 66, 97, 98].contains idc else decide (1 ≤ idc) && decide (idc ≤ 4)

/-- R306, R366, R368, R371, R378, R379: faults at the activation of the parameter sets. Log 128 (DEDUCED). -/
def activationFault (k : Nat) (i : AuInfo) (s : State) : Option DecFault :=
  let c := strm k s
  let p := c.gop.params
  let live := c.prio == 0
  let rdr := if live then outReader k s else none
  let bad := fun (b : Bool) (kind sub : Nat) (r : Option DecFault) => if b then some (faultAt kind sub 0) else r
  let raw := match rdr with
    | some x => ecSampling (fEc x s) == 5 && (i.raw.isEmpty || byteAt i.raw 2 != fx x 8 1 s)
    | none => false
  let fmt := match rdr with
    | some x => samplingChroma (ecSampling (fEc x s)) != i.chroma || ecDepth (fEc x s) != i.depth
    | none => false
  let free := pLevel p == levelTop c.codec 2
  let lim := Config.levelLimit c.codec (pLevel p) 0
  bad (!profileTaken c.codec i.profileIdc) 9 1 (bad (live && i.reorder != 0) 9 2 (bad (live && (i.width != pWidth p || i.height != pHeight p)) 9 3
    (bad fmt 9 4 (bad raw 9 6
      (bad (!live && (decide (pWidth p < i.width) || decide (pHeight p < i.height)) || !sizeOk c.gang i.width i.height ||
          decide (lim 0 < i.width * i.height) && !free) 5 1
        (bad (decide (pLevel p < levelNamed c.codec i.levelIdc)) 5 2
          (bad (!free && decide (Config.maxDpb c.codec (pLevel p) (i.width * i.height) < i.dpbSize)) 5 3
            (bad (!free && (decide (lim 4 < (auCols i).length) || decide (lim 5 < (auRows i).length))) 5 4
              (bad (gangTilingBad c.gang i) 9 5 none)))))))))

/-- R385: the first reference that matches no picture in the buffer. -/
def missingRef (k nal : Nat) (i : AuInfo) (s : State) : Option DecFault :=
  if nalIrap (strm k s).codec nal then none
  else (i.refs.find? (fun r => !(strm k s).dpb.any (fun (p : DpbPic) => p.poc == r))).map (faultAt 6 0)

/-- R381: the fault that decides an access unit at its start, in decoding order. -/
def openFault (k nal : Nat) (i : AuInfo) (f : Option DecFault) (s : State) : Option DecFault :=
  match f with
  | some x =>
    if x.kind ≤ 2 || x.kind == 9 then f
    else match activationFault k i s with
      | some y => some y
      | none => if x.kind = 5 ∨ x.kind = 3 then f else (match missingRef k nal i s with | some y => some y | none => f)
  | none => match activationFault k i s with
    | some y => some y
    | none => missingRef k nal i s

/-- R381, R383: the fault stops the context. -/
def faultStops (conceal : Bool) (f : DecFault) : Bool := f.kind == 9 || !conceal

/-- R386: generate the references that are missing. -/
def genRefs (k : Nat) (i : AuInfo) (s : State) : State :=
  (i.refs.filter (fun r => !(strm k s).dpb.any (fun (p : DpbPic) => p.poc == r))).eraseDups.foldl (fun s r =>
    let a := poolAsk (picBytes i) 127 false s
    let p : DpbPic := { poc := r, buf := if a.1.result = 0 then a.1.addr + 1 else 0, tag := 0, wait := false, ref := true,
                        latency := 0, concealed := true, len := 0, record := [], startNs := 0, busy := 0, waited := 0,
                        segs := 0, restarts := 0 }
    strmMod k (fun c => { c with dpb := c.dpb ++ [p] }) a.2) s

/-- How an access unit goes on after its start. -/
inductive AuGo where
  /-- It is decoded. -/
  | go (w : Work)
  /-- It has ended. -/
  | ended
  /-- No buffer could be had (R374, R391). -/
  | busy
  deriving DecidableEq, Repr

/-- R367, R372: NAL units with nuh_layer_id 0 of the access unit in memory, with their byte offsets. Those of other
layers are discarded. Log 222 (DEDUCED). -/
def auNals (k : Nat) (w : Work) (s : State) : List (Nat × Bytes) :=
  (annexB (readMem w.dec.addr w.dec.len s)).filter (fun (u : Nat × Bytes) => nalLayer (strm k s).codec u.2 == 0)

/-- R381: forbidden_zero_bit 1, or a reserved nal_unit_type, in the first NAL unit header that has one. Log 222
(DEDUCED). -/
def headFault (codec : Nat) (ns : List (Nat × Bytes)) : Option DecFault :=
  (ns.find? (fun (u : Nat × Bytes) => decide (128 ≤ byteAt u.2 0) || nalReserved codec (nalType codec u.2))).map (fun u =>
    { kind := 1, sub := if 128 ≤ byteAt u.2 0 then 1 else 4, poc := 0, offset := u.1, ctu := 0xFFFFFFFF })

/-- R381: of two faults, the one that comes first in the access unit. -/
def firstFault (a b : Option DecFault) : Option DecFault :=
  match a, b with
  | some x, some y => if y.offset < x.offset then some y else some x
  | some x, none => some x
  | none, y => y

/-- R374: the picture of an access unit takes its buffer; none when none can be had. `gen` says that missing references are
generated (R386). -/
def auTake (k : Nat) (w : Work) (gen : Bool) (s : State) : AuGo × State :=
  let c := strm k s
  let i := w.dec.info
  let a := poolAsk (picBytes i) 127 false s
  if !quotaAllows c.fn (wouldTake (picBytes i) s) s || a.1.result ≠ 0 then (.busy, s)
  else
    let s := if gen then genRefs k i a.2 else a.2
    (.go { w with outBuf := a.1.addr + 1, dec := { w.dec with refGen := gen } },
      strmMod k (fun c => { c with width := i.width, height := i.height, chroma := i.chroma, depth := i.depth, ctuSize := i.ctuSize }) s)

/-- R367, R374, R381 to R386, R392: the first commit of an access unit: what it is, and whether it is decoded. One without a
slice of layer 0 holds no picture. Log 222 (DEDUCED). -/
def auOpen (k : Nat) (w : Work) (r : SegResult) (s : State) : AuGo × State :=
  let c := strm k s
  let i := r.au
  let ns := auNals k w s
  let slice := (ns.find? (fun (u : Nat × Bytes) => nalVcl c.codec u.2)).map (fun u => u.2)
  let nal := match slice with | some u => nalType c.codec u | none => 0
  let tid := match slice with | some u => nalTid u | none => 0
  let w := { w with dec := { w.dec with info := i, nal := nal, tid := tid } }
  if c.waitIrap && !(slice.isSome && (nalIrap c.codec nal || nalGdr c.codec nal)) then (.ended, auSkip k w 256 s)
  else if slice.isSome && nalRasl c.codec nal && c.skipRasl then (.ended, auSkip k w 512 s)
  else
    let h := firstFault (headFault c.codec ns) r.fault
    if slice.isNone && !h.any (fun x => faultStops w.dec.conceal x) then (.ended, auSkip k w 0 s)
    else
      let f := openFault k nal i h s
      let w := { w with dec := { w.dec with known := true, fault := f } }
      match f with
      | some x =>
        if faultStops w.dec.conceal x then (.ended, decStop k w x s)
        else if x.kind = 2 ∨ x.kind = 5 then
          let s := if x.kind = 5 then strmMod k (fun c => { c with waitIrap := true }) s else s
          (.ended, liveRepeat k w 0 4 f s)
        else auTake k w (missingRef k nal i s).isSome s
      | none => auTake k w false s

/-- R376, R384, R387, R389: an access unit has been decoded to its end. Log 128 (DEDUCED). -/
def auEnd (k : Nat) (w : Work) (s : State) : State :=
  let c := strm k s
  let i := w.dec.info
  let live := c.prio == 0
  if w.dec.conceal && (match w.dec.fault with | some f => f.kind == 3 && w.dec.decoded == 0 | none => false) then
    liveRepeat k w 0 4 w.dec.fault (workBufBack w s)
  else
    let hashBad := pHashSei w.plan.params && !i.hashSei.isEmpty && !i.hashOk
    let f := if w.dec.fault.isNone && hashBad then some (faultAt 8 0 0) else w.dec.fault
    let bad := f.isSome || w.dec.concealed != 0
    let fromBad := i.refs.any (fun r => c.dpb.any (fun (p : DpbPic) => p.poc == r && p.concealed))
    let irap := nalIrap c.codec w.dec.nal
    let concealing := if bad && w.dec.conceal then true else if (irap || nalGdr c.codec w.dec.nal) && !bad then false else c.concealing
    let flag := concealing || (fromBad && w.dec.conceal)
    let pf := decFlags k w s + 2 * b2n flag
    let s := if live then s else writeMem (w.outBuf - 1) (w.dec.samples.take (picBytes i)) s
    let s := dpbMakeRoom k w s
    let start := noRasl c.codec c.waitIrap w.dec.nal
    let rep : DecRep := { poc := i.poc, flags := pf, fault := f, ptr := if live then 0 else w.outBuf - 1,
                          len := if live then 0 else picBytes i }
    let p : DpbPic := { poc := i.poc, buf := w.outBuf, tag := fieldLE w.cmd 4 4, wait := !live && i.outFlag, ref := true,
                        latency := 0, concealed := flag, len := picBytes i, record := decPic k w { rep with fault := none } s,
                        startNs := w.startNs, busy := w.busy, waited := w.wait, segs := w.segments, restarts := w.restarts }
    let s := strmMod k (fun c => { c with
      concealing := concealing, waitIrap := false, skipRasl := if irap then start else c.skipRasl
      pictures := c.pictures + 1, lastPoc := i.poc, tickIdx := if live then w.tick + 1 else 0
      debt := if live then (match w.late with | some n => nowNs s - n | none => 0) else c.debt
      fastNext := live && w.late.isSome
      lastOut := if live && i.outFlag then w.dec.samples else c.lastOut }) s
    let s := dpbInsert k w p s
    let stop := hashBad && f.any (fun x => x.kind == 8) && !w.dec.conceal
    let s := if stop then dpbBefore k (i.poc + 1) s else s
    let s := if w.dec.eos then strmMod k (fun c => { c with waitIrap := true }) (dpbFlush k s) else s
    let r := workRec k w s
    let late := w.late.isSome
    let ovr := match w.late with | some n => nowNs s - n | none => 0
    let st := if stop then 6 else if late then 0x0B else 0
    let s := if live then
        let x := if i.outFlag then queueRows k w true s else (w, s)
        let pic := decPic k w { rep with flags := pf + b2n i.outFlag } x.2
        ausTold k (endTick k w.tick (liveRecord k w
          { r with status := st, flags := r.flags + b2n late, overNs := ovr, pic := pic } x.2))
      else auCmdEnd k w st { rep with flags := pf } s
    if stop then setScState k 5 s else s

end Sys2Proof.Machine
end

