-- ==== Sys2Proof/Machine/Sched.lean ====
section
/-! DEFINITION. How work shares an engine (R273 to R278): readiness of LIVE rows (R309, R310, R332), the choice of the next
work and swaps (R274, R275), the start of a routine, overruns (R284 to R286), restarts (R290) and commits (R289). -/
namespace Sys2Proof.Machine

/-! ### Readiness -/

/-- The parameter record of a piece of work. -/
def workParams (w : Work) (s : State) : Bytes := if w.begun then w.plan.params else (strm w.sc s).gop.params

/-- R273: the next row of the work is staged, or its access unit has been handed over. -/
def workReady (w : Work) (s : State) : Bool :=
  let c := strm w.sc s
  if c.prio ≠ 0 || w.skip.isSome then true
  else if c.kind = 1 then c.outRows.isEmpty
  else (needRows w.sc (workParams w s) w.nextRow s).all (fun r => c.ready.contains (w.tick, r))

/-- R242, R310: a stream reader may let go of a staged row: the picture has ended or no later CTU row needs it. -/
def rowSpent (k t row : Nat) (s : State) : Bool :=
  let c := strm k s
  scState k s != 3 || decide (t ≤ c.doneTick.getD 0 ∧ c.doneTick.isSome) ||
    (match workOf k s with
      | some w => decide (t < w.tick) || (w.tick == t && w.begun &&
          (w.allCoded || decide (row < (needRows k w.plan.params w.nextRow s).foldl min row.succ)))
      | none => false)

/-- R273: a LIVE context that holds input and no work gets the work of its oldest tick; work that has become ready waits
from now on. -/
def liveCheck (k : Nat) (s : State) : State :=
  let c := strm k s
  let s := if c.prio ≠ 0 || scState k s != 3 || (workOf k s).isSome then s
    else match liveTicks k s with
      | [] => s
      | t :: _ =>
        let a := (Tab.find? c.aus t).getD (0, 0, false)
        let w := { Work.blank with sc := k, kind := 1 + c.kind, tick := t,
                                   dec := { DecWork.blank with addr := a.1, len := a.2.1, damaged := a.2.2 } }
        engMod c.engine (fun g => { g with savedWorks := Tab.put g.savedWorks k w }) s
  match Tab.find? (engOf c.engine s).savedWorks k with
  | some w =>
    if w.readyAt.isNone && workReady w s then
      engMod c.engine (fun g => { g with savedWorks := Tab.put g.savedWorks k { w with readyAt := some s.time.cclk } }) s
    else s
  | none => s

/-! ### The choice of work (R274) -/

/-- The first of a rising list after `j`, wrapping. -/
def afterWrap (j : Option Nat) (l : List Nat) : Option Nat :=
  match j with
  | some n => match l.find? (fun k => decide (n < k)) with | some k => some k | none => l.head?
  | none => l.head?

/-- R274: the work stands within a CTU row. -/
def workMid (g : Nat) (w : Work) : Bool :=
  if w.kind = 1 then w.begun && !w.atRowEnd
  else w.dec.known && !(List.range (max 1 g)).all (fun m =>
    atTileRow (memberTiles (max 1 g) w.dec.info m) ((w.dec.done[m]?).getD 0))

/-- R274 rule 1: the LIVE context that the engine takes next. -/
def pickLive (e : Nat) (s : State) : Option Nat :=
  let g := engOf e s
  let ks := (g.savedWorks.filter (fun (x : Nat × Work) => (strm x.1 s).prio == 0 && workReady x.2 s)).map (·.1)
  let mid := match g.lastLive with
    | some j => ks.contains j && (match Tab.find? g.savedWorks j with | some w => workMid (strm j s).gang w | none => false)
    | none => false
  if mid then g.lastLive else afterWrap g.lastLive ks

/-- R274 rule 2: FILE work of one class: the command in progress, else contexts in turn. -/
def pickClass (e c : Nat) (s : State) : Option Nat :=
  let g := engOf e s
  let ws := g.savedWorks.filter (fun (x : Nat × Work) => (strm x.1 s).prio == c)
  match ws.find? (fun (x : Nat × Work) => x.2.begun) with
  | some x => some x.1
  | none => afterWrap (Tab.find? g.turn c) (ws.map (·.1))

/-- R259, R274: the work that an engine takes next. -/
def pickWork (e : Nat) (s : State) : Option Nat :=
  match pickLive e s with
  | some k => some k
  | none =>
    if flag F.CE_CTRL_LIVE_EXCLUSIVE e s then none
    else match pickClass e 1 s with
      | some k => some k
      | none => match pickClass e 2 s with | some k => some k | none => pickClass e 3 s

/-! ### Ends -/

/-- Work leaves its engine with its routine ended. -/
def workDone (e : Nat) (w : Work) (s : State) : State :=
  let s := engMod e (fun g => { g with savedWorks := Tab.del g.savedWorks w.sc, failRun := 0 }) (endWord e w false s)
  match (engOf e s).work with
  | some x => if x.sc = w.sc then setWork e none s else s
  | none => s

/-- A FILE command ends. -/
def fileDone (k : Nat) (s : State) : State :=
  strmMod k (fun c => { c with queue := c.queue.drop 1, snap := none, commands := c.commands + 1 }) s

/-- R334: a FILE command finds no buffer: the stream's state is unchanged. -/
def fileBusy (e k : Nat) (w : Work) (s : State) : State :=
  let s := restoreSnap k (workDone e w s)
  cmdStatus k w.cmd { workRec k w s with kind := 0, status := 1 } (strmMod k (fun c => { c with queue := c.queue.drop 1 }) s)

/-- R286, R319: the picture that a skip picture stands for: its POC; none when no picture can be referred to. Log
120 (DEDUCED). -/
def skipPlan (w : Work) (c : Stream) : Option PicPlan × GopSt :=
  if w.begun && !w.plan.irap then (some w.plan, c.gop)
  else
    let g := c.gop
    if pGop g.params = 0 || g.since.isNone then (none, g.skip)
    else (some { PicPlan.blank with idx := g.idx, poc := (g.idx : Int) - g.base, kind := pGop g.params,
                                    nal := nalOf (pCodec g.params) 0 false, params := g.params }, g.skip)

/-- R286, R334: DROP. The routine is abandoned; a skip picture, nothing, or a repeat follows. -/
def liveDrop (k t status : Nat) (s : State) : State :=
  let c := strm k s
  let e := c.engine
  let w := match workOf k s with
    | some w => if w.tick = t then w else { Work.blank with sc := k, tick := t, kind := 1 + c.kind }
    | none => { Work.blank with sc := k, tick := t, kind := 1 + c.kind }
  let s := if (workOf k s).any (fun w => w.tick == t) then dropWork k s else s
  let s := strmMod k (fun c => { c with drops := c.drops + 1 }) s
  if c.kind = 1 then liveRepeat k { w with dec := { w.dec with known := false } } status 6 none s
  else
    let s := if w.begun && w.plan.irap && w.skip.isNone then restoreSnap k s else s
    let x := if w.skip.isSome then (none, (strm k s).gop) else skipPlan w (strm k s)
    let s := strmMod k (fun c => { c with gop := x.2, snap := none }) s
    match x.1 with
    | some p =>
      let w' := { Work.blank with sc := k, kind := 1, tick := t, plan := p, skip := some status, begun := true,
                                  startNs := nowNs s, late := none, readyAt := some s.time.cclk, sampled := w.sampled }
      engMod e (fun g => { g with savedWorks := Tab.put g.savedWorks k w' }) (endTick k t s)
    | none =>
      let plan := if w.begun then w.plan.gone else { PicPlan.blank with poc := ((x.2.idx - 1 : Nat) : Int) - x.2.base, params := x.2.params }
      let w := { w with plan := plan, overhead := none }
      let r : StatRec := { workRec k w s with status := status, flags := 6, pic := encPic k w ⟨0, 0, 0, 0, false⟩ s }
      let s := statWrite k (r.timed k w s) true s
      let n := picPeriod c s
      endTick k t (strmMod k (fun c => { c with rc := if c.rc.started then rcGap n.1 n.2 c.rc else c.rc }) s)

/-! ### The start of a routine -/

/-- R558: a routine is selected at its dispatch with probability 2^-J. Log 134 (DESIGN CHOICE). -/
def sampleDraw (s : State) : Bool × State :=
  if flag F.TRC_SEQ_CTRL_ENABLE 0 s then
    let x := drawBytes 4 s
    (leNat x.1 % 2 ^ fget F.TRC_SEQ_CTRL_J 0 s == 0, x.2)
  else (false, s)

/-- R297: add to the busy cycles of every member of a gang. Log 129 (DEDUCED). -/
def addBusy (e n : Nat) (s : State) : State :=
  (gangOf s.cfg e).foldl (fun s m =>
    let v := fget F.CE_BUSY_HI_BUSY m s * 2 ^ 32 + fget F.CE_BUSY_LO_BUSY m s + n
    fset F.CE_BUSY_HI_BUSY m (v / 2 ^ 32) (fset F.CE_BUSY_LO_BUSY m v s)) s

/-- R311 to R319, R334: an encoder's routine begins: its pictures are planned, the first takes its buffer. -/
def beginEncode (e : Nat) (w : Work) (s : State) : State :=
  let k := w.sc
  let c := strm k s
  let s := strmMod k (fun c => { c with snap := some (c.gop, c.rc) }) s
  let now := s.time.cclk
  let x := if w.cmd.isEmpty then c.gop.feed 0 [] now
    else if byteAt w.cmd 0 = 0x12 then c.gop.flush now
    else c.gop.feed (fieldLE w.cmd 0x28 8) w.cmd now
  let s := strmMod k (fun c => { c with gop := x.2 }) s
  match x.1 with
  | [] => cmdStatus k w.cmd (workRec k { w with kind := 0 } s) (strmMod k (fun c => { c with queue := c.queue.drop 1, snap := none }) (workDone e w s))
  | p :: r =>
    let w := { w with plan := p, more := r }
    match pictureStart k w s with
    | (some w', s) => setWork e (some w') s
    | (none, s) => if c.prio = 0 then liveDrop k w.tick 1 (setWork e (some w) s) else fileBusy e k w s

/-- R373, R394: a decoder's routine begins. -/
def beginDecode (e : Nat) (w : Work) (s : State) : State :=
  let k := w.sc
  let c := strm k s
  let dec := { w.dec with conceal := c.errPolicy == 1 && c.prio == 0 }
  setWork e (some { w with dec := dec, plan := { PicPlan.blank with params := c.gop.params } }) s

/-- R275, R276: the first CTU of a piece of work begins, or it goes on after a swap. Log 124 (DEDUCED). -/
def startWork (e k : Nat) (s : State) : State :=
  match Tab.find? (engOf e s).savedWorks k with
  | none => s
  | some w =>
    let live := (strm k s).prio == 0
    let wait := match w.readyAt with | some c => s.time.cclk - c | none => 0
    let s := if live then fset F.CE_MAX_WAIT_CCLK e (max wait (fget F.CE_MAX_WAIT_CCLK e s)) s else s
    let s := engMod e (fun g => { g with
      savedWorks := Tab.del g.savedWorks k, segAt := s.time.cclk, loaded := some k, saved := false, swapTo := none
      lastLive := if live then some k else g.lastLive
      turn := if live then g.turn else Tab.put g.turn (strm k s).prio k }) s
    let w := { w with wait := w.wait + wait, readyAt := none }
    if w.begun && (w.skip.isNone || w.overhead.isSome) then setWork e (some w) s
    else
      let x := sampleDraw s
      let w := { w with begun := true, startNs := nowNs s, sampled := x.1, drop := (strm k s).overrun == 1 }
      let s := routineWord e 0 0 w x.2
      if w.skip.isSome then
        match pictureStart k w s with
        | (some w', s) => setWork e (some w') s
        | (none, s) => liveDrop k w.tick 1 (setWork e (some w) s)
      else if w.kind = 2 then beginDecode e w s
      else beginEncode e w s

/-- R274, R275: an engine that runs nothing takes up work, or swaps towards it; `n` bounds the works that end at their
start. Log 124 (DEDUCED). -/
def engKickN (e : Nat) : Nat → State → State
  | 0, s => s
  | n + 1, s =>
    let g := engOf e s
    if !flag F.CE_STATUS_ENABLED e s || g.work.isSome || g.swapTo.isSome then s
    else
      let s := (liveScs e s).foldl (fun s k => liveCheck k s) s
      match pickWork e s with
      | none => engMod e (fun g => { g with saved := true }) s
      | some k =>
        if (engOf e s).loaded = some k then engKickN e n (startWork e k s)
        else
          let t := if (engOf e s).saved then 7040 else 12160
          engMod e (fun g => { g with swapTo := some k, swapAt := s.time.cclk + t }) s

/-- R274: an engine looks for work. -/
def engKick (e : Nat) (s : State) : State :=
  let h := gangHead s.cfg e
  let s := flushEngine h s
  engKickN h (2 + (engOf h s).savedWorks.length +
    ((liveScs h s).map (fun k => (strm k s).ready.length + (strm k s).aus.length)).sum) s

/-- R274, R275: at a commit, the engine goes on with its work, or turns to other work. -/
def engNext (e : Nat) (s : State) : State :=
  match (engOf e s).work with
  | none => engKick e s
  | some w =>
    let live := (strm w.sc s).prio == 0
    let w' := { w with readyAt := if workReady w s then some s.time.cclk else none }
    let t := setWork e none (engMod e (fun g => { g with savedWorks := Tab.put g.savedWorks w.sc w' }) s)
    let t := (liveScs e t).foldl (fun s k => liveCheck k s) t
    match pickWork e t with
    | some k =>
      if k = w.sc then engMod e (fun g => { g with segAt := s.time.cclk }) s
      else
        let t := if live then t else bump F.CE_PREEMPTS_COUNT e t
        engKick e (engMod e (fun g => { g with saved := false }) t)
    | none => engKick e (engMod e (fun g => { g with saved := true }) t)

/-! ### Overruns and failures -/

/-- R284: count an overrun. Log 129 (DEDUCED). -/
def countOverrun (k : Nat) (s : State) : State :=
  let e := (strm k s).engine
  pendSet (112 + e) (bump F.CE_OVERRUNS_COUNT e (strmMod k (fun c => { c with overruns := c.overruns + 1 }) s))

/-- R284: tick `t + 2` of a context's domain has been seen. -/
def tickGone (k t : Nat) (s : State) : Bool :=
  let td := (strm k s).td
  Tab.get false s.time.tickSeen td && decide (t + 2 ≤ tickIdx td s)

/-- R284 to R286: LIVE work of input tick `t` has overrun. -/
def overrun (k t : Nat) (s : State) : State :=
  let w? := match workOf k s with | some w => if w.tick = t then some w else none | none => none
  if w?.any (fun w => w.late.isSome || w.skip.isSome) then s
  else
    let s := countOverrun k s
    let drop := match w? with | some w => if w.begun then w.drop else (strm k s).overrun == 1 | none => (strm k s).overrun == 1
    if drop then engKick (strm k s).engine (liveDrop k t 0x0B s)
    else
      let e := (strm k s).engine
      let mark := fun w : Work => if w.sc = k ∧ w.tick = t then { w with late := some (tickTime s.cfg (strm k s).td (t + 2)) } else w
      let s := if w?.isNone then
          (fun s => engMod e (fun g => { g with savedWorks := g.savedWorks.map (fun (x : Nat × Work) => (x.1, mark x.2)) }) s) (liveCheck k s)
        else engMod e (fun g => { g with savedWorks := g.savedWorks.map (fun (x : Nat × Work) => (x.1, mark x.2)) }) s
      match (engOf e s).work with
      | some w => engMod e (fun g => { g with work := some (mark w) }) s
      | none => s

/-- R290, R403: the work in progress fails. -/
def failWork (e detail : Nat) (s : State) : State :=
  match (engOf e s).work with
  | none => s
  | some w =>
    let s := engMod e (fun g => { g with failRun := 0 }) s
    if w.cmd.isEmpty then liveGone w.sc w.tick 5 detail (8 * b2n (w.restarts != 0)) s else abandon w.sc detail 5 s

/-! ### Commits -/

/-- A picture has been coded: its record, and the next picture of the command, or its end. Log 123 (DEDUCED). -/
def encFinish (e : Nat) (w : Work) (s : State) : State :=
  let k := w.sc
  let x := pictureEnd k w s
  if w.cmd.isEmpty then endTick k w.tick (statWrite k x.1 true (workDone e w x.2))
  else
    let s := cmdRecord k w.cmd x.1 x.2
    match w.more with
    | [] => fileDone k (workDone e w s)
    | p :: r =>
      match pictureStart k { w with plan := p, more := r, restarts := 0 } s with
      | (some w', s) => setWork e (some w') s
      | (none, s) => fileBusy e k w s

/-- R289, R307, R317, R324, R326, R335, R348 to R364, R416: an encoder's commit. Log 122 (DEDUCED). -/
def encCommit (e : Nat) (w : Work) (r : SegResult) (s : State) : State :=
  let k := w.sc
  let c := strm k s
  let n := picPeriod c s
  let p := w.plan.params
  let first := w.overhead.isNone
  let acts := measured k w s
  let h := if first then auHead w.plan c.rc n.1 n.2 (cfaOf k p s) (feedRl k s) r.coded else ([], r.coded)
  let ovh := h.1.length + (auTail p r.md5).length + r.overhead
  let w := if first then startPicture c.rc n.1 n.2 ovh acts w else { w with acts := acts }
  let w := codeSegment c.rc.prev (ctuInvalid k w s) r.ctus w
  let old := w.coded
  let new := old ++ h.1 ++ h.2
  let y := reconWrite r.samples { w with coded := new, md5 := r.md5 } s
  let w := y.1
  let s := y.2
  let s := if c.prio = 0 ∧ pOutMode p ≠ 0 then windowOut k w.tick old new false s else s
  if w.allCoded then encFinish e w s else setWork e (some w) s

/-- R324, R379: CTU rows that every member of a decoding gang has finished in its first tile row. Log 216 (DESIGN
CHOICE). -/
def decSeams (g : Nat) (d : DecWork) : Nat :=
  ((List.range g).map (fun m => (d.done[m]?).getD 0 / max 1 (memberRun g d.info m).sum)).foldl min (auRows d.info).sum

/-- R288, R324, R373, R379, R384: what a commit adds to a decoder's work. At the end of the access unit, CTUs that no slice
covered are a fault, or are concealed. Log 222 (DEDUCED). -/
def decTake (g codec : Nat) (w : Work) (r : SegResult) : Work :=
  let d := w.dec
  let plan := decPlan g codec d.info d.done r.done
  let done := (List.range (max 1 g)).map (fun m => (d.done[m]?).getD 0 + (plan[m]?).getD 0)
  let info := if r.last then { r.au with poc := d.info.poc } else d.info
  let short := r.last && decide (done.sum < auCtus d.info)
  let fault := match d.fault, r.fault with
    | some f, _ => some f
    | none, some f => some f
    | none, none => if short then some { faultAt 0x0A (if d.damaged then 1 else 2) 0 with offset := d.len } else none
  let d := { d with fault := fault, done := done, decoded := done.sum, samples := d.samples ++ r.samples, info := info,
                    concealed := if r.last then auCtus d.info - done.sum else d.concealed }
  { w with dec := d, seams := if d.info.lfAcross && decide (1 < g) then max w.seams (decSeams g d) else w.seams }

/-- R289, R377, R381: a decoder's commit. -/
def decCommit (e : Nat) (w : Work) (r : SegResult) (s : State) : State :=
  let k := w.sc
  let x := if w.dec.known then (AuGo.go w, s) else auOpen k w r s
  match x.1 with
  | .ended => workDone e w x.2
  | .busy => if w.cmd.isEmpty then liveDrop k w.tick 1 x.2 else fileBusy e k w x.2
  | .go w =>
    let s := x.2
    let w := decTake (strm k s).gang (strm k s).codec w r
    match w.dec.fault with
    | some f =>
      if faultStops w.dec.conceal f then workDone e w (decStop k w f s)
      else if r.last then workDone e w (auEnd k w s)
      else if w.cmd.isEmpty then
        let y := queueRows k w false s
        flushRows k (setWork e (some y.1) y.2)
      else setWork e (some w) s
    | none =>
      if r.last then workDone e w (auEnd k w s)
      else if w.cmd.isEmpty && w.dec.info.outFlag then
        let y := queueRows k w false s
        flushRows k (setWork e (some y.1) y.2)
      else setWork e (some w) s

/-- R288: a decoder's commit that covers no CTU and ends nothing is no segment. -/
def segEmpty (w : Work) (r : SegResult) : Bool :=
  w.kind == 2 && w.dec.known && r.done.all (· == 0) && !r.last && r.fault.isNone

/-- R289: a commit segment ends. -/
def commitSeg (e : Nat) (r : SegResult) (s : State) : State :=
  match (engOf e s).work with
  | none => s
  | some w =>
    let n := s.time.cclk - (engOf e s).segAt
    let s := addBusy e n (engMod e (fun g => { g with segAt := s.time.cclk, failRun := 0 }) s)
    let s := routineWord e 1 w.segments w s
    let w := { w with busy := w.busy + n, segments := w.segments + 1 }
    let s := setWork e (some w) s
    engNext e (if w.kind = 2 then decCommit e w r s else encCommit e w r s)

/-! ### Input and commands that wait -/

/-- R273, R286, R292: input has been handed to a LIVE context: rows of a tick that is over are released; while the engine
is disabled its pictures are dropped. Log 126 (DEDUCED). -/
def liveInput (k : Nat) (s : State) : State :=
  let c := strm k s
  let s := match c.doneTick with | some d => if (liveTicks k s).any (· ≤ d) && (workOf k s).isNone then endTick k d s else s | none => s
  if flag F.CE_STATUS_ENABLED c.engine s then engKick c.engine s
  else (liveTicks k s).foldl (fun s t => liveGone k t 0x0B 0 2 s) s

/-- R269: the opcodes that the table lists. -/
def listedOp (op : Nat) : Bool := (decide (1 ≤ op) && decide (op ≤ 8)) || (decide (0x10 ≤ op) && decide (op ≤ 0x15)) || op == 0x3F

/-- R268, R271, R447: a FILE context may start its next command. -/
def fileIdle (k : Nat) (s : State) : Bool :=
  let c := strm k s
  (workOf k s).isNone && c.waits.isEmpty && statRoom k s

/-- R269, R287: commands with an opcode that the table does not list complete with BAD_ARG in their turn. -/
def purgeBad (k : Nat) (s : State) : State :=
  (strm k s).queue.foldl (fun s _ =>
    let c := strm k s
    match c.queue with
    | r :: q =>
      if listedOp (byteAt r 0) || !(c.prio == 0 || fileIdle k s) then s
      else cmdStatus k r { engine := c.engine, status := 6, tStart := nowNs s } (strmMod k (fun c => { c with queue := q }) s)
    | [] => s) s

/-- Every context with such a command in front. -/
def purgeAll (s : State) : State :=
  ((s.coding.sc.filter (fun (x : Nat × Stream) => match x.2.queue with | r :: _ => !listedOp (byteAt r 0) | [] => false)).map (·.1)).foldl
    (fun s k => purgeBad k s) s

end Sys2Proof.Machine
end

