-- ==== Sys2Proof/Machine/Engines.lean ====
section
/-! DEFINITION. The commands of the coding engines (chapter 07): commits, swaps, overruns, restarts, enable and drain. -/
namespace Sys2Proof.Machine

/-- R261: a FILE context is homed on the engine. -/
def fileHomed (h : Nat) (s : State) : Bool :=
  s.coding.sc.any (fun (x : Nat × Stream) => x.2.prio != 0 && x.2.engine == h && decide (2 ≤ scState x.1 s))

/-- R261, R291, R298, R570: a write to CE_CTRL, for the whole gang. Log 47 (DEDUCED). -/
def ceCtrlWrite (e : Nat) (w : Word) (s : State) : State :=
  let h := gangHead s.cfg e
  let en := wbit F.CE_CTRL_ENABLE w
  let ex := wbit F.CE_CTRL_LIVE_EXCLUSIVE w
  let old := flag F.CE_CTRL_LIVE_EXCLUSIVE h s
  let res := fun v s => (gangOf s.cfg h).foldl (fun s m => fset F.CE_CTRL_RESULT m v s) s
  if (ex && !old && (fileHomed h s || ceUse s.cfg h != 1)) || (en && ceUse s.cfg h == 2) then res 3 s
  else
    let s := gangFlag F.CE_CTRL_LIVE_EXCLUSIVE h ex (res 0 s)
    if s.mode != .operate then s
    else engKick h (if en then ceOn h s else ceOff h s)

/-- R23: a coding engine's burst: class A for LIVE work and the load of its context, class B for FILE. Log 195 (DESIGN
CHOICE). -/
def engAsk (e sc : Nat) (s : State) : State := hbmAsk (if (strm sc s).prio = 0 then 0 else 1) (whoEngine e) s

/-- SEGMENT_COMMIT (R289): the segment in progress on the engine ends. A LIVE picture whose tick k + 2 has been seen meets
its overrun first (R284); poisoned data abandons the routine (R403). -/
def execSegmentCommit (e : Eng) (r : SegResult) (s : State) : Host.Outcome State Fault Refusal :=
  let h := gangHead s.cfg e.val
  .next (match (engOf h s).work with
    | none => s
    | some w =>
      let s := if w.cmd.isEmpty && tickGone w.sc w.tick s then overrun w.sc w.tick s else s
      if ((engOf h s).work.map (fun x => (x.sc, x.skip.isSome))) != some (w.sc, w.skip.isSome) then s
      else if r.poisoned then purgeAll (engKick h (haspRise (21 + e.val / 8) e.val (failWork h 0 s)))
      else if segEmpty w r then s
      else purgeAll (commitSeg h r (engAsk h w.sc s)))

/-- SWAP_COMPLETE (R275): the incoming context's working state is loaded and dispatched. Log 124 (DEDUCED). -/
def execSwapComplete (e : Eng) (s : State) : Host.Outcome State Fault Refusal :=
  let h := gangHead s.cfg e.val
  .next (match (engOf h s).swapTo with
    | none => s
    | some k =>
      let s := reachCclk (engOf h s).swapAt s
      let s := engMod h (fun g => { g with swapTo := none, loaded := some k, saved := true }) s
      engKick h (startWork h k (engAsk h k s)))

/-- LIVE_OVERRUN (R284): tick k + 2 has been seen and the work of tick k + 1 is not complete. -/
def execLiveOverrun (sc : Sc) (s : State) : Host.Outcome State Fault Refusal :=
  let k := sc.val
  .next (if (strm k s).prio ≠ 0 ∨ scState k s ≠ 3 then s
    else match liveTicks k s with
      | [] => s
      | t :: _ => if tickGone k t s then overrun k t s else s)

/-- ENGINE_RESTART (R290, R403): an error abandons the segment in progress; the third in a row fails the command. -/
def execEngineRestart (e : Eng) (cause : RestartCause) (s : State) : Host.Outcome State Fault Refusal :=
  let h := gangHead s.cfg e.val
  .next (match (engOf h s).work with
    | none => s
    | some w =>
      match cause with
      | .poisoned => engKick h (haspRise (21 + e.val / 8) e.val (failWork h 0 s))
      | .correctable =>
        let w := { w with restarts := w.restarts + 1 }
        let s := setWork h (some w) (pendSet (112 + e.val) (bump F.CE_RESTARTS_COUNT e.val s))
        let s := strmMod w.sc (fun c => { c with restarts := c.restarts + 1 }) (routineWord h 2 w.segments w s)
        let n := (engOf h s).failRun + 1
        if n = 3 then engKick h (haspRise (21 + e.val / 8) e.val (failWork h 3 s))
        else engMod h (fun g => { g with failRun := n }) s)

/-- CE_ENABLE (R293). -/
def execCeEnable (fn : Fn) (e : Eng) (w : Word) (s : State) : Host.Outcome State Fault Refusal :=
  .next (hostWr fn .CE_CTRL e.val s (ceCtrlWrite e.val (withBit w 0 true)))

/-- CE_DISABLE (R292). -/
def execCeDisable (fn : Fn) (e : Eng) (w : Word) (s : State) : Host.Outcome State Fault Refusal :=
  .next (hostWr fn .CE_CTRL e.val s (ceCtrlWrite e.val (withBit w 0 false)))

/-- R293: the drain of an engine ends; an enable that waits is carried out. -/
def ceDrained (e : Nat) (s : State) : State :=
  let h := gangHead s.cfg e
  if !flag F.CE_STATUS_DRAINING h s then s
  else
    let s := gangFlag F.CE_STATUS_DRAINING h false s
    if flag F.CE_STATUS_ENABLE_PENDING h s then engKick h (ceStart h (gangFlag F.CE_STATUS_ENABLE_PENDING h false s)) else s

/-- CE_DRAIN_END (R293). -/
def execCeDrainEnd (e : Eng) (s : State) : Host.Outcome State Fault Refusal := .next (ceDrained e.val s)

/-- LIVE_EXCLUSIVE (R261). -/
def execLiveExclusive (fn : Fn) (e : Eng) (w : Word) (s : State) : Host.Outcome State Fault Refusal :=
  .next (hostWr fn .CE_CTRL e.val s (ceCtrlWrite e.val (withBit w 1 true)))

end Sys2Proof.Machine
end

