-- ==== Sys2Proof/Machine/Streams.lean ====
section
/-! DEFINITION. The stream contexts' commands (R262 to R272, R294 to R296, R314, R345, R372, R375, R393): allocation,
doorbells and fetches, and one meaning for each opcode of R269. -/
namespace Sys2Proof.Machine

/-! ### Allocation, doorbells, fetches (R263, R266, R301) -/

/-- R263, R443: a write to CG_ALLOC by a function. -/
def cgAllocWrite (fn : Nat) (s : State) : State :=
  let put := fun (r k : Nat) (s : State) => { s with coding := { s.coding with allocOf := Tab.put s.coding.allocOf fn (r, k) } }
  let old := (Tab.get (0, 0) s.coding.allocOf fn).2
  if s.mode != .operate then put 5 old s
  else
    let full := fn != 0 && decide (fget F.HIF_VF_QUOTA_SC_QUOTA (fn - 1) s ≤ (scsOf fn s).length)
    match (List.range 1024).find? (fun k => scState k s == 0) with
    | some k =>
      if full then put 4 old (bump F.CG_NO_CONTEXT_COUNT 0 s)
      else
        let s := fset F.SC_RING_LO_BASE_LO k 0 (fset F.SC_RING_HI_BASE_HI k 0 (fset F.SC_RING_CFG_LOG2_ENTRIES k 4 s))
        let s := fset F.SC_HEAD_HEAD k 0 (fset F.SC_STAT_HEAD_HEAD k 0 (fset F.SC_STAT_TAIL_TAIL k 0 s))
        let s := setFlag F.SC_STATE_BAD_DOORBELL k false (setFlag F.SC_STATE_ENABLE_PENDING k false s)
        put 0 k (setScState k 1 (strmMod k (fun _ => { Stream.init with fn := fn, phase := true, srcStream := 0xFFFF }) s))
    | none => put 4 old (bump F.CG_NO_CONTEXT_COUNT 0 s)

/-- R266: a write to SC_DOORBELL. -/
def doorbellWrite (k : Nat) (w : Word) (s : State) : State :=
  if scState k s = 0 then s
  else
    let t := wfld F.SC_DOORBELL_TAIL w
    if 2 ^ fget F.SC_RING_CFG_LOG2_ENTRIES k s ≤ t then setFlag F.SC_STATE_BAD_DOORBELL k true s
    else strmMod k (fun c => { c with tail := if t = fget F.SC_HEAD_HEAD k s then none else some t }) s

/-- CG_ALLOC (R263). -/
def execCgAlloc (fn : Fn) (_w : Word) (s : State) : Host.Outcome State Fault Refusal :=
  .next (hostWr fn.val .CG_ALLOC 0 s (cgAllocWrite fn.val))

/-- DOORBELL (R266). -/
def execDoorbell (fn : Fn) (sc : Sc) (w : Word) (s : State) : Host.Outcome State Fault Refusal :=
  .next (hostWr fn.val .SC_DOORBELL sc.val s (doorbellWrite sc.val w))

/-- COMMAND_FETCH (R266, R447): the fetcher reads the next records of the ring, at most 16 and up to its end. -/
def execCommandFetch (sc : Sc) (records : List Bytes) (s : State) : Host.Outcome State Fault Refusal :=
  let k := sc.val
  let c := strm k s
  .next (match c.tail with
    | none => s
    | some t =>
      if scState k s = 0 || !fnD0 c.fn s then s
      else
        let size := 2 ^ fget F.SC_RING_CFG_LOG2_ENTRIES k s
        let h := fget F.SC_HEAD_HEAD k s
        let n := min records.length (min (min 16 ((t + size - h) % size)) (size - h))
        let h' := (h + n) % size
        let s := fset F.SC_HEAD_HEAD k h' s
        purgeBad k (strmMod k (fun c => { c with queue := c.queue ++ (records.take n).map (fitTo 64)
                                                 tail := if h' = t then none else some t }) s))

/-! ### Taking a command -/

/-- R269: the context's state and class admit the opcode. Log 135 (DEDUCED). -/
def opAllowed (op k : Nat) (s : State) : Bool :=
  let c := strm k s
  let st := scState k s
  let file := c.prio != 0
  let enc := c.kind == 0
  match op with
  | 0x01 => st == 1
  | 0x02 => st != 0
  | 0x03 => st == 2 || st == 4
  | 0x04 => st == 3 || st == 5
  | 0x06 => st == 2 || st == 3
  | 0x07 => enc && (st == 2 || st == 3)
  | 0x08 => st == 2 || st == 3 || st == 5
  | 0x10 => file && enc && st == 3
  | 0x11 => file && !enc && st == 3
  | 0x12 => file && st == 3
  | 0x13 => enc && st == 3
  | 0x14 => file && !enc && (st == 2 || st == 3 || st == 5)
  | 0x15 => !enc && st == 5
  | _ => decide (2 ≤ st)

/-- Remove the first record with an opcode. Log 138 (DEDUCED). -/
def takeFirst (op : Nat) : List Bytes → Option (Bytes × List Bytes)
  | [] => none
  | r :: q => if byteAt r 0 = op then some (r, q) else (takeFirst op q).map (fun x => (x.1, r :: x.2))

/-- R268: the command of that opcode that acts now, removed from the queue: an early command wherever it stands, else the one at
the front, which on a FILE context waits for what is unfinished before it. -/
def takeCmd (op k : Nat) (early : Bool) (s : State) : Option (Bytes × State) :=
  let c := strm k s
  let x := if early then takeFirst op c.queue
    else match c.queue with
      | r :: q => if byteAt r 0 = op ∧ (c.prio = 0 ∨ fileIdle k s = true) then some (r, q) else none
      | [] => none
  x.map (fun y => (y.1, strmMod k (fun c => { c with queue := y.2 }) s))

/-- The end of a command that no engine ran; its result is STATUS + 256 * DETAIL. Log 121 (DEDUCED). -/
def cmdEnd (k : Nat) (cmd : Bytes) (result : Nat) (s : State) : State :=
  purgeBad k (cmdStatus k cmd { engine := (strm k s).engine, status := result % 256, detail := result / 256,
                                tStart := nowNs s } s)

/-- R268, R269: run a command that waits: its state and class are checked, `act` gives its effect and status. Log
135 (DEDUCED). -/
def runCmd (op k : Nat) (early : Bool) (act : Bytes → State → Nat × State) (s : State) : State :=
  match takeCmd op k early s with
  | none => s
  | some (cmd, s) =>
    if !opAllowed op k s then cmdEnd k cmd 5 s
    else
      let x := act cmd s
      cmdEnd k cmd x.1 x.2

/-! ### OPEN (R264, R270) -/

/-- R70, R71: the pending delta changes the engine. -/
def engineFrozen (e : Nat) (s : State) : Bool :=
  let p := s.loader.pend
  flag F.IMG_STATUS_DELTA_PENDING 0 s && secHas p 8 && (gangOf s.cfg e ++ gangOf p e).any (fun e =>
    ceUse p e != ceUse s.cfg e || ceGang p e != ceGang s.cfg e || ceTd p e != ceTd s.cfg e || ceMbs p e != ceMbs s.cfg e ||
      (List.range 8).any (fun w => winClaim p e w != winClaim s.cfg e w))

/-- R264: the engine or gang of a size that takes the next FILE context. -/
def homeFor (g : Nat) (s : State) : Option Nat :=
  let es := (List.range 48).filter (fun e => e % max 1 g == 0 && ceUse s.cfg e == 0 && ceGang s.cfg e == g &&
    flag F.CE_STATUS_ENABLED e s)
  let n := fun e => (s.coding.sc.filter (fun (x : Nat × Stream) => x.2.prio != 0 && x.2.engine == e && decide (2 ≤ scState x.1 s))).length
  es.foldl (fun m e => match m with | some b => if n e < n b then some e else m | none => some e) none

/-- R270: the checks of OPEN; the home engine, or the result of the first failure. A sealed context draws its STREAM_ID
(R497), which fails with NO_ENTROPY while the entropy source does (R466). Log 117 (DEDUCED). Log 130 (DEDUCED). Log
135 (DEDUCED). Log 158 (DEDUCED). -/
def openCheck (k : Nat) (cmd p : Bytes) (s : State) : Nat ⊕ Nat :=
  let a0 := cmdArg cmd 0
  let f := fun i => bits a0 (8 * i + 7) (8 * i)
  let kind := f 0
  let codec := f 1
  let prio := f 2
  let td := f 3
  let e := f 4
  let cq := bits a0 59 56
  let log2 := bits (cmdArg cmd 3) 3 0
  let src := bits (cmdArg cmd 3) 31 16
  let sld := bit (cmdArg cmd 3) 32
  let key := cmdArg cmd 4 % 2 ^ 32
  let fn := (strm k s).fn
  let live := prio == 0
  let sst := strm src s
  let bad := decide (1 < kind) || decide (1 < codec) || decide (3 < prio) || decide (1 < f 5) || decide (1 < f 6) ||
    decide (log2 < 4) || decide (12 < log2) || cmdArg cmd 2 % 256 != 0 || cmdArg cmd 1 % 64 != 0 ||
    fget F.HIF_CQ_OWNER_OWNER cq s != fn || (decide (47 < e) && (e != 0xFF || live)) ||
    (decide (e < 48) && gangHead s.cfg e != e) ||
    (live && (decide (7 < td) || (ceUse s.cfg e == 1 && ceTd s.cfg e != td))) ||
    (!live && (f 6 == 1 || !(decide (td ≤ 7) || td == 0xFF))) ||
    (src != 0xFFFF && !(decide (src < 1024) && decide (2 ≤ scState src s) && sst.prio == 0 && sst.kind == 0 && sst.engine == e)) ||
    (kind == 1 && sld) ||
    !paramsValid k kind e codec td src live p (strmMod k (fun c => { c with srcStream := src }) s)
  if bad then .inr 6
  else
    let home := if e = 0xFF then homeFor (pGang p) s else some e
    match home with
    | none => .inr 3
    | some e =>
      if ceUse s.cfg e = 2 ∨ (live ∧ ceUse s.cfg e ≠ 1) ∨ (!live ∧ flag F.CE_CTRL_LIVE_EXCLUSIVE e s = true) ∨
          pGang p ≠ max 1 (ceGang s.cfg e) then .inr 3
      else if sld && !keyUsable key useSeal fn s then .inr 7
      else if sld && !flag F.WARD_STATE_ENTROPY_OK 0 s then .inr (5 + 256 * 0x11)
      else if !sld && kind == 0 && spFlag s.cfg 1 then .inr 9
      else if engineFrozen e s then .inr 1
      else if live && (!fitsTick s.cfg td (liveLoad k e s + liveBudget kind e codec p (rcCapBits (rcDefault p)) s) ||
          (kind == 0 && ullLate s.cfg td p (rcCapBits (rcDefault p)))) then .inr 0x0B
      else .inl e

/-- R282, R299: change the admitted load of every member of an engine's gang. Log 130 (DEDUCED). -/
def liveLoadAdd (e : Nat) (d : Int) (s : State) : State :=
  (gangOf s.cfg e).foldl (fun s m => fset F.CE_LIVE_LOAD_NS m ((fget F.CE_LIVE_LOAD_NS m s : Int) + d).toNat s) s

/-- R270, R344, R497: OPEN succeeds. -/
def openDo (k e : Nat) (cmd p : Bytes) (s : State) : State :=
  let a0 := cmdArg cmd 0
  let f := fun i => bits a0 (8 * i + 7) (8 * i)
  let live := f 2 == 0
  let sld := bit (cmdArg cmd 3) 32
  let key := if sld then cmdArg cmd 4 % 2 ^ 32 else 0
  let b := if live then liveBudget (f 0) e (f 1) p (rcCapBits (rcDefault p)) s else 0
  let d := if sld then drawBytes 16 s else ([], s)
  let s := d.2
  let dk := if sld then sealDataKey key d.1 s else []
  let s := strmMod k (fun c => { c with
    kind := f 0, codec := f 1, prio := f 2, td := if live then f 3 else 0xFF, engine := e, gang := pGang p, overrun := f 5
    errPolicy := f 6, srcStream := bits (cmdArg cmd 3) 31 16, sealedS := sld, paramAddr := cmdArg cmd 1, sealKey := key
    budget := b, gop := { GopSt.init with params := p }, rc := { RcSt.init with record := rcDefault p }
    streamId := d.1, dataKey := dk, auSeq := 0 }) s
  let s := setScState k 2 (if live then liveLoadAdd e b s else s)
  if sld then sealWindows s else s

/-- R270, R271: OPEN; its record goes to the ring that it names itself. Log 125 (DEDUCED). -/
def scOpenRun (p : Bytes) (k : Nat) (cmd : Bytes) (s : State) : Nat × State :=
  let log2 := bits (cmdArg cmd 3) 3 0
  let cq := bits (cmdArg cmd 0) 59 56
  let s := if cmdArg cmd 2 % 256 = 0 ∧ 4 ≤ log2 ∧ log2 ≤ 12 then
      strmMod k (fun c => { c with statBase := cmdArg cmd 2, statLog2 := log2 }) s else s
  let s := if fget F.HIF_CQ_OWNER_OWNER cq s = (strm k s).fn then strmMod k (fun c => { c with cq := cq }) s else s
  match openCheck k cmd (fitTo 64 p) s with
  | .inl e => (0, openDo k e cmd (fitTo 64 p) s)
  | .inr st => (st, s)

/-- OPEN (R270): `params` is the record that the fetcher reads at ARG1. -/
def execScOpen (sc : Sc) (params : Bytes) (s : State) : Host.Outcome State Fault Refusal :=
  .next (runCmd 0x01 sc.val false (scOpenRun params sc.val) s)

/-! ### CLOSE, ENABLE, DISABLE (R294 to R296) -/

/-- CLOSE (R296). A RESERVED context is freed without a record. -/
def execScClose (sc : Sc) (s : State) : Host.Outcome State Fault Refusal :=
  let k := sc.val
  .next (match takeCmd 0x02 k true s with
    | none => s
    | some (cmd, s) =>
      if scState k s = 0 then s
      else if scState k s = 1 then scFree k s
      else
        let e := (strm k s).engine
        engKick e (cmdEnd k cmd 0 (scClose k cmd s)))

/-- R294, R295: ticks whose input was handed out before a LIVE context was enabled are over for it. Log 126
(DEDUCED). -/
def startTick (k : Nat) (s : State) : Option Nat :=
  let c := strm k s
  let f := match feedFlow (feedOf k s) s with | some x => fFlow x s | none => EssFlow.init
  let ts := (f.pics.filter (fun (p : EssPic) => p.lines.any (fun (l : Nat × LineSt) => l.2.moved))).map (fun (p : EssPic) => p.tick)
  let seen := if c.kind = 1 ∧ Tab.get false s.time.tickSeen c.td = true ∧ 1 ≤ tickIdx c.td s then [tickIdx c.td s - 1] else []
  (ts ++ f.doneTick.toList ++ c.doneTick.toList ++ seen).foldl (fun m t => match m with | some x => some (max x t) | none => some t) none

/-- R295: an ENABLE carried out restarts the context from a full reinitialisation. Log 126 (DEDUCED). -/
def scEnableDo (k : Nat) (s : State) : State :=
  let t := if (strm k s).prio = 0 then startTick k s else none
  let s := if (strm k s).kind = 1 then dpbDrop k s else s
  let s := strmMod k (fun c =>
    if c.kind = 0 then
      { c with gop := c.gop.restart, rc := { RcSt.init with record := c.rc.record, pend := c.rc.pend }, debt := 0, fastNext := false, doneTick := t }
    else { c with waitIrap := true, skipRasl := false, concealing := false, debt := 0, fastNext := false, doneTick := t }) s
  setScState k 3 s

/-- ENABLE (R295). -/
def execScEnable (sc : Sc) (s : State) : Host.Outcome State Fault Refusal :=
  let k := sc.val
  .next (runCmd 0x03 k false (fun _ s =>
    (0, if scState k s = 4 then setFlag F.SC_STATE_ENABLE_PENDING k true s else scEnableDo k s)) s)

/-- DISABLE (R294). -/
def execScDisable (sc : Sc) (s : State) : Host.Outcome State Fault Refusal :=
  let k := sc.val
  .next (runCmd 0x04 k true (fun _ s => (0, engKick (strm k s).engine (scDrain k s))) s)

/-- R294 to R296: the drain of a context ends: it becomes READY, is enabled again, or is freed once its record is
written. -/
def scDrained (k : Nat) (s : State) : State :=
  if scState k s ≠ 4 then s
  else match (strm k s).closing with
    | some cmd =>
      let s := statFlush k s
      if !cmd.isEmpty && !(strm k s).waits.isEmpty then s else scFree k s
    | none =>
      let s := setScState k 2 s
      if flag F.SC_STATE_ENABLE_PENDING k s then scEnableDo k (setFlag F.SC_STATE_ENABLE_PENDING k false s) else s

/-- SC_DRAIN_END (R294 to R296). Log 125 (DEDUCED). -/
def execScDrainEnd (sc : Sc) (s : State) : Host.Outcome State Fault Refusal := .next (scDrained sc.val s)

/-! ### QUERY (R265) -/

/-- R265: the context descriptor. -/
def scDescriptor (k : Nat) (s : State) : Bytes :=
  let c := strm k s
  let p := c.gop.params
  let enc := c.kind == 0
  let fl := b2n (flag F.SC_STATE_ENABLE_PENDING k s) + 2 * b2n c.sealedS + 4 * b2n (c.prio == 0 && (feedFlow k s).isSome) + 8 * b2n c.fastNext
  leBytes 1 (scState k s) ++ leBytes 1 fl ++ leBytes 1 c.kind ++ leBytes 1 c.codec ++ leBytes 1 c.prio ++ leBytes 1 c.td ++
    leBytes 1 c.engine ++ leBytes 1 c.gang ++ leBytes 1 c.overrun ++ leBytes 1 c.errPolicy ++ leBytes 1 c.fn ++ leBytes 1 c.cq ++
    leBytes 2 c.srcStream ++ leBytes 1 c.statLog2 ++ leBytes 1 0 ++ leBytes 8 c.paramAddr ++ leBytes 8 c.statBase ++
    leBytes 4 c.sealKey ++ leBytes 4 c.budget ++ leBytes 8 c.tickIdx ++ leBytes 8 c.pictures ++ leBytes 8 c.commands ++
    leBytes 4 c.overruns ++ leBytes 4 c.drops ++ leBytes 4 c.debt ++ leBytes 4 c.restarts ++ leBytes 4 c.statusLost ++
    leBytes 4 (twos 32 c.lastPoc) ++ leBytes 2 (if enc then pWidth p else c.width) ++
    leBytes 2 (if enc then pHeight p else c.height) ++ leBytes 1 (if enc then pChroma p else c.chroma) ++
    leBytes 1 (if enc then pDepth p else c.depth) ++ leBytes 1 (if enc then pCtu p else c.ctuSize) ++ leBytes 33 0

/-- QUERY (R265). -/
def execScQuery (sc : Sc) (s : State) : Host.Outcome State Fault Refusal :=
  let k := sc.val
  .next (runCmd 0x05 k false (fun cmd s =>
    (0, if fnD0 (strm k s).fn s then emit (.hostWrite (strm k s).fn (cmdArg cmd 0) (scDescriptor k s)) s else s)) s)

/-! ### SET_PARAMS, SET_RC, SET_POLICY (R314, R345, R346, R369) -/

/-- R282, R346: replace a LIVE context's budget; false when it does not fit. -/
def budgetTo (k b : Nat) (s : State) : Bool × State :=
  let c := strm k s
  if c.prio ≠ 0 then (true, s)
  else if !fitsTick s.cfg c.td (liveLoad k c.engine s + b) then (false, s)
  else (true, strmMod k (fun c => { c with budget := b }) (liveLoadAdd c.engine ((b : Int) - c.budget) s))

/-- R345: the rate-control record that waits, else the one in force. -/
def rcLatest (c : Stream) : Bytes := match c.rc.pend with | some q => q.record | none => c.rc.record

/-- R369: a decode context in ACTIVE: only HASH_SEI and MAX_AU_BYTES may change among the fields of R368. -/
def decChange (o p : Bytes) : Bool :=
  pVersion o == pVersion p && pLevel o == pLevel p && pGang o == pGang p && pWidth o == pWidth p && pHeight o == pHeight p &&
    pWpp o == pWpp p && pOutMode o == pOutMode p && pOutWindow o == pOutWindow p

/-- R314, R369: SET_PARAMS. -/
def setParamsRun (rec : Bytes) (k : Nat) (cmd : Bytes) (s : State) : Nat × State :=
  let c := strm k s
  let p := fitTo 64 rec
  let live := c.prio == 0
  let at_ := bit (cmdArg cmd 1) 0
  if cmdArg cmd 0 % 64 ≠ 0 || pGang p != c.gang || !paramsValid k c.kind c.engine c.codec c.td c.srcStream live p s then (6, s)
  else if c.kind = 0 then
    if !paramsChange c.gop.params p at_ then (6, s)
    else
      let cap := rcCapBits (rcLatest c)
      if live && ullLate s.cfg c.td p cap then (0x0B, s)
      else
        let x := budgetTo k (liveBudget 0 c.engine c.codec p cap s) s
        if !x.1 then (0x0B, s)
        else (0, strmMod k (fun c => { c with gop := { c.gop with pend := some ⟨p, at_⟩ }, paramAddr := cmdArg cmd 0 }) x.2)
  else if scState k s = 3 && !decChange c.gop.params p then (6, s)
  else
    let x := budgetTo k (liveBudget 1 c.engine c.codec p 0 s) s
    if !x.1 then (0x0B, s)
    else (0, strmMod k (fun c => { c with gop := { c.gop with params := p }, paramAddr := cmdArg cmd 0 }) x.2)

/-- SET_PARAMS (R314): `params` is the record at ARG0. -/
def execScSetParams (sc : Sc) (params : Bytes) (s : State) : Host.Outcome State Fault Refusal :=
  .next (runCmd 0x06 sc.val false (setParamsRun params sc.val) s)

/-- R343, R345, R346: SET_RC. -/
def setRcRun (rec : Bytes) (k : Nat) (cmd : Bytes) (s : State) : Nat × State :=
  let c := strm k s
  let r := fitTo 64 rec
  let t := picPeriod c s
  let p := c.gop.params
  if cmdArg cmd 0 % 64 ≠ 0 || !rcValid r p t.1 t.2 then (6, s)
  else
    let x := budgetTo k (liveBudget 0 c.engine c.codec p (rcCapBits r) s) s
    if !x.1 then (0x0B, s)
    else (0, strmMod k (fun c => { c with rc := { c.rc with pend := some ⟨r, rcAtIrap c.rc.record r⟩ } }) x.2)

/-- SET_RC (R345): `record` is the record at ARG0. -/
def execScSetRc (sc : Sc) (record : Bytes) (s : State) : Host.Outcome State Fault Refusal :=
  .next (runCmd 0x07 sc.val false (setRcRun record sc.val) s)

/-- SET_POLICY (R269). -/
def execScSetPolicy (sc : Sc) (s : State) : Host.Outcome State Fault Refusal :=
  let k := sc.val
  .next (runCmd 0x08 k false (fun cmd s =>
    let o := cmdArg cmd 0 % 256
    let e := cmdArg cmd 0 / 256 % 256
    if 1 < o ∨ 1 < e ∨ (e = 1 ∧ (strm k s).prio ≠ 0) then (6, s)
    else (0, strmMod k (fun c => { c with overrun := o, errPolicy := e }) s)) s)

/-! ### Pictures and access units -/

/-- Put a FILE command's work before its engine; its record stays at the front of the queue until it completes. -/
def submit (k : Nat) (cmd : Bytes) (w : Work) (s : State) : State :=
  let e := (strm k s).engine
  let s := strmMod k (fun c => { c with queue := cmd :: c.queue }) s
  engKick e (engMod e (fun g => { g with savedWorks := Tab.put g.savedWorks k { w with readyAt := some s.time.cclk } }) s)

/-- R311: the planes of ENCODE_PICTURE are well placed. -/
def planesOk (p cmd : Bytes) : Bool :=
  let b := if pDepth p = 8 then 1 else 2
  let ls := cmdArg cmd 3 % 2 ^ 32
  let cs := cmdArg cmd 3 / 2 ^ 32
  let ok := fun a st n => a % 64 == 0 && st % 64 == 0 && decide (n ≤ st)
  let cw := (if pChroma p = 3 then pWidth p else pWidth p / 2) * b
  ok (cmdArg cmd 0) ls (pWidth p * b) && (pChroma p == 0 || (ok (cmdArg cmd 1) cs cw && ok (cmdArg cmd 2) cs cw))

/-- R311, R314: the record under which a picture that arrives now is coded, as far as its structure says so. -/
def nextParams (c : Stream) (x : List PicPlan × GopSt) : Bytes :=
  match x.1.find? (fun (q : PicPlan) => q.idx == c.gop.idx) with
  | some q => q.params
  | none => x.2.params

/-- ENCODE_PICTURE (R311): the picture waits for its engine; one that the structure only holds (R316) completes at once. -/
def execScEncodePicture (sc : Sc) (s : State) : Host.Outcome State Fault Refusal :=
  let k := sc.val
  .next (match takeCmd 0x10 k false s with
    | none => s
    | some (cmd, s) =>
      let c := strm k s
      if !opAllowed 0x10 k s then cmdEnd k cmd 5 s
      else
        let x := c.gop.feed (cmdArg cmd 4) cmd s.time.cclk
        if !planesOk (nextParams c x) cmd then cmdEnd k cmd 6 s
        else if x.1.isEmpty then cmdEnd k cmd 0 (strmMod k (fun c => { c with gop := x.2 }) s)
        else purgeAll (submit k cmd { Work.blank with sc := k, kind := 1, cmd := cmd } s))

/-- DECODE_AU (R372): the access unit waits for its engine. -/
def execScDecodeAu (sc : Sc) (s : State) : Host.Outcome State Fault Refusal :=
  let k := sc.val
  .next (match takeCmd 0x11 k false s with
    | none => s
    | some (cmd, s) =>
      let c := strm k s
      let len := cmdArg cmd 1 % 2 ^ 32
      let w := { Work.blank with
        sc := k, kind := 2, cmd := cmd
        dec := { DecWork.blank with addr := cmdArg cmd 0, len := len, damaged := bit (cmdArg cmd 1) 32, eos := bit (cmdArg cmd 1) 33,
                                    pts := cmdArg cmd 2 } }
      if !opAllowed 0x11 k s then cmdEnd k cmd 5 s
      else if pMaxAu c.gop.params < len then
        let r : DecRep := { fault := some (faultAt 0x0B 0 0) }
        purgeBad k (ausTold k (cmdStatus k cmd { engine := c.engine, status := 6, tStart := nowNs s, pic := decPic k w r s } s))
      else purgeAll (submit k cmd w s))

/-- FLUSH (R269): an encoder codes the pictures held, a decoder outputs every picture held and waits for an IRAP. -/
def execScFlush (sc : Sc) (s : State) : Host.Outcome State Fault Refusal :=
  let k := sc.val
  .next (match takeCmd 0x12 k false s with
    | none => s
    | some (cmd, s) =>
      let c := strm k s
      if !opAllowed 0x12 k s then cmdEnd k cmd 5 s
      else if c.kind = 1 then cmdEnd k cmd 0 (strmMod k (fun c => { c with waitIrap := true }) (dpbFlush k s))
      else if c.gop.held.isEmpty then cmdEnd k cmd 0 s
      else purgeAll (submit k cmd { Work.blank with sc := k, kind := 1, cmd := cmd } s))

/-- R318: pictures that a command has planned have not started. Log 223 (DEDUCED). -/
def morePictures (k : Nat) (s : State) : Bool := (workOf k s).any (fun w => w.begun && !w.more.isEmpty)

/-- KEY_PICTURE (R318): the first picture that follows every picture whose first CTU has started becomes an IDR. Log
223 (DEDUCED). -/
def execScKeyPicture (sc : Sc) (s : State) : Host.Outcome State Fault Refusal :=
  let k := sc.val
  .next (runCmd 0x13 k true (fun _ s => 
    (0, strmMod k (fun c => { c with gop := c.gop.keyAsk s.time.cclk (morePictures k s) }) s)) s)

/-- RELEASE_OUTPUT (R375). -/
def execScReleaseOutput (sc : Sc) (s : State) : Host.Outcome State Fault Refusal :=
  let k := sc.val
  .next (runCmd 0x14 k false (fun cmd s =>
    let a := cmdArg cmd 0
    let c := strm k s
    if !c.hostBufs.contains a then (6, s)
    else
      let s := strmMod k (fun c => { c with hostBufs := c.hostBufs.filter (· != a) }) s
      (0, if c.dpb.any (fun (p : DpbPic) => p.buf == a + 1) then s else poolPut a s)) s)

/-- RESTART (R393). -/
def execScRestart (sc : Sc) (s : State) : Host.Outcome State Fault Refusal :=
  let k := sc.val
  .next (runCmd 0x15 k false (fun cmd s =>
    let s := if bit (cmdArg cmd 0) 0 then dpbFlush k s else s
    let s := strmMod k (fun c => { c with waitIrap := true }) (dpbDrop k s)
    (0, setScState k 3 s)) s)

/-- NOP (R269). -/
def execScNop (sc : Sc) (s : State) : Host.Outcome State Fault Refusal :=
  .next (runCmd 0x3F sc.val false (fun _ s => (0, s)) s)

/-- DECODE_UNDERRUN (R388): tick k + 2 has been seen and no access unit of tick k was handed over: the previous output is
committed again. A STOPPED context writes its record of the tick (R383). Log 127 (DEDUCED). -/
def execDecodeUnderrun (sc : Sc) (s : State) : Host.Outcome State Fault Refusal :=
  let k := sc.val
  let c := strm k s
  let n := tickIdx c.td s
  .next (if c.prio ≠ 0 || c.kind ≠ 1 || !Tab.get false s.time.tickSeen c.td || n < 2 then s
    else
      let t := match c.doneTick with | some d => d + 1 | none => n - 2
      let w := { Work.blank with sc := k, kind := 2, tick := t }
      if n < t + 2 || (liveTicks k s).contains t then s
      else if scState k s = 3 then liveRepeat k w 0 4 (some (faultAt 7 0 0)) s
      else if scState k s = 5 then
        ausTold k (endTick k t (liveRecord k w { workRec k w s with pic := decNone k t 256 s } s))
      else s)

end Sys2Proof.Machine
end

