-- ==== Sys2Proof/Machine/Essence.lean ====
section
/-! DEFINITION. Essence ingest (R229, R230, R235 to R246, R252 to R254): RTP packets, SRTP, the merge of two legs, lines,
the ring, fill, and the slots of the line staging window. -/
namespace Sys2Proof.Machine

/-! ### RTP -/

/-- An RTP packet: its header fields, the header's length, and all its bytes. -/
structure Rtp where
  version : Nat
  marker : Bool
  pt : Nat
  seq : Nat
  ts : Nat
  ssrc : Nat
  hdr : Nat
  packet : Bytes
  deriving DecidableEq, Repr

/-- Offset of the UDP header of a frame. -/
def udpAt (b : Bytes) : Option Nat :=
  let o := typeOff b + 2
  let t := etherType b
  if t = 0x0800 && byteAt b (o + 9) == 17 then some (o + byteAt b o % 16 * 4)
  else if t = 0x86DD && byteAt b (o + 6) == 17 then some (o + 40)
  else none

/-- The RTP packet in UDP payload bytes. -/
def rtpParse (r : Bytes) : Option Rtp :=
  if r.length < 12 then none
  else
    let b0 := byteAt r 0
    let base := 12 + 4 * (b0 % 16)
    let hdr := if bit b0 4 then base + 4 + 4 * fieldBE r (base + 2) 2 else base
    if r.length < hdr then none
    else some ⟨b0 / 64, bit (byteAt r 1) 7, byteAt r 1 % 128, fieldBE r 2 2, fieldBE r 4 4, fieldBE r 8 4, hdr, r⟩

/-- The RTP packet of a frame. -/
def rtpOf (b : Bytes) : Option Rtp :=
  (udpAt b).bind (fun u => rtpParse (slice b (u + 8) (fieldBE b (u + 4) 2 - 8)))

/-- The payload of a packet, without padding. -/
def Rtp.payload (r : Rtp) : Bytes :=
  let b := r.packet.drop r.hdr
  if bit (byteAt r.packet 0) 5 then b.take (b.length - byteAt b (b.length - 1)) else b

/-! ### SRTP (R253, R254, R496) -/

/-- RFC 7714: the initialisation vector of a packet. -/
def srtpIv (key : Bytes) (ssrc roc seq : Nat) : Bytes :=
  xorBytes (fitTo 12 (key.drop 32)) (beBytes 2 0 ++ beBytes 4 ssrc ++ beBytes 4 roc ++ beBytes 2 seq)

/-- RFC 7714: authenticate and decrypt under one session key. -/
def srtpOpen (key : Bytes) (roc : Nat) (r : Rtp) : Option Bytes :=
  let b := r.packet.drop r.hdr
  if b.length < 16 then none
  else
    let h := r.packet.take r.hdr
    let ct := b.take (b.length - 16)
    (Config.gcmOpen (key.take 32) (srtpIv key r.ssrc roc r.seq) h ct (b.drop (b.length - 16))).map (fun p => h ++ fitTo ct.length p)

/-- RFC 3711: the rollover counter that a sequence number belongs to, from the highest one authenticated. -/
def rocGuess (c seq : Nat) (s : State) : Nat :=
  let roc := fx c 0x3C 4 s
  let last := (fFlow c s).srtpTop.getD seq
  if last < 32768 then (if last + 32768 < seq then (roc + 2 ^ 32 - 1) % 2 ^ 32 else roc)
  else if seq < last - 32768 then (roc + 1) % 2 ^ 32
  else roc

/-- Session key and salt that a flow holds; slot 1 is that of the key in its overlap. -/
def srtpKey (c slot : Nat) (s : State) : Bytes := Tab.get [] s.ess.srtp (65536 * slot + c)

/-- RFC 3711: ROC and the highest sequence number after a packet of rollover counter `roc` is authenticated. -/
def rocTake (c roc seq : Nat) (s : State) : State :=
  let old := fx c 0x3C 4 s
  if (old + 1) % 2 ^ 32 = roc then fFlowMod c (fun f => { f with srtpTop := some seq }) (fxSet c 0x3C (leBytes 4 roc) s)
  else if old = roc then fFlowMod c (fun f => { f with srtpTop := some (max seq (f.srtpTop.getD 0)) }) s
  else s

/-- PTP time, in ns, of one tick of the class's domain from now on (R19, R254). -/
def tickAfter (c : Nat) (s : State) : Nat :=
  let td := ecTd (fEc c s)
  nowNs s + if tdD s.cfg td = 0 then 0 else ceilDiv (tdN s.cfg td * 1000000000) (tdD s.cfg td)

/-- R253, R254: authenticate and decrypt a copy of an SRTP flow; none when it fails. -/
def srtpIn (c : Nat) (r : Rtp) (s : State) : Option Rtp × State :=
  if !ecSrtp (fEc c s) then (some r, s)
  else
    let roc := rocGuess c r.seq s
    let took := fun (p : Bytes) (s : State) => (rtpParse p, rocTake c roc r.seq s)
    match srtpOpen (srtpKey c 0 s) roc r with
    | some p =>
      let s := match (fFlow c s).oldKey with
        | some (h, none) => fFlowMod c (fun f => { f with oldKey := some (h, some (tickAfter c s)) }) s
        | _ => s
      took p s
    | none =>
      let live := match (fFlow c s).oldKey with
        | some (_, none) => true
        | some (_, some t) => decide (nowNs s < t)
        | none => false
      match if live then srtpOpen (srtpKey c 1 s) roc r else none with
      | some p => took p s
      | none => (none, setEvent F.ESS_EVENT_SRTP_FAIL 0 90 (fCnt c 6 1 s))

/-! ### Sample row data headers (R235, R238) -/

/-- One SRD: its row, first pixel, length in octets, and the octets that the packet holds. -/
structure Srd where
  row : Nat
  x : Nat
  len : Nat
  data : Bytes
  deriving DecidableEq, Repr

/-- The SRD headers of a payload from an offset: (length, row, first pixel), and where the data starts. Log 98
(DEDUCED). -/
def srdHeads (b : Bytes) : (fuel o : Nat) → List (Nat × Nat × Nat) × Nat
  | 0, o => ([], o)
  | n + 1, o =>
    let h := (fieldBE b o 2, fieldBE b (o + 2) 2 % 32768, fieldBE b (o + 4) 2 % 32768)
    if bit (fieldBE b (o + 4) 2) 15 then
      let r := srdHeads b n (o + 6)
      (h :: r.1, r.2)
    else ([h], o + 6)

/-- R227: the SRDs of an ST 2110-20 payload, at most four. -/
def srdsOf (b : Bytes) : List Srd :=
  let x := srdHeads b 4 2
  (x.1.foldl (fun (a : List Srd × Nat) h => (a.1 ++ [⟨h.2.1, h.2.2, h.1, slice b a.2 h.1⟩], a.2 + h.1)) ([], x.2)).1

/-- Pixels along the line that octets of samples cover. -/
def EssGeo.pixels (g : EssGeo) (len : Nat) : Nat := len / g.pgOct * g.pgPix

/-- R235: an SRD is in order. Log 98 (DEDUCED). -/
def srdOk (g : EssGeo) (d : Srd) : Bool :=
  decide (d.row < g.h) && decide (d.x + g.pixels d.len ≤ g.w) && d.len % g.pgOct == 0

/-- R238: the lines that an SRD carries: for 4:2:0 a line pair. -/
def srdLines (g : EssGeo) (d : Srd) : List Nat :=
  if g.smp = 1 then [d.row, d.row + 1].filter (· < g.h) else [d.row]

/-- R235: the header of a copy is in order. -/
def hdrOk (c : Nat) (r : Rtp) (s : State) : Bool :=
  let ss := fx c 0x10 4 s
  r.version == 2 && r.pt == fx c 9 1 s && (ss == 0 || r.ssrc == ss) &&
    (ecFormat (fEc c s) != 0 || (srdsOf r.payload).all (srdOk (fGeo c s)))

/-! ### Samples (R238 to R240) -/

/-- Samples of `d` bits each, in transmission order. -/
def unpack (d : Nat) (b : Bytes) : List Nat := (List.range (8 * b.length / d)).map (fun i => bitsAt b (d * i) d)

/-- R238, R240: plane, and column of its staged line, of sample `j` of an SRD that starts at pixel `x`; `y` is the line.
None for a sample of the pair's other line. -/
def samplePlace (g : EssGeo) (y x j : Nat) : Option (Nat × Nat) :=
  match g.smp with
  | 0 =>
    let q := x / 2 + j / 4
    some (match j % 4 with | 0 => (1, q) | 1 => (0, 2 * q) | 2 => (2, q) | _ => (0, 2 * q + 1))
  | 1 =>
    let q := x / 2 + j / 6
    let i := j % 6
    if i < 4 then (if i / 2 = y % 2 then some (0, 2 * q + i % 2) else none)
    else if y % 2 = 0 then some (i - 3, q) else none
  | 2 => some (match j % 3 with | 0 => (1, x + j / 3) | 1 => (0, x + j / 3) | _ => (2, x + j / 3))
  | 3 => some (match j % 3 with | 0 => (2, x + j / 3) | 1 => (0, x + j / 3) | _ => (1, x + j / 3))
  | 4 => some (0, x + j)
  | _ => some (0, (x + j) % 2 * (g.w / 2) + (x + j) / 2)

/-- R238: the planes that have a staged line for line `y`. -/
def linePlanes (g : EssGeo) (y : Nat) : List Nat := (List.range g.planes.length).filter (fun p => y % ((g.planes[p]?).getD (1, 1)).2 == 0)

/-- Samples along a staged line of a plane. Log 102 (DEDUCED). -/
def EssGeo.cols (g : EssGeo) (p : Nat) : Nat := g.w / ((g.planes[p]?).getD (1, 1)).1

/-- The samples of a line that have arrived: (plane, column) as plane * 65,536 + column. -/
def lineGot (g : EssGeo) (y : Nat) (srds : List (Nat × Bytes)) : Tab Nat :=
  srds.flatMap (fun d => (unpack g.depth d.2).zipIdx.filterMap (fun v =>
    (samplePlace g y d.1 v.2).map (fun q => (q.1 * 65536 + q.2, v.1))))

/-- R244: mid-grey. -/
def EssGeo.grey (g : EssGeo) : Nat := 2 ^ (g.depth - 1)

/-- A line about which nothing has arrived. -/
def LineSt.blank : LineSt := { srds := [], deadline := none, closed := false, ringBytes := 0, moved := false, filled := [] }

/-- A line of a picture. -/
def EssPic.line (p : EssPic) (y : Nat) : LineSt := Tab.get LineSt.blank p.lines y

/-- R244: the filled samples of a line, by plane; `up2` and `up1` are those of the two lines before it. -/
def fillLine (g : EssGeo) (grey : Bool) (y : Nat) (l : LineSt) (up2 up1 : List (List Nat)) : List (List Nat) :=
  let got := lineGot g y l.srds
  (List.range g.planes.length).map (fun q =>
    if (linePlanes g y).contains q then
      let vd := if g.raw then 2 else ((g.planes[q]?).getD (1, 1)).2
      let above := if grey || decide (y < vd) then [] else ((if vd = 2 then up2 else up1)[q]?).getD []
      (List.range (g.cols q)).map (fun x => match Tab.find? got (q * 65536 + x) with
        | some v => v
        | none => (above[x]?).getD g.grey)
    else [])

/-- R244: the filled samples of line `y`: each line from the filled line above it. Log 100 (DEDUCED). -/
def lineFilled (g : EssGeo) (grey : Bool) (p : EssPic) (y : Nat) : List (List Nat) :=
  ((List.range (y + 1)).foldl (fun (a : List (List Nat) × List (List Nat)) i =>
    let l := p.line i
    (a.2, if l.moved then l.filled else fillLine g grey i l a.1 a.2)) ([], [])).2

/-- R244: validity word of columns `lo` to `hi - 1` of a staged line. -/
def validWord (got : Tab Nat) (q lo hi : Nat) : Nat :=
  (List.range (ceilDiv (hi - lo) 256)).foldl (fun m n =>
    if (List.range (min 256 (hi - lo - 256 * n))).all (fun x => (Tab.find? got (q * 65536 + lo + 256 * n + x)).isSome) then m + 2 ^ n
    else m) 0

/-- R239: bytes of staged samples. -/
def EssGeo.bytesOf (g : EssGeo) (v : List Nat) : Bytes := v.flatMap (fun x => leBytes g.bps x)

/-! ### The ring and the slots (R241 to R244) -/

/-- Every line of a staging row has reached its slot. -/
def rowMoved (g : EssGeo) (p : EssPic) (r : Nat) : Bool := (g.rowLines r).all (fun y => (p.line y).moved)

/-- R242: row `r` of the picture of tick `t` may be written: its slot is free on every member, and no row that comes before
it waits for that slot, or the row holds it already. -/
def slotReady (c t r : Nat) (s : State) : Bool :=
  let g := fGeo c s
  let n := fSlots c s
  let free := (fMembers c s).all (fun m => match slotOf (fWin c s + 8 * m) (r % n) s with
    | none => true
    | some x => x.tick == t && x.row == r && !x.given)
  free && (fFlow c s).pics.all (fun (p : EssPic) =>
    if t < p.tick then true
    else (List.range (if p.tick = t then r else g.rows)).all (fun q => q % n != r % n || rowMoved g p q))

/-- R242: the slot of a row is taken. -/
def takeSlot (c t r : Nat) (s : State) : State :=
  let n := r % fSlots c s
  (fMembers c s).foldl (fun s m =>
    let i := fWin c s + 8 * m
    if (slotOf i n s).isSome then s else setSlot i n ⟨t, r, 0, false, []⟩ s) s

/-- R239, R241, R244: one staged line of plane `q` is written at line `at_` of its plane on every member. Log 101
(DEDUCED). -/
def stageLine (c n q at_ : Nat) (v : List Nat) (word : Nat → Nat → Nat) (s : State) : State :=
  let g := fGeo c s
  let pl := (g.planes[q]?).getD (1, 1)
  (fMembers c s).foldl (fun s m =>
    let i := fWin c s + 8 * m
    let sp := memberSpan g c m s
    let lo := sp.1 / pl.1
    let hi := sp.2 / pl.1
    let s := winWrite i (n * g.slotBytes + g.planeOff q + at_ * g.lineBytes pl) (g.bytesOf ((v.drop lo).take (hi - lo))) s
    setValid i n (g.wordAt q at_) (word lo hi) s) s

/-- Change a picture of a flow. -/
def picMod (c t : Nat) (f : EssPic → EssPic) (s : State) : State :=
  fFlowMod c (fun w => { w with pics := w.pics.map (fun (p : EssPic) => if p.tick = t then f p else p) }) s

/-- Change a line of a picture. -/
def EssPic.setLine (p : EssPic) (y : Nat) (l : LineSt) : EssPic := { p with lines := Tab.put p.lines y l }

/-- The picture of a tick. -/
def picOf (c t : Nat) (s : State) : Option EssPic := (fFlow c s).pics.find? (fun (p : EssPic) => p.tick == t)

/-- R239: the last row of a plane is completed by copies of the picture's last line, marked valid. -/
def completeRow (c n r : Nat) (last : List (List Nat)) (s : State) : State :=
  let g := fGeo c s
  let have_ := (g.rowLines r).length
  (List.range g.planes.length).foldl (fun s q =>
    let vd := ((g.planes[q]?).getD (1, 1)).2
    ((List.range (g.rl / vd)).filter (fun i => decide (ceilDiv have_ vd ≤ i))).foldl (fun s i =>
      stageLine c n q i ((last[q]?).getD []) (fun lo hi => 2 ^ ceilDiv (hi - lo) 256 - 1) s) s) s

/-- R241, R242: a complete row is given to its readers on every member; the streams among them take it up. -/
def giveRowAll (c t r : Nat) (s : State) : State :=
  let n := r % fSlots c s
  let k := fx c 6 2 s
  let ks := if k < 1024 then streamReaders k s else []
  let i := fWin c s
  let s := ((fMembers c s).drop 1).foldl (fun s m =>
    match slotOf (i + 8 * m) n s with
    | some x => if ks.isEmpty then freeSlot (i + 8 * m) n s else setSlot (i + 8 * m) n { x with given := true, readers := ks } s
    | none => s) s
  let s := giveRow i n ks s
  ks.foldl (fun s k => liveInput k (if rowSpent k t r s then
    (fMembers c s).foldl (fun s m => releaseSlot (i + 8 * m) n k s) s else s)) s

/-- R236: the lines of a gap are through: no older picture is in progress, and its own has moved every line up to that of
the packet that passed the values over. Log 100 (DEDUCED). -/
def gapPassed (f : EssFlow) (x : SeqGap) : Bool :=
  f.pics.all (fun (p : EssPic) =>
    if p.tick < x.tick then false
    else if p.tick = x.tick then (List.range (x.line + 1)).all (fun z => (p.line z).moved)
    else true)

/-- R236: values that had not arrived when the lines of their gap were through are counted in LOST_PKTS. Log 100
(DEDUCED). -/
def gapsLost (c : Nat) (s : State) : State :=
  let f := fFlow c s
  let lost := ((f.gaps.filter (gapPassed f)).map (fun (x : SeqGap) => x.left)).sum
  fFlowMod c (fun f => { f with gaps := f.gaps.filter (fun x => !gapPassed f x) }) (fCnt c 4 lost s)

/-- R257: every line of a picture has reached a slot. -/
def picDone (c t : Nat) (s : State) : State :=
  let g := fGeo c s
  match picOf c t s with
  | none => s
  | some p =>
    if (List.range g.rows).all (rowMoved g p) then
      gapsLost c (fFlowMod c (fun f => { f with
        pics := f.pics.filter (fun (p : EssPic) => p.tick != t)
        doneTick := some (max t (f.doneTick.getD 0)) }) (fCnt c 13 1 s))
    else s

/-- R236, R242, R244: a closed line reaches its slot, filled where samples are missing; a row whose lines are all there is
completed and given to its readers. Log 100 (DEDUCED). -/
def moveLine (c t y : Nat) (s : State) : State :=
  match picOf c t s with
  | none => s
  | some p =>
    let g := fGeo c s
    let r := g.rowOf y
    let n := r % fSlots c s
    let l := p.line y
    let got := lineGot g y l.srds
    let v := lineFilled g (ecGrey (fEc c s)) p y
    let s := takeSlot c t r s
    let qs := linePlanes g y
    let s := qs.foldl (fun s q =>
      stageLine c n q (g.lineIn y ((g.planes[q]?).getD (1, 1)).2) ((v[q]?).getD []) (validWord got q) s) s
    let bad := (qs.map (fun q =>
      let w := validWord got q 0 (g.cols q)
      ((List.range (ceilDiv (g.cols q) 256)).filter (fun n => !bit w n)).length)).sum
    let s := if bad = 0 then fCnt c 9 1 s else fCnt c 11 bad (fCnt c 10 1 s)
    let s := if l.ringBytes = 0 then s else hbmAsk 0 0 s
    let s := gapsLost c (picMod c t (fun p => p.setLine y { l with srds := [], ringBytes := 0, moved := true, filled := v }) s)
    let s := (fMembers c s).foldl (fun s m =>
      let i := fWin c s + 8 * m
      match slotOf i n s with
      | some x => setSlot i n { x with arrived := x.arrived + 1 } s
      | none => s) s
    match picOf c t s with
    | none => s
    | some p =>
      if rowMoved g p r then
        let last := (p.line ((g.rowLines r).getLastD y)).filled
        let pair := (p.line ((g.rowLines r).getLastD y - 1)).filled
        let both := (List.range g.planes.length).map (fun q =>
          let x := (last[q]?).getD []
          if x.isEmpty then (pair[q]?).getD [] else x)
        picDone c t (giveRowAll c t r (completeRow c n r both s))
      else s

/-- R242: closed lines of unprotected flows that were written straight into their slot are there at once. Log 101
(DEDUCED). -/
def directLine (c t y : Nat) (s : State) : State :=
  match picOf c t s with
  | none => s
  | some p =>
    let l := p.line y
    if l.closed && !l.moved && l.ringBytes == 0 && !ecProtect (fEc c s) && slotReady c t ((fGeo c s).rowOf y) s then moveLine c t y s
    else s

/-- R236: a line closes. Log 101 (DEDUCED). -/
def closeLine (c t y : Nat) (s : State) : State :=
  directLine c t y (picMod c t (fun p => if (p.line y).closed then p else p.setLine y { p.line y with closed := true }) s)

/-- R236: open lines of a picture below `hi` get a deadline. -/
def giveDeadlines (hi at_ : Nat) (p : EssPic) : EssPic :=
  (List.range hi).foldl (fun p y =>
    let l := p.line y
    if l.closed || l.deadline.isSome then p else p.setLine y { l with deadline := some at_ }) p

/-- Payload octets of a flow in its ring (R243). Log 103 (DESIGN CHOICE). -/
def ringUse (f : EssFlow) : Nat := (f.pics.map (fun (p : EssPic) => (p.lines.map (fun (l : Nat × LineSt) => l.2.ringBytes)).sum)).sum +
  (f.packets.map (fun (x : Nat × Bool × Nat × Bytes) => x.2.2.2.length)).sum

/-- R243: the oldest closed line that waits in the ring. -/
def oldestRing (f : EssFlow) : Option (Nat × Nat) :=
  f.pics.findSome? (fun (p : EssPic) =>
    (List.find? (fun (l : Nat × LineSt) => l.2.closed && !l.2.moved && l.2.ringBytes != 0) p.lines).map (fun l => (p.tick, l.1)))

/-- R243: closed lines that wait are discarded, oldest first, until `n` octets fit. Log 103 (DESIGN CHOICE). -/
def ringRoom (c n : Nat) : (fuel : Nat) → State → State
  | 0, s => s
  | k + 1, s =>
    if ringUse (fFlow c s) + n ≤ fx c 0x1C 4 s * 1024 then s
    else match oldestRing (fFlow c s) with
      | none => s
      | some (t, y) =>
        let s := picMod c t (fun p => p.setLine y { p.line y with srds := [], ringBytes := 0 }) s
        ringRoom c n k (setEvent F.ESS_EVENT_STAGE_OVERRUN 0 89 (fCnt c 12 1 s))

/-! ### The merge (R236, R237) -/

/-- R236: `d`, the place of a sequence value behind top. Log 99 (DEDUCED). -/
def seqBehind (f : EssFlow) (q : Nat) : Nat := ((f.top.getD ((q + 2 ^ 32 - 1) % 2 ^ 32)) + 2 ^ 32 - q) % 2 ^ 32

/-- R236: seen[] and top after an accepted value. Log 99 (DEDUCED). -/
def seqTake (q : Nat) (f : EssFlow) : EssFlow :=
  let top := f.top.getD ((q + 2 ^ 32 - 1) % 2 ^ 32)
  let adv := (q + 2 ^ 32 - top) % 2 ^ 32
  let ahead := decide (2 ^ 31 ≤ seqBehind f q)
  let seen := if !ahead then f.seen
    else if 262144 < adv then []
    else f.seen.filter (fun (x : Nat × Bool) => decide (adv ≤ (x.1 + 262144 - (top + 1) % 262144) % 262144))
  { f with top := some (if ahead then q else top), seen := Tab.put seen (q % 262144) true }

/-- RTP media time of a tick (R237, R247). -/
def media90 (td k : Nat) (s : State) : Nat := tickTime s.cfg td k * 90000 / 10 ^ 9

/-- R237: the tick whose media time lies nearest to an RTP timestamp. -/
def tickOfTs (td ts : Nat) (s : State) : Nat :=
  let m : Nat := nowNs s * 90000 / 10 ^ 9
  let t : Nat := ((m : Int) + signed 32 ((ts + 2 ^ 32 - m % 2 ^ 32) % 2 ^ 32)).toNat
  let k := if tdN s.cfg td = 0 then 0 else t * tdD s.cfg td / (tdN s.cfg td * 90000)
  let far := fun (k : Nat) => let a := media90 td k s; if a < t then t - a else a - t
  [k, k + 1, k + 2].foldl (fun (b k : Nat) => if far k < far b then k else b) (k - 1)

/-- R237: tick k + 2 has been seen. Log 115 (DEDUCED). -/
def tickOver (td k : Nat) (s : State) : Bool := Tab.get false s.time.tickSeen td && decide (k + 2 ≤ tickIdx td s)

/-- R236, R237: a line of the picture of a tick has closed. Log 115 (DEDUCED). -/
def lineShut (c t y : Nat) (s : State) : Bool :=
  let f := fFlow c s
  match picOf c t s with
  | some p => (p.line y).closed
  | none => (match f.doneTick with | some d => decide (t ≤ d) | none => false) || tickOver (ecTd (fEc c s)) t s

/-- Insert a picture by its tick. -/
def insPic (p : EssPic) : List EssPic → List EssPic
  | [] => [p]
  | x :: r => if p.tick < x.tick then p :: x :: r else x :: insPic p r

/-- R236: merge deadline from now on. -/
def mergeAt (c : Nat) (s : State) : Nat := s.time.cclk + ecMergeUs (fEc c s) * 1600

/-- R236: the first packet of a new picture: every open line of those before it gets its deadline. -/
def newPic (c t ts : Nat) (s : State) : State :=
  if (picOf c t s).isSome then s
  else
    let at_ := mergeAt c s
    let g := fGeo c s
    let s := fFlowMod c (fun f => { f with
      pics := insPic ⟨t, ts, []⟩ (f.pics.map (fun (p : EssPic) => if p.tick < t then giveDeadlines g.h at_ p else p)) }) s
    fxSet c 0x48 (leBytes 8 t) s

/-- R236: a value that had been passed over arrives after all, or an advance passes values over. Log 100 (DEDUCED). -/
def gapNote (c t q line : Nat) (s : State) : State :=
  let f := fFlow c s
  let top := f.top.getD ((q + 2 ^ 32 - 1) % 2 ^ 32)
  let adv := (q + 2 ^ 32 - top) % 2 ^ 32
  let gaps := if 2 ^ 31 ≤ seqBehind f q then
      (if adv ≤ 1 then f.gaps else f.gaps ++ [⟨(top + 1) % 2 ^ 32, adv - 1, adv - 1, t, line⟩])
    else f.gaps.map (fun (x : SeqGap) => if (q + 2 ^ 32 - x.first) % 2 ^ 32 < x.span then { x with left := x.left - 1 } else x)
  fFlowMod c (fun f => { f with gaps := gaps }) s

/-- R243: octets of an SRD in the ring that count for line `y`: all of them, or half for each line of a pair. Log 103 (DESIGN
CHOICE). -/
def ringShare (g : EssGeo) (d : Srd) (y : Nat) : Nat :=
  if g.smp ≠ 1 then d.data.length else if y = d.row then d.data.length - d.data.length / 2 else d.data.length / 2

/-- R242, R243: put one SRD into the picture. -/
def storeSrd (c t : Nat) (d : Srd) (s : State) : State :=
  let g := fGeo c s
  let ring := ecProtect (fEc c s) || !slotReady c t (g.rowOf d.row) s
  let s := if ring then s else takeSlot c t (g.rowOf d.row) s
  picMod c t (fun p => (srdLines g d).foldl (fun p y =>
    let l := p.line y
    p.setLine y { l with srds := l.srds ++ [(d.x, d.data)]
                         ringBytes := l.ringBytes + (if ring then ringShare g d y else 0) }) p) s

/-- R236: every sample of a line is present. -/
def lineFull (g : EssGeo) (l : LineSt) : Bool :=
  (List.range g.w).all (fun x => l.srds.any (fun (d : Nat × Bytes) => decide (d.1 ≤ x) && decide (x < d.1 + g.pixels d.2.length)))

/-- R236: store a packet of an ST 2110-20 flow, and what it closes. Log 103 (DESIGN CHOICE). -/
def storePic (c t q : Nat) (r : Rtp) (s : State) : State :=
  let g := fGeo c s
  let ds := srdsOf r.payload
  let ys := (ds.flatMap (srdLines g)).eraseDups
  let hi := ys.foldl max 0
  let s := newPic c t r.ts s
  let s := gapNote c t q ((ys[0]?).getD 0) s
  let s := fFlowMod c (seqTake q) s
  let s := fxSet c 0x40 (leBytes 4 q) (fxSet c 0x44 (leBytes 4 r.ts) s)
  let n := (ds.map (fun d => d.data.length)).sum
  let inRing := ecProtect (fEc c s) || ds.any (fun d => !slotReady c t (g.rowOf d.row) s)
  let s := if inRing then hbmAsk 0 0 (ringRoom c n (g.h * (1 + (fFlow c s).pics.length)) s) else s
  let s := ds.foldl (fun s d => storeSrd c t d s) s
  let at_ := mergeAt c s
  let s := picMod c t (fun p => giveDeadlines (if r.marker then g.h else hi) at_ p) s
  ys.foldl (fun s y => match picOf c t s with
    | some p => if !(p.line y).closed && lineFull g (p.line y) then closeLine c t y s else s
    | none => s) s

/-! ### Coded ingest (R252) -/

/-- R372: add a NAL unit to the access unit in progress; one that does not fit is left out. -/
def auNal (c : Nat) (nal : Bytes) (s : State) : State :=
  let lim := pMaxAu (strm (fx c 6 2 s) s).gop.params
  fFlowMod c (fun f =>
    if lim < f.au.length + 4 + nal.length then { f with auLost := true }
    else { f with au := f.au ++ startCode ++ nal }) s

/-- R252: the access unit in progress is complete: it goes into a pool buffer and to the stream. -/
def auFinish (c : Nat) (s : State) : State :=
  let f := fFlow c s
  let k := fx c 6 2 s
  match f.auTs with
  | none => s
  | some ts =>
    let t := tickOfTs (ecTd (fEc c s)) ts s
    let lost := f.auLost || f.fu.isSome
    let s := fFlowMod c (fun f => { f with au := [], auTs := none, auLost := false, fu := none, doneTick := some t }) s
    let x := strm k s
    if 1023 < k || x.prio != 0 || x.kind != 1 then s
    else if scState k s = 5 ∨ (scState k s = 3 ∧ x.doneTick.any (fun d => decide (t ≤ d)) = true) then
      strmMod k (fun c => { c with ausDiscarded := c.ausDiscarded + 1 }) s
    else if scState k s ≠ 3 then s
    else
      let a := poolAsk (max 1 f.au.length) 127 false s
      if a.1.result ≠ 0 then strmMod k (fun c => { c with ausDiscarded := c.ausDiscarded + 1 }) a.2
      else
        let s := writeMem a.1.addr f.au a.2
        let s := match Tab.find? x.aus t with | some o => poolPut o.1 s | none => s
        liveInput k (strmMod k (fun c => { c with aus := Tab.put c.aus t (a.1.addr, f.au.length, lost) }) s)

/-- R252: the NAL units of an aggregation packet. -/
def apNals (b : Bytes) : (fuel o : Nat) → List Bytes
  | 0, _ => []
  | n + 1, o => if b.length < o + 2 then [] else slice b (o + 2) (fieldBE b o 2) :: apNals b n (o + 2 + fieldBE b o 2)

/-- R252: one packet, in sequence order. Log 108 (DEDUCED). -/
def codedTake (c : Nat) (m : Bool) (ts : Nat) (b : Bytes) (s : State) : State :=
  let codec := (strm (fx c 6 2 s) s).codec
  let s := if (fFlow c s).auTs.any (· != ts) then auFinish c s else s
  let s := fFlowMod c (fun f => { f with auTs := some ts }) s
  let ty := nalType codec b
  let ap := if codec = 1 then 28 else 48
  let fu := if codec = 1 then 29 else 49
  let s := if b.length < 2 then s
    else if ty = ap then (apNals b b.length 2).foldl (fun s n => auNal c n s) s
    else if ty = fu then
      let h := byteAt b 2
      let t := if codec = 1 then h % 32 else h % 64
      let hdr : Bytes := if codec = 1 then [BitVec.ofNat 8 (byteAt b 0), BitVec.ofNat 8 (t * 8 + byteAt b 1 % 8)]
        else [BitVec.ofNat 8 (byteAt b 0 / 128 * 128 + t * 2 + byteAt b 0 % 2), BitVec.ofNat 8 (byteAt b 1)]
      let f := fFlow c s
      let part := if bit h 7 then some (hdr ++ b.drop 3) else f.fu.map (· ++ b.drop 3)
      let lost := if bit h 7 then f.fu.isSome else f.fu.isNone
      let s := fFlowMod c (fun f => { f with fu := part, auLost := f.auLost || lost }) s
      match part with
      | some n => if bit h 6 then auNal c n (fFlowMod c (fun f => { f with fu := none }) s) else s
      | none => s
    else auNal c b s
  if m then auFinish c s else s

/-- R252: packets are taken in sequence order as far as they are there; `n` bounds them. -/
def codedRun (c : Nat) : (n : Nat) → State → State
  | 0, s => s
  | n + 1, s =>
    let f := fFlow c s
    match f.nextSeq.bind (fun q => (Tab.find? f.packets q).map (fun p => (q, p))) with
    | some (q, m, ts, b) =>
      let s := fFlowMod c (fun f => { f with packets := Tab.del f.packets q, nextSeq := some ((q + 1) % 2 ^ 32), gapAt := none }) s
      codedRun c n (codedTake c m ts b s)
    | none => if f.packets.isEmpty || f.gapAt.isSome then s else fFlowMod c (fun f => { f with gapAt := some (mergeAt c s) }) s

/-- R243: packets of a coded flow that wait are discarded, oldest first, until `n` octets fit. Log 103 (DESIGN CHOICE). -/
def codedRoom (c n : Nat) : (fuel : Nat) → State → State
  | 0, s => s
  | k + 1, s =>
    let f := fFlow c s
    match f.packets with
    | [] => s
    | x :: r =>
      if ringUse f + n ≤ fx c 0x1C 4 s * 1024 then s
      else
        let far := fun q => (q + 2 ^ 32 - f.nextSeq.getD x.1) % 2 ^ 32
        let q := r.foldl (fun b (y : Nat × Bool × Nat × Bytes) => if far y.1 < far b then y.1 else b) x.1
        let s := fFlowMod c (fun f => { f with packets := Tab.del f.packets q, auLost := true }) s
        codedRoom c n k (setEvent F.ESS_EVENT_STAGE_OVERRUN 0 89 (fCnt c 4 1 s))

/-- R236, R243, R252: store a packet of an ST 2110-22 flow. Log 110 (DEDUCED). -/
def storeCoded (c q : Nat) (r : Rtp) (s : State) : State :=
  let s := hbmAsk 0 0 (codedRoom c r.payload.length (fFlow c s).packets.length s)
  let s := fFlowMod c (seqTake q) s
  let s := fxSet c 0x40 (leBytes 4 q) (fxSet c 0x44 (leBytes 4 r.ts) s)
  let s := fxSet c 0x48 (leBytes 8 (tickOfTs (ecTd (fEc c s)) r.ts s)) s
  let s := fFlowMod c (fun f => { f with
    packets := Tab.put f.packets q (r.marker, r.ts, r.payload), nextSeq := some (f.nextSeq.getD q) }) s
  codedRun c (1 + (fFlow c s).packets.length) s

/-- R236, R252: the gap before the packets that wait is given up. Log 110 (DEDUCED). -/
def codedGiveUp (c : Nat) (s : State) : State :=
  let f := fFlow c s
  match f.nextSeq, f.packets with
  | some n, x :: r =>
    let far := fun q => (q + 2 ^ 32 - n) % 2 ^ 32
    let q := r.foldl (fun b (y : Nat × Bool × Nat × Bytes) => if far y.1 < far b then y.1 else b) x.1
    let s := fCnt c 4 (far q) s
    let s := fFlowMod c (fun f => { f with nextSeq := some q, gapAt := none, fu := none, auLost := true }) s
    codedRun c (1 + f.packets.length) s
  | _, _ => s

/-! ### A copy (R229, R230, R235, R236, R245) -/

/-- R236: the extended sequence value of a packet: ESN and sequence number, or for ST 2110-22 the value nearest top.
Log 108 (DEDUCED). -/
def seqValue (c : Nat) (r : Rtp) (s : State) : Nat :=
  if ecFormat (fEc c s) = 0 then fieldBE r.payload 0 2 * 65536 + r.seq
  else match (fFlow c s).top with
    | none => r.seq
    | some t => ((t : Int) + signed 16 ((r.seq + 65536 - t % 65536) % 65536) + (2 ^ 32 : Nat)).toNat % 2 ^ 32

/-- R255: ingest takes copies only from the first packet of a new picture on, and none of an earlier picture after that; true
when the copy is to be discarded. Log 113 (DEDUCED). -/
def awaitPic (c : Nat) (r : Rtp) (s : State) : Bool × State :=
  let f := fFlow c s
  let t := tickOfTs (ecTd (fEc c s)) r.ts s
  if !f.waitNew then (decide (t < f.startTick), s)
  else
    let start := match f.skipTick with
      | some k => decide (k < t)
      | none => ecFormat (fEc c s) == 0 && (srdsOf r.payload).any (fun d => d.row == 0 && d.x == 0)
    if start then (false, fFlowMod c (fun f => { f with waitNew := false, startTick := t }) s)
    else (true, fFlowMod c (fun f => { f with skipTick := some (max t (f.skipTick.getD 0)) }) s)

/-- R236: the merge of one copy that passed its checks. -/
def mergeCopy (c : Nat) (r : Rtp) (s : State) : State :=
  let q := seqValue c r s
  let f := fFlow c s
  let d := seqBehind f q
  if 131072 ≤ d ∧ d < 2 ^ 31 then fCnt c 3 1 s
  else if Tab.get false f.seen (q % 262144) && decide (d < 2 ^ 31) then fCnt c 2 1 s
  else if ecFormat (fEc c s) = 0 then
    let t := tickOfTs (ecTd (fEc c s)) r.ts s
    if ((srdsOf r.payload).flatMap (srdLines (fGeo c s))).any (fun y => lineShut c t y s) then fCnt c 3 1 s
    else storePic c t q r s
  else if f.nextSeq.any (fun n => decide (2 ^ 31 ≤ (q + 2 ^ 32 - n) % 2 ^ 32)) then fCnt c 3 1 s
  else storeCoded c q r s

/-- R235, R245, R253 to R255: what an enabled ingest flow does with a copy. Log 114 (DEDUCED). -/
def ingestCopy (c : Nat) (e : EssCopy) (s : State) : State :=
  if e.bad then fCnt c 7 1 s
  else match rtpOf e.bytes with
    | none => fCnt c 5 1 s
    | some r =>
      match srtpIn c r s with
      | (none, s) => s
      | (some r, s) =>
        if !hdrOk c r s then fCnt c 5 1 s
        else
          let x := awaitPic c r s
          if x.1 then fCnt c 8 1 x.2 else mergeCopy c r x.2

/-- A copy's frame as a head that re-enters its slice. -/
def EssCopy.head (e : EssCopy) : Head :=
  { num := e.frame, bytes := e.bytes, ing := e.ingMac, slice := e.ctx % 8, bad := e.bad, tagged := e.tagged, tIn := e.tIn,
    fromPort := !e.viaFaush, srcDev := e.srcDev, viaFaush := e.viaFaush }

/-- R230: a copy without a context. Log 114 (DEDUCED). -/
def noContext (e : EssCopy) (s : State) : State :=
  let s := setEvent F.ESS_EVENT_CTX_OVERFLOW 0 88 (bump F.ESS_CTX_OVERFLOW_COUNT 0 s)
  let h := e.head
  if e.byEm then
    copyGone e.frame false (actDefault h (parseFrame s.cfg e.bytes) (fget F.PL_PORT_CFG0_DEFAULT_VRF e.ingMac s) e.l2 e.vlan none false s)
  else endCopy h.copy .dropped s

/-- R229, R230: a copy reaches the essence engine. Log 113 (DEDUCED). Log 114 (DEDUCED). -/
def essTake (e : EssCopy) (s : State) : State :=
  let c := e.ctx
  let st := fState c s
  if st = 0 || !fIngest c s then noContext e s
  else
    let legB := e.ingMac == fx c 0x0C 1 s && e.srcDev == fx c 0x0B 1 s
    let s := fCnt c (b2n legB) 1 s
    let s := if st = 1 && fEnabled c s then ingestCopy c e s else fCnt c 8 1 s
    endCopy e.head.copy .essence s

/-- ESSENCE_COPY (R236, R246): the attach delivers the oldest copy of a slice. Log 116 (DEDUCED). -/
def execEssenceCopy (x : Fin 8) (s : State) : Host.Outcome State Fault Refusal :=
  .next (match Tab.get [] s.pipe.attach x.val with
    | [] => s
    | e :: r => essTake e { s with pipe := { s.pipe with attach := Tab.set [] s.pipe.attach x.val r } })

/-- LINE_DEADLINE (R236): the merge deadline of a line passes: it and the open lines before it whose deadline has passed
close; for a coded flow, the gap before the packets that wait is given up. -/
def execLineDeadline (x : Ctx) (line : Nat) (s : State) : Host.Outcome State Fault Refusal :=
  let c := x.val
  let f := fFlow c s
  .next (if fState c s ≠ 1 || !fEnabled c s || !fIngest c s then s
    else if ecFormat (fEc c s) ≠ 0 then
      match f.gapAt with
      | some t => codedGiveUp c (reachCclk t s)
      | none => s
    else match f.pics.findSome? (fun (p : EssPic) =>
        if (p.line line).closed then none else (p.line line).deadline.map (fun d => (p, d))) with
      | none => s
      | some (p, d) =>
        let s := reachCclk d s
        ((List.range (line + 1)).filter (fun y => !(p.line y).closed &&
          (match (p.line y).deadline with | some d => decide (d ≤ s.time.cclk) | none => false))).foldl (fun s y => closeLine c p.tick y s) s)

/-- PICTURE_CLOSE (R237): tick k + 2 has been seen: the open lines of picture k close. -/
def execPictureClose (x : Ctx) (s : State) : Host.Outcome State Fault Refusal :=
  let c := x.val
  .next (match (fFlow c s).pics.find? (fun (p : EssPic) => tickOver (ecTd (fEc c s)) p.tick s) with
    | none => s
    | some p =>
      ((List.range (fGeo c s).h).filter (fun y => !(p.line y).closed)).foldl (fun s y => closeLine c p.tick y s) s)

/-- R242: the first closed line that waits and whose slot can be had. -/
def nextMove (c : Nat) (s : State) : Option (Nat × Nat) :=
  let g := fGeo c s
  (fFlow c s).pics.findSome? (fun (p : EssPic) =>
    (List.find? (fun (l : Nat × LineSt) => slotReady c p.tick (g.rowOf l.1) s)
      (p.lines.filter (fun (l : Nat × LineSt) => l.2.closed && !l.2.moved))).map (fun l => (p.tick, l.1)))

/-- LINE_TO_SLOT (R242): the engine moves the oldest closed line whose slot is free from the ring into its slot. -/
def execLineToSlot (x : Ctx) (s : State) : Host.Outcome State Fault Refusal :=
  .next (match nextMove x.val s with
    | some (t, y) => moveLine x.val t y s
    | none => s)

/-- SLOT_RELEASE (R242): every reader that has read the row releases it; once none holds it the slot is free. A stream
lets go of a row that no later CTU row needs (R310), an egress flow when the row's last packet has left. -/
def execSlotRelease (e : Eng) (w : Win) (slot : Nat) (s : State) : Host.Outcome State Fault Refusal :=
  let i := winIdx e.val w.val
  .next (match slotOf i slot s with
    | none => s
    | some x =>
      if !x.given then s
      else
        let s := (x.readers.filter (fun r => if r < 1024 then rowSpent r x.tick x.row s else decide (x.tick < egressTick (r - 1024) s))).foldl
          (fun s r => releaseSlot i slot r s) s
        flushEngine (gangHead s.cfg e.val) s)

end Sys2Proof.Machine
end

