-- ==== Sys2Proof/Machine/EssFlows.lean ====
section
/-! DEFINITION. Essence egress (R247 to R251) and the flow commands (R231 to R234, R254 to R256). -/
namespace Sys2Proof.Machine

/-! ### Building and sending a packet (R247, R250, R253) -/

/-- R250: a frame from a header template and an RTP packet: IP lengths, IPv4 header checksum and UDP checksum. Log
107 (DESIGN CHOICE). -/
def frameOf (tmpl rtp : Bytes) : Bytes :=
  let o := typeOff tmpl + 2
  let v6 := fieldBE tmpl (o - 2) 2 == 0x86DD
  let u := if v6 then o + 40 else o + byteAt tmpl o % 16 * 4
  let ul := rtp.length + 8
  let b := tmpl ++ rtp
  let b := splice b (u + 4) (beBytes 2 ul ++ [0#8, 0#8])
  let b := if v6 then splice b (o + 4) (beBytes 2 ul) else fixIp4 (splice b (o + 2) (beBytes 2 (u - o + ul))) o
  let pseudo := (if v6 then slice b (o + 8) 32 else slice b (o + 12) 8) ++ beBytes 2 17 ++ beBytes 2 ul
  let ck := inetChecksum (pseudo ++ slice b u ul)
  let b := splice b (u + 6) (beBytes 2 (if ck = 0 then 0xFFFF else ck))
  if b.length < 60 then fitTo 60 b else b

/-- R250: a frame enters its slice at S4; the EGR field `e` stands in place of an EM action. Log 106 (DEDUCED). Log
107 (DESIGN CHOICE). -/
def egrSend (c e : Nat) (b : Bytes) (s : State) : State :=
  let f := newFlight 0xFF false false s
  let t := tagDraw (c % 8) f.2
  let h : Head := { num := f.1, bytes := b, ing := 0xFF, slice := c % 8, bad := false, tagged := t.1, tIn := nowNs s,
                    fromPort := false, srcDev := selfDev s, viaFaush := false, cls := some (bits e 10 8) }
  let s := flowCnt 0 h.len t.2
  let p := parseFrame s.cfg b
  let target := e / 2 ^ 32
  let s := match e % 256 with
    | 1 => replicateAs h p.l3Hdr target false h.cls s
    | 2 => toMember h p false target none false s
    | 3 =>
      let r := routeStage h p (target % 65536) s
      if routePunts p b r.1 then puntHead h r.2
      else match r.1 with
        | some res => toRoute h p res none false r.2
        | none => routeMissed h r.2
    | _ => dropHead h s
  copyGone f.1 false s

/-- The extended sequence number of the next packet; that of a flow's first packet the manual leaves open. Log 104
(DESIGN CHOICE). -/
def nextSeqOut (c : Nat) (s : State) : Nat × State :=
  match (fFlow c s).top with
  | some q => ((q + 1) % 2 ^ 32, s)
  | none => let x := freshValue 3 s; (x.1 % 2 ^ 32, x.2)

/-- R253: protect a packet of an SRTP flow. -/
def srtpOut (c roc seq : Nat) (hdr payload : Bytes) (s : State) : Bytes :=
  if !ecSrtp (fEc c s) then hdr ++ payload
  else
    let key := srtpKey c 0 s
    hdr ++ fitTo (payload.length + 16) (Config.gcmSeal (key.take 32) (srtpIv key (fx c 0x10 4 s) roc seq) hdr payload)

/-- R247, R250, R253: one RTP packet leaves on both legs. `body` is the payload behind the RTP header, which may name the
extended sequence number. Log 105 (DEDUCED). -/
def rtpSend (c ts : Nat) (m : Bool) (body : Nat → Bytes) (s : State) : State :=
  let q := nextSeqOut c s
  let s := q.2
  let seq := q.1 % 65536
  let s := if seq = 0 ∧ (fFlow c s).top.isSome then fxSet c 0x3C (leBytes 4 (fx c 0x3C 4 s + 1)) s else s
  let hdr : Bytes := [0x80#8, BitVec.ofNat 8 (b2n m * 128 + fx c 9 1 s % 128)] ++ beBytes 2 seq ++ beBytes 4 ts ++ beBytes 4 (fx c 0x10 4 s)
  let p := srtpOut c (fx c 0x3C 4 s) seq hdr (body q.1) s
  let s := fFlowMod c (fun f => { f with top := some q.1 }) s
  let s := fCnt c 14 1 (fxSet c 0x40 (leBytes 4 q.1) (fxSet c 0x44 (leBytes 4 ts) s))
  let leg := fun (off lenOff at_ : Nat) (s : State) =>
    egrSend c (fx c off 8 s) (frameOf (slice (fctx c s) at_ (min 80 (fx c lenOff 2 s))) p) s
  let s := leg 0x28 0x50 0x60 s
  if fx c 0x30 1 s = 0 then s else leg 0x30 0x52 0xB0 s

/-- R254: egress uses the new key from the first packet of a picture. -/
def keyTurn (c : Nat) (s : State) : State :=
  match (fFlow c s).newKey with
  | none => s
  | some _ =>
    let k := srtpKey c 1 s
    fFlowMod c (fun f => { f with newKey := none })
      { s with ess := { s.ess with srtp := Tab.del (Tab.set [] s.ess.srtp c k) (65536 + c) } }

/-! ### ST 2110-20 (R247 to R249) -/

/-- R247: lines, or line pairs for 4:2:0, of a picture. Log 105 (DEDUCED). -/
def EssGeo.packLines (g : EssGeo) : Nat := if g.smp = 1 then g.h / 2 else g.h
/-- R247: pgroups of a line, or line pair. -/
def EssGeo.packGroups (g : EssGeo) : Nat := ceilDiv g.w g.pgPix
/-- R247: pgroups that a packet holds at most. Log 105 (DEDUCED). -/
def packMax (c : Nat) (g : EssGeo) (s : State) : Nat := max 1 ((fx c 0x14 2 s - 8) / g.pgOct)
/-- R247: P, the packets of a line. -/
def packPer (c : Nat) (g : EssGeo) (s : State) : Nat := ceilDiv g.packGroups (packMax c g s)

/-- R248: TRS × `i` in ns from the first packet of a picture. -/
def trsAt (c i : Nat) (s : State) : Nat :=
  let ec := fEc c s
  let g := fGeo c s
  let n := g.packLines * packPer c g s
  let num := if ecSender ec = 0 then fx c 0x20 2 s else 1
  let den := if ecSender ec = 0 then fx c 0x22 2 s else 1
  i * tdN s.cfg (ecTd ec) * 10 ^ 9 * num / max 1 (tdD s.cfg (ecTd ec) * den * n)

/-- One staged sample of a window. -/
def stagedSample (c n q at_ x : Nat) (s : State) : Nat :=
  let g := fGeo c s
  let pl := (g.planes[q]?).getD (1, 1)
  leNat (winRead (fWin c s) (n * g.slotBytes + g.planeOff q + at_ * g.lineBytes pl + x * g.bps) g.bps s)

/-- R238, R240, R247: the samples of `cnt` pgroups of a line from pixel `x`, in transmission order. -/
def packSamples (c n y x cnt : Nat) (s : State) : List Nat :=
  let g := fGeo c s
  let at_ := fun q y => g.lineIn y ((g.planes[q]?).getD (1, 1)).2
  let get := fun (q y x : Nat) => if x < g.cols q then stagedSample c n q (at_ q y) x s % 2 ^ g.depth else 0
  let pix := cnt * g.pgPix
  match g.smp with
  | 0 => (List.range (pix / 2)).flatMap (fun i => [get 1 y (x / 2 + i), get 0 y (x + 2 * i), get 2 y (x / 2 + i), get 0 y (x + 2 * i + 1)])
  | 1 => (List.range (pix / 2)).flatMap (fun i =>
      [get 0 y (x + 2 * i), get 0 y (x + 2 * i + 1), get 0 (y + 1) (x + 2 * i), get 0 (y + 1) (x + 2 * i + 1),
        get 1 y (x / 2 + i), get 2 y (x / 2 + i)])
  | 2 => (List.range pix).flatMap (fun i => [get 1 y (x + i), get 0 y (x + i), get 2 y (x + i)])
  | 3 => (List.range pix).flatMap (fun i => [get 2 y (x + i), get 0 y (x + i), get 1 y (x + i)])
  | 4 => (List.range pix).map (fun i => get 0 y (x + i))
  | _ => (List.range pix).map (fun i => if x + i < g.w then get 0 y ((x + i) % 2 * (g.w / 2) + (x + i) / 2) else 0)

/-- Samples of `d` bits as bytes, in transmission order. -/
def packBits (d : Nat) (v : List Nat) : Bytes := beBytes (v.length * d / 8) (v.foldl (fun a x => a * 2 ^ d + x) 0)

/-- R247: the payload of packet `i` of a picture whose row stands in slot `n`. -/
def packBody (c n i seq : Nat) (s : State) : Bytes :=
  let g := fGeo c s
  let per := packPer c g s
  let y := i / per * (if g.smp = 1 then 2 else 1)
  let g0 := i % per * packMax c g s
  let cnt := min (packMax c g s) (g.packGroups - g0)
  let x := g0 * g.pgPix
  beBytes 2 (seq / 65536) ++ beBytes 2 (cnt * g.pgOct) ++ beBytes 2 y ++ beBytes 2 x ++
    fitTo (cnt * g.pgOct) (packBits g.depth (packSamples c n y x cnt s))

/-- R242: an egress flow releases the rows of pictures that it is done with. -/
def egressDone (c : Nat) (s : State) : State :=
  (s.ess.slots.map (·.1)).foldl (fun s k => match Tab.find? s.ess.slots k with
    | some x => if x.readers.contains (1024 + c) && decide (x.tick < egressTick c s) then releaseSlot (k / 4096) (k % 4096) (1024 + c) s else s
    | none => s) s

/-- A released slot may let rows in. -/
def slotsMoved (c : Nat) (s : State) : State := flushEngine (gangHead s.cfg (fx c 4 1 s)) s

/-- The flow is an enabled egress flow of a format whose tick domain runs. -/
def egressOn (c fmt : Nat) (s : State) : Bool :=
  fState c s == 1 && fEnabled c s && !fIngest c s && ecFormat (fEc c s) == fmt && tdN s.cfg (ecTd (fEc c s)) != 0

/-- R249: the instant at which what is left of the picture of tick `k` is abandoned. -/
def truncAt (c k : Nat) (s : State) : Nat := tickTime s.cfg (ecTd (fEc c s)) (k + 1) + fx c 0x18 4 s

/-- EGRESS_PACKET_DUE (R248, R249): the next packet of the picture leaves once its line is committed and it is due. -/
def egressPacket (c : Nat) (s : State) : State :=
  let f := fFlow c s
  let g := fGeo c s
  let k := egressTick c s
  let per := packPer c g s
  let total := g.packLines * per
  let y := f.pkt / max 1 per * (if g.smp = 1 then 2 else 1)
  let r := g.rowOf y
  let n := r % fSlots c s
  match slotOf (fWin c s) n s with
  | none => s
  | some x =>
    if !x.given || x.tick != k || x.row != r || total = 0 then s
    else
      let s := reachPtp (tickTime s.cfg (ecTd (fEc c s)) k + fx c 0x18 4 s + trsAt c f.pkt s) s
      if nowNs s < tickTime s.cfg (ecTd (fEc c s)) k + fx c 0x18 4 s + trsAt c f.pkt s ∨ truncAt c k s ≤ nowNs s then s
      else
        let s := if f.pkt = 0 then keyTurn c (fxSet c 0x48 (leBytes 8 k) s) else s
        let last := f.pkt + 1 == total
        let s := rtpSend c (media90 (ecTd (fEc c s)) k s % 2 ^ 32) last (fun q => packBody c n f.pkt q s) s
        let y' := (f.pkt + 1) / max 1 per * (if g.smp = 1 then 2 else 1)
        let later := ((List.range g.h).filter (fun z => decide (y' ≤ z))).any (fun z => g.rowOf z == r)
        let s := if later then s else slotsMoved c (releaseSlot (fWin c s) n (1024 + c) s)
        if last then
          slotsMoved c (egressDone c (fFlowMod c (fun f => { f with picTick := some (k + 1), pkt := 0 }) (fCnt c 13 1 s)))
        else fFlowMod c (fun f => { f with picTick := some k, pkt := f.pkt + 1 }) s

/-- EGRESS_PACKET_DUE (R248). -/
def execEgressPacketDue (x : Ctx) (s : State) : Host.Outcome State Fault Refusal :=
  .next (if egressOn x.val 0 s then egressPacket x.val s else s)

/-- EGRESS_PIC_TRUNC (R249): at t(k + 1) + TRO_NS the rest of the picture is abandoned. -/
def execEgressPicTrunc (x : Ctx) (s : State) : Host.Outcome State Fault Refusal :=
  let c := x.val
  .next (if !egressOn c 0 s then s
    else
      let k := egressTick c s
      let s := reachPtp (truncAt c k s) s
      if nowNs s < truncAt c k s then s
      else slotsMoved c (egressDone c (fFlowMod c (fun f => { f with picTick := some (k + 1), pkt := 0 }) (fCnt c 15 1 s))))

/-! ### ST 2110-22 (R251, R330, R335) -/

/-- R251: the stream whose coded output window the flow reads. -/
def codedSource (c : Nat) (s : State) : Option Nat :=
  (List.find? (fun (x : Nat × Stream) => x.2.kind == 0 && x.2.prio == 0 && decide (2 ≤ scState x.1 s) &&
    pOutMode x.2.gop.params != 0 && outWin x.1 s == fWin c s) s.coding.sc).map (·.1)

/-- Bytes of a coded output window from position `p` on. -/
def codedBytes (c p n : Nat) (s : State) : Bytes :=
  let size := winSize s (fWin c s)
  winRead (fWin c s) (if size = 0 then 0 else p % size) n s

/-- R251: the header of a fragmentation unit behind the NAL unit header `h`. -/
def fuHead (codec : Nat) (h : Bytes) (first fin lastVcl : Bool) : Bytes :=
  if codec = 1 then
    [BitVec.ofNat 8 (byteAt h 0), BitVec.ofNat 8 (29 * 8 + byteAt h 1 % 8),
      BitVec.ofNat 8 (128 * b2n first + 64 * b2n fin + 32 * b2n lastVcl + byteAt h 1 / 8)]
  else
    [BitVec.ofNat 8 (byteAt h 0 / 128 * 128 + 98 + byteAt h 0 % 2), BitVec.ofNat 8 (byteAt h 1),
      BitVec.ofNat 8 (128 * b2n first + 64 * b2n fin + byteAt h 0 / 2 % 64)]

/-- R19, R251: one bit in the units of a flow's bucket. -/
def bucketBit : Nat := 2 ^ 28 * 1000000

/-- R19, R251: tokens of a flow at the present PTP time; the burst is 8 packets of MAX_PAYLOAD. Log 109 (DEDUCED). -/
def codedTokens (c : Nat) (s : State) : Nat :=
  let f := fFlow c s
  min (8 * 8 * fx c 0x14 2 s * bucketBit) (f.bucket + (s.time.ptp - f.bucketAt) * fx c 0x24 4 s)

/-- R251: wait until the bucket holds a payload of `len` bytes. Log 109 (DEDUCED). -/
def codedWait (c len : Nat) (s : State) : State :=
  let rate := fx c 0x24 4 s
  let need := 8 * len * bucketBit
  if rate = 0 ∨ need ≤ codedTokens c s then s
  else reachPtp (ceilDiv (s.time.ptp + ceilDiv (need - codedTokens c s) rate) (2 ^ 28)) s

/-- R251: the flow may send a payload of `len` bytes: it has no cap, or the bucket holds it; a stopped time unit fills no
bucket. -/
def codedMay (c len : Nat) (s : State) : Bool := fx c 0x24 4 s == 0 || decide (8 * len * bucketBit ≤ codedTokens c s)

/-- R251: take a payload of `len` bytes from the bucket. Log 109 (DEDUCED). -/
def codedPay (c len : Nat) (s : State) : State :=
  if fx c 0x24 4 s = 0 then s
  else fFlowMod c (fun f => { f with bucket := codedTokens c s - 8 * len * bucketBit, bucketAt := s.time.ptp }) s

/-- R335: an access unit of which unsent bytes were overwritten is abandoned; what it has committed is passed over.
Log 108 (DEDUCED). -/
def codedSkip (c : Nat) (ns : List NalPos) (s : State) : State :=
  let f := fFlow c s
  if !f.skipAu then s
  else
    let mine := ns.filter (fun (n : NalPos) => some n.tick == f.picTick)
    let stop := mine.foldl (fun m (n : NalPos) => max m n.stop) f.sent
    let ended := mine.any (fun (n : NalPos) => n.last && n.whole) || ns.any (fun (n : NalPos) => decide (f.picTick.getD 0 < n.tick))
    fFlowMod c (fun f => { f with sent := stop, skipAu := !ended, fragged := false }) s

/-- R251: a payload `b` leaves, up to position `stop` of the window; `fragged` says that its NAL unit goes on. -/
def codedSend (c : Nat) (n : NalPos) (m : Bool) (b : Bytes) (stop : Nat) (fragged : Bool) (s : State) : State :=
  let s := codedWait c b.length s
  if !codedMay c b.length s then s
  else
    let s := if (fFlow c s).picTick = some n.tick then s else keyTurn c (fxSet c 0x48 (leBytes 8 n.tick) s)
    let s := fFlowMod c (fun f => { f with picTick := some n.tick }) s
    let s := rtpSend c (media90 (ecTd (fEc c s)) n.tick s % 2 ^ 32) m (fun _ => b) (codedPay c b.length s)
    let s := fFlowMod c (fun f => { f with sent := stop, fragged := fragged }) s
    if m then fCnt c 13 1 s else s

/-- R251, R330: send the next packet of a NAL unit. -/
def codedNal (c k : Nat) (n : NalPos) (s : State) : State :=
  let f := fFlow c s
  let mp := fx c 0x14 2 s
  if n.whole && !f.fragged && decide (n.stop - n.first ≤ mp) then
    codedSend c n n.last (codedBytes c n.first (n.stop - n.first) s) n.stop false s
  else
    let at_ := if f.fragged then f.sent else n.first + 2
    let cnt := min (mp - 3) (n.stop - at_)
    let fin := n.whole && at_ + cnt == n.stop
    if cnt = 0 && !fin then s
    else
      let b := fuHead (strm k s).codec (codedBytes c n.first 2 s) (!f.fragged) fin (fin && n.last) ++ codedBytes c at_ cnt s
      codedSend c n (fin && n.last) b (at_ + cnt) (!fin) s

/-- R251, R335: the next packet of a coded egress flow. -/
def codedPacket (c : Nat) (s : State) : State :=
  match codedSource c s with
  | none => s
  | some k =>
    let x := strm k s
    let s := if x.outPos < (fFlow c s).sent then fFlowMod c (fun f => { f with sent := 0, skipAu := false, fragged := false }) s else s
    let ns := x.nals.filter (fun (n : NalPos) => decide ((fFlow c s).startTick ≤ n.tick))
    let s := codedSkip c ns s
    let f := fFlow c s
    match ns.find? (fun (n : NalPos) => decide (f.sent < n.stop) || (f.fragged && n.whole && f.sent == n.stop)) with
    | none => s
    | some n =>
      if f.skipAu then s
      else if max n.first f.sent + winSize s (fWin c s) < x.outPos then
        codedSkip c ns (fFlowMod c (fun f => { f with skipAu := true, picTick := some n.tick }) (fCnt c 15 1 s))
      else if !n.whole && !pUll x.gop.params then s
      else if !n.whole && decide (n.stop < n.first + 2) then s
      else codedNal c k n s

/-- CODED_PACKET_SEND (R251): the flow sends its next packet. -/
def execCodedPacketSend (x : Ctx) (s : State) : Host.Outcome State Fault Refusal :=
  .next (if egressOn x.val 1 s then codedPacket x.val s else s)

/-! ### Commands (R231 to R234, R254 to R256) -/

/-- The context image in ESS_ARG. -/
def essArg (s : State) : Bytes := (List.range 64).flatMap (fun i => leBytes 4 (fget F.ESS_ARG_DATA i s))

/-- R233: return a context image in ESS_ARG. -/
def essArgPut (b : Bytes) (s : State) : State :=
  (List.range 64).foldl (fun s i => fset F.ESS_ARG_DATA i (fieldLE b (4 * i) 4) s) s

/-- R71: the pending delta changes an essence class. -/
def classFrozen (k : Nat) (s : State) : Bool :=
  flag F.IMG_STATUS_DELTA_PENDING 0 s && secHas s.loader.pend 7 && essClass s.loader.pend k != essClass s.cfg k

/-- R234: byte, half and word of a context image. -/
def im (b : Bytes) (off n : Nat) : Nat := fieldLE b off n

/-- R232 step 1, R309: the ranges of a context image; `ec` is the record of its class. Log 111 (DEDUCED). Log 215
(DEDUCED). -/
def imgRange (b ec : Bytes) (s : State) : Bool :=
  let e := im b 4 1
  let st := im b 6 2
  let rl := im b 8 1
  let coded := ecFormat ec == 1
  let egress := ecDir ec == 1
  let named := !(coded && !egress)
  let i := winIdx e (im b 5 1)
  let open_ := decide (st < 1024) && decide (2 ≤ scState st s)
  let ctu := if open_ then pCtu (strm st s).gop.params else 1
  let p := (strm st s).gop.params
  decide (e < 48) && decide (im b 5 1 < 8) && (decide (st < 1024) || st == 0xFFFF) &&
    (rl == 32 || rl == 64 || rl == 128) && (egress || coded || rl % max 1 ctu == 0) &&
    decide (96 ≤ im b 9 1) && decide (im b 9 1 ≤ 127) &&
    decide (256 ≤ im b 0x14 2) && decide (im b 0x14 2 ≤ 8900) && decide (42 ≤ im b 0x50 2) && decide (im b 0x50 2 ≤ 80) &&
    decide (42 ≤ im b 0x52 2) && decide (im b 0x52 2 ≤ 80) && !(ceUse s.cfg e == 1 && ceTd s.cfg e != ecTd ec) &&
    (egress || coded || !open_ || (strm st s).kind != 0 || (strm st s).prio != 0 || pSource p != 1 || feedFits p ec) &&
    (!named || (gangHead s.cfg e == e && winExists s i &&
      (coded || decide (2 ≤ (geoOf ec rl).nslot (winSize s i)))))

/-- R232 step 2: the window is claimed for something else, or another open ingest context writes to it. Log 112
(DEDUCED). Log 117 (DEDUCED). -/
def imgConflict (c : Option Nat) (b ec : Bytes) (s : State) : Bool :=
  let coded := ecFormat ec == 1
  let egress := ecDir ec == 1
  let i := winIdx (im b 4 1) (im b 5 1)
  let u := winUse s i
  let fits := if coded then u == 1 else if egress then u == 0 || u == 2 else u == 0
  if coded && !egress then false
  else
    (match winClaim s.cfg (im b 4 1) (im b 5 1) with | some r => wcClass r != im b 1 1 | none => false) || !fits ||
      (!egress && (s.ess.ctx.map (·.1)).any (fun k => some k != c && fState k s != 0 && fIngest k s && ecFormat (fEc k s) == 0 && fWin k s == i))

/-- R232 step 4: the context feeds egress from a sealed stream. -/
def sealedSource (b ec : Bytes) (s : State) : Bool :=
  let st := im b 6 2
  ecDir ec == 1 && ((decide (st < 1024) && decide (2 ≤ scState st s) && (strm st s).sealedS) ||
    flag F.CE_WIN_STATUS_SEALED (winIdx (im b 4 1) (im b 5 1)) s)

/-- R232: the checks of OPEN and BIND; 0 when all pass. Log 111 (DEDUCED). Log 112 (DEDUCED). -/
def imgCheck (c : Option Nat) (b : Bytes) (s : State) : Nat :=
  match essClass s.cfg (im b 1 1) with
  | none => 6
  | some ec =>
    if !imgRange b ec s then 6
    else if imgConflict c b ec s then 3
    else if ecSrtp ec && !keyUsable (im b 0x38 4) useSrtp 0 s then 7
    else if sealedSource b ec s && !ecSrtp ec then 9
    else if classFrozen (im b 1 1) s || engineFrozen (im b 4 1) s then 1
    else 0

/-- R243: RING_KIB of a flow of a class. -/
def ringKib (ec : Bytes) (s : State) : Nat :=
  if ecDir ec = 1 then 0
  else if ecFormat ec = 1 then 16384
  else
    let g := geoOf ec 32
    let pic := g.packGroups * g.pgOct * g.packLines
    let td := ecTd ec
    let n := tdN s.cfg td * 1000000
    ceilDiv (pic * (n + ecMergeUs ec * tdD s.cfg td)) (n * 65536) * 64

/-- R496: session key and salt of a handle. -/
def srtpSession (h : Nat) (s : State) : Bytes := match keyRec h s with | some r => fitTo 44 (Config.srtpKdf (krKey r)) | none => []

/-- R496: derive a flow's key at OPEN and BIND. -/
def keyLoad (c : Nat) (s : State) : State :=
  if ecSrtp (fEc c s) then { s with ess := { s.ess with srtp := Tab.set [] s.ess.srtp c (srtpSession (fx c 0x38 4 s) s) } } else s

/-- R257: OPEN clears a context's counters. -/
def clearCounters (c : Nat) (s : State) : State :=
  (List.range 16).foldl (fun s k => cntSet (c * 128 + k * 8) 0 s) s

/-- R234: the flags that a context copies from its class. -/
def classFlags (ec : Bytes) : Nat := 4 * b2n (ecProtect ec) + 8 * b2n (ecSrtp ec) + 32 * b2n (ecGrey ec)

/-- R231, R232, R233: OPEN: its result, DETAIL and effect. -/
def essOpenDo (s : State) : (Nat × Nat) × State :=
  let b := essArg s
  let st := imgCheck none b s
  if st ≠ 0 then ((st, 0), s)
  else
    let ec := (essClass s.cfg (im b 1 1)).getD []
    let kib := ringKib ec s
    let inUse := (s.ess.ctx.map (·.1)).filter (fun c => fState c s != 0)
    let place := (List.range 65536).find? (fun c => fState c s == 0)
    let c := place.getD 0
    let cause := if place.isNone then 1
      else if ecMaxFlows ec ≠ 0 ∧ ecMaxFlows ec ≤ (inUse.filter (fun k => fClass k s == im b 1 1)).length then 2
      else if fget F.ESS_RING_FREE_KIB 0 s < kib then 3 else 0
    if cause ≠ 0 then ((4, cause), setEvent F.ESS_EVENT_CTX_OVERFLOW 0 88 (bump F.ESS_OPEN_REFUSED_COUNT 0 s))
    else
      let img := leBytes 1 1 ++ slice b 1 1 ++ leBytes 2 (classFlags ec) ++ slice b 4 9 ++ leBytes 3 0 ++ slice b 0x10 6 ++ leBytes 2 0 ++
        slice b 0x18 4 ++ leBytes 4 kib ++ slice b 0x20 28 ++ leBytes 20 0 ++ slice b 0x50 4 ++ leBytes 12 0 ++ slice b 0x60 160
      let s := { s with ess := { s.ess with ctx := Tab.put s.ess.ctx c (fitTo 256 img), flow := Tab.del s.ess.flow c } }
      let s := fset F.ESS_RING_FREE_KIB 0 (fget F.ESS_RING_FREE_KIB 0 s - kib) (clearCounters c s)
      ((0, 0), sealWindows (keyLoad c (fset F.ESS_CMD_CTX_CTX 0 c s)))

/-- R234: a context as READ and OPEN return it. -/
def essImage (c : Nat) (s : State) : Bytes :=
  let b := fitTo 256 (fctx c s)
  let st := im b 6 2
  let sld := decide (st < 1024) && decide (2 ≤ scState st s) && (strm st s).sealedS && fState c s != 0
  splice b 2 (leBytes 2 (im b 2 2 % 16 + 16 * b2n sld + im b 2 2 / 32 * 32))

/-- R255: an ENABLE carried out starts the flow from a full reinitialisation. Log 113 (DEDUCED). Log 192 (DEDUCED). -/
def essEnableDo (c : Nat) (s : State) : State :=
  let f := fFlow c s
  let td := ecTd (fEc c s)
  let s := flowDiscard c s
  let start := if Tab.get false s.time.tickSeen td then tickIdx td s + 1 else firstTickAt s.cfg td (nowCeil s)
  fFlag c 0 true (fFlag c 1 false (fFlowMod c (fun _ => { EssFlow.init with
    waitNew := fIngest c s, startTick := if fIngest c s then 0 else start, oldKey := f.oldKey, newKey := f.newKey
    srtpTop := f.srtpTop, bucket := 8 * 8 * fx c 0x14 2 s * bucketBit, bucketAt := s.time.ptp }) s))

/-- R233, R254: REKEY. -/
def essRekeyDo (c : Nat) (s : State) : Nat × State :=
  let h := fieldLE (essArg s) 0x38 4
  if !ecSrtp (fEc c s) then (0, fxSet c 0x38 (leBytes 4 h) s)
  else if !keyUsable h useSrtp 0 s then (7, s)
  else
    let old := fx c 0x38 4 s
    let k := srtpSession h s
    let s := fxSet c 0x38 (leBytes 4 h) s
    if fIngest c s then
      let s := { s with ess := { s.ess with srtp := Tab.set [] (Tab.set [] s.ess.srtp (65536 + c) (srtpKey c 0 s)) c k } }
      (0, fFlowMod c (fun f => { f with oldKey := some (old, none) }) s)
    else (0, fFlowMod c (fun f => { f with newKey := some h }) { s with ess := { s.ess with srtp := Tab.set [] s.ess.srtp (65536 + c) k } })

/-- R232, R233: BIND. -/
def essBindDo (c : Nat) (s : State) : Nat × State :=
  let a := essArg s
  let b := fitTo 256 (fctx c s)
  let b := splice b 4 (slice a 4 5)
  let b := splice b 0x28 (slice a 0x28 16)
  let b := splice b 0x50 (slice a 0x50 4)
  let b := splice b 0x60 (slice a 0x60 160)
  let st := imgCheck (some c) b s
  if st ≠ 0 then (st, s)
  else
    let s := { s with ess := { s.ess with ctx := Tab.put s.ess.ctx c b } }
    (0, sealWindows (unsealWindows (keyLoad c s)))

/-- R233: the result of a command. -/
def essResult (r d : Nat) (s : State) : State := fset F.ESS_CMD_DETAIL 0 d (fset F.ESS_CMD_RESULT 0 r s)

/-- R233: run one command on the context that ESS_CMD_CTX names. Log 156 (DEDUCED). -/
def essCommand (op : Nat) (s : State) : State :=
  let c := fget F.ESS_CMD_CTX_CTX 0 s
  let st := fState c s
  match op with
  | 1 =>
    let x := essOpenDo s
    let s := if x.1.1 = 0 then essArgPut (essImage (fget F.ESS_CMD_CTX_CTX 0 x.2) x.2) x.2 else x.2
    essResult x.1.1 x.1.2 s
  | 2 => if st = 0 then essResult 5 0 s else essResult 0 0 (slotsMoved c (essShut c s))
  | 3 =>
    if st = 0 || s.mode != .operate then essResult 5 0 s
    else if st = 2 then essResult 0 0 (fFlag c 1 true s)
    else essResult 0 0 (slotsMoved c (essEnableDo c s))
  | 4 => if st ≠ 1 then essResult 5 0 s else essResult 0 0 (slotsMoved c (essOff c s))
  | 5 => essResult 0 0 (essArgPut (essImage c s) s)
  | 6 => if st ≠ 1 then essResult 5 0 s else let x := essRekeyDo c s; essResult x.1 0 x.2
  | 7 => if st ≠ 1 || fEnabled c s then essResult 5 0 s else let x := essBindDo c s; essResult x.1 0 x.2
  | _ => essResult 6 0 s

/-- R233: a write of OP. Log 156 (DEDUCED). -/
def essCmdWrite (op : Nat) (s : State) : State := if flag F.ESS_CMD_BUSY 0 s then s else essCommand op s

/-- ESS_OPEN (R231). -/
def execEssOpen (fn : Fn) (_w : Word) (s : State) : Host.Outcome State Fault Refusal := .next (hostWr fn.val .ESS_CMD 0 s (essCmdWrite 1))
/-- ESS_CLOSE (R256). -/
def execEssClose (fn : Fn) (_w : Word) (s : State) : Host.Outcome State Fault Refusal := .next (hostWr fn.val .ESS_CMD 0 s (essCmdWrite 2))
/-- ESS_ENABLE (R255). -/
def execEssEnable (fn : Fn) (_w : Word) (s : State) : Host.Outcome State Fault Refusal := .next (hostWr fn.val .ESS_CMD 0 s (essCmdWrite 3))
/-- ESS_DISABLE (R255). -/
def execEssDisable (fn : Fn) (_w : Word) (s : State) : Host.Outcome State Fault Refusal := .next (hostWr fn.val .ESS_CMD 0 s (essCmdWrite 4))
/-- ESS_READ (R233). -/
def execEssRead (fn : Fn) (_w : Word) (s : State) : Host.Outcome State Fault Refusal := .next (hostWr fn.val .ESS_CMD 0 s (essCmdWrite 5))
/-- ESS_REKEY (R254). -/
def execEssRekey (fn : Fn) (_w : Word) (s : State) : Host.Outcome State Fault Refusal := .next (hostWr fn.val .ESS_CMD 0 s (essCmdWrite 6))
/-- ESS_BIND (R233). -/
def execEssBind (fn : Fn) (_w : Word) (s : State) : Host.Outcome State Fault Refusal := .next (hostWr fn.val .ESS_CMD 0 s (essCmdWrite 7))

/-- R255, R256: the drain of a flow ends. Log 113 (DEDUCED). -/
def essDrained (c : Nat) (s : State) : State :=
  if fState c s ≠ 2 then s
  else if (fFlow c s).closing then unsealWindows (essFree c s)
  else
    let s := fSetState c 1 s
    if fPending c s then essEnableDo c s else s

/-- ESS_DRAIN_END (R255). -/
def execEssDrainEnd (x : Ctx) (s : State) : Host.Outcome State Fault Refusal := .next (essDrained x.val s)

/-- SRTP_OLD_KEY_EXPIRE (R19, R254): one tick of PTP time after the first copy under the new key, the old key is gone. -/
def execSrtpOldKeyExpire (x : Ctx) (s : State) : Host.Outcome State Fault Refusal :=
  .next (match (fFlow x.val s).oldKey with
    | some (_, some t) =>
      let s := reachPtp t s
      if nowNs s < t then s
      else fFlowMod x.val (fun f => { f with oldKey := none }) { s with ess := { s.ess with srtp := Tab.del s.ess.srtp (65536 + x.val) } }
    | _ => s)

end Sys2Proof.Machine
end

