-- ==== Sys2Proof/Machine/Memory.lean ====
section
/-! DEFINITION. The pool manager and the scratch windows as the host reaches them (R405, R406, R411, R415), errors of
memory (R399 to R403), and background work that overruns (R31). -/
namespace Sys2Proof.Machine

/-! ### Pools (R411 to R417) -/

/-- R411, R443: a write of POOL_REQ by a function. Log 139 (DEDUCED). -/
def poolRequest (fn : Nat) (w : Word) (s : State) : State :=
  let size := wfld F.POOL_REQ_BYTES w
  if flag F.POOL_RESP_PENDING fn s then s
  else
    let a := if decide (0 < size) && decide (size ≤ 268435456) && poolsFor s.cfg size != [] && !quotaAllows fn (wouldTake size s) s
      then ((⟨1, 0, 0⟩ : PoolAns), s) else poolAsk size fn false s
    let s := fset F.POOL_RESP_RESULT fn a.1.result a.2
    if a.1.result ≠ 0 then s
    else fset F.POOL_PTR_HI_PTR fn (a.1.addr / 2 ^ 32) (fset F.POOL_PTR_LO_PTR fn a.1.addr (fset F.POOL_RESP_POOL fn a.1.pool s))

/-- R415: a return of the buffer at `a` by a function. -/
def poolReturn (fn a : Nat) (s : State) : State :=
  let bad := fun (s : State) => fset F.POOL_RET_RESP_RESULT fn 6
    (setEvent F.MEM_STATUS_BAD_RETURN 0 99 (bump F.POOL_BAD_RET_COUNT fn s))
  match poolOf s.cfg a with
  | none => bad s
  | some p =>
    if (a - poolBase s.cfg p) % 2 ^ poolLog2 s.cfg p ≠ 0 then bad s
    else if poisonedIn (bufStateAddr s.cfg a) 2 s then fset F.POOL_RET_RESP_RESULT fn 5 (haspRise 17 0 s)
    else if !bufAllocated a s || bufOwner a s != fn then bad s
    else fset F.POOL_RET_RESP_RESULT fn 0 (poolPut a s)

/-- POOL_REQUEST (R411): the pool manager reads buffer state in class C (R23). -/
def execPoolRequest (fn : Fn) (w : Word) (s : State) : Host.Outcome State Fault Refusal :=
  .next (hostWr fn.val .POOL_REQ fn.val s (fun s => poolRequest fn.val w (hbmAsk 2 128 s)))

/-- POOL_RETURN (R415): the write of POOL_RET_HI starts the return, in class C (R23). -/
def execPoolReturn (fn : Fn) (w : Word) (s : State) : Host.Outcome State Fault Refusal :=
  .next (hostWr fn.val .POOL_RET_HI fn.val s (fun s =>
    poolReturn fn.val (w.toNat * 2 ^ 32 + fget F.POOL_RET_LO_PTR fn.val s) (hbmAsk 2 128 s)))

/-! ### Windows (R405, R406) -/

/-- R405: an open flow context or stream context names the window. -/
def winBound (i : Nat) (s : State) : Bool :=
  (s.ess.ctx.map (·.1)).any (fun c => fState c s != 0 && !(fIngest c s && ecFormat (fEc c s) == 1) && fx c 5 1 s == i % 8 &&
    (gangOf s.cfg (fx c 4 1 s)).contains (i / 8)) ||
  s.coding.sc.any (fun (x : Nat × Stream) => decide (2 ≤ scState x.1 s) && x.2.prio == 0 && pOutWindow x.2.gop.params == i % 8 &&
    (x.2.kind == 1 || pOutMode x.2.gop.params != 0) && (gangOf s.cfg x.2.engine).contains (i / 8))

/-- R405: a write of CE_WIN_CFG by a function. -/
def winCfg (fn i : Nat) (w : Word) (s : State) : State :=
  if winExists s i then s
  else fset F.CE_WIN_CFG_WRITER i fn (fset F.CE_WIN_CFG_SIZE_U i (wfld F.CE_WIN_CFG_SIZE_U w) (fset F.CE_WIN_CFG_BASE_U i (wfld F.CE_WIN_CFG_BASE_U w) s))

/-- R406: the range overlaps another window of the engine. -/
def winOverlaps (i base size : Nat) (s : State) : Bool :=
  (List.range 8).any (fun k =>
    let j := winIdx (i / 8) k
    j != i && winExists s j && decide (base < winBase s j + winSize s j) && decide (winBase s j < base + size))

/-- R406: RESULT of ALLOC by a function with a USE. -/
def winAllocCheck (fn i use : Nat) (s : State) : Nat :=
  let b := fget F.CE_WIN_CFG_BASE_U i s
  let n := fget F.CE_WIN_CFG_SIZE_U i s
  if winClaimed s i then 3
  else if winAllocd s i then 5
  else if fget F.CE_WIN_CFG_WRITER i s ≠ fn then 1
  else if n = 0 ∨ 192 < b + n ∨ use = 3 then 6
  else if winOverlaps i (b * 16384) (n * 16384) s then 3
  else 0

/-- R406: RESULT of FREE by a function. -/
def winFreeCheck (fn i : Nat) (s : State) : Nat :=
  if winClaimed s i then 3
  else if !winAllocd s i || fget F.CE_WIN_STATUS_OWNER i s != fn then 5
  else if winBound i s then 1
  else 0

/-- R405: the window is no longer allocated. Log 140 (DEDUCED). -/
def winRelease (i : Nat) (s : State) : State :=
  fset F.CE_WIN_STATUS_OWNER i 0 (setFlag F.CE_WIN_STATUS_ALLOCATED i false
    { s with mem := { s.mem with winUse := Tab.del s.mem.winUse i } })

/-- R405, R406: a write of CE_WIN_CTRL by a function. Log 140 (DEDUCED). -/
def winCtrl (fn i : Nat) (w : Word) (s : State) : State :=
  let use := wfld F.CE_WIN_CTRL_USE w
  let res := fun r s => fset F.CE_WIN_CTRL_RESULT i r s
  let a := wbit F.CE_WIN_CTRL_ALLOC w
  let f := wbit F.CE_WIN_CTRL_FREE w
  if a && f then res 6 s
  else if a then
    let r := winAllocCheck fn i use s
    if r ≠ 0 then res r s
    else
      let s := fset F.CE_WIN_STATUS_OWNER i fn (setFlag F.CE_WIN_STATUS_ALLOCATED i true (fset F.CE_WIN_CTRL_USE i use s))
      res 0 { s with mem := { s.mem with winUse := Tab.put s.mem.winUse i use } }
  else if f then
    let r := winFreeCheck fn i s
    if r ≠ 0 then res r s else res 0 (winRelease i (fset F.CE_WIN_CTRL_USE i use s))
  else if winClaimed s i then s
  else fset F.CE_WIN_CTRL_USE i use s

/-- WIN_CFG_WRITE (R405). -/
def execWinCfgWrite (fn : Fn) (e : Eng) (win : Win) (w : Word) (s : State) : Host.Outcome State Fault Refusal :=
  .next (hostWr fn.val .CE_WIN_CFG (winIdx e.val win.val) s (winCfg fn.val (winIdx e.val win.val) w))

/-- WIN_ALLOC (R406). -/
def execWinAlloc (fn : Fn) (e : Eng) (win : Win) (w : Word) (s : State) : Host.Outcome State Fault Refusal :=
  .next (hostWr fn.val .CE_WIN_CTRL (winIdx e.val win.val) s (winCtrl fn.val (winIdx e.val win.val) (w ||| 1#32)))

/-- WIN_FREE (R406). -/
def execWinFree (fn : Fn) (e : Eng) (win : Win) (w : Word) (s : State) : Host.Outcome State Fault Refusal :=
  .next (hostWr fn.val .CE_WIN_CTRL (winIdx e.val win.val) s (winCtrl fn.val (winIdx e.val win.val) (w ||| 2#32)))

/-! ### Errors of memory (R399, R401, R402) -/

/-- R397: bytes of HBM. -/
def hbmBytes : Nat := 72 * 2 ^ 30

/-- R397: the stack that holds an HBM physical address. Log 145 (DEDUCED). -/
def hbmStack (a : Nat) : Nat := a / 256 % 2

/-- R570, R587: the memories are in use: neither OFF nor STANDBY, where their lines into the Hasp are held low. -/
def memoryRuns (s : State) : Bool := s.mode != .off && s.mode != .standby

/-- HBM_CORRECTABLE_ERROR (R401): counted and reported; the data is corrected. -/
def execHbmCorrectableError (addr : Nat) (s : State) : Host.Outcome State Fault Refusal :=
  .next (if addr < hbmBytes ∧ memoryRuns s = true then haspRise 12 (hbmStack addr) (bump F.MEM_HBM_CE_COUNT 0 s) else s)

/-- HBM_UNCORRECTABLE_ERROR (R401): counted, its address recorded, and the line's data is poisoned. -/
def execHbmUncorrectableError (addr : Nat) (s : State) : Host.Outcome State Fault Refusal :=
  .next (if addr < hbmBytes ∧ memoryRuns s = true then
      let s := fset F.MEM_UE_ADDR_LO_ADDR 0 addr (fset F.MEM_UE_ADDR_HI_ADDR 0 (addr / 2 ^ 32) (bump F.MEM_HBM_UE_COUNT 0 s))
      let s := { s with mem := { s.mem with poison := Tab.put s.mem.poison (addr / 64) true } }
      haspRise 13 (hbmStack addr) (setEvent F.MEM_STATUS_UE_SEEN 0 98 s)
    else s)

/-- SRAM_ERROR (R402): an error in the packet buffer, the tables, scratch, a working store or elsewhere. -/
def execSramError (unit : Fin 5) (correctable : Bool) (s : State) : Host.Outcome State Fault Refusal :=
  .next (if !memoryRuns s then s
    else if correctable then haspRise 15 unit.val (bump F.MEM_SRAM_CE_COUNT 0 s)
    else haspRise 16 unit.val (bump F.MEM_SRAM_UE_COUNT 0 s))

/-- R399: every HBM location is written with zeros. Log 145 (DEDUCED). -/
def hbmZero (s : State) : State :=
  let s := zeroMem 0 hbmBytes s
  { s with mem := { s.mem with poison := [] } }

/-- HBM_INIT_DONE (R399): in BOOT, the controller has written zeros to every HBM location. -/
def execHbmInitDone (s : State) : Host.Outcome State Fault Refusal :=
  .next (if s.mode = .boot then setFlag F.MEM_STATUS_INIT_DONE 0 true (hbmZero s) else s)

/-! ### Background work -/

/-- BACKGROUND_OVERRUN (R31): a pass could not finish in its period: its Hasp source rises, and the next pass begins
at once. -/
def execBackgroundOverrun (activity : Fin 8) (s : State) : Host.Outcome State Fault Refusal :=
  .next (if !memoryRuns s then s
    else haspRise (45 + activity.val) 0 { s with hbm := { s.hbm with pass := Tab.put s.hbm.pass activity.val s.time.cclk } })

end Sys2Proof.Machine
end

