-- ==== Sys2Proof/Machine/Dma.lean ====
section
/-! DEFINITION. DMA channels (R418 to R435) and completion queues (R437): descriptors, their checks, the move of their
bytes, the hand-over of sets, rings, errors, disable and enable. -/
namespace Sys2Proof.Machine

/-! ### Descriptors (R418, R419) -/

def dOp (d : Bytes) : Nat := byteAt d 0
def dSrcSpace (d : Bytes) : Nat := byteAt d 2 % 16
def dDstSpace (d : Bytes) : Nat := byteAt d 2 / 16
def dSrcLen (d : Bytes) : Nat := fieldLE d 0x18 4
def dSrcLines (d : Bytes) : Nat := fieldLE d 0x20 4
def dDstLen (d : Bytes) : Nat := fieldLE d 0x24 4
def dDstLines (d : Bytes) : Nat := fieldLE d 0x2C 4
def dDstStride (d : Bytes) : Int := signed 32 (fieldLE d 0x28 4)
def dFill (d : Bytes) : Bool := dOp d == 2
/-- R419: bytes of the stream. -/
def dTotal (d : Bytes) : Nat := dSrcLen d * dSrcLines d

/-- R419: addresses of the source and destination lines. -/
def dSrcAt (d : Bytes) (i : Nat) : Int := (fieldLE d 0x08 8 : Int) + i * signed 32 (fieldLE d 0x1C 4)
def dDstAt (d : Bytes) (i : Nat) : Int := (fieldLE d 0x10 8 : Int) + i * dDstStride d

/-- R419: lowest and end address of a set of lines. -/
def extent (at_ : Nat → Int) (lines len : Nat) : Int × Int :=
  let a := at_ 0
  let b := at_ (lines - 1)
  (min a b, max a b + len)

/-! ### Device addresses (R395, R445) -/

def winSpace : Nat := 0x200000000000
def tblSpace : Nat := 0x400000000000
def gateSpace : Nat := 0x410000000000

/-- What a device address names. -/
inductive Target where
  | hbm
  | window (i off : Nat)
  | table (bank off : Nat)
  | gate (off : Nat)
  | none
  deriving DecidableEq, Repr

/-- R395: what lies at a device address. -/
def targetOf (a : Nat) : Target :=
  if a < 0x1000000000 then .hbm
  else if winSpace ≤ a ∧ a < winSpace + 48 * 0x2000000 then
    let o := a - winSpace
    .window (winIdx (o / 0x2000000) (o % 0x2000000 / 0x400000)) (o % 0x400000)
  else if tblSpace ≤ a ∧ a < tblSpace + 64 * 0x1000000 then .table ((a - tblSpace) / 0x1000000) ((a - tblSpace) % 0x1000000)
  else if gateSpace ≤ a ∧ a < gateSpace + 256 * 0x4000 then .gate (a - gateSpace)
  else .none

/-- The pool buffers that a range touches, from `a` on; `fuel` bounds them. -/
def bufsIn (c : Cfg) (a stop : Nat) : (fuel : Nat) → List Nat
  | 0 => []
  | n + 1 =>
    if stop ≤ a then []
    else match bufAt c a, poolOf c a with
      | some b, some p => b :: bufsIn c (b + 2 ^ poolLog2 c p) stop n
      | _, _ => []

/-- The pool buffers that `n` bytes from `a` touch. -/
def bufsOf (c : Cfg) (a n : Nat) : List Nat := bufsIn c a (a + n) (n / 4096 + 2)

/-- R445: a window that function `fn` may reach by DMA. -/
def winReach (fn i : Nat) (s : State) : Bool :=
  fn == 0 || (winAllocd s i && fget F.CE_WIN_STATUS_OWNER i s == fn) ||
    s.coding.sc.any (fun (x : Nat × Stream) => x.2.fn == fn && decide (2 ≤ scState x.1 s) &&
      (x.2.kind == 1 || pOutMode x.2.gop.params != 0) && pOutWindow x.2.gop.params == i % 8 && (gangOf s.cfg x.2.engine).contains (i / 8))

/-- R420, R445: a device-space line lies within one region that the function may name. -/
def lineOk (fn : Nat) (a : Int) (n : Nat) (s : State) : Bool :=
  if a < 0 then false
  else
    let a := a.toNat
    match targetOf a with
    | .hbm => inPools s.cfg a n && (fn == 0 || (bufsOf s.cfg a n).all (fun b => bufAllocated b s && bufOwner b s == fn))
    | .window i off => decide (off + n ≤ 0x400000) && winExists s i && winReach fn i s
    | .table b off => fn == 0 && decide (off + n ≤ entCount b * entSize b)
    | .gate off => fn == 0 && decide (off + n ≤ 256 * 0x4000)
    | .none => false

/-- R408, R416: a line touches a sealed window or buffer. -/
def lineSealed (a : Int) (n : Nat) (s : State) : Bool :=
  match targetOf a.toNat with
  | .hbm => (bufsOf s.cfg a.toNat n).any (fun b => bufSealed b s)
  | .window i _ => flag F.CE_WIN_STATUS_SEALED i s
  | _ => false

/-- R409: an open ingest flow context writes the window. -/
def winIngest (i : Nat) (s : State) : Bool :=
  (s.ess.ctx.map (·.1)).any (fun c => fState c s != 0 && fIngest c s && ecFormat (fEc c s) == 0 && fx c 5 1 s == i % 8 &&
    (gangOf s.cfg (fx c 4 1 s)).contains (i / 8))

/-- R409: a destination line touches a window that an open ingest flow writes. -/
def lineTaken (a : Int) (s : State) : Bool := match targetOf a.toNat with | .window i _ => winIngest i s | _ => false

/-- R419, R420: the FORMAT check. -/
def descFormat (d : Bytes) : Bool :=
  let len := fun n => decide (1 ≤ n) && decide (n ≤ 16777216)
  let lines := fun n => decide (1 ≤ n) && decide (n ≤ 65536)
  (dOp d == 1 || dOp d == 2) && decide (dSrcSpace d ≤ 1) && decide (dDstSpace d ≤ 1) && len (dSrcLen d) && len (dDstLen d) &&
    lines (dSrcLines d) && lines (dDstLines d) && dTotal d == dDstLen d * dDstLines d && decide (dTotal d ≤ 2 ^ 32) &&
    (dDstLines d == 1 || decide (dDstLen d ≤ (dDstStride d).natAbs))

/-- R420: the checks of a descriptor: STATUS and DETAIL of the first that fails. Log 141 (DEDUCED). -/
def descCheck (fn : Nat) (d : Bytes) (s : State) : Nat × Nat :=
  if !descFormat d then (6, 3)
  else
    let srcDev := !dFill d && dSrcSpace d == 1
    let dstDev := dDstSpace d == 1
    let src := if srcDev then (List.range (dSrcLines d)).map (dSrcAt d) else []
    let dst := if dstDev then (List.range (dDstLines d)).map (dDstAt d) else []
    let x := extent (dSrcAt d) (dSrcLines d) (dSrcLen d)
    let y := extent (dDstAt d) (dDstLines d) (dDstLen d)
    if !(src.all (fun a => lineOk fn a (dSrcLen d) s) && dst.all (fun a => lineOk fn a (dDstLen d) s)) then (6, 4)
    else if !dFill d && dSrcSpace d == dDstSpace d && decide (x.1 < y.2) && decide (y.1 < x.2) then (6, 5)
    else if src.any (fun a => lineSealed a (dSrcLen d) s) || dst.any (fun a => lineSealed a (dDstLen d) s) then (9, 0)
    else if dst.any (fun a => lineTaken a s) then (3, 0)
    else (0, 0)

/-! ### Moving bytes (R419, R421) -/

/-- R176, R178: `n` bytes of table space from an offset of a bank. -/
def tableBytes (b off n : Nat) (s : State) : Bytes :=
  let z := max 1 (entSize b)
  slice ((List.range ((off % z + n + z - 1) / z)).flatMap (fun k => readEntry b (off / z + k) s)) (off % z) n

/-- R212: `n` bytes of gate space. -/
def gateBytes (off n : Nat) (s : State) : Bytes :=
  slice ((List.range ((off % 8 + n + 7) / 8)).flatMap (fun k => leBytes 8 (Tab.get 0 s.tm.gates (off / 8 + k)))) (off % 8) n

/-- Read `n` bytes at a device address. -/
def devRead (a n : Nat) (s : State) : Bytes :=
  match targetOf a with
  | .hbm => readMem a n s
  | .window i off => winRead i off n s
  | .table b off => tableBytes b off n s
  | .gate off => gateBytes off n s
  | .none => []

/-- R175: write a line into a bank: an entry that it covers only in part does not change. Log 81 (DEDUCED). -/
def tableLine (b off : Nat) (v : Bytes) (s : State) : State :=
  let z := max 1 (entSize b)
  ((List.range ((off % z + v.length + z - 1) / z)).foldl (fun (x : State × Nat) k =>
    if 0 < x.2 then (x.1, x.2 - 1)
    else
      let i := off / z + k
      let lo := i * z
      let n := if lo < off then z else entLen b (v.drop (lo - off))
      (tableWrite b i ((v.drop (lo - off)).take (n - (off - lo))) x.1, n / z - 1)) (s, 0)).1

/-- R215: the list of a port is locked: an ARM is pending for it. -/
def gateLocked (p list : Nat) (s : State) : Bool :=
  flag F.TM_GCL_STATUS_PENDING p s && list == 1 - fget F.TM_GCL_STATUS_OPER_LIST p s

/-- R212, R215: write bytes into gate space. Log 81 (DEDUCED). -/
def gateLine (off : Nat) (v : Bytes) (s : State) : State :=
  (List.range ((off % 8 + v.length + 7) / 8)).foldl (fun s k =>
    let i := off / 8 + k
    let p := i / 2048
    if gateLocked p (i % 2048 / 1024) s then setFlag F.TM_GCL_STATUS_LOCKED_WR p true s
    else
      let at_ := if off ≤ 8 * i then 0 else off - 8 * i
      let part := (v.drop (8 * i - off)).take (8 - at_)
      let old := leBytes 8 (Tab.get 0 s.tm.gates i)
      { s with tm := { s.tm with gates := Tab.set 0 s.tm.gates i (leNat (splice old at_ part)) } }) s

/-- Write bytes at a device address. -/
def devWrite (a : Nat) (v : Bytes) (s : State) : State :=
  match targetOf a with
  | .hbm => writeMem a v s
  | .window i off => winWrite i off v s
  | .table b off => tableLine b off v s
  | .gate off => gateLine off v s
  | .none => s

/-- R419: the first `n` bytes of the stream of a descriptor; `host` is what reads of host memory return. -/
def descStream (d host : Bytes) (n : Nat) (s : State) : Bytes :=
  if dFill d then (List.range n).map (fun j => (slice d 0x30 8)[j % 8]?.getD 0#8)
  else if dSrcSpace d = 0 then fitTo n host
  else ((List.range (ceilDiv n (dSrcLen d))).flatMap (fun i => devRead (dSrcAt d i).toNat (dSrcLen d) s)).take n

/-- R419: write a stream into the destination lines. -/
def descWrite (fn : Nat) (d v : Bytes) (s : State) : State :=
  (List.range (ceilDiv v.length (dDstLen d))).foldl (fun s j =>
    let b := slice v (j * dDstLen d) (dDstLen d)
    if dDstSpace d = 1 then devWrite (dDstAt d j).toNat b s
    else emit (.hostWrite fn ((dDstAt d j) % (2 ^ 64 : Nat)).toNat b) s) s

/-- R401, R434: the source line that reads poisoned data first. -/
def poisonedLine (d : Bytes) (s : State) : Option Nat :=
  if dFill d || dSrcSpace d == 0 || s.mem.poison.isEmpty then none
  else (List.range (dSrcLines d)).find? (fun i => match targetOf (dSrcAt d i).toNat with
    | .hbm => poisonedIn (dSrcAt d i).toNat (dSrcLen d) s
    | _ => false)

/-- R421, R447: function `fn` may make the host-space requests of a descriptor. -/
def hostReach (fn : Nat) (d : Bytes) (s : State) : Bool :=
  fnD0 fn s || ((dFill d || dSrcSpace d == 1) && dDstSpace d == 1)

def dcOwner (c : Nat) (s : State) : Nat := fget F.HIF_DC_OWNER_OWNER c s

/-- The active descriptor of a channel is moving bytes. -/
def dcMoving (c : Nat) (s : State) : Bool :=
  flag F.DC_STATUS_ACTIVE_BUSY c s && (chan c s).record.isNone && !(chan c s).done && flag F.DC_STATUS_ENABLED c s &&
    hostReach (dcOwner c s) (actDesc c s) s

/-- Move the first `n` bytes of the active descriptor, with requests of class B (R23), and give its record. Log 141
(DEDUCED). Log 195 (DESIGN CHOICE). -/
def dcMove (c : Nat) (host : Bytes) (n status detail : Nat) (s : State) : State :=
  let d := actDesc c s
  let s := descWrite (dcOwner c s) d (descStream d host n s) (hbmAsk 1 (whoDma c) s)
  dmaRecord c status detail (chanMod c (fun k => { k with bytes := n }) s)

/-- DESCRIPTOR_END (R427, R434): the last write of the active descriptor leaves, or it stops at a line whose data is
poisoned; its record follows. `hostData` is the stream that host memory returned. Log 141 (DEDUCED). Log 144
(DEDUCED). -/
def execDescriptorEnd (x : Chan) (hostData : Bytes) (s : State) : Host.Outcome State Fault Refusal :=
  let c := x.val
  .next (if !dcMoving c s then s
    else
      let d := actDesc c s
      match poisonedLine d s with
      | some i => dcMove c hostData (i * dSrcLen d) 5 1 s
      | none => dcMove c hostData (dTotal d) 0 0 s)

/-- R439: AER logs an error of a function: 0 Poisoned TLP Received, 1 a failed request. Log 153 (DEDUCED). -/
def aerLog (fn kind : Nat) (s : State) : State := { s with pcie := { s.pcie with aer := (fn, kind) :: s.pcie.aer } }

/-- DMA_ERROR (R434, R439): poisoned read data, or a failed PCIe request, after `moved` bytes. Log 144 (DEDUCED). -/
def execDmaError (x : Chan) (err : DmaErr) (hostData : Bytes) (moved : Nat) (s : State) : Host.Outcome State Fault Refusal :=
  let c := x.val
  let d := actDesc c s
  let fits := match err with
    | .poisoned => !dFill d
    | .pcieError => (!dFill d && dSrcSpace d == 0) || (dDstSpace d == 0 && bit (byteAt d 1) 0)
  .next (if !dcMoving c s || !fits then s
    else
      let s := match err with
        | .poisoned => if dSrcSpace d = 0 then aerLog (dcOwner c s) 0 s else s
        | .pcieError => aerLog (dcOwner c s) 1 s
      dcMove c hostData (min moved (dTotal d)) 5 (match err with | .poisoned => 1 | .pcieError => 2) s)

/-! ### The hand-over (R422 to R425) -/

/-- R423, R425: HINGE_TD names a tick domain. -/
def dcTd (c : Nat) (s : State) : Option Nat :=
  let t := fget F.DC_CTRL_HINGE_TD c s
  if t < 8 then some t else none

/-- R423: the conditions of a hinge, the tick apart. -/
def hingeReady (c : Nat) (s : State) : Bool :=
  flag F.DC_STATUS_SHADOW_ARMED c s && !flag F.DC_STATUS_ACTIVE_BUSY c s && (chan c s).record.isNone &&
    flag F.DC_STATUS_ENABLED c s && !flag F.DC_STATUS_HALTED c s

/-- R423, R425: a tick of a domain is seen by the channels that wait for it. -/
def dmaTick (td : Nat) (s : State) : State :=
  (List.range 64).foldl (fun s c =>
    if dcTd c s = some td ∧ hingeReady c s = true ∧ (chan c s).hingeAt ≤ s.time.cclk then chanMod c (fun k => { k with tickSeen := true }) s
    else s) s

/-- R423: the hinge: the sets change roles, and the new active descriptor is checked and starts. Log 141 (DEDUCED). -/
def hinge (c : Nat) (s : State) : State :=
  let s := reachCclk (chan c s).hingeAt s
  let act := actDesc c s
  let shd := shdDesc c s
  let s := setDesc F.DC_ACT_DATA c shd (setDesc F.DC_SHD_DATA c act s)
  let s := setFlag F.DC_STATUS_ACTIVE_BUSY c true (setFlag F.DC_STATUS_SHADOW_ARMED c false (bump F.DC_HINGE_CNT_COUNT c s))
  let s := chanMod c (fun k => { k with done := false, tickSeen := false, bytes := 0, actIdx := k.shdIdx, shdIdx := k.actIdx,
                                        hingedAt := some s.time.cclk }) s
  let r := descCheck (dcOwner c s) shd s
  if r.1 = 0 then s else dmaRecord c r.1 r.2 s

/-- HINGE (R423). -/
def execHinge (x : Chan) (s : State) : Host.Outcome State Fault Refusal :=
  let c := x.val
  .next (if hingeReady c s && ((dcTd c s).isNone || (chan c s).tickSeen) then hinge c s else s)

/-- R425: a channel whose active set is idle may hinge two cclk from now. -/
def hingeSoon (c : Nat) (s : State) : State :=
  if flag F.DC_STATUS_ACTIVE_BUSY c s then s
  else chanMod c (fun k => { k with hingeAt := s.time.cclk + 2, tickSeen := false }) s

/-- R422: the RESULT of a write of ARM. Log 142 (DEDUCED). -/
def armCheck (c : Nat) (s : State) : Nat :=
  if flag F.DC_STATUS_SHADOW_ARMED c s || (chan c s).hingedAt == some s.time.cclk then 1
  else if flag F.DC_CTRL_MODE c s then 3
  else if !flag F.DC_CTRL_ENABLE c s then 5
  else 0

/-- R435, R583: ENABLE of a channel is written 1. -/
def dcOn (c : Nat) (s : State) : State :=
  if flag F.DC_CTRL_ENABLE c s || s.mode != .operate then s
  else
    let s := dcEnable c true s
    if flag F.DC_STATUS_DRAINING c s then setFlag F.DC_STATUS_ENABLE_PENDING c true s else dcStart c s

/-- R434: RESUME. -/
def dcResume (c : Nat) (s : State) : State :=
  if !flag F.DC_STATUS_HALTED c s then s
  else hingeSoon c (setFlag F.DC_STATUS_HALTED c false s)

/-- R422, R434 to R436: a write of DC_CTRL. Log 142 (DEDUCED). -/
def dcCtrl (c : Nat) (w : Word) (s : State) : State :=
  let res := fun r s => fset F.DC_CTRL_RESULT c r s
  let arm := wbit F.DC_CTRL_ARM w
  let m := if wbit F.DC_CTRL_MODE w != flag F.DC_CTRL_MODE c s && flag F.DC_CTRL_ENABLE c s then 5
    else if arm then armCheck c s else 0
  if m ≠ 0 then res m s
  else
    let s := setFlag F.DC_CTRL_HALT_ON_ERR c (wbit F.DC_CTRL_HALT_ON_ERR w) (fset F.DC_CTRL_HINGE_TD c (wfld F.DC_CTRL_HINGE_TD w) s)
    let s := setFlag F.DC_CTRL_MODE c (wbit F.DC_CTRL_MODE w) s
    let s := if arm then hingeSoon c (setFlag F.DC_STATUS_SHADOW_ARMED c true s) else s
    let s := if wbit F.DC_CTRL_RESUME w then dcResume c s else s
    res 0 (if wbit F.DC_CTRL_ENABLE w then dcOn c s else dcOff c s)

/-- DC_ARM (R422). -/
def execDcArm (fn : Fn) (c : Chan) (w : Word) (s : State) : Host.Outcome State Fault Refusal :=
  .next (hostWr fn.val .DC_CTRL c.val s (dcCtrl c.val (withBit w 1 true)))

/-- DC_RESUME (R434). -/
def execDcResume (fn : Fn) (c : Chan) (w : Word) (s : State) : Host.Outcome State Fault Refusal :=
  .next (hostWr fn.val .DC_CTRL c.val s (dcCtrl c.val (withBit w 5 true)))

/-- DC_ENABLE (R435). -/
def execDcEnable (fn : Fn) (c : Chan) (w : Word) (s : State) : Host.Outcome State Fault Refusal :=
  .next (hostWr fn.val .DC_CTRL c.val s (dcCtrl c.val (withBit w 0 true)))

/-- DC_DISABLE (R435). -/
def execDcDisable (fn : Fn) (c : Chan) (w : Word) (s : State) : Host.Outcome State Fault Refusal :=
  .next (hostWr fn.val .DC_CTRL c.val s (dcCtrl c.val (withBit w 0 false)))

/-- R422, R424, R426: a write of word `i` of the shadow. -/
def shadowPut (c i : Nat) (w : Word) (s : State) : State :=
  let stamp := fun (l : Bool) (s : State) => fset F.DC_SHD_STAMP_COUNT c (fget F.DC_HINGE_CNT_COUNT c s) (setFlag F.DC_SHD_STAMP_LANDED c l s)
  if flag F.DC_CTRL_MODE c s then stamp false (fset F.DC_CTRL_RESULT c 3 s)
  else if flag F.DC_STATUS_SHADOW_ARMED c s then stamp false (setFlag F.DC_STATUS_LOCKED_WR c true s)
  else stamp true (fset F.DC_SHD_DATA (16 * c + i) w.toNat s)

/-- SHADOW_WRITE (R424). -/
def execShadowWrite (fn : Fn) (c : Chan) (i : Fin 16) (w : Word) (s : State) : Host.Outcome State Fault Refusal :=
  .next (hostWr fn.val .DC_SHD (16 * c.val + i.val) s (shadowPut c.val i.val w))

/-- R435: the drain of a channel ends. -/
def dcDrained (c : Nat) (s : State) : State :=
  if !flag F.DC_STATUS_DRAINING c s then s
  else
    let s := setFlag F.DC_STATUS_DRAINING c false s
    if flag F.DC_STATUS_ENABLE_PENDING c s then dcStart c (setFlag F.DC_STATUS_ENABLE_PENDING c false s) else s

/-- DC_DRAIN_END (R435). -/
def execDcDrainEnd (x : Chan) (s : State) : Host.Outcome State Fault Refusal := .next (dcDrained x.val s)

/-! ### Ring mode (R426) -/

/-- R426, R439: a write of DC_RING_TAIL. -/
def ringTail (c : Nat) (w : Word) (s : State) : State :=
  let t := wfld F.DC_RING_TAIL_TAIL w
  if 2 ^ fget F.DC_RING_CFG_LOG2_ENTRIES c s ≤ t then setFlag F.DC_STATUS_BAD_TAIL c true s
  else fset F.DC_RING_TAIL_TAIL c t (chanMod c (fun k => { k with fetchHeld := false }) s)

/-- DC_RING_TAIL (R426). -/
def execDcRingTail (fn : Fn) (c : Chan) (w : Word) (s : State) : Host.Outcome State Fault Refusal :=
  .next (hostWr fn.val .DC_RING_TAIL c.val s (ringTail c.val w))

/-- DESCRIPTOR_FETCH (R426): the fetcher loads the next descriptor of the ring into the free shadow and arms it. -/
def execDescriptorFetch (x : Chan) (desc : Bytes) (s : State) : Host.Outcome State Fault Refusal :=
  let c := x.val
  let h := fget F.DC_RING_HEAD_HEAD c s
  .next (if !flag F.DC_CTRL_MODE c s || !flag F.DC_STATUS_ENABLED c s || flag F.DC_STATUS_SHADOW_ARMED c s ||
      h == fget F.DC_RING_TAIL_TAIL c s || (chan c s).fetchHeld || !fnD0 (dcOwner c s) s then s
    else
      let s := setDesc F.DC_SHD_DATA c desc s
      let s := fset F.DC_RING_HEAD_HEAD c ((h + 1) % 2 ^ fget F.DC_RING_CFG_LOG2_ENTRIES c s) s
      hingeSoon c (chanMod c (fun k => { k with shdIdx := h }) (setFlag F.DC_STATUS_SHADOW_ARMED c true s)))

/-! ### Completion queues (R437) -/

/-- R437: a write of CQ_CFG. Log 143 (DEDUCED). -/
def cqCfg (q : Nat) (w : Word) (s : State) : State :=
  let on := wbit F.CQ_CFG_ENABLE w
  if flag F.CQ_CFG_ENABLE q s then (if on then s else retryRecords (setFlag F.CQ_CFG_ENABLE q false s))
  else
    let s := fset F.CQ_CFG_LOG2_ENTRIES q (clampN 4 16 (wfld F.CQ_CFG_LOG2_ENTRIES w)) s
    if !on then s
    else retryRecords { (fset F.CQ_HEAD_HEAD q 0 (setFlag F.CQ_CFG_ENABLE q true s)) with cqPhase := Tab.del s.cqPhase q }

/-- CQ_ENABLE (R437). -/
def execCqEnable (fn : Fn) (q : Cq) (w : Word) (s : State) : Host.Outcome State Fault Refusal :=
  .next (hostWr fn.val .CQ_CFG q.val s (cqCfg q.val (withBit w 31 true)))

/-- R432, R437: a write of CQ_TAIL: records that wait for room go out. -/
def cqTail (q : Nat) (w : Word) (s : State) : State := retryRecords (fset F.CQ_TAIL_TAIL q (wfld F.CQ_TAIL_TAIL w) s)

end Sys2Proof.Machine
end

