-- ==== Sys2Proof/Machine/Interrupts.lean ====
section
/-! DEFINITION. Interrupt sources, groups and their delivery (R456 to R463), and PME (R449). -/
namespace Sys2Proof.Machine

/-- R440, R459: the function may be used: PF0 always, VF n while VF Enable is 1 and NumVFs is above n. -/
def vfOn (fn : Nat) (s : State) : Bool := fn == 0 || (s.pcie.vfEnable && decide (fn ≤ s.pcie.numVfs))

/-- Memory Space Enable of a function; for every VF it is VF MSE of the SR-IOV capability. Log 147 (PRESUMED). -/
def mseOf (fn : Nat) (s : State) : Bool := Tab.get false s.pcie.mse (if fn = 0 then 0 else 1)

/-- R459: first vector of a function's range. -/
def firstVector (fn : Nat) : Nat := if fn = 0 then 0 else 1024 + 16 * (fn - 1)

/-- R440: entries of a function's MSI-X table. -/
def msixSize (fn : Nat) : Nat := if fn = 0 then 1024 else 16

/-- FUNCTION of a group. -/
def grpFn (g : Nat) (s : State) : Nat := fget F.INT_GRP_CFG_FUNCTION g s

/-- R459: the table entry that a group's message uses. -/
def grpEntry (g : Nat) (s : State) : Nat := fget F.INT_GRP_CFG_VECTOR g s - firstVector (grpFn g s)

/-- R459: the entry's mask bit is set, or the function's Function Mask. -/
def msixHeld (fn entry : Nat) (s : State) : Bool :=
  !Tab.get false s.pcie.unmasked (fn * 1024 + entry) || Tab.get false s.pcie.fnMask fn

/-- R459: MSI-X Enable and Bus Master Enable are set. -/
def msixReady (fn : Nat) (s : State) : Bool := Tab.get false s.pcie.msixEn fn && Tab.get false s.pcie.bme fn

/-- Set a bit of a function's pending bit array. -/
def pbaPut (fn entry : Nat) (b : Bool) (s : State) : State :=
  { s with pcie := { s.pcie with pba := Tab.set false s.pcie.pba (fn * 1024 + entry) b } }

/-- R448: the link leaves L1 or L1.2. -/
def linkWake (s : State) : State :=
  if s.pcie.link == .l1 || s.pcie.link == .l12 then { s with pcie := { s.pcie with link := .l0 } } else s

/-- R459: the group's message is written, with the L1 exit that it starts, and the group returns to IDLE. -/
def grpSend (g : Nat) (s : State) : State :=
  let fn := grpFn g s
  let e := grpEntry g s
  let s := emit (.msix fn e) (linkWake (pbaPut fn e false s))
  fset F.INT_GRP_STATUS_STATE g 0 (bump F.INT_GRP_SENT_COUNT g s)

/-- R459: the group is HELD, with its pending bit array bit set. -/
def grpHold (g : Nat) (s : State) : State :=
  fset F.INT_GRP_STATUS_STATE g 2 (pbaPut (grpFn g s) (grpEntry g s) true s)

/-- R449: a function signals PME for a cause in group `g`; nothing when PME_En is 0 or PME_Status already 1. -/
def pmeRaise (fn g : Nat) (s : State) : State :=
  if !Tab.get false s.pcie.pmeEn fn || Tab.get false s.pcie.pmeStatus fn then s
  else
    let s := { s with pcie := { s.pcie with pmeStatus := Tab.set false s.pcie.pmeStatus fn true } }
    let s := bump F.INT_GRP_PME_COUNT g s
    if linkCold s then { s with pcie := { s.pcie with wakeDrive := Tab.set false s.pcie.wakeDrive fn true } }
    else emit (.pme fn) (linkWake s)

/-- R449: PCIE_WAKE_N is released once no function that drives it has PME_Status at 1. -/
def wakeRelease (s : State) : State :=
  if s.pcie.wakeDrive.any (fun (x : Nat × Bool) => x.2 && Tab.get false s.pcie.pmeStatus x.1) then s
  else { s with pcie := { s.pcie with wakeDrive := [] } }

/-- R459: a commit of a live group, routed by the state of its function and of the link. -/
def grpCommit (g : Nat) (s : State) : State :=
  let fn := grpFn g s
  let late := (liveList g s).all (fun n => maskOf n s)
  let s := if late then setFlag F.INT_GRP_STATUS_LATE_MASK g true s else s
  if !vfOn fn s then fset F.INT_GRP_STATUS_STATE g 0 s
  else if !fnD0 fn s || linkCold s then
    fset F.INT_GRP_STATUS_STATE g 3 (if flag F.INT_GRP_CFG_WAKE_ON_PENDING g s then pmeRaise fn g s else s)
  else if !msixReady fn s then fset F.INT_GRP_STATUS_STATE g 3 s
  else if msixHeld fn (grpEntry g s) s then grpHold g s
  else grpSend g s

/-- R458: the hold-off of a TIMING group ends: a commit when a source is live, else IDLE. Log 152 (DEDUCED). -/
def grpExpire (g : Nat) (s : State) : State :=
  if grpState g s ≠ 1 then s
  else
    let s := passCclk (Tab.get 0 s.ints.left g) s
    if groupLive g s then grpCommit g s else fset F.INT_GRP_STATUS_STATE g 0 s

/-- R459: a HELD group whose entry can be written sends if it is live, and returns to IDLE either way. Log 151
(DEDUCED). -/
def heldRelease (g : Nat) (s : State) : State :=
  if grpState g s ≠ 2 || msixHeld (grpFn g s) (grpEntry g s) s then s
  else if groupLive g s then grpSend g s
  else fset F.INT_GRP_STATUS_STATE g 0 (pbaPut (grpFn g s) (grpEntry g s) false s)

/-- R459: every HELD group looks at its entry again. -/
def heldReleaseAll (s : State) : State := (List.range 64).foldl (fun s g => heldRelease g s) s

/-- R459: a DUE group sends once the function takes messages again. -/
def dueSend (g : Nat) (s : State) : State :=
  let fn := grpFn g s
  if grpState g s ≠ 3 || !vfOn fn s || !fnD0 fn s || linkCold s || !mseOf fn s || !msixReady fn s then s
  else if msixHeld fn (grpEntry g s) s then grpHold g s
  else grpSend g s

/-- Mask or unmask an entry of a function's MSI-X table (R459). -/
def msixMask (fn entry : Nat) (m : Bool) (s : State) : State :=
  if msixSize fn ≤ entry then s
  else heldReleaseAll { s with pcie := { s.pcie with unmasked := Tab.set false s.pcie.unmasked (fn * 1024 + entry) (!m) } }

/-- R456: sources 103 and 1,504 to 4,031 never rise. Log 150 (DEDUCED). -/
def srcReserved (n : Nat) : Bool := n == 103 || (decide (1504 ≤ n) && decide (n < 4032))

/-- Numbers of the bits that are set in a word of sources. -/
def wordSrcs (w v : Nat) : List Nat := ((List.range 32).filter (fun b => bit v b)).map (32 * w + ·)

/-- R457: a write of INT_FORCE by a function. -/
def intForce (fn w v : Nat) (s : State) : State :=
  (wordSrcs w (v &&& srcBits fn w s)).foldl (fun s n => pendSet n s) s

/-- R457: a write of INT_PEND by a function. -/
def intAck (fn w v : Nat) (s : State) : State :=
  (wordSrcs w (v &&& srcBits fn w s)).foldl (fun s n => pendClear n s) s

/-- R458, R460: one mask bit is written. -/
def maskPut (n : Nat) (m : Bool) (s : State) : State :=
  if maskOf n s = m then s
  else
    let s := fset F.INT_MASK_MASK (n / 32) (fget F.INT_MASK_MASK (n / 32) s ^^^ 2 ^ (n % 32)) s
    if m then { s with ints := { s.ints with maskedAt := Tab.put s.ints.maskedAt n s.time.cclk } }
    else
      let s := { s with ints := { s.ints with maskedAt := Tab.del s.ints.maskedAt n } }
      if pendOf n s then groupEvent (srcGroup s.cfg n) s else s

/-- R460: a write of INT_MASK by a function. -/
def intMask (fn w v : Nat) (s : State) : State :=
  (wordSrcs w (srcBits fn w s)).foldl (fun s n => maskPut n (bit v (n % 32)) s) s

/-- R458, R463: RESEND of a group. Log 151 (DEDUCED). Log 227 (DEDUCED). -/
def grpResend (g : Nat) (s : State) : State :=
  let s := setFlag F.INT_GRP_CTRL_RESEND g true s
  if groupLive g s then groupEvent g s else s

/-- INT_SOURCE_RISE (R457). Log 150 (DEDUCED). -/
def execIntSourceRise (n : IntSrc) (s : State) : Host.Outcome State Fault Refusal :=
  .next (if srcReserved n.val || s.mode == .off then s else pendSet n.val s)

/-- INT_FORCE (R457). -/
def execIntForce (fn : Fn) (word : Fin 128) (w : Word) (s : State) : Host.Outcome State Fault Refusal :=
  .next (hostWr fn.val .INT_FORCE word.val s (intForce fn.val word.val w.toNat))

/-- INT_MASK_WRITE (R460). -/
def execIntMaskWrite (fn : Fn) (word : Fin 128) (w : Word) (s : State) : Host.Outcome State Fault Refusal :=
  .next (hostWr fn.val .INT_MASK word.val s (intMask fn.val word.val w.toNat))

/-- RESEND (R458): a write of INT_GRP_CTRL with RESEND 1. -/
def execResend (fn : Fn) (g : Grp) (_w : Word) (s : State) : Host.Outcome State Fault Refusal :=
  .next (hostWr fn.val .INT_GRP_CTRL g.val s (grpResend g.val))

/-- GROUP_COMMIT (R459). -/
def execGroupCommit (g : Grp) (s : State) : Host.Outcome State Fault Refusal := .next (grpExpire g.val s)

/-- MSIX_UNMASK (R459): the host clears the mask bit of an entry of the function's table. Log 155 (DEDUCED). -/
def execMsixUnmask (fn : Fn) (entry : Nat) (s : State) : Host.Outcome State Fault Refusal :=
  .next (if busOpen s && s.power.configured then msixMask fn.val entry false s else s)

/-- DUE_DELIVERY (R459). -/
def execDueDelivery (g : Grp) (s : State) : Host.Outcome State Fault Refusal := .next (dueSend g.val s)

end Sys2Proof.Machine
end

