-- ==== Sys2Proof/Machine/Pcie.lean ====
section
/-! DEFINITION. The PCIe link, functions, power states and the mailbox (R438 to R452). -/
namespace Sys2Proof.Machine

/-! ### The link (R438, R448) -/

/-- R438: the link trains. Log 148 (DEDUCED). -/
def linkTrain (speed width : Nat) (flit : Bool) (s : State) : State :=
  let s := { s with pcie := { s.pcie with link := .l0, trained := true } }
  let s := setFlag F.HIF_LINK_FLIT 0 flit (fset F.HIF_LINK_SPEED 0 speed (fset F.HIF_LINK_WIDTH 0 width s))
  if speed < 4 ∨ width < 16 then haspRise 18 1 (setFlag F.HIF_LINK_DEGRADED 0 true s) else s

/-- LINK_TRAINED (R438): in board test and in STANDBY, in reset, and while PCIE_PERST_N is low, the link stays as it is
(R577, R582, R604). -/
def execLinkTrained (speed width : Nat) (flit : Bool) (s : State) : Host.Outcome State Fault Refusal :=
  .next (if modeOpen s && s.power.perstHigh then linkTrain speed width flit s else s)

/-- The link goes down: what it ran at reads as never trained. -/
def linkDownAct (s : State) : State :=
  let s := { s with pcie := { s.pcie with link := .down } }
  setFlag F.HIF_LINK_FLIT 0 false (fset F.HIF_LINK_SPEED 0 0 (fset F.HIF_LINK_WIDTH 0 0 s))

/-- LINK_L1_ENTRY (R448, R464): L1, or L1.2 where `substate`. -/
def execLinkL1Entry (substate : Bool) (s : State) : Host.Outcome State Fault Refusal :=
  let target : LinkState := if substate then .l12 else .l1
  .next (match s.pcie.link with
    | .l0 => bump F.HIF_L1_COUNT_COUNT 0 { s with pcie := { s.pcie with link := target } }
    | .l1 => { s with pcie := { s.pcie with link := target } }
    | .l12 | .l2Ready | .down => s)

/-- L1_EXIT (R448). -/
def execL1Exit (s : State) : Host.Outcome State Fault Refusal := .next (linkWake s)

/-! ### Errors of the device's own requests (R439) -/

/-- R439: a fetch of a descriptor or of a command record failed. Log 153 (DEDUCED). -/
def reqErr (fn : Nat) (s : State) : State := haspRise 18 2 (bump F.HIF_REQ_ERR_COUNT 0 (aerLog fn 1 s))

/-- PCIE_REQUEST_ERROR (R439). -/
def execPcieRequestError (e : ReqError) (s : State) : Host.Outcome State Fault Refusal :=
  .next (match e with
    | .descriptorFetch x =>
      let c := x.val
      if flag F.DC_CTRL_MODE c s && flag F.DC_STATUS_ENABLED c s && !flag F.DC_STATUS_SHADOW_ARMED c s &&
          fget F.DC_RING_HEAD_HEAD c s != fget F.DC_RING_TAIL_TAIL c s && !(chan c s).fetchHeld then
        let s := chanMod c (fun k => { k with fetchHeld := true }) (reqErr (dcOwner c s) s)
        riseIf (160 + c) s (setFlag F.DC_STATUS_HALTED c true s)
      else s
    | .commandFetch x =>
      let k := x.val
      if (strm k s).tail.isSome then reqErr (strm k s).fn (strmMod k (fun c => { c with tail := none }) s) else s
    | .completion poisoned => aerLog 0 (b2n (!poisoned)) s
    | .poisonedWrite => aerLog 0 0 s)

/-! ### Function Level Reset (R446) -/

/-- R446 step 4: a window that the function allocated. -/
def flrWindow (fn i : Nat) (s : State) : State :=
  if winAllocd s i && fget F.CE_WIN_STATUS_OWNER i s == fn then
    (if winBound i s then fset F.CE_WIN_STATUS_OWNER i 0 s else winRelease i s)
  else s

/-- R446 step 5: the groups of the function return to IDLE and their sources' pending bits are cleared. -/
def flrGroups (fn : Nat) (s : State) : State :=
  let s := ((pendList s).filter (fun n => grpFn (srcGroup s.cfg n) s == fn)).foldl (fun s n => pendClear n s) s
  ((List.range 64).filter (fun g => grpFn g s == fn)).foldl (fun s g =>
    fset F.INT_GRP_STATUS_STATE g 0 { s with ints := { s.ints with left := Tab.del s.ints.left g } }) s

/-- R446 step 6: MSI-X table and pending bit array; with them the function's enables and its D-state. Log 146
(PRESUMED). -/
def flrConfig (fn : Nat) (s : State) : State :=
  let mine := fun (size k : Nat) => k / size == fn
  let s := { s with pcie := { s.pcie with
    msix := s.pcie.msix.filter (fun x => !mine 4096 x.1)
    unmasked := s.pcie.unmasked.filter (fun x => !mine 1024 x.1)
    pba := s.pcie.pba.filter (fun x => !mine 1024 x.1)
    msixEn := Tab.del s.pcie.msixEn fn
    fnMask := Tab.del s.pcie.fnMask fn
    bme := Tab.del s.pcie.bme fn
    mse := if fn = 0 then Tab.del s.pcie.mse 0 else s.pcie.mse } }
  fset F.HIF_FUNC_PM_DSTATE fn 0 s

/-- R446: a Function Level Reset acts on one function's resources, in the order of its steps. Log 146 (PRESUMED). -/
def flrOne (fn : Nat) (s : State) : State :=
  let s := (List.range 64).foldl (fun s c => if fget F.HIF_DC_OWNER_OWNER c s = fn then dcDrained c (dcOff c s) else s) s
  let s := (List.range 16).foldl (fun s q => if fget F.HIF_CQ_OWNER_OWNER q s = fn then setFlag F.CQ_CFG_ENABLE q false s else s) s
  let s := (s.coding.sc.filter (fun (x : Nat × Stream) => x.2.fn == fn)).foldl (fun s x => scDrained x.1 (scClose x.1 [] s)) s
  let s := (s.mem.buf.filter (fun x => bit x.2 15 && x.2 % 128 == fn)).foldl (fun s x => poolPut x.1 s) s
  let s := (List.range 384).foldl (fun s i => flrWindow fn i s) s
  retryRecords (flrConfig fn (flrGroups fn s))

/-- R446: an FLR of PF0 acts on every VF first. -/
def flr (fn : Nat) (s : State) : State :=
  if fn = 0 then flrOne 0 ((List.range 64).foldl (fun s n => flrOne (n + 1) s) s) else flrOne fn s

/-- Configuration requests reach the function: the link has trained and is up (R581). -/
def cfgOpen (fn : Nat) (s : State) : Bool := !linkCold s && s.pcie.trained && vfOn fn s && s.mode != .off

/-- FUNCTION_LEVEL_RESET (R446). -/
def execFunctionLevelReset (fn : Fn) (s : State) : Host.Outcome State Fault Refusal :=
  .next (if cfgOpen fn.val s then flr fn.val s else s)

/-- R440, R464: VF Enable and NumVFs, with what HIF_NUM_VFS shows; clearing VF Enable resets every VF that it disables. -/
def vfPut (on : Bool) (n : Nat) (s : State) : State :=
  let was := if s.pcie.vfEnable then s.pcie.numVfs else 0
  let now := if on then n else 0
  let s := (List.range 64).foldl (fun s v => if now ≤ v ∧ v < was then flrOne (v + 1) s else s) s
  fset F.HIF_NUM_VFS_COUNT 0 now { s with pcie := { s.pcie with vfEnable := on, numVfs := n } }

/-- VF_ENABLE_CLEAR (R446). -/
def execVfEnableClear (s : State) : Host.Outcome State Fault Refusal :=
  .next (if cfgOpen 0 s then vfPut false s.pcie.numVfs s else s)

/-! ### Power states (R447, R449) -/

/-- DSTATE_CHANGE (R447, R449): a write of PMCSR. -/
def execDstateChange (x : Fn) (d3hot pmeEn clearPme : Bool) (s : State) : Host.Outcome State Fault Refusal :=
  let fn := x.val
  .next (if !cfgOpen fn s then s
    else
      let s := fset F.HIF_FUNC_PM_DSTATE fn (if d3hot then 3 else 0) s
      let s := { s with pcie := { s.pcie with pmeEn := Tab.set false s.pcie.pmeEn fn pmeEn } }
      let s := if clearPme then wakeRelease { s with pcie := { s.pcie with pmeStatus := Tab.del s.pcie.pmeStatus fn } } else s
      if d3hot then s else retryRecords s)

/-- PME_RESEND (R449): every 100 ms in D3hot while PME_Status stays 1. Log 149 (DEDUCED). -/
def execPmeResend (x : Fn) (s : State) : Host.Outcome State Fault Refusal :=
  let fn := x.val
  .next (if Tab.get false s.pcie.pmeStatus fn && Tab.get false s.pcie.pmeEn fn && !fnD0 fn s && !linkCold s then
      emit (.pme fn) (linkWake s)
    else s)

/-! ### Ownership (R444) -/

/-- R444: a write of HIF_DC_OWNER. -/
def dcOwnerPut (c : Nat) (w : Word) (s : State) : State :=
  if flag F.DC_STATUS_ENABLED c s || flag F.DC_STATUS_DRAINING c s then fset F.HIF_DC_OWNER_RESULT c 5 s
  else fset F.HIF_DC_OWNER_RESULT c 0 (fset F.HIF_DC_OWNER_OWNER c (wfld F.HIF_DC_OWNER_OWNER w) s)

/-- R444: a write of HIF_CQ_OWNER. -/
def cqOwnerPut (q : Nat) (w : Word) (s : State) : State :=
  if cqOn q s then fset F.HIF_CQ_OWNER_RESULT q 5 s
  else fset F.HIF_CQ_OWNER_RESULT q 0 (fset F.HIF_CQ_OWNER_OWNER q (wfld F.HIF_CQ_OWNER_OWNER w) s)

/-- DC_OWNER_WRITE (R444). -/
def execDcOwnerWrite (fn : Fn) (target : Chan ⊕ Cq) (w : Word) (s : State) : Host.Outcome State Fault Refusal :=
  .next (match target with
    | .inl c => hostWr fn.val .HIF_DC_OWNER c.val s (dcOwnerPut c.val w)
    | .inr q => hostWr fn.val .HIF_CQ_OWNER q.val s (cqOwnerPut q.val w))

/-! ### The mailbox (R450 to R452) -/

/-- R451: a GO is checked, and an accepted one submits the request. -/
def mbxSubmit (s : State) : State :=
  let len := fget F.MBX_REQ_LEN_LEN 0 s
  if flag F.MBX_STATUS_BUSY 0 s then fset F.MBX_STATUS_RESULT 0 1 s
  else if len = 0 ∨ 16384 < len then fset F.MBX_STATUS_RESULT 0 6 s
  else if 16777216 < fget F.MBX_IND_LEN_LEN 0 s then fset F.MBX_STATUS_RESULT 0 6 s
  else
    let s := fset F.MBX_STATUS_RESULT 0 0 (setFlag F.MBX_STATUS_BUSY 0 true s)
    bump F.MBX_SEQ_COUNT 0 { s with tch := { s.tch with mbxWaiting := true } }

/-- MBX_GO (R451). -/
def execMbxGo (fn : Fn) (_w : Word) (s : State) : Host.Outcome State Fault Refusal :=
  .next (hostWr fn.val .MBX_CTRL 0 s mbxSubmit)

/-- Adyel status PENDING in a response frame (R452, R480). Log 154 (DEDUCED). -/
def respPending (f : Bytes) : Bool := byteAt f 0x18 == 2

/-- R452: a response is placed in MBX_RESP; BUSY clears with the final one. Log 154 (DEDUCED). -/
def mbxPlace (f : Bytes) (s : State) : State :=
  let s := { s with tch := { s.tch with mbxResp := f } }
  let s := fset F.MBX_STATUS_RESP_LEN 0 f.length s
  let s := setEvent F.MBX_STATUS_RESP_READY 0 97 s
  if respPending f then s else setFlag F.MBX_STATUS_BUSY 0 false s

/-- MBX_RESPONSE (R452): Tchien writes its next response. -/
def execMbxResponse (s : State) : Host.Outcome State Fault Refusal :=
  .next (match s.tch.mbxOut with
    | [] => s
    | f :: r => mbxPlace f { s with tch := { s.tch with mbxOut := r } })

end Sys2Proof.Machine
end

