-- ==== Sys2Proof/Machine/Reset.lean ====
section
/-! DEFINITION. What each reset clears and what it keeps (R576, R609), and the entry to BOOT (R571, R572, R600). -/
namespace Sys2Proof.Machine

/-- R526: the registers of the Hasp block and of the Hasp sources. -/
def haspReg (r : Nat) : Bool := decide (Reg.HASP_STATUS_LO.idx ≤ r) && decide (r ≤ Reg.HASP_SRC_WIN.idx)

/-- R576, R609: register fields that SYSRST_N, SHK_RST_N, FW_REBOOT and a LOCKDOWN exit keep. Log 44 (DEDUCED). -/
def softKept (k : Nat) : Bool :=
  let i := k % 16384
  haspReg (i / 32) || [Reg.TIME_INCR, .TICK_IDX_LO, .TICK_IDX_HI, .TICK_SKIP, .GLB_RESET_CAUSE].any (fun r => r.idx == i / 32) ||
    i == F.TIME_CTRL_RUN.key 0 || i == F.STBY_STATUS_ENTRIES.key 0

/-- R587, R591: register fields of the always-on domain that a wake without retention keeps as well. Log 43
(DEDUCED). -/
def wakeKept (k : Nat) : Bool :=
  softKept k || [Reg.INT_PEND, .INT_MASK, .INT_GRP_STATUS, .STBY_STATUS, .GLB_WAKE_CFG, .GLB_WAKE_TIME_NS, .GLB_WAKE_TIME_SEC].any
    (fun r => r.idx == k % 16384 / 32)

/-- What the Ward keeps in its fuses, and the copies of its store in the flashes. -/
def wardCold (power : Bool) (w : Ward) : Ward :=
  { Ward.init with fwSvn := w.fwSvn, patchSvn := w.patchSvn, banks := w.banks, decommissioned := w.decommissioned,
                   storeEpoch := w.storeEpoch, copy0 := w.copy0, copy1 := w.copy1,
                   powerCycleOnly := w.powerCycleOnly && !power }

/-- What the flashes of Tchien keep. -/
def tchCold (t : Tchien) : Tchien :=
  { Tchien.init with blocks := t.blocks, block := t.block, blockOpen := t.blockOpen, seq := t.seq, chain := t.chain,
                     bootCount := t.bootCount, bad := t.bad, certs := t.certs, limits := t.limits, net := t.net,
                     slotA := t.slotA, slotB := t.slotB }

/-- The levels of the pins, which no reset changes. -/
def pinsKept (p : Power) : Power :=
  { Power.init with rails := p.rails, porstHigh := p.porstHigh, shkFaultIn := p.shkFaultIn, perstHigh := p.perstHigh,
                    wakeLow := p.wakeLow, stbyLow := p.stbyLow, inReset := p.inReset, driveShkRst := p.driveShkRst }

/-- R468: the security state that the fuses give. -/
def secOfFuses (w : Ward) : Nat := if w.decommissioned then 2 else if w.banks.any (fun b => !b.2) then 1 else 0

/-- R468: the Ward's security state: 0 UNOWNED, 1 OWNED, 2 DECOMMISSIONED. -/
def secState (s : State) : Nat := fget F.WARD_STATE_SEC_STATE 0 s

/-- The model's own counts, which nothing resets. -/
def ownCounts (old new : State) : State :=
  { new with draws := old.draws, fresh := old.fresh, out := old.out, pending := old.pending }

/-- R576: PORST_N falls, or a rail is lost: everything is at its reset value but the fuses, the flashes and the pins. -/
def coldReset (s : State) : State :=
  let n := { State.reset with
    ward := wardCold true s.ward
    tch := tchCold s.tch
    power := pinsKept s.power
    time := { TimeUnit.init with freqClean := s.time.freqClean, ballIn := s.time.ballIn } }
  fset F.WARD_STATE_SEC_STATE 0 (secOfFuses s.ward) (ownCounts s n)

/-- R576, R609: a reset that enters BOOT and keeps the Hasp and the running time; `wake` is a wake without retention,
which keeps the interrupt state and the standby registers too. Log 43 (DEDUCED). -/
def softReset (wake : Bool) (s : State) : State :=
  let n := { State.reset with
    regs := s.regs.filter (fun x => if wake then wakeKept x.1 else softKept x.1)
    time := { TimeUnit.init with cclk := s.time.cclk, ptp := s.time.ptp, tickNext := s.time.tickNext,
                                 tickSeen := s.time.tickSeen, freqClean := s.time.freqClean, freqFrom := s.time.freqFrom,
                                 ballIn := s.time.ballIn }
    hasp := s.hasp
    ints := if wake then s.ints else ⟨[], []⟩
    ward := wardCold false s.ward
    tch := tchCold s.tch
    pcie := if wake then { Pcie.init with link := s.pcie.link } else Pcie.init
    power := pinsKept s.power }
  let n := ownCounts s n
  haspDefaults (fset F.WARD_STATE_SEC_STATE 0 (secOfFuses s.ward) n)

/-- R571, R572: a soft reset enters BOOT; queued log entries are written first (R543: only a loss of power loses them), and
the entry is logged when Tchien starts. Log 182 (DEDUCED). -/
def bootEnter (wake : Bool) (cause : Nat) (bit : Fld) (s : State) : State :=
  let fromMode := s.mode.code
  let img := if wake && loaded s then some (s.loader, fget F.IMG_SERIAL_SERIAL 0 s, fget F.IMG_SVN_SVN 0 s) else none
  let s := setFlag bit 0 true (softReset wake (logWriteAll s))
  let s := { s with mode := .boot }
  { s with power := { s.power with bootCause := cause, bootFrom := fromMode, retImage := img } }

/-- R525, R571: the last C4 bit has cleared in LOCKDOWN. -/
def lockdownExit (s : State) : State := bootEnter false 8 F.GLB_RESET_CAUSE_LOCKDOWN_EXIT s

end Sys2Proof.Machine
end

