-- ==== Sys2Proof/Machine/HaspCmds.lean ====
section
/-! DEFINITION. The commands of the Hasp (R509, R514, R517, R523, R524). -/
namespace Sys2Proof.Machine

/-- R509: condition sources hold their line high while the fault lasts; source 11 does so with DETAIL 1. -/
def haspCondition (n detail : Nat) : Bool :=
  n == 1 || n == 2 || n == 6 || n == 7 || n == 8 || n == 9 || n == 14 || (n == 11 && detail == 1) ||
    (decide (37 ≤ n) && decide (n ≤ 40))

/-- R587: lines that stay live in STANDBY. -/
def haspLive (n : Nat) (s : State) : Bool :=
  s.mode != .off && (s.mode != .standby || n == 2 || n == 7 || n == 8 || n == 10 || n == 11 || n == 55)

/-- R466, R509: the level of a condition source's line; that of source 1 shows in WARD_STATE.ENTROPY_OK. -/
def haspLine (n : Nat) (high : Bool) (s : State) : State :=
  let s := haspLevel n high s
  if n = 1 then setFlag F.WARD_STATE_ENTROPY_OK 0 (!high) s else s

/-- R509, R514: a line of the Hasp rises. A condition whose line is high already does not rise again. -/
def haspLineUp (n detail : Nat) (s : State) : State :=
  if !haspLive n s || decide (56 ≤ n) then s
  else if haspCondition n detail then (if haspCause n s then s else haspRise n detail (haspLine n true s))
  else haspRise n detail s

/-- HASP_LINE_RISE (R514). -/
def execHaspLineRise (n : HaspSrc) (detail : Byte) (s : State) : Host.Outcome State Fault Refusal :=
  .next (haspLineUp n.val detail.toNat s)

/-- HASP_LINE_FALL (R509). The fall of source 11's condition is the rise of the line SHK_FAULT_N (R130). Log
194 (DEDUCED). -/
def execHaspLineFall (n : HaspSrc) (s : State) : Host.Outcome State Fault Refusal :=
  let s := if n.val = 11 then { s with power := { s.power with shkFaultIn := false } } else s
  .next (if haspCause n.val s then haspLine n.val false s else s)

/-- HASP_WINDOW_CLOSE (R517): the open window of a source closes, and its count is 0 again. -/
def execHaspWindowClose (x : HaspSrc) (s : State) : Host.Outcome State Fault Refusal :=
  let n := x.val
  .next (match Tab.find? s.hasp.window n with
    | some c =>
      let s := reachCclk c s
      fset F.HASP_SRC_WIN_COUNT n 0 { s with hasp := { s.hasp with window := Tab.del s.hasp.window n } }
    | none => s)

/-- HASP_ACK (R523). -/
def execHaspAck (fn : Fn) (hi : Bool) (w : Word) (s : State) : Host.Outcome State Fault Refusal :=
  .next (hostWr fn.val (if hi then .HASP_ACK_HI else .HASP_ACK_LO) 0 s (haspAckWord hi w.toNat))

/-- R524, R525: a write of HASP_STATUS, with the exit from LOCKDOWN that it may bring. -/
def haspClear (hi : Bool) (w : Nat) (s : State) : State :=
  let r := haspClearWord hi w s
  if r.1 then lockdownExit r.2 else r.2

/-- HASP_CLEAR (R524). -/
def execHaspClear (fn : Fn) (hi : Bool) (w : Word) (s : State) : Host.Outcome State Fault Refusal :=
  .next (hostWr fn.val (if hi then .HASP_STATUS_HI else .HASP_STATUS_LO) 0 s (haspClear hi w.toNat))

/-- ENTROPY_FAIL (R466). -/
def execEntropyFail (s : State) : Host.Outcome State Fault Refusal := .next (haspLineUp 1 0 s)

/-- ENTROPY_RESTORE (R466). -/
def execEntropyRestore (s : State) : Host.Outcome State Fault Refusal :=
  .next (if haspCause 1 s then haspLine 1 false s
    else if s.mode == .standby then setFlag F.WARD_STATE_ENTROPY_OK 0 true s
    else s)

end Sys2Proof.Machine
end

