-- ==== Sys2Proof/Machine/Adyel.lean ====
section
/-! DEFINITION. Adyel frames and the Ward's checks of a request (R480 to R487, R544): how a request arrives, the steps of
R483, the answer, and the Ward store. -/
namespace Sys2Proof.Machine

/-- A request as Tchien takes it: its source over UDP (none: the mailbox), the frame, and the indirect payload. -/
structure Req where
  udp : Option Nat
  frame : Bytes
  ind : Bytes
  deriving DecidableEq, Repr

/-- What a command answers: STATUS, DETAIL and the payload. -/
structure Ans where
  status : Nat
  detail : Nat
  payload : Bytes
  deriving DecidableEq, Repr

/-- An answer without payload. -/
def Ans.of (status detail : Nat) : Ans := ⟨status, detail, []⟩
def Ans.ok (payload : Bytes) : Ans := ⟨0, 0, payload⟩

/-! ### Fields of a frame (R480) -/

def frCrit (f : Bytes) : Bool := bit (byteAt f 3) 0
def frInd (f : Bytes) : Bool := bit (byteAt f 3) 2
def frOp (f : Bytes) : Nat := fieldLE f 4 2
def frLen (f : Bytes) : Nat := fieldLE f 8 4
def frCounter (f : Bytes) : Nat := fieldLE f 0x10 8
def frPayload (f : Bytes) : Bytes := slice f 32 (frLen f)
def frMac (f : Bytes) : Bytes := slice f (32 + frLen f) 16

/-- The payload that a command takes either way (R482: inline or indirect). -/
def Req.body (r : Req) : Bytes := if frInd r.frame then r.ind else frPayload r.frame

/-- R483 step 1: MAGIC, VERSION, lengths and reserved bytes. A request is no response. Log 163 (DEDUCED). -/
def frameOk (r : Req) (s : State) : Bool :=
  let f := r.frame
  let ind := fieldLE f 0x0C 4
  decide (32 ≤ f.length) && fieldLE f 0 2 == 0x5941 && byteAt f 2 == 1 && (byteAt f 3 &&& 0xFA) == 0 &&
    f.length == 32 + frLen f + (if frCrit f then 16 else 0) &&
    (if r.udp.isSome then !frInd f && ind == 0
     else (ind == fget F.MBX_IND_LEN_LEN 0 s && (frInd f || ind == 0))) &&
    fieldLE f 0x18 2 == 0 && fieldLE f 0x1A 6 == 0

/-! ### Opcodes (R482, R544) -/

/-- What the tables of R482 and R544 say of an opcode: critical (0 no, 1 yes, 2 signed, 3 yes when OWNED), states (bit 0
UNOWNED, 1 OWNED, 2 DECOMMISSIONED) and modes (bit 0 CONFIGURE, 1 OPERATE, 2 LOCKDOWN). -/
def opRow (op : Nat) : Option (Nat × Nat × Nat) :=
  match op with
  | 0x0001 => some (0, 7, 7)
  | 0x0002 => some (0, 7, 7)
  | 0x0003 => some (0, 2, 3)
  | 0x0010 => some (2, 7, 7)
  | 0x0011 => some (1, 2, 1)
  | 0x0012 => some (1, 2, 1)
  | 0x0020 => some (1, 2, 3)
  | 0x0021 => some (1, 2, 3)
  | 0x0022 => some (1, 2, 3)
  | 0x0030 => some (2, 2, 1)
  | 0x0031 => some (2, 2, 2)
  | 0x0040 => some (1, 2, 1)
  | 0x0041 => some (1, 2, 7)
  | 0x0042 => some (0, 7, 7)
  | 0x0050 => some (0, 2, 3)
  | 0x0051 => some (0, 2, 3)
  | 0x0100 => some (0, 7, 7)
  | 0x0101 => some (1, 2, 3)
  | 0x0110 => some (0, 7, 7)
  | 0x0111 => some (0, 7, 7)
  | 0x0112 => some (0, 7, 7)
  | 0x0113 => some (0, 7, 7)
  | 0x0120 => some (3, 3, 7)
  | 0x0121 => some (0, 7, 7)
  | 0x0122 => some (3, 7, 3)
  | 0x0130 => some (3, 3, 3)
  | _ => none

/-- R483 step 3: the opcode is critical in this state; the boot ROM takes FW_WRITE as signed (R546). -/
def opCritical (op : Nat) (s : State) : Bool :=
  match opRow op with
  | some (c, _, _) => c == 1 || (c == 3 && secState s == 1 && !s.tch.romOnly)
  | none => false

/-- Bit of the mode in the modes of an opcode. -/
def modeBit (s : State) : Nat := if s.mode = .configure then 0 else if s.mode = .operate then 1 else 2

/-- R477: TAKE_OWNERSHIP is allowed here. Log 228 (DEDUCED). -/
def ownAllowed (s : State) : Bool :=
  (s.mode == .configure && secState s == 0) || (s.mode == .lockdown && fget F.WARD_BOOT_FAIL 0 s == 4)

/-- R483 step 4: state and mode allow the opcode; R546: the boot ROM accepts only FW_WRITE with SLOT 1. -/
def cmdAllowed (op : Nat) (f : Bytes) (s : State) : Bool :=
  if s.tch.romOnly then op == 0x0120 && byteAt (frPayload f) 0 == 1
  else if op = 0x0010 then ownAllowed s
  else match opRow op with
    | some (_, st, m) => bit st (secState s) && bit m (modeBit s)
    | none => false

/-- R483 steps 2 to 4: the first failure, as STATUS and DETAIL. Log 159 (DEDUCED). -/
def opCheck (f : Bytes) (s : State) : Option Ans :=
  let op := frOp f
  if (opRow op).isNone then some (Ans.of 6 2)
  else if frCrit f != opCritical op s then some (Ans.of 6 3)
  else if !cmdAllowed op f s then some (Ans.of 5 0)
  else none

/-! ### Answers (R480, R487) -/

/-- R485: first 16 B of H(K_CMD, Hdr || P || X). Log 163 (DEDUCED). -/
def adyelMac (key msg ind : Bytes) : Bytes :=
  fitTo 16 (Config.hmac384 key (msg ++ (if ind.isEmpty then [] else Config.sha384 ind)))

/-- R480, R487: the answer to a frame. Log 163 (DEDUCED). -/
def answerFrame (key f : Bytes) (a : Ans) : Bytes :=
  let crit := frCrit f
  let h := leBytes 2 0x5941 ++ leBytes 1 1 ++ leBytes 1 (2 + b2n crit) ++ fitTo 4 (slice f 4 4) ++
    leBytes 4 a.payload.length ++ leBytes 4 0 ++ fitTo 8 (slice f 0x10 8) ++ leBytes 1 a.status ++ leBytes 1 a.detail ++
    leBytes 6 0
  let m := h ++ a.payload
  if crit then m ++ adyelMac (fitTo 48 key) m [] else m

/-- R452, R481: an answer goes back the way its request came. -/
def adyelSend (udp : Option Nat) (f : Bytes) (s : State) : State :=
  match udp with
  | some src => emit (.adyelUdp src f) s
  | none => { s with tch := { s.tch with mbxOut := s.tch.mbxOut ++ [f] } }

/-- R542 KIND 0x0031: an answer with AUTH_FAIL or REPLAY is logged. Log 164 (DEDUCED). -/
def authLog (udp : Option Nat) (f : Bytes) (a : Ans) (s : State) : State :=
  if a.status = 7 ∨ a.status = 8 then
    logPush 0x31 (fitTo 2 (slice f 4 2) ++ fitTo 8 (slice f 0x10 8) ++ leBytes 1 (b2n udp.isSome)) s
  else s

/-- An answer is made and sent. Log 154 (DEDUCED). -/
def adyelAnswer (key : Bytes) (udp : Option Nat) (f : Bytes) (a : Ans) (s : State) : State :=
  adyelSend udp (answerFrame key f a) (authLog udp f a s)

/-! ### The Ward store (R478, R479, R486) -/

/-- R478, R486: a change of the store is written to both copies. -/
def storeWrite (s : State) : State :=
  if secState s ≠ 1 then s
  else
    let w := s.ward
    let c : StoreCopy := { os := w.os, counter := w.counter, lastMac := w.lastFrame, lastAnswer := w.lastAnswer,
                           floor := w.floor, signers := w.signers, enc := w.enc, gen := w.gen + 1, epoch := w.storeEpoch }
    { s with ward := { w with gen := w.gen + 1, copy0 := some c, copy1 := some c } }

/-- R479: every STORE_EPOCH bit is burnt. -/
def epochSpent (s : State) : Bool := decide (256 ≤ s.ward.storeEpoch)

/-- R479: burn one STORE_EPOCH bit, and rewrite the store under it. -/
def epochBurn (s : State) : State :=
  storeWrite { s with ward := { s.ward with storeEpoch := s.ward.storeEpoch + 1 } }

/-! ### Taking a request -/

/-- R505, R586: requests are answered in CONFIGURE, OPERATE and LOCKDOWN, until gating begins. -/
def adyelOpen (s : State) : Bool :=
  (s.mode == .configure || s.mode == .operate || s.mode == .lockdown) && !s.power.gated && !s.power.inReset

/-- R481: the management port accepts Adyel. -/
def udpOpen (s : State) : Bool := !s.tch.romOnly && (!loaded s || spFlag s.cfg 5)

/-- R451, R452, R481: the request that a command brings, with the state in which it is run. Log 163 (DEDUCED). -/
def adyelTake (a : AdyelIn) (s : State) : Option (Req × State) :=
  if !adyelOpen s then none
  else match a with
  | .mailbox ind =>
    let n := fget F.MBX_IND_LEN_LEN 0 s
    if !s.tch.mbxWaiting || (n != 0 && !(fnD0 0 s && busOpen s)) then none
    else some (⟨none, fitTo (fget F.MBX_REQ_LEN_LEN 0 s) s.tch.mbxReq, fitTo n ind⟩,
      { s with tch := { s.tch with mbxWaiting := false } })
  | .udp src fragmented f =>
    if !udpOpen s || fragmented || decide (f.length < 32) then none else some (⟨some src, f, []⟩, s)

/-- Counters of R483 steps 5 and 6. Log 164 (DEDUCED). -/
def authFail (s : State) : State := bump F.WARD_AUTH_FAIL_COUNT 0 s
/-- Log 164 (DEDUCED). -/
def replayFail (s : State) : State := bump F.WARD_REPLAY_COUNT 0 s

/-- R483 step 7, R487: the counter of a critical command is persisted, and PENDING is answered, before it runs. -/
def critStart (r : Req) (s : State) : State :=
  let t := storeWrite { s with ward := { s.ward with counter := frCounter r.frame, lastFrame := frMac r.frame, lastAnswer := [] } }
  adyelSend r.udp (answerFrame s.ward.kCmd r.frame (Ans.of 2 0)) t

/-- R486, R487, R542: the answer of a critical command that ran is cached, logged and sent. Log 158 (DEDUCED). -/
def critEnd (key : Bytes) (r : Req) (x : Ans × State) : State :=
  let a := answerFrame key r.frame x.1
  let s := authLog r.udp r.frame x.1 x.2
  let s := if secState s = 1 then storeWrite { s with ward := { s.ward with lastAnswer := a } } else s
  let s := logPush 0x30 (fitTo 2 (slice r.frame 4 2) ++ fitTo 8 (slice r.frame 0x10 8) ++ leBytes 1 x.1.status) s
  adyelSend r.udp a s

/-- R485 to R487: a critical command whose MAC and counter pass: the counter is persisted, PENDING is answered, the
command runs, and its answer is cached and sent. Log 158 (DEDUCED). -/
def critRun (r : Req) (k : Req → State → Ans × State) (s : State) : Nat × State :=
  let x := k r (critStart r s)
  (x.1.status, critEnd s.ward.kCmd r x)

/-- R483 steps 2 to 8 on a frame that passes step 1; answers the status of a command that ran, and 0xFF of one that did
not. The write of step 7 draws an IV (R478), so that it fails with NO_ENTROPY while the source fails (R466). -/
def adyelSteps (r : Req) (k : Req → State → Ans × State) (s : State) : Nat × State :=
  let f := r.frame
  match opCheck f s with
  | some a => (0xFF, adyelAnswer s.ward.kCmd r.udp f a s)
  | none =>
    if !frCrit f then
      let x := k r s
      (x.1.status, adyelAnswer [] r.udp f x.1 x.2)
    else if s.ward.kCmd = [] ∨ adyelMac s.ward.kCmd (slice f 0 (32 + frLen f)) r.ind ≠ frMac f then
      (0xFF, adyelAnswer s.ward.kCmd r.udp f (Ans.of 7 0) (authFail s))
    else if frCounter f = s.ward.counter ∧ frMac f = s.ward.lastFrame ∧ s.ward.lastAnswer ≠ [] then
      (0xFF, adyelSend r.udp s.ward.lastAnswer s)
    else if frCounter f ≤ s.ward.counter then
      (0xFF, adyelAnswer s.ward.kCmd r.udp f (Ans.of 8 0) (replayFail s))
    else if !flag F.WARD_STATE_ENTROPY_OK 0 s then (0xFF, adyelAnswer s.ward.kCmd r.udp f (Ans.of 5 0x11) s)
    else critRun r k s

/-- A command of the opcode `op` whose effect is `k`: a frame that names another opcode, or fails step 1, is none of its. -/
def adyelRun (op : Nat) (a : AdyelIn) (k : Req → State → Ans × State) (s : State) : Nat × State :=
  match adyelTake a s with
  | none => (0xFF, s)
  | some (r, t) => if frameOk r s && frOp r.frame == op then adyelSteps r k t else (0xFF, s)

/-- ADYEL_BAD_FRAME (R483 steps 1 to 3): a frame that is not well formed, names no command, or sets CRITICAL wrongly. -/
def execAdyelBadFrame (a : AdyelIn) (s : State) : Host.Outcome State Fault Refusal :=
  .next (match adyelTake a s with
    | none => s
    | some (r, t) =>
      if !frameOk r s then adyelAnswer s.ward.kCmd r.udp (fitTo 32 r.frame) (Ans.of 6 1) t
      else match opCheck r.frame s with
        | some x => if x.status = 6 then adyelAnswer s.ward.kCmd r.udp r.frame x t else s
        | none => s)

/-! ### The debug grant (R503, R504) -/

/-- A debug grant is in force. -/
def granted (s : State) : Bool := flag F.WARD_STATE_OBSERVE 0 s || flag F.WARD_STATE_CONSOLE 0 s

/-- R542 KIND 0x0050; the codes of the end cause are open: 0 begun, 1 expiry, 2 DEBUG_REVOKE, 4 standby, 5 policy. Log 165 (DESIGN CHOICE). -/
def grantLog (scope secs cause : Nat) (s : State) : State :=
  logPush 0x50 (leBytes 1 scope ++ leBytes 4 secs ++ leBytes 1 (Config.freeValue 50 cause)) s

/-- R503: the grant in force ends; the observation port stops with it (R566). Log 165 (DESIGN CHOICE). -/
def grantStop (cause : Nat) (s : State) : State :=
  if !granted s then s
  else
    let scope := fget F.WARD_STATE_OBSERVE 0 s + 2 * fget F.WARD_STATE_CONSOLE 0 s
    let s := setFlag F.WARD_STATE_OBSERVE 0 false (setFlag F.WARD_STATE_CONSOLE 0 false s)
    let s := setFlag F.TRC_CTRL_SINK 0 false s
    let secs := s.ward.grantSecs
    grantLog scope secs cause { s with ward := { s.ward with grantEnd := 0, grantSecs := 0 }
                                       trc := { s.trc with sinceSync := none } }

end Sys2Proof.Machine
end

