-- ==== Sys2Proof/Machine/Faush.lean ====
section
/-! DEFINITION. Faush links (R115 to R128, R211): flits, control messages, loss and restoration, drain; and the Shackle
lines of a follower (R129 to R134). -/
namespace Sys2Proof.Machine

/-! ### Control messages (R122, R123) -/

/-- R122, R123: the HELLO of this device. -/
def ownHello (s : State) : Bytes :=
  let h := s.loader.header
  ctlMsg 1 (leBytes 1 (hdMesh h) ++ leBytes 1 (hdMembers h) ++ leBytes 1 (b2n (hdTickMaster h)) ++ leBytes 1 0 ++
    leBytes 4 (tdN s.cfg 0) ++ leBytes 4 (tdD s.cfg 0) ++ leBytes 4 0)

/-- R122: the HELLO is not the one this device expects on the link. -/
def helloBad (l : Nat) (b : Bytes) (s : State) : Bool :=
  let h := s.loader.header
  byteAt b 0 != meshPeer (selfDev s) l || byteAt b 1 % 16 != hdMembers h || fieldLE b 4 4 != tdN s.cfg 0 ||
    fieldLE b 8 4 != tdD s.cfg 0 || (byteAt b 2 == 1 && hdTickMaster h)

/-- R122, R125, R126: a HELLO arrives. -/
def helloIn (l : Nat) (b : Bytes) (s : State) : State :=
  if !flag F.FL_STATUS_FLIT_LOCK l s then s
  else
    let s := fset F.FL_STATUS_PEER_INDEX l (byteAt b 0) s
    if helloBad l b s then
      let s := flMod l (fun k => { k with helloOk := false }) s
      let s := setFlag F.FL_STATUS_PEER_UP l false (setEvent F.FL_STATUS_HELLO_MISMATCH l (100 + l) s)
      linkStateChanged (haspRise (42 + l) 1 s)
    else
      let s := flMod l (fun k => { k with helloOk := true, peerMaster := byteAt b 2 == 1 }) s
      if (flOf l s).restoring then s else linkStateChanged (setFlag F.FL_STATUS_PEER_UP l true s)

/-- R123: a LINK_STATE arrives: taken and relayed when it is later than the last one taken from its source. -/
def linkStateIn (l : Nat) (b : Bytes) (s : State) : State :=
  let src := byteAt b 0 % 4
  let q := fieldLE b 4 4
  let later := match Tab.find? s.mesh.stateSeq src with
    | some o => q != o && atOrAfter32 q o
    | none => true
  if !flag F.FL_STATUS_FLIT_LOCK l s || src == selfDev s || !later then s
  else
    let s := { s with mesh := { s.mesh with stateSeq := Tab.put s.mesh.stateSeq src q,
                                            upMask := Tab.set 0 s.mesh.upMask src (byteAt b 1 % 16) } }
    (List.range 3).foldl (fun s l' => if l' != l && linkLive l' s then ctlSend l' (ctlMsg 2 b) s else s) s

/-- R123, R132: a TIME_SYNC arrives; only the tick master's is taken. -/
def timeSyncIn (l : Nat) (b : Bytes) (s : State) : State :=
  if !flag F.FL_STATUS_FLIT_LOCK l s || flag F.SHK_STATUS_MASTER 0 s || !(flOf l s).peerMaster then s
  else { s with time := { s.time with nextSync := some (fieldLE b 0 6, fieldLE b 8 8) } }

/-- R123: a control message; one of another type is discarded. -/
def controlIn (l : Nat) (m : Bytes) (s : State) : State :=
  let b := slice m 4 16
  match byteAt m 0 with
  | 1 => helloIn l b s
  | 2 => linkStateIn l b s
  | 3 => timeSyncIn l b s
  | _ => s

/-! ### Sending (R117 to R121, R211) -/

/-- R119: bytes of a packet with its padding. -/
def pktLen (frameLen : Nat) : Nat := 16 + 4 * ceilDiv frameLen 4
/-- R121: credits of a packet. -/
def pktCredit (frameLen : Nat) : Nat := ceilDiv (pktLen frameLen) 64

/-- R119: the packet of a copy. -/
def pktBytes (c : Copy) : Bytes :=
  let fcs := fcsOf c.bytes
  fitTo (pktLen c.len) (c.flHdr ++ c.bytes ++ (if c.bad then fcs.map (fun b => ~~~ b) else fcs))

/-- R121, R211: the VC served next: round robin among those with a packet and credit for the whole of it. -/
def pickVc (k : FlLink) : Option Nat :=
  ((List.range 8).map (fun i => (k.turn + i) % 8)).find? (fun v =>
    match Tab.get [] k.queues v with
    | c :: _ => decide (pktCredit c.len ≤ Tab.get 0 k.credit v)
    | [] => false)

/-- R121, R211: start one packet, if a VC may. -/
def startPacket (l : Nat) (s : State) : State :=
  let k := flOf l s
  match pickVc k with
  | none => s
  | some v =>
    match Tab.get [] k.queues v with
    | [] => s
    | c :: r =>
      let b := pktBytes c
      let s := flMod l (fun k => { k with queues := Tab.set [] k.queues v r, turn := (v + 1) % 8,
                                          credit := Tab.mod 0 k.credit v (· - pktCredit c.len),
                                          txBytes := k.txBytes ++ b, txFrames := k.txFrames ++ [(c.frame, b.length)] }) s
      let s := if c.mcast then s else setShared (sharedUsed s - c.cells) s
      postcard c .faush 0 s

/-- Start packets until the next flit is filled; `fuel` bounds the packets of one flit. -/
def fillFlit (l : Nat) : (fuel : Nat) → State → State
  | 0, s => s
  | n + 1, s =>
    if 500 ≤ (flOf l s).txBytes.length || (pickVc (flOf l s)).isNone then s else fillFlit l n (startPacket l s)

/-- Take `n` sent bytes off the frames on the link: those that are done, and the rest. -/
def framesSent : (n : Nat) → List (Nat × Nat) → List Nat × List (Nat × Nat)
  | _, [] => ([], [])
  | n, (f, b) :: r =>
    if b ≤ n then
      let x := framesSent (n - b) r
      (f :: x.1, x.2)
    else ([], (f, b - n) :: r)

/-- R117: the ACK field. -/
def ackField (k : FlLink) : Nat :=
  if k.nak then 0x2000 + k.rxSeq else if k.ackValid then 0x1000 + (k.rxSeq + 4095) % 4096 else 0

/-- R121: the VC whose credit the next flit returns. -/
def owedVc (k : FlLink) : Option Nat :=
  ((List.range 8).map (fun i => (k.owedTurn + i) % 8)).find? (fun v => Tab.get 0 k.owed v != 0)

/-- R117: lay out a flit and send it. Log 62 (DEDUCED). -/
def sendFlit (l ty : Nat) (first : Nat) (payload : Bytes) (s : State) : State :=
  let k := flOf l s
  let vc := owedVc k
  let n := (vc.map (fun v => min 8191 (Tab.get 0 k.owed v))).getD 0
  let body := leBytes 2 (ty * 4096 + k.txSeq) ++ leBytes 2 (ackField k) ++ leBytes 2 (n * 8 + vc.getD 0) ++
    leBytes 2 first ++ fitTo 500 payload
  let flit := body ++ leBytes 4 (crc32 body)
  let s := flMod l (fun k => { k with nak := false,
                                      owed := (match vc with | some v => Tab.mod 0 k.owed v (· - n) | none => k.owed),
                                      owedTurn := (match vc with | some v => (v + 1) % 8 | none => k.owedTurn),
                                      txSeq := if ty = 0 then k.txSeq else (k.txSeq + 1) % 4096,
                                      replay := if ty = 0 then k.replay else k.replay ++ [(k.txSeq, flit)] }) s
  emit (.flit l flit) s

/-- R117 to R121: a DATA flit, or IDLE when nothing may be sent. -/
def sendData (l : Nat) (s : State) : State :=
  let before := (flOf l s).txBytes.length
  let s := if linkLive l s then fillFlit l 40 s else s
  let k := flOf l s
  if k.txBytes.isEmpty then sendFlit l 0 0x7FFF [] s
  else
    let first := if before < k.txBytes.length && decide (before < 500) then before / 4 else 0x7FFF
    let x := framesSent 500 k.txFrames
    let s := sendFlit l 1 first (k.txBytes.take 500)
      (flMod l (fun k => { k with txBytes := k.txBytes.drop 500, txFrames := x.2 }) s)
    x.1.foldl (fun s f => copyGone f false s) s

/-- R116, R118: the next flit of a locked link: a replay first, then control, then data; IDLE with 2,047 unacknowledged.
An enabled link without lock is in training and sends /FS/. Log 62 (DEDUCED). -/
def flitOut (l : Nat) (s : State) : State :=
  let k := flOf l s
  if !flag F.FL_STATUS_FLIT_LOCK l s then
    (if flag F.FL_CTRL_ENABLE l s && !flag F.FL_STATUS_DRAINING l s then emit (.training l) s else s)
  else
    match k.resend with
    | (_, f) :: r => emit (.flit l f) (bump F.FL_REPLAYS_COUNT l (flMod l (fun k => { k with resend := r }) s))
    | [] =>
      if 2047 ≤ k.replay.length then sendFlit l 0 0x7FFF [] s
      else
        match k.control with
        | m :: r => sendFlit l 2 0x7FFF m (flMod l (fun k => { k with control := r }) s)
        | [] => sendData l s

/-! ### Receiving (R118 to R121, R125) -/

/-- R118: distance of a SEQ behind the sender's next SEQ. -/
def seqDist (tx q : Nat) : Nat := (tx + 4096 - q % 4096) % 4096

/-- R118: an ACK or NAK field arrives. -/
def ackIn (l a : Nat) (s : State) : State :=
  let k := flOf l s
  let v := a % 4096
  let d := seqDist k.txSeq v
  if 2048 ≤ d then s
  else if bit a 13 then
    let keep := k.replay.filter (fun f => decide (seqDist k.txSeq f.1 ≤ d) && f.1 != k.txSeq)
    let oldest := keep.head?.map (·.1) == k.replay.head?.map (·.1)
    flMod l (fun k => { k with replay := keep, resend := keep, replays := if oldest then k.replays + 1 else 1 }) s
  else if bit a 12 then
    let keep := k.replay.filter (fun f => decide (seqDist k.txSeq f.1 < d))
    flMod l (fun k => { k with replay := keep, resend := k.resend.filter (fun f => decide (seqDist k.txSeq f.1 < d)),
                               replays := if keep.length < k.replay.length then 0 else k.replays }) s
  else s

/-- R119, R120, R125, R126: a packet is complete. Log 65 (DESIGN CHOICE). -/
def packetIn (l : Nat) (pkt : Bytes) (s : State) : State :=
  let len := fieldLE pkt 2 2
  let vc := byteAt pkt 11 % 8
  let s := flMod l (fun k => { k with owed := Tab.mod 0 k.owed vc (· + pktCredit len) }) s
  if !(flOf l s).helloOk then s
  else
    let b := slice pkt 16 (len - 4)
    let route := byteAt pkt 1
    let dst := route / 4 % 4
    let fl := byteAt pkt 10
    let now := nowNs s
    let ts := fieldLE pkt 12 4
    let f := newFlight (byteAt pkt 4) false true s
    let half := (flOf l s).rxPkts % 2
    let s := flMod l (fun k => { k with rxPkts := k.rxPkts + 1 }) f.2
    let h : Head := { num := f.1, bytes := b, ing := byteAt pkt 4, slice := 2 * l + half, bad := bit fl 0,
                      tagged := bit fl 1, tIn := now - (now + 2 ^ 32 - ts) % 2 ^ 32, fromPort := false,
                      srcDev := route % 4, viaFaush := true }
    let mc := byteAt pkt 0 % 16 == 1
    if dst = selfDev s then
      let l3 := (parseFrame s.cfg b).l3Hdr
      let s := if mc then replicate h l3 (fieldLE pkt 8 2) true s
        else toPortAny (h.copy.toward (byteAt pkt 5) (fieldLE pkt 6 2 % 32768) s.cfg) l3
          (bump F.TM_CT_FALLBACK_COUNT (byteAt pkt 5) (addCopy h.num s))
      copyGone f.1 false s
    else
      let hd := splice (slice pkt 0 16) 1 [BitVec.ofNat 8 (route % 16 + 16)]
      let c := { h.copy with egr := byteAt pkt 5, leaf := fieldLE pkt 6 2 % 32768, cls := vc, flHdr := hd }
      let s := addCopy h.num s
      let s := if route / 16 % 4 = 0 then meshSend dst c s
        else if linkLive (directLink dst s) s then linkAdmit (directLink dst s) c s
        else endCopy c .dropped (bump F.FL_LOST_PKTS_COUNT (directLink dst s) s)
      copyGone f.1 false s

/-- R119: take complete packets off the received bytes; `fuel` bounds the packets of one flit. -/
def packetsIn (l : Nat) : (fuel : Nat) → Bytes → State → Bytes × State
  | 0, b, s => (b, s)
  | n + 1, b, s =>
    if b.isEmpty || byteAt b 0 / 16 != 1 then ([], s)
    else if b.length < 16 then (b, s)
    else
      let t := pktLen (fieldLE b 2 2)
      if b.length < t then (b, s) else packetsIn l n (b.drop t) (packetIn l (b.take t) s)

/-- R119: the payload of a DATA flit. -/
def dataIn (l : Nat) (flit : Bytes) (s : State) : State :=
  let pl := slice flit 8 500
  let k := flOf l s
  let b := if k.rxBytes.isEmpty then (match firstPkt flit with | some o => pl.drop o | none => []) else k.rxBytes ++ pl
  let x := packetsIn l 64 b s
  flMod l (fun k => { k with rxBytes := x.1 }) x.2

/-- R116, R118: a flit whose CRC fails: a NAK is due, and the 64th in a row loses flit lock. -/
def flitBad (l : Nat) (s : State) : State :=
  let n := (flOf l s).crcFails + 1
  let s := flMod l (fun k => { k with crcFails := n, nak := true, discarding := true }) s
  if 64 ≤ n then setFlag F.FL_STATUS_FLIT_LOCK l false s else s

/-- R116 to R121: a flit arrives on a locked link. A gap sends one NAK, and the flits up to the expected SEQ are discarded;
a flit from before it has been taken already. Log 62 (DEDUCED). Log 64 (DEDUCED). -/
def flitIn (l : Nat) (flit : Bytes) (s : State) : State :=
  if !flag F.FL_STATUS_FLIT_LOCK l s then s
  else if fieldLE flit 508 4 ≠ crc32 (flit.take 508) then flitBad l s
  else
    let s := flMod l (fun k => { k with crcFails := 0, goodAt := s.time.cclk }) s
    let k := flOf l s
    let ty := fieldLE flit 0 2 / 4096
    let q := fieldLE flit 0 2 % 4096
    if q ≠ k.rxSeq then
      if ty ≠ 0 ∧ seqDist k.rxSeq q < 2048 then s else flMod l (fun k => { k with nak := k.nak || !k.discarding, discarding := true }) s
    else
      let cr := fieldLE flit 4 2
      let s := flMod l (fun k => { k with discarding := false, credit := Tab.mod 0 k.credit (cr % 8) (· + cr / 8) }) s
      let s := ackIn l (fieldLE flit 2 2) s
      if ty = 0 then s
      else
        let s := flMod l (fun k => { k with rxSeq := (k.rxSeq + 1) % 4096, ackValid := true }) s
        if ty = 1 then dataIn l flit s else if ty = 2 then controlIn l (slice flit 8 20) s else s

/-! ### Lock, loss and restoration (R116, R121, R124, R126, R128) -/

/-- R116, R121, R122: flit lock on an enabled link: fresh credits and a HELLO. -/
def lockUp (l : Nat) (s : State) : State :=
  let back := (flOf l s).restoring || flag F.FL_STATUS_PEER_UP l s
  let s := linkRequeue l (flReplayEnd l (setFlag F.FL_STATUS_PEER_UP l false s))
  let s := setFlag F.FL_STATUS_PCS_UP l true (setFlag F.FL_STATUS_FLIT_LOCK l true s)
  flMod l (fun _ => { FlLink.init with credit := (List.range 8).map (fun v => (v, 1024)), lockAt := s.time.cclk, goodAt := s.time.cclk,
                                       control := [ownHello s], restoring := back }) s

/-- R124, R125: the peer is declared lost. Log 63 (DEDUCED). -/
def peerLost (l : Nat) (s : State) : State :=
  let s := setFlag F.FL_STATUS_PEER_UP l false (setEvent F.FL_STATUS_PEER_LOST_EVT l (100 + l) s)
  let s := flDown l (linkRequeue l (flReplayEnd l s))
  let s := linkStateChanged (flMod l (fun k => { k with restoring := true }) s)
  haspRise (42 + l) 2 s

/-- R43, R570: the link can be enabled. -/
def flCan (l : Nat) (s : State) : Bool := s.mode == .operate && laneOn s.cfg (32 + l)

/-- R127, R128: a write to FL_CTRL. Log 47 (DEDUCED). Log 63 (DEDUCED). -/
def flCtrlWrite (l : Nat) (w : Word) (s : State) : State :=
  if !flCan l s then s
  else if wbit F.FL_CTRL_ENABLE w then flOn l s
  else linkStateChanged (linkRequeue l (flOff l s))

/-! ### Commands -/

/-- FLIT_LOCK (R116). -/
def execFlitLock (l : Link) (s : State) : Host.Outcome State Fault Refusal :=
  .next (if flag F.FL_CTRL_ENABLE l.val s && !flag F.FL_STATUS_DRAINING l.val s && !flag F.FL_STATUS_FLIT_LOCK l.val s
    then lockUp l.val s else s)

/-- FLIT_LOCK_LOSS (R116): a control block, or the 64th consecutive flit with a CRC failure. -/
def execFlitLockLoss (l : Link) (cause : LockLoss) (s : State) : Host.Outcome State Fault Refusal :=
  .next (if cause == .controlBlock || decide (64 ≤ (flOf l.val s).crcFails) then
    setFlag F.FL_STATUS_FLIT_LOCK l.val false s else s)

/-- FLIT_SEND (R118). -/
def execFlitSend (l : Link) (s : State) : Host.Outcome State Fault Refusal := .next (flitOut l.val s)

/-- FLIT_RECEIVE (R118). -/
def execFlitReceive (l : Link) (flit : Bytes) (s : State) : Host.Outcome State Fault Refusal := .next (flitIn l.val flit s)

/-- HELLO (R122). -/
def execHello (l : Link) (body : Bytes) (s : State) : Host.Outcome State Fault Refusal := .next (helloIn l.val body s)

/-- LINK_STATE (R123). -/
def execLinkState (l : Link) (body : Bytes) (s : State) : Host.Outcome State Fault Refusal := .next (linkStateIn l.val body s)

/-- TIME_SYNC (R123, R132). -/
def execTimeSync (l : Link) (body : Bytes) (s : State) : Host.Outcome State Fault Refusal := .next (timeSyncIn l.val body s)

/-- TIME_SYNC_SEND (R132): the tick master names its next SHK_TICK edge on every live link. -/
def execTimeSyncSend (s : State) : Host.Outcome State Fault Refusal :=
  if flag F.SHK_STATUS_MASTER 0 s && running s && tdEnabled 0 s then
    let k := tickNext 0 s
    let m := ctlMsg 3 (leBytes 8 (nsSec (tickTime s.cfg 0 k) % 2 ^ 48) ++ leBytes 8 k)
    .next ((List.range 3).foldl (fun s l => if linkLive l s then ctlSend l m s else s) s)
  else .next s

/-- R124: valid flits have stopped: lock is lost, or one SEQ has been replayed 8 times without acknowledgement. Log 66
(DEDUCED). -/
def flitsStopped (l : Nat) (s : State) : Bool := !flag F.FL_STATUS_FLIT_LOCK l s || decide (8 ≤ (flOf l s).replays)

/-- PEER_LOST (R124): valid flits have stopped; of a link that shows no other reason, none has passed its CRC for 2 µs.
Log 66 (DEDUCED). -/
def execPeerLost (l : Link) (s : State) : Host.Outcome State Fault Refusal :=
  .next (if flag F.FL_CTRL_ENABLE l.val s && (flag F.FL_STATUS_PEER_UP l.val s || flag F.FL_STATUS_FLIT_LOCK l.val s)
    then peerLost l.val (if flitsStopped l.val s then s else reachCclk ((flOf l.val s).goodAt + 3200) s) else s)

/-- R126: packets for device `j` wait on another link than the direct one. Log 209 (DEDUCED). -/
def detourWaits (l j : Nat) (s : State) : Bool :=
  (List.range 3).any (fun l' => l' != l && (flOf l' s).queues.any (fun x => x.2.any (fun c => byteAt c.flHdr 1 / 4 % 4 == j)))

/-- LINK_RESTORE (R126): 1 ms of continuous flit lock and a matching HELLO; packets on the two-hop path leave first. Log
209 (DEDUCED). -/
def execLinkRestore (l : Link) (s : State) : Host.Outcome State Fault Refusal :=
  let k := flOf l.val s
  .next (if flag F.FL_STATUS_FLIT_LOCK l.val s && k.helloOk && k.restoring && !detourWaits l.val (meshPeer (selfDev s) l.val) s then
    let s := flMod l.val (fun k => { k with restoring := false }) (reachCclk (k.lockAt + 1600000) s)
    linkStateChanged (setFlag F.FL_STATUS_PEER_UP l.val true s)
  else s)

/-- FL_ENABLE (R128). -/
def execFlEnable (fn : Fn) (l : Link) (w : Word) (s : State) : Host.Outcome State Fault Refusal :=
  .next (hostWr fn .FL_CTRL l.val s (flCtrlWrite l.val (withBit w 0 true)))

/-- FL_DISABLE (R128). -/
def execFlDisable (fn : Fn) (l : Link) (w : Word) (s : State) : Host.Outcome State Fault Refusal :=
  .next (hostWr fn .FL_CTRL l.val s (flCtrlWrite l.val (withBit w 0 false)))

/-- R126, R128: the replay buffer is acknowledged or 50 µs have passed: electrical idle, and the pending enable; a link that
carried traffic is restored like a lost one. -/
def flDrained (l : Nat) (s : State) : State :=
  if flag F.FL_STATUS_DRAINING l s then
    let back := (flOf l s).restoring || flag F.FL_STATUS_PEER_UP l s
    let s := if (flOf l s).replay.isEmpty then s else reachCclk ((flOf l s).drainAt + 80000) s
    let s := flMod l (fun k => { k with restoring := back }) (flDown l (flQueuesEnd l (flReplayEnd l s)))
    linkStateChanged (setFlag F.FL_STATUS_ENABLE_PENDING l false (setFlag F.FL_STATUS_DRAINING l false s))
  else s

/-- FL_DRAIN_END (R128). -/
def execFlDrainEnd (l : Link) (s : State) : Host.Outcome State Fault Refusal := .next (flDrained l.val s)

/-! ### The Shackle lines (R130 to R133) -/

/-- A follower takes its time from SHK_TICK (R132). -/
def follower (s : State) : Bool := loaded s && running s && !flag F.SHK_STATUS_MASTER 0 s && tdN s.cfg 0 != 0

/-- R132: TD0 index that a follower expects of an edge stamped at `stamp` ns: that of TIME_SYNC, else the nearest.
Log 59 (DESIGN CHOICE). -/
def edgeIdx (stamp : Nat) (s : State) : Nat :=
  match s.time.nextSync with
  | some (_, k) => k
  | none => (2 * stamp * tdD s.cfg 0 + tdN s.cfg 0 * 10 ^ 9) / (2 * tdN s.cfg 0 * 10 ^ 9)

/-- R133: `n` periods of TD0 in core cycles. -/
def td0Cclk (n : Nat) (c : Cfg) : Nat := ceilDiv (n * tdN c 0 * 1600000000) (max 1 (tdD c 0))

/-- R133: expected edges that were missed since the last one: whole periods beyond one, to the nearest. Log 59 (DESIGN
CHOICE). -/
def edgesMissed (s : State) : Nat :=
  match s.time.edgeAt with
  | some c => (2 * (s.time.cclk - c) + td0Cclk 1 s.cfg) / (2 * max 1 (td0Cclk 1 s.cfg)) - 1
  | none => 0

/-- R133: an edge is counted: consecutive edges, and the index that the next one has. -/
def edgeNote (s : State) : State :=
  let m := edgesMissed s
  { s with time := { s.time with nextSync := s.time.nextSync.map (fun x => (x.1, x.2 + m)), edgeAt := some s.time.cclk,
                                 shkEdges := if m = 0 then s.time.shkEdges + 1 else 1 } }

/-- R132: a follower stamps the edge, steers TIME_INCR toward zero difference, and steps beyond 1 µs. How far it steers
is left open: a free value on the right side of the present increment. Log 58 (DEDUCED). Log 59 (DESIGN CHOICE). -/
def followEdge (s : State) : State :=
  let s := edgeNote s
  let stamp := nowNs s - fget F.SHK_CTRL_DELAY_NS 0 s
  let k := edgeIdx stamp s
  let d : Int := (stamp : Int) - (tickTime s.cfg 0 k : Int)
  let s := { s with time := { s.time with nextSync := s.time.nextSync.map (fun x => (x.1, x.2 + 1)) } }
  let s := fset F.SHK_STATUS_PHASE_ERR 0 (twos 8 (max (-127) (min 127 d))) s
  let i := fget F.TIME_INCR_INCR 0 s
  let s := if 1000 < d.natAbs then timeStepBy (-(d * 2 ^ 28)) s
    else if d = 0 then s
    else
      let v := freshValue 3 s
      timeIncrSet (if 0 < d then i - v.1 % (i - 0x0FFBE76D + 1) else i + v.1 % (0x10041893 - i + 1)) v.2
  if 8 ≤ s.time.shkEdges then setFlag F.SHK_STATUS_TICK_LOCK 0 true s else s

/-- SHK_TICK_EDGE (R132, R133). -/
def execShkTickEdge (s : State) : Host.Outcome State Fault Refusal := .next (if follower s then followEdge s else s)

/-- SHK_TICK_LOST (R133): a follower misses three expected edges, up to the third of which time has run. -/
def execShkTickLost (s : State) : Host.Outcome State Fault Refusal :=
  .next (if follower s then
    let s := match s.time.edgeAt with
      | some c => reachCclk (c + td0Cclk 3 s.cfg) s
      | none => s
    let s := { s with time := { s.time with shkEdges := 0, edgeAt := none, nextSync := none } }
    haspRise 11 2 (setFlag F.SHK_STATUS_TICK_LOCK 0 false (setEvent F.SHK_STATUS_TICK_LOST 0 95 s))
  else s)

/-- SHK_FAULT_SEEN (R130): the line SHK_FAULT_N is low; a device that does not drive it raises its Shackle source.
Log 194 (DEDUCED). -/
def execShkFaultSeen (s : State) : Host.Outcome State Fault Refusal :=
  let s := { s with power := { s.power with shkFaultIn := true } }
  .next (if shkDrive s || haspCause 11 s then s else haspRise 11 1 (haspLevel 11 true s))

end Sys2Proof.Machine
end

