-- ==== Sys2Proof/Machine/Modes.lean ====
section
/-! DEFINITION. Operating modes (R570 to R593): the rails and reset pins, board test, the requests for OPERATE, CONFIGURE
and STANDBY, and the entry to STANDBY. -/
namespace Sys2Proof.Machine

/-! ### Stopping and starting the data path -/

/-- R584, R586: every unit is disabled under its own drain rule. -/
def quiesce (s : State) : State :=
  let s := (List.range 256).foldl (fun s p => if portOn s.cfg p then macOff p s else s) s
  let s := (List.range 3).foldl (fun s l => flOff l s) s
  let s := (List.range 48).foldl (fun s e => ceOff e s) s
  let s := (List.range 64).foldl (fun s c => dcOff c s) s
  (busyFlows s).foldl (fun s c =>
    let s := fFlag c 1 false s
    if fState c s = 1 && fEnabled c s then essOff c s else s) s

/-- A MAC that drains still has a frame on the wire (R86), so that the longest drain has not ended. Log 39
(DEDUCED). -/
def wireBusy (s : State) : Bool :=
  s.ports.wire.any (fun (x : Nat × Copy) => flag F.MAC_STATUS_DRAINING x.1 s)

/-- R584, R586: the longest drain has ended, so every drain has. Log 39 (DEDUCED). -/
def drainsEnd (s : State) : State :=
  let s := (List.range 256).foldl (fun s p => if flag F.MAC_STATUS_DRAINING p s then macDrained p s else s) s
  let s := (List.range 3).foldl (fun s l => flDrained l s) s
  let s := (List.range 48).foldl (fun s e => ceDrained e s) s
  let s := (List.range 64).foldl (fun s c => dcDrained c s) s
  let s := (busyFlows s).foldl (fun s c => essDrained c s) s
  (s.coding.sc.map (·.1)).foldl (fun s k => scDrained k s) s

/-- R586: the units whose ENABLE is recorded in retention. -/
def enabledUnits (s : State) : List Nat :=
  (List.range 256).filter (fun p => portOn s.cfg p && flag F.MAC_CTRL_ENABLE p s) ++
  ((List.range 3).filter (fun l => flag F.FL_CTRL_ENABLE l s)).map (1000 + ·) ++
  ((List.range 48).filter (fun e => flag F.CE_CTRL_ENABLE e s)).map (2000 + ·) ++
  ((List.range 64).filter (fun c => flag F.DC_CTRL_ENABLE c s)).map (3000 + ·) ++
  ((busyFlows s).filter (fun c => fState c s = 1 && fEnabled c s)).map (10000 + ·)

/-- R591: a recorded unit is enabled again, as an enable that follows a drain. -/
def unitOn (u : Nat) (s : State) : State :=
  if u < 1000 then macOn u s
  else if u < 2000 then flOn (u - 1000) s
  else if u < 3000 then engKick (gangHead s.cfg (u - 2000)) (ceOn (u - 2000) s)
  else if u < 10000 then dcOn (u - 3000) s
  else essEnableDo (u - 10000) s

/-- R291: every engine whose USE is LIVE or FILE is enabled. -/
def enginesOn (s : State) : State :=
  (List.range 48).foldl (fun s e => if ceUse s.cfg e < 2 && gangHead s.cfg e = e then engKick e (ceOn e s) else s) s

/-! ### Requests (R583 to R585, R597) -/

/-- Log 46 (DEDUCED). -/
def setTransition (target : Nat) (s : State) : State :=
  fset F.GLB_MODE_TARGET 0 target (setFlag F.GLB_MODE_TRANSITION 0 true s)
def inTransition (s : State) : Bool := flag F.GLB_MODE_TRANSITION 0 s

/-- R585: a transition is in progress; a request that is armed or held counts as one. -/
def transBusy (s : State) : Bool :=
  inTransition s || s.power.armed.isSome || s.power.held.isSome || s.power.heldConfigure

/-- R583: the request for OPERATE; its result. Log 40 (DEDUCED). -/
def reqOperate (s : State) : Nat × State :=
  if s.mode ≠ .configure ∨ loaded s = false then (5, s)
  else if fget F.IMG_STATUS_PHASE 0 s ≠ 0 then (1, s)
  else (0, enterMode .operate 0 (enginesOn s))

/-- R584: the data path stops on the way to CONFIGURE. -/
def startConfigure (s : State) : State :=
  let s := setTransition 2 s
  let s := (s.coding.sc.map (·.1)).foldl (fun s k => scClose k [] s) s
  quiesce s

/-- R584: the request for CONFIGURE. A request made during a delta freeze is held. Log 37 (DEDUCED). Log 38
(DEDUCED). -/
def reqConfigure (s : State) : Nat × State :=
  if s.mode ≠ .operate then (5, s)
  else if transBusy s then (1, s)
  else if flag F.IMG_STATUS_DELTA_PENDING 0 s then
    (2, { s with power := { s.power with heldConfigure := true } })
  else (0, startConfigure s)

def stbyStatus (v : Nat) (s : State) : State := fset F.STBY_STATUS_STATUS 0 v s

/-- R585: the checks of a standby request, in order; 0 when all pass and 2 when it is to be armed. -/
def stbyCheck (atL2 : Bool) (s : State) : Nat :=
  if s.mode ≠ .operate then 5
  else if transBusy s then 1
  else if (s.power.wakeLow && flag F.GLB_WAKE_CFG_WAKE_PIN 0 s) || s.power.wakeSeen == some s.time.cclk then 10
  else if linkCold s then 0
  else if atL2 then 2
  else 5

/-- R586: a standby request is taken. -/
def takeStandby (retain : Bool) (s : State) : State :=
  let s := setTransition 4 (stbyStatus 2 s)
  { s with power := { s.power with takenAt := s.time.cclk, retain := retain, firstWake := 0 } }

/-- R74, R585: a request that has passed its checks is taken, or held until a delta has been applied. -/
def grantStandby (retain : Bool) (s : State) : State :=
  if flag F.IMG_STATUS_DELTA_PENDING 0 s then
    stbyStatus 2 { s with power := { s.power with held := some retain } }
  else takeStandby retain s

/-- R585: a standby request; its result. Log 37 (DEDUCED). -/
def reqStandby (retain atL2 : Bool) (s : State) : Nat × State :=
  match stbyCheck atL2 s with
  | 0 => (2, grantStandby retain s)
  | 2 => (2, stbyStatus 2 { s with power := { s.power with armed := some retain } })
  | r => (r, stbyStatus r s)

/-- R74, R584: what was held for a delta freeze goes on once the delta has been applied. Log 38 (DEDUCED). -/
def heldProceed (s : State) : State :=
  let held := s.power.held
  let conf := s.power.heldConfigure
  let s := { s with power := { s.power with held := none, heldConfigure := false } }
  if conf then (reqConfigure s).2
  else match held with
    | some retain =>
      let r := stbyCheck false s
      if r = 0 then takeStandby retain s else stbyStatus r s
    | none => s

/-- R597: a write of GLB_MODE_REQ with the given REQ. -/
def modeReq (req : Nat) (w : Word) (s : State) : State :=
  let r := if req = 2 then reqConfigure s
    else if req = 3 then reqOperate s
    else if req = 4 then reqStandby (wbit F.GLB_MODE_REQ_RETAIN_HBM w) (wbit F.GLB_MODE_REQ_AT_L2 w) s
    else (5, s)
  fset F.GLB_MODE_REQ_RESULT 0 r.1 r.2

/-- MODE_REQ_OPERATE (R583). -/
def execModeReqOperate (fn : Fn) (w : Word) (s : State) : Host.Outcome State Fault Refusal :=
  .next (hostWr fn.val .GLB_MODE_REQ 0 s (modeReq 3 w))

/-- MODE_REQ_CONFIGURE (R584). -/
def execModeReqConfigure (fn : Fn) (w : Word) (s : State) : Host.Outcome State Fault Refusal :=
  .next (hostWr fn.val .GLB_MODE_REQ 0 s (modeReq 2 w))

/-- CONFIGURE_ENTRY (R584): the longest drain has ended. Log 39 (DEDUCED). -/
def execConfigureEntry (s : State) : Host.Outcome State Fault Refusal :=
  .next (if s.mode == .operate && inTransition s && fget F.GLB_MODE_TARGET 0 s == 2 && !wireBusy s then
      enterMode .configure 0 (setFlag F.GLB_MODE_TRANSITION 0 false (drainsEnd s))
    else s)

/-- STANDBY_REQUEST (R585). -/
def execStandbyRequest (fn : Fn) (w : Word) (s : State) : Host.Outcome State Fault Refusal :=
  .next (hostWr fn.val .GLB_MODE_REQ 0 s (modeReq 4 w))

/-- The inputs of the always-on domain are watched (R593). -/
def pinsLive (s : State) : Bool := s.mode != .off && !s.power.inReset && !flag F.GLB_MODE_BOARD_TEST 0 s

/-- STBY_REQ_PIN (R585): a falling edge of STBY_REQ_N. -/
def execStbyReqPin (s : State) : Host.Outcome State Fault Refusal :=
  let fell := !s.power.stbyLow
  let s := { s with power := { s.power with stbyLow := true } }
  .next (if fell && pinsLive s && flag F.GLB_WAKE_CFG_PIN_REQ 0 s then
      (reqStandby (flag F.GLB_WAKE_CFG_PIN_RETAIN 0 s) false s).2
    else s)

/-- L2_READY_ENTRY (R585): an armed request is checked again. -/
def execL2ReadyEntry (s : State) : Host.Outcome State Fault Refusal :=
  .next (if s.pcie.link == .down then s
    else
      let s := { s with pcie := { s.pcie with link := .l2Ready } }
      match s.power.armed with
      | none => s
      | some retain =>
        let s := { s with power := { s.power with armed := none } }
        let r := stbyCheck false s
        if r = 0 then grantStandby retain s else stbyStatus r s)

/-! ### Entry to STANDBY (R586, R589, R599) -/

/-- STANDBY_GATING (R586): 2 µs after the request was taken. -/
def execStandbyGating (s : State) : Host.Outcome State Fault Refusal :=
  .next (if s.mode == .operate && inTransition s && fget F.GLB_MODE_TARGET 0 s == 4 && !s.power.gated then
      let s := reachCclk (s.power.takenAt + 3200) s
      let s := { s with power := { s.power with gated := true, recorded := enabledUnits s } }
      logSealNow (quiesce (grantStop 4 s))
    else s)

/-- R590: a wake is latched; WAKE_SRC keeps the first. -/
def wakeLatch (code : Nat) (s : State) : State :=
  let s := setFlag F.STBY_STATUS_WAKE_LATCHED 0 true s
  if s.power.firstWake ≠ 0 then s
  else fset F.STBY_STATUS_WAKE_SRC 0 code { s with power := { s.power with firstWake := code } }

/-- R587: the lines of condition sources that are not live in STANDBY are held low. -/
def standbyLines (s : State) : State :=
  ([1, 6, 9, 14, 37, 38, 39, 40]).foldl (fun s n => haspLevel n false s) s

/-- STANDBY_REACHED (R586): core domains are gated; WAKE_N that is low, and an alarm whose time has passed, wake the
device (R589, R599). Log 39 (DEDUCED). -/
def execStandbyReached (s : State) : Host.Outcome State Fault Refusal :=
  .next (if s.mode == .operate && s.power.gated && !wireBusy s then
      let s := drainsEnd s
      let s := standbyLines (setFlag F.GLB_MODE_TRANSITION 0 false (enterMode .standby 0 s))
      let s := setFlag F.GLB_MODE_RETAINED 0 s.power.retain (stbyStatus 0 s)
      let s := fset F.STBY_STATUS_ENTRIES 0 (min 65535 (fget F.STBY_STATUS_ENTRIES 0 s + 1)) s
      let t := nearestSec (fget F.GLB_WAKE_TIME_SEC_SEC 0 s) s * 10 ^ 9 + fget F.GLB_WAKE_TIME_NS_NS 0 s
      let alarm := if flag F.GLB_WAKE_CFG_ALARM 0 s then some t else none
      let s := { s with power := { s.power with gated := false, reachedAt := s.time.cclk, alarmNs := alarm } }
      let s := if s.power.wakeLow && flag F.GLB_WAKE_CFG_WAKE_PIN 0 s then wakeLatch 1 s else s
      if flag F.GLB_WAKE_CFG_ALARM 0 s && decide (t ≤ nowNs s) then
        wakeLatch 4 { s with power := { s.power with alarmNs := none } }
      else s
    else s)

/-! ### Rails and resets (R571 to R578, R582) -/

/-- R571: the device goes to OFF; the always-on state is lost. -/
def goOff (s : State) : State := fset F.GLB_MODE_MODE 0 0 { coldReset s with mode := .off }

/-- RAIL_LOSS (R571). -/
def execRailLoss (s : State) : Host.Outcome State Fault Refusal :=
  let s := { s with power := { s.power with rails := false, inReset := false, driveShkRst := false } }
  .next (goOff s)

/-- RAIL_UP (R573, R574): GLB_RESET_CAUSE takes its Reset column; the device stays in OFF until PORST_N rises. Log
30 (DESIGN CHOICE). -/
def execRailUp (s : State) : Host.Outcome State Fault Refusal :=
  .next (if s.power.rails then s else { s with power := { s.power with rails := true } })

/-- PORST_FALL (R576, R129). Log 31 (DEDUCED). -/
def execPorstFall (s : State) : Host.Outcome State Fault Refusal :=
  .next (if !s.power.porstHigh then s
    else
      let s := { s with power := { s.power with porstHigh := false } }
      if !s.power.rails then s
      else
        let s := goOff { s with power := { s.power with driveShkRst := true, inReset := false } }
        setFlag F.GLB_RESET_CAUSE_PORST 0 true (setFlag F.GLB_RESET_CAUSE_POWER_ON 0 false s))

/-- R571, R582: the device is out of reset in BOOT; TEST_EN selects board test, where the link stays down. -/
def bootBegin (testEn : Bool) (s : State) : State :=
  setFlag F.GLB_MODE_BOARD_TEST 0 testEn (fset F.GLB_MODE_MODE 0 1 { s with mode := .boot })

/-- POWER_UP (R571, R129): PORST_N rises with every rail valid; the device's own drive of SHK_RST_N ends 10 µs
later. Log 31 (DEDUCED). -/
def execPowerUp (testEn : Bool) (s : State) : Host.Outcome State Fault Refusal :=
  .next (if !s.power.rails || s.power.porstHigh then s
    else
      let s := bootBegin (testEn && !s.power.inReset) { s with power := { s.power with porstHigh := true, bootCause := 1, bootFrom := 0 } }
      let s := passCclk 16000 s
      if s.power.inReset then s else { s with power := { s.power with driveShkRst := false } })

/-- R578, R131: a reset input is taken; the device is held in reset. Log 31 (DEDUCED). -/
def resetTake (cause : Nat) (bit : Fld) (drive : Bool) (s : State) : State :=
  if !s.power.rails then s
  else if s.mode = .off || s.power.inReset then
    setFlag bit 0 true { s with power := { s.power with inReset := true, driveShkRst := s.power.driveShkRst || drive } }
  else
    let s := bootEnter false cause bit s
    { s with power := { s.power with inReset := true, driveShkRst := drive } }

/-- SYSRST (R578). -/
def execSysrst (s : State) : Host.Outcome State Fault Refusal := .next (resetTake 2 F.GLB_RESET_CAUSE_SYSRST true s)

/-- SHK_RESET (R131): such a reset does not make the device drive SHK_RST_N. -/
def execShkReset (s : State) : Host.Outcome State Fault Refusal := .next (resetTake 3 F.GLB_RESET_CAUSE_SHK_RST false s)

/-- RESET_RELEASE (R578, R582, R129): the device's own drive of SHK_RST_N ends 10 µs after its pin has risen. Log 31
(DEDUCED). -/
def execResetRelease (testEn : Bool) (s : State) : Host.Outcome State Fault Refusal :=
  .next (if !s.power.inReset then s
    else
      let s := { s with power := { s.power with inReset := false } }
      let s := if s.mode = .boot then bootBegin testEn s else s
      if s.power.driveShkRst && s.power.porstHigh then
        let s := passCclk 16000 s
        { s with power := { s.power with driveShkRst := false } }
      else s)

/-! ### PCIE_PERST_N (R577, R576) -/

/-- R447, R576: PCIe configuration space and the MSI-X tables take their reset values. Log 190 (DEDUCED). -/
def pcieReset (s : State) : State :=
  let s := { s with pcie := { Pcie.init with trained := s.pcie.trained } }
  fset F.HIF_NUM_VFS_COUNT 0 0 ((List.range 65).foldl (fun s fn => fset F.HIF_FUNC_PM_DSTATE fn 0 s) s)

/-- PERST_FALL (R577, R576). Log 190 (DEDUCED). -/
def execPerstFall (s : State) : Host.Outcome State Fault Refusal :=
  .next (if !s.power.perstHigh then s
    else
      let s := { s with power := { s.power with perstHigh := false } }
      if s.mode == .off || s.power.inReset then s
      else
        let s := linkDownAct (setFlag F.GLB_RESET_CAUSE_PERST 0 true s)
        let s := if s.mode == .configure || s.mode == .operate || s.mode == .lockdown then flr 0 s else s
        pcieReset s)

/-! ### Board test (R582) -/

/-- R582, chapter 18: what the TAP shifts out while `data` is shifted in, first bit lowest: BYPASS and CLAMP select one
bit, IDCODE the identification; the boundary register's layout is open. Log 45 (DESIGN CHOICE). -/
def tapShift (i : JtagInstr) (data : Bytes) (s : State) : Bytes × State :=
  let n := data.length
  match i with
  | .bypass | .clamp => (leBytes n (leNat data * 2), s)
  | .idcode => (leBytes n (leNat data * 2 ^ 32 + 0x072646E7), s)
  | .samplePreload | .extest | .extestPulse | .extestTrain =>
    ((List.range n).map (fun k => BitVec.ofNat 8 (Config.freeValue 51 (s.fresh + k))), { s with fresh := s.fresh + n })

/-- BOUNDARY_SCAN (R582). -/
def execBoundaryScan (i : JtagInstr) (data : Bytes) (s : State) : Host.Outcome State Fault Refusal :=
  .next (if s.mode == .boot && flag F.GLB_MODE_BOARD_TEST 0 s && !s.power.inReset then
      let x := tapShift i data s
      emit (.tdo x.1) x.2
    else s)

end Sys2Proof.Machine
end

