-- ==== Sys2Proof/Machine/ImageChecks.lean ====
section
/-! DEFINITION. The loader's checks of an image (R34 to R64, R67, R70, R644, R645): each step of R67 as a function that
answers the first failure it finds. -/
namespace Sys2Proof.Machine

/-- A failure: IMG_ERR, IMG_STATUS.SECTION, and section and offset of IMG_CLAIM_A and IMG_CLAIM_B (R76, R77). -/
structure ImgFail where
  err : Nat
  sec : Nat
  aSec : Nat
  aOff : Nat
  bSec : Nat
  bOff : Nat
  deriving DecidableEq, Repr

/-- A failure with one claim. -/
def failAt (err sec aSec aOff : Nat) : ImgFail := ⟨err, sec, aSec, aOff, 0, 0⟩
/-- R645: a header failure. -/
def failHdr (err off : Nat) : ImgFail := failAt err 0 0 off

/-- An image on its way through the checks: the header, the plaintext from byte 0 to SIG_OFFSET, the sections that it
carries with their offsets, and the configuration that would come into force. -/
structure Img where
  hdr : Bytes
  plain : Bytes
  offs : Tab Nat
  carried : Cfg
  cfg : Cfg
  delta : Bool

/-! ### Header fields (R35) -/

def hdFlags (h : Bytes) : Nat := fieldLE h 6 2
def hdEncrypted (h : Bytes) : Bool := bit (hdFlags h) 0
def hdCount (h : Bytes) : Nat := fieldLE h 0x0C 2
def hdSvn (h : Bytes) : Nat := fieldLE h 0x10 4
def hdSerial (h : Bytes) : Nat := fieldLE h 0x14 4
def hdApplyTd (h : Bytes) : Nat := byteAt h 0x3A
def hdSig (h : Bytes) : Nat := fieldLE h 0x5C 4

/-- The first check of a list that fails, by its offset. -/
def firstBad (l : List (Bool × Nat)) : Option Nat := (l.find? (·.1)).map (·.2)

/-- Some byte of a field is not 0. -/
def nonZero (b : Bytes) (off n : Nat) : Bool := fieldLE b off n != 0

/-- R67 steps 1 and 2 (R644). Log 172 (DEDUCED). -/
def chkHeader (image : Bytes) (delta : Bool) : Option ImgFail :=
  if image.length < 4 ∨ fieldLE image 0 4 ≠ 0x3152524C then some (failHdr 1 0)
  else if image.length < 128 then some (failHdr 2 8)
  else
    let h := image.take 128
    let sig := hdSig h
    let bad := firstBad [
      (fieldLE h 4 2 != 1, 4),
      (decide (4 ≤ hdFlags h) || bit (hdFlags h) 1 != delta, 6),
      (fieldLE h 8 4 != image.length || decide (2 ^ 24 < image.length), 8),
      (byteAt h 0x0F / 2 % 8 != 0, 0x0F),
      (!delta && nonZero h 0x28 16, 0x28),
      (decide (7 < byteAt h 0x38), 0x38),
      (hdEncrypted h && decide (7 < byteAt h 0x39), 0x39),
      (nonZero h 0x3B 1, 0x3B),
      (fieldLE h 0x58 4 != 0x80, 0x58),
      (sig + 96 != image.length || decide (sig < 0x80) || sig % 8 != 0, 0x5C),
      (nonZero h 0x60 32, 0x60)]
    bad.map (failHdr 2)

/-- R67 steps 3 to 5: DEVICE_BIND, the signature, IMAGE_SVN and IMAGE_SERIAL. Log 172 (DEDUCED). -/
def chkTrust (image : Bytes) (s : State) : Option ImgFail :=
  let h := image.take 128
  let sig := hdSig h
  if nonZero h 0x18 16 && slice h 0x18 16 != fitTo 16 Config.serial then some (failHdr 3 0x18)
  else
    let ok := match Tab.find? s.ward.signers (byteAt h 0x38) with
      | some pub => Config.ecdsaVerify pub (image.take sig) (slice image sig 96)
      | none => false
    if !ok then some (failHdr 4 sig)
    else if hdSvn h < s.ward.floor then some (failHdr 5 0x10)
    else if loaded s && decide (hdSerial h ≤ fget F.IMG_SERIAL_SERIAL 0 s) then some (failHdr 5 0x14)
    else none

/-- R38, R67 step 6: the plaintext from byte 0 to SIG_OFFSET; none when decryption fails. -/
def imgPlain (image : Bytes) (s : State) : Option Bytes :=
  let h := image.take 128
  let ct := slice image 0x80 (hdSig h - 0x80)
  if !hdEncrypted h then some (image.take (hdSig h))
  else match Tab.find? s.ward.enc (byteAt h 0x39) with
    | none => none
    | some key =>
      (Config.gcmOpen (krKey key) (slice h 0x3C 12) (splice h 0x48 (leBytes 16 0)) ct (slice h 0x48 16)).map (h ++ ·)

/-! ### Directory (R40 to R42) -/

/-- R42: fixed part, record size, hot, mandatory. -/
def secType (t : Nat) : Option (Nat × Nat × Bool × Bool) :=
  match t with
  | 1 => some (0, 8, false, true)
  | 2 => some (0, 16, false, true)
  | 3 => some (8, 64, false, true)
  | 4 => some (8, 16, false, true)
  | 5 => some (16, 0, false, true)
  | 6 => some (0, 16, true, true)
  | 7 => some (0, 32, true, false)
  | 8 => some (904, 8, true, false)
  | 9 => some (0, 16, false, true)
  | 10 => some (0, 4, false, false)
  | 11 => some (4608, 0, true, false)
  | 12 => some (8, 8, false, true)
  | 13 => some (32, 0, false, true)
  | _ => none

/-- R40: entry `i`, as its 16 bytes. -/
def dirEntry (p : Bytes) (i : Nat) : Bytes := slice p (0x80 + 16 * i) 16
def deType (e : Bytes) : Nat := byteAt e 0
def deOff (e : Bytes) : Nat := fieldLE e 4 4
def deLen (e : Bytes) : Nat := fieldLE e 8 4
/-- The directory. -/
def dirOf (p : Bytes) : List Bytes := (List.range (hdCount p)).map (dirEntry p)

/-- R40: the checks of one entry, which is to start at `pos` and follow the type `prev`. -/
def chkEntry (p : Bytes) (i prev pos : Nat) : Option ImgFail :=
  let e := dirEntry p i
  let t := deType e
  (firstBad [
    ((secType t).isNone || decide (t ≤ prev), 0),
    (nonZero e 1 1, 1),
    (fieldLE e 2 2 != 1, 2),
    (deOff e != pos, 4),
    (decide (deLen e < 8) || deLen e % 8 != 0 || decide (hdSig p < pos + deLen e), 8)]).map
      (fun o => failAt 7 0 t (0x80 + 16 * i + o))

/-- R40: the entries from `i` on; `n` of them are left. Sections that end short of SIG_OFFSET fail at 0x5C. Log 197
(DEDUCED). -/
def chkEntries (p : Bytes) : (n i prev pos : Nat) → Option ImgFail
  | 0, _, _, pos => if pos = hdSig p then none else some (failAt 7 0 0 0x5C)
  | n + 1, i, prev, pos =>
    match chkEntry p i prev pos with
    | some f => some f
    | none => chkEntries p n (i + 1) (deType (dirEntry p i)) (pos + deLen (dirEntry p i))

/-- R41, R49, R61: the preamble of a section and its padding; a type whose record size is 0 has no records.
IMG_STATUS.SECTION of a failure here is 0x00, as of the directory. Log 197 (DEDUCED). -/
def chkPreamble (p : Bytes) (i : Nat) : Option ImgFail :=
  let e := dirEntry p i
  let t := deType e
  let o := deOff e
  match secType t with
  | none => none
  | some (fl, rs, _, _) =>
    let used := 8 + fl + rs * fieldLE p (o + 4) 4
    if fieldLE p o 2 ≠ fl then some (failAt 7 0 t o)
    else if fieldLE p (o + 2) 2 ≠ rs then some (failAt 7 0 t (o + 2))
    else if rs = 0 ∧ fieldLE p (o + 4) 4 ≠ 0 then some (failAt 7 0 t (o + 4))
    else if deLen e ≠ ceilDiv used 8 * 8 then some (failAt 7 0 t (0x80 + 16 * i + 8))
    else if (slice p (o + used) (deLen e - used)).any (· != 0#8) then some (failAt 7 0 t (o + used))
    else none

/-- R67 step 7. -/
def chkDirectory (p : Bytes) (delta : Bool) : Option ImgFail :=
  let n := hdCount p
  if n = 0 ∨ (if delta then 4 else 13) < n ∨ hdSig p < 0x80 + 16 * n then some (failHdr 7 0x0C)
  else match chkEntries p n 0 0 (0x80 + 16 * n) with
    | some f => some f
    | none =>
      let have_ := (dirOf p).map deType
      let missing := ((List.range 14).filter (fun t => (secType t).any (·.2.2.2) && !have_.contains t)).head?
      match missing with
      | some t => if delta then (List.range n).findSome? (chkPreamble p) else some (failAt 7 0 t 0x80)
      | none => (List.range n).findSome? (chkPreamble p)

/-- R67 step 8. -/
def chkCrc (p : Bytes) : Option ImgFail :=
  (List.range (hdCount p)).findSome? (fun i =>
    let e := dirEntry p i
    if crc32 (slice p (deOff e) (deLen e)) = fieldLE e 12 4 then none
    else some (failAt 8 (deType e) (deType e) (0x80 + 16 * i + 12)))

/-- R67 step 9: the base of a delta, and hot types only. IMG_STATUS.SECTION of a cold section is its type. Log 197
(DEDUCED). -/
def chkBase (p : Bytes) (s : State) : Option ImgFail :=
  if loaded s = false ∨ slice p 0x28 16 ≠ s.loader.digest.take 16 then some (failHdr 12 0x28)
  else (List.range (hdCount p)).findSome? (fun i =>
    let t := deType (dirEntry p i)
    match secType t with
    | some (_, _, true, _) => none
    | _ => some (failAt 13 t t (0x80 + 16 * i)))

/-- The sections that an image carries, and where they lie. -/
def imgSecs (p : Bytes) : Cfg := (dirOf p).foldl (fun c e => Tab.put c (deType e) (slice p (deOff e) (deLen e))) []
def imgOffs (p : Bytes) : Tab Nat := (dirOf p).foldl (fun c e => Tab.put c (deType e) (deOff e)) []

/-- R69: carried sections replace those in force as a whole. Log 168 (DEDUCED). -/
def mergeCfg (base new : Cfg) : Cfg := new.foldl (fun c (x : Nat × Bytes) => Tab.put c x.1 x.2) base

/-! ### Places (R77, R645) -/

/-- Offset of a byte of a section; the start of the directory for a section that the image does not carry. Log 171
(DEDUCED). -/
def spotOf (m : Img) (t off : Nat) : Nat :=
  match Tab.find? m.offs t with
  | some o => o + off
  | none => 0x80
/-- Offset of a field of the fixed part. -/
def fixOff (m : Img) (t off : Nat) : Nat := spotOf m t (8 + off)
/-- Offset of a field of record `i`. -/
def recOff (m : Img) (t i off : Nat) : Nat :=
  match secType t with
  | some (fl, rs, _, _) => spotOf m t (8 + fl + rs * i + off)
  | none => 0x80
/-- A BAD_FIELD failure. -/
def badAt (t off : Nat) : ImgFail := failAt 9 t t off
/-- The first failing field of the fixed part. -/
def badFix (m : Img) (t : Nat) (l : List (Bool × Nat)) : Option ImgFail := (firstBad l).map (fun o => badAt t (fixOff m t o))
/-- The first failing field of the records, in order. -/
def badRecs (m : Img) (t : Nat) (f : Nat → Bytes → List (Bool × Nat)) : Option ImgFail :=
  (List.range (secCount m.cfg t)).findSome? (fun i =>
    (firstBad (f i (secRec m.cfg t i))).map (fun o => badAt t (recOff m t i o)))
/-- Some earlier record meets a condition. -/
def earlier (m : Img) (t i : Nat) (f : Bytes → Bool) : Bool := (List.range i).any (fun j => f (secRec m.cfg t j))

/-! ### Step 10: field ranges -/

/-- R36, R644: the header fields of step 10. -/
def fldHeader (m : Img) (s : State) : Option ImgFail :=
  let h := m.hdr
  let o := s.loader.header
  let bad := if m.delta then firstBad [
      (hdMesh h != hdMesh o, 0x0E),
      (byteAt h 0x0F != byteAt o 0x0F, 0x0F),
      (hdApplyTd h != 0xFF && !tdOn s.cfg (hdApplyTd h), 0x3A)]
    else if hdMembers h = 0 then firstBad [(hdMesh h != 0, 0x0E), (hdTickMaster h, 0x0F)]
    else firstBad [(decide (3 < hdMesh h), 0x0E), (!bit (hdMembers h) (hdMesh h), 0x0F)]
  bad.map (failAt 9 0 0)

/-- Nibbles 0 to 7 of a word. -/
def nibbles (v : Nat) : List Nat := (List.range 8).map (fun n => v / 16 ^ n % 16)

/-- R43, R36: LANE_MAP. A Faush link that R36 requires fails at the ENABLE of its record, and at MESH_FLAGS when it has
none (R645). -/
def fldLanes (m : Img) : Option ImgFail :=
  let recs := badRecs m 1 (fun _ r => [
    (decide (34 < byteAt r 0), 0),
    (decide (1 < byteAt r 1), 1),
    ((List.range 8).any (fun k => !(nibbles (fieldLE r 4 4)).contains k), 4)])
  let h := m.hdr
  let off := (List.range 4).find? (fun j => j != hdMesh h && bit (hdMembers h) j && !laneOn m.cfg (32 + meshLink (hdMesh h) j))
  match recs with
  | some f => some f
  | none =>
    if m.delta then none
    else off.map (fun j =>
      match (List.range (secCount m.cfg 1)).find? (fun i => byteAt (secRec m.cfg 1 i) 0 == 32 + meshLink (hdMesh h) j) with
      | some i => badAt 1 (recOff m 1 i 1)
      | none => badAt 1 0x0F)

/-- R80: lane rate (0 NRZ10, 1 NRZ25, 2 PAM50, 3 PAM100), FEC codes allowed, AN allowed, of SPEED and LANES. -/
def portRow (speed lanes : Nat) : Option (Nat × List Nat × Bool) :=
  match speed, lanes with
  | 1, 1 => some (0, [0], false)
  | 2, 1 => some (1, [0, 1], true)
  | 3, 1 => some (2, [2], true)
  | 4, 1 => some (3, [2], true)
  | 4, 2 => some (2, [2], true)
  | 4, 4 => some (1, [1], true)
  | 5, 2 => some (3, [2], true)
  | 5, 4 => some (2, [2], true)
  | 6, 4 => some (3, [2], true)
  | 6, 8 => some (2, [2], true)
  | 7, 8 => some (3, [2], true)
  | _, _ => none

/-- R81: two ports use one lane. -/
def lanesMeet (a b : Bytes) : Bool :=
  byteAt a 1 == byteAt b 1 && decide (byteAt a 2 < byteAt b 2 + byteAt b 3) && decide (byteAt b 2 < byteAt a 2 + byteAt a 3)
/-- R81: two ports use lanes of one quad. -/
def quadsMeet (a b : Bytes) : Bool :=
  byteAt a 1 == byteAt b 1 && decide (byteAt a 2 / 4 ≤ (byteAt b 2 + byteAt b 3 - 1) / 4) &&
    decide (byteAt b 2 / 4 ≤ (byteAt a 2 + byteAt a 3 - 1) / 4)
/-- R80: the lane rate of a port record. -/
def portRate (r : Bytes) : Option Nat := (portRow (byteAt r 4) (byteAt r 3)).map (·.1)

/-- R44, R80, R81: PORT_MAP. -/
def fldPorts (m : Img) : Option ImgFail :=
  badRecs m 2 (fun i r =>
    let row := portRow (byteAt r 4) (byteAt r 3)
    [(byteAt r 0 != 8 * byteAt r 1 + byteAt r 2, 0),
     (decide (31 < byteAt r 1), 1),
     (decide (7 < byteAt r 2), 2),
     (!([1, 2, 4, 8].contains (byteAt r 3)), 3),
     (decide (byteAt r 4 = 0) || decide (7 < byteAt r 4), 4),
     (row.isNone, 4),
     (!(row.any (fun x => x.2.1.contains (byteAt r 5))), 5),
     (decide (15 < byteAt r 6) || (bit (byteAt r 6) 0 && !row.any (·.2.2)), 6),
     (decide (7 < byteAt r 7) && byteAt r 7 != 0xFF, 7),
     (decide (fieldLE r 8 2 < 64) || decide (9600 < fieldLE r 8 2), 8),
     (nonZero r 10 6, 10),
     (byteAt r 2 % max 1 (byteAt r 3) != 0, 2),
     (earlier m 2 i (lanesMeet r), 2),
     (earlier m 2 i (fun q => quadsMeet r q && portRate q != portRate r), 4)])

/-- R45: NEXT fields of a node, with their offsets; 0xFF ends the parse. -/
def nodeNexts (r : Bytes) : List (Nat × Nat) :=
  ((List.range (min 8 (byteAt r 11))).map (fun k => (byteAt r (15 + 4 * k), 15 + 4 * k)) ++ [(byteAt r 44, 44)]).filter
    (fun x => x.1 != 0xFF)
/-- R138: width of a key slot. -/
def slotWidth (n : Nat) : Nat :=
  ([48, 48, 12, 12, 16, 32, 32, 128, 128, 8, 6, 16, 16, 32, 20, 8][n]?).getD 32

/-- The nodes that follow a set of nodes. Log 171 (DEDUCED). -/
def nodesAfter (c : Cfg) (ns : List Nat) : List Nat :=
  (ns.flatMap (fun n => match parseNode c n with
    | some r => (nodeNexts r).map (·.1)
    | none => [])).eraseDups
/-- The nodes at the end of paths of exactly `k` steps from a set. -/
def nodesAt (c : Cfg) : (k : Nat) → List Nat → List Nat
  | 0, ns => ns
  | k + 1, ns => nodesAt c k (nodesAfter c ns)
/-- The nodes at the end of paths of 0 to `k` steps. -/
def nodesWithin (c : Cfg) : (k : Nat) → List Nat → List Nat
  | 0, ns => ns
  | k + 1, ns => nodesWithin c k ((ns ++ nodesAfter c ns).eraseDups)

/-- R46: bytes of fixed header that a node adds. -/
def nodeFixed (c : Cfg) (n : Nat) : Nat :=
  match parseNode c n with
  | some r => if byteAt r 1 = 0 then fieldLE r 2 2 else 0
  | none => 0
/-- The most fixed header bytes on a path of at most `k` + 1 nodes from a node of an acyclic graph. Log 171
(DEDUCED). -/
def pathBytes (c : Cfg) : (k : Nat) → (n : Nat) → Nat
  | 0, n => nodeFixed c n
  | k + 1, n => nodeFixed c n + ((nodesAfter c [n]).map (pathBytes c k)).foldl max 0

/-- R45, R46, R139: PARSE_GRAPH. Every node is searched for a cycle, and the paths from START_NODE are measured. Log 171
(DEDUCED). Log 198 (DEDUCED). -/
def fldParse (m : Img) : Option ImgFail :=
  let c := m.cfg
  let fx := secFixed c 3
  let count := secCount c 3
  let first := badFix m 3 [(decide (byteAt fx 1 = 0) || decide (16 < byteAt fx 1), 1), (nonZero fx 2 6, 2)]
  let recs := badRecs m 3 (fun i r =>
    [(byteAt r 0 == 255 || earlier m 3 i (fun q => byteAt q 0 == byteAt r 0), 0),
     (decide (1 < byteAt r 1), 1),
     (decide (256 < fieldLE r 2 2), 2),
     (byteAt r 1 == 1 && (decide (byteAt r 6 = 0) || decide (16 < byteAt r 6)), 6),
     (decide (24 < byteAt r 10), 10),
     (decide (8 < byteAt r 11), 11)] ++
    (nodeNexts r).map (fun x => ((parseNode c x.1).isNone, x.2)) ++
    [(decide (4 < byteAt r 45), 45), (nonZero r 46 2, 46)] ++
    (List.range (min 4 (byteAt r 45))).flatMap (fun k =>
      let o := 48 + 4 * k
      let w := byteAt r (o + 2)
      [(decide (w = 0) || decide (128 < w) || decide (slotWidth (byteAt r (o + 3)) < w), o + 2),
       (decide (31 < byteAt r (o + 3)), o + 3)]))
  let cycle := if (nodesAt c count ((secRecs c 3).map (byteAt · 0))).isEmpty then none
    else badRecs m 3 (fun _ r =>
      (nodeNexts r).map (fun x => ((nodesWithin c count [x.1]).contains (byteAt r 0), x.2)))
  let start := byteAt fx 0
  let long := badFix m 3 [
    ((parseNode c start).isNone, 0),
    (!(nodesAt c (byteAt fx 1) [start]).isEmpty, 1),
    (decide (256 < pathBytes c 16 start), 0)]
  (first.orElse (fun _ => recs)).orElse (fun _ => cycle.orElse (fun _ => long))

/-- R47: entries of a table; units for LPM4 and LPM6. -/
def tableSize (t : Nat) : Nat := ([65536, 262144, 1048576, 1048576, 131072, 4096, 65536][t]?).getD 0

/-- R47, R48, R147, R156: TABLE_PARTITION. Log 170 (DEDUCED). -/
def fldTables (m : Img) : Option ImgFail :=
  let fx := secFixed m.cfg 4
  let sweep := fieldLE fx 0 4
  (badFix m 4 [(decide (sweep < 100) || decide (3600000 < sweep), 0), (nonZero fx 4 4, 4)]).orElse (fun _ =>
    badRecs m 4 (fun i r =>
      let t := byteAt r 0
      let lpm := t == 2 || t == 3
      [(decide (6 < t), 0),
       (decide (15 < rgId r) || earlier m 4 i (fun q => byteAt q 0 == t && rgId q == rgId r), 1),
       (decide ((if t = 0 then 15 else if t = 1 then 1 else 0) < rgProfile r), 2),
       (decide ((if t = 1 then 1 else 0) < byteAt r 3), 3),
       ((t == 1 && rgBase r % 4 != 0) || (lpm && rgBase r % 16 != 0), 4),
       (decide (tableSize t < rgBase r + rgUnits r), 8),
       ((t == 1 && rgSize r % 4 != 0) || (lpm && rgUnits r % 16 != 0), 8),
       ((lpm || t == 4) && decide (1023 < rgVrf0 r), 12),
       ((lpm || t == 4) && (decide (rgVrf1 r < rgVrf0 r) || decide (1023 < rgVrf1 r)), 14)]))

/-- R49: BUFFER_CARVE. Log 170 (DEDUCED). -/
def fldCarve (m : Img) : Option ImgFail :=
  let c := m.cfg
  badFix m 5 [(carveGuar c + carveControl c + carveMcast c + carveShared c != 655360, 12)]

/-- R50: SCHED_TREE. -/
def fldSched (m : Img) : Option ImgFail :=
  let c := m.cfg
  badRecs m 6 (fun _ r =>
    if byteAt r 0 = 0 then
      let p := byteAt r 2
      [(decide (7 < byteAt r 1), 1),
       (!portOn c p, 2),
       (decide (1 < cnMode r), 3),
       (cnWeight r == 0, 4),
       (decide (1 < byteAt r 5) || (cnCt r && !(decide (6 ≤ portF c p 4 1) && portCt c p)), 5),
       (nonZero r 6 10, 6)]
    else
      [(decide (1 < byteAt r 0), 0),
       (decide (7 < lfClass r) || (classNode c (lfPort r) (lfClass r)).isNone, 1),
       (decide (127 < byteAt r 3), 3),
       (!portOn c (lfPort r), 4),
       (decide (10 < lfAlpha r), 5),
       (decide (4095 < lfTenant r), 6),
       (lfWeight r == 0, 15)])

/-- R51, R227: ESSENCE_CLASSES. -/
def fldEssence (m : Img) : Option ImgFail :=
  badRecs m 7 (fun i r =>
    let raw := ecFormat r == 0
    let evenW := !raw || ecSampling r == 0 || ecSampling r == 1 || ecSampling r == 5
    let evenH := !raw || ecSampling r == 1 || ecSampling r == 5
    [(earlier m 7 i (fun q => byteAt q 0 == byteAt r 0), 0),
     (decide (1 < ecDir r), 1),
     (decide (1 < ecFormat r), 2),
     (decide (5 < ecSampling r), 3),
     (!([8, 10, 12, 16].contains (ecDepth r)), 4),
     (!tdOn m.cfg (ecTd r), 5),
     (decide (ecWidth r < 64) || decide (16384 < ecWidth r) || (evenW && ecWidth r % 2 != 0), 6),
     (decide (ecHeight r < 64) || decide (8640 < ecHeight r) || (evenH && ecHeight r % 2 != 0), 8),
     (ecDir r == 1 && decide (2 < ecSender r), 10),
     (decide (7 < byteAt r 11), 11),
     (decide (10000 < ecMergeUs r), 12),
     (nonZero r 14 2, 14),
     (nonZero r 24 8, 24)])

/-- R36, R53 to R56: CODING_PLAN. Two windows of one engine that overlap fail here, at the later one's BASE_KIB. Log 199
(DEDUCED). -/
def fldCoding (m : Img) : Option ImgFail :=
  let c := m.cfg
  let fx := secFixed c 8
  let mesh := !m.delta && hdMembers m.hdr != 0
  if !secHas c 8 then (if mesh then some (badAt 8 0x0F) else none)
  else
    let doms := (List.range 8).flatMap (fun n =>
      let o := 8 + 16 * n
      let en := byteAt fx o
      [(decide (1 < en), o), (nonZero fx (o + 1) 3, o + 1),
       (en == 1 && (tdD c n == 0 || decide (1000 * tdN c n < tdD c n) || decide (tdD c n < tdN c n)), o + 4),
       (nonZero fx (o + 12) 4, o + 12)])
    let engs := (List.range 48).flatMap (fun e =>
      let o := 136 + 16 * e
      let g := ceGang c e
      let mates := (List.range g).map (e / max 1 g * max 1 g + ·)
      [(decide (2 < ceUse c e), o),
       (!([1, 2, 4].contains g), o + 1),
       (ceUse c e == 1 && !tdOn c (ceTd c e), o + 2),
       (mates.any (fun k => ceUse c k != ceUse c e), o),
       (mates.any (fun k => ceGang c k != g), o + 1),
       (mates.any (fun k => ceTd c k != ceTd c e), o + 2),
       (nonZero fx (o + 3) 1, o + 3),
       (nonZero fx (o + 8) 8, o + 8)])
    let fixed := badFix m 8 ([
      (decide (7 < byteAt fx 0) && byteAt fx 0 != 0xFF, 0),
      (nonZero fx 1 1, 1),
      (fieldLE fx 2 2 == 0, 2),
      (nonZero fx 4 4, 4),
      (mesh && !tdOn c 0, 8)] ++ doms ++ engs)
    fixed.orElse (fun _ => badRecs m 8 (fun i r =>
      [(decide (47 < byteAt r 0), 0),
       (decide (7 < byteAt r 1), 1),
       (decide (2 < wcUse r), 2),
       ((essClass c (wcClass r)).isNone, 3),
       (wcBase r % 16 != 0, 4),
       (decide (wcSize r < 16) || wcSize r % 16 != 0 || decide (3072 < wcBase r + wcSize r), 6),
       (earlier m 8 i (fun q => byteAt q 0 == byteAt r 0 && byteAt q 1 != byteAt r 1 &&
         decide (wcBase q < wcBase r + wcSize r) && decide (wcBase r < wcBase q + wcSize q)), 4)]))

/-- R57: POOL_CARVE. Log 171 (DEDUCED). -/
def fldPools (m : Img) : Option ImgFail :=
  if secCount m.cfg 9 ≠ 8 then some (badAt 9 (spotOf m 9 4))
  else
    (badRecs m 9 (fun i r =>
      [(decide (7 < byteAt r 0) || earlier m 9 i (fun q => byteAt q 0 == byteAt r 0), 0),
       (decide (byteAt r 1 < 8) || decide (28 < byteAt r 1), 1),
       (nonZero r 2 2, 2),
       (nonZero r 8 8, 8)])).orElse (fun _ =>
      badRecs m 9 (fun _ r =>
        [(decide (0 < byteAt r 0) && decide (byteAt r 1 ≤ poolLog2 m.cfg (byteAt r 0 - 1)), 1)]))

/-- R58: BALL_MUX. -/
def fldBalls (m : Img) : Option ImgFail :=
  if 8 < secCount m.cfg 10 then some (badAt 10 (spotOf m 10 4))
  else badRecs m 10 (fun _ r =>
    let f := byteAt r 1
    [(decide (7 < byteAt r 0), 0),
     (decide (5 < f), 1),
     (if f = 3 ∨ f = 4 then decide (15 < byteAt r 2) else byteAt r 2 != 0xFF, 2),
     (byteAt r 3 / 8 % 16 != 0 || (f != 1 && byteAt r 3 % 8 != 0), 3)])

/-- R59, R456, R459: INT_GROUPS. -/
def fldGroups (m : Img) : Option ImgFail :=
  let c := m.cfg
  let fx := secFixed c 11
  if !secHas c 11 then none
  else badFix m 11 ((List.range 64).flatMap (fun g =>
      let o := 8 * g
      let f := grFn c g
      let v := grVector c g
      let lo := firstVector f
      let hi := if f = 0 then 1023 else lo + 15
      [(decide (3 < byteAt fx o), o),
       (decide (64 < f), o + 1),
       (decide (2047 < v) || (grEnable c g && (decide (v < lo) || decide (hi < v))), o + 2),
       (grTimer c g != 0xFF && (decide (15 < grTimer c g) || srcGroup c (4032 + g) != g), o + 6),
       (nonZero fx (o + 7) 1, o + 7)]) ++
    (List.range 4096).map (fun n => (decide (63 < srcGroup c n), 512 + n)))

/-- R509: sources that have an isolate action. -/
def hasIsolate (n : Nat) : Bool :=
  n == 3 || n == 4 || n == 20 || (decide (21 ≤ n) && decide (n ≤ 26)) || (decide (28 ≤ n) && decide (n ≤ 35)) ||
    (decide (37 ≤ n) && decide (n ≤ 44))

/-- R60, R512: FAULT_POLICY. -/
def fldFaults (m : Img) : Option ImgFail :=
  let c := m.cfg
  let fx := secFixed c 12
  let shk := (fpRec c 11).any (fun r => decide (fpClass c ≤ byteAt r 1))
  let fixed := badFix m 12 [
    (decide (fpClass c = 0) || decide (4 < fpClass c), 0),
    (decide (1 < fpC4Exit c), 1),
    (decide (1 < byteAt fx 2) || (fpDrive c && shk), 2),
    (nonZero fx 3 5, 3)]
  fixed.orElse (fun _ =>
    if secCount c 12 ≠ 64 then some (badAt 12 (spotOf m 12 4))
    else badRecs m 12 (fun i r =>
      let n := byteAt r 0
      let cl := byteAt r 1
      let re := byteAt r 2
      [(decide (63 < n) || earlier m 12 i (fun q => byteAt q 0 == n), 0),
       (decide (4 < cl) || ((n == 2 || n == 7 || n == 55) && cl != 4) || (n == 0 && cl == 4) ||
         (decide (45 ≤ n) && decide (n ≤ 52) && cl != 0) || (decide (56 ≤ n) && cl != 0), 1),
       (decide (3 < re) || (cl == 4) != (re == 3) || (re == 2 && !hasIsolate n) || (decide (56 ≤ n) && re != 0), 2),
       (nonZero r 3 1, 3),
       (fieldLE r 4 2 == 0, 4),
       ((n == 11 || decide (56 ≤ n)) && fieldLE r 6 2 != 0, 6)]))

/-- R61: SECURITY_POLICY. -/
def fldSecurity (m : Img) : Option ImgFail :=
  let fx := secFixed m.cfg 13
  badFix m 13 [(decide (0x3F < fieldLE fx 0 4), 0), (nonZero fx 12 20, 12)]

/-- R67 step 10: the header, then the sections in type order. -/
def chkFields (m : Img) (s : State) : Option ImgFail :=
  [fun _ => fldHeader m s, fun _ => fldLanes m, fun _ => fldPorts m, fun _ => fldParse m, fun _ => fldTables m,
   fun _ => fldCarve m, fun _ => fldSched m, fun _ => fldEssence m, fun _ => fldCoding m, fun _ => fldPools m,
   fun _ => fldBalls m, fun _ => fldGroups m, fun _ => fldFaults m, fun _ => fldSecurity m].findSome?
    (fun (f : Unit → Option ImgFail) => f ())

/-! ### Steps 11 to 13 -/

/-- The first record that fails a policy, as a POLICY failure. -/
def polRecs (m : Img) (t off : Nat) (f : Bytes → Bool) : Option ImgFail :=
  ((List.range (secCount m.cfg t)).find? (fun i => f (secRec m.cfg t i))).map (fun i => failAt 16 t t (recOff m t i off))

/-- R62, R473, R479, R67 step 11. -/
def chkPolicy (m : Img) (s : State) : Option ImgFail :=
  let c := m.cfg
  let srtp := if spFlag c 2 then polRecs m 7 11 (fun r => !ecSrtp r) else none
  let macsec := if spFlag c 3 then polRecs m 2 6 (fun r => !bit (byteAt r 6) 1) else none
  let enc := if spFlag c 4 && m.delta && !hdEncrypted m.hdr then some (failHdr 16 6) else none
  let patch := if fget F.CE_UCODE_PATCH_LEVEL 0 s < spMinPatch c then some (failAt 16 13 13 (fixOff m 13 6)) else none
  let epoch := if !m.delta && decide (s.ward.floor < spMinSvn c) && epochSpent s then
      some (failAt 16 13 13 (fixOff m 13 8)) else none
  (((srtp.orElse (fun _ => macsec)).orElse (fun _ => enc)).orElse (fun _ => patch)).orElse (fun _ => epoch)

/-- A claim (R63): the kind of resource, the range of it that is claimed, and the field that claims it. -/
structure Claim where
  kind : Nat
  first : Nat
  size : Nat
  sec : Nat
  off : Nat
  deriving DecidableEq, Repr

/-- Claims of the records of a section. -/
def claimsOf (m : Img) (t : Nat) (f : Bytes → List (Nat × Nat × Nat × Nat)) : List Claim :=
  (List.range (secCount m.cfg t)).flatMap (fun i =>
    (f (secRec m.cfg t i)).map (fun x => ⟨x.1, x.2.1, x.2.2.1, t, recOff m t i x.2.2.2⟩))

/-- R63: every claim, in image order. Kinds: 0 lane group, 1 MAC number, 2 lane, 3 to 9 entries of a table, 10 leaf, 11
scratch window, 12 ball, 13 timer, 14 device vector. -/
def claims (m : Img) : List Claim :=
  let c := m.cfg
  claimsOf m 1 (fun r => [(0, byteAt r 0, 1, 0)]) ++
  claimsOf m 2 (fun r => [(1, byteAt r 0, 1, 0), (2, 8 * byteAt r 1 + byteAt r 2, byteAt r 3, 2)]) ++
  claimsOf m 4 (fun r => [(if byteAt r 0 = 3 then 5 else 3 + byteAt r 0, rgBase r, rgUnits r, 4)]) ++
  claimsOf m 6 (fun r => if byteAt r 0 = 1 then [(10, lfNum r, 1, 2)] else []) ++
  claimsOf m 8 (fun r => [(11, 8 * byteAt r 0 + byteAt r 1, 1, 1)]) ++
  claimsOf m 10 (fun r => (12, byteAt r 0, 1, 0) ::
    (if byteAt r 1 = 3 ∨ byteAt r 1 = 4 then [(13, byteAt r 2, 1, 2)] else [])) ++
  (List.range 64).flatMap (fun g =>
    (if grEnable c g then [⟨14, grVector c g, 1, 11, fixOff m 11 (8 * g + 2)⟩] else []) ++
    (if grTimer c g = 0xFF then [] else [⟨13, grTimer c g, 1, 11, fixOff m 11 (8 * g + 6)⟩]))

/-- Two claims name one resource. -/
def Claim.meets (a b : Claim) : Bool :=
  a.kind == b.kind && decide (a.first < b.first + b.size) && decide (b.first < a.first + a.size)

/-- The first claim that meets an earlier one; `seen` holds the earlier ones. -/
def firstClash : List Claim → List Claim → Option (Claim × Claim)
  | _, [] => none
  | seen, c :: r =>
    match seen.find? (fun d => d.meets c) with
    | some d => some (d, c)
    | none => firstClash (seen ++ [c]) r

/-- R67 step 12. -/
def chkClaims (m : Img) : Option ImgFail :=
  (firstClash [] (claims m)).map (fun x => ⟨11, x.2.sec, x.1.sec, x.1.off, x.2.sec, x.2.off⟩)

/-- The first of a list of amounts that takes their sum past a limit; `n` is the sum so far. Log 169 (DEDUCED). -/
def firstOver (limit : Nat) : (n : Nat) → List (Nat × Nat × Nat) → Option ImgFail
  | _, [] => none
  | n, (v, t, off) :: r => if limit < n + v then some (failAt 10 t t off) else firstOver limit (n + v) r

/-- Amounts of the records of a section. -/
def amounts (m : Img) (t off : Nat) (f : Bytes → Nat) : List (Nat × Nat × Nat) :=
  (List.range (secCount m.cfg t)).map (fun i => (f (secRec m.cfg t i), t, recOff m t i off))

/-- R48, R64: the first TRIE region that takes the VRFs covered past 8; `seen` holds those covered. -/
def trieOver (m : Img) : List Nat → List Nat → Option ImgFail
  | _, [] => none
  | seen, i :: r =>
    let rec_ := secRec m.cfg 4 i
    if byteAt rec_ 0 ≠ 4 then trieOver m seen r
    else
      let now := (seen ++ (List.range (rgVrf1 rec_ + 1 - rgVrf0 rec_)).map (rgVrf0 rec_ + ·)).eraseDups
      if 8 < now.length then some (failAt 10 4 4 (recOff m 4 i 14)) else trieOver m now r

/-- The failure that comes first in the image. -/
def firstInImage (l : List ImgFail) : Option ImgFail :=
  l.foldl (fun (m : Option ImgFail) f => match m with
    | some g => if f.aSec * 2 ^ 24 + f.aOff < g.aSec * 2 ^ 24 + g.aOff then some f else m
    | none => some f) none

/-- R64, R67 step 13: of the claims that take a sum past its limit, the one that comes first in the image. The fields
that stand for an amount are SIZE, VRF_LAST, MIN_CELLS, PORT, CLASSA_MBS and COUNT. Log 169 (DEDUCED). -/
def chkCapacity (m : Img) : Option ImgFail :=
  let c := m.cfg
  let tables := [0, 1, 2, 4, 5, 6].filterMap (fun t =>
    firstOver (tableSize t) 0 (amounts m 4 8 (fun r =>
      if byteAt r 0 = t ∨ (t = 2 ∧ byteAt r 0 = 3) then rgUnits r else 0)))
  let tries := (trieOver m [] (List.range (secCount c 4))).toList
  let cells := (firstOver (carveGuar c) 0 (amounts m 6 8 (fun r => if byteAt r 0 = 1 then lfMin r else 0))).toList
  let nodes := (List.range 256).filterMap (fun p =>
    firstOver 8 0 (amounts m 6 2 (fun r => b2n (byteAt r 0 == 0 && byteAt r 2 == p))))
  let mbs := (firstOver 1410000 0 (
    amounts m 7 20 (fun r => ecMbs r * (if ecMaxFlows r = 0 then 65536 else ecMaxFlows r)) ++
    (List.range 48).map (fun e => (if ceUse c e = 1 then ceMbs c e else 0, 8, fixOff m 8 (140 + 16 * e))))).toList
  let pools := (firstOver (64 * 2 ^ 30) 0 (amounts m 9 4 (fun r => fieldLE r 4 4 * 2 ^ byteAt r 1))).toList
  firstInImage (tables ++ tries ++ cells ++ nodes ++ mbs ++ pools)

/-! ### Step 14: resources in use (R70) -/

/-- The first byte in which two records differ, mapped to the start of its field. -/
def fieldOf (starts : List Nat) (a b : Bytes) : Nat :=
  let d := ((List.range a.length).find? (fun i => byteAt a i != byteAt b i)).getD 0
  ((starts.filter (fun o => decide (o ≤ d))).getLast?).getD 0

/-- R645: the changing field of a record of section `t`, or RECORD_COUNT for a record that the delta leaves out. `same`
finds the record of the delta that names the same thing. Log 173 (DEDUCED). -/
def changedRec (m : Img) (t : Nat) (starts : List Nat) (old : Bytes) (same : Bytes → Bool) : Option ImgFail :=
  match (List.range (secCount m.cfg t)).find? (fun i => same (secRec m.cfg t i)) with
  | none => some (failAt 14 t t (spotOf m t 4))
  | some i =>
    let new := secRec m.cfg t i
    if new = old then none else some (failAt 14 t t (recOff m t i (fieldOf starts old new)))

/-- A leaf that holds cells is removed or changed. -/
def useLeaves (m : Img) (s : State) : List ImgFail :=
  (leafRecs s.cfg).filterMap (fun r =>
    if fget F.TM_LEAF_DEPTH_CELLS (lfNum r) s = 0 then none
    else changedRec m 6 [0, 1, 2, 4, 5, 6, 8, 12, 15] r (fun q => byteAt q 0 == 1 && lfNum q == lfNum r))

/-- An essence class with active flows changes. -/
def useClasses (m : Img) (s : State) : List ImgFail :=
  (secRecs s.cfg 7).filterMap (fun r =>
    if !(busyFlows s).any (fun c => fState c s != 0 && fClass c s == byteAt r 0) then none
    else changedRec m 7 [0, 1, 2, 3, 4, 5, 6, 8, 10, 11, 12, 14, 16, 20, 24] r (fun q => byteAt q 0 == byteAt r 0))

/-- R70: a tick domain to which something is bound. -/
def tdBound (td : Nat) (s : State) : Bool :=
  let c := s.cfg
  s.coding.sc.any (fun (x : Nat × Stream) => x.2.prio == 0 && decide (2 ≤ scState x.1 s) && x.2.td == td) ||
    (secRecs c 7).any (fun r => ecTd r == td) ||
    (secRecs c 2).any (fun r => byteAt r 7 == td) ||
    dumpTd c == td || (td == 0 && hdMembers s.loader.header != 0)

/-- A bound tick domain changes. -/
def useDomains (m : Img) (s : State) : List ImgFail :=
  (List.range 8).filterMap (fun td =>
    let o := slice (secFixed s.cfg 8) (8 + 16 * td) 12
    let n := slice (secFixed m.cfg 8) (8 + 16 * td) 12
    if fitTo 12 o = fitTo 12 n ∨ tdBound td s = false then none
    else some (failAt 14 8 8 (fixOff m 8 (8 + 16 * td + fieldOf [0, 4, 8] (fitTo 12 o) (fitTo 12 n)))))

/-- R70: a stream context is open on an engine. -/
def engineOpen (e : Nat) (s : State) : Bool :=
  s.coding.sc.any (fun (x : Nat × Stream) => decide (2 ≤ scState x.1 s) && decide (x.2.engine ≤ e) &&
    decide (e < x.2.engine + max 1 x.2.gang))

/-- USE, GANG_SIZE, TD or windows of an engine with an open context change. -/
def useEngines (m : Img) (s : State) : List ImgFail :=
  (List.range 48).filterMap (fun e =>
    let o := s.cfg
    let n := m.cfg
    if !engineOpen e s then none
    else if ceUse o e ≠ ceUse n e then some (failAt 14 8 8 (fixOff m 8 (136 + 16 * e)))
    else if ceGang o e ≠ ceGang n e then some (failAt 14 8 8 (fixOff m 8 (137 + 16 * e)))
    else if ceTd o e ≠ ceTd n e then some (failAt 14 8 8 (fixOff m 8 (138 + 16 * e)))
    else
      let added := (List.range (secCount n 8)).findSome? (fun i =>
        let r := secRec n 8 i
        if byteAt r 0 = e ∧ (winClaim o e (byteAt r 1)).isNone then some (failAt 14 8 8 (recOff m 8 i 1)) else none)
      let changed := (List.range 8).findSome? (fun w => (winClaim o e w).bind (fun r =>
        changedRec m 8 [0, 1, 2, 3, 4, 6] r (fun q => byteAt q 0 == e && byteAt q 1 == w)))
      changed.orElse (fun _ => added))

/-- CODING_PLAN claims a window that is allocated at run time. -/
def useWindows (m : Img) (s : State) : List ImgFail :=
  (List.range (secCount m.cfg 8)).filterMap (fun i =>
    let r := secRec m.cfg 8 i
    if winAllocd s (winIdx (byteAt r 0) (byteAt r 1)) then some (failAt 14 8 8 (recOff m 8 i 1)) else none)

/-- R67 step 14. Log 173 (DEDUCED). -/
def chkInUse (m : Img) (s : State) : Option ImgFail :=
  firstInImage (
    (if secHas m.carried 6 then useLeaves m s else []) ++
    (if secHas m.carried 7 then useClasses m s else []) ++
    (if secHas m.carried 8 then useDomains m s ++ useEngines m s ++ useWindows m s else []))

/-! ### The whole validation -/

/-- R67: the checks in order, stopping at the first failure; otherwise the image as it would come into force. Steps 10
to 13 of a delta check the merged configuration. Log 200 (DEDUCED). -/
def validate (image : Bytes) (delta : Bool) (s : State) : ImgFail ⊕ Img :=
  match (chkHeader image delta).orElse (fun _ => chkTrust image s) with
  | some f => .inl f
  | none =>
    match imgPlain image s with
    | none => .inl (failHdr 6 0x48)
    | some p =>
      match ((chkDirectory p delta).orElse (fun _ => chkCrc p)).orElse (fun _ => if delta then chkBase p s else none) with
      | some f => .inl f
      | none =>
        let new := imgSecs p
        let m : Img := { hdr := image.take 128, plain := p, offs := imgOffs p, carried := new,
                         cfg := if delta then mergeCfg s.cfg new else new, delta := delta }
        match [fun _ => chkFields m s, fun _ => chkPolicy m s, fun _ => chkClaims m, fun _ => chkCapacity m,
               fun _ => if delta then chkInUse m s else none].findSome? (fun (f : Unit → Option ImgFail) => f ()) with
        | some f => .inl f
        | none => .inr m

/-- R67: the Adyel status of an IMG_ERR. -/
def imgStatus (err : Nat) : Nat :=
  if err = 4 ∨ err = 6 then 7 else if err = 5 then 8 else if err = 11 then 3 else if err = 14 then 1 else 6

end Sys2Proof.Machine
end

