-- ==== Sys2Proof/Machine/Loader.lean ====
section
/-! DEFINITION. The image loader (R66 to R78): taking an image or a delta, the end of its validation, what comes into force,
and the freeze and apply instant of a delta. -/
namespace Sys2Proof.Machine

/-! ### What an image brings into force (R610) -/

/-- R610: TICK_CTRL, TICK_N and TICK_D of a domain; a domain whose period changes counts afresh, and one that is newly
enabled starts at the first tick from now on (R107). -/
def domainApply (old : Cfg) (td : Nat) (s : State) : State :=
  let c := s.cfg
  let on := tdOn c td
  let same := tdN old td == tdN c td && tdD old td == tdD c td
  let s := setFlag F.TICK_CTRL_ENABLED td on (fset F.TICK_N_N td (tdN c td) (fset F.TICK_D_D td (tdD c td) s))
  let s := if same then s else setTickNext td 0 s
  if on && running s && !(same && tdOn old td) then tickArm td s else s

/-- R610, R106, R464: the fields that a configuration sets besides the Hasp policy; `old` is the one it replaces.
Log 168 (DEDUCED). -/
def cfgApply (old : Cfg) (s : State) : State :=
  let c := s.cfg
  let s := (List.range 8).foldl (fun s td => domainApply old td s) (sharedRecount old s)
  let s := (List.range 48).foldl (fun s e => fset F.CE_STATUS_USE e (ceUse c e) s) s
  (List.range 64).foldl (fun s g =>
    let s := setFlag F.INT_GRP_CFG_ENABLE g (grEnable c g) (setFlag F.INT_GRP_CFG_WAKE_ON_PENDING g (grWake c g) s)
    let s := fset F.INT_GRP_CFG_FUNCTION g (grFn c g) (fset F.INT_GRP_CFG_VECTOR g (grVector c g) s)
    fset F.INT_GRP_HOLDOFF_HOLDOFF g (grHoldoff c g) s) s

/-- R410, R417: the pools of a full image, every buffer free. Log 174 (DEDUCED). -/
def poolsApply (s : State) : State :=
  let c := s.cfg
  let s := { s with mem := { s.mem with returned := [], touched := [], buf := [] } }
  (List.range 8).foldl (fun s p =>
    let b := poolBase c p
    let s := fset F.POOL_LOG2_LOG2_SIZE p (poolLog2 c p) (fset F.POOL_COUNT_COUNT p (poolCount c p) s)
    let s := fset F.POOL_BASE_LO_BASE p b (fset F.POOL_BASE_HI_BASE p (b / 2 ^ 32) s)
    fset F.POOL_FREE_COUNT p (poolCount c p) (fset F.POOL_MIN_FREE_COUNT p (poolCount c p) s)) s

/-- R78: IMG_SERIAL and IMG_SVN of the image or delta in force. -/
def imgRegs (h : Bytes) (s : State) : State :=
  fset F.IMG_SERIAL_SERIAL 0 (hdSerial h) (fset F.IMG_SVN_SVN 0 (hdSvn h) s)

/-- R68, R610: a full image comes into force; `old` is the configuration it replaces. Log 57 (DEDUCED). Log 173
(DEDUCED). -/
def imageInForce (old : Cfg) (s : State) : State :=
  let h := s.loader.header
  let s := setFlag F.IMG_STATUS_LOADED 0 true (setFlag F.SHK_STATUS_MASTER 0 (hdTickMaster h) s)
  let s := haspPolicy (poolsApply (cfgApply old s))
  if !spFlag s.cfg 0 then grantStop 5 s else s

/-- R61, R479: the image floor rises to MIN_IMAGE_SVN, burning one STORE_EPOCH bit. -/
def floorRaise (s : State) : State :=
  if s.ward.floor < spMinSvn s.cfg then
    epochBurn { s with ward := { s.ward with floor := spMinSvn s.cfg } }
  else s

/-- R542 KIND 0x0020: an image or delta has been applied. -/
def appliedLog (h digest : Bytes) (s : State) : State :=
  logPush 0x20 (leBytes 4 (hdSerial h) ++ leBytes 4 (hdSvn h) ++ fitTo 16 digest) s

/-- R68: a full image that passes replaces the whole configuration in one step. Log 174 (DEDUCED). -/
def imageApply (m : Img) (s : State) : State :=
  let old := s.cfg
  let d := Config.sha384 s.loader.image
  let s := { s with loader := { Loader.init with secs := m.cfg, header := m.hdr, digest := d } }
  appliedLog m.hdr d (imgRegs m.hdr (imageInForce old (floorRaise s)))

/-- R456: IMG_STATUS.PHASE returns to 0. -/
def loaderIdle (s : State) : State := pendSet 96 (fset F.IMG_STATUS_PHASE 0 0 s)

/-- R72 to R74: every carried section takes effect in one step, so PHASE never reads 3; what was held for the freeze
then goes on. Log 201 (DEDUCED). -/
def deltaApply (s : State) : State :=
  let old := s.cfg
  let l := s.loader
  let s := { s with loader := { l with secs := mergeCfg l.secs l.pend, deltaDigest := l.pendDigest, pend := [],
                                       pendHeader := [], pendDigest := [], applySeen := false } }
  let s := cfgApply old (imgRegs l.pendHeader (setFlag F.IMG_STATUS_DELTA_PENDING 0 false s))
  heldProceed (loaderIdle (appliedLog l.pendHeader l.pendDigest s))

/-- R476: the image in force is discarded. -/
def imageDiscard (s : State) : State :=
  let gone := [F.TICK_CTRL_ENABLED, F.TICK_N_N, F.TICK_D_D, F.CE_STATUS_USE, F.INT_GRP_CFG_ENABLE, F.INT_GRP_CFG_WAKE_ON_PENDING,
    F.INT_GRP_CFG_FUNCTION, F.INT_GRP_CFG_VECTOR, F.INT_GRP_HOLDOFF_HOLDOFF, F.POOL_LOG2_LOG2_SIZE, F.POOL_COUNT_COUNT,
    F.POOL_BASE_LO_BASE, F.POOL_BASE_HI_BASE, F.POOL_FREE_COUNT, F.POOL_MIN_FREE_COUNT, F.SHK_STATUS_MASTER,
    F.IMG_SERIAL_SERIAL, F.IMG_SVN_SVN, F.IMG_STATUS_LOADED]
  let s := { s with loader := Loader.init
                    regs := s.regs.filter (fun x => !gone.any (fun f => f.key 0 == x.1 % 16384))
                    mem := { s.mem with returned := [], touched := [], buf := [] } }
  haspDefaults s

/-! ### Reports (R76, R77) -/

/-- R76, R77: what the last load ended with; none is OK. -/
def imgReport (f : Option ImgFail) (s : State) : State :=
  let x := f.getD ⟨0, 0, 0, 0, 0, 0⟩
  let s := fset F.IMG_STATUS_ERR 0 x.err (fset F.IMG_STATUS_SECTION 0 x.sec s)
  let s := fset F.IMG_CLAIM_A_SECTION 0 x.aSec (fset F.IMG_CLAIM_A_OFFSET 0 x.aOff s)
  fset F.IMG_CLAIM_B_SECTION 0 x.bSec (fset F.IMG_CLAIM_B_OFFSET 0 x.bOff s)

/-- The final answer of the image command that is being validated. -/
def imgAnswer (status : Nat) (s : State) : State :=
  match s.tch.imgReply with
  | some (udp, f) => adyelAnswer [] udp f (Ans.of status 0) { s with tch := { s.tch with imgReply := none } }
  | none => s

/-- R66: an image is taken for validation: the answer is PENDING until validation ends. -/
def imgSubmit (r : Req) (s : State) : Ans × State :=
  if fget F.IMG_STATUS_PHASE 0 s ≠ 0 then (Ans.of 1 0, s)
  else
    let s := fset F.IMG_STATUS_PHASE 0 1 { s with loader := { s.loader with image := r.body } }
    (Ans.of 2 0, { s with tch := { s.tch with imgReply := some (r.udp, r.frame) } })

/-- IMAGE_LOAD (R66, R67). -/
def execImageLoad (a : AdyelIn) (s : State) : Host.Outcome State Fault Refusal := .next (adyelRun 0x0030 a imgSubmit s).2

/-- IMAGE_DELTA (R66, R67). -/
def execImageDelta (a : AdyelIn) (s : State) : Host.Outcome State Fault Refusal := .next (adyelRun 0x0031 a imgSubmit s).2

/-- R67, R542 KIND 0x0021: a rejected image: nothing is applied, and the failure is reported. -/
def imgReject (f : ImgFail) (s : State) : State :=
  let st := imgStatus f.err
  let s := imgReport (some f) { s with loader := { s.loader with image := [] } }
  let s := logPush 0x21 (leBytes 1 f.err ++ leBytes 1 f.sec ++ leBytes 1 st) s
  loaderIdle (imgAnswer st s)

/-- An image of this kind is being validated. -/
def validating (delta : Bool) (s : State) : Bool :=
  fget F.IMG_STATUS_PHASE 0 s == 1 && (match s.tch.imgReply with
    | some (_, f) => frOp f == (if delta then 0x0031 else 0x0030)
    | none => false)

/-- LOAD_VALIDATION_END (R68). -/
def execLoadValidationEnd (s : State) : Host.Outcome State Fault Refusal :=
  .next (if !validating false s then s
    else match validate s.loader.image false s with
      | .inl f => imgReject f s
      | .inr m => loaderIdle (imgAnswer 0 (imgReport none (imageApply m s))))

/-- DELTA_VALIDATION_END (R71, R72). -/
def execDeltaValidationEnd (s : State) : Host.Outcome State Fault Refusal :=
  .next (if !validating true s then s
    else match validate s.loader.image true s with
      | .inl f => imgReject f s
      | .inr m =>
        let d := Config.sha384 s.loader.image
        let s := imgReport none { s with loader := { s.loader with image := [], pend := m.carried, pendHeader := m.hdr,
                                                                   pendDigest := d, applySeen := false } }
        let s := imgAnswer 0 s
        if hdApplyTd m.hdr = 0xFF then deltaApply s
        else fset F.IMG_STATUS_PHASE 0 2 (setFlag F.IMG_STATUS_DELTA_PENDING 0 true s))

/-- DELTA_APPLY (R72): the apply instant of the first tick of APPLY_TD that has been seen since validation ended. Log 201
(DEDUCED). -/
def execDeltaApply (s : State) : Host.Outcome State Fault Refusal :=
  .next (if flag F.IMG_STATUS_DELTA_PENDING 0 s && s.loader.applySeen then deltaApply s else s)

end Sys2Proof.Machine
end

