-- ==== Sys2Proof/Machine/Ward.lean ====
section
/-! DEFINITION. The commands of the Ward (R465 to R505): information, ownership, signers, version floors, the debug grant,
and attestation. -/
namespace Sys2Proof.Machine

/-- R469: a label, an ASCII string without terminator. -/
def label (t : String) : Bytes := t.toList.map (fun c => BitVec.ofNat 8 c.toNat)

/-- The answer EPOCH_EXHAUSTED (R479). -/
def epochAns : Ans := Ans.of 5 0x20

/-- R468: the hash of the current owner bank. -/
def currentBank (s : State) : Option Bytes := ((s.ward.banks.filter (fun b => !b.2)).getLast?).map (·.1)

/-! ### Information (R482) -/

/-- What GET_INFO reports: serial, revision, state, floors, counter, PATCH_LEVEL; the layout of the answer is open. -/
def infoItems (s : State) : List Nat :=
  [leNat (fitTo 16 Config.serial), 0x3141, secState s, s.ward.fwSvn, s.ward.patchSvn, s.ward.floor, s.ward.counter,
   s.ward.patchLevel, leNat (fitTo 48 Config.fwRootHash), leNat (fitTo 6 Config.mgmtMac)]

/-- GET_INFO (R482). -/
def execGetInfo (a : AdyelIn) (s : State) : Host.Outcome State Fault Refusal :=
  .next (adyelRun 0x0001 a (fun _ s => (Ans.ok (Config.answerLayout 0x0001 (infoItems s)), s)) s).2

/-- GET_CERTS (R482): the DevID chain and the alias certificate. -/
def execGetCerts (a : AdyelIn) (s : State) : Host.Outcome State Fault Refusal :=
  .next (adyelRun 0x0002 a (fun _ s =>
    (Ans.ok (Config.answerLayout 0x0002 [leNat Config.devidChain, leNat (aliasCert s)]), s)) s).2

/-! ### The owner (R475 to R477) -/

/-- R475: what TAKE_OWNERSHIP derives from the shared secret. -/
def ownerKeys (p : Bytes) (s : State) : State :=
  let z := fitTo 48 (Config.ecdhX Config.devidSeed (slice p 96 96))
  let os := fitTo 48 (Config.hmac384 z (label "DZM7264-OWN" ++ fitTo 16 Config.serial ++ slice p 0 96))
  let w := s.ward
  { s with ward := { w with
    os := os, kCmd := fitTo 48 (Config.hmac384 os (label "DZM7264-CMD"))
    kWrap := fitTo 32 (Config.hmac384 os (label "DZM7264-WRAP"))
    counter := 0, lastFrame := [], lastAnswer := [], floor := 0, signers := [], enc := [], gen := 0 } }

/-- R475: the checks of TAKE_OWNERSHIP, in order. Log 228 (DEDUCED). -/
def ownCheck (p : Bytes) (s : State) : Option Ans :=
  if p.length ≠ 304 then some (Ans.of 6 0)
  else if slice p 192 16 ≠ fitTo 16 Config.serial ∨ Config.onCurve (slice p 96 96) = false then some (Ans.of 6 0)
  else if !Config.ecdsaVerify (slice p 0 96) (label "DZM7264-OWN" ++ slice p 0 208) (slice p 208 96) then some (Ans.of 7 0)
  else if s.mode ≠ .lockdown ∧ 4 ≤ s.ward.banks.length then some (Ans.of 5 0x10)
  else if s.mode = .lockdown ∧ currentBank s ≠ some (fitTo 48 (Config.sha384 (slice p 0 96))) then some (Ans.of 5 0)
  else if epochSpent s then some epochAns
  else if !flag F.WARD_STATE_ENTROPY_OK 0 s then some (Ans.of 5 0x11)
  else none

/-- R475, R477: TAKE_OWNERSHIP carried out. -/
def ownRun (r : Req) (s : State) : Ans × State :=
  let p := r.body
  match ownCheck p s with
  | some a => (a, s)
  | none =>
    let s := ownerKeys p s
    let s := if s.mode = .lockdown then s
      else
        let h := fitTo 48 (Config.sha384 (slice p 0 96))
        fset F.WARD_STATE_SEC_STATE 0 1 { s with ward := { s.ward with banks := s.ward.banks ++ [(h, false)] } }
    let s := epochBurn s
    (Ans.ok (fitTo 16 (Config.hmac384 s.ward.kCmd (label "DZM7264-OWNED"))), s)

/-- R477: the same owner provisioned afresh in LOCKDOWN: the bit of source 0 clears (R510, R525), and BOOT follows.
Log 34 (DEDUCED). -/
def ownReboot (s : State) : State :=
  let s := haspEvent 3 0 (haspEnd 0 s)
  let s := if haspC4 s then s else setFlag F.HASP_PINS_LOCK_VALID 0 false s
  bootEnter false 10 F.GLB_RESET_CAUSE_LOCKDOWN_EXIT (haspEvent 7 0 s)

/-- TAKE_OWNERSHIP (R475). Log 34 (DEDUCED). -/
def execTakeOwnership (a : AdyelIn) (s : State) : Host.Outcome State Fault Refusal :=
  let x := adyelRun 0x0010 a ownRun s
  .next (if x.1 = 0 ∧ x.2.mode = .lockdown then ownReboot x.2 else x.2)

/-- R476: what RELEASE_OWNERSHIP and DECOMMISSION zeroise and erase. -/
def ownerGone (s : State) : State :=
  let s := zeroiseKeys s
  let w := s.ward
  imageDiscard { s with ward := { w with
    os := [], kCmd := [], kWrap := [], counter := 0, lastFrame := [], lastAnswer := [], floor := 0, signers := [], enc := []
    gen := 0, copy0 := none, copy1 := none } }

/-- R468: RELEASED of the current bank is burnt. -/
def releaseBank : List (Bytes × Bool) → List (Bytes × Bool)
  | [] => []
  | b :: r => if r.any (fun x => !x.2) then b :: releaseBank r else (b.1, true) :: r

/-- RELEASE_OWNERSHIP (R476, R468). -/
def execReleaseOwnership (a : AdyelIn) (s : State) : Host.Outcome State Fault Refusal :=
  .next (adyelRun 0x0011 a (fun _ s =>
    if epochSpent s then (epochAns, s)
    else
      let s := ownerGone s
      let w := s.ward
      let s := { s with ward := { w with banks := releaseBank w.banks, storeEpoch := w.storeEpoch + 1 } }
      (Ans.ok [], fset F.WARD_STATE_SEC_STATE 0 0 s)) s).2

/-- DECOMMISSION (R476, R468). -/
def execDecommission (a : AdyelIn) (s : State) : Host.Outcome State Fault Refusal :=
  .next (adyelRun 0x0012 a (fun _ s =>
    let s := ownerGone s
    let s := { s with ward := { s.ward with decommissioned := true } }
    (Ans.ok [], fset F.WARD_STATE_SEC_STATE 0 2 s)) s).2

/-- SIGNER_SET (R494, R482). -/
def execSignerSet (a : AdyelIn) (s : State) : Host.Outcome State Fault Refusal :=
  .next (adyelRun 0x0020 a (fun r s =>
    let p := r.body
    if p.length ≠ 100 ∨ 7 < byteAt p 0 ∨ 1 < byteAt p 1 ∨ fieldLE p 2 2 ≠ 0 then (Ans.of 6 0, s)
    else if epochSpent s then (epochAns, s)
    else
      let w := s.ward
      let g := if byteAt p 1 = 0 then Tab.put w.signers (byteAt p 0) (slice p 4 96) else Tab.del w.signers (byteAt p 0)
      (Ans.ok [], epochBurn { s with ward := { w with signers := g } })) s).2

/-- SVN_COMMIT (R474). -/
def execSvnCommit (a : AdyelIn) (s : State) : Host.Outcome State Fault Refusal :=
  .next (adyelRun 0x0040 a (fun r s =>
    let p := r.body
    let patch := byteAt p 0 == 1
    let v := byteAt p 1
    let now := if patch then s.ward.patchSvn else s.ward.fwSvn
    let top := if patch then fget F.WARD_SVN_PATCH_RUN 0 s else fget F.WARD_SVN_FW_RUN 0 s
    if p.length ≠ 2 ∨ 1 < byteAt p 0 ∨ v < 1 ∨ 64 < v ∨ v ≤ now ∨ top < v then (Ans.of 6 0, s)
    else
      let w := s.ward
      (Ans.ok [], { s with ward := if patch then { w with patchSvn := v } else { w with fwSvn := v } })) s).2

/-! ### The debug grant (R503) -/

/-- R503: a grant comes into force, in place of the one before it. Log 165 (DESIGN CHOICE). -/
def grantStart (scope secs : Nat) (s : State) : State :=
  let s := setFlag F.WARD_STATE_OBSERVE 0 (bit scope 0) (setFlag F.WARD_STATE_CONSOLE 0 (bit scope 1) s)
  let s := if bit scope 0 then s
    else setFlag F.TRC_CTRL_SINK 0 false { s with trc := { s.trc with sinceSync := none } }
  grantLog scope secs 0 { s with ward := { s.ward with grantEnd := s.time.cclk + secs * 1600000000, grantSecs := secs } }

/-- DEBUG_GRANT (R503). -/
def execDebugGrant (a : AdyelIn) (s : State) : Host.Outcome State Fault Refusal :=
  .next (adyelRun 0x0041 a (fun r s =>
    let p := r.body
    let secs := fieldLE p 4 4
    if !loaded s || !spFlag s.cfg 0 then (Ans.of 5 0x25, s)
    else if p.length ≠ 8 ∨ 3 < byteAt p 0 ∨ fieldLE p 1 3 ≠ 0 ∨ secs < 60 ∨ 86400 < secs then (Ans.of 6 0, s)
    else (Ans.ok [], grantStart (byteAt p 0) secs s)) s).2

/-- DEBUG_REVOKE (R503). -/
def execDebugRevoke (a : AdyelIn) (s : State) : Host.Outcome State Fault Refusal :=
  .next (adyelRun 0x0042 a (fun _ s => (Ans.ok [], grantStop 2 s)) s).2

/-- GRANT_EXPIRE (R503). -/
def execGrantExpire (s : State) : Host.Outcome State Fault Refusal :=
  .next (if granted s then grantStop 1 (reachCclk s.ward.grantEnd s) else s)

/-! ### Attestation (R498 to R502) -/

/-- R501: the security record. -/
def securityRecord (s : State) : Bytes :=
  leBytes 1 (secState s) ++ leBytes 1 (fget F.WARD_STATE_OBSERVE 0 s + 2 * fget F.WARD_STATE_CONSOLE 0 s) ++
    leBytes 1 s.mode.code ++ leBytes 1 (fget F.WARD_BOOT_FAIL 0 s + 128 * fget F.WARD_BOOT_FW_SLOT 0 s) ++
    leBytes 4 s.ward.floor ++ leBytes 4 (fget F.IMG_SVN_SVN 0 s) ++ leBytes 4 (fget F.IMG_SERIAL_SERIAL 0 s) ++
    leBytes 2 s.ward.patchLevel ++ leBytes 1 s.ward.fwSvn ++ leBytes 1 s.ward.patchSvn ++ leBytes 2 s.ward.storeEpoch ++
    [0x41#8, 0x31#8] ++ leBytes 8 0

/-- R500: measurements 1 to 7. -/
def measurements (s : State) : List Bytes :=
  [fitTo 48 Config.romDigest, fitTo 48 s.ward.fwDigest, fitTo 48 s.ward.patchDigest, fitTo 48 s.loader.digest,
   fitTo 48 s.loader.deltaDigest, securityRecord s, fitTo 48 ((currentBank s).getD [])]

/-- R498, R470: the certificates of slot 0. -/
def certChain (s : State) : Bytes := Config.devidChain ++ aliasCert s

/-- R499, R505: SPDM is answered in this mode; DOE also needs a function that is served. Log 162 (DESIGN CHOICE). -/
def spdmOpen (doe : Bool) (s : State) : Bool :=
  adyelOpen s && !s.tch.romOnly && (!doe || cfgOpen 0 s)

/-- R498: a response, laid out as the SPDM standard has it, of the content that the Ward gives. Log 162 (DESIGN
CHOICE). -/
def spdmAnswer (q : SpdmIn) (k : State → Bytes × State) (s : State) : State :=
  if !spdmOpen q.doe s then s
  else
    let x := k s
    emit (.spdm q.doe (Config.spdmBody q.msg x.1)) x.2

/-- R498: content followed by a nonce and the signature of the alias key over the request, the content and the
nonce. Log 162 (DESIGN CHOICE). -/
def signedContent (q : SpdmIn) (c : Bytes) (s : State) : Bytes × State :=
  let d := drawBytes 32 s
  (c ++ d.1 ++ fitTo 96 (Config.ecdsaSign d.2.ward.aliasSeed (q.msg ++ c ++ d.1)), d.2)

/-- GET_VERSION (R498): 1.2 only. -/
def execGetVersion (q : SpdmIn) (s : State) : Host.Outcome State Fault Refusal :=
  .next (spdmAnswer q (fun s => ([0x12#8], s)) s)

/-- GET_CAPABILITIES (R498): CERT_CAP, CHAL_CAP and MEAS_CAP with signature; CTExponent 16. -/
def execGetCapabilities (q : SpdmIn) (s : State) : Host.Outcome State Fault Refusal :=
  .next (spdmAnswer q (fun s => ([16#8, 0x16#8], s)) s)

/-- NEGOTIATE_ALGORITHMS (R498): ECDSA P-384, SHA-384 and the DMTF measurement specification. -/
def execNegotiateAlgorithms (q : SpdmIn) (s : State) : Host.Outcome State Fault Refusal :=
  .next (spdmAnswer q (fun s => ([0x80#8, 0x02#8, 0x01#8], s)) s)

/-- GET_DIGESTS (R498): of slot 0 only. -/
def execGetDigests (q : SpdmIn) (s : State) : Host.Outcome State Fault Refusal :=
  .next (spdmAnswer q (fun s => (fitTo 48 (Config.sha384 (certChain s)), s)) s)

/-- GET_CERTIFICATE (R498). -/
def execGetCertificate (q : SpdmIn) (s : State) : Host.Outcome State Fault Refusal :=
  .next (spdmAnswer q (fun s => (certChain s, s)) s)

/-- CHALLENGE (R498): the alias key signs. -/
def execChallenge (q : SpdmIn) (s : State) : Host.Outcome State Fault Refusal :=
  .next (spdmAnswer q (fun s => signedContent q (fitTo 48 (Config.sha384 (certChain s)) ++
    fitTo 48 (Config.sha384 (measurements s).flatten)) s) s)

/-- GET_MEASUREMENTS (R502): one snapshot of the measurements of R500, signed. -/
def execGetMeasurements (q : SpdmIn) (s : State) : Host.Outcome State Fault Refusal :=
  .next (spdmAnswer q (fun s => signedContent q (measurements s).flatten s) s)

end Sys2Proof.Machine
end

