-- ==== Sys2Proof/Machine/Keys.lean ====
section
/-! DEFINITION. Keys of the Ward and their users (R488 to R492), and the key steps of MKA (R90, R92, R495). -/
namespace Sys2Proof.Machine

/-! ### Users (R492) -/

/-- R492: open stream contexts that name the key in SEAL_KEY. -/
def keyScs (h : Nat) (s : State) : List Nat :=
  (s.coding.sc.filter (fun (x : Nat × Stream) =>
    decide (2 ≤ scState x.1 s) && x.2.sealedS && x.2.sealKey == h)).map (·.1)

/-- R492, R254: flow contexts that name the key, or hold it in its overlap. -/
def keyFlows (h : Nat) (s : State) : List Nat :=
  (busyFlows s).filter (fun c => fState c s != 0 && ecSrtp (fEc c s) &&
    (fx c 0x38 4 s == h || ((fFlow c s).oldKey.map (·.1)) == some h || (fFlow c s).newKey == some h))

/-- R492: ports to which the key is bound as a CAK. -/
def keyPorts (h : Nat) (s : State) : List Nat :=
  (s.ports.cak.filter (fun (x : Nat × Nat × Nat) => x.2.1 == h)).map (·.1)

/-- R492: the number of users of a key. -/
def keyUsers (h : Nat) (s : State) : Nat := (keyScs h s).length + (keyFlows h s).length + (keyPorts h s).length

/-- R492, R495: a port is unbound: its MKA session ends, with its associations. -/
def cakUnbind (p : Nat) (s : State) : State :=
  macsecClear p { s with ports := { s.ports with cak := Tab.del s.ports.cak p } }

/-- R492: every user of a key is ended. -/
def keyFree (h : Nat) (s : State) : State :=
  let ks := keyScs h s
  let s := ks.foldl (fun s k => let e := (strm k s).engine; engKick e (scClose k [] s)) s
  let s := (keyFlows h s).foldl (fun s c => essShut c s) s
  (keyPorts h s).foldl (fun s p => cakUnbind p s) s

/-! ### KEY_INFO, KEY_IMPORT, KEY_DESTROY -/

/-- KEY_INFO (R482): USAGE, FUNCTION, KEY_ID and users, in an open layout. Log 160 (DEDUCED). -/
def execKeyInfo (a : AdyelIn) (s : State) : Host.Outcome State Fault Refusal :=
  .next (adyelRun 0x0003 a (fun r s =>
    let h := fieldLE r.body 0 4
    match keyRec h s with
    | some k =>
      if r.body.length = 4 then (Ans.ok (Config.answerLayout 0x0003 [krUsage k, krFn k, krId k, keyUsers h s]), s)
      else (Ans.of 6 0, s)
    | none => (Ans.of 6 0, s)) s).2

/-- R490: the KEK that an import names: K_WRAP for 0, else a WRAP key that PF0 may use. -/
def importKek (h : Nat) (s : State) : Option Bytes :=
  if h = 0 then some s.ward.kWrap
  else if keyUsable h useWrap 0 s then (keyRec h s).map krKey else none

/-- R489: KEY_LEN of a usage. -/
def usageLen (u : Nat) : Nat := if u = 1 then 32 else if u = 2 then 44 else if u = 8 then 48 else if u = 16 then 32 else 32

/-- R489, R490: the record may be imported to the target. Log 160 (DEDUCED). -/
def importOk (rec : Bytes) (target slot : Nat) : Bool :=
  let u := krUsage rec
  rec.length == 64 && byteAt rec 0 == 1 && (u == 1 || u == 2 || u == 8 || u == 16 || u == 32) && (decide (krFn rec ≤ 64) || krFn rec == 0xFF) &&
    krLen rec == usageLen u && fieldLE rec 8 8 == 0 && (slice rec (16 + krLen rec) (48 - krLen rec)).all (fun b => b == 0#8) &&
    (u == 32) == (target == 1) && (target == 0 || decide (slot ≤ 7))

/-- R490: an import into the key table: the lowest free slot takes the record. -/
def importTable (rec : Bytes) (s : State) : Ans × State :=
  match (List.range 16384).find? (fun n => (Tab.find? s.ward.keys n).isNone) with
  | none => (Ans.of 4 0x21, s)
  | some n =>
    let s := bump F.WARD_KEYS_USED 0 { s with ward := { s.ward with keys := Tab.put s.ward.keys n rec } }
    (Ans.ok (leBytes 4 (keyHandle n s) ++ leBytes 4 (krId rec)), s)

/-- R490: KEY_IMPORT carried out. -/
def importRun (r : Req) (s : State) : Ans × State :=
  let p := r.body
  if p.length ≠ 88 then (Ans.of 6 0, s)
  else if 1 < byteAt p 0 ∨ fieldLE p 2 2 ≠ 0 ∨ fieldLE p 8 2 ≠ 72 ∨ fieldLE p 10 6 ≠ 0 then (Ans.of 6 0x24, s)
  else match importKek (fieldLE p 4 4) s with
    | none => (Ans.of 6 0x24, s)
    | some kek =>
      match Config.unwrap5649 kek (slice p 16 72) with
      | none => (Ans.of 7 0x23, s)
      | some u =>
        if !importOk u (byteAt p 0) (byteAt p 1) then (Ans.of 6 0x24, s)
        else if byteAt p 0 = 1 then
          let s := storeWrite { s with ward := { s.ward with enc := Tab.put s.ward.enc (byteAt p 1) u } }
          (Ans.ok (leBytes 4 0 ++ leBytes 4 (krId u)), s)
        else importTable u s

/-- KEY_IMPORT (R490). -/
def execKeyImport (a : AdyelIn) (s : State) : Host.Outcome State Fault Refusal := .next (adyelRun 0x0021 a importRun s).2

/-- R492: KEY_DESTROY of an ENC slot. -/
def destroyEnc (slot : Nat) (s : State) : Ans × State :=
  if 7 < slot ∨ (Tab.find? s.ward.enc slot).isNone = true then (Ans.of 6 0, s)
  else if epochSpent s then (epochAns, s)
  else (Ans.ok [], epochBurn { s with ward := { s.ward with enc := Tab.del s.ward.enc slot } })

/-- R492: the entry is zeroised, and its GEN advances. -/
def keyGone (h : Nat) (s : State) : State :=
  let n := keySlot h
  let s := keyAdvance n { s with ward := { s.ward with keys := Tab.del s.ward.keys n } }
  fset F.WARD_KEYS_USED 0 (fget F.WARD_KEYS_USED 0 s - 1) s

/-- R492: KEY_DESTROY carried out. -/
def destroyRun (r : Req) (s : State) : Ans × State :=
  let p := r.body
  let h := fieldLE p 0 4
  if !(p.length == 6 || p.length == 8) || decide (1 < byteAt p 5) || fieldLE p 6 2 != 0 then (Ans.of 6 0, s)
  else if h = 0 then destroyEnc (byteAt p 4) s
  else if (keyRec h s).isNone then (Ans.of 6 0, s)
  else if keyUsers h s ≠ 0 ∧ byteAt p 5 = 0 then (⟨1, 0x22, Config.answerLayout 0x0022 [keyUsers h s]⟩, s)
  else (Ans.ok [], keyGone h (keyFree h s))

/-- KEY_DESTROY (R492). Log 159 (DEDUCED). -/
def execKeyDestroy (a : AdyelIn) (s : State) : Host.Outcome State Fault Refusal := .next (adyelRun 0x0022 a destroyRun s).2

/-! ### MACsec and the SMPTE metadata (R495, R100) -/

/-- MACSEC_CAK_BIND (R495). Log 160 (DEDUCED). -/
def execMacsecCakBind (a : AdyelIn) (s : State) : Host.Outcome State Fault Refusal :=
  .next (adyelRun 0x0050 a (fun r s =>
    let p := r.body
    let port := byteAt p 4
    let h := fieldLE p 0 4
    if p.length ≠ 8 ∨ fieldLE p 6 2 ≠ 0 ∨ portMacsec s.cfg port = false then (Ans.of 6 0, s)
    else if !keyUsable h useCak 0 s then (Ans.of 6 0x24, s)
    else (Ans.ok [], { s with ports := { s.ports with cak := Tab.put s.ports.cak port (h, byteAt p 5) } })) s).2

/-- PTP_SMPTE_TLV (R482, R100). Log 193 (DEDUCED). Log 206 (DESIGN CHOICE). -/
def execPtpSmpteTlv (a : AdyelIn) (s : State) : Host.Outcome State Fault Refusal :=
  .next (adyelRun 0x0051 a (fun r s => (Ans.ok [], { s with ports := { s.ports with smpteTlv := r.body } })) s).2

/-- R495: CAK and CKN of the key bound to a port, while it is usable. -/
def portCak (p : Nat) (s : State) : Option Bytes :=
  match Tab.find? s.ports.cak p with
  | some (h, _) => if keyUsable h useCak 0 s then (keyRec h s).map krKey else none
  | none => none

/-- MKPDU_RECEIVE (R495): an MKPDU whose ICV fails is ignored; a distributed SAK that unwraps is kept. Log 193
(DEDUCED). -/
def execMkpduReceive (p : Port) (m : Mkpdu) (s : State) : Host.Outcome State Fault Refusal :=
  .next (match portCak p.val s with
    | none => s
    | some k =>
      if !Config.mkaIcvOk k m.body m.icv || m.wrappedSak.isEmpty then s
      else match Config.unwrap3394 (Config.mkaKek k) m.wrappedSak with
        | some sak => { s with ports := { s.ports with sak := Tab.put s.ports.sak (p.val * 8) (fitTo 44 sak) } }
        | none => s)

/-- R90: receive channels that are left of the pool of 512 when every MACsec port has its transmit channel. -/
def rxChansLeft (s : State) : Nat :=
  512 - ((List.range 256).filter (fun p => portMacsec s.cfg p)).length - (s.ports.secChans.filter (fun x => x.2.rx)).length

/-- R90: the channel of a port toward or from an SCI, or the lowest free one of the pool of 512, of which each MACsec port
keeps one to transmit on. -/
def chanFor (p : Nat) (rxSci : Option Bytes) (s : State) : Option Nat :=
  match (chansOf p rxSci.isSome s).find? (fun x => match rxSci with
    | some i => x.2.sci == fitTo 8 i
    | none => true) with
  | some x => some x.1
  | none =>
    if rxSci.isSome && rxChansLeft s == 0 then none
    else (List.range 512).find? (fun n => (Tab.find? s.ports.secChans n).isNone)

/-- A channel that holds no association. Log 161 (DEDUCED). -/
def chanNew (p : Nat) (rxSci : Option Bytes) : SecChan :=
  { port := p, rx := rxSci.isSome, sci := match rxSci with | some i => fitTo 8 i | none => fitTo 8 (Config.portSci p)
    window := 0, current := 0, sas := [] }

/-- R495: the SAK of an association: the one received, or the one drawn for its AN, drawn afresh when the association
holds that one already. Log 161 (DEDUCED). -/
def sakFor (p : Nat) (k : SakIn) (held : Option Sa) (s : State) : Option (Bytes × State) :=
  let key := p * 8 + if k.received then 0 else 1 + k.an.val
  let kept := Tab.find? s.ports.sak key
  if k.received then kept.map (fun b => (b, s))
  else match kept with
    | some b =>
      if (held.map (fun a => a.key ++ a.salt)) = some b then
        (if flag F.WARD_STATE_ENTROPY_OK 0 s then
          let d := drawBytes 44 s
          some (d.1, { d.2 with ports := { d.2.ports with sak := Tab.put d.2.ports.sak key d.1 } })
        else none)
      else some (b, s)
    | none =>
      if flag F.WARD_STATE_ENTROPY_OK 0 s then
        let d := drawBytes 44 s
        some (d.1, { d.2 with ports := { d.2.ports with sak := Tab.put d.2.ports.sak key d.1 } })
      else none

/-- SAK_INSTALL (R90, R93, R495): the association takes its key, salt and first packet number; a transmit association
takes over. Log 51 (DEDUCED). Log 161 (DEDUCED). -/
def execSakInstall (p : Port) (k : SakIn) (s : State) : Host.Outcome State Fault Refusal :=
  .next (if !portMacsec s.cfg p.val || (portCak p.val s).isNone then s
    else match chanFor p.val k.rxSci s with
      | none => s
      | some n =>
        let c := (Tab.find? s.ports.secChans n).getD (chanNew p.val k.rxSci)
        match sakFor p.val k (Tab.find? c.sas k.an.val) s with
        | none => s
        | some (b, s) =>
          let a : Sa := { key := b.take 32, salt := b.drop 32, nextPn := k.firstPn % 2 ^ 64, rekeyRaised := decide (0xC000000000000000 ≤ k.firstPn % 2 ^ 64) }
          let c := { c with sas := Tab.put c.sas k.an.val a, window := min k.window (2 ^ 30)
                            current := if k.rxSci.isSome then c.current else k.an.val }
          { s with ports := { s.ports with secChans := Tab.put s.ports.secChans n c } })

end Sys2Proof.Machine
end

