-- ==== Sys2Proof/Machine/Tchien.lean ====
section
/-! DEFINITION. Tchien (R533 to R547): sensors and their limits, the commands of the event log, firmware slots, the
management network, and the console commands that need no grant. -/
namespace Sys2Proof.Machine

/-- Tchien firmware runs: from CONFIGURE on, outside STANDBY, and not where the boot ROM answers in its place (R546). -/
def tchRuns (s : State) : Bool := adyelOpen s && !s.tch.romOnly

/-! ### Sensors (R534, R535, R569) -/

/-- A limit of one sensor: its Hasp source, its number, and what a sample says of it: above the limit, and at or below the
limit of the fall. -/
structure Limit where
  src : Nat
  sensor : Nat
  above : Bool
  below : Bool
  deriving DecidableEq, Repr

/-- R535: the number of sensors that a source watches. -/
def limitSensors (src : Nat) : Nat := if src = 8 then 24 else 16

/-- Counts of consecutive samples, held at 2. -/
def limCount (t : Tab Nat) (src i : Nat) : Nat := Tab.get 0 t (src * 64 + i)

/-- R535: count one sample. Log 183 (DEDUCED). -/
def limSample (l : Limit) (s : State) : State :=
  let k := l.src * 64 + l.sensor
  let up := fun (on : Bool) (t : Tab Nat) => Tab.set 0 t k (if on then min 2 (Tab.get 0 t k + 1) else 0)
  { s with tch := { s.tch with above := up l.above s.tch.above, below := up l.below s.tch.below } }

/-- R535: the sensors of a source with two consecutive samples above the limit, rising. -/
def limHolders (src : Nat) (s : State) : List Nat :=
  (List.range (limitSensors src)).filter (fun i => limCount s.tch.above src i == 2)

/-- R535: every sensor of the source has given two consecutive samples at or below the limit of the fall. -/
def limClear (src : Nat) (s : State) : Bool :=
  (List.range (limitSensors src)).all (fun i => limCount s.tch.below src i == 2)

/-- R535: the line of a source after a sample; DETAIL names the highest-numbered sensor that holds it high. -/
def limLine (src : Nat) (s : State) : State :=
  if haspCause src s then (if limClear src s then haspLine src false s else s)
  else match (limHolders src s).getLast? with
    | some i => haspLineUp src i s
    | none => s

/-- R535: a sample against one limit. Log 183 (DEDUCED). -/
def limApply (l : Limit) (s : State) : State := limLine l.src (limSample l s)

/-- R535: a temperature reading against a limit, both in 1/16 °C. -/
def tempLimit (src n : Nat) (v limit : Int) : Limit := ⟨src, n, decide (limit < v), decide (v ≤ limit - 48)⟩

/-- R534, R569: a temperature reading: MGMT_TEMP and the peak. -/
def tempRead (n : Nat) (w : BitVec 16) (s : State) : State :=
  let s := fset F.MGMT_TEMP_READING n w.toNat s
  let higher := !Tab.get false s.tch.peakTaken n ||
    decide (signed 16 (fget F.MGMT_TEMP_PEAK_PEAK n s) < signed 16 w.toNat)
  let s := if higher then fset F.MGMT_TEMP_PEAK_PEAK n w.toNat s else s
  { s with tch := { s.tch with peakTaken := Tab.set false s.tch.peakTaken n true } }

/-- R535: a voltage reading in mV against its window. -/
def voltLimit (n v : Nat) (s : State) : Limit :=
  let nom := nominalMv n
  let out := decide (fget F.MGMT_VOLT_WIN_WIN_PCT 0 s * nom < 100 * (if v < nom then nom - v else v - nom))
  ⟨8, n, out, !out⟩

/-- SENSOR_SAMPLE (R535). Log 183 (DEDUCED). -/
def execSensorSample (x : Sensor) (reading : BitVec 16) (s : State) : Host.Outcome State Fault Refusal :=
  .next (if !pinsLive s then s
    else match x with
      | .temp n =>
        let s := tempRead n.val reading s
        let v := signed 16 reading.toNat
        let s := limApply (tempLimit 6 n.val v (signed 16 (fget F.MGMT_TEMP_LIMITS_WARN 0 s))) s
        limApply (tempLimit 7 n.val v (signed 16 (fget F.MGMT_TEMP_LIMITS_CRIT 0 s))) s
      | .volt n =>
        let s := fset F.MGMT_VOLT_MV n.val reading.toNat s
        limApply (voltLimit n.val reading.toNat s) s)

/-- SENSOR_READ (R544): 16 readings, 16 peaks and 24 voltages. -/
def sensorAnswer (s : State) : Bytes :=
  (List.range 16).flatMap (fun n => leBytes 2 (fget F.MGMT_TEMP_READING n s)) ++
  (List.range 16).flatMap (fun n => leBytes 2 (fget F.MGMT_TEMP_PEAK_PEAK n s)) ++
  (List.range 24).flatMap (fun n => leBytes 2 (fget F.MGMT_VOLT_MV n s))

/-- SENSOR_READ (R544). -/
def execSensorRead (a : AdyelIn) (s : State) : Host.Outcome State Fault Refusal :=
  .next (adyelRun 0x0100 a (fun _ s => (Ans.ok (sensorAnswer s), s)) s).2

/-- R536, R610: the registers that show the limits. -/
def limitsShow (s : State) : State :=
  let l := s.tch.limits
  fset F.MGMT_TEMP_LIMITS_CRIT 0 l.1 (fset F.MGMT_TEMP_LIMITS_WARN 0 l.2.1 (fset F.MGMT_VOLT_WIN_WIN_PCT 0 l.2.2 s))

/-- SENSOR_LIMITS (R536). -/
def execSensorLimits (a : AdyelIn) (s : State) : Host.Outcome State Fault Refusal :=
  .next (adyelRun 0x0101 a (fun r s =>
    let p := r.body
    let warn := fieldLE p 0 2
    let crit := fieldLE p 2 2
    let win := byteAt p 4
    if p.length ≠ 8 ∨ fieldLE p 5 3 ≠ 0 ∨ warn < 960 ∨ 1680 < warn ∨ crit < 1520 ∨ 1920 < crit ∨ crit < warn + 80 ∨
        win < 2 ∨ 10 < win then (Ans.of 6 0, s)
    else
      let s := limitsShow { s with tch := { s.tch with limits := (crit, warn, win) } }
      (Ans.ok [], logPush 0x60 (leBytes 2 warn ++ leBytes 2 crit ++ leBytes 1 win) s)) s).2

/-! ### The event log (R538 to R544) -/

/-- R538, R539: an erase or a program of the open block fails on flash `f`: the block is marked bad there. Log
181 (DESIGN CHOICE). -/
def logFail (f : Nat) (s : State) : State :=
  let i := f * 720 + s.tch.block
  if Tab.get false s.tch.bad i then s
  else haspRise 5 f (emit (.flash f (0x1300000 + s.tch.block * 65536) (leBytes 4 0))
    { s with tch := { s.tch with bad := Tab.set false s.tch.bad i true } })

/-- LOG_ENTRY (R538, R543): Tchien queues an entry and writes the oldest one; the flashes report whether an erase or a
program failed. Log 181 (DESIGN CHOICE). Log 182 (DEDUCED). -/
def execLogEntry (kind : BitVec 16) (data : LogIn) (s : State) : Host.Outcome State Fault Refusal :=
  .next (if !tchRuns s then s
    else
      let s := logWriteOne (logPush kind.toNat data.bytes s)
      let s := if data.fail0 then logFail 0 s else s
      if data.fail1 then logFail 1 s else s)

/-- R538: the oldest place of the ring that holds a block. -/
def logOldest (s : State) : Nat := if s.tch.blocks.length < 720 then 0 else (s.tch.block + 1) % 720

/-- R538: blocks marked bad on a flash. Log 181 (DESIGN CHOICE). -/
def logBad (f : Nat) (s : State) : Nat := (s.tch.bad.filter (fun (x : Nat × Bool) => x.1 / 720 == f && x.2)).length

/-- LOG_INFO (R544). -/
def execLogInfo (a : AdyelIn) (s : State) : Host.Outcome State Fault Refusal :=
  .next (adyelRun 0x0110 a (fun _ s =>
    (Ans.ok (Config.answerLayout 0x0110
      [logOldest s, s.tch.block, s.tch.seq - 1, logBad 0 s, logBad 1 s, s.tch.bootCount]), s)) s).2

/-- R539: the bytes of a place of the ring; one that was never used is erased flash. -/
def logBytes (n : Nat) (s : State) : Bytes :=
  match Tab.find? s.tch.blocks n with
  | some b => b.image
  | none => List.replicate 65536 0xFF#8

/-- LOG_READ (R544). Log 179 (DEDUCED). -/
def execLogRead (a : AdyelIn) (s : State) : Host.Outcome State Fault Refusal :=
  .next (adyelRun 0x0111 a (fun r s =>
    let p := r.body
    let n := fieldLE p 0 4
    let off := fieldLE p 4 4
    let len := fieldLE p 8 4
    let most := if r.udp.isSome then 1408 else 16320
    if p.length ≠ 12 ∨ 720 ≤ n ∨ len < 1 ∨ most < len ∨ 65536 < off + len then (Ans.of 6 0, s)
    else (Ans.ok (slice (logBytes n s) off len), s)) s).2

/-- LOG_CERT (R541). Log 179 (DEDUCED). -/
def execLogCert (a : AdyelIn) (s : State) : Host.Outcome State Fault Refusal :=
  .next (adyelRun 0x0112 a (fun r s =>
    match (s.tch.certs.find? (fun (x : Bytes × Bytes) => x.1 == r.body)) with
    | some x => (Ans.ok x.2, s)
    | none => (Ans.of 6 0, s)) s).2

/-- LOG_SEAL (R541). -/
def execLogSeal (a : AdyelIn) (s : State) : Host.Outcome State Fault Refusal :=
  .next (adyelRun 0x0113 a (fun _ s => (Ans.ok [], logSealNow s)) s).2

/-! ### Firmware (R544, R545) -/

/-- R545: the checks of FW_WRITE, in order; the boot ROM takes steps 1 to 3 (R546). Log 180 (DEDUCED). -/
def fwCheck (r : Req) (wellFormed : Bool) (image : Option FwImage) (s : State) : Nat ⊕ FwImage :=
  let p := frPayload r.frame
  if p.length ≠ 4 ∨ 1 < byteAt p 0 ∨ fieldLE p 1 3 ≠ 0 ∨ r.udp.isSome = true ∨ frInd r.frame = false then .inl 6
  else if 2 ^ 24 < r.ind.length ∨ wellFormed = false then .inl 6
  else match image with
    | none => .inl 7
    | some i =>
      if i.svn < s.ward.fwSvn ∨ i.patchSvn < s.ward.patchSvn then .inl 8
      else if byteAt p 0 = 0 ∧ s.tch.slotB ≠ some i then .inl 5
      else .inr i

/-- R537: what a slot holds. Log 180 (DEDUCED). -/
def slotPut (slot : Nat) (i : Option FwImage) (s : State) : State :=
  { s with tch := if slot = 0 then { s.tch with slotA := i } else { s.tch with slotB := i } }

/-- R545: FW_WRITE carried out: PENDING is answered first, by the critical form already. -/
def fwRun (wellFormed : Bool) (image : Option FwImage) (readBackOk : Bool) (r : Req) (s : State) : Ans × State :=
  match fwCheck r wellFormed image s with
  | .inl st => (Ans.of st 0, s)
  | .inr i =>
    let slot := byteAt (frPayload r.frame) 0
    let s := if frCrit r.frame then s else adyelSend r.udp (answerFrame [] r.frame (Ans.of 2 0)) s
    let s := slotPut slot (if readBackOk then some i else none) s
    if readBackOk then (Ans.ok [], logPush 0x40 (leBytes 1 slot ++ leBytes 1 i.svn ++ fitTo 16 i.digest) s)
    else (Ans.of 5 0, haspLineUp 5 slot s)

/-- FW_WRITE (R545). Log 180 (DEDUCED). -/
def execFwWrite (a : AdyelIn) (wellFormed : Bool) (image : Option FwImage) (readBackOk : Bool) (s : State) :
    Host.Outcome State Fault Refusal :=
  .next (adyelRun 0x0120 a (fwRun wellFormed image readBackOk) s).2

/-- What FW_STATUS says of a slot: VALID, SVN and the digest. -/
def slotItems (i : Option FwImage) (s : State) : List Nat :=
  match i with
  | some x => [b2n (decide (s.ward.fwSvn ≤ x.svn)), x.svn, leNat (fitTo 16 x.digest)]
  | none => [0, 0, 0]

/-- FW_STATUS (R544). -/
def execFwStatus (a : AdyelIn) (s : State) : Host.Outcome State Fault Refusal :=
  .next (adyelRun 0x0121 a (fun _ s =>
    (Ans.ok (Config.answerLayout 0x0121
      (slotItems s.tch.slotA s ++ slotItems s.tch.slotB s ++ [fget F.WARD_BOOT_FW_SLOT 0 s])), s)) s).2

/-- FW_REBOOT (R544, R571): the answer is sent, and the device enters BOOT. -/
def execFwReboot (a : AdyelIn) (s : State) : Host.Outcome State Fault Refusal :=
  let x := adyelRun 0x0122 a (fun _ s => (Ans.ok [], s)) s
  .next (if x.1 = 0 then bootEnter false 4 F.GLB_RESET_CAUSE_FW_REBOOT x.2 else x.2)

/-- MGMT_NET (R544). Log 179 (DEDUCED). -/
def execMgmtNet (a : AdyelIn) (s : State) : Host.Outcome State Fault Refusal :=
  .next (adyelRun 0x0130 a (fun r s =>
    let p := r.body
    if p.length ≠ 32 ∨ 32 < byteAt p 4 ∨ 4094 < fieldLE p 5 2 ∨ 128 < byteAt p 23 ∨ fieldLE p 24 8 ≠ 0 then (Ans.of 6 0, s)
    else (Ans.ok [], { s with tch := { s.tch with net := p } })) s).2

/-! ### The console (R547) -/

/-- A line of console output; its text is open: the command's number, and what it shows. Log 184 (DESIGN CHOICE). -/
def consoleOut (cmd : Nat) (items : List Nat) (s : State) : State :=
  emit (.console (Config.answerLayout (0x10000 + cmd) items)) s

/-- CONSOLE_INFO (R547). -/
def execConsoleInfo (s : State) : Host.Outcome State Fault Refusal :=
  .next (if tchRuns s then consoleOut 0 (infoItems s) s else s)

/-- CONSOLE_SENSORS (R547). -/
def execConsoleSensors (s : State) : Host.Outcome State Fault Refusal :=
  .next (if tchRuns s then consoleOut 1 ((sensorAnswer s).map (fun b => b.toNat)) s else s)

/-- R513: the 64 bits of HASP_STATUS. -/
def haspStatus (s : State) : Nat := (haspSetList s).foldl (fun v n => v + 2 ^ n) 0

/-- CONSOLE_HASP (R547): HASP_STATUS and HASP_FIRST. -/
def execConsoleHasp (s : State) : Host.Outcome State Fault Refusal :=
  .next (if tchRuns s then
      consoleOut 2 [haspStatus s, fget F.HASP_FIRST_VALID 0 s, fget F.HASP_FIRST_SOURCE 0 s, fget F.HASP_FIRST_CLASS 0 s] s
    else s)

/-- R538: the entries of the ring, oldest first. -/
def logEntries (s : State) : List Bytes :=
  (List.range 720).flatMap (fun i => (logBlock ((s.tch.block + 1 + i) % 720) s).entries)

/-- CONSOLE_LOG (R547): the last n entries. -/
def execConsoleLog (n : Nat) (s : State) : Host.Outcome State Fault Refusal :=
  .next (if tchRuns s then
      let es := logEntries s
      consoleOut 3 ((es.drop (es.length - n)).map leNat) s
    else s)

/-- R504, R547: a CONSOLE grant opens the privileged commands. Log 28 (DEDUCED). -/
def consoleOpen (s : State) : Bool := tchRuns s && flag F.WARD_STATE_CONSOLE 0 s

/-- CONSOLE_EYE (R547): what the scan measures is a free value; traffic goes on. Log 184 (DESIGN CHOICE). -/
def execConsoleEye (octet lane : Nat) (s : State) : Host.Outcome State Fault Refusal :=
  .next (if consoleOpen s && decide (octet < 35) && decide (lane < 8) then
      let v := freshValue 60 s
      consoleOut 4 [octet, lane, v.1] v.2
    else s)

end Sys2Proof.Machine
end

