-- ==== Sys2Proof/Machine/Trace.lean ====
section
/-! DEFINITION. Telemetry dumps (R552 to R554), bandwidth windows (R551), the trace FIFO as its readers see it (R563 to
R565), and the observation port (R566 to R568). -/
namespace Sys2Proof.Machine

/-! ### Telemetry dumps -/

/-- R552: a dump starts, with requests of class C (R23). Log 185 (DEDUCED). Log 195 (DESIGN CHOICE). -/
def dumpStart (tick : Nat) (byCmd late : Bool) (s : State) : State :=
  let s := hbmAsk 2 129 s
  setFlag F.DUMP_STATUS_RUNNING 0 true { s with trc := { s.trc with
    late := [], capFrom := s.time.cclk, capPtp := s.time.ptp, capTick := tick, capByCmd := byCmd, capLate := late, capBw := none } }

/-- R554: a trigger: the first one during a dump makes one pending, and later ones merge with it. -/
def dumpTrigger (tick : Nat) (byCmd : Bool) (s : State) : State :=
  if !flag F.DUMP_STATUS_RUNNING 0 s then dumpStart tick byCmd false s
  else if flag F.DUMP_STATUS_PENDING 0 s then
    bump F.DUMP_SKIPPED_COUNT 0 { s with trc := { s.trc with skipped := s.trc.skipped + 1 } }
  else setFlag F.DUMP_STATUS_PENDING 0 true { s with trc := { s.trc with pendTick := tick, pendByCmd := byCmd } }

/-- DUMP_TRIGGER (R552): a tick of DUMP_TD whose index is a multiple of DUMP_DIVISOR. -/
def execDumpTrigger (s : State) : Host.Outcome State Fault Refusal :=
  let td := dumpTd s.cfg
  .next (if loaded s && decide (td < 8) && Tab.get false s.time.tickSeen td && modeOpen s &&
      tickIdx td s % dumpDiv s.cfg == 0 then
      dumpTrigger (tickIdx td s) false s
    else s)

/-- R552: a write of DUMP_CTRL. -/
def dumpCtrlWrite (w : Word) (s : State) : State := if wbit F.DUMP_CTRL_DUMP_NOW w then dumpTrigger 0 true s else s

/-- DUMP_NOW (R552). -/
def execDumpNow (fn : Fn) (w : Word) (s : State) : Host.Outcome State Fault Refusal :=
  .next (hostWr fn.val .DUMP_CTRL 0 s (dumpCtrlWrite (withBit w 0 true)))

/-- R552: cclk that a capture takes. -/
def dumpCclk : Nat := 166016

/-- R553: the header of the running dump, as eight 64-bit words. Log 185 (DEDUCED). -/
def dumpHeader (s : State) : List Nat :=
  let t := s.trc
  let tEnd := if running s then
      t.capPtp + fget F.TIME_INCR_INCR 0 s * (edgesAt (t.capFrom + dumpCclk) - edgesAt t.capFrom)
    else t.capPtp
  [t.dumps + 1, if t.capByCmd then 0 else t.capTick, t.capPtp / 2 ^ 28, tEnd % ptpWrap / 2 ^ 28,
   t.skipped % 2 ^ 32 + 2 ^ 32 * (b2n t.capByCmd + 2 * b2n t.capLate), fget F.BW_CTRL_WINDOW_US 0 s, t.capBw.getD t.bwEnd, 0]

/-- R553: the counters that the dump read, with its header at page 128. Log 185 (DEDUCED). -/
def dumpImage (s : State) : Tab Nat :=
  let old := fun k : Nat => (Tab.get 0 s.counters k + 2 ^ 64 - Tab.get 0 s.trc.late k) % 2 ^ 64
  let keys := s.counters.map (·.1) ++ (s.trc.late.map (·.1)).filter (fun k => (Tab.find? s.counters k).isNone)
  let t := keys.foldl (fun t k => Tab.set 0 t k (old k)) []
  (dumpHeader s).zipIdx.foldl (fun t x => Tab.set 0 t (128 * 8192 + x.2) x.1) t

/-- DUMP_COMPLETE (R553, R554): BAR2 switches to the new copy; a pending dump starts in the next cclk, late. -/
def execDumpComplete (s : State) : Host.Outcome State Fault Refusal :=
  .next (if !flag F.DUMP_STATUS_RUNNING 0 s then s
    else
      let s := reachCclk (s.trc.capFrom + dumpCclk) s
      let img := dumpImage s
      let s := { s with trc := { s.trc with shown := img, dumps := s.trc.dumps + 1, late := [] } }
      let s := setFlag F.DUMP_STATUS_RUNNING 0 false s
      if flag F.DUMP_STATUS_PENDING 0 s then
        let s := passCclk 1 (setFlag F.DUMP_STATUS_PENDING 0 false s)
        haspLineUp 52 0 (dumpStart s.trc.pendTick s.trc.pendByCmd true s)
      else s)

/-! ### Bandwidth windows (R551) -/

/-- R548, R551: the record of a port in page 147: 0 RX_LAST, 1 TX_LAST, 2 RX_PEAK, 3 TX_PEAK. -/
def bwOff (p k : Nat) : Nat := 147 * 65536 + p * 32 + 8 * k

/-- R551: end of the window in progress, in ns. Log 186 (DEDUCED). -/
def bwBoundary (s : State) : Nat :=
  let w := max 1 (bwWindow s)
  let start := if nowNs s + w < s.trc.bwFrom then nowNs s / w * w else s.trc.bwFrom
  (start / w + 1) * w

/-- R551: a window of one direction ends: LAST and PEAK of a port. -/
def bwPut (p k v : Nat) (s : State) : State :=
  let pk := Tab.get 0 s.counters (bwOff p (k + 2) / 8)
  cntSet (bwOff p (k + 2)) (max pk v) (cntSet (bwOff p k) v s)

/-- BW_WINDOW_END (R551). -/
def execBwWindowEnd (s : State) : Host.Outcome State Fault Refusal :=
  .next (if !running s || !modeOpen s then s
    else
      let w := max 1 (bwWindow s)
      let s := reachPtp (bwBoundary s) s
      let e := nowNs s / w * w
      let keep := if flag F.DUMP_STATUS_RUNNING 0 s && s.trc.capBw.isNone && cntTaken (bwOff 0 0) s then some s.trc.bwEnd
        else s.trc.capBw
      let rx := s.trc.rxNow
      let tx := s.trc.txNow
      let s := { s with trc := { s.trc with rxNow := [], txNow := [], bwFrom := e, bwEnd := e, capBw := keep } }
      (List.range 256).foldl (fun s p => bwPut p 1 (Tab.get 0 tx p) (bwPut p 0 (Tab.get 0 rx p) s)) s)

/-- R551, R568: PEAK_CLEAR. -/
def peaksClear (s : State) : State :=
  (List.range 256).foldl (fun s p => cntSet (bwOff p 2) 0 (cntSet (bwOff p 3) 0 s)) s

/-- R551: a new window: everything of the old one is dropped, and counting starts at the next boundary. Log 186
(DEDUCED). -/
def bwRestart (us : Nat) (s : State) : State :=
  let s := fset F.BW_CTRL_WINDOW_US 0 (clampN 100 1000000 us) s
  let w := bwWindow s
  let s := { s with trc := { s.trc with rxNow := [], txNow := [], bwFrom := ceilDiv (nowNs s) w * w } }
  (List.range 256).foldl (fun s p => (List.range 4).foldl (fun s k => cntSet (bwOff p k) 0 s) s) s

/-- R568: a write of BW_CTRL. One with PEAK_CLEAR that leaves WINDOW_US as it is starts no new window. Log 186
(DEDUCED). -/
def bwCtrlWrite (w : Word) (s : State) : State :=
  let us := wfld F.BW_CTRL_WINDOW_US w
  if wbit F.BW_CTRL_PEAK_CLEAR w then
    peaksClear (if clampN 100 1000000 us = fget F.BW_CTRL_WINDOW_US 0 s then s else bwRestart us s)
  else bwRestart us s

/-- BW_WINDOW_WRITE (R551). -/
def execBwWindowWrite (fn : Fn) (w : Word) (s : State) : Host.Outcome State Fault Refusal :=
  .next (hostWr fn.val .BW_CTRL 0 s (bwCtrlWrite (withBit w 31 false)))

/-- PEAK_CLEAR (R551, R568). -/
def execPeakClear (fn : Fn) (w : Word) (s : State) : Host.Outcome State Fault Refusal :=
  .next (hostWr fn.val .BW_CTRL 0 s (bwCtrlWrite (withBit w 31 true)))

/-! ### Reading the trace FIFO (R563 to R565) -/

/-- R563: a latched narrow word; 0 before the first read. -/
def traceLatch (i : Nat) (s : State) : Nat := s.trc.latch.getD i 0

/-- R563: a read of TRC_DATA0. -/
def traceRead (s : State) : Nat × State :=
  match s.trc.fifo with
  | w :: r =>
    if flag F.TRC_CTRL_SINK 0 s then (traceLatch 0 s, setFlag F.TRC_STATUS_UNDERRUN 0 true s)
    else (w.getD 0 0, { s with trc := { s.trc with fifo := r, latch := w } })
  | [] => (traceLatch 0 s, setFlag F.TRC_STATUS_UNDERRUN 0 true s)

/-- TRC_DATA_READ (R563). -/
def execTrcDataRead (fn : Fn) (s : State) : Host.Outcome State Fault Refusal :=
  .next (hostRd fn.val .TRC_DATA 0 s traceRead)

/-- R564: FLUSH. -/
def traceFlush (s : State) : State :=
  let v := s.trc.packing.length
  let w := s.trc.packing ++ List.replicate (7 - v) 0 ++ [0x05000000 + 4 * v]
  traceForget { s with trc := { s.trc with fifo := [w], packing := [] } }

/-- R561, R564, R567, R568: a write of TRC_CTRL. -/
def trcCtrlWrite (w : Word) (s : State) : State :=
  let sink := wbit F.TRC_CTRL_SINK w
  let on := wbit F.TRC_CTRL_ENABLE w
  if sink && !flag F.WARD_STATE_OBSERVE 0 s then fset F.TRC_CTRL_RESULT 0 5 s
  else
    let s := if on && !flag F.TRC_CTRL_ENABLE 0 s then traceForget s else s
    let s := if sink && flag F.TRC_CTRL_SINK 0 s then s else { s with trc := { s.trc with sinceSync := none } }
    let s := fset F.TRC_CTRL_IDLE_CLOSE_US 0 (wfld F.TRC_CTRL_IDLE_CLOSE_US w) (fset F.TRC_CTRL_RESULT 0 0 s)
    let s := setFlag F.TRC_CTRL_SINK 0 sink (setFlag F.TRC_CTRL_ENABLE 0 on s)
    if wbit F.TRC_CTRL_FLUSH w then traceFlush s else s

/-- TRC_FLUSH (R564). -/
def execTrcFlush (fn : Fn) (w : Word) (s : State) : Host.Outcome State Fault Refusal :=
  .next (hostWr fn.val .TRC_CTRL 0 s (trcCtrlWrite (withBit w 2 true)))

/-- TRC_SINK_SET (R567). -/
def execTrcSinkSet (fn : Fn) (w : Word) (s : State) : Host.Outcome State Fault Refusal :=
  .next (hostWr fn.val .TRC_CTRL 0 s (trcCtrlWrite (withBit w 1 true)))

/-- TRC_IDLE_CLOSE (R565): no producer word has been accepted for IDLE_CLOSE_US. -/
def execTrcIdleClose (s : State) : Host.Outcome State Fault Refusal :=
  let us := fget F.TRC_CTRL_IDLE_CLOSE_US 0 s
  .next (if us = 0 ∨ s.trc.packing = [] ∨ modeOpen s = false then s
    else
      let s := reachCclk (s.trc.wordAt + us * 1600) s
      let w := s.trc.packing ++ List.replicate (8 - s.trc.packing.length) 0
      { s with trc := { s.trc with fifo := s.trc.fifo ++ [w], packing := [] } })

/-! ### The observation port (R566, R567) -/

/-- R566: the port sends. -/
def obsOpen (s : State) : Bool :=
  flag F.TRC_CTRL_SINK 0 s && flag F.WARD_STATE_OBSERVE 0 s && modeOpen s

/-- OBS_WORD_SEND (R567): the next wide word leaves, in 10 ns. Log 187 (DEDUCED). -/
def execObsWordSend (s : State) : Host.Outcome State Fault Refusal :=
  .next (if !obsOpen s then s
    else passCclk 16 (match s.trc.sinceSync with
      | none => emit (.obs (List.replicate 8 0x07C35AA5)) { s with trc := { s.trc with sinceSync := some 0 } }
      | some n =>
        if 1023 ≤ n then emit (.obs (List.replicate 8 0x07C35AA5)) { s with trc := { s.trc with sinceSync := some 0 } }
        else match s.trc.fifo with
          | w :: r => emit (.obs w) { s with trc := { s.trc with fifo := r, sinceSync := some (n + 1) } }
          | [] => emit (.obs (List.replicate 8 0x06000000)) { s with trc := { s.trc with sinceSync := some (n + 1) } }))

/-- CONSOLE_TRACE (R547): under a CONSOLE grant, sets TRC_CTRL. -/
def execConsoleTrace (w : Word) (s : State) : Host.Outcome State Fault Refusal :=
  .next (if consoleOpen s then trcCtrlWrite w s else s)

end Sys2Proof.Machine
end

