-- ==== Sys2Proof/Machine/Boot.lean ====
section
/-! DEFINITION. The end of BOOT (R471, R579, R580, R648), and the wakes from STANDBY (R588 to R591). -/
namespace Sys2Proof.Machine

/-! ### Secure boot (R471) -/

/-- R471 step 2, R398, R399: the HBM key is drawn, and HBM is zeroed under it. Log 225 (DEDUCED). -/
def bootKey (s : State) : State :=
  let d := drawBytes 64 s
  let s := { d.2 with ward := { d.2.ward with hbmKey := d.1 } }
  setFlag F.WARD_STATE_HBM_KEY_VALID 0 true (setFlag F.MEM_STATUS_INIT_DONE 0 true (hbmZero s))

/-- R471 step 3: an image in a slot that verifies and whose SVN is not below the floor. -/
def fwValid (i : Option FwImage) (s : State) : Option FwImage := i.filter (fun x => decide (s.ward.fwSvn ≤ x.svn))

/-- R471 step 3: the image that runs, and its slot: A, else B. Log 189 (DEDUCED). -/
def fwPick (s : State) : Option (FwImage × Nat) :=
  match fwValid s.tch.slotA s with
  | some i => some (i, 0)
  | none => (fwValid s.tch.slotB s).map (fun i => (i, 1))

/-- R471 step 3: the image is verified: FW_SLOT, FALLBACK, FW_RUN and measurement 2. -/
def fwLoad (i : FwImage) (slot : Nat) (s : State) : State :=
  let s := fset F.WARD_SVN_FW_RUN 0 i.svn { s with ward := { s.ward with fwDigest := i.digest } }
  fset F.WARD_BOOT_FW_SLOT 0 slot (fset F.WARD_BOOT_FALLBACK 0 slot s)

/-- R472: the patch bundle is decrypted and verified, and its PATCH_SVN is not below the floor. -/
def patchValid (i : FwImage) (s : State) : Bool := i.patchOk && decide (s.ward.patchSvn ≤ i.patchSvn)

/-- R297, R472: the bundle is loaded into every engine, which reports its revisions; measurement 3. -/
def patchLoad (i : FwImage) (s : State) : State :=
  let s := { s with ward := { s.ward with patchLevel := i.patchLevel, keyways := i.keyways, patchDigest := i.patchDigest } }
  let s := fset F.WARD_SVN_PATCH_RUN 0 i.patchSvn s
  (List.range 48).foldl (fun s e =>
    fset F.CE_UCODE_ROM_REV e Config.romRev.toNat (fset F.CE_UCODE_PATCH_LEVEL e i.patchLevel s)) s

/-- R478: a copy of the Ward store that qualifies. -/
def copyOk (ok : Bool) (c : Option StoreCopy) (s : State) : Option StoreCopy :=
  if ok then c.filter (fun x => x.epoch == s.ward.storeEpoch) else none

/-- R478: the copy of the higher generation. -/
def storePick (b : BootIn) (s : State) : Option StoreCopy :=
  match copyOk b.store0Ok s.ward.copy0 s, copyOk b.store1Ok s.ward.copy1 s with
  | some x, some y => some (if x.gen < y.gen then y else x)
  | some x, none => some x
  | none, y => y

/-- R471 step 5, R478: the store is opened, and the other copy rewritten. -/
def storeOpen (c : StoreCopy) (s : State) : State :=
  { s with ward := { s.ward with
    os := c.os, kCmd := fitTo 48 (Config.hmac384 c.os (label "DZM7264-CMD"))
    kWrap := fitTo 32 (Config.hmac384 c.os (label "DZM7264-WRAP")), counter := c.counter, lastFrame := c.lastMac
    lastAnswer := c.lastAnswer, floor := c.floor, signers := c.signers, enc := c.enc, gen := c.gen
    copy0 := some c, copy1 := some c } }

/-- R469, R471 step 6: the alias key, from measurements 1 to 3. -/
def aliasDerive (s : State) : State :=
  let m := fitTo 48 Config.romDigest ++ fitTo 48 s.ward.fwDigest ++ fitTo 48 s.ward.patchDigest
  { s with ward := { s.ward with aliasSeed := Config.aliasSeed m } }

/-- R488: every GEN of this boot is drawn. Log 166 (DEDUCED). -/
def gensDraw (s : State) : State :=
  { s with ward := { s.ward with genDraw := s.draws, gens := [], keys := [] }, draws := s.draws + 1 }

/-- R508: WARD_BOOT as a word. -/
def wardBootWord (s : State) : Nat :=
  fget F.WARD_BOOT_FALLBACK 0 s * 256 + fget F.WARD_BOOT_FW_SLOT 0 s * 128 + fget F.WARD_BOOT_FAIL 0 s

/-- R536, R540, R541, R542: Tchien starts: the open log block closes, and the entry to BOOT is logged. -/
def tchStart (s : State) : State :=
  let s := logClose s
  let s := limitsShow { s with tch := { s.tch with startedAt := s.time.cclk, bootCount := s.tch.bootCount + 1 } }
  let s := logPush 1 (leBytes 4 (wardBootWord s) ++ [0x41#8, 0x31#8] ++ leBytes 2 s.ward.patchLevel) s
  logPush 2 (leBytes 1 s.power.bootFrom ++ leBytes 1 1 ++ leBytes 1 s.power.bootCause) s

/-- R546, R533: firmware starts where the Ward has verified some; otherwise the boot ROM answers. Log 33 (DEDUCED). -/
def tchBegin (s : State) : State :=
  match fwPick s with
  | some _ => tchStart s
  | none => { s with tch := { s.tch with romOnly := true } }

/-- R471, R510: a failure of secure boot ends BOOT in LOCKDOWN. Log 32 (DEDUCED). Log 33 (DEDUCED). -/
def bootFail (code : Nat) (s : State) : State :=
  let s := fset F.WARD_BOOT_FAIL 0 code s
  let s := tchBegin { s with ward := { s.ward with powerCycleOnly := decide (code ≠ 4) } }
  lockdownEnter 6 (haspForce 0 code s)

/-- R580: the Hasp source of a failing unit, and its DETAIL (R509). -/
def bistSource (unit : Nat) : Nat × Nat :=
  if unit ≤ 5 then (15, unit - 1) else if unit = 6 then (3, 0) else if unit = 7 then (14, 0) else (2, 0)

/-- R579, R580: a self-test failure ends BOOT in LOCKDOWN. Log 33 (DEDUCED). -/
def bistFailed (unit : Nat) (s : State) : State :=
  let s := tchBegin { s with ward := { s.ward with powerCycleOnly := true } }
  let x := bistSource unit
  lockdownEnter 7 (haspForce x.1 x.2 s)

/-- R591: the image that the Ward retained is in force again. Log 189 (DEDUCED). -/
def imageRestore (s : State) : State :=
  match s.power.retImage with
  | none => s
  | some (l, serial, svn) =>
    let old := s.cfg
    let s := { s with loader := l, power := { s.power with retImage := none } }
    imageInForce old (fset F.IMG_SERIAL_SERIAL 0 serial (fset F.IMG_SVN_SVN 0 svn s))

/-- R471 step 7, R648: Tchien starts, and the device enters CONFIGURE, or LOCKDOWN in its place. Log 29 (DESIGN
CHOICE). -/
def bootEnd (s : State) : State :=
  let s := tchStart (gensDraw (aliasDerive s))
  let s := { s with power := { s.power with configured := true } }
  if s.power.lockHeld || haspC4 s then lockdownEnter 5 { s with power := { s.power with retImage := none } }
  else imageRestore (enterMode .configure 0 s)

/-- R471 steps 3 to 7. Log 32 (DEDUCED). Log 189 (DEDUCED). -/
def bootSteps (b : BootIn) (s : State) : State :=
  match fwPick s with
  | none => bootFail 2 (setFlag F.WARD_BOOT_FALLBACK 0 true (haspLineUp 0 1 s))
  | some (i, slot) =>
    let s := fwLoad i slot (if slot = 1 then fset F.WARD_BOOT_FAIL 0 1 (haspLineUp 0 1 s) else s)
    if !patchValid i s then bootFail 3 s
    else
      let s := patchLoad i s
      if secState s ≠ 1 then bootEnd s
      else match storePick b s with
        | none => bootFail 4 s
        | some c => bootEnd (storeOpen c s)

/-- BOOT_COMPLETE (R471, R579, R580, R648): what BOOT found, to its end. In board test only steps 1 and 2 of R471
run. Log 33 (DEDUCED). Log 189 (DEDUCED). -/
def execBootComplete (b : BootIn) (s : State) : Host.Outcome State Fault Refusal :=
  .next (if s.mode ≠ .boot ∨ s.power.inReset = true then s
    else
      let s := setFlag F.WARD_STATE_ENTROPY_OK 0 (!haspCause 1 s) s
      if flag F.GLB_MODE_BOARD_TEST 0 s then
        (if b.pufOk then bootKey s else fset F.WARD_BOOT_FAIL 0 5 s)
      else
        let s := { s with tch := { s.tch with slotA := b.slotA, slotB := b.slotB } }
        if !b.pufOk then bootFail 5 s
        else
          let s := setFlag F.GLB_BIST_DONE 0 true (fset F.GLB_BIST_FAIL_UNIT 0 b.bistFail (bootKey s))
          if 1 ≤ b.bistFail ∧ b.bistFail ≤ 8 then bistFailed b.bistFail s else bootSteps b s)

/-! ### Waking (R588 to R591) -/

/-- R591: the wake is acted on: a retained STANDBY, or one that a Hasp request ends, resumes; another one boots. Log
36 (DEDUCED). -/
def wakeAct (s : State) : State :=
  if s.power.retain || s.power.lockHeld then
    let s := setTransition (if s.power.lockHeld then 5 else 3) s
    { s with power := { s.power with resuming := true, wokeAt := s.time.cclk } }
  else bootEnter true 9 F.GLB_RESET_CAUSE_STANDBY_WAKE (passCclk 336000 s)

/-- R585, R586, R589, R590: a wake that is enabled. Log 41 (DEDUCED). -/
def wakeEvent (code : Nat) (s : State) : State :=
  let s := { s with power := { s.power with wakeSeen := some s.time.cclk } }
  if s.mode == .operate && inTransition s && fget F.GLB_MODE_TARGET 0 s == 4 then
    if s.power.gated then wakeLatch code s
    else setFlag F.GLB_MODE_TRANSITION 0 false (stbyStatus 0x0A s)
  else if s.mode == .standby then
    let s := wakeLatch code s
    if !s.power.resuming && decide (s.power.reachedAt + 80000 ≤ s.time.cclk) then wakeAct s else s
  else s

/-- R589: a wake when its source is enabled and the inputs are watched. -/
def wakeIf (f : Fld) (code : Nat) (s : State) : State := if pinsLive s && flag f 0 s then wakeEvent code s else s

/-- R589: WAKE_N falls, or is released. -/
def wakePin (release : Bool) (s : State) : State :=
  let fell := !s.power.wakeLow && !release
  let s := { s with power := { s.power with wakeLow := !release } }
  if fell then wakeIf F.GLB_WAKE_CFG_WAKE_PIN 1 s else s

/-- R589: STBY_REQ_N rises. Log 178 (DEDUCED). -/
def stbyRise (s : State) : State :=
  if !s.power.stbyLow then s
  else wakeIf F.GLB_WAKE_CFG_STBY_PIN 2 { s with power := { s.power with stbyLow := false } }

/-- R589, R577: PCIE_PERST_N rises. -/
def perstUp (s : State) : State :=
  if s.power.perstHigh then s
  else wakeIf F.GLB_WAKE_CFG_PERST 3 { s with power := { s.power with perstHigh := true } }

/-- R589, R599: PTP time reaches the alarm time taken at the entry to STANDBY. -/
def alarmRun (s : State) : State :=
  match s.power.alarmNs with
  | none => s
  | some t =>
    if s.mode ≠ .standby then s
    else
      let s := reachPtp t s
      if nowNs s < t then s
      else wakeEvent 4 { s with power := { s.power with alarmNs := none } }

/-- PERST_RISE (R589). -/
def execPerstRise (s : State) : Host.Outcome State Fault Refusal := .next (perstUp s)

/-- WAKE (R589): an edge of one of the wake sources. -/
def execWake (src : WakeSrc) (release : Bool) (s : State) : Host.Outcome State Fault Refusal :=
  .next (match src with
    | .wakeN => wakePin release s
    | .stbyReqN => stbyRise s
    | .perstN => perstUp s
    | .alarm => alarmRun s)

/-- ALARM (R599). -/
def execAlarm (s : State) : Host.Outcome State Fault Refusal := .next (alarmRun s)

/-- WAKE_DWELL_END (R590): 50 µs after STANDBY was reached, a wake that is latched is acted on. -/
def execWakeDwellEnd (s : State) : Host.Outcome State Fault Refusal :=
  .next (if s.mode == .standby && !s.power.resuming && (s.power.firstWake != 0 || s.power.lockHeld) then
      wakeAct (reachCclk (s.power.reachedAt + 80000) s)
    else s)

/-- R591: packet buffer, scratch and working stores are zeroed. Log 42 (DEDUCED). -/
def storesZero (s : State) : State :=
  let cells := s.mem.cells.filter (fun c => decide (c.1 < 2 ^ 45))
  let depth := fun k : Nat => k % 16384 == F.TM_LEAF_DEPTH_CELLS.key 0
  let s := { s with mem := { s.mem with cells := cells }
                    pipe := { s.pipe with flights := [], attach := [], punts := [] }
                    tm := { s.tm with queues := [], rounds := [], occ := [], controlUsed := 0, mcastUsed := 0 }
                    regs := s.regs.filter (fun x => !depth x.1) }
  fset F.TM_SHARED_USED_CELLS 0 0 s

/-- R588, R591: STANDBY without retention that ends in LOCKDOWN: what it has lost is lost, and the image stays in
force. Log 35 (DEDUCED). -/
def unretained (s : State) : State :=
  let wardReg := fun k : Nat => decide (Reg.WARD_STATE.idx ≤ k % 16384 / 32) && decide (k % 16384 / 32 ≤ Reg.WARD_GRANT_LEFT.idx)
  let n := softReset true s
  let n := { n with mode := s.mode, loader := s.loader, ward := s.ward, tch := s.tch, power := s.power
                    regs := (s.regs.filter (fun (x : Nat × Nat) => wardReg x.1)).foldl (fun t (x : Nat × Nat) => Tab.put t x.1 x.2)
                      (n.regs.filter (fun (x : Nat × Nat) => !wardReg x.1)) }
  let serial := fget F.IMG_SERIAL_SERIAL 0 s
  let n := imgRegs s.loader.header n
  imageInForce [] (limitsShow (fset F.IMG_SERIAL_SERIAL 0 serial (fset F.IMG_SVN_SVN 0 (fget F.IMG_SVN_SVN 0 s) n)))

/-- R591, R449: at the entry to OPERATE PF0 asserts PCIE_WAKE_N when its PME_En is 1 and the link is in L2. -/
def wakePme (s : State) : State :=
  if s.pcie.link == .l2Ready && Tab.get false s.pcie.pmeEn 0 then
    { s with pcie := { s.pcie with pmeStatus := Tab.set false s.pcie.pmeStatus 0 true
                                   wakeDrive := Tab.set false s.pcie.wakeDrive 0 true } }
  else s

/-- R591: the entry to OPERATE from a retained STANDBY. Log 42 (DEDUCED). -/
def resumeOperate (s : State) : State :=
  let s := enterMode .operate 9 (setFlag F.GLB_MODE_TRANSITION 0 false (storesZero s))
  let us := s.power.recorded
  let s := { s with power := { s.power with resuming := false, recorded := [], firstWake := 0, alarmNs := none } }
  wakePme (us.foldl (fun s u => unitOn u s) s)

/-- WAKE_RESUME (R591, R588): 400 µs after the wake was acted on. Log 35 (DEDUCED). Log 36 (DEDUCED). -/
def execWakeResume (s : State) : Host.Outcome State Fault Refusal :=
  .next (if s.mode == .standby && s.power.resuming then
      let s := reachCclk (s.power.wokeAt + 640000) s
      if s.power.lockHeld then lockdownEnter 5 (if s.power.retain then s else unretained s) else resumeOperate s
    else s)

end Sys2Proof.Machine
end

