-- ==== Sys2Proof/Machine/RegAccess.lean ====
section
/-! DEFINITION. Register accesses (R440 to R442, R450, R453 to R455, R603 to R608): what a read of any register returns and
does, what a write of any register does, and the spaces that the BARs hold. -/
namespace Sys2Proof.Machine

/-! ### Reading a register -/

/-- R508: seconds left of the grant, a started one counting whole. -/
def grantLeft (s : State) : Nat := ceilDiv (s.ward.grantEnd - s.time.cclk) 1600000000

/-- Bits of a word of sources that have a property. -/
def srcWord (w : Nat) (p : Nat → Bool) : Nat :=
  (List.range 32).foldl (fun v b => if p (32 * w + b) then v + 2 ^ b else v) 0

/-- Bits of a word of the Hasp sources that have a property. -/
def haspBits (hi : Bool) (p : Nat → Bool) : Nat := srcWord (b2n hi) p

/-- The fields of a register whose value follows other state, with that value. Log 18 (DEDUCED). Log 129 (DEDUCED).
Log 148 (DEDUCED). Log 157 (DEDUCED). -/
def derivedFields (fn : Nat) (r : Reg) (i : Nat) (s : State) : List (Fld × Nat) :=
  match r with
  | .HASP_STATUS_LO => [(F.HASP_STATUS_LO_STATUS, haspBits false (fun n => haspIsSet n s))]
  | .HASP_STATUS_HI => [(F.HASP_STATUS_HI_STATUS, haspBits true (fun n => haspIsSet n s))]
  | .HASP_ACK_LO => [(F.HASP_ACK_LO_ACK, haspBits false (fun n => haspAcked n s))]
  | .HASP_ACK_HI => [(F.HASP_ACK_HI_ACK, haspBits true (fun n => haspAcked n s))]
  | .HASP_CAUSE_LO => [(F.HASP_CAUSE_LO_CAUSE, haspBits false (fun n => haspCause n s))]
  | .HASP_CAUSE_HI => [(F.HASP_CAUSE_HI_CAUSE, haspBits true (fun n => haspCause n s))]
  | .HASP_PINS => [(F.HASP_PINS_SHK_DRIVE, b2n (shkDrive s)), (F.HASP_PINS_READY, b2n (readyHigh s)),
      (F.HASP_PINS_FAULT_LOW, b2n (faultLow s))]
  | .HASP_SRC_WIN => [(F.HASP_SRC_WIN_COUNT, haspWinCount i s)]
  | .HASP_SRC_STATE => [(F.HASP_SRC_STATE_EFF_CLASS, haspEff i s)]
  | .SHK_STATUS => [(F.SHK_STATUS_FAULT_SEEN, b2n (shkDrive s || s.power.shkFaultIn))]
  | .SYNC_GPIO => [(F.SYNC_GPIO_IN, gpioIn s)]
  | .INT_PEND => [(F.INT_PEND_PEND, fget F.INT_PEND_PEND i s &&& srcBits fn i s)]
  | .INT_MASK => [(F.INT_MASK_MASK, fget F.INT_MASK_MASK i s &&& srcBits fn i s)]
  | .INT_RAW => [(F.INT_RAW_RAW, srcWord i (fun n => lineHigh n s) &&& srcBits fn i s)]
  | .WARD_STATE => [(F.WARD_STATE_EPOCH, s.ward.storeEpoch), (F.WARD_STATE_BANKS_USED, s.ward.banks.length)]
  | .WARD_SVN => [(F.WARD_SVN_PATCH_FLOOR, s.ward.patchSvn), (F.WARD_SVN_FW_FLOOR, s.ward.fwSvn)]
  | .WARD_IMG_FLOOR => [(F.WARD_IMG_FLOOR_FLOOR, s.ward.floor)]
  | .WARD_CTR_LO => [(F.WARD_CTR_LO_CTR, s.ward.counter)]
  | .WARD_CTR_HI => [(F.WARD_CTR_HI_CTR, s.ward.counter / 2 ^ 32)]
  | .WARD_GRANT_LEFT => [(F.WARD_GRANT_LEFT_SECONDS, grantLeft s)]
  | .TBL_DRAIN_EPOCH => [(F.TBL_DRAIN_EPOCH_DRAIN, drainEpoch i s)]
  | .TRIE_STATUS => [(F.TRIE_STATUS_BUSY, b2n (fget F.TRIE_RING_HEAD_HEAD i s != fget F.TRIE_RING_TAIL_TAIL i s))]
  | .TM_STALLED_LEAVES => [(F.TM_STALLED_LEAVES_COUNT, (stalledLeaves s).length)]
  | .TM_STALL_FIRST => [(F.TM_STALL_FIRST_VALID, b2n (!(stalledLeaves s).isEmpty)),
      (F.TM_STALL_FIRST_LEAF, (stalledLeaves s).headD 0)]
  | .ESS_OPEN_COUNT => [(F.ESS_OPEN_COUNT_COUNT, (s.ess.ctx.filter (fun x => fState x.1 s != 0)).length)]
  | .CE_STATUS =>
    let h := gangHead s.cfg i
    let run := runningSc h s
    [(F.CE_STATUS_CUR_SC, run.getD 0), (F.CE_STATUS_CUR_LIVE, b2n (run.any (fun k => (strm k s).prio == 0))),
      (F.CE_STATUS_BUSY, b2n (run.isSome || flag F.CE_STATUS_DRAINING h s))]
  | .CE_KEYWAYS => [(F.CE_KEYWAYS_ACTIVE, s.ward.keyways)]
  | .CE_WIN_CFG => if winClaimed s i then
      [(F.CE_WIN_CFG_SIZE_U, winSize s i / 16384), (F.CE_WIN_CFG_BASE_U, winBase s i / 16384)] else []
  | .CE_WIN_CTRL => if winClaimed s i then [(F.CE_WIN_CTRL_USE, winUse s i)] else []
  | .CE_WIN_STATUS => [(F.CE_WIN_STATUS_CLAIMED, b2n (winClaimed s i)), (F.CE_WIN_STATUS_BOUND, b2n (winBound i s))]
  | .CG_ALLOC => [(F.CG_ALLOC_RESULT, (Tab.get (0, 0) s.coding.allocOf fn).1), (F.CG_ALLOC_SC, (Tab.get (0, 0) s.coding.allocOf fn).2)]
  | .CG_OPEN_COUNT => [(F.CG_OPEN_COUNT_COUNT, ((List.range 1024).filter (fun k => scState k s != 0)).length)]
  | .SC_STATE => [(F.SC_STATE_STAT_FULL, b2n (decide (2 ≤ scState i s) && statFull i s))]
  | .DC_BYTES => [(F.DC_BYTES_COUNT, (chan i s).bytes)]
  | .DC_BYTES_HI => [(F.DC_BYTES_HI_COUNT_HI, (chan i s).bytes / 2 ^ 32)]
  | .CQ_STATUS => [(F.CQ_STATUS_FULL, b2n (cqFull i s))]
  | .INT_GRP_STATUS => [(F.INT_GRP_STATUS_FIRST_VALID, b2n (!(((pendList s).filter (fun n => srcGroup s.cfg n == i && !maskOf n s)).isEmpty))),
      (F.INT_GRP_STATUS_FIRST, ((pendList s).filter (fun n => srcGroup s.cfg n == i && !maskOf n s)).headD 0),
      (F.INT_GRP_STATUS_LIVE, b2n (groupLive i s))]
  | .INT_GRP_LEFT => [(F.INT_GRP_LEFT_UNITS, ceilDiv (Tab.get 0 s.ints.left i) 400)]
  | .TRC_STATUS => [(F.TRC_STATUS_GAP_PENDING, b2n (s.trc.gap != 0)), (F.TRC_STATUS_LEVEL, s.trc.fifo.length)]
  | .TRC_DATA => [(F.TRC_DATA_DATA, traceLatch i s)]
  | .MAC_TXTS_NS => [(F.MAC_TXTS_NS_NS, txtsNs i s)]
  | .MAC_TXTS_ID => [(F.MAC_TXTS_ID_VALID, txtsId i s / 2 ^ 31), (F.MAC_TXTS_ID_OVERFLOW, txtsId i s / 2 ^ 30),
      (F.MAC_TXTS_ID_DOMAIN, txtsId i s / 2 ^ 20), (F.MAC_TXTS_ID_MSGTYPE, txtsId i s / 2 ^ 16), (F.MAC_TXTS_ID_SEQID, txtsId i s)]
  | _ => []

/-- R9: what a field reads as: 0 for a write-only field and for INT_FORCE. Log 18 (DEDUCED). Log 19 (DEDUCED). -/
def fieldShown (d : List (Fld × Nat)) (i : Nat) (s : State) (f : Fld) : Nat :=
  match List.find? (fun (x : Fld × Nat) => x.1 == f) d with
  | some x => x.2 % 2 ^ f.w
  | none => if f.acc == .WO || f.reg == .INT_FORCE then 0 else fget f i s

/-- The value of a register, which a read returns unless it has an effect of its own. Log 18 (DEDUCED). Log 191
(DEDUCED). -/
def regValue (fn : Nat) (r : Reg) (i : Nat) (s : State) : Nat :=
  (r.fields.map (fun f => fieldShown (derivedFields fn r i s) i s f * 2 ^ f.lsb)).sum

/-- R608: the HI register that a read of a LO register latches. -/
def latchedHalf (r : Reg) : Option Reg :=
  match r with
  | .TICK_IDX_LO => some .TICK_IDX_HI
  | .CE_BUSY_LO => some .CE_BUSY_HI
  | .WARD_CTR_LO => some .WARD_CTR_HI
  | .HASP_STATUS_LO => some .HASP_STATUS_HI
  | .MEM_UE_ADDR_LO => some .MEM_UE_ADDR_HI
  | .DC_BYTES => some .DC_BYTES_HI
  | _ => none

/-- R608: the HI registers of the latched pairs. -/
def isLatched (r : Reg) : Bool :=
  r == .TICK_IDX_HI || r == .CE_BUSY_HI || r == .WARD_CTR_HI || r == .HASP_STATUS_HI || r == .MEM_UE_ADDR_HI || r == .DC_BYTES_HI

/-- Place of a HI register's latch. -/
def latchKey (r : Reg) (i : Nat) : Nat := r.idx + 1024 * i

/-- R9, R606: what a read leaves of an RC field: 0, or for a lowest value since the last read the present one. Log
20 (DEDUCED). -/
def readClears (i : Nat) (s : State) (f : Fld) : State :=
  if f.acc != .RC then s
  else if f.reg == .POOL_MIN_FREE then fset f i (poolFree i s) s
  else if f.reg == .TM_SHARED_PEAK then fset f i (sharedUsed s) s
  else if f.reg == .MGMT_TEMP_PEAK then
    fset f i 0 { s with tch := { s.tch with peakTaken := Tab.set false s.tch.peakTaken i false } }
  else fset f i 0 s

/-- A read of a register by a function: the word returned, and the read's effect. -/
def readReg (fn : Nat) (r : Reg) (i : Nat) (s : State) : Nat × State :=
  if r == .MAC_TXTS_SEC then txtsPop i s
  else if r == .TRC_DATA && i == 0 then traceRead s
  else if isLatched r then (Tab.get 0 s.latch (latchKey r i), s)
  else
    let v := regValue fn r i s
    match latchedHalf r with
    | some h => (v, { s with latch := Tab.set 0 s.latch (latchKey h i) (regValue fn h i s) })
    | none => (v, r.fields.foldl (readClears i) s)

/-! ### Writing a register -/

/-- R9, R605: a write of a field that no rule treats otherwise. -/
def fieldWrite (i : Nat) (w : Word) (s : State) (f : Fld) : State :=
  match f.acc with
  | .RW => fset f i (wfld f w) s
  | .W1C => if wbit f w then fset f i 0 s else s
  | .RO | .W1S | .RC | .WO | .RWI | .RWA => s

/-- R605: RW and W1C fields of a register take the written word. -/
def plainWrite (r : Reg) (i : Nat) (w : Word) (s : State) : State := r.fields.foldl (fieldWrite i w) s

/-- R266: the ring registers of a context accept writes only while it is RESERVED. -/
def scRingWrite (r : Reg) (k : Nat) (w : Word) (s : State) : State :=
  if scState k s ≠ 1 then s
  else if r == .SC_RING_CFG then fset F.SC_RING_CFG_LOG2_ENTRIES k (clampN 4 12 (wfld F.SC_RING_CFG_LOG2_ENTRIES w)) s
  else plainWrite r k w s

/-- R426: the ring registers of a channel accept writes only while ENABLE is 0. -/
def dcRingWrite (r : Reg) (c : Nat) (w : Word) (s : State) : State :=
  if flag F.DC_CTRL_ENABLE c s then s
  else if r == .DC_RING_CFG then fset F.DC_RING_CFG_LOG2_ENTRIES c (clampN 4 12 (wfld F.DC_RING_CFG_LOG2_ENTRIES w)) s
  else plainWrite r c w s

/-- A write of a register by a function that reaches it. -/
def writeReg (fn : Nat) (r : Reg) (i : Nat) (w : Word) (s : State) : State :=
  match r with
  | .GLB_MODE_REQ => modeReq (wfld F.GLB_MODE_REQ_REQ w) w s
  | .HASP_STATUS_LO => haspClear false w.toNat s
  | .HASP_STATUS_HI => haspClear true w.toNat s
  | .HASP_ACK_LO => haspAckWord false w.toNat s
  | .HASP_ACK_HI => haspAckWord true w.toNat s
  | .TIME_CTRL => timeCtrlWrite w s
  | .TIME_INCR => timeIncrSet w.toNat s
  | .SYNC_GPIO => gpioWrite w s
  | .TMR_CTRL => tmrCtrlWrite i w s
  | .INT_PEND => intAck fn i w.toNat s
  | .INT_MASK => intMask fn i w.toNat s
  | .INT_FORCE => intForce fn i w.toNat s
  | .HIF_DC_OWNER => dcOwnerPut i w s
  | .HIF_CQ_OWNER => cqOwnerPut i w s
  | .MAC_CTRL => macCtrlWrite i w s
  | .FL_CTRL => flCtrlWrite i w s
  | .PL_TAG_CTRL => fset F.PL_TAG_CTRL_K 0 (min 24 (wfld F.PL_TAG_CTRL_K w)) (plainWrite r 0 w s)
  | .TBL_CTRL => tblCtrlWrite i w s
  | .TM_CTRL => fset F.TM_CTRL_STALL_US 0 (max 1 (wfld F.TM_CTRL_STALL_US w)) (plainWrite r 0 w s)
  | .TM_GCL_CTRL => gclCtrlWrite i w s
  | .TM_LEAF_STATUS => leafCtrlWrite i w s
  | .ESS_CMD => essCmdWrite (wfld F.ESS_CMD_OP w) s
  | .CE_CTRL => ceCtrlWrite i w s
  | .CE_WIN_CFG => winCfg fn i w s
  | .CE_WIN_CTRL => winCtrl fn i w s
  | .CG_ALLOC => cgAllocWrite fn s
  | .SC_RING_LO | .SC_RING_HI | .SC_RING_CFG => scRingWrite r i w s
  | .SC_DOORBELL => doorbellWrite i w s
  | .SC_STAT_TAIL => statFlush i (plainWrite r i w s)
  | .POOL_REQ => poolRequest fn w s
  | .POOL_RET_HI => poolReturn fn (w.toNat * 2 ^ 32 + fget F.POOL_RET_LO_PTR fn s) s
  | .DC_CTRL => dcCtrl i w s
  | .DC_SHD => shadowPut (i / 16) (i % 16) w s
  | .DC_RING_LO | .DC_RING_HI | .DC_RING_CFG => dcRingWrite r i w s
  | .DC_RING_TAIL => ringTail i w s
  | .CQ_CFG => cqCfg i w s
  | .CQ_TAIL => cqTail i w s
  | .INT_GRP_CTRL => if wbit F.INT_GRP_CTRL_RESEND w then grpResend i s else s
  | .TRC_CTRL => trcCtrlWrite w s
  | .TRC_SEQ_CTRL => fset F.TRC_SEQ_CTRL_J 0 (min 16 (wfld F.TRC_SEQ_CTRL_J w)) (plainWrite r 0 w s)
  | .DUMP_CTRL => dumpCtrlWrite w s
  | .BW_CTRL => bwCtrlWrite w s
  | .MBX_REQ_LEN | .MBX_IND_LO | .MBX_IND_HI | .MBX_IND_LEN => if flag F.MBX_STATUS_BUSY 0 s then s else plainWrite r 0 w s
  | .MBX_CTRL => if wbit F.MBX_CTRL_GO w then mbxSubmit s else s
  | _ => plainWrite r i w (shapeWrite r i s)

/-- R602: a register with one copy for each function is the function's own. -/
def ownInst (fn : Nat) (r : Reg) (i : Nat) : Nat := if r.layout.perFn then fn else i

/-! ### The spaces (R440, R442, R450, R453 to R455, R603) -/

/-- A function other than PF0 that reaches nothing at the address is counted (R441, R603). Log 155 (DEDUCED). -/
def vfDenied (fn : Nat) (s : State) : State := if fn = 0 then s else denied s

/-- The MSI-X table and the pending bit array are served (R581). -/
def msixOpen (s : State) : Bool := s.power.configured

/-- R440: the word of a function's MSI-X table, or of its pending bit array, at a BAR0 offset; none elsewhere. Log
26 (DEDUCED). -/
def msixWord (fn addr : Nat) (s : State) : Option Nat :=
  let t := addr - 0x3F00000
  let p := (addr - 0x3F80000) / 4
  if decide (0x3F00000 ≤ addr) && decide (t / 16 < msixSize fn) then
    some (if t / 4 % 4 = 3 then b2n (!Tab.get false s.pcie.unmasked (fn * 1024 + t / 16))
      else Tab.get 0 s.pcie.msix (fn * 4096 + t / 4))
  else if decide (0x3F80000 ≤ addr) && decide (32 * p < msixSize fn) then
    some (srcWord p (fun e => decide (e < msixSize fn) && Tab.get false s.pcie.pba (fn * 1024 + e)))
  else none

/-- R459: a write of a word of a function's MSI-X table. Log 26 (DEDUCED). -/
def msixWrite (fn addr : Nat) (w : Word) (s : State) : State :=
  let t := addr - 0x3F00000
  if addr < 0x3F00000 ∨ msixSize fn ≤ t / 16 then s
  else if t / 4 % 4 = 3 then msixMask fn (t / 16) (bit w.toNat 0) s
  else { s with pcie := { s.pcie with msix := Tab.set 0 s.pcie.msix (fn * 4096 + t / 4) w.toNat } }

/-- R442, R603: a read of BAR0 at an aligned address. Log 155 (DEDUCED). -/
def bar0Read (fn addr : Nat) (s : State) : State :=
  match regAt addr with
  | some (r, i) => hostRd fn r (ownInst fn r i) s (readReg fn r (ownInst fn r i))
  | none =>
    if !s.power.configured then emit (.readData fn 0) s
    else match msixWord fn addr s with
      | some v => emit (.readData fn v) s
      | none => emit (.readData fn 0) (vfDenied fn s)

/-- R442, R603: a write of BAR0 at an aligned address. -/
def bar0Write (fn addr : Nat) (w : Word) (s : State) : State :=
  match regAt addr with
  | some (r, i) => hostWr fn r (ownInst fn r i) s (writeReg fn r (ownInst fn r i) w)
  | none =>
    if !s.power.configured then s
    else if (msixWord fn addr s).isSome then msixWrite fn addr w s
    else vfDenied fn s

/-- R454: the function may read a counter page. -/
def pageOpen (fn p : Nat) (s : State) : Bool :=
  fn == 0 || flag F.HIF_CPG_PERM_PUBLIC p s || fget F.HIF_CPG_PERM_OWNER p s == fn

/-- R453: `n` bytes of the counter pages, as the last dump captured them. -/
def pageBytes (addr n : Nat) (s : State) : Bytes :=
  (List.range n).map (fun k => BitVec.ofNat 8 (Tab.get 0 s.trc.shown ((addr + k) / 8) / 2 ^ (8 * ((addr + k) % 8))))

/-- R454, R455: a read of BAR2. What a read across a 64 B boundary returns is open. Log 25 (DESIGN CHOICE). -/
def bar2Read (fn addr n : Nat) (s : State) : State :=
  if !pageOpen fn (addr / 65536) s then emit (.readData fn 0) (denied s)
  else if addr / 64 ≠ (addr + n - 1) / 64 then
    let v := freshValue 61 s
    emit (.readData fn v.1) v.2
  else emit (.readData fn (leNat (pageBytes addr n s))) s

/-- R450: a read of BAR4 at an aligned address. -/
def bar4Read (addr : Nat) (s : State) : State :=
  if addr < 0x4000 then emit (.readData 0 (fieldLE (fitTo 16384 s.tch.mbxReq) addr 4)) s
  else if addr < 0x8000 then emit (.readData 0 (fieldLE (fitTo 16384 s.tch.mbxResp) (addr - 0x4000) 4)) s
  else match regAt4 addr with
    | some (r, i) => hostRd 0 r i s (readReg 0 r i)
    | none => emit (.readData 0 0) s

/-- R450, R451: a write of BAR4 at an aligned address. -/
def bar4Write (addr : Nat) (w : Word) (s : State) : State :=
  if addr < 0x4000 then
    if flag F.MBX_STATUS_BUSY 0 s then s
    else { s with tch := { s.tch with mbxReq := splice (fitTo 16384 s.tch.mbxReq) addr (leBytes 4 w.toNat) } }
  else match regAt4 addr with
    | some (r, i) => hostWr 0 r i s (writeReg 0 r i w)
    | none => s

/-- T_POWER_ON in µs from its scale and value, as PCI Express codes L1 PM Substates Control 2 (R448). Log 27
(PRESUMED). -/
def powerOnUs (scale value : Nat) : Nat := value * (if scale = 0 then 2 else if scale = 1 then 10 else 100)

/-- R440, R448, R459: a write of a DWORD of configuration space, by its byte enables: Command; Message Control of MSI-X
in the upper half of its DWORD; SR-IOV Control with VF Enable and VF MSE; NumVFs; L1 PM Substates Control 2. Log 27
(PRESUMED). -/
def configWrite (fn : Nat) (c : CfgReg) (be : BitVec 4) (w : Word) (s : State) : State :=
  let v := w.toNat
  match c with
  | .command =>
    if !be.getLsbD 0 then s
    else
      let s := { s with pcie := { s.pcie with bme := Tab.set false s.pcie.bme fn (bit v 2) } }
      if fn = 0 then { s with pcie := { s.pcie with mse := Tab.set false s.pcie.mse 0 (bit v 1) } } else s
  | .msixControl =>
    if !be.getLsbD 3 then s
    else heldReleaseAll { s with pcie := { s.pcie with msixEn := Tab.set false s.pcie.msixEn fn (bit v 31),
                                                       fnMask := Tab.set false s.pcie.fnMask fn (bit v 30) } }
  | .sriovControl =>
    if fn ≠ 0 ∨ !be.getLsbD 0 then s
    else vfPut (bit v 0) s.pcie.numVfs { s with pcie := { s.pcie with mse := Tab.set false s.pcie.mse 1 (bit v 3) } }
  | .sriovNumVfs =>
    if fn ≠ 0 ∨ s.pcie.vfEnable ∨ !(be.getLsbD 0 && be.getLsbD 1) then s
    else vfPut false (min 64 (v % 65536)) s
  | .l1SubstatesControl2 =>
    if fn ≠ 0 ∨ !be.getLsbD 0 then s
    else { s with pcie := { s.pcie with tPowerOn := powerOnUs (v % 4) (v / 8 % 32) } }
  | .vendorDevice | .classRevision | .msixTable | .msixPba | .sriovVfs | .sriovStride | .sriovVfDevice => s

/-- R440: what the DWORDs that identify a function read as. A VF's own Vendor and Device ID read all ones, and it has no
SR-IOV capability. Log 27 (PRESUMED). -/
def configFixed (fn : Nat) (c : CfgReg) : Option Nat :=
  match c with
  | .vendorDevice => some (if fn = 0 then 0x72641F7C else 0xFFFFFFFF)
  | .classRevision => some 0x120000A1
  | .msixTable => some 0x03F00000
  | .msixPba => some 0x03F80000
  | .sriovVfs => if fn = 0 then some 0x00400040 else none
  | .sriovStride => if fn = 0 then some 0x00010001 else none
  | .sriovVfDevice => if fn = 0 then some 0x72650000 else none
  | .command | .msixControl | .sriovControl | .sriovNumVfs | .l1SubstatesControl2 => none

/-- What configuration space shows of the fields that `configWrite` holds; the rest of each DWORD is open. Log 27
(PRESUMED). -/
def configRead (fn : Nat) (c : CfgReg) (s : State) : State :=
  let v := freshValue 62 s
  let keep := fun (mask shown : Nat) => v.1 % 2 ^ 32 - (v.1 % 2 ^ 32 &&& mask) + shown
  let w := match c with
    | .command => keep 6 (4 * b2n (Tab.get false s.pcie.bme fn) + 2 * b2n (fn == 0 && mseOf 0 s))
    | .msixControl => keep 0xC7FF0000 ((if fn = 0 then 1023 else 15) * 2 ^ 16 + 2 ^ 31 * b2n (Tab.get false s.pcie.msixEn fn) + 2 ^ 30 * b2n (Tab.get false s.pcie.fnMask fn))
    | .sriovControl => keep 9 (8 * b2n (mseOf 1 s) + b2n s.pcie.vfEnable)
    | .sriovNumVfs => keep 0xFFFF s.pcie.numVfs
    | .l1SubstatesControl2 | .vendorDevice | .classRevision | .msixTable | .msixPba | .sriovVfs | .sriovStride | .sriovVfDevice =>
      v.1 % 2 ^ 32
  match configFixed fn c with
  | some x => emit (.readData fn x) s
  | none => emit (.readData fn w) v.2

/-- R601: the byte address lies in the space of the function. -/
def inSpace (fn : Nat) (a : RegAddr) : Bool :=
  match a.space with
  | .bar0 => decide (a.addr < 2 ^ 26)
  | .bar2 => decide (a.addr < 2 ^ 28)
  | .bar4 => fn == 0 && decide (a.addr < 2 ^ 16)
  | .config _ => true

/-- A read by a function (R442, R455): BAR0 and BAR4 answer one DWORD, and a longer read completes without data. Log
17 (DEDUCED). Log 22 (DEDUCED). Log 24 (DEDUCED). -/
def hostRead (fn : Nat) (a : RegAddr) (s : State) : State :=
  match a.space with
  | .config c => if cfgOpen fn s then configRead fn c s else s
  | .bar0 => if !busOpen s || !inSpace fn a || a.dwords != 1 then s else bar0Read fn (a.addr / 4 * 4) s
  | .bar4 => if !busOpen s || !inSpace fn a || a.dwords != 1 then s else bar4Read (a.addr / 4 * 4) s
  | .bar2 => if !busOpen s || !s.power.configured || !inSpace fn a || a.dwords == 0 then s
    else bar2Read fn a.addr (4 * a.dwords) s

/-- R442: one aligned DWORD with its four bytes enabled. Log 24 (DEDUCED). -/
def wholeDword (a : RegAddr) : Bool := a.dwords == 1 && a.addr % 4 == 0 && a.be == 0xF#4

/-- A write by a function (R442, R454): another shape of write is discarded and counted; BAR2 discards every write.
Log 17 (DEDUCED). Log 24 (DEDUCED). -/
def hostWrite (fn : Nat) (a : RegAddr) (w : Word) (s : State) : State :=
  match a.space with
  | .config c => if cfgOpen fn s then configWrite fn c a.be w s else s
  | .bar0 => if !busOpen s || !inSpace fn a then s else if !wholeDword a then denied s else bar0Write fn a.addr w s
  | .bar4 => if !busOpen s || !inSpace fn a then s else if !wholeDword a then denied s else bar4Write a.addr w s
  | .bar2 => s

/-! ### The commands -/

/-- REGISTER_WRITE (R605). -/
def execRegisterWrite (fn : Fn) (a : RegAddr) (w : Word) (s : State) : Host.Outcome State Fault Refusal :=
  .next (hostWrite fn.val a w s)

/-- COUNTER_READ_CLEAR (R606). Log 22 (DEDUCED). -/
def execCounterReadClear (fn : Fn) (a : RegAddr) (s : State) : Host.Outcome State Fault Refusal := .next (hostRead fn.val a s)

/-- LATCHED_READ (R608). Log 22 (DEDUCED). -/
def execLatchedRead (fn : Fn) (a : RegAddr) (s : State) : Host.Outcome State Fault Refusal := .next (hostRead fn.val a s)

/-- R441, R442: the write is one that is discarded and counted. Log 23 (DEDUCED). -/
def writeDenied (fn : Nat) (a : RegAddr) (s : State) : Bool :=
  match a.space with
  | .bar0 => !wholeDword a || (match regAt a.addr with
    | some (r, i) => modeReach true r s && !fnReach fn true r (ownInst fn r i) s
    | none => s.power.configured && (msixWord fn a.addr s).isNone && fn != 0)
  | .bar4 => !wholeDword a
  | .bar2 | .config _ => false

/-- DENIED_ACCESS (R441, R442, R454): a read returns what the function may see; a write that is turned away is counted,
and one that is not is no such event. Log 23 (DEDUCED). -/
def execDeniedAccess (fn : Fn) (a : RegAddr) (write : Bool) (s : State) : Host.Outcome State Fault Refusal :=
  .next (if !write then hostRead fn.val a s
    else if busOpen s && inSpace fn.val a && writeDenied fn.val a s then denied s else s)

/-- R547: a BAR0 register outside the Ward block. -/
def consoleReg (addr : Nat) : Bool := decide (addr < 0x3F00000) && !(decide (0x800000 ≤ addr) && decide (addr < 0x900000))

/-- CONSOLE_PEEK (R547). Log 28 (DEDUCED). -/
def execConsolePeek (addr : Nat) (s : State) : Host.Outcome State Fault Refusal :=
  .next (if !consoleOpen s || !consoleReg addr then s
    else match regAt addr with
      | some (r, i) =>
        if modeServes false r s then
          let x := readReg 0 r (ownInst 0 r i) s
          consoleOut 5 [addr, x.1] x.2
        else consoleOut 5 [addr, 0] s
      | none => consoleOut 5 [addr, 0] s)

/-- CONSOLE_POKE (R547): the write follows the register's access types. Log 28 (DEDUCED). -/
def execConsolePoke (addr : Nat) (w : Word) (s : State) : Host.Outcome State Fault Refusal :=
  .next (if !consoleOpen s || !consoleReg addr then s
    else match regAt addr with
      | some (r, i) => if modeServes true r s then writeReg 0 r (ownInst 0 r i) w s else s
      | none => s)

end Sys2Proof.Machine
end

