-- ==== Sys2Proof/Machine/Tick.lean ====
section
/-! DEFINITION. A tick of a domain (R20, R21), and what every block that takes ticks does when it sees one. -/
namespace Sys2Proof.Machine

/-- R107, R570: the domain emits ticks: its image enables it, the time unit runs, and the mode keeps the generator
going. Log 55 (DEDUCED). -/
def tickRuns (td : Nat) (s : State) : Bool :=
  running s && tdEnabled td s && !s.power.inReset &&
    (s.mode == .configure || s.mode == .operate || s.mode == .standby || s.mode == .lockdown)

/-- R216: the ports whose gate cycle the image ties to the domain. -/
def gatePorts (td : Nat) (s : State) : List Nat := (List.range 256).filter (fun p => portGateTd s.cfg p == td)

/-- R21: the tick reaches the gates of ports and the channels that wait for it; in STANDBY their clocks are gated.
Log 55 (DEDUCED). Log 56 (DEDUCED). -/
def tickConsumers (td t : Nat) (s : State) : State :=
  if s.mode == .standby then s
  else dmaTick td ((gatePorts td s).foldl (fun s p => gateTick p t s) s)

/-- R72: the delta that waits has seen a tick of its APPLY_TD. Log 201 (DEDUCED). -/
def deltaTick (td : Nat) (s : State) : State :=
  if flag F.IMG_STATUS_DELTA_PENDING 0 s && byteAt s.loader.pendHeader 0x3A == td then
    { s with loader := { s.loader with applySeen := true } }
  else s

/-- TICK (R21): the next tick of the domain falls, and every block sees it in the same cclk. Log 56 (DEDUCED). -/
def execTick (td : Td) (s : State) : Host.Outcome State Fault Refusal :=
  .next (if tickRuns td.val s then
      deltaTick td.val (tickConsumers td.val (tickTime s.cfg td.val (tickNext td.val s)) (tickEmit td.val s))
    else s)

end Sys2Proof.Machine
end

