-- ==== Sys2Proof/Machine/Dispatch.lean ====
section
/-! DEFINITION. The dispatch: one arm per command, each one call of its meaning. -/
namespace Sys2Proof.Machine

def exec (i : Instr) (s : State) : Host.Outcome State Fault Refusal :=
  match i with
  | .frameIngress p frame fecCw fecSym => Sys2Proof.Machine.execFrameIngress p frame fecCw fecSym s
  | .cutThroughTail eg => Sys2Proof.Machine.execCutThroughTail eg s
  | .l2Learn => Sys2Proof.Machine.execL2Learn s
  | .l2Sweep => Sys2Proof.Machine.execL2Sweep s
  | .schedulerSelect p => Sys2Proof.Machine.execSchedulerSelect p s
  | .frameEgress p => Sys2Proof.Machine.execFrameEgress p s
  | .shaperRefill => Sys2Proof.Machine.execShaperRefill s
  | .pauseReceive p f => Sys2Proof.Machine.execPauseReceive p f s
  | .pauseExpire p classes => Sys2Proof.Machine.execPauseExpire p classes s
  | .gclArm fn p w => Sys2Proof.Machine.execGclArm fn p w s
  | .gclEnable fn p w => Sys2Proof.Machine.execGclEnable fn p w s
  | .gclDisable fn p w => Sys2Proof.Machine.execGclDisable fn p w s
  | .gclChange p => Sys2Proof.Machine.execGclChange p s
  | .gateEntryAdvance p => Sys2Proof.Machine.execGateEntryAdvance p s
  | .leafStall q => Sys2Proof.Machine.execLeafStall q s
  | .leafFlush fn q w => Sys2Proof.Machine.execLeafFlush fn q w s
  | .leafFlushEnd q => Sys2Proof.Machine.execLeafFlushEnd q s
  | .macEnable fn p w => Sys2Proof.Machine.execMacEnable fn p w s
  | .macDisable fn p w => Sys2Proof.Machine.execMacDisable fn p w s
  | .macDrainEnd p => Sys2Proof.Machine.execMacDrainEnd p s
  | .anRestart fn p w => Sys2Proof.Machine.execAnRestart fn p w s
  | .anDone p => Sys2Proof.Machine.execAnDone p s
  | .linkUp p => Sys2Proof.Machine.execLinkUp p s
  | .linkDown p => Sys2Proof.Machine.execLinkDown p s
  | .fecUncorrCodeword p => Sys2Proof.Machine.execFecUncorrCodeword p s
  | .freqInLost => Sys2Proof.Machine.execFreqInLost s
  | .freqInRestore => Sys2Proof.Machine.execFreqInRestore s
  | .freqInDisableSet fn w => Sys2Proof.Machine.execFreqInDisableSet fn w s
  | .freqInDisableClear fn w => Sys2Proof.Machine.execFreqInDisableClear fn w s
  | .timeStep fn w => Sys2Proof.Machine.execTimeStep fn w s
  | .snapshot fn w => Sys2Proof.Machine.execSnapshot fn w s
  | .timeRun fn w => Sys2Proof.Machine.execTimeRun fn w s
  | .timeIncrWrite fn w => Sys2Proof.Machine.execTimeIncrWrite fn w s
  | .ppsCapture => Sys2Proof.Machine.execPpsCapture s
  | .ppsSecond => Sys2Proof.Machine.execPpsSecond s
  | .outputPulseEnd line => Sys2Proof.Machine.execOutputPulseEnd line s
  | .tick td => Sys2Proof.Machine.execTick td s
  | .txtsPop fn p => Sys2Proof.Machine.execTxtsPop fn p s
  | .syncGpioWrite fn w => Sys2Proof.Machine.execSyncGpioWrite fn w s
  | .timerCapture b => Sys2Proof.Machine.execTimerCapture b s
  | .timerStart fn t w => Sys2Proof.Machine.execTimerStart fn t w s
  | .timerStop fn t w => Sys2Proof.Machine.execTimerStop fn t w s
  | .timerFire t => Sys2Proof.Machine.execTimerFire t s
  | .flitLock l => Sys2Proof.Machine.execFlitLock l s
  | .flitLockLoss l cause => Sys2Proof.Machine.execFlitLockLoss l cause s
  | .flitSend l => Sys2Proof.Machine.execFlitSend l s
  | .flitReceive l flit => Sys2Proof.Machine.execFlitReceive l flit s
  | .hello l body => Sys2Proof.Machine.execHello l body s
  | .linkState l body => Sys2Proof.Machine.execLinkState l body s
  | .timeSync l body => Sys2Proof.Machine.execTimeSync l body s
  | .timeSyncSend => Sys2Proof.Machine.execTimeSyncSend s
  | .peerLost l => Sys2Proof.Machine.execPeerLost l s
  | .linkRestore l => Sys2Proof.Machine.execLinkRestore l s
  | .flEnable fn l w => Sys2Proof.Machine.execFlEnable fn l w s
  | .flDisable fn l w => Sys2Proof.Machine.execFlDisable fn l w s
  | .flDrainEnd l => Sys2Proof.Machine.execFlDrainEnd l s
  | .shkTickEdge => Sys2Proof.Machine.execShkTickEdge s
  | .shkTickLost => Sys2Proof.Machine.execShkTickLost s
  | .shkFaultSeen => Sys2Proof.Machine.execShkFaultSeen s
  | .shkReset => Sys2Proof.Machine.execShkReset s
  | .trieRingTail fn x w => Sys2Proof.Machine.execTrieRingTail fn x w s
  | .trieRecordCommit x fits => Sys2Proof.Machine.execTrieRecordCommit x fits s
  | .tableWriteCommit b index entry => Sys2Proof.Machine.execTableWriteCommit b index entry s
  | .tblLock fn b w => Sys2Proof.Machine.execTblLock fn b w s
  | .lockActive b => Sys2Proof.Machine.execLockActive b s
  | .tblUnlock fn b w => Sys2Proof.Machine.execTblUnlock fn b w s
  | .essenceCopy x => Sys2Proof.Machine.execEssenceCopy x s
  | .lineDeadline c line => Sys2Proof.Machine.execLineDeadline c line s
  | .pictureClose c => Sys2Proof.Machine.execPictureClose c s
  | .lineToSlot c => Sys2Proof.Machine.execLineToSlot c s
  | .slotRelease e w slot => Sys2Proof.Machine.execSlotRelease e w slot s
  | .egressPacketDue c => Sys2Proof.Machine.execEgressPacketDue c s
  | .egressPicTrunc c => Sys2Proof.Machine.execEgressPicTrunc c s
  | .codedPacketSend c => Sys2Proof.Machine.execCodedPacketSend c s
  | .essOpen fn w => Sys2Proof.Machine.execEssOpen fn w s
  | .essClose fn w => Sys2Proof.Machine.execEssClose fn w s
  | .essEnable fn w => Sys2Proof.Machine.execEssEnable fn w s
  | .essDisable fn w => Sys2Proof.Machine.execEssDisable fn w s
  | .essRead fn w => Sys2Proof.Machine.execEssRead fn w s
  | .essRekey fn w => Sys2Proof.Machine.execEssRekey fn w s
  | .essBind fn w => Sys2Proof.Machine.execEssBind fn w s
  | .essDrainEnd c => Sys2Proof.Machine.execEssDrainEnd c s
  | .srtpOldKeyExpire c => Sys2Proof.Machine.execSrtpOldKeyExpire c s
  | .cgAlloc fn w => Sys2Proof.Machine.execCgAlloc fn w s
  | .doorbell fn sc w => Sys2Proof.Machine.execDoorbell fn sc w s
  | .commandFetch sc records => Sys2Proof.Machine.execCommandFetch sc records s
  | .scOpen sc params => Sys2Proof.Machine.execScOpen sc params s
  | .scClose sc => Sys2Proof.Machine.execScClose sc s
  | .scEnable sc => Sys2Proof.Machine.execScEnable sc s
  | .scDisable sc => Sys2Proof.Machine.execScDisable sc s
  | .scQuery sc => Sys2Proof.Machine.execScQuery sc s
  | .scSetParams sc params => Sys2Proof.Machine.execScSetParams sc params s
  | .scSetRc sc record => Sys2Proof.Machine.execScSetRc sc record s
  | .scSetPolicy sc => Sys2Proof.Machine.execScSetPolicy sc s
  | .scEncodePicture sc => Sys2Proof.Machine.execScEncodePicture sc s
  | .scDecodeAu sc => Sys2Proof.Machine.execScDecodeAu sc s
  | .scFlush sc => Sys2Proof.Machine.execScFlush sc s
  | .scKeyPicture sc => Sys2Proof.Machine.execScKeyPicture sc s
  | .scReleaseOutput sc => Sys2Proof.Machine.execScReleaseOutput sc s
  | .scRestart sc => Sys2Proof.Machine.execScRestart sc s
  | .scNop sc => Sys2Proof.Machine.execScNop sc s
  | .segmentCommit e r => Sys2Proof.Machine.execSegmentCommit e r s
  | .swapComplete e => Sys2Proof.Machine.execSwapComplete e s
  | .liveOverrun sc => Sys2Proof.Machine.execLiveOverrun sc s
  | .engineRestart e cause => Sys2Proof.Machine.execEngineRestart e cause s
  | .ceEnable fn e w => Sys2Proof.Machine.execCeEnable fn e w s
  | .ceDisable fn e w => Sys2Proof.Machine.execCeDisable fn e w s
  | .ceDrainEnd e => Sys2Proof.Machine.execCeDrainEnd e s
  | .liveExclusive fn e w => Sys2Proof.Machine.execLiveExclusive fn e w s
  | .scDrainEnd sc => Sys2Proof.Machine.execScDrainEnd sc s
  | .decodeUnderrun sc => Sys2Proof.Machine.execDecodeUnderrun sc s
  | .dcArm fn c w => Sys2Proof.Machine.execDcArm fn c w s
  | .shadowWrite fn c j w => Sys2Proof.Machine.execShadowWrite fn c j w s
  | .hinge c => Sys2Proof.Machine.execHinge c s
  | .descriptorEnd c hostData => Sys2Proof.Machine.execDescriptorEnd c hostData s
  | .dmaError c err hostData moved => Sys2Proof.Machine.execDmaError c err hostData moved s
  | .dcResume fn c w => Sys2Proof.Machine.execDcResume fn c w s
  | .dcEnable fn c w => Sys2Proof.Machine.execDcEnable fn c w s
  | .dcDisable fn c w => Sys2Proof.Machine.execDcDisable fn c w s
  | .dcDrainEnd c => Sys2Proof.Machine.execDcDrainEnd c s
  | .dcRingTail fn c w => Sys2Proof.Machine.execDcRingTail fn c w s
  | .descriptorFetch c desc => Sys2Proof.Machine.execDescriptorFetch c desc s
  | .cqEnable fn q w => Sys2Proof.Machine.execCqEnable fn q w s
  | .poolRequest fn w => Sys2Proof.Machine.execPoolRequest fn w s
  | .poolReturn fn w => Sys2Proof.Machine.execPoolReturn fn w s
  | .winCfgWrite fn e win w => Sys2Proof.Machine.execWinCfgWrite fn e win w s
  | .winAlloc fn e win w => Sys2Proof.Machine.execWinAlloc fn e win w s
  | .winFree fn e win w => Sys2Proof.Machine.execWinFree fn e win w s
  | .hbmCorrectableError addr => Sys2Proof.Machine.execHbmCorrectableError addr s
  | .hbmUncorrectableError addr => Sys2Proof.Machine.execHbmUncorrectableError addr s
  | .sramError unit correctable => Sys2Proof.Machine.execSramError unit correctable s
  | .hbmInitDone => Sys2Proof.Machine.execHbmInitDone s
  | .hbmPromotion cls => Sys2Proof.Machine.execHbmPromotion cls s
  | .hbmRefreshForced bank => Sys2Proof.Machine.execHbmRefreshForced bank s
  | .sramPatrolScrub => Sys2Proof.Machine.execSramPatrolScrub s
  | .hbmPatrolScrub => Sys2Proof.Machine.execHbmPatrolScrub s
  | .serdesAdaptation lane => Sys2Proof.Machine.execSerdesAdaptation lane s
  | .backgroundOverrun activity => Sys2Proof.Machine.execBackgroundOverrun activity s
  | .linkTrained speed width flit => Sys2Proof.Machine.execLinkTrained speed width flit s
  | .pcieRequestError e => Sys2Proof.Machine.execPcieRequestError e s
  | .functionLevelReset fn => Sys2Proof.Machine.execFunctionLevelReset fn s
  | .vfEnableClear => Sys2Proof.Machine.execVfEnableClear s
  | .dstateChange fn d3hot pmeEn clearPme => Sys2Proof.Machine.execDstateChange fn d3hot pmeEn clearPme s
  | .pmeResend fn => Sys2Proof.Machine.execPmeResend fn s
  | .l1Exit => Sys2Proof.Machine.execL1Exit s
  | .mbxGo fn w => Sys2Proof.Machine.execMbxGo fn w s
  | .mbxResponse => Sys2Proof.Machine.execMbxResponse s
  | .intSourceRise n => Sys2Proof.Machine.execIntSourceRise n s
  | .intForce fn word w => Sys2Proof.Machine.execIntForce fn word w s
  | .intMaskWrite fn word w => Sys2Proof.Machine.execIntMaskWrite fn word w s
  | .resend fn g w => Sys2Proof.Machine.execResend fn g w s
  | .groupCommit g => Sys2Proof.Machine.execGroupCommit g s
  | .msixUnmask fn entry => Sys2Proof.Machine.execMsixUnmask fn entry s
  | .dueDelivery g => Sys2Proof.Machine.execDueDelivery g s
  | .dcOwnerWrite fn target w => Sys2Proof.Machine.execDcOwnerWrite fn target w s
  | .getInfo a => Sys2Proof.Machine.execGetInfo a s
  | .getCerts a => Sys2Proof.Machine.execGetCerts a s
  | .keyInfo a => Sys2Proof.Machine.execKeyInfo a s
  | .takeOwnership a => Sys2Proof.Machine.execTakeOwnership a s
  | .releaseOwnership a => Sys2Proof.Machine.execReleaseOwnership a s
  | .decommission a => Sys2Proof.Machine.execDecommission a s
  | .signerSet a => Sys2Proof.Machine.execSignerSet a s
  | .keyImport a => Sys2Proof.Machine.execKeyImport a s
  | .keyDestroy a => Sys2Proof.Machine.execKeyDestroy a s
  | .imageLoad a => Sys2Proof.Machine.execImageLoad a s
  | .imageDelta a => Sys2Proof.Machine.execImageDelta a s
  | .loadValidationEnd => Sys2Proof.Machine.execLoadValidationEnd s
  | .deltaValidationEnd => Sys2Proof.Machine.execDeltaValidationEnd s
  | .deltaApply => Sys2Proof.Machine.execDeltaApply s
  | .svnCommit a => Sys2Proof.Machine.execSvnCommit a s
  | .debugGrant a => Sys2Proof.Machine.execDebugGrant a s
  | .debugRevoke a => Sys2Proof.Machine.execDebugRevoke a s
  | .grantExpire => Sys2Proof.Machine.execGrantExpire s
  | .macsecCakBind a => Sys2Proof.Machine.execMacsecCakBind a s
  | .ptpSmpteTlv a => Sys2Proof.Machine.execPtpSmpteTlv a s
  | .mkpduReceive p m => Sys2Proof.Machine.execMkpduReceive p m s
  | .sakInstall p k => Sys2Proof.Machine.execSakInstall p k s
  | .entropyFail => Sys2Proof.Machine.execEntropyFail s
  | .getVersion q => Sys2Proof.Machine.execGetVersion q s
  | .getCapabilities q => Sys2Proof.Machine.execGetCapabilities q s
  | .negotiateAlgorithms q => Sys2Proof.Machine.execNegotiateAlgorithms q s
  | .getDigests q => Sys2Proof.Machine.execGetDigests q s
  | .getCertificate q => Sys2Proof.Machine.execGetCertificate q s
  | .challenge q => Sys2Proof.Machine.execChallenge q s
  | .getMeasurements q => Sys2Proof.Machine.execGetMeasurements q s
  | .haspLineRise n detail => Sys2Proof.Machine.execHaspLineRise n detail s
  | .haspWindowClose n => Sys2Proof.Machine.execHaspWindowClose n s
  | .haspAck fn hi w => Sys2Proof.Machine.execHaspAck fn hi w s
  | .haspClear fn hi w => Sys2Proof.Machine.execHaspClear fn hi w s
  | .sensorSample x reading => Sys2Proof.Machine.execSensorSample x reading s
  | .logEntry kind data => Sys2Proof.Machine.execLogEntry kind data s
  | .sensorRead a => Sys2Proof.Machine.execSensorRead a s
  | .sensorLimits a => Sys2Proof.Machine.execSensorLimits a s
  | .logInfo a => Sys2Proof.Machine.execLogInfo a s
  | .logRead a => Sys2Proof.Machine.execLogRead a s
  | .logCert a => Sys2Proof.Machine.execLogCert a s
  | .logSeal a => Sys2Proof.Machine.execLogSeal a s
  | .fwWrite a wellFormed image readBackOk => Sys2Proof.Machine.execFwWrite a wellFormed image readBackOk s
  | .fwStatus a => Sys2Proof.Machine.execFwStatus a s
  | .fwReboot a => Sys2Proof.Machine.execFwReboot a s
  | .mgmtNet a => Sys2Proof.Machine.execMgmtNet a s
  | .consoleInfo => Sys2Proof.Machine.execConsoleInfo s
  | .consoleSensors => Sys2Proof.Machine.execConsoleSensors s
  | .consoleHasp => Sys2Proof.Machine.execConsoleHasp s
  | .consoleLog n => Sys2Proof.Machine.execConsoleLog n s
  | .consolePeek addr => Sys2Proof.Machine.execConsolePeek addr s
  | .consolePoke addr w => Sys2Proof.Machine.execConsolePoke addr w s
  | .consoleEye octet lane => Sys2Proof.Machine.execConsoleEye octet lane s
  | .consoleTrace w => Sys2Proof.Machine.execConsoleTrace w s
  | .dumpTrigger => Sys2Proof.Machine.execDumpTrigger s
  | .dumpNow fn w => Sys2Proof.Machine.execDumpNow fn w s
  | .dumpComplete => Sys2Proof.Machine.execDumpComplete s
  | .bwWindowEnd => Sys2Proof.Machine.execBwWindowEnd s
  | .bwWindowWrite fn w => Sys2Proof.Machine.execBwWindowWrite fn w s
  | .peakClear fn w => Sys2Proof.Machine.execPeakClear fn w s
  | .trcDataRead fn => Sys2Proof.Machine.execTrcDataRead fn s
  | .trcFlush fn w => Sys2Proof.Machine.execTrcFlush fn w s
  | .trcIdleClose => Sys2Proof.Machine.execTrcIdleClose s
  | .trcSinkSet fn w => Sys2Proof.Machine.execTrcSinkSet fn w s
  | .obsWordSend => Sys2Proof.Machine.execObsWordSend s
  | .powerUp testEn => Sys2Proof.Machine.execPowerUp testEn s
  | .railLoss => Sys2Proof.Machine.execRailLoss s
  | .porstFall => Sys2Proof.Machine.execPorstFall s
  | .sysrst => Sys2Proof.Machine.execSysrst s
  | .bootComplete b => Sys2Proof.Machine.execBootComplete b s
  | .perstFall => Sys2Proof.Machine.execPerstFall s
  | .perstRise => Sys2Proof.Machine.execPerstRise s
  | .modeReqOperate fn w => Sys2Proof.Machine.execModeReqOperate fn w s
  | .modeReqConfigure fn w => Sys2Proof.Machine.execModeReqConfigure fn w s
  | .configureEntry => Sys2Proof.Machine.execConfigureEntry s
  | .standbyRequest fn w => Sys2Proof.Machine.execStandbyRequest fn w s
  | .stbyReqPin => Sys2Proof.Machine.execStbyReqPin s
  | .l2ReadyEntry => Sys2Proof.Machine.execL2ReadyEntry s
  | .standbyGating => Sys2Proof.Machine.execStandbyGating s
  | .standbyReached => Sys2Proof.Machine.execStandbyReached s
  | .wake src release => Sys2Proof.Machine.execWake src release s
  | .alarm => Sys2Proof.Machine.execAlarm s
  | .wakeDwellEnd => Sys2Proof.Machine.execWakeDwellEnd s
  | .wakeResume => Sys2Proof.Machine.execWakeResume s
  | .registerWrite fn a w => Sys2Proof.Machine.execRegisterWrite fn a w s
  | .counterReadClear fn a => Sys2Proof.Machine.execCounterReadClear fn a s
  | .latchedRead fn a => Sys2Proof.Machine.execLatchedRead fn a s
  | .railUp => Sys2Proof.Machine.execRailUp s
  | .resetRelease testEn => Sys2Proof.Machine.execResetRelease testEn s
  | .linkL1Entry substate => Sys2Proof.Machine.execLinkL1Entry substate s
  | .haspLineFall n => Sys2Proof.Machine.execHaspLineFall n s
  | .entropyRestore => Sys2Proof.Machine.execEntropyRestore s
  | .adyelBadFrame a => Sys2Proof.Machine.execAdyelBadFrame a s
  | .deniedAccess fn a write => Sys2Proof.Machine.execDeniedAccess fn a write s
  | .boundaryScan j data => Sys2Proof.Machine.execBoundaryScan j data s

end Sys2Proof.Machine
end

