-- ==== Sys2Proof/Safety.lean ====
section
/-! DEFINITION. The terms in which the statements speak: what it is for a command to complete, what it leaves unchanged,
and the invariants that every step keeps. -/
namespace Sys2Proof.Machine

/-- The command answers a next state, of which `P` holds. -/
def Completes (c : Instr) (s : State) (P : State → Prop) : Prop := ∃ t, exec c s = .next t ∧ P t

/-- Every register field whose key is not listed reads as before. -/
def KeepsFields (ks : List Nat) (s t : State) : Prop := ∀ f i, f.key i ∉ ks → fget f i t = fget f i s

/-- Nothing but the listed register fields differs: no other register, no byte of memory, no queue, table or counter. -/
def OnlyFields (ks : List Nat) (s t : State) : Prop := t = { s with regs := t.regs } ∧ KeepsFields ks s t

/-- R441, R604: a write by the function reaches the register in this mode. -/
abbrev Reaches (fn : Nat) (r : Reg) (i : Nat) (s : State) : Prop := modeReach true r s = true ∧ fnReach fn true r i s = true

/-- R441, R604: a read by the function reaches the register in this mode. -/
abbrev Shows (fn : Nat) (r : Reg) (i : Nat) (s : State) : Prop := modeReach false r s = true ∧ fnReach fn false r i s = true

/-- R481 to R483: the request that a command brings is a well-formed frame of its opcode, which state and mode allow. -/
abbrev Taken (op : Nat) (a : AdyelIn) (r : Req) (s t : State) : Prop :=
  adyelTake a s = some (r, t) ∧ frameOk r s = true ∧ frOp r.frame = op ∧ opCheck r.frame t = none

/-- R483, R485, R486: the request is of a critical command, and its MAC and its counter pass. -/
abbrev Authentic (r : Req) (t : State) : Prop :=
  frCrit r.frame = true ∧ t.ward.kCmd ≠ [] ∧ adyelMac t.ward.kCmd (slice r.frame 0 (32 + frLen r.frame)) r.ind = frMac r.frame ∧
    t.ward.counter < frCounter r.frame ∧ flag F.WARD_STATE_ENTROPY_OK 0 t = true

/-- The memory list has its canonical form. -/
def State.memWf (s : State) : Bool := Memory.wf s.mem

end Sys2Proof.Machine
end

