-- ==== Sys2Proof/Certificates/Slice0/Obligations.lean ====
section
/-! DEFINITION. The statements of the model: what each names, it says of every state. Each docstring names the rules of the
manual that its statement rests on. -/
open Sys2Proof Sys2Proof.Machine

/-- With command c at the front of the queue, a step is the effect of c on the state whose queue is the rest. On an
empty queue a step lets one core cycle pass: the HBM arbiter puts the request that it picks in flight, and Tchien
takes the oldest frame punted to it; memory, mode, contexts and everything sent to the outside stay, and with no frame
punted the pipeline, the buffer and the registers but TRC_DROPS too. Both are the model's own choice: the queue is log
1, the passing cycle log 2. (reader.) -/
def Obligations.StepRunsTheFrontCommand : Prop :=
  (∀ (c : Instr) (rest : List Instr) (s : State), s.pending = c :: rest →
      step s = exec c { s with pending := rest }) ∧
    (∀ s : State, s.pending = [] → ∃ t, step s = .next t ∧ t.time.cclk = s.time.cclk + 1 ∧ t.mem = s.mem ∧ t.mode = s.mode ∧
      t.out = s.out ∧ t.coding = s.coding ∧ t.ess = s.ess ∧ t.pending = [] ∧
      (∀ r, arbPick (passCclk 1 s) = some r → t.hbm.inFlight = some r ∧ t.hbm.waiting = s.hbm.waiting.erase r) ∧
      (∀ n c r, s.pipe.punts = (n, c) :: r → t.pipe.punts = r ∧ t.tm.controlUsed = s.tm.controlUsed - c) ∧
      (s.pipe.punts = [] → t.pipe = s.pipe ∧ t.tm = s.tm ∧ t.counters = s.counters ∧ KeepsFields [F.TRC_DROPS_COUNT.key 0] s t))

/-- At reset every register field reads its reset value: the Reset column, with the Hasp sources as R509 and the
monitored rails as R619 set them. The memory list is empty and has its canonical form, so every byte of HBM and of
scratch reads 0 (the model's reading, log 10). No command waits, and the device is in BOOT. (R609, R509, R619, R571.)
-/
def Obligations.ResetGivesTheResetColumn : Prop :=
  (∀ (f : Fld) (i : Nat), fget f i State.reset = resetOf f i) ∧ fget F.TIME_INCR_INCR 0 State.reset = 0x10000000 ∧
    State.memWf State.reset = true ∧ (∀ a, readByte a State.reset = 0#8) ∧ State.reset.pending = [] ∧
    State.reset.mode = .boot ∧ State.reset.ward.fwSvn = 0 ∧ State.reset.out = []

/-- If the memory list is strictly rising in address and lists no zero byte, it is so after every step, whatever the
command at the front. (memory buffer pools and dma.) -/
def Obligations.StepKeepsMemoryCanonical : Prop :=
  ∀ s t : State, State.memWf s = true → step s = .next t → State.memWf t = true

/-- Whatever the command, its effect leaves the queue of waiting commands as it is; so a step removes exactly the
front command. (reader.) -/
def Obligations.CommandsKeepTheQueue : Prop :=
  ∀ (c : Instr) (s t : State), exec c s = .next t → t.pending = s.pending

/-- Every step leaves the firmware floor, the patch floor and the store epoch that the fuses hold at least as high as
they were. (R467, ward security.) -/
def Obligations.FusesOnlyRise : Prop :=
  ∀ s t : State, step s = .next t →
    s.ward.fwSvn ≤ t.ward.fwSvn ∧ s.ward.patchSvn ≤ t.ward.patchSvn ∧ s.ward.storeEpoch ≤ t.ward.storeEpoch

/-- A write of TIME_INCR that reaches it stores the written value, held at the nearer of 0x0FFB_E76D and 0x1004_1893,
and changes nothing else. (R103, R9.) -/
def Obligations.TimeIncrIsHeldInRange : Prop :=
  ∀ (fn : Fn) (w : Word) (s : State), Reaches fn .TIME_INCR 0 s →
    Completes (.timeIncrWrite fn w) s fun t =>
      fget F.TIME_INCR_INCR 0 t = max 0x0FFBE76D (min 0x10041893 (wfld F.TIME_INCR_INCR w)) ∧
      OnlyFields [F.TIME_INCR_INCR.key 0] s t

/-- SNAPSHOT latches the PTP time that stands before a STEP of the same write. STEP adds the signed step to the time,
modulo 2^48 s, and sets STEPPED. RUN is 1 after TIME_RUN; with FREQ_IN_DISABLE 1 the source is SYSCLK. Memory and the
core cycle stay as they are. (R104, R96, R95.) -/
def Obligations.TimeControlWrites : Prop :=
  ∀ (fn : Fn) (w : Word) (s : State), Reaches fn .TIME_CTRL 0 s →
    (Completes (.snapshot fn w) s fun t =>
      fget F.TIME_SNAP_NS_NS 0 t = nsNs (nowNs s) ∧ fget F.TIME_SNAP_SEC_LO_SEC 0 t = nsSec (nowNs s) % 2 ^ 32 ∧
      fget F.TIME_SNAP_SEC_HI_SEC 0 t = nsSec (nowNs s) / 2 ^ 32 % 2 ^ 16 ∧ t.mem = s.mem ∧ t.time.cclk = s.time.cclk) ∧
    (Completes (.timeStep fn w) s fun t =>
      (t.time.ptp : Int) = ((s.time.ptp : Int) + stepUnits s) % (ptpWrap : Int) ∧
      flag F.TIME_STATUS_STEPPED 0 t = true ∧ t.mem = s.mem ∧ t.time.cclk = s.time.cclk) ∧
    (Completes (.timeRun fn w) s fun t => running t = true ∧ t.mem = s.mem) ∧
    (Completes (.freqInDisableSet fn w) s fun t =>
      flag F.TIME_CTRL_FREQ_IN_DISABLE 0 t = true ∧ flag F.TIME_STATUS_FREQ_SRC 0 t = false ∧ t.mem = s.mem) ∧
    (Completes (.freqInDisableClear fn w) s fun t => flag F.TIME_CTRL_FREQ_IN_DISABLE 0 t = false ∧ t.mem = s.mem)

/-- A PPS_IN edge latches the time and sets PPS_CAPTURED. A lost FREQ_IN changes the source without a step of the time
and raises Hasp source 10. A restored FREQ_IN that is not disabled becomes the source. A whole second raises every
PPS_OUT ball, the end of a pulse lowers its line, and an edge at a TIMER_CAPTURE ball latches the time in its timer;
the ball then stands at the level of the edge (log 207). (R95, R105, R108, R625.) -/
def Obligations.TimeEventsAreRecorded : Prop :=
  (∀ s : State, Completes .ppsCapture s fun t =>
      fget F.TIME_PPS_NS_NS 0 t = nsNs (nowNs s) ∧ fget F.TIME_PPS_SEC_SEC 0 t = nsSec (nowNs s) % 2 ^ 32 ∧
      flag F.TIME_STATUS_PPS_CAPTURED 0 t = true ∧ t.time = s.time ∧ t.mem = s.mem) ∧
    (∀ s : State, flag F.TIME_STATUS_FREQ_SRC 0 s = true →
      exec .freqInLost s = .next (haspRise 10 0 (setEvent F.TIME_STATUS_FREQ_IN_LOST 0 92 (setFlag F.TIME_STATUS_FREQ_SRC 0 false
        { s with time := { s.time with freqClean := false, freqFrom := s.time.cclk } })))) ∧
    (∀ s : State, flag F.TIME_CTRL_FREQ_IN_DISABLE 0 s = false → flag F.TIME_STATUS_FREQ_SRC 0 s = false →
      Completes .freqInRestore s fun t => flag F.TIME_STATUS_FREQ_SRC 0 t = true ∧
        s.time.freqFrom + 16000000 ≤ t.time.cclk ∧ KeepsFields [F.TIME_STATUS_FREQ_SRC.key 0] s t) ∧
    (∀ s : State, running s = true →
      Completes .ppsSecond s fun t => (∀ b, b < 8 → ballFn s.cfg b = 2 → lineUp b t = true) ∧ t.regs = s.regs ∧ t.mem = s.mem) ∧
    (∀ (l : Fin 9) (s : State), lineUp l s = true →
      Completes (.outputPulseEnd l) s fun t => lineUp l t = false ∧ t.regs = s.regs ∧ t.mem = s.mem) ∧
    (∀ (b : Ball) (s : State), ballFn s.cfg b = 4 → Completes (.timerCapture b) s fun t =>
      fget F.TMR_CAP_NS_NS (ballTimer s.cfg b) t = nsNs (nowNs s) ∧
      fget F.TMR_CAP_SEC_SEC (ballTimer s.cfg b) t = nsSec (nowNs s) % 2 ^ 32 ∧
      Tab.get false t.time.ballIn b = !ballInvert s.cfg b ∧ t.mem = s.mem ∧ t.out = s.out ∧
      KeepsFields [F.TMR_CAP_NS_NS.key (ballTimer s.cfg b), F.TMR_CAP_SEC_SEC.key (ballTimer s.cfg b)] s t)

/-- A write to SYNC_GPIO that would change OE or OUT of a ball which the image does not give to GPIO answers CONFLICT
and changes nothing but RESULT; any other write stores OE and OUT and answers OK. (R110.) -/
def Obligations.GpioWriteConflicts : Prop :=
  ∀ (fn : Fn) (w : Word) (s : State), Reaches fn .SYNC_GPIO 0 s →
    ((∃ b, b < 8 ∧ ballFn s.cfg b ≠ 5 ∧ (bit (wfld F.SYNC_GPIO_OE w) b ≠ bit (fget F.SYNC_GPIO_OE 0 s) b ∨
        bit (wfld F.SYNC_GPIO_OUT w) b ≠ bit (fget F.SYNC_GPIO_OUT 0 s) b)) →
      Completes (.syncGpioWrite fn w) s fun t => fget F.SYNC_GPIO_RESULT 0 t = 3 ∧ OnlyFields [F.SYNC_GPIO_RESULT.key 0] s t) ∧
    ((∀ b, b < 8 → ballFn s.cfg b ≠ 5 → bit (wfld F.SYNC_GPIO_OE w) b = bit (fget F.SYNC_GPIO_OE 0 s) b ∧
        bit (wfld F.SYNC_GPIO_OUT w) b = bit (fget F.SYNC_GPIO_OUT 0 s) b) →
      Completes (.syncGpioWrite fn w) s fun t => fget F.SYNC_GPIO_RESULT 0 t = 0 ∧
        fget F.SYNC_GPIO_OE 0 t = wfld F.SYNC_GPIO_OE w ∧ fget F.SYNC_GPIO_OUT 0 t = wfld F.SYNC_GPIO_OUT w ∧
        KeepsFields [F.SYNC_GPIO_RESULT.key 0, F.SYNC_GPIO_OE.key 0, F.SYNC_GPIO_OUT.key 0] s t ∧
        t.mem = s.mem ∧ t.time = s.time)

/-- A write to TMR_CTRL that fails its checks changes RESULT only. One that passes with START and without STOP sets
RUNNING and takes S, P and the smallest m whose instant lies at least 1,000 ns ahead of the time in whole ns, rounded
up; with STOP it ends RUNNING. A firing of a running timer moves to the next m and sets the interrupt source of each
group that the timer serves. (R112, R113, R114.) -/
def Obligations.TimersStartStopAndFire : Prop :=
  (∀ (fn : Fn) (i : Timer) (w : Word) (s : State), Reaches fn .TMR_CTRL i s →
      (tmrCheck i (wfld F.TMR_CTRL_MODE w) true s ≠ 0 → Completes (.timerStart fn i w) s fun t =>
        fget F.TMR_CTRL_RESULT i t = tmrCheck i (wfld F.TMR_CTRL_MODE w) true s ∧
        OnlyFields [F.TMR_CTRL_RESULT.key i] s t) ∧
      (tmrCheck i (wfld F.TMR_CTRL_MODE w) true s = 0 → wbit F.TMR_CTRL_STOP w = false →
        Completes (.timerStart fn i w) s fun t => fget F.TMR_CTRL_RESULT i t = 0 ∧ tmrRunning i t = true ∧
          tmrP i t = fget F.TMR_PERIOD_NS_NS i s ∧
          tmrS i t = nearestSec (fget F.TMR_START_SEC_SEC i s) s * 10 ^ 9 + fget F.TMR_START_NS_NS i s ∧
          tmrAt i t = tmrS i t + firstFiring (tmrS i t) (tmrP i t) (nowCeil s + 1000) * tmrP i t ∧ t.mem = s.mem) ∧
      (tmrCheck i (wfld F.TMR_CTRL_MODE w) (wbit F.TMR_CTRL_START w) s = 0 →
        Completes (.timerStop fn i w) s fun t => fget F.TMR_CTRL_RESULT i t = 0 ∧ tmrRunning i t = false ∧ t.mem = s.mem)) ∧
    (∀ (i : Timer) (s : State), tmrRunning i s = true → running s = true →
      Completes (.timerFire i) s fun t => tmrAt i t = tmrAt i s + tmrP i s ∧
        (∀ g, g < 64 → secHas s.cfg 11 = true → grTimer s.cfg g = i.val → pendOf (4032 + g) t = true) ∧ t.mem = s.mem)

/-- A domain that the image enables, in CONFIGURE, OPERATE, STANDBY or LOCKDOWN with RUN 1, ticks with the next index:
TICK_IDX shows it, the tick after it has the index above, each TICK_OUT ball of the domain and, at the tick master in
domain 0, SHK_TICK is up, the tick has been seen, and source 16 + domain is pending. A delta that waits for the domain
has then seen its tick. (R21, R72, R106, R456.) -/
def Obligations.TickAdvancesTheIndex : Prop :=
  ∀ (td : Td) (s : State), tickRuns td s = true → tickNext td s < 2 ^ 64 →
    Completes (.tick td) s fun t => tickIdx td t = tickNext td s ∧ tickNext td t = tickNext td s + 1 ∧
      Tab.get false t.time.tickSeen td = true ∧ pendOf (16 + td) t = true ∧ t.mem = s.mem ∧ t.mode = s.mode ∧
      (∀ b, b < 8 → ballFn s.cfg b = 1 → ballTd s.cfg b = td → lineUp b t = true) ∧
      (td = 0 → flag F.SHK_STATUS_MASTER 0 s = true → lineUp 8 t = true) ∧
      (∀ d, d ≠ td.val → tickIdx d t = tickIdx d s ∧ tickNext d t = tickNext d s) ∧
      (flag F.IMG_STATUS_DELTA_PENDING 0 s = true → byteAt s.loader.pendHeader 0x3A = td → t.loader.applySeen = true)

/-- For a port of PORT_MAP in OPERATE. ENABLE 1 enables a port that does not drain and is kept pending on one that
does. ENABLE 0 starts the drain of an enabled port and withdraws a pending enable. The end of the drain, with no frame
on the wire, clears DRAINING and carries out the pending enable. AN_RESTART on an enabled port with auto-negotiation
takes its link down until negotiation is done. (R84, R86, R88, R570.) -/
def Obligations.MacEnableAndDrain : Prop :=
  (∀ (fn : Fn) (p : Port) (w : Word) (s : State), Reaches fn .MAC_CTRL p s → s.mode = .operate → portOn s.cfg p = true →
      (Completes (.macEnable fn p w) s fun t => flag F.MAC_CTRL_ENABLE p t = true ∧ t.mem = s.mem ∧ t.tm = s.tm ∧
        (flag F.MAC_STATUS_DRAINING p s = true → flag F.MAC_STATUS_ENABLE_PENDING p t = true ∧
          flag F.MAC_STATUS_ENABLED p t = flag F.MAC_STATUS_ENABLED p s) ∧
        (flag F.MAC_STATUS_DRAINING p s = false → flag F.MAC_STATUS_ENABLED p t = true)) ∧
      (wbit F.MAC_CTRL_AN_RESTART w = false → Completes (.macDisable fn p w) s fun t => flag F.MAC_CTRL_ENABLE p t = false ∧
        t.mem = s.mem ∧
        (flag F.MAC_STATUS_DRAINING p s = true → flag F.MAC_STATUS_ENABLE_PENDING p t = false) ∧
        (flag F.MAC_STATUS_DRAINING p s = false → flag F.MAC_STATUS_ENABLED p s = true →
          flag F.MAC_STATUS_DRAINING p t = true ∧ flag F.MAC_STATUS_ENABLED p t = false)) ∧
      (portAn s.cfg p = true → flag F.MAC_STATUS_ENABLED p s = true → flag F.MAC_STATUS_DRAINING p s = false →
        wbit F.MAC_CTRL_ENABLE w = true → Completes (.anRestart fn p w) s fun t =>
          flag F.MAC_STATUS_LINK_UP p t = false ∧ flag F.MAC_STATUS_AN_DONE p t = false ∧
          Tab.get false t.ports.anRunning p = true ∧ t.mem = s.mem)) ∧
    (∀ (p : Port) (s : State), flag F.MAC_STATUS_DRAINING p s = true → Tab.find? s.ports.wire p = none →
      Completes (.macDrainEnd p) s fun t => flag F.MAC_STATUS_DRAINING p t = false ∧ flag F.MAC_STATUS_LINK_UP p t = false ∧
        (flag F.MAC_STATUS_ENABLE_PENDING p s = true → flag F.MAC_STATUS_ENABLED p t = true ∧
          flag F.MAC_STATUS_ENABLE_PENDING p t = false) ∧ t.mem = s.mem)

/-- On an octet that LANE_MAP uses, the end of negotiation of an enabled port sets AN_DONE, and an enabled port that
does not negotiate or has done so reports its link up, with FEC_LOCK where it has FEC (log 204). A fall of a link that
is up clears LINK_UP and FEC_LOCK and sets LINK_DOWN_EVT, and an enabled port with AN negotiates again. An
uncorrectable codeword of an enabled or draining port with FEC counts in index 13 and sets FEC_UNCORR_EVT. A read of
MAC_TXTS_SEC that reaches it, with a timestamp queued, returns the oldest one and removes it. (R43, R82, R85, R89,
R102, R549.) -/
def Obligations.PortEventsAreReported : Prop :=
  (∀ (p : Port) (s : State), Tab.get false s.ports.anRunning p = true → flag F.MAC_STATUS_ENABLED p s = true → octetOn p s = true →
      Completes (.anDone p) s fun t => flag F.MAC_STATUS_AN_DONE p t = true ∧ Tab.get false t.ports.anRunning p = false ∧
        KeepsFields [F.MAC_STATUS_AN_DONE.key p] s t ∧ t.mem = s.mem ∧ t.tm = s.tm) ∧
    (∀ (p : Port) (s : State), flag F.MAC_STATUS_ENABLED p s = true → octetOn p s = true →
      (portAn s.cfg p = false ∨ flag F.MAC_STATUS_AN_DONE p s = true) →
      Completes (.linkUp p) s fun t => flag F.MAC_STATUS_LINK_UP p t = true ∧
        flag F.MAC_STATUS_FEC_LOCK p t = (portFec s.cfg p != 0) ∧ OnlyFields [F.MAC_STATUS_LINK_UP.key p, F.MAC_STATUS_FEC_LOCK.key p] s t) ∧
    (∀ (p : Port) (s : State), flag F.MAC_STATUS_LINK_UP p s = true →
      Completes (.linkDown p) s fun t => flag F.MAC_STATUS_LINK_UP p t = false ∧
        flag F.MAC_STATUS_LINK_DOWN_EVT p t = true ∧ flag F.MAC_STATUS_FEC_LOCK p t = false ∧
        (portAn s.cfg p = true → flag F.MAC_STATUS_ENABLED p s = true → flag F.MAC_STATUS_AN_DONE p t = false ∧
          Tab.get false t.ports.anRunning p = true) ∧ t.mem = s.mem ∧ t.tm = s.tm) ∧
    (∀ (p : Port) (s : State), (flag F.MAC_STATUS_ENABLED p s = true ∨ flag F.MAC_STATUS_DRAINING p s = true) → portFec s.cfg p ≠ 0 →
      Completes (.fecUncorrCodeword p) s fun t => flag F.MAC_STATUS_FEC_UNCORR_EVT p t = true ∧
        Tab.get 0 t.counters ((145 * 65536 + p * 256 + 13 * 8) / 8) =
          (Tab.get 0 s.counters ((145 * 65536 + p * 256 + 13 * 8) / 8) + 1) % 2 ^ 64 ∧ t.mem = s.mem) ∧
    (∀ (fn : Fn) (p : Port) (s : State) (id ns sec : Nat) (r : List (Nat × Nat × Nat)), Shows fn .MAC_TXTS_SEC p s →
      Tab.get [] s.ports.txts p = (id, ns, sec) :: r → Completes (.txtsPop fn p) s fun t =>
        Tab.get [] t.ports.txts p = r ∧ t.out = .readData fn sec :: s.out ∧ t.regs = s.regs ∧ t.mem = s.mem)

/-- An ARM while another is pending answers BUSY, and one of a bad list answers BAD_ARG; both change RESULT only. An
accepted ARM sets PENDING, the change registers and the change time. ENABLE takes the written value, and ENABLE 0
without ARM withdraws a pending list. That a refused ARM refuses ENABLE too is the model's reading, log 93. (R214,
R215, R216.) -/
def Obligations.GateListWrites : Prop :=
  ∀ (fn : Fn) (p : Port) (w : Word) (s : State), Reaches fn .TM_GCL_CTRL p s →
    (flag F.TM_GCL_STATUS_PENDING p s = true → Completes (.gclArm fn p w) s fun t => fget F.TM_GCL_CTRL_RESULT p t = 1 ∧
      OnlyFields [F.TM_GCL_CTRL_RESULT.key p] s t) ∧
    (flag F.TM_GCL_STATUS_PENDING p s = false → gclBad p s = true → Completes (.gclArm fn p w) s fun t =>
      fget F.TM_GCL_CTRL_RESULT p t = 6 ∧ OnlyFields [F.TM_GCL_CTRL_RESULT.key p] s t) ∧
    (flag F.TM_GCL_STATUS_PENDING p s = false → gclBad p s = false → Completes (.gclArm fn p w) s fun t =>
      fget F.TM_GCL_CTRL_RESULT p t = 0 ∧
      flag F.TM_GCL_STATUS_PENDING p t = true ∧ fget F.TM_GCL_CHANGE_NS_NS p t = nsNs (gclChangeAt p s).1 ∧
      fget F.TM_GCL_CHANGE_SEC_SEC p t = nsSec (gclChangeAt p s).1 % 2 ^ 32 ∧
      Tab.find? t.tm.change p = some ((gclChangeAt p s).2 + 1) ∧ operList p t = operList p s ∧ t.mem = s.mem ∧
      t.tm.queues = s.tm.queues ∧ t.tm.gates = s.tm.gates) ∧
    (wbit F.TM_GCL_CTRL_ARM w = false → Completes (.gclEnable fn p w) s fun t => flag F.TM_GCL_CTRL_ENABLE p t = true ∧
      OnlyFields [F.TM_GCL_CTRL_RESULT.key p, F.TM_GCL_CTRL_ENABLE.key p] s t) ∧
    (wbit F.TM_GCL_CTRL_ARM w = false → Completes (.gclDisable fn p w) s fun t => flag F.TM_GCL_CTRL_ENABLE p t = false ∧
      flag F.TM_GCL_STATUS_PENDING p t = false ∧ gateRun p t = none ∧ t.mem = s.mem ∧ t.tm.queues = s.tm.queues)

/-- At the change time of an untied port, with RUN 1, the prepared list comes into operation from its first entry and
PENDING clears. The list in operation of an untied port then goes to its next entry, or to entry 0 at the end of its
cycle. (R213, R214.) -/
def Obligations.GatesChangeAndAdvance : Prop :=
  (∀ (p : Port) (s : State) (c : Nat), Tab.find? s.tm.change p = some c → gateTied p s = false → running s = true →
      Completes (.gclChange p) s fun t => operList p t = (1 - operList p s) % 2 ^ F.TM_GCL_STATUS_OPER_LIST.w ∧
        flag F.TM_GCL_STATUS_PENDING p t = false ∧ Tab.find? t.tm.change p = none ∧
        (∃ g, Tab.find? t.tm.running p = some g ∧ g.entry = 0 ∧ g.cycleStart = c - 1 ∧ g.len = fget F.TM_GCL_LEN_ADMIN_LEN p s) ∧
        t.mem = s.mem) ∧
    (∀ (p : Port) (s : State) (g : GateRun), gateRun p s = some g → running s = true → gateTied p s = false →
      Completes (.gateEntryAdvance p) s fun t => (∃ h, Tab.find? t.tm.running p = some h ∧
        h.entryStart = (entryEnd p 0 g.entry g.entryStart g s).1 ∧
        h.entry = if (entryEnd p 0 g.entry g.entryStart g s).2 then 0 else g.entry + 1) ∧ t.mem = s.mem ∧ t.tm.queues = s.tm.queues)

/-- Where a leaf is chosen, it is a ready leaf of a class that is ready, and when a strict class is ready the class is
strict and no ready strict class is above it. A port that can start a frame then puts the head of that leaf on its
wire with the present time as its dequeue time; the leaf keeps the rest, every other leaf its queue, and STALLED of
the leaf clears. A port that cannot start a frame, or has no class ready, keeps its state. A stored copy on the wire
of a port leaves it: at a port without MACsec and PTP a frame up to the MTU leaves as the copy's bytes and its FCS
(complemented for a bad frame), counts in TX_FRAMES and TX_BYTES, and a longer one is discarded and counted. A refill
falls 1,024 cclk after the one before, and adds RATE to an enabled port shaper up to BURST x 16. A pause frame at an
enabled port with its link up counts and pauses the classes that it names for as long as it says, a time of 0 ending a
pause. A pause that runs out ends at its time. (R83, R181, R204, R205, R207, R208, R209, R210, R549.) -/
def Obligations.PausesShapersAndFrames : Prop :=
  (∀ (p : Port) (s : State) (x : Nat × State), schedPick p s = some x →
      ∃ k, k < 8 ∧ classReady p k s = true ∧ x.1 ∈ (readyLeaves p k s).map (·.num) ∧
        (∀ j, j < 8 → classReady p j s = true → ((classNode s.cfg p j).map cnMode).getD 0 = 0 →
          ((classNode s.cfg p k).map cnMode).getD 0 = 0 ∧ j ≤ k)) ∧
    (∀ (p : Port) (s : State), portReady p s = true → ∀ x, schedPick p s = some x → ∀ c r, leafQueue x.1 s = c :: r →
      Completes (.schedulerSelect p) s fun t =>
        Tab.find? t.ports.wire p = some { c with tDeq := nowNs s } ∧ leafQueue x.1 t = r ∧
        (∀ q, q ≠ x.1 → leafQueue q t = leafQueue q s) ∧ flag F.TM_LEAF_STATUS_STALLED x.1 t = false ∧
        KeepsFields [F.TM_LEAF_STATUS_STALLED.key x.1] s t ∧ t.mem = s.mem ∧ t.out = s.out) ∧
    (∀ (p : Port) (s : State), portReady p s = false ∨ (∀ k, k < 8 → classReady p k s = false) →
      Completes (.schedulerSelect p) s fun t => t = s) ∧
    (∀ (p : Port) (s : State) (c : Copy), Tab.find? s.ports.wire p = some c → c.cutThrough = false →
      Completes (.frameEgress p) s fun t => Tab.find? t.ports.wire p = none ∧ t.mem = s.mem ∧ t.tm.queues = s.tm.queues ∧
        (portMacsec s.cfg p = false → portPtp s.cfg p = false →
          (c.bytes.length + 4 ≤ portMtu s.cfg p →
            t.out = .frame p (c.bytes ++ if c.bad then (fcsOf c.bytes).map (fun b => ~~~ b) else fcsOf c.bytes) :: s.out ∧
            Tab.get 0 t.counters ((145 * 65536 + p * 256 + 16 * 8) / 8) =
              (Tab.get 0 s.counters ((145 * 65536 + p * 256 + 16 * 8) / 8) + 1) % 2 ^ 64 ∧
            Tab.get 0 t.counters ((145 * 65536 + p * 256 + 17 * 8) / 8) =
              (Tab.get 0 s.counters ((145 * 65536 + p * 256 + 17 * 8) / 8) + (c.bytes.length + 4)) % 2 ^ 64) ∧
          (portMtu s.cfg p < c.bytes.length + 4 → t.out = s.out ∧
            Tab.get 0 t.counters ((145 * 65536 + p * 256 + 18 * 8) / 8) =
              (Tab.get 0 s.counters ((145 * 65536 + p * 256 + 18 * 8) / 8) + 1) % 2 ^ 64))) ∧
    (∀ s : State, Completes .shaperRefill s fun t => t.tm.refillAt = s.tm.refillAt + 1024 ∧ s.tm.refillAt + 1024 ≤ t.time.cclk ∧
      t.tm.queues = s.tm.queues ∧ t.mem = s.mem ∧ t.regs = s.regs ∧
      (∀ p, p < 256 → s.tm.shapeWr = [] → flag F.TM_PORT_SHAPE_ENABLE p s = true →
        nodeApplied (portKey p) t = (fget F.TM_PORT_SHAPE_RATE p s, fget F.TM_PORT_BURST_BURST p s, true) ∧
        nodeTokens (portKey p) (fget F.TM_PORT_BURST_BURST p s) t =
          min (nodeTokens (portKey p) (nodeApplied (portKey p) s).2.1 s + (fget F.TM_PORT_SHAPE_RATE p s : Int))
            (fget F.TM_PORT_BURST_BURST p s * 16 : Nat))) ∧
    (∀ (p : Port) (q : BitVec 16) (s : State), flag F.MAC_STATUS_ENABLED p s = true → flag F.MAC_STATUS_LINK_UP p s = true →
      flag F.TM_PORT_CTRL_PAUSE_RX p s = true → Completes (.pauseReceive p (.pause q)) s fun t =>
        (∀ k, k < 8 → pausedAt p k t = decide (q ≠ 0) ∧ (q ≠ 0 → Tab.find? t.tm.pauseUntil (p * 8 + k) =
          some (s.time.cclk + ceilDiv (q.toNat * 512 * 8) (5 * portGbps s.cfg p)))) ∧
        Tab.get 0 t.counters ((145 * 65536 + p * 256 + 5 * 8) / 8) =
          (Tab.get 0 s.counters ((145 * 65536 + p * 256 + 5 * 8) / 8) + 1) % 2 ^ 64 ∧
        KeepsFields [F.TM_PORT_PAUSED_CLASS.key p] s t ∧ t.tm.queues = s.tm.queues ∧ t.mem = s.mem) ∧
    (∀ (p : Port) (e : BitVec 8) (qs : List (BitVec 16)) (s : State), flag F.MAC_STATUS_ENABLED p s = true →
      flag F.MAC_STATUS_LINK_UP p s = true → flag F.TM_PORT_CTRL_PFC_RX p s = true →
      Completes (.pauseReceive p (.pfc e qs)) s fun t =>
        (∀ k, k < 8 → pausedAt p k t = if bit e.toNat k then decide (qs.getD k 0 ≠ 0) else pausedAt p k s) ∧
        KeepsFields [F.TM_PORT_PAUSED_CLASS.key p] s t ∧ t.tm.queues = s.tm.queues ∧ t.mem = s.mem) ∧
    (∀ (p : Port) (m : BitVec 8) (s : State), Completes (.pauseExpire p m) s fun t =>
      (∀ k, k < 8 → pausedAt p k t = (pausedAt p k s && !bit m.toNat k) ∧
        (bit m.toNat k = true → pausedAt p k s = true → Tab.get 0 s.tm.pauseUntil (p * 8 + k) ≤ t.time.cclk)) ∧
      KeepsFields [F.TM_PORT_PAUSED_CLASS.key p] s t ∧ t.tm.queues = s.tm.queues ∧ t.mem = s.mem)

/-- A flush that reaches its leaf removes every frame queued in an earlier cclk, counts each in TM_LEAF_FLUSHED of its
leaf, keeps the frames of this cclk, and sets FLUSH_BUSY, which the end of the flush clears. A leaf that holds frames
and is not stalled sets STALLED and counts at STALL_US after its last frame (log 96). Other leaves keep their queues.
(R217, R218.) -/
def Obligations.LeafFlushAndStall : Prop :=
  (∀ (fn : Fn) (q : Leaf) (w : Word) (s : State), Reaches fn .TM_LEAF_STATUS q s →
      Completes (.leafFlush fn q w) s fun t => leafQueue q t = (leafQueue q s).filter (fun c => decide (s.time.cclk ≤ c.enqAt)) ∧
        flag F.TM_LEAF_STATUS_FLUSH_BUSY q t = true ∧ (∀ x, x ≠ q.val → leafQueue x t = leafQueue x s) ∧
        ((∀ c ∈ leafQueue q s, c.leaf = q.val) → fget F.TM_LEAF_FLUSHED_COUNT q t = (fget F.TM_LEAF_FLUSHED_COUNT q s +
          ((leafQueue q s).filter (fun c => decide (c.enqAt < s.time.cclk))).length) % 2 ^ F.TM_LEAF_FLUSHED_COUNT.w) ∧ t.mem = s.mem) ∧
    (∀ (q : Leaf) (s : State), Completes (.leafFlushEnd q) s fun t => flag F.TM_LEAF_STATUS_FLUSH_BUSY q t = false ∧
        OnlyFields [F.TM_LEAF_STATUS_FLUSH_BUSY.key q] s t) ∧
    (∀ (q : Leaf) (s : State), leafQueue q s ≠ [] → flag F.TM_LEAF_STATUS_STALLED q s = false →
      Completes (.leafStall q) s fun t => flag F.TM_LEAF_STATUS_STALLED q t = true ∧
        fget F.TM_LEAF_STALL_COUNT q t = (fget F.TM_LEAF_STALL_COUNT q s + 1) % 2 ^ F.TM_LEAF_STALL_COUNT.w ∧
        Tab.get 0 s.tm.lastSent q + max 1 (fget F.TM_CTRL_STALL_US 0 s) * 1600 ≤ t.time.cclk ∧ t.tm = s.tm ∧ t.mem = s.mem)

/-- A write of a whole entry to a bank other than the trie rings, inside the bank and cutting no IPv6 entry of the LPM
pool, commits it and advances the epoch of that bank; an L2 bank must be locked. One to a trie ring is stored. A write
of another length sets PARTIAL_WR, and one to an L2 bank that is not locked sets UNLOCKED_WR; both count and change no
entry. LOCK, its taking hold, and its release set and clear the lock. (R175, R177, R180.) -/
def Obligations.TableWritesAndLocks : Prop :=
  (∀ (b : Bank) (i : Nat) (e : Bytes) (s : State), i < entCount b → tablePartial b i e s = false →
      (b.val < 48 ∨ 56 ≤ b.val) → (b.val < 16 ∨ 32 ≤ b.val ∨ bankLocked b s = true) →
      Completes (.tableWriteCommit b i e) s fun t => fget F.TBL_EPOCH_EPOCH b t = (fget F.TBL_EPOCH_EPOCH b s + 1) % 2 ^ 32 ∧
        (32 ≤ b.val ∨ bit (byteAt e 0) 1 = false → Tab.get 0 t.pipe.tbl (b * 65536 + i) = leNat (e.take (entSize b))) ∧
        (∀ k, 0 < k → k < e.length / entSize b →
          Tab.get 0 t.pipe.tbl (b * 65536 + i + k) = leNat (slice e (16 * k) 16)) ∧
        (∀ k, k < b * 65536 + i ∨ b * 65536 + i + e.length / entSize b ≤ k → Tab.get 0 t.pipe.tbl k = Tab.get 0 s.pipe.tbl k) ∧
        KeepsFields [F.TBL_EPOCH_EPOCH.key b] s t ∧ t.mem = s.mem) ∧
    (∀ (b : Bank) (i : Nat) (e : Bytes) (s : State), 48 ≤ b.val → b.val < 56 → i < 1024 → e.length = 32 →
      Completes (.tableWriteCommit b i e) s fun t => Tab.get 0 t.pipe.tbl (b * 65536 + i) = leNat e ∧ t.regs = s.regs ∧
        (∀ k, k ≠ b * 65536 + i → Tab.get 0 t.pipe.tbl k = Tab.get 0 s.pipe.tbl k) ∧ t.mem = s.mem) ∧
    (∀ (b : Bank) (i : Nat) (e : Bytes) (s : State), i < entCount b → e.length ≠ entLen b e →
      (b.val < 16 ∨ 32 ≤ b.val ∨ bankLocked b s = true) →
      Completes (.tableWriteCommit b i e) s fun t => flag F.TBL_STATUS_PARTIAL_WR b t = true ∧
        fget F.PL_TBL_BAD_WR_COUNT 0 t = (fget F.PL_TBL_BAD_WR_COUNT 0 s + 1) % 2 ^ F.PL_TBL_BAD_WR_COUNT.w ∧
        OnlyFields [F.TBL_STATUS_PARTIAL_WR.key b, F.PL_TBL_BAD_WR_COUNT.key 0] s t) ∧
    (∀ (b : Bank) (i : Nat) (e : Bytes) (s : State), 16 ≤ b.val → b.val < 32 → i < entCount b → bankLocked b s = false →
      Completes (.tableWriteCommit b i e) s fun t => flag F.TBL_STATUS_UNLOCKED_WR b t = true ∧
        fget F.PL_TBL_BAD_WR_COUNT 0 t = (fget F.PL_TBL_BAD_WR_COUNT 0 s + 1) % 2 ^ F.PL_TBL_BAD_WR_COUNT.w ∧
        OnlyFields [F.TBL_STATUS_UNLOCKED_WR.key b, F.PL_TBL_BAD_WR_COUNT.key 0] s t) ∧
    (∀ (fn : Fn) (b : Bank) (w : Word) (s : State), Reaches fn .TBL_CTRL b s →
      (Completes (.tblLock fn b w) s fun t => flag F.TBL_CTRL_LOCK b t = true ∧ OnlyFields [F.TBL_CTRL_LOCK.key b] s t) ∧
      (Completes (.tblUnlock fn b w) s fun t => flag F.TBL_CTRL_LOCK b t = false ∧ bankLocked b t = false ∧ t.mem = s.mem)) ∧
    (∀ (b : Bank) (s : State), flag F.TBL_CTRL_LOCK b s = true → Completes (.lockActive b) s fun t =>
      bankLocked b t = true ∧ OnlyFields [F.TBL_STATUS_LOCK_ACTIVE.key b] s t)

/-- A write of TRIE_RING_TAIL stores TAIL. While HEAD differs from TAIL, the builder takes the record at HEAD and HEAD
advances. A record of another VRF, family, length or OP than its slot takes sets BAD_RECORD and leaves the trie. A
good one that adds puts the prefix with its RESULT where it fits, and otherwise sets NO_NODE and leaves the trie; one
that deletes removes the prefix; one that does nothing leaves it. Each of these three but the one that did not fit
advances the epoch of the slot's bank. (R161, R162, R180.) -/
def Obligations.TrieRecords : Prop :=
  (∀ (fn : Fn) (k : TrieSlot) (w : Word) (s : State), Reaches fn .TRIE_RING_TAIL k s →
      Completes (.trieRingTail fn k w) s fun t => fget F.TRIE_RING_TAIL_TAIL k t = wfld F.TRIE_RING_TAIL_TAIL w ∧
        OnlyFields [F.TRIE_RING_TAIL_TAIL.key k] s t) ∧
    (∀ (k : TrieSlot) (fits : Bool) (s : State), fget F.TRIE_RING_HEAD_HEAD k s ≠ fget F.TRIE_RING_TAIL_TAIL k s →
      ∀ r, r = leBytes 32 (Tab.get 0 s.pipe.tbl ((48 + k.val) * 65536 + fget F.TRIE_RING_HEAD_HEAD k s)) →
      ∀ w, w = (if byteAt r 24 = 6 then 128 else 32) → ∀ good, good = decide ((privVrfs s.cfg)[k.val]? = some (fieldLE r 2 2) ∧
        (byteAt r 24 = 4 ∨ byteAt r 24 = 6) ∧ byteAt r 1 ≤ w ∧ byteAt r 0 ≤ 2) →
      Completes (.trieRecordCommit k fits) s fun t =>
        fget F.TRIE_RING_HEAD_HEAD k t = (fget F.TRIE_RING_HEAD_HEAD k s + 1) % 1024 ∧ t.mem = s.mem ∧
        (good = false → t.pipe.trie = s.pipe.trie ∧ flag F.TRIE_STATUS_BAD_RECORD k t = true) ∧
        (good = true → byteAt r 0 = 1 → fits = false → t.pipe.trie = s.pipe.trie ∧ flag F.TRIE_STATUS_NO_NODE k t = true) ∧
        (good = true → (byteAt r 0 = 1 → fits = true) →
          fget F.TBL_EPOCH_EPOCH (48 + k.val) t = (fget F.TBL_EPOCH_EPOCH (48 + k.val) s + 1) % 2 ^ 32 ∧
          (byteAt r 0 = 0 → t.pipe.trie = s.pipe.trie) ∧
          (byteAt r 0 ≠ 0 → Tab.find? t.pipe.trie (trieKey k (byteAt r 24 == 6) (byteAt r 1) (maskLen w (byteAt r 1) (fieldBE r 8 (w / 8)))) =
            if byteAt r 0 = 1 then some (fieldLE r 4 4 + 1) else none)))

/-- A frame at a port that receives (enabled, or draining with a frame in progress, and its link up) counts in
RX_FRAMES and RX_BYTES; a runt also counts as one and goes no further; nor does a PAUSE frame, which pauses the port's
classes where PAUSE_RX is 1, nor, at a MACsec port, a frame that is neither EAPOL nor tagged, which counts. The oldest
learning request is taken off the queue: it fills a free place with the learnt entry, moves an entry, or fails and
counts. A pass of the sweeper ages each entry of the regions in an L2 bank that is not locked: a hit entry is made
young, an old one is removed, and any other grows old; a locked bank is owed its pass. A tail that arrives ends the
cut-through state of the copy on the wire, returns the cells that the frame did not use, and counts the frame as
stomped where it is bad. (R83, R86, R91, R149, R150, R152, R201, R202, R209, R549.) -/
def Obligations.FramesEnterAndLearn : Prop :=
  (∀ (p : Port) (f : Bytes) (a b : Nat) (s : State), rxOpen p s = true → Completes (.frameIngress p f a b) s fun t =>
      Tab.get 0 t.counters ((145 * 65536 + p * 256) / 8) = (Tab.get 0 s.counters ((145 * 65536 + p * 256) / 8) + 1) % 2 ^ 64 ∧
      Tab.get 0 t.counters ((145 * 65536 + p * 256 + 8) / 8) =
        (Tab.get 0 s.counters ((145 * 65536 + p * 256 + 8) / 8) + f.length) % 2 ^ 64 ∧
      (f.length < 64 → t.pipe = s.pipe ∧ t.tm = s.tm ∧ t.mem = s.mem ∧ t.regs = s.regs ∧ t.out = s.out ∧
        Tab.get 0 t.counters ((145 * 65536 + p * 256 + 3 * 8) / 8) =
          (Tab.get 0 s.counters ((145 * 65536 + p * 256 + 3 * 8) / 8) + 1) % 2 ^ 64)) ∧
    (∀ (p : Port) (f g : Bytes) (s : State), rxOpen p s = true → 64 ≤ f.length → f.length ≤ portMtu s.cfg p →
      g = f.take (f.length - 4) → f.drop (f.length - 4) = fcsOf g → fieldBE g 12 2 = 0x8808 → fieldBE g 14 2 = 1 →
      flag F.TM_PORT_CTRL_PAUSE_RX p s = true → Completes (.frameIngress p f 0 0) s fun t =>
        (∀ k, k < 8 → pausedAt p k t = decide (fieldBE g 16 2 ≠ 0)) ∧ t.pipe = s.pipe ∧ t.tm.queues = s.tm.queues ∧ t.mem = s.mem) ∧
    (∀ (p : Port) (f g : Bytes) (s : State), rxOpen p s = true → 64 ≤ f.length → f.length ≤ portMtu s.cfg p →
      g = f.take (f.length - 4) → f.drop (f.length - 4) = fcsOf g → fieldBE g 12 2 ≠ 0x8808 → fieldBE g 12 2 ≠ 0x888E →
      fieldBE g 12 2 ≠ 0x88E5 → portMacsec s.cfg p = true → Completes (.frameIngress p f 0 0) s fun t =>
        Tab.get 0 t.counters ((145 * 65536 + p * 256 + 7 * 8) / 8) =
          (Tab.get 0 s.counters ((145 * 65536 + p * 256 + 7 * 8) / 8) + 1) % 2 ^ 64 ∧
        t.pipe = s.pipe ∧ t.tm = s.tm ∧ t.mem = s.mem ∧ t.regs = s.regs) ∧
    (∀ s : State, ∀ q r, s.pipe.learn = q :: r → ∀ u, u = { s with pipe := { s.pipe with learn := r } } →
      (∀ n, learnAct q u = .insert n → Completes .l2Learn s fun t => t.pipe.learn = r ∧ entValid (entry 1 n s) = false ∧
        Tab.get 0 t.pipe.tbl (entKey 1 n) = leNat (learntEntry q s) ∧ t.mem = s.mem ∧ t.tm = s.tm) ∧
      (∀ n, learnAct q u = .move n → Completes .l2Learn s fun t => t.pipe.learn = r ∧
        byteAt (entry 1 n t) 1 = q.egrMac % 256 ∧ fieldLE (entry 1 n t) 10 2 = q.leaf % 32768 ∧
        slice (entry 1 n t) 2 8 = slice (entry 1 n s) 2 8 ∧ t.mem = s.mem ∧ t.tm = s.tm) ∧
      (learnAct q u = .full → q.frame = [] → Completes .l2Learn s fun t => t.pipe = u.pipe ∧
        fget F.PL_L2_LEARN_FAIL_COUNT 0 t = (fget F.PL_L2_LEARN_FAIL_COUNT 0 s + 1) % 2 ^ F.PL_L2_LEARN_FAIL_COUNT.w ∧
        KeepsFields [F.PL_L2_LEARN_FAIL_COUNT.key 0] s t)) ∧
    (∀ s : State, Completes .l2Sweep s fun t => t.mem = s.mem ∧ t.tm = s.tm ∧
      (∀ i, i < 16 → bankLocked (16 + i) s = true → Tab.get false t.pipe.sweepOwed (16 + i) = true) ∧
      (∀ i n, i < 16 → bankLocked (16 + i) s = true → n / 16384 = i → entry 1 n t = entry 1 n s) ∧
      (∀ i n, i < 16 → bankLocked (16 + i) s = false → n ∈ l2InBank (16 + i) s → entValid (entry 1 n s) = true →
        bit (byteAt (entry 1 n s) 0) 2 = false → Tab.get false t.pipe.hits (entKey 1 n) = false ∧
        entValid (entry 1 n t) = (Tab.get false s.pipe.hits (entKey 1 n) || !bit (byteAt (entry 1 n s) 0) 3) ∧
        (entValid (entry 1 n t) = true → bit (byteAt (entry 1 n t) 0) 3 = !Tab.get false s.pipe.hits (entKey 1 n)))) ∧
    (∀ (p : Port) (s : State) (c : Copy), Tab.find? s.ports.wire p = some c → c.cutThrough = true →
      Completes (.cutThroughTail p) s fun t =>
        Tab.find? t.ports.wire p = some { c with cutThrough := false, cells := cellsOf c.len } ∧
        leafDepth c.leaf t = (leafDepth c.leaf s - (c.cells - cellsOf c.len)) % 2 ^ F.TM_LEAF_DEPTH_CELLS.w ∧
        (c.bad = true → fget F.TM_CT_STOMP_TX_COUNT c.egr t =
          (fget F.TM_CT_STOMP_TX_COUNT c.egr s + 1) % 2 ^ F.TM_CT_STOMP_TX_COUNT.w) ∧ t.mem = s.mem ∧ t.out = s.out)

/-- For a link whose lanes the image uses, in OPERATE. ENABLE 1 enables it, or is kept pending while it drains. ENABLE
0 starts its drain. Flit lock of an enabled link gives every VC 1,024 credits, queues the device's HELLO and starts
the sequence afresh. A control block, or the 64th flit in a row that fails its CRC, loses the lock. A peer that is up
and lost sends PEER_UP to 0, waits to be restored, and raises the Hasp source of its link with DETAIL 2. A link that
has been locked for 1 ms with a good HELLO, while no packet for its peer waits on another link, is restored. The end
of a drain clears DRAINING and the lock and discards what the link held, 50 us after its start where flits are not
acknowledged. (R116, R121, R122, R124, R126, R128.) -/
def Obligations.FaushLinksComeAndGo : Prop :=
  (∀ (fn : Fn) (l : Link) (w : Word) (s : State), Reaches fn .FL_CTRL l s → flCan l s = true →
      (Completes (.flEnable fn l w) s fun t => flag F.FL_CTRL_ENABLE l t = true ∧
        (flag F.FL_STATUS_DRAINING l s = true → flag F.FL_STATUS_ENABLE_PENDING l t = true) ∧ t.mem = s.mem ∧ t.tm = s.tm) ∧
      (Completes (.flDisable fn l w) s fun t => flag F.FL_CTRL_ENABLE l t = false ∧
        (flag F.FL_CTRL_ENABLE l s = true → flag F.FL_STATUS_DRAINING l s = false → flag F.FL_STATUS_DRAINING l t = true) ∧
        t.mem = s.mem)) ∧
    (∀ (l : Link) (s : State), flag F.FL_CTRL_ENABLE l s = true → flag F.FL_STATUS_DRAINING l s = false →
      flag F.FL_STATUS_FLIT_LOCK l s = false → Completes (.flitLock l) s fun t => flag F.FL_STATUS_FLIT_LOCK l t = true ∧
        flag F.FL_STATUS_PEER_UP l t = false ∧ (∀ v, v < 8 → Tab.get 0 (flOf l t).credit v = 1024) ∧
        (flOf l t).control = [ownHello s] ∧ (flOf l t).replay = [] ∧ (flOf l t).txSeq = 0 ∧ (flOf l t).rxSeq = 0 ∧
        (flOf l t).lockAt = s.time.cclk ∧ t.mem = s.mem) ∧
    (∀ (l : Link) (x : LockLoss) (s : State), (x = .controlBlock ∨ 64 ≤ (flOf l s).crcFails) →
      Completes (.flitLockLoss l x) s fun t => flag F.FL_STATUS_FLIT_LOCK l t = false ∧
        OnlyFields [F.FL_STATUS_FLIT_LOCK.key l] s t) ∧
    (∀ (l : Link) (s : State), flag F.FL_CTRL_ENABLE l s = true → flag F.FL_STATUS_PEER_UP l s = true → ∀ u,
      u = flMod l (fun k => { k with restoring := true }) (flDown l (linkRequeue l (flReplayEnd l
        (setFlag F.FL_STATUS_PEER_UP l false (setEvent F.FL_STATUS_PEER_LOST_EVT l (100 + l)
          (if flitsStopped l s then s else reachCclk ((flOf l s).goodAt + 3200) s)))))) →
      Completes (.peerLost l) s fun t => t = haspRise (42 + l) 2 (linkStateChanged u) ∧ flag F.FL_STATUS_PEER_UP l u = false ∧
        flag F.FL_STATUS_FLIT_LOCK l u = false ∧ (flOf l u).restoring = true ∧ (flOf l u).queues = [] ∧ u.mem = s.mem) ∧
    (∀ (l : Link) (s : State), flag F.FL_STATUS_FLIT_LOCK l s = true → (flOf l s).helloOk = true → (flOf l s).restoring = true →
      detourWaits l (meshPeer (selfDev s) l) s = false →
      Completes (.linkRestore l) s fun t => flag F.FL_STATUS_PEER_UP l t = true ∧ (flOf l t).restoring = false ∧
        (flOf l s).lockAt + 1600000 ≤ t.time.cclk ∧ t.mem = s.mem) ∧
    (∀ (l : Link) (s : State), flag F.FL_STATUS_DRAINING l s = true → Completes (.flDrainEnd l) s fun t =>
      flag F.FL_STATUS_DRAINING l t = false ∧ flag F.FL_STATUS_FLIT_LOCK l t = false ∧ flag F.FL_STATUS_PEER_UP l t = false ∧
      (flOf l t).queues = [] ∧ (flOf l t).replay = [] ∧
      ((flOf l s).replay ≠ [] → (flOf l s).drainAt + 80000 ≤ t.time.cclk) ∧ t.mem = s.mem)

/-- On a locked link a flit that fails its CRC asks for one NAK, changes nothing else of the receiver, and as the 64th
in a row loses the lock. A good flit with the SEQ expected next and type IDLE returns its credit. A HELLO that fits,
when nothing is being restored, brings the peer up; one that does not fit sets HELLO_MISMATCH and keeps the peer down.
A later LINK_STATE of another device is taken. A TIME_SYNC of the tick master is taken. A locked link sends one flit:
a replay first, then a control message. The running tick master of an enabled domain 0 sends TIME_SYNC with its next
edge on every live link. (R116, R117, R118, R121, R122, R123, R132.) -/
def Obligations.FaushMessages : Prop :=
  (∀ (l : Link) (f : Bytes) (s : State), flag F.FL_STATUS_FLIT_LOCK l s = true → fieldLE f 508 4 ≠ crc32 (f.take 508) →
      Completes (.flitReceive l f) s fun t => (flOf l t).nak = true ∧ (flOf l t).discarding = true ∧
        (flOf l t).crcFails = (flOf l s).crcFails + 1 ∧ (flOf l t).rxSeq = (flOf l s).rxSeq ∧ t.pipe = s.pipe ∧ t.tm = s.tm ∧
        flag F.FL_STATUS_FLIT_LOCK l t = decide ((flOf l s).crcFails < 63) ∧ KeepsFields [F.FL_STATUS_FLIT_LOCK.key l] s t ∧
        t.mem = s.mem) ∧
    (∀ (l : Link) (f : Bytes) (s : State), flag F.FL_STATUS_FLIT_LOCK l s = true → fieldLE f 508 4 = crc32 (f.take 508) →
      fieldLE f 0 2 = (flOf l s).rxSeq → (flOf l s).rxSeq < 4096 → fieldLE f 2 2 = 0 → Completes (.flitReceive l f) s fun t =>
        Tab.get 0 (flOf l t).credit (fieldLE f 4 2 % 8) = Tab.get 0 (flOf l s).credit (fieldLE f 4 2 % 8) + fieldLE f 4 2 / 8 ∧
        (flOf l t).crcFails = 0 ∧ (flOf l t).rxSeq = (flOf l s).rxSeq ∧ t.regs = s.regs ∧ t.pipe = s.pipe ∧ t.mem = s.mem) ∧
    (∀ (l : Link) (b : Bytes) (s : State), flag F.FL_STATUS_FLIT_LOCK l s = true →
      (helloBad l b s = false → (flOf l s).restoring = false → Completes (.hello l b) s fun t =>
        flag F.FL_STATUS_PEER_UP l t = true ∧ (flOf l t).helloOk = true ∧
        fget F.FL_STATUS_PEER_INDEX l t = byteAt b 0 % 2 ^ F.FL_STATUS_PEER_INDEX.w ∧ t.mem = s.mem) ∧
      (∀ u, u = setFlag F.FL_STATUS_PEER_UP l false (setEvent F.FL_STATUS_HELLO_MISMATCH l (100 + l)
          (flMod l (fun k => { k with helloOk := false }) (fset F.FL_STATUS_PEER_INDEX l (byteAt b 0) s))) →
        helloBad l b s = true → Completes (.hello l b) s fun t => t = linkStateChanged (haspRise (42 + l) 1 u) ∧
          flag F.FL_STATUS_PEER_UP l u = false ∧ flag F.FL_STATUS_HELLO_MISMATCH l u = true ∧ (flOf l u).helloOk = false)) ∧
    (∀ (l : Link) (b : Bytes) (s : State) (o : Nat), flag F.FL_STATUS_FLIT_LOCK l s = true → byteAt b 0 % 4 ≠ selfDev s →
      Tab.find? s.mesh.stateSeq (byteAt b 0 % 4) = some o → fieldLE b 4 4 ≠ o → atOrAfter32 (fieldLE b 4 4) o = true →
      Completes (.linkState l b) s fun t => Tab.find? t.mesh.stateSeq (byteAt b 0 % 4) = some (fieldLE b 4 4) ∧
        Tab.get 0 t.mesh.upMask (byteAt b 0 % 4) = byteAt b 1 % 16 ∧ t.regs = s.regs ∧ t.mem = s.mem) ∧
    (∀ (l : Link) (b : Bytes) (s : State), flag F.FL_STATUS_FLIT_LOCK l s = true → flag F.SHK_STATUS_MASTER 0 s = false →
      (flOf l s).peerMaster = true → Completes (.timeSync l b) s fun t => t.time.nextSync = some (fieldLE b 0 6, fieldLE b 8 8) ∧
        t.regs = s.regs ∧ t.mem = s.mem ∧ t.mesh = s.mesh) ∧
    (∀ (l : Link) (s : State), flag F.FL_STATUS_FLIT_LOCK l s = true → Completes (.flitSend l) s fun t =>
      (∃ f r, t.out = .flit l f :: r) ∧ t.mem = s.mem ∧
      (∀ x r, (flOf l s).resend = x :: r → t.out = .flit l x.2 :: s.out ∧ (flOf l t).resend = r ∧
        fget F.FL_REPLAYS_COUNT l t = (fget F.FL_REPLAYS_COUNT l s + 1) % 2 ^ F.FL_REPLAYS_COUNT.w) ∧
      ((flOf l s).resend = [] → (flOf l s).replay.length < 2047 → ∀ m r, (flOf l s).control = m :: r →
        (flOf l t).control = r ∧ (flOf l t).txSeq = ((flOf l s).txSeq + 1) % 4096 ∧
        (flOf l t).replay.length = (flOf l s).replay.length + 1)) ∧
    (∀ s : State, flag F.SHK_STATUS_MASTER 0 s = true → running s = true → tdEnabled 0 s = true →
      Completes .timeSyncSend s fun t => (∀ l, l < 3 → linkLive l s = true → (flOf l t).control = (flOf l s).control ++
        [ctlMsg 3 (leBytes 8 (nsSec (tickTime s.cfg 0 (tickNext 0 s)) % 2 ^ 48) ++ leBytes 8 (tickNext 0 s))]) ∧
        t.regs = s.regs ∧ t.mem = s.mem)

/-- A follower that takes an edge of SHK_TICK counts it after the ones before when it missed none; the eighth in a row
locks it. Where the edge lies within 1 us of its index it steers TIME_INCR, within its range: down where its time is
ahead, up where it is behind, and by how much is a free value (log 59); beyond 1 us it steps. A follower that misses
three edges loses lock, sets TICK_LOST and raises Hasp source 11 with DETAIL 2. A device that does not itself drive a
low SHK_FAULT_N raises source 11 with its line high. (R103, R130, R132, R133.) -/
def Obligations.ShackleLines : Prop :=
  (∀ s : State, follower s = true → Completes .shkTickEdge s fun t =>
      (edgesMissed s = 0 → t.time.shkEdges = s.time.shkEdges + 1) ∧ (edgesMissed s ≠ 0 → t.time.shkEdges = 1) ∧
      (edgesMissed s = 0 → 7 ≤ s.time.shkEdges → flag F.SHK_STATUS_TICK_LOCK 0 t = true) ∧
      t.time.edgeAt = some s.time.cclk ∧ t.mem = s.mem) ∧
    (∀ s : State, follower s = true → s.time.nextSync = none → ∀ x, x = nowNs s - fget F.SHK_CTRL_DELAY_NS 0 s →
      ∀ d : Int, d = (x : Int) - (tickTime s.cfg 0 (edgeIdx x s) : Int) → ∀ i, i = fget F.TIME_INCR_INCR 0 s →
      Completes .shkTickEdge s fun t =>
        (d.natAbs ≤ 1000 → t.time.ptp = s.time.ptp ∧ (d = 0 → fget F.TIME_INCR_INCR 0 t = i) ∧
          (0x0FFBE76D ≤ i → 0 < d → fget F.TIME_INCR_INCR 0 t ≤ i ∧ 0x0FFBE76D ≤ fget F.TIME_INCR_INCR 0 t) ∧
          (i ≤ 0x10041893 → d < 0 → i ≤ fget F.TIME_INCR_INCR 0 t ∧ fget F.TIME_INCR_INCR 0 t ≤ 0x10041893)) ∧
        (1000 < d.natAbs → (t.time.ptp : Int) = ((s.time.ptp : Int) - d * 2 ^ 28) % (ptpWrap : Int) ∧
          flag F.TIME_STATUS_STEPPED 0 t = true)) ∧
    (∀ s : State, follower s = true → ∀ u, u = (if s.time.edgeAt = none then s else reachCclk (s.time.edgeAt.getD 0 + td0Cclk 3 s.cfg) s) →
      exec .shkTickLost s = .next (haspRise 11 2 (setFlag F.SHK_STATUS_TICK_LOCK 0 false
        (setEvent F.SHK_STATUS_TICK_LOST 0 95 { u with time := { u.time with shkEdges := 0, edgeAt := none, nextSync := none } })))) ∧
    (∀ s : State, shkDrive s = false → haspCause 11 s = false → exec .shkFaultSeen s = .next (haspRise 11 1 (haspLevel 11 true
      { s with power := { s.power with shkFaultIn := true } })))

/-- OPEN answers the first failure of the checks of its image and then changes ESS_CMD.RESULT and DETAIL only. When
the checks pass and all contexts, the places of the class or the ring space are used up it answers NO_CONTEXT with
DETAIL 1, 2 or 3, counts, and sets its event. Else the context that ESS_CMD_CTX then names was FREE and is ACTIVE,
with its counters at 0 and the ring space taken. (R231, R232, R233, R243, R257.) -/
def Obligations.EssenceOpenChecks : Prop :=
  ∀ (fn : Fn) (w : Word) (s : State), Reaches fn .ESS_CMD 0 s → flag F.ESS_CMD_BUSY 0 s = false →
    (imgCheck none (essArg s) s ≠ 0 → Completes (.essOpen fn w) s fun t =>
      fget F.ESS_CMD_RESULT 0 t = imgCheck none (essArg s) s ∧ fget F.ESS_CMD_DETAIL 0 t = 0 ∧
      OnlyFields [F.ESS_CMD_RESULT.key 0, F.ESS_CMD_DETAIL.key 0] s t) ∧
    (∀ ec, essClass s.cfg (im (essArg s) 1 1) = some ec → imgCheck none (essArg s) s = 0 →
      ∀ l : List Nat, l = (s.ess.ctx.map (·.1)).filter (fun c => fState c s != 0) →
      ∀ n, n = (l.filter (fun c => fClass c s == im (essArg s) 1 1)).length →
      ∀ o, o = (List.range 65536).find? (fun c => fState c s == 0) →
      (o = none ∨ (ecMaxFlows ec ≠ 0 ∧ ecMaxFlows ec ≤ n) ∨ fget F.ESS_RING_FREE_KIB 0 s < ringKib ec s →
        Completes (.essOpen fn w) s fun t => fget F.ESS_CMD_RESULT 0 t = 4 ∧
          fget F.ESS_CMD_DETAIL 0 t = (if o = none then 1 else if ecMaxFlows ec ≠ 0 ∧ ecMaxFlows ec ≤ n then 2 else 3) ∧
          fget F.ESS_OPEN_REFUSED_COUNT 0 t = (fget F.ESS_OPEN_REFUSED_COUNT 0 s + 1) % 2 ^ F.ESS_OPEN_REFUSED_COUNT.w ∧
          flag F.ESS_EVENT_CTX_OVERFLOW 0 t = true ∧ t.ess = s.ess ∧ t.mem = s.mem) ∧
      (o ≠ none → ecMaxFlows ec = 0 ∨ n < ecMaxFlows ec → ringKib ec s ≤ fget F.ESS_RING_FREE_KIB 0 s →
        Completes (.essOpen fn w) s fun t => fget F.ESS_CMD_RESULT 0 t = 0 ∧
          some (fget F.ESS_CMD_CTX_CTX 0 t) = o ∧ fState (fget F.ESS_CMD_CTX_CTX 0 t) t = 1 ∧
          fClass (fget F.ESS_CMD_CTX_CTX 0 t) t = im (essArg s) 1 1 ∧
          fget F.ESS_RING_FREE_KIB 0 t = fget F.ESS_RING_FREE_KIB 0 s - ringKib ec s ∧
          (∀ k, k < 16 → Tab.get 0 t.counters ((fget F.ESS_CMD_CTX_CTX 0 t * 128 + k * 8) / 8) = 0) ∧ t.mem = s.mem))

/-- CLOSE and ENABLE of a FREE context, ENABLE outside OPERATE (log 192), DISABLE and REKEY of one that is not ACTIVE,
and BIND of one that is not ACTIVE or is enabled answer BAD_STATE and change nothing else. READ returns the context
image in ESS_ARG. (R233, R255, R256.) -/
def Obligations.EssenceCommandsInWrongState : Prop :=
  ∀ (fn : Fn) (w : Word) (s : State), Reaches fn .ESS_CMD 0 s → flag F.ESS_CMD_BUSY 0 s = false →
    let c := fget F.ESS_CMD_CTX_CTX 0 s
    let bad := fun t : State => fget F.ESS_CMD_RESULT 0 t = 5 ∧ fget F.ESS_CMD_DETAIL 0 t = 0 ∧
      OnlyFields [F.ESS_CMD_RESULT.key 0, F.ESS_CMD_DETAIL.key 0] s t
    (fState c s = 0 → Completes (.essClose fn w) s bad) ∧
    (fState c s = 0 ∨ s.mode ≠ .operate → Completes (.essEnable fn w) s bad) ∧
    (fState c s ≠ 1 → Completes (.essDisable fn w) s bad ∧ Completes (.essRekey fn w) s bad) ∧
    (fState c s ≠ 1 ∨ fEnabled c s = true → Completes (.essBind fn w) s bad) ∧
    (Completes (.essRead fn w) s fun t => fget F.ESS_CMD_RESULT 0 t = 0 ∧
      (∀ i, i < 64 → fget F.ESS_ARG_DATA i t = fieldLE (essImage c s) (4 * i) 4) ∧ t.mem = s.mem ∧ t.ess = s.ess)

/-- DISABLE of an ACTIVE context answers OK: the flow drains, is not enabled, and drops its pictures and packets, an
ingest flow its slots. CLOSE of an open context answers OK, drains an ACTIVE one and withdraws a pending ENABLE.
ENABLE in OPERATE starts an ACTIVE flow afresh, and is kept pending while it drains. REKEY of a flow without SRTP
stores the handle; with SRTP it answers AUTH_FAIL for an unusable key, and else keeps the old key for the overlap of
an ingest flow and the new one for the next picture of an egress flow. BIND answers its failed check and changes
nothing else, or binds the new fields and derives the key. The end of the drain makes the context ACTIVE, enabled when
an ENABLE waits, or FREE with its ring space returned. The old SRTP key of an ingest flow goes at its time. (R232,
R233, R243, R253, R254, R255, R256.) -/
def Obligations.EssenceCommandsTakeEffect : Prop :=
  (∀ (fn : Fn) (w : Word) (s : State), Reaches fn .ESS_CMD 0 s → flag F.ESS_CMD_BUSY 0 s = false → ∀ c, c = fget F.ESS_CMD_CTX_CTX 0 s →
      (fState c s = 1 → ∀ u, u = essOff c s → exec (.essDisable fn w) s = .next (essResult 0 0 (slotsMoved c u)) ∧
        fState c u = 2 ∧ fEnabled c u = false ∧ (fFlow c u).pics = [] ∧ (fFlow c u).packets = [] ∧
        (fIngest c s = true → u.ess.slots.all (fun x => x.1 / 4096 != fWin c s) = true) ∧ u.mem = s.mem) ∧
      (fState c s ≠ 0 → ∀ u, u = essShut c s → exec (.essClose fn w) s = .next (essResult 0 0 (slotsMoved c u)) ∧
        (fFlow c u).closing = true ∧ fPending c u = false ∧ (fState c s = 1 → fState c u = 2 ∧ fEnabled c u = false) ∧ u.mem = s.mem) ∧
      (fState c s = 1 → s.mode = .operate → ∀ u, u = essEnableDo c s →
        exec (.essEnable fn w) s = .next (essResult 0 0 (slotsMoved c u)) ∧ fState c u = 1 ∧ fEnabled c u = true ∧ fPending c u = false ∧
        (fFlow c u).top = none ∧ (fFlow c u).seen = [] ∧ (fFlow c u).pics = [] ∧ (fFlow c u).waitNew = fIngest c s ∧
        (fIngest c s = false → Tab.get false s.time.tickSeen (ecTd (fEc c s)) = true →
          (fFlow c u).startTick = tickIdx (ecTd (fEc c s)) s + 1) ∧ u.mem = s.mem ∧ u.regs = s.regs) ∧
      (fState c s = 2 → s.mode = .operate → Completes (.essEnable fn w) s fun t => fget F.ESS_CMD_RESULT 0 t = 0 ∧
        fState c t = 2 ∧ fPending c t = true ∧ t = { s with regs := t.regs, ess := t.ess } ∧ t.ess.flow = s.ess.flow) ∧
      (fState c s = 1 → ∀ k, k = fieldLE (essArg s) 0x38 4 →
        (ecSrtp (fEc c s) = true → keyUsable k useSrtp 0 s = false → Completes (.essRekey fn w) s fun t =>
          fget F.ESS_CMD_RESULT 0 t = 7 ∧ OnlyFields [F.ESS_CMD_RESULT.key 0, F.ESS_CMD_DETAIL.key 0] s t) ∧
        (ecSrtp (fEc c s) = false ∨ keyUsable k useSrtp 0 s = true → Completes (.essRekey fn w) s fun t =>
          fget F.ESS_CMD_RESULT 0 t = 0 ∧ fx c 0x38 4 t = k ∧
          (ecSrtp (fEc c s) = true → fIngest c s = true → srtpKey c 0 t = srtpSession k s ∧ srtpKey c 1 t = srtpKey c 0 s ∧
            (fFlow c t).oldKey = some (fx c 0x38 4 s, none)) ∧
          (ecSrtp (fEc c s) = true → fIngest c s = false → srtpKey c 0 t = srtpKey c 0 s ∧ srtpKey c 1 t = srtpSession k s ∧
            (fFlow c t).newKey = some k) ∧ t.mem = s.mem)) ∧
      (fState c s = 1 → fEnabled c s = false → ∀ a, a = essArg s →
        ∀ b, b = splice (splice (splice (splice (fitTo 256 (fctx c s)) 4 (slice a 4 5)) 0x28 (slice a 0x28 16)) 0x50 (slice a 0x50 4))
          0x60 (slice a 0x60 160) →
        (imgCheck (some c) b s ≠ 0 → Completes (.essBind fn w) s fun t => fget F.ESS_CMD_RESULT 0 t = imgCheck (some c) b s ∧
          OnlyFields [F.ESS_CMD_RESULT.key 0, F.ESS_CMD_DETAIL.key 0] s t) ∧
        (imgCheck (some c) b s = 0 → Completes (.essBind fn w) s fun t => fget F.ESS_CMD_RESULT 0 t = 0 ∧ fctx c t = b ∧
          (ecSrtp (fEc c s) = true → srtpKey c 0 t = srtpSession (fx c 0x38 4 s) s) ∧ t.ess.flow = s.ess.flow))) ∧
    (∀ (x : Ctx) (s : State), fState x s = 2 → (fFlow x s).closing = false →
      (fPending x s = false → Completes (.essDrainEnd x) s fun t => fState x t = 1 ∧ t = { s with ess := t.ess } ∧
        t.ess.flow = s.ess.flow ∧ t.ess.slots = s.ess.slots) ∧
      (fPending x s = true → Completes (.essDrainEnd x) s fun t => fState x t = 1 ∧ fEnabled x t = true ∧ fPending x t = false ∧
        (fFlow x t).top = none ∧ (fFlow x t).waitNew = fIngest x s ∧ t.regs = s.regs ∧ t.mem = s.mem)) ∧
    (∀ (x : Ctx) (s : State), fState x s = 2 → (fFlow x s).closing = true → Completes (.essDrainEnd x) s fun t => fState x t = 0 ∧
      fget F.ESS_RING_FREE_KIB 0 t = (fget F.ESS_RING_FREE_KIB 0 s + fx x 0x1C 4 s) % 2 ^ F.ESS_RING_FREE_KIB.w ∧
      srtpKey x 0 t = [] ∧ srtpKey x 1 t = [] ∧ fFlow x t = EssFlow.init) ∧
    (∀ (x : Ctx) (s : State) (h at_ : Nat), (fFlow x s).oldKey = some (h, some at_) →
      ∀ u, u = reachPtp at_ s →
      (at_ ≤ nowNs u → Completes (.srtpOldKeyExpire x) s fun t => (fFlow x t).oldKey = none ∧ Tab.find? t.ess.srtp (65536 + x) = none ∧
        t.regs = s.regs ∧ t.mem = s.mem) ∧
      (nowNs u < at_ → exec (.srtpOldKeyExpire x) s = .next u))

/-- The oldest copy of a slice is taken off its attach queue. One whose context is FREE or is no ingest counts in
ESS_CTX_OVERFLOW and sets its event; when an exact-match entry sent it, its frame then goes on by the default action.
One of an ingest context counts for its leg: it is discarded and counted while the flow is not enabled, when the frame
is bad, or when it holds no RTP packet. In an enabled flow without SRTP that does not wait for a picture, a packet in
order counts as late when its value lies far behind, counts as a duplicate when its value has been seen, and else is
stored when it is not late by its lines. (R229, R230, R235, R236, R245, R246, R257.) -/
def Obligations.EssenceCopies : Prop :=
  ∀ (x : Fin 8) (s : State) (e : EssCopy) (r : List EssCopy), Tab.get [] s.pipe.attach x = e :: r →
    ∀ u, u = { s with pipe := { s.pipe with attach := Tab.set [] s.pipe.attach x r } } →
    (fState e.ctx s = 0 ∨ fIngest e.ctx s = false → e.byEm = false → Completes (.essenceCopy x) s fun t =>
      fget F.ESS_CTX_OVERFLOW_COUNT 0 t = (fget F.ESS_CTX_OVERFLOW_COUNT 0 s + 1) % 2 ^ F.ESS_CTX_OVERFLOW_COUNT.w ∧
      flag F.ESS_EVENT_CTX_OVERFLOW 0 t = true ∧ t.pipe.attach = u.pipe.attach ∧ t.mem = s.mem ∧ t.ess = s.ess) ∧
    (fState e.ctx s = 0 ∨ fIngest e.ctx s = false → e.byEm = true →
      ∀ v, v = setEvent F.ESS_EVENT_CTX_OVERFLOW 0 88 (bump F.ESS_CTX_OVERFLOW_COUNT 0 u) →
      exec (.essenceCopy x) s = .next (copyGone e.frame false (actDefault e.head (parseFrame v.cfg e.bytes)
        (fget F.PL_PORT_CFG0_DEFAULT_VRF e.ingMac v) e.l2 e.vlan none false v))) ∧
    (fState e.ctx s ≠ 0 → fIngest e.ctx s = true → e.ctx < 65536 → ∀ leg, leg = (if e.ingMac = fx e.ctx 0x0C 1 s ∧ e.srcDev = fx e.ctx 0x0B 1 s then 1 else 0) →
      (fState e.ctx s ≠ 1 ∨ fEnabled e.ctx s = false → Completes (.essenceCopy x) s fun t =>
        Tab.get 0 t.counters ((e.ctx * 128 + leg * 8) / 8) = (Tab.get 0 s.counters ((e.ctx * 128 + leg * 8) / 8) + 1) % 2 ^ 64 ∧
        Tab.get 0 t.counters ((e.ctx * 128 + 8 * 8) / 8) = (Tab.get 0 s.counters ((e.ctx * 128 + 8 * 8) / 8) + 1) % 2 ^ 64 ∧
        t.pipe.attach = u.pipe.attach ∧ t.ess = s.ess ∧ t.mem = s.mem) ∧
      (fState e.ctx s = 1 → fEnabled e.ctx s = true → e.bad = true → Completes (.essenceCopy x) s fun t =>
        Tab.get 0 t.counters ((e.ctx * 128 + leg * 8) / 8) = (Tab.get 0 s.counters ((e.ctx * 128 + leg * 8) / 8) + 1) % 2 ^ 64 ∧
        Tab.get 0 t.counters ((e.ctx * 128 + 7 * 8) / 8) = (Tab.get 0 s.counters ((e.ctx * 128 + 7 * 8) / 8) + 1) % 2 ^ 64 ∧
        t.pipe.attach = u.pipe.attach ∧ t.ess = s.ess ∧ t.mem = s.mem) ∧
      (fState e.ctx s = 1 → fEnabled e.ctx s = true → e.bad = false → rtpOf e.bytes = none → Completes (.essenceCopy x) s fun t =>
        Tab.get 0 t.counters ((e.ctx * 128 + 5 * 8) / 8) = (Tab.get 0 s.counters ((e.ctx * 128 + 5 * 8) / 8) + 1) % 2 ^ 64 ∧
        t.pipe.attach = u.pipe.attach ∧ t.ess = s.ess ∧ t.mem = s.mem) ∧
      (fState e.ctx s = 1 → fEnabled e.ctx s = true → e.bad = false → ∀ p, rtpOf e.bytes = some p → ecSrtp (fEc e.ctx s) = false →
        (hdrOk e.ctx p s = false → Completes (.essenceCopy x) s fun t =>
          Tab.get 0 t.counters ((e.ctx * 128 + 5 * 8) / 8) = (Tab.get 0 s.counters ((e.ctx * 128 + 5 * 8) / 8) + 1) % 2 ^ 64 ∧
          t.pipe.attach = u.pipe.attach ∧ t.ess = s.ess ∧ t.mem = s.mem) ∧
        (hdrOk e.ctx p s = true → (fFlow e.ctx s).waitNew = false → (fFlow e.ctx s).startTick ≤ tickOfTs (ecTd (fEc e.ctx s)) p.ts s →
          ∀ q, q = seqValue e.ctx p s → ∀ d, d = seqBehind (fFlow e.ctx s) q →
          (131072 ≤ d → d < 2 ^ 31 → Completes (.essenceCopy x) s fun t =>
            Tab.get 0 t.counters ((e.ctx * 128 + 3 * 8) / 8) = (Tab.get 0 s.counters ((e.ctx * 128 + 3 * 8) / 8) + 1) % 2 ^ 64 ∧
            t.pipe.attach = u.pipe.attach ∧ t.ess = s.ess ∧ t.mem = s.mem) ∧
          (d < 131072 → Tab.get false (fFlow e.ctx s).seen (q % 262144) = true → Completes (.essenceCopy x) s fun t =>
            Tab.get 0 t.counters ((e.ctx * 128 + 2 * 8) / 8) = (Tab.get 0 s.counters ((e.ctx * 128 + 2 * 8) / 8) + 1) % 2 ^ 64 ∧
            t.pipe.attach = u.pipe.attach ∧ t.ess = s.ess ∧ t.mem = s.mem) ∧
          ((2 ^ 31 ≤ d ∨ (d < 131072 ∧ Tab.get false (fFlow e.ctx s).seen (q % 262144) = false)) → ecFormat (fEc e.ctx s) = 0 →
            (∀ y ∈ (srdsOf p.payload).flatMap (srdLines (fGeo e.ctx s)), lineShut e.ctx (tickOfTs (ecTd (fEc e.ctx s)) p.ts s) y s = false) →
            exec (.essenceCopy x) s = .next (endCopy e.head.copy .essence
              (storePic e.ctx (tickOfTs (ecTd (fEc e.ctx s)) p.ts s) q p (fCnt e.ctx leg 1 u)))))))

/-- The merge deadline of an open line carries time to it and closes every open line up to it whose deadline has then
passed; for a coded flow it gives up the gap before the packets that wait. A picture whose tick k + 2 has been seen
closes every open line. The line that moves is a closed line whose slot is ready; without one nothing happens. A
reader that is done with a row lets it go, and the slot is free once none holds it. An egress flow whose row is in its
slot sends packet i of picture k at its time before the limit of the picture; without the row nothing happens. At that
limit the rest of the picture is abandoned and counted. A coded egress flow that is not enabled, or has no source,
sends nothing. (R236, R237, R242, R247, R248, R249, R251.) -/
def Obligations.EssenceLinesAndPackets : Prop :=
  (∀ (x : Ctx) (y : Nat) (s : State) (at_ : Nat), fState x s = 1 → fEnabled x s = true → fIngest x s = true →
      ecFormat (fEc x s) ≠ 0 → (fFlow x s).gapAt = some at_ → exec (.lineDeadline x y) s = .next (codedGiveUp x (reachCclk at_ s))) ∧
    (∀ (x : Ctx) (y : Nat) (s : State), fState x s = 1 → fEnabled x s = true → fIngest x s = true → ecFormat (fEc x s) = 0 →
      ∀ p, (fFlow x s).pics = [p] → ∀ d, (p.line y).deadline = some d → (p.line y).closed = false → ∀ u, u = reachCclk d s →
      ∀ ys, ys = (List.range (y + 1)).filter (fun z => !(p.line z).closed && (p.line z).deadline.any (fun d => decide (d ≤ u.time.cclk))) →
        y ∈ ys ∧ exec (.lineDeadline x y) s = .next (ys.foldl (fun s z => closeLine x p.tick z s) u)) ∧
    (∀ (x : Ctx) (s : State) (p : EssPic), (fFlow x s).pics.find? (fun p : EssPic => tickOver (ecTd (fEc x s)) p.tick s) = some p →
      exec (.pictureClose x) s = .next (((List.range (fGeo x s).h).filter (fun y => !(p.line y).closed)).foldl
        (fun s y => closeLine x p.tick y s) s)) ∧
    (∀ (x : Ctx) (s : State), nextMove x s = none → Completes (.lineToSlot x) s fun t => t = s) ∧
    (∀ (x : Ctx) (s : State) (m : Nat × Nat), nextMove x s = some m → exec (.lineToSlot x) s = .next (moveLine x m.1 m.2 s) ∧
      slotReady x m.1 ((fGeo x s).rowOf m.2) s = true ∧ (∃ p ∈ (fFlow x s).pics, p.tick = m.1 ∧
        ∃ l ∈ p.lines, l.1 = m.2 ∧ l.2.closed = true ∧ l.2.moved = false)) ∧
    (∀ (e : Eng) (w : Win) (n : Nat) (s : State) (x : SlotSt), slotOf (winIdx e w) n s = some x → x.given = true → x.readers ≠ [] →
      ∀ l, l = x.readers.filter (fun r => !(if r < 1024 then rowSpent r x.tick x.row s else decide (x.tick < egressTick (r - 1024) s))) →
      ∀ u, u = (x.readers.filter (fun r => !l.contains r)).foldl (fun s r => releaseSlot (winIdx e w) n r s) s →
      exec (.slotRelease e w n) s = .next (flushEngine (gangHead s.cfg e) u) ∧ u.regs = s.regs ∧ u.mem = s.mem ∧
        slotOf (winIdx e w) n u = if l.isEmpty then none else some { x with readers := l }) ∧
    (∀ (x : Ctx) (s : State), egressOn x 0 s = true → ∀ g, g = fGeo x s → ∀ k, k = egressTick x s → ∀ i, i = (fFlow x s).pkt →
      ∀ per, per = packPer x g s → ∀ y, y = i / max 1 per * (if g.smp = 1 then 2 else 1) → ∀ n, n = g.rowOf y % fSlots x s →
      ∀ due, due = tickTime s.cfg (ecTd (fEc x s)) k + fx x 0x18 4 s + trsAt x i s → ∀ u, u = reachPtp due s →
      (slotOf (fWin x s) n s = none → Completes (.egressPacketDue x) s fun t => t = s) ∧
      (∀ z, slotOf (fWin x s) n s = some z → z.given = true → z.tick = k → z.row = g.rowOf y → 0 < i → i + 1 < g.packLines * per →
        (nowNs u < due ∨ truncAt x k u ≤ nowNs u → exec (.egressPacketDue x) s = .next u) ∧
        (due ≤ nowNs u → nowNs u < truncAt x k u →
          (List.range g.h).any (fun z => decide ((i + 1) / max 1 per * (if g.smp = 1 then 2 else 1) ≤ z) && g.rowOf z == g.rowOf y) = true →
          exec (.egressPacketDue x) s = .next (fFlowMod x (fun f => { f with picTick := some k, pkt := i + 1 })
            (rtpSend x (media90 (ecTd (fEc x u)) k u % 2 ^ 32) false (fun q => packBody x n i q u) u))))) ∧
    (∀ (x : Ctx) (s : State), egressOn x 0 s = true → ∀ u, u = reachPtp (truncAt x (egressTick x s) s) s →
      (truncAt x (egressTick x s) u ≤ nowNs u → ∀ v, v = fFlowMod x (fun f => { f with picTick := some (egressTick x s + 1), pkt := 0 }) (fCnt x 15 1 u) →
        exec (.egressPicTrunc x) s = .next (slotsMoved x (egressDone x v)) ∧ egressTick x v = egressTick x s + 1 ∧
        Tab.get 0 v.counters ((x * 128 + 15 * 8) / 8) = (Tab.get 0 s.counters ((x * 128 + 15 * 8) / 8) + 1) % 2 ^ 64) ∧
      (nowNs u < truncAt x (egressTick x s) u → exec (.egressPicTrunc x) s = .next u)) ∧
    (∀ (x : Ctx) (s : State), egressOn x 0 s = false → (Completes (.egressPacketDue x) s fun t => t = s) ∧
      Completes (.egressPicTrunc x) s fun t => t = s) ∧
    (∀ (x : Ctx) (s : State), egressOn x 1 s = false ∨ codedSource x s = none → Completes (.codedPacketSend x) s fun t => t = s) ∧
    (∀ (x : Ctx) (s : State), egressOn x 1 s = true → exec (.codedPacketSend x) s = .next (codedPacket x s))

/-- CG_ALLOC in OPERATE reserves the lowest FREE context for the function, with an empty ring, while the function has
quota, and otherwise answers NO_CONTEXT and counts; outside OPERATE it answers BAD_STATE. A doorbell beyond its ring
sets BAD_DOORBELL and starts nothing; one within it sets the tail to fetch to. A fetch in D0 takes the next records,
at most 16, at most up to the tail and up to the end of the ring, and advances HEAD by them. (R263, R266, R443, R447.)
-/
def Obligations.StreamContextsAreAllocated : Prop :=
  (∀ (fn : Fn) (w : Word) (s : State), Reaches fn .CG_ALLOC 0 s →
      (s.mode ≠ .operate → Completes (.cgAlloc fn w) s fun t => (Tab.get (0, 0) t.coding.allocOf fn).1 = 5 ∧ t.regs = s.regs ∧
        t.coding.sc = s.coding.sc ∧ t.mem = s.mem) ∧
      (s.mode = .operate → ∀ o, o = (List.range 1024).find? (fun k => scState k s == 0) →
        ∀ full, full = (fn.val != 0 && decide (fget F.HIF_VF_QUOTA_SC_QUOTA (fn.val - 1) s ≤ (scsOf fn s).length)) →
        (∀ k, o = some k → full = false → Completes (.cgAlloc fn w) s fun t => Tab.get (0, 0) t.coding.allocOf fn = (0, k) ∧
          scState k s = 0 ∧ scState k t = 1 ∧ (strm k t).fn = fn ∧ (strm k t).queue = [] ∧ fget F.SC_HEAD_HEAD k t = 0 ∧
          fget F.SC_STAT_HEAD_HEAD k t = 0 ∧ (∀ j, j ≠ k → strm j t = strm j s ∧ scState j t = scState j s) ∧ t.mem = s.mem) ∧
        (o = none ∨ full = true → Completes (.cgAlloc fn w) s fun t => (Tab.get (0, 0) t.coding.allocOf fn).1 = 4 ∧
          fget F.CG_NO_CONTEXT_COUNT 0 t = (fget F.CG_NO_CONTEXT_COUNT 0 s + 1) % 2 ^ F.CG_NO_CONTEXT_COUNT.w ∧
          t.coding.sc = s.coding.sc ∧ KeepsFields [F.CG_NO_CONTEXT_COUNT.key 0] s t ∧ t.mem = s.mem))) ∧
    (∀ (fn : Fn) (k : Sc) (w : Word) (s : State), Reaches fn .SC_DOORBELL k s → scState k s ≠ 0 →
      (2 ^ fget F.SC_RING_CFG_LOG2_ENTRIES k s ≤ wfld F.SC_DOORBELL_TAIL w → Completes (.doorbell fn k w) s fun t =>
        flag F.SC_STATE_BAD_DOORBELL k t = true ∧ OnlyFields [F.SC_STATE_BAD_DOORBELL.key k] s t) ∧
      (wfld F.SC_DOORBELL_TAIL w < 2 ^ fget F.SC_RING_CFG_LOG2_ENTRIES k s → Completes (.doorbell fn k w) s fun t =>
        (strm k t).tail = (if wfld F.SC_DOORBELL_TAIL w = fget F.SC_HEAD_HEAD k s then none else some (wfld F.SC_DOORBELL_TAIL w)) ∧
        (strm k t).queue = (strm k s).queue ∧ t.regs = s.regs ∧ t.mem = s.mem)) ∧
    (∀ (k : Sc) (rs : List Bytes) (s : State), ∀ b, (strm k s).tail = some b → scState k s ≠ 0 → fnD0 (strm k s).fn s = true →
      ∀ size, size = 2 ^ fget F.SC_RING_CFG_LOG2_ENTRIES k s → ∀ a, a = fget F.SC_HEAD_HEAD k s →
      ∀ n, n = min rs.length (min (min 16 ((b + size - a) % size)) (size - a)) →
      exec (.commandFetch k rs) s = .next (purgeBad k (strmMod k (fun c => { c with
        queue := c.queue ++ (rs.take n).map (fitTo 64), tail := if (a + n) % size = b then none else some b })
        (fset F.SC_HEAD_HEAD k ((a + n) % size) s)))) ∧
    (∀ (k : Sc) (rs : List Bytes) (s : State), (strm k s).tail = none ∨ scState k s = 0 ∨ fnD0 (strm k s).fn s = false →
      Completes (.commandFetch k rs) s fun t => t = s)

/-- A command that is taken while the state or class of its context does not admit it ends with BAD_STATE and no other
effect. OPEN makes a RESERVED context READY with the class and record of the command, or fails and leaves its state.
ENABLE starts a READY context afresh, or is kept pending while it drains. DISABLE and CLOSE make a context DRAINING,
CLOSE with its record to come; CLOSE of a RESERVED context frees it. QUERY writes the descriptor to its address.
SET_PARAMS and SET_RC that fail change nothing; the record of an encoder then waits, that of a decoder is in force.
SET_POLICY with bad values answers BAD_ARG, else it sets the policies. NOP ends with OK; with room in the rings its
status record goes to the host at the head of the ring, which advances. (R265, R267, R268, R269, R270, R271, R294,
R295, R296, R314, R345, R369.) -/
def Obligations.StreamContextCommands : Prop :=
  ∀ (k : Sc) (r : Bytes) (s : State),
    (∀ x, takeCmd 0x01 k false s = some x → opAllowed 0x01 k x.2 = false → exec (.scOpen k r) s = .next (cmdEnd k x.1 5 x.2)) ∧
    (∀ x, takeCmd 0x03 k false s = some x → opAllowed 0x03 k x.2 = false → exec (.scEnable k) s = .next (cmdEnd k x.1 5 x.2)) ∧
    (∀ x, takeCmd 0x04 k true s = some x → opAllowed 0x04 k x.2 = false → exec (.scDisable k) s = .next (cmdEnd k x.1 5 x.2)) ∧
    (∀ x, takeCmd 0x06 k false s = some x → opAllowed 0x06 k x.2 = false → exec (.scSetParams k r) s = .next (cmdEnd k x.1 5 x.2)) ∧
    (∀ x, takeCmd 0x07 k false s = some x → opAllowed 0x07 k x.2 = false → exec (.scSetRc k r) s = .next (cmdEnd k x.1 5 x.2)) ∧
    (∀ x, takeCmd 0x08 k false s = some x → opAllowed 0x08 k x.2 = false → exec (.scSetPolicy k) s = .next (cmdEnd k x.1 5 x.2)) ∧
    (∀ x, takeCmd 0x10 k false s = some x → opAllowed 0x10 k x.2 = false → exec (.scEncodePicture k) s = .next (cmdEnd k x.1 5 x.2)) ∧
    (∀ x, takeCmd 0x11 k false s = some x → opAllowed 0x11 k x.2 = false → exec (.scDecodeAu k) s = .next (cmdEnd k x.1 5 x.2)) ∧
    (∀ x, takeCmd 0x12 k false s = some x → opAllowed 0x12 k x.2 = false → exec (.scFlush k) s = .next (cmdEnd k x.1 5 x.2)) ∧
    (∀ x, takeCmd 0x13 k true s = some x → opAllowed 0x13 k x.2 = false → exec (.scKeyPicture k) s = .next (cmdEnd k x.1 5 x.2)) ∧
    (∀ x, takeCmd 0x14 k false s = some x → opAllowed 0x14 k x.2 = false → exec (.scReleaseOutput k) s = .next (cmdEnd k x.1 5 x.2)) ∧
    (∀ x, takeCmd 0x15 k false s = some x → opAllowed 0x15 k x.2 = false → exec (.scRestart k) s = .next (cmdEnd k x.1 5 x.2)) ∧
    (∀ x, takeCmd 0x01 k false s = some x → scState k x.2 = 1 → ∀ v, v = scOpenRun r k x.1 x.2 →
      exec (.scOpen k r) s = .next (cmdEnd k x.1 v.1 v.2) ∧
      (v.1 = 0 → scState k v.2 = 2 ∧ (strm k v.2).kind = bits (cmdArg x.1 0) 7 0 ∧ (strm k v.2).codec = bits (cmdArg x.1 0) 15 8 ∧
        (strm k v.2).prio = bits (cmdArg x.1 0) 23 16 ∧ (strm k v.2).gop.params = fitTo 64 r ∧ (strm k v.2).fn = (strm k x.2).fn) ∧
      (v.1 ≠ 0 → v.2.regs = x.2.regs ∧ (strm k v.2).kind = (strm k x.2).kind ∧ (strm k v.2).gop = (strm k x.2).gop)) ∧
    (∀ x, takeCmd 0x02 k true s = some x → scState k x.2 = 1 → exec (.scClose k) s = .next (scFree k x.2) ∧ scState k (scFree k x.2) = 0) ∧
    (∀ x, takeCmd 0x02 k true s = some x → 2 ≤ scState k x.2 → ∀ u, u = scClose k x.1 x.2 →
      exec (.scClose k) s = .next (engKick (strm k x.2).engine (cmdEnd k x.1 0 u)) ∧ scState k u = 4 ∧
      flag F.SC_STATE_ENABLE_PENDING k u = false ∧ (strm k u).closing = some x.1) ∧
    (∀ x, takeCmd 0x03 k false s = some x → scState k x.2 = 2 → ∀ u, u = scEnableDo k x.2 →
      exec (.scEnable k) s = .next (cmdEnd k x.1 0 u) ∧ scState k u = 3 ∧ (strm k u).debt = 0 ∧ (strm k u).fastNext = false ∧
      ((strm k x.2).kind = 0 → (strm k u).gop = (strm k x.2).gop.restart) ∧
      ((strm k x.2).kind = 1 → (strm k u).waitIrap = true ∧ (strm k u).dpb = [])) ∧
    (∀ x, takeCmd 0x03 k false s = some x → scState k x.2 = 4 → ∀ u, u = setFlag F.SC_STATE_ENABLE_PENDING k true x.2 →
      exec (.scEnable k) s = .next (cmdEnd k x.1 0 u)) ∧
    (∀ x, takeCmd 0x04 k true s = some x → (scState k x.2 = 3 ∨ scState k x.2 = 5) → ∀ u, u = scDrain k x.2 →
      exec (.scDisable k) s = .next (cmdEnd k x.1 0 (engKick (strm k x.2).engine u)) ∧ scState k u = 4 ∧
      ((strm k u).kind = 1 → (strm k u).dpb = [])) ∧
    (∀ x, takeCmd 0x05 k false s = some x → 2 ≤ scState k x.2 → fnD0 (strm k x.2).fn x.2 = true → exec (.scQuery k) s =
      .next (cmdEnd k x.1 0 (emit (.hostWrite (strm k x.2).fn (cmdArg x.1 0) (scDescriptor k x.2)) x.2))) ∧
    (∀ x, takeCmd 0x06 k false s = some x → (scState k x.2 = 2 ∨ scState k x.2 = 3) → ∀ v, v = setParamsRun r k x.1 x.2 →
      exec (.scSetParams k r) s = .next (cmdEnd k x.1 v.1 v.2) ∧ (v.1 ≠ 0 → v.2 = x.2) ∧
      (v.1 = 0 → (strm k v.2).paramAddr = cmdArg x.1 0 ∧
        ((strm k x.2).kind = 0 → (strm k v.2).gop.pend = some ⟨fitTo 64 r, bit (cmdArg x.1 1) 0⟩ ∧
          (strm k v.2).gop.params = (strm k x.2).gop.params) ∧
        ((strm k x.2).kind ≠ 0 → (strm k v.2).gop.params = fitTo 64 r))) ∧
    (∀ x, takeCmd 0x07 k false s = some x → (strm k x.2).kind = 0 → (scState k x.2 = 2 ∨ scState k x.2 = 3) →
      ∀ v, v = setRcRun r k x.1 x.2 → exec (.scSetRc k r) s = .next (cmdEnd k x.1 v.1 v.2) ∧ (v.1 ≠ 0 → v.2 = x.2) ∧
      (v.1 = 0 → (strm k v.2).rc.pend.map (·.record) = some (fitTo 64 r) ∧ (strm k v.2).rc.record = (strm k x.2).rc.record)) ∧
    (∀ x, takeCmd 0x08 k false s = some x → (scState k x.2 = 2 ∨ scState k x.2 = 3 ∨ scState k x.2 = 5) →
      ∀ o, o = cmdArg x.1 0 % 256 → ∀ p, p = cmdArg x.1 0 / 256 % 256 →
      (1 < o ∨ 1 < p ∨ (p = 1 ∧ (strm k x.2).prio ≠ 0) → exec (.scSetPolicy k) s = .next (cmdEnd k x.1 6 x.2)) ∧
      (o ≤ 1 → p ≤ 1 → (p = 0 ∨ (strm k x.2).prio = 0) →
        exec (.scSetPolicy k) s = .next (cmdEnd k x.1 0 (strmMod k (fun c => { c with overrun := o, errPolicy := p }) x.2)))) ∧
    (∀ x, takeCmd 0x3F k false s = some x → 2 ≤ scState k x.2 →
      ∀ v, v = cmdStatus k x.1 { engine := (strm k x.2).engine, tStart := nowNs x.2 } x.2 → exec (.scNop k) s = .next (purgeBad k v) ∧
      (bit (byteAt x.1 1) 0 = true → v = strmMod k (fun c => { c with commands := c.commands + 1 }) x.2) ∧
      (bit (byteAt x.1 1) 0 = false → (strm k x.2).prio ≠ 0 → (strm k x.2).waits = [] → statRoom k x.2 = true →
        Out.hostWrite (strm k x.2).fn ((strm k x.2).statBase + 256 * fget F.SC_STAT_HEAD_HEAD k x.2)
          (splice (StatRec.bytes { opcode := byteAt x.1 0, tag := fieldLE x.1 4 4, engine := (strm k x.2).engine, tStart := nowNs x.2,
                                   tEnd := nowNs x.2 } k) 0x0B [BitVec.ofNat 8 (128 * b2n (strm k x.2).phase)]) ∈ v.out ∧
        fget F.SC_STAT_HEAD_HEAD k v = (fget F.SC_STAT_HEAD_HEAD k x.2 + 1) % 2 ^ (strm k x.2).statLog2 % 2 ^ F.SC_STAT_HEAD_HEAD.w))

/-- A picture whose planes are badly placed ends with BAD_ARG; one that the structure only holds ends at once, and any
other waits for its engine, as does an access unit of at most MAX_AU_BYTES. FLUSH of a decoder outputs every picture
and waits for an IRAP, that of an encoder that holds no picture ends at once, and else its pictures wait for the
engine. KEY_PICTURE asks for a key picture. RELEASE_OUTPUT of an address that is not held answers BAD_ARG; else the
address is held no longer. RESTART takes a stopped decoder back to ACTIVE. The end of a drain makes a context READY,
ACTIVE when an ENABLE waits, or FREE when it closes. A LIVE decoder without an access unit of a tick that is over
repeats its output. (R269, R294, R295, R296, R311, R316, R318, R372, R375, R388, R393.) -/
def Obligations.StreamWorkCommands : Prop :=
  ∀ (k : Sc) (s : State),
    (∀ x, takeCmd 0x10 k false s = some x → opAllowed 0x10 k x.2 = true → ∀ g, g = (strm k x.2).gop.feed (cmdArg x.1 4) x.1 x.2.time.cclk →
      (planesOk (nextParams (strm k x.2) g) x.1 = false → exec (.scEncodePicture k) s = .next (cmdEnd k x.1 6 x.2)) ∧
      (planesOk (nextParams (strm k x.2) g) x.1 = true → g.1 = [] →
        exec (.scEncodePicture k) s = .next (cmdEnd k x.1 0 (strmMod k (fun c => { c with gop := g.2 }) x.2))) ∧
      (planesOk (nextParams (strm k x.2) g) x.1 = true → g.1 ≠ [] →
        exec (.scEncodePicture k) s = .next (purgeAll (submit k x.1 { Work.blank with sc := k, kind := 1, cmd := x.1 } x.2)))) ∧
    (∀ x, takeCmd 0x11 k false s = some x → opAllowed 0x11 k x.2 = true → cmdArg x.1 1 % 2 ^ 32 ≤ pMaxAu (strm k x.2).gop.params →
      exec (.scDecodeAu k) s = .next (purgeAll (submit k x.1 { Work.blank with
        sc := k, kind := 2, cmd := x.1
        dec := { DecWork.blank with addr := cmdArg x.1 0, len := cmdArg x.1 1 % 2 ^ 32, damaged := bit (cmdArg x.1 1) 32,
                                    eos := bit (cmdArg x.1 1) 33, pts := cmdArg x.1 2 } } x.2))) ∧
    (∀ x, takeCmd 0x12 k false s = some x → opAllowed 0x12 k x.2 = true →
      ((strm k x.2).kind = 1 → exec (.scFlush k) s = .next (cmdEnd k x.1 0 (strmMod k (fun c => { c with waitIrap := true }) (dpbFlush k x.2)))) ∧
      ((strm k x.2).kind = 0 → (strm k x.2).gop.held = [] → exec (.scFlush k) s = .next (cmdEnd k x.1 0 x.2)) ∧
      ((strm k x.2).kind = 0 → (strm k x.2).gop.held ≠ [] →
        exec (.scFlush k) s = .next (purgeAll (submit k x.1 { Work.blank with sc := k, kind := 1, cmd := x.1 } x.2)))) ∧
    (∀ x, takeCmd 0x13 k true s = some x → opAllowed 0x13 k x.2 = true →
      ∀ u, u = strmMod k (fun c => { c with gop := c.gop.keyAsk x.2.time.cclk (morePictures k x.2) }) x.2 →
      exec (.scKeyPicture k) s = .next (cmdEnd k x.1 0 u) ∧ (strm k u).gop.keyReq = true) ∧
    (∀ x, takeCmd 0x14 k false s = some x → opAllowed 0x14 k x.2 = true →
      (cmdArg x.1 0 ∉ (strm k x.2).hostBufs → exec (.scReleaseOutput k) s = .next (cmdEnd k x.1 6 x.2)) ∧
      (cmdArg x.1 0 ∈ (strm k x.2).hostBufs → ∀ u, u = strmMod k (fun c => { c with hostBufs := c.hostBufs.filter (· != cmdArg x.1 0) }) x.2 →
        ((strm k x.2).dpb.all (fun p => p.buf != cmdArg x.1 0 + 1) = true →
          exec (.scReleaseOutput k) s = .next (cmdEnd k x.1 0 (poolPut (cmdArg x.1 0) u))) ∧
        ((strm k x.2).dpb.any (fun p => p.buf == cmdArg x.1 0 + 1) = true → exec (.scReleaseOutput k) s = .next (cmdEnd k x.1 0 u)))) ∧
    (∀ x, takeCmd 0x15 k false s = some x → opAllowed 0x15 k x.2 = true →
      ∀ u, u = setScState k 3 (strmMod k (fun c => { c with waitIrap := true }) (dpbDrop k (if bit (cmdArg x.1 0) 0 then dpbFlush k x.2 else x.2))) →
      exec (.scRestart k) s = .next (cmdEnd k x.1 0 u) ∧ scState k u = 3 ∧ (strm k u).waitIrap = true ∧ (strm k u).dpb = []) ∧
    (scState k s = 4 → (strm k s).closing = none → flag F.SC_STATE_ENABLE_PENDING k s = false →
      Completes (.scDrainEnd k) s fun t => scState k t = 2 ∧ OnlyFields [F.SC_STATE_STATE.key k] s t) ∧
    (scState k s = 4 → (strm k s).closing = none → flag F.SC_STATE_ENABLE_PENDING k s = true →
      Completes (.scDrainEnd k) s fun t => scState k t = 3 ∧ flag F.SC_STATE_ENABLE_PENDING k t = false ∧ (strm k t).debt = 0) ∧
    (∀ c, scState k s = 4 → (strm k s).closing = some c → (strm k s).waits = [] →
      Completes (.scDrainEnd k) s fun t => scState k t = 0 ∧ strm k t = Stream.init) ∧
    (∀ d, (strm k s).prio = 0 → (strm k s).kind = 1 → Tab.get false s.time.tickSeen (strm k s).td = true →
      (strm k s).doneTick = some d → d + 3 ≤ tickIdx (strm k s).td s → (d + 1) ∉ liveTicks k s → scState k s = 3 →
      exec (.decodeUnderrun k) s = .next (liveRepeat k { Work.blank with sc := k, kind := 2, tick := d + 1 } 0 4
        (some (faultAt 7 0 0)) s))

/-- A write to CE_CTRL that sets LIVE_EXCLUSIVE while FILE contexts are homed on the engine or it is not a LIVE
engine, and a CE_ENABLE of an engine that is OFF, answer CONFLICT on every member and leave it as it was. Outside
OPERATE an accepted write sets LIVE_EXCLUSIVE and the result only. CE_ENABLE in OPERATE sets ENABLE and enables an
engine that neither runs nor drains; one that drains is enabled at the end. CE_DISABLE clears ENABLE, starts the drain
of an engine that is enabled, and withdraws an enable that waits for a drain. The end of the drain clears DRAINING and
carries out an enable that waits. The engine then looks for work. (R261, R291, R292, R293, R298.) -/
def Obligations.EngineControl : Prop :=
  (∀ (fn : Fn) (e : Eng) (w : Word) (s : State), Reaches fn .CE_CTRL e s → ∀ h, h = gangHead s.cfg e →
      (flag F.CE_CTRL_LIVE_EXCLUSIVE h s = false → fileHomed h s = true ∨ ceUse s.cfg h ≠ 1 →
        Completes (.liveExclusive fn e w) s fun t => (∀ m ∈ gangOf s.cfg h, fget F.CE_CTRL_RESULT m t = 3) ∧
          OnlyFields ((gangOf s.cfg h).map (fun m => F.CE_CTRL_RESULT.key m)) s t) ∧
      (ceUse s.cfg h = 2 → Completes (.ceEnable fn e w) s fun t => (∀ m ∈ gangOf s.cfg h, fget F.CE_CTRL_RESULT m t = 3) ∧
          OnlyFields ((gangOf s.cfg h).map (fun m => F.CE_CTRL_RESULT.key m)) s t) ∧
      (s.mode ≠ .operate → (flag F.CE_CTRL_LIVE_EXCLUSIVE h s = true ∨ (fileHomed h s = false ∧ ceUse s.cfg h = 1)) →
        (wbit F.CE_CTRL_ENABLE w = false ∨ ceUse s.cfg h ≠ 2) → Completes (.liveExclusive fn e w) s fun t =>
          (∀ m ∈ gangOf s.cfg h, fget F.CE_CTRL_RESULT m t = 0 ∧ flag F.CE_CTRL_LIVE_EXCLUSIVE m t = true) ∧
          OnlyFields ((gangOf s.cfg h).map (fun m => F.CE_CTRL_RESULT.key m) ++
            (gangOf s.cfg h).map (fun m => F.CE_CTRL_LIVE_EXCLUSIVE.key m)) s t) ∧
      (s.mode = .operate → wbit F.CE_CTRL_LIVE_EXCLUSIVE w = false →
        ∀ u, u = gangFlag F.CE_CTRL_LIVE_EXCLUSIVE h false ((gangOf s.cfg h).foldl (fun s m => fset F.CE_CTRL_RESULT m 0 s) s) →
        (ceUse s.cfg h ≠ 2 → ∀ v, v = ceOn h u → exec (.ceEnable fn e w) s = .next (engKick h v) ∧
          (gangHead s.cfg h = h → ∀ m ∈ gangOf s.cfg h, fget F.CE_CTRL_RESULT m v = 0 ∧ flag F.CE_CTRL_ENABLE m v = true ∧
            (flag F.CE_STATUS_DRAINING h s = true → flag F.CE_STATUS_ENABLE_PENDING m v = true) ∧
            (flag F.CE_STATUS_DRAINING h s = false → flag F.CE_STATUS_ENABLED h s = false → flag F.CE_STATUS_ENABLED m v = true))) ∧
        (∀ v, v = ceOff h u → exec (.ceDisable fn e w) s = .next (engKick h v) ∧
          (gangHead s.cfg h = h → ∀ m ∈ gangOf s.cfg h, flag F.CE_CTRL_ENABLE m v = false ∧
            (flag F.CE_STATUS_DRAINING h s = true → flag F.CE_STATUS_ENABLE_PENDING m v = false) ∧
            (flag F.CE_STATUS_DRAINING h s = false → flag F.CE_STATUS_ENABLED h s = true →
              flag F.CE_STATUS_DRAINING m v = true ∧ flag F.CE_STATUS_ENABLED m v = false))))) ∧
    (∀ (e : Eng) (s : State), ∀ h, h = gangHead s.cfg e → flag F.CE_STATUS_DRAINING h s = true →
      (flag F.CE_STATUS_ENABLE_PENDING h s = false → Completes (.ceDrainEnd e) s fun t =>
        (∀ m ∈ gangOf s.cfg h, flag F.CE_STATUS_DRAINING m t = false) ∧
        OnlyFields ((gangOf s.cfg h).map (fun m => F.CE_STATUS_DRAINING.key m)) s t) ∧
      (flag F.CE_STATUS_ENABLE_PENDING h s = true →
        ∀ u, u = ceStart h (gangFlag F.CE_STATUS_ENABLE_PENDING h false (gangFlag F.CE_STATUS_DRAINING h false s)) →
        exec (.ceDrainEnd e) s = .next (engKick h u) ∧ (gangHead s.cfg h = h → ∀ m ∈ gangOf s.cfg h,
          flag F.CE_STATUS_DRAINING m u = false ∧ flag F.CE_STATUS_ENABLE_PENDING m u = false ∧ flag F.CE_STATUS_ENABLED m u = true)))

/-- A commit of a segment of a FILE command asks for its burst and takes the segment; one whose data is poisoned ends
the work and raises the Hasp source of its column, and one of a LIVE picture in time is taken the same way. A swap
loads the incoming context at its instant, asks for its burst, and starts its work. A correctable error counts a
restart on the engine and its context and raises the event of the engine; the third in a row ends the work and raises
the Hasp source of its column. A LIVE picture whose tick k + 2 has been seen and that is not yet late counts an
overrun; without work in progress and with the policy LATE no picture is dropped. (R23, R275, R284, R285, R289, R290,
R403.) -/
def Obligations.EngineWork : Prop :=
  (∀ (e : Eng) (r : SegResult) (s : State), ∀ h, h = gangHead s.cfg e → ∀ w, (engOf h s).work = some w →
      (w.cmd ≠ [] ∨ tickGone w.sc w.tick s = false) →
      (r.poisoned = false → segEmpty w r = false → ∀ u, u = engAsk h w.sc s →
        exec (.segmentCommit e r) s = .next (purgeAll (commitSeg h r u)) ∧ u.hbm.waiting.length = s.hbm.waiting.length + 1) ∧
      (r.poisoned = false → segEmpty w r = true → Completes (.segmentCommit e r) s fun t => t = s) ∧
      (r.poisoned = true → ∀ u, u = failWork h 0 s →
        exec (.segmentCommit e r) s = .next (purgeAll (engKick h (haspRise (21 + e.val / 8) e.val u))))) ∧
    (∀ (e : Eng) (r : SegResult) (s : State), (engOf (gangHead s.cfg e) s).work = none →
      (Completes (.segmentCommit e r) s fun t => t = s) ∧ (Completes (.engineRestart e .correctable) s fun t => t = s) ∧
      Completes (.engineRestart e .poisoned) s fun t => t = s) ∧
    (∀ (e : Eng) (s : State), ∀ h, h = gangHead s.cfg e → ∀ k, (engOf h s).swapTo = some k →
      ∀ u, u = engMod h (fun g => { g with swapTo := none, loaded := some k, saved := true }) (reachCclk (engOf h s).swapAt s) →
      exec (.swapComplete e) s = .next (engKick h (startWork h k (engAsk h k u))) ∧
      (engOf h s).swapAt ≤ u.time.cclk ∧ (engOf h u).swapTo = none ∧ (engOf h u).loaded = some k ∧ u.regs = s.regs) ∧
    (∀ (e : Eng) (s : State), (engOf (gangHead s.cfg e) s).swapTo = none → Completes (.swapComplete e) s fun t => t = s) ∧
    (∀ (e : Eng) (s : State), ∀ h, h = gangHead s.cfg e → ∀ w, (engOf h s).work = some w →
      (exec (.engineRestart e .poisoned) s = .next (engKick h (haspRise (21 + e.val / 8) e.val (failWork h 0 s)))) ∧
      ((engOf h s).failRun + 1 ≠ 3 → Completes (.engineRestart e .correctable) s fun t =>
        fget F.CE_RESTARTS_COUNT e t = (fget F.CE_RESTARTS_COUNT e s + 1) % 2 ^ F.CE_RESTARTS_COUNT.w ∧
        (engOf h t).failRun = (engOf h s).failRun + 1 ∧ (strm w.sc t).restarts = (strm w.sc s).restarts + 1 ∧
        (engOf h t).work.map (fun x => x.restarts) = some (w.restarts + 1) ∧ pendOf (112 + e.val) t = true ∧ t.mem = s.mem) ∧
      ((engOf h s).failRun = 2 → ∀ v : Work, v = { w with restarts := w.restarts + 1 } →
        ∀ u, u = strmMod w.sc (fun c => { c with restarts := c.restarts + 1 }) (routineWord h 2 w.segments v
          (setWork h (some v) (pendSet (112 + e.val) (bump F.CE_RESTARTS_COUNT e.val s)))) →
        exec (.engineRestart e .correctable) s = .next (engKick h (haspRise (21 + e.val / 8) e.val (failWork h 3 u))) ∧
        fget F.CE_RESTARTS_COUNT e u = (fget F.CE_RESTARTS_COUNT e s + 1) % 2 ^ F.CE_RESTARTS_COUNT.w ∧
        (strm w.sc u).restarts = (strm w.sc s).restarts + 1 ∧ pendOf (112 + e.val) u = true ∧ u.mem = s.mem)) ∧
    (∀ (k : Sc) (s : State), (strm k s).prio = 0 → scState k s = 3 → ∀ n, (liveTicks k s).head? = some n →
      (tickGone k n s = false → Completes (.liveOverrun k) s fun t => t = s) ∧
      (tickGone k n s = true → exec (.liveOverrun k) s = .next (overrun k n s)) ∧
      (tickGone k n s = true → workOf k s = none → (strm k s).overrun = 0 → Completes (.liveOverrun k) s fun t =>
        (strm k t).overruns = (strm k s).overruns + 1 ∧ (strm k t).drops = (strm k s).drops ∧
        fget F.CE_OVERRUNS_COUNT (strm k s).engine t =
          (fget F.CE_OVERRUNS_COUNT (strm k s).engine s + 1) % 2 ^ F.CE_OVERRUNS_COUNT.w ∧ t.mem = s.mem) ∧
      (tickGone k n s = true → ∀ w, workOf k s = some w → w.tick = n → w.late.isSome = true →
        Completes (.liveOverrun k) s fun t => t = s)) ∧
    (∀ (k : Sc) (s : State), (strm k s).prio ≠ 0 ∨ scState k s ≠ 3 ∨ liveTicks k s = [] → Completes (.liveOverrun k) s fun t => t = s)

/-- A POOL_REQ while a response is pending changes no register and no buffer. One of 0 bytes answers BAD_ARG and takes
no buffer; one beyond the quota of the function answers BUSY and takes none; one that the pools serve answers OK with
the pool and address of a buffer that holds the bytes, is allocated to the function, and is no longer free. A return
of an address outside every pool, of one that is no buffer, or of a buffer that the function does not own answers
BAD_ARG, counts in POOL_BAD_RET and leaves every buffer as it was; one whose state is poisoned raises Hasp source 17;
a good one answers OK and frees the buffer, which is the next that its pool hands out, zeroed when it was SEALED.
(R403, R411, R412, R414, R415, R416, R443.) -/
def Obligations.PoolRequestsAndReturns : Prop :=
  (∀ (fn : Fn) (w : Word) (s : State), Reaches fn .POOL_REQ fn s → ∀ n, n = wfld F.POOL_REQ_BYTES w →
      (flag F.POOL_RESP_PENDING fn s = true → Completes (.poolRequest fn w) s fun t => t.regs = s.regs ∧ t.mem = s.mem) ∧
      (flag F.POOL_RESP_PENDING fn s = false → n = 0 → Completes (.poolRequest fn w) s fun t =>
        fget F.POOL_RESP_RESULT fn t = 6 ∧ KeepsFields [F.POOL_RESP_RESULT.key fn] s t ∧ t.mem = s.mem) ∧
      (flag F.POOL_RESP_PENDING fn s = false → 0 < n → n ≤ 268435456 → poolsFor s.cfg n ≠ [] → quotaAllows fn (wouldTake n s) s = false →
        Completes (.poolRequest fn w) s fun t => fget F.POOL_RESP_RESULT fn t = 1 ∧ KeepsFields [F.POOL_RESP_RESULT.key fn] s t ∧ t.mem = s.mem) ∧
      (flag F.POOL_RESP_PENDING fn s = false → quotaAllows fn (wouldTake n s) s = true → ∀ x, x = poolAsk n fn false (hbmAsk 2 128 s) →
        x.1.result = 0 → Completes (.poolRequest fn w) s fun t =>
          fget F.POOL_RESP_RESULT fn t = 0 ∧ fget F.POOL_RESP_POOL fn t = x.1.pool ∧ fget F.POOL_PTR_LO_PTR fn t = x.1.addr % 2 ^ 32 ∧
          fget F.POOL_PTR_HI_PTR fn t = x.1.addr / 2 ^ 32 % 2 ^ F.POOL_PTR_HI_PTR.w ∧ n ≤ 2 ^ poolLog2 s.cfg x.1.pool ∧
          bufAllocated x.1.addr t = true ∧ bufSealed x.1.addr t = false ∧ bufOwner x.1.addr t = fn.val ∧
          0 < poolFree x.1.pool s ∧ poolFree x.1.pool t = poolFree x.1.pool s - 1 ∧ t.mem.cells = s.mem.cells)) ∧
    (∀ (fn : Fn) (w : Word) (s : State), Reaches fn .POOL_RET_HI fn s → ∀ a, a = w.toNat * 2 ^ 32 + fget F.POOL_RET_LO_PTR fn s →
      (poolOf s.cfg a = none ∨ (poolOf s.cfg a).any (fun p => decide ((a - poolBase s.cfg p) % 2 ^ poolLog2 s.cfg p ≠ 0) ||
          (!poisonedIn (bufStateAddr s.cfg a) 2 s && (!bufAllocated a s || bufOwner a s != fn.val))) = true →
        Completes (.poolReturn fn w) s fun t => fget F.POOL_RET_RESP_RESULT fn t = 6 ∧
          fget F.POOL_BAD_RET_COUNT fn t = (fget F.POOL_BAD_RET_COUNT fn s + 1) % 2 ^ F.POOL_BAD_RET_COUNT.w ∧
          flag F.MEM_STATUS_BAD_RETURN 0 t = true ∧ t.mem = s.mem) ∧
      (∀ p, poolOf s.cfg a = some p → (a - poolBase s.cfg p) % 2 ^ poolLog2 s.cfg p = 0 → poisonedIn (bufStateAddr s.cfg a) 2 s = true →
        exec (.poolReturn fn w) s = .next (fset F.POOL_RET_RESP_RESULT fn 5 (haspRise 17 0 (hbmAsk 2 128 s)))) ∧
      (∀ p, poolOf s.cfg a = some p → (a - poolBase s.cfg p) % 2 ^ poolLog2 s.cfg p = 0 → poisonedIn (bufStateAddr s.cfg a) 2 s = false →
        bufAllocated a s = true → bufOwner a s = fn.val → Completes (.poolReturn fn w) s fun t =>
          fget F.POOL_RET_RESP_RESULT fn t = 0 ∧ bufAllocated a t = false ∧ bufSealed a t = false ∧
          poolFree p t = (poolFree p s + 1) % 2 ^ F.POOL_FREE_COUNT.w ∧ Tab.get [] t.mem.returned p = a :: Tab.get [] s.mem.returned p ∧
          (bufSealed a s = false → t.mem.cells = s.mem.cells) ∧
          (bufSealed a s = true → ∀ k, k < 2 ^ poolLog2 s.cfg p → readByte (a + k) t = 0#8)))

/-- CE_WIN_CFG of a window that does not exist takes the written range and its writer, and of one that exists it keeps
its value. A write of both ALLOC and FREE answers BAD_ARG. An ALLOC or a FREE that fails its checks changes RESULT
only. An ALLOC that passes gives the window to its function, and a FREE that passes takes it back. (R405, R406.) -/
def Obligations.ScratchWindows : Prop :=
  ∀ (fn : Fn) (e : Eng) (v : Win) (w : Word) (s : State), let i := winIdx e v
    (Reaches fn .CE_WIN_CFG i s → winExists s i = false → Completes (.winCfgWrite fn e v w) s fun t =>
      fget F.CE_WIN_CFG_BASE_U i t = wfld F.CE_WIN_CFG_BASE_U w ∧ fget F.CE_WIN_CFG_SIZE_U i t = wfld F.CE_WIN_CFG_SIZE_U w ∧
      fget F.CE_WIN_CFG_WRITER i t = fn.val ∧
      OnlyFields [F.CE_WIN_CFG_BASE_U.key i, F.CE_WIN_CFG_SIZE_U.key i, F.CE_WIN_CFG_WRITER.key i] s t) ∧
    (Reaches fn .CE_WIN_CFG i s → winExists s i = true → exec (.winCfgWrite fn e v w) s = .next s) ∧
    (Reaches fn .CE_WIN_CTRL i s → wbit F.CE_WIN_CTRL_FREE w = true → Completes (.winAlloc fn e v w) s fun t =>
      fget F.CE_WIN_CTRL_RESULT i t = 6 ∧ OnlyFields [F.CE_WIN_CTRL_RESULT.key i] s t) ∧
    (Reaches fn .CE_WIN_CTRL i s → wbit F.CE_WIN_CTRL_ALLOC w = true → Completes (.winFree fn e v w) s fun t =>
      fget F.CE_WIN_CTRL_RESULT i t = 6 ∧ OnlyFields [F.CE_WIN_CTRL_RESULT.key i] s t) ∧
    (Reaches fn .CE_WIN_CTRL i s → wbit F.CE_WIN_CTRL_FREE w = false →
      (winAllocCheck fn i (wfld F.CE_WIN_CTRL_USE w) s ≠ 0 → Completes (.winAlloc fn e v w) s fun t =>
        fget F.CE_WIN_CTRL_RESULT i t = winAllocCheck fn i (wfld F.CE_WIN_CTRL_USE w) s ∧ OnlyFields [F.CE_WIN_CTRL_RESULT.key i] s t) ∧
      (winAllocCheck fn i (wfld F.CE_WIN_CTRL_USE w) s = 0 → Completes (.winAlloc fn e v w) s fun t =>
        fget F.CE_WIN_CTRL_RESULT i t = 0 ∧ flag F.CE_WIN_STATUS_ALLOCATED i t = true ∧ fget F.CE_WIN_STATUS_OWNER i t = fn.val ∧
        fget F.CE_WIN_CTRL_USE i t = wfld F.CE_WIN_CTRL_USE w ∧ t.mem.cells = s.mem.cells)) ∧
    (Reaches fn .CE_WIN_CTRL i s → wbit F.CE_WIN_CTRL_ALLOC w = false →
      (winFreeCheck fn i s ≠ 0 → Completes (.winFree fn e v w) s fun t => fget F.CE_WIN_CTRL_RESULT i t = winFreeCheck fn i s ∧
        OnlyFields [F.CE_WIN_CTRL_RESULT.key i] s t) ∧
      (winFreeCheck fn i s = 0 → Completes (.winFree fn e v w) s fun t => fget F.CE_WIN_CTRL_RESULT i t = 0 ∧
        flag F.CE_WIN_STATUS_ALLOCATED i t = false ∧ t.mem.cells = s.mem.cells))

/-- While the memories run, in every mode but OFF and STANDBY, a correctable HBM error counts and raises source 12, an
uncorrectable one counts, keeps its address, poisons its line and raises source 13; an SRAM error counts and raises
source 15 or 16. In BOOT the end of initialisation leaves every HBM byte 0. Promotion raises the first request that
waits when it has waited 20 us in its class, by one class and never into class A, and leaves the others; without such
a request nothing changes. A forced refresh keeps its bank busy for 304 cclk when class A requests to it are queued,
and else does nothing. A pass begins a period after the one before, the HBM scrub with a class D request. An activity
that overruns raises its source, and its next pass begins at once. In OFF and STANDBY the errors and the overrun come
about nowhere and change nothing. (R26, R27, R30, R31, R399, R401, R402, R587.) -/
def Obligations.MemoryErrorsAreCounted : Prop :=
  (∀ (a : Nat) (s : State), a < 72 * 2 ^ 30 → memoryRuns s = true →
      exec (.hbmCorrectableError a) s = .next (haspRise 12 (a / 256 % 2) (bump F.MEM_HBM_CE_COUNT 0 s))) ∧
    (∀ (a : Nat) (s : State), a < 72 * 2 ^ 30 → memoryRuns s = true →
      ∀ v, v = fset F.MEM_UE_ADDR_LO_ADDR 0 a (fset F.MEM_UE_ADDR_HI_ADDR 0 (a / 2 ^ 32) (bump F.MEM_HBM_UE_COUNT 0 s)) →
      ∀ u, u = setEvent F.MEM_STATUS_UE_SEEN 0 98 { v with mem := { v.mem with poison := Tab.put s.mem.poison (a / 64) true } } →
      exec (.hbmUncorrectableError a) s = .next (haspRise 13 (a / 256 % 2) u) ∧ poisonedAt a u = true ∧ flag F.MEM_STATUS_UE_SEEN 0 u = true ∧
      fget F.MEM_UE_ADDR_LO_ADDR 0 u = a % 2 ^ 32 ∧ fget F.MEM_UE_ADDR_HI_ADDR 0 u = a / 2 ^ 32 % 2 ^ F.MEM_UE_ADDR_HI_ADDR.w ∧
      fget F.MEM_HBM_UE_COUNT 0 u = (fget F.MEM_HBM_UE_COUNT 0 s + 1) % 2 ^ F.MEM_HBM_UE_COUNT.w ∧ u.mem.cells = s.mem.cells) ∧
    (∀ (x : Fin 5) (s : State), memoryRuns s = true →
      exec (.sramError x true) s = .next (haspRise 15 x (bump F.MEM_SRAM_CE_COUNT 0 s)) ∧
      exec (.sramError x false) s = .next (haspRise 16 x (bump F.MEM_SRAM_UE_COUNT 0 s))) ∧
    (∀ s : State, s.mode = .boot → Completes .hbmInitDone s fun t => flag F.MEM_STATUS_INIT_DONE 0 t = true ∧
      (∀ a, a < 72 * 2 ^ 30 → readByte a t = 0#8) ∧ (∀ a, 72 * 2 ^ 30 ≤ a → readByte a t = readByte a s) ∧
      KeepsFields [F.MEM_STATUS_INIT_DONE.key 0] s t) ∧
    (∀ (x : Fin 3) (s : State), Completes (.hbmPromotion x) s fun t => t = { s with hbm := t.hbm } ∧
      (∀ r l, s.hbm.waiting = r :: l → r.cls = x.val + 1 → r.raised = false → r.since + 32000 ≤ s.time.cclk →
        t.hbm.waiting = { r with cls := max 1 x.val, raised := true } :: l) ∧
      ((∀ r ∈ s.hbm.waiting, r.cls ≠ x.val + 1 ∨ r.raised = true ∨ s.time.cclk < r.since + 32000) → t = s)) ∧
    (∀ (b : Nat) (s : State),
      ((∃ r ∈ s.hbm.waiting, r.cls = 0 ∧ r.bank = b) → Completes (.hbmRefreshForced b) s fun t => t = { s with hbm := t.hbm } ∧
        Tab.get 0 t.hbm.refresh b = s.time.cclk + 304 ∧ t.hbm.waiting = s.hbm.waiting) ∧
      ((∀ r ∈ s.hbm.waiting, r.cls = 0 → r.bank ≠ b) → Completes (.hbmRefreshForced b) s fun t => t = s)) ∧
    (∀ s : State, s.mode ≠ .off →
      (Completes .sramPatrolScrub s fun t => Tab.find? t.hbm.pass 0 = some t.time.cclk ∧
        (∀ c, Tab.find? s.hbm.pass 0 = some c → c + 320000000 ≤ t.time.cclk) ∧ t.hbm.waiting = s.hbm.waiting ∧ t.regs = s.regs ∧ t.mem = s.mem) ∧
      (Completes .hbmPatrolScrub s fun t => Tab.find? t.hbm.pass 1 = some t.time.cclk ∧
        (∀ c, Tab.find? s.hbm.pass 1 = some c → c + 34560000000000 ≤ t.time.cclk) ∧
        t.hbm.waiting.dropLast = s.hbm.waiting ∧ t.hbm.waiting.getLast?.map (·.cls) = some 3 ∧ t.regs = s.regs ∧ t.mem = s.mem)) ∧
    (∀ (l : Fin 280) (s : State), s.mode ≠ .off → Completes (.serdesAdaptation l) s fun t =>
      Tab.find? t.hbm.pass (8 + l.val) = some t.time.cclk ∧ (∀ c, Tab.find? s.hbm.pass (8 + l.val) = some c → c + 16000000 ≤ t.time.cclk) ∧
      t.hbm.waiting = s.hbm.waiting ∧ t.regs = s.regs ∧ t.mem = s.mem) ∧
    (∀ (x : Fin 8) (s : State), memoryRuns s = true → exec (.backgroundOverrun x) s =
      .next (haspRise (45 + x.val) 0 { s with hbm := { s.hbm with pass := Tab.put s.hbm.pass x.val s.time.cclk } })) ∧
    (∀ (a : Nat) (u : Fin 5) (b : Bool) (x : Fin 8) (s : State), memoryRuns s = false →
      ∀ c ∈ [Instr.hbmCorrectableError a, .hbmUncorrectableError a, .sramError u b, .backgroundOverrun x], exec c s = .next s)

/-- A write of DC_CTRL that changes MODE of a channel whose ENABLE is set answers BAD_STATE and changes RESULT only.
ARM while the shadow is armed, or in the cclk of a hinge, answers BUSY, in ring mode CONFLICT, and on a channel whose
ENABLE is 0 BAD_STATE; each changes RESULT only. An accepted ARM that keeps ENABLE arms the shadow and leaves both
sets. RESUME clears HALTED. While the shadow is armed a write of it is discarded and sets LOCKED_WR, in ring mode it
answers CONFLICT; otherwise it lands. DC_SHD_STAMP says which, with the hinge count. (R422, R424, R426, R434, R436.)
-/
def Obligations.ChannelArming : Prop :=
  (∀ (fn : Fn) (c : Chan) (w : Word) (s : State), Reaches fn .DC_CTRL c s →
      (wbit F.DC_CTRL_MODE w ≠ flag F.DC_CTRL_MODE c s → flag F.DC_CTRL_ENABLE c s = true → ∀ x, x ∈ [Instr.dcArm fn c w, .dcResume fn c w,
          .dcEnable fn c w, .dcDisable fn c w] → Completes x s fun t => fget F.DC_CTRL_RESULT c t = 5 ∧ OnlyFields [F.DC_CTRL_RESULT.key c] s t) ∧
      (wbit F.DC_CTRL_MODE w = flag F.DC_CTRL_MODE c s →
        (flag F.DC_STATUS_SHADOW_ARMED c s = true ∨ (chan c s).hingedAt = some s.time.cclk → Completes (.dcArm fn c w) s fun t =>
          fget F.DC_CTRL_RESULT c t = 1 ∧ OnlyFields [F.DC_CTRL_RESULT.key c] s t) ∧
        (flag F.DC_STATUS_SHADOW_ARMED c s = false → (chan c s).hingedAt ≠ some s.time.cclk →
          (flag F.DC_CTRL_MODE c s = true → Completes (.dcArm fn c w) s fun t =>
            fget F.DC_CTRL_RESULT c t = 3 ∧ OnlyFields [F.DC_CTRL_RESULT.key c] s t) ∧
          (flag F.DC_CTRL_MODE c s = false → flag F.DC_CTRL_ENABLE c s = false → Completes (.dcArm fn c w) s fun t =>
            fget F.DC_CTRL_RESULT c t = 5 ∧ OnlyFields [F.DC_CTRL_RESULT.key c] s t) ∧
          (flag F.DC_CTRL_MODE c s = false → flag F.DC_CTRL_ENABLE c s = true → wbit F.DC_CTRL_ENABLE w = true → Completes (.dcArm fn c w) s fun t =>
            fget F.DC_CTRL_RESULT c t = 0 ∧ flag F.DC_STATUS_SHADOW_ARMED c t = true ∧ fget F.DC_CTRL_HINGE_TD c t = wfld F.DC_CTRL_HINGE_TD w ∧
            shdDesc c t = shdDesc c s ∧ actDesc c t = actDesc c s ∧ t.mem = s.mem)) ∧
        (wbit F.DC_CTRL_ARM w = false → wbit F.DC_CTRL_ENABLE w = true → flag F.DC_CTRL_ENABLE c s = true →
          Completes (.dcResume fn c w) s fun t => flag F.DC_STATUS_HALTED c t = false ∧ fget F.DC_CTRL_RESULT c t = 0 ∧
            actDesc c t = actDesc c s ∧ t.mem = s.mem))) ∧
    (∀ (fn : Fn) (c : Chan) (i : Fin 16) (w : Word) (s : State), Reaches fn .DC_SHD (16 * c.val + i.val) s →
      (flag F.DC_CTRL_MODE c s = true → Completes (.shadowWrite fn c i w) s fun t => fget F.DC_CTRL_RESULT c t = 3 ∧
        flag F.DC_SHD_STAMP_LANDED c t = false ∧ shdDesc c t = shdDesc c s ∧ t.mem = s.mem) ∧
      (flag F.DC_CTRL_MODE c s = false → flag F.DC_STATUS_SHADOW_ARMED c s = true → Completes (.shadowWrite fn c i w) s fun t =>
        flag F.DC_STATUS_LOCKED_WR c t = true ∧ flag F.DC_SHD_STAMP_LANDED c t = false ∧ shdDesc c t = shdDesc c s ∧ t.mem = s.mem) ∧
      (flag F.DC_CTRL_MODE c s = false → flag F.DC_STATUS_SHADOW_ARMED c s = false → Completes (.shadowWrite fn c i w) s fun t =>
        fget F.DC_SHD_DATA (16 * c.val + i.val) t = w.toNat ∧ flag F.DC_SHD_STAMP_LANDED c t = true ∧
        fget F.DC_SHD_STAMP_COUNT c t = fget F.DC_HINGE_CNT_COUNT c s % 2 ^ F.DC_SHD_STAMP_COUNT.w ∧
        KeepsFields [F.DC_SHD_DATA.key (16 * c.val + i.val), F.DC_SHD_STAMP_LANDED.key c, F.DC_SHD_STAMP_COUNT.key c] s t ∧ t.mem = s.mem))

/-- A hinge falls when its conditions hold and, with a tick domain named, the tick has been seen. It exchanges the two
sets, counts, disarms the shadow and makes the new active descriptor busy; one that fails its checks is ended with its
status. Otherwise nothing changes. (R420, R423, R425.) -/
def Obligations.HingesExchangeTheSets : Prop :=
  (∀ (c : Chan) (s : State), hingeReady c s = true → (dcTd c s = none ∨ (chan c s).tickSeen = true) →
      ∀ u, u = reachCclk (chan c s).hingeAt s →
      ∀ v, v = chanMod c (fun k => { k with done := false, tickSeen := false, bytes := 0, actIdx := k.shdIdx, shdIdx := k.actIdx,
                                            hingedAt := some u.time.cclk })
          (setFlag F.DC_STATUS_ACTIVE_BUSY c true (setFlag F.DC_STATUS_SHADOW_ARMED c false (bump F.DC_HINGE_CNT_COUNT c
            (setDesc F.DC_ACT_DATA c (shdDesc c u) (setDesc F.DC_SHD_DATA c (actDesc c u) u))))) →
      ∀ r, r = descCheck (dcOwner c s) (shdDesc c s) v →
      (r.1 = 0 → exec (.hinge c) s = .next v) ∧ (r.1 ≠ 0 → exec (.hinge c) s = .next (dmaRecord c r.1 r.2 v)) ∧
      actDesc c v = shdDesc c s ∧ shdDesc c v = actDesc c s ∧ flag F.DC_STATUS_ACTIVE_BUSY c v = true ∧
      flag F.DC_STATUS_SHADOW_ARMED c v = false ∧
      fget F.DC_HINGE_CNT_COUNT c v = (fget F.DC_HINGE_CNT_COUNT c s + 1) % 2 ^ F.DC_HINGE_CNT_COUNT.w ∧
      (chan c s).hingeAt ≤ v.time.cclk ∧ v.mem = s.mem) ∧
    (∀ (c : Chan) (s : State), hingeReady c s = false ∨ (dcTd c s ≠ none ∧ (chan c s).tickSeen = false) → Completes (.hinge c) s fun t => t = s)

/-- A moving descriptor with good data asks for its burst, writes all its bytes to their destination and gives its
record; one whose source is poisoned stops before the poisoned line, and one that fails after the bytes moved, with
BAD_STATE. A channel that moves nothing keeps its state. ENABLE in OPERATE starts a channel that does not drain, with
both sets empty, is kept pending while it drains, and the first one that is enabled reports the latency tolerance.
ENABLE 0 drains it and stops an active descriptor with BAD_STATE; the end of the drain clears DRAINING and carries out
an ENABLE that waits. A ring tail beyond its ring sets BAD_TAIL. A fetch arms the shadow with the next descriptor and
advances HEAD. A completion queue that is enabled starts at HEAD 0. (R419, R426, R427, R434, R435, R437, R439, R448.)
-/
def Obligations.ChannelsRunAndDrain : Prop :=
  (∀ (c : Chan) (h : Bytes) (s : State), dcMoving c s = true → ∀ d, d = actDesc c s →
      (poisonedLine d s = none → exec (.descriptorEnd c h) s = .next (dmaRecord c 0 0 (chanMod c (fun k => { k with bytes := dTotal d })
        (descWrite (dcOwner c s) d (descStream d h (dTotal d) (hbmAsk 1 (whoDma c) s)) (hbmAsk 1 (whoDma c) s))))) ∧
      (∀ i, poisonedLine d s = some i → exec (.descriptorEnd c h) s = .next (dcMove c h (i * dSrcLen d) 5 1 s)) ∧
      (∀ n, dFill d = false → dSrcSpace d ≠ 0 → exec (.dmaError c .poisoned h n) s = .next (dcMove c h (min n (dTotal d)) 5 1 s)) ∧
      (∀ n, dFill d = false → dSrcSpace d = 0 →
        exec (.dmaError c .poisoned h n) s = .next (dcMove c h (min n (dTotal d)) 5 1 (aerLog (dcOwner c s) 0 s))) ∧
      (∀ n, dFill d = false → dSrcSpace d = 0 →
        exec (.dmaError c .pcieError h n) s = .next (dcMove c h (min n (dTotal d)) 5 2 (aerLog (dcOwner c s) 1 s)))) ∧
    (∀ (c : Chan) (h : Bytes) (n : Nat) (x : DmaErr) (s : State), dcMoving c s = false → (Completes (.descriptorEnd c h) s fun t => t = s) ∧
      Completes (.dmaError c x h n) s fun t => t = s) ∧
    (∀ (fn : Fn) (c : Chan) (w : Word) (s : State), Reaches fn .DC_CTRL c s → wbit F.DC_CTRL_MODE w = flag F.DC_CTRL_MODE c s →
      wbit F.DC_CTRL_ARM w = false → wbit F.DC_CTRL_RESUME w = false →
      (s.mode = .operate → flag F.DC_CTRL_ENABLE c s = false → flag F.DC_STATUS_DRAINING c s = false →
        Completes (.dcEnable fn c w) s fun t => flag F.DC_CTRL_ENABLE c t = true ∧ flag F.DC_STATUS_ENABLED c t = true ∧
          flag F.DC_STATUS_ACTIVE_BUSY c t = false ∧ flag F.DC_STATUS_SHADOW_ARMED c t = false ∧ flag F.DC_STATUS_HALTED c t = false ∧
          (∀ i, i < 16 → fget F.DC_ACT_DATA (16 * c.val + i) t = 0 ∧ fget F.DC_SHD_DATA (16 * c.val + i) t = 0) ∧
          ((List.range 64).all (fun i => !flag F.DC_CTRL_ENABLE i s) = true → t.out = .ltr (some 40) :: s.out) ∧ t.mem = s.mem) ∧
      (s.mode = .operate → flag F.DC_CTRL_ENABLE c s = false → flag F.DC_STATUS_DRAINING c s = true →
        Completes (.dcEnable fn c w) s fun t => flag F.DC_CTRL_ENABLE c t = true ∧ flag F.DC_STATUS_ENABLE_PENDING c t = true ∧
          flag F.DC_STATUS_ENABLED c t = flag F.DC_STATUS_ENABLED c s ∧ t.mem = s.mem) ∧
      (s.mode ≠ .operate → Completes (.dcEnable fn c w) s fun t => flag F.DC_CTRL_ENABLE c t = flag F.DC_CTRL_ENABLE c s ∧
          flag F.DC_STATUS_ENABLED c t = flag F.DC_STATUS_ENABLED c s ∧ t.mem = s.mem) ∧
      (flag F.DC_CTRL_ENABLE c s = true → flag F.DC_STATUS_DRAINING c s = false → flag F.DC_STATUS_ACTIVE_BUSY c s = false →
        Completes (.dcDisable fn c w) s fun t => flag F.DC_CTRL_ENABLE c t = false ∧ flag F.DC_STATUS_DRAINING c t = true ∧
          flag F.DC_STATUS_ENABLED c t = false ∧ flag F.DC_STATUS_SHADOW_ARMED c t = false ∧ t.mem = s.mem) ∧
      (flag F.DC_CTRL_ENABLE c s = true → flag F.DC_STATUS_DRAINING c s = false → flag F.DC_STATUS_ACTIVE_BUSY c s = true →
        (chan c s).record = none → ∀ u, u = setFlag F.DC_STATUS_SHADOW_ARMED c false (setFlag F.DC_STATUS_DRAINING c true
          (setFlag F.DC_STATUS_ENABLED c false (dcEnable c false (setFlag F.DC_CTRL_MODE c (wbit F.DC_CTRL_MODE w)
            (setFlag F.DC_CTRL_HALT_ON_ERR c (wbit F.DC_CTRL_HALT_ON_ERR w) (fset F.DC_CTRL_HINGE_TD c (wfld F.DC_CTRL_HINGE_TD w) s)))))) →
        exec (.dcDisable fn c w) s = .next (fset F.DC_CTRL_RESULT c 0 (dmaRecord c 5 6 u)))) ∧
    (∀ (c : Chan) (s : State), flag F.DC_STATUS_DRAINING c s = true → Completes (.dcDrainEnd c) s fun t =>
      flag F.DC_STATUS_DRAINING c t = false ∧ (flag F.DC_STATUS_ENABLE_PENDING c s = true → flag F.DC_STATUS_ENABLED c t = true ∧
        flag F.DC_STATUS_ENABLE_PENDING c t = false) ∧
      (flag F.DC_STATUS_ENABLE_PENDING c s = false → OnlyFields [F.DC_STATUS_DRAINING.key c] s t) ∧ t.mem = s.mem) ∧
    (∀ (fn : Fn) (c : Chan) (w : Word) (s : State), Reaches fn .DC_RING_TAIL c s →
      (2 ^ fget F.DC_RING_CFG_LOG2_ENTRIES c s ≤ wfld F.DC_RING_TAIL_TAIL w → Completes (.dcRingTail fn c w) s fun t =>
        flag F.DC_STATUS_BAD_TAIL c t = true ∧ OnlyFields [F.DC_STATUS_BAD_TAIL.key c] s t) ∧
      (wfld F.DC_RING_TAIL_TAIL w < 2 ^ fget F.DC_RING_CFG_LOG2_ENTRIES c s → Completes (.dcRingTail fn c w) s fun t =>
        fget F.DC_RING_TAIL_TAIL c t = wfld F.DC_RING_TAIL_TAIL w ∧ (chan c t) = { chan c s with fetchHeld := false } ∧
        t = { s with regs := t.regs, dma := t.dma } ∧ KeepsFields [F.DC_RING_TAIL_TAIL.key c] s t)) ∧
    (∀ (c : Chan) (d : Bytes) (s : State),
      (flag F.DC_CTRL_MODE c s = true → flag F.DC_STATUS_ENABLED c s = true →
        flag F.DC_STATUS_SHADOW_ARMED c s = false → fget F.DC_RING_HEAD_HEAD c s ≠ fget F.DC_RING_TAIL_TAIL c s →
        (chan c s).fetchHeld = false → fnD0 (dcOwner c s) s = true → Completes (.descriptorFetch c d) s fun t =>
          flag F.DC_STATUS_SHADOW_ARMED c t = true ∧ shdDesc c t = shdDesc c (setDesc F.DC_SHD_DATA c d s) ∧ actDesc c t = actDesc c s ∧
          fget F.DC_RING_HEAD_HEAD c t = (fget F.DC_RING_HEAD_HEAD c s + 1) % 2 ^ fget F.DC_RING_CFG_LOG2_ENTRIES c s % 2 ^ F.DC_RING_HEAD_HEAD.w ∧
          (chan c t).shdIdx = fget F.DC_RING_HEAD_HEAD c s ∧ t.mem = s.mem) ∧
      (flag F.DC_CTRL_MODE c s = false ∨ flag F.DC_STATUS_ENABLED c s = false ∨ flag F.DC_STATUS_SHADOW_ARMED c s = true ∨
        (chan c s).fetchHeld = true ∨ fnD0 (dcOwner c s) s = false → Completes (.descriptorFetch c d) s fun t => t = s)) ∧
    (∀ (fn : Fn) (q : Cq) (w : Word) (s : State), Reaches fn .CQ_CFG q s → flag F.CQ_CFG_ENABLE q s = false →
      ∀ v, v = fset F.CQ_HEAD_HEAD q 0 (setFlag F.CQ_CFG_ENABLE q true (fset F.CQ_CFG_LOG2_ENTRIES q (clampN 4 16 (wfld F.CQ_CFG_LOG2_ENTRIES w)) s)) →
      exec (.cqEnable fn q w) s = .next (retryRecords { v with cqPhase := Tab.del s.cqPhase q }) ∧ cqOn q v = true ∧
      fget F.CQ_HEAD_HEAD q v = 0 ∧ fget F.CQ_CFG_LOG2_ENTRIES q v = max 4 (min 16 (wfld F.CQ_CFG_LOG2_ENTRIES w)) ∧ v.mem = s.mem)

/-- HIF_DC_OWNER and HIF_CQ_OWNER of a channel or queue that is enabled answer BAD_STATE and keep OWNER; of an idle
one they take the written owner. A write of PMCSR that configuration requests reach sets the D-state and PME_En, and a
return to D0 lets the records that wait try again. A Function Level Reset of a VF acts in the order of its steps on
the channels, queues, contexts, buffers and windows that it owns, and then on its groups, which are IDLE, and its
configuration: D0, MSI-X and Bus Master disabled. That of PF0 acts on every VF first. Clearing VF Enable resets the
VFs that it disables, and HIF_NUM_VFS reads 0. (R440, R444, R446, R447.) -/
def Obligations.FunctionsAndTheirReset : Prop :=
  (∀ (c : Chan) (w : Word) (s : State), Reaches 0 .HIF_DC_OWNER c s →
      (flag F.DC_STATUS_ENABLED c s = true ∨ flag F.DC_STATUS_DRAINING c s = true → Completes (.dcOwnerWrite 0 (.inl c) w) s fun t =>
        fget F.HIF_DC_OWNER_RESULT c t = 5 ∧ OnlyFields [F.HIF_DC_OWNER_RESULT.key c] s t) ∧
      (flag F.DC_STATUS_ENABLED c s = false → flag F.DC_STATUS_DRAINING c s = false → Completes (.dcOwnerWrite 0 (.inl c) w) s fun t =>
        fget F.HIF_DC_OWNER_RESULT c t = 0 ∧ dcOwner c t = wfld F.HIF_DC_OWNER_OWNER w ∧
        OnlyFields [F.HIF_DC_OWNER_RESULT.key c, F.HIF_DC_OWNER_OWNER.key c] s t)) ∧
    (∀ (q : Cq) (w : Word) (s : State), Reaches 0 .HIF_CQ_OWNER q s →
      (cqOn q s = true → Completes (.dcOwnerWrite 0 (.inr q) w) s fun t =>
        fget F.HIF_CQ_OWNER_RESULT q t = 5 ∧ OnlyFields [F.HIF_CQ_OWNER_RESULT.key q] s t) ∧
      (cqOn q s = false → Completes (.dcOwnerWrite 0 (.inr q) w) s fun t =>
        fget F.HIF_CQ_OWNER_RESULT q t = 0 ∧ fget F.HIF_CQ_OWNER_OWNER q t = wfld F.HIF_CQ_OWNER_OWNER w ∧
        OnlyFields [F.HIF_CQ_OWNER_RESULT.key q, F.HIF_CQ_OWNER_OWNER.key q] s t)) ∧
    (∀ (fn : Fn) (p : Bool) (s : State), cfgOpen fn s = true →
      (Completes (.dstateChange fn true p false) s fun t =>
        fget F.HIF_FUNC_PM_DSTATE fn t = 3 ∧ fnD0 fn t = false ∧ Tab.get false t.pcie.pmeEn fn = p ∧ t.mem = s.mem ∧
        KeepsFields [F.HIF_FUNC_PM_DSTATE.key fn] s t) ∧
      (Completes (.dstateChange fn true p true) s fun t =>
        fget F.HIF_FUNC_PM_DSTATE fn t = 3 ∧ Tab.get false t.pcie.pmeEn fn = p ∧ Tab.get false t.pcie.pmeStatus fn = false ∧ t.mem = s.mem ∧
        KeepsFields [F.HIF_FUNC_PM_DSTATE.key fn] s t) ∧
      (∀ v, v = fset F.HIF_FUNC_PM_DSTATE fn 0 s → exec (.dstateChange fn false p false) s =
        .next (retryRecords { v with pcie := { v.pcie with pmeEn := Tab.set false s.pcie.pmeEn fn p } }) ∧ fnD0 fn v = true)) ∧
    (∀ (fn : Fn) (p d x : Bool) (s : State), cfgOpen fn s = false → (Completes (.dstateChange fn d p x) s fun t => t = s) ∧
      Completes (.functionLevelReset fn) s fun t => t = s) ∧
    (∀ (fn : Fn) (s : State), cfgOpen fn s = true → fn.val ≠ 0 →
      ∀ a, a = (List.range 64).foldl (fun s c => if dcOwner c s = fn then dcDrained c (dcOff c s) else s) s →
      ∀ b, b = (List.range 16).foldl (fun s q => if fget F.HIF_CQ_OWNER_OWNER q s = fn then setFlag F.CQ_CFG_ENABLE q false s else s) a →
      ∀ c, c = (b.coding.sc.filter (fun (x : Nat × Stream) => x.2.fn == fn.val)).foldl (fun s x => scDrained x.1 (scClose x.1 [] s)) b →
      ∀ d, d = (c.mem.buf.filter (fun x => bit x.2 15 && x.2 % 128 == fn.val)).foldl (fun s x => poolPut x.1 s) c →
      ∀ e, e = (List.range 384).foldl (fun s i => flrWindow fn i s) d → ∀ u, u = flrConfig fn (flrGroups fn e) →
      exec (.functionLevelReset fn) s = .next (retryRecords u) ∧ fget F.HIF_FUNC_PM_DSTATE fn u = 0 ∧ msixReady fn u = false ∧
      Tab.get false u.pcie.msixEn fn = false ∧ (∀ g, g < 64 → grpFn g u = fn → grpState g u = 0)) ∧
    (∀ s : State, cfgOpen 0 s = true → ∀ u, u = (List.range 64).foldl (fun s n => flrOne (n + 1) s) s →
      exec (.functionLevelReset 0) s = .next (flrOne 0 u)) ∧
    (∀ s : State, cfgOpen 0 s = true → ∀ n, n = (if s.pcie.vfEnable then s.pcie.numVfs else 0) →
      ∀ u, u = (List.range 64).foldl (fun s v => if 0 ≤ v ∧ v < n then flrOne (v + 1) s else s) s →
      Completes .vfEnableClear s fun t => t = fset F.HIF_NUM_VFS_COUNT 0 0 { u with pcie := { u.pcie with vfEnable := false, numVfs := s.pcie.numVfs } } ∧
        fget F.HIF_NUM_VFS_COUNT 0 t = 0)

/-- A link that trains shows its speed and width, and below 64.0 GT/s or x16 it is DEGRADED and raises Hasp source 18;
it does not train where the mode or PCIE_PERST_N keep it down. L1 is counted, and its exits lead to L0. A failed fetch
counts, is logged, raises source 18 detail 2, and ends the fetches of its ring; a failed completion or a poisoned
write is logged. A PME is resent while its status stays 1 outside D0. A GO while BUSY answers BUSY, one of a bad
length BAD_ARG, and a good one sets BUSY and counts. A response is placed with its length, and a final one clears
BUSY. (R438, R439, R448, R449, R451, R452.) -/
def Obligations.LinkAndMailbox : Prop :=
  (∀ (sp wd : Nat) (fl : Bool) (s : State), modeOpen s = true → s.power.perstHigh = true →
      ∀ v : State, v = { s with pcie := { s.pcie with link := .l0, trained := true } } →
      ∀ u, u = setFlag F.HIF_LINK_FLIT 0 fl (fset F.HIF_LINK_SPEED 0 sp (fset F.HIF_LINK_WIDTH 0 wd v)) →
      (4 ≤ sp → 16 ≤ wd → exec (.linkTrained sp wd fl) s = .next u) ∧
      (sp < 4 ∨ wd < 16 → exec (.linkTrained sp wd fl) s = .next (haspRise 18 1 (setFlag F.HIF_LINK_DEGRADED 0 true u))) ∧
      fget F.HIF_LINK_SPEED 0 u = sp % 2 ^ F.HIF_LINK_SPEED.w ∧ fget F.HIF_LINK_WIDTH 0 u = wd % 2 ^ F.HIF_LINK_WIDTH.w) ∧
    (∀ (sp wd : Nat) (fl : Bool) (s : State), modeOpen s = false ∨ s.power.perstHigh = false → Completes (.linkTrained sp wd fl) s fun t => t = s) ∧
    (∀ s : State, s.pcie.link = .l0 → (Completes (.linkL1Entry false) s fun t => t.pcie.link = .l1 ∧
        fget F.HIF_L1_COUNT_COUNT 0 t = (fget F.HIF_L1_COUNT_COUNT 0 s + 1) % 2 ^ F.HIF_L1_COUNT_COUNT.w ∧ t.mem = s.mem) ∧
      Completes (.linkL1Entry true) s fun t => t.pcie.link = .l12 ∧
        fget F.HIF_L1_COUNT_COUNT 0 t = (fget F.HIF_L1_COUNT_COUNT 0 s + 1) % 2 ^ F.HIF_L1_COUNT_COUNT.w ∧ t.mem = s.mem) ∧
    (∀ s : State, s.pcie.link = .l1 ∨ s.pcie.link = .l12 → Completes .l1Exit s fun t => t.pcie.link = .l0 ∧ t.regs = s.regs ∧ t.mem = s.mem) ∧
    (∀ s : State, s.pcie.link ≠ .l1 → s.pcie.link ≠ .l12 → Completes .l1Exit s fun t => t = s) ∧
    (∀ (k : Sc) (s : State), (strm k s).tail ≠ none → ∀ u, u = strmMod k (fun c => { c with tail := none }) s →
      exec (.pcieRequestError (.commandFetch k)) s = .next (haspRise 18 2 (bump F.HIF_REQ_ERR_COUNT 0 (aerLog (strm k s).fn 1 u)))) ∧
    (∀ (c : Chan) (s : State), flag F.DC_CTRL_MODE c s = true → flag F.DC_STATUS_ENABLED c s = true →
      flag F.DC_STATUS_SHADOW_ARMED c s = false → fget F.DC_RING_HEAD_HEAD c s ≠ fget F.DC_RING_TAIL_TAIL c s →
      (chan c s).fetchHeld = false → ∀ u, u = chanMod c (fun k => { k with fetchHeld := true })
        (haspRise 18 2 (bump F.HIF_REQ_ERR_COUNT 0 (aerLog (dcOwner c s) 1 s))) →
      Completes (.pcieRequestError (.descriptorFetch c)) s fun t => t = riseIf (160 + c) u (setFlag F.DC_STATUS_HALTED c true u) ∧
        flag F.DC_STATUS_HALTED c t = true) ∧
    (∀ (p : Bool) (s : State), (Completes (.pcieRequestError (.completion p)) s fun t => t = { s with pcie := t.pcie } ∧
        t.pcie.aer = (0, if p then 0 else 1) :: s.pcie.aer) ∧
      Completes (.pcieRequestError .poisonedWrite) s fun t => t = { s with pcie := t.pcie } ∧ t.pcie.aer = (0, 0) :: s.pcie.aer) ∧
    (∀ (fn : Fn) (s : State), Tab.get false s.pcie.pmeStatus fn = true → Tab.get false s.pcie.pmeEn fn = true → fnD0 fn s = false →
      linkCold s = false → Completes (.pmeResend fn) s fun t => t.out = .pme fn :: s.out ∧ t.regs = s.regs ∧ t.mem = s.mem) ∧
    (∀ (fn : Fn) (s : State), Tab.get false s.pcie.pmeStatus fn = false ∨ Tab.get false s.pcie.pmeEn fn = false ∨ fnD0 fn s = true →
      Completes (.pmeResend fn) s fun t => t = s) ∧
    (∀ (w : Word) (s : State), Reaches 0 .MBX_CTRL 0 s →
      (flag F.MBX_STATUS_BUSY 0 s = true → Completes (.mbxGo 0 w) s fun t => fget F.MBX_STATUS_RESULT 0 t = 1 ∧
        OnlyFields [F.MBX_STATUS_RESULT.key 0] s t) ∧
      (flag F.MBX_STATUS_BUSY 0 s = false → fget F.MBX_REQ_LEN_LEN 0 s = 0 ∨ 16384 < fget F.MBX_REQ_LEN_LEN 0 s ∨
        16777216 < fget F.MBX_IND_LEN_LEN 0 s → Completes (.mbxGo 0 w) s fun t =>
        fget F.MBX_STATUS_RESULT 0 t = 6 ∧ OnlyFields [F.MBX_STATUS_RESULT.key 0] s t) ∧
      (flag F.MBX_STATUS_BUSY 0 s = false → 1 ≤ fget F.MBX_REQ_LEN_LEN 0 s → fget F.MBX_REQ_LEN_LEN 0 s ≤ 16384 →
        fget F.MBX_IND_LEN_LEN 0 s ≤ 16777216 → Completes (.mbxGo 0 w) s fun t => fget F.MBX_STATUS_RESULT 0 t = 0 ∧
          flag F.MBX_STATUS_BUSY 0 t = true ∧ t.tch.mbxWaiting = true ∧
          fget F.MBX_SEQ_COUNT 0 t = (fget F.MBX_SEQ_COUNT 0 s + 1) % 2 ^ F.MBX_SEQ_COUNT.w ∧
          KeepsFields [F.MBX_STATUS_RESULT.key 0, F.MBX_STATUS_BUSY.key 0, F.MBX_SEQ_COUNT.key 0] s t ∧ t.mem = s.mem)) ∧
    (∀ (s : State) (f : Bytes) (r : List Bytes), s.tch.mbxOut = f :: r → Completes .mbxResponse s fun t => t.tch.mbxResp = f ∧
      t.tch.mbxOut = r ∧ fget F.MBX_STATUS_RESP_LEN 0 t = f.length % 2 ^ F.MBX_STATUS_RESP_LEN.w ∧
      flag F.MBX_STATUS_RESP_READY 0 t = true ∧
      flag F.MBX_STATUS_BUSY 0 t = (respPending f && flag F.MBX_STATUS_BUSY 0 s) ∧ t.mem = s.mem)

/-- A rise of a source that is not reserved sets its pending bit; one that is reserved changes nothing. A write of
INT_FORCE by PF0 sets the pending bit of each source whose bit is 1 and leaves the others of the word. A write of
INT_MASK by PF0 leaves the mask word at the written value. A RESEND is an event of a group that is live, and starts
the hold-off of an enabled idle one; of a group that is not live it changes no state of it. (R456, R457, R458, R460,
R463.) -/
def Obligations.InterruptSourcesAndMasks : Prop :=
  (∀ (n : IntSrc) (s : State), (srcReserved n = false → s.mode ≠ .off → Completes (.intSourceRise n) s fun t =>
      pendOf n t = true ∧ (∀ m, pendOf m s = true → pendOf m t = true) ∧ t.mem = s.mem) ∧
      (srcReserved n = true → Completes (.intSourceRise n) s fun t => t = s)) ∧
    (∀ (k : Fin 128) (w : Word) (s : State), Reaches 0 .INT_FORCE k s → Completes (.intForce 0 k w) s fun t =>
      (∀ b, b < 32 → pendOf (32 * k.val + b) t = (pendOf (32 * k.val + b) s || bit w.toNat b)) ∧ t.mem = s.mem) ∧
    (∀ (k : Fin 128) (w : Word) (s : State), Reaches 0 .INT_MASK k s → Completes (.intMaskWrite 0 k w) s fun t =>
      (∀ b, b < 32 → maskOf (32 * k.val + b) t = bit w.toNat b) ∧ (∀ m, pendOf m t = pendOf m s) ∧ t.mem = s.mem) ∧
    (∀ (fn : Fn) (g : Grp) (w : Word) (s : State), Reaches fn .INT_GRP_CTRL g s →
      ∀ u, u = setFlag F.INT_GRP_CTRL_RESEND g true s →
      (groupLive g u = true → flag F.INT_GRP_CFG_ENABLE g s = true → grpState g s = 0 → Completes (.resend fn g w) s fun t =>
        grpState g t = 1 ∧ Tab.get 0 t.ints.left g = fget F.INT_GRP_HOLDOFF_HOLDOFF g s * 400 ∧ flag F.INT_GRP_CTRL_RESEND g t = true ∧
        t.mem = s.mem) ∧
      (groupLive g u = false → Completes (.resend fn g w) s fun t => t = u))

/-- The end of the hold-off of a TIMING group with no live source returns it to IDLE. With one it commits: it is IDLE
where its function is off, DUE where the function is not in D0, the link is down or messages are not enabled (without
a wake), HELD with its pending bit where its entry is masked, and else it sends its message, counts it and is IDLE;
LATE_MASK is set when every live source is masked. A DUE group whose function takes messages again sends its message
when its entry is not masked, and is HELD when it is; else it stays. Unmasking an entry clears its mask bit and lets
every HELD group look again. (R458, R459.) -/
def Obligations.GroupsDeliverMessages : Prop :=
  (∀ (g : Grp) (s : State), grpState g s = 1 → ∀ v, v = passCclk (Tab.get 0 s.ints.left g) s →
      (groupLive g v = false → Completes (.groupCommit g) s fun t => grpState g t = 0 ∧ t.out = s.out ∧ t.mem = s.mem) ∧
      (groupLive g v = true → ∀ fn, fn = grpFn g s → (vfOn fn v = true → flag F.INT_GRP_CFG_WAKE_ON_PENDING g s = false ∨ (fnD0 fn v = true ∧ linkCold v = false)) →
        Completes (.groupCommit g) s fun t => t.mem = s.mem ∧
          ((liveList g v).all (fun n => maskOf n v) = true → flag F.INT_GRP_STATUS_LATE_MASK g t = true) ∧
          (vfOn fn v = false → grpState g t = 0 ∧ t.out = s.out) ∧
          (vfOn fn v = true → fnD0 fn v = false ∨ linkCold v = true ∨ msixReady fn v = false → grpState g t = 3 ∧ t.out = s.out) ∧
          (vfOn fn v = true → fnD0 fn v = true → linkCold v = false → msixReady fn v = true →
            (msixHeld fn (grpEntry g s) v = true → grpState g t = 2 ∧ t.out = s.out ∧ Tab.get false t.pcie.pba (fn * 1024 + grpEntry g s) = true) ∧
            (msixHeld fn (grpEntry g s) v = false → grpState g t = 0 ∧ t.out = .msix fn (grpEntry g s) :: s.out ∧
              fget F.INT_GRP_SENT_COUNT g t = (fget F.INT_GRP_SENT_COUNT g s + 1) % 2 ^ F.INT_GRP_SENT_COUNT.w)))) ∧
    (∀ (g : Grp) (s : State), grpState g s ≠ 1 → Completes (.groupCommit g) s fun t => t = s) ∧
    (∀ (g : Grp) (s : State), grpState g s = 3 → ∀ fn, fn = grpFn g s →
      (vfOn fn s = true → fnD0 fn s = true → linkCold s = false → mseOf fn s = true → msixReady fn s = true →
        (msixHeld fn (grpEntry g s) s = false → Completes (.dueDelivery g) s fun t => grpState g t = 0 ∧
          t.out = .msix fn (grpEntry g s) :: s.out ∧
          fget F.INT_GRP_SENT_COUNT g t = (fget F.INT_GRP_SENT_COUNT g s + 1) % 2 ^ F.INT_GRP_SENT_COUNT.w ∧ t.mem = s.mem) ∧
        (msixHeld fn (grpEntry g s) s = true → Completes (.dueDelivery g) s fun t => grpState g t = 2 ∧ t.out = s.out ∧
          Tab.get false t.pcie.pba (fn * 1024 + grpEntry g s) = true ∧ t.mem = s.mem)) ∧
      (vfOn fn s = false ∨ fnD0 fn s = false ∨ linkCold s = true ∨ mseOf fn s = false ∨ msixReady fn s = false →
        Completes (.dueDelivery g) s fun t => t = s)) ∧
    (∀ (fn : Fn) (n : Nat) (s : State), busOpen s = true → s.power.configured = true → n < msixSize fn →
      Completes (.msixUnmask fn n) s fun t => Tab.get false t.pcie.unmasked (fn * 1024 + n) = true ∧ t.mem = s.mem ∧
        t = heldReleaseAll { s with pcie := { s.pcie with unmasked := Tab.set false s.pcie.unmasked (fn * 1024 + n) true } })

/-- A write of BAR0 by a VF to a register that the mode serves and that the VF does not reach is discarded and counted
in HIF_DENIED; no other register, table, queue or byte of memory changes. The row DENIED_ACCESS has the same effect.
(R441, R442.) -/
def Obligations.VfWritesAreDenied : Prop :=
  ∀ (fn : Fn) (a : RegAddr) (w : Word) (s : State) (r : Reg) (i : Nat), fn.val ≠ 0 → a.space = .bar0 → wholeDword a = true →
    busOpen s = true → inSpace fn a = true → regAt a.addr = some (r, i) → modeReach true r s = true →
    fnReach fn true r (ownInst fn r i) s = false →
    (Completes (.registerWrite fn a w) s fun t => OnlyFields [F.HIF_DENIED_COUNT.key 0] s t ∧
      fget F.HIF_DENIED_COUNT 0 t = (fget F.HIF_DENIED_COUNT 0 s + 1) % 2 ^ F.HIF_DENIED_COUNT.w) ∧
    (Completes (.deniedAccess fn a true) s fun t => OnlyFields [F.HIF_DENIED_COUNT.key 0] s t ∧
      fget F.HIF_DENIED_COUNT 0 t = (fget F.HIF_DENIED_COUNT 0 s + 1) % 2 ^ F.HIF_DENIED_COUNT.w)

/-- A write of a register that no rule treats otherwise leaves every field that is not RW or W1C, and every field of
every other register, as it was; each RW field takes its bits of the word. The write reaches the register through its
BAR0 address. (R9, R605.) -/
def Obligations.ReadOnlyFieldsKeepTheirValue : Prop :=
  (∀ (r : Reg) (i : Nat) (w : Word) (s : State) (f : Fld) (j : Nat), (∀ g ∈ r.fields, (g.acc = .RW ∨ g.acc = .W1C) → g.key i ≠ f.key j) →
      fget f j (plainWrite r i w s) = fget f j s) ∧
    (∀ (r : Reg) (i : Nat) (w : Word) (s : State), plainWrite r i w s = { s with regs := (plainWrite r i w s).regs }) ∧
    (∀ (a : RegAddr) (w : Word) (s : State) (r : Reg) (i : Nat), a.space = .bar0 → wholeDword a = true → inSpace 0 a = true →
      regAt a.addr = some (r, i) → modeReach true r s = true → r.layout.perFn = false →
      exec (.registerWrite 0 a w) s = .next (writeReg 0 r i w s))

/-- A read of an RC counter by PF0 returns it and leaves 0. A read of the LO half of a latched pair keeps the HI half
of the same instant for the next read of HI. A read of a counter page within 64 B returns the bytes of the last dump
and changes no counter. (R455, R606, R608.) -/
def Obligations.ReadsClearAndLatch : Prop :=
  (∀ (a : RegAddr) (s : State), a.space = .bar0 → inSpace 0 a = true → a.dwords = 1 → regAt (a.addr / 4 * 4) = some (.TRC_DROPS, 0) →
      modeReach false .TRC_DROPS s = true → Completes (.counterReadClear 0 a) s fun t =>
        t.out = .readData 0 (fget F.TRC_DROPS_COUNT 0 s) :: s.out ∧ fget F.TRC_DROPS_COUNT 0 t = 0 ∧
        KeepsFields [F.TRC_DROPS_COUNT.key 0] s t ∧ t.mem = s.mem ∧ t.trc = s.trc) ∧
    (∀ (a : RegAddr) (i : Nat) (s : State), a.space = .bar0 → inSpace 0 a = true → a.dwords = 1 → regAt (a.addr / 4 * 4) = some (.DC_BYTES, i) →
      modeReach false .DC_BYTES s = true → Completes (.latchedRead 0 a) s fun t =>
        t.out = .readData 0 (regValue 0 .DC_BYTES i s) :: s.out ∧
        (readReg 0 .DC_BYTES_HI i t).1 = regValue 0 .DC_BYTES_HI i s ∧ t.regs = s.regs ∧ t.mem = s.mem) ∧
    (∀ (fn : Fn) (a : RegAddr) (s : State), a.space = .bar2 → busOpen s = true → s.power.configured = true → inSpace fn a = true →
      a.dwords ≠ 0 → pageOpen fn (a.addr / 65536) s = true → a.addr / 64 = (a.addr + 4 * a.dwords - 1) / 64 →
      Completes (.counterReadClear fn a) s fun t => t = { s with out := .readData fn (leNat (pageBytes a.addr (4 * a.dwords) s)) :: s.out })

/-- A frame that is not well formed, names no opcode, or sets CRITICAL wrongly answers BAD_ARG with its DETAIL; one
that the state or the mode does not allow answers BAD_STATE. A critical command whose MAC fails answers AUTH_FAIL, and
WARD_AUTH_FAIL counts; one whose counter is not above the last answers REPLAY, and WARD_REPLAY counts; the last frame
sent again gets its cached answer; one that comes while the entropy source fails answers NO_ENTROPY. An answer changes
nothing of the Ward, of memory or of the mode, and no register. (R466, R483, R485, R486, R487.) -/
def Obligations.AdyelRefusalsHaveNoEffect : Prop :=
  (∀ (a : AdyelIn) (s : State), ∀ r t, adyelTake a s = some (r, t) →
      (frameOk r s = false → exec (.adyelBadFrame a) s = .next (adyelAnswer s.ward.kCmd r.udp (fitTo 32 r.frame) (Ans.of 6 1) t)) ∧
      (frameOk r s = true → opRow (frOp r.frame) = none →
        exec (.adyelBadFrame a) s = .next (adyelAnswer s.ward.kCmd r.udp r.frame (Ans.of 6 2) t)) ∧
      (frameOk r s = true → opRow (frOp r.frame) ≠ none → frCrit r.frame ≠ opCritical (frOp r.frame) s →
        exec (.adyelBadFrame a) s = .next (adyelAnswer s.ward.kCmd r.udp r.frame (Ans.of 6 3) t)) ∧
      (∀ c ∈ [(0x0001, Instr.getInfo a), (0x0002, .getCerts a), (0x0003, .keyInfo a), (0x0010, .takeOwnership a),
          (0x0011, .releaseOwnership a), (0x0012, .decommission a), (0x0020, .signerSet a), (0x0021, .keyImport a),
          (0x0022, .keyDestroy a), (0x0030, .imageLoad a), (0x0031, .imageDelta a), (0x0040, .svnCommit a), (0x0041, .debugGrant a),
          (0x0042, .debugRevoke a), (0x0050, .macsecCakBind a), (0x0051, .ptpSmpteTlv a), (0x0100, .sensorRead a),
          (0x0101, .sensorLimits a), (0x0110, .logInfo a), (0x0111, .logRead a), (0x0112, .logCert a), (0x0113, .logSeal a),
          (0x0121, .fwStatus a), (0x0122, .fwReboot a), (0x0130, .mgmtNet a)],
        frameOk r s = true → frOp r.frame = c.1 → frCrit r.frame = opCritical c.1 t → cmdAllowed c.1 r.frame t = false →
          exec c.2 s = .next (adyelAnswer t.ward.kCmd r.udp r.frame (Ans.of 5 0) t)) ∧
      (∀ c ∈ [(0x0011, Instr.releaseOwnership a), (0x0012, .decommission a), (0x0020, .signerSet a), (0x0021, .keyImport a),
          (0x0022, .keyDestroy a), (0x0040, .svnCommit a), (0x0041, .debugGrant a), (0x0101, .sensorLimits a), (0x0122, .fwReboot a),
          (0x0130, .mgmtNet a)], Taken c.1 a r s t → frCrit r.frame = true →
        ∀ mac, mac = adyelMac t.ward.kCmd (slice r.frame 0 (32 + frLen r.frame)) r.ind →
        (t.ward.kCmd = [] ∨ mac ≠ frMac r.frame → exec c.2 s = .next (adyelAnswer t.ward.kCmd r.udp r.frame (Ans.of 7 0)
          (fset F.WARD_AUTH_FAIL_COUNT 0 (fget F.WARD_AUTH_FAIL_COUNT 0 t + 1) t))) ∧
        (t.ward.kCmd ≠ [] → mac = frMac r.frame →
          (frCounter r.frame = t.ward.counter → frMac r.frame = t.ward.lastFrame → t.ward.lastAnswer ≠ [] →
            exec c.2 s = .next (adyelSend r.udp t.ward.lastAnswer t)) ∧
          (frCounter r.frame < t.ward.counter ∨ (frCounter r.frame = t.ward.counter ∧ frMac r.frame ≠ t.ward.lastFrame) →
            exec c.2 s = .next (adyelAnswer t.ward.kCmd r.udp r.frame (Ans.of 8 0)
              (fset F.WARD_REPLAY_COUNT 0 (fget F.WARD_REPLAY_COUNT 0 t + 1) t))) ∧
          (t.ward.counter < frCounter r.frame → flag F.WARD_STATE_ENTROPY_OK 0 t = false →
            exec c.2 s = .next (adyelAnswer t.ward.kCmd r.udp r.frame (Ans.of 5 0x11) t))))) ∧
    (∀ (key : Bytes) (udp : Option Nat) (f : Bytes) (x : Ans) (t : State), ∀ u, u = adyelAnswer key udp f x t →
      u.ward = t.ward ∧ u.regs = t.regs ∧ u.mem = t.mem ∧ u.mode = t.mode)

/-- Information commands answer what the Ward or Tchien holds. A critical command persists its counter, answers
PENDING, has its effect and answers. TAKE_OWNERSHIP that passes its checks burns a STORE_EPOCH bit, and outside
LOCKDOWN a bank, and makes the device OWNED; in LOCKDOWN BOOT follows. RELEASE_OWNERSHIP and DECOMMISSION erase the
owner. A command whose arguments are out of range answers BAD_ARG and does nothing else. Whether a signature or a
wrapped key is good rests on the functions of Config (log 8), so those clauses say what follows in each case. (R474,
R475, R476, R477, R482, R487, R490, R492, R494, R495, R503, R544.) -/
def Obligations.WardAndTchienCommandsTakeEffect : Prop :=
  ∀ (a : AdyelIn) (s : State), ∀ r t, adyelTake a s = some (r, t) → ∀ p, p = r.body →
    (Taken 0x0001 a r s t → exec (.getInfo a) s = .next (adyelAnswer [] r.udp r.frame (Ans.ok (Config.answerLayout 0x0001 (infoItems t))) t)) ∧
    (Taken 0x0002 a r s t → exec (.getCerts a) s = .next (adyelAnswer [] r.udp r.frame
      (Ans.ok (Config.answerLayout 0x0002 [leNat Config.devidChain, leNat (aliasCert t)])) t)) ∧
    (Taken 0x0003 a r s t → ∀ h, h = fieldLE p 0 4 →
      (∀ k, keyRec h t = some k → p.length = 4 → exec (.keyInfo a) s =
        .next (adyelAnswer [] r.udp r.frame (Ans.ok (Config.answerLayout 0x0003 [krUsage k, krFn k, krId k, keyUsers h t])) t)) ∧
      (keyRec h t = none ∨ p.length ≠ 4 → exec (.keyInfo a) s = .next (adyelAnswer [] r.udp r.frame (Ans.of 6 0) t))) ∧
    (Taken 0x0010 a r s t → (∀ x, ownCheck p t = some x → x.status ≠ 0 → exec (.takeOwnership a) s = .next (adyelAnswer [] r.udp r.frame x t)) ∧
      (ownCheck p t = none → t.mode ≠ .lockdown → exec (.takeOwnership a) s = .next (
        adyelAnswer [] r.udp r.frame (Ans.ok (fitTo 16 (Config.hmac384 (ownerKeys p t).ward.kCmd (label "DZM7264-OWNED"))))
          (epochBurn (fset F.WARD_STATE_SEC_STATE 0 1 { ownerKeys p t with ward := { (ownerKeys p t).ward with
            banks := t.ward.banks ++ [(fitTo 48 (Config.sha384 (slice p 0 96)), false)] } })))) ∧
      (ownCheck p t = none → t.mode = .lockdown → exec (.takeOwnership a) s = .next (ownReboot (
        adyelAnswer [] r.udp r.frame (Ans.ok (fitTo 16 (Config.hmac384 (ownerKeys p t).ward.kCmd (label "DZM7264-OWNED"))))
          (epochBurn (ownerKeys p t)))))) ∧
    (Taken 0x0110 a r s t → exec (.logInfo a) s = .next (adyelAnswer [] r.udp r.frame (Ans.ok (Config.answerLayout 0x0110
      [logOldest t, t.tch.block, t.tch.seq - 1, logBad 0 t, logBad 1 t, t.tch.bootCount])) t)) ∧
    (Taken 0x0111 a r s t → p.length = 12 → ∀ n, n = fieldLE p 0 4 → ∀ o, o = fieldLE p 4 4 → ∀ l, l = fieldLE p 8 4 →
      (n < 720 → 1 ≤ l → l ≤ (if r.udp = none then 16320 else 1408) → o + l ≤ 65536 → exec (.logRead a) s =
        .next (adyelAnswer [] r.udp r.frame (Ans.ok (slice (logBytes n t) o l)) t)) ∧
      (720 ≤ n ∨ l < 1 ∨ (if r.udp = none then 16320 else 1408) < l ∨ 65536 < o + l →
        exec (.logRead a) s = .next (adyelAnswer [] r.udp r.frame (Ans.of 6 0) t))) ∧
    (Taken 0x0112 a r s t → (∀ x, List.find? (fun y : Bytes × Bytes => y.1 == p) t.tch.certs = some x →
        exec (.logCert a) s = .next (adyelAnswer [] r.udp r.frame (Ans.ok x.2) t)) ∧
      ((∀ x ∈ t.tch.certs, x.1 ≠ p) → exec (.logCert a) s = .next (adyelAnswer [] r.udp r.frame (Ans.of 6 0) t))) ∧
    (Taken 0x0113 a r s t → exec (.logSeal a) s = .next (adyelAnswer [] r.udp r.frame (Ans.ok []) (logSealNow t))) ∧
    (Taken 0x0100 a r s t → exec (.sensorRead a) s = .next (adyelAnswer [] r.udp r.frame (Ans.ok (sensorAnswer t)) t)) ∧
    (Taken 0x0121 a r s t → exec (.fwStatus a) s = .next (adyelAnswer [] r.udp r.frame (Ans.ok (Config.answerLayout 0x0121
      (slotItems t.tch.slotA t ++ slotItems t.tch.slotB t ++ [fget F.WARD_BOOT_FW_SLOT 0 t]))) t)) ∧
    (Taken 0x0042 a r s t → exec (.debugRevoke a) s = .next (adyelAnswer [] r.udp r.frame (Ans.ok []) (grantStop 2 t))) ∧
    (Taken 0x0051 a r s t → exec (.ptpSmpteTlv a) s = .next (adyelAnswer [] r.udp r.frame (Ans.ok [])
      { t with ports := { t.ports with smpteTlv := p } })) ∧
    (Taken 0x0050 a r s t →
      (p.length ≠ 8 ∨ fieldLE p 6 2 ≠ 0 ∨ portMacsec t.cfg (byteAt p 4) = false →
        exec (.macsecCakBind a) s = .next (adyelAnswer [] r.udp r.frame (Ans.of 6 0) t)) ∧
      (p.length = 8 → fieldLE p 6 2 = 0 → portMacsec t.cfg (byteAt p 4) = true → keyUsable (fieldLE p 0 4) useCak 0 t = false →
        exec (.macsecCakBind a) s = .next (adyelAnswer [] r.udp r.frame (Ans.of 6 0x24) t)) ∧
      (p.length = 8 → fieldLE p 6 2 = 0 → portMacsec t.cfg (byteAt p 4) = true → keyUsable (fieldLE p 0 4) useCak 0 t = true →
        exec (.macsecCakBind a) s = .next (adyelAnswer [] r.udp r.frame (Ans.ok [])
          { t with ports := { t.ports with cak := Tab.put t.ports.cak (byteAt p 4) (fieldLE p 0 4, byteAt p 5) } }))) ∧
    (Authentic r t → ∀ u, u = critStart r t →
      (Taken 0x0011 a r s t → t.ward.storeEpoch < 256 → ∀ g, g = ownerGone u → exec (.releaseOwnership a) s =
        .next (critEnd t.ward.kCmd r (Ans.ok [], fset F.WARD_STATE_SEC_STATE 0 0
          { g with ward := { g.ward with banks := releaseBank g.ward.banks, storeEpoch := g.ward.storeEpoch + 1 } }))) ∧
      (Taken 0x0012 a r s t → exec (.decommission a) s = .next (critEnd t.ward.kCmd r (Ans.ok [],
        fset F.WARD_STATE_SEC_STATE 0 2 { ownerGone u with ward := { (ownerGone u).ward with decommissioned := true } }))) ∧
      (∀ c ∈ [(0x0011, Instr.releaseOwnership a), (0x0020, .signerSet a)], Taken c.1 a r s t → 256 ≤ t.ward.storeEpoch →
        (c.1 = 0x0020 → p.length = 100 ∧ byteAt p 0 ≤ 7 ∧ byteAt p 1 ≤ 1 ∧ fieldLE p 2 2 = 0) →
        exec c.2 s = .next (critEnd t.ward.kCmd r (Ans.of 5 0x20, u))) ∧
      (Taken 0x0020 a r s t → p.length = 100 → byteAt p 0 ≤ 7 → byteAt p 1 ≤ 1 → fieldLE p 2 2 = 0 → t.ward.storeEpoch < 256 →
        exec (.signerSet a) s = .next (critEnd t.ward.kCmd r (Ans.ok [], epochBurn { u with ward := { u.ward with
          signers := if byteAt p 1 = 0 then Tab.put u.ward.signers (byteAt p 0) (slice p 4 96) else Tab.del u.ward.signers (byteAt p 0) } }))) ∧
      (Taken 0x0021 a r s t → p.length = 88 → byteAt p 0 ≤ 1 → fieldLE p 2 2 = 0 → fieldLE p 8 2 = 72 → fieldLE p 10 6 = 0 →
        ∀ k, importKek (fieldLE p 4 4) u = some k → (Config.unwrap5649 k (slice p 16 72) = none →
          exec (.keyImport a) s = .next (critEnd t.ward.kCmd r (Ans.of 7 0x23, u))) ∧
        (∀ x, Config.unwrap5649 k (slice p 16 72) = some x → ∀ y, y = x →
          (importOk y (byteAt p 0) (byteAt p 1) = false →
            exec (.keyImport a) s = .next (critEnd t.ward.kCmd r (Ans.of 6 0x24, u))) ∧
          (importOk y (byteAt p 0) (byteAt p 1) = true → byteAt p 0 = 0 →
            exec (.keyImport a) s = .next (critEnd t.ward.kCmd r (importTable y u))) ∧
          (importOk y (byteAt p 0) (byteAt p 1) = true → byteAt p 0 = 1 →
            exec (.keyImport a) s = .next (critEnd t.ward.kCmd r (Ans.ok (leBytes 4 0 ++ leBytes 4 (krId y)),
              storeWrite { u with ward := { u.ward with enc := Tab.put u.ward.enc (byteAt p 1) y } }))))) ∧
      (Taken 0x0022 a r s t → p.length = 8 → byteAt p 5 ≤ 1 → fieldLE p 6 2 = 0 → ∀ h, h = fieldLE p 0 4 →
        (h ≠ 0 → keyRec h u ≠ none → (keyUsers h u = 0 ∨ byteAt p 5 = 1) →
          exec (.keyDestroy a) s = .next (critEnd t.ward.kCmd r (Ans.ok [], keyGone h (keyFree h u)))) ∧
        (h ≠ 0 → keyRec h u ≠ none → keyUsers h u ≠ 0 → byteAt p 5 = 0 → exec (.keyDestroy a) s =
          .next (critEnd t.ward.kCmd r (⟨1, 0x22, Config.answerLayout 0x0022 [keyUsers h u]⟩, u))) ∧
        (h ≠ 0 → keyRec h u = none → exec (.keyDestroy a) s = .next (critEnd t.ward.kCmd r (Ans.of 6 0, u))) ∧
        (h = 0 → byteAt p 4 ≤ 7 → Tab.find? u.ward.enc (byteAt p 4) ≠ none → u.ward.storeEpoch < 256 → exec (.keyDestroy a) s =
          .next (critEnd t.ward.kCmd r (Ans.ok [], epochBurn { u with ward := { u.ward with enc := Tab.del u.ward.enc (byteAt p 4) } })))) ∧
      (Taken 0x0041 a r s t → (loaded t = false ∨ spFlag t.cfg 0 = false →
          exec (.debugGrant a) s = .next (critEnd t.ward.kCmd r (Ans.of 5 0x25, u))) ∧
        (loaded t = true → spFlag t.cfg 0 = true → p.length = 8 → byteAt p 0 ≤ 3 → fieldLE p 1 3 = 0 →
          60 ≤ fieldLE p 4 4 → fieldLE p 4 4 ≤ 86400 →
          exec (.debugGrant a) s = .next (critEnd t.ward.kCmd r (Ans.ok [], grantStart (byteAt p 0) (fieldLE p 4 4) u))) ∧
        (loaded t = true → spFlag t.cfg 0 = true → p.length ≠ 8 ∨ 3 < byteAt p 0 ∨ fieldLE p 1 3 ≠ 0 ∨
          fieldLE p 4 4 < 60 ∨ 86400 < fieldLE p 4 4 →
          exec (.debugGrant a) s = .next (critEnd t.ward.kCmd r (Ans.of 6 0, u)))) ∧
      (Taken 0x0101 a r s t → p.length = 8 → fieldLE p 5 3 = 0 → ∀ w, w = fieldLE p 0 2 → ∀ c, c = fieldLE p 2 2 → ∀ v, v = byteAt p 4 →
        (960 ≤ w → w ≤ 1680 → 1520 ≤ c → c ≤ 1920 → w + 80 ≤ c → 2 ≤ v → v ≤ 10 →
          exec (.sensorLimits a) s = .next (critEnd t.ward.kCmd r (Ans.ok [], logPush 0x60 (leBytes 2 w ++ leBytes 2 c ++ leBytes 1 v)
            (fset F.MGMT_TEMP_LIMITS_CRIT 0 c (fset F.MGMT_TEMP_LIMITS_WARN 0 w (fset F.MGMT_VOLT_WIN_WIN_PCT 0 v
              { u with tch := { u.tch with limits := (c, w, v) } })))))) ∧
        (w < 960 ∨ 1680 < w ∨ c < 1520 ∨ 1920 < c ∨ c < w + 80 ∨ v < 2 ∨ 10 < v →
          exec (.sensorLimits a) s = .next (critEnd t.ward.kCmd r (Ans.of 6 0, u)))))

/-- SVN_COMMIT with WHICH and FLOOR raises the one floor to FLOOR when FLOOR is 1 to 64, above the present floor and
not above the SVN that runs; otherwise it answers BAD_ARG and burns nothing. The other firmware image is not looked
at, and an image below the new floor is no candidate of a later boot. (R474.) -/
def Obligations.SvnCommitRaisesOneFloor : Prop :=
  (∀ (a : AdyelIn) (s : State), ∀ r t, adyelTake a s = some (r, t) → Taken 0x0040 a r s t → Authentic r t →
      (r.body.length ≠ 2 ∨ 1 < byteAt r.body 0 → exec (.svnCommit a) s = .next (critEnd t.ward.kCmd r (Ans.of 6 0, critStart r t))) ∧
      (r.body.length = 2 → ∀ v, v = byteAt r.body 1 →
      (byteAt r.body 0 = 0 → (v < 1 ∨ 64 < v ∨ v ≤ t.ward.fwSvn ∨ fget F.WARD_SVN_FW_RUN 0 t < v) →
        Completes (.svnCommit a) s fun x => x.ward.fwSvn = t.ward.fwSvn ∧ x.ward.patchSvn = t.ward.patchSvn ∧
          x = critEnd t.ward.kCmd r (Ans.of 6 0, critStart r t)) ∧
      (byteAt r.body 0 = 0 → 1 ≤ v → v ≤ 64 → t.ward.fwSvn < v → v ≤ fget F.WARD_SVN_FW_RUN 0 t →
        Completes (.svnCommit a) s fun x => x.ward.fwSvn = v ∧ x.ward.patchSvn = t.ward.patchSvn ∧
          x = critEnd t.ward.kCmd r (Ans.ok [], { critStart r t with ward := { (critStart r t).ward with fwSvn := v } })) ∧
      (byteAt r.body 0 = 1 → (v < 1 ∨ 64 < v ∨ v ≤ t.ward.patchSvn ∨ fget F.WARD_SVN_PATCH_RUN 0 t < v) →
        Completes (.svnCommit a) s fun x => x.ward.fwSvn = t.ward.fwSvn ∧ x.ward.patchSvn = t.ward.patchSvn ∧
          x = critEnd t.ward.kCmd r (Ans.of 6 0, critStart r t)) ∧
      (byteAt r.body 0 = 1 → 1 ≤ v → v ≤ 64 → t.ward.patchSvn < v → v ≤ fget F.WARD_SVN_PATCH_RUN 0 t →
        Completes (.svnCommit a) s fun x => x.ward.fwSvn = t.ward.fwSvn ∧ x.ward.patchSvn = v ∧
          x = critEnd t.ward.kCmd r (Ans.ok [], { critStart r t with ward := { (critStart r t).ward with patchSvn := v } })))) ∧
    (∀ (i : FwImage) (s : State), i.svn < s.ward.fwSvn → fwValid (some i) s = none)

/-- A failing entropy source raises Hasp source 1 and clears ENTROPY_OK; one that passes again ends its condition and
sets it. A grant that expires ends with its scope and the sink of the observation port. An MKPDU whose ICV passes and
whose SAK unwraps brings the SAK of its port, and one whose ICV fails is ignored. A received SAK, or one that the Ward
draws as key server, is installed with its packet number and window, and a transmit association takes over; with no
channel left, or no SAK, nothing is installed. (R90, R466, R495, R503.) -/
def Obligations.EntropyGrantsAndAssociationKeys : Prop :=
  (∀ s : State, haspLive 1 s = true → haspCause 1 s = false →
      exec .entropyFail s = .next (haspRise 1 0 (setFlag F.WARD_STATE_ENTROPY_OK 0 false (haspLevel 1 true s)))) ∧
    (∀ s : State, haspCause 1 s = true → Completes .entropyRestore s fun t => flag F.WARD_STATE_ENTROPY_OK 0 t = true ∧
      haspCause 1 t = false ∧ OnlyFields [F.WARD_STATE_ENTROPY_OK.key 0, F.HASP_SRC_STATE_CAUSE.key 1] s t) ∧
    (∀ s : State, granted s = true → Completes .grantExpire s fun t => granted t = false ∧ t.ward.grantEnd = 0 ∧
      flag F.TRC_CTRL_SINK 0 t = false ∧ t.trc.sinceSync = none ∧ s.ward.grantEnd ≤ t.time.cclk ∧ t.mem = s.mem ∧ t.mode = s.mode) ∧
    (∀ (p : Port) (m : Mkpdu) (s : State), ∀ k, portCak p s = some k →
      (Config.mkaIcvOk k m.body m.icv = false → exec (.mkpduReceive p m) s = .next s) ∧
      (Config.mkaIcvOk k m.body m.icv = true → m.wrappedSak ≠ [] → ∀ b, Config.unwrap3394 (Config.mkaKek k) m.wrappedSak = some b →
        exec (.mkpduReceive p m) s = .next { s with ports := { s.ports with sak := Tab.put s.ports.sak (p.val * 8) (fitTo 44 b) } })) ∧
    (∀ (p : Port) (k : SakIn) (s : State), portMacsec s.cfg p = true → portCak p s ≠ none →
      (chanFor p k.rxSci s = none → exec (.sakInstall p k) s = .next s) ∧
      (k.received = true → Tab.find? s.ports.sak (p.val * 8) = none → exec (.sakInstall p k) s = .next s) ∧
      (∀ n, chanFor p k.rxSci s = some n → ∀ c, c = (Tab.find? s.ports.secChans n).getD (chanNew p k.rxSci) →
        ∀ pn, pn = k.firstPn % 2 ^ 64 → ∀ now, now = (if k.rxSci = none then k.an.val else c.current) →
        (k.received = true → ∀ b, Tab.find? s.ports.sak (p.val * 8) = some b →
          ∀ y : Sa, y = { key := b.take 32, salt := b.drop 32, nextPn := pn, rekeyRaised := decide (0xC000000000000000 ≤ pn) } →
          ∀ v, v = { c with sas := Tab.put c.sas k.an y, window := min k.window (2 ^ 30), current := now } →
          exec (.sakInstall p k) s = .next { s with ports := { s.ports with secChans := Tab.put s.ports.secChans n v } }) ∧
        (k.received = false → Tab.find? s.ports.sak (p.val * 8 + 1 + k.an) = none → flag F.WARD_STATE_ENTROPY_OK 0 s = true →
          ∀ d, d = drawBytes 44 s → ∀ y : Sa, y = { key := d.1.take 32, salt := d.1.drop 32, nextPn := pn, rekeyRaised := decide (0xC000000000000000 ≤ pn) } →
          ∀ u, u = { d.2 with ports := { d.2.ports with sak := Tab.put d.2.ports.sak (p.val * 8 + 1 + k.an) d.1 } } →
          ∀ v, v = { c with sas := Tab.put c.sas k.an y, window := min k.window (2 ^ 30), current := now } →
          exec (.sakInstall p k) s = .next { u with ports := { u.ports with secChans := Tab.put u.ports.secChans n v } })))

/-- While SPDM is open, its seven requests are answered from the certificates and measurements, the last two signed by
the alias key. While Tchien runs, the console commands print what they name; under a CONSOLE grant PEEK reads, POKE
writes, EYE prints a free value (log 184) and TRACE sets TRC_CTRL. LOG_ENTRY queues and writes, and a failing flash
has its block marked. In board test the TAP shifts out one bit for BYPASS and CLAMP, the identification for IDCODE,
and free values from the boundary register (log 45). (R498, R500, R502, R543, R547, R582.) -/
def Obligations.AttestationConsoleAndScanAnswer : Prop :=
  (∀ (q : SpdmIn) (s : State), spdmOpen q.doe s = true →
      exec (.getVersion q) s = .next (emit (.spdm q.doe (Config.spdmBody q.msg [0x12#8])) s) ∧
      exec (.getCapabilities q) s = .next (emit (.spdm q.doe (Config.spdmBody q.msg [16#8, 0x16#8])) s) ∧
      exec (.negotiateAlgorithms q) s = .next (emit (.spdm q.doe (Config.spdmBody q.msg [0x80#8, 0x02#8, 0x01#8])) s) ∧
      exec (.getDigests q) s = .next (emit (.spdm q.doe (Config.spdmBody q.msg (fitTo 48 (Config.sha384 (certChain s))))) s) ∧
      exec (.getCertificate q) s = .next (emit (.spdm q.doe (Config.spdmBody q.msg (certChain s))) s) ∧
      (∀ d, d = drawBytes 32 s → ∀ c, c = fitTo 48 (Config.sha384 (certChain s)) ++ fitTo 48 (Config.sha384 (measurements s).flatten) →
        exec (.challenge q) s = .next (emit (.spdm q.doe (Config.spdmBody q.msg
          (c ++ d.1 ++ fitTo 96 (Config.ecdsaSign s.ward.aliasSeed (q.msg ++ c ++ d.1))))) d.2)) ∧
      (∀ d, d = drawBytes 32 s → ∀ c, c = (measurements s).flatten → exec (.getMeasurements q) s =
        .next (emit (.spdm q.doe (Config.spdmBody q.msg (c ++ d.1 ++ fitTo 96 (Config.ecdsaSign s.ward.aliasSeed (q.msg ++ c ++ d.1))))) d.2))) ∧
    (∀ (n : Nat) (k : BitVec 16) (d : Bytes) (s : State), tchRuns s = true →
      exec .consoleInfo s = .next (consoleOut 0 (infoItems s) s) ∧
      exec .consoleSensors s = .next (consoleOut 1 ((sensorAnswer s).map (fun b => b.toNat)) s) ∧
      exec .consoleHasp s = .next (consoleOut 2 [haspStatus s, fget F.HASP_FIRST_VALID 0 s, fget F.HASP_FIRST_SOURCE 0 s,
        fget F.HASP_FIRST_CLASS 0 s] s) ∧
      exec (.consoleLog n) s = .next (consoleOut 3 (((logEntries s).drop ((logEntries s).length - n)).map leNat) s) ∧
      exec (.logEntry k ⟨d, false, false⟩) s = .next (logWriteOne (logPush k.toNat d s)) ∧
      exec (.logEntry k ⟨d, true, false⟩) s = .next (logFail 0 (logWriteOne (logPush k.toNat d s))) ∧
      exec (.logEntry k ⟨d, true, true⟩) s = .next (logFail 1 (logFail 0 (logWriteOne (logPush k.toNat d s))))) ∧
    (∀ (a o l : Nat) (w : Word) (s : State), consoleOpen s = true →
      (∀ r i, regAt a = some (r, i) → consoleReg a = true → modeServes false r s = true →
        exec (.consolePeek a) s = .next (consoleOut 5 [a, (readReg 0 r (ownInst 0 r i) s).1] (readReg 0 r (ownInst 0 r i) s).2)) ∧
      (∀ r i, regAt a = some (r, i) → consoleReg a = true → modeServes true r s = true →
        exec (.consolePoke a w) s = .next (writeReg 0 r (ownInst 0 r i) w s)) ∧
      (o < 35 → l < 8 → exec (.consoleEye o l) s =
        .next (consoleOut 4 [o, l, (freshValue 60 s).1] { s with fresh := s.fresh + 1 })) ∧
      exec (.consoleTrace w) s = .next (trcCtrlWrite w s)) ∧
    (∀ (d : Bytes) (s : State), s.mode = .boot → flag F.GLB_MODE_BOARD_TEST 0 s = true → s.power.inReset = false →
      exec (.boundaryScan .bypass d) s = .next (emit (.tdo (leBytes d.length (leNat d * 2))) s) ∧
      exec (.boundaryScan .idcode d) s = .next (emit (.tdo (leBytes d.length (leNat d * 2 ^ 32 + 0x072646E7))) s) ∧
      exec (.boundaryScan .clamp d) s = .next (emit (.tdo (leBytes d.length (leNat d * 2))) s) ∧
      (∀ i ∈ [JtagInstr.samplePreload, .extest, .extestPulse, .extestTrain], ∀ x, x = tapShift i d s → x.1.length = d.length ∧
        exec (.boundaryScan i d) s = .next (emit (.tdo x.1) { s with fresh := s.fresh + d.length })))

/-- IMAGE_LOAD and IMAGE_DELTA answer BUSY while a load is in progress and otherwise keep the image for validation. An
image that fails its checks is reported and leaves the configuration in force; one that passes is applied, or, for a
delta with a tick domain, waits for a tick of it, and is applied at the instant after that tick. FW_WRITE that passes
answers PENDING, writes the slot and logs it, one that is turned away answers why, and one whose read-back differs
raises source 5. FW_REBOOT enters BOOT, and MGMT_NET stores the settings. (R66, R67, R68, R71, R72, R544, R545.) -/
def Obligations.ImagesAndFirmware : Prop :=
  (∀ (a : AdyelIn) (s : State), ∀ r t, adyelTake a s = some (r, t) →
      (∀ c ∈ [(0x0030, Instr.imageLoad a), (0x0031, .imageDelta a)], Taken c.1 a r s t →
        (fget F.IMG_STATUS_PHASE 0 t ≠ 0 → exec c.2 s = .next (adyelAnswer [] r.udp r.frame (Ans.of 1 0) t)) ∧
        (fget F.IMG_STATUS_PHASE 0 t = 0 → Completes c.2 s fun x =>
          fget F.IMG_STATUS_PHASE 0 x = 1 ∧ x.loader.image = r.body ∧ x.tch.imgReply = some (r.udp, r.frame) ∧ x.cfg = t.cfg ∧
          KeepsFields [F.IMG_STATUS_PHASE.key 0] t x ∧ x.mem = t.mem)) ∧
      (∀ w i ok, Taken 0x0120 a r s t → ∀ n, n = byteAt (frPayload r.frame) 0 →
        (frCrit r.frame = false → ∀ v, v = adyelSend r.udp (answerFrame [] r.frame (Ans.of 2 0)) t →
          (∀ st, fwCheck r w i t = .inl st → exec (.fwWrite a w i ok) s = .next (adyelAnswer [] r.udp r.frame (Ans.of st 0) t)) ∧
          (∀ j, fwCheck r w i t = .inr j → ok = true → exec (.fwWrite a w i ok) s = .next (adyelAnswer [] r.udp r.frame (Ans.ok [])
            (logPush 0x40 (leBytes 1 n ++ leBytes 1 j.svn ++ fitTo 16 j.digest) (slotPut n (some j) v)))) ∧
          (∀ j, fwCheck r w i t = .inr j → ok = false → exec (.fwWrite a w i ok) s = .next (adyelAnswer [] r.udp r.frame (Ans.of 5 0)
            (haspLineUp 5 n (slotPut n none v))))) ∧
        (Authentic r t → ∀ u, u = critStart r t →
          (∀ st, fwCheck r w i u = .inl st → exec (.fwWrite a w i ok) s = .next (critEnd t.ward.kCmd r (Ans.of st 0, u))) ∧
          (∀ j, fwCheck r w i u = .inr j → ok = true → exec (.fwWrite a w i ok) s = .next (critEnd t.ward.kCmd r (Ans.ok [],
            logPush 0x40 (leBytes 1 n ++ leBytes 1 j.svn ++ fitTo 16 j.digest) (slotPut n (some j) u)))) ∧
          (∀ j, fwCheck r w i u = .inr j → ok = false → exec (.fwWrite a w i ok) s = .next (critEnd t.ward.kCmd r (Ans.of 5 0,
            haspLineUp 5 n (slotPut n none u)))))) ∧
      (Taken 0x0122 a r s t → (frCrit r.frame = false → exec (.fwReboot a) s =
          .next (bootEnter false 4 F.GLB_RESET_CAUSE_FW_REBOOT (adyelAnswer [] r.udp r.frame (Ans.ok []) t))) ∧
        (Authentic r t → exec (.fwReboot a) s =
          .next (bootEnter false 4 F.GLB_RESET_CAUSE_FW_REBOOT (critEnd t.ward.kCmd r (Ans.ok [], critStart r t))))) ∧
      (Taken 0x0130 a r s t → ∀ p, p = r.body →
        (p.length = 32 → byteAt p 4 ≤ 32 → fieldLE p 5 2 ≤ 4094 → byteAt p 23 ≤ 128 → fieldLE p 24 8 = 0 →
          (frCrit r.frame = false → exec (.mgmtNet a) s = .next (adyelAnswer [] r.udp r.frame (Ans.ok []) { t with tch := { t.tch with net := p } })) ∧
          (Authentic r t → ∀ u, u = critStart r t → exec (.mgmtNet a) s =
            .next (critEnd t.ward.kCmd r (Ans.ok [], { u with tch := { u.tch with net := p } })))) ∧
        (p.length ≠ 32 ∨ 32 < byteAt p 4 ∨ 4094 < fieldLE p 5 2 ∨ 128 < byteAt p 23 ∨ fieldLE p 24 8 ≠ 0 → frCrit r.frame = false →
          exec (.mgmtNet a) s = .next (adyelAnswer [] r.udp r.frame (Ans.of 6 0) t)))) ∧
    (∀ s : State, validating false s = true →
      (∀ f, validate s.loader.image false s = .inl f → exec .loadValidationEnd s = .next (imgReject f s)) ∧
      (∀ m, validate s.loader.image false s = .inr m →
        exec .loadValidationEnd s = .next (loaderIdle (imgAnswer 0 (imgReport none (imageApply m s)))))) ∧
    (∀ s : State, validating true s = true →
      (∀ f, validate s.loader.image true s = .inl f → exec .deltaValidationEnd s = .next (imgReject f s)) ∧
      (∀ m, validate s.loader.image true s = .inr m →
        ∀ l, l = { s.loader with image := [], pend := m.carried, pendHeader := m.hdr, pendDigest := Config.sha384 s.loader.image, applySeen := false } →
        ∀ u, u = imgAnswer 0 (imgReport none { s with loader := l }) →
        (hdApplyTd m.hdr = 0xFF → exec .deltaValidationEnd s = .next (deltaApply u)) ∧
        (hdApplyTd m.hdr ≠ 0xFF → exec .deltaValidationEnd s =
          .next (fset F.IMG_STATUS_PHASE 0 2 (setFlag F.IMG_STATUS_DELTA_PENDING 0 true u))))) ∧
    (∀ (f : ImgFail) (s : State), ∀ u, u = imgReject f s → u.cfg = s.cfg ∧ fget F.IMG_STATUS_PHASE 0 u = 0 ∧
      fget F.IMG_STATUS_ERR 0 u = f.err % 2 ^ F.IMG_STATUS_ERR.w ∧ fget F.IMG_STATUS_SECTION 0 u = f.sec % 2 ^ F.IMG_STATUS_SECTION.w ∧
      fget F.IMG_CLAIM_A_OFFSET 0 u = f.aOff % 2 ^ F.IMG_CLAIM_A_OFFSET.w ∧ u.loader.image = [] ∧ u.tch.imgReply = none ∧ u.mem = s.mem) ∧
    (∀ (m : Img) (s : State), ∀ u, u = imageApply m s → u.cfg = m.cfg ∧ u.loader.header = m.hdr ∧ flag F.IMG_STATUS_LOADED 0 u = true ∧
      fget F.IMG_SERIAL_SERIAL 0 u = hdSerial m.hdr % 2 ^ 32 ∧ fget F.IMG_SVN_SVN 0 u = hdSvn m.hdr % 2 ^ 32 ∧ u.mode = s.mode ∧
      s.ward.floor ≤ u.ward.floor ∧ spMinSvn m.cfg ≤ u.ward.floor) ∧
    (∀ s : State, flag F.IMG_STATUS_DELTA_PENDING 0 s = true →
      (s.loader.applySeen = true → exec .deltaApply s = .next (deltaApply s)) ∧
      (s.loader.applySeen = false → exec .deltaApply s = .next s)) ∧
    (∀ s : State, s.power.held = none → s.power.heldConfigure = false → ∀ u, u = deltaApply s →
      u.cfg = mergeCfg s.cfg s.loader.pend ∧ u.loader.pend = [] ∧ flag F.IMG_STATUS_DELTA_PENDING 0 u = false ∧
      fget F.IMG_STATUS_PHASE 0 u = 0 ∧ u.mode = s.mode)

/-- A rise of a line latches a source whose bit is clear, with its DETAIL, and merges into one whose bit is set; with
a window, the rise that reaches N makes it LASTING. Stated for effective classes below C4 and reactions that isolate
nothing; a latch at class C4 ends in LOCKDOWN, or in BOOT is held for its end. A fall clears CAUSE, the end of a
window clears its count, a sensor reading is stored and held against its limits, and the second sample above one in a
row raises its line. A clear ends the bit when CAUSE is 0, latches it afresh when CAUSE is 1, and does nothing at C4
without C4_EXIT. (R466, R509, R514, R515, R517, R518, R519, R524, R535, R648.) -/
def Obligations.HaspLatchesMergesAndClears : Prop :=
  (∀ (n : HaspSrc) (d : Byte) (s : State), haspLive n s = true → n.val < 56 → haspCondition n d.toNat = false →
      exec (.haspLineRise n d) s = .next (haspRise n d.toNat s)) ∧
    (∀ (n : HaspSrc) (d : Byte) (s : State), haspLive n s = true → n.val < 56 → haspCondition n d.toNat = true →
      (haspCause n s = true → exec (.haspLineRise n d) s = .next s) ∧
      (haspCause n s = false → n.val ≠ 1 → exec (.haspLineRise n d) s = .next (haspRise n d.toNat (haspLevel n true s)))) ∧
    (∀ (n d : Nat) (s : State), n < 56 → fget F.HASP_SRC_CLASS_CLASS n s ≤ 2 → fget F.HASP_SRC_CLASS_REACTION n s < 2 →
      haspIsSet n s = false → haspForced n s = false → ∀ k, k = min 65535 (haspWinCount n s + 1) → ∀ t, t = haspRise n d s →
        (fget F.HASP_SRC_WINDOW_N n s = 0 → flag F.HASP_SRC_STATE_LASTING n t = false ∧ t.hasp = s.hasp) ∧
        (fget F.HASP_SRC_WINDOW_N n s ≠ 0 → fget F.HASP_SRC_WIN_COUNT n t = k ∧
          flag F.HASP_SRC_STATE_LASTING n t = decide (fget F.HASP_SRC_WINDOW_N n s ≤ k)) ∧
        (fget F.HASP_SRC_CLASS_CLASS n s ≤ 1 ∨ fget F.HASP_SRC_WINDOW_N n s = 0 → t.mode = s.mode ∧ t.mem = s.mem) ∧
        (fget F.HASP_SRC_WINDOW_N n s = 0 → flag F.HASP_SRC_STATE_ESCALATED n t = haspEscalates n (setFlag F.HASP_SRC_STATE_LASTING n false s)) ∧
        haspIsSet n t = true ∧ fget F.HASP_SRC_STATE_DETAIL n t = d % 256 ∧ fget F.HASP_SRC_STATE_REPEAT n t = 0 ∧
        haspAcked n t = false ∧ fget F.HASP_LATCHES_COUNT 0 t = (fget F.HASP_LATCHES_COUNT 0 s + 1) % 2 ^ F.HASP_LATCHES_COUNT.w ∧
        (haspSetList s = [] → fget F.HASP_FIRST_SOURCE 0 t = n ∧ flag F.HASP_FIRST_VALID 0 t = true) ∧
        (∀ m, m ≠ n → haspIsSet m t = haspIsSet m s)) ∧
    (∀ (n d : Nat) (s : State), n < 56 → fget F.HASP_SRC_WINDOW_N n s = 0 → fget F.HASP_SRC_CLASS_REACTION n s < 2 →
      haspIsSet n s = true → ∀ t, t = haspRise n d s → haspIsSet n t = true ∧ fget F.HASP_SRC_STATE_DETAIL n t = d % 256 ∧
        fget F.HASP_SRC_STATE_REPEAT n t = min 255 (fget F.HASP_SRC_STATE_REPEAT n s + 1) ∧ haspAcked n t = haspAcked n s ∧
        fget F.HASP_LATCHES_COUNT 0 t = fget F.HASP_LATCHES_COUNT 0 s ∧ t.mode = s.mode ∧ t.mem = s.mem) ∧
    (∀ (n d : Nat) (s : State), n < 56 → fget F.HASP_SRC_CLASS_CLASS n s = 4 → fget F.HASP_SRC_CLASS_REACTION n s < 2 →
      haspIsSet n s = false → ∀ t, t = haspRise n d s →
        (s.mode = .configure ∨ s.mode = .operate → t.mode = .lockdown ∧ flag F.HASP_PINS_LOCK_VALID 0 t = true ∧
          (flag F.HASP_PINS_LOCK_VALID 0 s = false → fget F.HASP_PINS_LOCK_SOURCE 0 t = n)) ∧
        (s.mode = .boot → t.mode = .boot ∧ t.power.lockHeld = true)) ∧
    (∀ (n : HaspSrc) (s : State), haspCause n s = true →
      (n.val ≠ 1 → n.val ≠ 11 → Completes (.haspLineFall n) s fun t =>
        haspCause n t = false ∧ OnlyFields [F.HASP_SRC_STATE_CAUSE.key n] s t) ∧
      (n.val = 1 → Completes (.haspLineFall n) s fun t => haspCause 1 t = false ∧ flag F.WARD_STATE_ENTROPY_OK 0 t = true ∧
        OnlyFields [F.HASP_SRC_STATE_CAUSE.key 1, F.WARD_STATE_ENTROPY_OK.key 0] s t) ∧
      (n.val = 11 → Completes (.haspLineFall n) s fun t => haspCause 11 t = false ∧
        t.power = { s.power with shkFaultIn := false } ∧ KeepsFields [F.HASP_SRC_STATE_CAUSE.key 11] s t)) ∧
    (∀ (n : HaspSrc) (s : State), ∀ c, Tab.find? s.hasp.window n = some c → Completes (.haspWindowClose n) s fun t =>
      Tab.find? t.hasp.window n = none ∧ fget F.HASP_SRC_WIN_COUNT n t = 0 ∧ c ≤ t.time.cclk ∧
      KeepsFields [F.HASP_SRC_WIN_COUNT.key n] s t ∧ t.mem = s.mem) ∧
    (∀ (n : Fin 16) (v : BitVec 16) (s : State), pinsLive s = true → ∀ u, u = tempRead n v s → ∀ w,
      w = limApply (tempLimit 6 n (signed 16 v.toNat) (signed 16 (fget F.MGMT_TEMP_LIMITS_WARN 0 u))) u →
      fget F.MGMT_TEMP_READING n u = v.toNat ∧ (Tab.get false s.tch.peakTaken n = false → fget F.MGMT_TEMP_PEAK_PEAK n u = v.toNat) ∧
      signed 16 v.toNat ≤ signed 16 (fget F.MGMT_TEMP_PEAK_PEAK n u) ∧
      exec (.sensorSample (.temp n) v) s =
        .next (limApply (tempLimit 7 n (signed 16 v.toNat) (signed 16 (fget F.MGMT_TEMP_LIMITS_CRIT 0 w))) w)) ∧
    (∀ (n : Fin 24) (v : BitVec 16) (s : State), pinsLive s = true → ∀ u, u = fset F.MGMT_VOLT_MV n v.toNat s →
      exec (.sensorSample (.volt n) v) s = .next (limApply (voltLimit n v.toNat u) u)) ∧
    (∀ (src i : Nat) (b : Bool) (s : State), i < limitSensors src → 1 ≤ limCount s.tch.above src i → haspCause src s = false →
      (∀ j ∈ List.range (limitSensors src), i < j → limCount s.tch.above src j < 2) → ∀ l : Limit, l = ⟨src, i, true, b⟩ →
      limApply l s = haspLineUp src i (limSample l s)) ∧
    (∀ (fn : Fn) (hi : Bool) (w : Word) (s : State), Reaches fn (if hi then .HASP_STATUS_HI else .HASP_STATUS_LO) 0 s →
      exec (.haspClear fn hi w) s = .next (haspClear hi w.toNat s)) ∧
    (∀ (hi : Bool) (k : Fin 32) (s : State), ∀ r, r = haspClearBit (k + if hi then 32 else 0) s →
      haspClear hi (2 ^ k.val) s = (if r.1 = true then lockdownExit r.2 else r.2)) ∧
    (∀ (n : Nat) (s : State), haspIsSet n s = true → ∀ t, t = (haspClearBit n s).2 →
      (haspEff n s ≠ 4 → haspCause n s = false → (haspClearBit n s).1 = false ∧ haspIsSet n t = false ∧
        fget F.HASP_SRC_STATE_REPEAT n t = 0 ∧ haspAcked n t = false ∧
        flag F.HASP_SRC_STATE_LASTING n t = false ∧ flag F.HASP_SRC_STATE_ESCALATED n t = false ∧
        (∀ m, m ≠ n → haspIsSet m t = haspIsSet m s) ∧ t.mode = s.mode ∧ t.mem = s.mem) ∧
      (fget F.HASP_SRC_CLASS_CLASS n s ≤ 1 → haspForced n s = false → haspCause n s = true → haspIsSet n t = true ∧
        fget F.HASP_SRC_STATE_REPEAT n t = 0 ∧ haspAcked n t = false ∧ t.mode = s.mode ∧ t.mem = s.mem) ∧
      (haspEff n s = 4 → flag F.HASP_CTRL_C4_EXIT 0 s = false ∨ haspForced n s = true → haspClearBit n s = (false, s)))

/-- For each source of the word, ACKED becomes 1 when the written bit is 1 and the source is set, and stays as it was
otherwise. When every set source is acknowledged, no later fault of another source escalates by it. No level of READY,
FAULT_N or SHK_FAULT_N changes, no class, reaction or effective class, and no unit. (R523.) -/
def Obligations.AcknowledgementStopsEscalation : Prop :=
  ∀ (fn : Fn) (hi : Bool) (w : Word) (s : State), Reaches fn (if hi then .HASP_ACK_HI else .HASP_ACK_LO) 0 s →
    Completes (.haspAck fn hi w) s fun t =>
      (∀ n, n < 64 → haspAcked n t = (haspAcked n s || (haspIsSet n s && decide (n / 32 = b2n hi) && bit w.toNat (n % 32)))) ∧
      (∀ n, (∀ m, m < 64 → m ≠ n → haspIsSet m s = true → haspAcked m t = true) → haspEscalates n t = false) ∧
      (∀ n, haspIsSet n t = haspIsSet n s ∧ haspEff n t = haspEff n s ∧
        fget F.HASP_SRC_CLASS_CLASS n t = fget F.HASP_SRC_CLASS_CLASS n s ∧
        fget F.HASP_SRC_CLASS_REACTION n t = fget F.HASP_SRC_CLASS_REACTION n s) ∧
      faultLow t = faultLow s ∧ readyHigh t = readyHigh s ∧ shkDrive t = shkDrive s ∧ t.mode = s.mode ∧ t.mem = s.mem ∧
      t.ports = s.ports ∧ t.mesh = s.mesh ∧ t.coding = s.coding ∧ t.dma = s.dma ∧ t.ess = s.ess ∧ t.tch = s.tch

/-- A trigger, of the tick or of a command, starts a dump, makes one pending while one runs, and is counted as skipped
when one is pending. A dump that ends shows the counters as it read them, and a pending dump starts in the next cclk,
late. A window that ends moves the bytes of each port to LAST and PEAK. A write of BW_CTRL starts counting afresh;
PEAK_CLEAR with WINDOW_US unchanged sets the peaks to 0 and keeps LAST. (R551, R552, R553, R554, R568.) -/
def Obligations.DumpsAndBandwidthWindows : Prop :=
  (∀ s : State, loaded s = true → dumpTd s.cfg < 8 → Tab.get false s.time.tickSeen (dumpTd s.cfg) = true → modeOpen s = true →
      tickIdx (dumpTd s.cfg) s % dumpDiv s.cfg = 0 →
      (flag F.DUMP_STATUS_RUNNING 0 s = false → Completes .dumpTrigger s fun t =>
        t.trc.capTick = tickIdx (dumpTd s.cfg) s ∧ t.trc.capByCmd = false ∧ t.trc.capLate = false ∧ t.trc.capFrom = s.time.cclk ∧
        flag F.DUMP_STATUS_RUNNING 0 t = true ∧ KeepsFields [F.DUMP_STATUS_RUNNING.key 0] s t ∧ t.counters = s.counters ∧ t.mem = s.mem) ∧
      (flag F.DUMP_STATUS_RUNNING 0 s = true → flag F.DUMP_STATUS_PENDING 0 s = false → Completes .dumpTrigger s fun t =>
        flag F.DUMP_STATUS_PENDING 0 t = true ∧ t.trc.pendByCmd = false ∧ t.trc.pendTick = tickIdx (dumpTd s.cfg) s ∧
        KeepsFields [F.DUMP_STATUS_PENDING.key 0] s t ∧ t.mem = s.mem) ∧
      (flag F.DUMP_STATUS_RUNNING 0 s = true → flag F.DUMP_STATUS_PENDING 0 s = true → Completes .dumpTrigger s fun t =>
        fget F.DUMP_SKIPPED_COUNT 0 t = (fget F.DUMP_SKIPPED_COUNT 0 s + 1) % 2 ^ F.DUMP_SKIPPED_COUNT.w ∧
        t.trc = { s.trc with skipped := s.trc.skipped + 1 } ∧ KeepsFields [F.DUMP_SKIPPED_COUNT.key 0] s t ∧ t.mem = s.mem)) ∧
    (∀ (fn : Fn) (w : Word) (s : State), Reaches fn .DUMP_CTRL 0 s →
      (flag F.DUMP_STATUS_RUNNING 0 s = false → Completes (.dumpNow fn w) s fun t => flag F.DUMP_STATUS_RUNNING 0 t = true ∧
        t.trc.capByCmd = true ∧ t.trc.capLate = false ∧ t.trc.capFrom = s.time.cclk ∧ KeepsFields [F.DUMP_STATUS_RUNNING.key 0] s t) ∧
      (flag F.DUMP_STATUS_RUNNING 0 s = true → flag F.DUMP_STATUS_PENDING 0 s = false → Completes (.dumpNow fn w) s fun t =>
        flag F.DUMP_STATUS_PENDING 0 t = true ∧ t.trc.pendByCmd = true ∧ KeepsFields [F.DUMP_STATUS_PENDING.key 0] s t) ∧
      (flag F.DUMP_STATUS_RUNNING 0 s = true → flag F.DUMP_STATUS_PENDING 0 s = true → Completes (.dumpNow fn w) s fun t =>
        fget F.DUMP_SKIPPED_COUNT 0 t = (fget F.DUMP_SKIPPED_COUNT 0 s + 1) % 2 ^ F.DUMP_SKIPPED_COUNT.w ∧
        t.trc.skipped = s.trc.skipped + 1 ∧ KeepsFields [F.DUMP_SKIPPED_COUNT.key 0] s t)) ∧
    (∀ s : State, flag F.DUMP_STATUS_RUNNING 0 s = true → ∀ u, u = reachCclk (s.trc.capFrom + dumpCclk) s →
      (flag F.DUMP_STATUS_PENDING 0 s = false → Completes .dumpComplete s fun t => flag F.DUMP_STATUS_RUNNING 0 t = false ∧
        t.trc.shown = dumpImage u ∧ t.trc.dumps = s.trc.dumps + 1 ∧ s.trc.capFrom + dumpCclk ≤ t.time.cclk ∧
        KeepsFields [F.DUMP_STATUS_RUNNING.key 0] s t ∧ t.mem = s.mem) ∧
      (flag F.DUMP_STATUS_PENDING 0 s = true → Completes .dumpComplete s fun t => flag F.DUMP_STATUS_RUNNING 0 t = true ∧
        flag F.DUMP_STATUS_PENDING 0 t = false ∧ t.trc.shown = dumpImage u ∧ t.trc.dumps = s.trc.dumps + 1 ∧ t.trc.capLate = true ∧
        t.trc.capTick = s.trc.pendTick ∧ t.trc.capByCmd = s.trc.pendByCmd ∧ t.trc.capFrom = u.time.cclk + 1)) ∧
    (∀ s : State, running s = true → modeOpen s = true → Completes .bwWindowEnd s fun t => t.trc.rxNow = [] ∧ t.trc.txNow = [] ∧
      t.regs = s.regs ∧ t.mem = s.mem ∧ (∀ p, p < 256 →
        Tab.get 0 t.counters (bwOff p 0 / 8) = Tab.get 0 s.trc.rxNow p % 2 ^ 64 ∧
        Tab.get 0 t.counters (bwOff p 1 / 8) = Tab.get 0 s.trc.txNow p % 2 ^ 64 ∧
        Tab.get 0 t.counters (bwOff p 2 / 8) = max (Tab.get 0 s.counters (bwOff p 2 / 8)) (Tab.get 0 s.trc.rxNow p) % 2 ^ 64 ∧
        Tab.get 0 t.counters (bwOff p 3 / 8) = max (Tab.get 0 s.counters (bwOff p 3 / 8)) (Tab.get 0 s.trc.txNow p) % 2 ^ 64)) ∧
    (∀ (fn : Fn) (w : Word) (s : State), Reaches fn .BW_CTRL 0 s →
      Completes (.bwWindowWrite fn w) s fun t =>
        fget F.BW_CTRL_WINDOW_US 0 t = clampN 100 1000000 (wfld F.BW_CTRL_WINDOW_US w) ∧ t.trc.rxNow = [] ∧ t.trc.txNow = [] ∧
        KeepsFields [F.BW_CTRL_WINDOW_US.key 0] s t ∧ (∀ p k, p < 256 → k < 4 → Tab.get 0 t.counters (bwOff p k / 8) = 0) ∧ t.mem = s.mem) ∧
    (∀ (fn : Fn) (w : Word) (s : State), Reaches fn .BW_CTRL 0 s →
      (clampN 100 1000000 (wfld F.BW_CTRL_WINDOW_US w) = fget F.BW_CTRL_WINDOW_US 0 s → Completes (.peakClear fn w) s fun t =>
        t.regs = s.regs ∧ t.mem = s.mem ∧ t.trc.rxNow = s.trc.rxNow ∧ t.trc.txNow = s.trc.txNow ∧ (∀ p, p < 256 →
          Tab.get 0 t.counters (bwOff p 2 / 8) = 0 ∧ Tab.get 0 t.counters (bwOff p 3 / 8) = 0 ∧
          Tab.get 0 t.counters (bwOff p 0 / 8) = Tab.get 0 s.counters (bwOff p 0 / 8) ∧
          Tab.get 0 t.counters (bwOff p 1 / 8) = Tab.get 0 s.counters (bwOff p 1 / 8))) ∧
      (clampN 100 1000000 (wfld F.BW_CTRL_WINDOW_US w) ≠ fget F.BW_CTRL_WINDOW_US 0 s → Completes (.peakClear fn w) s fun t =>
        fget F.BW_CTRL_WINDOW_US 0 t = clampN 100 1000000 (wfld F.BW_CTRL_WINDOW_US w) ∧ t.trc.rxNow = [] ∧ t.trc.txNow = [] ∧
        (∀ p k, p < 256 → k < 4 → Tab.get 0 t.counters (bwOff p k / 8) = 0) ∧ t.mem = s.mem))

/-- With SINK 0 and a complete wide word held, a read of TRC_DATA0 removes it, latches it and returns its narrow word
0. Reads of TRC_DATA1 to TRC_DATA7 return the latched words and change nothing. A read of TRC_DATA0 with no complete
word held, or with SINK 1, returns the latched word again, keeps the latch and sets UNDERRUN. (R563.) -/
def Obligations.TraceFifoReads : Prop :=
  ∀ (fn : Fn) (s : State), Shows fn .TRC_DATA 0 s →
    (∀ w r, s.trc.fifo = w :: r → flag F.TRC_CTRL_SINK 0 s = false → Completes (.trcDataRead fn) s fun t =>
      t = { s with trc := { s.trc with fifo := r, latch := w }, out := .readData fn (w.getD 0 0) :: s.out }) ∧
    (s.trc.fifo = [] ∨ flag F.TRC_CTRL_SINK 0 s = true → Completes (.trcDataRead fn) s fun t =>
      t.out = .readData fn (s.trc.latch.getD 0 0) :: s.out ∧ flag F.TRC_STATUS_UNDERRUN 0 t = true ∧
      KeepsFields [F.TRC_STATUS_UNDERRUN.key 0] s t ∧ t = { s with regs := t.regs, out := t.out }) ∧
    (∀ i, 1 ≤ i → i < 8 → readReg 0 .TRC_DATA i s = (s.trc.latch.getD i 0, s))

/-- FLUSH discards every complete word and closes the word being packed with PAD and FLUSH. A write that sets SINK
without an OBSERVE grant answers BAD_STATE and changes RESULT only. A partly filled word closes with PAD after
IDLE_CLOSE_US. The open observation port sends the oldest word, a filler, or SYNC, in 16 cclk (log 187). (R564, R565,
R566, R567.) -/
def Obligations.TraceFlushSinkAndPort : Prop :=
  (∀ (fn : Fn) (w : Word) (s : State), Reaches fn .TRC_CTRL 0 s →
      (wbit F.TRC_CTRL_SINK w = false ∨ flag F.WARD_STATE_OBSERVE 0 s = true → Completes (.trcFlush fn w) s fun t =>
        t.trc.fifo = [s.trc.packing ++ List.replicate (7 - s.trc.packing.length) 0 ++ [0x05000000 + 4 * s.trc.packing.length]] ∧
        t.trc.packing = [] ∧ t.trc.gap = s.trc.gap ∧ t.trc.lastTop = none ∧ fget F.TRC_CTRL_RESULT 0 t = 0 ∧
        fget F.TRC_DROPS_COUNT 0 t = fget F.TRC_DROPS_COUNT 0 s ∧ t.mem = s.mem ∧ t.out = s.out) ∧
      (wbit F.TRC_CTRL_SINK w = true → flag F.WARD_STATE_OBSERVE 0 s = false → Completes (.trcFlush fn w) s fun t =>
        fget F.TRC_CTRL_RESULT 0 t = 5 ∧ OnlyFields [F.TRC_CTRL_RESULT.key 0] s t) ∧
      (flag F.WARD_STATE_OBSERVE 0 s = false → Completes (.trcSinkSet fn w) s fun t =>
        fget F.TRC_CTRL_RESULT 0 t = 5 ∧ OnlyFields [F.TRC_CTRL_RESULT.key 0] s t) ∧
      (flag F.WARD_STATE_OBSERVE 0 s = true → wbit F.TRC_CTRL_FLUSH w = false → Completes (.trcSinkSet fn w) s fun t =>
        flag F.TRC_CTRL_SINK 0 t = true ∧ fget F.TRC_CTRL_RESULT 0 t = 0 ∧ t.trc.fifo = s.trc.fifo ∧ t.trc.packing = s.trc.packing ∧
        flag F.TRC_CTRL_ENABLE 0 t = wbit F.TRC_CTRL_ENABLE w ∧ t.mem = s.mem ∧ t.out = s.out)) ∧
    (∀ s : State, fget F.TRC_CTRL_IDLE_CLOSE_US 0 s ≠ 0 → s.trc.packing ≠ [] → modeOpen s = true →
      Completes .trcIdleClose s fun t => t.trc.packing = [] ∧
        t.trc.fifo = s.trc.fifo ++ [s.trc.packing ++ List.replicate (8 - s.trc.packing.length) 0] ∧
        s.trc.wordAt + fget F.TRC_CTRL_IDLE_CLOSE_US 0 s * 1600 ≤ t.time.cclk ∧ t.regs = s.regs ∧ t.mem = s.mem) ∧
    (∀ s : State, obsOpen s = true →
      (s.trc.sinceSync = none → Completes .obsWordSend s fun t => t.out = .obs (List.replicate 8 0x07C35AA5) :: s.out ∧
        t.trc = { s.trc with sinceSync := some 0 } ∧ t.time.cclk = s.time.cclk + 16 ∧ t.regs = s.regs) ∧
      (∀ n, s.trc.sinceSync = some n →
        (1023 ≤ n → Completes .obsWordSend s fun t => t.out = .obs (List.replicate 8 0x07C35AA5) :: s.out ∧
          t.trc = { s.trc with sinceSync := some 0 } ∧ t.time.cclk = s.time.cclk + 16 ∧ t.regs = s.regs) ∧
        (n < 1023 → ∀ w r, s.trc.fifo = w :: r → Completes .obsWordSend s fun t => t.out = .obs w :: s.out ∧
          t.trc = { s.trc with fifo := r, sinceSync := some (n + 1) } ∧ t.time.cclk = s.time.cclk + 16 ∧ t.regs = s.regs) ∧
        (n < 1023 → s.trc.fifo = [] → Completes .obsWordSend s fun t => t.out = .obs (List.replicate 8 0x06000000) :: s.out ∧
          t.trc = { s.trc with sinceSync := some (n + 1) } ∧ t.time.cclk = s.time.cclk + 16 ∧ t.regs = s.regs)))

/-- The rails come up without a change of mode. POWER_UP with every rail valid enters BOOT, with board test as TEST_EN
says. A lost rail or a fall of PORST_N ends in OFF, and the fuses keep their value. SYSRST_N and SHK_RST_N hold the
device in reset in BOOT with memory lost; the release leaves BOOT as TEST_EN says, and the own drive of SHK_RST_N ends
10 µs later. A fall of PCIE_PERST_N acts as a Function Level Reset of PF0 where functions are served, and its rise
with the wake disabled changes only the pin. (R129, R571, R573, R576, R577, R578, R582, R589.) -/
def Obligations.RailsAndResetPins : Prop :=
  (∀ s : State, s.power.rails = false → exec .railUp s = .next { s with power := { s.power with rails := true } }) ∧
    (∀ (e : Bool) (s : State), s.power.rails = true → s.power.porstHigh = false → s.power.inReset = false →
      Completes (.powerUp e) s fun t => t.mode = .boot ∧ flag F.GLB_MODE_BOARD_TEST 0 t = e ∧ fget F.GLB_MODE_MODE 0 t = 1 ∧
        t.power.porstHigh = true ∧ t.power.driveShkRst = false ∧ t.time.cclk = s.time.cclk + 16000 ∧ t.mem = s.mem ∧ t.ward = s.ward) ∧
    (∀ s : State, Completes .railLoss s fun t => t.mode = .off ∧ t.power.rails = false ∧ t.mem.cells = [] ∧
      t.ward.fwSvn = s.ward.fwSvn ∧ t.ward.patchSvn = s.ward.patchSvn ∧ t.ward.banks = s.ward.banks ∧ t.ward.storeEpoch = s.ward.storeEpoch ∧
      t.ward.decommissioned = s.ward.decommissioned ∧ t.ward.kCmd = [] ∧ t.ward.hbmKey = State.reset.ward.hbmKey ∧
      t.tch.slotA = s.tch.slotA ∧ t.tch.blocks = s.tch.blocks ∧ fget F.GLB_MODE_MODE 0 t = 0) ∧
    (∀ s : State, s.power.porstHigh = true → s.power.rails = true → Completes .porstFall s fun t => t.mode = .off ∧
      t.power.porstHigh = false ∧ t.power.driveShkRst = true ∧ flag F.GLB_RESET_CAUSE_PORST 0 t = true ∧
      flag F.GLB_RESET_CAUSE_POWER_ON 0 t = false ∧ t.mem.cells = [] ∧ t.ward.fwSvn = s.ward.fwSvn) ∧
    (∀ s : State, s.power.rails = true → s.mode ≠ .off → s.power.inReset = false →
      (Completes .sysrst s fun t => t.mode = .boot ∧ t.power.inReset = true ∧ t.power.driveShkRst = true ∧ t.power.bootCause = 2 ∧
        flag F.GLB_RESET_CAUSE_SYSRST 0 t = true ∧ t.mem.cells = [] ∧ t.power.configured = false ∧ t.ward.fwSvn = s.ward.fwSvn ∧
        t.time.cclk = s.time.cclk ∧ t.time.ptp = s.time.ptp ∧ fget F.TIME_INCR_INCR 0 t = fget F.TIME_INCR_INCR 0 s ∧
        (∀ n, haspIsSet n t = haspIsSet n s)) ∧
      (Completes .shkReset s fun t => t.mode = .boot ∧ t.power.inReset = true ∧ t.power.driveShkRst = false ∧ t.power.bootCause = 3 ∧
        flag F.GLB_RESET_CAUSE_SHK_RST 0 t = true ∧ t.mem.cells = [] ∧ t.power.configured = false ∧ t.ward.fwSvn = s.ward.fwSvn)) ∧
    (∀ (e : Bool) (s : State), s.power.inReset = true →
      (s.mode = .boot → Completes (.resetRelease e) s fun t => t.mode = .boot ∧
        t.power.inReset = false ∧ flag F.GLB_MODE_BOARD_TEST 0 t = e ∧ t.mem = s.mem ∧
        (s.power.porstHigh = true → t.power.driveShkRst = false ∧
          t.time.cclk = s.time.cclk + if s.power.driveShkRst = true then 16000 else 0)) ∧
      (s.mode = .off → s.power.porstHigh = false →
        exec (.resetRelease e) s = .next { s with power := { s.power with inReset := false } })) ∧
    (∀ s : State, s.power.perstHigh = true → s.power.inReset = false → ∀ u, u = linkDownAct (setFlag F.GLB_RESET_CAUSE_PERST 0 true
        { s with power := { s.power with perstHigh := false } }) →
      (s.mode = .configure ∨ s.mode = .operate ∨ s.mode = .lockdown → exec .perstFall s = .next (pcieReset (flr 0 u))) ∧
      (s.mode = .boot ∨ s.mode = .standby → exec .perstFall s = .next (pcieReset u))) ∧
    (∀ s : State, s.power.perstHigh = false → flag F.GLB_WAKE_CFG_PERST 0 s = false → exec .perstRise s =
      .next { s with power := { s.power with perstHigh := true } })

/-- With a PUF that reconstructs its key and no failing unit, BOOT draws the HBM key, zeroes HBM and goes through the
steps of R471; a good image in slot A, or else in slot B with source 0 raised, its bundle, and a store copy when
OWNED, end in CONFIGURE when no C4 bit stands. A failing PUF, unit, firmware, bundle or store ends in LOCKDOWN. In
board test only the HBM key is made. (R471, R472, R478, R579, R580, R582, R648.) -/
def Obligations.BootEndsInConfigureOrLockdown : Prop :=
  (∀ (b : BootIn) (s : State), s.mode = .boot → s.power.inReset = false → ∀ e, e = setFlag F.WARD_STATE_ENTROPY_OK 0 (!haspCause 1 s) s →
      (flag F.GLB_MODE_BOARD_TEST 0 s = true → b.pufOk = true → exec (.bootComplete b) s = .next (bootKey e)) ∧
      (flag F.GLB_MODE_BOARD_TEST 0 s = true → b.pufOk = false → exec (.bootComplete b) s = .next (fset F.WARD_BOOT_FAIL 0 5 e)) ∧
      (flag F.GLB_MODE_BOARD_TEST 0 s = false → ∀ u, u = { e with tch := { e.tch with slotA := b.slotA, slotB := b.slotB } } →
        ∀ v, v = setFlag F.GLB_BIST_DONE 0 true (fset F.GLB_BIST_FAIL_UNIT 0 b.bistFail (bootKey u)) →
        (b.pufOk = false → exec (.bootComplete b) s = .next (bootFail 5 u)) ∧
        (b.pufOk = true → 1 ≤ b.bistFail → b.bistFail ≤ 8 → exec (.bootComplete b) s = .next (bistFailed b.bistFail v)) ∧
        (b.pufOk = true → b.bistFail = 0 → exec (.bootComplete b) s = .next (bootSteps b v)))) ∧
    (∀ s : State, ∀ u, u = bootKey s → flag F.MEM_STATUS_INIT_DONE 0 u = true ∧ flag F.WARD_STATE_HBM_KEY_VALID 0 u = true ∧
      (∀ a, a < 72 * 2 ^ 30 → readByte a u = 0#8) ∧ u.draws = s.draws + 1 ∧ u.ward.hbmKey = (drawBytes 64 s).1 ∧ u.mode = s.mode) ∧
    (∀ (b : BootIn) (s : State), ∀ i, fwValid s.tch.slotA s = some i → ∀ u, u = fwLoad i 0 s →
      (patchValid i s = false → bootSteps b s = bootFail 3 u) ∧
      (patchValid i s = true → ∀ v, v = patchLoad i u →
        (secState s ≠ 1 → bootSteps b s = bootEnd v) ∧
        (secState s = 1 → storePick b v = none → bootSteps b s = bootFail 4 v) ∧
        (secState s = 1 → ∀ c, storePick b v = some c → bootSteps b s = bootEnd (storeOpen c v)))) ∧
    (∀ (b : BootIn) (s : State), fwValid s.tch.slotA s = none → ∀ e, e = haspLineUp 0 1 s →
      (fwValid s.tch.slotB s = none → bootSteps b s = bootFail 2 (setFlag F.WARD_BOOT_FALLBACK 0 true e)) ∧
      (∀ i, fwValid s.tch.slotB s = some i → patchValid i s = true → secState s ≠ 1 →
        bootSteps b s = bootEnd (patchLoad i (fwLoad i 1 (fset F.WARD_BOOT_FAIL 0 1 e))))) ∧
    (∀ (i : FwImage) (n : Nat) (s : State), ∀ u, u = fwLoad i n s → fget F.WARD_SVN_FW_RUN 0 u = i.svn % 2 ^ F.WARD_SVN_FW_RUN.w ∧
      u.ward.fwDigest = i.digest ∧ fget F.WARD_BOOT_FW_SLOT 0 u = n % 2 ^ F.WARD_BOOT_FW_SLOT.w ∧ u.mode = s.mode) ∧
    (∀ s : State, ∀ u, u = bootEnd s →
      (s.power.lockHeld = false → haspC4 s = false → s.power.retImage = none → u.mode = .configure ∧
        u.power.configured = true ∧ u.tch.bootCount = s.tch.bootCount + 1 ∧ u.mem = s.mem ∧ u.ward.keys = []) ∧
      (s.power.lockHeld = true ∨ haspC4 s = true → u.mode = .lockdown)) ∧
    (∀ (n : Nat) (s : State), (bootFail n s).mode = .lockdown ∧ (bistFailed n s).mode = .lockdown)

/-- A request for OPERATE in CONFIGURE with an image enters OPERATE, with its engines enabled. One for CONFIGURE in
OPERATE starts the stop of the data path, and its end enters CONFIGURE. One for STANDBY, with no transition in
progress and no wake, is armed for L2 by a write with AT_L2, and is taken by the pin while the link is cold, and at L2
when armed. Gating comes 2 us after, STANDBY when the drains have ended. A wake before gating withdraws the request; a
later one is latched, and acted on 50 us after STANDBY was reached; the resume ends in OPERATE, or in LOCKDOWN when
that was requested. A request that a check turns away answers its RESULT and changes nothing else. (R74, R583, R584,
R585, R586, R588, R589, R590, R591, R597, R599.) -/
def Obligations.ModeRequestsAndStandby : Prop :=
  (∀ (fn : Fn) (w : Word) (s : State), Reaches fn .GLB_MODE_REQ 0 s →
      (s.mode = .configure → loaded s = true → fget F.IMG_STATUS_PHASE 0 s = 0 → Completes (.modeReqOperate fn w) s fun t =>
        t = fset F.GLB_MODE_REQ_RESULT 0 0 (enterMode .operate 0 (enginesOn s)) ∧ t.mode = .operate ∧ fget F.GLB_MODE_MODE 0 t = 3) ∧
      (s.mode ≠ .configure ∨ loaded s = false → Completes (.modeReqOperate fn w) s fun t => fget F.GLB_MODE_REQ_RESULT 0 t = 5 ∧
        OnlyFields [F.GLB_MODE_REQ_RESULT.key 0] s t) ∧
      (s.mode = .operate → transBusy s = false → flag F.IMG_STATUS_DELTA_PENDING 0 s = false →
        exec (.modeReqConfigure fn w) s = .next (fset F.GLB_MODE_REQ_RESULT 0 0 (startConfigure s))) ∧
      (s.mode = .operate → transBusy s = false → flag F.IMG_STATUS_DELTA_PENDING 0 s = true → Completes (.modeReqConfigure fn w) s fun t =>
        fget F.GLB_MODE_REQ_RESULT 0 t = 2 ∧ t.power = { s.power with heldConfigure := true } ∧ KeepsFields [F.GLB_MODE_REQ_RESULT.key 0] s t) ∧
      (s.mode = .operate → transBusy s = true → Completes (.modeReqConfigure fn w) s fun t => fget F.GLB_MODE_REQ_RESULT 0 t = 1 ∧
        OnlyFields [F.GLB_MODE_REQ_RESULT.key 0] s t) ∧
      (s.mode = .operate → transBusy s = false → s.power.wakeLow = false → s.power.wakeSeen ≠ some s.time.cclk →
        (wbit F.GLB_MODE_REQ_AT_L2 w = true → Completes (.standbyRequest fn w) s fun t =>
          fget F.GLB_MODE_REQ_RESULT 0 t = 2 ∧ fget F.STBY_STATUS_STATUS 0 t = 2 ∧
          t.power = { s.power with armed := some (wbit F.GLB_MODE_REQ_RETAIN_HBM w) } ∧ t.mode = .operate ∧ t.mem = s.mem) ∧
        (wbit F.GLB_MODE_REQ_AT_L2 w = false → Completes (.standbyRequest fn w) s fun t =>
          fget F.GLB_MODE_REQ_RESULT 0 t = 5 ∧ fget F.STBY_STATUS_STATUS 0 t = 5 ∧
          OnlyFields [F.GLB_MODE_REQ_RESULT.key 0, F.STBY_STATUS_STATUS.key 0] s t))) ∧
    (∀ s : State, s.mode = .operate → inTransition s = true → fget F.GLB_MODE_TARGET 0 s = 2 → wireBusy s = false →
      Completes .configureEntry s fun t => t.mode = .configure ∧ inTransition t = false ∧
        t = enterMode .configure 0 (setFlag F.GLB_MODE_TRANSITION 0 false (drainsEnd s))) ∧
    (∀ s : State, s.power.stbyLow = false → pinsLive s = true → flag F.GLB_WAKE_CFG_PIN_REQ 0 s = true → stbyCheck false s = 0 →
      flag F.IMG_STATUS_DELTA_PENDING 0 s = false → Completes .stbyReqPin s fun t => inTransition t = true ∧
        fget F.GLB_MODE_TARGET 0 t = 4 ∧ fget F.STBY_STATUS_STATUS 0 t = 2 ∧ t.power.takenAt = s.time.cclk ∧
        t.power.retain = flag F.GLB_WAKE_CFG_PIN_RETAIN 0 s ∧ t.power.stbyLow = true ∧ t.mode = s.mode ∧ t.mem = s.mem) ∧
    (∀ s : State, s.pcie.link ≠ .down → s.mode = .operate → inTransition s = false → s.power.held = none →
      s.power.heldConfigure = false → ∀ k, s.power.armed = some k →
      (s.power.wakeLow = false → s.power.wakeSeen ≠ some s.time.cclk → flag F.IMG_STATUS_DELTA_PENDING 0 s = false →
        Completes .l2ReadyEntry s fun t => inTransition t = true ∧ fget F.GLB_MODE_TARGET 0 t = 4 ∧ t.power.retain = k ∧
          t.power.armed = none ∧ t.power.takenAt = s.time.cclk ∧ t.pcie.link = .l2Ready ∧ t.mem = s.mem) ∧
      (s.power.wakeSeen = some s.time.cclk → Completes .l2ReadyEntry s fun t => inTransition t = false ∧ t.power.armed = none ∧
        fget F.STBY_STATUS_STATUS 0 t = 0x0A ∧ t.pcie.link = .l2Ready ∧ t.mem = s.mem)) ∧
    (∀ s : State, s.mode = .operate → inTransition s = true → fget F.GLB_MODE_TARGET 0 s = 4 → s.power.gated = false →
      ∀ u, u = reachCclk (s.power.takenAt + 3200) s → exec .standbyGating s = .next (logSealNow (quiesce (grantStop 4
        { u with power := { u.power with gated := true, recorded := enabledUnits u } })))) ∧
    (∀ s : State, s.mode = .operate → s.power.gated = true → wireBusy s = false → Completes .standbyReached s fun t =>
      t.mode = .standby ∧ t.power.gated = false ∧ inTransition t = false ∧ fget F.STBY_STATUS_STATUS 0 t = 0 ∧
      flag F.GLB_MODE_RETAINED 0 t = s.power.retain ∧ t.power.reachedAt = t.time.cclk ∧
      (∀ n ∈ [1, 6, 9, 14, 37, 38, 39, 40], haspCause n t = false)) ∧
    (∀ s : State, s.power.wakeLow = false → pinsLive s = true → flag F.GLB_WAKE_CFG_WAKE_PIN 0 s = true → ∀ u,
      u = { s with power := { s.power with wakeLow := true, wakeSeen := some s.time.cclk } } →
      (s.mode = .operate → inTransition s = true → fget F.GLB_MODE_TARGET 0 s = 4 → s.power.gated = false →
        Completes (.wake .wakeN false) s fun t => inTransition t = false ∧ fget F.STBY_STATUS_STATUS 0 t = 0x0A ∧
          t.power = u.power ∧ t.mem = s.mem) ∧
      (s.mode = .operate → inTransition s = true → fget F.GLB_MODE_TARGET 0 s = 4 → s.power.gated = true →
        exec (.wake .wakeN false) s = .next (wakeLatch 1 u)) ∧
      (s.mode = .standby → s.power.resuming = false → s.time.cclk < s.power.reachedAt + 80000 →
        Completes (.wake .wakeN false) s fun t => flag F.STBY_STATUS_WAKE_LATCHED 0 t = true ∧ t.mode = .standby ∧
          (s.power.firstWake = 0 → t.power.firstWake = 1 ∧ fget F.STBY_STATUS_WAKE_SRC 0 t = 1) ∧
          (s.power.firstWake ≠ 0 → t.power = u.power ∧ fget F.STBY_STATUS_WAKE_SRC 0 t = fget F.STBY_STATUS_WAKE_SRC 0 s)) ∧
      (s.mode = .standby → s.power.resuming = false → s.power.reachedAt + 80000 ≤ s.time.cclk →
        exec (.wake .wakeN false) s = .next (wakeAct (wakeLatch 1 u)))) ∧
    (∀ s : State, s.power.perstHigh = false → exec (.wake .perstN false) s =
      .next (wakeIf F.GLB_WAKE_CFG_PERST 3 { s with power := { s.power with perstHigh := true } })) ∧
    (∀ s : State, s.power.stbyLow = true → exec (.wake .stbyReqN false) s =
      .next (wakeIf F.GLB_WAKE_CFG_STBY_PIN 2 { s with power := { s.power with stbyLow := false } })) ∧
    (∀ s : State, s.mode = .standby → ∀ n, s.power.alarmNs = some n → ∀ u, u = reachPtp n s → n ≤ nowNs u →
      exec .alarm s = .next (wakeEvent 4 { u with power := { u.power with alarmNs := none } })) ∧
    (∀ s : State, s.mode = .standby → s.power.resuming = false → (s.power.firstWake ≠ 0 ∨ s.power.lockHeld = true) →
      exec .wakeDwellEnd s = .next (wakeAct (reachCclk (s.power.reachedAt + 80000) s))) ∧
    (∀ s : State, ∀ u, u = wakeAct s →
      (s.power.retain = true ∨ s.power.lockHeld = true → u.power.resuming = true ∧
        u.power.wokeAt = s.time.cclk ∧ inTransition u = true ∧ u.mode = s.mode ∧ u.mem = s.mem) ∧
      (s.power.retain = false → s.power.lockHeld = false → u.mode = .boot ∧ flag F.GLB_RESET_CAUSE_STANDBY_WAKE 0 u = true ∧
        u.power.bootCause = 9 ∧ u.mem.cells = [] ∧ u.power.retImage.isSome = loaded s)) ∧
    (∀ s : State, s.mode = .standby → s.power.resuming = true → ∀ u, u = reachCclk (s.power.wokeAt + 640000) s →
      (s.power.lockHeld = false → exec .wakeResume s = .next (resumeOperate u)) ∧
      (s.power.lockHeld = true → Completes .wakeResume s fun t => t.mode = .lockdown)) ∧
    (∀ s : State, ∀ u, u = resumeOperate s → s.power.recorded = [] → u.mode = .operate ∧ inTransition u = false ∧
      u.power.resuming = false ∧ u.tm.queues = [])
end

