-- ==== Sys2Proof/Laws/Table.lean ====
section
/-! SUPPORT. What a read of a sparse table gives after an update, and that updates keep the canonical form: rising keys, no
entry equal to the default. -/
namespace Sys2Proof.Machine

variable {α : Type}

@[simp] theorem Tab.get_nil (d : α) (n : Nat) : Tab.get d [] n = d := rfl

theorem Tab.del_cons (k : Nat) (v : α) (r : Tab α) (n : Nat) :
    Tab.del ((k, v) :: r) n = if k = n then Tab.del r n else (k, v) :: Tab.del r n := by
  by_cases h : k = n <;> simp [Tab.del, h]

theorem Tab.get_del_same (d : α) (t : Tab α) (n : Nat) : Tab.get d (Tab.del t n) n = d := by
  induction t with
  | nil => rfl
  | cons p r ih =>
    obtain ⟨k, v⟩ := p
    by_cases h : k = n
    · simpa [Tab.del_cons, h] using ih
    · simpa [Tab.del_cons, h, Tab.get] using ih

theorem Tab.get_del_ne (d : α) (t : Tab α) {n m : Nat} (h : m ≠ n) : Tab.get d (Tab.del t n) m = Tab.get d t m := by
  induction t with
  | nil => rfl
  | cons p r ih =>
    obtain ⟨k, v⟩ := p
    by_cases hk : k = n
    · simpa [Tab.del_cons, hk, Tab.get, Ne.symm h] using ih
    · by_cases hm : k = m
      · subst hm; simp [Tab.del_cons, hk, Tab.get]
      · simpa [Tab.del_cons, hk, Tab.get, hm] using ih

/-- No entry has the key. -/
def Tab.lacks (t : Tab α) (n : Nat) : Prop := ∀ p ∈ t, p.1 ≠ n

theorem Tab.lacks_del (t : Tab α) (n : Nat) : (Tab.del t n).lacks n := by
  intro p hp
  simpa using (List.mem_filter.1 hp).2

theorem Tab.get_ins_same (d : α) (t : Tab α) (n : Nat) (v : α) (h : t.lacks n) : Tab.get d (Tab.ins n v t) n = v := by
  induction t with
  | nil => simp [Tab.ins, Tab.get]
  | cons p r ih =>
    obtain ⟨k, w⟩ := p
    have hk : k ≠ n := h (k, w) List.mem_cons_self
    by_cases hl : n < k
    · simp [Tab.ins, hl, Tab.get]
    · simpa [Tab.ins, hl, Tab.get, hk] using ih (fun q hq => h q (List.mem_cons_of_mem _ hq))

theorem Tab.get_ins_ne (d : α) (t : Tab α) {n m : Nat} (v : α) (h : m ≠ n) : Tab.get d (Tab.ins n v t) m = Tab.get d t m := by
  induction t with
  | nil => simp [Tab.ins, Tab.get, Ne.symm h]
  | cons p r ih =>
    obtain ⟨k, w⟩ := p
    by_cases hl : n < k
    · simp [Tab.ins, hl, Tab.get, Ne.symm h]
    · by_cases hm : k = m
      · subst hm; simp [Tab.ins, hl, Tab.get]
      · simpa [Tab.ins, hl, Tab.get, hm] using ih

@[simp] theorem Tab.get_put_same (d : α) (t : Tab α) (n : Nat) (v : α) : Tab.get d (Tab.put t n v) n = v :=
  Tab.get_ins_same d _ n v (Tab.lacks_del t n)

theorem Tab.get_put_ne (d : α) (t : Tab α) {n m : Nat} (v : α) (h : m ≠ n) : Tab.get d (Tab.put t n v) m = Tab.get d t m := by
  rw [Tab.put, Tab.get_ins_ne d _ v h, Tab.get_del_ne d t h]

@[simp] theorem Tab.get_set_same [DecidableEq α] (d : α) (t : Tab α) (n : Nat) (v : α) : Tab.get d (Tab.set d t n v) n = v := by
  unfold Tab.set
  split
  · rename_i h; rw [h]; exact Tab.get_del_same d t n
  · exact Tab.get_put_same d t n v

theorem Tab.get_set_ne [DecidableEq α] (d e : α) (t : Tab α) {n m : Nat} (v : α) (h : m ≠ n) :
    Tab.get e (Tab.set d t n v) m = Tab.get e t m := by
  unfold Tab.set
  split
  · exact Tab.get_del_ne e t h
  · exact Tab.get_put_ne e t v h

/-- Reading any key after a write. -/
theorem Tab.get_set [DecidableEq α] (d : α) (t : Tab α) (n m : Nat) (v : α) :
    Tab.get d (Tab.set d t n v) m = if m = n then v else Tab.get d t m := by
  by_cases h : m = n
  · subst h; simp
  · simp [h, Tab.get_set_ne d d t v h]

theorem Tab.find?_del_same (t : Tab α) (n : Nat) : Tab.find? (Tab.del t n) n = none := by
  induction t with
  | nil => rfl
  | cons p r ih =>
    obtain ⟨k, v⟩ := p
    by_cases h : k = n
    · simpa [Tab.del_cons, h] using ih
    · simpa [Tab.del_cons, h, Tab.find?] using ih

theorem Tab.find?_ins_same (t : Tab α) (n : Nat) (v : α) (h : t.lacks n) : Tab.find? (Tab.ins n v t) n = some v := by
  induction t with
  | nil => simp [Tab.ins, Tab.find?]
  | cons p r ih =>
    obtain ⟨k, w⟩ := p
    have hk : k ≠ n := h (k, w) List.mem_cons_self
    by_cases hl : n < k
    · simp [Tab.ins, hl, Tab.find?]
    · simpa [Tab.ins, hl, Tab.find?, hk] using ih (fun q hq => h q (List.mem_cons_of_mem _ hq))

@[simp] theorem Tab.find?_put_same (t : Tab α) (n : Nat) (v : α) : Tab.find? (Tab.put t n v) n = some v :=
  Tab.find?_ins_same _ n v (Tab.lacks_del t n)

/-! ### Canonical form -/

/-- The keys rise strictly, and start no lower than `n`. -/
def Tab.rises : Nat → Tab α → Prop
  | _, [] => True
  | n, (k, _) :: r => n ≤ k ∧ Tab.rises (k + 1) r

theorem Tab.rises_mono {t : Tab α} {n m : Nat} (h : m ≤ n) (ht : Tab.rises n t) : Tab.rises m t := by
  cases t with
  | nil => trivial
  | cons p r => exact ⟨Nat.le_trans h ht.1, ht.2⟩

theorem Tab.rises_filter {t : Tab α} {n : Nat} (p : Nat × α → Bool) (ht : Tab.rises n t) : Tab.rises n (t.filter p) := by
  induction t generalizing n with
  | nil => trivial
  | cons q r ih =>
    obtain ⟨k, v⟩ := q
    by_cases h : p (k, v)
    · simp only [List.filter, h]; exact ⟨ht.1, ih ht.2⟩
    · simp only [List.filter, h]; exact Tab.rises_mono (Nat.le_succ_of_le ht.1) (ih ht.2)

theorem Tab.rises_ins {t : Tab α} {m n : Nat} {v : α} (ht : Tab.rises m t) (hm : m ≤ n) (hl : t.lacks n) :
    Tab.rises m (Tab.ins n v t) := by
  induction t generalizing m with
  | nil => exact ⟨hm, trivial⟩
  | cons q r ih =>
    obtain ⟨k, w⟩ := q
    have hk : k ≠ n := hl (k, w) List.mem_cons_self
    by_cases h : n < k
    · simp only [Tab.ins, h, if_true]; exact ⟨hm, h, ht.2⟩
    · simp only [Tab.ins, h, if_false]
      exact ⟨ht.1, ih ht.2 (by omega) (fun q hq => hl q (List.mem_cons_of_mem _ hq))⟩

theorem Tab.mem_ins {t : Tab α} {n : Nat} {v : α} {q : Nat × α} (h : q ∈ Tab.ins n v t) : q = (n, v) ∨ q ∈ t := by
  induction t with
  | nil => simpa [Tab.ins] using h
  | cons p r ih =>
    obtain ⟨k, w⟩ := p
    by_cases hl : n < k
    · simpa [Tab.ins, hl] using h
    · simp only [Tab.ins, hl, if_false, List.mem_cons] at h ⊢
      rcases h with h | h
      · exact .inr (.inl h)
      · exact (ih h).imp id .inr

theorem Tab.rises_set [DecidableEq α] {d : α} {t : Tab α} (n : Nat) (v : α) (ht : Tab.rises 0 t) :
    Tab.rises 0 (Tab.set d t n v) := by
  unfold Tab.set
  split
  · exact Tab.rises_filter _ ht
  · exact Tab.rises_ins (Tab.rises_filter _ ht) (Nat.zero_le _) (Tab.lacks_del t n)

theorem Tab.set_listed [DecidableEq α] {d : α} {t : Tab α} (n : Nat) (v : α) (ht : ∀ q ∈ t, q.2 ≠ d) :
    ∀ q ∈ Tab.set d t n v, q.2 ≠ d := by
  unfold Tab.set
  split
  · exact fun q hq => ht q (List.mem_filter.1 hq).1
  · rename_i hv
    intro q hq
    rcases Tab.mem_ins hq with h | h
    · simpa [h] using hv
    · exact ht q (List.mem_filter.1 h).1

end Sys2Proof.Machine
end

