-- ==== Sys2Proof/Laws/State.lean ====
section
/-! SUPPORT. What the plain updates of the state leave as it was, one lemma for each update and each part of the state, and
what a register field reads after a register field is set. -/
namespace Sys2Proof.Machine

/-! ### Register fields -/

/-- A field reads what was set, as far as it fits. -/
@[simp] theorem fget_fset_same (f : Fld) (i v : Nat) (s : State) : fget f i (fset f i v s) = v % 2 ^ f.w := by
  simp [fget, fset]

/-- A field of another key keeps its value. -/
theorem fget_fset_ne {f g : Fld} {i j : Nat} (h : g.key j ≠ f.key i) (v : Nat) (s : State) :
    fget g j (fset f i v s) = fget g j s := by
  exact Tab.get_set_ne _ _ _ _ h

/-- A one-bit field reads the Bool that was set. -/
theorem flag_setFlag_same (f : Fld) (i : Nat) (b : Bool) (s : State) (h : f.w = 1) : flag f i (setFlag f i b s) = b := by
  cases b <;> simp [flag, setFlag, b2n, h]

/-- A one-bit field of another key keeps its value. -/
theorem flag_setFlag_ne {f g : Fld} {i j : Nat} (h : g.key j ≠ f.key i) (b : Bool) (s : State) :
    flag g j (setFlag f i b s) = flag g j s := by
  simp [flag, setFlag, fget_fset_ne h]

/-- A read of a field depends on the register file alone. -/
theorem fget_congr {f : Fld} {i : Nat} {s t : State} (h : t.regs = s.regs) : fget f i t = fget f i s := by
  simp [fget, h]

/-- A one-bit read depends on the register file alone. -/
theorem flag_congr {f : Fld} {i : Nat} {s t : State} (h : t.regs = s.regs) : flag f i t = flag f i s := by
  simp [flag, fget_congr h]

/-! ### What each update leaves unchanged -/

@[simp] theorem fset_mode (f : Fld) (i v : Nat) (s : State) : (fset f i v s).mode = s.mode := rfl
@[simp] theorem fset_latch (f : Fld) (i v : Nat) (s : State) : (fset f i v s).latch = s.latch := rfl
@[simp] theorem fset_time (f : Fld) (i v : Nat) (s : State) : (fset f i v s).time = s.time := rfl
@[simp] theorem fset_ports (f : Fld) (i v : Nat) (s : State) : (fset f i v s).ports = s.ports := rfl
@[simp] theorem fset_mesh (f : Fld) (i v : Nat) (s : State) : (fset f i v s).mesh = s.mesh := rfl
@[simp] theorem fset_pipe (f : Fld) (i v : Nat) (s : State) : (fset f i v s).pipe = s.pipe := rfl
@[simp] theorem fset_tm (f : Fld) (i v : Nat) (s : State) : (fset f i v s).tm = s.tm := rfl
@[simp] theorem fset_ess (f : Fld) (i v : Nat) (s : State) : (fset f i v s).ess = s.ess := rfl
@[simp] theorem fset_coding (f : Fld) (i v : Nat) (s : State) : (fset f i v s).coding = s.coding := rfl
@[simp] theorem fset_mem (f : Fld) (i v : Nat) (s : State) : (fset f i v s).mem = s.mem := rfl
@[simp] theorem fset_hbm (f : Fld) (i v : Nat) (s : State) : (fset f i v s).hbm = s.hbm := rfl
@[simp] theorem fset_dma (f : Fld) (i v : Nat) (s : State) : (fset f i v s).dma = s.dma := rfl
@[simp] theorem fset_cqPhase (f : Fld) (i v : Nat) (s : State) : (fset f i v s).cqPhase = s.cqPhase := rfl
@[simp] theorem fset_pcie (f : Fld) (i v : Nat) (s : State) : (fset f i v s).pcie = s.pcie := rfl
@[simp] theorem fset_ints (f : Fld) (i v : Nat) (s : State) : (fset f i v s).ints = s.ints := rfl
@[simp] theorem fset_ward (f : Fld) (i v : Nat) (s : State) : (fset f i v s).ward = s.ward := rfl
@[simp] theorem fset_hasp (f : Fld) (i v : Nat) (s : State) : (fset f i v s).hasp = s.hasp := rfl
@[simp] theorem fset_tch (f : Fld) (i v : Nat) (s : State) : (fset f i v s).tch = s.tch := rfl
@[simp] theorem fset_trc (f : Fld) (i v : Nat) (s : State) : (fset f i v s).trc = s.trc := rfl
@[simp] theorem fset_counters (f : Fld) (i v : Nat) (s : State) : (fset f i v s).counters = s.counters := rfl
@[simp] theorem fset_loader (f : Fld) (i v : Nat) (s : State) : (fset f i v s).loader = s.loader := rfl
@[simp] theorem fset_power (f : Fld) (i v : Nat) (s : State) : (fset f i v s).power = s.power := rfl
@[simp] theorem fset_draws (f : Fld) (i v : Nat) (s : State) : (fset f i v s).draws = s.draws := rfl
@[simp] theorem fset_fresh (f : Fld) (i v : Nat) (s : State) : (fset f i v s).fresh = s.fresh := rfl
@[simp] theorem fset_out (f : Fld) (i v : Nat) (s : State) : (fset f i v s).out = s.out := rfl
@[simp] theorem fset_pending (f : Fld) (i v : Nat) (s : State) : (fset f i v s).pending = s.pending := rfl

@[simp] theorem setFlag_mode (f : Fld) (i : Nat) (b : Bool) (s : State) : (setFlag f i b s).mode = s.mode := rfl
@[simp] theorem setFlag_latch (f : Fld) (i : Nat) (b : Bool) (s : State) : (setFlag f i b s).latch = s.latch := rfl
@[simp] theorem setFlag_time (f : Fld) (i : Nat) (b : Bool) (s : State) : (setFlag f i b s).time = s.time := rfl
@[simp] theorem setFlag_ports (f : Fld) (i : Nat) (b : Bool) (s : State) : (setFlag f i b s).ports = s.ports := rfl
@[simp] theorem setFlag_mesh (f : Fld) (i : Nat) (b : Bool) (s : State) : (setFlag f i b s).mesh = s.mesh := rfl
@[simp] theorem setFlag_pipe (f : Fld) (i : Nat) (b : Bool) (s : State) : (setFlag f i b s).pipe = s.pipe := rfl
@[simp] theorem setFlag_tm (f : Fld) (i : Nat) (b : Bool) (s : State) : (setFlag f i b s).tm = s.tm := rfl
@[simp] theorem setFlag_ess (f : Fld) (i : Nat) (b : Bool) (s : State) : (setFlag f i b s).ess = s.ess := rfl
@[simp] theorem setFlag_coding (f : Fld) (i : Nat) (b : Bool) (s : State) : (setFlag f i b s).coding = s.coding := rfl
@[simp] theorem setFlag_mem (f : Fld) (i : Nat) (b : Bool) (s : State) : (setFlag f i b s).mem = s.mem := rfl
@[simp] theorem setFlag_hbm (f : Fld) (i : Nat) (b : Bool) (s : State) : (setFlag f i b s).hbm = s.hbm := rfl
@[simp] theorem setFlag_dma (f : Fld) (i : Nat) (b : Bool) (s : State) : (setFlag f i b s).dma = s.dma := rfl
@[simp] theorem setFlag_cqPhase (f : Fld) (i : Nat) (b : Bool) (s : State) : (setFlag f i b s).cqPhase = s.cqPhase := rfl
@[simp] theorem setFlag_pcie (f : Fld) (i : Nat) (b : Bool) (s : State) : (setFlag f i b s).pcie = s.pcie := rfl
@[simp] theorem setFlag_ints (f : Fld) (i : Nat) (b : Bool) (s : State) : (setFlag f i b s).ints = s.ints := rfl
@[simp] theorem setFlag_ward (f : Fld) (i : Nat) (b : Bool) (s : State) : (setFlag f i b s).ward = s.ward := rfl
@[simp] theorem setFlag_hasp (f : Fld) (i : Nat) (b : Bool) (s : State) : (setFlag f i b s).hasp = s.hasp := rfl
@[simp] theorem setFlag_tch (f : Fld) (i : Nat) (b : Bool) (s : State) : (setFlag f i b s).tch = s.tch := rfl
@[simp] theorem setFlag_trc (f : Fld) (i : Nat) (b : Bool) (s : State) : (setFlag f i b s).trc = s.trc := rfl
@[simp] theorem setFlag_counters (f : Fld) (i : Nat) (b : Bool) (s : State) : (setFlag f i b s).counters = s.counters := rfl
@[simp] theorem setFlag_loader (f : Fld) (i : Nat) (b : Bool) (s : State) : (setFlag f i b s).loader = s.loader := rfl
@[simp] theorem setFlag_power (f : Fld) (i : Nat) (b : Bool) (s : State) : (setFlag f i b s).power = s.power := rfl
@[simp] theorem setFlag_draws (f : Fld) (i : Nat) (b : Bool) (s : State) : (setFlag f i b s).draws = s.draws := rfl
@[simp] theorem setFlag_fresh (f : Fld) (i : Nat) (b : Bool) (s : State) : (setFlag f i b s).fresh = s.fresh := rfl
@[simp] theorem setFlag_out (f : Fld) (i : Nat) (b : Bool) (s : State) : (setFlag f i b s).out = s.out := rfl
@[simp] theorem setFlag_pending (f : Fld) (i : Nat) (b : Bool) (s : State) : (setFlag f i b s).pending = s.pending := rfl

@[simp] theorem bumpBy_mode (f : Fld) (i n : Nat) (s : State) : (bumpBy f i n s).mode = s.mode := rfl
@[simp] theorem bumpBy_latch (f : Fld) (i n : Nat) (s : State) : (bumpBy f i n s).latch = s.latch := rfl
@[simp] theorem bumpBy_time (f : Fld) (i n : Nat) (s : State) : (bumpBy f i n s).time = s.time := rfl
@[simp] theorem bumpBy_ports (f : Fld) (i n : Nat) (s : State) : (bumpBy f i n s).ports = s.ports := rfl
@[simp] theorem bumpBy_mesh (f : Fld) (i n : Nat) (s : State) : (bumpBy f i n s).mesh = s.mesh := rfl
@[simp] theorem bumpBy_pipe (f : Fld) (i n : Nat) (s : State) : (bumpBy f i n s).pipe = s.pipe := rfl
@[simp] theorem bumpBy_tm (f : Fld) (i n : Nat) (s : State) : (bumpBy f i n s).tm = s.tm := rfl
@[simp] theorem bumpBy_ess (f : Fld) (i n : Nat) (s : State) : (bumpBy f i n s).ess = s.ess := rfl
@[simp] theorem bumpBy_coding (f : Fld) (i n : Nat) (s : State) : (bumpBy f i n s).coding = s.coding := rfl
@[simp] theorem bumpBy_mem (f : Fld) (i n : Nat) (s : State) : (bumpBy f i n s).mem = s.mem := rfl
@[simp] theorem bumpBy_hbm (f : Fld) (i n : Nat) (s : State) : (bumpBy f i n s).hbm = s.hbm := rfl
@[simp] theorem bumpBy_dma (f : Fld) (i n : Nat) (s : State) : (bumpBy f i n s).dma = s.dma := rfl
@[simp] theorem bumpBy_cqPhase (f : Fld) (i n : Nat) (s : State) : (bumpBy f i n s).cqPhase = s.cqPhase := rfl
@[simp] theorem bumpBy_pcie (f : Fld) (i n : Nat) (s : State) : (bumpBy f i n s).pcie = s.pcie := rfl
@[simp] theorem bumpBy_ints (f : Fld) (i n : Nat) (s : State) : (bumpBy f i n s).ints = s.ints := rfl
@[simp] theorem bumpBy_ward (f : Fld) (i n : Nat) (s : State) : (bumpBy f i n s).ward = s.ward := rfl
@[simp] theorem bumpBy_hasp (f : Fld) (i n : Nat) (s : State) : (bumpBy f i n s).hasp = s.hasp := rfl
@[simp] theorem bumpBy_tch (f : Fld) (i n : Nat) (s : State) : (bumpBy f i n s).tch = s.tch := rfl
@[simp] theorem bumpBy_trc (f : Fld) (i n : Nat) (s : State) : (bumpBy f i n s).trc = s.trc := rfl
@[simp] theorem bumpBy_counters (f : Fld) (i n : Nat) (s : State) : (bumpBy f i n s).counters = s.counters := rfl
@[simp] theorem bumpBy_loader (f : Fld) (i n : Nat) (s : State) : (bumpBy f i n s).loader = s.loader := rfl
@[simp] theorem bumpBy_power (f : Fld) (i n : Nat) (s : State) : (bumpBy f i n s).power = s.power := rfl
@[simp] theorem bumpBy_draws (f : Fld) (i n : Nat) (s : State) : (bumpBy f i n s).draws = s.draws := rfl
@[simp] theorem bumpBy_fresh (f : Fld) (i n : Nat) (s : State) : (bumpBy f i n s).fresh = s.fresh := rfl
@[simp] theorem bumpBy_out (f : Fld) (i n : Nat) (s : State) : (bumpBy f i n s).out = s.out := rfl
@[simp] theorem bumpBy_pending (f : Fld) (i n : Nat) (s : State) : (bumpBy f i n s).pending = s.pending := rfl

@[simp] theorem bump_mode (f : Fld) (i : Nat) (s : State) : (bump f i s).mode = s.mode := rfl
@[simp] theorem bump_latch (f : Fld) (i : Nat) (s : State) : (bump f i s).latch = s.latch := rfl
@[simp] theorem bump_time (f : Fld) (i : Nat) (s : State) : (bump f i s).time = s.time := rfl
@[simp] theorem bump_ports (f : Fld) (i : Nat) (s : State) : (bump f i s).ports = s.ports := rfl
@[simp] theorem bump_mesh (f : Fld) (i : Nat) (s : State) : (bump f i s).mesh = s.mesh := rfl
@[simp] theorem bump_pipe (f : Fld) (i : Nat) (s : State) : (bump f i s).pipe = s.pipe := rfl
@[simp] theorem bump_tm (f : Fld) (i : Nat) (s : State) : (bump f i s).tm = s.tm := rfl
@[simp] theorem bump_ess (f : Fld) (i : Nat) (s : State) : (bump f i s).ess = s.ess := rfl
@[simp] theorem bump_coding (f : Fld) (i : Nat) (s : State) : (bump f i s).coding = s.coding := rfl
@[simp] theorem bump_mem (f : Fld) (i : Nat) (s : State) : (bump f i s).mem = s.mem := rfl
@[simp] theorem bump_hbm (f : Fld) (i : Nat) (s : State) : (bump f i s).hbm = s.hbm := rfl
@[simp] theorem bump_dma (f : Fld) (i : Nat) (s : State) : (bump f i s).dma = s.dma := rfl
@[simp] theorem bump_cqPhase (f : Fld) (i : Nat) (s : State) : (bump f i s).cqPhase = s.cqPhase := rfl
@[simp] theorem bump_pcie (f : Fld) (i : Nat) (s : State) : (bump f i s).pcie = s.pcie := rfl
@[simp] theorem bump_ints (f : Fld) (i : Nat) (s : State) : (bump f i s).ints = s.ints := rfl
@[simp] theorem bump_ward (f : Fld) (i : Nat) (s : State) : (bump f i s).ward = s.ward := rfl
@[simp] theorem bump_hasp (f : Fld) (i : Nat) (s : State) : (bump f i s).hasp = s.hasp := rfl
@[simp] theorem bump_tch (f : Fld) (i : Nat) (s : State) : (bump f i s).tch = s.tch := rfl
@[simp] theorem bump_trc (f : Fld) (i : Nat) (s : State) : (bump f i s).trc = s.trc := rfl
@[simp] theorem bump_counters (f : Fld) (i : Nat) (s : State) : (bump f i s).counters = s.counters := rfl
@[simp] theorem bump_loader (f : Fld) (i : Nat) (s : State) : (bump f i s).loader = s.loader := rfl
@[simp] theorem bump_power (f : Fld) (i : Nat) (s : State) : (bump f i s).power = s.power := rfl
@[simp] theorem bump_draws (f : Fld) (i : Nat) (s : State) : (bump f i s).draws = s.draws := rfl
@[simp] theorem bump_fresh (f : Fld) (i : Nat) (s : State) : (bump f i s).fresh = s.fresh := rfl
@[simp] theorem bump_out (f : Fld) (i : Nat) (s : State) : (bump f i s).out = s.out := rfl
@[simp] theorem bump_pending (f : Fld) (i : Nat) (s : State) : (bump f i s).pending = s.pending := rfl

@[simp] theorem emit_regs (o : Out) (s : State) : (emit o s).regs = s.regs := rfl
@[simp] theorem emit_mode (o : Out) (s : State) : (emit o s).mode = s.mode := rfl
@[simp] theorem emit_latch (o : Out) (s : State) : (emit o s).latch = s.latch := rfl
@[simp] theorem emit_time (o : Out) (s : State) : (emit o s).time = s.time := rfl
@[simp] theorem emit_ports (o : Out) (s : State) : (emit o s).ports = s.ports := rfl
@[simp] theorem emit_mesh (o : Out) (s : State) : (emit o s).mesh = s.mesh := rfl
@[simp] theorem emit_pipe (o : Out) (s : State) : (emit o s).pipe = s.pipe := rfl
@[simp] theorem emit_tm (o : Out) (s : State) : (emit o s).tm = s.tm := rfl
@[simp] theorem emit_ess (o : Out) (s : State) : (emit o s).ess = s.ess := rfl
@[simp] theorem emit_coding (o : Out) (s : State) : (emit o s).coding = s.coding := rfl
@[simp] theorem emit_mem (o : Out) (s : State) : (emit o s).mem = s.mem := rfl
@[simp] theorem emit_hbm (o : Out) (s : State) : (emit o s).hbm = s.hbm := rfl
@[simp] theorem emit_dma (o : Out) (s : State) : (emit o s).dma = s.dma := rfl
@[simp] theorem emit_cqPhase (o : Out) (s : State) : (emit o s).cqPhase = s.cqPhase := rfl
@[simp] theorem emit_pcie (o : Out) (s : State) : (emit o s).pcie = s.pcie := rfl
@[simp] theorem emit_ints (o : Out) (s : State) : (emit o s).ints = s.ints := rfl
@[simp] theorem emit_ward (o : Out) (s : State) : (emit o s).ward = s.ward := rfl
@[simp] theorem emit_hasp (o : Out) (s : State) : (emit o s).hasp = s.hasp := rfl
@[simp] theorem emit_tch (o : Out) (s : State) : (emit o s).tch = s.tch := rfl
@[simp] theorem emit_trc (o : Out) (s : State) : (emit o s).trc = s.trc := rfl
@[simp] theorem emit_counters (o : Out) (s : State) : (emit o s).counters = s.counters := rfl
@[simp] theorem emit_loader (o : Out) (s : State) : (emit o s).loader = s.loader := rfl
@[simp] theorem emit_power (o : Out) (s : State) : (emit o s).power = s.power := rfl
@[simp] theorem emit_draws (o : Out) (s : State) : (emit o s).draws = s.draws := rfl
@[simp] theorem emit_fresh (o : Out) (s : State) : (emit o s).fresh = s.fresh := rfl
@[simp] theorem emit_pending (o : Out) (s : State) : (emit o s).pending = s.pending := rfl

@[simp] theorem writeByte_regs (a : Nat) (v : Byte) (s : State) : (writeByte a v s).regs = s.regs := rfl
@[simp] theorem writeByte_mode (a : Nat) (v : Byte) (s : State) : (writeByte a v s).mode = s.mode := rfl
@[simp] theorem writeByte_latch (a : Nat) (v : Byte) (s : State) : (writeByte a v s).latch = s.latch := rfl
@[simp] theorem writeByte_time (a : Nat) (v : Byte) (s : State) : (writeByte a v s).time = s.time := rfl
@[simp] theorem writeByte_ports (a : Nat) (v : Byte) (s : State) : (writeByte a v s).ports = s.ports := rfl
@[simp] theorem writeByte_mesh (a : Nat) (v : Byte) (s : State) : (writeByte a v s).mesh = s.mesh := rfl
@[simp] theorem writeByte_pipe (a : Nat) (v : Byte) (s : State) : (writeByte a v s).pipe = s.pipe := rfl
@[simp] theorem writeByte_tm (a : Nat) (v : Byte) (s : State) : (writeByte a v s).tm = s.tm := rfl
@[simp] theorem writeByte_ess (a : Nat) (v : Byte) (s : State) : (writeByte a v s).ess = s.ess := rfl
@[simp] theorem writeByte_coding (a : Nat) (v : Byte) (s : State) : (writeByte a v s).coding = s.coding := rfl
@[simp] theorem writeByte_dma (a : Nat) (v : Byte) (s : State) : (writeByte a v s).dma = s.dma := rfl
@[simp] theorem writeByte_cqPhase (a : Nat) (v : Byte) (s : State) : (writeByte a v s).cqPhase = s.cqPhase := rfl
@[simp] theorem writeByte_pcie (a : Nat) (v : Byte) (s : State) : (writeByte a v s).pcie = s.pcie := rfl
@[simp] theorem writeByte_ints (a : Nat) (v : Byte) (s : State) : (writeByte a v s).ints = s.ints := rfl
@[simp] theorem writeByte_ward (a : Nat) (v : Byte) (s : State) : (writeByte a v s).ward = s.ward := rfl
@[simp] theorem writeByte_hasp (a : Nat) (v : Byte) (s : State) : (writeByte a v s).hasp = s.hasp := rfl
@[simp] theorem writeByte_tch (a : Nat) (v : Byte) (s : State) : (writeByte a v s).tch = s.tch := rfl
@[simp] theorem writeByte_trc (a : Nat) (v : Byte) (s : State) : (writeByte a v s).trc = s.trc := rfl
@[simp] theorem writeByte_counters (a : Nat) (v : Byte) (s : State) : (writeByte a v s).counters = s.counters := rfl
@[simp] theorem writeByte_loader (a : Nat) (v : Byte) (s : State) : (writeByte a v s).loader = s.loader := rfl
@[simp] theorem writeByte_power (a : Nat) (v : Byte) (s : State) : (writeByte a v s).power = s.power := rfl
@[simp] theorem writeByte_draws (a : Nat) (v : Byte) (s : State) : (writeByte a v s).draws = s.draws := rfl
@[simp] theorem writeByte_fresh (a : Nat) (v : Byte) (s : State) : (writeByte a v s).fresh = s.fresh := rfl
@[simp] theorem writeByte_out (a : Nat) (v : Byte) (s : State) : (writeByte a v s).out = s.out := rfl
@[simp] theorem writeByte_pending (a : Nat) (v : Byte) (s : State) : (writeByte a v s).pending = s.pending := rfl

@[simp] theorem strmMod_regs (k : Nat) (g : Stream → Stream) (s : State) : (strmMod k g s).regs = s.regs := rfl
@[simp] theorem strmMod_mode (k : Nat) (g : Stream → Stream) (s : State) : (strmMod k g s).mode = s.mode := rfl
@[simp] theorem strmMod_latch (k : Nat) (g : Stream → Stream) (s : State) : (strmMod k g s).latch = s.latch := rfl
@[simp] theorem strmMod_time (k : Nat) (g : Stream → Stream) (s : State) : (strmMod k g s).time = s.time := rfl
@[simp] theorem strmMod_ports (k : Nat) (g : Stream → Stream) (s : State) : (strmMod k g s).ports = s.ports := rfl
@[simp] theorem strmMod_mesh (k : Nat) (g : Stream → Stream) (s : State) : (strmMod k g s).mesh = s.mesh := rfl
@[simp] theorem strmMod_pipe (k : Nat) (g : Stream → Stream) (s : State) : (strmMod k g s).pipe = s.pipe := rfl
@[simp] theorem strmMod_tm (k : Nat) (g : Stream → Stream) (s : State) : (strmMod k g s).tm = s.tm := rfl
@[simp] theorem strmMod_ess (k : Nat) (g : Stream → Stream) (s : State) : (strmMod k g s).ess = s.ess := rfl
@[simp] theorem strmMod_mem (k : Nat) (g : Stream → Stream) (s : State) : (strmMod k g s).mem = s.mem := rfl
@[simp] theorem strmMod_hbm (k : Nat) (g : Stream → Stream) (s : State) : (strmMod k g s).hbm = s.hbm := rfl
@[simp] theorem strmMod_dma (k : Nat) (g : Stream → Stream) (s : State) : (strmMod k g s).dma = s.dma := rfl
@[simp] theorem strmMod_cqPhase (k : Nat) (g : Stream → Stream) (s : State) : (strmMod k g s).cqPhase = s.cqPhase := rfl
@[simp] theorem strmMod_pcie (k : Nat) (g : Stream → Stream) (s : State) : (strmMod k g s).pcie = s.pcie := rfl
@[simp] theorem strmMod_ints (k : Nat) (g : Stream → Stream) (s : State) : (strmMod k g s).ints = s.ints := rfl
@[simp] theorem strmMod_ward (k : Nat) (g : Stream → Stream) (s : State) : (strmMod k g s).ward = s.ward := rfl
@[simp] theorem strmMod_hasp (k : Nat) (g : Stream → Stream) (s : State) : (strmMod k g s).hasp = s.hasp := rfl
@[simp] theorem strmMod_tch (k : Nat) (g : Stream → Stream) (s : State) : (strmMod k g s).tch = s.tch := rfl
@[simp] theorem strmMod_trc (k : Nat) (g : Stream → Stream) (s : State) : (strmMod k g s).trc = s.trc := rfl
@[simp] theorem strmMod_counters (k : Nat) (g : Stream → Stream) (s : State) : (strmMod k g s).counters = s.counters := rfl
@[simp] theorem strmMod_loader (k : Nat) (g : Stream → Stream) (s : State) : (strmMod k g s).loader = s.loader := rfl
@[simp] theorem strmMod_power (k : Nat) (g : Stream → Stream) (s : State) : (strmMod k g s).power = s.power := rfl
@[simp] theorem strmMod_draws (k : Nat) (g : Stream → Stream) (s : State) : (strmMod k g s).draws = s.draws := rfl
@[simp] theorem strmMod_fresh (k : Nat) (g : Stream → Stream) (s : State) : (strmMod k g s).fresh = s.fresh := rfl
@[simp] theorem strmMod_out (k : Nat) (g : Stream → Stream) (s : State) : (strmMod k g s).out = s.out := rfl
@[simp] theorem strmMod_pending (k : Nat) (g : Stream → Stream) (s : State) : (strmMod k g s).pending = s.pending := rfl

@[simp] theorem engMod_regs (e : Nat) (g : Engine → Engine) (s : State) : (engMod e g s).regs = s.regs := rfl
@[simp] theorem engMod_mode (e : Nat) (g : Engine → Engine) (s : State) : (engMod e g s).mode = s.mode := rfl
@[simp] theorem engMod_latch (e : Nat) (g : Engine → Engine) (s : State) : (engMod e g s).latch = s.latch := rfl
@[simp] theorem engMod_time (e : Nat) (g : Engine → Engine) (s : State) : (engMod e g s).time = s.time := rfl
@[simp] theorem engMod_ports (e : Nat) (g : Engine → Engine) (s : State) : (engMod e g s).ports = s.ports := rfl
@[simp] theorem engMod_mesh (e : Nat) (g : Engine → Engine) (s : State) : (engMod e g s).mesh = s.mesh := rfl
@[simp] theorem engMod_pipe (e : Nat) (g : Engine → Engine) (s : State) : (engMod e g s).pipe = s.pipe := rfl
@[simp] theorem engMod_tm (e : Nat) (g : Engine → Engine) (s : State) : (engMod e g s).tm = s.tm := rfl
@[simp] theorem engMod_ess (e : Nat) (g : Engine → Engine) (s : State) : (engMod e g s).ess = s.ess := rfl
@[simp] theorem engMod_mem (e : Nat) (g : Engine → Engine) (s : State) : (engMod e g s).mem = s.mem := rfl
@[simp] theorem engMod_hbm (e : Nat) (g : Engine → Engine) (s : State) : (engMod e g s).hbm = s.hbm := rfl
@[simp] theorem engMod_dma (e : Nat) (g : Engine → Engine) (s : State) : (engMod e g s).dma = s.dma := rfl
@[simp] theorem engMod_cqPhase (e : Nat) (g : Engine → Engine) (s : State) : (engMod e g s).cqPhase = s.cqPhase := rfl
@[simp] theorem engMod_pcie (e : Nat) (g : Engine → Engine) (s : State) : (engMod e g s).pcie = s.pcie := rfl
@[simp] theorem engMod_ints (e : Nat) (g : Engine → Engine) (s : State) : (engMod e g s).ints = s.ints := rfl
@[simp] theorem engMod_ward (e : Nat) (g : Engine → Engine) (s : State) : (engMod e g s).ward = s.ward := rfl
@[simp] theorem engMod_hasp (e : Nat) (g : Engine → Engine) (s : State) : (engMod e g s).hasp = s.hasp := rfl
@[simp] theorem engMod_tch (e : Nat) (g : Engine → Engine) (s : State) : (engMod e g s).tch = s.tch := rfl
@[simp] theorem engMod_trc (e : Nat) (g : Engine → Engine) (s : State) : (engMod e g s).trc = s.trc := rfl
@[simp] theorem engMod_counters (e : Nat) (g : Engine → Engine) (s : State) : (engMod e g s).counters = s.counters := rfl
@[simp] theorem engMod_loader (e : Nat) (g : Engine → Engine) (s : State) : (engMod e g s).loader = s.loader := rfl
@[simp] theorem engMod_power (e : Nat) (g : Engine → Engine) (s : State) : (engMod e g s).power = s.power := rfl
@[simp] theorem engMod_draws (e : Nat) (g : Engine → Engine) (s : State) : (engMod e g s).draws = s.draws := rfl
@[simp] theorem engMod_fresh (e : Nat) (g : Engine → Engine) (s : State) : (engMod e g s).fresh = s.fresh := rfl
@[simp] theorem engMod_out (e : Nat) (g : Engine → Engine) (s : State) : (engMod e g s).out = s.out := rfl
@[simp] theorem engMod_pending (e : Nat) (g : Engine → Engine) (s : State) : (engMod e g s).pending = s.pending := rfl

@[simp] theorem chanMod_regs (c : Nat) (g : Channel → Channel) (s : State) : (chanMod c g s).regs = s.regs := rfl
@[simp] theorem chanMod_mode (c : Nat) (g : Channel → Channel) (s : State) : (chanMod c g s).mode = s.mode := rfl
@[simp] theorem chanMod_latch (c : Nat) (g : Channel → Channel) (s : State) : (chanMod c g s).latch = s.latch := rfl
@[simp] theorem chanMod_time (c : Nat) (g : Channel → Channel) (s : State) : (chanMod c g s).time = s.time := rfl
@[simp] theorem chanMod_ports (c : Nat) (g : Channel → Channel) (s : State) : (chanMod c g s).ports = s.ports := rfl
@[simp] theorem chanMod_mesh (c : Nat) (g : Channel → Channel) (s : State) : (chanMod c g s).mesh = s.mesh := rfl
@[simp] theorem chanMod_pipe (c : Nat) (g : Channel → Channel) (s : State) : (chanMod c g s).pipe = s.pipe := rfl
@[simp] theorem chanMod_tm (c : Nat) (g : Channel → Channel) (s : State) : (chanMod c g s).tm = s.tm := rfl
@[simp] theorem chanMod_ess (c : Nat) (g : Channel → Channel) (s : State) : (chanMod c g s).ess = s.ess := rfl
@[simp] theorem chanMod_coding (c : Nat) (g : Channel → Channel) (s : State) : (chanMod c g s).coding = s.coding := rfl
@[simp] theorem chanMod_mem (c : Nat) (g : Channel → Channel) (s : State) : (chanMod c g s).mem = s.mem := rfl
@[simp] theorem chanMod_hbm (c : Nat) (g : Channel → Channel) (s : State) : (chanMod c g s).hbm = s.hbm := rfl
@[simp] theorem chanMod_cqPhase (c : Nat) (g : Channel → Channel) (s : State) : (chanMod c g s).cqPhase = s.cqPhase := rfl
@[simp] theorem chanMod_pcie (c : Nat) (g : Channel → Channel) (s : State) : (chanMod c g s).pcie = s.pcie := rfl
@[simp] theorem chanMod_ints (c : Nat) (g : Channel → Channel) (s : State) : (chanMod c g s).ints = s.ints := rfl
@[simp] theorem chanMod_ward (c : Nat) (g : Channel → Channel) (s : State) : (chanMod c g s).ward = s.ward := rfl
@[simp] theorem chanMod_hasp (c : Nat) (g : Channel → Channel) (s : State) : (chanMod c g s).hasp = s.hasp := rfl
@[simp] theorem chanMod_tch (c : Nat) (g : Channel → Channel) (s : State) : (chanMod c g s).tch = s.tch := rfl
@[simp] theorem chanMod_trc (c : Nat) (g : Channel → Channel) (s : State) : (chanMod c g s).trc = s.trc := rfl
@[simp] theorem chanMod_counters (c : Nat) (g : Channel → Channel) (s : State) : (chanMod c g s).counters = s.counters := rfl
@[simp] theorem chanMod_loader (c : Nat) (g : Channel → Channel) (s : State) : (chanMod c g s).loader = s.loader := rfl
@[simp] theorem chanMod_power (c : Nat) (g : Channel → Channel) (s : State) : (chanMod c g s).power = s.power := rfl
@[simp] theorem chanMod_draws (c : Nat) (g : Channel → Channel) (s : State) : (chanMod c g s).draws = s.draws := rfl
@[simp] theorem chanMod_fresh (c : Nat) (g : Channel → Channel) (s : State) : (chanMod c g s).fresh = s.fresh := rfl
@[simp] theorem chanMod_out (c : Nat) (g : Channel → Channel) (s : State) : (chanMod c g s).out = s.out := rfl
@[simp] theorem chanMod_pending (c : Nat) (g : Channel → Channel) (s : State) : (chanMod c g s).pending = s.pending := rfl

end Sys2Proof.Machine
end

