-- ==== Sys2Proof/Laws/Frames.lean ====
section
/-! SUPPORT. Register fields of different names are different cells of the register file, and what a command that sets a few
fields leaves unchanged. -/
namespace Sys2Proof.Machine

/-- The key of an instance is that of instance 0, moved by a multiple of 16384. -/
theorem Fld.key_eq (f : Fld) (i : Nat) : f.key i = f.key 0 + 16384 * i := by simp [Fld.key]

/-- Two fields whose keys differ within one instance differ in every pair of instances. -/
theorem Fld.key_ne {f g : Fld} (h : f.key 0 ≠ g.key 0) (hf : f.key 0 < 16384) (hg : g.key 0 < 16384) (i j : Nat) :
    f.key i ≠ g.key j := by
  rw [f.key_eq i, g.key_eq j]; omega

/-- Two instances of a field are different cells. -/
theorem Fld.key_inj {f : Fld} {i j : Nat} : f.key i = f.key j ↔ i = j := by
  rw [f.key_eq i, f.key_eq j]; omega

/-- A field of another name keeps its value, in every instance. -/
theorem fget_fset_other {f g : Fld} {i j v : Nat} {s : State} (h : g.key 0 ≠ f.key 0) (hf : f.key 0 < 16384) (hg : g.key 0 < 16384) :
    fget g j (fset f i v s) = fget g j s := fget_fset_ne (Fld.key_ne h hg hf j i) v s

/-- A one-bit field of another name keeps its value, in every instance. -/
theorem flag_fset_other {f g : Fld} {i j v : Nat} {s : State} (h : g.key 0 ≠ f.key 0) (hf : f.key 0 < 16384) (hg : g.key 0 < 16384) :
    flag g j (fset f i v s) = flag g j s := by simp [flag, fget_fset_other h hf hg]

theorem fget_setFlag_other {f g : Fld} {i j : Nat} {b : Bool} {s : State} (h : g.key 0 ≠ f.key 0) (hf : f.key 0 < 16384)
    (hg : g.key 0 < 16384) : fget g j (setFlag f i b s) = fget g j s := fget_fset_other h hf hg

theorem flag_setFlag_other {f g : Fld} {i j : Nat} {b : Bool} {s : State} (h : g.key 0 ≠ f.key 0) (hf : f.key 0 < 16384)
    (hg : g.key 0 < 16384) : flag g j (setFlag f i b s) = flag g j s := flag_fset_other h hf hg

theorem fget_bumpBy_other {f g : Fld} {i j n : Nat} {s : State} (h : g.key 0 ≠ f.key 0) (hf : f.key 0 < 16384)
    (hg : g.key 0 < 16384) : fget g j (bumpBy f i n s) = fget g j s := fget_fset_other h hf hg

theorem fget_bump_other {f g : Fld} {i j : Nat} {s : State} (h : g.key 0 ≠ f.key 0) (hf : f.key 0 < 16384)
    (hg : g.key 0 < 16384) : fget g j (bump f i s) = fget g j s := fget_fset_other h hf hg

theorem flag_bump_other {f g : Fld} {i j : Nat} {s : State} (h : g.key 0 ≠ f.key 0) (hf : f.key 0 < 16384)
    (hg : g.key 0 < 16384) : flag g j (bump f i s) = flag g j s := flag_fset_other h hf hg

/-- Another instance keeps its value. -/
theorem fget_fset_inst {f : Fld} {i j v : Nat} {s : State} (h : j ≠ i) : fget f j (fset f i v s) = fget f j s :=
  fget_fset_ne (fun e => h (Fld.key_inj.1 e)) v s

/-- A one-bit field reads the number that was set, when that is 0 or 1. -/
theorem fget_setFlag_same (f : Fld) (i : Nat) (b : Bool) (s : State) : fget f i (setFlag f i b s) = b2n b % 2 ^ f.w := by
  simp [setFlag]

@[simp] theorem fget_bump_same (f : Fld) (i : Nat) (s : State) : fget f i (bump f i s) = (fget f i s + 1) % 2 ^ f.w := by
  simp [bump, bumpBy]

/-! ### Frames -/

theorem KeepsFields.refl (ks : List Nat) (s : State) : KeepsFields ks s s := fun _ _ _ => rfl

theorem KeepsFields.trans {a b : List Nat} {s t u : State} (h : KeepsFields a s t) (k : KeepsFields b t u) :
    KeepsFields (a ++ b) s u := fun f i n => by
  simp only [List.mem_append, not_or] at n; exact (k f i n.2).trans (h f i n.1)

theorem KeepsFields.mono {a b : List Nat} {s t : State} (h : KeepsFields a s t) (k : a ⊆ b) : KeepsFields b s t :=
  fun f i n => h f i (fun m => n (k m))

/-- Equal register files read alike. -/
theorem KeepsFields.of_regs {ks : List Nat} {s t : State} (h : t.regs = s.regs) : KeepsFields ks s t :=
  fun _ _ _ => fget_congr h

/-- Setting a listed field keeps every field that is not listed. -/
theorem KeepsFields.fset {ks : List Nat} {s t : State} (h : KeepsFields ks s t) {f : Fld} {i v : Nat} (m : f.key i ∈ ks) :
    KeepsFields ks s (Machine.fset f i v t) := fun g j n => by
  have e : g.key j ≠ f.key i := fun e => n (by rw [e]; exact m)
  rw [fget_fset_ne e]; exact h g j n

theorem KeepsFields.setFlag {ks : List Nat} {s t : State} (h : KeepsFields ks s t) {f : Fld} {i : Nat} {b : Bool} (m : f.key i ∈ ks) :
    KeepsFields ks s (Machine.setFlag f i b t) := h.fset m

theorem OnlyFields.refl (ks : List Nat) (s : State) : OnlyFields ks s s := ⟨rfl, .refl ks s⟩

/-- Setting a listed field changes nothing but that field. -/
theorem OnlyFields.fset {ks : List Nat} {s t : State} (h : OnlyFields ks s t) {f : Fld} {i v : Nat} (m : f.key i ∈ ks) :
    OnlyFields ks s (Machine.fset f i v t) := by
  refine ⟨?_, h.2.fset m⟩
  obtain ⟨h, -⟩ := h
  generalize hr : (Machine.fset f i v t).regs = r
  have : Machine.fset f i v t = { t with regs := r } := by rw [← hr]; rfl
  rw [this, h]

theorem OnlyFields.setFlag {ks : List Nat} {s t : State} (h : OnlyFields ks s t) {f : Fld} {i : Nat} {b : Bool} (m : f.key i ∈ ks) :
    OnlyFields ks s (Machine.setFlag f i b t) := h.fset m

theorem OnlyFields.bump {ks : List Nat} {s t : State} (h : OnlyFields ks s t) {f : Fld} {i : Nat} (m : f.key i ∈ ks) :
    OnlyFields ks s (Machine.bump f i t) := h.fset m

/-- A command that lands answers what its effect says. -/
theorem Completes.intro {c : Instr} {s t : State} {P : State → Prop} (h : exec c s = .next t) (p : P t) : Completes c s P :=
  ⟨t, h, p⟩

/-- A write that reaches its register is carried out. -/
theorem hostWr_reaches {fn : Nat} {r : Reg} {i : Nat} {s : State} (h : Reaches fn r i s) (k : State → State) :
    hostWr fn r i s k = k s := by simp [hostWr, h.1, h.2]

/-- A read that shows its register is carried out. -/
theorem hostRd_shows {fn : Nat} {r : Reg} {i : Nat} {s : State} (h : Shows fn r i s) (k : State → Nat × State) :
    hostRd fn r i s k = emit (.readData fn (k s).1) (k s).2 := by simp [hostRd, h.1, h.2]

end Sys2Proof.Machine
end

