-- ==== Sys2Proof/Laws/Memory.lean ====
section
/-! SUPPORT. The memory list: every operation over memory keeps its canonical form, and what a read gives after a write. -/
namespace Sys2Proof.Machine

/-- The Bool of the definition says that the keys rise. -/
theorem keysRise_iff (n : Nat) (l : List Host.Cell) : keysRise n l = true ↔ Tab.rises n l := by
  induction l generalizing n with
  | nil => simp [keysRise, Tab.rises]
  | cons c r ih => obtain ⟨k, v⟩ := c; simp [keysRise, Tab.rises, ih]

/-- Canonical form, as a proposition. -/
theorem Memory.wf_iff (m : Memory) : m.wf = true ↔ Tab.rises 0 m.cells ∧ ∀ c ∈ m.cells, c.2 ≠ 0#8 := by
  simp [Memory.wf, keysRise_iff, List.all_eq_true]

/-- Only the listed bytes decide the canonical form. -/
theorem Memory.wf_congr {m n : Memory} (h : n.cells = m.cells) : n.wf = m.wf := by simp [Memory.wf, h]

/-- Setting a byte keeps the canonical form. -/
theorem wf_set {l : List Host.Cell} (a : Nat) (v : Byte) (h : Tab.rises 0 l ∧ ∀ c ∈ l, c.2 ≠ 0#8) :
    Tab.rises 0 (Tab.set 0#8 l a v) ∧ ∀ c ∈ Tab.set 0#8 l a v, c.2 ≠ 0#8 :=
  ⟨Tab.rises_set a v h.1, Tab.set_listed a v h.2⟩

/-- Dropping bytes keeps the canonical form. -/
theorem wf_filter {l : List Host.Cell} (p : Host.Cell → Bool) (h : Tab.rises 0 l ∧ ∀ c ∈ l, c.2 ≠ 0#8) :
    Tab.rises 0 (l.filter p) ∧ ∀ c ∈ l.filter p, c.2 ≠ 0#8 :=
  ⟨Tab.rises_filter p h.1, fun c hc => h.2 c (List.mem_filter.1 hc).1⟩

theorem writeByte_wf (a : Nat) (v : Byte) {s : State} (h : s.memWf = true) : (writeByte a v s).memWf = true :=
  (Memory.wf_iff _).2 (wf_set a v ((Memory.wf_iff _).1 h))

theorem writeBytes_wf (a : Nat) (b : Bytes) {s : State} (h : s.memWf = true) : (writeBytes a b s).memWf = true := by
  induction b generalizing a s with
  | nil => exact h
  | cons x r ih => exact ih (a + 1) (writeByte_wf a x h)

theorem healLines_wf (a n : Nat) {s : State} (h : s.memWf = true) : (healLines a n s).memWf = true := h

theorem writeMem_wf (a : Nat) (b : Bytes) {s : State} (h : s.memWf = true) : (writeMem a b s).memWf = true :=
  healLines_wf _ _ (writeBytes_wf a b h)

theorem zeroMem_wf (a n : Nat) {s : State} (h : s.memWf = true) : (zeroMem a n s).memWf = true :=
  (Memory.wf_iff _).2 (wf_filter _ ((Memory.wf_iff _).1 h))

theorem winWrite_wf (i off : Nat) (b : Bytes) {s : State} (h : s.memWf = true) : (winWrite i off b s).memWf = true := by
  induction b generalizing off s with
  | nil => exact h
  | cons x r ih => exact ih (off + 1) (writeByte_wf _ x h)

theorem winZero_wf (i : Nat) {s : State} (h : s.memWf = true) : (winZero i s).memWf = true := zeroMem_wf _ _ h

theorem hbmZero_wf {s : State} (h : s.memWf = true) : (hbmZero s).memWf = true := zeroMem_wf _ _ h

/-- A byte reads what was written to it. -/
@[simp] theorem readByte_writeByte_same (a : Nat) (v : Byte) (s : State) : readByte a (writeByte a v s) = v := by
  simp [readByte, writeByte]

/-- A write leaves every other byte as it was. -/
theorem readByte_writeByte_ne {a b : Nat} (h : b ≠ a) (v : Byte) (s : State) : readByte b (writeByte a v s) = readByte b s :=
  Tab.get_set_ne _ _ _ _ h

/-- Bytes outside the written range keep their values. -/
theorem readByte_writeBytes_out {a b : Nat} (d : Bytes) (s : State) (h : b < a ∨ a + d.length ≤ b) :
    readByte b (writeBytes a d s) = readByte b s := by
  induction d generalizing a s with
  | nil => rfl
  | cons x r ih =>
    simp only [List.length_cons] at h
    rw [writeBytes, ih _ (by omega), readByte_writeByte_ne (by omega)]

/-- Each byte of the written range reads its byte of the data. -/
theorem readByte_writeBytes_in {a i : Nat} (d : Bytes) (s : State) (h : i < d.length) :
    readByte (a + i) (writeBytes a d s) = d[i] := by
  induction d generalizing a i s with
  | nil => simp at h
  | cons x r ih =>
    cases i with
    | zero => simp [writeBytes, readByte_writeBytes_out r _ (.inl (Nat.lt_succ_self a))]
    | succ j =>
      have := ih (a := a + 1) (i := j) (writeByte a x s) (by simpa using h)
      simpa [writeBytes, Nat.add_assoc, Nat.add_comm 1 j] using this

/-- R401: the lines that a write heals hold their bytes. -/
@[simp] theorem readByte_healLines (a n b : Nat) (s : State) : readByte b (healLines a n s) = readByte b s := rfl

theorem readByte_writeMem_out {a b : Nat} (d : Bytes) (s : State) (h : b < a ∨ a + d.length ≤ b) :
    readByte b (writeMem a d s) = readByte b s := readByte_writeBytes_out d s h

theorem readByte_writeMem_in {a i : Nat} (d : Bytes) (s : State) (h : i < d.length) :
    readByte (a + i) (writeMem a d s) = d[i] := readByte_writeBytes_in d s h

end Sys2Proof.Machine
end

