-- ==== Sys2Proof/Laws/Kept.lean ====
section
/-! SUPPORT. What every operation keeps: the queue of waiting commands, the canonical form of memory, and the fuse counters,
which never go down. Here the relation and its rules; the other files of its name have one lemma for each operation. -/
namespace Sys2Proof.Machine

/-- `t` has the queue of `s`, canonical memory if `s` has it, and fuse counters at least as high. -/
structure Kept (s t : State) : Prop where
  pending : t.pending = s.pending
  mem : Memory.wf s.mem = true → Memory.wf t.mem = true
  fw : s.ward.fwSvn ≤ t.ward.fwSvn
  patch : s.ward.patchSvn ≤ t.ward.patchSvn
  epoch : s.ward.storeEpoch ≤ t.ward.storeEpoch

theorem Kept.refl (s : State) : Kept s s := ⟨rfl, id, le_rfl, le_rfl, le_rfl⟩

theorem Kept.trans {s t u : State} (h : Kept s t) (k : Kept t u) : Kept s u :=
  ⟨k.pending.trans h.pending, k.mem ∘ h.mem, h.fw.trans k.fw, h.patch.trans k.patch, h.epoch.trans k.epoch⟩

/-- A state put together from parts of one that is kept. -/
theorem Kept.of_parts {s0 s : State} {regs : Tab Nat} {mode : Mode} {latch : Tab Nat} {time : TimeUnit} {ports : Ports}
    {mesh : Mesh} {pipe : Pipe} {tm : Tm} {ess : Ess} {coding : Coding} {mem : Memory} {hbm : Arbiter} {dma : Tab Channel} {cqPhase : Tab Bool}
    {pcie : Pcie} {ints : Ints} {ward : Ward} {hasp : Hasp} {tch : Tchien} {trc : Trace} {counters : Tab Nat} {loader : Loader}
    {power : Power} {draws fresh : Nat} {out : List Out} {pending : List Instr} (hp : pending = s.pending)
    (hm : mem.cells = s.mem.cells) (hf : ward.fwSvn = s.ward.fwSvn) (hq : ward.patchSvn = s.ward.patchSvn)
    (he : ward.storeEpoch = s.ward.storeEpoch) (h : Kept s0 s) :
    Kept s0 ⟨regs, mode, latch, time, ports, mesh, pipe, tm, ess, coding, mem, hbm, dma, cqPhase, pcie, ints, ward, hasp, tch, trc,
      counters, loader, power, draws, fresh, out, pending⟩ :=
  h.trans ⟨hp, fun w => (Memory.wf_congr hm).trans w, hf.ge, hq.ge, he.ge⟩

theorem Kept.ite {s0 a b : State} {c : Prop} [Decidable c] (h : Kept s0 a) (k : Kept s0 b) : Kept s0 (if c then a else b) := by
  split <;> assumption

theorem Kept.ite2 {α : Type} {s0 : State} {a b : α × State} {c : Prop} [Decidable c] (h : Kept s0 a.2) (k : Kept s0 b.2) :
    Kept s0 (if c then a else b).2 := by split <;> assumption

theorem Kept.ite2_not {α : Type} {s0 : State} {a b : α × State} {c : Prop} [Decidable c] (h : Kept s0 a.2)
    (k : ¬ c → Kept s0 b.2) : Kept s0 (if c then a else b).2 := by
  split
  · exact h
  · exact k ‹_›

theorem Kept.foldl {α : Type} {s0 s : State} {g : State → α → State} {l : List α} (h : Kept s0 s)
    (k : ∀ s x, Kept s0 s → Kept s0 (g s x)) : Kept s0 (l.foldl g s) := by
  induction l generalizing s with
  | nil => exact h
  | cons x r ih => exact ih (k s x h)

theorem Kept.foldl2 {α β : Type} {s0 : State} {a : β × State} {g : β × State → α → β × State} {l : List α} (h : Kept s0 a.2)
    (k : ∀ a x, Kept s0 a.2 → Kept s0 (g a x).2) : Kept s0 (l.foldl g a).2 := by
  induction l generalizing a with
  | nil => exact h
  | cons x r ih => exact ih (k a x h)

/-- What holds of an outcome when it is a next state. -/
def KeptO (s0 : State) : Host.Outcome State Fault Refusal → Prop
  | .next t => Kept s0 t
  | _ => True

theorem KeptO.next {s0 t : State} (h : Kept s0 t) : KeptO s0 (.next t) := h

theorem KeptO.ite {s0 : State} {a b : Host.Outcome State Fault Refusal} {c : Prop} [Decidable c] (h : KeptO s0 a) (k : KeptO s0 b) :
    KeptO s0 (if c then a else b) := by split <;> assumption

end Sys2Proof.Machine
end

