-- ==== Sys2Proof/Laws/KeptBase.lean ====
section
/-! SUPPORT. What every operation of registers, buffers, pools, slots, units, pictures, the event log and the alarms keeps:
the queue, the memory's canonical form and the fuses that only rise. -/

namespace Sys2Proof.Machine

theorem fset_kept {s0 s : State} {a0 : Fld} {a1 : Nat} {a2 : Nat}
    (h : Kept s0 s) : Kept s0 (fset a0 a1 a2 s) := by
  unfold fset
  repeat' with_reducible first
    | assumption | (refine Kept.ite ?_ ?_) | (refine Kept.ite2 ?_ ?_)
    | (refine Kept.foldl ?_ (fun _ _ _ => ?_)) | (refine Kept.foldl2 ?_ (fun _ _ _ => ?_)) | split
    | (refine Kept.of_parts rfl rfl rfl rfl rfl ?_)

theorem bumpBy_kept {s0 s : State} {a0 : Fld} {a1 : Nat} {a2 : Nat}
    (h : Kept s0 s) : Kept s0 (bumpBy a0 a1 a2 s) := by
  unfold bumpBy
  repeat' with_reducible first
    | assumption | (refine Kept.ite ?_ ?_) | (refine Kept.ite2 ?_ ?_) | (refine fset_kept ?_)

theorem bump_kept {s0 s : State} {a0 : Fld} {a1 : Nat} (h : Kept s0 s) : Kept s0 (bump a0 a1 s) := by
  unfold bump
  repeat' with_reducible first
    | assumption | (refine Kept.ite ?_ ?_) | (refine Kept.ite2 ?_ ?_) | (refine bumpBy_kept ?_)

theorem logPush_kept {s0 s : State} {a0 : Nat} {a1 : Bytes} (h : Kept s0 s) : Kept s0 (logPush a0 a1 s) := by
  unfold logPush
  repeat' with_reducible first
    | assumption | (refine Kept.ite ?_ ?_) | (refine Kept.ite2 ?_ ?_)
    | (refine Kept.foldl ?_ (fun _ _ _ => ?_)) | (refine Kept.foldl2 ?_ (fun _ _ _ => ?_)) | split
    | (refine Kept.of_parts rfl rfl rfl rfl rfl ?_)

theorem traceDrop_kept {s0 s : State} {a0 : Nat} (h : Kept s0 s) : Kept s0 (traceDrop a0 s) := by
  unfold traceDrop
  repeat' with_reducible first
    | assumption | (refine Kept.ite ?_ ?_) | (refine Kept.ite2 ?_ ?_) | (refine bumpBy_kept ?_)
    | (refine Kept.foldl ?_ (fun _ _ _ => ?_)) | (refine Kept.foldl2 ?_ (fun _ _ _ => ?_)) | split
    | (refine Kept.of_parts rfl rfl rfl rfl rfl ?_)

theorem traceForget_kept {s0 s : State}  (h : Kept s0 s) : Kept s0 (traceForget s) := by
  unfold traceForget
  repeat' with_reducible first
    | assumption | (refine Kept.ite ?_ ?_) | (refine Kept.ite2 ?_ ?_)
    | (refine Kept.foldl ?_ (fun _ _ _ => ?_)) | (refine Kept.foldl2 ?_ (fun _ _ _ => ?_)) | split
    | (refine Kept.of_parts rfl rfl rfl rfl rfl ?_)

theorem tracePush_kept {s0 s : State} {a0 : Nat} (h : Kept s0 s) : Kept s0 (tracePush a0 s) := by
  unfold tracePush
  repeat' with_reducible first
    | assumption | (refine Kept.ite ?_ ?_) | (refine Kept.ite2 ?_ ?_)
    | (refine Kept.foldl ?_ (fun _ _ _ => ?_)) | (refine Kept.foldl2 ?_ (fun _ _ _ => ?_)) | split
    | (refine Kept.of_parts rfl rfl rfl rfl rfl ?_)

theorem traceTime_kept {s0 s : State}  (h : Kept s0 s) : Kept s0 (traceTime s) := by
  unfold traceTime
  repeat' with_reducible first
    | assumption | (refine Kept.ite ?_ ?_) | (refine Kept.ite2 ?_ ?_) | (refine tracePush_kept ?_)
    | (refine Kept.foldl ?_ (fun _ _ _ => ?_)) | (refine Kept.foldl2 ?_ (fun _ _ _ => ?_)) | split
    | (refine Kept.of_parts rfl rfl rfl rfl rfl ?_)

theorem traceOffer_kept {s0 s : State} {a0 : Nat} (h : Kept s0 s) : Kept s0 (traceOffer a0 s) := by
  unfold traceOffer
  repeat' with_reducible first
    | assumption | (refine Kept.ite ?_ ?_) | (refine Kept.ite2 ?_ ?_) | (refine traceTime_kept ?_)
    | (refine tracePush_kept ?_) | (refine traceForget_kept ?_) | (refine traceDrop_kept ?_)
    | (refine Kept.foldl ?_ (fun _ _ _ => ?_)) | (refine Kept.foldl2 ?_ (fun _ _ _ => ?_)) | split
    | (refine Kept.of_parts rfl rfl rfl rfl rfl ?_)

theorem emit_kept {s0 s : State} {a0 : Out} (h : Kept s0 s) : Kept s0 (emit a0 s) := by
  unfold emit
  repeat' with_reducible first
    | assumption | (refine Kept.ite ?_ ?_) | (refine Kept.ite2 ?_ ?_)
    | (refine Kept.foldl ?_ (fun _ _ _ => ?_)) | (refine Kept.foldl2 ?_ (fun _ _ _ => ?_)) | split
    | (refine Kept.of_parts rfl rfl rfl rfl rfl ?_)

theorem groupEvent_kept {s0 s : State} {a0 : Nat} (h : Kept s0 s) : Kept s0 (groupEvent a0 s) := by
  unfold groupEvent
  repeat' with_reducible first
    | assumption | (refine Kept.ite ?_ ?_) | (refine Kept.ite2 ?_ ?_) | (refine fset_kept ?_)
    | (refine Kept.foldl ?_ (fun _ _ _ => ?_)) | (refine Kept.foldl2 ?_ (fun _ _ _ => ?_)) | split
    | (refine Kept.of_parts rfl rfl rfl rfl rfl ?_)

theorem pendSet_kept {s0 s : State} {a0 : Nat} (h : Kept s0 s) : Kept s0 (pendSet a0 s) := by
  unfold pendSet
  repeat' with_reducible first
    | assumption | (refine Kept.ite ?_ ?_) | (refine Kept.ite2 ?_ ?_) | (refine groupEvent_kept ?_)
    | (refine fset_kept ?_)

theorem strmMod_kept {s0 s : State} {a0 : Nat} {a1 : Stream → Stream}
    (h : Kept s0 s) : Kept s0 (strmMod a0 a1 s) := by
  unfold strmMod
  repeat' with_reducible first
    | assumption | (refine Kept.ite ?_ ?_) | (refine Kept.ite2 ?_ ?_)
    | (refine Kept.foldl ?_ (fun _ _ _ => ?_)) | (refine Kept.foldl2 ?_ (fun _ _ _ => ?_)) | split
    | (refine Kept.of_parts rfl rfl rfl rfl rfl ?_)

theorem seqWord_kept {s0 s : State} {a0 : Nat} {a1 : Nat} {a2 : Nat} {a3 : Nat}
    (h : Kept s0 s) : Kept s0 (seqWord a0 a1 a2 a3 s) := by
  unfold seqWord
  repeat' with_reducible first
    | assumption | (refine Kept.ite ?_ ?_) | (refine Kept.ite2 ?_ ?_) | (refine traceDrop_kept ?_)
    | (refine Kept.foldl ?_ (fun _ _ _ => ?_)) | (refine Kept.foldl2 ?_ (fun _ _ _ => ?_)) | split
    | (refine Kept.of_parts rfl rfl rfl rfl rfl ?_)

theorem setFlag_kept {s0 s : State} {a0 : Fld} {a1 : Nat} {a2 : Bool}
    (h : Kept s0 s) : Kept s0 (setFlag a0 a1 a2 s) := by
  unfold setFlag
  repeat' with_reducible first
    | assumption | (refine Kept.ite ?_ ?_) | (refine Kept.ite2 ?_ ?_) | (refine fset_kept ?_)

theorem riseIf_kept {s0 s old : State} {n : Nat} (h : Kept s0 s) : Kept s0 (riseIf n old s) := by
  unfold riseIf; exact Kept.ite (pendSet_kept h) h

theorem cntSet_kept {s0 s : State} {a0 : Nat} {a1 : Nat} (h : Kept s0 s) : Kept s0 (cntSet a0 a1 s) := by
  unfold cntSet
  repeat' with_reducible first
    | assumption | (refine Kept.ite ?_ ?_) | (refine Kept.ite2 ?_ ?_)
    | (refine Kept.foldl ?_ (fun _ _ _ => ?_)) | (refine Kept.foldl2 ?_ (fun _ _ _ => ?_)) | split
    | (refine Kept.of_parts rfl rfl rfl rfl rfl ?_)

theorem cntBy_kept {s0 s : State} {a0 : Nat} {a1 : Nat} (h : Kept s0 s) : Kept s0 (cntBy a0 a1 s) := by
  unfold cntBy
  repeat' with_reducible first
    | assumption | (refine Kept.ite ?_ ?_) | (refine Kept.ite2 ?_ ?_) | (refine cntSet_kept ?_)

theorem histCnt_kept {s0 s : State} {a0 : Nat} {a1 : Nat} (h : Kept s0 s) : Kept s0 (histCnt a0 a1 s) := by
  unfold histCnt
  repeat' with_reducible first
    | assumption | (refine Kept.ite ?_ ?_) | (refine Kept.ite2 ?_ ?_) | (refine cntBy_kept ?_)

theorem leafCnt_kept {s0 s : State} {a0 : Nat} {a1 : Nat} {a2 : Nat}
    (h : Kept s0 s) : Kept s0 (leafCnt a0 a1 a2 s) := by
  unfold leafCnt
  repeat' with_reducible first
    | assumption | (refine Kept.ite ?_ ?_) | (refine Kept.ite2 ?_ ?_) | (refine cntBy_kept ?_)

theorem macCnt_kept {s0 s : State} {a0 : Nat} {a1 : Nat} {a2 : Nat}
    (h : Kept s0 s) : Kept s0 (macCnt a0 a1 a2 s) := by
  unfold macCnt
  repeat' with_reducible first
    | assumption | (refine Kept.ite ?_ ?_) | (refine Kept.ite2 ?_ ?_) | (refine cntBy_kept ?_)

theorem enterMode_kept {s0 s : State} {a0 : Mode} {a1 : Nat}
    (h : Kept s0 s) : Kept s0 (enterMode a0 a1 s) := by
  unfold enterMode
  repeat' with_reducible first
    | assumption | (refine Kept.ite ?_ ?_) | (refine Kept.ite2 ?_ ?_) | (refine logPush_kept ?_)
    | (refine fset_kept ?_) | (refine Kept.foldl ?_ (fun _ _ _ => ?_))
    | (refine Kept.foldl2 ?_ (fun _ _ _ => ?_)) | split | (refine Kept.of_parts rfl rfl rfl rfl rfl ?_)

theorem setEvent_kept {s0 s : State} {a0 : Fld} {a1 : Nat} {a2 : Nat}
    (h : Kept s0 s) : Kept s0 (setEvent a0 a1 a2 s) := by
  unfold setEvent
  repeat' with_reducible first
    | assumption | (refine Kept.ite ?_ ?_) | (refine Kept.ite2 ?_ ?_) | (refine riseIf_kept ?_)
    | (refine setFlag_kept ?_)

theorem writeByte_kept {s0 s : State} {a : Nat} {v : Byte} (h : Kept s0 s) : Kept s0 (writeByte a v s) :=
  h.trans ⟨rfl, fun w => writeByte_wf a v (s := s) w, le_rfl, le_rfl, le_rfl⟩

theorem denied_kept {s0 s : State}  (h : Kept s0 s) : Kept s0 (denied s) := by
  unfold denied
  repeat' with_reducible first
    | assumption | (refine Kept.ite ?_ ?_) | (refine Kept.ite2 ?_ ?_) | (refine bump_kept ?_)

theorem hostRd_kept {s0 s : State} {fn i : Nat} {r : Reg} {k : State → Nat × State} (h : Kept s0 s)
    (hk : ∀ t, Kept s0 t → Kept s0 (k t).2) : Kept s0 (hostRd fn r i s k) := by
  unfold hostRd
  exact Kept.ite (emit_kept h) (Kept.ite (emit_kept (hk s h)) (emit_kept (denied_kept h)))

theorem freshValue_kept {s0 s : State} {a0 : Nat} (h : Kept s0 s) : Kept s0 (freshValue a0 s).2 := by
  unfold freshValue
  repeat' with_reducible first
    | assumption | (refine Kept.ite ?_ ?_) | (refine Kept.ite2 ?_ ?_)
    | (refine Kept.foldl ?_ (fun _ _ _ => ?_)) | (refine Kept.foldl2 ?_ (fun _ _ _ => ?_)) | split
    | (refine Kept.of_parts rfl rfl rfl rfl rfl ?_)

theorem drawBytes_kept {s0 s : State} {a0 : Nat} (h : Kept s0 s) : Kept s0 (drawBytes a0 s).2 := by
  unfold drawBytes
  repeat' with_reducible first
    | assumption | (refine Kept.ite ?_ ?_) | (refine Kept.ite2 ?_ ?_)
    | (refine Kept.foldl ?_ (fun _ _ _ => ?_)) | (refine Kept.foldl2 ?_ (fun _ _ _ => ?_)) | split
    | (refine Kept.of_parts rfl rfl rfl rfl rfl ?_)

theorem passCclk_kept {s0 s : State} {a0 : Nat} (h : Kept s0 s) : Kept s0 (passCclk a0 s) := by
  unfold passCclk
  repeat' with_reducible first
    | assumption | (refine Kept.ite ?_ ?_) | (refine Kept.ite2 ?_ ?_)
    | (refine Kept.foldl ?_ (fun _ _ _ => ?_)) | (refine Kept.foldl2 ?_ (fun _ _ _ => ?_)) | split
    | (refine Kept.of_parts rfl rfl rfl rfl rfl ?_)

theorem reachPtp_kept {s0 s : State} {a0 : Nat} (h : Kept s0 s) : Kept s0 (reachPtp a0 s) := by
  unfold reachPtp
  repeat' with_reducible first
    | assumption | (refine Kept.ite ?_ ?_) | (refine Kept.ite2 ?_ ?_) | (refine passCclk_kept ?_)

theorem flowCnt_kept {s0 s : State} {a0 : Nat} {a1 : Nat} (h : Kept s0 s) : Kept s0 (flowCnt a0 a1 s) := by
  unfold flowCnt
  repeat' with_reducible first
    | assumption | (refine Kept.ite ?_ ?_) | (refine Kept.ite2 ?_ ?_) | (refine cntBy_kept ?_)

theorem hostWr_kept {s0 s : State} {fn i : Nat} {r : Reg} {k : State → State} (h : Kept s0 s)
    (hk : ∀ t, Kept s0 t → Kept s0 (k t)) : Kept s0 (hostWr fn r i s k) := by
  unfold hostWr
  exact Kept.ite h (Kept.ite (hk s h) (denied_kept h))

theorem reachCclk_kept {s0 s : State} {a0 : Nat} (h : Kept s0 s) : Kept s0 (reachCclk a0 s) := by
  unfold reachCclk
  repeat' with_reducible first
    | assumption | (refine Kept.ite ?_ ?_) | (refine Kept.ite2 ?_ ?_) | (refine passCclk_kept ?_)

theorem healLines_kept {s0 s : State} {a0 : Nat} {a1 : Nat}
    (h : Kept s0 s) : Kept s0 (healLines a0 a1 s) := by
  unfold healLines
  repeat' with_reducible first
    | assumption | (refine Kept.ite ?_ ?_) | (refine Kept.ite2 ?_ ?_)
    | (refine Kept.foldl ?_ (fun _ _ _ => ?_)) | (refine Kept.foldl2 ?_ (fun _ _ _ => ?_)) | split
    | (refine Kept.of_parts rfl rfl rfl rfl rfl ?_)

theorem writeBytes_kept {s0 s : State} {a : Nat} {b : Bytes}
    (h : Kept s0 s) : Kept s0 (writeBytes a b s) := by
  induction b generalizing a s with
  | nil => exact h
  | cons x r ih => exact ih (writeByte_kept h)

theorem writeMem_kept {s0 s : State} {a0 : Nat} {a1 : Bytes}
    (h : Kept s0 s) : Kept s0 (writeMem a0 a1 s) := by
  unfold writeMem
  repeat' with_reducible first
    | assumption | (refine Kept.ite ?_ ?_) | (refine Kept.ite2 ?_ ?_) | (refine writeBytes_kept ?_)
    | (refine healLines_kept ?_)

theorem pendClear_kept {s0 s : State} {a0 : Nat} (h : Kept s0 s) : Kept s0 (pendClear a0 s) := by
  unfold pendClear
  repeat' with_reducible first
    | assumption | (refine Kept.ite ?_ ?_) | (refine Kept.ite2 ?_ ?_) | (refine fset_kept ?_)

theorem setShared_kept {s0 s : State} {a0 : Nat} (h : Kept s0 s) : Kept s0 (setShared a0 s) := by
  unfold setShared
  repeat' with_reducible first
    | assumption | (refine Kept.ite ?_ ?_) | (refine Kept.ite2 ?_ ?_) | (refine fset_kept ?_)

theorem copyGone_kept {s0 s : State} {a0 : Nat} {a1 : Bool} (h : Kept s0 s) : Kept s0 (copyGone a0 a1 s) := by
  unfold copyGone
  repeat' with_reducible first
    | assumption | (refine Kept.ite ?_ ?_) | (refine Kept.ite2 ?_ ?_) | (refine setShared_kept ?_)
    | (refine histCnt_kept ?_) | (refine Kept.foldl ?_ (fun _ _ _ => ?_))
    | (refine Kept.foldl2 ?_ (fun _ _ _ => ?_)) | split | (refine Kept.of_parts rfl rfl rfl rfl rfl ?_)

theorem leafDropCount_kept {s0 s : State} {a0 : Nat} {a1 : Nat}
    (h : Kept s0 s) : Kept s0 (leafDropCount a0 a1 s) := by
  unfold leafDropCount
  repeat' with_reducible first
    | assumption | (refine Kept.ite ?_ ?_) | (refine Kept.ite2 ?_ ?_) | (refine leafCnt_kept ?_)
    | (refine bump_kept ?_)

theorem postcard_kept {s0 s : State} {a0 : Copy} {a1 : Fate} {a2 : Nat}
    (h : Kept s0 s) : Kept s0 (postcard a0 a1 a2 s) := by
  unfold postcard
  repeat' with_reducible first
    | assumption | (refine Kept.ite ?_ ?_) | (refine Kept.ite2 ?_ ?_) | (refine traceDrop_kept ?_)
    | (refine Kept.foldl ?_ (fun _ _ _ => ?_)) | (refine Kept.foldl2 ?_ (fun _ _ _ => ?_)) | split
    | (refine Kept.of_parts rfl rfl rfl rfl rfl ?_)

theorem setLeafUni_kept {s0 s : State} {a0 : Nat} {a1 : Nat}
    (h : Kept s0 s) : Kept s0 (setLeafUni a0 a1 s) := by
  unfold setLeafUni
  repeat' with_reducible first
    | assumption | (refine Kept.ite ?_ ?_) | (refine Kept.ite2 ?_ ?_) | (refine setShared_kept ?_)
    | (refine Kept.foldl ?_ (fun _ _ _ => ?_)) | (refine Kept.foldl2 ?_ (fun _ _ _ => ?_)) | split
    | (refine Kept.of_parts rfl rfl rfl rfl rfl ?_)

theorem releaseCells_kept {s0 s : State} {a0 : Copy} (h : Kept s0 s) : Kept s0 (releaseCells a0 s) := by
  unfold releaseCells
  repeat' with_reducible first
    | assumption | (refine Kept.ite ?_ ?_) | (refine Kept.ite2 ?_ ?_) | (refine setLeafUni_kept ?_)
    | (refine fset_kept ?_)

theorem dropQueued_kept {s0 s : State} {a0 : Copy} (h : Kept s0 s) : Kept s0 (dropQueued a0 s) := by
  unfold dropQueued
  repeat' with_reducible first
    | assumption | (refine Kept.ite ?_ ?_) | (refine Kept.ite2 ?_ ?_) | (refine releaseCells_kept ?_)
    | (refine postcard_kept ?_) | (refine leafDropCount_kept ?_) | (refine copyGone_kept ?_)

theorem eachCopy_kept {s0 s : State} {f : Copy → State → State} {l : List Copy} (h : Kept s0 s)
    (k : ∀ c t, Kept s0 t → Kept s0 (f c t)) : Kept s0 (eachCopy f l s) := Kept.foldl h (fun _ _ h => k _ _ h)

theorem drrEmptied_kept {s0 s : State} {a0 : Nat} {a1 : Nat} {a2 : Nat}
    (h : Kept s0 s) : Kept s0 (drrEmptied a0 a1 a2 s) := by
  unfold drrEmptied
  repeat' with_reducible first
    | assumption | (refine Kept.ite ?_ ?_) | (refine Kept.ite2 ?_ ?_)
    | (refine Kept.foldl ?_ (fun _ _ _ => ?_)) | (refine Kept.foldl2 ?_ (fun _ _ _ => ?_)) | split
    | (refine Kept.of_parts rfl rfl rfl rfl rfl ?_)

theorem drrJoin_kept {s0 s : State} {a0 : Nat} {a1 : Nat} (h : Kept s0 s) : Kept s0 (drrJoin a0 a1 s) := by
  unfold drrJoin
  repeat' with_reducible first
    | assumption | (refine Kept.ite ?_ ?_) | (refine Kept.ite2 ?_ ?_)
    | (refine Kept.foldl ?_ (fun _ _ _ => ?_)) | (refine Kept.foldl2 ?_ (fun _ _ _ => ?_)) | split
    | (refine Kept.of_parts rfl rfl rfl rfl rfl ?_)

theorem setLeafQueue_kept {s0 s : State} {a0 : Nat} {a1 : List Copy}
    (h : Kept s0 s) : Kept s0 (setLeafQueue a0 a1 s) := by
  unfold setLeafQueue
  repeat' with_reducible first
    | assumption | (refine Kept.ite ?_ ?_) | (refine Kept.ite2 ?_ ?_) | (refine drrJoin_kept ?_)
    | (refine drrEmptied_kept ?_) | (refine setFlag_kept ?_) | (refine Kept.foldl ?_ (fun _ _ _ => ?_))
    | (refine Kept.foldl2 ?_ (fun _ _ _ => ?_)) | split | (dsimp only; split)
    | (refine Kept.of_parts rfl rfl rfl rfl rfl ?_)

theorem sharedRecount_kept {s0 s : State} {a0 : Cfg} (h : Kept s0 s) : Kept s0 (sharedRecount a0 s) := by
  unfold sharedRecount
  repeat' with_reducible first
    | assumption | (refine Kept.ite ?_ ?_) | (refine Kept.ite2 ?_ ?_) | (refine setShared_kept ?_)
    | (refine Kept.foldl ?_ (fun _ _ _ => ?_))

theorem endCopy_kept {s0 s : State} {a0 : Copy} {a1 : Fate} (h : Kept s0 s) : Kept s0 (endCopy a0 a1 s) := by
  unfold endCopy
  repeat' with_reducible first
    | assumption | (refine Kept.ite ?_ ?_) | (refine Kept.ite2 ?_ ?_) | (refine postcard_kept ?_)
    | (refine copyGone_kept ?_)

theorem enqueueCopy_kept {s0 s : State} {a0 : Copy} {a1 : L3}
    (h : Kept s0 s) : Kept s0 (enqueueCopy a0 a1 s) := by
  unfold enqueueCopy
  repeat' with_reducible first
    | assumption | (refine Kept.ite ?_ ?_) | (refine Kept.ite2 ?_ ?_) | (refine setLeafQueue_kept ?_)
    | (refine macCnt_kept ?_) | (refine setLeafUni_kept ?_) | (refine bump_kept ?_) | (refine fset_kept ?_)
    | (refine Kept.foldl ?_ (fun _ _ _ => ?_)) | (refine Kept.foldl2 ?_ (fun _ _ _ => ?_)) | split

theorem nodeCharge_kept {s0 s : State} {a0 : Nat} {a1 : Nat} {a2 : Nat}
    (h : Kept s0 s) : Kept s0 (nodeCharge a0 a1 a2 s) := by
  unfold nodeCharge
  repeat' with_reducible first
    | assumption | (refine Kept.ite ?_ ?_) | (refine Kept.ite2 ?_ ?_)
    | (refine Kept.foldl ?_ (fun _ _ _ => ?_)) | (refine Kept.foldl2 ?_ (fun _ _ _ => ?_)) | split
    | (refine Kept.of_parts rfl rfl rfl rfl rfl ?_)

theorem nodePass_kept {s0 s : State} {a0 : Nat} {a1 : Nat} (h : Kept s0 s) : Kept s0 (nodePass a0 a1 s) := by
  unfold nodePass
  repeat' with_reducible first
    | assumption | (refine Kept.ite ?_ ?_) | (refine Kept.ite2 ?_ ?_) | (refine nodeCharge_kept ?_)

theorem admitCopy_kept {s0 s : State} {a0 : Copy} {a1 : L3}
    (h : Kept s0 s) : Kept s0 (admitCopy a0 a1 s) := by
  unfold admitCopy
  repeat' with_reducible first
    | assumption | (refine Kept.ite ?_ ?_) | (refine Kept.ite2 ?_ ?_) | (refine nodePass_kept ?_)
    | (refine enqueueCopy_kept ?_) | (refine endCopy_kept ?_) | (refine macCnt_kept ?_)
    | (refine leafDropCount_kept ?_) | (refine bump_kept ?_) | (refine Kept.foldl ?_ (fun _ _ _ => ?_))
    | (refine Kept.foldl2 ?_ (fun _ _ _ => ?_)) | split

theorem flushQueued_kept {s0 s : State} {a0 : Copy} (h : Kept s0 s) : Kept s0 (flushQueued a0 s) := by
  unfold flushQueued
  repeat' with_reducible first
    | assumption | (refine Kept.ite ?_ ?_) | (refine Kept.ite2 ?_ ?_) | (refine releaseCells_kept ?_)
    | (refine postcard_kept ?_) | (refine copyGone_kept ?_) | (refine bump_kept ?_)

theorem puntAccept_kept {s0 s : State}  (h : Kept s0 s) : Kept s0 (puntAccept s) := by
  unfold puntAccept
  repeat' with_reducible first
    | assumption | (refine Kept.ite ?_ ?_) | (refine Kept.ite2 ?_ ?_) | (refine copyGone_kept ?_)
    | (refine Kept.foldl ?_ (fun _ _ _ => ?_)) | (refine Kept.foldl2 ?_ (fun _ _ _ => ?_)) | split
    | (refine Kept.of_parts rfl rfl rfl rfl rfl ?_)

theorem setBuf_kept {s0 s : State} {a0 : Nat} {a1 : Bool} {a2 : Bool} {a3 : Nat}
    (h : Kept s0 s) : Kept s0 (setBuf a0 a1 a2 a3 s) := by
  unfold setBuf
  repeat' with_reducible first
    | assumption | (refine Kept.ite ?_ ?_) | (refine Kept.ite2 ?_ ?_)
    | (refine Kept.foldl ?_ (fun _ _ _ => ?_)) | (refine Kept.foldl2 ?_ (fun _ _ _ => ?_)) | split
    | (refine Kept.of_parts rfl rfl rfl rfl rfl ?_)

theorem setPoolFree_kept {s0 s : State} {a0 : Nat} {a1 : Nat}
    (h : Kept s0 s) : Kept s0 (setPoolFree a0 a1 s) := by
  unfold setPoolFree
  repeat' with_reducible first
    | assumption | (refine Kept.ite ?_ ?_) | (refine Kept.ite2 ?_ ?_) | (refine fset_kept ?_)

theorem zeroMem_kept {s0 s : State} {a n : Nat} (h : Kept s0 s) : Kept s0 (zeroMem a n s) :=
  h.trans ⟨rfl, fun w => zeroMem_wf a n (s := s) w, le_rfl, le_rfl, le_rfl⟩

theorem poolPut_kept {s0 s : State} {a0 : Nat} (h : Kept s0 s) : Kept s0 (poolPut a0 s) := by
  unfold poolPut
  repeat' with_reducible first
    | assumption | (refine Kept.ite ?_ ?_) | (refine Kept.ite2 ?_ ?_) | (refine zeroMem_kept ?_)
    | (refine setPoolFree_kept ?_) | (refine setBuf_kept ?_) | (refine Kept.foldl ?_ (fun _ _ _ => ?_))
    | (refine Kept.foldl2 ?_ (fun _ _ _ => ?_)) | split | (refine Kept.of_parts rfl rfl rfl rfl rfl ?_)

theorem winWrite_kept {s0 s : State} {i off : Nat} {b : Bytes}
    (h : Kept s0 s) : Kept s0 (winWrite i off b s) := by
  induction b generalizing off s with
  | nil => exact h
  | cons x r ih => exact ih (writeByte_kept h)

theorem poolPick_kept {s0 s : State} {a0 : Nat} (h : Kept s0 s) : Kept s0 (poolPick a0 s).2 := by
  unfold poolPick
  repeat' with_reducible first
    | assumption | (refine Kept.ite ?_ ?_) | (refine Kept.ite2 ?_ ?_) | (refine freshValue_kept ?_)
    | (refine Kept.foldl ?_ (fun _ _ _ => ?_)) | (refine Kept.foldl2 ?_ (fun _ _ _ => ?_)) | split
    | (dsimp only; split) | (refine Kept.of_parts rfl rfl rfl rfl rfl ?_)

theorem poolTake_kept {s0 s : State} {a0 : Nat} {a1 : Nat} {a2 : Bool}
    (h : Kept s0 s) : Kept s0 (poolTake a0 a1 a2 s).2 := by
  unfold poolTake
  repeat' with_reducible first
    | assumption | (refine Kept.ite ?_ ?_) | (refine Kept.ite2 ?_ ?_) | (refine poolPick_kept ?_)
    | (refine setPoolFree_kept ?_) | (refine setBuf_kept ?_) | (refine bump_kept ?_)
    | (refine Kept.foldl ?_ (fun _ _ _ => ?_)) | (refine Kept.foldl2 ?_ (fun _ _ _ => ?_)) | split

theorem winZero_kept {s0 s : State} {a0 : Nat} (h : Kept s0 s) : Kept s0 (winZero a0 s) := by
  unfold winZero
  repeat' with_reducible first
    | assumption | (refine Kept.ite ?_ ?_) | (refine Kept.ite2 ?_ ?_) | (refine zeroMem_kept ?_)

theorem freeSlot_kept {s0 s : State} {a0 : Nat} {a1 : Nat} (h : Kept s0 s) : Kept s0 (freeSlot a0 a1 s) := by
  unfold freeSlot
  repeat' with_reducible first
    | assumption | (refine Kept.ite ?_ ?_) | (refine Kept.ite2 ?_ ?_)
    | (refine Kept.foldl ?_ (fun _ _ _ => ?_)) | (refine Kept.foldl2 ?_ (fun _ _ _ => ?_)) | split
    | (refine Kept.of_parts rfl rfl rfl rfl rfl ?_)

theorem setSlot_kept {s0 s : State} {a0 : Nat} {a1 : Nat} {a2 : SlotSt}
    (h : Kept s0 s) : Kept s0 (setSlot a0 a1 a2 s) := by
  unfold setSlot
  repeat' with_reducible first
    | assumption | (refine Kept.ite ?_ ?_) | (refine Kept.ite2 ?_ ?_)
    | (refine Kept.foldl ?_ (fun _ _ _ => ?_)) | (refine Kept.foldl2 ?_ (fun _ _ _ => ?_)) | split
    | (refine Kept.of_parts rfl rfl rfl rfl rfl ?_)

theorem releaseSlot_kept {s0 s : State} {a0 : Nat} {a1 : Nat} {a2 : Nat}
    (h : Kept s0 s) : Kept s0 (releaseSlot a0 a1 a2 s) := by
  unfold releaseSlot
  repeat' with_reducible first
    | assumption | (refine Kept.ite ?_ ?_) | (refine Kept.ite2 ?_ ?_) | (refine setSlot_kept ?_)
    | (refine freeSlot_kept ?_) | (refine Kept.foldl ?_ (fun _ _ _ => ?_))
    | (refine Kept.foldl2 ?_ (fun _ _ _ => ?_)) | split

theorem fxSet_kept {s0 s : State} {a0 : Nat} {a1 : Nat} {a2 : Bytes}
    (h : Kept s0 s) : Kept s0 (fxSet a0 a1 a2 s) := by
  unfold fxSet
  repeat' with_reducible first
    | assumption | (refine Kept.ite ?_ ?_) | (refine Kept.ite2 ?_ ?_)
    | (refine Kept.foldl ?_ (fun _ _ _ => ?_)) | (refine Kept.foldl2 ?_ (fun _ _ _ => ?_)) | split
    | (refine Kept.of_parts rfl rfl rfl rfl rfl ?_)

theorem fFlag_kept {s0 s : State} {a0 : Nat} {a1 : Nat} {a2 : Bool}
    (h : Kept s0 s) : Kept s0 (fFlag a0 a1 a2 s) := by
  unfold fFlag
  repeat' with_reducible first
    | assumption | (refine Kept.ite ?_ ?_) | (refine Kept.ite2 ?_ ?_) | (refine fxSet_kept ?_)

theorem fSetState_kept {s0 s : State} {a0 : Nat} {a1 : Nat}
    (h : Kept s0 s) : Kept s0 (fSetState a0 a1 s) := by
  unfold fSetState
  repeat' with_reducible first
    | assumption | (refine Kept.ite ?_ ?_) | (refine Kept.ite2 ?_ ?_) | (refine fxSet_kept ?_)

theorem dropReader_kept {s0 s : State} {a0 : Nat} (h : Kept s0 s) : Kept s0 (dropReader a0 s) := by
  unfold dropReader
  repeat' with_reducible first
    | assumption | (refine Kept.ite ?_ ?_) | (refine Kept.ite2 ?_ ?_) | (refine releaseSlot_kept ?_)
    | (refine Kept.foldl ?_ (fun _ _ _ => ?_)) | (refine Kept.foldl2 ?_ (fun _ _ _ => ?_)) | split

theorem fFlowMod_kept {s0 s : State} {a0 : Nat} {a1 : EssFlow → EssFlow}
    (h : Kept s0 s) : Kept s0 (fFlowMod a0 a1 s) := by
  unfold fFlowMod
  repeat' with_reducible first
    | assumption | (refine Kept.ite ?_ ?_) | (refine Kept.ite2 ?_ ?_)
    | (refine Kept.foldl ?_ (fun _ _ _ => ?_)) | (refine Kept.foldl2 ?_ (fun _ _ _ => ?_)) | split
    | (refine Kept.of_parts rfl rfl rfl rfl rfl ?_)

theorem giveRow_kept {s0 s : State} {a0 : Nat} {a1 : Nat} {a2 : List Nat}
    (h : Kept s0 s) : Kept s0 (giveRow a0 a1 a2 s) := by
  unfold giveRow
  repeat' with_reducible first
    | assumption | (refine Kept.ite ?_ ?_) | (refine Kept.ite2 ?_ ?_) | (refine setSlot_kept ?_)
    | (refine freeSlot_kept ?_) | (refine strmMod_kept ?_) | (refine Kept.foldl ?_ (fun _ _ _ => ?_))
    | (refine Kept.foldl2 ?_ (fun _ _ _ => ?_)) | split

theorem fCnt_kept {s0 s : State} {a0 : Nat} {a1 : Nat} {a2 : Nat}
    (h : Kept s0 s) : Kept s0 (fCnt a0 a1 a2 s) := by
  unfold fCnt
  repeat' with_reducible first
    | assumption | (refine Kept.ite ?_ ?_) | (refine Kept.ite2 ?_ ?_) | (refine cntBy_kept ?_)

theorem setValid_kept {s0 s : State} {a0 : Nat} {a1 : Nat} {a2 : Nat} {a3 : Nat}
    (h : Kept s0 s) : Kept s0 (setValid a0 a1 a2 a3 s) := by
  unfold setValid
  repeat' with_reducible first
    | assumption | (refine Kept.ite ?_ ?_) | (refine Kept.ite2 ?_ ?_)
    | (refine Kept.foldl ?_ (fun _ _ _ => ?_)) | (refine Kept.foldl2 ?_ (fun _ _ _ => ?_)) | split
    | (refine Kept.of_parts rfl rfl rfl rfl rfl ?_)

theorem flMod_kept {s0 s : State} {a0 : Nat} {a1 : FlLink → FlLink}
    (h : Kept s0 s) : Kept s0 (flMod a0 a1 s) := by
  unfold flMod
  repeat' with_reducible first
    | assumption | (refine Kept.ite ?_ ?_) | (refine Kept.ite2 ?_ ?_)
    | (refine Kept.foldl ?_ (fun _ _ _ => ?_)) | (refine Kept.foldl2 ?_ (fun _ _ _ => ?_)) | split
    | (refine Kept.of_parts rfl rfl rfl rfl rfl ?_)

theorem cqLose_kept {s0 s : State} {a0 : Nat} (h : Kept s0 s) : Kept s0 (cqLose a0 s) := by
  unfold cqLose
  repeat' with_reducible first
    | assumption | (refine Kept.ite ?_ ?_) | (refine Kept.ite2 ?_ ?_) | (refine bump_kept ?_)

theorem cqWrite_kept {s0 s : State} {a0 : Nat} {a1 : Bytes} (h : Kept s0 s) : Kept s0 (cqWrite a0 a1 s) := by
  unfold cqWrite
  repeat' with_reducible first
    | assumption | (refine Kept.ite ?_ ?_) | (refine Kept.ite2 ?_ ?_) | (refine pendSet_kept ?_)
    | (refine emit_kept ?_) | (refine fset_kept ?_) | (refine Kept.foldl ?_ (fun _ _ _ => ?_))
    | (refine Kept.foldl2 ?_ (fun _ _ _ => ?_)) | split | (refine Kept.of_parts rfl rfl rfl rfl rfl ?_)

theorem statIssue_kept {s0 s : State} {a0 : Nat} {a1 : Bytes} {a2 : Bool}
    (h : Kept s0 s) : Kept s0 (statIssue a0 a1 a2 s) := by
  unfold statIssue
  repeat' with_reducible first
    | assumption | (refine Kept.ite ?_ ?_) | (refine Kept.ite2 ?_ ?_) | (refine strmMod_kept ?_)
    | (refine cqWrite_kept ?_) | (refine emit_kept ?_) | (refine cqLose_kept ?_) | (refine fset_kept ?_)

theorem statFlush_kept {s0 s : State} {a0 : Nat} (h : Kept s0 s) : Kept s0 (statFlush a0 s) := by
  unfold statFlush
  repeat' with_reducible first
    | assumption | (refine Kept.ite ?_ ?_) | (refine Kept.ite2 ?_ ?_) | (refine statIssue_kept ?_)
    | (refine strmMod_kept ?_) | (refine Kept.foldl ?_ (fun _ _ _ => ?_))
    | (refine Kept.foldl2 ?_ (fun _ _ _ => ?_)) | split

theorem statSend_kept {s0 s : State} {a0 : Nat} {a1 : Bytes} {a2 : Bool}
    (h : Kept s0 s) : Kept s0 (statSend a0 a1 a2 s) := by
  unfold statSend
  repeat' with_reducible first
    | assumption | (refine Kept.ite ?_ ?_) | (refine Kept.ite2 ?_ ?_) | (refine statFlush_kept ?_)
    | (refine statIssue_kept ?_) | (refine strmMod_kept ?_) | (refine cqLose_kept ?_)

theorem statWrite_kept {s0 s : State} {a0 : Nat} {a1 : StatRec} {a2 : Bool}
    (h : Kept s0 s) : Kept s0 (statWrite a0 a1 a2 s) := by
  unfold statWrite
  repeat' with_reducible first
    | assumption | (refine Kept.ite ?_ ?_) | (refine Kept.ite2 ?_ ?_) | (refine statSend_kept ?_)

theorem cmdRecord_kept {s0 s : State} {a0 : Nat} {a1 : Bytes} {a2 : StatRec}
    (h : Kept s0 s) : Kept s0 (cmdRecord a0 a1 a2 s) := by
  unfold cmdRecord
  repeat' with_reducible first
    | assumption | (refine Kept.ite ?_ ?_) | (refine Kept.ite2 ?_ ?_) | (refine statWrite_kept ?_)

theorem cmdStatus_kept {s0 s : State} {a0 : Nat} {a1 : Bytes} {a2 : StatRec}
    (h : Kept s0 s) : Kept s0 (cmdStatus a0 a1 a2 s) := by
  unfold cmdStatus
  repeat' with_reducible first
    | assumption | (refine Kept.ite ?_ ?_) | (refine Kept.ite2 ?_ ?_) | (refine cmdRecord_kept ?_)
    | (refine strmMod_kept ?_)

theorem routineWord_kept {s0 s : State} {a0 : Nat} {a1 : Nat} {a2 : Nat} {a3 : Work}
    (h : Kept s0 s) : Kept s0 (routineWord a0 a1 a2 a3 s) := by
  unfold routineWord
  repeat' with_reducible first
    | assumption | (refine Kept.ite ?_ ?_) | (refine Kept.ite2 ?_ ?_) | (refine seqWord_kept ?_)

theorem endWord_kept {s0 s : State} {a0 : Nat} {a1 : Work} {a2 : Bool}
    (h : Kept s0 s) : Kept s0 (endWord a0 a1 a2 s) := by
  unfold endWord
  repeat' with_reducible first
    | assumption | (refine Kept.ite ?_ ?_) | (refine Kept.ite2 ?_ ?_) | (refine routineWord_kept ?_)

theorem engMod_kept {s0 s : State} {a0 : Nat} {a1 : Engine → Engine}
    (h : Kept s0 s) : Kept s0 (engMod a0 a1 s) := by
  unfold engMod
  repeat' with_reducible first
    | assumption | (refine Kept.ite ?_ ?_) | (refine Kept.ite2 ?_ ?_)
    | (refine Kept.foldl ?_ (fun _ _ _ => ?_)) | (refine Kept.foldl2 ?_ (fun _ _ _ => ?_)) | split
    | (refine Kept.of_parts rfl rfl rfl rfl rfl ?_)

theorem setWork_kept {s0 s : State} {a0 : Nat} {a1 : Option Work}
    (h : Kept s0 s) : Kept s0 (setWork a0 a1 s) := by
  unfold setWork
  repeat' with_reducible first
    | assumption | (refine Kept.ite ?_ ?_) | (refine Kept.ite2 ?_ ?_) | (refine engMod_kept ?_)

theorem workBufBack_kept {s0 s : State} {a0 : Work} (h : Kept s0 s) : Kept s0 (workBufBack a0 s) := by
  unfold workBufBack
  repeat' with_reducible first
    | assumption | (refine Kept.ite ?_ ?_) | (refine Kept.ite2 ?_ ?_) | (refine poolPut_kept ?_)

theorem gangEnable_kept {s0 s : State} {a0 : Nat} {a1 : Bool}
    (h : Kept s0 s) : Kept s0 (gangEnable a0 a1 s) := by
  unfold gangEnable
  repeat' with_reducible first
    | assumption | (refine Kept.ite ?_ ?_) | (refine Kept.ite2 ?_ ?_) | (refine setFlag_kept ?_)
    | (refine Kept.foldl ?_ (fun _ _ _ => ?_))

theorem gangFlag_kept {s0 s : State} {a0 : Fld} {a1 : Nat} {a2 : Bool}
    (h : Kept s0 s) : Kept s0 (gangFlag a0 a1 a2 s) := by
  unfold gangFlag
  repeat' with_reducible first
    | assumption | (refine Kept.ite ?_ ?_) | (refine Kept.ite2 ?_ ?_) | (refine setFlag_kept ?_)
    | (refine Kept.foldl ?_ (fun _ _ _ => ?_))

theorem dcEnable_kept {s0 s : State} {a0 : Nat} {a1 : Bool} (h : Kept s0 s) : Kept s0 (dcEnable a0 a1 s) := by
  unfold dcEnable
  repeat' with_reducible first
    | assumption | (refine Kept.ite ?_ ?_) | (refine Kept.ite2 ?_ ?_) | (refine setFlag_kept ?_)
    | (refine emit_kept ?_)

theorem chanMod_kept {s0 s : State} {a0 : Nat} {a1 : Channel → Channel}
    (h : Kept s0 s) : Kept s0 (chanMod a0 a1 s) := by
  unfold chanMod
  repeat' with_reducible first
    | assumption | (refine Kept.ite ?_ ?_) | (refine Kept.ite2 ?_ ?_)
    | (refine Kept.foldl ?_ (fun _ _ _ => ?_)) | (refine Kept.foldl2 ?_ (fun _ _ _ => ?_)) | split
    | (refine Kept.of_parts rfl rfl rfl rfl rfl ?_)

theorem dmaIssued_kept {s0 s : State} {a0 : Nat} {a1 : Nat}
    (h : Kept s0 s) : Kept s0 (dmaIssued a0 a1 s) := by
  unfold dmaIssued
  repeat' with_reducible first
    | assumption | (refine Kept.ite ?_ ?_) | (refine Kept.ite2 ?_ ?_) | (refine riseIf_kept ?_)
    | (refine chanMod_kept ?_) | (refine setFlag_kept ?_)

theorem dmaRecord_kept {s0 s : State} {a0 : Nat} {a1 : Nat} {a2 : Nat}
    (h : Kept s0 s) : Kept s0 (dmaRecord a0 a1 a2 s) := by
  unfold dmaRecord
  repeat' with_reducible first
    | assumption | (refine Kept.ite ?_ ?_) | (refine Kept.ite2 ?_ ?_) | (refine dmaIssued_kept ?_)
    | (refine chanMod_kept ?_) | (refine cqWrite_kept ?_) | (refine cqLose_kept ?_)

theorem dcOff_kept {s0 s : State} {a0 : Nat} (h : Kept s0 s) : Kept s0 (dcOff a0 s) := by
  unfold dcOff
  repeat' with_reducible first
    | assumption | (refine Kept.ite ?_ ?_) | (refine Kept.ite2 ?_ ?_) | (refine dmaRecord_kept ?_)
    | (refine dcEnable_kept ?_) | (refine setFlag_kept ?_)

theorem flOff_kept {s0 s : State} {a0 : Nat} (h : Kept s0 s) : Kept s0 (flOff a0 s) := by
  unfold flOff
  repeat' with_reducible first
    | assumption | (refine Kept.ite ?_ ?_) | (refine Kept.ite2 ?_ ?_) | (refine setFlag_kept ?_)
    | (refine flMod_kept ?_)

theorem macDrop_kept {s0 s : State} {a0 : Nat} (h : Kept s0 s) : Kept s0 (macDrop a0 s) := by
  unfold macDrop
  repeat' with_reducible first
    | assumption | (refine Kept.ite ?_ ?_) | (refine Kept.ite2 ?_ ?_) | (refine setLeafQueue_kept ?_)
    | (refine macCnt_kept ?_) | (refine eachCopy_kept ?_ (fun _ _ _ => ?_)) | (refine dropQueued_kept ?_)
    | (refine Kept.foldl ?_ (fun _ _ _ => ?_))

theorem macOff_kept {s0 s : State} {a0 : Nat} (h : Kept s0 s) : Kept s0 (macOff a0 s) := by
  unfold macOff
  repeat' with_reducible first
    | assumption | (refine Kept.ite ?_ ?_) | (refine Kept.ite2 ?_ ?_) | (refine macDrop_kept ?_)
    | (refine setFlag_kept ?_) | (refine Kept.foldl ?_ (fun _ _ _ => ?_))
    | (refine Kept.foldl2 ?_ (fun _ _ _ => ?_)) | split | (refine Kept.of_parts rfl rfl rfl rfl rfl ?_)

theorem ceStop_kept {s0 s : State} {a0 : Nat} (h : Kept s0 s) : Kept s0 (ceStop a0 s) := by
  unfold ceStop
  repeat' with_reducible first
    | assumption | (refine Kept.ite ?_ ?_) | (refine Kept.ite2 ?_ ?_) | (refine setFlag_kept ?_)
    | (refine workBufBack_kept ?_) | (refine setWork_kept ?_) | (refine engMod_kept ?_)
    | (refine Kept.foldl ?_ (fun _ _ _ => ?_))

theorem dcStop_kept {s0 s : State} {a0 : Nat} (h : Kept s0 s) : Kept s0 (dcStop a0 s) := by
  unfold dcStop
  repeat' with_reducible first
    | assumption | (refine Kept.ite ?_ ?_) | (refine Kept.ite2 ?_ ?_) | (refine chanMod_kept ?_)
    | (refine dcEnable_kept ?_) | (refine setFlag_kept ?_)

theorem essFree_kept {s0 s : State} {a0 : Nat} (h : Kept s0 s) : Kept s0 (essFree a0 s) := by
  unfold essFree
  repeat' with_reducible first
    | assumption | (refine Kept.ite ?_ ?_) | (refine Kept.ite2 ?_ ?_) | (refine fset_kept ?_)
    | (refine Kept.foldl ?_ (fun _ _ _ => ?_)) | (refine Kept.foldl2 ?_ (fun _ _ _ => ?_)) | split
    | (refine Kept.of_parts rfl rfl rfl rfl rfl ?_)

theorem freeSlots_kept {s0 s : State} {a0 : Nat} (h : Kept s0 s) : Kept s0 (freeSlots a0 s) := by
  unfold freeSlots
  repeat' with_reducible first
    | assumption | (refine Kept.ite ?_ ?_) | (refine Kept.ite2 ?_ ?_)
    | (refine Kept.foldl ?_ (fun _ _ _ => ?_)) | (refine Kept.foldl2 ?_ (fun _ _ _ => ?_)) | split
    | (refine Kept.of_parts rfl rfl rfl rfl rfl ?_)

theorem flowDiscard_kept {s0 s : State} {a0 : Nat} (h : Kept s0 s) : Kept s0 (flowDiscard a0 s) := by
  unfold flowDiscard
  repeat' with_reducible first
    | assumption | (refine Kept.ite ?_ ?_) | (refine Kept.ite2 ?_ ?_) | (refine freeSlots_kept ?_)
    | (refine fFlowMod_kept ?_) | (refine dropReader_kept ?_)

theorem essStop_kept {s0 s : State} {a0 : Nat} (h : Kept s0 s) : Kept s0 (essStop a0 s) := by
  unfold essStop
  repeat' with_reducible first
    | assumption | (refine Kept.ite ?_ ?_) | (refine Kept.ite2 ?_ ?_) | (refine flowDiscard_kept ?_)
    | (refine fSetState_kept ?_) | (refine fFlag_kept ?_) | (refine essFree_kept ?_)

theorem flDown_kept {s0 s : State} {a0 : Nat} (h : Kept s0 s) : Kept s0 (flDown a0 s) := by
  unfold flDown
  repeat' with_reducible first
    | assumption | (refine Kept.ite ?_ ?_) | (refine Kept.ite2 ?_ ?_) | (refine setFlag_kept ?_)
    | (refine flMod_kept ?_)

theorem flQueuesEnd_kept {s0 s : State} {a0 : Nat} (h : Kept s0 s) : Kept s0 (flQueuesEnd a0 s) := by
  unfold flQueuesEnd
  repeat' with_reducible first
    | assumption | (refine Kept.ite ?_ ?_) | (refine Kept.ite2 ?_ ?_) | (refine postcard_kept ?_)
    | (refine copyGone_kept ?_) | (refine setShared_kept ?_) | (refine bump_kept ?_) | (refine flMod_kept ?_)
    | (refine Kept.foldl ?_ (fun _ _ _ => ?_))

theorem flFramesEnd_kept {s0 s : State} {a0 : Nat} (h : Kept s0 s) : Kept s0 (flFramesEnd a0 s) := by
  unfold flFramesEnd
  repeat' with_reducible first
    | assumption | (refine Kept.ite ?_ ?_) | (refine Kept.ite2 ?_ ?_) | (refine copyGone_kept ?_)
    | (refine flMod_kept ?_) | (refine Kept.foldl ?_ (fun _ _ _ => ?_))

theorem flReplayEnd_kept {s0 s : State} {a0 : Nat} (h : Kept s0 s) : Kept s0 (flReplayEnd a0 s) := by
  unfold flReplayEnd
  repeat' with_reducible first
    | assumption | (refine Kept.ite ?_ ?_) | (refine Kept.ite2 ?_ ?_) | (refine flFramesEnd_kept ?_)
    | (refine bumpBy_kept ?_) | (refine flMod_kept ?_)

theorem flStop_kept {s0 s : State} {a0 : Nat} (h : Kept s0 s) : Kept s0 (flStop a0 s) := by
  unfold flStop
  repeat' with_reducible first
    | assumption | (refine Kept.ite ?_ ?_) | (refine Kept.ite2 ?_ ?_) | (refine flReplayEnd_kept ?_)
    | (refine flQueuesEnd_kept ?_) | (refine flDown_kept ?_) | (refine setFlag_kept ?_)

theorem linkFall_kept {s0 s : State} {a0 : Nat} (h : Kept s0 s) : Kept s0 (linkFall a0 s) := by
  unfold linkFall
  repeat' with_reducible first
    | assumption | (refine Kept.ite ?_ ?_) | (refine Kept.ite2 ?_ ?_) | (refine setEvent_kept ?_)
    | (refine macCnt_kept ?_) | (refine setFlag_kept ?_)

theorem macStop_kept {s0 s : State} {a0 : Nat} (h : Kept s0 s) : Kept s0 (macStop a0 s) := by
  unfold macStop
  repeat' with_reducible first
    | assumption | (refine Kept.ite ?_ ?_) | (refine Kept.ite2 ?_ ?_) | (refine linkFall_kept ?_)
    | (refine copyGone_kept ?_) | (refine setFlag_kept ?_) | (refine Kept.foldl ?_ (fun _ _ _ => ?_))
    | (refine Kept.foldl2 ?_ (fun _ _ _ => ?_)) | split | (dsimp only; split)
    | (refine Kept.of_parts rfl rfl rfl rfl rfl ?_)

theorem stopAll_kept {s0 s : State}  (h : Kept s0 s) : Kept s0 (stopAll s) := by
  unfold stopAll
  repeat' with_reducible first
    | assumption | (refine Kept.ite ?_ ?_) | (refine Kept.ite2 ?_ ?_) | (refine macStop_kept ?_)
    | (refine flStop_kept ?_) | (refine essStop_kept ?_) | (refine dcStop_kept ?_) | (refine ceStop_kept ?_)
    | (refine Kept.foldl ?_ (fun _ _ _ => ?_))

theorem zeroiseKeys_kept {s0 s : State}  (h : Kept s0 s) : Kept s0 (zeroiseKeys s) := by
  unfold zeroiseKeys
  repeat' with_reducible first
    | assumption | (refine Kept.ite ?_ ?_) | (refine Kept.ite2 ?_ ?_) | (refine fset_kept ?_)
    | (refine Kept.foldl ?_ (fun _ _ _ => ?_)) | (refine Kept.foldl2 ?_ (fun _ _ _ => ?_)) | split
    | (refine Kept.of_parts rfl rfl rfl rfl rfl ?_)

theorem flOn_kept {s0 s : State} {a0 : Nat} (h : Kept s0 s) : Kept s0 (flOn a0 s) := by
  unfold flOn
  repeat' with_reducible first
    | assumption | (refine Kept.ite ?_ ?_) | (refine Kept.ite2 ?_ ?_) | (refine setFlag_kept ?_)

theorem ceStart_kept {s0 s : State} {a0 : Nat} (h : Kept s0 s) : Kept s0 (ceStart a0 s) := by
  unfold ceStart
  repeat' with_reducible first
    | assumption | (refine Kept.ite ?_ ?_) | (refine Kept.ite2 ?_ ?_) | (refine gangFlag_kept ?_)
    | (refine zeroMem_kept ?_) | (refine engMod_kept ?_) | (refine Kept.foldl ?_ (fun _ _ _ => ?_))

theorem essOff_kept {s0 s : State} {a0 : Nat} (h : Kept s0 s) : Kept s0 (essOff a0 s) := by
  unfold essOff
  repeat' with_reducible first
    | assumption | (refine Kept.ite ?_ ?_) | (refine Kept.ite2 ?_ ?_) | (refine flowDiscard_kept ?_)
    | (refine fSetState_kept ?_) | (refine fFlag_kept ?_)

theorem essShut_kept {s0 s : State} {a0 : Nat} (h : Kept s0 s) : Kept s0 (essShut a0 s) := by
  unfold essShut
  repeat' with_reducible first
    | assumption | (refine Kept.ite ?_ ?_) | (refine Kept.ite2 ?_ ?_) | (refine essOff_kept ?_)
    | (refine fFlowMod_kept ?_) | (refine fFlag_kept ?_)

theorem setDesc_kept {s0 s : State} {a0 : Fld} {a1 : Nat} {a2 : Bytes}
    (h : Kept s0 s) : Kept s0 (setDesc a0 a1 a2 s) := by
  unfold setDesc
  repeat' with_reducible first
    | assumption | (refine Kept.ite ?_ ?_) | (refine Kept.ite2 ?_ ?_) | (refine fset_kept ?_)
    | (refine Kept.foldl ?_ (fun _ _ _ => ?_))

theorem dcStart_kept {s0 s : State} {a0 : Nat} (h : Kept s0 s) : Kept s0 (dcStart a0 s) := by
  unfold dcStart
  repeat' with_reducible first
    | assumption | (refine Kept.ite ?_ ?_) | (refine Kept.ite2 ?_ ?_) | (refine setDesc_kept ?_)
    | (refine chanMod_kept ?_) | (refine setFlag_kept ?_) | (refine fset_kept ?_)

theorem macsecClear_kept {s0 s : State} {a0 : Nat} (h : Kept s0 s) : Kept s0 (macsecClear a0 s) := by
  unfold macsecClear
  repeat' with_reducible first
    | assumption | (refine Kept.ite ?_ ?_) | (refine Kept.ite2 ?_ ?_)
    | (refine Kept.foldl ?_ (fun _ _ _ => ?_)) | (refine Kept.foldl2 ?_ (fun _ _ _ => ?_)) | split
    | (refine Kept.of_parts rfl rfl rfl rfl rfl ?_)

theorem macStart_kept {s0 s : State} {a0 : Nat} (h : Kept s0 s) : Kept s0 (macStart a0 s) := by
  unfold macStart
  repeat' with_reducible first
    | assumption | (refine Kept.ite ?_ ?_) | (refine Kept.ite2 ?_ ?_) | (refine setFlag_kept ?_)
    | (refine Kept.foldl ?_ (fun _ _ _ => ?_)) | (refine Kept.foldl2 ?_ (fun _ _ _ => ?_)) | split
    | (refine Kept.of_parts rfl rfl rfl rfl rfl ?_)

theorem macDrained_kept {s0 s : State} {a0 : Nat} (h : Kept s0 s) : Kept s0 (macDrained a0 s) := by
  unfold macDrained
  repeat' with_reducible first
    | assumption | (refine Kept.ite ?_ ?_) | (refine Kept.ite2 ?_ ?_) | (refine macStart_kept ?_)
    | (refine macsecClear_kept ?_) | (refine linkFall_kept ?_) | (refine setFlag_kept ?_)
    | (refine Kept.foldl ?_ (fun _ _ _ => ?_)) | (refine Kept.foldl2 ?_ (fun _ _ _ => ?_)) | split
    | (refine Kept.of_parts rfl rfl rfl rfl rfl ?_)

theorem dmaRetry_kept {s0 s : State} {a0 : Nat} (h : Kept s0 s) : Kept s0 (dmaRetry a0 s) := by
  unfold dmaRetry
  repeat' with_reducible first
    | assumption | (refine Kept.ite ?_ ?_) | (refine Kept.ite2 ?_ ?_) | (refine dmaIssued_kept ?_)
    | (refine cqWrite_kept ?_) | (refine cqLose_kept ?_) | (refine Kept.foldl ?_ (fun _ _ _ => ?_))
    | (refine Kept.foldl2 ?_ (fun _ _ _ => ?_)) | split

theorem retryRecords_kept {s0 s : State}  (h : Kept s0 s) : Kept s0 (retryRecords s) := by
  unfold retryRecords
  repeat' with_reducible first
    | assumption | (refine Kept.ite ?_ ?_) | (refine Kept.ite2 ?_ ?_) | (refine dmaRetry_kept ?_)
    | (refine statFlush_kept ?_) | (refine Kept.foldl ?_ (fun _ _ _ => ?_))

theorem macOn_kept {s0 s : State} {a0 : Nat} (h : Kept s0 s) : Kept s0 (macOn a0 s) := by
  unfold macOn
  repeat' with_reducible first
    | assumption | (refine Kept.ite ?_ ?_) | (refine Kept.ite2 ?_ ?_) | (refine macStart_kept ?_)
    | (refine setFlag_kept ?_)

theorem dropWork_kept {s0 s : State} {a0 : Nat} (h : Kept s0 s) : Kept s0 (dropWork a0 s) := by
  unfold dropWork
  repeat' with_reducible first
    | assumption | (refine Kept.ite ?_ ?_) | (refine Kept.ite2 ?_ ?_) | (refine workBufBack_kept ?_)
    | (refine setWork_kept ?_) | (refine engMod_kept ?_) | (refine endWord_kept ?_)
    | (refine Kept.foldl ?_ (fun _ _ _ => ?_)) | (refine Kept.foldl2 ?_ (fun _ _ _ => ?_)) | split
    | (dsimp only; split)

theorem ausTold_kept {s0 s : State} {a0 : Nat} (h : Kept s0 s) : Kept s0 (ausTold a0 s) := by
  unfold ausTold
  repeat' with_reducible first
    | assumption | (refine Kept.ite ?_ ?_) | (refine Kept.ite2 ?_ ?_) | (refine strmMod_kept ?_)

theorem endTick_kept {s0 s : State} {a0 : Nat} {a1 : Nat} (h : Kept s0 s) : Kept s0 (endTick a0 a1 s) := by
  unfold endTick
  repeat' with_reducible first
    | assumption | (refine Kept.ite ?_ ?_) | (refine Kept.ite2 ?_ ?_) | (refine releaseSlot_kept ?_)
    | (refine poolPut_kept ?_) | (refine strmMod_kept ?_) | (refine Kept.foldl ?_ (fun _ _ _ => ?_))
    | (refine Kept.foldl2 ?_ (fun _ _ _ => ?_)) | split

theorem restoreSnap_kept {s0 s : State} {a0 : Nat} (h : Kept s0 s) : Kept s0 (restoreSnap a0 s) := by
  unfold restoreSnap
  repeat' with_reducible first
    | assumption | (refine Kept.ite ?_ ?_) | (refine Kept.ite2 ?_ ?_) | (refine strmMod_kept ?_)

theorem liveGone_kept {s0 s : State} {a0 : Nat} {a1 : Nat} {a2 : Nat} {a3 : Nat} {a4 : Nat}
    (h : Kept s0 s) : Kept s0 (liveGone a0 a1 a2 a3 a4 s) := by
  unfold liveGone
  repeat' with_reducible first
    | assumption | (refine Kept.ite ?_ ?_) | (refine Kept.ite2 ?_ ?_) | (refine restoreSnap_kept ?_)
    | (refine endTick_kept ?_) | (refine ausTold_kept ?_) | (refine dropWork_kept ?_)
    | (refine statWrite_kept ?_) | (refine strmMod_kept ?_)

theorem abandon_kept {s0 s : State} {a0 : Nat} {a1 : Nat} {a2 : Nat}
    (h : Kept s0 s) : Kept s0 (abandon a0 a1 a2 s) := by
  unfold abandon
  repeat' with_reducible first
    | assumption | (refine Kept.ite ?_ ?_) | (refine Kept.ite2 ?_ ?_) | (refine liveGone_kept ?_)
    | (refine restoreSnap_kept ?_) | (refine dropWork_kept ?_) | (refine cmdStatus_kept ?_)
    | (refine strmMod_kept ?_) | (refine Kept.foldl ?_ (fun _ _ _ => ?_))
    | (refine Kept.foldl2 ?_ (fun _ _ _ => ?_)) | split

theorem ceOff_kept {s0 s : State} {a0 : Nat} (h : Kept s0 s) : Kept s0 (ceOff a0 s) := by
  unfold ceOff
  repeat' with_reducible first
    | assumption | (refine Kept.ite ?_ ?_) | (refine Kept.ite2 ?_ ?_) | (refine gangFlag_kept ?_)
    | (refine setFlag_kept ?_) | (refine gangEnable_kept ?_) | (refine abandon_kept ?_) | (refine engMod_kept ?_)
    | (refine Kept.foldl ?_ (fun _ _ _ => ?_)) | (refine Kept.foldl2 ?_ (fun _ _ _ => ?_)) | split

theorem ceOn_kept {s0 s : State} {a0 : Nat} (h : Kept s0 s) : Kept s0 (ceOn a0 s) := by
  unfold ceOn
  repeat' with_reducible first
    | assumption | (refine Kept.ite ?_ ?_) | (refine Kept.ite2 ?_ ?_) | (refine ceStart_kept ?_)
    | (refine gangFlag_kept ?_) | (refine gangEnable_kept ?_)

theorem sealWindows_kept {s0 s : State}  (h : Kept s0 s) : Kept s0 (sealWindows s) := by
  unfold sealWindows
  repeat' with_reducible first
    | assumption | (refine Kept.ite ?_ ?_) | (refine Kept.ite2 ?_ ?_) | (refine setFlag_kept ?_)
    | (refine Kept.foldl ?_ (fun _ _ _ => ?_))

theorem unsealWindows_kept {s0 s : State}  (h : Kept s0 s) : Kept s0 (unsealWindows s) := by
  unfold unsealWindows
  repeat' with_reducible first
    | assumption | (refine Kept.ite ?_ ?_) | (refine Kept.ite2 ?_ ?_) | (refine winZero_kept ?_)
    | (refine setFlag_kept ?_) | (refine Kept.foldl ?_ (fun _ _ _ => ?_))

theorem dpbDrop_kept {s0 s : State} {a0 : Nat} (h : Kept s0 s) : Kept s0 (dpbDrop a0 s) := by
  unfold dpbDrop
  repeat' with_reducible first
    | assumption | (refine Kept.ite ?_ ?_) | (refine Kept.ite2 ?_ ?_) | (refine poolPut_kept ?_)
    | (refine strmMod_kept ?_) | (refine Kept.foldl ?_ (fun _ _ _ => ?_))

theorem setScState_kept {s0 s : State} {a0 : Nat} {a1 : Nat}
    (h : Kept s0 s) : Kept s0 (setScState a0 a1 s) := by
  unfold setScState
  repeat' with_reducible first
    | assumption | (refine Kept.ite ?_ ?_) | (refine Kept.ite2 ?_ ?_) | (refine pendSet_kept ?_)
    | (refine fset_kept ?_)

theorem scDrain_kept {s0 s : State} {a0 : Nat} (h : Kept s0 s) : Kept s0 (scDrain a0 s) := by
  unfold scDrain
  repeat' with_reducible first
    | assumption | (refine Kept.ite ?_ ?_) | (refine Kept.ite2 ?_ ?_) | (refine setScState_kept ?_)
    | (refine dpbDrop_kept ?_) | (refine dropReader_kept ?_) | (refine abandon_kept ?_)

theorem scFree_kept {s0 s : State} {a0 : Nat} (h : Kept s0 s) : Kept s0 (scFree a0 s) := by
  unfold scFree
  repeat' with_reducible first
    | assumption | (refine Kept.ite ?_ ?_) | (refine Kept.ite2 ?_ ?_) | (refine setScState_kept ?_)
    | (refine unsealWindows_kept ?_) | (refine dropReader_kept ?_) | (refine setFlag_kept ?_)
    | (refine poolPut_kept ?_) | (refine fset_kept ?_) | (refine Kept.foldl ?_ (fun _ _ _ => ?_))
    | (refine Kept.foldl2 ?_ (fun _ _ _ => ?_)) | split | (dsimp only; split)
    | (refine Kept.of_parts rfl rfl rfl rfl rfl ?_)

theorem scClose_kept {s0 s : State} {a0 : Nat} {a1 : Bytes} (h : Kept s0 s) : Kept s0 (scClose a0 a1 s) := by
  unfold scClose
  repeat' with_reducible first
    | assumption | (refine Kept.ite ?_ ?_) | (refine Kept.ite2 ?_ ?_) | (refine scFree_kept ?_)
    | (refine scDrain_kept ?_) | (refine setFlag_kept ?_) | (refine strmMod_kept ?_)

theorem flashBoth_kept {s0 s : State} {a0 : Nat} {a1 : Nat} {a2 : Bytes}
    (h : Kept s0 s) : Kept s0 (flashBoth a0 a1 a2 s) := by
  unfold flashBoth
  repeat' with_reducible first
    | assumption | (refine Kept.ite ?_ ?_) | (refine Kept.ite2 ?_ ?_) | (refine emit_kept ?_)
    | (refine Kept.foldl ?_ (fun _ _ _ => ?_))

theorem logSet_kept {s0 s : State} {a0 : Nat} {a1 : LogBlock} (h : Kept s0 s) : Kept s0 (logSet a0 a1 s) := by
  unfold logSet
  repeat' with_reducible first
    | assumption | (refine Kept.ite ?_ ?_) | (refine Kept.ite2 ?_ ?_)
    | (refine Kept.foldl ?_ (fun _ _ _ => ?_)) | (refine Kept.foldl2 ?_ (fun _ _ _ => ?_)) | split
    | (refine Kept.of_parts rfl rfl rfl rfl rfl ?_)

theorem logClose_kept {s0 s : State}  (h : Kept s0 s) : Kept s0 (logClose s) := by
  unfold logClose
  repeat' with_reducible first
    | assumption | (refine Kept.ite ?_ ?_) | (refine Kept.ite2 ?_ ?_) | (refine logSet_kept ?_)
    | (refine flashBoth_kept ?_) | (refine Kept.foldl ?_ (fun _ _ _ => ?_))
    | (refine Kept.foldl2 ?_ (fun _ _ _ => ?_)) | split | (refine Kept.of_parts rfl rfl rfl rfl rfl ?_)

theorem logOpen_kept {s0 s : State}  (h : Kept s0 s) : Kept s0 (logOpen s) := by
  unfold logOpen
  repeat' with_reducible first
    | assumption | (refine Kept.ite ?_ ?_) | (refine Kept.ite2 ?_ ?_) | (refine logSet_kept ?_)
    | (refine flashBoth_kept ?_) | (refine Kept.foldl ?_ (fun _ _ _ => ?_))
    | (refine Kept.foldl2 ?_ (fun _ _ _ => ?_)) | split | (refine Kept.of_parts rfl rfl rfl rfl rfl ?_)

theorem logProgram_kept {s0 s : State} {a0 : Nat} {a1 : Bytes} {a2 : Nat} {a3 : Nat}
    (h : Kept s0 s) : Kept s0 (logProgram a0 a1 a2 a3 s) := by
  unfold logProgram
  repeat' with_reducible first
    | assumption | (refine Kept.ite ?_ ?_) | (refine Kept.ite2 ?_ ?_) | (refine logOpen_kept ?_)
    | (refine logClose_kept ?_) | (refine logSet_kept ?_) | (refine flashBoth_kept ?_)
    | (refine Kept.foldl ?_ (fun _ _ _ => ?_)) | (refine Kept.foldl2 ?_ (fun _ _ _ => ?_)) | split
    | (refine Kept.of_parts rfl rfl rfl rfl rfl ?_)

theorem logWriteOne_kept {s0 s : State}  (h : Kept s0 s) : Kept s0 (logWriteOne s) := by
  unfold logWriteOne
  repeat' with_reducible first
    | assumption | (refine Kept.ite ?_ ?_) | (refine Kept.ite2 ?_ ?_) | (refine logProgram_kept ?_)
    | (refine Kept.foldl ?_ (fun _ _ _ => ?_)) | (refine Kept.foldl2 ?_ (fun _ _ _ => ?_)) | split
    | (refine Kept.of_parts rfl rfl rfl rfl rfl ?_)

theorem logWriteAll_kept {s0 s : State}  (h : Kept s0 s) : Kept s0 (logWriteAll s) := by
  unfold logWriteAll
  repeat' with_reducible first
    | assumption | (refine Kept.ite ?_ ?_) | (refine Kept.ite2 ?_ ?_) | (refine logWriteOne_kept ?_)
    | (refine Kept.foldl ?_ (fun _ _ _ => ?_))

theorem logSealNow_kept {s0 s : State}  (h : Kept s0 s) : Kept s0 (logSealNow s) := by
  unfold logSealNow
  repeat' with_reducible first
    | assumption | (refine Kept.ite ?_ ?_) | (refine Kept.ite2 ?_ ?_) | (refine logWriteAll_kept ?_)
    | (refine logClose_kept ?_)

theorem haspCountRise_kept {s0 s : State} {a0 : Nat} (h : Kept s0 s) : Kept s0 (haspCountRise a0 s).2 := by
  unfold haspCountRise
  repeat' with_reducible first
    | assumption | (refine Kept.ite ?_ ?_) | (refine Kept.ite2 ?_ ?_) | (refine fset_kept ?_)
    | (refine Kept.foldl ?_ (fun _ _ _ => ?_)) | (refine Kept.foldl2 ?_ (fun _ _ _ => ?_)) | split
    | (refine Kept.of_parts rfl rfl rfl rfl rfl ?_)

theorem haspLog_kept {s0 s : State} {a0 : Nat} {a1 : Nat} (h : Kept s0 s) : Kept s0 (haspLog a0 a1 s) := by
  unfold haspLog
  repeat' with_reducible first
    | assumption | (refine Kept.ite ?_ ?_) | (refine Kept.ite2 ?_ ?_) | (refine logPush_kept ?_)

theorem haspEvent_kept {s0 s : State} {a0 : Nat} {a1 : Nat}
    (h : Kept s0 s) : Kept s0 (haspEvent a0 a1 s) := by
  unfold haspEvent
  repeat' with_reducible first
    | assumption | (refine Kept.ite ?_ ?_) | (refine Kept.ite2 ?_ ?_) | (refine traceOffer_kept ?_)
    | (refine haspLog_kept ?_)

theorem haspIsolate_kept {s0 s : State} {a0 : Nat} {a1 : Nat}
    (h : Kept s0 s) : Kept s0 (haspIsolate a0 a1 s) := by
  unfold haspIsolate
  repeat' with_reducible first
    | assumption | (refine Kept.ite ?_ ?_) | (refine Kept.ite2 ?_ ?_) | (refine macOff_kept ?_)
    | (refine logClose_kept ?_) | (refine flOff_kept ?_) | (refine dcOff_kept ?_) | (refine ceOff_kept ?_)
    | (refine Kept.foldl ?_ (fun _ _ _ => ?_)) | (refine Kept.foldl2 ?_ (fun _ _ _ => ?_)) | split
    | (refine Kept.of_parts rfl rfl rfl rfl rfl ?_)

theorem haspReact_kept {s0 s : State} {a0 : Nat} {a1 : Nat}
    (h : Kept s0 s) : Kept s0 (haspReact a0 a1 s) := by
  unfold haspReact
  repeat' with_reducible first
    | assumption | (refine Kept.ite ?_ ?_) | (refine Kept.ite2 ?_ ?_) | (refine haspIsolate_kept ?_)

theorem lockdownEnter_kept {s0 s : State} {a0 : Nat} (h : Kept s0 s) : Kept s0 (lockdownEnter a0 s) := by
  unfold lockdownEnter
  repeat' with_reducible first
    | assumption | (refine Kept.ite ?_ ?_) | (refine Kept.ite2 ?_ ?_) | (refine zeroiseKeys_kept ?_)
    | (refine stopAll_kept ?_) | (refine logSealNow_kept ?_) | (refine enterMode_kept ?_)
    | (refine setFlag_kept ?_) | (refine Kept.foldl ?_ (fun _ _ _ => ?_))
    | (refine Kept.foldl2 ?_ (fun _ _ _ => ?_)) | split | (refine Kept.of_parts rfl rfl rfl rfl rfl ?_)

theorem lockReq_kept {s0 s : State} {a0 : Nat} (h : Kept s0 s) : Kept s0 (lockReq a0 s) := by
  unfold lockReq
  repeat' with_reducible first
    | assumption | (refine Kept.ite ?_ ?_) | (refine Kept.ite2 ?_ ?_) | (refine lockdownEnter_kept ?_)
    | (refine setFlag_kept ?_) | (refine haspEvent_kept ?_) | (refine fset_kept ?_)
    | (refine Kept.foldl ?_ (fun _ _ _ => ?_)) | (refine Kept.foldl2 ?_ (fun _ _ _ => ?_)) | split
    | (dsimp only; split) | (refine Kept.of_parts rfl rfl rfl rfl rfl ?_)

theorem haspLatch_kept {s0 s : State} {a0 : Nat} {a1 : Nat} {a2 : Bool} {a3 : Bool}
    (h : Kept s0 s) : Kept s0 (haspLatch a0 a1 a2 a3 s) := by
  unfold haspLatch
  repeat' with_reducible first
    | assumption | (refine Kept.ite ?_ ?_) | (refine Kept.ite2 ?_ ?_) | (refine lockReq_kept ?_)
    | (refine haspReact_kept ?_) | (refine riseIf_kept ?_) | (refine setFlag_kept ?_)
    | (refine haspEvent_kept ?_) | (refine bump_kept ?_) | (refine fset_kept ?_)
    | (refine Kept.foldl ?_ (fun _ _ _ => ?_)) | (refine Kept.foldl2 ?_ (fun _ _ _ => ?_)) | split
    | (refine Kept.of_parts rfl rfl rfl rfl rfl ?_)

theorem haspMerge_kept {s0 s : State} {a0 : Nat} {a1 : Nat} {a2 : Bool}
    (h : Kept s0 s) : Kept s0 (haspMerge a0 a1 a2 s) := by
  unfold haspMerge
  repeat' with_reducible first
    | assumption | (refine Kept.ite ?_ ?_) | (refine Kept.ite2 ?_ ?_) | (refine lockReq_kept ?_)
    | (refine haspReact_kept ?_) | (refine setFlag_kept ?_) | (refine haspEvent_kept ?_)
    | (refine haspLog_kept ?_) | (refine fset_kept ?_)

theorem haspRise_kept {s0 s : State} {a0 : Nat} {a1 : Nat} (h : Kept s0 s) : Kept s0 (haspRise a0 a1 s) := by
  unfold haspRise
  repeat' with_reducible first
    | assumption | (refine Kept.ite ?_ ?_) | (refine Kept.ite2 ?_ ?_) | (refine haspMerge_kept ?_)
    | (refine haspLatch_kept ?_) | (refine haspCountRise_kept ?_)

theorem poolAsk_kept {s0 s : State} {a0 : Nat} {a1 : Nat} {a2 : Bool}
    (h : Kept s0 s) : Kept s0 (poolAsk a0 a1 a2 s).2 := by
  unfold poolAsk
  repeat' with_reducible first
    | assumption | (refine Kept.ite ?_ ?_) | (refine Kept.ite2 ?_ ?_) | (refine poolTake_kept ?_)
    | (refine haspRise_kept ?_)

theorem haspPolicyChanged_kept {s0 s old : State} (h : Kept s0 s) : Kept s0 (haspPolicyChanged old s) :=
  Kept.foldl h (fun _ _ h => Kept.ite (lockReq_kept (riseIf_kept h)) (riseIf_kept h))

theorem haspEnd_kept {s0 s : State} {a0 : Nat} (h : Kept s0 s) : Kept s0 (haspEnd a0 s) := by
  unfold haspEnd
  repeat' with_reducible first
    | assumption | (refine Kept.ite ?_ ?_) | (refine Kept.ite2 ?_ ?_) | (refine setFlag_kept ?_)
    | (refine fset_kept ?_) | (refine Kept.foldl ?_ (fun _ _ _ => ?_))
    | (refine Kept.foldl2 ?_ (fun _ _ _ => ?_)) | split | (refine Kept.of_parts rfl rfl rfl rfl rfl ?_)

theorem haspClearBit_kept {s0 s : State} {a0 : Nat} (h : Kept s0 s) : Kept s0 (haspClearBit a0 s).2 := by
  unfold haspClearBit
  repeat' with_reducible first
    | assumption | (refine Kept.ite ?_ ?_) | (refine Kept.ite2 ?_ ?_) | (refine haspEnd_kept ?_)
    | (refine lockReq_kept ?_) | (refine setFlag_kept ?_) | (refine haspEvent_kept ?_) | (refine fset_kept ?_)

theorem haspClearWord_kept {s0 s : State} {a0 : Bool} {a1 : Nat}
    (h : Kept s0 s) : Kept s0 (haspClearWord a0 a1 s).2 := by
  unfold haspClearWord
  repeat' with_reducible first
    | assumption | (refine Kept.ite ?_ ?_) | (refine Kept.ite2 ?_ ?_) | (refine haspClearBit_kept ?_)
    | (refine Kept.foldl ?_ (fun _ _ _ => ?_)) | (refine Kept.foldl2 ?_ (fun _ _ _ => ?_))

theorem haspDefaults_kept {s0 s : State}  (h : Kept s0 s) : Kept s0 (haspDefaults s) := by
  unfold haspDefaults
  repeat' with_reducible first
    | assumption | (refine Kept.ite ?_ ?_) | (refine Kept.ite2 ?_ ?_) | (refine haspPolicyChanged_kept ?_)
    | (refine Kept.foldl ?_ (fun _ _ _ => ?_)) | (refine Kept.foldl2 ?_ (fun _ _ _ => ?_)) | split
    | (refine Kept.of_parts rfl rfl rfl rfl rfl ?_)

theorem haspLevel_kept {s0 s : State} {a0 : Nat} {a1 : Bool}
    (h : Kept s0 s) : Kept s0 (haspLevel a0 a1 s) := by
  unfold haspLevel
  repeat' with_reducible first
    | assumption | (refine Kept.ite ?_ ?_) | (refine Kept.ite2 ?_ ?_) | (refine setFlag_kept ?_)

theorem haspPolicy_kept {s0 s : State}  (h : Kept s0 s) : Kept s0 (haspPolicy s) := by
  unfold haspPolicy
  repeat' with_reducible first
    | assumption | (refine Kept.ite ?_ ?_) | (refine Kept.ite2 ?_ ?_) | (refine haspPolicyChanged_kept ?_)
    | (refine setFlag_kept ?_) | (refine fset_kept ?_) | (refine Kept.foldl ?_ (fun _ _ _ => ?_))
    | (refine Kept.foldl2 ?_ (fun _ _ _ => ?_)) | split

theorem haspForce_kept {s0 s : State} {a0 : Nat} {a1 : Nat}
    (h : Kept s0 s) : Kept s0 (haspForce a0 a1 s) := by
  unfold haspForce
  repeat' with_reducible first
    | assumption | (refine Kept.ite ?_ ?_) | (refine Kept.ite2 ?_ ?_) | (refine haspMerge_kept ?_)
    | (refine haspLatch_kept ?_) | (refine lockReq_kept ?_) | (refine Kept.foldl ?_ (fun _ _ _ => ?_))
    | (refine Kept.foldl2 ?_ (fun _ _ _ => ?_)) | split | (refine Kept.of_parts rfl rfl rfl rfl rfl ?_)

theorem haspAckWord_kept {s0 s : State} {a0 : Bool} {a1 : Nat}
    (h : Kept s0 s) : Kept s0 (haspAckWord a0 a1 s) := by
  unfold haspAckWord
  repeat' with_reducible first
    | assumption | (refine Kept.ite ?_ ?_) | (refine Kept.ite2 ?_ ?_) | (refine setFlag_kept ?_)
    | (refine haspEvent_kept ?_) | (refine Kept.foldl ?_ (fun _ _ _ => ?_))

theorem hbmAsk_kept {s0 s : State} {a0 : Nat} {a1 : Nat} (h : Kept s0 s) : Kept s0 (hbmAsk a0 a1 s) := by
  unfold hbmAsk
  repeat' with_reducible first
    | assumption | (refine Kept.ite ?_ ?_) | (refine Kept.ite2 ?_ ?_)
    | (refine Kept.foldl ?_ (fun _ _ _ => ?_)) | (refine Kept.foldl2 ?_ (fun _ _ _ => ?_)) | split
    | (refine Kept.of_parts rfl rfl rfl rfl rfl ?_)

theorem passBegin_kept {s0 s : State} {a0 : Nat} {a1 : Nat}
    (h : Kept s0 s) : Kept s0 (passBegin a0 a1 s) := by
  unfold passBegin
  repeat' with_reducible first
    | assumption | (refine Kept.ite ?_ ?_) | (refine Kept.ite2 ?_ ?_) | (refine reachCclk_kept ?_)
    | (refine Kept.foldl ?_ (fun _ _ _ => ?_)) | (refine Kept.foldl2 ?_ (fun _ _ _ => ?_)) | split
    | (refine Kept.of_parts rfl rfl rfl rfl rfl ?_)

theorem execHbmPatrolScrub_kept {s0 s : State}  (h : Kept s0 s) : KeptO s0 (execHbmPatrolScrub s) := by
  unfold execHbmPatrolScrub
  repeat' with_reducible first
    | assumption | (refine KeptO.next ?_) | (refine KeptO.ite ?_ ?_) | (refine Kept.ite ?_ ?_)
    | (refine Kept.ite2 ?_ ?_) | (refine passBegin_kept ?_) | (refine hbmAsk_kept ?_)

theorem execHbmPromotion_kept {s0 s : State} {a0 : Fin 3}
    (h : Kept s0 s) : KeptO s0 (execHbmPromotion a0 s) := by
  unfold execHbmPromotion
  repeat' with_reducible first
    | assumption | (refine KeptO.next ?_) | (refine KeptO.ite ?_ ?_) | (refine Kept.ite ?_ ?_)
    | (refine Kept.ite2 ?_ ?_) | (refine Kept.foldl ?_ (fun _ _ _ => ?_))
    | (refine Kept.foldl2 ?_ (fun _ _ _ => ?_)) | split | (refine Kept.of_parts rfl rfl rfl rfl rfl ?_)

theorem execHbmRefreshForced_kept {s0 s : State} {a0 : Nat}
    (h : Kept s0 s) : KeptO s0 (execHbmRefreshForced a0 s) := by
  unfold execHbmRefreshForced
  repeat' with_reducible first
    | assumption | (refine KeptO.next ?_) | (refine KeptO.ite ?_ ?_) | (refine Kept.ite ?_ ?_)
    | (refine Kept.ite2 ?_ ?_) | (refine Kept.foldl ?_ (fun _ _ _ => ?_))
    | (refine Kept.foldl2 ?_ (fun _ _ _ => ?_)) | split | (refine Kept.of_parts rfl rfl rfl rfl rfl ?_)

theorem execSerdesAdaptation_kept {s0 s : State} {a0 : Fin 280}
    (h : Kept s0 s) : KeptO s0 (execSerdesAdaptation a0 s) := by
  unfold execSerdesAdaptation
  repeat' with_reducible first
    | assumption | (refine KeptO.next ?_) | (refine KeptO.ite ?_ ?_) | (refine Kept.ite ?_ ?_)
    | (refine Kept.ite2 ?_ ?_) | (refine passBegin_kept ?_)

theorem execSramPatrolScrub_kept {s0 s : State}  (h : Kept s0 s) : KeptO s0 (execSramPatrolScrub s) := by
  unfold execSramPatrolScrub
  repeat' with_reducible first
    | assumption | (refine KeptO.next ?_) | (refine KeptO.ite ?_ ?_) | (refine Kept.ite ?_ ?_)
    | (refine Kept.ite2 ?_ ?_) | (refine passBegin_kept ?_)

theorem arbCycle_kept {s0 s : State}  (h : Kept s0 s) : Kept s0 (arbCycle s) := by
  unfold arbCycle
  repeat' with_reducible first
    | assumption | (refine Kept.ite ?_ ?_) | (refine Kept.ite2 ?_ ?_)
    | (refine Kept.foldl ?_ (fun _ _ _ => ?_)) | (refine Kept.foldl2 ?_ (fun _ _ _ => ?_)) | split
    | (refine Kept.of_parts rfl rfl rfl rfl rfl ?_)

end Sys2Proof.Machine
end

