-- ==== Sys2Proof/Laws/KeptStreams.lean ====
section
/-! SUPPORT. What every operation of the clocks, the coded pictures, the schedule, the engines and the streams keeps:
the queue, the memory's canonical form and the fuses that only rise. -/

namespace Sys2Proof.Machine

theorem drainTrace_kept {s0 s : State}  (h : Kept s0 s) : Kept s0 (drainTrace s) := by
  unfold drainTrace
  repeat' with_reducible first
    | assumption | (refine Kept.ite ?_ ?_) | (refine Kept.ite2 ?_ ?_) | (refine traceOffer_kept ?_)
    | (refine Kept.foldl ?_ (fun _ _ _ => ?_)) | (refine Kept.foldl2 ?_ (fun _ _ _ => ?_)) | split
    | (dsimp only; split) | (refine Kept.of_parts rfl rfl rfl rfl rfl ?_)

theorem execOutputPulseEnd_kept {s0 s : State} {a0 : Fin 9}
    (h : Kept s0 s) : KeptO s0 (execOutputPulseEnd a0 s) := by
  unfold execOutputPulseEnd
  repeat' with_reducible first
    | assumption | (refine KeptO.next ?_) | (refine KeptO.ite ?_ ?_) | (refine Kept.ite ?_ ?_)
    | (refine Kept.ite2 ?_ ?_) | (refine reachPtp_kept ?_) | (refine emit_kept ?_)
    | (refine Kept.foldl ?_ (fun _ _ _ => ?_)) | (refine Kept.foldl2 ?_ (fun _ _ _ => ?_)) | split
    | (refine Kept.of_parts rfl rfl rfl rfl rfl ?_)

theorem tmrSkip_kept {s0 s : State} {a0 : Nat} (h : Kept s0 s) : Kept s0 (tmrSkip a0 s) := by
  unfold tmrSkip
  repeat' with_reducible first
    | assumption | (refine Kept.ite ?_ ?_) | (refine Kept.ite2 ?_ ?_)
    | (refine Kept.foldl ?_ (fun _ _ _ => ?_)) | (refine Kept.foldl2 ?_ (fun _ _ _ => ?_)) | split
    | (refine Kept.of_parts rfl rfl rfl rfl rfl ?_)

theorem pulseLine_kept {s0 s : State} {a0 : Nat} {a1 : Nat}
    (h : Kept s0 s) : Kept s0 (pulseLine a0 a1 s) := by
  unfold pulseLine
  repeat' with_reducible first
    | assumption | (refine Kept.ite ?_ ?_) | (refine Kept.ite2 ?_ ?_) | (refine emit_kept ?_)
    | (refine Kept.foldl ?_ (fun _ _ _ => ?_)) | (refine Kept.foldl2 ?_ (fun _ _ _ => ?_)) | split
    | (refine Kept.of_parts rfl rfl rfl rfl rfl ?_)

theorem tmrStart_kept {s0 s : State} {a0 : Nat} (h : Kept s0 s) : Kept s0 (tmrStart a0 s) := by
  unfold tmrStart
  repeat' with_reducible first
    | assumption | (refine Kept.ite ?_ ?_) | (refine Kept.ite2 ?_ ?_) | (refine setFlag_kept ?_)
    | (refine Kept.foldl ?_ (fun _ _ _ => ?_)) | (refine Kept.foldl2 ?_ (fun _ _ _ => ?_)) | split
    | (refine Kept.of_parts rfl rfl rfl rfl rfl ?_)

theorem tmrCtrlWrite_kept {s0 s : State} {a0 : Nat} {a1 : Word}
    (h : Kept s0 s) : Kept s0 (tmrCtrlWrite a0 a1 s) := by
  unfold tmrCtrlWrite
  repeat' with_reducible first
    | assumption | (refine Kept.ite ?_ ?_) | (refine Kept.ite2 ?_ ?_) | (refine tmrStart_kept ?_)
    | (refine setFlag_kept ?_) | (refine fset_kept ?_)

theorem execTimerStop_kept {s0 s : State} {a0 : Fn} {a1 : Timer} {a2 : Word}
    (h : Kept s0 s) : KeptO s0 (execTimerStop a0 a1 a2 s) := by
  unfold execTimerStop
  repeat' with_reducible first
    | assumption | (refine KeptO.next ?_) | (refine KeptO.ite ?_ ?_) | (refine Kept.ite ?_ ?_)
    | (refine Kept.ite2 ?_ ?_) | (refine tmrCtrlWrite_kept ?_) | (refine hostWr_kept ?_ (fun _ _ => ?_))

theorem execTimerCapture_kept {s0 s : State} {a0 : Ball}
    (h : Kept s0 s) : KeptO s0 (execTimerCapture a0 s) := by
  unfold execTimerCapture
  repeat' with_reducible first
    | assumption | (refine KeptO.next ?_) | (refine KeptO.ite ?_ ?_) | (refine Kept.ite ?_ ?_)
    | (refine Kept.ite2 ?_ ?_) | (refine fset_kept ?_) | (refine Kept.foldl ?_ (fun _ _ _ => ?_))
    | (refine Kept.foldl2 ?_ (fun _ _ _ => ?_)) | split | (refine Kept.of_parts rfl rfl rfl rfl rfl ?_)

theorem setTickNext_kept {s0 s : State} {a0 : Nat} {a1 : Nat}
    (h : Kept s0 s) : Kept s0 (setTickNext a0 a1 s) := by
  unfold setTickNext
  repeat' with_reducible first
    | assumption | (refine Kept.ite ?_ ?_) | (refine Kept.ite2 ?_ ?_)
    | (refine Kept.foldl ?_ (fun _ _ _ => ?_)) | (refine Kept.foldl2 ?_ (fun _ _ _ => ?_)) | split
    | (refine Kept.of_parts rfl rfl rfl rfl rfl ?_)

theorem tickArm_kept {s0 s : State} {a0 : Nat} (h : Kept s0 s) : Kept s0 (tickArm a0 s) := by
  unfold tickArm
  repeat' with_reducible first
    | assumption | (refine Kept.ite ?_ ?_) | (refine Kept.ite2 ?_ ?_) | (refine setTickNext_kept ?_)

theorem freqDisable_kept {s0 s : State} {a0 : Bool} (h : Kept s0 s) : Kept s0 (freqDisable a0 s) := by
  unfold freqDisable
  repeat' with_reducible first
    | assumption | (refine Kept.ite ?_ ?_) | (refine Kept.ite2 ?_ ?_) | (refine setFlag_kept ?_)
    | (refine Kept.foldl ?_ (fun _ _ _ => ?_)) | (refine Kept.foldl2 ?_ (fun _ _ _ => ?_)) | split
    | (refine Kept.of_parts rfl rfl rfl rfl rfl ?_)

theorem takeSnapshot_kept {s0 s : State}  (h : Kept s0 s) : Kept s0 (takeSnapshot s) := by
  unfold takeSnapshot
  repeat' with_reducible first
    | assumption | (refine Kept.ite ?_ ?_) | (refine Kept.ite2 ?_ ?_) | (refine fset_kept ?_)

theorem tickArmAll_kept {s0 s : State}  (h : Kept s0 s) : Kept s0 (tickArmAll s) := by
  unfold tickArmAll
  repeat' with_reducible first
    | assumption | (refine Kept.ite ?_ ?_) | (refine Kept.ite2 ?_ ?_) | (refine tickArm_kept ?_)
    | (refine Kept.foldl ?_ (fun _ _ _ => ?_))

theorem tickSkip_kept {s0 s : State} {a0 : Nat} (h : Kept s0 s) : Kept s0 (tickSkip a0 s) := by
  unfold tickSkip
  repeat' with_reducible first
    | assumption | (refine Kept.ite ?_ ?_) | (refine Kept.ite2 ?_ ?_) | (refine setTickNext_kept ?_)
    | (refine fset_kept ?_)

theorem timeStepBy_kept {s0 s : State} {a0 : Int} (h : Kept s0 s) : Kept s0 (timeStepBy a0 s) := by
  unfold timeStepBy
  repeat' with_reducible first
    | assumption | (refine Kept.ite ?_ ?_) | (refine Kept.ite2 ?_ ?_) | (refine tickSkip_kept ?_)
    | (refine tmrSkip_kept ?_) | (refine setEvent_kept ?_) | (refine Kept.foldl ?_ (fun _ _ _ => ?_))
    | (refine Kept.foldl2 ?_ (fun _ _ _ => ?_)) | split | (refine Kept.of_parts rfl rfl rfl rfl rfl ?_)

theorem timeCtrlWrite_kept {s0 s : State} {a0 : Word} (h : Kept s0 s) : Kept s0 (timeCtrlWrite a0 s) := by
  unfold timeCtrlWrite
  repeat' with_reducible first
    | assumption | (refine Kept.ite ?_ ?_) | (refine Kept.ite2 ?_ ?_) | (refine timeStepBy_kept ?_)
    | (refine tickArmAll_kept ?_) | (refine takeSnapshot_kept ?_) | (refine freqDisable_kept ?_)
    | (refine setFlag_kept ?_)

theorem execFreqInDisableClear_kept {s0 s : State} {a0 : Fn} {a1 : Word}
    (h : Kept s0 s) : KeptO s0 (execFreqInDisableClear a0 a1 s) := by
  unfold execFreqInDisableClear
  repeat' with_reducible first
    | assumption | (refine KeptO.next ?_) | (refine KeptO.ite ?_ ?_) | (refine Kept.ite ?_ ?_)
    | (refine Kept.ite2 ?_ ?_) | (refine timeCtrlWrite_kept ?_) | (refine hostWr_kept ?_ (fun _ _ => ?_))

theorem gpioWrite_kept {s0 s : State} {a0 : Word} (h : Kept s0 s) : Kept s0 (gpioWrite a0 s) := by
  unfold gpioWrite
  repeat' with_reducible first
    | assumption | (refine Kept.ite ?_ ?_) | (refine Kept.ite2 ?_ ?_) | (refine emit_kept ?_)
    | (refine fset_kept ?_) | (refine Kept.foldl ?_ (fun _ _ _ => ?_))

theorem execSyncGpioWrite_kept {s0 s : State} {a0 : Fn} {a1 : Word}
    (h : Kept s0 s) : KeptO s0 (execSyncGpioWrite a0 a1 s) := by
  unfold execSyncGpioWrite
  repeat' with_reducible first
    | assumption | (refine KeptO.next ?_) | (refine KeptO.ite ?_ ?_) | (refine Kept.ite ?_ ?_)
    | (refine Kept.ite2 ?_ ?_) | (refine gpioWrite_kept ?_) | (refine hostWr_kept ?_ (fun _ _ => ?_))

theorem tickEmit_kept {s0 s : State} {a0 : Nat} (h : Kept s0 s) : Kept s0 (tickEmit a0 s) := by
  unfold tickEmit
  repeat' with_reducible first
    | assumption | (refine Kept.ite ?_ ?_) | (refine Kept.ite2 ?_ ?_) | (refine setTickNext_kept ?_)
    | (refine pulseLine_kept ?_) | (refine reachPtp_kept ?_) | (refine pendSet_kept ?_)
    | (refine emit_kept ?_) | (refine fset_kept ?_) | (refine Kept.foldl ?_ (fun _ _ _ => ?_))
    | (refine Kept.foldl2 ?_ (fun _ _ _ => ?_)) | split | (refine Kept.of_parts rfl rfl rfl rfl rfl ?_)

theorem timeIncrSet_kept {s0 s : State} {a0 : Nat} (h : Kept s0 s) : Kept s0 (timeIncrSet a0 s) := by
  unfold timeIncrSet
  repeat' with_reducible first
    | assumption | (refine Kept.ite ?_ ?_) | (refine Kept.ite2 ?_ ?_) | (refine fset_kept ?_)

theorem execFreqInDisableSet_kept {s0 s : State} {a0 : Fn} {a1 : Word}
    (h : Kept s0 s) : KeptO s0 (execFreqInDisableSet a0 a1 s) := by
  unfold execFreqInDisableSet
  repeat' with_reducible first
    | assumption | (refine KeptO.next ?_) | (refine KeptO.ite ?_ ?_) | (refine Kept.ite ?_ ?_)
    | (refine Kept.ite2 ?_ ?_) | (refine timeCtrlWrite_kept ?_) | (refine hostWr_kept ?_ (fun _ _ => ?_))

theorem execFreqInLost_kept {s0 s : State}  (h : Kept s0 s) : KeptO s0 (execFreqInLost s) := by
  unfold execFreqInLost
  repeat' with_reducible first
    | assumption | (refine KeptO.next ?_) | (refine KeptO.ite ?_ ?_) | (refine Kept.ite ?_ ?_)
    | (refine Kept.ite2 ?_ ?_) | (refine haspRise_kept ?_) | (refine setEvent_kept ?_)
    | (refine setFlag_kept ?_) | (refine Kept.foldl ?_ (fun _ _ _ => ?_))
    | (refine Kept.foldl2 ?_ (fun _ _ _ => ?_)) | split | (refine Kept.of_parts rfl rfl rfl rfl rfl ?_)

theorem execFreqInRestore_kept {s0 s : State}  (h : Kept s0 s) : KeptO s0 (execFreqInRestore s) := by
  unfold execFreqInRestore
  repeat' with_reducible first
    | assumption | (refine KeptO.next ?_) | (refine KeptO.ite ?_ ?_) | (refine Kept.ite ?_ ?_)
    | (refine Kept.ite2 ?_ ?_) | (refine reachCclk_kept ?_) | (refine setFlag_kept ?_)
    | (refine Kept.foldl ?_ (fun _ _ _ => ?_)) | (refine Kept.foldl2 ?_ (fun _ _ _ => ?_)) | split
    | (refine Kept.of_parts rfl rfl rfl rfl rfl ?_)

theorem execPpsCapture_kept {s0 s : State}  (h : Kept s0 s) : KeptO s0 (execPpsCapture s) := by
  unfold execPpsCapture
  repeat' with_reducible first
    | assumption | (refine KeptO.next ?_) | (refine KeptO.ite ?_ ?_) | (refine Kept.ite ?_ ?_)
    | (refine Kept.ite2 ?_ ?_) | (refine setEvent_kept ?_) | (refine fset_kept ?_)

theorem execPpsSecond_kept {s0 s : State}  (h : Kept s0 s) : KeptO s0 (execPpsSecond s) := by
  unfold execPpsSecond
  repeat' with_reducible first
    | assumption | (refine KeptO.next ?_) | (refine KeptO.ite ?_ ?_) | (refine Kept.ite ?_ ?_)
    | (refine Kept.ite2 ?_ ?_) | (refine pulseLine_kept ?_) | (refine reachPtp_kept ?_)
    | (refine emit_kept ?_) | (refine Kept.foldl ?_ (fun _ _ _ => ?_))

theorem execSnapshot_kept {s0 s : State} {a0 : Fn} {a1 : Word}
    (h : Kept s0 s) : KeptO s0 (execSnapshot a0 a1 s) := by
  unfold execSnapshot
  repeat' with_reducible first
    | assumption | (refine KeptO.next ?_) | (refine KeptO.ite ?_ ?_) | (refine Kept.ite ?_ ?_)
    | (refine Kept.ite2 ?_ ?_) | (refine timeCtrlWrite_kept ?_) | (refine hostWr_kept ?_ (fun _ _ => ?_))

theorem execTimeIncrWrite_kept {s0 s : State} {a0 : Fn} {a1 : Word}
    (h : Kept s0 s) : KeptO s0 (execTimeIncrWrite a0 a1 s) := by
  unfold execTimeIncrWrite
  repeat' with_reducible first
    | assumption | (refine KeptO.next ?_) | (refine KeptO.ite ?_ ?_) | (refine Kept.ite ?_ ?_)
    | (refine Kept.ite2 ?_ ?_) | (refine timeIncrSet_kept ?_) | (refine hostWr_kept ?_ (fun _ _ => ?_))

theorem execTimeRun_kept {s0 s : State} {a0 : Fn} {a1 : Word}
    (h : Kept s0 s) : KeptO s0 (execTimeRun a0 a1 s) := by
  unfold execTimeRun
  repeat' with_reducible first
    | assumption | (refine KeptO.next ?_) | (refine KeptO.ite ?_ ?_) | (refine Kept.ite ?_ ?_)
    | (refine Kept.ite2 ?_ ?_) | (refine timeCtrlWrite_kept ?_) | (refine hostWr_kept ?_ (fun _ _ => ?_))

theorem execTimeStep_kept {s0 s : State} {a0 : Fn} {a1 : Word}
    (h : Kept s0 s) : KeptO s0 (execTimeStep a0 a1 s) := by
  unfold execTimeStep
  repeat' with_reducible first
    | assumption | (refine KeptO.next ?_) | (refine KeptO.ite ?_ ?_) | (refine Kept.ite ?_ ?_)
    | (refine Kept.ite2 ?_ ?_) | (refine timeCtrlWrite_kept ?_) | (refine hostWr_kept ?_ (fun _ _ => ?_))

theorem execTimerFire_kept {s0 s : State} {a0 : Timer} (h : Kept s0 s) : KeptO s0 (execTimerFire a0 s) := by
  unfold execTimerFire
  repeat' with_reducible first
    | assumption | (refine KeptO.next ?_) | (refine KeptO.ite ?_ ?_) | (refine Kept.ite ?_ ?_)
    | (refine Kept.ite2 ?_ ?_) | (refine pulseLine_kept ?_) | (refine reachPtp_kept ?_)
    | (refine pendSet_kept ?_) | (refine Kept.foldl ?_ (fun _ _ _ => ?_))
    | (refine Kept.foldl2 ?_ (fun _ _ _ => ?_)) | split | (refine Kept.of_parts rfl rfl rfl rfl rfl ?_)

theorem execTimerStart_kept {s0 s : State} {a0 : Fn} {a1 : Timer} {a2 : Word}
    (h : Kept s0 s) : KeptO s0 (execTimerStart a0 a1 a2 s) := by
  unfold execTimerStart
  repeat' with_reducible first
    | assumption | (refine KeptO.next ?_) | (refine KeptO.ite ?_ ?_) | (refine Kept.ite ?_ ?_)
    | (refine Kept.ite2 ?_ ?_) | (refine tmrCtrlWrite_kept ?_) | (refine hostWr_kept ?_ (fun _ _ => ?_))

theorem idleCclk_kept {s0 s : State}  (h : Kept s0 s) : Kept s0 (idleCclk s) := by
  unfold idleCclk
  repeat' with_reducible first
    | assumption | (refine Kept.ite ?_ ?_) | (refine Kept.ite2 ?_ ?_) | (refine puntAccept_kept ?_)
    | (refine arbCycle_kept ?_) | (refine drainTrace_kept ?_) | (refine passCclk_kept ?_)

theorem keyAdvance_kept {s0 s : State} {a0 : Nat} (h : Kept s0 s) : Kept s0 (keyAdvance a0 s) := by
  unfold keyAdvance
  repeat' with_reducible first
    | assumption | (refine Kept.ite ?_ ?_) | (refine Kept.ite2 ?_ ?_)
    | (refine Kept.foldl ?_ (fun _ _ _ => ?_)) | (refine Kept.foldl2 ?_ (fun _ _ _ => ?_)) | split
    | (dsimp only; split) | (refine Kept.of_parts rfl rfl rfl rfl rfl ?_)

theorem windowOut_kept {s0 s : State} {a0 : Nat} {a1 : Nat} {a2 : Bytes} {a3 : Bytes} {a4 : Bool}
    (h : Kept s0 s) : Kept s0 (windowOut a0 a1 a2 a3 a4 s) := by
  unfold windowOut
  repeat' with_reducible first
    | assumption | (refine Kept.ite ?_ ?_) | (refine Kept.ite2 ?_ ?_) | (refine winWrite_kept ?_)
    | (refine strmMod_kept ?_)

theorem reconAsk_kept {s0 s : State} {a0 : Nat} {a1 : Nat}
    (h : Kept s0 s) : Kept s0 (reconAsk a0 a1 s).2 := by
  unfold reconAsk
  repeat' with_reducible first
    | assumption | (refine Kept.ite ?_ ?_) | (refine Kept.ite2 ?_ ?_) | (refine poolAsk_kept ?_)
    | (refine strmMod_kept ?_)

theorem reconTake_kept {s0 s : State} {a0 : Nat} {a1 : Bytes}
    (h : Kept s0 s) : Kept s0 (reconTake a0 a1 s).2 := by
  unfold reconTake
  repeat' with_reducible first
    | assumption | (refine Kept.ite ?_ ?_) | (refine Kept.ite2 ?_ ?_) | (refine reconAsk_kept ?_)
    | (refine poolPut_kept ?_) | (refine strmMod_kept ?_) | (refine Kept.foldl ?_ (fun _ _ _ => ?_))
    | (refine Kept.foldl2 ?_ (fun _ _ _ => ?_)) | split

theorem pictureStart_kept {s0 s : State} {a0 : Nat} {a1 : Work}
    (h : Kept s0 s) : Kept s0 (pictureStart a0 a1 s).2 := by
  unfold pictureStart
  repeat' with_reducible first
    | assumption | (refine Kept.ite ?_ ?_) | (refine Kept.ite2 ?_ ?_) | (refine reconTake_kept ?_)
    | (refine poolAsk_kept ?_) | (refine strmMod_kept ?_)

theorem pictureEnd_kept {s0 s : State} {a0 : Nat} {a1 : Work}
    (h : Kept s0 s) : Kept s0 (pictureEnd a0 a1 s).2 := by
  unfold pictureEnd
  repeat' with_reducible first
    | assumption | (refine Kept.ite ?_ ?_) | (refine Kept.ite2 ?_ ?_) | (refine writeMem_kept ?_)
    | (refine windowOut_kept ?_) | (refine setBuf_kept ?_) | (refine strmMod_kept ?_)

theorem reconWrite_kept {s0 s : State} {a0 : Bytes} {a1 : Work}
    (h : Kept s0 s) : Kept s0 (reconWrite a0 a1 s).2 := by
  unfold reconWrite
  repeat' with_reducible first
    | assumption | (refine Kept.ite ?_ ?_) | (refine Kept.ite2 ?_ ?_) | (refine writeMem_kept ?_)

theorem lateDebt_kept {s0 s : State} {a0 : Nat} {a1 : Work} (h : Kept s0 s) : Kept s0 (lateDebt a0 a1 s) := by
  unfold lateDebt
  repeat' with_reducible first
    | assumption | (refine Kept.ite ?_ ?_) | (refine Kept.ite2 ?_ ?_) | (refine strmMod_kept ?_)
    | (refine Kept.foldl ?_ (fun _ _ _ => ?_)) | (refine Kept.foldl2 ?_ (fun _ _ _ => ?_)) | split

theorem flushRecs_kept {s0 s : State} {a0 : Nat} (h : Kept s0 s) : Kept s0 (flushRecs a0 s) := by
  unfold flushRecs
  repeat' with_reducible first
    | assumption | (refine Kept.ite ?_ ?_) | (refine Kept.ite2 ?_ ?_) | (refine statSend_kept ?_)
    | (refine strmMod_kept ?_) | (refine Kept.foldl ?_ (fun _ _ _ => ?_))
    | (refine Kept.foldl2 ?_ (fun _ _ _ => ?_)) | split

theorem flushRow_kept {s0 s : State} {a0 : Nat} (h : Kept s0 s) : Kept s0 (flushRow a0 s) := by
  unfold flushRow
  repeat' with_reducible first
    | assumption | (refine Kept.ite ?_ ?_) | (refine Kept.ite2 ?_ ?_) | (refine giveRow_kept ?_)
    | (refine winWrite_kept ?_) | (refine setSlot_kept ?_) | (refine strmMod_kept ?_)
    | (refine Kept.foldl ?_ (fun _ _ _ => ?_)) | (refine Kept.foldl2 ?_ (fun _ _ _ => ?_)) | split

theorem flushRows_kept {s0 s : State} {a0 : Nat} (h : Kept s0 s) : Kept s0 (flushRows a0 s) := by
  unfold flushRows
  repeat' with_reducible first
    | assumption | (refine Kept.ite ?_ ?_) | (refine Kept.ite2 ?_ ?_) | (refine flushRow_kept ?_)
    | (refine flushRecs_kept ?_) | (refine Kept.foldl ?_ (fun _ _ _ => ?_))

theorem liveRecord_kept {s0 s : State} {a0 : Nat} {a1 : Work} {a2 : StatRec}
    (h : Kept s0 s) : Kept s0 (liveRecord a0 a1 a2 s) := by
  unfold liveRecord
  repeat' with_reducible first
    | assumption | (refine Kept.ite ?_ ?_) | (refine Kept.ite2 ?_ ?_) | (refine flushRows_kept ?_)
    | (refine strmMod_kept ?_)

theorem queueRows_kept {s0 s : State} {a0 : Nat} {a1 : Work} {a2 : Bool}
    (h : Kept s0 s) : Kept s0 (queueRows a0 a1 a2 s).2 := by
  unfold queueRows
  repeat' with_reducible first
    | assumption | (refine Kept.ite ?_ ?_) | (refine Kept.ite2 ?_ ?_) | (refine strmMod_kept ?_)
    | (refine Kept.foldl ?_ (fun _ _ _ => ?_)) | (refine Kept.foldl2 ?_ (fun _ _ _ => ?_)) | split

theorem liveRepeat_kept {s0 s : State} {a0 : Nat} {a1 : Work} {a2 : Nat} {a3 : Nat} {a4 : Option DecFault}
    (h : Kept s0 s) : Kept s0 (liveRepeat a0 a1 a2 a3 a4 s) := by
  unfold liveRepeat
  repeat' with_reducible first
    | assumption | (refine Kept.ite ?_ ?_) | (refine Kept.ite2 ?_ ?_) | (refine queueRows_kept ?_)
    | (refine liveRecord_kept ?_) | (refine lateDebt_kept ?_) | (refine endTick_kept ?_)
    | (refine ausTold_kept ?_) | (refine strmMod_kept ?_)

theorem flushEngine_kept {s0 s : State} {a0 : Nat} (h : Kept s0 s) : Kept s0 (flushEngine a0 s) := by
  unfold flushEngine
  repeat' with_reducible first
    | assumption | (refine Kept.ite ?_ ?_) | (refine Kept.ite2 ?_ ?_) | (refine flushRows_kept ?_)
    | (refine Kept.foldl ?_ (fun _ _ _ => ?_))

theorem auCmdEnd_kept {s0 s : State} {a0 : Nat} {a1 : Work} {a2 : Nat} {a3 : DecRep}
    (h : Kept s0 s) : Kept s0 (auCmdEnd a0 a1 a2 a3 s) := by
  unfold auCmdEnd
  repeat' with_reducible first
    | assumption | (refine Kept.ite ?_ ?_) | (refine Kept.ite2 ?_ ?_) | (refine ausTold_kept ?_)
    | (refine cmdStatus_kept ?_) | (refine strmMod_kept ?_)

theorem auSkip_kept {s0 s : State} {a0 : Nat} {a1 : Work} {a2 : Nat}
    (h : Kept s0 s) : Kept s0 (auSkip a0 a1 a2 s) := by
  unfold auSkip
  repeat' with_reducible first
    | assumption | (refine Kept.ite ?_ ?_) | (refine Kept.ite2 ?_ ?_) | (refine auCmdEnd_kept ?_)
    | (refine liveRecord_kept ?_) | (refine lateDebt_kept ?_) | (refine endTick_kept ?_)
    | (refine ausTold_kept ?_) | (refine strmMod_kept ?_)

theorem picDrop_kept {s0 s : State} {a0 : Nat} {a1 : DpbPic} (h : Kept s0 s) : Kept s0 (picDrop a0 a1 s) := by
  unfold picDrop
  repeat' with_reducible first
    | assumption | (refine Kept.ite ?_ ?_) | (refine Kept.ite2 ?_ ?_) | (refine poolPut_kept ?_)

theorem dpbTrim_kept {s0 s : State} {a0 : Nat} (h : Kept s0 s) : Kept s0 (dpbTrim a0 s) := by
  unfold dpbTrim
  repeat' with_reducible first
    | assumption | (refine Kept.ite ?_ ?_) | (refine Kept.ite2 ?_ ?_) | (refine picDrop_kept ?_)
    | (refine strmMod_kept ?_) | (refine Kept.foldl ?_ (fun _ _ _ => ?_))

theorem picOut_kept {s0 s : State} {a0 : Nat} {a1 : DpbPic} (h : Kept s0 s) : Kept s0 (picOut a0 a1 s) := by
  unfold picOut
  repeat' with_reducible first
    | assumption | (refine Kept.ite ?_ ?_) | (refine Kept.ite2 ?_ ?_) | (refine dpbTrim_kept ?_)
    | (refine ausTold_kept ?_) | (refine statWrite_kept ?_) | (refine strmMod_kept ?_)

theorem bumpWhile_kept {s0 s : State} {more : List DpbPic → Bool} {k n : Nat}
    (h : Kept s0 s) : Kept s0 (bumpWhile more k n s) := by
  induction n generalizing s with
  | zero => exact h
  | succ n ih =>
    unfold bumpWhile
    dsimp only
    refine Kept.ite ?_ h
    split
    · exact ih (picOut_kept h)
    · exact h

theorem dpbFlush_kept {s0 s : State} {a0 : Nat} (h : Kept s0 s) : Kept s0 (dpbFlush a0 s) := by
  unfold dpbFlush
  repeat' with_reducible first
    | assumption | (refine Kept.ite ?_ ?_) | (refine Kept.ite2 ?_ ?_) | (refine bumpWhile_kept ?_)

theorem dpbBefore_kept {s0 s : State} {a0 : Nat} {a1 : Int}
    (h : Kept s0 s) : Kept s0 (dpbBefore a0 a1 s) := by
  unfold dpbBefore
  repeat' with_reducible first
    | assumption | (refine Kept.ite ?_ ?_) | (refine Kept.ite2 ?_ ?_) | (refine bumpWhile_kept ?_)

theorem dpbInsert_kept {s0 s : State} {a0 : Nat} {a1 : Work} {a2 : DpbPic}
    (h : Kept s0 s) : Kept s0 (dpbInsert a0 a1 a2 s) := by
  unfold dpbInsert
  repeat' with_reducible first
    | assumption | (refine Kept.ite ?_ ?_) | (refine Kept.ite2 ?_ ?_) | (refine bumpWhile_kept ?_)
    | (refine strmMod_kept ?_)

theorem dpbMakeRoom_kept {s0 s : State} {a0 : Nat} {a1 : Work}
    (h : Kept s0 s) : Kept s0 (dpbMakeRoom a0 a1 s) := by
  unfold dpbMakeRoom
  repeat' with_reducible first
    | assumption | (refine Kept.ite ?_ ?_) | (refine Kept.ite2 ?_ ?_) | (refine dpbFlush_kept ?_)
    | (refine bumpWhile_kept ?_) | (refine dpbTrim_kept ?_) | (refine strmMod_kept ?_)

theorem auEnd_kept {s0 s : State} {a0 : Nat} {a1 : Work} (h : Kept s0 s) : Kept s0 (auEnd a0 a1 s) := by
  unfold auEnd
  repeat' with_reducible first
    | assumption | (refine Kept.ite ?_ ?_) | (refine Kept.ite2 ?_ ?_) | (refine dpbMakeRoom_kept ?_)
    | (refine dpbInsert_kept ?_) | (refine dpbBefore_kept ?_) | (refine dpbFlush_kept ?_)
    | (refine auCmdEnd_kept ?_) | (refine writeMem_kept ?_) | (refine setScState_kept ?_)
    | (refine liveRepeat_kept ?_) | (refine queueRows_kept ?_) | (refine liveRecord_kept ?_)
    | (refine endTick_kept ?_) | (refine ausTold_kept ?_) | (refine workBufBack_kept ?_)
    | (refine strmMod_kept ?_)

theorem genRefs_kept {s0 s : State} {a0 : Nat} {a1 : AuInfo} (h : Kept s0 s) : Kept s0 (genRefs a0 a1 s) := by
  unfold genRefs
  repeat' with_reducible first
    | assumption | (refine Kept.ite ?_ ?_) | (refine Kept.ite2 ?_ ?_) | (refine poolAsk_kept ?_)
    | (refine strmMod_kept ?_) | (refine Kept.foldl ?_ (fun _ _ _ => ?_))

theorem auTake_kept {s0 s : State} {a0 : Nat} {a1 : Work} {a2 : Bool}
    (h : Kept s0 s) : Kept s0 (auTake a0 a1 a2 s).2 := by
  unfold auTake
  repeat' with_reducible first
    | assumption | (refine Kept.ite ?_ ?_) | (refine Kept.ite2 ?_ ?_) | (refine genRefs_kept ?_)
    | (refine poolAsk_kept ?_) | (refine strmMod_kept ?_)

theorem decStop_kept {s0 s : State} {a0 : Nat} {a1 : Work} {a2 : DecFault}
    (h : Kept s0 s) : Kept s0 (decStop a0 a1 a2 s) := by
  unfold decStop
  repeat' with_reducible first
    | assumption | (refine Kept.ite ?_ ?_) | (refine Kept.ite2 ?_ ?_) | (refine dpbBefore_kept ?_)
    | (refine auCmdEnd_kept ?_) | (refine setScState_kept ?_) | (refine liveRecord_kept ?_)
    | (refine lateDebt_kept ?_) | (refine endTick_kept ?_) | (refine ausTold_kept ?_)
    | (refine workBufBack_kept ?_) | (refine strmMod_kept ?_)

theorem auOpen_kept {s0 s : State} {a0 : Nat} {a1 : Work} {a2 : SegResult}
    (h : Kept s0 s) : Kept s0 (auOpen a0 a1 a2 s).2 := by
  unfold auOpen
  repeat' with_reducible first
    | assumption | (refine Kept.ite ?_ ?_) | (refine Kept.ite2 ?_ ?_) | (refine decStop_kept ?_)
    | (refine auTake_kept ?_) | (refine auSkip_kept ?_) | (refine liveRepeat_kept ?_)
    | (refine strmMod_kept ?_) | (refine Kept.foldl ?_ (fun _ _ _ => ?_))
    | (refine Kept.foldl2 ?_ (fun _ _ _ => ?_)) | split | (dsimp only; split)

theorem fileDone_kept {s0 s : State} {a0 : Nat} (h : Kept s0 s) : Kept s0 (fileDone a0 s) := by
  unfold fileDone
  repeat' with_reducible first
    | assumption | (refine Kept.ite ?_ ?_) | (refine Kept.ite2 ?_ ?_) | (refine strmMod_kept ?_)

theorem purgeBad_kept {s0 s : State} {a0 : Nat} (h : Kept s0 s) : Kept s0 (purgeBad a0 s) := by
  unfold purgeBad
  repeat' with_reducible first
    | assumption | (refine Kept.ite ?_ ?_) | (refine Kept.ite2 ?_ ?_) | (refine cmdStatus_kept ?_)
    | (refine strmMod_kept ?_) | (refine Kept.foldl ?_ (fun _ _ _ => ?_))
    | (refine Kept.foldl2 ?_ (fun _ _ _ => ?_)) | split | (dsimp only; split)

theorem liveCheck_kept {s0 s : State} {a0 : Nat} (h : Kept s0 s) : Kept s0 (liveCheck a0 s) := by
  unfold liveCheck
  repeat' with_reducible first
    | assumption | (refine Kept.ite ?_ ?_) | (refine Kept.ite2 ?_ ?_) | (refine engMod_kept ?_)
    | (refine Kept.foldl ?_ (fun _ _ _ => ?_)) | (refine Kept.foldl2 ?_ (fun _ _ _ => ?_)) | split
    | (dsimp only; split)

theorem beginDecode_kept {s0 s : State} {a0 : Nat} {a1 : Work}
    (h : Kept s0 s) : Kept s0 (beginDecode a0 a1 s) := by
  unfold beginDecode
  repeat' with_reducible first
    | assumption | (refine Kept.ite ?_ ?_) | (refine Kept.ite2 ?_ ?_) | (refine setWork_kept ?_)

theorem workDone_kept {s0 s : State} {a0 : Nat} {a1 : Work} (h : Kept s0 s) : Kept s0 (workDone a0 a1 s) := by
  unfold workDone
  repeat' with_reducible first
    | assumption | (refine Kept.ite ?_ ?_) | (refine Kept.ite2 ?_ ?_) | (refine setWork_kept ?_)
    | (refine engMod_kept ?_) | (refine endWord_kept ?_) | (refine Kept.foldl ?_ (fun _ _ _ => ?_))
    | (refine Kept.foldl2 ?_ (fun _ _ _ => ?_)) | split | (dsimp only; split)

theorem fileBusy_kept {s0 s : State} {a0 : Nat} {a1 : Nat} {a2 : Work}
    (h : Kept s0 s) : Kept s0 (fileBusy a0 a1 a2 s) := by
  unfold fileBusy
  repeat' with_reducible first
    | assumption | (refine Kept.ite ?_ ?_) | (refine Kept.ite2 ?_ ?_) | (refine workDone_kept ?_)
    | (refine restoreSnap_kept ?_) | (refine cmdStatus_kept ?_) | (refine strmMod_kept ?_)

theorem liveDrop_kept {s0 s : State} {k t status : Nat}
    (h : Kept s0 s) : Kept s0 (liveDrop k t status s) := by
  unfold liveDrop
  extract_lets c e a w s1 s2 d s3 x s4
  have h2 : Kept s0 s2 := strmMod_kept (Kept.ite (dropWork_kept h) h)
  have h4 : Kept s0 s4 := strmMod_kept (Kept.ite (restoreSnap_kept h2) h2)
  clear_value s4 s2
  refine Kept.ite (liveRepeat_kept h2) ?_
  split
  · exact engMod_kept (endTick_kept h4)
  · exact endTick_kept (strmMod_kept (statWrite_kept h4))

theorem beginEncode_kept {s0 s : State} {e : Nat} {w : Work}
    (h : Kept s0 s) : Kept s0 (beginEncode e w s) := by
  unfold beginEncode
  extract_lets k c s1 now x s2
  have h2 : Kept s0 s2 := strmMod_kept (strmMod_kept h)
  clear_value s2
  split
  · exact cmdStatus_kept (strmMod_kept (workDone_kept h2))
  · extract_lets w1
    have hp := pictureStart_kept (a0 := k) (a1 := w1) h2
    split <;> rename_i e1 <;> rw [e1] at hp
    · exact setWork_kept hp
    · exact Kept.ite (liveDrop_kept (setWork_kept hp)) (fileBusy_kept hp)

theorem sampleDraw_kept {s0 s : State}  (h : Kept s0 s) : Kept s0 (sampleDraw s).2 := by
  unfold sampleDraw
  repeat' with_reducible first
    | assumption | (refine Kept.ite ?_ ?_) | (refine Kept.ite2 ?_ ?_) | (refine drawBytes_kept ?_)

theorem startWork_kept {s0 s : State} {e k : Nat} (h : Kept s0 s) : Kept s0 (startWork e k s) := by
  unfold startWork
  split
  · exact h
  · extract_lets live wait s1 s2 w1 x w2 s3
    have h2 : Kept s0 s2 := engMod_kept (Kept.ite (fset_kept h) h)
    refine Kept.ite (setWork_kept h2) ?_
    have h3 : Kept s0 s3 := routineWord_kept (sampleDraw_kept h2)
    clear_value s3
    refine Kept.ite ?_ (Kept.ite (beginDecode_kept h3) (beginEncode_kept h3))
    have hp := pictureStart_kept (a0 := k) (a1 := w2) h3
    split <;> rename_i e1 <;> rw [e1] at hp
    · exact setWork_kept hp
    · exact liveDrop_kept (setWork_kept hp)

theorem engKickN_kept {s0 s : State} {e n : Nat} (h : Kept s0 s) : Kept s0 (engKickN e n s) := by
  induction n generalizing s with
  | zero => exact h
  | succ n ih =>
    unfold engKickN
    extract_lets g s1
    refine Kept.ite h ?_
    have h1 : Kept s0 s1 := Kept.foldl h (fun _ _ h => liveCheck_kept h)
    clear_value s1
    split
    · exact engMod_kept h1
    · exact Kept.ite (ih (startWork_kept h1)) (engMod_kept h1)

theorem engKick_kept {s0 s : State} {a0 : Nat} (h : Kept s0 s) : Kept s0 (engKick a0 s) := by
  unfold engKick
  repeat' with_reducible first
    | assumption | (refine Kept.ite ?_ ?_) | (refine Kept.ite2 ?_ ?_) | (refine flushEngine_kept ?_)
    | (refine engKickN_kept ?_)

theorem purgeAll_kept {s0 s : State}  (h : Kept s0 s) : Kept s0 (purgeAll s) := by
  unfold purgeAll
  repeat' with_reducible first
    | assumption | (refine Kept.ite ?_ ?_) | (refine Kept.ite2 ?_ ?_) | (refine purgeBad_kept ?_)
    | (refine Kept.foldl ?_ (fun _ _ _ => ?_))

theorem liveInput_kept {s0 s : State} {a0 : Nat} (h : Kept s0 s) : Kept s0 (liveInput a0 s) := by
  unfold liveInput
  repeat' with_reducible first
    | assumption | (refine Kept.ite ?_ ?_) | (refine Kept.ite2 ?_ ?_) | (refine engKick_kept ?_)
    | (refine liveGone_kept ?_) | (refine endTick_kept ?_) | (refine Kept.foldl ?_ (fun _ _ _ => ?_))
    | (refine Kept.foldl2 ?_ (fun _ _ _ => ?_)) | split

theorem encFinish_kept {s0 s : State} {e : Nat} {w : Work} (h : Kept s0 s) : Kept s0 (encFinish e w s) := by
  unfold encFinish
  extract_lets k x s1
  have hx : Kept s0 x.2 := pictureEnd_kept h
  clear_value x
  refine Kept.ite (endTick_kept (statWrite_kept (workDone_kept hx))) ?_
  have h1 : Kept s0 s1 := cmdRecord_kept hx
  clear_value s1
  split
  · exact fileDone_kept (workDone_kept h1)
  · split <;> rename_i e1
    · have hp := congrArg (fun y => Kept s0 y.2) e1
      exact setWork_kept (hp.mp (pictureStart_kept h1))
    · have hp := congrArg (fun y => Kept s0 y.2) e1
      exact fileBusy_kept (hp.mp (pictureStart_kept h1))

theorem countOverrun_kept {s0 s : State} {a0 : Nat} (h : Kept s0 s) : Kept s0 (countOverrun a0 s) := by
  unfold countOverrun
  repeat' with_reducible first
    | assumption | (refine Kept.ite ?_ ?_) | (refine Kept.ite2 ?_ ?_) | (refine strmMod_kept ?_)
    | (refine pendSet_kept ?_) | (refine bump_kept ?_)

theorem overrun_kept {s0 s : State} {a0 : Nat} {a1 : Nat} (h : Kept s0 s) : Kept s0 (overrun a0 a1 s) := by
  unfold overrun
  repeat' with_reducible first
    | assumption | (refine Kept.ite ?_ ?_) | (refine Kept.ite2 ?_ ?_) | (refine countOverrun_kept ?_)
    | (refine engKick_kept ?_) | (refine liveDrop_kept ?_) | (refine liveCheck_kept ?_)
    | (refine engMod_kept ?_) | (refine Kept.foldl ?_ (fun _ _ _ => ?_))
    | (refine Kept.foldl2 ?_ (fun _ _ _ => ?_)) | split | (dsimp only; split)

theorem failWork_kept {s0 s : State} {a0 : Nat} {a1 : Nat} (h : Kept s0 s) : Kept s0 (failWork a0 a1 s) := by
  unfold failWork
  repeat' with_reducible first
    | assumption | (refine Kept.ite ?_ ?_) | (refine Kept.ite2 ?_ ?_) | (refine abandon_kept ?_)
    | (refine liveGone_kept ?_) | (refine engMod_kept ?_) | (refine Kept.foldl ?_ (fun _ _ _ => ?_))
    | (refine Kept.foldl2 ?_ (fun _ _ _ => ?_)) | split

theorem addBusy_kept {s0 s : State} {a0 : Nat} {a1 : Nat} (h : Kept s0 s) : Kept s0 (addBusy a0 a1 s) := by
  unfold addBusy
  repeat' with_reducible first
    | assumption | (refine Kept.ite ?_ ?_) | (refine Kept.ite2 ?_ ?_) | (refine fset_kept ?_)
    | (refine Kept.foldl ?_ (fun _ _ _ => ?_))

theorem decCommit_kept {s0 s : State} {a0 : Nat} {a1 : Work} {a2 : SegResult}
    (h : Kept s0 s) : Kept s0 (decCommit a0 a1 a2 s) := by
  unfold decCommit
  repeat' with_reducible first
    | assumption | (refine Kept.ite ?_ ?_) | (refine Kept.ite2 ?_ ?_) | (refine auOpen_kept ?_)
    | (refine decStop_kept ?_) | (refine auEnd_kept ?_) | (refine liveDrop_kept ?_)
    | (refine queueRows_kept ?_) | (refine flushRows_kept ?_) | (refine fileBusy_kept ?_)
    | (refine workDone_kept ?_) | (refine setWork_kept ?_) | (refine Kept.foldl ?_ (fun _ _ _ => ?_))
    | (refine Kept.foldl2 ?_ (fun _ _ _ => ?_)) | split | (dsimp only; split)

theorem encCommit_kept {s0 s : State} {a0 : Nat} {a1 : Work} {a2 : SegResult}
    (h : Kept s0 s) : Kept s0 (encCommit a0 a1 a2 s) := by
  unfold encCommit
  repeat' with_reducible first
    | assumption | (refine Kept.ite ?_ ?_) | (refine Kept.ite2 ?_ ?_) | (refine reconWrite_kept ?_)
    | (refine encFinish_kept ?_) | (refine windowOut_kept ?_) | (refine setWork_kept ?_)

theorem engNext_kept {s0 s : State} {a0 : Nat} (h : Kept s0 s) : Kept s0 (engNext a0 s) := by
  unfold engNext
  repeat' with_reducible first
    | assumption | (refine Kept.ite ?_ ?_) | (refine Kept.ite2 ?_ ?_) | (refine engKick_kept ?_)
    | (refine liveCheck_kept ?_) | (refine setWork_kept ?_) | (refine engMod_kept ?_) | (refine bump_kept ?_)
    | (refine Kept.foldl ?_ (fun _ _ _ => ?_)) | (refine Kept.foldl2 ?_ (fun _ _ _ => ?_)) | split
    | (dsimp only; split)

theorem commitSeg_kept {s0 s : State} {a0 : Nat} {a1 : SegResult}
    (h : Kept s0 s) : Kept s0 (commitSeg a0 a1 s) := by
  unfold commitSeg
  repeat' with_reducible first
    | assumption | (refine Kept.ite ?_ ?_) | (refine Kept.ite2 ?_ ?_) | (refine engNext_kept ?_)
    | (refine encCommit_kept ?_) | (refine decCommit_kept ?_) | (refine addBusy_kept ?_)
    | (refine setWork_kept ?_) | (refine engMod_kept ?_) | (refine routineWord_kept ?_)
    | (refine Kept.foldl ?_ (fun _ _ _ => ?_)) | (refine Kept.foldl2 ?_ (fun _ _ _ => ?_)) | split

theorem ceDrained_kept {s0 s : State} {a0 : Nat} (h : Kept s0 s) : Kept s0 (ceDrained a0 s) := by
  unfold ceDrained
  repeat' with_reducible first
    | assumption | (refine Kept.ite ?_ ?_) | (refine Kept.ite2 ?_ ?_) | (refine engKick_kept ?_)
    | (refine ceStart_kept ?_) | (refine gangFlag_kept ?_)

theorem ceCtrlWrite_kept {s0 s : State} {a0 : Nat} {a1 : Word}
    (h : Kept s0 s) : Kept s0 (ceCtrlWrite a0 a1 s) := by
  unfold ceCtrlWrite
  repeat' with_reducible first
    | assumption | (refine Kept.ite ?_ ?_) | (refine Kept.ite2 ?_ ?_) | (refine engKick_kept ?_)
    | (refine ceOn_kept ?_) | (refine ceOff_kept ?_) | (refine gangFlag_kept ?_) | (refine fset_kept ?_)
    | (refine Kept.foldl ?_ (fun _ _ _ => ?_))

theorem execCeDisable_kept {s0 s : State} {a0 : Fn} {a1 : Eng} {a2 : Word}
    (h : Kept s0 s) : KeptO s0 (execCeDisable a0 a1 a2 s) := by
  unfold execCeDisable
  repeat' with_reducible first
    | assumption | (refine KeptO.next ?_) | (refine KeptO.ite ?_ ?_) | (refine Kept.ite ?_ ?_)
    | (refine Kept.ite2 ?_ ?_) | (refine ceCtrlWrite_kept ?_) | (refine hostWr_kept ?_ (fun _ _ => ?_))

theorem execCeDrainEnd_kept {s0 s : State} {a0 : Eng} (h : Kept s0 s) : KeptO s0 (execCeDrainEnd a0 s) := by
  unfold execCeDrainEnd
  repeat' with_reducible first
    | assumption | (refine KeptO.next ?_) | (refine KeptO.ite ?_ ?_) | (refine Kept.ite ?_ ?_)
    | (refine Kept.ite2 ?_ ?_) | (refine ceDrained_kept ?_)

theorem execCeEnable_kept {s0 s : State} {a0 : Fn} {a1 : Eng} {a2 : Word}
    (h : Kept s0 s) : KeptO s0 (execCeEnable a0 a1 a2 s) := by
  unfold execCeEnable
  repeat' with_reducible first
    | assumption | (refine KeptO.next ?_) | (refine KeptO.ite ?_ ?_) | (refine Kept.ite ?_ ?_)
    | (refine Kept.ite2 ?_ ?_) | (refine ceCtrlWrite_kept ?_) | (refine hostWr_kept ?_ (fun _ _ => ?_))

theorem execEngineRestart_kept {s0 s : State} {a0 : Eng} {a1 : RestartCause}
    (h : Kept s0 s) : KeptO s0 (execEngineRestart a0 a1 s) := by
  unfold execEngineRestart
  repeat' with_reducible first
    | assumption | (refine KeptO.next ?_) | (refine KeptO.ite ?_ ?_) | (refine Kept.ite ?_ ?_)
    | (refine Kept.ite2 ?_ ?_) | (refine failWork_kept ?_) | (refine engKick_kept ?_)
    | (refine haspRise_kept ?_) | (refine setWork_kept ?_) | (refine engMod_kept ?_)
    | (refine routineWord_kept ?_) | (refine strmMod_kept ?_) | (refine pendSet_kept ?_)
    | (refine bump_kept ?_) | (refine Kept.foldl ?_ (fun _ _ _ => ?_))
    | (refine Kept.foldl2 ?_ (fun _ _ _ => ?_)) | split

theorem execLiveExclusive_kept {s0 s : State} {a0 : Fn} {a1 : Eng} {a2 : Word}
    (h : Kept s0 s) : KeptO s0 (execLiveExclusive a0 a1 a2 s) := by
  unfold execLiveExclusive
  repeat' with_reducible first
    | assumption | (refine KeptO.next ?_) | (refine KeptO.ite ?_ ?_) | (refine Kept.ite ?_ ?_)
    | (refine Kept.ite2 ?_ ?_) | (refine ceCtrlWrite_kept ?_) | (refine hostWr_kept ?_ (fun _ _ => ?_))

theorem execLiveOverrun_kept {s0 s : State} {a0 : Sc} (h : Kept s0 s) : KeptO s0 (execLiveOverrun a0 s) := by
  unfold execLiveOverrun
  repeat' with_reducible first
    | assumption | (refine KeptO.next ?_) | (refine KeptO.ite ?_ ?_) | (refine Kept.ite ?_ ?_)
    | (refine Kept.ite2 ?_ ?_) | (refine overrun_kept ?_) | (refine Kept.foldl ?_ (fun _ _ _ => ?_))
    | (refine Kept.foldl2 ?_ (fun _ _ _ => ?_)) | split

theorem engAsk_kept {s0 s : State} {a0 : Nat} {a1 : Nat} (h : Kept s0 s) : Kept s0 (engAsk a0 a1 s) := by
  unfold engAsk
  repeat' with_reducible first
    | assumption | (refine Kept.ite ?_ ?_) | (refine Kept.ite2 ?_ ?_) | (refine hbmAsk_kept ?_)

theorem execSegmentCommit_kept {s0 s : State} {a0 : Eng} {a1 : SegResult}
    (h : Kept s0 s) : KeptO s0 (execSegmentCommit a0 a1 s) := by
  unfold execSegmentCommit
  repeat' with_reducible first
    | assumption | (refine KeptO.next ?_) | (refine KeptO.ite ?_ ?_) | (refine Kept.ite ?_ ?_)
    | (refine Kept.ite2 ?_ ?_) | (refine engAsk_kept ?_) | (refine commitSeg_kept ?_)
    | (refine failWork_kept ?_) | (refine overrun_kept ?_) | (refine purgeAll_kept ?_)
    | (refine engKick_kept ?_) | (refine haspRise_kept ?_) | (refine Kept.foldl ?_ (fun _ _ _ => ?_))
    | (refine Kept.foldl2 ?_ (fun _ _ _ => ?_)) | split

theorem execSwapComplete_kept {s0 s : State} {a0 : Eng}
    (h : Kept s0 s) : KeptO s0 (execSwapComplete a0 s) := by
  unfold execSwapComplete
  repeat' with_reducible first
    | assumption | (refine KeptO.next ?_) | (refine KeptO.ite ?_ ?_) | (refine Kept.ite ?_ ?_)
    | (refine Kept.ite2 ?_ ?_) | (refine engAsk_kept ?_) | (refine reachCclk_kept ?_)
    | (refine engKick_kept ?_) | (refine startWork_kept ?_) | (refine engMod_kept ?_)
    | (refine Kept.foldl ?_ (fun _ _ _ => ?_)) | (refine Kept.foldl2 ?_ (fun _ _ _ => ?_)) | split

theorem cmdEnd_kept {s0 s : State} {a0 : Nat} {a1 : Bytes} {a2 : Nat}
    (h : Kept s0 s) : Kept s0 (cmdEnd a0 a1 a2 s) := by
  unfold cmdEnd
  repeat' with_reducible first
    | assumption | (refine Kept.ite ?_ ?_) | (refine Kept.ite2 ?_ ?_) | (refine purgeBad_kept ?_)
    | (refine cmdStatus_kept ?_)

theorem takeCmd_kept {s0 s : State} {op k : Nat} {early : Bool} {x : Bytes × State} (e : takeCmd op k early s = some x)
    (h : Kept s0 s) : Kept s0 x.2 := by
  unfold takeCmd at e
  obtain ⟨y, -, rfl⟩ := Option.map_eq_some_iff.1 e
  exact strmMod_kept h

theorem runCmd_kept {s0 s : State} {op k : Nat} {early : Bool} {act : Bytes → State → Nat × State} (h : Kept s0 s)
    (ha : ∀ c t, Kept s0 t → Kept s0 (act c t).2) : Kept s0 (runCmd op k early act s) := by
  unfold runCmd
  split
  · exact h
  · have h := takeCmd_kept (x := (_, _)) (by assumption) h
    exact Kept.ite (cmdEnd_kept h) (cmdEnd_kept (ha _ _ h))

theorem execScSetPolicy_kept {s0 s : State} {a0 : Sc} (h : Kept s0 s) : KeptO s0 (execScSetPolicy a0 s) := by
  unfold execScSetPolicy
  repeat' with_reducible first
    | assumption | (refine KeptO.next ?_) | (refine KeptO.ite ?_ ?_) | (refine Kept.ite ?_ ?_)
    | (refine Kept.ite2 ?_ ?_) | (refine runCmd_kept ?_ (fun _ _ _ => ?_)) | (refine strmMod_kept ?_)

theorem execCommandFetch_kept {s0 s : State} {a0 : Sc} {a1 : List Bytes}
    (h : Kept s0 s) : KeptO s0 (execCommandFetch a0 a1 s) := by
  unfold execCommandFetch
  repeat' with_reducible first
    | assumption | (refine KeptO.next ?_) | (refine KeptO.ite ?_ ?_) | (refine Kept.ite ?_ ?_)
    | (refine Kept.ite2 ?_ ?_) | (refine purgeBad_kept ?_) | (refine strmMod_kept ?_) | (refine fset_kept ?_)
    | (refine Kept.foldl ?_ (fun _ _ _ => ?_)) | (refine Kept.foldl2 ?_ (fun _ _ _ => ?_)) | split

theorem cgAllocWrite_kept {s0 s : State} {a0 : Nat} (h : Kept s0 s) : Kept s0 (cgAllocWrite a0 s) := by
  unfold cgAllocWrite
  repeat' with_reducible first
    | assumption | (refine Kept.ite ?_ ?_) | (refine Kept.ite2 ?_ ?_) | (refine setScState_kept ?_)
    | (refine setFlag_kept ?_) | (refine strmMod_kept ?_) | (refine bump_kept ?_) | (refine fset_kept ?_)
    | (refine Kept.foldl ?_ (fun _ _ _ => ?_)) | (refine Kept.foldl2 ?_ (fun _ _ _ => ?_)) | split
    | (refine Kept.of_parts rfl rfl rfl rfl rfl ?_)

theorem execCgAlloc_kept {s0 s : State} {a0 : Fn} {a1 : Word}
    (h : Kept s0 s) : KeptO s0 (execCgAlloc a0 a1 s) := by
  unfold execCgAlloc
  repeat' with_reducible first
    | assumption | (refine KeptO.next ?_) | (refine KeptO.ite ?_ ?_) | (refine Kept.ite ?_ ?_)
    | (refine Kept.ite2 ?_ ?_) | (refine cgAllocWrite_kept ?_) | (refine hostWr_kept ?_ (fun _ _ => ?_))

theorem scEnableDo_kept {s0 s : State} {a0 : Nat} (h : Kept s0 s) : Kept s0 (scEnableDo a0 s) := by
  unfold scEnableDo
  repeat' with_reducible first
    | assumption | (refine Kept.ite ?_ ?_) | (refine Kept.ite2 ?_ ?_) | (refine setScState_kept ?_)
    | (refine dpbDrop_kept ?_) | (refine strmMod_kept ?_)

theorem liveLoadAdd_kept {s0 s : State} {a0 : Nat} {a1 : Int}
    (h : Kept s0 s) : Kept s0 (liveLoadAdd a0 a1 s) := by
  unfold liveLoadAdd
  repeat' with_reducible first
    | assumption | (refine Kept.ite ?_ ?_) | (refine Kept.ite2 ?_ ?_) | (refine fset_kept ?_)
    | (refine Kept.foldl ?_ (fun _ _ _ => ?_))

theorem budgetTo_kept {s0 s : State} {a0 : Nat} {a1 : Nat}
    (h : Kept s0 s) : Kept s0 (budgetTo a0 a1 s).2 := by
  unfold budgetTo
  repeat' with_reducible first
    | assumption | (refine Kept.ite ?_ ?_) | (refine Kept.ite2 ?_ ?_) | (refine liveLoadAdd_kept ?_)
    | (refine strmMod_kept ?_)

theorem scDrained_kept {s0 s : State} {a0 : Nat} (h : Kept s0 s) : Kept s0 (scDrained a0 s) := by
  unfold scDrained
  repeat' with_reducible first
    | assumption | (refine Kept.ite ?_ ?_) | (refine Kept.ite2 ?_ ?_) | (refine scEnableDo_kept ?_)
    | (refine scFree_kept ?_) | (refine setScState_kept ?_) | (refine setFlag_kept ?_)
    | (refine statFlush_kept ?_) | (refine Kept.foldl ?_ (fun _ _ _ => ?_))
    | (refine Kept.foldl2 ?_ (fun _ _ _ => ?_)) | split

theorem execScClose_kept {s0 s : State} {a0 : Sc} (h : Kept s0 s) : KeptO s0 (execScClose a0 s) := by
  unfold execScClose
  repeat' with_reducible first
    | assumption | (refine KeptO.next ?_) | (refine KeptO.ite ?_ ?_) | (refine Kept.ite ?_ ?_)
    | (refine Kept.ite2 ?_ ?_) | (refine takeCmd_kept (x := (_, _)) (by assumption) ?_)
    | (refine cmdEnd_kept ?_) | (refine scClose_kept ?_) | (refine scFree_kept ?_) | (refine engKick_kept ?_)
    | (refine Kept.foldl ?_ (fun _ _ _ => ?_)) | (refine Kept.foldl2 ?_ (fun _ _ _ => ?_)) | split

theorem execScRestart_kept {s0 s : State} {a0 : Sc} (h : Kept s0 s) : KeptO s0 (execScRestart a0 s) := by
  unfold execScRestart
  repeat' with_reducible first
    | assumption | (refine KeptO.next ?_) | (refine KeptO.ite ?_ ?_) | (refine Kept.ite ?_ ?_)
    | (refine Kept.ite2 ?_ ?_) | (refine dpbFlush_kept ?_) | (refine runCmd_kept ?_ (fun _ _ _ => ?_))
    | (refine setScState_kept ?_) | (refine dpbDrop_kept ?_) | (refine strmMod_kept ?_)

theorem doorbellWrite_kept {s0 s : State} {a0 : Nat} {a1 : Word}
    (h : Kept s0 s) : Kept s0 (doorbellWrite a0 a1 s) := by
  unfold doorbellWrite
  repeat' with_reducible first
    | assumption | (refine Kept.ite ?_ ?_) | (refine Kept.ite2 ?_ ?_) | (refine setFlag_kept ?_)
    | (refine strmMod_kept ?_)

theorem execDoorbell_kept {s0 s : State} {a0 : Fn} {a1 : Sc} {a2 : Word}
    (h : Kept s0 s) : KeptO s0 (execDoorbell a0 a1 a2 s) := by
  unfold execDoorbell
  repeat' with_reducible first
    | assumption | (refine KeptO.next ?_) | (refine KeptO.ite ?_ ?_) | (refine Kept.ite ?_ ?_)
    | (refine Kept.ite2 ?_ ?_) | (refine doorbellWrite_kept ?_) | (refine hostWr_kept ?_ (fun _ _ => ?_))

theorem execScDrainEnd_kept {s0 s : State} {a0 : Sc} (h : Kept s0 s) : KeptO s0 (execScDrainEnd a0 s) := by
  unfold execScDrainEnd
  repeat' with_reducible first
    | assumption | (refine KeptO.next ?_) | (refine KeptO.ite ?_ ?_) | (refine Kept.ite ?_ ?_)
    | (refine Kept.ite2 ?_ ?_) | (refine scDrained_kept ?_)

theorem execScEnable_kept {s0 s : State} {a0 : Sc} (h : Kept s0 s) : KeptO s0 (execScEnable a0 s) := by
  unfold execScEnable
  repeat' with_reducible first
    | assumption | (refine KeptO.next ?_) | (refine KeptO.ite ?_ ?_) | (refine Kept.ite ?_ ?_)
    | (refine Kept.ite2 ?_ ?_) | (refine scEnableDo_kept ?_) | (refine runCmd_kept ?_ (fun _ _ _ => ?_))
    | (refine setFlag_kept ?_)

theorem execScDisable_kept {s0 s : State} {a0 : Sc} (h : Kept s0 s) : KeptO s0 (execScDisable a0 s) := by
  unfold execScDisable
  repeat' with_reducible first
    | assumption | (refine KeptO.next ?_) | (refine KeptO.ite ?_ ?_) | (refine Kept.ite ?_ ?_)
    | (refine Kept.ite2 ?_ ?_) | (refine runCmd_kept ?_ (fun _ _ _ => ?_)) | (refine scDrain_kept ?_)
    | (refine engKick_kept ?_)

theorem execDecodeUnderrun_kept {s0 s : State} {a0 : Sc}
    (h : Kept s0 s) : KeptO s0 (execDecodeUnderrun a0 s) := by
  unfold execDecodeUnderrun
  repeat' with_reducible first
    | assumption | (refine KeptO.next ?_) | (refine KeptO.ite ?_ ?_) | (refine Kept.ite ?_ ?_)
    | (refine Kept.ite2 ?_ ?_) | (refine liveRepeat_kept ?_) | (refine liveRecord_kept ?_)
    | (refine endTick_kept ?_) | (refine ausTold_kept ?_)

theorem submit_kept {s0 s : State} {a0 : Nat} {a1 : Bytes} {a2 : Work}
    (h : Kept s0 s) : Kept s0 (submit a0 a1 a2 s) := by
  unfold submit
  repeat' with_reducible first
    | assumption | (refine Kept.ite ?_ ?_) | (refine Kept.ite2 ?_ ?_) | (refine engKick_kept ?_)
    | (refine engMod_kept ?_) | (refine strmMod_kept ?_)

theorem execScDecodeAu_kept {s0 s : State} {a0 : Sc} (h : Kept s0 s) : KeptO s0 (execScDecodeAu a0 s) := by
  unfold execScDecodeAu
  repeat' with_reducible first
    | assumption | (refine KeptO.next ?_) | (refine KeptO.ite ?_ ?_) | (refine Kept.ite ?_ ?_)
    | (refine Kept.ite2 ?_ ?_) | (refine submit_kept ?_) | (refine purgeAll_kept ?_)
    | (refine takeCmd_kept (x := (_, _)) (by assumption) ?_) | (refine cmdEnd_kept ?_)
    | (refine purgeBad_kept ?_) | (refine ausTold_kept ?_) | (refine cmdStatus_kept ?_)
    | (refine Kept.foldl ?_ (fun _ _ _ => ?_)) | (refine Kept.foldl2 ?_ (fun _ _ _ => ?_)) | split

theorem execScEncodePicture_kept {s0 s : State} {a0 : Sc}
    (h : Kept s0 s) : KeptO s0 (execScEncodePicture a0 s) := by
  unfold execScEncodePicture
  repeat' with_reducible first
    | assumption | (refine KeptO.next ?_) | (refine KeptO.ite ?_ ?_) | (refine Kept.ite ?_ ?_)
    | (refine Kept.ite2 ?_ ?_) | (refine submit_kept ?_) | (refine purgeAll_kept ?_)
    | (refine takeCmd_kept (x := (_, _)) (by assumption) ?_) | (refine cmdEnd_kept ?_)
    | (refine strmMod_kept ?_) | (refine Kept.foldl ?_ (fun _ _ _ => ?_))
    | (refine Kept.foldl2 ?_ (fun _ _ _ => ?_)) | split

theorem execScFlush_kept {s0 s : State} {a0 : Sc} (h : Kept s0 s) : KeptO s0 (execScFlush a0 s) := by
  unfold execScFlush
  repeat' with_reducible first
    | assumption | (refine KeptO.next ?_) | (refine KeptO.ite ?_ ?_) | (refine Kept.ite ?_ ?_)
    | (refine Kept.ite2 ?_ ?_) | (refine submit_kept ?_) | (refine dpbFlush_kept ?_)
    | (refine purgeAll_kept ?_) | (refine takeCmd_kept (x := (_, _)) (by assumption) ?_)
    | (refine cmdEnd_kept ?_) | (refine strmMod_kept ?_) | (refine Kept.foldl ?_ (fun _ _ _ => ?_))
    | (refine Kept.foldl2 ?_ (fun _ _ _ => ?_)) | split

theorem execScKeyPicture_kept {s0 s : State} {a0 : Sc}
    (h : Kept s0 s) : KeptO s0 (execScKeyPicture a0 s) := by
  unfold execScKeyPicture
  repeat' with_reducible first
    | assumption | (refine KeptO.next ?_) | (refine KeptO.ite ?_ ?_) | (refine Kept.ite ?_ ?_)
    | (refine Kept.ite2 ?_ ?_) | (refine runCmd_kept ?_ (fun _ _ _ => ?_)) | (refine strmMod_kept ?_)

theorem execScNop_kept {s0 s : State} {a0 : Sc} (h : Kept s0 s) : KeptO s0 (execScNop a0 s) := by
  unfold execScNop
  repeat' with_reducible first
    | assumption | (refine KeptO.next ?_) | (refine KeptO.ite ?_ ?_) | (refine Kept.ite ?_ ?_)
    | (refine Kept.ite2 ?_ ?_) | (refine runCmd_kept ?_ (fun _ _ _ => ?_))

theorem openDo_kept {s0 s : State} {a0 : Nat} {a1 : Nat} {a2 : Bytes} {a3 : Bytes}
    (h : Kept s0 s) : Kept s0 (openDo a0 a1 a2 a3 s) := by
  unfold openDo
  repeat' with_reducible first
    | assumption | (refine Kept.ite ?_ ?_) | (refine Kept.ite2 ?_ ?_) | (refine liveLoadAdd_kept ?_)
    | (refine setScState_kept ?_) | (refine sealWindows_kept ?_) | (refine drawBytes_kept ?_)
    | (refine strmMod_kept ?_)

theorem scOpenRun_kept {s0 s : State} {a0 : Bytes} {a1 : Nat} {a2 : Bytes}
    (h : Kept s0 s) : Kept s0 (scOpenRun a0 a1 a2 s).2 := by
  unfold scOpenRun
  repeat' with_reducible first
    | assumption | (refine Kept.ite ?_ ?_) | (refine Kept.ite2 ?_ ?_) | (refine openDo_kept ?_)
    | (refine strmMod_kept ?_) | (refine Kept.foldl ?_ (fun _ _ _ => ?_))
    | (refine Kept.foldl2 ?_ (fun _ _ _ => ?_)) | split | (dsimp only; split)

theorem execScOpen_kept {s0 s : State} {a0 : Sc} {a1 : Bytes}
    (h : Kept s0 s) : KeptO s0 (execScOpen a0 a1 s) := by
  unfold execScOpen
  repeat' with_reducible first
    | assumption | (refine KeptO.next ?_) | (refine KeptO.ite ?_ ?_) | (refine Kept.ite ?_ ?_)
    | (refine Kept.ite2 ?_ ?_) | (refine scOpenRun_kept ?_) | (refine runCmd_kept ?_ (fun _ _ _ => ?_))

theorem execScQuery_kept {s0 s : State} {a0 : Sc} (h : Kept s0 s) : KeptO s0 (execScQuery a0 s) := by
  unfold execScQuery
  repeat' with_reducible first
    | assumption | (refine KeptO.next ?_) | (refine KeptO.ite ?_ ?_) | (refine Kept.ite ?_ ?_)
    | (refine Kept.ite2 ?_ ?_) | (refine runCmd_kept ?_ (fun _ _ _ => ?_)) | (refine emit_kept ?_)

theorem execScReleaseOutput_kept {s0 s : State} {a0 : Sc}
    (h : Kept s0 s) : KeptO s0 (execScReleaseOutput a0 s) := by
  unfold execScReleaseOutput
  repeat' with_reducible first
    | assumption | (refine KeptO.next ?_) | (refine KeptO.ite ?_ ?_) | (refine Kept.ite ?_ ?_)
    | (refine Kept.ite2 ?_ ?_) | (refine runCmd_kept ?_ (fun _ _ _ => ?_)) | (refine poolPut_kept ?_)
    | (refine strmMod_kept ?_)

theorem setParamsRun_kept {s0 s : State} {a0 : Bytes} {a1 : Nat} {a2 : Bytes}
    (h : Kept s0 s) : Kept s0 (setParamsRun a0 a1 a2 s).2 := by
  unfold setParamsRun
  repeat' with_reducible first
    | assumption | (refine Kept.ite ?_ ?_) | (refine Kept.ite2 ?_ ?_) | (refine budgetTo_kept ?_)
    | (refine strmMod_kept ?_)

theorem execScSetParams_kept {s0 s : State} {a0 : Sc} {a1 : Bytes}
    (h : Kept s0 s) : KeptO s0 (execScSetParams a0 a1 s) := by
  unfold execScSetParams
  repeat' with_reducible first
    | assumption | (refine KeptO.next ?_) | (refine KeptO.ite ?_ ?_) | (refine Kept.ite ?_ ?_)
    | (refine Kept.ite2 ?_ ?_) | (refine setParamsRun_kept ?_) | (refine runCmd_kept ?_ (fun _ _ _ => ?_))

theorem setRcRun_kept {s0 s : State} {a0 : Bytes} {a1 : Nat} {a2 : Bytes}
    (h : Kept s0 s) : Kept s0 (setRcRun a0 a1 a2 s).2 := by
  unfold setRcRun
  repeat' with_reducible first
    | assumption | (refine Kept.ite ?_ ?_) | (refine Kept.ite2 ?_ ?_) | (refine budgetTo_kept ?_)
    | (refine strmMod_kept ?_)

theorem execScSetRc_kept {s0 s : State} {a0 : Sc} {a1 : Bytes}
    (h : Kept s0 s) : KeptO s0 (execScSetRc a0 a1 s) := by
  unfold execScSetRc
  repeat' with_reducible first
    | assumption | (refine KeptO.next ?_) | (refine KeptO.ite ?_ ?_) | (refine Kept.ite ?_ ?_)
    | (refine Kept.ite2 ?_ ?_) | (refine setRcRun_kept ?_) | (refine runCmd_kept ?_ (fun _ _ _ => ?_))

end Sys2Proof.Machine
end

