-- ==== Sys2Proof/Laws/KeptPorts.lean ====
section
/-! SUPPORT. What every operation of the ports, the mesh, the wire, the traffic manager, the tables and the pipeline keeps:
the queue, the memory's canonical form and the fuses that only rise. -/

namespace Sys2Proof.Machine

theorem anAgain_kept {s0 s : State} {a0 : Nat} (h : Kept s0 s) : Kept s0 (anAgain a0 s) := by
  unfold anAgain
  repeat' with_reducible first
    | assumption | (refine Kept.ite ?_ ?_) | (refine Kept.ite2 ?_ ?_) | (refine linkFall_kept ?_)
    | (refine setFlag_kept ?_) | (refine Kept.foldl ?_ (fun _ _ _ => ?_))
    | (refine Kept.foldl2 ?_ (fun _ _ _ => ?_)) | split | (refine Kept.of_parts rfl rfl rfl rfl rfl ?_)

theorem execLinkDown_kept {s0 s : State} {a0 : Port} (h : Kept s0 s) : KeptO s0 (execLinkDown a0 s) := by
  unfold execLinkDown
  repeat' with_reducible first
    | assumption | (refine KeptO.next ?_) | (refine KeptO.ite ?_ ?_) | (refine Kept.ite ?_ ?_)
    | (refine Kept.ite2 ?_ ?_) | (refine anAgain_kept ?_) | (refine linkFall_kept ?_)
    | (refine setFlag_kept ?_)

theorem txtsPop_kept {s0 s : State} {a0 : Nat} (h : Kept s0 s) : Kept s0 (txtsPop a0 s).2 := by
  unfold txtsPop
  repeat' with_reducible first
    | assumption | (refine Kept.ite ?_ ?_) | (refine Kept.ite2 ?_ ?_)
    | (refine Kept.foldl ?_ (fun _ _ _ => ?_)) | (refine Kept.foldl2 ?_ (fun _ _ _ => ?_)) | split
    | (refine Kept.of_parts rfl rfl rfl rfl rfl ?_)

theorem execAnDone_kept {s0 s : State} {a0 : Port} (h : Kept s0 s) : KeptO s0 (execAnDone a0 s) := by
  unfold execAnDone
  repeat' with_reducible first
    | assumption | (refine KeptO.next ?_) | (refine KeptO.ite ?_ ?_) | (refine Kept.ite ?_ ?_)
    | (refine Kept.ite2 ?_ ?_) | (refine setFlag_kept ?_) | (refine Kept.foldl ?_ (fun _ _ _ => ?_))
    | (refine Kept.foldl2 ?_ (fun _ _ _ => ?_)) | split | (refine Kept.of_parts rfl rfl rfl rfl rfl ?_)

theorem macCtrlWrite_kept {s0 s : State} {a0 : Nat} {a1 : Word}
    (h : Kept s0 s) : Kept s0 (macCtrlWrite a0 a1 s) := by
  unfold macCtrlWrite
  repeat' with_reducible first
    | assumption | (refine Kept.ite ?_ ?_) | (refine Kept.ite2 ?_ ?_) | (refine macOn_kept ?_)
    | (refine anAgain_kept ?_) | (refine macOff_kept ?_)

theorem execAnRestart_kept {s0 s : State} {a0 : Fn} {a1 : Port} {a2 : Word}
    (h : Kept s0 s) : KeptO s0 (execAnRestart a0 a1 a2 s) := by
  unfold execAnRestart
  repeat' with_reducible first
    | assumption | (refine KeptO.next ?_) | (refine KeptO.ite ?_ ?_) | (refine Kept.ite ?_ ?_)
    | (refine Kept.ite2 ?_ ?_) | (refine macCtrlWrite_kept ?_) | (refine hostWr_kept ?_ (fun _ _ => ?_))

theorem execFecUncorrCodeword_kept {s0 s : State} {a0 : Port}
    (h : Kept s0 s) : KeptO s0 (execFecUncorrCodeword a0 s) := by
  unfold execFecUncorrCodeword
  repeat' with_reducible first
    | assumption | (refine KeptO.next ?_) | (refine KeptO.ite ?_ ?_) | (refine Kept.ite ?_ ?_)
    | (refine Kept.ite2 ?_ ?_) | (refine setEvent_kept ?_) | (refine macCnt_kept ?_)

theorem txtsPush_kept {s0 s : State} {a0 : Nat} {a1 : Nat} {a2 : Nat} {a3 : Nat}
    (h : Kept s0 s) : Kept s0 (txtsPush a0 a1 a2 a3 s) := by
  unfold txtsPush
  repeat' with_reducible first
    | assumption | (refine Kept.ite ?_ ?_) | (refine Kept.ite2 ?_ ?_)
    | (refine Kept.foldl ?_ (fun _ _ _ => ?_)) | (refine Kept.foldl2 ?_ (fun _ _ _ => ?_)) | split
    | (refine Kept.of_parts rfl rfl rfl rfl rfl ?_)

theorem execLinkUp_kept {s0 s : State} {a0 : Port} (h : Kept s0 s) : KeptO s0 (execLinkUp a0 s) := by
  unfold execLinkUp
  repeat' with_reducible first
    | assumption | (refine KeptO.next ?_) | (refine KeptO.ite ?_ ?_) | (refine Kept.ite ?_ ?_)
    | (refine Kept.ite2 ?_ ?_) | (refine setFlag_kept ?_)

theorem execMacDisable_kept {s0 s : State} {a0 : Fn} {a1 : Port} {a2 : Word}
    (h : Kept s0 s) : KeptO s0 (execMacDisable a0 a1 a2 s) := by
  unfold execMacDisable
  repeat' with_reducible first
    | assumption | (refine KeptO.next ?_) | (refine KeptO.ite ?_ ?_) | (refine Kept.ite ?_ ?_)
    | (refine Kept.ite2 ?_ ?_) | (refine macCtrlWrite_kept ?_) | (refine hostWr_kept ?_ (fun _ _ => ?_))

theorem execMacDrainEnd_kept {s0 s : State} {a0 : Port}
    (h : Kept s0 s) : KeptO s0 (execMacDrainEnd a0 s) := by
  unfold execMacDrainEnd
  repeat' with_reducible first
    | assumption | (refine KeptO.next ?_) | (refine KeptO.ite ?_ ?_) | (refine Kept.ite ?_ ?_)
    | (refine Kept.ite2 ?_ ?_) | (refine macDrained_kept ?_)

theorem execMacEnable_kept {s0 s : State} {a0 : Fn} {a1 : Port} {a2 : Word}
    (h : Kept s0 s) : KeptO s0 (execMacEnable a0 a1 a2 s) := by
  unfold execMacEnable
  repeat' with_reducible first
    | assumption | (refine KeptO.next ?_) | (refine KeptO.ite ?_ ?_) | (refine Kept.ite ?_ ?_)
    | (refine Kept.ite2 ?_ ?_) | (refine macCtrlWrite_kept ?_) | (refine hostWr_kept ?_ (fun _ _ => ?_))

theorem execTxtsPop_kept {s0 s : State} {a0 : Fn} {a1 : Port}
    (h : Kept s0 s) : KeptO s0 (execTxtsPop a0 a1 s) := by
  unfold execTxtsPop
  repeat' with_reducible first
    | assumption | (refine KeptO.next ?_) | (refine KeptO.ite ?_ ?_) | (refine Kept.ite ?_ ?_)
    | (refine Kept.ite2 ?_ ?_) | (refine txtsPop_kept ?_) | (refine hostRd_kept ?_ (fun _ _ => ?_))

theorem ctlSend_kept {s0 s : State} {a0 : Nat} {a1 : Bytes} (h : Kept s0 s) : Kept s0 (ctlSend a0 a1 s) := by
  unfold ctlSend
  repeat' with_reducible first
    | assumption | (refine Kept.ite ?_ ?_) | (refine Kept.ite2 ?_ ?_) | (refine flMod_kept ?_)

theorem linkStateChanged_kept {s0 s : State}  (h : Kept s0 s) : Kept s0 (linkStateChanged s) := by
  unfold linkStateChanged
  repeat' with_reducible first
    | assumption | (refine Kept.ite ?_ ?_) | (refine Kept.ite2 ?_ ?_) | (refine ctlSend_kept ?_)
    | (refine Kept.foldl ?_ (fun _ _ _ => ?_)) | (refine Kept.foldl2 ?_ (fun _ _ _ => ?_)) | split
    | (refine Kept.of_parts rfl rfl rfl rfl rfl ?_)

theorem linkPush_kept {s0 s : State} {a0 : Nat} {a1 : Copy} (h : Kept s0 s) : Kept s0 (linkPush a0 a1 s) := by
  unfold linkPush
  repeat' with_reducible first
    | assumption | (refine Kept.ite ?_ ?_) | (refine Kept.ite2 ?_ ?_) | (refine flMod_kept ?_)

theorem linkAdmit_kept {s0 s : State} {a0 : Nat} {a1 : Copy}
    (h : Kept s0 s) : Kept s0 (linkAdmit a0 a1 s) := by
  unfold linkAdmit
  repeat' with_reducible first
    | assumption | (refine Kept.ite ?_ ?_) | (refine Kept.ite2 ?_ ?_) | (refine linkPush_kept ?_)
    | (refine endCopy_kept ?_) | (refine setShared_kept ?_) | (refine bump_kept ?_)

theorem linkRequeue_kept {s0 s : State} {a0 : Nat} (h : Kept s0 s) : Kept s0 (linkRequeue a0 s) := by
  unfold linkRequeue
  repeat' with_reducible first
    | assumption | (refine Kept.ite ?_ ?_) | (refine Kept.ite2 ?_ ?_) | (refine linkAdmit_kept ?_)
    | (refine endCopy_kept ?_) | (refine setShared_kept ?_) | (refine bump_kept ?_) | (refine flMod_kept ?_)
    | (refine Kept.foldl ?_ (fun _ _ _ => ?_)) | (refine Kept.foldl2 ?_ (fun _ _ _ => ?_)) | split
    | (dsimp only; split)

theorem meshSend_kept {s0 s : State} {a0 : Nat} {a1 : Copy} (h : Kept s0 s) : Kept s0 (meshSend a0 a1 s) := by
  unfold meshSend
  repeat' with_reducible first
    | assumption | (refine Kept.ite ?_ ?_) | (refine Kept.ite2 ?_ ?_) | (refine linkAdmit_kept ?_)
    | (refine endCopy_kept ?_) | (refine bump_kept ?_) | (refine Kept.foldl ?_ (fun _ _ _ => ?_))
    | (refine Kept.foldl2 ?_ (fun _ _ _ => ?_)) | split

theorem setSa_kept {s0 s : State} {a0 : Nat} {a1 : Nat} {a2 : Sa}
    (h : Kept s0 s) : Kept s0 (setSa a0 a1 a2 s) := by
  unfold setSa
  repeat' with_reducible first
    | assumption | (refine Kept.ite ?_ ?_) | (refine Kept.ite2 ?_ ?_)
    | (refine Kept.foldl ?_ (fun _ _ _ => ?_)) | (refine Kept.foldl2 ?_ (fun _ _ _ => ?_)) | split
    | (refine Kept.of_parts rfl rfl rfl rfl rfl ?_)

theorem macsecRx_kept {s0 s : State} {a0 : Nat} {a1 : Bytes}
    (h : Kept s0 s) : Kept s0 (macsecRx a0 a1 s).2 := by
  unfold macsecRx
  repeat' with_reducible first
    | assumption | (refine Kept.ite ?_ ?_) | (refine Kept.ite2 ?_ ?_) | (refine setSa_kept ?_)
    | (refine Kept.foldl ?_ (fun _ _ _ => ?_)) | (refine Kept.foldl2 ?_ (fun _ _ _ => ?_)) | split
    | (dsimp only; split)

theorem macsecTx_kept {s0 s : State} {a0 : Nat} {a1 : Bytes}
    (h : Kept s0 s) : Kept s0 (macsecTx a0 a1 s).2 := by
  unfold macsecTx
  repeat' with_reducible first
    | assumption | (refine Kept.ite ?_ ?_) | (refine Kept.ite2 ?_ ?_) | (refine setSa_kept ?_)
    | (refine macCnt_kept ?_) | (refine Kept.foldl ?_ (fun _ _ _ => ?_))
    | (refine Kept.foldl2 ?_ (fun _ _ _ => ?_)) | split

theorem ptpTx_kept {s0 s : State} {a0 : Nat} {a1 : Nat} {a2 : Nat} {a3 : Nat} {a4 : Bool} {a5 : Bool} {a6 : Bytes}
    (h : Kept s0 s) : Kept s0 (ptpTx a0 a1 a2 a3 a4 a5 a6 s).2 := by
  unfold ptpTx
  repeat' with_reducible first
    | assumption | (refine Kept.ite ?_ ?_) | (refine Kept.ite2 ?_ ?_) | (refine txtsPush_kept ?_)
    | (refine macCnt_kept ?_) | (refine Kept.foldl ?_ (fun _ _ _ => ?_))
    | (refine Kept.foldl2 ?_ (fun _ _ _ => ?_)) | split

theorem setPause_kept {s0 s : State} {a0 : Nat} {a1 : Nat} {a2 : Nat}
    (h : Kept s0 s) : Kept s0 (setPause a0 a1 a2 s) := by
  unfold setPause
  repeat' with_reducible first
    | assumption | (refine Kept.ite ?_ ?_) | (refine Kept.ite2 ?_ ?_) | (refine fset_kept ?_)
    | (refine Kept.foldl ?_ (fun _ _ _ => ?_)) | (refine Kept.foldl2 ?_ (fun _ _ _ => ?_)) | split
    | (refine Kept.of_parts rfl rfl rfl rfl rfl ?_)

theorem pauseTake_kept {s0 s : State} {a0 : Nat} {a1 : PauseFrame}
    (h : Kept s0 s) : Kept s0 (pauseTake a0 a1 s) := by
  unfold pauseTake
  repeat' with_reducible first
    | assumption | (refine Kept.ite ?_ ?_) | (refine Kept.ite2 ?_ ?_) | (refine setPause_kept ?_)
    | (refine macCnt_kept ?_) | (refine Kept.foldl ?_ (fun _ _ _ => ?_))
    | (refine Kept.foldl2 ?_ (fun _ _ _ => ?_)) | split

theorem drrPick_kept {s0 s : State} {r : Nat} {ms : List DrrMember} {x : DrrMember × State} (e : drrPick r ms s = some x)
    (h : Kept s0 s) : Kept s0 x.2 := by
  unfold drrPick at e
  obtain ⟨y, -, rfl⟩ := Option.map_eq_some_iff.1 e
  exact Kept.of_parts rfl rfl rfl rfl rfl h

theorem schedPick_kept {s0 s : State} {p : Nat} {x : Nat × State} (e : schedPick p s = some x)
    (h : Kept s0 s) : Kept s0 x.2 := by
  unfold schedPick at e
  dsimp only at e
  split at e
  · obtain ⟨y, hy, rfl⟩ := Option.map_eq_some_iff.1 e
    exact drrPick_kept hy h
  · obtain ⟨y, hy, e⟩ := Option.bind_eq_some_iff.1 e
    obtain ⟨z, hz, rfl⟩ := Option.map_eq_some_iff.1 e
    exact drrPick_kept hz (drrPick_kept hy h)

theorem startFrame_kept {s0 s : State} {a0 : Nat} {a1 : Nat}
    (h : Kept s0 s) : Kept s0 (startFrame a0 a1 s) := by
  unfold startFrame
  repeat' with_reducible first
    | assumption | (refine Kept.ite ?_ ?_) | (refine Kept.ite2 ?_ ?_) | (refine nodePass_kept ?_)
    | (refine setLeafQueue_kept ?_) | (refine setFlag_kept ?_) | (refine Kept.foldl ?_ (fun _ _ _ => ?_))
    | (refine Kept.foldl2 ?_ (fun _ _ _ => ?_)) | split | (refine Kept.of_parts rfl rfl rfl rfl rfl ?_)

theorem schedule_kept {s0 s : State} {a0 : Nat} (h : Kept s0 s) : Kept s0 (schedule a0 s) := by
  unfold schedule
  repeat' with_reducible first
    | assumption | (refine Kept.ite ?_ ?_) | (refine Kept.ite2 ?_ ?_) | (refine startFrame_kept ?_)
    | (refine schedPick_kept (x := (_, _)) (by assumption) ?_) | (refine Kept.foldl ?_ (fun _ _ _ => ?_))
    | (refine Kept.foldl2 ?_ (fun _ _ _ => ?_)) | split

theorem shapeNote_kept {s0 s : State} {a0 : Nat} {a1 : Fld} {a2 : Fld} {a3 : Fld} {a4 : Nat}
    (h : Kept s0 s) : Kept s0 (shapeNote a0 a1 a2 a3 a4 s) := by
  unfold shapeNote
  repeat' with_reducible first
    | assumption | (refine Kept.ite ?_ ?_) | (refine Kept.ite2 ?_ ?_)
    | (refine Kept.foldl ?_ (fun _ _ _ => ?_)) | (refine Kept.foldl2 ?_ (fun _ _ _ => ?_)) | split
    | (refine Kept.of_parts rfl rfl rfl rfl rfl ?_)

theorem shapeWrite_kept {s0 s : State} {a0 : Reg} {a1 : Nat}
    (h : Kept s0 s) : Kept s0 (shapeWrite a0 a1 s) := by
  unfold shapeWrite
  repeat' with_reducible first
    | assumption | (refine Kept.ite ?_ ?_) | (refine Kept.ite2 ?_ ?_) | (refine shapeNote_kept ?_)
    | (refine Kept.foldl ?_ (fun _ _ _ => ?_)) | (refine Kept.foldl2 ?_ (fun _ _ _ => ?_)) | split

theorem execPauseExpire_kept {s0 s : State} {a0 : Port} {a1 : BitVec 8}
    (h : Kept s0 s) : KeptO s0 (execPauseExpire a0 a1 s) := by
  unfold execPauseExpire
  repeat' with_reducible first
    | assumption | (refine KeptO.next ?_) | (refine KeptO.ite ?_ ?_) | (refine Kept.ite ?_ ?_)
    | (refine Kept.ite2 ?_ ?_) | (refine reachCclk_kept ?_) | (refine setPause_kept ?_)
    | (refine Kept.foldl ?_ (fun _ _ _ => ?_))

theorem execSchedulerSelect_kept {s0 s : State} {a0 : Port}
    (h : Kept s0 s) : KeptO s0 (execSchedulerSelect a0 s) := by
  unfold execSchedulerSelect
  repeat' with_reducible first
    | assumption | (refine KeptO.next ?_) | (refine KeptO.ite ?_ ?_) | (refine Kept.ite ?_ ?_)
    | (refine Kept.ite2 ?_ ?_) | (refine schedule_kept ?_)

theorem execPauseReceive_kept {s0 s : State} {a0 : Port} {a1 : PauseFrame}
    (h : Kept s0 s) : KeptO s0 (execPauseReceive a0 a1 s) := by
  unfold execPauseReceive
  repeat' with_reducible first
    | assumption | (refine KeptO.next ?_) | (refine KeptO.ite ?_ ?_) | (refine Kept.ite ?_ ?_)
    | (refine Kept.ite2 ?_ ?_) | (refine pauseTake_kept ?_) | (refine macCnt_kept ?_)
    | (refine Kept.foldl ?_ (fun _ _ _ => ?_)) | (refine Kept.foldl2 ?_ (fun _ _ _ => ?_)) | split
    | (refine Kept.of_parts rfl rfl rfl rfl rfl ?_)

theorem gateAdvance_kept {s0 s : State} {a0 : Nat} (h : Kept s0 s) : Kept s0 (gateAdvance a0 s) := by
  unfold gateAdvance
  repeat' with_reducible first
    | assumption | (refine Kept.ite ?_ ?_) | (refine Kept.ite2 ?_ ?_) | (refine reachPtp_kept ?_)
    | (refine bump_kept ?_) | (refine Kept.foldl ?_ (fun _ _ _ => ?_))
    | (refine Kept.foldl2 ?_ (fun _ _ _ => ?_)) | split | (refine Kept.of_parts rfl rfl rfl rfl rfl ?_)

theorem execGateEntryAdvance_kept {s0 s : State} {a0 : Port}
    (h : Kept s0 s) : KeptO s0 (execGateEntryAdvance a0 s) := by
  unfold execGateEntryAdvance
  repeat' with_reducible first
    | assumption | (refine KeptO.next ?_) | (refine KeptO.ite ?_ ?_) | (refine Kept.ite ?_ ?_)
    | (refine Kept.ite2 ?_ ?_) | (refine gateAdvance_kept ?_)

theorem refillNode_kept {s0 s : State} {a0 : Nat} {a1 : Fld} {a2 : Fld} {a3 : Fld} {a4 : Nat}
    (h : Kept s0 s) : Kept s0 (refillNode a0 a1 a2 a3 a4 s) := by
  unfold refillNode
  repeat' with_reducible first
    | assumption | (refine Kept.ite ?_ ?_) | (refine Kept.ite2 ?_ ?_)
    | (refine Kept.foldl ?_ (fun _ _ _ => ?_)) | (refine Kept.foldl2 ?_ (fun _ _ _ => ?_)) | split
    | (refine Kept.of_parts rfl rfl rfl rfl rfl ?_)

theorem gclTakeOver_kept {s0 s : State} {a0 : Nat} {a1 : Nat}
    (h : Kept s0 s) : Kept s0 (gclTakeOver a0 a1 s) := by
  unfold gclTakeOver
  repeat' with_reducible first
    | assumption | (refine Kept.ite ?_ ?_) | (refine Kept.ite2 ?_ ?_) | (refine setFlag_kept ?_)
    | (refine fset_kept ?_) | (refine Kept.foldl ?_ (fun _ _ _ => ?_))
    | (refine Kept.foldl2 ?_ (fun _ _ _ => ?_)) | split | (dsimp only; split)
    | (refine Kept.of_parts rfl rfl rfl rfl rfl ?_)

theorem gateTick_kept {s0 s : State} {a0 : Nat} {a1 : Nat} (h : Kept s0 s) : Kept s0 (gateTick a0 a1 s) := by
  unfold gateTick
  repeat' with_reducible first
    | assumption | (refine Kept.ite ?_ ?_) | (refine Kept.ite2 ?_ ?_) | (refine gclTakeOver_kept ?_)
    | (refine bump_kept ?_) | (refine Kept.foldl ?_ (fun _ _ _ => ?_))
    | (refine Kept.foldl2 ?_ (fun _ _ _ => ?_)) | split | (refine Kept.of_parts rfl rfl rfl rfl rfl ?_)

theorem gclArmNow_kept {s0 s : State} {a0 : Nat} (h : Kept s0 s) : Kept s0 (gclArmNow a0 s) := by
  unfold gclArmNow
  repeat' with_reducible first
    | assumption | (refine Kept.ite ?_ ?_) | (refine Kept.ite2 ?_ ?_) | (refine setFlag_kept ?_)
    | (refine fset_kept ?_) | (refine Kept.foldl ?_ (fun _ _ _ => ?_))
    | (refine Kept.foldl2 ?_ (fun _ _ _ => ?_)) | split | (refine Kept.of_parts rfl rfl rfl rfl rfl ?_)

theorem gclCtrlWrite_kept {s0 s : State} {a0 : Nat} {a1 : Word}
    (h : Kept s0 s) : Kept s0 (gclCtrlWrite a0 a1 s) := by
  unfold gclCtrlWrite
  repeat' with_reducible first
    | assumption | (refine Kept.ite ?_ ?_) | (refine Kept.ite2 ?_ ?_) | (refine gclArmNow_kept ?_)
    | (refine setFlag_kept ?_) | (refine fset_kept ?_) | (refine Kept.foldl ?_ (fun _ _ _ => ?_))
    | (refine Kept.foldl2 ?_ (fun _ _ _ => ?_)) | split | (refine Kept.of_parts rfl rfl rfl rfl rfl ?_)

theorem leafFlushNow_kept {s0 s : State} {a0 : Nat} (h : Kept s0 s) : Kept s0 (leafFlushNow a0 s) := by
  unfold leafFlushNow
  repeat' with_reducible first
    | assumption | (refine Kept.ite ?_ ?_) | (refine Kept.ite2 ?_ ?_) | (refine flushQueued_kept ?_)
    | (refine setLeafQueue_kept ?_) | (refine eachCopy_kept ?_ (fun _ _ _ => ?_)) | (refine setFlag_kept ?_)

theorem leafCtrlWrite_kept {s0 s : State} {a0 : Nat} {a1 : Word}
    (h : Kept s0 s) : Kept s0 (leafCtrlWrite a0 a1 s) := by
  unfold leafCtrlWrite
  repeat' with_reducible first
    | assumption | (refine Kept.ite ?_ ?_) | (refine Kept.ite2 ?_ ?_) | (refine leafFlushNow_kept ?_)

theorem egressBytes_kept {s0 s : State} {a0 : Nat} {a1 : Copy}
    (h : Kept s0 s) : Kept s0 (egressBytes a0 a1 s).2 := by
  unfold egressBytes
  repeat' with_reducible first
    | assumption | (refine Kept.ite ?_ ?_) | (refine Kept.ite2 ?_ ?_) | (refine ptpTx_kept ?_)
    | (refine macsecTx_kept ?_) | (refine macCnt_kept ?_)

theorem finishFrame_kept {s0 s : State} {a0 : Nat} (h : Kept s0 s) : Kept s0 (finishFrame a0 s) := by
  unfold finishFrame
  repeat' with_reducible first
    | assumption | (refine Kept.ite ?_ ?_) | (refine Kept.ite2 ?_ ?_) | (refine egressBytes_kept ?_)
    | (refine macCnt_kept ?_) | (refine releaseCells_kept ?_) | (refine postcard_kept ?_)
    | (refine leafCnt_kept ?_) | (refine copyGone_kept ?_) | (refine histCnt_kept ?_) | (refine emit_kept ?_)
    | (refine Kept.foldl ?_ (fun _ _ _ => ?_)) | (refine Kept.foldl2 ?_ (fun _ _ _ => ?_)) | split
    | (dsimp only; split) | (refine Kept.of_parts rfl rfl rfl rfl rfl ?_)

theorem execFrameEgress_kept {s0 s : State} {a0 : Port}
    (h : Kept s0 s) : KeptO s0 (execFrameEgress a0 s) := by
  unfold execFrameEgress
  repeat' with_reducible first
    | assumption | (refine KeptO.next ?_) | (refine KeptO.ite ?_ ?_) | (refine Kept.ite ?_ ?_)
    | (refine Kept.ite2 ?_ ?_) | (refine finishFrame_kept ?_)

theorem execGclArm_kept {s0 s : State} {a0 : Fn} {a1 : Port} {a2 : Word}
    (h : Kept s0 s) : KeptO s0 (execGclArm a0 a1 a2 s) := by
  unfold execGclArm
  repeat' with_reducible first
    | assumption | (refine KeptO.next ?_) | (refine KeptO.ite ?_ ?_) | (refine Kept.ite ?_ ?_)
    | (refine Kept.ite2 ?_ ?_) | (refine gclCtrlWrite_kept ?_) | (refine hostWr_kept ?_ (fun _ _ => ?_))

theorem execGclChange_kept {s0 s : State} {a0 : Port} (h : Kept s0 s) : KeptO s0 (execGclChange a0 s) := by
  unfold execGclChange
  repeat' with_reducible first
    | assumption | (refine KeptO.next ?_) | (refine KeptO.ite ?_ ?_) | (refine Kept.ite ?_ ?_)
    | (refine Kept.ite2 ?_ ?_) | (refine gclTakeOver_kept ?_) | (refine reachPtp_kept ?_)
    | (refine Kept.foldl ?_ (fun _ _ _ => ?_)) | (refine Kept.foldl2 ?_ (fun _ _ _ => ?_)) | split

theorem execGclDisable_kept {s0 s : State} {a0 : Fn} {a1 : Port} {a2 : Word}
    (h : Kept s0 s) : KeptO s0 (execGclDisable a0 a1 a2 s) := by
  unfold execGclDisable
  repeat' with_reducible first
    | assumption | (refine KeptO.next ?_) | (refine KeptO.ite ?_ ?_) | (refine Kept.ite ?_ ?_)
    | (refine Kept.ite2 ?_ ?_) | (refine gclCtrlWrite_kept ?_) | (refine hostWr_kept ?_ (fun _ _ => ?_))

theorem execGclEnable_kept {s0 s : State} {a0 : Fn} {a1 : Port} {a2 : Word}
    (h : Kept s0 s) : KeptO s0 (execGclEnable a0 a1 a2 s) := by
  unfold execGclEnable
  repeat' with_reducible first
    | assumption | (refine KeptO.next ?_) | (refine KeptO.ite ?_ ?_) | (refine Kept.ite ?_ ?_)
    | (refine Kept.ite2 ?_ ?_) | (refine gclCtrlWrite_kept ?_) | (refine hostWr_kept ?_ (fun _ _ => ?_))

theorem execLeafFlush_kept {s0 s : State} {a0 : Fn} {a1 : Leaf} {a2 : Word}
    (h : Kept s0 s) : KeptO s0 (execLeafFlush a0 a1 a2 s) := by
  unfold execLeafFlush
  repeat' with_reducible first
    | assumption | (refine KeptO.next ?_) | (refine KeptO.ite ?_ ?_) | (refine Kept.ite ?_ ?_)
    | (refine Kept.ite2 ?_ ?_) | (refine leafCtrlWrite_kept ?_) | (refine hostWr_kept ?_ (fun _ _ => ?_))

theorem execLeafFlushEnd_kept {s0 s : State} {a0 : Leaf}
    (h : Kept s0 s) : KeptO s0 (execLeafFlushEnd a0 s) := by
  unfold execLeafFlushEnd
  repeat' with_reducible first
    | assumption | (refine KeptO.next ?_) | (refine KeptO.ite ?_ ?_) | (refine Kept.ite ?_ ?_)
    | (refine Kept.ite2 ?_ ?_) | (refine setFlag_kept ?_)

theorem execLeafStall_kept {s0 s : State} {a0 : Leaf} (h : Kept s0 s) : KeptO s0 (execLeafStall a0 s) := by
  unfold execLeafStall
  repeat' with_reducible first
    | assumption | (refine KeptO.next ?_) | (refine KeptO.ite ?_ ?_) | (refine Kept.ite ?_ ?_)
    | (refine Kept.ite2 ?_ ?_) | (refine reachCclk_kept ?_) | (refine riseIf_kept ?_)
    | (refine setFlag_kept ?_) | (refine bump_kept ?_)

theorem refillKind_kept {s0 s : State} {a0 : Nat → Nat} {a1 : Nat} {a2 : Fld} {a3 : Fld} {a4 : Fld}
    (h : Kept s0 s) : Kept s0 (refillKind a0 a1 a2 a3 a4 s) := by
  unfold refillKind
  repeat' with_reducible first
    | assumption | (refine Kept.ite ?_ ?_) | (refine Kept.ite2 ?_ ?_) | (refine refillNode_kept ?_)
    | (refine Kept.foldl ?_ (fun _ _ _ => ?_))

theorem refillAll_kept {s0 s : State}  (h : Kept s0 s) : Kept s0 (refillAll s) := by
  unfold refillAll
  repeat' with_reducible first
    | assumption | (refine Kept.ite ?_ ?_) | (refine Kept.ite2 ?_ ?_) | (refine refillKind_kept ?_)
    | (refine Kept.foldl ?_ (fun _ _ _ => ?_)) | (refine Kept.foldl2 ?_ (fun _ _ _ => ?_)) | split
    | (refine Kept.of_parts rfl rfl rfl rfl rfl ?_)

theorem execShaperRefill_kept {s0 s : State}  (h : Kept s0 s) : KeptO s0 (execShaperRefill s) := by
  unfold execShaperRefill
  repeat' with_reducible first
    | assumption | (refine KeptO.next ?_) | (refine KeptO.ite ?_ ?_) | (refine Kept.ite ?_ ?_)
    | (refine Kept.ite2 ?_ ?_) | (refine refillAll_kept ?_) | (refine reachCclk_kept ?_)
    | (refine Kept.foldl ?_ (fun _ _ _ => ?_)) | (refine Kept.foldl2 ?_ (fun _ _ _ => ?_)) | split
    | (refine Kept.of_parts rfl rfl rfl rfl rfl ?_)

theorem holdEpoch_kept {s0 s : State} {a0 : Nat} {a1 : Nat}
    (h : Kept s0 s) : Kept s0 (holdEpoch a0 a1 s) := by
  unfold holdEpoch
  repeat' with_reducible first
    | assumption | (refine Kept.ite ?_ ?_) | (refine Kept.ite2 ?_ ?_)
    | (refine Kept.foldl ?_ (fun _ _ _ => ?_)) | (refine Kept.foldl2 ?_ (fun _ _ _ => ?_)) | split
    | (refine Kept.of_parts rfl rfl rfl rfl rfl ?_)

theorem learnDefer_kept {s0 s : State} {a0 : LearnReq} (h : Kept s0 s) : Kept s0 (learnDefer a0 s) := by
  unfold learnDefer
  repeat' with_reducible first
    | assumption | (refine Kept.ite ?_ ?_) | (refine Kept.ite2 ?_ ?_) | (refine bump_kept ?_)
    | (refine Kept.foldl ?_ (fun _ _ _ => ?_)) | (refine Kept.foldl2 ?_ (fun _ _ _ => ?_)) | split
    | (refine Kept.of_parts rfl rfl rfl rfl rfl ?_)

theorem execTrieRingTail_kept {s0 s : State} {a0 : Fn} {a1 : TrieSlot} {a2 : Word}
    (h : Kept s0 s) : KeptO s0 (execTrieRingTail a0 a1 a2 s) := by
  unfold execTrieRingTail
  repeat' with_reducible first
    | assumption | (refine KeptO.next ?_) | (refine KeptO.ite ?_ ?_) | (refine Kept.ite ?_ ?_)
    | (refine Kept.ite2 ?_ ?_) | (refine hostWr_kept ?_ (fun _ _ => ?_)) | (refine fset_kept ?_)

theorem bumpEpoch_kept {s0 s : State} {a0 : Nat} (h : Kept s0 s) : Kept s0 (bumpEpoch a0 s) := by
  unfold bumpEpoch
  repeat' with_reducible first
    | assumption | (refine Kept.ite ?_ ?_) | (refine Kept.ite2 ?_ ?_) | (refine bump_kept ?_)

theorem trieBuild_kept {s0 s : State} {a0 : Nat} {a1 : Bool}
    (h : Kept s0 s) : Kept s0 (trieBuild a0 a1 s) := by
  unfold trieBuild
  repeat' with_reducible first
    | assumption | (refine Kept.ite ?_ ?_) | (refine Kept.ite2 ?_ ?_) | (refine bumpEpoch_kept ?_)
    | (refine setEvent_kept ?_) | (refine fset_kept ?_) | (refine Kept.foldl ?_ (fun _ _ _ => ?_))
    | (refine Kept.foldl2 ?_ (fun _ _ _ => ?_)) | split | (refine Kept.of_parts rfl rfl rfl rfl rfl ?_)

theorem sweepEntry_kept {s0 s : State} {a0 : Nat} (h : Kept s0 s) : Kept s0 (sweepEntry a0 s) := by
  unfold sweepEntry
  repeat' with_reducible first
    | assumption | (refine Kept.ite ?_ ?_) | (refine Kept.ite2 ?_ ?_) | (refine bumpEpoch_kept ?_)
    | (refine Kept.foldl ?_ (fun _ _ _ => ?_)) | (refine Kept.foldl2 ?_ (fun _ _ _ => ?_)) | split
    | (refine Kept.of_parts rfl rfl rfl rfl rfl ?_)

theorem sweepBank_kept {s0 s : State} {a0 : Nat} (h : Kept s0 s) : Kept s0 (sweepBank a0 s) := by
  unfold sweepBank
  repeat' with_reducible first
    | assumption | (refine Kept.ite ?_ ?_) | (refine Kept.ite2 ?_ ?_) | (refine sweepEntry_kept ?_)
    | (refine Kept.foldl ?_ (fun _ _ _ => ?_)) | (refine Kept.foldl2 ?_ (fun _ _ _ => ?_)) | split
    | (refine Kept.of_parts rfl rfl rfl rfl rfl ?_)

theorem execL2Sweep_kept {s0 s : State}  (h : Kept s0 s) : KeptO s0 (execL2Sweep s) := by
  unfold execL2Sweep
  repeat' with_reducible first
    | assumption | (refine KeptO.next ?_) | (refine KeptO.ite ?_ ?_) | (refine Kept.ite ?_ ?_)
    | (refine Kept.ite2 ?_ ?_) | (refine sweepBank_kept ?_) | (refine Kept.foldl ?_ (fun _ _ _ => ?_))

theorem setHit_kept {s0 s : State} {a0 : Nat} (h : Kept s0 s) : Kept s0 (setHit a0 s) := by
  unfold setHit
  repeat' with_reducible first
    | assumption | (refine Kept.ite ?_ ?_) | (refine Kept.ite2 ?_ ?_)
    | (refine Kept.foldl ?_ (fun _ _ _ => ?_)) | (refine Kept.foldl2 ?_ (fun _ _ _ => ?_)) | split
    | (refine Kept.of_parts rfl rfl rfl rfl rfl ?_)

theorem commitEntry_kept {s0 s : State} {a0 : Nat} {a1 : Bytes}
    (h : Kept s0 s) : Kept s0 (commitEntry a0 a1 s) := by
  unfold commitEntry
  repeat' with_reducible first
    | assumption | (refine Kept.ite ?_ ?_) | (refine Kept.ite2 ?_ ?_) | (refine bumpEpoch_kept ?_)
    | (refine Kept.foldl ?_ (fun _ _ _ => ?_)) | (refine Kept.foldl2 ?_ (fun _ _ _ => ?_)) | split
    | (refine Kept.of_parts rfl rfl rfl rfl rfl ?_)

theorem learnDo_kept {s0 s : State} {a0 : LearnReq} (h : Kept s0 s) : Kept s0 (learnDo a0 s) := by
  unfold learnDo
  repeat' with_reducible first
    | assumption | (refine Kept.ite ?_ ?_) | (refine Kept.ite2 ?_ ?_) | (refine commitEntry_kept ?_)
    | (refine learnDefer_kept ?_) | (refine bump_kept ?_) | (refine Kept.foldl ?_ (fun _ _ _ => ?_))
    | (refine Kept.foldl2 ?_ (fun _ _ _ => ?_)) | split

theorem bankUnlock_kept {s0 s : State} {a0 : Nat} (h : Kept s0 s) : Kept s0 (bankUnlock a0 s) := by
  unfold bankUnlock
  repeat' with_reducible first
    | assumption | (refine Kept.ite ?_ ?_) | (refine Kept.ite2 ?_ ?_) | (refine learnDo_kept ?_)
    | (refine sweepBank_kept ?_) | (refine setFlag_kept ?_) | (refine Kept.foldl ?_ (fun _ _ _ => ?_))
    | (refine Kept.foldl2 ?_ (fun _ _ _ => ?_)) | split | (refine Kept.of_parts rfl rfl rfl rfl rfl ?_)

theorem tblCtrlWrite_kept {s0 s : State} {a0 : Nat} {a1 : Word}
    (h : Kept s0 s) : Kept s0 (tblCtrlWrite a0 a1 s) := by
  unfold tblCtrlWrite
  repeat' with_reducible first
    | assumption | (refine Kept.ite ?_ ?_) | (refine Kept.ite2 ?_ ?_) | (refine bankUnlock_kept ?_)
    | (refine setFlag_kept ?_)

theorem execTblLock_kept {s0 s : State} {a0 : Fn} {a1 : Bank} {a2 : Word}
    (h : Kept s0 s) : KeptO s0 (execTblLock a0 a1 a2 s) := by
  unfold execTblLock
  repeat' with_reducible first
    | assumption | (refine KeptO.next ?_) | (refine KeptO.ite ?_ ?_) | (refine Kept.ite ?_ ?_)
    | (refine Kept.ite2 ?_ ?_) | (refine tblCtrlWrite_kept ?_) | (refine hostWr_kept ?_ (fun _ _ => ?_))

theorem restUnits_kept {s0 s : State} {a0 : Nat} {a1 : Bytes}
    (h : Kept s0 s) : Kept s0 (restUnits a0 a1 s) := by
  unfold restUnits
  repeat' with_reducible first
    | assumption | (refine Kept.ite ?_ ?_) | (refine Kept.ite2 ?_ ?_)
    | (refine Kept.foldl ?_ (fun _ _ _ => ?_)) | (refine Kept.foldl2 ?_ (fun _ _ _ => ?_)) | split
    | (refine Kept.of_parts rfl rfl rfl rfl rfl ?_)

theorem tableWrite_kept {s0 s : State} {a0 : Nat} {a1 : Nat} {a2 : Bytes}
    (h : Kept s0 s) : Kept s0 (tableWrite a0 a1 a2 s) := by
  unfold tableWrite
  repeat' with_reducible first
    | assumption | (refine Kept.ite ?_ ?_) | (refine Kept.ite2 ?_ ?_) | (refine restUnits_kept ?_)
    | (refine commitEntry_kept ?_) | (refine setFlag_kept ?_) | (refine bump_kept ?_)
    | (refine Kept.foldl ?_ (fun _ _ _ => ?_)) | (refine Kept.foldl2 ?_ (fun _ _ _ => ?_)) | split
    | (refine Kept.of_parts rfl rfl rfl rfl rfl ?_)

theorem execLockActive_kept {s0 s : State} {a0 : Bank} (h : Kept s0 s) : KeptO s0 (execLockActive a0 s) := by
  unfold execLockActive
  repeat' with_reducible first
    | assumption | (refine KeptO.next ?_) | (refine KeptO.ite ?_ ?_) | (refine Kept.ite ?_ ?_)
    | (refine Kept.ite2 ?_ ?_) | (refine setFlag_kept ?_)

theorem execTableWriteCommit_kept {s0 s : State} {a0 : Bank} {a1 : Nat} {a2 : Bytes}
    (h : Kept s0 s) : KeptO s0 (execTableWriteCommit a0 a1 a2 s) := by
  unfold execTableWriteCommit
  repeat' with_reducible first
    | assumption | (refine KeptO.next ?_) | (refine KeptO.ite ?_ ?_) | (refine Kept.ite ?_ ?_)
    | (refine Kept.ite2 ?_ ?_) | (refine tableWrite_kept ?_)

theorem execTblUnlock_kept {s0 s : State} {a0 : Fn} {a1 : Bank} {a2 : Word}
    (h : Kept s0 s) : KeptO s0 (execTblUnlock a0 a1 a2 s) := by
  unfold execTblUnlock
  repeat' with_reducible first
    | assumption | (refine KeptO.next ?_) | (refine KeptO.ite ?_ ?_) | (refine Kept.ite ?_ ?_)
    | (refine Kept.ite2 ?_ ?_) | (refine tblCtrlWrite_kept ?_) | (refine hostWr_kept ?_ (fun _ _ => ?_))

theorem execTrieRecordCommit_kept {s0 s : State} {a0 : TrieSlot} {a1 : Bool}
    (h : Kept s0 s) : KeptO s0 (execTrieRecordCommit a0 a1 s) := by
  unfold execTrieRecordCommit
  repeat' with_reducible first
    | assumption | (refine KeptO.next ?_) | (refine KeptO.ite ?_ ?_) | (refine Kept.ite ?_ ?_)
    | (refine Kept.ite2 ?_ ?_) | (refine trieBuild_kept ?_)

theorem dropHead_kept {s0 s : State} {a0 : Head} (h : Kept s0 s) : Kept s0 (dropHead a0 s) := by
  unfold dropHead
  repeat' with_reducible first
    | assumption | (refine Kept.ite ?_ ?_) | (refine Kept.ite2 ?_ ?_) | (refine postcard_kept ?_)

theorem addCopy_kept {s0 s : State} {a0 : Nat} (h : Kept s0 s) : Kept s0 (addCopy a0 s) := by
  unfold addCopy
  repeat' with_reducible first
    | assumption | (refine Kept.ite ?_ ?_) | (refine Kept.ite2 ?_ ?_)
    | (refine Kept.foldl ?_ (fun _ _ _ => ?_)) | (refine Kept.foldl2 ?_ (fun _ _ _ => ?_)) | split
    | (refine Kept.of_parts rfl rfl rfl rfl rfl ?_)

theorem toPortAny_kept {s0 s : State} {a0 : Copy} {a1 : L3}
    (h : Kept s0 s) : Kept s0 (toPortAny a0 a1 s) := by
  unfold toPortAny
  repeat' with_reducible first
    | assumption | (refine Kept.ite ?_ ?_) | (refine Kept.ite2 ?_ ?_) | (refine schedule_kept ?_)
    | (refine admitCopy_kept ?_) | (refine macCnt_kept ?_) | (refine bump_kept ?_)

theorem toPort_kept {s0 s : State} {a0 : Bool} {a1 : Copy} {a2 : L3}
    (h : Kept s0 s) : Kept s0 (toPort a0 a1 a2 s) := by
  unfold toPort
  repeat' with_reducible first
    | assumption | (refine Kept.ite ?_ ?_) | (refine Kept.ite2 ?_ ?_) | (refine toPortAny_kept ?_)
    | (refine endCopy_kept ?_)

theorem mcastPort_kept {s0 s : State} {a0 : Head} {a1 : L3} {a2 : Nat} {a3 : Nat}
    (h : Kept s0 s) : Kept s0 (mcastPort a0 a1 a2 a3 s) := by
  unfold mcastPort
  repeat' with_reducible first
    | assumption | (refine Kept.ite ?_ ?_) | (refine Kept.ite2 ?_ ?_) | (refine toPort_kept ?_)
    | (refine addCopy_kept ?_) | (refine endCopy_kept ?_) | (refine bump_kept ?_)
    | (refine Kept.foldl ?_ (fun _ _ _ => ?_)) | (refine Kept.foldl2 ?_ (fun _ _ _ => ?_)) | split
    | (dsimp only; split)

theorem toEssence_kept {s0 s : State} {a0 : Head} {a1 : Nat} {a2 : Bool} {a3 : Option (Nat × Nat × Nat)} {a4 : Nat}
    (h : Kept s0 s) : Kept s0 (toEssence a0 a1 a2 a3 a4 s) := by
  unfold toEssence
  repeat' with_reducible first
    | assumption | (refine Kept.ite ?_ ?_) | (refine Kept.ite2 ?_ ?_) | (refine addCopy_kept ?_)
    | (refine endCopy_kept ?_) | (refine bump_kept ?_) | (refine Kept.foldl ?_ (fun _ _ _ => ?_))
    | (refine Kept.foldl2 ?_ (fun _ _ _ => ?_)) | split | (refine Kept.of_parts rfl rfl rfl rfl rfl ?_)

theorem groupCopies_kept {s0 s : State} {a0 : Head} {a1 : L3} {a2 : Nat} {a3 : Nat} {a4 : Bytes} {a5 : List Nat} {a6 : List Nat}
    (h : Kept s0 s) : Kept s0 (groupCopies a0 a1 a2 a3 a4 a5 a6 s) := by
  unfold groupCopies
  repeat' with_reducible first
    | assumption | (refine Kept.ite ?_ ?_) | (refine Kept.ite2 ?_ ?_) | (refine toEssence_kept ?_)
    | (refine meshSend_kept ?_) | (refine mcastPort_kept ?_) | (refine addCopy_kept ?_)
    | (refine Kept.foldl ?_ (fun _ _ _ => ?_))

theorem setHeld_kept {s0 s : State} {a0 : Nat} {a1 : Nat} {a2 : Bool}
    (h : Kept s0 s) : Kept s0 (setHeld a0 a1 a2 s) := by
  unfold setHeld
  repeat' with_reducible first
    | assumption | (refine Kept.ite ?_ ?_) | (refine Kept.ite2 ?_ ?_)
    | (refine Kept.foldl ?_ (fun _ _ _ => ?_)) | (refine Kept.foldl2 ?_ (fun _ _ _ => ?_)) | split
    | (refine Kept.of_parts rfl rfl rfl rfl rfl ?_)

theorem replicateAs_kept {s0 s : State} {a0 : Head} {a1 : L3} {a2 : Nat} {a3 : Bool} {a4 : Option Nat}
    (h : Kept s0 s) : Kept s0 (replicateAs a0 a1 a2 a3 a4 s) := by
  unfold replicateAs
  repeat' with_reducible first
    | assumption | (refine Kept.ite ?_ ?_) | (refine Kept.ite2 ?_ ?_) | (refine setHeld_kept ?_)
    | (refine holdEpoch_kept ?_) | (refine groupCopies_kept ?_) | (refine postcard_kept ?_)
    | (refine setShared_kept ?_) | (refine bump_kept ?_) | (refine Kept.foldl ?_ (fun _ _ _ => ?_))
    | (refine Kept.foldl2 ?_ (fun _ _ _ => ?_)) | split | (refine Kept.of_parts rfl rfl rfl rfl rfl ?_)

theorem replicate_kept {s0 s : State} {a0 : Head} {a1 : L3} {a2 : Nat} {a3 : Bool}
    (h : Kept s0 s) : Kept s0 (replicate a0 a1 a2 a3 s) := by
  unfold replicate
  repeat' with_reducible first
    | assumption | (refine Kept.ite ?_ ?_) | (refine Kept.ite2 ?_ ?_) | (refine replicateAs_kept ?_)

theorem floodHead_kept {s0 s : State} {a0 : Head} {a1 : Parsed} {a2 : Nat}
    (h : Kept s0 s) : Kept s0 (floodHead a0 a1 a2 s) := by
  unfold floodHead
  repeat' with_reducible first
    | assumption | (refine Kept.ite ?_ ?_) | (refine Kept.ite2 ?_ ?_) | (refine replicate_kept ?_)

theorem puntHead_kept {s0 s : State} {a0 : Head} (h : Kept s0 s) : Kept s0 (puntHead a0 s) := by
  unfold puntHead
  repeat' with_reducible first
    | assumption | (refine Kept.ite ?_ ?_) | (refine Kept.ite2 ?_ ?_) | (refine addCopy_kept ?_)
    | (refine postcard_kept ?_) | (refine emit_kept ?_) | (refine bump_kept ?_)
    | (refine Kept.foldl ?_ (fun _ _ _ => ?_)) | (refine Kept.foldl2 ?_ (fun _ _ _ => ?_)) | split
    | (refine Kept.of_parts rfl rfl rfl rfl rfl ?_)

theorem routeMissed_kept {s0 s : State} {a0 : Head} (h : Kept s0 s) : Kept s0 (routeMissed a0 s) := by
  unfold routeMissed
  repeat' with_reducible first
    | assumption | (refine Kept.ite ?_ ?_) | (refine Kept.ite2 ?_ ?_) | (refine dropHead_kept ?_)
    | (refine Kept.foldl ?_ (fun _ _ _ => ?_)) | (refine Kept.foldl2 ?_ (fun _ _ _ => ?_)) | split
    | (refine Kept.of_parts rfl rfl rfl rfl rfl ?_)

theorem routeStage_kept {s0 s : State} {a0 : Head} {a1 : Parsed} {a2 : Nat}
    (h : Kept s0 s) : Kept s0 (routeStage a0 a1 a2 s).2 := by
  unfold routeStage
  repeat' with_reducible first
    | assumption | (refine Kept.ite ?_ ?_) | (refine Kept.ite2 ?_ ?_) | (refine holdEpoch_kept ?_)
    | (refine Kept.foldl ?_ (fun _ _ _ => ?_)) | (refine Kept.foldl2 ?_ (fun _ _ _ => ?_)) | split

theorem unicastVc_kept {s0 s : State} {a0 : Option Nat} {a1 : Nat}
    (h : Kept s0 s) : Kept s0 (unicastVc a0 a1 s).2 := by
  unfold unicastVc
  repeat' with_reducible first
    | assumption | (refine Kept.ite ?_ ?_) | (refine Kept.ite2 ?_ ?_) | (refine freshValue_kept ?_)
    | (refine Kept.foldl ?_ (fun _ _ _ => ?_)) | (refine Kept.foldl2 ?_ (fun _ _ _ => ?_)) | split

theorem toUnicast_kept {s0 s : State} {a0 : Head} {a1 : L3} {a2 : Nat} {a3 : Nat} {a4 : Nat} {a5 : Bool}
    (h : Kept s0 s) : Kept s0 (toUnicast a0 a1 a2 a3 a4 a5 s) := by
  unfold toUnicast
  repeat' with_reducible first
    | assumption | (refine Kept.ite ?_ ?_) | (refine Kept.ite2 ?_ ?_) | (refine unicastVc_kept ?_)
    | (refine meshSend_kept ?_) | (refine toPort_kept ?_) | (refine addCopy_kept ?_) | (refine bump_kept ?_)

theorem toMember_kept {s0 s : State} {a0 : Head} {a1 : Parsed} {a2 : Bool} {a3 : Nat} {a4 : Option Nat} {a5 : Bool}
    (h : Kept s0 s) : Kept s0 (toMember a0 a1 a2 a3 a4 a5 s) := by
  unfold toMember
  repeat' with_reducible first
    | assumption | (refine Kept.ite ?_ ?_) | (refine Kept.ite2 ?_ ?_) | (refine toUnicast_kept ?_)
    | (refine holdEpoch_kept ?_) | (refine dropHead_kept ?_)

theorem toGroup_kept {s0 s : State} {a0 : Head} {a1 : Parsed} {a2 : Bool} {a3 : Nat} {a4 : Option Nat} {a5 : Bool}
    (h : Kept s0 s) : Kept s0 (toGroup a0 a1 a2 a3 a4 a5 s) := by
  unfold toGroup
  repeat' with_reducible first
    | assumption | (refine Kept.ite ?_ ?_) | (refine Kept.ite2 ?_ ?_) | (refine toMember_kept ?_)
    | (refine routeMissed_kept ?_) | (refine holdEpoch_kept ?_)

theorem toRoute_kept {s0 s : State} {a0 : Head} {a1 : Parsed} {a2 : Nat} {a3 : Option Nat} {a4 : Bool}
    (h : Kept s0 s) : Kept s0 (toRoute a0 a1 a2 a3 a4 s) := by
  unfold toRoute
  repeat' with_reducible first
    | assumption | (refine Kept.ite ?_ ?_) | (refine Kept.ite2 ?_ ?_) | (refine toGroup_kept ?_)
    | (refine toMember_kept ?_) | (refine puntHead_kept ?_) | (refine dropHead_kept ?_)
    | (refine Kept.foldl ?_ (fun _ _ _ => ?_)) | (refine Kept.foldl2 ?_ (fun _ _ _ => ?_)) | split

theorem actDefault_kept {s0 s : State} {a0 : Head} {a1 : Parsed} {a2 : Nat} {a3 : Option (Nat × Nat × Nat)} {a4 : Nat} {a5 : Option Nat} {a6 : Bool}
    (h : Kept s0 s) : Kept s0 (actDefault a0 a1 a2 a3 a4 a5 a6 s) := by
  unfold actDefault
  repeat' with_reducible first
    | assumption | (refine Kept.ite ?_ ?_) | (refine Kept.ite2 ?_ ?_) | (refine toRoute_kept ?_)
    | (refine toUnicast_kept ?_) | (refine routeStage_kept ?_) | (refine routeMissed_kept ?_)
    | (refine puntHead_kept ?_) | (refine floodHead_kept ?_) | (refine dropHead_kept ?_)
    | (refine Kept.foldl ?_ (fun _ _ _ => ?_)) | (refine Kept.foldl2 ?_ (fun _ _ _ => ?_)) | split

theorem actEm_kept {s0 s : State} {a0 : Head} {a1 : Parsed} {a2 : Option Bytes} {a3 : Option (Nat × Nat × Nat)} {a4 : Nat}
    (h : Kept s0 s) : Kept s0 (actEm a0 a1 a2 a3 a4 s) := by
  unfold actEm
  repeat' with_reducible first
    | assumption | (refine Kept.ite ?_ ?_) | (refine Kept.ite2 ?_ ?_) | (refine actDefault_kept ?_)
    | (refine toGroup_kept ?_) | (refine toMember_kept ?_) | (refine puntHead_kept ?_)
    | (refine replicate_kept ?_) | (refine toEssence_kept ?_) | (refine dropHead_kept ?_)
    | (refine Kept.foldl ?_ (fun _ _ _ => ?_)) | (refine Kept.foldl2 ?_ (fun _ _ _ => ?_)) | split

theorem newFlight_kept {s0 s : State} {a0 : Nat} {a1 : Bool} {a2 : Bool}
    (h : Kept s0 s) : Kept s0 (newFlight a0 a1 a2 s).2 := by
  unfold newFlight
  repeat' with_reducible first
    | assumption | (refine Kept.ite ?_ ?_) | (refine Kept.ite2 ?_ ?_)
    | (refine Kept.foldl ?_ (fun _ _ _ => ?_)) | (refine Kept.foldl2 ?_ (fun _ _ _ => ?_)) | split
    | (refine Kept.of_parts rfl rfl rfl rfl rfl ?_)

theorem tagDraw_kept {s0 s : State} {a0 : Nat} (h : Kept s0 s) : Kept s0 (tagDraw a0 s).2 := by
  unfold tagDraw
  repeat' with_reducible first
    | assumption | (refine Kept.ite ?_ ?_) | (refine Kept.ite2 ?_ ?_)
    | (refine Kept.foldl ?_ (fun _ _ _ => ?_)) | (refine Kept.foldl2 ?_ (fun _ _ _ => ?_)) | split
    | (refine Kept.of_parts rfl rfl rfl rfl rfl ?_)

theorem learnStage_kept {s0 s : State} {a0 : Head} {a1 : Nat} {a2 : Nat} {a3 : Bool}
    (h : Kept s0 s) : Kept s0 (learnStage a0 a1 a2 a3 s).2 := by
  unfold learnStage
  repeat' with_reducible first
    | assumption | (refine Kept.ite ?_ ?_) | (refine Kept.ite2 ?_ ?_) | (refine learnDefer_kept ?_)
    | (refine bump_kept ?_) | (refine Kept.foldl ?_ (fun _ _ _ => ?_))
    | (refine Kept.foldl2 ?_ (fun _ _ _ => ?_)) | split | (dsimp only; split)
    | (refine Kept.of_parts rfl rfl rfl rfl rfl ?_)

theorem l2Lookup_kept {s0 s : State} {a0 : Head} {a1 : Nat} {a2 : Nat}
    (h : Kept s0 s) : Kept s0 (l2Lookup a0 a1 a2 s).2 := by
  unfold l2Lookup
  repeat' with_reducible first
    | assumption | (refine Kept.ite ?_ ?_) | (refine Kept.ite2 ?_ ?_) | (refine setHit_kept ?_)
    | (refine holdEpoch_kept ?_) | (refine Kept.foldl ?_ (fun _ _ _ => ?_))
    | (refine Kept.foldl2 ?_ (fun _ _ _ => ?_)) | split

theorem bridgeStage_kept {s0 s : State} {a0 : Head} {a1 : Parsed} {a2 : Option Bytes}
    (h : Kept s0 s) : Kept s0 (bridgeStage a0 a1 a2 s).2 := by
  unfold bridgeStage
  repeat' with_reducible first
    | assumption | (refine Kept.ite ?_ ?_) | (refine Kept.ite2 ?_ ?_) | (refine l2Lookup_kept ?_)
    | (refine learnStage_kept ?_) | (refine Kept.foldl ?_ (fun _ _ _ => ?_))
    | (refine Kept.foldl2 ?_ (fun _ _ _ => ?_)) | split

theorem stompCount_kept {s0 s : State} {a0 : Copy} (h : Kept s0 s) : Kept s0 (stompCount a0 s) := by
  unfold stompCount
  repeat' with_reducible first
    | assumption | (refine Kept.ite ?_ ?_) | (refine Kept.ite2 ?_ ?_) | (refine macCnt_kept ?_)
    | (refine bump_kept ?_)

theorem tailCells_kept {s0 s : State} {a0 : Copy} (h : Kept s0 s) : Kept s0 (tailCells a0 s) := by
  unfold tailCells
  repeat' with_reducible first
    | assumption | (refine Kept.ite ?_ ?_) | (refine Kept.ite2 ?_ ?_) | (refine setLeafUni_kept ?_)
    | (refine fset_kept ?_)

theorem tailArrives_kept {s0 s : State} {a0 : Nat} (h : Kept s0 s) : Kept s0 (tailArrives a0 s) := by
  unfold tailArrives
  repeat' with_reducible first
    | assumption | (refine Kept.ite ?_ ?_) | (refine Kept.ite2 ?_ ?_) | (refine tailCells_kept ?_)
    | (refine stompCount_kept ?_) | (refine endCopy_kept ?_) | (refine setLeafQueue_kept ?_)
    | (refine releaseCells_kept ?_) | (refine Kept.foldl ?_ (fun _ _ _ => ?_))
    | (refine Kept.foldl2 ?_ (fun _ _ _ => ?_)) | split | (dsimp only; split)
    | (refine Kept.of_parts rfl rfl rfl rfl rfl ?_)

theorem execCutThroughTail_kept {s0 s : State} {a0 : Port}
    (h : Kept s0 s) : KeptO s0 (execCutThroughTail a0 s) := by
  unfold execCutThroughTail
  repeat' with_reducible first
    | assumption | (refine KeptO.next ?_) | (refine KeptO.ite ?_ ?_) | (refine Kept.ite ?_ ?_)
    | (refine Kept.ite2 ?_ ?_) | (refine tailArrives_kept ?_)

theorem eapolIn_kept {s0 s : State} {a0 : Nat} {a1 : Nat} {a2 : Bytes} {a3 : Bool}
    (h : Kept s0 s) : Kept s0 (eapolIn a0 a1 a2 a3 s) := by
  unfold eapolIn
  repeat' with_reducible first
    | assumption | (refine Kept.ite ?_ ?_) | (refine Kept.ite2 ?_ ?_) | (refine newFlight_kept ?_)
    | (refine puntHead_kept ?_) | (refine macCnt_kept ?_) | (refine copyGone_kept ?_)

theorem emPick_kept {s0 s : State} {a0 : List Nat} (h : Kept s0 s) : Kept s0 (emPick a0 s).2 := by
  unfold emPick
  repeat' with_reducible first
    | assumption | (refine Kept.ite ?_ ?_) | (refine Kept.ite2 ?_ ?_) | (refine freshValue_kept ?_)

theorem emSearch_kept {s0 s : State} {a0 : Head} {a1 : Parsed}
    (h : Kept s0 s) : Kept s0 (emSearch a0 a1 s).2 := by
  unfold emSearch
  repeat' with_reducible first
    | assumption | (refine Kept.ite ?_ ?_) | (refine Kept.ite2 ?_ ?_) | (refine emPick_kept ?_)
    | (refine Kept.foldl ?_ (fun _ _ _ => ?_)) | (refine Kept.foldl2 ?_ (fun _ _ _ => ?_)) | split
    | (dsimp only; split)

theorem sliceRun_kept {s0 s : State} {a0 : Head} (h : Kept s0 s) : Kept s0 (sliceRun a0 s) := by
  unfold sliceRun
  repeat' with_reducible first
    | assumption | (refine Kept.ite ?_ ?_) | (refine Kept.ite2 ?_ ?_) | (refine emSearch_kept ?_)
    | (refine bridgeStage_kept ?_) | (refine setHit_kept ?_) | (refine flowCnt_kept ?_)
    | (refine actEm_kept ?_) | (refine holdEpoch_kept ?_) | (refine copyGone_kept ?_) | (refine bump_kept ?_)
    | (refine Kept.foldl ?_ (fun _ _ _ => ?_)) | (refine Kept.foldl2 ?_ (fun _ _ _ => ?_)) | split

theorem enterSlice_kept {s0 s : State} {a0 : Nat} {a1 : Nat} {a2 : Bytes} {a3 : Bool}
    (h : Kept s0 s) : Kept s0 (enterSlice a0 a1 a2 a3 s) := by
  unfold enterSlice
  repeat' with_reducible first
    | assumption | (refine Kept.ite ?_ ?_) | (refine Kept.ite2 ?_ ?_) | (refine sliceRun_kept ?_)
    | (refine tagDraw_kept ?_) | (refine newFlight_kept ?_)

theorem macRx_kept {s0 s : State} {a0 : Nat} {a1 : Nat} {a2 : Bytes} {a3 : Bool}
    (h : Kept s0 s) : Kept s0 (macRx a0 a1 a2 a3 s) := by
  unfold macRx
  repeat' with_reducible first
    | assumption | (refine Kept.ite ?_ ?_) | (refine Kept.ite2 ?_ ?_) | (refine enterSlice_kept ?_)
    | (refine eapolIn_kept ?_) | (refine macsecRx_kept ?_) | (refine macCnt_kept ?_)
    | (refine Kept.foldl ?_ (fun _ _ _ => ?_)) | (refine Kept.foldl2 ?_ (fun _ _ _ => ?_)) | split
    | (dsimp only; split)

theorem macIngress_kept {s0 s : State} {a0 : Nat} {a1 : Bytes} {a2 : Nat} {a3 : Nat}
    (h : Kept s0 s) : Kept s0 (macIngress a0 a1 a2 a3 s) := by
  unfold macIngress
  repeat' with_reducible first
    | assumption | (refine Kept.ite ?_ ?_) | (refine Kept.ite2 ?_ ?_) | (refine macRx_kept ?_)
    | (refine pauseTake_kept ?_) | (refine macCnt_kept ?_) | (refine Kept.foldl ?_ (fun _ _ _ => ?_))
    | (refine Kept.foldl2 ?_ (fun _ _ _ => ?_)) | split | (refine Kept.of_parts rfl rfl rfl rfl rfl ?_)

theorem execFrameIngress_kept {s0 s : State} {a0 : Port} {a1 : Bytes} {a2 : Nat} {a3 : Nat}
    (h : Kept s0 s) : KeptO s0 (execFrameIngress a0 a1 a2 a3 s) := by
  unfold execFrameIngress
  repeat' with_reducible first
    | assumption | (refine KeptO.next ?_) | (refine KeptO.ite ?_ ?_) | (refine Kept.ite ?_ ?_)
    | (refine Kept.ite2 ?_ ?_) | (refine macIngress_kept ?_) | (refine Kept.foldl ?_ (fun _ _ _ => ?_))
    | (refine Kept.foldl2 ?_ (fun _ _ _ => ?_)) | split | (refine Kept.of_parts rfl rfl rfl rfl rfl ?_)

theorem execL2Learn_kept {s0 s : State}  (h : Kept s0 s) : KeptO s0 (execL2Learn s) := by
  unfold execL2Learn
  repeat' with_reducible first
    | assumption | (refine KeptO.next ?_) | (refine KeptO.ite ?_ ?_) | (refine Kept.ite ?_ ?_)
    | (refine Kept.ite2 ?_ ?_) | (refine learnDo_kept ?_) | (refine newFlight_kept ?_)
    | (refine floodHead_kept ?_) | (refine copyGone_kept ?_) | (refine Kept.foldl ?_ (fun _ _ _ => ?_))
    | (refine Kept.foldl2 ?_ (fun _ _ _ => ?_)) | split | (refine Kept.of_parts rfl rfl rfl rfl rfl ?_)

end Sys2Proof.Machine
end

