-- ==== Sys2Proof/Laws/KeptEssence.lean ====
section
/-! SUPPORT. What every operation of the essence flows keeps:
the queue, the memory's canonical form and the fuses that only rise. -/

namespace Sys2Proof.Machine

theorem giveRowAll_kept {s0 s : State} {a0 : Nat} {a1 : Nat} {a2 : Nat}
    (h : Kept s0 s) : Kept s0 (giveRowAll a0 a1 a2 s) := by
  unfold giveRowAll
  repeat' with_reducible first
    | assumption | (refine Kept.ite ?_ ?_) | (refine Kept.ite2 ?_ ?_) | (refine liveInput_kept ?_)
    | (refine giveRow_kept ?_) | (refine releaseSlot_kept ?_) | (refine setSlot_kept ?_)
    | (refine freeSlot_kept ?_) | (refine Kept.foldl ?_ (fun _ _ _ => ?_))
    | (refine Kept.foldl2 ?_ (fun _ _ _ => ?_)) | split

theorem auFinish_kept {s0 s : State} {a0 : Nat} (h : Kept s0 s) : Kept s0 (auFinish a0 s) := by
  unfold auFinish
  repeat' with_reducible first
    | assumption | (refine Kept.ite ?_ ?_) | (refine Kept.ite2 ?_ ?_) | (refine writeMem_kept ?_)
    | (refine liveInput_kept ?_) | (refine poolAsk_kept ?_) | (refine fFlowMod_kept ?_)
    | (refine poolPut_kept ?_) | (refine strmMod_kept ?_) | (refine Kept.foldl ?_ (fun _ _ _ => ?_))
    | (refine Kept.foldl2 ?_ (fun _ _ _ => ?_)) | split | (dsimp only; split)

theorem auNal_kept {s0 s : State} {a0 : Nat} {a1 : Bytes} (h : Kept s0 s) : Kept s0 (auNal a0 a1 s) := by
  unfold auNal
  repeat' with_reducible first
    | assumption | (refine Kept.ite ?_ ?_) | (refine Kept.ite2 ?_ ?_) | (refine fFlowMod_kept ?_)

theorem codedTake_kept {s0 s : State} {a0 : Nat} {a1 : Bool} {a2 : Nat} {a3 : Bytes}
    (h : Kept s0 s) : Kept s0 (codedTake a0 a1 a2 a3 s) := by
  unfold codedTake
  repeat' with_reducible first
    | assumption | (refine Kept.ite ?_ ?_) | (refine Kept.ite2 ?_ ?_) | (refine auNal_kept ?_)
    | (refine auFinish_kept ?_) | (refine fFlowMod_kept ?_) | (refine Kept.foldl ?_ (fun _ _ _ => ?_))
    | (refine Kept.foldl2 ?_ (fun _ _ _ => ?_)) | split | (dsimp only; split)

theorem codedRun_kept {s0 s : State} {c n : Nat} (h : Kept s0 s) : Kept s0 (codedRun c n s) := by
  induction n generalizing s with
  | zero => exact h
  | succ n ih =>
    unfold codedRun
    dsimp only
    split
    · exact ih (codedTake_kept (fFlowMod_kept h))
    · exact Kept.ite h (fFlowMod_kept h)

theorem gapNote_kept {s0 s : State} {a0 : Nat} {a1 : Nat} {a2 : Nat} {a3 : Nat}
    (h : Kept s0 s) : Kept s0 (gapNote a0 a1 a2 a3 s) := by
  unfold gapNote
  repeat' with_reducible first
    | assumption | (refine Kept.ite ?_ ?_) | (refine Kept.ite2 ?_ ?_) | (refine fFlowMod_kept ?_)

theorem picMod_kept {s0 s : State} {a0 : Nat} {a1 : Nat} {a2 : EssPic → EssPic}
    (h : Kept s0 s) : Kept s0 (picMod a0 a1 a2 s) := by
  unfold picMod
  repeat' with_reducible first
    | assumption | (refine Kept.ite ?_ ?_) | (refine Kept.ite2 ?_ ?_) | (refine fFlowMod_kept ?_)

theorem takeSlot_kept {s0 s : State} {a0 : Nat} {a1 : Nat} {a2 : Nat}
    (h : Kept s0 s) : Kept s0 (takeSlot a0 a1 a2 s) := by
  unfold takeSlot
  repeat' with_reducible first
    | assumption | (refine Kept.ite ?_ ?_) | (refine Kept.ite2 ?_ ?_) | (refine setSlot_kept ?_)
    | (refine Kept.foldl ?_ (fun _ _ _ => ?_))

theorem storeSrd_kept {s0 s : State} {a0 : Nat} {a1 : Nat} {a2 : Srd}
    (h : Kept s0 s) : Kept s0 (storeSrd a0 a1 a2 s) := by
  unfold storeSrd
  repeat' with_reducible first
    | assumption | (refine Kept.ite ?_ ?_) | (refine Kept.ite2 ?_ ?_) | (refine takeSlot_kept ?_)
    | (refine picMod_kept ?_)

theorem awaitPic_kept {s0 s : State} {a0 : Nat} {a1 : Rtp}
    (h : Kept s0 s) : Kept s0 (awaitPic a0 a1 s).2 := by
  unfold awaitPic
  repeat' with_reducible first
    | assumption | (refine Kept.ite ?_ ?_) | (refine Kept.ite2 ?_ ?_) | (refine fFlowMod_kept ?_)

theorem newPic_kept {s0 s : State} {a0 : Nat} {a1 : Nat} {a2 : Nat}
    (h : Kept s0 s) : Kept s0 (newPic a0 a1 a2 s) := by
  unfold newPic
  repeat' with_reducible first
    | assumption | (refine Kept.ite ?_ ?_) | (refine Kept.ite2 ?_ ?_) | (refine fFlowMod_kept ?_)
    | (refine fxSet_kept ?_)

theorem noContext_kept {s0 s : State} {a0 : EssCopy} (h : Kept s0 s) : Kept s0 (noContext a0 s) := by
  unfold noContext
  repeat' with_reducible first
    | assumption | (refine Kept.ite ?_ ?_) | (refine Kept.ite2 ?_ ?_) | (refine actDefault_kept ?_)
    | (refine endCopy_kept ?_) | (refine setEvent_kept ?_) | (refine copyGone_kept ?_) | (refine bump_kept ?_)

theorem stageLine_kept {s0 s : State} {a0 : Nat} {a1 : Nat} {a2 : Nat} {a3 : Nat} {a4 : List Nat} {a5 : Nat → Nat → Nat}
    (h : Kept s0 s) : Kept s0 (stageLine a0 a1 a2 a3 a4 a5 s) := by
  unfold stageLine
  repeat' with_reducible first
    | assumption | (refine Kept.ite ?_ ?_) | (refine Kept.ite2 ?_ ?_) | (refine setValid_kept ?_)
    | (refine winWrite_kept ?_) | (refine Kept.foldl ?_ (fun _ _ _ => ?_))

theorem completeRow_kept {s0 s : State} {a0 : Nat} {a1 : Nat} {a2 : Nat} {a3 : List (List Nat)}
    (h : Kept s0 s) : Kept s0 (completeRow a0 a1 a2 a3 s) := by
  unfold completeRow
  repeat' with_reducible first
    | assumption | (refine Kept.ite ?_ ?_) | (refine Kept.ite2 ?_ ?_) | (refine stageLine_kept ?_)
    | (refine Kept.foldl ?_ (fun _ _ _ => ?_))

theorem gapsLost_kept {s0 s : State} {a0 : Nat} (h : Kept s0 s) : Kept s0 (gapsLost a0 s) := by
  unfold gapsLost
  repeat' with_reducible first
    | assumption | (refine Kept.ite ?_ ?_) | (refine Kept.ite2 ?_ ?_) | (refine fCnt_kept ?_)
    | (refine fFlowMod_kept ?_)

theorem picDone_kept {s0 s : State} {a0 : Nat} {a1 : Nat} (h : Kept s0 s) : Kept s0 (picDone a0 a1 s) := by
  unfold picDone
  repeat' with_reducible first
    | assumption | (refine Kept.ite ?_ ?_) | (refine Kept.ite2 ?_ ?_) | (refine gapsLost_kept ?_)
    | (refine fCnt_kept ?_) | (refine fFlowMod_kept ?_) | (refine Kept.foldl ?_ (fun _ _ _ => ?_))
    | (refine Kept.foldl2 ?_ (fun _ _ _ => ?_)) | split

theorem moveLine_kept {s0 s : State} {a0 : Nat} {a1 : Nat} {a2 : Nat}
    (h : Kept s0 s) : Kept s0 (moveLine a0 a1 a2 s) := by
  unfold moveLine
  repeat' with_reducible first
    | assumption | (refine Kept.ite ?_ ?_) | (refine Kept.ite2 ?_ ?_) | (refine picDone_kept ?_)
    | (refine gapsLost_kept ?_) | (refine completeRow_kept ?_) | (refine stageLine_kept ?_)
    | (refine hbmAsk_kept ?_) | (refine takeSlot_kept ?_) | (refine picMod_kept ?_)
    | (refine giveRowAll_kept ?_) | (refine fCnt_kept ?_) | (refine setSlot_kept ?_)
    | (refine Kept.foldl ?_ (fun _ _ _ => ?_)) | (refine Kept.foldl2 ?_ (fun _ _ _ => ?_)) | split
    | (dsimp only; split)

theorem execLineToSlot_kept {s0 s : State} {a0 : Ctx} (h : Kept s0 s) : KeptO s0 (execLineToSlot a0 s) := by
  unfold execLineToSlot
  repeat' with_reducible first
    | assumption | (refine KeptO.next ?_) | (refine KeptO.ite ?_ ?_) | (refine Kept.ite ?_ ?_)
    | (refine Kept.ite2 ?_ ?_) | (refine moveLine_kept ?_) | (refine Kept.foldl ?_ (fun _ _ _ => ?_))
    | (refine Kept.foldl2 ?_ (fun _ _ _ => ?_)) | split

theorem codedRoom_kept {s0 s : State} {c n k : Nat} (h : Kept s0 s) : Kept s0 (codedRoom c n k s) := by
  induction k generalizing s with
  | zero => exact h
  | succ k ih =>
    unfold codedRoom
    extract_lets f
    clear_value f
    split
    · exact h
    · exact Kept.ite h (ih (setEvent_kept (fCnt_kept (fFlowMod_kept h))))

theorem storeCoded_kept {s0 s : State} {a0 : Nat} {a1 : Nat} {a2 : Rtp}
    (h : Kept s0 s) : Kept s0 (storeCoded a0 a1 a2 s) := by
  unfold storeCoded
  repeat' with_reducible first
    | assumption | (refine Kept.ite ?_ ?_) | (refine Kept.ite2 ?_ ?_) | (refine codedRoom_kept ?_)
    | (refine hbmAsk_kept ?_) | (refine codedRun_kept ?_) | (refine fFlowMod_kept ?_) | (refine fxSet_kept ?_)

theorem directLine_kept {s0 s : State} {a0 : Nat} {a1 : Nat} {a2 : Nat}
    (h : Kept s0 s) : Kept s0 (directLine a0 a1 a2 s) := by
  unfold directLine
  repeat' with_reducible first
    | assumption | (refine Kept.ite ?_ ?_) | (refine Kept.ite2 ?_ ?_) | (refine moveLine_kept ?_)
    | (refine Kept.foldl ?_ (fun _ _ _ => ?_)) | (refine Kept.foldl2 ?_ (fun _ _ _ => ?_)) | split

theorem closeLine_kept {s0 s : State} {a0 : Nat} {a1 : Nat} {a2 : Nat}
    (h : Kept s0 s) : Kept s0 (closeLine a0 a1 a2 s) := by
  unfold closeLine
  repeat' with_reducible first
    | assumption | (refine Kept.ite ?_ ?_) | (refine Kept.ite2 ?_ ?_) | (refine directLine_kept ?_)
    | (refine picMod_kept ?_)

theorem ringRoom_kept {s0 s : State} {c n k : Nat} (h : Kept s0 s) : Kept s0 (ringRoom c n k s) := by
  induction k generalizing s with
  | zero => exact h
  | succ k ih =>
    unfold ringRoom
    refine Kept.ite h ?_
    split
    · exact h
    · exact ih (setEvent_kept (fCnt_kept (picMod_kept h)))

theorem storePic_kept {s0 s : State} {a0 : Nat} {a1 : Nat} {a2 : Nat} {a3 : Rtp}
    (h : Kept s0 s) : Kept s0 (storePic a0 a1 a2 a3 s) := by
  unfold storePic
  repeat' with_reducible first
    | assumption | (refine Kept.ite ?_ ?_) | (refine Kept.ite2 ?_ ?_) | (refine ringRoom_kept ?_)
    | (refine closeLine_kept ?_) | (refine newPic_kept ?_) | (refine hbmAsk_kept ?_)
    | (refine storeSrd_kept ?_) | (refine picMod_kept ?_) | (refine gapNote_kept ?_)
    | (refine fFlowMod_kept ?_) | (refine fxSet_kept ?_) | (refine Kept.foldl ?_ (fun _ _ _ => ?_))
    | (refine Kept.foldl2 ?_ (fun _ _ _ => ?_)) | split

theorem mergeCopy_kept {s0 s : State} {a0 : Nat} {a1 : Rtp}
    (h : Kept s0 s) : Kept s0 (mergeCopy a0 a1 s) := by
  unfold mergeCopy
  repeat' with_reducible first
    | assumption | (refine Kept.ite ?_ ?_) | (refine Kept.ite2 ?_ ?_) | (refine storePic_kept ?_)
    | (refine storeCoded_kept ?_) | (refine fCnt_kept ?_)

theorem rocTake_kept {s0 s : State} {a0 : Nat} {a1 : Nat} {a2 : Nat}
    (h : Kept s0 s) : Kept s0 (rocTake a0 a1 a2 s) := by
  unfold rocTake
  repeat' with_reducible first
    | assumption | (refine Kept.ite ?_ ?_) | (refine Kept.ite2 ?_ ?_) | (refine fFlowMod_kept ?_)
    | (refine fxSet_kept ?_)

theorem srtpIn_kept {s0 s : State} {a0 : Nat} {a1 : Rtp} (h : Kept s0 s) : Kept s0 (srtpIn a0 a1 s).2 := by
  unfold srtpIn
  repeat' with_reducible first
    | assumption | (refine Kept.ite ?_ ?_) | (refine Kept.ite2 ?_ ?_) | (refine rocTake_kept ?_)
    | (refine fCnt_kept ?_) | (refine setEvent_kept ?_) | (refine fFlowMod_kept ?_)
    | (refine Kept.foldl ?_ (fun _ _ _ => ?_)) | (refine Kept.foldl2 ?_ (fun _ _ _ => ?_)) | split
    | (dsimp only; split)

theorem ingestCopy_kept {s0 s : State} {c : Nat} {e : EssCopy}
    (h : Kept s0 s) : Kept s0 (ingestCopy c e s) := by
  unfold ingestCopy
  refine Kept.ite (fCnt_kept h) ?_
  split
  · exact fCnt_kept h
  · rename_i r _
    have hp := srtpIn_kept (a0 := c) (a1 := r) h
    split <;> rename_i e1 <;> rw [e1] at hp
    · exact hp
    · exact Kept.ite (fCnt_kept hp) (Kept.ite (fCnt_kept (awaitPic_kept hp)) (mergeCopy_kept (awaitPic_kept hp)))

theorem essTake_kept {s0 s : State} {a0 : EssCopy} (h : Kept s0 s) : Kept s0 (essTake a0 s) := by
  unfold essTake
  repeat' with_reducible first
    | assumption | (refine Kept.ite ?_ ?_) | (refine Kept.ite2 ?_ ?_) | (refine ingestCopy_kept ?_)
    | (refine noContext_kept ?_) | (refine fCnt_kept ?_) | (refine endCopy_kept ?_)

theorem execEssenceCopy_kept {s0 s : State} {a0 : Fin 8}
    (h : Kept s0 s) : KeptO s0 (execEssenceCopy a0 s) := by
  unfold execEssenceCopy
  repeat' with_reducible first
    | assumption | (refine KeptO.next ?_) | (refine KeptO.ite ?_ ?_) | (refine Kept.ite ?_ ?_)
    | (refine Kept.ite2 ?_ ?_) | (refine essTake_kept ?_) | (refine Kept.foldl ?_ (fun _ _ _ => ?_))
    | (refine Kept.foldl2 ?_ (fun _ _ _ => ?_)) | split | (refine Kept.of_parts rfl rfl rfl rfl rfl ?_)

theorem codedGiveUp_kept {s0 s : State} {a0 : Nat} (h : Kept s0 s) : Kept s0 (codedGiveUp a0 s) := by
  unfold codedGiveUp
  repeat' with_reducible first
    | assumption | (refine Kept.ite ?_ ?_) | (refine Kept.ite2 ?_ ?_) | (refine codedRun_kept ?_)
    | (refine fCnt_kept ?_) | (refine fFlowMod_kept ?_) | (refine Kept.foldl ?_ (fun _ _ _ => ?_))
    | (refine Kept.foldl2 ?_ (fun _ _ _ => ?_)) | split | (dsimp only; split)

theorem execLineDeadline_kept {s0 s : State} {a0 : Ctx} {a1 : Nat}
    (h : Kept s0 s) : KeptO s0 (execLineDeadline a0 a1 s) := by
  unfold execLineDeadline
  repeat' with_reducible first
    | assumption | (refine KeptO.next ?_) | (refine KeptO.ite ?_ ?_) | (refine Kept.ite ?_ ?_)
    | (refine Kept.ite2 ?_ ?_) | (refine codedGiveUp_kept ?_) | (refine closeLine_kept ?_)
    | (refine reachCclk_kept ?_) | (refine Kept.foldl ?_ (fun _ _ _ => ?_))
    | (refine Kept.foldl2 ?_ (fun _ _ _ => ?_)) | split

theorem execPictureClose_kept {s0 s : State} {a0 : Ctx}
    (h : Kept s0 s) : KeptO s0 (execPictureClose a0 s) := by
  unfold execPictureClose
  repeat' with_reducible first
    | assumption | (refine KeptO.next ?_) | (refine KeptO.ite ?_ ?_) | (refine Kept.ite ?_ ?_)
    | (refine Kept.ite2 ?_ ?_) | (refine closeLine_kept ?_) | (refine Kept.foldl ?_ (fun _ _ _ => ?_))
    | (refine Kept.foldl2 ?_ (fun _ _ _ => ?_)) | split

theorem execSlotRelease_kept {s0 s : State} {a0 : Eng} {a1 : Win} {a2 : Nat}
    (h : Kept s0 s) : KeptO s0 (execSlotRelease a0 a1 a2 s) := by
  unfold execSlotRelease
  repeat' with_reducible first
    | assumption | (refine KeptO.next ?_) | (refine KeptO.ite ?_ ?_) | (refine Kept.ite ?_ ?_)
    | (refine Kept.ite2 ?_ ?_) | (refine flushEngine_kept ?_) | (refine releaseSlot_kept ?_)
    | (refine Kept.foldl ?_ (fun _ _ _ => ?_)) | (refine Kept.foldl2 ?_ (fun _ _ _ => ?_)) | split

theorem codedSkip_kept {s0 s : State} {a0 : Nat} {a1 : List NalPos}
    (h : Kept s0 s) : Kept s0 (codedSkip a0 a1 s) := by
  unfold codedSkip
  repeat' with_reducible first
    | assumption | (refine Kept.ite ?_ ?_) | (refine Kept.ite2 ?_ ?_) | (refine fFlowMod_kept ?_)

theorem codedPay_kept {s0 s : State} {a0 : Nat} {a1 : Nat} (h : Kept s0 s) : Kept s0 (codedPay a0 a1 s) := by
  unfold codedPay
  repeat' with_reducible first
    | assumption | (refine Kept.ite ?_ ?_) | (refine Kept.ite2 ?_ ?_) | (refine fFlowMod_kept ?_)

theorem egressDone_kept {s0 s : State} {a0 : Nat} (h : Kept s0 s) : Kept s0 (egressDone a0 s) := by
  unfold egressDone
  repeat' with_reducible first
    | assumption | (refine Kept.ite ?_ ?_) | (refine Kept.ite2 ?_ ?_) | (refine releaseSlot_kept ?_)
    | (refine Kept.foldl ?_ (fun _ _ _ => ?_)) | (refine Kept.foldl2 ?_ (fun _ _ _ => ?_)) | split

theorem keyTurn_kept {s0 s : State} {a0 : Nat} (h : Kept s0 s) : Kept s0 (keyTurn a0 s) := by
  unfold keyTurn
  repeat' with_reducible first
    | assumption | (refine Kept.ite ?_ ?_) | (refine Kept.ite2 ?_ ?_) | (refine fFlowMod_kept ?_)
    | (refine Kept.foldl ?_ (fun _ _ _ => ?_)) | (refine Kept.foldl2 ?_ (fun _ _ _ => ?_)) | split
    | (refine Kept.of_parts rfl rfl rfl rfl rfl ?_)

theorem egrSend_kept {s0 s : State} {a0 : Nat} {a1 : Nat} {a2 : Bytes}
    (h : Kept s0 s) : Kept s0 (egrSend a0 a1 a2 s) := by
  unfold egrSend
  repeat' with_reducible first
    | assumption | (refine Kept.ite ?_ ?_) | (refine Kept.ite2 ?_ ?_) | (refine tagDraw_kept ?_)
    | (refine newFlight_kept ?_) | (refine flowCnt_kept ?_) | (refine toRoute_kept ?_)
    | (refine toMember_kept ?_) | (refine routeStage_kept ?_) | (refine routeMissed_kept ?_)
    | (refine puntHead_kept ?_) | (refine replicateAs_kept ?_) | (refine dropHead_kept ?_)
    | (refine copyGone_kept ?_) | (refine Kept.foldl ?_ (fun _ _ _ => ?_))
    | (refine Kept.foldl2 ?_ (fun _ _ _ => ?_)) | split

theorem nextSeqOut_kept {s0 s : State} {a0 : Nat} (h : Kept s0 s) : Kept s0 (nextSeqOut a0 s).2 := by
  unfold nextSeqOut
  repeat' with_reducible first
    | assumption | (refine Kept.ite ?_ ?_) | (refine Kept.ite2 ?_ ?_) | (refine freshValue_kept ?_)
    | (refine Kept.foldl ?_ (fun _ _ _ => ?_)) | (refine Kept.foldl2 ?_ (fun _ _ _ => ?_)) | split

theorem rtpSend_kept {s0 s : State} {a0 : Nat} {a1 : Nat} {a2 : Bool} {a3 : Nat → Bytes}
    (h : Kept s0 s) : Kept s0 (rtpSend a0 a1 a2 a3 s) := by
  unfold rtpSend
  repeat' with_reducible first
    | assumption | (refine Kept.ite ?_ ?_) | (refine Kept.ite2 ?_ ?_) | (refine nextSeqOut_kept ?_)
    | (refine egrSend_kept ?_) | (refine fCnt_kept ?_) | (refine fFlowMod_kept ?_) | (refine fxSet_kept ?_)

theorem slotsMoved_kept {s0 s : State} {a0 : Nat} (h : Kept s0 s) : Kept s0 (slotsMoved a0 s) := by
  unfold slotsMoved
  repeat' with_reducible first
    | assumption | (refine Kept.ite ?_ ?_) | (refine Kept.ite2 ?_ ?_) | (refine flushEngine_kept ?_)

theorem egressPacket_kept {s0 s : State} {a0 : Nat} (h : Kept s0 s) : Kept s0 (egressPacket a0 s) := by
  unfold egressPacket
  repeat' with_reducible first
    | assumption | (refine Kept.ite ?_ ?_) | (refine Kept.ite2 ?_ ?_) | (refine slotsMoved_kept ?_)
    | (refine rtpSend_kept ?_) | (refine reachPtp_kept ?_) | (refine keyTurn_kept ?_) | (refine fCnt_kept ?_)
    | (refine egressDone_kept ?_) | (refine fFlowMod_kept ?_) | (refine fxSet_kept ?_)
    | (refine releaseSlot_kept ?_) | (refine Kept.foldl ?_ (fun _ _ _ => ?_))
    | (refine Kept.foldl2 ?_ (fun _ _ _ => ?_)) | split | (dsimp only; split)

theorem execEgressPacketDue_kept {s0 s : State} {a0 : Ctx}
    (h : Kept s0 s) : KeptO s0 (execEgressPacketDue a0 s) := by
  unfold execEgressPacketDue
  repeat' with_reducible first
    | assumption | (refine KeptO.next ?_) | (refine KeptO.ite ?_ ?_) | (refine Kept.ite ?_ ?_)
    | (refine Kept.ite2 ?_ ?_) | (refine egressPacket_kept ?_)

theorem essArgPut_kept {s0 s : State} {a0 : Bytes} (h : Kept s0 s) : Kept s0 (essArgPut a0 s) := by
  unfold essArgPut
  repeat' with_reducible first
    | assumption | (refine Kept.ite ?_ ?_) | (refine Kept.ite2 ?_ ?_) | (refine fset_kept ?_)
    | (refine Kept.foldl ?_ (fun _ _ _ => ?_))

theorem keyLoad_kept {s0 s : State} {a0 : Nat} (h : Kept s0 s) : Kept s0 (keyLoad a0 s) := by
  unfold keyLoad
  repeat' with_reducible first
    | assumption | (refine Kept.ite ?_ ?_) | (refine Kept.ite2 ?_ ?_)
    | (refine Kept.foldl ?_ (fun _ _ _ => ?_)) | (refine Kept.foldl2 ?_ (fun _ _ _ => ?_)) | split
    | (refine Kept.of_parts rfl rfl rfl rfl rfl ?_)

theorem essBindDo_kept {s0 s : State} {a0 : Nat} (h : Kept s0 s) : Kept s0 (essBindDo a0 s).2 := by
  unfold essBindDo
  repeat' with_reducible first
    | assumption | (refine Kept.ite ?_ ?_) | (refine Kept.ite2 ?_ ?_) | (refine unsealWindows_kept ?_)
    | (refine sealWindows_kept ?_) | (refine keyLoad_kept ?_) | (refine Kept.foldl ?_ (fun _ _ _ => ?_))
    | (refine Kept.foldl2 ?_ (fun _ _ _ => ?_)) | split | (refine Kept.of_parts rfl rfl rfl rfl rfl ?_)

theorem essEnableDo_kept {s0 s : State} {a0 : Nat} (h : Kept s0 s) : Kept s0 (essEnableDo a0 s) := by
  unfold essEnableDo
  repeat' with_reducible first
    | assumption | (refine Kept.ite ?_ ?_) | (refine Kept.ite2 ?_ ?_) | (refine flowDiscard_kept ?_)
    | (refine fFlowMod_kept ?_) | (refine fFlag_kept ?_)

theorem clearCounters_kept {s0 s : State} {a0 : Nat} (h : Kept s0 s) : Kept s0 (clearCounters a0 s) := by
  unfold clearCounters
  repeat' with_reducible first
    | assumption | (refine Kept.ite ?_ ?_) | (refine Kept.ite2 ?_ ?_) | (refine cntSet_kept ?_)
    | (refine Kept.foldl ?_ (fun _ _ _ => ?_))

theorem essOpenDo_kept {s0 s : State}  (h : Kept s0 s) : Kept s0 (essOpenDo s).2 := by
  unfold essOpenDo
  repeat' with_reducible first
    | assumption | (refine Kept.ite ?_ ?_) | (refine Kept.ite2 ?_ ?_) | (refine clearCounters_kept ?_)
    | (refine sealWindows_kept ?_) | (refine keyLoad_kept ?_) | (refine setEvent_kept ?_)
    | (refine bump_kept ?_) | (refine fset_kept ?_) | (refine Kept.foldl ?_ (fun _ _ _ => ?_))
    | (refine Kept.foldl2 ?_ (fun _ _ _ => ?_)) | split | (refine Kept.of_parts rfl rfl rfl rfl rfl ?_)

theorem essRekeyDo_kept {s0 s : State} {a0 : Nat} (h : Kept s0 s) : Kept s0 (essRekeyDo a0 s).2 := by
  unfold essRekeyDo
  repeat' with_reducible first
    | assumption | (refine Kept.ite ?_ ?_) | (refine Kept.ite2 ?_ ?_) | (refine fFlowMod_kept ?_)
    | (refine fxSet_kept ?_) | (refine Kept.foldl ?_ (fun _ _ _ => ?_))
    | (refine Kept.foldl2 ?_ (fun _ _ _ => ?_)) | split | (refine Kept.of_parts rfl rfl rfl rfl rfl ?_)

theorem essResult_kept {s0 s : State} {a0 : Nat} {a1 : Nat}
    (h : Kept s0 s) : Kept s0 (essResult a0 a1 s) := by
  unfold essResult
  repeat' with_reducible first
    | assumption | (refine Kept.ite ?_ ?_) | (refine Kept.ite2 ?_ ?_) | (refine fset_kept ?_)

theorem essCommand_kept {s0 s : State} {a0 : Nat} (h : Kept s0 s) : Kept s0 (essCommand a0 s) := by
  unfold essCommand
  repeat' with_reducible first
    | assumption | (refine Kept.ite ?_ ?_) | (refine Kept.ite2 ?_ ?_) | (refine essShut_kept ?_)
    | (refine essResult_kept ?_) | (refine essRekeyDo_kept ?_) | (refine essOpenDo_kept ?_)
    | (refine essOff_kept ?_) | (refine essEnableDo_kept ?_) | (refine essBindDo_kept ?_)
    | (refine essArgPut_kept ?_) | (refine slotsMoved_kept ?_) | (refine fFlag_kept ?_)
    | (refine Kept.foldl ?_ (fun _ _ _ => ?_)) | (refine Kept.foldl2 ?_ (fun _ _ _ => ?_)) | split

theorem essCmdWrite_kept {s0 s : State} {a0 : Nat} (h : Kept s0 s) : Kept s0 (essCmdWrite a0 s) := by
  unfold essCmdWrite
  repeat' with_reducible first
    | assumption | (refine Kept.ite ?_ ?_) | (refine Kept.ite2 ?_ ?_) | (refine essCommand_kept ?_)

theorem execEssOpen_kept {s0 s : State} {a0 : Fn} {a1 : Word}
    (h : Kept s0 s) : KeptO s0 (execEssOpen a0 a1 s) := by
  unfold execEssOpen
  repeat' with_reducible first
    | assumption | (refine KeptO.next ?_) | (refine KeptO.ite ?_ ?_) | (refine Kept.ite ?_ ?_)
    | (refine Kept.ite2 ?_ ?_) | (refine hostWr_kept ?_ (fun _ _ => ?_)) | (refine essCmdWrite_kept ?_)

theorem execEssRead_kept {s0 s : State} {a0 : Fn} {a1 : Word}
    (h : Kept s0 s) : KeptO s0 (execEssRead a0 a1 s) := by
  unfold execEssRead
  repeat' with_reducible first
    | assumption | (refine KeptO.next ?_) | (refine KeptO.ite ?_ ?_) | (refine Kept.ite ?_ ?_)
    | (refine Kept.ite2 ?_ ?_) | (refine hostWr_kept ?_ (fun _ _ => ?_)) | (refine essCmdWrite_kept ?_)

theorem codedWait_kept {s0 s : State} {a0 : Nat} {a1 : Nat}
    (h : Kept s0 s) : Kept s0 (codedWait a0 a1 s) := by
  unfold codedWait
  repeat' with_reducible first
    | assumption | (refine Kept.ite ?_ ?_) | (refine Kept.ite2 ?_ ?_) | (refine reachPtp_kept ?_)

theorem codedSend_kept {s0 s : State} {a0 : Nat} {a1 : NalPos} {a2 : Bool} {a3 : Bytes} {a4 : Nat} {a5 : Bool}
    (h : Kept s0 s) : Kept s0 (codedSend a0 a1 a2 a3 a4 a5 s) := by
  unfold codedSend
  repeat' with_reducible first
    | assumption | (refine Kept.ite ?_ ?_) | (refine Kept.ite2 ?_ ?_) | (refine codedWait_kept ?_)
    | (refine rtpSend_kept ?_) | (refine keyTurn_kept ?_) | (refine fCnt_kept ?_) | (refine codedPay_kept ?_)
    | (refine fFlowMod_kept ?_) | (refine fxSet_kept ?_)

theorem codedNal_kept {s0 s : State} {a0 : Nat} {a1 : Nat} {a2 : NalPos}
    (h : Kept s0 s) : Kept s0 (codedNal a0 a1 a2 s) := by
  unfold codedNal
  repeat' with_reducible first
    | assumption | (refine Kept.ite ?_ ?_) | (refine Kept.ite2 ?_ ?_) | (refine codedSend_kept ?_)

theorem essDrained_kept {s0 s : State} {a0 : Nat} (h : Kept s0 s) : Kept s0 (essDrained a0 s) := by
  unfold essDrained
  repeat' with_reducible first
    | assumption | (refine Kept.ite ?_ ?_) | (refine Kept.ite2 ?_ ?_) | (refine essEnableDo_kept ?_)
    | (refine unsealWindows_kept ?_) | (refine fSetState_kept ?_) | (refine essFree_kept ?_)

theorem execEssDrainEnd_kept {s0 s : State} {a0 : Ctx} (h : Kept s0 s) : KeptO s0 (execEssDrainEnd a0 s) := by
  unfold execEssDrainEnd
  repeat' with_reducible first
    | assumption | (refine KeptO.next ?_) | (refine KeptO.ite ?_ ?_) | (refine Kept.ite ?_ ?_)
    | (refine Kept.ite2 ?_ ?_) | (refine essDrained_kept ?_)

theorem execEssEnable_kept {s0 s : State} {a0 : Fn} {a1 : Word}
    (h : Kept s0 s) : KeptO s0 (execEssEnable a0 a1 s) := by
  unfold execEssEnable
  repeat' with_reducible first
    | assumption | (refine KeptO.next ?_) | (refine KeptO.ite ?_ ?_) | (refine Kept.ite ?_ ?_)
    | (refine Kept.ite2 ?_ ?_) | (refine hostWr_kept ?_ (fun _ _ => ?_)) | (refine essCmdWrite_kept ?_)

theorem codedPacket_kept {s0 s : State} {a0 : Nat} (h : Kept s0 s) : Kept s0 (codedPacket a0 s) := by
  unfold codedPacket
  repeat' with_reducible first
    | assumption | (refine Kept.ite ?_ ?_) | (refine Kept.ite2 ?_ ?_) | (refine codedNal_kept ?_)
    | (refine fCnt_kept ?_) | (refine codedSkip_kept ?_) | (refine fFlowMod_kept ?_)
    | (refine Kept.foldl ?_ (fun _ _ _ => ?_)) | (refine Kept.foldl2 ?_ (fun _ _ _ => ?_)) | split
    | (dsimp only; split)

theorem execCodedPacketSend_kept {s0 s : State} {a0 : Ctx}
    (h : Kept s0 s) : KeptO s0 (execCodedPacketSend a0 s) := by
  unfold execCodedPacketSend
  repeat' with_reducible first
    | assumption | (refine KeptO.next ?_) | (refine KeptO.ite ?_ ?_) | (refine Kept.ite ?_ ?_)
    | (refine Kept.ite2 ?_ ?_) | (refine codedPacket_kept ?_)

theorem execEgressPicTrunc_kept {s0 s : State} {a0 : Ctx}
    (h : Kept s0 s) : KeptO s0 (execEgressPicTrunc a0 s) := by
  unfold execEgressPicTrunc
  repeat' with_reducible first
    | assumption | (refine KeptO.next ?_) | (refine KeptO.ite ?_ ?_) | (refine Kept.ite ?_ ?_)
    | (refine Kept.ite2 ?_ ?_) | (refine slotsMoved_kept ?_) | (refine reachPtp_kept ?_)
    | (refine fCnt_kept ?_) | (refine egressDone_kept ?_) | (refine fFlowMod_kept ?_)

theorem execEssBind_kept {s0 s : State} {a0 : Fn} {a1 : Word}
    (h : Kept s0 s) : KeptO s0 (execEssBind a0 a1 s) := by
  unfold execEssBind
  repeat' with_reducible first
    | assumption | (refine KeptO.next ?_) | (refine KeptO.ite ?_ ?_) | (refine Kept.ite ?_ ?_)
    | (refine Kept.ite2 ?_ ?_) | (refine hostWr_kept ?_ (fun _ _ => ?_)) | (refine essCmdWrite_kept ?_)

theorem execEssClose_kept {s0 s : State} {a0 : Fn} {a1 : Word}
    (h : Kept s0 s) : KeptO s0 (execEssClose a0 a1 s) := by
  unfold execEssClose
  repeat' with_reducible first
    | assumption | (refine KeptO.next ?_) | (refine KeptO.ite ?_ ?_) | (refine Kept.ite ?_ ?_)
    | (refine Kept.ite2 ?_ ?_) | (refine hostWr_kept ?_ (fun _ _ => ?_)) | (refine essCmdWrite_kept ?_)

theorem execEssDisable_kept {s0 s : State} {a0 : Fn} {a1 : Word}
    (h : Kept s0 s) : KeptO s0 (execEssDisable a0 a1 s) := by
  unfold execEssDisable
  repeat' with_reducible first
    | assumption | (refine KeptO.next ?_) | (refine KeptO.ite ?_ ?_) | (refine Kept.ite ?_ ?_)
    | (refine Kept.ite2 ?_ ?_) | (refine hostWr_kept ?_ (fun _ _ => ?_)) | (refine essCmdWrite_kept ?_)

theorem execEssRekey_kept {s0 s : State} {a0 : Fn} {a1 : Word}
    (h : Kept s0 s) : KeptO s0 (execEssRekey a0 a1 s) := by
  unfold execEssRekey
  repeat' with_reducible first
    | assumption | (refine KeptO.next ?_) | (refine KeptO.ite ?_ ?_) | (refine Kept.ite ?_ ?_)
    | (refine Kept.ite2 ?_ ?_) | (refine hostWr_kept ?_ (fun _ _ => ?_)) | (refine essCmdWrite_kept ?_)

theorem execSrtpOldKeyExpire_kept {s0 s : State} {a0 : Ctx}
    (h : Kept s0 s) : KeptO s0 (execSrtpOldKeyExpire a0 s) := by
  unfold execSrtpOldKeyExpire
  repeat' with_reducible first
    | assumption | (refine KeptO.next ?_) | (refine KeptO.ite ?_ ?_) | (refine Kept.ite ?_ ?_)
    | (refine Kept.ite2 ?_ ?_) | (refine reachPtp_kept ?_) | (refine fFlowMod_kept ?_)
    | (refine Kept.foldl ?_ (fun _ _ _ => ?_)) | (refine Kept.foldl2 ?_ (fun _ _ _ => ?_)) | split
    | (refine Kept.of_parts rfl rfl rfl rfl rfl ?_)

end Sys2Proof.Machine
end

