-- ==== Sys2Proof/Laws/KeptMemory.lean ====
section
/-! SUPPORT. What every operation of the device memory, the copy channels, the interrupts, the host link and the resets keeps:
the queue, the memory's canonical form and the fuses that only rise. -/

namespace Sys2Proof.Machine

theorem winRelease_kept {s0 s : State} {a0 : Nat} (h : Kept s0 s) : Kept s0 (winRelease a0 s) := by
  unfold winRelease
  repeat' with_reducible first
    | assumption | (refine Kept.ite ?_ ?_) | (refine Kept.ite2 ?_ ?_) | (refine setFlag_kept ?_)
    | (refine fset_kept ?_) | (refine Kept.foldl ?_ (fun _ _ _ => ?_))
    | (refine Kept.foldl2 ?_ (fun _ _ _ => ?_)) | split | (refine Kept.of_parts rfl rfl rfl rfl rfl ?_)

theorem winCtrl_kept {s0 s : State} {a0 : Nat} {a1 : Nat} {a2 : Word}
    (h : Kept s0 s) : Kept s0 (winCtrl a0 a1 a2 s) := by
  unfold winCtrl
  repeat' with_reducible first
    | assumption | (refine Kept.ite ?_ ?_) | (refine Kept.ite2 ?_ ?_) | (refine winRelease_kept ?_)
    | (refine setFlag_kept ?_) | (refine fset_kept ?_) | (refine Kept.foldl ?_ (fun _ _ _ => ?_))
    | (refine Kept.foldl2 ?_ (fun _ _ _ => ?_)) | split | (refine Kept.of_parts rfl rfl rfl rfl rfl ?_)

theorem hbmZero_kept {s0 s : State}  (h : Kept s0 s) : Kept s0 (hbmZero s) := by
  unfold hbmZero
  repeat' with_reducible first
    | assumption | (refine Kept.ite ?_ ?_) | (refine Kept.ite2 ?_ ?_) | (refine zeroMem_kept ?_)
    | (refine Kept.foldl ?_ (fun _ _ _ => ?_)) | (refine Kept.foldl2 ?_ (fun _ _ _ => ?_)) | split
    | (refine Kept.of_parts rfl rfl rfl rfl rfl ?_)

theorem execBackgroundOverrun_kept {s0 s : State} {a0 : Fin 8}
    (h : Kept s0 s) : KeptO s0 (execBackgroundOverrun a0 s) := by
  unfold execBackgroundOverrun
  repeat' with_reducible first
    | assumption | (refine KeptO.next ?_) | (refine KeptO.ite ?_ ?_) | (refine Kept.ite ?_ ?_)
    | (refine Kept.ite2 ?_ ?_) | (refine haspRise_kept ?_) | (refine Kept.foldl ?_ (fun _ _ _ => ?_))
    | (refine Kept.foldl2 ?_ (fun _ _ _ => ?_)) | split | (refine Kept.of_parts rfl rfl rfl rfl rfl ?_)

theorem poolRequest_kept {s0 s : State} {a0 : Nat} {a1 : Word}
    (h : Kept s0 s) : Kept s0 (poolRequest a0 a1 s) := by
  unfold poolRequest
  repeat' with_reducible first
    | assumption | (refine Kept.ite ?_ ?_) | (refine Kept.ite2 ?_ ?_) | (refine poolAsk_kept ?_)
    | (refine fset_kept ?_)

theorem poolReturn_kept {s0 s : State} {a0 : Nat} {a1 : Nat}
    (h : Kept s0 s) : Kept s0 (poolReturn a0 a1 s) := by
  unfold poolReturn
  repeat' with_reducible first
    | assumption | (refine Kept.ite ?_ ?_) | (refine Kept.ite2 ?_ ?_) | (refine haspRise_kept ?_)
    | (refine setEvent_kept ?_) | (refine poolPut_kept ?_) | (refine bump_kept ?_) | (refine fset_kept ?_)
    | (refine Kept.foldl ?_ (fun _ _ _ => ?_)) | (refine Kept.foldl2 ?_ (fun _ _ _ => ?_)) | split

theorem winCfg_kept {s0 s : State} {a0 : Nat} {a1 : Nat} {a2 : Word}
    (h : Kept s0 s) : Kept s0 (winCfg a0 a1 a2 s) := by
  unfold winCfg
  repeat' with_reducible first
    | assumption | (refine Kept.ite ?_ ?_) | (refine Kept.ite2 ?_ ?_) | (refine fset_kept ?_)

theorem execHbmCorrectableError_kept {s0 s : State} {a0 : Nat}
    (h : Kept s0 s) : KeptO s0 (execHbmCorrectableError a0 s) := by
  unfold execHbmCorrectableError
  repeat' with_reducible first
    | assumption | (refine KeptO.next ?_) | (refine KeptO.ite ?_ ?_) | (refine Kept.ite ?_ ?_)
    | (refine Kept.ite2 ?_ ?_) | (refine haspRise_kept ?_) | (refine bump_kept ?_)

theorem execHbmInitDone_kept {s0 s : State}  (h : Kept s0 s) : KeptO s0 (execHbmInitDone s) := by
  unfold execHbmInitDone
  repeat' with_reducible first
    | assumption | (refine KeptO.next ?_) | (refine KeptO.ite ?_ ?_) | (refine Kept.ite ?_ ?_)
    | (refine Kept.ite2 ?_ ?_) | (refine hbmZero_kept ?_) | (refine setFlag_kept ?_)

theorem execHbmUncorrectableError_kept {s0 s : State} {a0 : Nat}
    (h : Kept s0 s) : KeptO s0 (execHbmUncorrectableError a0 s) := by
  unfold execHbmUncorrectableError
  repeat' with_reducible first
    | assumption | (refine KeptO.next ?_) | (refine KeptO.ite ?_ ?_) | (refine Kept.ite ?_ ?_)
    | (refine Kept.ite2 ?_ ?_) | (refine haspRise_kept ?_) | (refine setEvent_kept ?_) | (refine bump_kept ?_)
    | (refine fset_kept ?_) | (refine Kept.foldl ?_ (fun _ _ _ => ?_))
    | (refine Kept.foldl2 ?_ (fun _ _ _ => ?_)) | split | (refine Kept.of_parts rfl rfl rfl rfl rfl ?_)

theorem execPoolRequest_kept {s0 s : State} {a0 : Fn} {a1 : Word}
    (h : Kept s0 s) : KeptO s0 (execPoolRequest a0 a1 s) := by
  unfold execPoolRequest
  repeat' with_reducible first
    | assumption | (refine KeptO.next ?_) | (refine KeptO.ite ?_ ?_) | (refine Kept.ite ?_ ?_)
    | (refine Kept.ite2 ?_ ?_) | (refine poolRequest_kept ?_) | (refine hbmAsk_kept ?_)
    | (refine hostWr_kept ?_ (fun _ _ => ?_))

theorem execPoolReturn_kept {s0 s : State} {a0 : Fn} {a1 : Word}
    (h : Kept s0 s) : KeptO s0 (execPoolReturn a0 a1 s) := by
  unfold execPoolReturn
  repeat' with_reducible first
    | assumption | (refine KeptO.next ?_) | (refine KeptO.ite ?_ ?_) | (refine Kept.ite ?_ ?_)
    | (refine Kept.ite2 ?_ ?_) | (refine poolReturn_kept ?_) | (refine hbmAsk_kept ?_)
    | (refine hostWr_kept ?_ (fun _ _ => ?_))

theorem execSramError_kept {s0 s : State} {a0 : Fin 5} {a1 : Bool}
    (h : Kept s0 s) : KeptO s0 (execSramError a0 a1 s) := by
  unfold execSramError
  repeat' with_reducible first
    | assumption | (refine KeptO.next ?_) | (refine KeptO.ite ?_ ?_) | (refine Kept.ite ?_ ?_)
    | (refine Kept.ite2 ?_ ?_) | (refine haspRise_kept ?_) | (refine bump_kept ?_)

theorem execWinAlloc_kept {s0 s : State} {a0 : Fn} {a1 : Eng} {a2 : Win} {a3 : Word}
    (h : Kept s0 s) : KeptO s0 (execWinAlloc a0 a1 a2 a3 s) := by
  unfold execWinAlloc
  repeat' with_reducible first
    | assumption | (refine KeptO.next ?_) | (refine KeptO.ite ?_ ?_) | (refine Kept.ite ?_ ?_)
    | (refine Kept.ite2 ?_ ?_) | (refine winCtrl_kept ?_) | (refine hostWr_kept ?_ (fun _ _ => ?_))

theorem execWinCfgWrite_kept {s0 s : State} {a0 : Fn} {a1 : Eng} {a2 : Win} {a3 : Word}
    (h : Kept s0 s) : KeptO s0 (execWinCfgWrite a0 a1 a2 a3 s) := by
  unfold execWinCfgWrite
  repeat' with_reducible first
    | assumption | (refine KeptO.next ?_) | (refine KeptO.ite ?_ ?_) | (refine Kept.ite ?_ ?_)
    | (refine Kept.ite2 ?_ ?_) | (refine winCfg_kept ?_) | (refine hostWr_kept ?_ (fun _ _ => ?_))

theorem execWinFree_kept {s0 s : State} {a0 : Fn} {a1 : Eng} {a2 : Win} {a3 : Word}
    (h : Kept s0 s) : KeptO s0 (execWinFree a0 a1 a2 a3 s) := by
  unfold execWinFree
  repeat' with_reducible first
    | assumption | (refine KeptO.next ?_) | (refine KeptO.ite ?_ ?_) | (refine Kept.ite ?_ ?_)
    | (refine Kept.ite2 ?_ ?_) | (refine winCtrl_kept ?_) | (refine hostWr_kept ?_ (fun _ _ => ?_))

theorem dcOn_kept {s0 s : State} {a0 : Nat} (h : Kept s0 s) : Kept s0 (dcOn a0 s) := by
  unfold dcOn
  repeat' with_reducible first
    | assumption | (refine Kept.ite ?_ ?_) | (refine Kept.ite2 ?_ ?_) | (refine dcStart_kept ?_)
    | (refine dcEnable_kept ?_) | (refine setFlag_kept ?_)

theorem hingeSoon_kept {s0 s : State} {a0 : Nat} (h : Kept s0 s) : Kept s0 (hingeSoon a0 s) := by
  unfold hingeSoon
  repeat' with_reducible first
    | assumption | (refine Kept.ite ?_ ?_) | (refine Kept.ite2 ?_ ?_) | (refine chanMod_kept ?_)

theorem dcResume_kept {s0 s : State} {a0 : Nat} (h : Kept s0 s) : Kept s0 (dcResume a0 s) := by
  unfold dcResume
  repeat' with_reducible first
    | assumption | (refine Kept.ite ?_ ?_) | (refine Kept.ite2 ?_ ?_) | (refine hingeSoon_kept ?_)
    | (refine setFlag_kept ?_)

theorem dcCtrl_kept {s0 s : State} {a0 : Nat} {a1 : Word} (h : Kept s0 s) : Kept s0 (dcCtrl a0 a1 s) := by
  unfold dcCtrl
  repeat' with_reducible first
    | assumption | (refine Kept.ite ?_ ?_) | (refine Kept.ite2 ?_ ?_) | (refine dcResume_kept ?_)
    | (refine hingeSoon_kept ?_) | (refine dcOn_kept ?_) | (refine dcOff_kept ?_) | (refine setFlag_kept ?_)
    | (refine fset_kept ?_)

theorem execDcEnable_kept {s0 s : State} {a0 : Fn} {a1 : Chan} {a2 : Word}
    (h : Kept s0 s) : KeptO s0 (execDcEnable a0 a1 a2 s) := by
  unfold execDcEnable
  repeat' with_reducible first
    | assumption | (refine KeptO.next ?_) | (refine KeptO.ite ?_ ?_) | (refine Kept.ite ?_ ?_)
    | (refine Kept.ite2 ?_ ?_) | (refine dcCtrl_kept ?_) | (refine hostWr_kept ?_ (fun _ _ => ?_))

theorem hinge_kept {s0 s : State} {a0 : Nat} (h : Kept s0 s) : Kept s0 (hinge a0 s) := by
  unfold hinge
  repeat' with_reducible first
    | assumption | (refine Kept.ite ?_ ?_) | (refine Kept.ite2 ?_ ?_) | (refine reachCclk_kept ?_)
    | (refine setDesc_kept ?_) | (refine dmaRecord_kept ?_) | (refine chanMod_kept ?_)
    | (refine setFlag_kept ?_) | (refine bump_kept ?_)

theorem execHinge_kept {s0 s : State} {a0 : Chan} (h : Kept s0 s) : KeptO s0 (execHinge a0 s) := by
  unfold execHinge
  repeat' with_reducible first
    | assumption | (refine KeptO.next ?_) | (refine KeptO.ite ?_ ?_) | (refine Kept.ite ?_ ?_)
    | (refine Kept.ite2 ?_ ?_) | (refine hinge_kept ?_)

theorem dcDrained_kept {s0 s : State} {a0 : Nat} (h : Kept s0 s) : Kept s0 (dcDrained a0 s) := by
  unfold dcDrained
  repeat' with_reducible first
    | assumption | (refine Kept.ite ?_ ?_) | (refine Kept.ite2 ?_ ?_) | (refine dcStart_kept ?_)
    | (refine setFlag_kept ?_)

theorem execDcResume_kept {s0 s : State} {a0 : Fn} {a1 : Chan} {a2 : Word}
    (h : Kept s0 s) : KeptO s0 (execDcResume a0 a1 a2 s) := by
  unfold execDcResume
  repeat' with_reducible first
    | assumption | (refine KeptO.next ?_) | (refine KeptO.ite ?_ ?_) | (refine Kept.ite ?_ ?_)
    | (refine Kept.ite2 ?_ ?_) | (refine dcCtrl_kept ?_) | (refine hostWr_kept ?_ (fun _ _ => ?_))

theorem gateLine_kept {s0 s : State} {a0 : Nat} {a1 : Bytes}
    (h : Kept s0 s) : Kept s0 (gateLine a0 a1 s) := by
  unfold gateLine
  repeat' with_reducible first
    | assumption | (refine Kept.ite ?_ ?_) | (refine Kept.ite2 ?_ ?_) | (refine setFlag_kept ?_)
    | (refine Kept.foldl ?_ (fun _ _ _ => ?_)) | (refine Kept.foldl2 ?_ (fun _ _ _ => ?_)) | split
    | (refine Kept.of_parts rfl rfl rfl rfl rfl ?_)

theorem tableLine_kept {s0 s : State} {b off : Nat} {v : Bytes}
    (h : Kept s0 s) : Kept s0 (tableLine b off v s) := by
  unfold tableLine
  dsimp only
  suffices ∀ (l : List Nat) (x : State × Nat), Kept s0 x.1 → Kept s0 (l.foldl (fun (x : State × Nat) k =>
      if 0 < x.2 then (x.1, x.2 - 1)
      else (tableWrite b (off / max 1 (entSize b) + k) ((v.drop ((off / max 1 (entSize b) + k) * max 1 (entSize b) - off)).take
        ((if (off / max 1 (entSize b) + k) * max 1 (entSize b) < off then max 1 (entSize b)
          else entLen b (v.drop ((off / max 1 (entSize b) + k) * max 1 (entSize b) - off))) -
            (off - (off / max 1 (entSize b) + k) * max 1 (entSize b)))) x.1,
        (if (off / max 1 (entSize b) + k) * max 1 (entSize b) < off then max 1 (entSize b)
          else entLen b (v.drop ((off / max 1 (entSize b) + k) * max 1 (entSize b) - off))) / max 1 (entSize b) - 1)) x).1 from
    this _ _ h
  intro l
  induction l with
  | nil => exact fun _ h => h
  | cons k r ih =>
    intro x hx
    refine ih _ ?_
    dsimp only
    split
    · exact hx
    · exact tableWrite_kept hx

theorem devWrite_kept {s0 s : State} {a0 : Nat} {a1 : Bytes}
    (h : Kept s0 s) : Kept s0 (devWrite a0 a1 s) := by
  unfold devWrite
  repeat' with_reducible first
    | assumption | (refine Kept.ite ?_ ?_) | (refine Kept.ite2 ?_ ?_) | (refine tableLine_kept ?_)
    | (refine gateLine_kept ?_) | (refine writeMem_kept ?_) | (refine winWrite_kept ?_)
    | (refine Kept.foldl ?_ (fun _ _ _ => ?_)) | (refine Kept.foldl2 ?_ (fun _ _ _ => ?_)) | split

theorem descWrite_kept {s0 s : State} {a0 : Nat} {a1 : Bytes} {a2 : Bytes}
    (h : Kept s0 s) : Kept s0 (descWrite a0 a1 a2 s) := by
  unfold descWrite
  repeat' with_reducible first
    | assumption | (refine Kept.ite ?_ ?_) | (refine Kept.ite2 ?_ ?_) | (refine devWrite_kept ?_)
    | (refine emit_kept ?_) | (refine Kept.foldl ?_ (fun _ _ _ => ?_))

theorem dcMove_kept {s0 s : State} {a0 : Nat} {a1 : Bytes} {a2 : Nat} {a3 : Nat} {a4 : Nat}
    (h : Kept s0 s) : Kept s0 (dcMove a0 a1 a2 a3 a4 s) := by
  unfold dcMove
  repeat' with_reducible first
    | assumption | (refine Kept.ite ?_ ?_) | (refine Kept.ite2 ?_ ?_) | (refine descWrite_kept ?_)
    | (refine hbmAsk_kept ?_) | (refine dmaRecord_kept ?_) | (refine chanMod_kept ?_)

theorem execDescriptorEnd_kept {s0 s : State} {a0 : Chan} {a1 : Bytes}
    (h : Kept s0 s) : KeptO s0 (execDescriptorEnd a0 a1 s) := by
  unfold execDescriptorEnd
  repeat' with_reducible first
    | assumption | (refine KeptO.next ?_) | (refine KeptO.ite ?_ ?_) | (refine Kept.ite ?_ ?_)
    | (refine Kept.ite2 ?_ ?_) | (refine dcMove_kept ?_) | (refine Kept.foldl ?_ (fun _ _ _ => ?_))
    | (refine Kept.foldl2 ?_ (fun _ _ _ => ?_)) | split | (dsimp only; split)

theorem cqCfg_kept {s0 s : State} {a0 : Nat} {a1 : Word} (h : Kept s0 s) : Kept s0 (cqCfg a0 a1 s) := by
  unfold cqCfg
  repeat' with_reducible first
    | assumption | (refine Kept.ite ?_ ?_) | (refine Kept.ite2 ?_ ?_) | (refine retryRecords_kept ?_)
    | (refine setFlag_kept ?_) | (refine fset_kept ?_) | (refine Kept.foldl ?_ (fun _ _ _ => ?_))
    | (refine Kept.foldl2 ?_ (fun _ _ _ => ?_)) | split | (refine Kept.of_parts rfl rfl rfl rfl rfl ?_)

theorem cqTail_kept {s0 s : State} {a0 : Nat} {a1 : Word} (h : Kept s0 s) : Kept s0 (cqTail a0 a1 s) := by
  unfold cqTail
  repeat' with_reducible first
    | assumption | (refine Kept.ite ?_ ?_) | (refine Kept.ite2 ?_ ?_) | (refine retryRecords_kept ?_)
    | (refine fset_kept ?_)

theorem ringTail_kept {s0 s : State} {a0 : Nat} {a1 : Word} (h : Kept s0 s) : Kept s0 (ringTail a0 a1 s) := by
  unfold ringTail
  repeat' with_reducible first
    | assumption | (refine Kept.ite ?_ ?_) | (refine Kept.ite2 ?_ ?_) | (refine chanMod_kept ?_)
    | (refine setFlag_kept ?_) | (refine fset_kept ?_)

theorem shadowPut_kept {s0 s : State} {a0 : Nat} {a1 : Nat} {a2 : Word}
    (h : Kept s0 s) : Kept s0 (shadowPut a0 a1 a2 s) := by
  unfold shadowPut
  repeat' with_reducible first
    | assumption | (refine Kept.ite ?_ ?_) | (refine Kept.ite2 ?_ ?_) | (refine setFlag_kept ?_)
    | (refine fset_kept ?_)

theorem execCqEnable_kept {s0 s : State} {a0 : Fn} {a1 : Cq} {a2 : Word}
    (h : Kept s0 s) : KeptO s0 (execCqEnable a0 a1 a2 s) := by
  unfold execCqEnable
  repeat' with_reducible first
    | assumption | (refine KeptO.next ?_) | (refine KeptO.ite ?_ ?_) | (refine Kept.ite ?_ ?_)
    | (refine Kept.ite2 ?_ ?_) | (refine cqCfg_kept ?_) | (refine hostWr_kept ?_ (fun _ _ => ?_))

theorem execDcArm_kept {s0 s : State} {a0 : Fn} {a1 : Chan} {a2 : Word}
    (h : Kept s0 s) : KeptO s0 (execDcArm a0 a1 a2 s) := by
  unfold execDcArm
  repeat' with_reducible first
    | assumption | (refine KeptO.next ?_) | (refine KeptO.ite ?_ ?_) | (refine Kept.ite ?_ ?_)
    | (refine Kept.ite2 ?_ ?_) | (refine dcCtrl_kept ?_) | (refine hostWr_kept ?_ (fun _ _ => ?_))

theorem execDcDisable_kept {s0 s : State} {a0 : Fn} {a1 : Chan} {a2 : Word}
    (h : Kept s0 s) : KeptO s0 (execDcDisable a0 a1 a2 s) := by
  unfold execDcDisable
  repeat' with_reducible first
    | assumption | (refine KeptO.next ?_) | (refine KeptO.ite ?_ ?_) | (refine Kept.ite ?_ ?_)
    | (refine Kept.ite2 ?_ ?_) | (refine dcCtrl_kept ?_) | (refine hostWr_kept ?_ (fun _ _ => ?_))

theorem execDcDrainEnd_kept {s0 s : State} {a0 : Chan} (h : Kept s0 s) : KeptO s0 (execDcDrainEnd a0 s) := by
  unfold execDcDrainEnd
  repeat' with_reducible first
    | assumption | (refine KeptO.next ?_) | (refine KeptO.ite ?_ ?_) | (refine Kept.ite ?_ ?_)
    | (refine Kept.ite2 ?_ ?_) | (refine dcDrained_kept ?_)

theorem execDcRingTail_kept {s0 s : State} {a0 : Fn} {a1 : Chan} {a2 : Word}
    (h : Kept s0 s) : KeptO s0 (execDcRingTail a0 a1 a2 s) := by
  unfold execDcRingTail
  repeat' with_reducible first
    | assumption | (refine KeptO.next ?_) | (refine KeptO.ite ?_ ?_) | (refine Kept.ite ?_ ?_)
    | (refine Kept.ite2 ?_ ?_) | (refine ringTail_kept ?_) | (refine hostWr_kept ?_ (fun _ _ => ?_))

theorem execDescriptorFetch_kept {s0 s : State} {a0 : Chan} {a1 : Bytes}
    (h : Kept s0 s) : KeptO s0 (execDescriptorFetch a0 a1 s) := by
  unfold execDescriptorFetch
  repeat' with_reducible first
    | assumption | (refine KeptO.next ?_) | (refine KeptO.ite ?_ ?_) | (refine Kept.ite ?_ ?_)
    | (refine Kept.ite2 ?_ ?_) | (refine hingeSoon_kept ?_) | (refine setDesc_kept ?_)
    | (refine chanMod_kept ?_) | (refine setFlag_kept ?_) | (refine fset_kept ?_)

theorem aerLog_kept {s0 s : State} {a0 : Nat} {a1 : Nat} (h : Kept s0 s) : Kept s0 (aerLog a0 a1 s) := by
  unfold aerLog
  repeat' with_reducible first
    | assumption | (refine Kept.ite ?_ ?_) | (refine Kept.ite2 ?_ ?_)
    | (refine Kept.foldl ?_ (fun _ _ _ => ?_)) | (refine Kept.foldl2 ?_ (fun _ _ _ => ?_)) | split
    | (refine Kept.of_parts rfl rfl rfl rfl rfl ?_)

theorem execDmaError_kept {s0 s : State} {a0 : Chan} {a1 : DmaErr} {a2 : Bytes} {a3 : Nat}
    (h : Kept s0 s) : KeptO s0 (execDmaError a0 a1 a2 a3 s) := by
  unfold execDmaError
  repeat' with_reducible first
    | assumption | (refine KeptO.next ?_) | (refine KeptO.ite ?_ ?_) | (refine Kept.ite ?_ ?_)
    | (refine Kept.ite2 ?_ ?_) | (refine aerLog_kept ?_) | (refine dcMove_kept ?_)
    | (refine Kept.foldl ?_ (fun _ _ _ => ?_)) | (refine Kept.foldl2 ?_ (fun _ _ _ => ?_)) | split

theorem execShadowWrite_kept {s0 s : State} {a0 : Fn} {a1 : Chan} {a2 : Fin 16} {a3 : Word}
    (h : Kept s0 s) : KeptO s0 (execShadowWrite a0 a1 a2 a3 s) := by
  unfold execShadowWrite
  repeat' with_reducible first
    | assumption | (refine KeptO.next ?_) | (refine KeptO.ite ?_ ?_) | (refine Kept.ite ?_ ?_)
    | (refine Kept.ite2 ?_ ?_) | (refine shadowPut_kept ?_) | (refine hostWr_kept ?_ (fun _ _ => ?_))

theorem dmaTick_kept {s0 s : State} {a0 : Nat} (h : Kept s0 s) : Kept s0 (dmaTick a0 s) := by
  unfold dmaTick
  repeat' with_reducible first
    | assumption | (refine Kept.ite ?_ ?_) | (refine Kept.ite2 ?_ ?_) | (refine chanMod_kept ?_)
    | (refine Kept.foldl ?_ (fun _ _ _ => ?_))

theorem pbaPut_kept {s0 s : State} {a0 : Nat} {a1 : Nat} {a2 : Bool}
    (h : Kept s0 s) : Kept s0 (pbaPut a0 a1 a2 s) := by
  unfold pbaPut
  repeat' with_reducible first
    | assumption | (refine Kept.ite ?_ ?_) | (refine Kept.ite2 ?_ ?_)
    | (refine Kept.foldl ?_ (fun _ _ _ => ?_)) | (refine Kept.foldl2 ?_ (fun _ _ _ => ?_)) | split
    | (refine Kept.of_parts rfl rfl rfl rfl rfl ?_)

theorem grpHold_kept {s0 s : State} {a0 : Nat} (h : Kept s0 s) : Kept s0 (grpHold a0 s) := by
  unfold grpHold
  repeat' with_reducible first
    | assumption | (refine Kept.ite ?_ ?_) | (refine Kept.ite2 ?_ ?_) | (refine pbaPut_kept ?_)
    | (refine fset_kept ?_)

theorem linkWake_kept {s0 s : State}  (h : Kept s0 s) : Kept s0 (linkWake s) := by
  unfold linkWake
  repeat' with_reducible first
    | assumption | (refine Kept.ite ?_ ?_) | (refine Kept.ite2 ?_ ?_)
    | (refine Kept.foldl ?_ (fun _ _ _ => ?_)) | (refine Kept.foldl2 ?_ (fun _ _ _ => ?_)) | split
    | (refine Kept.of_parts rfl rfl rfl rfl rfl ?_)

theorem grpSend_kept {s0 s : State} {a0 : Nat} (h : Kept s0 s) : Kept s0 (grpSend a0 s) := by
  unfold grpSend
  repeat' with_reducible first
    | assumption | (refine Kept.ite ?_ ?_) | (refine Kept.ite2 ?_ ?_) | (refine linkWake_kept ?_)
    | (refine pbaPut_kept ?_) | (refine emit_kept ?_) | (refine bump_kept ?_) | (refine fset_kept ?_)

theorem heldRelease_kept {s0 s : State} {a0 : Nat} (h : Kept s0 s) : Kept s0 (heldRelease a0 s) := by
  unfold heldRelease
  repeat' with_reducible first
    | assumption | (refine Kept.ite ?_ ?_) | (refine Kept.ite2 ?_ ?_) | (refine grpSend_kept ?_)
    | (refine pbaPut_kept ?_) | (refine fset_kept ?_)

theorem heldReleaseAll_kept {s0 s : State}  (h : Kept s0 s) : Kept s0 (heldReleaseAll s) := by
  unfold heldReleaseAll
  repeat' with_reducible first
    | assumption | (refine Kept.ite ?_ ?_) | (refine Kept.ite2 ?_ ?_) | (refine heldRelease_kept ?_)
    | (refine Kept.foldl ?_ (fun _ _ _ => ?_))

theorem msixMask_kept {s0 s : State} {a0 : Nat} {a1 : Nat} {a2 : Bool}
    (h : Kept s0 s) : Kept s0 (msixMask a0 a1 a2 s) := by
  unfold msixMask
  repeat' with_reducible first
    | assumption | (refine Kept.ite ?_ ?_) | (refine Kept.ite2 ?_ ?_) | (refine heldReleaseAll_kept ?_)
    | (refine Kept.foldl ?_ (fun _ _ _ => ?_)) | (refine Kept.foldl2 ?_ (fun _ _ _ => ?_)) | split
    | (refine Kept.of_parts rfl rfl rfl rfl rfl ?_)

theorem execMsixUnmask_kept {s0 s : State} {a0 : Fn} {a1 : Nat}
    (h : Kept s0 s) : KeptO s0 (execMsixUnmask a0 a1 s) := by
  unfold execMsixUnmask
  repeat' with_reducible first
    | assumption | (refine KeptO.next ?_) | (refine KeptO.ite ?_ ?_) | (refine Kept.ite ?_ ?_)
    | (refine Kept.ite2 ?_ ?_) | (refine msixMask_kept ?_)

theorem pmeRaise_kept {s0 s : State} {a0 : Nat} {a1 : Nat} (h : Kept s0 s) : Kept s0 (pmeRaise a0 a1 s) := by
  unfold pmeRaise
  repeat' with_reducible first
    | assumption | (refine Kept.ite ?_ ?_) | (refine Kept.ite2 ?_ ?_) | (refine linkWake_kept ?_)
    | (refine emit_kept ?_) | (refine bump_kept ?_) | (refine Kept.foldl ?_ (fun _ _ _ => ?_))
    | (refine Kept.foldl2 ?_ (fun _ _ _ => ?_)) | split | (refine Kept.of_parts rfl rfl rfl rfl rfl ?_)

theorem grpCommit_kept {s0 s : State} {a0 : Nat} (h : Kept s0 s) : Kept s0 (grpCommit a0 s) := by
  unfold grpCommit
  repeat' with_reducible first
    | assumption | (refine Kept.ite ?_ ?_) | (refine Kept.ite2 ?_ ?_) | (refine pmeRaise_kept ?_)
    | (refine grpSend_kept ?_) | (refine grpHold_kept ?_) | (refine setFlag_kept ?_) | (refine fset_kept ?_)

theorem grpResend_kept {s0 s : State} {a0 : Nat} (h : Kept s0 s) : Kept s0 (grpResend a0 s) := by
  unfold grpResend
  repeat' with_reducible first
    | assumption | (refine Kept.ite ?_ ?_) | (refine Kept.ite2 ?_ ?_) | (refine setFlag_kept ?_)
    | (refine groupEvent_kept ?_)

theorem execResend_kept {s0 s : State} {a0 : Fn} {a1 : Grp} {a2 : Word}
    (h : Kept s0 s) : KeptO s0 (execResend a0 a1 a2 s) := by
  unfold execResend
  repeat' with_reducible first
    | assumption | (refine KeptO.next ?_) | (refine KeptO.ite ?_ ?_) | (refine Kept.ite ?_ ?_)
    | (refine Kept.ite2 ?_ ?_) | (refine grpResend_kept ?_) | (refine hostWr_kept ?_ (fun _ _ => ?_))

theorem intAck_kept {s0 s : State} {a0 : Nat} {a1 : Nat} {a2 : Nat}
    (h : Kept s0 s) : Kept s0 (intAck a0 a1 a2 s) := by
  unfold intAck
  repeat' with_reducible first
    | assumption | (refine Kept.ite ?_ ?_) | (refine Kept.ite2 ?_ ?_) | (refine pendClear_kept ?_)
    | (refine Kept.foldl ?_ (fun _ _ _ => ?_))

theorem intForce_kept {s0 s : State} {a0 : Nat} {a1 : Nat} {a2 : Nat}
    (h : Kept s0 s) : Kept s0 (intForce a0 a1 a2 s) := by
  unfold intForce
  repeat' with_reducible first
    | assumption | (refine Kept.ite ?_ ?_) | (refine Kept.ite2 ?_ ?_) | (refine pendSet_kept ?_)
    | (refine Kept.foldl ?_ (fun _ _ _ => ?_))

theorem maskPut_kept {s0 s : State} {a0 : Nat} {a1 : Bool} (h : Kept s0 s) : Kept s0 (maskPut a0 a1 s) := by
  unfold maskPut
  repeat' with_reducible first
    | assumption | (refine Kept.ite ?_ ?_) | (refine Kept.ite2 ?_ ?_) | (refine groupEvent_kept ?_)
    | (refine fset_kept ?_) | (refine Kept.foldl ?_ (fun _ _ _ => ?_))
    | (refine Kept.foldl2 ?_ (fun _ _ _ => ?_)) | split | (refine Kept.of_parts rfl rfl rfl rfl rfl ?_)

theorem intMask_kept {s0 s : State} {a0 : Nat} {a1 : Nat} {a2 : Nat}
    (h : Kept s0 s) : Kept s0 (intMask a0 a1 a2 s) := by
  unfold intMask
  repeat' with_reducible first
    | assumption | (refine Kept.ite ?_ ?_) | (refine Kept.ite2 ?_ ?_) | (refine maskPut_kept ?_)
    | (refine Kept.foldl ?_ (fun _ _ _ => ?_))

theorem wakeRelease_kept {s0 s : State}  (h : Kept s0 s) : Kept s0 (wakeRelease s) := by
  unfold wakeRelease
  repeat' with_reducible first
    | assumption | (refine Kept.ite ?_ ?_) | (refine Kept.ite2 ?_ ?_)
    | (refine Kept.foldl ?_ (fun _ _ _ => ?_)) | (refine Kept.foldl2 ?_ (fun _ _ _ => ?_)) | split
    | (refine Kept.of_parts rfl rfl rfl rfl rfl ?_)

theorem dueSend_kept {s0 s : State} {a0 : Nat} (h : Kept s0 s) : Kept s0 (dueSend a0 s) := by
  unfold dueSend
  repeat' with_reducible first
    | assumption | (refine Kept.ite ?_ ?_) | (refine Kept.ite2 ?_ ?_) | (refine grpSend_kept ?_)
    | (refine grpHold_kept ?_)

theorem execDueDelivery_kept {s0 s : State} {a0 : Grp} (h : Kept s0 s) : KeptO s0 (execDueDelivery a0 s) := by
  unfold execDueDelivery
  repeat' with_reducible first
    | assumption | (refine KeptO.next ?_) | (refine KeptO.ite ?_ ?_) | (refine Kept.ite ?_ ?_)
    | (refine Kept.ite2 ?_ ?_) | (refine dueSend_kept ?_)

theorem grpExpire_kept {s0 s : State} {a0 : Nat} (h : Kept s0 s) : Kept s0 (grpExpire a0 s) := by
  unfold grpExpire
  repeat' with_reducible first
    | assumption | (refine Kept.ite ?_ ?_) | (refine Kept.ite2 ?_ ?_) | (refine grpCommit_kept ?_)
    | (refine passCclk_kept ?_) | (refine fset_kept ?_)

theorem execGroupCommit_kept {s0 s : State} {a0 : Grp} (h : Kept s0 s) : KeptO s0 (execGroupCommit a0 s) := by
  unfold execGroupCommit
  repeat' with_reducible first
    | assumption | (refine KeptO.next ?_) | (refine KeptO.ite ?_ ?_) | (refine Kept.ite ?_ ?_)
    | (refine Kept.ite2 ?_ ?_) | (refine grpExpire_kept ?_)

theorem execIntForce_kept {s0 s : State} {a0 : Fn} {a1 : Fin 128} {a2 : Word}
    (h : Kept s0 s) : KeptO s0 (execIntForce a0 a1 a2 s) := by
  unfold execIntForce
  repeat' with_reducible first
    | assumption | (refine KeptO.next ?_) | (refine KeptO.ite ?_ ?_) | (refine Kept.ite ?_ ?_)
    | (refine Kept.ite2 ?_ ?_) | (refine intForce_kept ?_) | (refine hostWr_kept ?_ (fun _ _ => ?_))

theorem execIntMaskWrite_kept {s0 s : State} {a0 : Fn} {a1 : Fin 128} {a2 : Word}
    (h : Kept s0 s) : KeptO s0 (execIntMaskWrite a0 a1 a2 s) := by
  unfold execIntMaskWrite
  repeat' with_reducible first
    | assumption | (refine KeptO.next ?_) | (refine KeptO.ite ?_ ?_) | (refine Kept.ite ?_ ?_)
    | (refine Kept.ite2 ?_ ?_) | (refine intMask_kept ?_) | (refine hostWr_kept ?_ (fun _ _ => ?_))

theorem execIntSourceRise_kept {s0 s : State} {a0 : IntSrc}
    (h : Kept s0 s) : KeptO s0 (execIntSourceRise a0 s) := by
  unfold execIntSourceRise
  repeat' with_reducible first
    | assumption | (refine KeptO.next ?_) | (refine KeptO.ite ?_ ?_) | (refine Kept.ite ?_ ?_)
    | (refine Kept.ite2 ?_ ?_) | (refine pendSet_kept ?_)

theorem mbxPlace_kept {s0 s : State} {a0 : Bytes} (h : Kept s0 s) : Kept s0 (mbxPlace a0 s) := by
  unfold mbxPlace
  repeat' with_reducible first
    | assumption | (refine Kept.ite ?_ ?_) | (refine Kept.ite2 ?_ ?_) | (refine setEvent_kept ?_)
    | (refine setFlag_kept ?_) | (refine fset_kept ?_) | (refine Kept.foldl ?_ (fun _ _ _ => ?_))
    | (refine Kept.foldl2 ?_ (fun _ _ _ => ?_)) | split | (refine Kept.of_parts rfl rfl rfl rfl rfl ?_)

theorem execMbxResponse_kept {s0 s : State}  (h : Kept s0 s) : KeptO s0 (execMbxResponse s) := by
  unfold execMbxResponse
  repeat' with_reducible first
    | assumption | (refine KeptO.next ?_) | (refine KeptO.ite ?_ ?_) | (refine Kept.ite ?_ ?_)
    | (refine Kept.ite2 ?_ ?_) | (refine mbxPlace_kept ?_) | (refine Kept.foldl ?_ (fun _ _ _ => ?_))
    | (refine Kept.foldl2 ?_ (fun _ _ _ => ?_)) | split | (refine Kept.of_parts rfl rfl rfl rfl rfl ?_)

theorem linkDownAct_kept {s0 s : State}  (h : Kept s0 s) : Kept s0 (linkDownAct s) := by
  unfold linkDownAct
  repeat' with_reducible first
    | assumption | (refine Kept.ite ?_ ?_) | (refine Kept.ite2 ?_ ?_) | (refine setFlag_kept ?_)
    | (refine fset_kept ?_) | (refine Kept.foldl ?_ (fun _ _ _ => ?_))
    | (refine Kept.foldl2 ?_ (fun _ _ _ => ?_)) | split | (refine Kept.of_parts rfl rfl rfl rfl rfl ?_)

theorem flrConfig_kept {s0 s : State} {a0 : Nat} (h : Kept s0 s) : Kept s0 (flrConfig a0 s) := by
  unfold flrConfig
  repeat' with_reducible first
    | assumption | (refine Kept.ite ?_ ?_) | (refine Kept.ite2 ?_ ?_) | (refine fset_kept ?_)
    | (refine Kept.foldl ?_ (fun _ _ _ => ?_)) | (refine Kept.foldl2 ?_ (fun _ _ _ => ?_)) | split
    | (refine Kept.of_parts rfl rfl rfl rfl rfl ?_)

theorem execL1Exit_kept {s0 s : State}  (h : Kept s0 s) : KeptO s0 (execL1Exit s) := by
  unfold execL1Exit
  repeat' with_reducible first
    | assumption | (refine KeptO.next ?_) | (refine KeptO.ite ?_ ?_) | (refine Kept.ite ?_ ?_)
    | (refine Kept.ite2 ?_ ?_) | (refine linkWake_kept ?_)

theorem flrGroups_kept {s0 s : State} {a0 : Nat} (h : Kept s0 s) : Kept s0 (flrGroups a0 s) := by
  unfold flrGroups
  repeat' with_reducible first
    | assumption | (refine Kept.ite ?_ ?_) | (refine Kept.ite2 ?_ ?_) | (refine pendClear_kept ?_)
    | (refine fset_kept ?_) | (refine Kept.foldl ?_ (fun _ _ _ => ?_))
    | (refine Kept.foldl2 ?_ (fun _ _ _ => ?_)) | split | (refine Kept.of_parts rfl rfl rfl rfl rfl ?_)

theorem flrWindow_kept {s0 s : State} {a0 : Nat} {a1 : Nat}
    (h : Kept s0 s) : Kept s0 (flrWindow a0 a1 s) := by
  unfold flrWindow
  repeat' with_reducible first
    | assumption | (refine Kept.ite ?_ ?_) | (refine Kept.ite2 ?_ ?_) | (refine winRelease_kept ?_)
    | (refine fset_kept ?_)

theorem flrOne_kept {s0 s : State} {a0 : Nat} (h : Kept s0 s) : Kept s0 (flrOne a0 s) := by
  unfold flrOne
  repeat' with_reducible first
    | assumption | (refine Kept.ite ?_ ?_) | (refine Kept.ite2 ?_ ?_) | (refine retryRecords_kept ?_)
    | (refine flrWindow_kept ?_) | (refine flrGroups_kept ?_) | (refine scDrained_kept ?_)
    | (refine dcDrained_kept ?_) | (refine flrConfig_kept ?_) | (refine scClose_kept ?_)
    | (refine dcOff_kept ?_) | (refine setFlag_kept ?_) | (refine poolPut_kept ?_)
    | (refine Kept.foldl ?_ (fun _ _ _ => ?_))

theorem flr_kept {s0 s : State} {a0 : Nat} (h : Kept s0 s) : Kept s0 (flr a0 s) := by
  unfold flr
  repeat' with_reducible first
    | assumption | (refine Kept.ite ?_ ?_) | (refine Kept.ite2 ?_ ?_) | (refine flrOne_kept ?_)
    | (refine Kept.foldl ?_ (fun _ _ _ => ?_))

theorem cqOwnerPut_kept {s0 s : State} {a0 : Nat} {a1 : Word}
    (h : Kept s0 s) : Kept s0 (cqOwnerPut a0 a1 s) := by
  unfold cqOwnerPut
  repeat' with_reducible first
    | assumption | (refine Kept.ite ?_ ?_) | (refine Kept.ite2 ?_ ?_) | (refine fset_kept ?_)

theorem dcOwnerPut_kept {s0 s : State} {a0 : Nat} {a1 : Word}
    (h : Kept s0 s) : Kept s0 (dcOwnerPut a0 a1 s) := by
  unfold dcOwnerPut
  repeat' with_reducible first
    | assumption | (refine Kept.ite ?_ ?_) | (refine Kept.ite2 ?_ ?_) | (refine fset_kept ?_)

theorem mbxSubmit_kept {s0 s : State}  (h : Kept s0 s) : Kept s0 (mbxSubmit s) := by
  unfold mbxSubmit
  repeat' with_reducible first
    | assumption | (refine Kept.ite ?_ ?_) | (refine Kept.ite2 ?_ ?_) | (refine setFlag_kept ?_)
    | (refine bump_kept ?_) | (refine fset_kept ?_) | (refine Kept.foldl ?_ (fun _ _ _ => ?_))
    | (refine Kept.foldl2 ?_ (fun _ _ _ => ?_)) | split | (refine Kept.of_parts rfl rfl rfl rfl rfl ?_)

theorem execDcOwnerWrite_kept {s0 s : State} {a0 : Fn} {a1 : Chan ⊕ Cq} {a2 : Word}
    (h : Kept s0 s) : KeptO s0 (execDcOwnerWrite a0 a1 a2 s) := by
  unfold execDcOwnerWrite
  repeat' with_reducible first
    | assumption | (refine KeptO.next ?_) | (refine KeptO.ite ?_ ?_) | (refine Kept.ite ?_ ?_)
    | (refine Kept.ite2 ?_ ?_) | (refine dcOwnerPut_kept ?_) | (refine cqOwnerPut_kept ?_)
    | (refine hostWr_kept ?_ (fun _ _ => ?_)) | (refine Kept.foldl ?_ (fun _ _ _ => ?_))
    | (refine Kept.foldl2 ?_ (fun _ _ _ => ?_)) | split

theorem execDstateChange_kept {s0 s : State} {a0 : Fn} {a1 : Bool} {a2 : Bool} {a3 : Bool}
    (h : Kept s0 s) : KeptO s0 (execDstateChange a0 a1 a2 a3 s) := by
  unfold execDstateChange
  repeat' with_reducible first
    | assumption | (refine KeptO.next ?_) | (refine KeptO.ite ?_ ?_) | (refine Kept.ite ?_ ?_)
    | (refine Kept.ite2 ?_ ?_) | (refine wakeRelease_kept ?_) | (refine retryRecords_kept ?_)
    | (refine fset_kept ?_) | (refine Kept.foldl ?_ (fun _ _ _ => ?_))
    | (refine Kept.foldl2 ?_ (fun _ _ _ => ?_)) | split | (refine Kept.of_parts rfl rfl rfl rfl rfl ?_)

theorem execFunctionLevelReset_kept {s0 s : State} {a0 : Fn}
    (h : Kept s0 s) : KeptO s0 (execFunctionLevelReset a0 s) := by
  unfold execFunctionLevelReset
  repeat' with_reducible first
    | assumption | (refine KeptO.next ?_) | (refine KeptO.ite ?_ ?_) | (refine Kept.ite ?_ ?_)
    | (refine Kept.ite2 ?_ ?_) | (refine flr_kept ?_)

theorem execLinkL1Entry_kept {s0 s : State} {a0 : Bool}
    (h : Kept s0 s) : KeptO s0 (execLinkL1Entry a0 s) := by
  unfold execLinkL1Entry
  repeat' with_reducible first
    | assumption | (refine KeptO.next ?_) | (refine KeptO.ite ?_ ?_) | (refine Kept.ite ?_ ?_)
    | (refine Kept.ite2 ?_ ?_) | (refine bump_kept ?_) | (refine Kept.foldl ?_ (fun _ _ _ => ?_))
    | (refine Kept.foldl2 ?_ (fun _ _ _ => ?_)) | split | (refine Kept.of_parts rfl rfl rfl rfl rfl ?_)

theorem linkTrain_kept {s0 s : State} {a0 : Nat} {a1 : Nat} {a2 : Bool}
    (h : Kept s0 s) : Kept s0 (linkTrain a0 a1 a2 s) := by
  unfold linkTrain
  repeat' with_reducible first
    | assumption | (refine Kept.ite ?_ ?_) | (refine Kept.ite2 ?_ ?_) | (refine haspRise_kept ?_)
    | (refine setFlag_kept ?_) | (refine fset_kept ?_) | (refine Kept.foldl ?_ (fun _ _ _ => ?_))
    | (refine Kept.foldl2 ?_ (fun _ _ _ => ?_)) | split | (refine Kept.of_parts rfl rfl rfl rfl rfl ?_)

theorem execLinkTrained_kept {s0 s : State} {a0 : Nat} {a1 : Nat} {a2 : Bool}
    (h : Kept s0 s) : KeptO s0 (execLinkTrained a0 a1 a2 s) := by
  unfold execLinkTrained
  repeat' with_reducible first
    | assumption | (refine KeptO.next ?_) | (refine KeptO.ite ?_ ?_) | (refine Kept.ite ?_ ?_)
    | (refine Kept.ite2 ?_ ?_) | (refine linkTrain_kept ?_)

theorem execMbxGo_kept {s0 s : State} {a0 : Fn} {a1 : Word}
    (h : Kept s0 s) : KeptO s0 (execMbxGo a0 a1 s) := by
  unfold execMbxGo
  repeat' with_reducible first
    | assumption | (refine KeptO.next ?_) | (refine KeptO.ite ?_ ?_) | (refine Kept.ite ?_ ?_)
    | (refine Kept.ite2 ?_ ?_) | (refine mbxSubmit_kept ?_) | (refine hostWr_kept ?_ (fun _ _ => ?_))

theorem reqErr_kept {s0 s : State} {a0 : Nat} (h : Kept s0 s) : Kept s0 (reqErr a0 s) := by
  unfold reqErr
  repeat' with_reducible first
    | assumption | (refine Kept.ite ?_ ?_) | (refine Kept.ite2 ?_ ?_) | (refine aerLog_kept ?_)
    | (refine haspRise_kept ?_) | (refine bump_kept ?_)

theorem execPcieRequestError_kept {s0 s : State} {a0 : ReqError}
    (h : Kept s0 s) : KeptO s0 (execPcieRequestError a0 s) := by
  unfold execPcieRequestError
  repeat' with_reducible first
    | assumption | (refine KeptO.next ?_) | (refine KeptO.ite ?_ ?_) | (refine Kept.ite ?_ ?_)
    | (refine Kept.ite2 ?_ ?_) | (refine reqErr_kept ?_) | (refine aerLog_kept ?_) | (refine riseIf_kept ?_)
    | (refine chanMod_kept ?_) | (refine setFlag_kept ?_) | (refine strmMod_kept ?_)
    | (refine Kept.foldl ?_ (fun _ _ _ => ?_)) | (refine Kept.foldl2 ?_ (fun _ _ _ => ?_)) | split

theorem execPmeResend_kept {s0 s : State} {a0 : Fn} (h : Kept s0 s) : KeptO s0 (execPmeResend a0 s) := by
  unfold execPmeResend
  repeat' with_reducible first
    | assumption | (refine KeptO.next ?_) | (refine KeptO.ite ?_ ?_) | (refine Kept.ite ?_ ?_)
    | (refine Kept.ite2 ?_ ?_) | (refine linkWake_kept ?_) | (refine emit_kept ?_)

theorem vfPut_kept {s0 s : State} {a0 : Bool} {a1 : Nat} (h : Kept s0 s) : Kept s0 (vfPut a0 a1 s) := by
  unfold vfPut
  repeat' with_reducible first
    | assumption | (refine Kept.ite ?_ ?_) | (refine Kept.ite2 ?_ ?_) | (refine flrOne_kept ?_)
    | (refine fset_kept ?_) | (refine Kept.foldl ?_ (fun _ _ _ => ?_))
    | (refine Kept.foldl2 ?_ (fun _ _ _ => ?_)) | split | (refine Kept.of_parts rfl rfl rfl rfl rfl ?_)

theorem execVfEnableClear_kept {s0 s : State}  (h : Kept s0 s) : KeptO s0 (execVfEnableClear s) := by
  unfold execVfEnableClear
  repeat' with_reducible first
    | assumption | (refine KeptO.next ?_) | (refine KeptO.ite ?_ ?_) | (refine Kept.ite ?_ ?_)
    | (refine Kept.ite2 ?_ ?_) | (refine vfPut_kept ?_)

theorem coldReset_kept {s0 s : State} (h : Kept s0 s) : Kept s0 (coldReset s) :=
  fset_kept (h.trans ⟨rfl, fun _ => (by decide : Memory.wf Memory.init = true), le_rfl, le_rfl, le_rfl⟩)

theorem softReset_kept {s0 s : State} {wake : Bool} (h : Kept s0 s) : Kept s0 (softReset wake s) :=
  haspDefaults_kept (fset_kept (h.trans ⟨rfl, fun _ => (by decide : Memory.wf Memory.init = true), le_rfl, le_rfl, le_rfl⟩))

theorem bootEnter_kept {s0 s : State} {a0 : Bool} {a1 : Nat} {a2 : Fld}
    (h : Kept s0 s) : Kept s0 (bootEnter a0 a1 a2 s) := by
  unfold bootEnter
  repeat' with_reducible first
    | assumption | (refine Kept.ite ?_ ?_) | (refine Kept.ite2 ?_ ?_) | (refine softReset_kept ?_)
    | (refine logWriteAll_kept ?_) | (refine setFlag_kept ?_) | (refine Kept.foldl ?_ (fun _ _ _ => ?_))
    | (refine Kept.foldl2 ?_ (fun _ _ _ => ?_)) | split | (refine Kept.of_parts rfl rfl rfl rfl rfl ?_)

theorem lockdownExit_kept {s0 s : State}  (h : Kept s0 s) : Kept s0 (lockdownExit s) := by
  unfold lockdownExit
  repeat' with_reducible first
    | assumption | (refine Kept.ite ?_ ?_) | (refine Kept.ite2 ?_ ?_) | (refine bootEnter_kept ?_)

end Sys2Proof.Machine
end

