-- ==== Sys2Proof/Laws/KeptSystem.lean ====
section
/-! SUPPORT. What every operation of the alarm commands, the command frames, the links and the modes keeps:
the queue, the memory's canonical form and the fuses that only rise. -/

namespace Sys2Proof.Machine

theorem haspClear_kept {s0 s : State} {a0 : Bool} {a1 : Nat}
    (h : Kept s0 s) : Kept s0 (haspClear a0 a1 s) := by
  unfold haspClear
  repeat' with_reducible first
    | assumption | (refine Kept.ite ?_ ?_) | (refine Kept.ite2 ?_ ?_) | (refine lockdownExit_kept ?_)
    | (refine haspClearWord_kept ?_)

theorem haspLine_kept {s0 s : State} {a0 : Nat} {a1 : Bool} (h : Kept s0 s) : Kept s0 (haspLine a0 a1 s) := by
  unfold haspLine
  repeat' with_reducible first
    | assumption | (refine Kept.ite ?_ ?_) | (refine Kept.ite2 ?_ ?_) | (refine haspLevel_kept ?_)
    | (refine setFlag_kept ?_)

theorem haspLineUp_kept {s0 s : State} {a0 : Nat} {a1 : Nat}
    (h : Kept s0 s) : Kept s0 (haspLineUp a0 a1 s) := by
  unfold haspLineUp
  repeat' with_reducible first
    | assumption | (refine Kept.ite ?_ ?_) | (refine Kept.ite2 ?_ ?_) | (refine haspLine_kept ?_)
    | (refine haspRise_kept ?_)

theorem execEntropyFail_kept {s0 s : State}  (h : Kept s0 s) : KeptO s0 (execEntropyFail s) := by
  unfold execEntropyFail
  repeat' with_reducible first
    | assumption | (refine KeptO.next ?_) | (refine KeptO.ite ?_ ?_) | (refine Kept.ite ?_ ?_)
    | (refine Kept.ite2 ?_ ?_) | (refine haspLineUp_kept ?_)

theorem execEntropyRestore_kept {s0 s : State}  (h : Kept s0 s) : KeptO s0 (execEntropyRestore s) := by
  unfold execEntropyRestore
  repeat' with_reducible first
    | assumption | (refine KeptO.next ?_) | (refine KeptO.ite ?_ ?_) | (refine Kept.ite ?_ ?_)
    | (refine Kept.ite2 ?_ ?_) | (refine haspLine_kept ?_) | (refine setFlag_kept ?_)

theorem execHaspAck_kept {s0 s : State} {a0 : Fn} {a1 : Bool} {a2 : Word}
    (h : Kept s0 s) : KeptO s0 (execHaspAck a0 a1 a2 s) := by
  unfold execHaspAck
  repeat' with_reducible first
    | assumption | (refine KeptO.next ?_) | (refine KeptO.ite ?_ ?_) | (refine Kept.ite ?_ ?_)
    | (refine Kept.ite2 ?_ ?_) | (refine haspAckWord_kept ?_) | (refine hostWr_kept ?_ (fun _ _ => ?_))

theorem execHaspClear_kept {s0 s : State} {a0 : Fn} {a1 : Bool} {a2 : Word}
    (h : Kept s0 s) : KeptO s0 (execHaspClear a0 a1 a2 s) := by
  unfold execHaspClear
  repeat' with_reducible first
    | assumption | (refine KeptO.next ?_) | (refine KeptO.ite ?_ ?_) | (refine Kept.ite ?_ ?_)
    | (refine Kept.ite2 ?_ ?_) | (refine haspClear_kept ?_) | (refine hostWr_kept ?_ (fun _ _ => ?_))

theorem execHaspLineFall_kept {s0 s : State} {a0 : HaspSrc}
    (h : Kept s0 s) : KeptO s0 (execHaspLineFall a0 s) := by
  unfold execHaspLineFall
  repeat' with_reducible first
    | assumption | (refine KeptO.next ?_) | (refine KeptO.ite ?_ ?_) | (refine Kept.ite ?_ ?_)
    | (refine Kept.ite2 ?_ ?_) | (refine haspLine_kept ?_) | (refine Kept.foldl ?_ (fun _ _ _ => ?_))
    | (refine Kept.foldl2 ?_ (fun _ _ _ => ?_)) | split | (refine Kept.of_parts rfl rfl rfl rfl rfl ?_)

theorem execHaspLineRise_kept {s0 s : State} {a0 : HaspSrc} {a1 : Byte}
    (h : Kept s0 s) : KeptO s0 (execHaspLineRise a0 a1 s) := by
  unfold execHaspLineRise
  repeat' with_reducible first
    | assumption | (refine KeptO.next ?_) | (refine KeptO.ite ?_ ?_) | (refine Kept.ite ?_ ?_)
    | (refine Kept.ite2 ?_ ?_) | (refine haspLineUp_kept ?_)

theorem execHaspWindowClose_kept {s0 s : State} {a0 : HaspSrc}
    (h : Kept s0 s) : KeptO s0 (execHaspWindowClose a0 s) := by
  unfold execHaspWindowClose
  repeat' with_reducible first
    | assumption | (refine KeptO.next ?_) | (refine KeptO.ite ?_ ?_) | (refine Kept.ite ?_ ?_)
    | (refine Kept.ite2 ?_ ?_) | (refine reachCclk_kept ?_) | (refine fset_kept ?_)
    | (refine Kept.foldl ?_ (fun _ _ _ => ?_)) | (refine Kept.foldl2 ?_ (fun _ _ _ => ?_)) | split
    | (refine Kept.of_parts rfl rfl rfl rfl rfl ?_)

theorem adyelSend_kept {s0 s : State} {a0 : Option Nat} {a1 : Bytes}
    (h : Kept s0 s) : Kept s0 (adyelSend a0 a1 s) := by
  unfold adyelSend
  repeat' with_reducible first
    | assumption | (refine Kept.ite ?_ ?_) | (refine Kept.ite2 ?_ ?_) | (refine emit_kept ?_)
    | (refine Kept.foldl ?_ (fun _ _ _ => ?_)) | (refine Kept.foldl2 ?_ (fun _ _ _ => ?_)) | split
    | (refine Kept.of_parts rfl rfl rfl rfl rfl ?_)

theorem authLog_kept {s0 s : State} {a0 : Option Nat} {a1 : Bytes} {a2 : Ans}
    (h : Kept s0 s) : Kept s0 (authLog a0 a1 a2 s) := by
  unfold authLog
  repeat' with_reducible first
    | assumption | (refine Kept.ite ?_ ?_) | (refine Kept.ite2 ?_ ?_) | (refine logPush_kept ?_)

theorem adyelAnswer_kept {s0 s : State} {a0 : Bytes} {a1 : Option Nat} {a2 : Bytes} {a3 : Ans}
    (h : Kept s0 s) : Kept s0 (adyelAnswer a0 a1 a2 a3 s) := by
  unfold adyelAnswer
  repeat' with_reducible first
    | assumption | (refine Kept.ite ?_ ?_) | (refine Kept.ite2 ?_ ?_) | (refine authLog_kept ?_)
    | (refine adyelSend_kept ?_)

theorem authFail_kept {s0 s : State}  (h : Kept s0 s) : Kept s0 (authFail s) := by
  unfold authFail
  repeat' with_reducible first
    | assumption | (refine Kept.ite ?_ ?_) | (refine Kept.ite2 ?_ ?_) | (refine bump_kept ?_)

theorem storeWrite_kept {s0 s : State}  (h : Kept s0 s) : Kept s0 (storeWrite s) := by
  unfold storeWrite
  repeat' with_reducible first
    | assumption | (refine Kept.ite ?_ ?_) | (refine Kept.ite2 ?_ ?_)
    | (refine Kept.foldl ?_ (fun _ _ _ => ?_)) | (refine Kept.foldl2 ?_ (fun _ _ _ => ?_)) | split
    | (refine Kept.of_parts rfl rfl rfl rfl rfl ?_)

theorem critEnd_kept {s0 : State} {key : Bytes} {r : Req} {x : Ans × State} (h : Kept s0 x.2) : Kept s0 (critEnd key r x) := by
  unfold critEnd
  exact adyelSend_kept (logPush_kept (Kept.ite (storeWrite_kept (Kept.of_parts rfl rfl rfl rfl rfl (authLog_kept h)))
    (authLog_kept h)))

theorem critStart_kept {s0 s : State} {a0 : Req} (h : Kept s0 s) : Kept s0 (critStart a0 s) := by
  unfold critStart
  repeat' with_reducible first
    | assumption | (refine Kept.ite ?_ ?_) | (refine Kept.ite2 ?_ ?_) | (refine storeWrite_kept ?_)
    | (refine adyelSend_kept ?_) | (refine Kept.foldl ?_ (fun _ _ _ => ?_))
    | (refine Kept.foldl2 ?_ (fun _ _ _ => ?_)) | split | (refine Kept.of_parts rfl rfl rfl rfl rfl ?_)

theorem critRun_kept {s0 s : State} {r : Req} {k : Req → State → Ans × State} (h : Kept s0 s)
    (hk : ∀ r t, Kept s0 t → Kept s0 (k r t).2) : Kept s0 (critRun r k s).2 :=
  critEnd_kept (hk r _ (critStart_kept h))

theorem replayFail_kept {s0 s : State}  (h : Kept s0 s) : Kept s0 (replayFail s) := by
  unfold replayFail
  repeat' with_reducible first
    | assumption | (refine Kept.ite ?_ ?_) | (refine Kept.ite2 ?_ ?_) | (refine bump_kept ?_)

theorem adyelSteps_kept {s0 s : State} {r : Req} {k : Req → State → Ans × State} (h : Kept s0 s)
    (hk : ∀ r t, Kept s0 t → Kept s0 (k r t).2) : Kept s0 (adyelSteps r k s).2 := by
  unfold adyelSteps
  dsimp only
  split
  · exact adyelAnswer_kept h
  · refine Kept.ite2 (adyelAnswer_kept (hk r s h)) (Kept.ite2 (adyelAnswer_kept (authFail_kept h)) (Kept.ite2 (adyelSend_kept h)
      (Kept.ite2 (adyelAnswer_kept (replayFail_kept h)) (Kept.ite2 (adyelAnswer_kept h) (critRun_kept h hk)))))

theorem adyelTake_kept {s0 s : State} {a : AdyelIn} {x : Req × State} (e : adyelTake a s = some x) (h : Kept s0 s) :
    Kept s0 x.2 := by
  unfold adyelTake at e
  split at e
  · cases e
  · split at e
    · dsimp only at e; split at e
      · cases e
      · cases e; exact Kept.of_parts rfl rfl rfl rfl rfl h
    · split at e
      · cases e
      · cases e; exact h

theorem adyelRun_kept {s0 s : State} {op : Nat} {a : AdyelIn} {k : Req → State → Ans × State} (h : Kept s0 s)
    (hk : ∀ r t, Kept s0 t → Kept s0 (k r t).2) : Kept s0 (adyelRun op a k s).2 := by
  unfold adyelRun
  split
  · exact h
  · exact Kept.ite2 (adyelSteps_kept (adyelTake_kept (x := (_, _)) (by assumption) h) hk) h

theorem grantLog_kept {s0 s : State} {a0 : Nat} {a1 : Nat} {a2 : Nat}
    (h : Kept s0 s) : Kept s0 (grantLog a0 a1 a2 s) := by
  unfold grantLog
  repeat' with_reducible first
    | assumption | (refine Kept.ite ?_ ?_) | (refine Kept.ite2 ?_ ?_) | (refine logPush_kept ?_)

theorem grantStop_kept {s0 s : State} {a0 : Nat} (h : Kept s0 s) : Kept s0 (grantStop a0 s) := by
  unfold grantStop
  repeat' with_reducible first
    | assumption | (refine Kept.ite ?_ ?_) | (refine Kept.ite2 ?_ ?_) | (refine grantLog_kept ?_)
    | (refine setFlag_kept ?_) | (refine Kept.foldl ?_ (fun _ _ _ => ?_))
    | (refine Kept.foldl2 ?_ (fun _ _ _ => ?_)) | split | (refine Kept.of_parts rfl rfl rfl rfl rfl ?_)

theorem epochBurn_kept {s0 s : State} (h : Kept s0 s) : Kept s0 (epochBurn s) :=
  storeWrite_kept (h.trans ⟨rfl, id, le_rfl, le_rfl, Nat.le_succ _⟩)

theorem execAdyelBadFrame_kept {s0 s : State} {a0 : AdyelIn}
    (h : Kept s0 s) : KeptO s0 (execAdyelBadFrame a0 s) := by
  unfold execAdyelBadFrame
  repeat' with_reducible first
    | assumption | (refine KeptO.next ?_) | (refine KeptO.ite ?_ ?_) | (refine Kept.ite ?_ ?_)
    | (refine Kept.ite2 ?_ ?_) | (refine adyelTake_kept (x := (_, _)) (by assumption) ?_)
    | (refine adyelAnswer_kept ?_) | (refine Kept.foldl ?_ (fun _ _ _ => ?_))
    | (refine Kept.foldl2 ?_ (fun _ _ _ => ?_)) | split

theorem helloIn_kept {s0 s : State} {a0 : Nat} {a1 : Bytes} (h : Kept s0 s) : Kept s0 (helloIn a0 a1 s) := by
  unfold helloIn
  repeat' with_reducible first
    | assumption | (refine Kept.ite ?_ ?_) | (refine Kept.ite2 ?_ ?_) | (refine linkStateChanged_kept ?_)
    | (refine haspRise_kept ?_) | (refine setEvent_kept ?_) | (refine setFlag_kept ?_) | (refine fset_kept ?_)
    | (refine flMod_kept ?_)

theorem flCtrlWrite_kept {s0 s : State} {a0 : Nat} {a1 : Word}
    (h : Kept s0 s) : Kept s0 (flCtrlWrite a0 a1 s) := by
  unfold flCtrlWrite
  repeat' with_reducible first
    | assumption | (refine Kept.ite ?_ ?_) | (refine Kept.ite2 ?_ ?_) | (refine linkRequeue_kept ?_)
    | (refine flOn_kept ?_) | (refine linkStateChanged_kept ?_) | (refine flOff_kept ?_)

theorem linkStateIn_kept {s0 s : State} {a0 : Nat} {a1 : Bytes}
    (h : Kept s0 s) : Kept s0 (linkStateIn a0 a1 s) := by
  unfold linkStateIn
  repeat' with_reducible first
    | assumption | (refine Kept.ite ?_ ?_) | (refine Kept.ite2 ?_ ?_) | (refine ctlSend_kept ?_)
    | (refine Kept.foldl ?_ (fun _ _ _ => ?_)) | (refine Kept.foldl2 ?_ (fun _ _ _ => ?_)) | split
    | (refine Kept.of_parts rfl rfl rfl rfl rfl ?_)

theorem timeSyncIn_kept {s0 s : State} {a0 : Nat} {a1 : Bytes}
    (h : Kept s0 s) : Kept s0 (timeSyncIn a0 a1 s) := by
  unfold timeSyncIn
  repeat' with_reducible first
    | assumption | (refine Kept.ite ?_ ?_) | (refine Kept.ite2 ?_ ?_)
    | (refine Kept.foldl ?_ (fun _ _ _ => ?_)) | (refine Kept.foldl2 ?_ (fun _ _ _ => ?_)) | split
    | (refine Kept.of_parts rfl rfl rfl rfl rfl ?_)

theorem controlIn_kept {s0 s : State} {a0 : Nat} {a1 : Bytes}
    (h : Kept s0 s) : Kept s0 (controlIn a0 a1 s) := by
  unfold controlIn
  repeat' with_reducible first
    | assumption | (refine Kept.ite ?_ ?_) | (refine Kept.ite2 ?_ ?_) | (refine timeSyncIn_kept ?_)
    | (refine linkStateIn_kept ?_) | (refine helloIn_kept ?_) | (refine Kept.foldl ?_ (fun _ _ _ => ?_))
    | (refine Kept.foldl2 ?_ (fun _ _ _ => ?_)) | split

theorem flDrained_kept {s0 s : State} {a0 : Nat} (h : Kept s0 s) : Kept s0 (flDrained a0 s) := by
  unfold flDrained
  repeat' with_reducible first
    | assumption | (refine Kept.ite ?_ ?_) | (refine Kept.ite2 ?_ ?_) | (refine reachCclk_kept ?_)
    | (refine linkStateChanged_kept ?_) | (refine flReplayEnd_kept ?_) | (refine flQueuesEnd_kept ?_)
    | (refine flDown_kept ?_) | (refine setFlag_kept ?_) | (refine flMod_kept ?_)

theorem execFlDrainEnd_kept {s0 s : State} {a0 : Link} (h : Kept s0 s) : KeptO s0 (execFlDrainEnd a0 s) := by
  unfold execFlDrainEnd
  repeat' with_reducible first
    | assumption | (refine KeptO.next ?_) | (refine KeptO.ite ?_ ?_) | (refine Kept.ite ?_ ?_)
    | (refine Kept.ite2 ?_ ?_) | (refine flDrained_kept ?_)

theorem flitBad_kept {s0 s : State} {a0 : Nat} (h : Kept s0 s) : Kept s0 (flitBad a0 s) := by
  unfold flitBad
  repeat' with_reducible first
    | assumption | (refine Kept.ite ?_ ?_) | (refine Kept.ite2 ?_ ?_) | (refine setFlag_kept ?_)
    | (refine flMod_kept ?_)

theorem execFlDisable_kept {s0 s : State} {a0 : Fn} {a1 : Link} {a2 : Word}
    (h : Kept s0 s) : KeptO s0 (execFlDisable a0 a1 a2 s) := by
  unfold execFlDisable
  repeat' with_reducible first
    | assumption | (refine KeptO.next ?_) | (refine KeptO.ite ?_ ?_) | (refine Kept.ite ?_ ?_)
    | (refine Kept.ite2 ?_ ?_) | (refine hostWr_kept ?_ (fun _ _ => ?_)) | (refine flCtrlWrite_kept ?_)

theorem startPacket_kept {s0 s : State} {a0 : Nat} (h : Kept s0 s) : Kept s0 (startPacket a0 s) := by
  unfold startPacket
  repeat' with_reducible first
    | assumption | (refine Kept.ite ?_ ?_) | (refine Kept.ite2 ?_ ?_) | (refine postcard_kept ?_)
    | (refine setShared_kept ?_) | (refine flMod_kept ?_) | (refine Kept.foldl ?_ (fun _ _ _ => ?_))
    | (refine Kept.foldl2 ?_ (fun _ _ _ => ?_)) | split | (dsimp only; split)

theorem fillFlit_kept {s0 s : State} {l n : Nat} (h : Kept s0 s) : Kept s0 (fillFlit l n s) := by
  induction n generalizing s with
  | zero => exact h
  | succ n ih => unfold fillFlit; exact Kept.ite h (ih (startPacket_kept h))

theorem sendFlit_kept {s0 s : State} {a0 : Nat} {a1 : Nat} {a2 : Nat} {a3 : Bytes}
    (h : Kept s0 s) : Kept s0 (sendFlit a0 a1 a2 a3 s) := by
  unfold sendFlit
  repeat' with_reducible first
    | assumption | (refine Kept.ite ?_ ?_) | (refine Kept.ite2 ?_ ?_) | (refine emit_kept ?_)
    | (refine flMod_kept ?_)

theorem sendData_kept {s0 s : State} {a0 : Nat} (h : Kept s0 s) : Kept s0 (sendData a0 s) := by
  unfold sendData
  repeat' with_reducible first
    | assumption | (refine Kept.ite ?_ ?_) | (refine Kept.ite2 ?_ ?_) | (refine sendFlit_kept ?_)
    | (refine fillFlit_kept ?_) | (refine copyGone_kept ?_) | (refine flMod_kept ?_)
    | (refine Kept.foldl ?_ (fun _ _ _ => ?_))

theorem flitOut_kept {s0 s : State} {a0 : Nat} (h : Kept s0 s) : Kept s0 (flitOut a0 s) := by
  unfold flitOut
  repeat' with_reducible first
    | assumption | (refine Kept.ite ?_ ?_) | (refine Kept.ite2 ?_ ?_) | (refine sendData_kept ?_)
    | (refine sendFlit_kept ?_) | (refine emit_kept ?_) | (refine bump_kept ?_) | (refine flMod_kept ?_)
    | (refine Kept.foldl ?_ (fun _ _ _ => ?_)) | (refine Kept.foldl2 ?_ (fun _ _ _ => ?_)) | split

theorem execFlitSend_kept {s0 s : State} {a0 : Link} (h : Kept s0 s) : KeptO s0 (execFlitSend a0 s) := by
  unfold execFlitSend
  repeat' with_reducible first
    | assumption | (refine KeptO.next ?_) | (refine KeptO.ite ?_ ?_) | (refine Kept.ite ?_ ?_)
    | (refine Kept.ite2 ?_ ?_) | (refine flitOut_kept ?_)

theorem execLinkRestore_kept {s0 s : State} {a0 : Link}
    (h : Kept s0 s) : KeptO s0 (execLinkRestore a0 s) := by
  unfold execLinkRestore
  repeat' with_reducible first
    | assumption | (refine KeptO.next ?_) | (refine KeptO.ite ?_ ?_) | (refine Kept.ite ?_ ?_)
    | (refine Kept.ite2 ?_ ?_) | (refine reachCclk_kept ?_) | (refine linkStateChanged_kept ?_)
    | (refine setFlag_kept ?_) | (refine flMod_kept ?_)

theorem execHello_kept {s0 s : State} {a0 : Link} {a1 : Bytes}
    (h : Kept s0 s) : KeptO s0 (execHello a0 a1 s) := by
  unfold execHello
  repeat' with_reducible first
    | assumption | (refine KeptO.next ?_) | (refine KeptO.ite ?_ ?_) | (refine Kept.ite ?_ ?_)
    | (refine Kept.ite2 ?_ ?_) | (refine helloIn_kept ?_)

theorem edgeNote_kept {s0 s : State}  (h : Kept s0 s) : Kept s0 (edgeNote s) := by
  unfold edgeNote
  repeat' with_reducible first
    | assumption | (refine Kept.ite ?_ ?_) | (refine Kept.ite2 ?_ ?_)
    | (refine Kept.foldl ?_ (fun _ _ _ => ?_)) | (refine Kept.foldl2 ?_ (fun _ _ _ => ?_)) | split
    | (dsimp only; split) | (refine Kept.of_parts rfl rfl rfl rfl rfl ?_)

theorem followEdge_kept {s0 s : State}  (h : Kept s0 s) : Kept s0 (followEdge s) := by
  unfold followEdge
  repeat' with_reducible first
    | assumption | (refine Kept.ite ?_ ?_) | (refine Kept.ite2 ?_ ?_) | (refine timeIncrSet_kept ?_)
    | (refine edgeNote_kept ?_) | (refine timeStepBy_kept ?_) | (refine freshValue_kept ?_)
    | (refine setFlag_kept ?_) | (refine fset_kept ?_) | (refine Kept.foldl ?_ (fun _ _ _ => ?_))
    | (refine Kept.foldl2 ?_ (fun _ _ _ => ?_)) | split | (refine Kept.of_parts rfl rfl rfl rfl rfl ?_)

theorem execShkTickEdge_kept {s0 s : State}  (h : Kept s0 s) : KeptO s0 (execShkTickEdge s) := by
  unfold execShkTickEdge
  repeat' with_reducible first
    | assumption | (refine KeptO.next ?_) | (refine KeptO.ite ?_ ?_) | (refine Kept.ite ?_ ?_)
    | (refine Kept.ite2 ?_ ?_) | (refine followEdge_kept ?_)

theorem execFlEnable_kept {s0 s : State} {a0 : Fn} {a1 : Link} {a2 : Word}
    (h : Kept s0 s) : KeptO s0 (execFlEnable a0 a1 a2 s) := by
  unfold execFlEnable
  repeat' with_reducible first
    | assumption | (refine KeptO.next ?_) | (refine KeptO.ite ?_ ?_) | (refine Kept.ite ?_ ?_)
    | (refine Kept.ite2 ?_ ?_) | (refine hostWr_kept ?_ (fun _ _ => ?_)) | (refine flCtrlWrite_kept ?_)

theorem lockUp_kept {s0 s : State} {a0 : Nat} (h : Kept s0 s) : Kept s0 (lockUp a0 s) := by
  unfold lockUp
  repeat' with_reducible first
    | assumption | (refine Kept.ite ?_ ?_) | (refine Kept.ite2 ?_ ?_) | (refine linkRequeue_kept ?_)
    | (refine flReplayEnd_kept ?_) | (refine setFlag_kept ?_) | (refine flMod_kept ?_)

theorem execFlitLock_kept {s0 s : State} {a0 : Link} (h : Kept s0 s) : KeptO s0 (execFlitLock a0 s) := by
  unfold execFlitLock
  repeat' with_reducible first
    | assumption | (refine KeptO.next ?_) | (refine KeptO.ite ?_ ?_) | (refine Kept.ite ?_ ?_)
    | (refine Kept.ite2 ?_ ?_) | (refine lockUp_kept ?_)

theorem execFlitLockLoss_kept {s0 s : State} {a0 : Link} {a1 : LockLoss}
    (h : Kept s0 s) : KeptO s0 (execFlitLockLoss a0 a1 s) := by
  unfold execFlitLockLoss
  repeat' with_reducible first
    | assumption | (refine KeptO.next ?_) | (refine KeptO.ite ?_ ?_) | (refine Kept.ite ?_ ?_)
    | (refine Kept.ite2 ?_ ?_) | (refine setFlag_kept ?_)

theorem ackIn_kept {s0 s : State} {a0 : Nat} {a1 : Nat} (h : Kept s0 s) : Kept s0 (ackIn a0 a1 s) := by
  unfold ackIn
  repeat' with_reducible first
    | assumption | (refine Kept.ite ?_ ?_) | (refine Kept.ite2 ?_ ?_) | (refine flMod_kept ?_)

theorem packetIn_kept {s0 s : State} {a0 : Nat} {a1 : Bytes}
    (h : Kept s0 s) : Kept s0 (packetIn a0 a1 s) := by
  unfold packetIn
  repeat' with_reducible first
    | assumption | (refine Kept.ite ?_ ?_) | (refine Kept.ite2 ?_ ?_) | (refine newFlight_kept ?_)
    | (refine replicate_kept ?_) | (refine meshSend_kept ?_) | (refine toPortAny_kept ?_)
    | (refine addCopy_kept ?_) | (refine linkAdmit_kept ?_) | (refine endCopy_kept ?_)
    | (refine copyGone_kept ?_) | (refine bump_kept ?_) | (refine flMod_kept ?_)

theorem packetsIn_kept {s0 s : State} {l n : Nat} {b : Bytes}
    (h : Kept s0 s) : Kept s0 (packetsIn l n b s).2 := by
  induction n generalizing b s with
  | zero => exact h
  | succ n ih =>
    unfold packetsIn
    exact Kept.ite2 h (Kept.ite2 h (Kept.ite2 h (ih (packetIn_kept h))))

theorem dataIn_kept {s0 s : State} {a0 : Nat} {a1 : Bytes} (h : Kept s0 s) : Kept s0 (dataIn a0 a1 s) := by
  unfold dataIn
  repeat' with_reducible first
    | assumption | (refine Kept.ite ?_ ?_) | (refine Kept.ite2 ?_ ?_) | (refine packetsIn_kept ?_)
    | (refine flMod_kept ?_)

theorem flitIn_kept {s0 s : State} {a0 : Nat} {a1 : Bytes} (h : Kept s0 s) : Kept s0 (flitIn a0 a1 s) := by
  unfold flitIn
  repeat' with_reducible first
    | assumption | (refine Kept.ite ?_ ?_) | (refine Kept.ite2 ?_ ?_) | (refine dataIn_kept ?_)
    | (refine ackIn_kept ?_) | (refine flitBad_kept ?_) | (refine controlIn_kept ?_) | (refine flMod_kept ?_)

theorem execFlitReceive_kept {s0 s : State} {a0 : Link} {a1 : Bytes}
    (h : Kept s0 s) : KeptO s0 (execFlitReceive a0 a1 s) := by
  unfold execFlitReceive
  repeat' with_reducible first
    | assumption | (refine KeptO.next ?_) | (refine KeptO.ite ?_ ?_) | (refine Kept.ite ?_ ?_)
    | (refine Kept.ite2 ?_ ?_) | (refine flitIn_kept ?_)

theorem execLinkState_kept {s0 s : State} {a0 : Link} {a1 : Bytes}
    (h : Kept s0 s) : KeptO s0 (execLinkState a0 a1 s) := by
  unfold execLinkState
  repeat' with_reducible first
    | assumption | (refine KeptO.next ?_) | (refine KeptO.ite ?_ ?_) | (refine Kept.ite ?_ ?_)
    | (refine Kept.ite2 ?_ ?_) | (refine linkStateIn_kept ?_)

theorem peerLost_kept {s0 s : State} {a0 : Nat} (h : Kept s0 s) : Kept s0 (peerLost a0 s) := by
  unfold peerLost
  repeat' with_reducible first
    | assumption | (refine Kept.ite ?_ ?_) | (refine Kept.ite2 ?_ ?_) | (refine linkRequeue_kept ?_)
    | (refine linkStateChanged_kept ?_) | (refine haspRise_kept ?_) | (refine setEvent_kept ?_)
    | (refine flReplayEnd_kept ?_) | (refine flDown_kept ?_) | (refine setFlag_kept ?_)
    | (refine flMod_kept ?_)

theorem execPeerLost_kept {s0 s : State} {a0 : Link} (h : Kept s0 s) : KeptO s0 (execPeerLost a0 s) := by
  unfold execPeerLost
  repeat' with_reducible first
    | assumption | (refine KeptO.next ?_) | (refine KeptO.ite ?_ ?_) | (refine Kept.ite ?_ ?_)
    | (refine Kept.ite2 ?_ ?_) | (refine peerLost_kept ?_) | (refine reachCclk_kept ?_)

theorem execShkFaultSeen_kept {s0 s : State}  (h : Kept s0 s) : KeptO s0 (execShkFaultSeen s) := by
  unfold execShkFaultSeen
  repeat' with_reducible first
    | assumption | (refine KeptO.next ?_) | (refine KeptO.ite ?_ ?_) | (refine Kept.ite ?_ ?_)
    | (refine Kept.ite2 ?_ ?_) | (refine haspLevel_kept ?_) | (refine haspRise_kept ?_)
    | (refine Kept.foldl ?_ (fun _ _ _ => ?_)) | (refine Kept.foldl2 ?_ (fun _ _ _ => ?_)) | split
    | (refine Kept.of_parts rfl rfl rfl rfl rfl ?_)

theorem execShkTickLost_kept {s0 s : State}  (h : Kept s0 s) : KeptO s0 (execShkTickLost s) := by
  unfold execShkTickLost
  repeat' with_reducible first
    | assumption | (refine KeptO.next ?_) | (refine KeptO.ite ?_ ?_) | (refine Kept.ite ?_ ?_)
    | (refine Kept.ite2 ?_ ?_) | (refine reachCclk_kept ?_) | (refine haspRise_kept ?_)
    | (refine setEvent_kept ?_) | (refine setFlag_kept ?_) | (refine Kept.foldl ?_ (fun _ _ _ => ?_))
    | (refine Kept.foldl2 ?_ (fun _ _ _ => ?_)) | split | (refine Kept.of_parts rfl rfl rfl rfl rfl ?_)

theorem execTimeSync_kept {s0 s : State} {a0 : Link} {a1 : Bytes}
    (h : Kept s0 s) : KeptO s0 (execTimeSync a0 a1 s) := by
  unfold execTimeSync
  repeat' with_reducible first
    | assumption | (refine KeptO.next ?_) | (refine KeptO.ite ?_ ?_) | (refine Kept.ite ?_ ?_)
    | (refine Kept.ite2 ?_ ?_) | (refine timeSyncIn_kept ?_)

theorem execTimeSyncSend_kept {s0 s : State}  (h : Kept s0 s) : KeptO s0 (execTimeSyncSend s) := by
  unfold execTimeSyncSend
  repeat' with_reducible first
    | assumption | (refine KeptO.next ?_) | (refine KeptO.ite ?_ ?_) | (refine Kept.ite ?_ ?_)
    | (refine Kept.ite2 ?_ ?_) | (refine ctlSend_kept ?_) | (refine Kept.foldl ?_ (fun _ _ _ => ?_))

theorem stbyStatus_kept {s0 s : State} {a0 : Nat} (h : Kept s0 s) : Kept s0 (stbyStatus a0 s) := by
  unfold stbyStatus
  repeat' with_reducible first
    | assumption | (refine Kept.ite ?_ ?_) | (refine Kept.ite2 ?_ ?_) | (refine fset_kept ?_)

theorem setTransition_kept {s0 s : State} {a0 : Nat} (h : Kept s0 s) : Kept s0 (setTransition a0 s) := by
  unfold setTransition
  repeat' with_reducible first
    | assumption | (refine Kept.ite ?_ ?_) | (refine Kept.ite2 ?_ ?_) | (refine setFlag_kept ?_)
    | (refine fset_kept ?_)

theorem takeStandby_kept {s0 s : State} {a0 : Bool} (h : Kept s0 s) : Kept s0 (takeStandby a0 s) := by
  unfold takeStandby
  repeat' with_reducible first
    | assumption | (refine Kept.ite ?_ ?_) | (refine Kept.ite2 ?_ ?_) | (refine setTransition_kept ?_)
    | (refine stbyStatus_kept ?_) | (refine Kept.foldl ?_ (fun _ _ _ => ?_))
    | (refine Kept.foldl2 ?_ (fun _ _ _ => ?_)) | split | (refine Kept.of_parts rfl rfl rfl rfl rfl ?_)

theorem grantStandby_kept {s0 s : State} {a0 : Bool} (h : Kept s0 s) : Kept s0 (grantStandby a0 s) := by
  unfold grantStandby
  repeat' with_reducible first
    | assumption | (refine Kept.ite ?_ ?_) | (refine Kept.ite2 ?_ ?_) | (refine takeStandby_kept ?_)
    | (refine stbyStatus_kept ?_) | (refine Kept.foldl ?_ (fun _ _ _ => ?_))
    | (refine Kept.foldl2 ?_ (fun _ _ _ => ?_)) | split | (refine Kept.of_parts rfl rfl rfl rfl rfl ?_)

theorem enginesOn_kept {s0 s : State}  (h : Kept s0 s) : Kept s0 (enginesOn s) := by
  unfold enginesOn
  repeat' with_reducible first
    | assumption | (refine Kept.ite ?_ ?_) | (refine Kept.ite2 ?_ ?_) | (refine engKick_kept ?_)
    | (refine ceOn_kept ?_) | (refine Kept.foldl ?_ (fun _ _ _ => ?_))

theorem quiesce_kept {s0 s : State}  (h : Kept s0 s) : Kept s0 (quiesce s) := by
  unfold quiesce
  repeat' with_reducible first
    | assumption | (refine Kept.ite ?_ ?_) | (refine Kept.ite2 ?_ ?_) | (refine essOff_kept ?_)
    | (refine fFlag_kept ?_) | (refine macOff_kept ?_) | (refine flOff_kept ?_) | (refine dcOff_kept ?_)
    | (refine ceOff_kept ?_) | (refine Kept.foldl ?_ (fun _ _ _ => ?_))

theorem startConfigure_kept {s0 s : State}  (h : Kept s0 s) : Kept s0 (startConfigure s) := by
  unfold startConfigure
  repeat' with_reducible first
    | assumption | (refine Kept.ite ?_ ?_) | (refine Kept.ite2 ?_ ?_) | (refine quiesce_kept ?_)
    | (refine scClose_kept ?_) | (refine setTransition_kept ?_) | (refine Kept.foldl ?_ (fun _ _ _ => ?_))

theorem bootBegin_kept {s0 s : State} {a0 : Bool} (h : Kept s0 s) : Kept s0 (bootBegin a0 s) := by
  unfold bootBegin
  repeat' with_reducible first
    | assumption | (refine Kept.ite ?_ ?_) | (refine Kept.ite2 ?_ ?_) | (refine setFlag_kept ?_)
    | (refine fset_kept ?_) | (refine Kept.foldl ?_ (fun _ _ _ => ?_))
    | (refine Kept.foldl2 ?_ (fun _ _ _ => ?_)) | split | (refine Kept.of_parts rfl rfl rfl rfl rfl ?_)

theorem execPowerUp_kept {s0 s : State} {a0 : Bool} (h : Kept s0 s) : KeptO s0 (execPowerUp a0 s) := by
  unfold execPowerUp
  repeat' with_reducible first
    | assumption | (refine KeptO.next ?_) | (refine KeptO.ite ?_ ?_) | (refine Kept.ite ?_ ?_)
    | (refine Kept.ite2 ?_ ?_) | (refine bootBegin_kept ?_) | (refine passCclk_kept ?_)
    | (refine Kept.foldl ?_ (fun _ _ _ => ?_)) | (refine Kept.foldl2 ?_ (fun _ _ _ => ?_)) | split
    | (refine Kept.of_parts rfl rfl rfl rfl rfl ?_)

theorem tapShift_kept {s0 s : State} {a0 : JtagInstr} {a1 : Bytes}
    (h : Kept s0 s) : Kept s0 (tapShift a0 a1 s).2 := by
  unfold tapShift
  repeat' with_reducible first
    | assumption | (refine Kept.ite ?_ ?_) | (refine Kept.ite2 ?_ ?_)
    | (refine Kept.foldl ?_ (fun _ _ _ => ?_)) | (refine Kept.foldl2 ?_ (fun _ _ _ => ?_)) | split
    | (refine Kept.of_parts rfl rfl rfl rfl rfl ?_)

theorem resetTake_kept {s0 s : State} {a0 : Nat} {a1 : Fld} {a2 : Bool}
    (h : Kept s0 s) : Kept s0 (resetTake a0 a1 a2 s) := by
  unfold resetTake
  repeat' with_reducible first
    | assumption | (refine Kept.ite ?_ ?_) | (refine Kept.ite2 ?_ ?_) | (refine bootEnter_kept ?_)
    | (refine setFlag_kept ?_) | (refine Kept.foldl ?_ (fun _ _ _ => ?_))
    | (refine Kept.foldl2 ?_ (fun _ _ _ => ?_)) | split | (refine Kept.of_parts rfl rfl rfl rfl rfl ?_)

theorem execShkReset_kept {s0 s : State}  (h : Kept s0 s) : KeptO s0 (execShkReset s) := by
  unfold execShkReset
  repeat' with_reducible first
    | assumption | (refine KeptO.next ?_) | (refine KeptO.ite ?_ ?_) | (refine Kept.ite ?_ ?_)
    | (refine Kept.ite2 ?_ ?_) | (refine resetTake_kept ?_)

theorem reqConfigure_kept {s0 s : State}  (h : Kept s0 s) : Kept s0 (reqConfigure s).2 := by
  unfold reqConfigure
  repeat' with_reducible first
    | assumption | (refine Kept.ite ?_ ?_) | (refine Kept.ite2 ?_ ?_) | (refine startConfigure_kept ?_)
    | (refine Kept.foldl ?_ (fun _ _ _ => ?_)) | (refine Kept.foldl2 ?_ (fun _ _ _ => ?_)) | split
    | (refine Kept.of_parts rfl rfl rfl rfl rfl ?_)

theorem reqOperate_kept {s0 s : State}  (h : Kept s0 s) : Kept s0 (reqOperate s).2 := by
  unfold reqOperate
  repeat' with_reducible first
    | assumption | (refine Kept.ite ?_ ?_) | (refine Kept.ite2 ?_ ?_) | (refine enginesOn_kept ?_)
    | (refine enterMode_kept ?_)

theorem reqStandby_kept {s0 s : State} {a0 : Bool} {a1 : Bool}
    (h : Kept s0 s) : Kept s0 (reqStandby a0 a1 s).2 := by
  unfold reqStandby
  repeat' with_reducible first
    | assumption | (refine Kept.ite ?_ ?_) | (refine Kept.ite2 ?_ ?_) | (refine grantStandby_kept ?_)
    | (refine stbyStatus_kept ?_) | (refine Kept.foldl ?_ (fun _ _ _ => ?_))
    | (refine Kept.foldl2 ?_ (fun _ _ _ => ?_)) | split | (refine Kept.of_parts rfl rfl rfl rfl rfl ?_)

theorem modeReq_kept {s0 s : State} {a0 : Nat} {a1 : Word} (h : Kept s0 s) : Kept s0 (modeReq a0 a1 s) := by
  unfold modeReq
  repeat' with_reducible first
    | assumption | (refine Kept.ite ?_ ?_) | (refine Kept.ite2 ?_ ?_) | (refine reqStandby_kept ?_)
    | (refine reqOperate_kept ?_) | (refine reqConfigure_kept ?_) | (refine fset_kept ?_)

theorem execStandbyRequest_kept {s0 s : State} {a0 : Fn} {a1 : Word}
    (h : Kept s0 s) : KeptO s0 (execStandbyRequest a0 a1 s) := by
  unfold execStandbyRequest
  repeat' with_reducible first
    | assumption | (refine KeptO.next ?_) | (refine KeptO.ite ?_ ?_) | (refine Kept.ite ?_ ?_)
    | (refine Kept.ite2 ?_ ?_) | (refine modeReq_kept ?_) | (refine hostWr_kept ?_ (fun _ _ => ?_))

theorem goOff_kept {s0 s : State}  (h : Kept s0 s) : Kept s0 (goOff s) := by
  unfold goOff
  repeat' with_reducible first
    | assumption | (refine Kept.ite ?_ ?_) | (refine Kept.ite2 ?_ ?_) | (refine coldReset_kept ?_)
    | (refine fset_kept ?_) | (refine Kept.foldl ?_ (fun _ _ _ => ?_))
    | (refine Kept.foldl2 ?_ (fun _ _ _ => ?_)) | split | (refine Kept.of_parts rfl rfl rfl rfl rfl ?_)

theorem execRailLoss_kept {s0 s : State}  (h : Kept s0 s) : KeptO s0 (execRailLoss s) := by
  unfold execRailLoss
  repeat' with_reducible first
    | assumption | (refine KeptO.next ?_) | (refine KeptO.ite ?_ ?_) | (refine Kept.ite ?_ ?_)
    | (refine Kept.ite2 ?_ ?_) | (refine goOff_kept ?_) | (refine Kept.foldl ?_ (fun _ _ _ => ?_))
    | (refine Kept.foldl2 ?_ (fun _ _ _ => ?_)) | split | (refine Kept.of_parts rfl rfl rfl rfl rfl ?_)

theorem drainsEnd_kept {s0 s : State}  (h : Kept s0 s) : Kept s0 (drainsEnd s) := by
  unfold drainsEnd
  repeat' with_reducible first
    | assumption | (refine Kept.ite ?_ ?_) | (refine Kept.ite2 ?_ ?_) | (refine scDrained_kept ?_)
    | (refine macDrained_kept ?_) | (refine essDrained_kept ?_) | (refine dcDrained_kept ?_)
    | (refine flDrained_kept ?_) | (refine ceDrained_kept ?_) | (refine Kept.foldl ?_ (fun _ _ _ => ?_))

theorem execConfigureEntry_kept {s0 s : State}  (h : Kept s0 s) : KeptO s0 (execConfigureEntry s) := by
  unfold execConfigureEntry
  repeat' with_reducible first
    | assumption | (refine KeptO.next ?_) | (refine KeptO.ite ?_ ?_) | (refine Kept.ite ?_ ?_)
    | (refine Kept.ite2 ?_ ?_) | (refine drainsEnd_kept ?_) | (refine enterMode_kept ?_)
    | (refine setFlag_kept ?_)

theorem execStbyReqPin_kept {s0 s : State}  (h : Kept s0 s) : KeptO s0 (execStbyReqPin s) := by
  unfold execStbyReqPin
  repeat' with_reducible first
    | assumption | (refine KeptO.next ?_) | (refine KeptO.ite ?_ ?_) | (refine Kept.ite ?_ ?_)
    | (refine Kept.ite2 ?_ ?_) | (refine reqStandby_kept ?_) | (refine Kept.foldl ?_ (fun _ _ _ => ?_))
    | (refine Kept.foldl2 ?_ (fun _ _ _ => ?_)) | split | (refine Kept.of_parts rfl rfl rfl rfl rfl ?_)

theorem unitOn_kept {s0 s : State} {a0 : Nat} (h : Kept s0 s) : Kept s0 (unitOn a0 s) := by
  unfold unitOn
  repeat' with_reducible first
    | assumption | (refine Kept.ite ?_ ?_) | (refine Kept.ite2 ?_ ?_) | (refine macOn_kept ?_)
    | (refine dcOn_kept ?_) | (refine essEnableDo_kept ?_) | (refine engKick_kept ?_) | (refine ceOn_kept ?_)
    | (refine flOn_kept ?_)

theorem wakeLatch_kept {s0 s : State} {a0 : Nat} (h : Kept s0 s) : Kept s0 (wakeLatch a0 s) := by
  unfold wakeLatch
  repeat' with_reducible first
    | assumption | (refine Kept.ite ?_ ?_) | (refine Kept.ite2 ?_ ?_) | (refine setFlag_kept ?_)
    | (refine fset_kept ?_) | (refine Kept.foldl ?_ (fun _ _ _ => ?_))
    | (refine Kept.foldl2 ?_ (fun _ _ _ => ?_)) | split | (refine Kept.of_parts rfl rfl rfl rfl rfl ?_)

theorem execL2ReadyEntry_kept {s0 s : State}  (h : Kept s0 s) : KeptO s0 (execL2ReadyEntry s) := by
  unfold execL2ReadyEntry
  repeat' with_reducible first
    | assumption | (refine KeptO.next ?_) | (refine KeptO.ite ?_ ?_) | (refine Kept.ite ?_ ?_)
    | (refine Kept.ite2 ?_ ?_) | (refine grantStandby_kept ?_) | (refine stbyStatus_kept ?_)
    | (refine Kept.foldl ?_ (fun _ _ _ => ?_)) | (refine Kept.foldl2 ?_ (fun _ _ _ => ?_)) | split
    | (dsimp only; split) | (refine Kept.of_parts rfl rfl rfl rfl rfl ?_)

theorem execBoundaryScan_kept {s0 s : State} {a0 : JtagInstr} {a1 : Bytes}
    (h : Kept s0 s) : KeptO s0 (execBoundaryScan a0 a1 s) := by
  unfold execBoundaryScan
  repeat' with_reducible first
    | assumption | (refine KeptO.next ?_) | (refine KeptO.ite ?_ ?_) | (refine Kept.ite ?_ ?_)
    | (refine Kept.ite2 ?_ ?_) | (refine tapShift_kept ?_) | (refine emit_kept ?_)

theorem heldProceed_kept {s0 s : State}  (h : Kept s0 s) : Kept s0 (heldProceed s) := by
  unfold heldProceed
  repeat' with_reducible first
    | assumption | (refine Kept.ite ?_ ?_) | (refine Kept.ite2 ?_ ?_) | (refine reqConfigure_kept ?_)
    | (refine takeStandby_kept ?_) | (refine stbyStatus_kept ?_) | (refine Kept.foldl ?_ (fun _ _ _ => ?_))
    | (refine Kept.foldl2 ?_ (fun _ _ _ => ?_)) | split | (refine Kept.of_parts rfl rfl rfl rfl rfl ?_)

theorem execModeReqConfigure_kept {s0 s : State} {a0 : Fn} {a1 : Word}
    (h : Kept s0 s) : KeptO s0 (execModeReqConfigure a0 a1 s) := by
  unfold execModeReqConfigure
  repeat' with_reducible first
    | assumption | (refine KeptO.next ?_) | (refine KeptO.ite ?_ ?_) | (refine Kept.ite ?_ ?_)
    | (refine Kept.ite2 ?_ ?_) | (refine modeReq_kept ?_) | (refine hostWr_kept ?_ (fun _ _ => ?_))

theorem execModeReqOperate_kept {s0 s : State} {a0 : Fn} {a1 : Word}
    (h : Kept s0 s) : KeptO s0 (execModeReqOperate a0 a1 s) := by
  unfold execModeReqOperate
  repeat' with_reducible first
    | assumption | (refine KeptO.next ?_) | (refine KeptO.ite ?_ ?_) | (refine Kept.ite ?_ ?_)
    | (refine Kept.ite2 ?_ ?_) | (refine modeReq_kept ?_) | (refine hostWr_kept ?_ (fun _ _ => ?_))

theorem pcieReset_kept {s0 s : State}  (h : Kept s0 s) : Kept s0 (pcieReset s) := by
  unfold pcieReset
  repeat' with_reducible first
    | assumption | (refine Kept.ite ?_ ?_) | (refine Kept.ite2 ?_ ?_) | (refine fset_kept ?_)
    | (refine Kept.foldl ?_ (fun _ _ _ => ?_)) | (refine Kept.foldl2 ?_ (fun _ _ _ => ?_)) | split
    | (refine Kept.of_parts rfl rfl rfl rfl rfl ?_)

theorem execPerstFall_kept {s0 s : State}  (h : Kept s0 s) : KeptO s0 (execPerstFall s) := by
  unfold execPerstFall
  repeat' with_reducible first
    | assumption | (refine KeptO.next ?_) | (refine KeptO.ite ?_ ?_) | (refine Kept.ite ?_ ?_)
    | (refine Kept.ite2 ?_ ?_) | (refine pcieReset_kept ?_) | (refine flr_kept ?_)
    | (refine linkDownAct_kept ?_) | (refine setFlag_kept ?_) | (refine Kept.foldl ?_ (fun _ _ _ => ?_))
    | (refine Kept.foldl2 ?_ (fun _ _ _ => ?_)) | split | (refine Kept.of_parts rfl rfl rfl rfl rfl ?_)

theorem execPorstFall_kept {s0 s : State}  (h : Kept s0 s) : KeptO s0 (execPorstFall s) := by
  unfold execPorstFall
  repeat' with_reducible first
    | assumption | (refine KeptO.next ?_) | (refine KeptO.ite ?_ ?_) | (refine Kept.ite ?_ ?_)
    | (refine Kept.ite2 ?_ ?_) | (refine goOff_kept ?_) | (refine setFlag_kept ?_)
    | (refine Kept.foldl ?_ (fun _ _ _ => ?_)) | (refine Kept.foldl2 ?_ (fun _ _ _ => ?_)) | split
    | (refine Kept.of_parts rfl rfl rfl rfl rfl ?_)

theorem execRailUp_kept {s0 s : State}  (h : Kept s0 s) : KeptO s0 (execRailUp s) := by
  unfold execRailUp
  repeat' with_reducible first
    | assumption | (refine KeptO.next ?_) | (refine KeptO.ite ?_ ?_) | (refine Kept.ite ?_ ?_)
    | (refine Kept.ite2 ?_ ?_) | (refine Kept.foldl ?_ (fun _ _ _ => ?_))
    | (refine Kept.foldl2 ?_ (fun _ _ _ => ?_)) | split | (refine Kept.of_parts rfl rfl rfl rfl rfl ?_)

theorem execResetRelease_kept {s0 s : State} {a0 : Bool}
    (h : Kept s0 s) : KeptO s0 (execResetRelease a0 s) := by
  unfold execResetRelease
  repeat' with_reducible first
    | assumption | (refine KeptO.next ?_) | (refine KeptO.ite ?_ ?_) | (refine Kept.ite ?_ ?_)
    | (refine Kept.ite2 ?_ ?_) | (refine bootBegin_kept ?_) | (refine passCclk_kept ?_)
    | (refine Kept.foldl ?_ (fun _ _ _ => ?_)) | (refine Kept.foldl2 ?_ (fun _ _ _ => ?_)) | split
    | (refine Kept.of_parts rfl rfl rfl rfl rfl ?_)

theorem execStandbyGating_kept {s0 s : State}  (h : Kept s0 s) : KeptO s0 (execStandbyGating s) := by
  unfold execStandbyGating
  repeat' with_reducible first
    | assumption | (refine KeptO.next ?_) | (refine KeptO.ite ?_ ?_) | (refine Kept.ite ?_ ?_)
    | (refine Kept.ite2 ?_ ?_) | (refine reachCclk_kept ?_) | (refine quiesce_kept ?_)
    | (refine grantStop_kept ?_) | (refine logSealNow_kept ?_) | (refine Kept.foldl ?_ (fun _ _ _ => ?_))
    | (refine Kept.foldl2 ?_ (fun _ _ _ => ?_)) | split | (refine Kept.of_parts rfl rfl rfl rfl rfl ?_)

theorem standbyLines_kept {s0 s : State}  (h : Kept s0 s) : Kept s0 (standbyLines s) := by
  unfold standbyLines
  repeat' with_reducible first
    | assumption | (refine Kept.ite ?_ ?_) | (refine Kept.ite2 ?_ ?_) | (refine haspLevel_kept ?_)
    | (refine Kept.foldl ?_ (fun _ _ _ => ?_))

theorem execStandbyReached_kept {s0 s : State}  (h : Kept s0 s) : KeptO s0 (execStandbyReached s) := by
  unfold execStandbyReached
  repeat' with_reducible first
    | assumption | (refine KeptO.next ?_) | (refine KeptO.ite ?_ ?_) | (refine Kept.ite ?_ ?_)
    | (refine Kept.ite2 ?_ ?_) | (refine standbyLines_kept ?_) | (refine wakeLatch_kept ?_)
    | (refine drainsEnd_kept ?_) | (refine stbyStatus_kept ?_) | (refine enterMode_kept ?_)
    | (refine setFlag_kept ?_) | (refine fset_kept ?_) | (refine Kept.foldl ?_ (fun _ _ _ => ?_))
    | (refine Kept.foldl2 ?_ (fun _ _ _ => ?_)) | split | (refine Kept.of_parts rfl rfl rfl rfl rfl ?_)

theorem execSysrst_kept {s0 s : State}  (h : Kept s0 s) : KeptO s0 (execSysrst s) := by
  unfold execSysrst
  repeat' with_reducible first
    | assumption | (refine KeptO.next ?_) | (refine KeptO.ite ?_ ?_) | (refine Kept.ite ?_ ?_)
    | (refine Kept.ite2 ?_ ?_) | (refine resetTake_kept ?_)

theorem imgAnswer_kept {s0 s : State} {a0 : Nat} (h : Kept s0 s) : Kept s0 (imgAnswer a0 s) := by
  unfold imgAnswer
  repeat' with_reducible first
    | assumption | (refine Kept.ite ?_ ?_) | (refine Kept.ite2 ?_ ?_) | (refine adyelAnswer_kept ?_)
    | (refine Kept.foldl ?_ (fun _ _ _ => ?_)) | (refine Kept.foldl2 ?_ (fun _ _ _ => ?_)) | split
    | (refine Kept.of_parts rfl rfl rfl rfl rfl ?_)

theorem imgReport_kept {s0 s : State} {a0 : Option ImgFail} (h : Kept s0 s) : Kept s0 (imgReport a0 s) := by
  unfold imgReport
  repeat' with_reducible first
    | assumption | (refine Kept.ite ?_ ?_) | (refine Kept.ite2 ?_ ?_) | (refine fset_kept ?_)

theorem loaderIdle_kept {s0 s : State}  (h : Kept s0 s) : Kept s0 (loaderIdle s) := by
  unfold loaderIdle
  repeat' with_reducible first
    | assumption | (refine Kept.ite ?_ ?_) | (refine Kept.ite2 ?_ ?_) | (refine pendSet_kept ?_)
    | (refine fset_kept ?_)

theorem imgReject_kept {s0 s : State} {a0 : ImgFail} (h : Kept s0 s) : Kept s0 (imgReject a0 s) := by
  unfold imgReject
  repeat' with_reducible first
    | assumption | (refine Kept.ite ?_ ?_) | (refine Kept.ite2 ?_ ?_) | (refine loaderIdle_kept ?_)
    | (refine imgReport_kept ?_) | (refine imgAnswer_kept ?_) | (refine logPush_kept ?_)
    | (refine Kept.foldl ?_ (fun _ _ _ => ?_)) | (refine Kept.foldl2 ?_ (fun _ _ _ => ?_)) | split
    | (refine Kept.of_parts rfl rfl rfl rfl rfl ?_)

theorem imageDiscard_kept {s0 s : State}  (h : Kept s0 s) : Kept s0 (imageDiscard s) := by
  unfold imageDiscard
  repeat' with_reducible first
    | assumption | (refine Kept.ite ?_ ?_) | (refine Kept.ite2 ?_ ?_) | (refine haspDefaults_kept ?_)
    | (refine Kept.foldl ?_ (fun _ _ _ => ?_)) | (refine Kept.foldl2 ?_ (fun _ _ _ => ?_)) | split
    | (refine Kept.of_parts rfl rfl rfl rfl rfl ?_)

theorem poolsApply_kept {s0 s : State}  (h : Kept s0 s) : Kept s0 (poolsApply s) := by
  unfold poolsApply
  repeat' with_reducible first
    | assumption | (refine Kept.ite ?_ ?_) | (refine Kept.ite2 ?_ ?_) | (refine fset_kept ?_)
    | (refine Kept.foldl ?_ (fun _ _ _ => ?_)) | (refine Kept.foldl2 ?_ (fun _ _ _ => ?_)) | split
    | (refine Kept.of_parts rfl rfl rfl rfl rfl ?_)

theorem domainApply_kept {s0 s : State} {a0 : Cfg} {a1 : Nat}
    (h : Kept s0 s) : Kept s0 (domainApply a0 a1 s) := by
  unfold domainApply
  repeat' with_reducible first
    | assumption | (refine Kept.ite ?_ ?_) | (refine Kept.ite2 ?_ ?_) | (refine tickArm_kept ?_)
    | (refine setTickNext_kept ?_) | (refine setFlag_kept ?_) | (refine fset_kept ?_)

theorem cfgApply_kept {s0 s : State} {a0 : Cfg} (h : Kept s0 s) : Kept s0 (cfgApply a0 s) := by
  unfold cfgApply
  repeat' with_reducible first
    | assumption | (refine Kept.ite ?_ ?_) | (refine Kept.ite2 ?_ ?_) | (refine domainApply_kept ?_)
    | (refine sharedRecount_kept ?_) | (refine setFlag_kept ?_) | (refine fset_kept ?_)
    | (refine Kept.foldl ?_ (fun _ _ _ => ?_))

theorem floorRaise_kept {s0 s : State}  (h : Kept s0 s) : Kept s0 (floorRaise s) := by
  unfold floorRaise
  repeat' with_reducible first
    | assumption | (refine Kept.ite ?_ ?_) | (refine Kept.ite2 ?_ ?_) | (refine epochBurn_kept ?_)
    | (refine Kept.foldl ?_ (fun _ _ _ => ?_)) | (refine Kept.foldl2 ?_ (fun _ _ _ => ?_)) | split
    | (refine Kept.of_parts rfl rfl rfl rfl rfl ?_)

theorem imageInForce_kept {s0 s : State} {a0 : Cfg} (h : Kept s0 s) : Kept s0 (imageInForce a0 s) := by
  unfold imageInForce
  repeat' with_reducible first
    | assumption | (refine Kept.ite ?_ ?_) | (refine Kept.ite2 ?_ ?_) | (refine haspPolicy_kept ?_)
    | (refine cfgApply_kept ?_) | (refine poolsApply_kept ?_) | (refine grantStop_kept ?_)
    | (refine setFlag_kept ?_)

theorem imgRegs_kept {s0 s : State} {a0 : Bytes} (h : Kept s0 s) : Kept s0 (imgRegs a0 s) := by
  unfold imgRegs
  repeat' with_reducible first
    | assumption | (refine Kept.ite ?_ ?_) | (refine Kept.ite2 ?_ ?_) | (refine fset_kept ?_)

theorem imgSubmit_kept {s0 s : State} {a0 : Req} (h : Kept s0 s) : Kept s0 (imgSubmit a0 s).2 := by
  unfold imgSubmit
  repeat' with_reducible first
    | assumption | (refine Kept.ite ?_ ?_) | (refine Kept.ite2 ?_ ?_) | (refine fset_kept ?_)
    | (refine Kept.foldl ?_ (fun _ _ _ => ?_)) | (refine Kept.foldl2 ?_ (fun _ _ _ => ?_)) | split
    | (refine Kept.of_parts rfl rfl rfl rfl rfl ?_)

theorem execImageLoad_kept {s0 s : State} {a0 : AdyelIn} (h : Kept s0 s) : KeptO s0 (execImageLoad a0 s) := by
  unfold execImageLoad
  repeat' with_reducible first
    | assumption | (refine KeptO.next ?_) | (refine KeptO.ite ?_ ?_) | (refine Kept.ite ?_ ?_)
    | (refine Kept.ite2 ?_ ?_) | (refine imgSubmit_kept ?_) | (refine adyelRun_kept ?_ (fun _ _ _ => ?_))

theorem execImageDelta_kept {s0 s : State} {a0 : AdyelIn}
    (h : Kept s0 s) : KeptO s0 (execImageDelta a0 s) := by
  unfold execImageDelta
  repeat' with_reducible first
    | assumption | (refine KeptO.next ?_) | (refine KeptO.ite ?_ ?_) | (refine Kept.ite ?_ ?_)
    | (refine Kept.ite2 ?_ ?_) | (refine imgSubmit_kept ?_) | (refine adyelRun_kept ?_ (fun _ _ _ => ?_))

theorem appliedLog_kept {s0 s : State} {a0 : Bytes} {a1 : Bytes}
    (h : Kept s0 s) : Kept s0 (appliedLog a0 a1 s) := by
  unfold appliedLog
  repeat' with_reducible first
    | assumption | (refine Kept.ite ?_ ?_) | (refine Kept.ite2 ?_ ?_) | (refine logPush_kept ?_)

theorem deltaApply_kept {s0 s : State}  (h : Kept s0 s) : Kept s0 (deltaApply s) := by
  unfold deltaApply
  repeat' with_reducible first
    | assumption | (refine Kept.ite ?_ ?_) | (refine Kept.ite2 ?_ ?_) | (refine heldProceed_kept ?_)
    | (refine appliedLog_kept ?_) | (refine imgRegs_kept ?_) | (refine cfgApply_kept ?_)
    | (refine loaderIdle_kept ?_) | (refine setFlag_kept ?_) | (refine Kept.foldl ?_ (fun _ _ _ => ?_))
    | (refine Kept.foldl2 ?_ (fun _ _ _ => ?_)) | split | (refine Kept.of_parts rfl rfl rfl rfl rfl ?_)

theorem execDeltaApply_kept {s0 s : State}  (h : Kept s0 s) : KeptO s0 (execDeltaApply s) := by
  unfold execDeltaApply
  repeat' with_reducible first
    | assumption | (refine KeptO.next ?_) | (refine KeptO.ite ?_ ?_) | (refine Kept.ite ?_ ?_)
    | (refine Kept.ite2 ?_ ?_) | (refine deltaApply_kept ?_)

theorem execDeltaValidationEnd_kept {s0 s : State} 
    (h : Kept s0 s) : KeptO s0 (execDeltaValidationEnd s) := by
  unfold execDeltaValidationEnd
  repeat' with_reducible first
    | assumption | (refine KeptO.next ?_) | (refine KeptO.ite ?_ ?_) | (refine Kept.ite ?_ ?_)
    | (refine Kept.ite2 ?_ ?_) | (refine deltaApply_kept ?_) | (refine imgReject_kept ?_)
    | (refine imgReport_kept ?_) | (refine imgAnswer_kept ?_) | (refine setFlag_kept ?_)
    | (refine fset_kept ?_) | (refine Kept.foldl ?_ (fun _ _ _ => ?_))
    | (refine Kept.foldl2 ?_ (fun _ _ _ => ?_)) | split | (refine Kept.of_parts rfl rfl rfl rfl rfl ?_)

theorem imageApply_kept {s0 s : State} {a0 : Img} (h : Kept s0 s) : Kept s0 (imageApply a0 s) := by
  unfold imageApply
  repeat' with_reducible first
    | assumption | (refine Kept.ite ?_ ?_) | (refine Kept.ite2 ?_ ?_) | (refine appliedLog_kept ?_)
    | (refine imgRegs_kept ?_) | (refine imageInForce_kept ?_) | (refine floorRaise_kept ?_)
    | (refine Kept.foldl ?_ (fun _ _ _ => ?_)) | (refine Kept.foldl2 ?_ (fun _ _ _ => ?_)) | split
    | (refine Kept.of_parts rfl rfl rfl rfl rfl ?_)

theorem execLoadValidationEnd_kept {s0 s : State}  (h : Kept s0 s) : KeptO s0 (execLoadValidationEnd s) := by
  unfold execLoadValidationEnd
  repeat' with_reducible first
    | assumption | (refine KeptO.next ?_) | (refine KeptO.ite ?_ ?_) | (refine Kept.ite ?_ ?_)
    | (refine Kept.ite2 ?_ ?_) | (refine imageApply_kept ?_) | (refine imgReject_kept ?_)
    | (refine loaderIdle_kept ?_) | (refine imgReport_kept ?_) | (refine imgAnswer_kept ?_)
    | (refine Kept.foldl ?_ (fun _ _ _ => ?_)) | (refine Kept.foldl2 ?_ (fun _ _ _ => ?_)) | split

end Sys2Proof.Machine
end

