-- ==== Sys2Proof/Laws/KeptKeys.lean ====
section
/-! SUPPORT. What every operation of the key slots, the ledger, the trace and the boot keeps:
the queue, the memory's canonical form and the fuses that only rise. -/

namespace Sys2Proof.Machine

theorem execDebugRevoke_kept {s0 s : State} {a0 : AdyelIn}
    (h : Kept s0 s) : KeptO s0 (execDebugRevoke a0 s) := by
  unfold execDebugRevoke
  repeat' with_reducible first
    | assumption | (refine KeptO.next ?_) | (refine KeptO.ite ?_ ?_) | (refine Kept.ite ?_ ?_)
    | (refine Kept.ite2 ?_ ?_) | (refine grantStop_kept ?_) | (refine adyelRun_kept ?_ (fun _ _ _ => ?_))

theorem ownerGone_kept {s0 s : State}  (h : Kept s0 s) : Kept s0 (ownerGone s) := by
  unfold ownerGone
  repeat' with_reducible first
    | assumption | (refine Kept.ite ?_ ?_) | (refine Kept.ite2 ?_ ?_) | (refine imageDiscard_kept ?_)
    | (refine zeroiseKeys_kept ?_) | (refine Kept.foldl ?_ (fun _ _ _ => ?_))
    | (refine Kept.foldl2 ?_ (fun _ _ _ => ?_)) | split | (refine Kept.of_parts rfl rfl rfl rfl rfl ?_)

theorem grantStart_kept {s0 s : State} {a0 : Nat} {a1 : Nat}
    (h : Kept s0 s) : Kept s0 (grantStart a0 a1 s) := by
  unfold grantStart
  repeat' with_reducible first
    | assumption | (refine Kept.ite ?_ ?_) | (refine Kept.ite2 ?_ ?_) | (refine grantLog_kept ?_)
    | (refine setFlag_kept ?_) | (refine Kept.foldl ?_ (fun _ _ _ => ?_))
    | (refine Kept.foldl2 ?_ (fun _ _ _ => ?_)) | split | (refine Kept.of_parts rfl rfl rfl rfl rfl ?_)

theorem execDebugGrant_kept {s0 s : State} {a0 : AdyelIn}
    (h : Kept s0 s) : KeptO s0 (execDebugGrant a0 s) := by
  unfold execDebugGrant
  repeat' with_reducible first
    | assumption | (refine KeptO.next ?_) | (refine KeptO.ite ?_ ?_) | (refine Kept.ite ?_ ?_)
    | (refine Kept.ite2 ?_ ?_) | (refine grantStart_kept ?_) | (refine adyelRun_kept ?_ (fun _ _ _ => ?_))

theorem signedContent_kept {s0 s : State} {a0 : SpdmIn} {a1 : Bytes}
    (h : Kept s0 s) : Kept s0 (signedContent a0 a1 s).2 := by
  unfold signedContent
  repeat' with_reducible first
    | assumption | (refine Kept.ite ?_ ?_) | (refine Kept.ite2 ?_ ?_) | (refine drawBytes_kept ?_)

theorem spdmAnswer_kept {s0 s : State} {q : SpdmIn} {k : State → Bytes × State} (h : Kept s0 s)
    (hk : ∀ t, Kept s0 t → Kept s0 (k t).2) : Kept s0 (spdmAnswer q k s) := by
  unfold spdmAnswer; exact Kept.ite h (emit_kept (hk s h))

theorem execChallenge_kept {s0 s : State} {a0 : SpdmIn} (h : Kept s0 s) : KeptO s0 (execChallenge a0 s) := by
  unfold execChallenge
  repeat' with_reducible first
    | assumption | (refine KeptO.next ?_) | (refine KeptO.ite ?_ ?_) | (refine Kept.ite ?_ ?_)
    | (refine Kept.ite2 ?_ ?_) | (refine spdmAnswer_kept ?_ (fun _ _ => ?_)) | (refine signedContent_kept ?_)

theorem execGrantExpire_kept {s0 s : State}  (h : Kept s0 s) : KeptO s0 (execGrantExpire s) := by
  unfold execGrantExpire
  repeat' with_reducible first
    | assumption | (refine KeptO.next ?_) | (refine KeptO.ite ?_ ?_) | (refine Kept.ite ?_ ?_)
    | (refine Kept.ite2 ?_ ?_) | (refine reachCclk_kept ?_) | (refine grantStop_kept ?_)

theorem execGetDigests_kept {s0 s : State} {a0 : SpdmIn}
    (h : Kept s0 s) : KeptO s0 (execGetDigests a0 s) := by
  unfold execGetDigests
  repeat' with_reducible first
    | assumption | (refine KeptO.next ?_) | (refine KeptO.ite ?_ ?_) | (refine Kept.ite ?_ ?_)
    | (refine Kept.ite2 ?_ ?_) | (refine spdmAnswer_kept ?_ (fun _ _ => ?_))

theorem execGetCerts_kept {s0 s : State} {a0 : AdyelIn} (h : Kept s0 s) : KeptO s0 (execGetCerts a0 s) := by
  unfold execGetCerts
  repeat' with_reducible first
    | assumption | (refine KeptO.next ?_) | (refine KeptO.ite ?_ ?_) | (refine Kept.ite ?_ ?_)
    | (refine Kept.ite2 ?_ ?_) | (refine adyelRun_kept ?_ (fun _ _ _ => ?_))

theorem execDecommission_kept {s0 s : State} {a0 : AdyelIn}
    (h : Kept s0 s) : KeptO s0 (execDecommission a0 s) := by
  unfold execDecommission
  repeat' with_reducible first
    | assumption | (refine KeptO.next ?_) | (refine KeptO.ite ?_ ?_) | (refine Kept.ite ?_ ?_)
    | (refine Kept.ite2 ?_ ?_) | (refine ownerGone_kept ?_) | (refine adyelRun_kept ?_ (fun _ _ _ => ?_))
    | (refine fset_kept ?_) | (refine Kept.foldl ?_ (fun _ _ _ => ?_))
    | (refine Kept.foldl2 ?_ (fun _ _ _ => ?_)) | split | (refine Kept.of_parts rfl rfl rfl rfl rfl ?_)

theorem execGetCapabilities_kept {s0 s : State} {a0 : SpdmIn}
    (h : Kept s0 s) : KeptO s0 (execGetCapabilities a0 s) := by
  unfold execGetCapabilities
  repeat' with_reducible first
    | assumption | (refine KeptO.next ?_) | (refine KeptO.ite ?_ ?_) | (refine Kept.ite ?_ ?_)
    | (refine Kept.ite2 ?_ ?_) | (refine spdmAnswer_kept ?_ (fun _ _ => ?_))

theorem execGetCertificate_kept {s0 s : State} {a0 : SpdmIn}
    (h : Kept s0 s) : KeptO s0 (execGetCertificate a0 s) := by
  unfold execGetCertificate
  repeat' with_reducible first
    | assumption | (refine KeptO.next ?_) | (refine KeptO.ite ?_ ?_) | (refine Kept.ite ?_ ?_)
    | (refine Kept.ite2 ?_ ?_) | (refine spdmAnswer_kept ?_ (fun _ _ => ?_))

theorem execGetInfo_kept {s0 s : State} {a0 : AdyelIn} (h : Kept s0 s) : KeptO s0 (execGetInfo a0 s) := by
  unfold execGetInfo
  repeat' with_reducible first
    | assumption | (refine KeptO.next ?_) | (refine KeptO.ite ?_ ?_) | (refine Kept.ite ?_ ?_)
    | (refine Kept.ite2 ?_ ?_) | (refine adyelRun_kept ?_ (fun _ _ _ => ?_))

theorem execGetMeasurements_kept {s0 s : State} {a0 : SpdmIn}
    (h : Kept s0 s) : KeptO s0 (execGetMeasurements a0 s) := by
  unfold execGetMeasurements
  repeat' with_reducible first
    | assumption | (refine KeptO.next ?_) | (refine KeptO.ite ?_ ?_) | (refine Kept.ite ?_ ?_)
    | (refine Kept.ite2 ?_ ?_) | (refine spdmAnswer_kept ?_ (fun _ _ => ?_)) | (refine signedContent_kept ?_)

theorem execGetVersion_kept {s0 s : State} {a0 : SpdmIn}
    (h : Kept s0 s) : KeptO s0 (execGetVersion a0 s) := by
  unfold execGetVersion
  repeat' with_reducible first
    | assumption | (refine KeptO.next ?_) | (refine KeptO.ite ?_ ?_) | (refine Kept.ite ?_ ?_)
    | (refine Kept.ite2 ?_ ?_) | (refine spdmAnswer_kept ?_ (fun _ _ => ?_))

theorem execNegotiateAlgorithms_kept {s0 s : State} {a0 : SpdmIn}
    (h : Kept s0 s) : KeptO s0 (execNegotiateAlgorithms a0 s) := by
  unfold execNegotiateAlgorithms
  repeat' with_reducible first
    | assumption | (refine KeptO.next ?_) | (refine KeptO.ite ?_ ?_) | (refine Kept.ite ?_ ?_)
    | (refine Kept.ite2 ?_ ?_) | (refine spdmAnswer_kept ?_ (fun _ _ => ?_))

theorem execReleaseOwnership_kept {s0 s : State} {a : AdyelIn}
    (h : Kept s0 s) : KeptO s0 (execReleaseOwnership a s) := by
  refine KeptO.next (adyelRun_kept h (fun r t ht => Kept.ite2 ht ?_))
  have k := ownerGone_kept ht
  refine fset_kept ?_
  generalize ownerGone t = u at k
  exact k.trans ⟨rfl, id, le_rfl, le_rfl, Nat.le_succ _⟩

theorem execSignerSet_kept {s0 s : State} {a0 : AdyelIn} (h : Kept s0 s) : KeptO s0 (execSignerSet a0 s) := by
  unfold execSignerSet
  repeat' with_reducible first
    | assumption | (refine KeptO.next ?_) | (refine KeptO.ite ?_ ?_) | (refine Kept.ite ?_ ?_)
    | (refine Kept.ite2 ?_ ?_) | (refine epochBurn_kept ?_) | (refine adyelRun_kept ?_ (fun _ _ _ => ?_))
    | (refine Kept.foldl ?_ (fun _ _ _ => ?_)) | (refine Kept.foldl2 ?_ (fun _ _ _ => ?_)) | split
    | (refine Kept.of_parts rfl rfl rfl rfl rfl ?_)

theorem execSvnCommit_kept {s0 s : State} {a : AdyelIn} (h : Kept s0 s) : KeptO s0 (execSvnCommit a s) := by
  refine KeptO.next (adyelRun_kept h (fun r t ht => ?_))
  dsimp only
  by_cases hp : (byteAt r.body 0 == 1) = true
  all_goals
    simp only [hp]
    refine Kept.ite2_not ht (fun hn => ?_)
    simp only [not_or, not_le, not_lt] at hn
  · exact ht.trans ⟨rfl, id, le_rfl, hn.2.2.2.2.1.le, le_rfl⟩
  · exact ht.trans ⟨rfl, id, hn.2.2.2.2.1.le, le_rfl, le_rfl⟩

theorem ownReboot_kept {s0 s : State}  (h : Kept s0 s) : Kept s0 (ownReboot s) := by
  unfold ownReboot
  repeat' with_reducible first
    | assumption | (refine Kept.ite ?_ ?_) | (refine Kept.ite2 ?_ ?_) | (refine bootEnter_kept ?_)
    | (refine haspEnd_kept ?_) | (refine setFlag_kept ?_) | (refine haspEvent_kept ?_)

theorem ownerKeys_kept {s0 s : State} {a0 : Bytes} (h : Kept s0 s) : Kept s0 (ownerKeys a0 s) := by
  unfold ownerKeys
  repeat' with_reducible first
    | assumption | (refine Kept.ite ?_ ?_) | (refine Kept.ite2 ?_ ?_)
    | (refine Kept.foldl ?_ (fun _ _ _ => ?_)) | (refine Kept.foldl2 ?_ (fun _ _ _ => ?_)) | split
    | (refine Kept.of_parts rfl rfl rfl rfl rfl ?_)

theorem ownRun_kept {s0 s : State} {a0 : Req} (h : Kept s0 s) : Kept s0 (ownRun a0 s).2 := by
  unfold ownRun
  repeat' with_reducible first
    | assumption | (refine Kept.ite ?_ ?_) | (refine Kept.ite2 ?_ ?_) | (refine ownerKeys_kept ?_)
    | (refine epochBurn_kept ?_) | (refine fset_kept ?_) | (refine Kept.foldl ?_ (fun _ _ _ => ?_))
    | (refine Kept.foldl2 ?_ (fun _ _ _ => ?_)) | split | (dsimp only; split)
    | (refine Kept.of_parts rfl rfl rfl rfl rfl ?_)

theorem execTakeOwnership_kept {s0 s : State} {a0 : AdyelIn}
    (h : Kept s0 s) : KeptO s0 (execTakeOwnership a0 s) := by
  unfold execTakeOwnership
  repeat' with_reducible first
    | assumption | (refine KeptO.next ?_) | (refine KeptO.ite ?_ ?_) | (refine Kept.ite ?_ ?_)
    | (refine Kept.ite2 ?_ ?_) | (refine ownRun_kept ?_) | (refine ownReboot_kept ?_)
    | (refine adyelRun_kept ?_ (fun _ _ _ => ?_))

theorem cakUnbind_kept {s0 s : State} {a0 : Nat} (h : Kept s0 s) : Kept s0 (cakUnbind a0 s) := by
  unfold cakUnbind
  repeat' with_reducible first
    | assumption | (refine Kept.ite ?_ ?_) | (refine Kept.ite2 ?_ ?_) | (refine macsecClear_kept ?_)
    | (refine Kept.foldl ?_ (fun _ _ _ => ?_)) | (refine Kept.foldl2 ?_ (fun _ _ _ => ?_)) | split
    | (refine Kept.of_parts rfl rfl rfl rfl rfl ?_)

theorem keyFree_kept {s0 s : State} {a0 : Nat} (h : Kept s0 s) : Kept s0 (keyFree a0 s) := by
  unfold keyFree
  repeat' with_reducible first
    | assumption | (refine Kept.ite ?_ ?_) | (refine Kept.ite2 ?_ ?_) | (refine scClose_kept ?_)
    | (refine cakUnbind_kept ?_) | (refine essShut_kept ?_) | (refine engKick_kept ?_)
    | (refine Kept.foldl ?_ (fun _ _ _ => ?_))

theorem keyGone_kept {s0 s : State} {a0 : Nat} (h : Kept s0 s) : Kept s0 (keyGone a0 s) := by
  unfold keyGone
  repeat' with_reducible first
    | assumption | (refine Kept.ite ?_ ?_) | (refine Kept.ite2 ?_ ?_) | (refine keyAdvance_kept ?_)
    | (refine fset_kept ?_) | (refine Kept.foldl ?_ (fun _ _ _ => ?_))
    | (refine Kept.foldl2 ?_ (fun _ _ _ => ?_)) | split | (refine Kept.of_parts rfl rfl rfl rfl rfl ?_)

theorem importTable_kept {s0 s : State} {a0 : Bytes} (h : Kept s0 s) : Kept s0 (importTable a0 s).2 := by
  unfold importTable
  repeat' with_reducible first
    | assumption | (refine Kept.ite ?_ ?_) | (refine Kept.ite2 ?_ ?_) | (refine bump_kept ?_)
    | (refine Kept.foldl ?_ (fun _ _ _ => ?_)) | (refine Kept.foldl2 ?_ (fun _ _ _ => ?_)) | split
    | (refine Kept.of_parts rfl rfl rfl rfl rfl ?_)

theorem importRun_kept {s0 s : State} {a0 : Req} (h : Kept s0 s) : Kept s0 (importRun a0 s).2 := by
  unfold importRun
  repeat' with_reducible first
    | assumption | (refine Kept.ite ?_ ?_) | (refine Kept.ite2 ?_ ?_) | (refine importTable_kept ?_)
    | (refine storeWrite_kept ?_) | (refine Kept.foldl ?_ (fun _ _ _ => ?_))
    | (refine Kept.foldl2 ?_ (fun _ _ _ => ?_)) | split | (refine Kept.of_parts rfl rfl rfl rfl rfl ?_)

theorem execKeyImport_kept {s0 s : State} {a0 : AdyelIn} (h : Kept s0 s) : KeptO s0 (execKeyImport a0 s) := by
  unfold execKeyImport
  repeat' with_reducible first
    | assumption | (refine KeptO.next ?_) | (refine KeptO.ite ?_ ?_) | (refine Kept.ite ?_ ?_)
    | (refine Kept.ite2 ?_ ?_) | (refine importRun_kept ?_) | (refine adyelRun_kept ?_ (fun _ _ _ => ?_))

theorem destroyEnc_kept {s0 s : State} {a0 : Nat} (h : Kept s0 s) : Kept s0 (destroyEnc a0 s).2 := by
  unfold destroyEnc
  repeat' with_reducible first
    | assumption | (refine Kept.ite ?_ ?_) | (refine Kept.ite2 ?_ ?_) | (refine epochBurn_kept ?_)
    | (refine Kept.foldl ?_ (fun _ _ _ => ?_)) | (refine Kept.foldl2 ?_ (fun _ _ _ => ?_)) | split
    | (refine Kept.of_parts rfl rfl rfl rfl rfl ?_)

theorem execKeyInfo_kept {s0 s : State} {a0 : AdyelIn} (h : Kept s0 s) : KeptO s0 (execKeyInfo a0 s) := by
  unfold execKeyInfo
  repeat' with_reducible first
    | assumption | (refine KeptO.next ?_) | (refine KeptO.ite ?_ ?_) | (refine Kept.ite ?_ ?_)
    | (refine Kept.ite2 ?_ ?_) | (refine adyelRun_kept ?_ (fun _ _ _ => ?_))
    | (refine Kept.foldl ?_ (fun _ _ _ => ?_)) | (refine Kept.foldl2 ?_ (fun _ _ _ => ?_)) | split
    | (dsimp only; split)

theorem destroyRun_kept {s0 s : State} {a0 : Req} (h : Kept s0 s) : Kept s0 (destroyRun a0 s).2 := by
  unfold destroyRun
  repeat' with_reducible first
    | assumption | (refine Kept.ite ?_ ?_) | (refine Kept.ite2 ?_ ?_) | (refine destroyEnc_kept ?_)
    | (refine keyGone_kept ?_) | (refine keyFree_kept ?_)

theorem execKeyDestroy_kept {s0 s : State} {a0 : AdyelIn}
    (h : Kept s0 s) : KeptO s0 (execKeyDestroy a0 s) := by
  unfold execKeyDestroy
  repeat' with_reducible first
    | assumption | (refine KeptO.next ?_) | (refine KeptO.ite ?_ ?_) | (refine Kept.ite ?_ ?_)
    | (refine Kept.ite2 ?_ ?_) | (refine destroyRun_kept ?_) | (refine adyelRun_kept ?_ (fun _ _ _ => ?_))

theorem execMacsecCakBind_kept {s0 s : State} {a0 : AdyelIn}
    (h : Kept s0 s) : KeptO s0 (execMacsecCakBind a0 s) := by
  unfold execMacsecCakBind
  repeat' with_reducible first
    | assumption | (refine KeptO.next ?_) | (refine KeptO.ite ?_ ?_) | (refine Kept.ite ?_ ?_)
    | (refine Kept.ite2 ?_ ?_) | (refine adyelRun_kept ?_ (fun _ _ _ => ?_))
    | (refine Kept.foldl ?_ (fun _ _ _ => ?_)) | (refine Kept.foldl2 ?_ (fun _ _ _ => ?_)) | split
    | (refine Kept.of_parts rfl rfl rfl rfl rfl ?_)

theorem execMkpduReceive_kept {s0 s : State} {a0 : Port} {a1 : Mkpdu}
    (h : Kept s0 s) : KeptO s0 (execMkpduReceive a0 a1 s) := by
  unfold execMkpduReceive
  repeat' with_reducible first
    | assumption | (refine KeptO.next ?_) | (refine KeptO.ite ?_ ?_) | (refine Kept.ite ?_ ?_)
    | (refine Kept.ite2 ?_ ?_) | (refine Kept.foldl ?_ (fun _ _ _ => ?_))
    | (refine Kept.foldl2 ?_ (fun _ _ _ => ?_)) | split | (refine Kept.of_parts rfl rfl rfl rfl rfl ?_)

theorem execPtpSmpteTlv_kept {s0 s : State} {a0 : AdyelIn}
    (h : Kept s0 s) : KeptO s0 (execPtpSmpteTlv a0 s) := by
  unfold execPtpSmpteTlv
  repeat' with_reducible first
    | assumption | (refine KeptO.next ?_) | (refine KeptO.ite ?_ ?_) | (refine Kept.ite ?_ ?_)
    | (refine Kept.ite2 ?_ ?_) | (refine adyelRun_kept ?_ (fun _ _ _ => ?_))
    | (refine Kept.foldl ?_ (fun _ _ _ => ?_)) | (refine Kept.foldl2 ?_ (fun _ _ _ => ?_)) | split
    | (refine Kept.of_parts rfl rfl rfl rfl rfl ?_)

theorem sakFor_kept {s0 s : State} {p : Nat} {k : SakIn} {held : Option Sa} {x : Bytes × State} (e : sakFor p k held s = some x)
    (h : Kept s0 s) : Kept s0 x.2 := by
  unfold sakFor at e
  dsimp only at e
  split at e
  · obtain ⟨y, -, rfl⟩ := Option.map_eq_some_iff.1 e
    exact h
  · repeat' split at e
    all_goals first
    | (cases e; exact h) | (cases e; exact Kept.of_parts rfl rfl rfl rfl rfl (drawBytes_kept h)) | cases e

theorem execSakInstall_kept {s0 s : State} {a0 : Port} {a1 : SakIn}
    (h : Kept s0 s) : KeptO s0 (execSakInstall a0 a1 s) := by
  unfold execSakInstall
  repeat' with_reducible first
    | assumption | (refine KeptO.next ?_) | (refine KeptO.ite ?_ ?_) | (refine Kept.ite ?_ ?_)
    | (refine Kept.ite2 ?_ ?_) | (refine sakFor_kept (x := (_, _)) (by assumption) ?_)
    | (refine Kept.foldl ?_ (fun _ _ _ => ?_)) | (refine Kept.foldl2 ?_ (fun _ _ _ => ?_)) | split
    | (dsimp only; split) | (refine Kept.of_parts rfl rfl rfl rfl rfl ?_)

theorem logFail_kept {s0 s : State} {a0 : Nat} (h : Kept s0 s) : Kept s0 (logFail a0 s) := by
  unfold logFail
  repeat' with_reducible first
    | assumption | (refine Kept.ite ?_ ?_) | (refine Kept.ite2 ?_ ?_) | (refine haspRise_kept ?_)
    | (refine emit_kept ?_) | (refine Kept.foldl ?_ (fun _ _ _ => ?_))
    | (refine Kept.foldl2 ?_ (fun _ _ _ => ?_)) | split | (refine Kept.of_parts rfl rfl rfl rfl rfl ?_)

theorem tempRead_kept {s0 s : State} {a0 : Nat} {a1 : BitVec 16}
    (h : Kept s0 s) : Kept s0 (tempRead a0 a1 s) := by
  unfold tempRead
  repeat' with_reducible first
    | assumption | (refine Kept.ite ?_ ?_) | (refine Kept.ite2 ?_ ?_) | (refine fset_kept ?_)
    | (refine Kept.foldl ?_ (fun _ _ _ => ?_)) | (refine Kept.foldl2 ?_ (fun _ _ _ => ?_)) | split
    | (dsimp only; split) | (refine Kept.of_parts rfl rfl rfl rfl rfl ?_)

theorem execLogEntry_kept {s0 s : State} {a0 : BitVec 16} {a1 : LogIn}
    (h : Kept s0 s) : KeptO s0 (execLogEntry a0 a1 s) := by
  unfold execLogEntry
  repeat' with_reducible first
    | assumption | (refine KeptO.next ?_) | (refine KeptO.ite ?_ ?_) | (refine Kept.ite ?_ ?_)
    | (refine Kept.ite2 ?_ ?_) | (refine logFail_kept ?_) | (refine logWriteOne_kept ?_)
    | (refine logPush_kept ?_)

theorem slotPut_kept {s0 s : State} {a0 : Nat} {a1 : Option FwImage}
    (h : Kept s0 s) : Kept s0 (slotPut a0 a1 s) := by
  unfold slotPut
  repeat' with_reducible first
    | assumption | (refine Kept.ite ?_ ?_) | (refine Kept.ite2 ?_ ?_)
    | (refine Kept.foldl ?_ (fun _ _ _ => ?_)) | (refine Kept.foldl2 ?_ (fun _ _ _ => ?_)) | split
    | (refine Kept.of_parts rfl rfl rfl rfl rfl ?_)

theorem fwRun_kept {s0 s : State} {a0 : Bool} {a1 : Option FwImage} {a2 : Bool} {a3 : Req}
    (h : Kept s0 s) : Kept s0 (fwRun a0 a1 a2 a3 s).2 := by
  unfold fwRun
  repeat' with_reducible first
    | assumption | (refine Kept.ite ?_ ?_) | (refine Kept.ite2 ?_ ?_) | (refine slotPut_kept ?_)
    | (refine haspLineUp_kept ?_) | (refine adyelSend_kept ?_) | (refine logPush_kept ?_)
    | (refine Kept.foldl ?_ (fun _ _ _ => ?_)) | (refine Kept.foldl2 ?_ (fun _ _ _ => ?_)) | split

theorem limLine_kept {s0 s : State} {a0 : Nat} (h : Kept s0 s) : Kept s0 (limLine a0 s) := by
  unfold limLine
  repeat' with_reducible first
    | assumption | (refine Kept.ite ?_ ?_) | (refine Kept.ite2 ?_ ?_) | (refine haspLineUp_kept ?_)
    | (refine haspLine_kept ?_) | (refine Kept.foldl ?_ (fun _ _ _ => ?_))
    | (refine Kept.foldl2 ?_ (fun _ _ _ => ?_)) | split

theorem limitsShow_kept {s0 s : State}  (h : Kept s0 s) : Kept s0 (limitsShow s) := by
  unfold limitsShow
  repeat' with_reducible first
    | assumption | (refine Kept.ite ?_ ?_) | (refine Kept.ite2 ?_ ?_) | (refine fset_kept ?_)

theorem limSample_kept {s0 s : State} {a0 : Limit} (h : Kept s0 s) : Kept s0 (limSample a0 s) := by
  unfold limSample
  repeat' with_reducible first
    | assumption | (refine Kept.ite ?_ ?_) | (refine Kept.ite2 ?_ ?_)
    | (refine Kept.foldl ?_ (fun _ _ _ => ?_)) | (refine Kept.foldl2 ?_ (fun _ _ _ => ?_)) | split
    | (dsimp only; split) | (refine Kept.of_parts rfl rfl rfl rfl rfl ?_)

theorem limApply_kept {s0 s : State} {a0 : Limit} (h : Kept s0 s) : Kept s0 (limApply a0 s) := by
  unfold limApply
  repeat' with_reducible first
    | assumption | (refine Kept.ite ?_ ?_) | (refine Kept.ite2 ?_ ?_) | (refine limSample_kept ?_)
    | (refine limLine_kept ?_)

theorem execSensorSample_kept {s0 s : State} {a0 : Sensor} {a1 : BitVec 16}
    (h : Kept s0 s) : KeptO s0 (execSensorSample a0 a1 s) := by
  unfold execSensorSample
  repeat' with_reducible first
    | assumption | (refine KeptO.next ?_) | (refine KeptO.ite ?_ ?_) | (refine Kept.ite ?_ ?_)
    | (refine Kept.ite2 ?_ ?_) | (refine limApply_kept ?_) | (refine tempRead_kept ?_) | (refine fset_kept ?_)
    | (refine Kept.foldl ?_ (fun _ _ _ => ?_)) | (refine Kept.foldl2 ?_ (fun _ _ _ => ?_)) | split

theorem consoleOut_kept {s0 s : State} {a0 : Nat} {a1 : List Nat}
    (h : Kept s0 s) : Kept s0 (consoleOut a0 a1 s) := by
  unfold consoleOut
  repeat' with_reducible first
    | assumption | (refine Kept.ite ?_ ?_) | (refine Kept.ite2 ?_ ?_) | (refine emit_kept ?_)

theorem execConsoleEye_kept {s0 s : State} {a0 : Nat} {a1 : Nat}
    (h : Kept s0 s) : KeptO s0 (execConsoleEye a0 a1 s) := by
  unfold execConsoleEye
  repeat' with_reducible first
    | assumption | (refine KeptO.next ?_) | (refine KeptO.ite ?_ ?_) | (refine Kept.ite ?_ ?_)
    | (refine Kept.ite2 ?_ ?_) | (refine consoleOut_kept ?_) | (refine freshValue_kept ?_)

theorem execConsoleHasp_kept {s0 s : State}  (h : Kept s0 s) : KeptO s0 (execConsoleHasp s) := by
  unfold execConsoleHasp
  repeat' with_reducible first
    | assumption | (refine KeptO.next ?_) | (refine KeptO.ite ?_ ?_) | (refine Kept.ite ?_ ?_)
    | (refine Kept.ite2 ?_ ?_) | (refine consoleOut_kept ?_)

theorem execConsoleInfo_kept {s0 s : State}  (h : Kept s0 s) : KeptO s0 (execConsoleInfo s) := by
  unfold execConsoleInfo
  repeat' with_reducible first
    | assumption | (refine KeptO.next ?_) | (refine KeptO.ite ?_ ?_) | (refine Kept.ite ?_ ?_)
    | (refine Kept.ite2 ?_ ?_) | (refine consoleOut_kept ?_)

theorem execConsoleLog_kept {s0 s : State} {a0 : Nat} (h : Kept s0 s) : KeptO s0 (execConsoleLog a0 s) := by
  unfold execConsoleLog
  repeat' with_reducible first
    | assumption | (refine KeptO.next ?_) | (refine KeptO.ite ?_ ?_) | (refine Kept.ite ?_ ?_)
    | (refine Kept.ite2 ?_ ?_) | (refine consoleOut_kept ?_)

theorem execConsoleSensors_kept {s0 s : State}  (h : Kept s0 s) : KeptO s0 (execConsoleSensors s) := by
  unfold execConsoleSensors
  repeat' with_reducible first
    | assumption | (refine KeptO.next ?_) | (refine KeptO.ite ?_ ?_) | (refine Kept.ite ?_ ?_)
    | (refine Kept.ite2 ?_ ?_) | (refine consoleOut_kept ?_)

theorem execFwReboot_kept {s0 s : State} {a0 : AdyelIn} (h : Kept s0 s) : KeptO s0 (execFwReboot a0 s) := by
  unfold execFwReboot
  repeat' with_reducible first
    | assumption | (refine KeptO.next ?_) | (refine KeptO.ite ?_ ?_) | (refine Kept.ite ?_ ?_)
    | (refine Kept.ite2 ?_ ?_) | (refine bootEnter_kept ?_) | (refine adyelRun_kept ?_ (fun _ _ _ => ?_))

theorem execFwStatus_kept {s0 s : State} {a0 : AdyelIn} (h : Kept s0 s) : KeptO s0 (execFwStatus a0 s) := by
  unfold execFwStatus
  repeat' with_reducible first
    | assumption | (refine KeptO.next ?_) | (refine KeptO.ite ?_ ?_) | (refine Kept.ite ?_ ?_)
    | (refine Kept.ite2 ?_ ?_) | (refine adyelRun_kept ?_ (fun _ _ _ => ?_))

theorem execFwWrite_kept {s0 s : State} {a0 : AdyelIn} {a1 : Bool} {a2 : Option FwImage} {a3 : Bool}
    (h : Kept s0 s) : KeptO s0 (execFwWrite a0 a1 a2 a3 s) := by
  unfold execFwWrite
  repeat' with_reducible first
    | assumption | (refine KeptO.next ?_) | (refine KeptO.ite ?_ ?_) | (refine Kept.ite ?_ ?_)
    | (refine Kept.ite2 ?_ ?_) | (refine fwRun_kept ?_) | (refine adyelRun_kept ?_ (fun _ _ _ => ?_))

theorem execLogCert_kept {s0 s : State} {a0 : AdyelIn} (h : Kept s0 s) : KeptO s0 (execLogCert a0 s) := by
  unfold execLogCert
  repeat' with_reducible first
    | assumption | (refine KeptO.next ?_) | (refine KeptO.ite ?_ ?_) | (refine Kept.ite ?_ ?_)
    | (refine Kept.ite2 ?_ ?_) | (refine adyelRun_kept ?_ (fun _ _ _ => ?_))
    | (refine Kept.foldl ?_ (fun _ _ _ => ?_)) | (refine Kept.foldl2 ?_ (fun _ _ _ => ?_)) | split

theorem execLogInfo_kept {s0 s : State} {a0 : AdyelIn} (h : Kept s0 s) : KeptO s0 (execLogInfo a0 s) := by
  unfold execLogInfo
  repeat' with_reducible first
    | assumption | (refine KeptO.next ?_) | (refine KeptO.ite ?_ ?_) | (refine Kept.ite ?_ ?_)
    | (refine Kept.ite2 ?_ ?_) | (refine adyelRun_kept ?_ (fun _ _ _ => ?_))

theorem execLogRead_kept {s0 s : State} {a0 : AdyelIn} (h : Kept s0 s) : KeptO s0 (execLogRead a0 s) := by
  unfold execLogRead
  repeat' with_reducible first
    | assumption | (refine KeptO.next ?_) | (refine KeptO.ite ?_ ?_) | (refine Kept.ite ?_ ?_)
    | (refine Kept.ite2 ?_ ?_) | (refine adyelRun_kept ?_ (fun _ _ _ => ?_))

theorem execLogSeal_kept {s0 s : State} {a0 : AdyelIn} (h : Kept s0 s) : KeptO s0 (execLogSeal a0 s) := by
  unfold execLogSeal
  repeat' with_reducible first
    | assumption | (refine KeptO.next ?_) | (refine KeptO.ite ?_ ?_) | (refine Kept.ite ?_ ?_)
    | (refine Kept.ite2 ?_ ?_) | (refine adyelRun_kept ?_ (fun _ _ _ => ?_)) | (refine logSealNow_kept ?_)

theorem execMgmtNet_kept {s0 s : State} {a0 : AdyelIn} (h : Kept s0 s) : KeptO s0 (execMgmtNet a0 s) := by
  unfold execMgmtNet
  repeat' with_reducible first
    | assumption | (refine KeptO.next ?_) | (refine KeptO.ite ?_ ?_) | (refine Kept.ite ?_ ?_)
    | (refine Kept.ite2 ?_ ?_) | (refine adyelRun_kept ?_ (fun _ _ _ => ?_))
    | (refine Kept.foldl ?_ (fun _ _ _ => ?_)) | (refine Kept.foldl2 ?_ (fun _ _ _ => ?_)) | split
    | (refine Kept.of_parts rfl rfl rfl rfl rfl ?_)

theorem execSensorLimits_kept {s0 s : State} {a0 : AdyelIn}
    (h : Kept s0 s) : KeptO s0 (execSensorLimits a0 s) := by
  unfold execSensorLimits
  repeat' with_reducible first
    | assumption | (refine KeptO.next ?_) | (refine KeptO.ite ?_ ?_) | (refine Kept.ite ?_ ?_)
    | (refine Kept.ite2 ?_ ?_) | (refine limitsShow_kept ?_) | (refine adyelRun_kept ?_ (fun _ _ _ => ?_))
    | (refine logPush_kept ?_) | (refine Kept.foldl ?_ (fun _ _ _ => ?_))
    | (refine Kept.foldl2 ?_ (fun _ _ _ => ?_)) | split | (refine Kept.of_parts rfl rfl rfl rfl rfl ?_)

theorem execSensorRead_kept {s0 s : State} {a0 : AdyelIn}
    (h : Kept s0 s) : KeptO s0 (execSensorRead a0 s) := by
  unfold execSensorRead
  repeat' with_reducible first
    | assumption | (refine KeptO.next ?_) | (refine KeptO.ite ?_ ?_) | (refine Kept.ite ?_ ?_)
    | (refine Kept.ite2 ?_ ?_) | (refine adyelRun_kept ?_ (fun _ _ _ => ?_))

theorem traceRead_kept {s0 s : State}  (h : Kept s0 s) : Kept s0 (traceRead s).2 := by
  unfold traceRead
  repeat' with_reducible first
    | assumption | (refine Kept.ite ?_ ?_) | (refine Kept.ite2 ?_ ?_) | (refine setFlag_kept ?_)
    | (refine Kept.foldl ?_ (fun _ _ _ => ?_)) | (refine Kept.foldl2 ?_ (fun _ _ _ => ?_)) | split
    | (refine Kept.of_parts rfl rfl rfl rfl rfl ?_)

theorem execTrcDataRead_kept {s0 s : State} {a0 : Fn} (h : Kept s0 s) : KeptO s0 (execTrcDataRead a0 s) := by
  unfold execTrcDataRead
  repeat' with_reducible first
    | assumption | (refine KeptO.next ?_) | (refine KeptO.ite ?_ ?_) | (refine Kept.ite ?_ ?_)
    | (refine Kept.ite2 ?_ ?_) | (refine traceRead_kept ?_) | (refine hostRd_kept ?_ (fun _ _ => ?_))

theorem traceFlush_kept {s0 s : State}  (h : Kept s0 s) : Kept s0 (traceFlush s) := by
  unfold traceFlush
  repeat' with_reducible first
    | assumption | (refine Kept.ite ?_ ?_) | (refine Kept.ite2 ?_ ?_) | (refine traceForget_kept ?_)
    | (refine Kept.foldl ?_ (fun _ _ _ => ?_)) | (refine Kept.foldl2 ?_ (fun _ _ _ => ?_)) | split
    | (refine Kept.of_parts rfl rfl rfl rfl rfl ?_)

theorem trcCtrlWrite_kept {s0 s : State} {a0 : Word} (h : Kept s0 s) : Kept s0 (trcCtrlWrite a0 s) := by
  unfold trcCtrlWrite
  repeat' with_reducible first
    | assumption | (refine Kept.ite ?_ ?_) | (refine Kept.ite2 ?_ ?_) | (refine traceFlush_kept ?_)
    | (refine setFlag_kept ?_) | (refine traceForget_kept ?_) | (refine fset_kept ?_)
    | (refine Kept.foldl ?_ (fun _ _ _ => ?_)) | (refine Kept.foldl2 ?_ (fun _ _ _ => ?_)) | split
    | (refine Kept.of_parts rfl rfl rfl rfl rfl ?_)

theorem execConsoleTrace_kept {s0 s : State} {a0 : Word}
    (h : Kept s0 s) : KeptO s0 (execConsoleTrace a0 s) := by
  unfold execConsoleTrace
  repeat' with_reducible first
    | assumption | (refine KeptO.next ?_) | (refine KeptO.ite ?_ ?_) | (refine Kept.ite ?_ ?_)
    | (refine Kept.ite2 ?_ ?_) | (refine trcCtrlWrite_kept ?_)

theorem dumpStart_kept {s0 s : State} {a0 : Nat} {a1 : Bool} {a2 : Bool}
    (h : Kept s0 s) : Kept s0 (dumpStart a0 a1 a2 s) := by
  unfold dumpStart
  repeat' with_reducible first
    | assumption | (refine Kept.ite ?_ ?_) | (refine Kept.ite2 ?_ ?_) | (refine hbmAsk_kept ?_)
    | (refine setFlag_kept ?_) | (refine Kept.foldl ?_ (fun _ _ _ => ?_))
    | (refine Kept.foldl2 ?_ (fun _ _ _ => ?_)) | split | (refine Kept.of_parts rfl rfl rfl rfl rfl ?_)

theorem dumpTrigger_kept {s0 s : State} {a0 : Nat} {a1 : Bool}
    (h : Kept s0 s) : Kept s0 (dumpTrigger a0 a1 s) := by
  unfold dumpTrigger
  repeat' with_reducible first
    | assumption | (refine Kept.ite ?_ ?_) | (refine Kept.ite2 ?_ ?_) | (refine dumpStart_kept ?_)
    | (refine setFlag_kept ?_) | (refine bump_kept ?_) | (refine Kept.foldl ?_ (fun _ _ _ => ?_))
    | (refine Kept.foldl2 ?_ (fun _ _ _ => ?_)) | split | (refine Kept.of_parts rfl rfl rfl rfl rfl ?_)

theorem execDumpTrigger_kept {s0 s : State}  (h : Kept s0 s) : KeptO s0 (execDumpTrigger s) := by
  unfold execDumpTrigger
  repeat' with_reducible first
    | assumption | (refine KeptO.next ?_) | (refine KeptO.ite ?_ ?_) | (refine Kept.ite ?_ ?_)
    | (refine Kept.ite2 ?_ ?_) | (refine dumpTrigger_kept ?_)

theorem dumpCtrlWrite_kept {s0 s : State} {a0 : Word} (h : Kept s0 s) : Kept s0 (dumpCtrlWrite a0 s) := by
  unfold dumpCtrlWrite
  repeat' with_reducible first
    | assumption | (refine Kept.ite ?_ ?_) | (refine Kept.ite2 ?_ ?_) | (refine dumpTrigger_kept ?_)

theorem execObsWordSend_kept {s0 s : State}  (h : Kept s0 s) : KeptO s0 (execObsWordSend s) := by
  unfold execObsWordSend
  repeat' with_reducible first
    | assumption | (refine KeptO.next ?_) | (refine KeptO.ite ?_ ?_) | (refine Kept.ite ?_ ?_)
    | (refine Kept.ite2 ?_ ?_) | (refine passCclk_kept ?_) | (refine emit_kept ?_)
    | (refine Kept.foldl ?_ (fun _ _ _ => ?_)) | (refine Kept.foldl2 ?_ (fun _ _ _ => ?_)) | split
    | (refine Kept.of_parts rfl rfl rfl rfl rfl ?_)

theorem bwRestart_kept {s0 s : State} {a0 : Nat} (h : Kept s0 s) : Kept s0 (bwRestart a0 s) := by
  unfold bwRestart
  repeat' with_reducible first
    | assumption | (refine Kept.ite ?_ ?_) | (refine Kept.ite2 ?_ ?_) | (refine cntSet_kept ?_)
    | (refine fset_kept ?_) | (refine Kept.foldl ?_ (fun _ _ _ => ?_))
    | (refine Kept.foldl2 ?_ (fun _ _ _ => ?_)) | split | (refine Kept.of_parts rfl rfl rfl rfl rfl ?_)

theorem peaksClear_kept {s0 s : State}  (h : Kept s0 s) : Kept s0 (peaksClear s) := by
  unfold peaksClear
  repeat' with_reducible first
    | assumption | (refine Kept.ite ?_ ?_) | (refine Kept.ite2 ?_ ?_) | (refine cntSet_kept ?_)
    | (refine Kept.foldl ?_ (fun _ _ _ => ?_))

theorem bwCtrlWrite_kept {s0 s : State} {a0 : Word} (h : Kept s0 s) : Kept s0 (bwCtrlWrite a0 s) := by
  unfold bwCtrlWrite
  repeat' with_reducible first
    | assumption | (refine Kept.ite ?_ ?_) | (refine Kept.ite2 ?_ ?_) | (refine peaksClear_kept ?_)
    | (refine bwRestart_kept ?_)

theorem execBwWindowWrite_kept {s0 s : State} {a0 : Fn} {a1 : Word}
    (h : Kept s0 s) : KeptO s0 (execBwWindowWrite a0 a1 s) := by
  unfold execBwWindowWrite
  repeat' with_reducible first
    | assumption | (refine KeptO.next ?_) | (refine KeptO.ite ?_ ?_) | (refine Kept.ite ?_ ?_)
    | (refine Kept.ite2 ?_ ?_) | (refine bwCtrlWrite_kept ?_) | (refine hostWr_kept ?_ (fun _ _ => ?_))

theorem bwPut_kept {s0 s : State} {a0 : Nat} {a1 : Nat} {a2 : Nat}
    (h : Kept s0 s) : Kept s0 (bwPut a0 a1 a2 s) := by
  unfold bwPut
  repeat' with_reducible first
    | assumption | (refine Kept.ite ?_ ?_) | (refine Kept.ite2 ?_ ?_) | (refine cntSet_kept ?_)

theorem execBwWindowEnd_kept {s0 s : State}  (h : Kept s0 s) : KeptO s0 (execBwWindowEnd s) := by
  unfold execBwWindowEnd
  repeat' with_reducible first
    | assumption | (refine KeptO.next ?_) | (refine KeptO.ite ?_ ?_) | (refine Kept.ite ?_ ?_)
    | (refine Kept.ite2 ?_ ?_) | (refine bwPut_kept ?_) | (refine reachPtp_kept ?_)
    | (refine Kept.foldl ?_ (fun _ _ _ => ?_)) | (refine Kept.foldl2 ?_ (fun _ _ _ => ?_)) | split
    | (refine Kept.of_parts rfl rfl rfl rfl rfl ?_)

theorem execDumpComplete_kept {s0 s : State}  (h : Kept s0 s) : KeptO s0 (execDumpComplete s) := by
  unfold execDumpComplete
  repeat' with_reducible first
    | assumption | (refine KeptO.next ?_) | (refine KeptO.ite ?_ ?_) | (refine Kept.ite ?_ ?_)
    | (refine Kept.ite2 ?_ ?_) | (refine haspLineUp_kept ?_) | (refine dumpStart_kept ?_)
    | (refine reachCclk_kept ?_) | (refine passCclk_kept ?_) | (refine setFlag_kept ?_)
    | (refine Kept.foldl ?_ (fun _ _ _ => ?_)) | (refine Kept.foldl2 ?_ (fun _ _ _ => ?_)) | split
    | (refine Kept.of_parts rfl rfl rfl rfl rfl ?_)

theorem execDumpNow_kept {s0 s : State} {a0 : Fn} {a1 : Word}
    (h : Kept s0 s) : KeptO s0 (execDumpNow a0 a1 s) := by
  unfold execDumpNow
  repeat' with_reducible first
    | assumption | (refine KeptO.next ?_) | (refine KeptO.ite ?_ ?_) | (refine Kept.ite ?_ ?_)
    | (refine Kept.ite2 ?_ ?_) | (refine dumpCtrlWrite_kept ?_) | (refine hostWr_kept ?_ (fun _ _ => ?_))

theorem execPeakClear_kept {s0 s : State} {a0 : Fn} {a1 : Word}
    (h : Kept s0 s) : KeptO s0 (execPeakClear a0 a1 s) := by
  unfold execPeakClear
  repeat' with_reducible first
    | assumption | (refine KeptO.next ?_) | (refine KeptO.ite ?_ ?_) | (refine Kept.ite ?_ ?_)
    | (refine Kept.ite2 ?_ ?_) | (refine bwCtrlWrite_kept ?_) | (refine hostWr_kept ?_ (fun _ _ => ?_))

theorem execTrcFlush_kept {s0 s : State} {a0 : Fn} {a1 : Word}
    (h : Kept s0 s) : KeptO s0 (execTrcFlush a0 a1 s) := by
  unfold execTrcFlush
  repeat' with_reducible first
    | assumption | (refine KeptO.next ?_) | (refine KeptO.ite ?_ ?_) | (refine Kept.ite ?_ ?_)
    | (refine Kept.ite2 ?_ ?_) | (refine trcCtrlWrite_kept ?_) | (refine hostWr_kept ?_ (fun _ _ => ?_))

theorem execTrcIdleClose_kept {s0 s : State}  (h : Kept s0 s) : KeptO s0 (execTrcIdleClose s) := by
  unfold execTrcIdleClose
  repeat' with_reducible first
    | assumption | (refine KeptO.next ?_) | (refine KeptO.ite ?_ ?_) | (refine Kept.ite ?_ ?_)
    | (refine Kept.ite2 ?_ ?_) | (refine reachCclk_kept ?_) | (refine Kept.foldl ?_ (fun _ _ _ => ?_))
    | (refine Kept.foldl2 ?_ (fun _ _ _ => ?_)) | split | (refine Kept.of_parts rfl rfl rfl rfl rfl ?_)

theorem execTrcSinkSet_kept {s0 s : State} {a0 : Fn} {a1 : Word}
    (h : Kept s0 s) : KeptO s0 (execTrcSinkSet a0 a1 s) := by
  unfold execTrcSinkSet
  repeat' with_reducible first
    | assumption | (refine KeptO.next ?_) | (refine KeptO.ite ?_ ?_) | (refine Kept.ite ?_ ?_)
    | (refine Kept.ite2 ?_ ?_) | (refine trcCtrlWrite_kept ?_) | (refine hostWr_kept ?_ (fun _ _ => ?_))

theorem wakePme_kept {s0 s : State}  (h : Kept s0 s) : Kept s0 (wakePme s) := by
  unfold wakePme
  repeat' with_reducible first
    | assumption | (refine Kept.ite ?_ ?_) | (refine Kept.ite2 ?_ ?_)
    | (refine Kept.foldl ?_ (fun _ _ _ => ?_)) | (refine Kept.foldl2 ?_ (fun _ _ _ => ?_)) | split
    | (refine Kept.of_parts rfl rfl rfl rfl rfl ?_)

theorem wakeAct_kept {s0 s : State}  (h : Kept s0 s) : Kept s0 (wakeAct s) := by
  unfold wakeAct
  repeat' with_reducible first
    | assumption | (refine Kept.ite ?_ ?_) | (refine Kept.ite2 ?_ ?_) | (refine bootEnter_kept ?_)
    | (refine passCclk_kept ?_) | (refine setTransition_kept ?_) | (refine Kept.foldl ?_ (fun _ _ _ => ?_))
    | (refine Kept.foldl2 ?_ (fun _ _ _ => ?_)) | split | (refine Kept.of_parts rfl rfl rfl rfl rfl ?_)

theorem unretained_kept {s0 s : State} (h : Kept s0 s) : Kept s0 (unretained s) := by
  have k := softReset_kept (wake := true) (Kept.refl s)
  unfold unretained
  generalize softReset true s = n at k ⊢
  extract_lets w n' m serial m'
  have hm : Kept s0 m := h.trans ⟨k.pending, k.mem, le_rfl, le_rfl, le_rfl⟩
  clear_value m
  exact imageInForce_kept (limitsShow_kept (fset_kept (fset_kept (imgRegs_kept hm))))

theorem tchStart_kept {s0 s : State}  (h : Kept s0 s) : Kept s0 (tchStart s) := by
  unfold tchStart
  repeat' with_reducible first
    | assumption | (refine Kept.ite ?_ ?_) | (refine Kept.ite2 ?_ ?_) | (refine limitsShow_kept ?_)
    | (refine logClose_kept ?_) | (refine logPush_kept ?_) | (refine Kept.foldl ?_ (fun _ _ _ => ?_))
    | (refine Kept.foldl2 ?_ (fun _ _ _ => ?_)) | split | (refine Kept.of_parts rfl rfl rfl rfl rfl ?_)

theorem tchBegin_kept {s0 s : State}  (h : Kept s0 s) : Kept s0 (tchBegin s) := by
  unfold tchBegin
  repeat' with_reducible first
    | assumption | (refine Kept.ite ?_ ?_) | (refine Kept.ite2 ?_ ?_) | (refine tchStart_kept ?_)
    | (refine Kept.foldl ?_ (fun _ _ _ => ?_)) | (refine Kept.foldl2 ?_ (fun _ _ _ => ?_)) | split
    | (refine Kept.of_parts rfl rfl rfl rfl rfl ?_)

theorem bistFailed_kept {s0 s : State} {a0 : Nat} (h : Kept s0 s) : Kept s0 (bistFailed a0 s) := by
  unfold bistFailed
  repeat' with_reducible first
    | assumption | (refine Kept.ite ?_ ?_) | (refine Kept.ite2 ?_ ?_) | (refine tchBegin_kept ?_)
    | (refine haspForce_kept ?_) | (refine lockdownEnter_kept ?_) | (refine Kept.foldl ?_ (fun _ _ _ => ?_))
    | (refine Kept.foldl2 ?_ (fun _ _ _ => ?_)) | split | (refine Kept.of_parts rfl rfl rfl rfl rfl ?_)

theorem bootFail_kept {s0 s : State} {a0 : Nat} (h : Kept s0 s) : Kept s0 (bootFail a0 s) := by
  unfold bootFail
  repeat' with_reducible first
    | assumption | (refine Kept.ite ?_ ?_) | (refine Kept.ite2 ?_ ?_) | (refine tchBegin_kept ?_)
    | (refine haspForce_kept ?_) | (refine lockdownEnter_kept ?_) | (refine fset_kept ?_)
    | (refine Kept.foldl ?_ (fun _ _ _ => ?_)) | (refine Kept.foldl2 ?_ (fun _ _ _ => ?_)) | split
    | (refine Kept.of_parts rfl rfl rfl rfl rfl ?_)

theorem bootKey_kept {s0 s : State}  (h : Kept s0 s) : Kept s0 (bootKey s) := by
  unfold bootKey
  repeat' with_reducible first
    | assumption | (refine Kept.ite ?_ ?_) | (refine Kept.ite2 ?_ ?_) | (refine hbmZero_kept ?_)
    | (refine drawBytes_kept ?_) | (refine setFlag_kept ?_) | (refine Kept.foldl ?_ (fun _ _ _ => ?_))
    | (refine Kept.foldl2 ?_ (fun _ _ _ => ?_)) | split | (refine Kept.of_parts rfl rfl rfl rfl rfl ?_)

theorem aliasDerive_kept {s0 s : State}  (h : Kept s0 s) : Kept s0 (aliasDerive s) := by
  unfold aliasDerive
  repeat' with_reducible first
    | assumption | (refine Kept.ite ?_ ?_) | (refine Kept.ite2 ?_ ?_)
    | (refine Kept.foldl ?_ (fun _ _ _ => ?_)) | (refine Kept.foldl2 ?_ (fun _ _ _ => ?_)) | split
    | (refine Kept.of_parts rfl rfl rfl rfl rfl ?_)

theorem gensDraw_kept {s0 s : State}  (h : Kept s0 s) : Kept s0 (gensDraw s) := by
  unfold gensDraw
  repeat' with_reducible first
    | assumption | (refine Kept.ite ?_ ?_) | (refine Kept.ite2 ?_ ?_)
    | (refine Kept.foldl ?_ (fun _ _ _ => ?_)) | (refine Kept.foldl2 ?_ (fun _ _ _ => ?_)) | split
    | (refine Kept.of_parts rfl rfl rfl rfl rfl ?_)

theorem imageRestore_kept {s0 s : State}  (h : Kept s0 s) : Kept s0 (imageRestore s) := by
  unfold imageRestore
  repeat' with_reducible first
    | assumption | (refine Kept.ite ?_ ?_) | (refine Kept.ite2 ?_ ?_) | (refine imageInForce_kept ?_)
    | (refine fset_kept ?_) | (refine Kept.foldl ?_ (fun _ _ _ => ?_))
    | (refine Kept.foldl2 ?_ (fun _ _ _ => ?_)) | split | (refine Kept.of_parts rfl rfl rfl rfl rfl ?_)

theorem bootEnd_kept {s0 s : State}  (h : Kept s0 s) : Kept s0 (bootEnd s) := by
  unfold bootEnd
  repeat' with_reducible first
    | assumption | (refine Kept.ite ?_ ?_) | (refine Kept.ite2 ?_ ?_) | (refine imageRestore_kept ?_)
    | (refine gensDraw_kept ?_) | (refine aliasDerive_kept ?_) | (refine tchStart_kept ?_)
    | (refine lockdownEnter_kept ?_) | (refine enterMode_kept ?_) | (refine Kept.foldl ?_ (fun _ _ _ => ?_))
    | (refine Kept.foldl2 ?_ (fun _ _ _ => ?_)) | split | (refine Kept.of_parts rfl rfl rfl rfl rfl ?_)

theorem fwLoad_kept {s0 s : State} {a0 : FwImage} {a1 : Nat} (h : Kept s0 s) : Kept s0 (fwLoad a0 a1 s) := by
  unfold fwLoad
  repeat' with_reducible first
    | assumption | (refine Kept.ite ?_ ?_) | (refine Kept.ite2 ?_ ?_) | (refine fset_kept ?_)
    | (refine Kept.foldl ?_ (fun _ _ _ => ?_)) | (refine Kept.foldl2 ?_ (fun _ _ _ => ?_)) | split
    | (refine Kept.of_parts rfl rfl rfl rfl rfl ?_)

theorem patchLoad_kept {s0 s : State} {a0 : FwImage} (h : Kept s0 s) : Kept s0 (patchLoad a0 s) := by
  unfold patchLoad
  repeat' with_reducible first
    | assumption | (refine Kept.ite ?_ ?_) | (refine Kept.ite2 ?_ ?_) | (refine fset_kept ?_)
    | (refine Kept.foldl ?_ (fun _ _ _ => ?_)) | (refine Kept.foldl2 ?_ (fun _ _ _ => ?_)) | split
    | (refine Kept.of_parts rfl rfl rfl rfl rfl ?_)

theorem storeOpen_kept {s0 s : State} {a0 : StoreCopy} (h : Kept s0 s) : Kept s0 (storeOpen a0 s) := by
  unfold storeOpen
  repeat' with_reducible first
    | assumption | (refine Kept.ite ?_ ?_) | (refine Kept.ite2 ?_ ?_)
    | (refine Kept.foldl ?_ (fun _ _ _ => ?_)) | (refine Kept.foldl2 ?_ (fun _ _ _ => ?_)) | split
    | (refine Kept.of_parts rfl rfl rfl rfl rfl ?_)

theorem bootSteps_kept {s0 s : State} {a0 : BootIn} (h : Kept s0 s) : Kept s0 (bootSteps a0 s) := by
  unfold bootSteps
  repeat' with_reducible first
    | assumption | (refine Kept.ite ?_ ?_) | (refine Kept.ite2 ?_ ?_) | (refine storeOpen_kept ?_)
    | (refine patchLoad_kept ?_) | (refine fwLoad_kept ?_) | (refine bootEnd_kept ?_)
    | (refine bootFail_kept ?_) | (refine haspLineUp_kept ?_) | (refine setFlag_kept ?_)
    | (refine fset_kept ?_) | (refine Kept.foldl ?_ (fun _ _ _ => ?_))
    | (refine Kept.foldl2 ?_ (fun _ _ _ => ?_)) | split

theorem execBootComplete_kept {s0 s : State} {a0 : BootIn}
    (h : Kept s0 s) : KeptO s0 (execBootComplete a0 s) := by
  unfold execBootComplete
  repeat' with_reducible first
    | assumption | (refine KeptO.next ?_) | (refine KeptO.ite ?_ ?_) | (refine Kept.ite ?_ ?_)
    | (refine Kept.ite2 ?_ ?_) | (refine bootSteps_kept ?_) | (refine bootKey_kept ?_)
    | (refine bootFail_kept ?_) | (refine bistFailed_kept ?_) | (refine setFlag_kept ?_)
    | (refine fset_kept ?_) | (refine Kept.foldl ?_ (fun _ _ _ => ?_))
    | (refine Kept.foldl2 ?_ (fun _ _ _ => ?_)) | split | (refine Kept.of_parts rfl rfl rfl rfl rfl ?_)

theorem storesZero_kept {s0 s : State} (h : Kept s0 s) : Kept s0 (storesZero s) :=
  fset_kept (h.trans ⟨rfl, fun w => (Memory.wf_iff _).2 (wf_filter _ ((Memory.wf_iff _).1 w)), le_rfl, le_rfl, le_rfl⟩)

theorem resumeOperate_kept {s0 s : State}  (h : Kept s0 s) : Kept s0 (resumeOperate s) := by
  unfold resumeOperate
  repeat' with_reducible first
    | assumption | (refine Kept.ite ?_ ?_) | (refine Kept.ite2 ?_ ?_) | (refine unitOn_kept ?_)
    | (refine storesZero_kept ?_) | (refine wakePme_kept ?_) | (refine enterMode_kept ?_)
    | (refine setFlag_kept ?_) | (refine Kept.foldl ?_ (fun _ _ _ => ?_))
    | (refine Kept.foldl2 ?_ (fun _ _ _ => ?_)) | split | (refine Kept.of_parts rfl rfl rfl rfl rfl ?_)

theorem execWakeResume_kept {s0 s : State}  (h : Kept s0 s) : KeptO s0 (execWakeResume s) := by
  unfold execWakeResume
  repeat' with_reducible first
    | assumption | (refine KeptO.next ?_) | (refine KeptO.ite ?_ ?_) | (refine Kept.ite ?_ ?_)
    | (refine Kept.ite2 ?_ ?_) | (refine resumeOperate_kept ?_) | (refine unretained_kept ?_)
    | (refine reachCclk_kept ?_) | (refine lockdownEnter_kept ?_)

theorem wakeEvent_kept {s0 s : State} {a0 : Nat} (h : Kept s0 s) : Kept s0 (wakeEvent a0 s) := by
  unfold wakeEvent
  repeat' with_reducible first
    | assumption | (refine Kept.ite ?_ ?_) | (refine Kept.ite2 ?_ ?_) | (refine wakeLatch_kept ?_)
    | (refine wakeAct_kept ?_) | (refine stbyStatus_kept ?_) | (refine setFlag_kept ?_)
    | (refine Kept.foldl ?_ (fun _ _ _ => ?_)) | (refine Kept.foldl2 ?_ (fun _ _ _ => ?_)) | split
    | (refine Kept.of_parts rfl rfl rfl rfl rfl ?_)

theorem wakeIf_kept {s0 s : State} {a0 : Fld} {a1 : Nat} (h : Kept s0 s) : Kept s0 (wakeIf a0 a1 s) := by
  unfold wakeIf
  repeat' with_reducible first
    | assumption | (refine Kept.ite ?_ ?_) | (refine Kept.ite2 ?_ ?_) | (refine wakeEvent_kept ?_)

theorem wakePin_kept {s0 s : State} {a0 : Bool} (h : Kept s0 s) : Kept s0 (wakePin a0 s) := by
  unfold wakePin
  repeat' with_reducible first
    | assumption | (refine Kept.ite ?_ ?_) | (refine Kept.ite2 ?_ ?_) | (refine wakeIf_kept ?_)
    | (refine Kept.foldl ?_ (fun _ _ _ => ?_)) | (refine Kept.foldl2 ?_ (fun _ _ _ => ?_)) | split
    | (refine Kept.of_parts rfl rfl rfl rfl rfl ?_)

theorem alarmRun_kept {s0 s : State}  (h : Kept s0 s) : Kept s0 (alarmRun s) := by
  unfold alarmRun
  repeat' with_reducible first
    | assumption | (refine Kept.ite ?_ ?_) | (refine Kept.ite2 ?_ ?_) | (refine wakeEvent_kept ?_)
    | (refine reachPtp_kept ?_) | (refine Kept.foldl ?_ (fun _ _ _ => ?_))
    | (refine Kept.foldl2 ?_ (fun _ _ _ => ?_)) | split | (refine Kept.of_parts rfl rfl rfl rfl rfl ?_)

theorem execAlarm_kept {s0 s : State}  (h : Kept s0 s) : KeptO s0 (execAlarm s) := by
  unfold execAlarm
  repeat' with_reducible first
    | assumption | (refine KeptO.next ?_) | (refine KeptO.ite ?_ ?_) | (refine Kept.ite ?_ ?_)
    | (refine Kept.ite2 ?_ ?_) | (refine alarmRun_kept ?_)

theorem perstUp_kept {s0 s : State}  (h : Kept s0 s) : Kept s0 (perstUp s) := by
  unfold perstUp
  repeat' with_reducible first
    | assumption | (refine Kept.ite ?_ ?_) | (refine Kept.ite2 ?_ ?_) | (refine wakeIf_kept ?_)
    | (refine Kept.foldl ?_ (fun _ _ _ => ?_)) | (refine Kept.foldl2 ?_ (fun _ _ _ => ?_)) | split
    | (refine Kept.of_parts rfl rfl rfl rfl rfl ?_)

theorem execPerstRise_kept {s0 s : State}  (h : Kept s0 s) : KeptO s0 (execPerstRise s) := by
  unfold execPerstRise
  repeat' with_reducible first
    | assumption | (refine KeptO.next ?_) | (refine KeptO.ite ?_ ?_) | (refine Kept.ite ?_ ?_)
    | (refine Kept.ite2 ?_ ?_) | (refine perstUp_kept ?_)

theorem stbyRise_kept {s0 s : State}  (h : Kept s0 s) : Kept s0 (stbyRise s) := by
  unfold stbyRise
  repeat' with_reducible first
    | assumption | (refine Kept.ite ?_ ?_) | (refine Kept.ite2 ?_ ?_) | (refine wakeIf_kept ?_)
    | (refine Kept.foldl ?_ (fun _ _ _ => ?_)) | (refine Kept.foldl2 ?_ (fun _ _ _ => ?_)) | split
    | (refine Kept.of_parts rfl rfl rfl rfl rfl ?_)

theorem execWake_kept {s0 s : State} {a0 : WakeSrc} {a1 : Bool}
    (h : Kept s0 s) : KeptO s0 (execWake a0 a1 s) := by
  unfold execWake
  repeat' with_reducible first
    | assumption | (refine KeptO.next ?_) | (refine KeptO.ite ?_ ?_) | (refine Kept.ite ?_ ?_)
    | (refine Kept.ite2 ?_ ?_) | (refine stbyRise_kept ?_) | (refine perstUp_kept ?_)
    | (refine alarmRun_kept ?_) | (refine wakePin_kept ?_) | (refine Kept.foldl ?_ (fun _ _ _ => ?_))
    | (refine Kept.foldl2 ?_ (fun _ _ _ => ?_)) | split

theorem execWakeDwellEnd_kept {s0 s : State}  (h : Kept s0 s) : KeptO s0 (execWakeDwellEnd s) := by
  unfold execWakeDwellEnd
  repeat' with_reducible first
    | assumption | (refine KeptO.next ?_) | (refine KeptO.ite ?_ ?_) | (refine Kept.ite ?_ ?_)
    | (refine Kept.ite2 ?_ ?_) | (refine wakeAct_kept ?_) | (refine reachCclk_kept ?_)

end Sys2Proof.Machine
end

