-- ==== Sys2Proof/Laws/KeptCommands.lean ====
section
/-! SUPPORT. What every operation of the register accesses and the tick keeps:
the queue, the memory's canonical form and the fuses that only rise. -/

namespace Sys2Proof.Machine

theorem readClears_kept {s0 s : State} {a0 : Nat} {a2 : Fld}
    (h : Kept s0 s) : Kept s0 (readClears a0 s a2) := by
  unfold readClears
  repeat' with_reducible first
    | assumption | (refine Kept.ite ?_ ?_) | (refine Kept.ite2 ?_ ?_) | (refine fset_kept ?_)
    | (refine Kept.foldl ?_ (fun _ _ _ => ?_)) | (refine Kept.foldl2 ?_ (fun _ _ _ => ?_)) | split
    | (refine Kept.of_parts rfl rfl rfl rfl rfl ?_)

theorem readReg_kept {s0 s : State} {a0 : Nat} {a1 : Reg} {a2 : Nat}
    (h : Kept s0 s) : Kept s0 (readReg a0 a1 a2 s).2 := by
  unfold readReg
  repeat' with_reducible first
    | assumption | (refine Kept.ite ?_ ?_) | (refine Kept.ite2 ?_ ?_) | (refine txtsPop_kept ?_)
    | (refine readClears_kept ?_) | (refine traceRead_kept ?_) | (refine Kept.foldl ?_ (fun _ _ _ => ?_))
    | (refine Kept.foldl2 ?_ (fun _ _ _ => ?_)) | split | (refine Kept.of_parts rfl rfl rfl rfl rfl ?_)

theorem vfDenied_kept {s0 s : State} {a0 : Nat} (h : Kept s0 s) : Kept s0 (vfDenied a0 s) := by
  unfold vfDenied
  repeat' with_reducible first
    | assumption | (refine Kept.ite ?_ ?_) | (refine Kept.ite2 ?_ ?_) | (refine denied_kept ?_)

theorem execConsolePeek_kept {s0 s : State} {a0 : Nat} (h : Kept s0 s) : KeptO s0 (execConsolePeek a0 s) := by
  unfold execConsolePeek
  repeat' with_reducible first
    | assumption | (refine KeptO.next ?_) | (refine KeptO.ite ?_ ?_) | (refine Kept.ite ?_ ?_)
    | (refine Kept.ite2 ?_ ?_) | (refine consoleOut_kept ?_) | (refine readReg_kept ?_)
    | (refine Kept.foldl ?_ (fun _ _ _ => ?_)) | (refine Kept.foldl2 ?_ (fun _ _ _ => ?_)) | split

theorem fieldWrite_kept {s0 s : State} {a0 : Nat} {a1 : Word} {a3 : Fld}
    (h : Kept s0 s) : Kept s0 (fieldWrite a0 a1 s a3) := by
  unfold fieldWrite
  repeat' with_reducible first
    | assumption | (refine Kept.ite ?_ ?_) | (refine Kept.ite2 ?_ ?_) | (refine fset_kept ?_)
    | (refine Kept.foldl ?_ (fun _ _ _ => ?_)) | (refine Kept.foldl2 ?_ (fun _ _ _ => ?_)) | split

theorem plainWrite_kept {s0 s : State} {a0 : Reg} {a1 : Nat} {a2 : Word}
    (h : Kept s0 s) : Kept s0 (plainWrite a0 a1 a2 s) := by
  unfold plainWrite
  repeat' with_reducible first
    | assumption | (refine Kept.ite ?_ ?_) | (refine Kept.ite2 ?_ ?_) | (refine fieldWrite_kept ?_)
    | (refine Kept.foldl ?_ (fun _ _ _ => ?_))

theorem dcRingWrite_kept {s0 s : State} {a0 : Reg} {a1 : Nat} {a2 : Word}
    (h : Kept s0 s) : Kept s0 (dcRingWrite a0 a1 a2 s) := by
  unfold dcRingWrite
  repeat' with_reducible first
    | assumption | (refine Kept.ite ?_ ?_) | (refine Kept.ite2 ?_ ?_) | (refine plainWrite_kept ?_)
    | (refine fset_kept ?_)

theorem scRingWrite_kept {s0 s : State} {a0 : Reg} {a1 : Nat} {a2 : Word}
    (h : Kept s0 s) : Kept s0 (scRingWrite a0 a1 a2 s) := by
  unfold scRingWrite
  repeat' with_reducible first
    | assumption | (refine Kept.ite ?_ ?_) | (refine Kept.ite2 ?_ ?_) | (refine plainWrite_kept ?_)
    | (refine fset_kept ?_)

theorem writeReg_kept {s0 s : State} {a0 : Nat} {a1 : Reg} {a2 : Nat} {a3 : Word}
    (h : Kept s0 s) : Kept s0 (writeReg a0 a1 a2 a3 s) := by
  unfold writeReg
  repeat' with_reducible first
    | assumption | (refine Kept.ite ?_ ?_) | (refine Kept.ite2 ?_ ?_) | (refine winCfg_kept ?_)
    | (refine shadowPut_kept ?_) | (refine scRingWrite_kept ?_) | (refine ringTail_kept ?_)
    | (refine poolReturn_kept ?_) | (refine poolRequest_kept ?_) | (refine mbxSubmit_kept ?_)
    | (refine leafCtrlWrite_kept ?_) | (refine intMask_kept ?_) | (refine intForce_kept ?_)
    | (refine intAck_kept ?_) | (refine haspAckWord_kept ?_) | (refine gclCtrlWrite_kept ?_)
    | (refine dcRingWrite_kept ?_) | (refine plainWrite_kept ?_) | (refine dcOwnerPut_kept ?_)
    | (refine cqTail_kept ?_) | (refine cqOwnerPut_kept ?_) | (refine cqCfg_kept ?_)
    | (refine macCtrlWrite_kept ?_) | (refine timeIncrSet_kept ?_) | (refine bwCtrlWrite_kept ?_)
    | (refine winCtrl_kept ?_) | (refine tblCtrlWrite_kept ?_) | (refine dumpCtrlWrite_kept ?_)
    | (refine doorbellWrite_kept ?_) | (refine ceCtrlWrite_kept ?_) | (refine gpioWrite_kept ?_)
    | (refine grpResend_kept ?_) | (refine timeCtrlWrite_kept ?_) | (refine haspClear_kept ?_)
    | (refine trcCtrlWrite_kept ?_) | (refine tmrCtrlWrite_kept ?_) | (refine modeReq_kept ?_)
    | (refine cgAllocWrite_kept ?_) | (refine shapeWrite_kept ?_) | (refine dcCtrl_kept ?_)
    | (refine essCmdWrite_kept ?_) | (refine flCtrlWrite_kept ?_) | (refine statFlush_kept ?_)
    | (refine fset_kept ?_) | (refine Kept.foldl ?_ (fun _ _ _ => ?_))
    | (refine Kept.foldl2 ?_ (fun _ _ _ => ?_)) | split

theorem execConsolePoke_kept {s0 s : State} {a0 : Nat} {a1 : Word}
    (h : Kept s0 s) : KeptO s0 (execConsolePoke a0 a1 s) := by
  unfold execConsolePoke
  repeat' with_reducible first
    | assumption | (refine KeptO.next ?_) | (refine KeptO.ite ?_ ?_) | (refine Kept.ite ?_ ?_)
    | (refine Kept.ite2 ?_ ?_) | (refine writeReg_kept ?_) | (refine Kept.foldl ?_ (fun _ _ _ => ?_))
    | (refine Kept.foldl2 ?_ (fun _ _ _ => ?_)) | split

theorem bar0Read_kept {s0 s : State} {a0 : Nat} {a1 : Nat} (h : Kept s0 s) : Kept s0 (bar0Read a0 a1 s) := by
  unfold bar0Read
  repeat' with_reducible first
    | assumption | (refine Kept.ite ?_ ?_) | (refine Kept.ite2 ?_ ?_) | (refine vfDenied_kept ?_)
    | (refine readReg_kept ?_) | (refine hostRd_kept ?_ (fun _ _ => ?_)) | (refine emit_kept ?_)
    | (refine Kept.foldl ?_ (fun _ _ _ => ?_)) | (refine Kept.foldl2 ?_ (fun _ _ _ => ?_)) | split

theorem bar2Read_kept {s0 s : State} {a0 : Nat} {a1 : Nat} {a2 : Nat}
    (h : Kept s0 s) : Kept s0 (bar2Read a0 a1 a2 s) := by
  unfold bar2Read
  repeat' with_reducible first
    | assumption | (refine Kept.ite ?_ ?_) | (refine Kept.ite2 ?_ ?_) | (refine freshValue_kept ?_)
    | (refine denied_kept ?_) | (refine emit_kept ?_)

theorem bar4Read_kept {s0 s : State} {a0 : Nat} (h : Kept s0 s) : Kept s0 (bar4Read a0 s) := by
  unfold bar4Read
  repeat' with_reducible first
    | assumption | (refine Kept.ite ?_ ?_) | (refine Kept.ite2 ?_ ?_) | (refine readReg_kept ?_)
    | (refine hostRd_kept ?_ (fun _ _ => ?_)) | (refine emit_kept ?_)
    | (refine Kept.foldl ?_ (fun _ _ _ => ?_)) | (refine Kept.foldl2 ?_ (fun _ _ _ => ?_)) | split

theorem configRead_kept {s0 s : State} {a0 : Nat} {a1 : CfgReg}
    (h : Kept s0 s) : Kept s0 (configRead a0 a1 s) := by
  unfold configRead
  repeat' with_reducible first
    | assumption | (refine Kept.ite ?_ ?_) | (refine Kept.ite2 ?_ ?_) | (refine freshValue_kept ?_)
    | (refine emit_kept ?_) | (refine Kept.foldl ?_ (fun _ _ _ => ?_))
    | (refine Kept.foldl2 ?_ (fun _ _ _ => ?_)) | split

theorem hostRead_kept {s0 s : State} {a0 : Nat} {a1 : RegAddr}
    (h : Kept s0 s) : Kept s0 (hostRead a0 a1 s) := by
  unfold hostRead
  repeat' with_reducible first
    | assumption | (refine Kept.ite ?_ ?_) | (refine Kept.ite2 ?_ ?_) | (refine configRead_kept ?_)
    | (refine bar4Read_kept ?_) | (refine bar2Read_kept ?_) | (refine bar0Read_kept ?_)
    | (refine Kept.foldl ?_ (fun _ _ _ => ?_)) | (refine Kept.foldl2 ?_ (fun _ _ _ => ?_)) | split

theorem execCounterReadClear_kept {s0 s : State} {a0 : Fn} {a1 : RegAddr}
    (h : Kept s0 s) : KeptO s0 (execCounterReadClear a0 a1 s) := by
  unfold execCounterReadClear
  repeat' with_reducible first
    | assumption | (refine KeptO.next ?_) | (refine KeptO.ite ?_ ?_) | (refine Kept.ite ?_ ?_)
    | (refine Kept.ite2 ?_ ?_) | (refine hostRead_kept ?_)

theorem execDeniedAccess_kept {s0 s : State} {a0 : Fn} {a1 : RegAddr} {a2 : Bool}
    (h : Kept s0 s) : KeptO s0 (execDeniedAccess a0 a1 a2 s) := by
  unfold execDeniedAccess
  repeat' with_reducible first
    | assumption | (refine KeptO.next ?_) | (refine KeptO.ite ?_ ?_) | (refine Kept.ite ?_ ?_)
    | (refine Kept.ite2 ?_ ?_) | (refine hostRead_kept ?_) | (refine denied_kept ?_)

theorem execLatchedRead_kept {s0 s : State} {a0 : Fn} {a1 : RegAddr}
    (h : Kept s0 s) : KeptO s0 (execLatchedRead a0 a1 s) := by
  unfold execLatchedRead
  repeat' with_reducible first
    | assumption | (refine KeptO.next ?_) | (refine KeptO.ite ?_ ?_) | (refine Kept.ite ?_ ?_)
    | (refine Kept.ite2 ?_ ?_) | (refine hostRead_kept ?_)

theorem msixWrite_kept {s0 s : State} {a0 : Nat} {a1 : Nat} {a2 : Word}
    (h : Kept s0 s) : Kept s0 (msixWrite a0 a1 a2 s) := by
  unfold msixWrite
  repeat' with_reducible first
    | assumption | (refine Kept.ite ?_ ?_) | (refine Kept.ite2 ?_ ?_) | (refine msixMask_kept ?_)
    | (refine Kept.foldl ?_ (fun _ _ _ => ?_)) | (refine Kept.foldl2 ?_ (fun _ _ _ => ?_)) | split
    | (refine Kept.of_parts rfl rfl rfl rfl rfl ?_)

theorem bar0Write_kept {s0 s : State} {a0 : Nat} {a1 : Nat} {a2 : Word}
    (h : Kept s0 s) : Kept s0 (bar0Write a0 a1 a2 s) := by
  unfold bar0Write
  repeat' with_reducible first
    | assumption | (refine Kept.ite ?_ ?_) | (refine Kept.ite2 ?_ ?_) | (refine msixWrite_kept ?_)
    | (refine writeReg_kept ?_) | (refine vfDenied_kept ?_) | (refine hostWr_kept ?_ (fun _ _ => ?_))
    | (refine Kept.foldl ?_ (fun _ _ _ => ?_)) | (refine Kept.foldl2 ?_ (fun _ _ _ => ?_)) | split

theorem bar4Write_kept {s0 s : State} {a0 : Nat} {a1 : Word}
    (h : Kept s0 s) : Kept s0 (bar4Write a0 a1 s) := by
  unfold bar4Write
  repeat' with_reducible first
    | assumption | (refine Kept.ite ?_ ?_) | (refine Kept.ite2 ?_ ?_) | (refine writeReg_kept ?_)
    | (refine hostWr_kept ?_ (fun _ _ => ?_)) | (refine Kept.foldl ?_ (fun _ _ _ => ?_))
    | (refine Kept.foldl2 ?_ (fun _ _ _ => ?_)) | split | (refine Kept.of_parts rfl rfl rfl rfl rfl ?_)

theorem configWrite_kept {s0 s : State} {a0 : Nat} {a1 : CfgReg} {a2 : BitVec 4} {a3 : Word}
    (h : Kept s0 s) : Kept s0 (configWrite a0 a1 a2 a3 s) := by
  unfold configWrite
  repeat' with_reducible first
    | assumption | (refine Kept.ite ?_ ?_) | (refine Kept.ite2 ?_ ?_) | (refine vfPut_kept ?_)
    | (refine heldReleaseAll_kept ?_) | (refine Kept.foldl ?_ (fun _ _ _ => ?_))
    | (refine Kept.foldl2 ?_ (fun _ _ _ => ?_)) | split | (refine Kept.of_parts rfl rfl rfl rfl rfl ?_)

theorem hostWrite_kept {s0 s : State} {a0 : Nat} {a1 : RegAddr} {a2 : Word}
    (h : Kept s0 s) : Kept s0 (hostWrite a0 a1 a2 s) := by
  unfold hostWrite
  repeat' with_reducible first
    | assumption | (refine Kept.ite ?_ ?_) | (refine Kept.ite2 ?_ ?_) | (refine configWrite_kept ?_)
    | (refine bar4Write_kept ?_) | (refine bar0Write_kept ?_) | (refine denied_kept ?_)
    | (refine Kept.foldl ?_ (fun _ _ _ => ?_)) | (refine Kept.foldl2 ?_ (fun _ _ _ => ?_)) | split

theorem execRegisterWrite_kept {s0 s : State} {a0 : Fn} {a1 : RegAddr} {a2 : Word}
    (h : Kept s0 s) : KeptO s0 (execRegisterWrite a0 a1 a2 s) := by
  unfold execRegisterWrite
  repeat' with_reducible first
    | assumption | (refine KeptO.next ?_) | (refine KeptO.ite ?_ ?_) | (refine Kept.ite ?_ ?_)
    | (refine Kept.ite2 ?_ ?_) | (refine hostWrite_kept ?_)

theorem deltaTick_kept {s0 s : State} {a0 : Nat} (h : Kept s0 s) : Kept s0 (deltaTick a0 s) := by
  unfold deltaTick
  repeat' with_reducible first
    | assumption | (refine Kept.ite ?_ ?_) | (refine Kept.ite2 ?_ ?_)
    | (refine Kept.foldl ?_ (fun _ _ _ => ?_)) | (refine Kept.foldl2 ?_ (fun _ _ _ => ?_)) | split
    | (refine Kept.of_parts rfl rfl rfl rfl rfl ?_)

theorem tickConsumers_kept {s0 s : State} {a0 : Nat} {a1 : Nat}
    (h : Kept s0 s) : Kept s0 (tickConsumers a0 a1 s) := by
  unfold tickConsumers
  repeat' with_reducible first
    | assumption | (refine Kept.ite ?_ ?_) | (refine Kept.ite2 ?_ ?_) | (refine dmaTick_kept ?_)
    | (refine gateTick_kept ?_) | (refine Kept.foldl ?_ (fun _ _ _ => ?_))

theorem execTick_kept {s0 s : State} {a0 : Td} (h : Kept s0 s) : KeptO s0 (execTick a0 s) := by
  unfold execTick
  repeat' with_reducible first
    | assumption | (refine KeptO.next ?_) | (refine KeptO.ite ?_ ?_) | (refine Kept.ite ?_ ?_)
    | (refine Kept.ite2 ?_ ?_) | (refine tickConsumers_kept ?_) | (refine deltaTick_kept ?_)
    | (refine tickEmit_kept ?_)

end Sys2Proof.Machine
end

