-- ==== Sys2Proof/Laws/Words.lean ====
section
/-! SUPPORT. The fields of a written word, and of a word with one bit forced. -/
namespace Sys2Proof.Machine

/-- A field of a word is below the power of its width. -/
theorem wfld_lt (f : Fld) (w : Word) (h : 1 ≤ f.w) : wfld f w < 2 ^ f.w := by
  have : f.lsb + f.w - 1 + 1 - f.lsb = f.w := by omega
  simp only [wfld, bits, this]; exact Nat.mod_lt _ (by positivity)

/-- A one-bit field reads its own bit of the word. -/
theorem wbit_testBit (f : Fld) (w : Word) (h : f.w = 1) : wbit f w = w.toNat.testBit f.lsb := by
  have : f.lsb + f.w - 1 + 1 - f.lsb = 1 := by omega
  simp only [wbit, wfld, bits, this, Nat.testBit]
  rw [Nat.and_comm, Nat.and_one_is_mod]
  have := Nat.mod_two_eq_zero_or_one (w.toNat >>> f.lsb)
  rcases this with h | h <;> simp [h]

/-- The bits of a word with bit `n` forced. -/
theorem testBit_withBit (w : Word) (n : Nat) (b : Bool) (k : Nat) (h : n < 32) :
    (withBit w n b).toNat.testBit k = if k = n then b else w.toNat.testBit k := by
  rw [BitVec.testBit_toNat, BitVec.testBit_toNat]
  have e : ∀ j, (BitVec.ofNat 32 (2 ^ n)).getLsbD j = decide (j = n) := by
    intro j
    rw [BitVec.getLsbD_ofNat, Nat.testBit_two_pow]
    by_cases c : j = n
    · subst c; simp [h]
    · have c' : n ≠ j := fun x => c x.symm
      simp [c, c']
  unfold withBit
  generalize BitVec.ofNat 32 (2 ^ n) = m at e
  by_cases hk : k = n
  · subst hk
    cases b <;> simp [BitVec.getLsbD_or, BitVec.getLsbD_and, BitVec.getLsbD_not, e, h, -BitVec.getLsbD_eq_getElem]
  · have l : k < 32 ∨ w.getLsbD k = false := by
      by_cases c : k < 32
      · exact .inl c
      · exact .inr (BitVec.getLsbD_of_ge w k (by omega))
    cases b <;> rcases l with l | l <;>
      simp [BitVec.getLsbD_or, BitVec.getLsbD_and, BitVec.getLsbD_not, e, hk, l, -BitVec.getLsbD_eq_getElem]

/-- A one-bit field of a word with that bit forced reads what was forced. -/
theorem wbit_withBit_same (f : Fld) (w : Word) (b : Bool) (h : f.w = 1) (hl : f.lsb < 32) : wbit f (withBit w f.lsb b) = b := by
  rw [wbit_testBit f _ h, testBit_withBit _ _ _ _ hl]; simp

/-- A field that does not hold the forced bit reads as before. -/
theorem wfld_withBit_other (f : Fld) (w : Word) (n : Nat) (b : Bool) (h : n < 32) (hw : 1 ≤ f.w) (ho : n < f.lsb ∨ f.lsb + f.w ≤ n) :
    wfld f (withBit w n b) = wfld f w := by
  have e : f.lsb + f.w - 1 + 1 - f.lsb = f.w := by omega
  simp only [wfld, bits, e]
  apply Nat.eq_of_testBit_eq; intro k
  simp only [Nat.testBit_mod_two_pow, Nat.testBit_shiftRight, testBit_withBit _ _ _ _ h]
  by_cases hk : k < f.w
  · have : f.lsb + k ≠ n := by omega
    simp [hk, this]
  · simp [hk]

theorem wbit_withBit_other (f : Fld) (w : Word) (n : Nat) (b : Bool) (h : n < 32) (hw : 1 ≤ f.w) (ho : n < f.lsb ∨ f.lsb + f.w ≤ n) :
    wbit f (withBit w n b) = wbit f w := by simp [wbit, wfld_withBit_other f w n b h hw ho]

end Sys2Proof.Machine
end

