-- ==== Sys2Proof/Tests/Slice0.lean ====
section
/-! SUPPORT. Tests. The well-formedness checks refuse an ill-formed command each. Worked examples of the spec come out as it
prints them. For every statement of Certificates/Slice0/Obligations.lean that has hypotheses, `wit_<name>` shows, clause by
clause, a concrete state and concrete operands that meet them together, at a boundary of a range where the clause has one. A
clause that rests on a cryptographic function of Config (log 8), which has no body, is shown up to that function. -/
namespace Sys2Proof.Tests
set_option Elab.async false
open Sys2Proof.Machine

/-! ### Ill-formed commands -/

/-- Each check of Instr.wf refuses a term (R13, R117, R119, R125, R132, R174, R236, R240, R267, R415, R430, R442, R448, R459,
R494, R506, R543). -/
theorem test_ill_formed_commands_are_refused : ([
    .frameIngress 0 [0#8, 0#8, 0#8, 0#8] 0 0, .pauseReceive 0 (.pfc 1#8 []), .flitReceive 0 [], .hello 0 [], .linkState 0 [],
    .timeSync 0 [], .tableWriteCommit 0 65536 [], .tableWriteCommit 0 0 (List.replicate 65 0#8), .lineDeadline 0 8640,
    .slotRelease 0 0 4096, .commandFetch 0 (List.replicate 17 (List.replicate 64 0#8)), .commandFetch 0 [[]],
    .descriptorFetch 0 [], .hbmCorrectableError (72 * 2 ^ 30), .hbmUncorrectableError (72 * 2 ^ 30), .linkTrained 0 16 true,
    .linkTrained 7 16 true, .linkTrained 6 0 true, .linkTrained 6 17 true, .msixUnmask 0 1024, .msixUnmask 1 16,
    .logEntry 0#16 ⟨List.replicate 25 0#8, false, false⟩, .consolePeek (2 ^ 26), .consolePoke (2 ^ 26) 0#32, .consoleEye 35 0,
    .consoleEye 0 8, .bootComplete ⟨9, true, none, none, true, true⟩, .sakInstall 0 ⟨none, 0, true, 2 ^ 30 + 1, 1⟩,
    .registerWrite 0 { space := .bar0, addr := 2 ^ 26 } 0#32, .counterReadClear 0 { space := .bar2, addr := 2 ^ 28 },
    .latchedRead 0 { space := .bar4, addr := 2 ^ 16 }, .deniedAccess 1 { space := .bar0, addr := 0, dwords := 0 } true
  ] : List Instr).all (fun c => !c.wf) = true := by decide +kernel

/-! ### Small states -/

def le (n v : Nat) : Bytes := leBytes n v
def sec (fixed : Bytes) (recs : List Bytes) : Bytes :=
  le 2 fixed.length ++ le 2 ((recs.head?.map (·.length)).getD 0) ++ le 4 recs.length ++ fixed ++ recs.flatten
def z (n : Nat) : Bytes := List.replicate n 0#8
def oct (l : List Nat) : Bytes := l.map (BitVec.ofNat 8)
def portR (p lane speed fec flags gtd mtu : Nat) : Bytes := oct [p, 0, lane, 0, speed, fec, flags, gtd] ++ le 2 mtu ++ z 6
def put (b x : Bytes) (o : Nat) : Bytes := b.take o ++ x ++ b.drop (o + x.length)
def secs : Cfg :=
  [ (1, sec [] [oct [0,1,0,0], oct [1,1,0,0], oct [32,1,0,0], oct [33,1,0,0]]),
    (2, sec [] [portR 0 0 4 0 0 0xFF 1600, portR 1 1 4 1 0x0F 0 9000, portR 2 1 4 2 0x03 0xFF 1518]),
    (4, sec (le 4 1000) [oct [1,0,0,1, 0,0,0,0, 0,1,0,0, 0,0,0,0, 0,0,0,0], oct [4,1,0,0, 0,0,0,0, 0,1,0,0, 0,0,1,0, 0,0,0,0]]),
    (6, sec [] [put (z 16) (oct [0,0,0,0,1]) 0, put (z 16) (oct [0,0,1,1,3]) 0, put (z 16) (oct [0,1,0,1,2]) 0, put (z 16) (oct [1,0,0,0,0,7,0,0,0,0,0,0,0,0,0,1]) 0, put (z 16) (oct [1,0,1,0,1,7,0,0,0,0,0,0,0,0,0,1]) 0, put (z 16) (oct [1,1,2,0,0,7,0,0,0,0,0,0,0,0,0,2]) 0]),
    (7, sec [] [put (z 32) (oct [0,0,0,1,1,0,64,0,32,0]) 0, put (z 32) (oct [1,1,0,1,1,0,64,0,32,0]) 0, put (z 32) (oct [2,0,1,1,1,0,64,0,32,0]) 0, put (z 32) (oct [3,1,1,1,1,0,64,0,32,0]) 0]),
    (8, sec (oct [0,0,1,0,0,0,0,0,1,0,0,0,1,0,0,0,25,0,0,0] ++ z 116 ++ (List.range 32).flatMap (fun e => oct [if e < 8 then 1 else 0, if e < 16 then 2 else 1] ++ z 14)) [oct [0,0,0,0, 0,1, 0,1]]),
    (9, sec [] [oct [0,12,0,0,16,0,0,0], oct [1,16,0,0,4,0,0,0]]),
    (10, sec [] [oct [0,1,0xFF,0], oct [1,2,0xFF,0x80], oct [2,3,0,0], oct [3,4,1,0], oct [4,5,0,0], oct [5,5,0,0x80], oct [6,0,0,0]]),
    (11, sec (put (put (z 4608) ((List.range 64).flatMap (fun g => oct ([1, if g < 4 then 0 else g % 3, g, 0, 1,0, if g = 0 then 2 else 0xFF, 0]))) 0) ((List.range 4096).map (fun n => BitVec.ofNat 8 (n/64))) 512) []) ]
def withSec (n : Nat) (x : Bytes) (s : State) : State :=
  { s with loader := { s.loader with secs := (n, x) :: s.loader.secs.filter (fun y => y.1 != n) } }
def live : State :=
  { State.reset with
      mode := .operate
      loader := { State.reset.loader with secs := secs }
      power := { State.reset.power with configured := true, perstHigh := true, inReset := false }
      pcie := { State.reset.pcie with link := .l0 } } |> setFlag F.IMG_STATUS_LOADED 0 true |> setFlag F.TIME_CTRL_RUN 0 true |> fset F.GLB_MODE_MODE 0 3
def copyA (n q e : Nat) (ct : Bool) : Copy :=
  { frame := n, bytes := z (60 + n), leaf := q, egr := e, cls := 0, cells := 1, mcast := false, bad := n % 3 == 2, cutThrough := ct, ingMac := 0, tIn := 5, tEnq := 6, tDeq := 7, depth := 1, tagged := n % 5 == 0, ovh := 0, enqAt := n, clsSet := false, flHdr := z 16 }
def learnA (n : Nat) : LearnReq := { region := 0, vlan := 1, mac := oct [2,0,0,0,0,n], egrMac := 1, leaf := 0, move := none, frame := if n % 2 = 0 then z 64 else [], ingMac := 0, bad := false, tagged := false, tIn := 3 }
def essA (n : Nat) (bad : Bool) : EssCopy := { frame := 1, ctx := n, bytes := z 100, byEm := n % 2 == 1, bad := bad, srcDev := 0, ingMac := 0, tagged := false, tIn := 5, viaFaush := false, l2 := none, vlan := 1 }
def gateA (n : Nat) : GateRun := { entry := n % 3, cycleStart := n % 100, entryStart := n % 1000, cycle := 1000, len := n % 4 }
def ctxB (st cls fl : Nat) : Bytes := put (z 256) (oct [st, cls, fl, 0, 0, 0, 0xFF, 0xFF, 32, 96]) 0
def argPut (x : Bytes) (s : State) : State := (List.range 64).foldl (fun s i => fset F.ESS_ARG_DATA i (fieldLE x (4*i) 4) s) s
def lineA (n : Nat) : LineSt := { srds := [], deadline := some (n % 100), closed := n % 2 == 0, ringBytes := 0, moved := n % 3 == 0, filled := [] }
def picA (n : Nat) : EssPic := { tick := n % 5, ts := 0, lines := [(0, lineA n), (1, lineA (n+1)), (5, lineA (n+3))] }
def rtpF (seq esn row : Nat) (pt : Nat) : Bytes := z 12 ++ oct [8,0] ++ put (z 20) (oct [0x45]) 0 ++ [] |> fun h => put h (oct [17]) 23 ++ (let p := oct [0x80,pt] ++ beBytes 2 seq ++ z 8 ++ beBytes 2 esn ++ beBytes 2 4 ++ beBytes 2 row ++ beBytes 2 0 ++ oct [1,2,3,4]; beBytes 2 1 ++ beBytes 2 2 ++ beBytes 2 (8 + p.length) ++ z 2 ++ p)
def essR (n seq : Nat) (pt : Nat) : EssCopy := { essA n false with bytes := rtpF seq 0 (seq % 4) pt }
def fr (op : Nat) (crit : Bool) (p : Bytes) (cnt : Nat) (good : Bool) : Bytes :=
  le 2 0x5941 ++ oct [1, if crit then 1 else 0] ++ le 2 op ++ z 2 ++ le 4 p.length ++ z 4 ++ le 8 cnt ++ z 8 ++ p ++ (if crit then (if good then z 16 else oct [1] ++ z 15) else [])
def withWard (f : Ward → Ward) (s : State) : State := { s with ward := f s.ward }
/-- An owned device in CONFIGURE with a loaded image, an owner key and one CAK in slot 0. -/
def own : State :=
  withSec 13 (sec (le 4 0x3F ++ z 28) []) (fset F.WARD_STATE_SEC_STATE 0 1 (setFlag F.WARD_STATE_ENTROPY_OK 0 true
    { live with
        mode := .configure
        ward := { live.ward with kCmd := z 48, counter := 1, gens := [(0, 1)], keys := [(0, oct [1, 8, 0, 48] ++ z 60)] } }))
/-- Taken but for the taking itself, which the pattern of the match states. -/
def takenB (op : Nat) (r : Req) (s t : State) : Bool := frameOk r s && decide (frOp r.frame = op) && decide (opCheck r.frame t = none)
theorem taken_of_takenB (op : Nat) (a : AdyelIn) (r : Req) (s t : State) (h : adyelTake a s = some (r, t)) (k : takenB op r s t = true) :
    Taken op a r s t := by
  simp only [takenB, Bool.and_eq_true, decide_eq_true_eq] at k
  exact ⟨h, k.1.1, k.1.2, k.2⟩

/-! ### Critical Adyel commands: the MAC is the one that Config computes, whatever its bytes -/

theorem fitTo_length (n : Nat) (x : Bytes) : (fitTo n x).length = n := by simp [fitTo]
theorem slice_append (p m : Bytes) (o n : Nat) (h : o + n ≤ p.length) : slice (p ++ m) o n = slice p o n := by
  simp only [slice]
  rw [List.drop_append_of_le_length (by omega), List.take_append_of_le_length (by simp; omega)]
theorem byteAt_append (p m : Bytes) (o : Nat) (h : o < p.length) : byteAt (p ++ m) o = byteAt p o := by
  simp only [byteAt, fieldLE]; rw [slice_append _ _ _ _ (by omega)]
/-- Two bodies of one length after a common head are as well-formed as each other. -/
theorem frameOk_tail (u : Option Nat) (p m m' i : Bytes) (s : State) (hp : 32 ≤ p.length) (hm : m.length = m'.length) :
    frameOk ⟨u, p ++ m, i⟩ s = frameOk ⟨u, p ++ m', i⟩ s := by
  have f : ∀ o n, o + n ≤ 32 → fieldLE (p ++ m) o n = fieldLE (p ++ m') o n := by
    intro o n h; simp only [fieldLE]; rw [slice_append _ _ _ _ (by omega), slice_append _ _ _ _ (by omega)]
  have b : ∀ o, o < 32 → byteAt (p ++ m) o = byteAt (p ++ m') o := by
    intro o h; rw [byteAt_append _ _ _ (by omega), byteAt_append _ _ _ (by omega)]
  simp only [frameOk, frInd, frCrit, frLen, f _ _ (show 0x0C + 4 ≤ 32 by decide), f _ _ (show 0 + 2 ≤ 32 by decide), f _ _ (show 8 + 4 ≤ 32 by decide),
    f _ _ (show 0x18 + 2 ≤ 32 by decide), f _ _ (show 0x1A + 6 ≤ 32 by decide), b 2 (by decide), b 3 (by decide), List.length_append, hm]; rfl
/-- A critical frame: its head and payload, then its MAC. -/
def head (op : Nat) (p : Bytes) (cnt : Nat) : Bytes :=
  le 2 0x5941 ++ oct [1, 1] ++ le 2 op ++ z 2 ++ le 4 p.length ++ z 4 ++ le 8 cnt ++ z 8 ++ p
def critReq (op : Nat) (p : Bytes) (cnt : Nat) (s : State) : Req :=
  ⟨some 9, head op p cnt ++ adyelMac s.ward.kCmd (head op p cnt) [], []⟩
/-- The checks of a critical request, but its MAC. -/
def critChecks (op : Nat) (p : Bytes) (cnt : Nat) (s : State) : Bool :=
  adyelOpen s && udpOpen s && frameOk ⟨some 9, head op p cnt ++ z 16, []⟩ s && decide (32 + frLen (head op p cnt) = (head op p cnt).length) &&
    decide (frOp (critReq op p cnt s).frame = op) && decide (opCheck (critReq op p cnt s).frame s = none)
theorem crit_taken (op : Nat) (p : Bytes) (cnt : Nat) (s : State) (a : AdyelIn) (ha : a = .udp 9 false (critReq op p cnt s).frame)
    (h : critChecks op p cnt s = true) :
    adyelTake a s = some (critReq op p cnt s, s) ∧ Taken op a (critReq op p cnt s) s s ∧
    adyelMac s.ward.kCmd (slice (critReq op p cnt s).frame 0 (32 + frLen (critReq op p cnt s).frame)) [] = frMac (critReq op p cnt s).frame ∧
    frMac (critReq op p cnt s).frame = adyelMac s.ward.kCmd (head op p cnt) [] := by
  simp only [critChecks, Bool.and_eq_true, decide_eq_true_eq] at h
  obtain ⟨⟨⟨⟨⟨h1, h2⟩, h3⟩, h4⟩, h5⟩, h6⟩ := h
  have h32 : 32 ≤ (head op p cnt).length := by omega
  have hl : (adyelMac s.ward.kCmd (head op p cnt) []).length = 16 := fitTo_length _ _
  have hf : frLen (critReq op p cnt s).frame = frLen (head op p cnt) := by
    simp only [frLen, fieldLE, critReq]; rw [slice_append _ _ _ _ (by omega)]
  have ht : adyelTake a s = some (critReq op p cnt s, s) := by
    have : ¬ (critReq op p cnt s).frame.length < 32 := by simp only [critReq, List.length_append]; omega
    simp only [adyelTake, h1, ha, h2, this]; simp [critReq]
  have hk : frameOk (critReq op p cnt s) s = true := by
    rw [← h3]; exact frameOk_tail _ _ _ _ _ _ h32 (by rw [hl]; decide)
  have hm : frMac (critReq op p cnt s).frame = adyelMac s.ward.kCmd (head op p cnt) [] := by
    simp only [frMac, hf, h4]; simp only [critReq, slice, List.drop_left]; exact List.take_of_length_le (by omega)
  have hs : slice (critReq op p cnt s).frame 0 (32 + frLen (critReq op p cnt s).frame) = head op p cnt := by
    rw [hf, h4]; simp [critReq, slice]
  exact ⟨ht, ⟨ht, hk, h5, h6⟩, by rw [hs, hm], hm⟩
/-- A command whose MAC is the one that the device computes, with a fresh counter, is authentic. -/
theorem crit_authentic (op : Nat) (p : Bytes) (cnt : Nat) (s : State) (Q : Req → State → Bool)
    (h : (critChecks op p cnt s && (frCrit (critReq op p cnt s).frame && decide (s.ward.kCmd ≠ []) &&
      decide (s.ward.counter < frCounter (critReq op p cnt s).frame) && flag F.WARD_STATE_ENTROPY_OK 0 s) && Q (critReq op p cnt s) s) = true) :
    ∃ a r, adyelTake a s = some (r, s) ∧ Taken op a r s s ∧ Authentic r s ∧ Q r s = true := by
  simp only [Bool.and_eq_true, decide_eq_true_eq] at h
  obtain ⟨⟨h, g⟩, q⟩ := h
  obtain ⟨h1, h2, h3, _⟩ := crit_taken op p cnt s _ rfl h
  exact ⟨_, _, h1, h2, ⟨g.1.1.1, g.1.1.2, h3, g.1.2, g.2⟩, q⟩
/-- A case of a critical command: opcode, payload, counter, the state it meets and what else holds of it. -/
structure CritCase where
  op : Nat
  pay : Bytes
  cnt : Nat
  st : State
  q : Req → State → Bool
theorem crit_cases (l : List CritCase)
    (h : l.all (fun c => critChecks c.op c.pay c.cnt c.st && (frCrit (critReq c.op c.pay c.cnt c.st).frame && decide (c.st.ward.kCmd ≠ []) &&
      decide (c.st.ward.counter < frCounter (critReq c.op c.pay c.cnt c.st).frame) && flag F.WARD_STATE_ENTROPY_OK 0 c.st) &&
      c.q (critReq c.op c.pay c.cnt c.st) c.st) = true) :
    ∀ c ∈ l, ∃ a r, adyelTake a c.st = some (r, c.st) ∧ Taken c.op a r c.st c.st ∧ Authentic r c.st ∧ c.q r c.st = true :=
  fun c hc => crit_authentic c.op c.pay c.cnt c.st c.q (List.all_eq_true.mp h c hc)
/-- The same for a critical command of the mailbox with an indirect payload. -/
theorem mbx_authentic (op : Nat) (h ind : Bytes) (s : State) (Q : Req → State → Bool)
    (hr : s.tch.mbxReq = h ++ adyelMac s.ward.kCmd h ind) (r : Req) (e : r = ⟨none, h ++ adyelMac s.ward.kCmd h ind, ind⟩)
    (t : State) (et : t = { s with tch := { s.tch with mbxWaiting := false } })
    (c : (adyelOpen s && s.tch.mbxWaiting && fnD0 0 s && busOpen s && decide (fget F.MBX_IND_LEN_LEN 0 s = ind.length) &&
      decide (fget F.MBX_REQ_LEN_LEN 0 s = h.length + 16) && frameOk ⟨none, h ++ z 16, ind⟩ s && decide (32 + frLen h = h.length) &&
      decide (frOp r.frame = op) && decide (opCheck r.frame t = none) && frCrit r.frame && decide (s.ward.kCmd ≠ []) &&
      decide (s.ward.counter < frCounter r.frame) && flag F.WARD_STATE_ENTROPY_OK 0 s && Q r t) = true) :
    adyelTake (.mailbox ind) s = some (r, t) ∧ Taken op (.mailbox ind) r s t ∧ Authentic r t ∧ Q r t = true := by
  simp only [Bool.and_eq_true, decide_eq_true_eq] at c
  obtain ⟨⟨⟨⟨⟨⟨⟨⟨⟨⟨⟨⟨⟨⟨c1, c2⟩, c3⟩, c4⟩, c5⟩, c6⟩, c7⟩, c8⟩, c9⟩, c10⟩, c11⟩, c12⟩, c13⟩, c14⟩, c15⟩ := c
  have hl : (adyelMac s.ward.kCmd h ind).length = 16 := fitTo_length _ _
  have h32 : 32 ≤ h.length := by omega
  have ff : ∀ (x : Bytes) n, n = x.length → fitTo n x = x := by intro x n hn; subst hn; simp [fitTo]
  have ht : adyelTake (.mailbox ind) s = some (r, t) := by
    have h1 := ff s.tch.mbxReq (fget F.MBX_REQ_LEN_LEN 0 s) (by rw [c6, hr, List.length_append, hl])
    simp only [adyelTake, c1, c2, c3, c4, h1, ff ind _ c5, e, et]; rw [hr]; simp
  have hf : frLen r.frame = frLen h := by
    subst e; simp only [frLen, fieldLE]; rw [slice_append _ _ _ _ (by omega)]
  have hk : frameOk r s = true := by
    rw [← c7, e]; exact frameOk_tail _ _ _ _ _ _ h32 (by rw [hl]; decide)
  have hm : frMac r.frame = adyelMac s.ward.kCmd h ind := by
    simp only [frMac, hf, c8]; subst e; simp only [slice, List.drop_left]; exact List.take_of_length_le (by omega)
  have hs : slice r.frame 0 (32 + frLen r.frame) = h := by rw [hf, c8]; subst e; simp [slice]
  have hi : r.ind = ind := by rw [e]
  have hw : t.ward = s.ward := by rw [et]
  have hg : flag F.WARD_STATE_ENTROPY_OK 0 t = true := by rw [et]; exact c14
  exact ⟨ht, ⟨ht, hk, c9, c10⟩, ⟨c11, by rw [hw]; exact c12, by rw [hs, hi, hw, hm], by rw [hw]; exact c13, hg⟩, c15⟩

/-! ### Worked examples -/

/-- R20: the table of tick times of TD0 at 1001/60000 s. -/
theorem test_tick_times : (let c : Cfg := [(8, sec (oct [0, 0, 1, 0, 0, 0, 0, 0, 1, 0, 0, 0] ++ le 4 1001 ++ le 4 60000 ++ z 628) [])];
    ([tickTime c 0 1, tickTime c 0 2, tickTime c 0 3] : List Nat) = [16683333, 33366666, 50050000]) := by decide +kernel
/-- R103: at 1/24 s the tick before 1,750,000,000.020 s has the index 42,000,000,000, and the next lies 21,666,666 ns ahead. -/
theorem test_next_tick : (let c : Cfg := [(8, sec (oct [0, 0, 1, 0, 0, 0, 0, 0, 1, 0, 0, 0] ++ le 4 1 ++ le 4 24 ++ z 628) [])];
    tickTime c 0 42000000000 ≤ 1750000000020000000 ∧ tickTime c 0 42000000001 = 1750000000020000000 + 21666666) := by decide +kernel
/-- R351: HEVC intra, 4:0:0, 12 bits, CTUs of 64: 480 bits. -/
theorem test_degraded_ctu : degBitsOf 0 (oct ([1, 8, 0, 0, 1, 0, 12, 64] ++ List.replicate 56 0)) = 480 := by decide +kernel
/-- R280, R321: a gang of 4, TILE_COLS 8, TILE_ROWS 4: eight lanes on every member. -/
theorem test_lanes : encLanes (put (put (z 64) (oct [4]) 4) (oct [8, 4]) 0x15) = 8 := by decide +kernel
/-- R492: slot 3 with generation 7 has the handle 0x0001_C003. -/
theorem test_handle : keyHandle 3 { own with ward := { own.ward with gens := [(3, 7)] } } = 0x0001C003 := by decide +kernel
/-- R561: the time words of 1,750,000,003,123,456,789 ns. -/
theorem test_time_words : ((traceTime { live with time := { live.time with ptp := 1750000003123456789 * 2 ^ 28 } }).trc.packing.reverse =
    [0x011B2B15, 0x023FBB1F, 0x03001849]) ∨ ((traceTime { live with time := { live.time with ptp := 1750000003123456789 * 2 ^ 28 } }).trc.packing =
    [0x03001849, 0x023FBB1F, 0x011B2B15]) := by decide +kernel

/-! ### Witnesses -/

/-- O1: the hypotheses of each of its clauses are met. -/
theorem wit_StepRunsTheFrontCommand : ([
    (let s : State := live |> (fun s : State => { s with pending := [.linkDown 0] })
     (match s.pending with
       | _ :: _ => true
       | _ => false)),
    (let s : State := live
     decide (s.pending = []))] : List Bool).all id = true := by decide +kernel

/-- O3: the hypotheses of each of its clauses are met. -/
theorem wit_StepKeepsMemoryCanonical : ([
    (let s : State := live
     decide (State.memWf s = true) &&
     (match step s with
       | .next _ => true
       | _ => false))] : List Bool).all id = true := by decide +kernel

/-- O4: the hypotheses of each of its clauses are met. -/
theorem wit_CommandsKeepTheQueue : ([
    (let c : Instr := .linkDown 0
     let s : State := live
     (match exec c s with
       | .next _ => true
       | _ => false))] : List Bool).all id = true := by decide +kernel

/-- O5: the hypotheses of each of its clauses are met. -/
theorem wit_FusesOnlyRise : ([
    (let s : State := live
     (match step s with
       | .next _ => true
       | _ => false))] : List Bool).all id = true := by decide +kernel

/-- O6: the hypotheses of each of its clauses are met. -/
theorem wit_TimeIncrIsHeldInRange : ([
    (let fn : Fn := 0
     let s : State := live
     decide (Reaches fn .TIME_INCR 0 s))] : List Bool).all id = true := by decide +kernel

/-- O7: the hypotheses of each of its clauses are met. -/
theorem wit_TimeControlWrites : ([
    (let fn : Fn := 0
     let s : State := live
     decide (Reaches fn .TIME_CTRL 0 s))] : List Bool).all id = true := by decide +kernel

/-- O8: the hypotheses of each of its clauses are met. -/
theorem wit_TimeEventsAreRecorded : ([
    (let s : State := live |> setFlag F.TIME_STATUS_FREQ_SRC 0 true
     decide (flag F.TIME_STATUS_FREQ_SRC 0 s = true)),
    (let s : State := live
     decide (flag F.TIME_CTRL_FREQ_IN_DISABLE 0 s = false) && decide (flag F.TIME_STATUS_FREQ_SRC 0 s = false)),
    (let s : State := live
     decide (running s = true)),
    (let l : Fin 9 := 0
     let s : State := live |> (fun s : State => { s with time := { s.time with pulse := [(0, 1), (3, 7)] } })
     decide (lineUp l s = true)),
    (let b : Ball := 3
     let s : State := live
     decide (ballFn s.cfg b = 4))] : List Bool).all id = true := by decide +kernel

/-- O9: the hypotheses of each of its clauses are met. -/
theorem wit_GpioWriteConflicts : ([
    (let fn : Fn := 0
     let w : Word := 1#32
     let s : State := live
     decide (Reaches fn .SYNC_GPIO 0 s) &&
     decide ((∃ b : Nat, b < 8 ∧ ballFn s.cfg b ≠ 5 ∧ (bit (wfld F.SYNC_GPIO_OE w) b ≠ bit (fget F.SYNC_GPIO_OE 0 s) b ∨ bit (wfld F.SYNC_GPIO_OUT w) b ≠ bit (fget F.SYNC_GPIO_OUT 0 s) b)))),
    (let fn : Fn := 0
     let w : Word := 0#32
     let s : State := live
     decide (Reaches fn .SYNC_GPIO 0 s) &&
     decide ((∀ b : Nat, b < 8 → ballFn s.cfg b ≠ 5 → bit (wfld F.SYNC_GPIO_OE w) b = bit (fget F.SYNC_GPIO_OE 0 s) b ∧ bit (wfld F.SYNC_GPIO_OUT w) b = bit (fget F.SYNC_GPIO_OUT 0 s) b)))] : List Bool).all id = true := by decide +kernel

/-- O10: the hypotheses of each of its clauses are met. -/
theorem wit_TimersStartStopAndFire : ([
    (let fn : Fn := 0
     let i : Timer := 0
     let w : Word := 0#32
     let s : State := live
     decide (Reaches fn .TMR_CTRL i s) && decide (tmrCheck i (wfld F.TMR_CTRL_MODE w) true s ≠ 0)),
    (let fn : Fn := 0
     let i : Timer := 1
     let w : Word := 0x64#32
     let s : State := live |> fset F.TMR_PERIOD_NS_NS i 1000
     decide (Reaches fn .TMR_CTRL i s) && decide (tmrCheck i (wfld F.TMR_CTRL_MODE w) true s = 0) && decide (wbit F.TMR_CTRL_STOP w = false)),
    (let fn : Fn := 0
     let i : Timer := 1
     let w : Word := 0x64#32
     let s : State := live
     decide (Reaches fn .TMR_CTRL i s) && decide (tmrCheck i (wfld F.TMR_CTRL_MODE w) (wbit F.TMR_CTRL_START w) s = 0)),
    (let i : Timer := 0
     let s : State := live |> setFlag F.TMR_CTRL_RUNNING i true
     decide (tmrRunning i s = true) && decide (running s = true))] : List Bool).all id = true := by decide +kernel

/-- O11: the hypotheses of each of its clauses are met. -/
theorem wit_TickAdvancesTheIndex : ([
    (let td : Td := 0
     let s : State := live |> setFlag F.TICK_CTRL_ENABLED td true
     decide (tickRuns td s = true) && decide (tickNext td s < 2 ^ 64))] : List Bool).all id = true := by decide +kernel

/-- O12: the hypotheses of each of its clauses are met. -/
theorem wit_MacEnableAndDrain : ([
    (let fn : Fn := 0
     let p : Port := 0
     let s : State := live
     decide (Reaches fn .MAC_CTRL p s) && decide (s.mode = .operate) && decide (portOn s.cfg p = true)),
    (let fn : Fn := 0
     let p : Port := 0
     let w : Word := 0#32
     let s : State := live
     decide (Reaches fn .MAC_CTRL p s) && decide (s.mode = .operate) && decide (portOn s.cfg p = true) &&
     decide (wbit F.MAC_CTRL_AN_RESTART w = false)),
    (let fn : Fn := 0
     let p : Port := 1
     let w : Word := 1#32
     let s : State := live |> setFlag F.MAC_STATUS_ENABLED p true
     decide (Reaches fn .MAC_CTRL p s) && decide (s.mode = .operate) && decide (portOn s.cfg p = true) && decide (portAn s.cfg p = true) &&
     decide (flag F.MAC_STATUS_ENABLED p s = true) && decide (flag F.MAC_STATUS_DRAINING p s = false) && decide (wbit F.MAC_CTRL_ENABLE w = true)),
    (let p : Port := 0
     let s : State := live |> setFlag F.MAC_STATUS_DRAINING p true
     decide (flag F.MAC_STATUS_DRAINING p s = true) && decide (Tab.find? s.ports.wire p = none))] : List Bool).all id = true := by decide +kernel

/-- O13: the hypotheses of each of its clauses are met. -/
theorem wit_PortEventsAreReported : ([
    (let p : Port := 0
     let s : State := live |> (fun s : State => { s with ports := { s.ports with anRunning := [(0,true),(1,true)] } }) |> setFlag F.MAC_STATUS_ENABLED p true
     decide (Tab.get false s.ports.anRunning p = true) && decide (flag F.MAC_STATUS_ENABLED p s = true) && decide (octetOn p s = true)),
    (let p : Port := 0
     let s : State := live |> setFlag F.MAC_STATUS_ENABLED p true
     decide (flag F.MAC_STATUS_ENABLED p s = true) && decide (octetOn p s = true) &&
     decide ((portAn s.cfg p = false ∨ flag F.MAC_STATUS_AN_DONE p s = true))),
    (let p : Port := 0
     let s : State := live |> setFlag F.MAC_STATUS_LINK_UP p true
     decide (flag F.MAC_STATUS_LINK_UP p s = true)),
    (let p : Port := 1
     let s : State := live |> setFlag F.MAC_STATUS_ENABLED p true
     decide ((flag F.MAC_STATUS_ENABLED p s = true ∨ flag F.MAC_STATUS_DRAINING p s = true)) && decide (portFec s.cfg p ≠ 0)),
    (let fn : Fn := 0
     let p : Port := 0
     let id : Nat := 1
     let ns : Nat := 2
     let sec : Nat := 3
     let r : List (Nat × Nat × Nat) := [(4,5,6)]
     let s : State := live |> (fun s : State => { s with ports := { s.ports with txts := [(0,[(1,2,3),(4,5,6)])] } })
     decide (Shows fn .MAC_TXTS_SEC p s) && decide (Tab.get [] s.ports.txts p = (id, ns, sec) :: r))] : List Bool).all id = true := by decide +kernel

/-- O14: the hypotheses of each of its clauses are met. -/
theorem wit_GateListWrites : ([
    (let fn : Fn := 0
     let p : Port := 0
     let s : State := live |> setFlag F.TM_GCL_STATUS_PENDING p true
     decide (Reaches fn .TM_GCL_CTRL p s) && decide (flag F.TM_GCL_STATUS_PENDING p s = true)),
    (let fn : Fn := 0
     let p : Port := 0
     let s : State := live
     decide (Reaches fn .TM_GCL_CTRL p s) && decide (flag F.TM_GCL_STATUS_PENDING p s = false) && decide (gclBad p s = true)),
    (let fn : Fn := 0
     let p : Port := 0
     let s : State := live |> (fun s : State => fset F.TM_GCL_LEN_ADMIN_LEN p 1 (fset F.TM_GCL_CYCLE_NS_CYCLE p 1000 { s with tm := { s.tm with gates := Tab.put s.tm.gates (p * 2048 + 1024) (2 ^ 32) } }))
     decide (Reaches fn .TM_GCL_CTRL p s) && decide (flag F.TM_GCL_STATUS_PENDING p s = false) && decide (gclBad p s = false)),
    (let fn : Fn := 0
     let p : Port := 0
     let w : Word := 0#32
     let s : State := live
     decide (Reaches fn .TM_GCL_CTRL p s) && decide (wbit F.TM_GCL_CTRL_ARM w = false)),
    (let fn : Fn := 0
     let p : Port := 0
     let w : Word := 0#32
     let s : State := live
     decide (Reaches fn .TM_GCL_CTRL p s) && decide (wbit F.TM_GCL_CTRL_ARM w = false))] : List Bool).all id = true := by decide +kernel

/-- O15: the hypotheses of each of its clauses are met. -/
theorem wit_GatesChangeAndAdvance : ([
    (let p : Port := 0
     let s : State := live |> (fun s : State => { s with tm := { s.tm with change := [(0, 0), (1, 7), (2, 0)] } })
     (match Tab.find? s.tm.change p with
       | some _ => decide (gateTied p s = false) && decide (running s = true)
       | _ => false)),
    (let p : Port := 0
     let s : State := live |> (fun s : State => setFlag F.TM_GCL_CTRL_ENABLE p true { s with tm := { s.tm with running := Tab.put s.tm.running p (gateA 0) } })
     (match gateRun p s with
       | some _ => decide (running s = true) && decide (gateTied p s = false)
       | _ => false))] : List Bool).all id = true := by decide +kernel

/-- O16: the hypotheses of each of its clauses are met. -/
theorem wit_PausesShapersAndFrames : ([
    (let p : Port := 0
     let s : State := live |> (fun s : State => { s with tm := { s.tm with queues := [(0,[copyA 1 0 0 false, copyA 3 0 0 false]),(1,[copyA 5 0 0 false])] } })
     (match schedPick p s with
       | some _ => true
       | _ => false)),
    (let p : Port := 0
     let s : State := live |> (fun s : State => setFlag F.MAC_STATUS_LINK_UP 0 true (setFlag F.MAC_STATUS_ENABLED 0 true s)) |> (fun s : State => { s with tm := { s.tm with queues := [(0,[copyA 1 0 0 false, copyA 3 0 0 false]),(1,[copyA 5 0 0 false])] } })
     decide (portReady p s = true) &&
     (match schedPick p s with
       | some x =>
         (match leafQueue x.1 s with
           | _ :: _ => true
           | _ => false)
       | _ => false)),
    (let p : Port := 0
     let s : State := live
     decide (portReady p s = false ∨ (∀ k : Nat, k < 8 → classReady p k s = false))),
    (let p : Port := 0
     let s : State := live |> (fun s : State => { s with ports := { s.ports with wire := [(0, copyA 1 0 0 false), (1, copyA 2 1 1 false)] } })
     (match Tab.find? s.ports.wire p with
       | some c => decide (c.cutThrough = false)
       | _ => false)),
    (let p : Port := 0
     let s : State := live |> setFlag F.MAC_STATUS_ENABLED p true |> setFlag F.MAC_STATUS_LINK_UP p true |> setFlag F.TM_PORT_CTRL_PAUSE_RX p true
     decide (flag F.MAC_STATUS_ENABLED p s = true) && decide (flag F.MAC_STATUS_LINK_UP p s = true) &&
     decide (flag F.TM_PORT_CTRL_PAUSE_RX p s = true)),
    (let p : Port := 0
     let s : State := live |> setFlag F.MAC_STATUS_ENABLED p true |> setFlag F.MAC_STATUS_LINK_UP p true |> setFlag F.TM_PORT_CTRL_PFC_RX p true
     decide (flag F.MAC_STATUS_ENABLED p s = true) && decide (flag F.MAC_STATUS_LINK_UP p s = true) && decide (flag F.TM_PORT_CTRL_PFC_RX p s = true))] : List Bool).all id = true := by decide +kernel

/-- O17: the hypotheses of each of its clauses are met. -/
theorem wit_LeafFlushAndStall : ([
    (let fn : Fn := 0
     let q : Leaf := 0
     let s : State := live
     decide (Reaches fn .TM_LEAF_STATUS q s)),
    (let q : Leaf := 0
     let s : State := live |> (fun s : State => { s with tm := { s.tm with queues := [(0,[copyA 1 0 0 false, copyA 3 0 0 false]),(1,[copyA 5 0 0 false])] } })
     decide (leafQueue q s ≠ []) && decide (flag F.TM_LEAF_STATUS_STALLED q s = false))] : List Bool).all id = true := by decide +kernel

/-- O18: the hypotheses of each of its clauses are met. -/
theorem wit_TableWritesAndLocks : ([
    (let b : Bank := 0
     let i : Nat := 0
     let e : Bytes := z 64
     let s : State := live
     decide (i < entCount b) && decide (tablePartial b i e s = false) && decide ((b.val < 48 ∨ 56 ≤ b.val)) &&
     decide ((b.val < 16 ∨ 32 ≤ b.val ∨ bankLocked b s = true))),
    (let b : Bank := 48
     let i : Nat := 0
     let e : Bytes := z 32
     decide (48 ≤ b.val) && decide (b.val < 56) && decide (i < 1024) && decide (e.length = 32)),
    (let b : Bank := 0
     let i : Nat := 0
     let e : Bytes := z 16
     let s : State := live
     decide (i < entCount b) && decide (e.length ≠ entLen b e) && decide ((b.val < 16 ∨ 32 ≤ b.val ∨ bankLocked b s = true))),
    (let b : Bank := 16
     let i : Nat := 0
     let s : State := live
     decide (16 ≤ b.val) && decide (b.val < 32) && decide (i < entCount b) && decide (bankLocked b s = false)),
    (let fn : Fn := 0
     let b : Bank := 0
     let s : State := live
     decide (Reaches fn .TBL_CTRL b s)),
    (let b : Bank := 0
     let s : State := live |> setFlag F.TBL_CTRL_LOCK b true
     decide (flag F.TBL_CTRL_LOCK b s = true))] : List Bool).all id = true := by decide +kernel

/-- O19: the hypotheses of each of its clauses are met. -/
theorem wit_TrieRecords : ([
    (let fn : Fn := 0
     let k : TrieSlot := 0
     let s : State := live
     decide (Reaches fn .TRIE_RING_TAIL k s)),
    (let k : TrieSlot := 0
     let s : State := live |> fset F.TRIE_RING_HEAD_HEAD k 1
     decide (fget F.TRIE_RING_HEAD_HEAD k s ≠ fget F.TRIE_RING_TAIL_TAIL k s))] : List Bool).all id = true := by decide +kernel

/-- O20: the hypotheses of each of its clauses are met. -/
theorem wit_FramesEnterAndLearn : ([
    (let p : Port := 0
     let s : State := live |> (fun s : State => setFlag F.MAC_STATUS_LINK_UP p true (setFlag F.MAC_STATUS_ENABLED p true s))
     decide (rxOpen p s = true)),
    (let p : Port := 0
     let f : Bytes := (let g : Bytes := put (z 60) (oct [0x88,8,0,1]) 12; g ++ fcsOf g)
     let s : State := live |> (fun s : State => setFlag F.MAC_STATUS_LINK_UP p true (setFlag F.MAC_STATUS_ENABLED p true s)) |> setFlag F.TM_PORT_CTRL_PAUSE_RX p true
     let g : Bytes := f.take (f.length - 4)
     decide (rxOpen p s = true) && decide (64 ≤ f.length) && decide (f.length ≤ portMtu s.cfg p) && decide (f.drop (f.length - 4) = fcsOf g) &&
     decide (fieldBE g 12 2 = 0x8808) && decide (fieldBE g 14 2 = 1) && decide (flag F.TM_PORT_CTRL_PAUSE_RX p s = true)),
    (let p : Port := 0
     let f : Bytes := (let g : Bytes := put (z 60) (oct [8,0]) 12; g ++ fcsOf g)
     let s : State := live |> (fun s : State => setFlag F.MAC_STATUS_LINK_UP p true (setFlag F.MAC_STATUS_ENABLED p true s)) |> withSec 2 (sec [] [portR 0 0 4 0 2 0xFF 1600])
     let g : Bytes := f.take (f.length - 4)
     decide (rxOpen p s = true) && decide (64 ≤ f.length) && decide (f.length ≤ portMtu s.cfg p) && decide (f.drop (f.length - 4) = fcsOf g) &&
     decide (fieldBE g 12 2 ≠ 0x8808) && decide (fieldBE g 12 2 ≠ 0x888E) && decide (fieldBE g 12 2 ≠ 0x88E5) && decide (portMacsec s.cfg p = true)),
    (let n : Nat := 56
     let s : State := live |> (fun s : State => { s with pipe := { s.pipe with learn := [learnA 1] } })
     (match s.pipe.learn with
       | q :: r =>
         let u := { s with pipe := { s.pipe with learn := r } }
         decide (learnAct q u = .insert n)
       | _ => false)),
    (let n : Nat := 0
     let s : State := live |> (fun s : State => withSec 4 (sec (le 4 1000) [oct [1,0,0,1,0,0,0,0,4,0,0,0,0,0,0,0,0,0,0,0]]) { s with pipe := { s.pipe with tbl := [(16 * 65536, leNat (learntEntry (learnA 1) s))], learn := [{ learnA 1 with egrMac := 2 }] } })
     (match s.pipe.learn with
       | q :: r =>
         let u := { s with pipe := { s.pipe with learn := r } }
         decide (learnAct q u = .move n)
       | _ => false)),
    (let s : State := live |> (fun s : State => withSec 4 (sec (le 4 1000) [oct [1,0,0,1,0,0,0,0,4,0,0,0,0,0,0,0,0,0,0,0]]) { s with pipe := { s.pipe with tbl := [(1048576, 1), (1048577, 1), (1048578, 1), (1048579, 1)], learn := [learnA 1] } })
     (match s.pipe.learn with
       | q :: r =>
         let u := { s with pipe := { s.pipe with learn := r } }
         decide (learnAct q u = .full) && decide (q.frame = [])
       | _ => false)),
    (let p : Port := 0
     let s : State := live |> (fun s : State => { s with ports := { s.ports with wire := [(0, copyA 1 0 0 true), (1, copyA 2 1 1 true)] } })
     (match Tab.find? s.ports.wire p with
       | some c => decide (c.cutThrough = true)
       | _ => false))] : List Bool).all id = true := by decide +kernel

/-- O21: the hypotheses of each of its clauses are met. -/
theorem wit_FaushLinksComeAndGo : ([
    (let fn : Fn := 0
     let l : Link := 0
     let s : State := live
     decide (Reaches fn .FL_CTRL l s) && decide (flCan l s = true)),
    (let l : Link := 0
     let s : State := live |> setFlag F.FL_CTRL_ENABLE l true
     decide (flag F.FL_CTRL_ENABLE l s = true) && decide (flag F.FL_STATUS_DRAINING l s = false) && decide (flag F.FL_STATUS_FLIT_LOCK l s = false)),
    (let l : Link := 0
     let x : LockLoss := .controlBlock
     let s : State := live
     decide ((x = .controlBlock ∨ 64 ≤ (flOf l s).crcFails))),
    (let l : Link := 0
     let s : State := live |> setFlag F.FL_CTRL_ENABLE l true |> setFlag F.FL_STATUS_PEER_UP l true
     decide (flag F.FL_CTRL_ENABLE l s = true) && decide (flag F.FL_STATUS_PEER_UP l s = true)),
    (let l : Link := 0
     let s : State := live |> setFlag F.FL_STATUS_FLIT_LOCK l true |> (fun s : State => { s with mesh := { s.mesh with links := [(0, { FlLink.init with control := [oct [9]], replay := [(1, z 4)], queues := [(0,[copyA 1 0 0 false])], helloOk := true, restoring := true, lockAt := 0 }), (1, { FlLink.init with helloOk := true, restoring := true })] } })
     decide (flag F.FL_STATUS_FLIT_LOCK l s = true) && decide ((flOf l s).helloOk = true) && decide ((flOf l s).restoring = true) &&
     decide (detourWaits l (meshPeer (selfDev s) l) s = false)),
    (let l : Link := 0
     let s : State := live |> setFlag F.FL_STATUS_DRAINING l true
     decide (flag F.FL_STATUS_DRAINING l s = true))] : List Bool).all id = true := by decide +kernel

/-- O22: the hypotheses of each of its clauses are met. -/
theorem wit_FaushMessages : ([
    (let l : Link := 0
     let f : Bytes := z 64
     let s : State := live |> setFlag F.FL_STATUS_FLIT_LOCK l true
     decide (flag F.FL_STATUS_FLIT_LOCK l s = true) && decide (fieldLE f 508 4 ≠ crc32 (f.take 508))),
    (let l : Link := 0
     let b : Bytes := oct [1,0,0,0,1,0,0,0,25,0,0,0]
     let s : State := live |> setFlag F.FL_STATUS_FLIT_LOCK l true
     decide (flag F.FL_STATUS_FLIT_LOCK l s = true) && decide (helloBad l b s = false) && decide ((flOf l s).restoring = false)),
    (let l : Link := 0
     let b : Bytes := z 64
     let s : State := live |> setFlag F.FL_STATUS_FLIT_LOCK l true
     decide (flag F.FL_STATUS_FLIT_LOCK l s = true) && decide (helloBad l b s = true)),
    (let l : Link := 0
     let b : Bytes := oct ([1,2,0,0,1,0,0,0] ++ List.replicate 40 0)
     let s : State := live |> setFlag F.FL_STATUS_FLIT_LOCK l true |> (fun s : State => { s with mesh := { s.mesh with stateSeq := [(1,0),(2,3)] } })
     decide (flag F.FL_STATUS_FLIT_LOCK l s = true) && decide (byteAt b 0 % 4 ≠ selfDev s) &&
     (match Tab.find? s.mesh.stateSeq (byteAt b 0 % 4) with
       | some o => decide (fieldLE b 4 4 ≠ o) && decide (atOrAfter32 (fieldLE b 4 4) o = true)
       | _ => false)),
    (let l : Link := 0
     let s : State := live |> setFlag F.FL_STATUS_FLIT_LOCK l true |> (fun s : State => { s with mesh := { s.mesh with links := [(0, { FlLink.init with control := [oct [9]], peerMaster := true, replay := [(1, z 4)], queues := [(0,[copyA 1 0 0 false])], helloOk := false, restoring := true, lockAt := 0 }), (1, { FlLink.init with helloOk := true, restoring := true })] } })
     decide (flag F.FL_STATUS_FLIT_LOCK l s = true) && decide (flag F.SHK_STATUS_MASTER 0 s = false) && decide ((flOf l s).peerMaster = true)),
    (let l : Link := 0
     let s : State := live |> setFlag F.FL_STATUS_FLIT_LOCK l true
     decide (flag F.FL_STATUS_FLIT_LOCK l s = true)),
    (let s : State := live |> setFlag F.SHK_STATUS_MASTER 0 true |> setFlag F.TICK_CTRL_ENABLED 0 true
     decide (flag F.SHK_STATUS_MASTER 0 s = true) && decide (running s = true) && decide (tdEnabled 0 s = true))] : List Bool).all id = true := by decide +kernel

/-- O23: the hypotheses of each of its clauses are met. -/
theorem wit_ShackleLines : ([
    (let s : State := live
     decide (follower s = true)),
    (let d : Int := 0
     let s : State := live
     let x := nowNs s - fget F.SHK_CTRL_DELAY_NS 0 s
     decide (follower s = true) && decide (s.time.nextSync = none) && decide (d = (x : Int) - (tickTime s.cfg 0 (edgeIdx x s) : Int))),
    (let s : State := live
     decide (follower s = true)),
    (let s : State := live
     decide (shkDrive s = false) && decide (haspCause 11 s = false))] : List Bool).all id = true := by decide +kernel

/-- O24: the hypotheses of each of its clauses are met. -/
theorem wit_EssenceOpenChecks : ([
    (let fn : Fn := 0
     let s : State := live
     decide (Reaches fn .ESS_CMD 0 s) && decide (flag F.ESS_CMD_BUSY 0 s = false) && decide (imgCheck none (essArg s) s ≠ 0)),
    (let fn : Fn := 0
     let l : List Nat := []
     let s : State := live |> (fun s : State => argPut (put (put (ctxB 0 2 0) (oct [0x78,5]) 0x14) (oct [42,0,42,0]) 0x50) s) |> fset F.ESS_RING_FREE_KIB 0 0
     decide (Reaches fn .ESS_CMD 0 s) && decide (flag F.ESS_CMD_BUSY 0 s = false) &&
     (match essClass s.cfg (im (essArg s) 1 1) with
       | some ec =>
         let n := (l.filter (fun c => fClass c s == im (essArg s) 1 1)).length
         let o := (List.range 65536).find? (fun c => fState c s == 0)
         decide (imgCheck none (essArg s) s = 0) && decide (l = (s.ess.ctx.map (·.1)).filter (fun c => fState c s != 0)) &&
         decide (o = none ∨ (ecMaxFlows ec ≠ 0 ∧ ecMaxFlows ec ≤ n) ∨ fget F.ESS_RING_FREE_KIB 0 s < ringKib ec s)
       | _ => false)),
    (let fn : Fn := 0
     let l : List Nat := []
     let s : State := live |> (fun s : State => argPut (put (put (ctxB 0 2 0) (oct [0x78,5]) 0x14) (oct [42,0,42,0]) 0x50) s)
     decide (Reaches fn .ESS_CMD 0 s) && decide (flag F.ESS_CMD_BUSY 0 s = false) &&
     (match essClass s.cfg (im (essArg s) 1 1) with
       | some ec =>
         let n := (l.filter (fun c => fClass c s == im (essArg s) 1 1)).length
         let o := (List.range 65536).find? (fun c => fState c s == 0)
         decide (imgCheck none (essArg s) s = 0) && decide (l = (s.ess.ctx.map (·.1)).filter (fun c => fState c s != 0)) && decide (o ≠ none) &&
         decide (ecMaxFlows ec = 0 ∨ n < ecMaxFlows ec) && decide (ringKib ec s ≤ fget F.ESS_RING_FREE_KIB 0 s)
       | _ => false))] : List Bool).all id = true := by decide +kernel

/-- O25: the hypotheses of each of its clauses are met. -/
theorem wit_EssenceCommandsInWrongState : ([
    (let fn : Fn := 0
     let s : State := live
     decide (Reaches fn .ESS_CMD 0 s) && decide (flag F.ESS_CMD_BUSY 0 s = false))] : List Bool).all id = true := by decide +kernel

/-- O26: the hypotheses of each of its clauses are met. -/
theorem wit_EssenceCommandsTakeEffect : ([
    (let fn : Fn := 0
     let s : State := live |> (fun s : State => { s with time := { s.time with tickSeen := [(0, true)] }, ess := { s.ess with ctx := [(0, ctxB 1 1 0)] } })
     let c := fget F.ESS_CMD_CTX_CTX 0 s
     decide (Reaches fn .ESS_CMD 0 s) && decide (flag F.ESS_CMD_BUSY 0 s = false) && decide (fState c s = 1)),
    (let fn : Fn := 0
     let s : State := live |> (fun s : State => { s with ess := { s.ess with ctx := [(0, ctxB 1 0 0), (1, ctxB 0 0 1), (2, ctxB 1 1 1)] } })
     let c := fget F.ESS_CMD_CTX_CTX 0 s
     decide (Reaches fn .ESS_CMD 0 s) && decide (flag F.ESS_CMD_BUSY 0 s = false) && decide (fState c s = 1) && decide (fIngest c s = true)),
    (let fn : Fn := 0
     let s : State := live |> (fun s : State => { s with time := { s.time with tickSeen := [(0, true)] }, ess := { s.ess with ctx := [(0, ctxB 1 1 0)] } })
     let c := fget F.ESS_CMD_CTX_CTX 0 s
     decide (Reaches fn .ESS_CMD 0 s) && decide (flag F.ESS_CMD_BUSY 0 s = false) && decide (fState c s ≠ 0)),
    (let fn : Fn := 0
     let s : State := live |> (fun s : State => { s with time := { s.time with tickSeen := [(0, true)] }, ess := { s.ess with ctx := [(0, ctxB 1 1 0)] } })
     let c := fget F.ESS_CMD_CTX_CTX 0 s
     decide (Reaches fn .ESS_CMD 0 s) && decide (flag F.ESS_CMD_BUSY 0 s = false) && decide (fState c s ≠ 0) && decide (fState c s = 1)),
    (let fn : Fn := 0
     let s : State := live |> (fun s : State => { s with time := { s.time with tickSeen := [(0, true)] }, ess := { s.ess with ctx := [(0, ctxB 1 1 0)] } })
     let c := fget F.ESS_CMD_CTX_CTX 0 s
     decide (Reaches fn .ESS_CMD 0 s) && decide (flag F.ESS_CMD_BUSY 0 s = false) && decide (fState c s = 1) && decide (s.mode = .operate)),
    (let fn : Fn := 0
     let s : State := live |> (fun s : State => { s with time := { s.time with tickSeen := [(0, true)] }, ess := { s.ess with ctx := [(0, ctxB 1 1 0)] } })
     let c := fget F.ESS_CMD_CTX_CTX 0 s
     decide (Reaches fn .ESS_CMD 0 s) && decide (flag F.ESS_CMD_BUSY 0 s = false) && decide (fState c s = 1) && decide (s.mode = .operate) &&
     decide (fIngest c s = false) && decide (Tab.get false s.time.tickSeen (ecTd (fEc c s)) = true)),
    (let fn : Fn := 0
     let s : State := live |> (fun s : State => { s with ess := { s.ess with ctx := [(0, ctxB 2 0 0), (1, ctxB 0 0 1), (2, ctxB 1 2 1)] } })
     let c := fget F.ESS_CMD_CTX_CTX 0 s
     decide (Reaches fn .ESS_CMD 0 s) && decide (flag F.ESS_CMD_BUSY 0 s = false) && decide (fState c s = 2) && decide (s.mode = .operate)),
    (let fn : Fn := 0
     let s : State := live |> (fun s : State => withSec 7 (sec [] [put (z 32) (oct [0,0,0,0,8,0,64,0,32,0,0,2]) 0]) { s with ess := { s.ess with ctx := [(0, ctxB 1 0 0)] } })
     let c := fget F.ESS_CMD_CTX_CTX 0 s
     let k := fieldLE (essArg s) 0x38 4
     decide (Reaches fn .ESS_CMD 0 s) && decide (flag F.ESS_CMD_BUSY 0 s = false) && decide (fState c s = 1) && decide (ecSrtp (fEc c s) = true) &&
     decide (keyUsable k useSrtp 0 s = false)),
    (let fn : Fn := 0
     let s : State := live |> (fun s : State => { s with time := { s.time with tickSeen := [(0, true)] }, ess := { s.ess with ctx := [(0, ctxB 1 1 0)] } })
     let c := fget F.ESS_CMD_CTX_CTX 0 s
     let k := fieldLE (essArg s) 0x38 4
     decide (Reaches fn .ESS_CMD 0 s) && decide (flag F.ESS_CMD_BUSY 0 s = false) && decide (fState c s = 1) &&
     decide (ecSrtp (fEc c s) = false ∨ keyUsable k useSrtp 0 s = true)),
    (let fn : Fn := 0
     let s : State := live |> (fun s : State => { s with time := { s.time with tickSeen := [(0, true)] }, ess := { s.ess with ctx := [(0, ctxB 1 1 0)] } })
     let c := fget F.ESS_CMD_CTX_CTX 0 s
     let a := essArg s
     let b := splice (splice (splice (splice (fitTo 256 (fctx c s)) 4 (slice a 4 5)) 0x28 (slice a 0x28 16)) 0x50 (slice a 0x50 4)) 0x60 (slice a 0x60 160)
     decide (Reaches fn .ESS_CMD 0 s) && decide (flag F.ESS_CMD_BUSY 0 s = false) && decide (fState c s = 1) && decide (fEnabled c s = false) &&
     decide (imgCheck (some c) b s ≠ 0)),
    (let fn : Fn := 0
     let s : State := live |> (fun s : State => argPut (put (put (ctxB 0 2 0) (oct [0x78,5]) 0x14) (oct [42,0,42,0]) 0x50) { s with ess := { s.ess with ctx := [(0, put (ctxB 1 2 0) (oct [0x78,5]) 0x14)] } })
     let c := fget F.ESS_CMD_CTX_CTX 0 s
     let a := essArg s
     let b := splice (splice (splice (splice (fitTo 256 (fctx c s)) 4 (slice a 4 5)) 0x28 (slice a 0x28 16)) 0x50 (slice a 0x50 4)) 0x60 (slice a 0x60 160)
     decide (Reaches fn .ESS_CMD 0 s) && decide (flag F.ESS_CMD_BUSY 0 s = false) && decide (fState c s = 1) && decide (fEnabled c s = false) &&
     decide (imgCheck (some c) b s = 0)),
    (let x : Ctx := 0
     let s : State := live |> (fun s : State => { s with ess := { s.ess with ctx := [(0, ctxB 2 0 0), (1, ctxB 0 0 1), (2, ctxB 1 2 1)] } })
     decide (fState x s = 2) && decide ((fFlow x s).closing = false) && decide (fPending x s = false)),
    (let x : Ctx := 0
     let s : State := live |> (fun s : State => { s with ess := { s.ess with ctx := [(0, ctxB 2 0 2), (1, ctxB 0 1 1), (2, ctxB 1 2 1)] } })
     decide (fState x s = 2) && decide ((fFlow x s).closing = false) && decide (fPending x s = true)),
    (let x : Ctx := 0
     let s : State := live |> (fun s : State => { s with ess := { s.ess with ctx := [(0, ctxB 2 0 0), (1, ctxB 0 0 1), (2, ctxB 1 2 1)] } }) |> (fun s : State => { s with ess := { s.ess with flow := [(0, { EssFlow.init with closing := true, oldKey := some (3, some 0) }), (1, { EssFlow.init with picTick := some 3, gapAt := some 5 })] } })
     decide (fState x s = 2) && decide ((fFlow x s).closing = true)),
    (let x : Ctx := 0
     let s : State := live |> (fun s : State => { s with ess := { s.ess with flow := [(0, { EssFlow.init with closing := true, oldKey := some (3, some 0) }), (1, { EssFlow.init with picTick := some 3, gapAt := some 5 })] } })
     (match (fFlow x s).oldKey with
       | some (_, some at_) =>
         let u := reachPtp at_ s
         decide (at_ ≤ nowNs u)
       | _ => false)),
    (let x : Ctx := 0
     let s : State := live |> (fun s : State => { s with ess := { s.ess with flow := [(0, { EssFlow.init with closing := false, oldKey := some (3, some 1) }), (1, { EssFlow.init with picTick := some 3, gapAt := some 5 })] } }) |> (fun s : State => if false then { s with time := { s.time with ptp := 1 * 2^28 } } else setFlag F.TIME_CTRL_RUN 0 false s)
     (match (fFlow x s).oldKey with
       | some (_, some at_) =>
         let u := reachPtp at_ s
         decide (nowNs u < at_)
       | _ => false))] : List Bool).all id = true := by decide +kernel

/-- O27: the hypotheses of each of its clauses are met. -/
theorem wit_EssenceCopies : ([
    (let x : Fin 8 := 0
     let s : State := live |> (fun s : State => { s with pipe := { s.pipe with attach := [(0, [essA 0 false])] } })
     (match Tab.get [] s.pipe.attach x with
       | e :: _ => decide (fState e.ctx s = 0 ∨ fIngest e.ctx s = false) && decide (e.byEm = false)
       | _ => false)),
    (let x : Fin 8 := 0
     let s : State := live |> (fun s : State => { s with pipe := { s.pipe with attach := [(0, [essA 1 false])] } })
     (match Tab.get [] s.pipe.attach x with
       | e :: _ => decide (fState e.ctx s = 0 ∨ fIngest e.ctx s = false) && decide (e.byEm = true)
       | _ => false)),
    (let x : Fin 8 := 0
     let s : State := live |> (fun s : State => { s with pipe := { s.pipe with attach := [(0, [essA 0 false])] } }) |> (fun s : State => { s with ess := { s.ess with ctx := [(0, ctxB 2 0 1), (1, ctxB 0 0 1), (2, ctxB 1 0 1)] } })
     (match Tab.get [] s.pipe.attach x with
       | e :: _ =>
         decide (fState e.ctx s ≠ 0) && decide (fIngest e.ctx s = true) && decide (e.ctx < 65536) &&
         decide (fState e.ctx s ≠ 1 ∨ fEnabled e.ctx s = false)
       | _ => false)),
    (let x : Fin 8 := 0
     let s : State := live |> (fun s : State => { s with ess := { s.ess with ctx := [(0, ctxB 1 0 1), (1, ctxB 0 0 1), (2, ctxB 1 0 1)] } }) |> (fun s : State => { s with pipe := { s.pipe with attach := [(0,[if false then essR 0 7 96 else if false then essR 0 5 97 else if true then essA 0 true else if false then essR 0 5 96 else essA 0 false, essA 1 false]),(1,[essR 2 5 96])] } })
     (match Tab.get [] s.pipe.attach x with
       | e :: _ =>
         decide (fState e.ctx s ≠ 0) && decide (fIngest e.ctx s = true) && decide (e.ctx < 65536) && decide (fState e.ctx s = 1) &&
         decide (fEnabled e.ctx s = true) && decide (e.bad = true)
       | _ => false)),
    (let x : Fin 8 := 0
     let s : State := live |> (fun s : State => { s with pipe := { s.pipe with attach := [(0, [essA 0 false])] } }) |> (fun s : State => { s with ess := { s.ess with ctx := [(0, ctxB 1 0 1), (1, ctxB 0 0 1), (2, ctxB 1 0 1)] } })
     (match Tab.get [] s.pipe.attach x with
       | e :: _ =>
         decide (fState e.ctx s ≠ 0) && decide (fIngest e.ctx s = true) && decide (e.ctx < 65536) && decide (fState e.ctx s = 1) &&
         decide (fEnabled e.ctx s = true) && decide (e.bad = false) && decide (rtpOf e.bytes = none)
       | _ => false)),
    (let x : Fin 8 := 0
     let s : State := live |> (fun s : State => { s with ess := { s.ess with ctx := [(0, ctxB 1 0 1), (1, ctxB 0 0 1), (2, ctxB 1 0 1)] } }) |> (fun s : State => { s with pipe := { s.pipe with attach := [(0,[if true then essR 0 7 96 else if false then essR 0 5 97 else if false then essA 0 true else if false then essR 0 5 96 else essA 0 false, essA 1 false]),(1,[essR 2 5 96])] } })
     (match Tab.get [] s.pipe.attach x with
       | e :: _ =>
         decide (fState e.ctx s ≠ 0) && decide (fIngest e.ctx s = true) && decide (e.ctx < 65536) && decide (fState e.ctx s = 1) &&
         decide (fEnabled e.ctx s = true) && decide (e.bad = false) &&
         (match rtpOf e.bytes with
           | some p => decide (ecSrtp (fEc e.ctx s) = false) && decide (hdrOk e.ctx p s = false)
           | _ => false)
       | _ => false)),
    (let x : Fin 8 := 0
     let s : State := live |> (fun s : State => { s with ess := { s.ess with ctx := [(0, ctxB 1 0 1), (1, ctxB 0 0 1), (2, ctxB 1 0 1)] } }) |> (fun s : State => { s with pipe := { s.pipe with attach := [(0,[if true then essR 0 7 96 else if false then essR 0 5 97 else if false then essA 0 true else if false then essR 0 5 96 else essA 0 false, essA 1 false]),(1,[essR 2 5 96])] } }) |> (fun s : State => { s with loader := { s.loader with secs := s.loader.secs.map (fun x => if x.1 = 7 then (7, sec [] [put (z 32) (oct [0,0,0,0,8,0,64,0,32,0]) 0, put (z 32) (oct [1,1,0,0,8,0,64,0,32,0]) 0, put (z 32) (oct [2,0,1,1,8,0,64,0,32,0]) 0, put (z 32) (oct [3,1,1,1,8,0,64,0,32,0]) 0]) else x) } }) |> (fun s : State => if true then { s with ess := { s.ess with flow := [(0, { EssFlow.init with top := some 200000, waitNew := false })] } } else s)
     (match Tab.get [] s.pipe.attach x with
       | e :: _ =>
         decide (fState e.ctx s ≠ 0) && decide (fIngest e.ctx s = true) && decide (e.ctx < 65536) && decide (fState e.ctx s = 1) &&
         decide (fEnabled e.ctx s = true) && decide (e.bad = false) &&
         (match rtpOf e.bytes with
           | some p =>
             let q := seqValue e.ctx p s
             let d := seqBehind (fFlow e.ctx s) q
             decide (ecSrtp (fEc e.ctx s) = false) && decide (hdrOk e.ctx p s = true) && decide ((fFlow e.ctx s).waitNew = false) &&
             decide ((fFlow e.ctx s).startTick ≤ tickOfTs (ecTd (fEc e.ctx s)) p.ts s) && decide (131072 ≤ d) && decide (d < 2 ^ 31)
           | _ => false)
       | _ => false)),
    (let x : Fin 8 := 0
     let s : State := live |> (fun s : State => { s with ess := { s.ess with ctx := [(0, ctxB 1 0 1), (1, ctxB 0 0 1), (2, ctxB 1 0 1)] } }) |> (fun s : State => { s with loader := { s.loader with secs := s.loader.secs.map (fun x => if x.1 = 7 then (7, sec [] [put (z 32) (oct [0,0,0,0,8,0,64,0,32,0]) 0, put (z 32) (oct [1,1,0,0,8,0,64,0,32,0]) 0, put (z 32) (oct [2,0,1,1,8,0,64,0,32,0]) 0, put (z 32) (oct [3,1,1,1,8,0,64,0,32,0]) 0]) else x) } }) |> (fun s : State => { s with ess := { s.ess with flow := [(0, { EssFlow.init with top := if false then none else some 7, seen := [(5, true)], waitNew := false }), (1, { EssFlow.init with picTick := some 3, gapAt := some 5 })] } }) |> (fun s : State => { s with pipe := { s.pipe with attach := [(0,[if false then essR 0 7 96 else if false then essR 0 5 97 else if false then essA 0 true else if true then essR 0 5 96 else essA 0 false, essA 1 false]),(1,[essR 2 5 96])] } })
     (match Tab.get [] s.pipe.attach x with
       | e :: _ =>
         decide (fState e.ctx s ≠ 0) && decide (fIngest e.ctx s = true) && decide (e.ctx < 65536) && decide (fState e.ctx s = 1) &&
         decide (fEnabled e.ctx s = true) && decide (e.bad = false) &&
         (match rtpOf e.bytes with
           | some p =>
             let q := seqValue e.ctx p s
             let d := seqBehind (fFlow e.ctx s) q
             decide (ecSrtp (fEc e.ctx s) = false) && decide (hdrOk e.ctx p s = true) && decide ((fFlow e.ctx s).waitNew = false) &&
             decide ((fFlow e.ctx s).startTick ≤ tickOfTs (ecTd (fEc e.ctx s)) p.ts s) && decide (d < 131072) &&
             decide (Tab.get false (fFlow e.ctx s).seen (q % 262144) = true)
           | _ => false)
       | _ => false)),
    (let x : Fin 8 := 0
     let s : State := live |> (fun s : State => { s with ess := { s.ess with ctx := [(0, ctxB 1 0 1), (1, ctxB 0 0 1), (2, ctxB 1 0 1)] } }) |> (fun s : State => { s with pipe := { s.pipe with attach := [(0,[if true then essR 0 7 96 else if false then essR 0 5 97 else if false then essA 0 true else if false then essR 0 5 96 else essA 0 false, essA 1 false]),(1,[essR 2 5 96])] } }) |> (fun s : State => { s with loader := { s.loader with secs := s.loader.secs.map (fun x => if x.1 = 7 then (7, sec [] [put (z 32) (oct [0,0,0,0,8,0,64,0,32,0]) 0, put (z 32) (oct [1,1,0,0,8,0,64,0,32,0]) 0, put (z 32) (oct [2,0,1,1,8,0,64,0,32,0]) 0, put (z 32) (oct [3,1,1,1,8,0,64,0,32,0]) 0]) else x) } })
     (match Tab.get [] s.pipe.attach x with
       | e :: _ =>
         decide (fState e.ctx s ≠ 0) && decide (fIngest e.ctx s = true) && decide (e.ctx < 65536) && decide (fState e.ctx s = 1) &&
         decide (fEnabled e.ctx s = true) && decide (e.bad = false) &&
         (match rtpOf e.bytes with
           | some p =>
             let q := seqValue e.ctx p s
             let d := seqBehind (fFlow e.ctx s) q
             decide (ecSrtp (fEc e.ctx s) = false) && decide (hdrOk e.ctx p s = true) && decide ((fFlow e.ctx s).waitNew = false) &&
             decide ((fFlow e.ctx s).startTick ≤ tickOfTs (ecTd (fEc e.ctx s)) p.ts s) &&
             decide ((2 ^ 31 ≤ d ∨ (d < 131072 ∧ Tab.get false (fFlow e.ctx s).seen (q % 262144) = false))) && decide (ecFormat (fEc e.ctx s) = 0) &&
             decide ((∀ y ∈ (srdsOf p.payload).flatMap (srdLines (fGeo e.ctx s)), lineShut e.ctx (tickOfTs (ecTd (fEc e.ctx s)) p.ts s) y s = false))
           | _ => false)
       | _ => false))] : List Bool).all id = true := by decide +kernel

/-- O28: the hypotheses of each of its clauses are met. -/
theorem wit_EssenceLinesAndPackets : ([
    (let x : Ctx := 0
     let s : State := live |> (fun s : State => { s with time := { s.time with tickSeen := [(0, true)] }, ess := { s.ess with ctx := [(x.val, ctxB 1 2 1)], flow := [(x.val, { EssFlow.init with gapAt := some 5, picTick := some 3 })] } })
     decide (fState x s = 1) && decide (fEnabled x s = true) && decide (fIngest x s = true) && decide (ecFormat (fEc x s) ≠ 0) &&
     (match (fFlow x s).gapAt with
       | some _ => true
       | _ => false)),
    (let x : Ctx := 0
     let y : Nat := 0
     let s : State := live |> (fun s : State => { s with time := { s.time with tickSeen := [(0, true)] }, ess := { s.ess with ctx := [(x.val, ctxB 1 0 1)], flow := [(x.val, { EssFlow.init with picTick := some 0, pics := [{ tick := 0, ts := 0, lines := [(0, { lineA 1 with deadline := some 5, closed := false, moved := false })] }] })] } })
     decide (fState x s = 1) && decide (fEnabled x s = true) && decide (fIngest x s = true) && decide (ecFormat (fEc x s) = 0) &&
     (match (fFlow x s).pics with
       | [p] =>
         (match (p.line y).deadline with
           | some _ => decide ((p.line y).closed = false)
           | _ => false)
       | _ => false)),
    (let x : Ctx := 0
     let s : State := live |> (fun s : State => fset F.TICK_IDX_LO_IDX 0 2 ((fun s : State => { s with time := { s.time with tickSeen := [(0, true)] }, ess := { s.ess with ctx := [(x.val, ctxB 1 2 1)], flow := [(x.val, { EssFlow.init with picTick := some 0, pics := [picA 0] })] } }) s))
     (match (fFlow x s).pics.find? (fun p : EssPic => tickOver (ecTd (fEc x s)) p.tick s) with
       | some _ => true
       | _ => false)),
    (let x : Ctx := 0
     let s : State := live
     decide (nextMove x s = none)),
    (let x : Ctx := 0
     let s : State := live |> (fun s : State => { s with time := { s.time with tickSeen := [(0, true)] }, ess := { s.ess with ctx := [(x.val, ctxB 1 2 1)], flow := [(x.val, { EssFlow.init with picTick := some 0, pics := [picA 1] })] } })
     (match nextMove x s with
       | some _ => true
       | _ => false)),
    (let e : Eng := 0
     let w : Win := 0
     let n : Nat := 0
     let s : State := live |> (fun s : State => { s with ess := { s.ess with slots := [(slotKey (winIdx e w) n, { tick := 3, row := 0, arrived := 1, given := true, readers := [1024] })] } })
     (match slotOf (winIdx e w) n s with
       | some x => decide (x.given = true) && decide (x.readers ≠ [])
       | _ => false)),
    (let x : Ctx := 0
     let s : State := live |> (fun s : State => { s with time := { s.time with tickSeen := [(0, true)] }, ess := { s.ess with ctx := [(x.val, ctxB 1 1 1)], flow := [(x.val, { EssFlow.init with picTick := some 3, pkt := 1 })] } })
     let g := fGeo x s
     let i := (fFlow x s).pkt
     let per := packPer x g s
     let y := i / max 1 per * (if g.smp = 1 then 2 else 1)
     let n := g.rowOf y % fSlots x s
     decide (egressOn x 0 s = true) && decide (slotOf (fWin x s) n s = none)),
    (let x : Ctx := 0
     let s : State := live |> (fun s : State => setFlag F.TIME_CTRL_RUN 0 false ((fun s : State => { s with time := { s.time with tickSeen := [(0, true)] }, ess := { s.ess with ctx := [(x.val, ctxB 1 1 1)], flow := [(x.val, { EssFlow.init with picTick := some 3, pkt := 1 })] } }) s)) |> (fun s : State => { s with ess := { s.ess with slots := (List.range 8).map (fun j => (slotKey (fWin x s) j, { tick := 3, row := 0, arrived := 1, given := true, readers := [1024] })) } })
     let g := fGeo x s
     let k := egressTick x s
     let i := (fFlow x s).pkt
     let per := packPer x g s
     let y := i / max 1 per * (if g.smp = 1 then 2 else 1)
     let n := g.rowOf y % fSlots x s
     let due := tickTime s.cfg (ecTd (fEc x s)) k + fx x 0x18 4 s + trsAt x i s
     let u := reachPtp due s
     decide (egressOn x 0 s = true) &&
     (match slotOf (fWin x s) n s with
       | some z =>
         decide (z.given = true) && decide (z.tick = k) && decide (z.row = g.rowOf y) && decide (0 < i) && decide (i + 1 < g.packLines * per) &&
         decide (nowNs u < due ∨ truncAt x k u ≤ nowNs u)
       | _ => false)),
    (let x : Ctx := 0
     let s : State := live |> (fun s : State => { s with time := { s.time with tickSeen := [(0, true)] }, ess := { s.ess with ctx := [(x.val, ctxB 1 1 1)], flow := [(x.val, { EssFlow.init with picTick := some 3, pkt := 1 })] } }) |> (fun s : State => { s with ess := { s.ess with slots := (List.range 8).map (fun j => (slotKey (fWin x s) j, { tick := 3, row := 0, arrived := 1, given := true, readers := [1024] })) } })
     let g := fGeo x s
     let k := egressTick x s
     let i := (fFlow x s).pkt
     let per := packPer x g s
     let y := i / max 1 per * (if g.smp = 1 then 2 else 1)
     let n := g.rowOf y % fSlots x s
     let due := tickTime s.cfg (ecTd (fEc x s)) k + fx x 0x18 4 s + trsAt x i s
     let u := reachPtp due s
     decide (egressOn x 0 s = true) &&
     (match slotOf (fWin x s) n s with
       | some z =>
         decide (z.given = true) && decide (z.tick = k) && decide (z.row = g.rowOf y) && decide (0 < i) && decide (i + 1 < g.packLines * per) &&
         decide (due ≤ nowNs u) && decide (nowNs u < truncAt x k u) &&
         decide ((List.range g.h).any (fun z => decide ((i + 1) / max 1 per * (if g.smp = 1 then 2 else 1) ≤ z) && g.rowOf z == g.rowOf y) = true)
       | _ => false)),
    (let x : Ctx := 0
     let s : State := live |> (fun s : State => { s with time := { s.time with tickSeen := [(0, true)] }, ess := { s.ess with ctx := [(x.val, ctxB 1 1 1)], flow := [(x.val, { EssFlow.init with picTick := some 3, pkt := 1 })] } })
     let u := reachPtp (truncAt x (egressTick x s) s) s
     decide (egressOn x 0 s = true) && decide (truncAt x (egressTick x s) u ≤ nowNs u)),
    (let x : Ctx := 0
     let s : State := live |> (fun s : State => setFlag F.TIME_CTRL_RUN 0 false ((fun s : State => { s with time := { s.time with tickSeen := [(0, true)] }, ess := { s.ess with ctx := [(x.val, ctxB 1 1 1)], flow := [(x.val, { EssFlow.init with picTick := some 3, pkt := 1 })] } }) s))
     let u := reachPtp (truncAt x (egressTick x s) s) s
     decide (egressOn x 0 s = true) && decide (nowNs u < truncAt x (egressTick x s) u)),
    (let x : Ctx := 0
     let s : State := live
     decide (egressOn x 0 s = false)),
    (let x : Ctx := 0
     let s : State := live
     decide (egressOn x 1 s = false ∨ codedSource x s = none)),
    (let x : Ctx := 0
     let s : State := live |> (fun s : State => { s with time := { s.time with tickSeen := [(0, true)] }, ess := { s.ess with ctx := [(x.val, ctxB 1 3 1)], flow := [(x.val, { EssFlow.init with gapAt := some 5, picTick := some 3 })] } })
     decide (egressOn x 1 s = true))] : List Bool).all id = true := by decide +kernel

/-- O29: the hypotheses of each of its clauses are met. -/
theorem wit_StreamContextsAreAllocated : ([
    (let fn : Fn := 0
     let s : State := live |> (fun s : State => { s with mode := .boot })
     decide (Reaches fn .CG_ALLOC 0 s) && decide (s.mode ≠ .operate)),
    (let fn : Fn := 0
     let s : State := live
     let o := (List.range 1024).find? (fun k => scState k s == 0)
     let full := fn.val != 0 && decide (fget F.HIF_VF_QUOTA_SC_QUOTA (fn.val - 1) s ≤ (scsOf fn s).length)
     decide (Reaches fn .CG_ALLOC 0 s) && decide (s.mode = .operate) &&
     (match o with
       | some _ => decide (full = false)
       | _ => false)),
    (let fn : Fn := 1
     let s : State := live
     let o := (List.range 1024).find? (fun k => scState k s == 0)
     let full := fn.val != 0 && decide (fget F.HIF_VF_QUOTA_SC_QUOTA (fn.val - 1) s ≤ (scsOf fn s).length)
     decide (Reaches fn .CG_ALLOC 0 s) && decide (s.mode = .operate) && decide (o = none ∨ full = true)),
    (let fn : Fn := 0
     let k : Sc := 1023
     let w : Word := 0xFFFF#32
     let s : State := live |> fset F.SC_STATE_STATE (k) (0 + 1)
     decide (Reaches fn .SC_DOORBELL k s) && decide (scState k s ≠ 0) && decide (2 ^ fget F.SC_RING_CFG_LOG2_ENTRIES k s ≤ wfld F.SC_DOORBELL_TAIL w)),
    (let fn : Fn := 0
     let k : Sc := 1023
     let w : Word := 0#32
     let s : State := live |> fset F.SC_STATE_STATE (k) (0 + 1)
     decide (Reaches fn .SC_DOORBELL k s) && decide (scState k s ≠ 0) && decide (wfld F.SC_DOORBELL_TAIL w < 2 ^ fget F.SC_RING_CFG_LOG2_ENTRIES k s)),
    (let k : Sc := 1023
     let s : State := live |> (fun s : State => strmMod k (fun c => { c with tail := some 0, fn := 0 }) (fset F.SC_STATE_STATE k 1 s))
     (match (strm k s).tail with
       | some _ => decide (scState k s ≠ 0) && decide (fnD0 (strm k s).fn s = true)
       | _ => false)),
    (let k : Sc := 1023
     let s : State := live
     decide ((strm k s).tail = none ∨ scState k s = 0 ∨ fnD0 (strm k s).fn s = false))] : List Bool).all id = true := by decide +kernel

/-- O30: the hypotheses of each of its clauses are met. -/
theorem wit_StreamContextCommands : ([
    (let k : Sc := 1023
     let s : State := live |> (fun s : State => strmMod k (fun c => { c with kind := 0, prio := 1, statLog2 := 4, queue := [put (z 64) (oct [0x01]) 0] }) (fset F.SC_STATE_STATE k 0 s))
     (match takeCmd 0x01 k false s with
       | some x => decide (opAllowed 0x01 k x.2 = false)
       | _ => false)),
    (let k : Sc := 1023
     let s : State := live |> (fun s : State => strmMod k (fun c => { c with kind := 0, prio := 1, statLog2 := 4, queue := [put (z 64) (oct [0x03]) 0] }) (fset F.SC_STATE_STATE k 0 s))
     (match takeCmd 0x03 k false s with
       | some x => decide (opAllowed 0x03 k x.2 = false)
       | _ => false)),
    (let k : Sc := 1023
     let s : State := live |> (fun s : State => strmMod k (fun c => { c with kind := 0, prio := 1, statLog2 := 4, queue := [put (z 64) (oct [0x04]) 0] }) (fset F.SC_STATE_STATE k 0 s))
     (match takeCmd 0x04 k true s with
       | some x => decide (opAllowed 0x04 k x.2 = false)
       | _ => false)),
    (let k : Sc := 1023
     let s : State := live |> (fun s : State => strmMod k (fun c => { c with kind := 0, prio := 1, statLog2 := 4, queue := [put (z 64) (oct [0x06]) 0] }) (fset F.SC_STATE_STATE k 0 s))
     (match takeCmd 0x06 k false s with
       | some x => decide (opAllowed 0x06 k x.2 = false)
       | _ => false)),
    (let k : Sc := 1023
     let s : State := live |> (fun s : State => strmMod k (fun c => { c with kind := 0, prio := 1, statLog2 := 4, queue := [put (z 64) (oct [0x07]) 0] }) (fset F.SC_STATE_STATE k 0 s))
     (match takeCmd 0x07 k false s with
       | some x => decide (opAllowed 0x07 k x.2 = false)
       | _ => false)),
    (let k : Sc := 1023
     let s : State := live |> (fun s : State => strmMod k (fun c => { c with kind := 0, prio := 1, statLog2 := 4, queue := [put (z 64) (oct [0x08]) 0] }) (fset F.SC_STATE_STATE k 0 s))
     (match takeCmd 0x08 k false s with
       | some x => decide (opAllowed 0x08 k x.2 = false)
       | _ => false)),
    (let k : Sc := 1023
     let s : State := live |> (fun s : State => strmMod k (fun c => { c with kind := 0, prio := 1, statLog2 := 4, queue := [put (z 64) (oct [0x10]) 0] }) (fset F.SC_STATE_STATE k 0 s))
     (match takeCmd 0x10 k false s with
       | some x => decide (opAllowed 0x10 k x.2 = false)
       | _ => false)),
    (let k : Sc := 1023
     let s : State := live |> (fun s : State => strmMod k (fun c => { c with kind := 0, prio := 1, statLog2 := 4, queue := [put (z 64) (oct [0x11]) 0] }) (fset F.SC_STATE_STATE k 0 s))
     (match takeCmd 0x11 k false s with
       | some x => decide (opAllowed 0x11 k x.2 = false)
       | _ => false)),
    (let k : Sc := 1023
     let s : State := live |> (fun s : State => strmMod k (fun c => { c with kind := 0, prio := 1, statLog2 := 4, queue := [put (z 64) (oct [0x12]) 0] }) (fset F.SC_STATE_STATE k 0 s))
     (match takeCmd 0x12 k false s with
       | some x => decide (opAllowed 0x12 k x.2 = false)
       | _ => false)),
    (let k : Sc := 1023
     let s : State := live |> (fun s : State => strmMod k (fun c => { c with kind := 0, prio := 1, statLog2 := 4, queue := [put (z 64) (oct [0x13]) 0] }) (fset F.SC_STATE_STATE k 0 s))
     (match takeCmd 0x13 k true s with
       | some x => decide (opAllowed 0x13 k x.2 = false)
       | _ => false)),
    (let k : Sc := 1023
     let s : State := live |> (fun s : State => strmMod k (fun c => { c with kind := 0, prio := 1, statLog2 := 4, queue := [put (z 64) (oct [0x14]) 0] }) (fset F.SC_STATE_STATE k 0 s))
     (match takeCmd 0x14 k false s with
       | some x => decide (opAllowed 0x14 k x.2 = false)
       | _ => false)),
    (let k : Sc := 1023
     let s : State := live |> (fun s : State => strmMod k (fun c => { c with kind := 0, prio := 1, statLog2 := 4, queue := [put (z 64) (oct [0x15]) 0] }) (fset F.SC_STATE_STATE k 0 s))
     (match takeCmd 0x15 k false s with
       | some x => decide (opAllowed 0x15 k x.2 = false)
       | _ => false)),
    (let k : Sc := 1023
     let s : State := live |> (fun s : State => fset F.HIF_CQ_OWNER_OWNER 0 0 ((fun s : State => strmMod k (fun c => { c with kind := 0, prio := 1, statLog2 := 4, queue := [put (z 64) (oct [0x01,0,0,0,0,0,0,0,1,0,1,0,0,0,0,0,0,0,0,0,0,0,0,0,0,0,0,0,0,0,0,0,4,0,0xFF,0xFF]) 0] }) (fset F.SC_STATE_STATE k 1 s)) s))
     (match takeCmd 0x01 k false s with
       | some x => decide (scState k x.2 = 1)
       | _ => false)),
    (let k : Sc := 1023
     let r : Bytes := put (oct ([1,1,0,0,1,1,8,16,64,0,64,0] ++ List.replicate 52 0)) (oct [0,16]) 0x30
     let s : State := live |> (fun s : State => fset F.HIF_CQ_OWNER_OWNER 0 0 ((fun s : State => strmMod k (fun c => { c with kind := 0, prio := 1, statLog2 := 4, queue := [put (z 64) (oct [0x01,0,0,0,0,0,0,0,1,0,1,0,16,0,0,0,0,0,0,0,0,0,0,0,0,0,0,0,0,0,0,0,4,0,0xFF,0xFF]) 0] }) (fset F.SC_STATE_STATE k 1 s)) s))
     (match takeCmd 0x01 k false s with
       | some x =>
         let v := scOpenRun r k x.1 x.2
         decide (scState k x.2 = 1) && decide (v.1 = 0)
       | _ => false)),
    (let k : Sc := 1023
     let r : Bytes := z 64
     let s : State := live |> (fun s : State => fset F.HIF_CQ_OWNER_OWNER 0 0 ((fun s : State => strmMod k (fun c => { c with kind := 0, prio := 1, statLog2 := 4, queue := [put (z 64) (oct [0x01,0,0,0,0,0,0,0,1,0,1,0,0,0,0,0,0,0,0,0,0,0,0,0,0,0,0,0,0,0,0,0,4,0,0xFF,0xFF]) 0] }) (fset F.SC_STATE_STATE k 1 s)) s))
     (match takeCmd 0x01 k false s with
       | some x =>
         let v := scOpenRun r k x.1 x.2
         decide (scState k x.2 = 1) && decide (v.1 ≠ 0)
       | _ => false)),
    (let k : Sc := 1023
     let s : State := live |> (fun s : State => strmMod k (fun c => { c with kind := 0, prio := 1, statLog2 := 4, queue := [put (z 64) (oct [0x02]) 0] }) (fset F.SC_STATE_STATE k 1 s))
     (match takeCmd 0x02 k true s with
       | some x => decide (scState k x.2 = 1)
       | _ => false)),
    (let k : Sc := 1023
     let s : State := live |> (fun s : State => strmMod k (fun c => { c with kind := 0, prio := 1, statLog2 := 4, queue := [put (z 64) (oct [0x02]) 0] }) (fset F.SC_STATE_STATE k 2 s))
     (match takeCmd 0x02 k true s with
       | some x => decide (2 ≤ scState k x.2)
       | _ => false)),
    (let k : Sc := 1023
     let s : State := live |> (fun s : State => strmMod k (fun c => { c with kind := 0, prio := 1, statLog2 := 4, queue := [put (z 64) (oct [0x03]) 0] }) (fset F.SC_STATE_STATE k 2 s))
     (match takeCmd 0x03 k false s with
       | some x => decide (scState k x.2 = 2)
       | _ => false)),
    (let k : Sc := 1023
     let s : State := live |> (fun s : State => strmMod k (fun c => { c with kind := 0, prio := 1, statLog2 := 4, queue := [put (z 64) (oct [0x03]) 0] }) (fset F.SC_STATE_STATE k 2 s))
     (match takeCmd 0x03 k false s with
       | some x => decide (scState k x.2 = 2) && decide ((strm k x.2).kind = 0)
       | _ => false)),
    (let k : Sc := 1023
     let s : State := live |> (fun s : State => strmMod k (fun c => { c with kind := 1, prio := 1, statLog2 := 4, queue := [put (z 64) (oct [0x03]) 0] }) (fset F.SC_STATE_STATE k 2 s))
     (match takeCmd 0x03 k false s with
       | some x => decide (scState k x.2 = 2) && decide ((strm k x.2).kind = 1)
       | _ => false)),
    (let k : Sc := 1023
     let s : State := live |> (fun s : State => strmMod k (fun c => { c with kind := 0, prio := 1, statLog2 := 4, queue := [put (z 64) (oct [0x03]) 0] }) (fset F.SC_STATE_STATE k 4 s))
     (match takeCmd 0x03 k false s with
       | some x => decide (scState k x.2 = 4)
       | _ => false)),
    (let k : Sc := 1023
     let s : State := live |> (fun s : State => strmMod k (fun c => { c with kind := 0, prio := 1, statLog2 := 4, queue := [put (z 64) (oct [0x04]) 0] }) (fset F.SC_STATE_STATE k 3 s))
     (match takeCmd 0x04 k true s with
       | some x => decide ((scState k x.2 = 3 ∨ scState k x.2 = 5))
       | _ => false)),
    (let k : Sc := 1023
     let s : State := live |> (fun s : State => strmMod k (fun c => { c with kind := 1, prio := 1, statLog2 := 4, queue := [put (z 64) (oct [0x04]) 0] }) (fset F.SC_STATE_STATE k 3 s))
     (match takeCmd 0x04 k true s with
       | some x =>
         let u := scDrain k x.2
         decide ((scState k x.2 = 3 ∨ scState k x.2 = 5)) && decide ((strm k u).kind = 1)
       | _ => false)),
    (let k : Sc := 1023
     let s : State := live |> (fun s : State => strmMod k (fun c => { c with kind := 0, prio := 1, statLog2 := 4, queue := [put (z 64) (oct [0x05]) 0] }) (fset F.SC_STATE_STATE k 2 s))
     (match takeCmd 0x05 k false s with
       | some x => decide (2 ≤ scState k x.2) && decide (fnD0 (strm k x.2).fn x.2 = true)
       | _ => false)),
    (let k : Sc := 1023
     let s : State := live |> (fun s : State => strmMod k (fun c => { c with kind := 0, prio := 1, statLog2 := 4, queue := [put (z 64) (oct [0x06]) 0] }) (fset F.SC_STATE_STATE k 2 s))
     (match takeCmd 0x06 k false s with
       | some x => decide ((scState k x.2 = 2 ∨ scState k x.2 = 3))
       | _ => false)),
    (let k : Sc := 1023
     let r : Bytes := z 64
     let s : State := live |> (fun s : State => strmMod k (fun c => { c with kind := 0, prio := 1, statLog2 := 4, queue := [put (z 64) (oct [0x06]) 0] }) (fset F.SC_STATE_STATE k 2 s))
     (match takeCmd 0x06 k false s with
       | some x =>
         let v := setParamsRun r k x.1 x.2
         decide ((scState k x.2 = 2 ∨ scState k x.2 = 3)) && decide (v.1 ≠ 0)
       | _ => false)),
    (let k : Sc := 1023
     let r : Bytes := put (oct ([1,1,0,0,1,1,8,16,64,0,64,0] ++ List.replicate 52 0)) (oct [0,16]) 0x30
     let s : State := live |> (fun s : State => strmMod k (fun c => { c with kind := 1, prio := 1, statLog2 := 4, queue := [put (z 64) (oct [0x06]) 0], gang := 1 }) (fset F.SC_STATE_STATE k 2 s))
     (match takeCmd 0x06 k false s with
       | some x =>
         let v := setParamsRun r k x.1 x.2
         decide ((scState k x.2 = 2 ∨ scState k x.2 = 3)) && decide (v.1 = 0)
       | _ => false)),
    (let k : Sc := 1023
     let r : Bytes := oct ([1,1,85,0,2,1,8,16,0,2,64,0,0,0,0,0,1,0,0,0,0,2,1,0,0,0,16,0,16,0,0,0,0,0,0,0,1,0,0,0,1] ++ List.replicate 23 0)
     let s : State := live |> (fun s : State => strmMod k (fun c => { c with kind := 0, prio := 1, statLog2 := 4, queue := [put (z 64) (oct [0x06]) 0], gang := 2, engine := 0, gop := { c.gop with params := oct ([1,1,85,0,2,1,8,16,0,2,64,0,0,0,0,0,1,0,0,0,0,2,1,0,0,0,16,0,16,0,0,0,0,0,0,0,1,0,0,0,1] ++ List.replicate 23 0) } }) (fset F.SC_STATE_STATE k 2 s))
     (match takeCmd 0x06 k false s with
       | some x =>
         let v := setParamsRun r k x.1 x.2
         decide ((scState k x.2 = 2 ∨ scState k x.2 = 3)) && decide (v.1 = 0) && decide ((strm k x.2).kind = 0)
       | _ => false)),
    (let k : Sc := 1023
     let r : Bytes := put (oct ([1,1,0,0,1,1,8,16,64,0,64,0] ++ List.replicate 52 0)) (oct [0,16]) 0x30
     let s : State := live |> (fun s : State => strmMod k (fun c => { c with kind := 1, prio := 1, statLog2 := 4, queue := [put (z 64) (oct [0x06]) 0], gang := 1 }) (fset F.SC_STATE_STATE k 2 s))
     (match takeCmd 0x06 k false s with
       | some x =>
         let v := setParamsRun r k x.1 x.2
         decide ((scState k x.2 = 2 ∨ scState k x.2 = 3)) && decide (v.1 = 0) && decide ((strm k x.2).kind ≠ 0)
       | _ => false)),
    (let k : Sc := 1023
     let s : State := live |> (fun s : State => strmMod k (fun c => { c with kind := 0, prio := 1, statLog2 := 4, queue := [put (z 64) (oct [0x07]) 0] }) (fset F.SC_STATE_STATE k 2 s))
     (match takeCmd 0x07 k false s with
       | some x => decide ((strm k x.2).kind = 0) && decide ((scState k x.2 = 2 ∨ scState k x.2 = 3))
       | _ => false)),
    (let k : Sc := 1023
     let r : Bytes := z 64
     let s : State := live |> (fun s : State => strmMod k (fun c => { c with kind := 0, prio := 1, statLog2 := 4, queue := [put (z 64) (oct [0x07]) 0] }) (fset F.SC_STATE_STATE k 2 s))
     (match takeCmd 0x07 k false s with
       | some x =>
         let v := setRcRun r k x.1 x.2
         decide ((strm k x.2).kind = 0) && decide ((scState k x.2 = 2 ∨ scState k x.2 = 3)) && decide (v.1 ≠ 0)
       | _ => false)),
    (let k : Sc := 1023
     let r : Bytes := put (oct ([1,0,0,0,0,0,0xF0,0x0F] ++ List.replicate 56 0)) (oct [1,1]) 0x21
     let s : State := live |> (fun s : State => strmMod k (fun c => { c with kind := 0, prio := 1, statLog2 := 4, queue := [put (z 64) (oct [0x07]) 0], gang := 2, engine := 0, gop := { c.gop with params := oct ([1,1,85,0,2,1,8,16,0,2,64,0,0,0,0,0,1,0,0,0,0,2,1,0,0,0,16,0,16,0,0,0,0,0,0,0,1,0,0,0,1] ++ List.replicate 23 0) } }) (fset F.SC_STATE_STATE k 2 s))
     (match takeCmd 0x07 k false s with
       | some x =>
         let v := setRcRun r k x.1 x.2
         decide ((strm k x.2).kind = 0) && decide ((scState k x.2 = 2 ∨ scState k x.2 = 3)) && decide (v.1 = 0)
       | _ => false)),
    (let k : Sc := 1023
     let s : State := live |> (fun s : State => strmMod k (fun c => { c with kind := 0, prio := 1, statLog2 := 4, queue := [put (z 64) (oct [0x08,0,0,0,0,0,0,0,2]) 0] }) (fset F.SC_STATE_STATE k 2 s))
     (match takeCmd 0x08 k false s with
       | some x =>
         let o := cmdArg x.1 0 % 256
         let p := cmdArg x.1 0 / 256 % 256
         decide ((scState k x.2 = 2 ∨ scState k x.2 = 3 ∨ scState k x.2 = 5)) && decide (1 < o ∨ 1 < p ∨ (p = 1 ∧ (strm k x.2).prio ≠ 0))
       | _ => false)),
    (let k : Sc := 1023
     let s : State := live |> (fun s : State => strmMod k (fun c => { c with kind := 0, prio := 1, statLog2 := 4, queue := [put (z 64) (oct [0x08]) 0] }) (fset F.SC_STATE_STATE k 2 s))
     (match takeCmd 0x08 k false s with
       | some x =>
         let o := cmdArg x.1 0 % 256
         let p := cmdArg x.1 0 / 256 % 256
         decide ((scState k x.2 = 2 ∨ scState k x.2 = 3 ∨ scState k x.2 = 5)) && decide (o ≤ 1) && decide (p ≤ 1) &&
         decide ((p = 0 ∨ (strm k x.2).prio = 0))
       | _ => false)),
    (let k : Sc := 1023
     let s : State := live |> (fun s : State => strmMod k (fun c => { c with kind := 0, prio := 1, statLog2 := 4, queue := [put (z 64) (oct [0x3F]) 0] }) (fset F.SC_STATE_STATE k 2 s))
     (match takeCmd 0x3F k false s with
       | some x => decide (2 ≤ scState k x.2)
       | _ => false)),
    (let k : Sc := 1023
     let s : State := live |> (fun s : State => strmMod k (fun c => { c with kind := 0, prio := 1, statLog2 := 4, queue := [put (z 64) (oct [0x3F,1]) 0] }) (fset F.SC_STATE_STATE k 2 s))
     (match takeCmd 0x3F k false s with
       | some x => decide (2 ≤ scState k x.2) && decide (bit (byteAt x.1 1) 0 = true)
       | _ => false)),
    (let k : Sc := 1023
     let s : State := live |> (fun s : State => strmMod k (fun c => { c with kind := 0, prio := 1, statLog2 := 4, queue := [put (z 64) (oct [0x3F]) 0] }) (fset F.SC_STATE_STATE k 2 s))
     (match takeCmd 0x3F k false s with
       | some x =>
         decide (2 ≤ scState k x.2) && decide (bit (byteAt x.1 1) 0 = false) && decide ((strm k x.2).prio ≠ 0) && decide ((strm k x.2).waits = []) &&
         decide (statRoom k x.2 = true)
       | _ => false))] : List Bool).all id = true := by decide +kernel

/-- O31: the hypotheses of each of its clauses are met. -/
theorem wit_StreamWorkCommands : ([
    (let k : Sc := 1023
     let s : State := live |> (fun s : State => strmMod k (fun c => { c with kind := 0, prio := 1, statLog2 := 4, queue := [put (z 64) (oct [0x10,0,0,0,0,0,0,0,1]) 0] }) (fset F.SC_STATE_STATE k 3 s))
     (match takeCmd 0x10 k false s with
       | some x =>
         let g := (strm k x.2).gop.feed (cmdArg x.1 4) x.1 x.2.time.cclk
         decide (opAllowed 0x10 k x.2 = true) && decide (planesOk (nextParams (strm k x.2) g) x.1 = false)
       | _ => false)),
    (let k : Sc := 1023
     let s : State := live |> (fun s : State => strmMod k (fun c => { c with kind := 0, prio := 1, statLog2 := 4, queue := [put (z 64) (oct [0x10]) 0], gop := { c.gop with since := some 0, params := put (z 256) (oct [3, 8]) 0x0F } }) (fset F.SC_STATE_STATE k 3 s))
     (match takeCmd 0x10 k false s with
       | some x =>
         let g := (strm k x.2).gop.feed (cmdArg x.1 4) x.1 x.2.time.cclk
         decide (opAllowed 0x10 k x.2 = true) && decide (planesOk (nextParams (strm k x.2) g) x.1 = true) && decide (g.1 = [])
       | _ => false)),
    (let k : Sc := 1023
     let s : State := live |> (fun s : State => strmMod k (fun c => { c with kind := 0, prio := 1, statLog2 := 4, queue := [put (z 64) (oct [0x10]) 0] }) (fset F.SC_STATE_STATE k 3 s))
     (match takeCmd 0x10 k false s with
       | some x =>
         let g := (strm k x.2).gop.feed (cmdArg x.1 4) x.1 x.2.time.cclk
         decide (opAllowed 0x10 k x.2 = true) && decide (planesOk (nextParams (strm k x.2) g) x.1 = true) && decide (g.1 ≠ [])
       | _ => false)),
    (let k : Sc := 1023
     let s : State := live |> (fun s : State => strmMod k (fun c => { c with kind := 1, prio := 1, statLog2 := 4, queue := [put (z 64) (oct [0x11]) 0] }) (fset F.SC_STATE_STATE k 3 s))
     (match takeCmd 0x11 k false s with
       | some x => decide (opAllowed 0x11 k x.2 = true) && decide (cmdArg x.1 1 % 2 ^ 32 ≤ pMaxAu (strm k x.2).gop.params)
       | _ => false)),
    (let k : Sc := 1023
     let s : State := live |> (fun s : State => strmMod k (fun c => { c with kind := 1, prio := 1, statLog2 := 4, queue := [put (z 64) (oct [0x12]) 0] }) (fset F.SC_STATE_STATE k 3 s))
     (match takeCmd 0x12 k false s with
       | some x => decide (opAllowed 0x12 k x.2 = true) && decide ((strm k x.2).kind = 1)
       | _ => false)),
    (let k : Sc := 1023
     let s : State := live |> (fun s : State => strmMod k (fun c => { c with kind := 0, prio := 1, statLog2 := 4, queue := [put (z 64) (oct [0x12]) 0] }) (fset F.SC_STATE_STATE k 3 s))
     (match takeCmd 0x12 k false s with
       | some x => decide (opAllowed 0x12 k x.2 = true) && decide ((strm k x.2).kind = 0) && decide ((strm k x.2).gop.held = [])
       | _ => false)),
    (let k : Sc := 1023
     let s : State := live |> (fun s : State => strmMod k (fun c => { c with kind := 0, prio := 1, statLog2 := 4, queue := [put (z 64) (oct [0x12]) 0], gop := { c.gop with held := [(0, 0, [])] } }) (fset F.SC_STATE_STATE k 3 s))
     (match takeCmd 0x12 k false s with
       | some x => decide (opAllowed 0x12 k x.2 = true) && decide ((strm k x.2).kind = 0) && decide ((strm k x.2).gop.held ≠ [])
       | _ => false)),
    (let k : Sc := 1023
     let s : State := live |> (fun s : State => strmMod k (fun c => { c with kind := 0, prio := 1, statLog2 := 4, queue := [put (z 64) (oct [0x13]) 0] }) (fset F.SC_STATE_STATE k 3 s))
     (match takeCmd 0x13 k true s with
       | some x => decide (opAllowed 0x13 k x.2 = true)
       | _ => false)),
    (let k : Sc := 1023
     let s : State := live |> (fun s : State => strmMod k (fun c => { c with kind := 1, prio := 1, statLog2 := 4, queue := [put (z 64) (oct [0x14]) 0] }) (fset F.SC_STATE_STATE k 3 s))
     (match takeCmd 0x14 k false s with
       | some x => decide (opAllowed 0x14 k x.2 = true) && decide (cmdArg x.1 0 ∉ (strm k x.2).hostBufs)
       | _ => false)),
    (let k : Sc := 1023
     let s : State := live |> (fun s : State => strmMod k (fun c => { c with kind := 1, prio := 1, statLog2 := 4, queue := [put (z 64) (oct [0x14]) 0], hostBufs := [0] }) (fset F.SC_STATE_STATE k 3 s))
     (match takeCmd 0x14 k false s with
       | some x =>
         decide (opAllowed 0x14 k x.2 = true) && decide (cmdArg x.1 0 ∈ (strm k x.2).hostBufs) &&
         decide ((strm k x.2).dpb.all (fun p => p.buf != cmdArg x.1 0 + 1) = true)
       | _ => false)),
    (let k : Sc := 1023
     let s : State := live |> (fun s : State => strmMod k (fun c => { c with kind := 1, prio := 1, statLog2 := 4, queue := [put (z 64) (oct [0x14]) 0], hostBufs := [0], dpb := [{ poc := 0, buf := 1, tag := 0, wait := false, ref := false, latency := 0, concealed := false, len := 0, record := [], startNs := 0, busy := 0, waited := 0, segs := 0, restarts := 0 }] }) (fset F.SC_STATE_STATE k 3 s))
     (match takeCmd 0x14 k false s with
       | some x =>
         decide (opAllowed 0x14 k x.2 = true) && decide (cmdArg x.1 0 ∈ (strm k x.2).hostBufs) &&
         decide ((strm k x.2).dpb.any (fun p => p.buf == cmdArg x.1 0 + 1) = true)
       | _ => false)),
    (let k : Sc := 1023
     let s : State := live |> (fun s : State => strmMod k (fun c => { c with kind := 1, prio := 1, statLog2 := 4, queue := [put (z 64) (oct [0x15]) 0] }) (fset F.SC_STATE_STATE k 5 s))
     (match takeCmd 0x15 k false s with
       | some x => decide (opAllowed 0x15 k x.2 = true)
       | _ => false)),
    (let k : Sc := 1023
     let s : State := live |> fset F.SC_STATE_STATE (k) 4
     decide (scState k s = 4) && decide ((strm k s).closing = none) && decide (flag F.SC_STATE_ENABLE_PENDING k s = false)),
    (let k : Sc := 1023
     let s : State := live |> fset F.SC_STATE_STATE (k) 4 |> setFlag F.SC_STATE_ENABLE_PENDING k true
     decide (scState k s = 4) && decide ((strm k s).closing = none) && decide (flag F.SC_STATE_ENABLE_PENDING k s = true)),
    (let k : Sc := 1023
     let s : State := live |> (fun s : State => strmMod k (fun z_ => { z_ with closing := some [] }) (fset F.SC_STATE_STATE k 4 s))
     decide (scState k s = 4) &&
     (match (strm k s).closing with
       | some _ => decide ((strm k s).waits = [])
       | _ => false)),
    (let k : Sc := 1023
     let s : State := live |> (fun s : State => strmMod k (fun c => { c with kind := 1, prio := 0, td := 0, doneTick := some 0 }) (fset F.SC_STATE_STATE k 3 (fset F.TICK_IDX_LO_IDX 0 3 { s with time := { s.time with tickSeen := [(0, true)] } })))
     decide ((strm k s).prio = 0) && decide ((strm k s).kind = 1) && decide (Tab.get false s.time.tickSeen (strm k s).td = true) &&
     (match (strm k s).doneTick with
       | some d => decide (d + 3 ≤ tickIdx (strm k s).td s) && decide ((d + 1) ∉ liveTicks k s) && decide (scState k s = 3)
       | _ => false))] : List Bool).all id = true := by decide +kernel

/-- O32: the hypotheses of each of its clauses are met. -/
theorem wit_EngineControl : ([
    (let fn : Fn := 0
     let e : Eng := 0
     let s : State := live |> (fun s : State => strmMod 0 (fun c => { c with prio := 1, engine := 0 }) (fset F.SC_STATE_STATE 0 3 s))
     let h := gangHead s.cfg e
     decide (Reaches fn .CE_CTRL e s) && decide (flag F.CE_CTRL_LIVE_EXCLUSIVE h s = false) && decide (fileHomed h s = true ∨ ceUse s.cfg h ≠ 1)),
    (let fn : Fn := 0
     let e : Eng := 0
     let s : State := live |> (fun s : State => { s with loader := { s.loader with secs := s.loader.secs.map (fun x => if x.1 = 8 then (8, put x.2 (oct [2, 1, 0, 1+0]) 144) else x) } })
     let h := gangHead s.cfg e
     decide (Reaches fn .CE_CTRL e s) && decide (ceUse s.cfg h = 2)),
    (let fn : Fn := 0
     let e : Eng := 0
     let w : Word := 0#32
     let s : State := live |> (fun s : State => { s with mode := .boot })
     let h := gangHead s.cfg e
     decide (Reaches fn .CE_CTRL e s) && decide (s.mode ≠ .operate) &&
     decide ((flag F.CE_CTRL_LIVE_EXCLUSIVE h s = true ∨ (fileHomed h s = false ∧ ceUse s.cfg h = 1))) &&
     decide ((wbit F.CE_CTRL_ENABLE w = false ∨ ceUse s.cfg h ≠ 2))),
    (let fn : Fn := 0
     let e : Eng := 0
     let w : Word := 0#32
     let s : State := live
     let h := gangHead s.cfg e
     decide (Reaches fn .CE_CTRL e s) && decide (s.mode = .operate) && decide (wbit F.CE_CTRL_LIVE_EXCLUSIVE w = false) && decide (ceUse s.cfg h ≠ 2)),
    (let fn : Fn := 0
     let e : Eng := 0
     let w : Word := 0#32
     let m : Nat := 0
     let s : State := live
     let h := gangHead s.cfg e
     decide (Reaches fn .CE_CTRL e s) && decide (s.mode = .operate) && decide (wbit F.CE_CTRL_LIVE_EXCLUSIVE w = false) &&
     decide (ceUse s.cfg h ≠ 2) && decide (gangHead s.cfg h = h) && decide (m ∈ gangOf s.cfg h)),
    (let fn : Fn := 0
     let e : Eng := 0
     let w : Word := 0#32
     let m : Nat := 0
     let s : State := live |> (fun s : State => (setFlag F.CE_STATUS_DRAINING (gangHead s.cfg e) true) s)
     let h := gangHead s.cfg e
     decide (Reaches fn .CE_CTRL e s) && decide (s.mode = .operate) && decide (wbit F.CE_CTRL_LIVE_EXCLUSIVE w = false) &&
     decide (ceUse s.cfg h ≠ 2) && decide (gangHead s.cfg h = h) && decide (m ∈ gangOf s.cfg h) && decide (flag F.CE_STATUS_DRAINING h s = true)),
    (let fn : Fn := 0
     let e : Eng := 0
     let w : Word := 0#32
     let m : Nat := 0
     let s : State := live
     let h := gangHead s.cfg e
     decide (Reaches fn .CE_CTRL e s) && decide (s.mode = .operate) && decide (wbit F.CE_CTRL_LIVE_EXCLUSIVE w = false) &&
     decide (ceUse s.cfg h ≠ 2) && decide (gangHead s.cfg h = h) && decide (m ∈ gangOf s.cfg h) && decide (flag F.CE_STATUS_DRAINING h s = false) &&
     decide (flag F.CE_STATUS_ENABLED h s = false)),
    (let fn : Fn := 0
     let e : Eng := 0
     let w : Word := 0#32
     let s : State := live
     decide (Reaches fn .CE_CTRL e s) && decide (s.mode = .operate) && decide (wbit F.CE_CTRL_LIVE_EXCLUSIVE w = false)),
    (let fn : Fn := 0
     let e : Eng := 0
     let w : Word := 0#32
     let m : Nat := 0
     let s : State := live
     let h := gangHead s.cfg e
     decide (Reaches fn .CE_CTRL e s) && decide (s.mode = .operate) && decide (wbit F.CE_CTRL_LIVE_EXCLUSIVE w = false) &&
     decide (gangHead s.cfg h = h) && decide (m ∈ gangOf s.cfg h)),
    (let fn : Fn := 0
     let e : Eng := 0
     let w : Word := 0#32
     let m : Nat := 0
     let s : State := live |> (fun s : State => (setFlag F.CE_STATUS_DRAINING (gangHead s.cfg e) true) s)
     let h := gangHead s.cfg e
     decide (Reaches fn .CE_CTRL e s) && decide (s.mode = .operate) && decide (wbit F.CE_CTRL_LIVE_EXCLUSIVE w = false) &&
     decide (gangHead s.cfg h = h) && decide (m ∈ gangOf s.cfg h) && decide (flag F.CE_STATUS_DRAINING h s = true)),
    (let fn : Fn := 0
     let e : Eng := 0
     let w : Word := 0#32
     let m : Nat := 0
     let s : State := live |> (fun s : State => (setFlag F.CE_STATUS_ENABLED (gangHead s.cfg e) true) s)
     let h := gangHead s.cfg e
     decide (Reaches fn .CE_CTRL e s) && decide (s.mode = .operate) && decide (wbit F.CE_CTRL_LIVE_EXCLUSIVE w = false) &&
     decide (gangHead s.cfg h = h) && decide (m ∈ gangOf s.cfg h) && decide (flag F.CE_STATUS_DRAINING h s = false) &&
     decide (flag F.CE_STATUS_ENABLED h s = true)),
    (let e : Eng := 0
     let s : State := live |> (fun s : State => (setFlag F.CE_STATUS_DRAINING (gangHead s.cfg e) true) s)
     let h := gangHead s.cfg e
     decide (flag F.CE_STATUS_DRAINING h s = true) && decide (flag F.CE_STATUS_ENABLE_PENDING h s = false)),
    (let e : Eng := 0
     let s : State := live |> (fun s : State => (setFlag F.CE_STATUS_DRAINING (gangHead s.cfg e) true) s) |> (fun s : State => (setFlag F.CE_STATUS_ENABLE_PENDING (gangHead s.cfg e) true) s)
     let h := gangHead s.cfg e
     decide (flag F.CE_STATUS_DRAINING h s = true) && decide (flag F.CE_STATUS_ENABLE_PENDING h s = true)),
    (let e : Eng := 0
     let m : Nat := 0
     let s : State := live |> (fun s : State => (setFlag F.CE_STATUS_DRAINING (gangHead s.cfg e) true) s) |> (fun s : State => (setFlag F.CE_STATUS_ENABLE_PENDING (gangHead s.cfg e) true) s)
     let h := gangHead s.cfg e
     decide (flag F.CE_STATUS_DRAINING h s = true) && decide (flag F.CE_STATUS_ENABLE_PENDING h s = true) && decide (gangHead s.cfg h = h) &&
     decide (m ∈ gangOf s.cfg h))] : List Bool).all id = true := by decide +kernel

/-- O33: the hypotheses of each of its clauses are met. -/
theorem wit_EngineWork : ([
    (let e : Eng := 0
     let r : SegResult := { ctus := [], coded := z 4, overhead := 1, md5 := z 16, au := AuInfo.blank, done := [0], samples := [], last := false, fault := none, poisoned := false }
     let s : State := live |> (fun s : State => engMod (gangHead s.cfg e) (fun g => { g with work := some { Work.blank with cmd := z 64 } }) s)
     let h := gangHead s.cfg e
     (match (engOf h s).work with
       | some w => decide ((w.cmd ≠ [] ∨ tickGone w.sc w.tick s = false)) && decide (r.poisoned = false) && decide (segEmpty w r = false)
       | _ => false)),
    (let e : Eng := 0
     let r : SegResult := { ctus := [], coded := z 4, overhead := 1, md5 := z 16, au := AuInfo.blank, done := [0], samples := [], last := false, fault := none, poisoned := false }
     let s : State := live |> (fun s : State => engMod (gangHead s.cfg e) (fun g => { g with work := some { Work.blank with kind := 2, cmd := z 64, dec := { DecWork.blank with known := true } } }) s)
     let h := gangHead s.cfg e
     (match (engOf h s).work with
       | some w => decide ((w.cmd ≠ [] ∨ tickGone w.sc w.tick s = false)) && decide (r.poisoned = false) && decide (segEmpty w r = true)
       | _ => false)),
    (let e : Eng := 0
     let r : SegResult := { ctus := [], coded := z 4, overhead := 1, md5 := z 16, au := AuInfo.blank, done := [1], samples := [], last := true, fault := none, poisoned := true }
     let s : State := live |> (fun s : State => engMod (gangHead s.cfg e) (fun g => { g with work := some { Work.blank with cmd := z 64 } }) s)
     let h := gangHead s.cfg e
     (match (engOf h s).work with
       | some w => decide ((w.cmd ≠ [] ∨ tickGone w.sc w.tick s = false)) && decide (r.poisoned = true)
       | _ => false)),
    (let e : Eng := 0
     let s : State := live
     decide ((engOf (gangHead s.cfg e) s).work = none)),
    (let e : Eng := 0
     let s : State := live |> (fun s : State => engMod 0 (fun e => { e with work := if true then none else some { Work.blank with sc := 0, kind := 1, cmd := if true then z 64 else [], tick := 0, begun := true, sampled := true, late := if true then none else some 5 }, swapTo := if true then some 1 else none, swapAt := 0, failRun := 0, savedWorks := if true then [] else [(1, { Work.blank with sc := 1, kind := 1, tick := 0 })] }) s)
     let h := gangHead s.cfg e
     (match (engOf h s).swapTo with
       | some _ => true
       | _ => false)),
    (let e : Eng := 0
     let s : State := live
     decide ((engOf (gangHead s.cfg e) s).swapTo = none)),
    (let e : Eng := 0
     let s : State := live |> (fun s : State => engMod (gangHead s.cfg e) (fun g => { g with work := some { Work.blank with cmd := z 64 } }) s)
     let h := gangHead s.cfg e
     (match (engOf h s).work with
       | some _ => true
       | _ => false)),
    (let e : Eng := 0
     let s : State := live |> (fun s : State => engMod (gangHead s.cfg e) (fun g => { g with work := some { Work.blank with cmd := z 64 } }) s)
     let h := gangHead s.cfg e
     (match (engOf h s).work with
       | some _ => decide ((engOf h s).failRun + 1 ≠ 3)
       | _ => false)),
    (let e : Eng := 0
     let s : State := live |> (fun s : State => engMod 0 (fun e => { e with work := if false then none else some { Work.blank with sc := 1, kind := 1, cmd := if true then z 64 else [], tick := 0, begun := true, sampled := true, late := if true then none else some 5 }, swapTo := if true then some 1 else none, swapAt := 0, failRun := 2, savedWorks := if true then [] else [(1, { Work.blank with sc := 1, kind := 1, tick := 0 })] }) s)
     let h := gangHead s.cfg e
     (match (engOf h s).work with
       | some _ => decide ((engOf h s).failRun = 2)
       | _ => false)),
    (let k : Sc := 0
     let s : State := live |> (fun s : State => strmMod 0 (fun c => { c with prio := 0, engine := 0, overrun := 0, kind := 0, ready := if true then [(1,0)] else [] }) (fset F.SC_STATE_STATE 0 3 s))
     decide ((strm k s).prio = 0) && decide (scState k s = 3) &&
     (match (liveTicks k s).head? with
       | some n => decide (tickGone k n s = false)
       | _ => false)),
    (let k : Sc := 0
     let s : State := live |> (fun s : State => strmMod k (fun c => { c with prio := 0, td := 0, ready := [(0, 0)] }) (fset F.SC_STATE_STATE k 3 (fset F.TICK_IDX_LO_IDX 0 2 { s with time := { s.time with tickSeen := [(0, true)] } })))
     decide ((strm k s).prio = 0) && decide (scState k s = 3) &&
     (match (liveTicks k s).head? with
       | some n => decide (tickGone k n s = true)
       | _ => false)),
    (let k : Sc := 0
     let s : State := live |> (fun s : State => strmMod k (fun c => { c with prio := 0, td := 0, ready := [(0, 0)] }) (fset F.SC_STATE_STATE k 3 (fset F.TICK_IDX_LO_IDX 0 2 { s with time := { s.time with tickSeen := [(0, true)] } })))
     decide ((strm k s).prio = 0) && decide (scState k s = 3) &&
     (match (liveTicks k s).head? with
       | some n => decide (tickGone k n s = true) && decide (workOf k s = none) && decide ((strm k s).overrun = 0)
       | _ => false)),
    (let k : Sc := 0
     let s : State := live |> (fun s : State => strmMod k (fun c => { c with prio := 0, td := 0, ready := [(0, 0)] }) (fset F.SC_STATE_STATE k 3 (fset F.TICK_IDX_LO_IDX 0 2 { s with time := { s.time with tickSeen := [(0, true)] } }))) |> (fun s : State => engMod 0 (fun e => { e with work := if false then none else some { Work.blank with sc := 0, kind := 1, cmd := if true then z 64 else [], tick := 0, begun := true, sampled := true, late := if false then none else some 5 }, swapTo := if true then some 1 else none, swapAt := 0, failRun := 0, savedWorks := if true then [] else [(1, { Work.blank with sc := 1, kind := 1, tick := 0 })] }) s)
     decide ((strm k s).prio = 0) && decide (scState k s = 3) &&
     (match (liveTicks k s).head? with
       | some n =>
         decide (tickGone k n s = true) &&
         (match workOf k s with
           | some w => decide (w.tick = n) && decide (w.late.isSome = true)
           | _ => false)
       | _ => false)),
    (let k : Sc := 0
     let s : State := live
     decide ((strm k s).prio ≠ 0 ∨ scState k s ≠ 3 ∨ liveTicks k s = []))] : List Bool).all id = true := by decide +kernel

/-- O34: the hypotheses of each of its clauses are met. -/
theorem wit_PoolRequestsAndReturns : ([
    (let fn : Fn := 0
     let s : State := live |> setFlag F.POOL_RESP_PENDING fn true
     decide (Reaches fn .POOL_REQ fn s) && decide (flag F.POOL_RESP_PENDING fn s = true)),
    (let fn : Fn := 0
     let w : Word := 0#32
     let s : State := live
     let n := wfld F.POOL_REQ_BYTES w
     decide (Reaches fn .POOL_REQ fn s) && decide (flag F.POOL_RESP_PENDING fn s = false) && decide (n = 0)),
    (let fn : Fn := 1
     let w : Word := 1#32
     let s : State := live |> (fun s : State => { s with mem := { s.mem with buf := [(0, 2^15 + 0 * 2^14 + 0), (4096, 2^15 + 1), (262144, 2^15)], returned := [(0,[8192])], touched := [(0,[0,1,2])] } })
     let n := wfld F.POOL_REQ_BYTES w
     decide (Reaches fn .POOL_REQ fn s) && decide (flag F.POOL_RESP_PENDING fn s = false) && decide (0 < n) && decide (n ≤ 268435456) &&
     decide (poolsFor s.cfg n ≠ []) && decide (quotaAllows fn (wouldTake n s) s = false)),
    (let fn : Fn := 0
     let w : Word := 1#32
     let s : State := live |> (fun s : State => fset F.POOL_FREE_COUNT 0 1 (fset F.POOL_FREE_COUNT 1 0 s))
     let n := wfld F.POOL_REQ_BYTES w
     let x := poolAsk n fn false (hbmAsk 2 128 s)
     decide (Reaches fn .POOL_REQ fn s) && decide (flag F.POOL_RESP_PENDING fn s = false) && decide (quotaAllows fn (wouldTake n s) s = true) &&
     decide (x.1.result = 0)),
    (let fn : Fn := 0
     let w : Word := 0#32
     let s : State := live
     let a := w.toNat * 2 ^ 32 + fget F.POOL_RET_LO_PTR fn s
     decide (Reaches fn .POOL_RET_HI fn s) &&
     decide (poolOf s.cfg a = none ∨ (poolOf s.cfg a).any (fun p => decide ((a - poolBase s.cfg p) % 2 ^ poolLog2 s.cfg p ≠ 0) || (!poisonedIn (bufStateAddr s.cfg a) 2 s && (!bufAllocated a s || bufOwner a s != fn.val))) = true)),
    (let fn : Fn := 0
     let w : Word := 0#32
     let s : State := live |> (fun s : State => if true then { s with mem := { s.mem with poison := [((64 * 2 ^ 30 + 4384 * 2 ^ 20)/64, true)] } } else s)
     let a := w.toNat * 2 ^ 32 + fget F.POOL_RET_LO_PTR fn s
     decide (Reaches fn .POOL_RET_HI fn s) &&
     (match poolOf s.cfg a with
       | some p => decide ((a - poolBase s.cfg p) % 2 ^ poolLog2 s.cfg p = 0) && decide (poisonedIn (bufStateAddr s.cfg a) 2 s = true)
       | _ => false)),
    (let fn : Fn := 0
     let w : Word := 0#32
     let s : State := live |> (fun s : State => { s with mem := { s.mem with buf := [(0, 2^15 + 0 * 2^14 + 0), (4096, 2^15 + 1), (262144, 2^15)], returned := [(0,[8192])], touched := [(0,[0,1,2])] } })
     let a := w.toNat * 2 ^ 32 + fget F.POOL_RET_LO_PTR fn s
     decide (Reaches fn .POOL_RET_HI fn s) &&
     (match poolOf s.cfg a with
       | some p =>
         decide ((a - poolBase s.cfg p) % 2 ^ poolLog2 s.cfg p = 0) && decide (poisonedIn (bufStateAddr s.cfg a) 2 s = false) &&
         decide (bufAllocated a s = true) && decide (bufOwner a s = fn.val)
       | _ => false))] : List Bool).all id = true := by decide +kernel

/-- O35: the hypotheses of each of its clauses are met. -/
theorem wit_ScratchWindows : ([
    (let fn : Fn := 0
     let e : Eng := 0
     let v : Win := 7
     let s : State := live
     let i := winIdx e v
     decide (Reaches fn .CE_WIN_CFG i s) && decide (winExists s i = false)),
    (let fn : Fn := 0
     let e : Eng := 0
     let v : Win := 7
     let s : State := live |> (fun s : State => (setFlag F.CE_WIN_STATUS_ALLOCATED (winIdx e v) true) s)
     let i := winIdx e v
     decide (Reaches fn .CE_WIN_CFG i s) && decide (winExists s i = true)),
    (let fn : Fn := 0
     let e : Eng := 0
     let v : Win := 7
     let w : Word := 2#32
     let s : State := live
     let i := winIdx e v
     decide (Reaches fn .CE_WIN_CTRL i s) && decide (wbit F.CE_WIN_CTRL_FREE w = true)),
    (let fn : Fn := 0
     let e : Eng := 0
     let v : Win := 7
     let w : Word := 1#32
     let s : State := live
     let i := winIdx e v
     decide (Reaches fn .CE_WIN_CTRL i s) && decide (wbit F.CE_WIN_CTRL_ALLOC w = true)),
    (let fn : Fn := 0
     let e : Eng := 0
     let v : Win := 7
     let w : Word := 0#32
     let s : State := live
     let i := winIdx e v
     decide (Reaches fn .CE_WIN_CTRL i s) && decide (wbit F.CE_WIN_CTRL_FREE w = false) &&
     decide (winAllocCheck fn i (wfld F.CE_WIN_CTRL_USE w) s ≠ 0)),
    (let fn : Fn := 0
     let e : Eng := 0
     let v : Win := 7
     let w : Word := 0#32
     let s : State := live |> fset F.CE_WIN_CFG_SIZE_U (winIdx e v) 1
     let i := winIdx e v
     decide (Reaches fn .CE_WIN_CTRL i s) && decide (wbit F.CE_WIN_CTRL_FREE w = false) &&
     decide (winAllocCheck fn i (wfld F.CE_WIN_CTRL_USE w) s = 0)),
    (let fn : Fn := 0
     let e : Eng := 0
     let v : Win := 7
     let w : Word := 0#32
     let s : State := live
     let i := winIdx e v
     decide (Reaches fn .CE_WIN_CTRL i s) && decide (wbit F.CE_WIN_CTRL_ALLOC w = false) && decide (winFreeCheck fn i s ≠ 0)),
    (let fn : Fn := 0
     let e : Eng := 0
     let v : Win := 7
     let w : Word := 0#32
     let s : State := live |> (fun s : State => setFlag F.CE_WIN_STATUS_ALLOCATED (winIdx e v) true (fset F.CE_WIN_STATUS_OWNER (winIdx e v) fn s))
     let i := winIdx e v
     decide (Reaches fn .CE_WIN_CTRL i s) && decide (wbit F.CE_WIN_CTRL_ALLOC w = false) && decide (winFreeCheck fn i s = 0))] : List Bool).all id = true := by decide +kernel

/-- O36: the hypotheses of each of its clauses are met. -/
theorem wit_MemoryErrorsAreCounted : ([
    (let a : Nat := 0
     let s : State := live
     decide (a < 72 * 2 ^ 30) && decide (memoryRuns s = true)),
    (let a : Nat := 0
     let s : State := live
     decide (a < 72 * 2 ^ 30) && decide (memoryRuns s = true)),
    (let s : State := live
     decide (memoryRuns s = true)),
    (let s : State := live |> (fun s : State => { s with mode := .boot })
     decide (s.mode = .boot)),
    (let b : Nat := 1
     let s : State := live |> (fun s : State => { s with hbm := { s.hbm with waiting := [⟨0,1,1,0,false⟩], pass := [(0, 0), (1, 7), (8, 0)] } })
     decide ((∃ r ∈ s.hbm.waiting, r.cls = 0 ∧ r.bank = b))),
    (let b : Nat := 0
     let s : State := live
     decide ((∀ r ∈ s.hbm.waiting, r.cls = 0 → r.bank ≠ b))),
    (let s : State := live
     decide (s.mode ≠ .off)),
    (let s : State := live
     decide (s.mode ≠ .off)),
    (let s : State := live
     decide (memoryRuns s = true)),
    (let s : State := live |> (fun s : State => { s with mode := .off })
     decide (memoryRuns s = false))] : List Bool).all id = true := by decide +kernel

/-- O37: the hypotheses of each of its clauses are met. -/
theorem wit_ChannelArming : ([
    (let fn : Fn := 0
     let c : Chan := 0
     let w : Word := 0#32
     let s : State := live |> setFlag F.DC_CTRL_MODE c true |> setFlag F.DC_CTRL_ENABLE c true
     decide (Reaches fn .DC_CTRL c s) && decide (wbit F.DC_CTRL_MODE w ≠ flag F.DC_CTRL_MODE c s) && decide (flag F.DC_CTRL_ENABLE c s = true)),
    (let fn : Fn := 0
     let c : Chan := 0
     let w : Word := 0#32
     let s : State := live |> setFlag F.DC_STATUS_SHADOW_ARMED c true
     decide (Reaches fn .DC_CTRL c s) && decide (wbit F.DC_CTRL_MODE w = flag F.DC_CTRL_MODE c s) &&
     decide (flag F.DC_STATUS_SHADOW_ARMED c s = true ∨ (chan c s).hingedAt = some s.time.cclk)),
    (let fn : Fn := 0
     let c : Chan := 0
     let w : Word := 0x3FF#32
     let s : State := live |> setFlag F.DC_CTRL_MODE c true
     decide (Reaches fn .DC_CTRL c s) && decide (wbit F.DC_CTRL_MODE w = flag F.DC_CTRL_MODE c s) &&
     decide (flag F.DC_STATUS_SHADOW_ARMED c s = false) && decide ((chan c s).hingedAt ≠ some s.time.cclk) && decide (flag F.DC_CTRL_MODE c s = true)),
    (let fn : Fn := 0
     let c : Chan := 0
     let w : Word := 0#32
     let s : State := live
     decide (Reaches fn .DC_CTRL c s) && decide (wbit F.DC_CTRL_MODE w = flag F.DC_CTRL_MODE c s) &&
     decide (flag F.DC_STATUS_SHADOW_ARMED c s = false) && decide ((chan c s).hingedAt ≠ some s.time.cclk) &&
     decide (flag F.DC_CTRL_MODE c s = false) && decide (flag F.DC_CTRL_ENABLE c s = false)),
    (let fn : Fn := 0
     let c : Chan := 0
     let w : Word := 1#32
     let s : State := live |> setFlag F.DC_CTRL_ENABLE c true
     decide (Reaches fn .DC_CTRL c s) && decide (wbit F.DC_CTRL_MODE w = flag F.DC_CTRL_MODE c s) &&
     decide (flag F.DC_STATUS_SHADOW_ARMED c s = false) && decide ((chan c s).hingedAt ≠ some s.time.cclk) &&
     decide (flag F.DC_CTRL_MODE c s = false) && decide (flag F.DC_CTRL_ENABLE c s = true) && decide (wbit F.DC_CTRL_ENABLE w = true)),
    (let fn : Fn := 0
     let c : Chan := 0
     let w : Word := 1#32
     let s : State := live |> setFlag F.DC_CTRL_ENABLE c true
     decide (Reaches fn .DC_CTRL c s) && decide (wbit F.DC_CTRL_MODE w = flag F.DC_CTRL_MODE c s) && decide (wbit F.DC_CTRL_ARM w = false) &&
     decide (wbit F.DC_CTRL_ENABLE w = true) && decide (flag F.DC_CTRL_ENABLE c s = true)),
    (let fn : Fn := 0
     let c : Chan := 0
     let i : Fin 16 := 0
     let s : State := live |> setFlag F.DC_CTRL_MODE c true
     decide (Reaches fn .DC_SHD (16 * c.val + i.val) s) && decide (flag F.DC_CTRL_MODE c s = true)),
    (let fn : Fn := 0
     let c : Chan := 0
     let i : Fin 16 := 0
     let s : State := live |> setFlag F.DC_STATUS_SHADOW_ARMED c true
     decide (Reaches fn .DC_SHD (16 * c.val + i.val) s) && decide (flag F.DC_CTRL_MODE c s = false) &&
     decide (flag F.DC_STATUS_SHADOW_ARMED c s = true)),
    (let fn : Fn := 0
     let c : Chan := 0
     let i : Fin 16 := 0
     let s : State := live
     decide (Reaches fn .DC_SHD (16 * c.val + i.val) s) && decide (flag F.DC_CTRL_MODE c s = false) &&
     decide (flag F.DC_STATUS_SHADOW_ARMED c s = false))] : List Bool).all id = true := by decide +kernel

/-- O38: the hypotheses of each of its clauses are met. -/
theorem wit_HingesExchangeTheSets : ([
    (let c : Chan := 0
     let s : State := live |> (fun s : State => setFlag F.DC_STATUS_SHADOW_ARMED c true (setFlag F.DC_STATUS_ENABLED c true (setDesc F.DC_SHD_DATA c (put (put (z 64) (oct [1,0,0,0]) 0) (oct [64,0,0,0,0,0,0,0,1,0,0,0,64,0,0,0,0,0,0,0,1]) 0x18) (fset F.DC_CTRL_HINGE_TD c 15 s))))
     decide (hingeReady c s = true) && decide ((dcTd c s = none ∨ (chan c s).tickSeen = true))),
    (let c : Chan := 0
     let s : State := live |> (fun s : State => setFlag F.DC_STATUS_SHADOW_ARMED c true (setFlag F.DC_STATUS_ENABLED c true (setDesc F.DC_SHD_DATA c (put (put (z 64) (oct [1,0,0,0]) 0) (oct [64,0,0,0,0,0,0,0,1,0,0,0,64,0,0,0,0,0,0,0,1]) 0x18) (fset F.DC_CTRL_HINGE_TD c 15 s)))) |> (fun s : State => (List.range 16).foldl (fun s i => fset F.DC_ACT_DATA i (fieldLE (put (put (z 64) (oct [1, 0, 1, 0]) 0) (oct [64,0,0,0, 0,0,0,0, 1,0,0,0, 64]) 0x18) (4*i) 4) (fset F.DC_SHD_DATA i (fieldLE (put (put (put (z 64) (oct [1, 0, 1, 0]) 0) (oct [64,0,0,0, 0,0,0,0, 1,0,0,0, 64]) 0x18) (oct [1]) 0x2C) (4*i) 4) s)) s)
     let u := reachCclk (chan c s).hingeAt s
     let v := chanMod c (fun k => { k with done := false, tickSeen := false, bytes := 0, actIdx := k.shdIdx, shdIdx := k.actIdx, hingedAt := some u.time.cclk }) (setFlag F.DC_STATUS_ACTIVE_BUSY c true (setFlag F.DC_STATUS_SHADOW_ARMED c false (bump F.DC_HINGE_CNT_COUNT c (setDesc F.DC_ACT_DATA c (shdDesc c u) (setDesc F.DC_SHD_DATA c (actDesc c u) u)))))
     let r := descCheck (dcOwner c s) (shdDesc c s) v
     decide (hingeReady c s = true) && decide ((dcTd c s = none ∨ (chan c s).tickSeen = true)) && decide (r.1 = 0)),
    (let c : Chan := 0
     let s : State := live |> (fun s : State => setFlag F.DC_STATUS_SHADOW_ARMED c true (setFlag F.DC_STATUS_ENABLED c true (setDesc F.DC_SHD_DATA c (put (put (z 64) (oct [1,0,0,0]) 0) (oct [64,0,0,0,0,0,0,0,1,0,0,0,64,0,0,0,0,0,0,0,1]) 0x18) (fset F.DC_CTRL_HINGE_TD c 15 s))))
     let u := reachCclk (chan c s).hingeAt s
     let v := chanMod c (fun k => { k with done := false, tickSeen := false, bytes := 0, actIdx := k.shdIdx, shdIdx := k.actIdx, hingedAt := some u.time.cclk }) (setFlag F.DC_STATUS_ACTIVE_BUSY c true (setFlag F.DC_STATUS_SHADOW_ARMED c false (bump F.DC_HINGE_CNT_COUNT c (setDesc F.DC_ACT_DATA c (shdDesc c u) (setDesc F.DC_SHD_DATA c (actDesc c u) u)))))
     let r := descCheck (dcOwner c s) (shdDesc c s) v
     decide (hingeReady c s = true) && decide ((dcTd c s = none ∨ (chan c s).tickSeen = true)) && decide (r.1 ≠ 0)),
    (let c : Chan := 0
     let s : State := live
     decide (hingeReady c s = false ∨ (dcTd c s ≠ none ∧ (chan c s).tickSeen = false)))] : List Bool).all id = true := by decide +kernel

/-- O39: the hypotheses of each of its clauses are met. -/
theorem wit_ChannelsRunAndDrain : ([
    (let c : Chan := 0
     let s : State := live |> (fun s : State => chanMod c (fun k => { k with done := false }) (setFlag F.DC_STATUS_ACTIVE_BUSY c true (setFlag F.DC_STATUS_ENABLED c true (setDesc F.DC_ACT_DATA c (put (put (z 64) (oct [1,0,0,0]) 0) (oct [64,0,0,0,0,0,0,0,1,0,0,0,64,0,0,0,0,0,0,0,1]) 0x18) s))))
     let d := actDesc c s
     decide (dcMoving c s = true) && decide (poisonedLine d s = none)),
    (let c : Chan := 0
     let s : State := live |> (fun s : State => { (chanMod c (fun k => { k with done := false }) (setFlag F.DC_STATUS_ACTIVE_BUSY c true (setFlag F.DC_STATUS_ENABLED c true (setDesc F.DC_ACT_DATA c (put (put (z 64) (oct [1,0,0x11,0]) 0) (oct [64,0,0,0,0,0,0,0,1,0,0,0,64,0,0,0,0,0,0,0,1]) 0x18) s)))) with mem := { s.mem with poison := [(0, true)] } })
     let d := actDesc c s
     decide (dcMoving c s = true) &&
     (match poisonedLine d s with
       | some _ => true
       | _ => false)),
    (let c : Chan := 0
     let s : State := live |> (fun s : State => chanMod c (fun k => { k with done := false }) (setFlag F.DC_STATUS_ACTIVE_BUSY c true (setFlag F.DC_STATUS_ENABLED c true (setDesc F.DC_ACT_DATA c (put (put (z 64) (oct [1,0,0,0]) 0) (oct [64,0,0,0,0,0,0,0,1,0,0,0,64,0,0,0,0,0,0,0,1]) 0x18) s)))) |> (fun s : State => (List.range 16).foldl (fun s i => fset F.DC_ACT_DATA i (fieldLE (put (put (z 64) (oct [1, 0, 1, 0]) 0) (oct [64,0,0,0, 0,0,0,0, 1,0,0,0, 64]) 0x18) (4*i) 4) (fset F.DC_SHD_DATA i (fieldLE (put (put (put (z 64) (oct [1, 0, 1, 0]) 0) (oct [64,0,0,0, 0,0,0,0, 1,0,0,0, 64]) 0x18) (oct [1]) 0x2C) (4*i) 4) s)) s)
     let d := actDesc c s
     decide (dcMoving c s = true) && decide (dFill d = false) && decide (dSrcSpace d ≠ 0)),
    (let c : Chan := 0
     let s : State := live |> (fun s : State => chanMod c (fun k => { k with done := false }) (setFlag F.DC_STATUS_ACTIVE_BUSY c true (setFlag F.DC_STATUS_ENABLED c true (setDesc F.DC_ACT_DATA c (put (put (z 64) (oct [1,0,0,0]) 0) (oct [64,0,0,0,0,0,0,0,1,0,0,0,64,0,0,0,0,0,0,0,1]) 0x18) s))))
     let d := actDesc c s
     decide (dcMoving c s = true) && decide (dFill d = false) && decide (dSrcSpace d = 0)),
    (let c : Chan := 0
     let s : State := live |> (fun s : State => chanMod c (fun k => { k with done := false }) (setFlag F.DC_STATUS_ACTIVE_BUSY c true (setFlag F.DC_STATUS_ENABLED c true (setDesc F.DC_ACT_DATA c (put (put (z 64) (oct [1,0,0,0]) 0) (oct [64,0,0,0,0,0,0,0,1,0,0,0,64,0,0,0,0,0,0,0,1]) 0x18) s))))
     let d := actDesc c s
     decide (dcMoving c s = true) && decide (dFill d = false) && decide (dSrcSpace d = 0)),
    (let c : Chan := 0
     let s : State := live
     decide (dcMoving c s = false)),
    (let fn : Fn := 0
     let c : Chan := 0
     let w : Word := 0#32
     let s : State := live
     decide (Reaches fn .DC_CTRL c s) && decide (wbit F.DC_CTRL_MODE w = flag F.DC_CTRL_MODE c s) && decide (wbit F.DC_CTRL_ARM w = false) &&
     decide (wbit F.DC_CTRL_RESUME w = false) && decide (s.mode = .operate) && decide (flag F.DC_CTRL_ENABLE c s = false) &&
     decide (flag F.DC_STATUS_DRAINING c s = false)),
    (let fn : Fn := 0
     let c : Chan := 0
     let w : Word := 0#32
     let s : State := live |> setFlag F.DC_STATUS_DRAINING c true
     decide (Reaches fn .DC_CTRL c s) && decide (wbit F.DC_CTRL_MODE w = flag F.DC_CTRL_MODE c s) && decide (wbit F.DC_CTRL_ARM w = false) &&
     decide (wbit F.DC_CTRL_RESUME w = false) && decide (s.mode = .operate) && decide (flag F.DC_CTRL_ENABLE c s = false) &&
     decide (flag F.DC_STATUS_DRAINING c s = true)),
    (let fn : Fn := 0
     let c : Chan := 0
     let w : Word := 0#32
     let s : State := live |> (fun s : State => { s with mode := .boot })
     decide (Reaches fn .DC_CTRL c s) && decide (wbit F.DC_CTRL_MODE w = flag F.DC_CTRL_MODE c s) && decide (wbit F.DC_CTRL_ARM w = false) &&
     decide (wbit F.DC_CTRL_RESUME w = false) && decide (s.mode ≠ .operate)),
    (let fn : Fn := 0
     let c : Chan := 0
     let w : Word := 0#32
     let s : State := live |> setFlag F.DC_CTRL_ENABLE c true
     decide (Reaches fn .DC_CTRL c s) && decide (wbit F.DC_CTRL_MODE w = flag F.DC_CTRL_MODE c s) && decide (wbit F.DC_CTRL_ARM w = false) &&
     decide (wbit F.DC_CTRL_RESUME w = false) && decide (flag F.DC_CTRL_ENABLE c s = true) && decide (flag F.DC_STATUS_DRAINING c s = false) &&
     decide (flag F.DC_STATUS_ACTIVE_BUSY c s = false)),
    (let fn : Fn := 0
     let c : Chan := 0
     let w : Word := 0#32
     let s : State := live |> setFlag F.DC_CTRL_ENABLE c true |> setFlag F.DC_STATUS_ACTIVE_BUSY c true
     decide (Reaches fn .DC_CTRL c s) && decide (wbit F.DC_CTRL_MODE w = flag F.DC_CTRL_MODE c s) && decide (wbit F.DC_CTRL_ARM w = false) &&
     decide (wbit F.DC_CTRL_RESUME w = false) && decide (flag F.DC_CTRL_ENABLE c s = true) && decide (flag F.DC_STATUS_DRAINING c s = false) &&
     decide (flag F.DC_STATUS_ACTIVE_BUSY c s = true) && decide ((chan c s).record = none)),
    (let c : Chan := 0
     let s : State := live |> setFlag F.DC_STATUS_DRAINING c true
     decide (flag F.DC_STATUS_DRAINING c s = true)),
    (let fn : Fn := 0
     let c : Chan := 0
     let w : Word := 0x21#32
     let s : State := live
     decide (Reaches fn .DC_RING_TAIL c s) && decide (2 ^ fget F.DC_RING_CFG_LOG2_ENTRIES c s ≤ wfld F.DC_RING_TAIL_TAIL w)),
    (let fn : Fn := 0
     let c : Chan := 0
     let w : Word := 0#32
     let s : State := live
     decide (Reaches fn .DC_RING_TAIL c s) && decide (wfld F.DC_RING_TAIL_TAIL w < 2 ^ fget F.DC_RING_CFG_LOG2_ENTRIES c s)),
    (let c : Chan := 0
     let s : State := live |> setFlag F.DC_CTRL_MODE c true |> setFlag F.DC_STATUS_ENABLED c true |> fset F.DC_RING_HEAD_HEAD c 1
     decide (flag F.DC_CTRL_MODE c s = true) && decide (flag F.DC_STATUS_ENABLED c s = true) && decide (flag F.DC_STATUS_SHADOW_ARMED c s = false) &&
     decide (fget F.DC_RING_HEAD_HEAD c s ≠ fget F.DC_RING_TAIL_TAIL c s) && decide ((chan c s).fetchHeld = false) &&
     decide (fnD0 (dcOwner c s) s = true)),
    (let c : Chan := 0
     let s : State := live
     decide (flag F.DC_CTRL_MODE c s = false ∨ flag F.DC_STATUS_ENABLED c s = false ∨ flag F.DC_STATUS_SHADOW_ARMED c s = true ∨ (chan c s).fetchHeld = true ∨ fnD0 (dcOwner c s) s = false)),
    (let fn : Fn := 0
     let q : Cq := 0
     let s : State := live
     decide (Reaches fn .CQ_CFG q s) && decide (flag F.CQ_CFG_ENABLE q s = false))] : List Bool).all id = true := by decide +kernel

/-- O40: the hypotheses of each of its clauses are met. -/
theorem wit_FunctionsAndTheirReset : ([
    (let c : Chan := 0
     let s : State := live |> setFlag F.DC_STATUS_ENABLED c true
     decide (Reaches 0 .HIF_DC_OWNER c s) && decide (flag F.DC_STATUS_ENABLED c s = true ∨ flag F.DC_STATUS_DRAINING c s = true)),
    (let c : Chan := 0
     let s : State := live
     decide (Reaches 0 .HIF_DC_OWNER c s) && decide (flag F.DC_STATUS_ENABLED c s = false) && decide (flag F.DC_STATUS_DRAINING c s = false)),
    (let q : Cq := 0
     let s : State := live |> setFlag F.CQ_CFG_ENABLE q true
     decide (Reaches 0 .HIF_CQ_OWNER q s) && decide (cqOn q s = true)),
    (let q : Cq := 0
     let s : State := live
     decide (Reaches 0 .HIF_CQ_OWNER q s) && decide (cqOn q s = false)),
    (let fn : Fn := 0
     let s : State := live |> (fun s : State => { s with pcie := { s.pcie with trained := true, vfEnable := true, numVfs := 64 } })
     decide (cfgOpen fn s = true)),
    (let fn : Fn := 0
     let s : State := live |> (fun s : State => { s with pcie := { s.pcie with trained := true, vfEnable := true, numVfs := 64 } })
     decide (cfgOpen fn s = true)),
    (let fn : Fn := 0
     let s : State := live
     decide (cfgOpen fn s = false)),
    (let fn : Fn := 1
     let s : State := live |> (fun s : State => { s with pcie := { s.pcie with trained := true, vfEnable := true, numVfs := 64 } })
     decide (cfgOpen fn s = true) && decide (fn.val ≠ 0)),
    (let fn : Fn := 1
     let g : Nat := 0
     let s : State := live |> (fun s : State => { s with pcie := { s.pcie with trained := true, vfEnable := true, numVfs := 64 } }) |> fset F.INT_GRP_CFG_FUNCTION g fn
     let a := (List.range 64).foldl (fun s c => if dcOwner c s = fn then dcDrained c (dcOff c s) else s) s
     let b := (List.range 16).foldl (fun s q => if fget F.HIF_CQ_OWNER_OWNER q s = fn then setFlag F.CQ_CFG_ENABLE q false s else s) a
     let c := (b.coding.sc.filter (fun (x : Nat × Stream) => x.2.fn == fn.val)).foldl (fun s x => scDrained x.1 (scClose x.1 [] s)) b
     let d := (c.mem.buf.filter (fun x => bit x.2 15 && x.2 % 128 == fn.val)).foldl (fun s x => poolPut x.1 s) c
     let e := (List.range 384).foldl (fun s i => flrWindow fn i s) d
     let u := flrConfig fn (flrGroups fn e)
     decide (cfgOpen fn s = true) && decide (fn.val ≠ 0) && decide (g < 64) && decide (grpFn g u = fn)),
    (let s : State := live |> (fun s : State => { s with pcie := { s.pcie with trained := true, vfEnable := true, numVfs := 64 } })
     decide (cfgOpen 0 s = true)),
    (let s : State := live |> (fun s : State => { s with pcie := { s.pcie with trained := true, vfEnable := true, numVfs := 64 } })
     decide (cfgOpen 0 s = true))] : List Bool).all id = true := by decide +kernel

/-- O41: the hypotheses of each of its clauses are met. -/
theorem wit_LinkAndMailbox : ([
    (let s : State := live
     decide (modeOpen s = true) && decide (s.power.perstHigh = true)),
    (let sp : Nat := 4
     let wd : Nat := 16
     let s : State := live
     decide (modeOpen s = true) && decide (s.power.perstHigh = true) && decide (4 ≤ sp) && decide (16 ≤ wd)),
    (let sp : Nat := 0
     let wd : Nat := 0
     let s : State := live
     decide (modeOpen s = true) && decide (s.power.perstHigh = true) && decide (sp < 4 ∨ wd < 16)),
    (let s : State := live |> (fun s : State => { s with power := { s.power with perstHigh := false } })
     decide (modeOpen s = false ∨ s.power.perstHigh = false)),
    (let s : State := live
     decide (s.pcie.link = .l0)),
    (let s : State := live |> (fun s : State => { s with pcie := { s.pcie with link := .l1 } })
     decide (s.pcie.link = .l1 ∨ s.pcie.link = .l12)),
    (let s : State := live
     decide (s.pcie.link ≠ .l1) && decide (s.pcie.link ≠ .l12)),
    (let k : Sc := 0
     let s : State := live |> (fun s : State => strmMod 0 (fun c => { c with tail := if true then some 3 else none, fn := 0 }) (fset F.SC_STATE_STATE 0 2 s))
     decide ((strm k s).tail ≠ none)),
    (let c : Chan := 0
     let s : State := live |> setFlag F.DC_CTRL_MODE c true |> setFlag F.DC_STATUS_ENABLED c true |> fset F.DC_RING_HEAD_HEAD c 1
     decide (flag F.DC_CTRL_MODE c s = true) && decide (flag F.DC_STATUS_ENABLED c s = true) && decide (flag F.DC_STATUS_SHADOW_ARMED c s = false) &&
     decide (fget F.DC_RING_HEAD_HEAD c s ≠ fget F.DC_RING_TAIL_TAIL c s) && decide ((chan c s).fetchHeld = false)),
    (let fn : Fn := 0
     let s : State := live |> (fun s : State => fset F.HIF_FUNC_PM_DSTATE fn 3 { s with pcie := { s.pcie with pmeStatus := [(fn.val, true)], pmeEn := [(fn.val, true)], link := .l12 } })
     decide (Tab.get false s.pcie.pmeStatus fn = true) && decide (Tab.get false s.pcie.pmeEn fn = true) && decide (fnD0 fn s = false) &&
     decide (linkCold s = false)),
    (let fn : Fn := 0
     let s : State := live
     decide (Tab.get false s.pcie.pmeStatus fn = false ∨ Tab.get false s.pcie.pmeEn fn = false ∨ fnD0 fn s = true)),
    (let s : State := live |> setFlag F.MBX_STATUS_BUSY 0 true
     decide (Reaches 0 .MBX_CTRL 0 s) && decide (flag F.MBX_STATUS_BUSY 0 s = true)),
    (let s : State := live
     decide (Reaches 0 .MBX_CTRL 0 s) && decide (flag F.MBX_STATUS_BUSY 0 s = false) &&
     decide (fget F.MBX_REQ_LEN_LEN 0 s = 0 ∨ 16384 < fget F.MBX_REQ_LEN_LEN 0 s ∨ 16777216 < fget F.MBX_IND_LEN_LEN 0 s)),
    (let s : State := live |> fset F.MBX_REQ_LEN_LEN 0 (1)
     decide (Reaches 0 .MBX_CTRL 0 s) && decide (flag F.MBX_STATUS_BUSY 0 s = false) && decide (1 ≤ fget F.MBX_REQ_LEN_LEN 0 s) &&
     decide (fget F.MBX_REQ_LEN_LEN 0 s ≤ 16384) && decide (fget F.MBX_IND_LEN_LEN 0 s ≤ 16777216)),
    (let s : State := live |> (fun s : State => { s with tch := { s.tch with mbxOut := [put (z 64) (oct [0]) 0x18, z 3] } })
     (match s.tch.mbxOut with
       | _ :: _ => true
       | _ => false))] : List Bool).all id = true := by decide +kernel

/-- O42: the hypotheses of each of its clauses are met. -/
theorem wit_InterruptSourcesAndMasks : ([
    (let n : IntSrc := 0
     let s : State := live
     decide (srcReserved n = false) && decide (s.mode ≠ .off)),
    (let n : IntSrc := 103
     decide (srcReserved n = true)),
    (let k : Fin 128 := 0
     let s : State := live
     decide (Reaches 0 .INT_FORCE k s)),
    (let k : Fin 128 := 0
     let s : State := live
     decide (Reaches 0 .INT_MASK k s)),
    (let fn : Fn := 0
     let g : Grp := 0
     let s : State := live |> (fun s : State => setFlag F.INT_PEND_PEND 0 true (setFlag F.INT_MASK_MASK 0 false s)) |> setFlag F.INT_GRP_CFG_ENABLE g true
     let u := setFlag F.INT_GRP_CTRL_RESEND g true s
     decide (Reaches fn .INT_GRP_CTRL g s) && decide (groupLive g u = true) && decide (flag F.INT_GRP_CFG_ENABLE g s = true) &&
     decide (grpState g s = 0)),
    (let fn : Fn := 0
     let g : Grp := 0
     let s : State := live
     let u := setFlag F.INT_GRP_CTRL_RESEND g true s
     decide (Reaches fn .INT_GRP_CTRL g s) && decide (groupLive g u = false))] : List Bool).all id = true := by decide +kernel

/-- O43: the hypotheses of each of its clauses are met. -/
theorem wit_GroupsDeliverMessages : ([
    (let g : Grp := 0
     let s : State := live |> (fun s : State => fset F.INT_GRP_CFG_FUNCTION 0 0 (fset F.INT_GRP_CFG_VECTOR 0 0 (fset F.INT_GRP_STATUS_STATE 0 1 (fset F.HIF_FUNC_PM_DSTATE 0 0 { s with mode := .operate, power := { s.power with perstHigh := true }, pcie := { s.pcie with link := .l0, mse := [(0,true)], msixEn := [(0,true)], bme := [(0, false)], fnMask := [], unmasked := if true then [(0,true)] else [] } }))))
     let v := passCclk (Tab.get 0 s.ints.left g) s
     decide (grpState g s = 1) && decide (groupLive g v = false)),
    (let g : Grp := 0
     let s : State := live |> (fun s : State => fset F.INT_GRP_CFG_FUNCTION 0 0 (fset F.INT_GRP_CFG_VECTOR 0 0 (fset F.INT_GRP_STATUS_STATE 0 1 (fset F.HIF_FUNC_PM_DSTATE 0 0 { s with mode := .operate, power := { s.power with perstHigh := true }, pcie := { s.pcie with link := .l0, mse := [(0,true)], msixEn := [(0,true)], bme := [(0, false)], fnMask := [], unmasked := if true then [(0,true)] else [] } })))) |> (fun s : State => setFlag F.INT_PEND_PEND 0 true (setFlag F.INT_MASK_MASK 0 false s))
     let v := passCclk (Tab.get 0 s.ints.left g) s
     let fn := grpFn g s
     decide (grpState g s = 1) && decide (groupLive g v = true) &&
     decide ((vfOn fn v = true → flag F.INT_GRP_CFG_WAKE_ON_PENDING g s = false ∨ (fnD0 fn v = true ∧ linkCold v = false)))),
    (let g : Grp := 0
     let s : State := live
     decide (grpState g s ≠ 1)),
    (let g : Grp := 0
     let s : State := live |> (fun s : State => fset F.INT_GRP_CFG_FUNCTION 0 0 (fset F.INT_GRP_CFG_VECTOR 0 0 (fset F.INT_GRP_STATUS_STATE 0 3 (fset F.HIF_FUNC_PM_DSTATE 0 0 { s with mode := .operate, power := { s.power with perstHigh := true }, pcie := { s.pcie with link := .l0, mse := [(0,true)], msixEn := [(0,true)], bme := [(0, false)], fnMask := [], unmasked := if true then [(0,true)] else [] } })))) |> (fun s : State => { s with pcie := { s.pcie with pmeStatus := [(0,true),(1,true)], pmeEn := [(0, true),(1,true)], wakeDrive := [(0, true),(1,true)], mse := [(0, true),(1,true)], msixEn := [(0, true),(1,true)], bme := [(0, true),(1,true)], fnMask := if true then [] else [(0,true)], unmasked := if true then [(0,true),(1,true),(5,true),(1024,true)] else [] } })
     let fn := grpFn g s
     decide (grpState g s = 3) && decide (vfOn fn s = true) && decide (fnD0 fn s = true) && decide (linkCold s = false) &&
     decide (mseOf fn s = true) && decide (msixReady fn s = true) && decide (msixHeld fn (grpEntry g s) s = false)),
    (let g : Grp := 0
     let s : State := live |> (fun s : State => fset F.INT_GRP_CFG_FUNCTION 0 0 (fset F.INT_GRP_CFG_VECTOR 0 1 (fset F.INT_GRP_STATUS_STATE 0 3 (fset F.HIF_FUNC_PM_DSTATE 0 0 { s with mode := .operate, power := { s.power with perstHigh := true }, pcie := { s.pcie with link := .l0, mse := [(0,true)], msixEn := [(0,true)], bme := [(0, true)], fnMask := [], unmasked := if true then [(0,true)] else [] } }))))
     let fn := grpFn g s
     decide (grpState g s = 3) && decide (vfOn fn s = true) && decide (fnD0 fn s = true) && decide (linkCold s = false) &&
     decide (mseOf fn s = true) && decide (msixReady fn s = true) && decide (msixHeld fn (grpEntry g s) s = true)),
    (let g : Grp := 0
     let s : State := live |> (fun s : State => fset F.INT_GRP_CFG_FUNCTION 0 0 (fset F.INT_GRP_CFG_VECTOR 0 0 (fset F.INT_GRP_STATUS_STATE 0 3 (fset F.HIF_FUNC_PM_DSTATE 0 0 { s with mode := .operate, power := { s.power with perstHigh := true }, pcie := { s.pcie with link := .l0, mse := [(0,true)], msixEn := [(0,true)], bme := [(0, false)], fnMask := [], unmasked := if true then [(0,true)] else [] } }))))
     let fn := grpFn g s
     decide (grpState g s = 3) && decide (vfOn fn s = false ∨ fnD0 fn s = false ∨ linkCold s = true ∨ mseOf fn s = false ∨ msixReady fn s = false)),
    (let fn : Fn := 0
     let n : Nat := 0
     let s : State := live
     decide (busOpen s = true) && decide (s.power.configured = true) && decide (n < msixSize fn))] : List Bool).all id = true := by decide +kernel

/-- O44: the hypotheses of each of its clauses are met. -/
theorem wit_VfWritesAreDenied : ([
    (let fn : Fn := 1
     let a : RegAddr := { space := .bar0, addr := 0 }
     let s : State := live
     decide (fn.val ≠ 0) && decide (a.space = .bar0) && decide (wholeDword a = true) && decide (busOpen s = true) && decide (inSpace fn a = true) &&
     (match regAt a.addr with
       | some (r, i) => decide (modeReach true r s = true) && decide (fnReach fn true r (ownInst fn r i) s = false)
       | _ => false))] : List Bool).all id = true := by decide +kernel

/-- O45: the hypotheses of each of its clauses are met. -/
theorem wit_ReadOnlyFieldsKeepTheirValue : ([
    (let r : Reg := .GLB_ID
     let i : Nat := 0
     let f : Fld := F.GLB_MODE_MODE
     let j : Nat := 0
     decide ((∀ g ∈ r.fields, (g.acc = .RW ∨ g.acc = .W1C) → g.key i ≠ f.key j))),
    (let a : RegAddr := { space := .bar0, addr := 0 }
     let s : State := live
     decide (a.space = .bar0) && decide (wholeDword a = true) && decide (inSpace 0 a = true) &&
     (match regAt a.addr with
       | some (r, _) => decide (modeReach true r s = true) && decide (r.layout.perFn = false)
       | _ => false))] : List Bool).all id = true := by decide +kernel

/-- O46: the hypotheses of each of its clauses are met. -/
theorem wit_ReadsClearAndLatch : ([
    (let a : RegAddr := { space := .bar0, addr := 0x3800008 }
     let s : State := live
     decide (a.space = .bar0) && decide (inSpace 0 a = true) && decide (a.dwords = 1) && decide (regAt (a.addr / 4 * 4) = some (.TRC_DROPS, 0)) &&
     decide (modeReach false .TRC_DROPS s = true)),
    (let a : RegAddr := { space := .bar0, addr := 0x3003F10 }
     let i : Nat := 63
     let s : State := live
     decide (a.space = .bar0) && decide (inSpace 0 a = true) && decide (a.dwords = 1) && decide (regAt (a.addr / 4 * 4) = some (.DC_BYTES, i)) &&
     decide (modeReach false .DC_BYTES s = true)),
    (let fn : Fn := 0
     let a : RegAddr := { space := .bar2, addr := 0xFFFFFFC }
     let s : State := live
     decide (a.space = .bar2) && decide (busOpen s = true) && decide (s.power.configured = true) && decide (inSpace fn a = true) &&
     decide (a.dwords ≠ 0) && decide (pageOpen fn (a.addr / 65536) s = true) && decide (a.addr / 64 = (a.addr + 4 * a.dwords - 1) / 64))] : List Bool).all id = true := by decide +kernel

/-- O47: the hypotheses of each of its clauses are met. -/
theorem wit_AdyelRefusalsHaveNoEffect : ([
    (let a : AdyelIn := .udp 9 false (z 32)
     let s : State := live |> (fun s : State => withSec 2 (sec [] [portR 0 0 4 0 2 0xFF 1600]) (withSec 13 (sec (le 4 0x3F ++ z 28) []) (fset F.WARD_STATE_SEC_STATE 0 1 (setFlag F.WARD_STATE_ENTROPY_OK 0 true { s with mode := .configure, ward := { s.ward with gens := [(0, 1)], keys := [(0, oct [1,8,0,32] ++ z 60)] } }))))
     (match adyelTake a s with
       | some (r, _) => decide (frameOk r s = false)
       | _ => false)),
    (let a : AdyelIn := .udp 9 false (fr 0x77 false ([]) 0 true)
     let s : State := live |> (fun s : State => withSec 2 (sec [] [portR 0 0 4 0 2 0xFF 1600]) (withSec 13 (sec (le 4 0x3F ++ z 28) []) (fset F.WARD_STATE_SEC_STATE 0 1 (setFlag F.WARD_STATE_ENTROPY_OK 0 true { s with mode := .configure, ward := { s.ward with gens := [(0, 1)], keys := [(0, oct [1,8,0,32] ++ z 60)] } }))))
     (match adyelTake a s with
       | some (r, _) => decide (frameOk r s = true) && decide (opRow (frOp r.frame) = none)
       | _ => false)),
    (let a : AdyelIn := .udp 9 false (fr 0x0001 true ([]) 0 true)
     let s : State := live |> (fun s : State => withSec 2 (sec [] [portR 0 0 4 0 2 0xFF 1600]) (withSec 13 (sec (le 4 0x3F ++ z 28) []) (fset F.WARD_STATE_SEC_STATE 0 1 (setFlag F.WARD_STATE_ENTROPY_OK 0 true { s with mode := .configure, ward := { s.ward with gens := [(0, 1)], keys := [(0, oct [1,8,0,32] ++ z 60)] } }))))
     (match adyelTake a s with
       | some (r, _) => decide (frameOk r s = true) && decide (opRow (frOp r.frame) ≠ none) && decide (frCrit r.frame ≠ opCritical (frOp r.frame) s)
       | _ => false)),
    (let a : AdyelIn := .udp 9 false (fr 0x0003 false (z 4) 0 true)
     let s : State := live |> (fun s : State => withSec 2 (sec [] [portR 0 0 4 0 2 0xFF 1600]) (withSec 13 (sec (le 4 0x3F ++ z 28) []) (fset F.WARD_STATE_SEC_STATE 0 0 (setFlag F.WARD_STATE_ENTROPY_OK 0 true { s with mode := .configure, ward := { s.ward with gens := [(0, 1)], keys := [(0, oct [1,8,0,32] ++ z 60)] } }))))
     (match adyelTake a s with
       | some (r, t) =>
         let c := (0x0003, Instr.keyInfo a)
         decide (frameOk r s = true) && decide (frOp r.frame = c.1) && decide (frCrit r.frame = opCritical c.1 t) &&
         decide (cmdAllowed c.1 r.frame t = false)
       | _ => false)),
    (let a : AdyelIn := .udp 9 false (fr 0x0011 true ([]) 0 true)
     let s : State := live |> (fun s : State => withSec 2 (sec [] [portR 0 0 4 0 2 0xFF 1600]) (withSec 13 (sec (le 4 0x3F ++ z 28) []) (fset F.WARD_STATE_SEC_STATE 0 1 (setFlag F.WARD_STATE_ENTROPY_OK 0 true { s with mode := .configure, ward := { s.ward with gens := [(0, 1)], keys := [(0, oct [1,8,0,32] ++ z 60)] } }))))
     (match adyelTake a s with
       | some (r, t) =>
         let c := (0x0011, Instr.releaseOwnership a)
         let mac := adyelMac t.ward.kCmd (slice r.frame 0 (32 + frLen r.frame)) r.ind
         takenB c.1 r s t && decide (frCrit r.frame = true) && decide (t.ward.kCmd = [] ∨ mac ≠ frMac r.frame)
       | _ => false))] : List Bool).all id = true := by decide +kernel

/-- O48: the hypotheses of each of its clauses are met. -/
theorem wit_WardAndTchienCommandsTakeEffect : ([
    (let a : AdyelIn := .udp 9 false (fr 0x0001 false ([]) 0 true)
     let s : State := live |> (fun s : State => withSec 2 (sec [] [portR 0 0 4 0 2 0xFF 1600]) (withSec 13 (sec (le 4 0x3F ++ z 28) []) (fset F.WARD_STATE_SEC_STATE 0 1 (setFlag F.WARD_STATE_ENTROPY_OK 0 true { s with mode := .configure, ward := { s.ward with gens := [(0, 1)], keys := [(0, oct [1,8,0,32] ++ z 60)] } }))))
     (match adyelTake a s with
       | some (r, t) => takenB 0x0001 r s t
       | _ => false)),
    (let a : AdyelIn := .udp 9 false (fr 0x0002 false ([]) 0 true)
     let s : State := live |> (fun s : State => withSec 2 (sec [] [portR 0 0 4 0 2 0xFF 1600]) (withSec 13 (sec (le 4 0x3F ++ z 28) []) (fset F.WARD_STATE_SEC_STATE 0 1 (setFlag F.WARD_STATE_ENTROPY_OK 0 true { s with mode := .configure, ward := { s.ward with gens := [(0, 1)], keys := [(0, oct [1,8,0,32] ++ z 60)] } }))))
     (match adyelTake a s with
       | some (r, t) => takenB 0x0002 r s t
       | _ => false)),
    (let a : AdyelIn := .udp 9 false (fr 0x0003 false (oct [0,64,0,0]) 0 true)
     let s : State := live |> (fun s : State => withSec 2 (sec [] [portR 0 0 4 0 2 0xFF 1600]) (withSec 13 (sec (le 4 0x3F ++ z 28) []) (fset F.WARD_STATE_SEC_STATE 0 1 (setFlag F.WARD_STATE_ENTROPY_OK 0 true { s with mode := .configure, ward := { s.ward with gens := [(0, 1)], keys := [(0, oct [1,8,0,32] ++ z 60)] } }))))
     (match adyelTake a s with
       | some (r, t) =>
         let p := r.body
         let h := fieldLE p 0 4
         takenB 0x0003 r s t &&
         (match keyRec h t with
           | some _ => decide (p.length = 4)
           | _ => false)
       | _ => false)),
    (let a : AdyelIn := .udp 9 false (fr 0x0003 false (oct [0,0,0,0]) 0 true)
     let s : State := live |> (fun s : State => withSec 2 (sec [] [portR 0 0 4 0 2 0xFF 1600]) (withSec 13 (sec (le 4 0x3F ++ z 28) []) (fset F.WARD_STATE_SEC_STATE 0 1 (setFlag F.WARD_STATE_ENTROPY_OK 0 true { s with mode := .configure, ward := { s.ward with gens := [(0, 1)], keys := [(0, oct [1,8,0,32] ++ z 60)] } }))))
     (match adyelTake a s with
       | some (r, t) =>
         let p := r.body
         let h := fieldLE p 0 4
         takenB 0x0003 r s t && decide (keyRec h t = none ∨ p.length ≠ 4)
       | _ => false)),
    (let a : AdyelIn := .udp 9 false (fr 0x0010 false (z 4) 0 true)
     let s : State := live |> (fun s : State => withSec 2 (sec [] [portR 0 0 4 0 2 0xFF 1600]) (withSec 13 (sec (le 4 0x3F ++ z 28) []) (fset F.WARD_STATE_SEC_STATE 0 0 (setFlag F.WARD_STATE_ENTROPY_OK 0 true { s with mode := .configure, ward := { s.ward with gens := [(0, 1)], keys := [(0, oct [1,8,0,32] ++ z 60)] } }))))
     (match adyelTake a s with
       | some (r, t) =>
         let p := r.body
         takenB 0x0010 r s t &&
         (match ownCheck p t with
           | some x => decide (x.status ≠ 0)
           | _ => false)
       | _ => false)),
    (let a : AdyelIn := .udp 9 false (fr 0x0110 false ([]) 0 true)
     let s : State := live |> (fun s : State => withSec 2 (sec [] [portR 0 0 4 0 2 0xFF 1600]) (withSec 13 (sec (le 4 0x3F ++ z 28) []) (fset F.WARD_STATE_SEC_STATE 0 1 (setFlag F.WARD_STATE_ENTROPY_OK 0 true { s with mode := .configure, ward := { s.ward with gens := [(0, 1)], keys := [(0, oct [1,8,0,32] ++ z 60)] } }))))
     (match adyelTake a s with
       | some (r, t) => takenB 0x0110 r s t
       | _ => false)),
    (let a : AdyelIn := .udp 9 false (fr 0x0111 false (le 4 719 ++ le 4 64128 ++ le 4 1408) 0 true)
     let s : State := live |> (fun s : State => withSec 2 (sec [] [portR 0 0 4 0 2 0xFF 1600]) (withSec 13 (sec (le 4 0x3F ++ z 28) []) (fset F.WARD_STATE_SEC_STATE 0 1 (setFlag F.WARD_STATE_ENTROPY_OK 0 true { s with mode := .configure, ward := { s.ward with gens := [(0, 1)], keys := [(0, oct [1,8,0,32] ++ z 60)] } }))))
     (match adyelTake a s with
       | some (r, t) =>
         let p := r.body
         let n := fieldLE p 0 4
         let o := fieldLE p 4 4
         let l := fieldLE p 8 4
         takenB 0x0111 r s t && decide (p.length = 12) && decide (n < 720) && decide (1 ≤ l) && decide (l ≤ (if r.udp = none then 16320 else 1408)) &&
         decide (o + l ≤ 65536)
       | _ => false)),
    (let a : AdyelIn := .udp 9 false (fr 0x0111 false (le 4 720 ++ le 4 0 ++ le 4 1) 0 true)
     let s : State := live |> (fun s : State => withSec 2 (sec [] [portR 0 0 4 0 2 0xFF 1600]) (withSec 13 (sec (le 4 0x3F ++ z 28) []) (fset F.WARD_STATE_SEC_STATE 0 1 (setFlag F.WARD_STATE_ENTROPY_OK 0 true { s with mode := .configure, ward := { s.ward with gens := [(0, 1)], keys := [(0, oct [1,8,0,32] ++ z 60)] } }))))
     (match adyelTake a s with
       | some (r, t) =>
         let p := r.body
         let n := fieldLE p 0 4
         let o := fieldLE p 4 4
         let l := fieldLE p 8 4
         takenB 0x0111 r s t && decide (p.length = 12) && decide (720 ≤ n ∨ l < 1 ∨ (if r.udp = none then 16320 else 1408) < l ∨ 65536 < o + l)
       | _ => false)),
    (let a : AdyelIn := .udp 9 false (fr 0x0112 false ([]) 0 true)
     let s : State := live |> (fun s : State => withSec 2 (sec [] [portR 0 0 4 0 2 0xFF 1600]) (withSec 13 (sec (le 4 0x3F ++ z 28) []) (fset F.WARD_STATE_SEC_STATE 0 1 (setFlag F.WARD_STATE_ENTROPY_OK 0 true { s with mode := .configure, ward := { s.ward with gens := [(0, 1)], keys := [(0, oct [1,8,0,32] ++ z 60)] } })))) |> (fun s : State => { s with tch := { s.tch with certs := [([], z 5)] } })
     (match adyelTake a s with
       | some (r, t) =>
         let p := r.body
         takenB 0x0112 r s t &&
         (match List.find? (fun y : Bytes × Bytes => y.1 == p) t.tch.certs with
           | some _ => true
           | _ => false)
       | _ => false)),
    (let a : AdyelIn := .udp 9 false (fr 0x0112 false ([]) 0 true)
     let s : State := live |> (fun s : State => withSec 2 (sec [] [portR 0 0 4 0 2 0xFF 1600]) (withSec 13 (sec (le 4 0x3F ++ z 28) []) (fset F.WARD_STATE_SEC_STATE 0 1 (setFlag F.WARD_STATE_ENTROPY_OK 0 true { s with mode := .configure, ward := { s.ward with gens := [(0, 1)], keys := [(0, oct [1,8,0,32] ++ z 60)] } }))))
     (match adyelTake a s with
       | some (r, t) =>
         let p := r.body
         takenB 0x0112 r s t && decide ((∀ x ∈ t.tch.certs, x.1 ≠ p))
       | _ => false)),
    (let a : AdyelIn := .udp 9 false (fr 0x0113 false ([]) 0 true)
     let s : State := live |> (fun s : State => withSec 2 (sec [] [portR 0 0 4 0 2 0xFF 1600]) (withSec 13 (sec (le 4 0x3F ++ z 28) []) (fset F.WARD_STATE_SEC_STATE 0 1 (setFlag F.WARD_STATE_ENTROPY_OK 0 true { s with mode := .configure, ward := { s.ward with gens := [(0, 1)], keys := [(0, oct [1,8,0,32] ++ z 60)] } }))))
     (match adyelTake a s with
       | some (r, t) => takenB 0x0113 r s t
       | _ => false)),
    (let a : AdyelIn := .udp 9 false (fr 0x0100 false ([]) 0 true)
     let s : State := live |> (fun s : State => withSec 2 (sec [] [portR 0 0 4 0 2 0xFF 1600]) (withSec 13 (sec (le 4 0x3F ++ z 28) []) (fset F.WARD_STATE_SEC_STATE 0 1 (setFlag F.WARD_STATE_ENTROPY_OK 0 true { s with mode := .configure, ward := { s.ward with gens := [(0, 1)], keys := [(0, oct [1,8,0,32] ++ z 60)] } }))))
     (match adyelTake a s with
       | some (r, t) => takenB 0x0100 r s t
       | _ => false)),
    (let a : AdyelIn := .udp 9 false (fr 0x0121 false ([]) 0 true)
     let s : State := live |> (fun s : State => withSec 2 (sec [] [portR 0 0 4 0 2 0xFF 1600]) (withSec 13 (sec (le 4 0x3F ++ z 28) []) (fset F.WARD_STATE_SEC_STATE 0 1 (setFlag F.WARD_STATE_ENTROPY_OK 0 true { s with mode := .configure, ward := { s.ward with gens := [(0, 1)], keys := [(0, oct [1,8,0,32] ++ z 60)] } }))))
     (match adyelTake a s with
       | some (r, t) => takenB 0x0121 r s t
       | _ => false)),
    (let a : AdyelIn := .udp 9 false (fr 0x0042 false ([]) 0 true)
     let s : State := live |> (fun s : State => withSec 2 (sec [] [portR 0 0 4 0 2 0xFF 1600]) (withSec 13 (sec (le 4 0x3F ++ z 28) []) (fset F.WARD_STATE_SEC_STATE 0 1 (setFlag F.WARD_STATE_ENTROPY_OK 0 true { s with mode := .configure, ward := { s.ward with gens := [(0, 1)], keys := [(0, oct [1,8,0,32] ++ z 60)] } }))))
     (match adyelTake a s with
       | some (r, t) => takenB 0x0042 r s t
       | _ => false)),
    (let a : AdyelIn := .udp 9 false (fr 0x0051 false (z 20) 0 true)
     let s : State := live |> (fun s : State => withSec 2 (sec [] [portR 0 0 4 0 2 0xFF 1600]) (withSec 13 (sec (le 4 0x3F ++ z 28) []) (fset F.WARD_STATE_SEC_STATE 0 1 (setFlag F.WARD_STATE_ENTROPY_OK 0 true { s with mode := .configure, ward := { s.ward with gens := [(0, 1)], keys := [(0, oct [1,8,0,32] ++ z 60)] } }))))
     (match adyelTake a s with
       | some (r, t) => takenB 0x0051 r s t
       | _ => false)),
    (let a : AdyelIn := .udp 9 false (fr 0x0050 false (oct [0,64,0,0,1,0,0,0]) 0 true)
     let s : State := live |> (fun s : State => withSec 2 (sec [] [portR 0 0 4 0 2 0xFF 1600]) (withSec 13 (sec (le 4 0x3F ++ z 28) []) (fset F.WARD_STATE_SEC_STATE 0 1 (setFlag F.WARD_STATE_ENTROPY_OK 0 true { s with mode := .configure, ward := { s.ward with gens := [(0, 1)], keys := [(0, oct [1,8,0,32] ++ z 60)] } }))))
     (match adyelTake a s with
       | some (r, t) =>
         let p := r.body
         takenB 0x0050 r s t && decide (p.length ≠ 8 ∨ fieldLE p 6 2 ≠ 0 ∨ portMacsec t.cfg (byteAt p 4) = false)
       | _ => false)),
    (let a : AdyelIn := .udp 9 false (fr 0x0050 false (oct [0,64,0,0,0,0,0,0]) 0 true)
     let s : State := live |> (fun s : State => withSec 2 (sec [] [portR 0 0 4 0 2 0xFF 1600]) (withSec 13 (sec (le 4 0x3F ++ z 28) []) (fset F.WARD_STATE_SEC_STATE 0 1 (setFlag F.WARD_STATE_ENTROPY_OK 0 true { s with mode := .configure, ward := { s.ward with gens := [(0, 1)], keys := [(0, oct [1,1,0,32] ++ z 60)] } }))))
     (match adyelTake a s with
       | some (r, t) =>
         let p := r.body
         takenB 0x0050 r s t && decide (p.length = 8) && decide (fieldLE p 6 2 = 0) && decide (portMacsec t.cfg (byteAt p 4) = true) &&
         decide (keyUsable (fieldLE p 0 4) useCak 0 t = false)
       | _ => false)),
    (let a : AdyelIn := .udp 9 false (fr 0x0050 false (oct [0,64,0,0,0,0,0,0]) 0 true)
     let s : State := live |> (fun s : State => withSec 2 (sec [] [portR 0 0 4 0 2 0xFF 1600]) (withSec 13 (sec (le 4 0x3F ++ z 28) []) (fset F.WARD_STATE_SEC_STATE 0 1 (setFlag F.WARD_STATE_ENTROPY_OK 0 true { s with mode := .configure, ward := { s.ward with gens := [(0, 1)], keys := [(0, oct [1,8,0,32] ++ z 60)] } }))))
     (match adyelTake a s with
       | some (r, t) =>
         let p := r.body
         takenB 0x0050 r s t && decide (p.length = 8) && decide (fieldLE p 6 2 = 0) && decide (portMacsec t.cfg (byteAt p 4) = true) &&
         decide (keyUsable (fieldLE p 0 4) useCak 0 t = true)
       | _ => false))] : List Bool).all id = true := by decide +kernel

def crit_WardAndTchienCommandsTakeEffect : List CritCase := [
    ⟨0x0011, [], 2, own |> withWard (fun w => { w with storeEpoch := 255 }), fun _ t =>
      decide (t.ward.storeEpoch < 256)⟩,
    ⟨0x0012, [], 2, own, fun _ _ => true⟩,
    ⟨0x0011, [], 2, own |> withWard (fun w => { w with storeEpoch := 256 }), fun r t =>
      let p := r.body
      let c := ((0x0011, 0) : Nat × Nat)
      decide (256 ≤ t.ward.storeEpoch) && decide ((c.1 = 0x0020 → p.length = 100 ∧ byteAt p 0 ≤ 7 ∧ byteAt p 1 ≤ 1 ∧ fieldLE p 2 2 = 0))⟩,
    ⟨0x0020, oct [7, 1, 0, 0] ++ z 96, 2, own |> withWard (fun w => { w with storeEpoch := 255 }), fun r t =>
      let p := r.body
      decide (p.length = 100) && decide (byteAt p 0 ≤ 7) && decide (byteAt p 1 ≤ 1) && decide (fieldLE p 2 2 = 0) && decide (t.ward.storeEpoch < 256)⟩,
    ⟨0x0021, put (put (z 88) (oct [1, 7]) 0) (oct [72]) 8, 2, own, fun r t =>
      let p := r.body
      let u := critStart r t
      decide (p.length = 88) && decide (byteAt p 0 ≤ 1) && decide (fieldLE p 2 2 = 0) && decide (fieldLE p 8 2 = 72) && decide (fieldLE p 10 6 = 0) &&
      (match importKek (fieldLE p 4 4) u with
        | some _ => true
        | _ => false)⟩,
    ⟨0x0022, oct [0, 64, 0, 0, 0, 1, 0, 0], 2, own, fun r t =>
      let p := r.body
      let u := critStart r t
      let h := fieldLE p 0 4
      decide (p.length = 8) && decide (byteAt p 5 ≤ 1) && decide (fieldLE p 6 2 = 0) && decide (h ≠ 0) && decide (keyRec h u ≠ none) &&
      decide ((keyUsers h u = 0 ∨ byteAt p 5 = 1))⟩,
    ⟨0x0022, oct [0, 64, 0, 0, 0, 0, 0, 0], 2, withSec 2 (sec [] [portR 0 0 4 0 2 0xFF 1600]) { own with ports := { own.ports with cak := [(0, 16384, 1)] } }, fun r t =>
      let p := r.body
      let u := critStart r t
      let h := fieldLE p 0 4
      decide (p.length = 8) && decide (byteAt p 5 ≤ 1) && decide (fieldLE p 6 2 = 0) && decide (h ≠ 0) && decide (keyRec h u ≠ none) &&
      decide (keyUsers h u ≠ 0) && decide (byteAt p 5 = 0)⟩,
    ⟨0x0022, oct [0, 128, 0, 0, 0, 0, 0, 0], 2, own, fun r t =>
      let p := r.body
      let u := critStart r t
      let h := fieldLE p 0 4
      decide (p.length = 8) && decide (byteAt p 5 ≤ 1) && decide (fieldLE p 6 2 = 0) && decide (h ≠ 0) && decide (keyRec h u = none)⟩,
    ⟨0x0022, oct [0, 0, 0, 0, 7, 0, 0, 0], 2, own |> withWard (fun w => { w with enc := [(7, z 64)], storeEpoch := 255 }), fun r t =>
      let p := r.body
      let u := critStart r t
      let h := fieldLE p 0 4
      decide (p.length = 8) && decide (byteAt p 5 ≤ 1) && decide (fieldLE p 6 2 = 0) && decide (h = 0) && decide (byteAt p 4 ≤ 7) &&
      decide (Tab.find? u.ward.enc (byteAt p 4) ≠ none) && decide (u.ward.storeEpoch < 256)⟩,
    ⟨0x0041, z 8, 2, own |> setFlag F.IMG_STATUS_LOADED 0 false, fun _ t =>
      decide (loaded t = false ∨ spFlag t.cfg 0 = false)⟩,
    ⟨0x0041, oct [3, 0, 0, 0] ++ le 4 86400, 2, own, fun r t =>
      let p := r.body
      decide (loaded t = true) && decide (spFlag t.cfg 0 = true) && decide (p.length = 8) && decide (byteAt p 0 ≤ 3) && decide (fieldLE p 1 3 = 0) &&
      decide (60 ≤ fieldLE p 4 4) && decide (fieldLE p 4 4 ≤ 86400)⟩,
    ⟨0x0041, oct [0, 0, 0, 0] ++ le 4 59, 2, own, fun r t =>
      let p := r.body
      decide (loaded t = true) && decide (spFlag t.cfg 0 = true) &&
      decide (p.length ≠ 8 ∨ 3 < byteAt p 0 ∨ fieldLE p 1 3 ≠ 0 ∨ fieldLE p 4 4 < 60 ∨ 86400 < fieldLE p 4 4)⟩,
    ⟨0x0101, le 2 1680 ++ le 2 1760 ++ oct [10, 0, 0, 0], 2, own, fun r _ =>
      let p := r.body
      let w := fieldLE p 0 2
      let c := fieldLE p 2 2
      let v := byteAt p 4
      decide (p.length = 8) && decide (fieldLE p 5 3 = 0) && decide (960 ≤ w) && decide (w ≤ 1680) && decide (1520 ≤ c) && decide (c ≤ 1920) &&
      decide (w + 80 ≤ c) && decide (2 ≤ v) && decide (v ≤ 10)⟩,
    ⟨0x0101, le 2 1680 ++ le 2 1759 ++ oct [10, 0, 0, 0], 2, own, fun r _ =>
      let p := r.body
      let w := fieldLE p 0 2
      let c := fieldLE p 2 2
      let v := byteAt p 4
      decide (p.length = 8) && decide (fieldLE p 5 3 = 0) && decide (w < 960 ∨ 1680 < w ∨ c < 1520 ∨ 1920 < c ∨ c < w + 80 ∨ v < 2 ∨ 10 < v)⟩]
theorem wit_WardAndTchienCommandsTakeEffect_critical : ∀ c ∈ crit_WardAndTchienCommandsTakeEffect, ∃ a r, adyelTake a c.st = some (r, c.st) ∧ Taken c.op a r c.st c.st ∧
    Authentic r c.st ∧ c.q r c.st = true := crit_cases _ (by decide +kernel)

/-- O49: the hypotheses of each of its clauses are met. -/
theorem wit_SvnCommitRaisesOneFloor : ([
    (let i : FwImage := ⟨0,1,2,3,true,z 4,z 5⟩
     let s : State := live |> (fun s : State => { s with ward := { s.ward with fwSvn := 1 } })
     decide (i.svn < s.ward.fwSvn))] : List Bool).all id = true := by decide +kernel

def crit_SvnCommitRaisesOneFloor : List CritCase := [
    ⟨0x0040, oct [2, 3], 2, own, fun r _ =>
      decide (r.body.length ≠ 2 ∨ 1 < byteAt r.body 0)⟩,
    ⟨0x0040, oct [0, 0], 2, own, fun r t =>
      let v := byteAt r.body 1
      decide (r.body.length = 2) && decide (byteAt r.body 0 = 0) && decide ((v < 1 ∨ 64 < v ∨ v ≤ t.ward.fwSvn ∨ fget F.WARD_SVN_FW_RUN 0 t < v))⟩,
    ⟨0x0040, oct [0, 64], 2, own |> fset F.WARD_SVN_FW_RUN 0 64 |> withWard (fun w => { w with fwSvn := 63 }), fun r t =>
      let v := byteAt r.body 1
      decide (r.body.length = 2) && decide (byteAt r.body 0 = 0) && decide (1 ≤ v) && decide (v ≤ 64) && decide (t.ward.fwSvn < v) &&
      decide (v ≤ fget F.WARD_SVN_FW_RUN 0 t)⟩,
    ⟨0x0040, oct [1, 65], 2, own, fun r t =>
      let v := byteAt r.body 1
      decide (r.body.length = 2) && decide (byteAt r.body 0 = 1) &&
      decide ((v < 1 ∨ 64 < v ∨ v ≤ t.ward.patchSvn ∨ fget F.WARD_SVN_PATCH_RUN 0 t < v))⟩,
    ⟨0x0040, oct [1, 64], 2, own |> fset F.WARD_SVN_PATCH_RUN 0 64 |> withWard (fun w => { w with patchSvn := 63 }), fun r t =>
      let v := byteAt r.body 1
      decide (r.body.length = 2) && decide (byteAt r.body 0 = 1) && decide (1 ≤ v) && decide (v ≤ 64) && decide (t.ward.patchSvn < v) &&
      decide (v ≤ fget F.WARD_SVN_PATCH_RUN 0 t)⟩]
theorem wit_SvnCommitRaisesOneFloor_critical : ∀ c ∈ crit_SvnCommitRaisesOneFloor, ∃ a r, adyelTake a c.st = some (r, c.st) ∧ Taken c.op a r c.st c.st ∧
    Authentic r c.st ∧ c.q r c.st = true := crit_cases _ (by decide +kernel)

/-- O50: the hypotheses of each of its clauses are met. -/
theorem wit_EntropyGrantsAndAssociationKeys : ([
    (let s : State := live
     decide (haspLive 1 s = true) && decide (haspCause 1 s = false)),
    (let s : State := live |> haspLevel 1 true
     decide (haspCause 1 s = true)),
    (let s : State := live |> setFlag F.WARD_STATE_OBSERVE 0 true
     decide (granted s = true)),
    (let p : Port := (0 : Fin 256)
     let k : SakIn := ⟨some (z 8), 3, true, 2^32 - 1, 1⟩
     let s : State := live |> (fun s : State => withSec 2 (sec [] [portR 0 0 4 0 2 0xFF 1600]) { s with ports := { s.ports with cak := [(0, 16384, 1)], secChans := (List.range 512).map (fun i => (i, { chanNew 1 none with rx := true, sci := oct [i % 256, i / 256, 1] })) }, ward := { s.ward with gens := [(0, 1)], keys := [(0, oct [1,8,0,32] ++ z 60)] } })
     decide (portMacsec s.cfg p = true) && decide (portCak p s ≠ none) && decide (chanFor p k.rxSci s = none)),
    (let p : Port := (0 : Fin 256)
     let k : SakIn := ⟨some (z 8), 3, true, 2^32 - 1, 1⟩
     let s : State := live |> (fun s : State => withSec 2 (sec [] [portR 0 0 4 0 2 0xFF 1600]) { s with ports := { s.ports with cak := [(0, 16384, 1)] }, ward := { s.ward with gens := [(0, 1)], keys := [(0, oct [1,8,0,32] ++ z 60)] } })
     decide (portMacsec s.cfg p = true) && decide (portCak p s ≠ none) && decide (k.received = true) &&
     decide (Tab.find? s.ports.sak (p.val * 8) = none)),
    (let p : Port := (0 : Fin 256)
     let k : SakIn := ⟨some (z 8), 3, true, 2^32 - 1, 1⟩
     let s : State := live |> (fun s : State => withSec 2 (sec [] [portR 0 0 4 0 2 0xFF 1600]) { s with ports := { s.ports with cak := [(0, 16384, 1)], sak := [(0, z 44)] }, ward := { s.ward with gens := [(0, 1)], keys := [(0, oct [1,8,0,32] ++ z 60)] } })
     decide (portMacsec s.cfg p = true) && decide (portCak p s ≠ none) &&
     (match chanFor p k.rxSci s with
       | some _ =>
         decide (k.received = true) &&
         (match Tab.find? s.ports.sak (p.val * 8) with
           | some _ => true
           | _ => false)
       | _ => false)),
    (let p : Port := (0 : Fin 256)
     let k : SakIn := ⟨none, 0, false, 0, 1⟩
     let s : State := live |> (fun s : State => withSec 2 (sec [] [portR 0 0 4 0 2 0xFF 1600]) { s with ports := { s.ports with cak := [(0, 16384, 1)] }, ward := { s.ward with gens := [(0, 1)], keys := [(0, oct [1,8,0,32] ++ z 60)] } }) |> setFlag F.WARD_STATE_ENTROPY_OK 0 true
     decide (portMacsec s.cfg p = true) && decide (portCak p s ≠ none) &&
     (match chanFor p k.rxSci s with
       | some _ =>
         decide (k.received = false) && decide (Tab.find? s.ports.sak (p.val * 8 + 1 + k.an) = none) &&
         decide (flag F.WARD_STATE_ENTROPY_OK 0 s = true)
       | _ => false))] : List Bool).all id = true := by decide +kernel

/-- O51: the hypotheses of each of its clauses are met. -/
theorem wit_AttestationConsoleAndScanAnswer : ([
    (let q : SpdmIn := ⟨false,[]⟩
     let s : State := live
     decide (spdmOpen q.doe s = true)),
    (let q : SpdmIn := ⟨false,[]⟩
     let s : State := live
     decide (spdmOpen q.doe s = true)),
    (let q : SpdmIn := ⟨false,[]⟩
     let s : State := live
     decide (spdmOpen q.doe s = true)),
    (let s : State := live
     decide (tchRuns s = true)),
    (let s : State := live |> (fun s : State => setFlag F.WARD_STATE_CONSOLE 0 true s)
     decide (consoleOpen s = true)),
    (let a : Nat := 0
     let s : State := live |> (fun s : State => setFlag F.WARD_STATE_CONSOLE 0 true s)
     decide (consoleOpen s = true) &&
     (match regAt a with
       | some (r, _) => decide (consoleReg a = true) && decide (modeServes false r s = true)
       | _ => false)),
    (let a : Nat := 0
     let s : State := live |> (fun s : State => setFlag F.WARD_STATE_CONSOLE 0 true s)
     decide (consoleOpen s = true) &&
     (match regAt a with
       | some (r, _) => decide (consoleReg a = true) && decide (modeServes true r s = true)
       | _ => false)),
    (let o : Nat := 0
     let l : Nat := 0
     let s : State := live |> (fun s : State => setFlag F.WARD_STATE_CONSOLE 0 true s)
     decide (consoleOpen s = true) && decide (o < 35) && decide (l < 8)),
    (let s : State := live |> (fun s : State => { s with mode := .boot }) |> setFlag F.GLB_MODE_BOARD_TEST 0 true
     decide (s.mode = .boot) && decide (flag F.GLB_MODE_BOARD_TEST 0 s = true) && decide (s.power.inReset = false)),
    (let s : State := live |> (fun s : State => { s with mode := .boot }) |> setFlag F.GLB_MODE_BOARD_TEST 0 true
     decide (s.mode = .boot) && decide (flag F.GLB_MODE_BOARD_TEST 0 s = true) && decide (s.power.inReset = false))] : List Bool).all id = true := by decide +kernel

/-- O52: the hypotheses of each of its clauses are met. -/
theorem wit_ImagesAndFirmware : ([
    (let a : AdyelIn := .udp 9 false (fr 0x0030 false (z 96) 0 true)
     let s : State := live |> (fun s : State => withSec 2 (sec [] [portR 0 0 4 0 2 0xFF 1600]) (withSec 13 (sec (le 4 0x3F ++ z 28) []) (fset F.WARD_STATE_SEC_STATE 0 1 (setFlag F.WARD_STATE_ENTROPY_OK 0 true { s with mode := .configure, ward := { s.ward with gens := [(0, 1)], keys := [(0, oct [1,8,0,32] ++ z 60)] } })))) |> fset F.IMG_STATUS_PHASE 0 1
     (match adyelTake a s with
       | some (r, t) =>
         let c := (0x0030, Instr.imageLoad a)
         takenB c.1 r s t && decide (fget F.IMG_STATUS_PHASE 0 t ≠ 0)
       | _ => false)),
    (let a : AdyelIn := .udp 9 false (fr 0x0030 false (z 96) 0 true)
     let s : State := live |> (fun s : State => withSec 2 (sec [] [portR 0 0 4 0 2 0xFF 1600]) (withSec 13 (sec (le 4 0x3F ++ z 28) []) (fset F.WARD_STATE_SEC_STATE 0 1 (setFlag F.WARD_STATE_ENTROPY_OK 0 true { s with mode := .configure, ward := { s.ward with gens := [(0, 1)], keys := [(0, oct [1,8,0,32] ++ z 60)] } }))))
     (match adyelTake a s with
       | some (r, t) =>
         let c := (0x0030, Instr.imageLoad a)
         takenB c.1 r s t && decide (fget F.IMG_STATUS_PHASE 0 t = 0)
       | _ => false)),
    (let a : AdyelIn := .udp 9 false (fr 0x0120 false (oct [1,0,0,0]) 0 true)
     let w : Bool := false
     let i : Option FwImage := none
     let s : State := live |> (fun s : State => withSec 2 (sec [] [portR 0 0 4 0 2 0xFF 1600]) (withSec 13 (sec (le 4 0x3F ++ z 28) []) (fset F.WARD_STATE_SEC_STATE 0 1 (setFlag F.WARD_STATE_ENTROPY_OK 0 true { s with mode := .configure, ward := { s.ward with gens := [(0, 1)], keys := [(0, oct [1,8,0,32] ++ z 60)] } })))) |> (fun s : State => let f : Bytes := fr 0x0120 false (oct [1,0,0,0]) 0 true |> fun f => put f (oct [4]) 3 |> fun f => put f (oct [20]) 12; fset F.WARD_STATE_SEC_STATE 0 0 (fset F.MBX_IND_LEN_LEN 0 20 (fset F.MBX_REQ_LEN_LEN 0 f.length { s with mode := .configure, tch := { s.tch with mbxReq := f, mbxWaiting := true } })))
     (match adyelTake a s with
       | some (r, t) =>
         takenB 0x0120 r s t && decide (frCrit r.frame = false) &&
         (match fwCheck r w i t with
           | .inl _ => true
           | _ => false)
       | _ => false)),
    (let a : AdyelIn := .mailbox (z 20)
     let w : Bool := true
     let i : Option FwImage := some ⟨3,2,2,3,true,z 4,z 5⟩
     let s : State := live |> (fun s : State => let f : Bytes := fr 0x0120 false (oct [1,0,0,0]) 0 true |> fun f => put f (oct [4]) 3 |> fun f => put f (oct [20]) 12; fset F.MBX_IND_LEN_LEN 0 20 (fset F.MBX_REQ_LEN_LEN 0 f.length { s with mode := .operate, tch := { s.tch with mbxReq := f, mbxWaiting := true } }))
     (match adyelTake a s with
       | some (r, t) =>
         takenB 0x0120 r s t && decide (frCrit r.frame = false) &&
         (match fwCheck r w i t with
           | .inr _ => true
           | _ => false)
       | _ => false)),
    (let a : AdyelIn := .mailbox (z 20)
     let w : Bool := true
     let i : Option FwImage := some ⟨3,2,2,3,true,z 4,z 5⟩
     let s : State := live |> (fun s : State => let f : Bytes := fr 0x0120 false (oct [1,0,0,0]) 0 true |> fun f => put f (oct [4]) 3 |> fun f => put f (oct [20]) 12; fset F.MBX_IND_LEN_LEN 0 20 (fset F.MBX_REQ_LEN_LEN 0 f.length { s with mode := .operate, tch := { s.tch with mbxReq := f, mbxWaiting := true } }))
     (match adyelTake a s with
       | some (r, t) =>
         takenB 0x0120 r s t && decide (frCrit r.frame = false) &&
         (match fwCheck r w i t with
           | .inr _ => true
           | _ => false)
       | _ => false)),
    (let a : AdyelIn := .udp 9 false (fr 0x0122 false ([]) 0 true)
     let s : State := live |> (fun s : State => withSec 2 (sec [] [portR 0 0 4 0 2 0xFF 1600]) (withSec 13 (sec (le 4 0x3F ++ z 28) []) (fset F.WARD_STATE_SEC_STATE 0 0 (setFlag F.WARD_STATE_ENTROPY_OK 0 true { s with mode := .configure, ward := { s.ward with gens := [(0, 1)], keys := [(0, oct [1,8,0,32] ++ z 60)] } }))))
     (match adyelTake a s with
       | some (r, t) => takenB 0x0122 r s t && decide (frCrit r.frame = false)
       | _ => false)),
    (let a : AdyelIn := .udp 9 false (fr 0x0130 false (z 32) 0 true)
     let s : State := live |> (fun s : State => withSec 2 (sec [] [portR 0 0 4 0 2 0xFF 1600]) (withSec 13 (sec (le 4 0x3F ++ z 28) []) (fset F.WARD_STATE_SEC_STATE 0 0 (setFlag F.WARD_STATE_ENTROPY_OK 0 true { s with mode := .configure, ward := { s.ward with gens := [(0, 1)], keys := [(0, oct [1,8,0,32] ++ z 60)] } }))))
     (match adyelTake a s with
       | some (r, t) =>
         let p := r.body
         takenB 0x0130 r s t && decide (p.length = 32) && decide (byteAt p 4 ≤ 32) && decide (fieldLE p 5 2 ≤ 4094) && decide (byteAt p 23 ≤ 128) &&
         decide (fieldLE p 24 8 = 0) && decide (frCrit r.frame = false)
       | _ => false)),
    (let a : AdyelIn := .udp 9 false (fr 0x0130 false (put (z 32) (oct [33]) 4) 0 true)
     let s : State := live |> (fun s : State => withSec 2 (sec [] [portR 0 0 4 0 2 0xFF 1600]) (withSec 13 (sec (le 4 0x3F ++ z 28) []) (fset F.WARD_STATE_SEC_STATE 0 0 (setFlag F.WARD_STATE_ENTROPY_OK 0 true { s with mode := .configure, ward := { s.ward with gens := [(0, 1)], keys := [(0, oct [1,8,0,32] ++ z 60)] } }))))
     (match adyelTake a s with
       | some (r, t) =>
         let p := r.body
         takenB 0x0130 r s t && decide (p.length ≠ 32 ∨ 32 < byteAt p 4 ∨ 4094 < fieldLE p 5 2 ∨ 128 < byteAt p 23 ∨ fieldLE p 24 8 ≠ 0) &&
         decide (frCrit r.frame = false)
       | _ => false)),
    (let s : State := live |> (fun s : State => fset F.IMG_STATUS_PHASE 0 1 { s with tch := { s.tch with imgReply := some (some 3, put (z 40) (oct [0x30]) 4) } })
     decide (validating false s = true) &&
     (match validate s.loader.image false s with
       | .inl _ => true
       | _ => false)),
    (let s : State := live |> (fun s : State => fset F.IMG_STATUS_PHASE 0 1 { s with tch := { s.tch with imgReply := some (some 3, put (z 40) (oct [0x31]) 4) } })
     decide (validating true s = true) &&
     (match validate s.loader.image true s with
       | .inl _ => true
       | _ => false)),
    (let s : State := live |> setFlag F.IMG_STATUS_DELTA_PENDING 0 true |> (fun s : State => { s with loader := { s.loader with applySeen := true } })
     decide (flag F.IMG_STATUS_DELTA_PENDING 0 s = true) && decide (s.loader.applySeen = true)),
    (let s : State := live |> setFlag F.IMG_STATUS_DELTA_PENDING 0 true
     decide (flag F.IMG_STATUS_DELTA_PENDING 0 s = true) && decide (s.loader.applySeen = false)),
    (let s : State := live
     decide (s.power.held = none) && decide (s.power.heldConfigure = false))] : List Bool).all id = true := by decide +kernel

def crit_ImagesAndFirmware : List CritCase := [
    ⟨0x0120, oct [1, 0, 0, 0], 2, own, fun r t =>
      let w : Bool := true
      let i : Option FwImage := none
      let u := critStart r t
      (match fwCheck r w i u with
        | .inl _ => true
        | _ => false)⟩,
    ⟨0x0122, [], 2, own, fun _ _ => true⟩,
    ⟨0x0130, put (z 32) (oct [32, 0xFE, 0x0F]) 4, 2, own, fun r _ =>
      let p := r.body
      decide (p.length = 32) && decide (byteAt p 4 ≤ 32) && decide (fieldLE p 5 2 ≤ 4094) && decide (byteAt p 23 ≤ 128) && decide (fieldLE p 24 8 = 0)⟩]
theorem wit_ImagesAndFirmware_critical : ∀ c ∈ crit_ImagesAndFirmware, ∃ a r, adyelTake a c.st = some (r, c.st) ∧ Taken c.op a r c.st c.st ∧
    Authentic r c.st ∧ c.q r c.st = true := crit_cases _ (by decide +kernel)

/-- O53: the hypotheses of each of its clauses are met. -/
theorem wit_HaspLatchesMergesAndClears : ([
    (let n : HaspSrc := (0 : Fin 64)
     let d : Byte := 0#8
     let s : State := live
     decide (haspLive n s = true) && decide (n.val < 56) && decide (haspCondition n d.toNat = false)),
    (let n : HaspSrc := 1
     let d : Byte := 0#8
     let s : State := live |> haspLevel n true
     decide (haspLive n s = true) && decide (n.val < 56) && decide (haspCondition n d.toNat = true) && decide (haspCause n s = true)),
    (let n : HaspSrc := 2
     let d : Byte := 0#8
     let s : State := live
     decide (haspLive n s = true) && decide (n.val < 56) && decide (haspCondition n d.toNat = true) && decide (haspCause n s = false) &&
     decide (n.val ≠ 1)),
    (let n : Nat := 0
     let s : State := live
     decide (n < 56) && decide (fget F.HASP_SRC_CLASS_CLASS n s ≤ 2) && decide (fget F.HASP_SRC_CLASS_REACTION n s < 2) &&
     decide (haspIsSet n s = false) && decide (haspForced n s = false)),
    (let n : Nat := 0
     let s : State := live
     decide (n < 56) && decide (fget F.HASP_SRC_CLASS_CLASS n s ≤ 2) && decide (fget F.HASP_SRC_CLASS_REACTION n s < 2) &&
     decide (haspIsSet n s = false) && decide (haspForced n s = false) && decide (fget F.HASP_SRC_WINDOW_N n s = 0)),
    (let n : Nat := 0
     let s : State := live |> fset F.HASP_SRC_WINDOW_N n 1
     decide (n < 56) && decide (fget F.HASP_SRC_CLASS_CLASS n s ≤ 2) && decide (fget F.HASP_SRC_CLASS_REACTION n s < 2) &&
     decide (haspIsSet n s = false) && decide (haspForced n s = false) && decide (fget F.HASP_SRC_WINDOW_N n s ≠ 0)),
    (let n : Nat := 0
     let s : State := live
     decide (n < 56) && decide (fget F.HASP_SRC_CLASS_CLASS n s ≤ 2) && decide (fget F.HASP_SRC_CLASS_REACTION n s < 2) &&
     decide (haspIsSet n s = false) && decide (haspForced n s = false) &&
     decide (fget F.HASP_SRC_CLASS_CLASS n s ≤ 1 ∨ fget F.HASP_SRC_WINDOW_N n s = 0)),
    (let n : Nat := 0
     let s : State := live
     decide (n < 56) && decide (fget F.HASP_SRC_CLASS_CLASS n s ≤ 2) && decide (fget F.HASP_SRC_CLASS_REACTION n s < 2) &&
     decide (haspIsSet n s = false) && decide (haspForced n s = false) && decide (fget F.HASP_SRC_WINDOW_N n s = 0)),
    (let n : Nat := 0
     let s : State := live
     decide (n < 56) && decide (fget F.HASP_SRC_CLASS_CLASS n s ≤ 2) && decide (fget F.HASP_SRC_CLASS_REACTION n s < 2) &&
     decide (haspIsSet n s = false) && decide (haspForced n s = false) && decide (haspSetList s = [])),
    (let n : Nat := 0
     let m : Nat := 1
     let s : State := live
     decide (n < 56) && decide (fget F.HASP_SRC_CLASS_CLASS n s ≤ 2) && decide (fget F.HASP_SRC_CLASS_REACTION n s < 2) &&
     decide (haspIsSet n s = false) && decide (haspForced n s = false) && decide (m ≠ n)),
    (let n : Nat := 0
     let s : State := live |> setFlag F.HASP_SRC_STATE_SET n true
     decide (n < 56) && decide (fget F.HASP_SRC_WINDOW_N n s = 0) && decide (fget F.HASP_SRC_CLASS_REACTION n s < 2) && decide (haspIsSet n s = true)),
    (let n : Nat := 0
     let s : State := live |> fset F.HASP_SRC_CLASS_CLASS n (4)
     decide (n < 56) && decide (fget F.HASP_SRC_CLASS_CLASS n s = 4) && decide (fget F.HASP_SRC_CLASS_REACTION n s < 2) &&
     decide (haspIsSet n s = false) && decide (s.mode = .configure ∨ s.mode = .operate)),
    (let n : Nat := 0
     let s : State := live |> fset F.HASP_SRC_CLASS_CLASS n (4)
     decide (n < 56) && decide (fget F.HASP_SRC_CLASS_CLASS n s = 4) && decide (fget F.HASP_SRC_CLASS_REACTION n s < 2) &&
     decide (haspIsSet n s = false) && decide (s.mode = .configure ∨ s.mode = .operate) && decide (flag F.HASP_PINS_LOCK_VALID 0 s = false)),
    (let n : Nat := 0
     let s : State := live |> fset F.HASP_SRC_CLASS_CLASS n (4) |> (fun s : State => { s with mode := .boot })
     decide (n < 56) && decide (fget F.HASP_SRC_CLASS_CLASS n s = 4) && decide (fget F.HASP_SRC_CLASS_REACTION n s < 2) &&
     decide (haspIsSet n s = false) && decide (s.mode = .boot)),
    (let n : HaspSrc := (0 : Fin 64)
     let s : State := live |> haspLevel n true
     decide (haspCause n s = true) && decide (n.val ≠ 1) && decide (n.val ≠ 11)),
    (let n : HaspSrc := 1
     let s : State := live |> haspLevel n true
     decide (haspCause n s = true) && decide (n.val = 1)),
    (let n : HaspSrc := 11
     let s : State := live |> haspLevel n true
     decide (haspCause n s = true) && decide (n.val = 11)),
    (let n : HaspSrc := (0 : Fin 64)
     let s : State := live |> (fun s : State => { s with hasp := { s.hasp with window := [(0, 0), (1, 2^40), (2,5), (11,2^30)], forced := if 0 = 0 then [(0,true)] else [] } })
     (match Tab.find? s.hasp.window n with
       | some _ => true
       | _ => false)),
    (let s : State := live
     decide (pinsLive s = true)),
    (let n : Fin 16 := 0
     let s : State := live
     decide (pinsLive s = true) && decide (Tab.get false s.tch.peakTaken n = false)),
    (let s : State := live
     decide (pinsLive s = true)),
    (let src : Nat := 6
     let i : Nat := 0
     let s : State := live |> (fun s : State => { s with tch := { s.tch with above := [(6*64, 1), (8*64+3,1), (6*64+2, 0), (7*64+1,2)], below := [(6*64+1,2)], peakTaken := [(0,true)] } })
     decide (i < limitSensors src) && decide (1 ≤ limCount s.tch.above src i) && decide (haspCause src s = false) &&
     decide ((∀ j ∈ List.range (limitSensors src), i < j → limCount s.tch.above src j < 2))),
    (let fn : Fn := 0
     let hi : Bool := false
     let s : State := live
     decide (Reaches fn (if hi then .HASP_STATUS_HI else .HASP_STATUS_LO) 0 s)),
    (let n : Nat := 0
     let s : State := live |> setFlag F.HASP_SRC_STATE_SET n true
     decide (haspIsSet n s = true) && decide (haspEff n s ≠ 4) && decide (haspCause n s = false)),
    (let n : Nat := 0
     let m : Nat := 1
     let s : State := live |> setFlag F.HASP_SRC_STATE_SET n true
     decide (haspIsSet n s = true) && decide (haspEff n s ≠ 4) && decide (haspCause n s = false) && decide (m ≠ n)),
    (let n : Nat := 0
     let s : State := live |> setFlag F.HASP_SRC_STATE_SET n true |> haspLevel n true
     decide (haspIsSet n s = true) && decide (fget F.HASP_SRC_CLASS_CLASS n s ≤ 1) && decide (haspForced n s = false) && decide (haspCause n s = true)),
    (let n : Nat := 0
     let s : State := live |> setFlag F.HASP_SRC_STATE_SET n true |> (fun s : State => { s with hasp := { s.hasp with window := [(0, 0), (1, 2^40), (2,5), (11,2^30)], forced := if 0 = 0 then [(0,true)] else [] } })
     decide (haspIsSet n s = true) && decide (haspEff n s = 4) && decide (flag F.HASP_CTRL_C4_EXIT 0 s = false ∨ haspForced n s = true))] : List Bool).all id = true := by decide +kernel

/-- O54: the hypotheses of each of its clauses are met. -/
theorem wit_AcknowledgementStopsEscalation : ([
    (let fn : Fn := 0
     let hi : Bool := false
     let s : State := live
     decide (Reaches fn (if hi then .HASP_ACK_HI else .HASP_ACK_LO) 0 s))] : List Bool).all id = true := by decide +kernel

/-- O55: the hypotheses of each of its clauses are met. -/
theorem wit_DumpsAndBandwidthWindows : ([
    (let s : State := live |> (fun s : State => { s with time := { s.time with tickSeen := [(0,true),(1,true),(2,true)] } })
     decide (loaded s = true) && decide (dumpTd s.cfg < 8) && decide (Tab.get false s.time.tickSeen (dumpTd s.cfg) = true) &&
     decide (modeOpen s = true) && decide (tickIdx (dumpTd s.cfg) s % dumpDiv s.cfg = 0) && decide (flag F.DUMP_STATUS_RUNNING 0 s = false)),
    (let s : State := live |> (fun s : State => { s with time := { s.time with tickSeen := [(0,true),(1,true),(2,true)] } }) |> setFlag F.DUMP_STATUS_RUNNING 0 true
     decide (loaded s = true) && decide (dumpTd s.cfg < 8) && decide (Tab.get false s.time.tickSeen (dumpTd s.cfg) = true) &&
     decide (modeOpen s = true) && decide (tickIdx (dumpTd s.cfg) s % dumpDiv s.cfg = 0) && decide (flag F.DUMP_STATUS_RUNNING 0 s = true) &&
     decide (flag F.DUMP_STATUS_PENDING 0 s = false)),
    (let s : State := live |> (fun s : State => { s with time := { s.time with tickSeen := [(0,true),(1,true),(2,true)] } }) |> setFlag F.DUMP_STATUS_RUNNING 0 true |> setFlag F.DUMP_STATUS_PENDING 0 true
     decide (loaded s = true) && decide (dumpTd s.cfg < 8) && decide (Tab.get false s.time.tickSeen (dumpTd s.cfg) = true) &&
     decide (modeOpen s = true) && decide (tickIdx (dumpTd s.cfg) s % dumpDiv s.cfg = 0) && decide (flag F.DUMP_STATUS_RUNNING 0 s = true) &&
     decide (flag F.DUMP_STATUS_PENDING 0 s = true)),
    (let fn : Fn := 0
     let s : State := live
     decide (Reaches fn .DUMP_CTRL 0 s) && decide (flag F.DUMP_STATUS_RUNNING 0 s = false)),
    (let fn : Fn := 0
     let s : State := live |> setFlag F.DUMP_STATUS_RUNNING 0 true
     decide (Reaches fn .DUMP_CTRL 0 s) && decide (flag F.DUMP_STATUS_RUNNING 0 s = true) && decide (flag F.DUMP_STATUS_PENDING 0 s = false)),
    (let fn : Fn := 0
     let s : State := live |> setFlag F.DUMP_STATUS_RUNNING 0 true |> setFlag F.DUMP_STATUS_PENDING 0 true
     decide (Reaches fn .DUMP_CTRL 0 s) && decide (flag F.DUMP_STATUS_RUNNING 0 s = true) && decide (flag F.DUMP_STATUS_PENDING 0 s = true)),
    (let s : State := live |> setFlag F.DUMP_STATUS_RUNNING 0 true
     decide (flag F.DUMP_STATUS_RUNNING 0 s = true) && decide (flag F.DUMP_STATUS_PENDING 0 s = false)),
    (let s : State := live |> setFlag F.DUMP_STATUS_RUNNING 0 true |> setFlag F.DUMP_STATUS_PENDING 0 true
     decide (flag F.DUMP_STATUS_RUNNING 0 s = true) && decide (flag F.DUMP_STATUS_PENDING 0 s = true)),
    (let s : State := live
     decide (running s = true) && decide (modeOpen s = true)),
    (let fn : Fn := 0
     let s : State := live
     decide (Reaches fn .BW_CTRL 0 s)),
    (let fn : Fn := 0
     let w : Word := 0#32
     let s : State := live |> fset F.BW_CTRL_WINDOW_US 0 (clampN 100 1000000 (wfld F.BW_CTRL_WINDOW_US w))
     decide (Reaches fn .BW_CTRL 0 s) && decide (clampN 100 1000000 (wfld F.BW_CTRL_WINDOW_US w) = fget F.BW_CTRL_WINDOW_US 0 s)),
    (let fn : Fn := 0
     let w : Word := 0#32
     let s : State := live
     decide (Reaches fn .BW_CTRL 0 s) && decide (clampN 100 1000000 (wfld F.BW_CTRL_WINDOW_US w) ≠ fget F.BW_CTRL_WINDOW_US 0 s))] : List Bool).all id = true := by decide +kernel

/-- O56: the hypotheses of each of its clauses are met. -/
theorem wit_TraceFifoReads : ([
    (let fn : Fn := 0
     let s : State := live |> (fun s : State => { s with trc := { s.trc with fifo := if 1 = 0 then [] else [List.range 8, List.range 8 |>.map (· + 1)], packing := List.range 0, latch := List.range 8, gap := 0, lastTop := some 5, sinceSync := if 0 = 0 then none else some (if 0 = 0 then 1023 else 0), wordAt := 1, late := if 1 = 0 then [] else [(5,3)], pendTick := 1, pendByCmd := false, capFrom := 1, rxNow := [(0,7),(3,1)], txNow := [(255,9)] } })
     decide (Shows fn .TRC_DATA 0 s) &&
     (match s.trc.fifo with
       | _ :: _ => decide (flag F.TRC_CTRL_SINK 0 s = false)
       | _ => false)),
    (let fn : Fn := 0
     let s : State := live
     decide (Shows fn .TRC_DATA 0 s) && decide (s.trc.fifo = [] ∨ flag F.TRC_CTRL_SINK 0 s = true)),
    (let fn : Fn := 0
     let i : Nat := 1
     let s : State := live
     decide (Shows fn .TRC_DATA 0 s) && decide (1 ≤ i) && decide (i < 8))] : List Bool).all id = true := by decide +kernel

/-- O57: the hypotheses of each of its clauses are met. -/
theorem wit_TraceFlushSinkAndPort : ([
    (let fn : Fn := 0
     let w : Word := 0#32
     let s : State := live
     decide (Reaches fn .TRC_CTRL 0 s) && decide (wbit F.TRC_CTRL_SINK w = false ∨ flag F.WARD_STATE_OBSERVE 0 s = true)),
    (let fn : Fn := 0
     let w : Word := 6#32
     let s : State := live
     decide (Reaches fn .TRC_CTRL 0 s) && decide (wbit F.TRC_CTRL_SINK w = true) && decide (flag F.WARD_STATE_OBSERVE 0 s = false)),
    (let fn : Fn := 0
     let s : State := live
     decide (Reaches fn .TRC_CTRL 0 s) && decide (flag F.WARD_STATE_OBSERVE 0 s = false)),
    (let fn : Fn := 0
     let w : Word := 0#32
     let s : State := live |> setFlag F.WARD_STATE_OBSERVE 0 true
     decide (Reaches fn .TRC_CTRL 0 s) && decide (flag F.WARD_STATE_OBSERVE 0 s = true) && decide (wbit F.TRC_CTRL_FLUSH w = false)),
    (let s : State := live |> (fun s : State => { s with trc := { s.trc with fifo := if true then [] else [List.range 8, List.range 8 |>.map (· + 8)], packing := List.range 1, latch := List.range 8, gap := 0, lastTop := some 5, sinceSync := if true then none else some (if true then 1023 else 0), wordAt := 8, late := if true then [] else [(5,3)], pendTick := 1, pendByCmd := true, capFrom := 8, rxNow := [(0,7),(3,8)], txNow := [(255,9)] } })
     decide (fget F.TRC_CTRL_IDLE_CLOSE_US 0 s ≠ 0) && decide (s.trc.packing ≠ []) && decide (modeOpen s = true)),
    (let s : State := live |> (fun s : State => setFlag F.TRC_CTRL_SINK 0 true (setFlag F.WARD_STATE_OBSERVE 0 true s))
     decide (obsOpen s = true) && decide (s.trc.sinceSync = none)),
    (let s : State := live |> (fun s : State => setFlag F.TRC_CTRL_SINK 0 true (setFlag F.WARD_STATE_OBSERVE 0 true s)) |> (fun s : State => { s with trc := { s.trc with sinceSync := some 1023 } })
     decide (obsOpen s = true) &&
     (match s.trc.sinceSync with
       | some n => decide (1023 ≤ n)
       | _ => false)),
    (let s : State := live |> (fun s : State => setFlag F.TRC_CTRL_SINK 0 true (setFlag F.WARD_STATE_OBSERVE 0 true s)) |> (fun s : State => { s with trc := { s.trc with sinceSync := some 1022 } }) |> (fun s : State => { s with trc := { s.trc with fifo := [List.range 8] } })
     decide (obsOpen s = true) &&
     (match s.trc.sinceSync with
       | some n =>
         decide (n < 1023) &&
         (match s.trc.fifo with
           | _ :: _ => true
           | _ => false)
       | _ => false)),
    (let s : State := live |> (fun s : State => setFlag F.TRC_CTRL_SINK 0 true (setFlag F.WARD_STATE_OBSERVE 0 true s)) |> (fun s : State => { s with trc := { s.trc with sinceSync := some 1022 } })
     decide (obsOpen s = true) &&
     (match s.trc.sinceSync with
       | some n => decide (n < 1023) && decide (s.trc.fifo = [])
       | _ => false))] : List Bool).all id = true := by decide +kernel

/-- O58: the hypotheses of each of its clauses are met. -/
theorem wit_RailsAndResetPins : ([
    (let s : State := live |> (fun s : State => { s with power := { s.power with rails := false } })
     decide (s.power.rails = false)),
    (let s : State := live |> (fun s : State => { s with power := { s.power with porstHigh := false } })
     decide (s.power.rails = true) && decide (s.power.porstHigh = false) && decide (s.power.inReset = false)),
    (let s : State := live
     decide (s.power.porstHigh = true) && decide (s.power.rails = true)),
    (let s : State := live
     decide (s.power.rails = true) && decide (s.mode ≠ .off) && decide (s.power.inReset = false)),
    (let s : State := live |> (fun s : State => { s with power := { s.power with inReset := true } }) |> (fun s : State => { s with mode := .boot })
     decide (s.power.inReset = true) && decide (s.mode = .boot)),
    (let s : State := live |> (fun s : State => { s with power := { s.power with inReset := true } }) |> (fun s : State => { s with mode := .off }) |> (fun s : State => { s with power := { s.power with porstHigh := false } })
     decide (s.power.inReset = true) && decide (s.mode = .off) && decide (s.power.porstHigh = false)),
    (let s : State := live
     decide (s.power.perstHigh = true) && decide (s.power.inReset = false) && decide (s.mode = .configure ∨ s.mode = .operate ∨ s.mode = .lockdown)),
    (let s : State := live |> (fun s : State => { s with mode := .boot })
     decide (s.power.perstHigh = true) && decide (s.power.inReset = false) && decide (s.mode = .boot ∨ s.mode = .standby)),
    (let s : State := live |> (fun s : State => { s with power := { s.power with perstHigh := false } }) |> setFlag F.GLB_WAKE_CFG_PERST 0 false
     decide (s.power.perstHigh = false) && decide (flag F.GLB_WAKE_CFG_PERST 0 s = false))] : List Bool).all id = true := by decide +kernel

/-- O59: the hypotheses of each of its clauses are met. -/
theorem wit_BootEndsInConfigureOrLockdown : ([
    (let b : BootIn := ⟨0,true,none,none,true,true⟩
     let s : State := live |> (fun s : State => { s with mode := .boot }) |> setFlag F.GLB_MODE_BOARD_TEST 0 true
     decide (s.mode = .boot) && decide (s.power.inReset = false) && decide (flag F.GLB_MODE_BOARD_TEST 0 s = true) && decide (b.pufOk = true)),
    (let b : BootIn := ⟨0,false,none,none,false,true⟩
     let s : State := live |> (fun s : State => { s with mode := .boot }) |> setFlag F.GLB_MODE_BOARD_TEST 0 true
     decide (s.mode = .boot) && decide (s.power.inReset = false) && decide (flag F.GLB_MODE_BOARD_TEST 0 s = true) && decide (b.pufOk = false)),
    (let b : BootIn := ⟨0,false,none,none,false,true⟩
     let s : State := live |> (fun s : State => { s with mode := .boot })
     decide (s.mode = .boot) && decide (s.power.inReset = false) && decide (flag F.GLB_MODE_BOARD_TEST 0 s = false) && decide (b.pufOk = false)),
    (let b : BootIn := ⟨3,true,none,none,true,true⟩
     let s : State := live |> (fun s : State => { s with mode := .boot })
     decide (s.mode = .boot) && decide (s.power.inReset = false) && decide (flag F.GLB_MODE_BOARD_TEST 0 s = false) && decide (b.pufOk = true) &&
     decide (1 ≤ b.bistFail) && decide (b.bistFail ≤ 8)),
    (let b : BootIn := ⟨0,true,none,none,true,true⟩
     let s : State := live |> (fun s : State => { s with mode := .boot })
     decide (s.mode = .boot) && decide (s.power.inReset = false) && decide (flag F.GLB_MODE_BOARD_TEST 0 s = false) && decide (b.pufOk = true) &&
     decide (b.bistFail = 0)),
    (let a : Nat := 0
     decide (a < 72 * 2 ^ 30)),
    (let s : State := live |> (fun s : State => { s with mode := .boot, tch := { s.tch with slotA := if false then none else some ⟨3,2,2,3,false,z 4,z 5⟩, slotB := if true then none else some ⟨3,0,2,3,true,z 4,z 5⟩ }, ward := { s.ward with fwSvn := 0, patchSvn := 0, copy0 := if true then none else some ⟨z 48,1,[],[],0,[],[],2,0⟩, copy1 := some ⟨z 48,2,[],[],0,[],[],1,0⟩ } })
     (match fwValid s.tch.slotA s with
       | some i => decide (patchValid i s = false)
       | _ => false)),
    (let s : State := live |> (fun s : State => { s with mode := .boot, tch := { s.tch with slotA := if false then none else some ⟨1,2,2,3,true,z 4,z 5⟩, slotB := if true then none else some ⟨3,0,2,3,true,z 4,z 5⟩ }, ward := { s.ward with fwSvn := 0, patchSvn := 0, copy0 := if false then none else some ⟨z 48,1,[],[],0,[],[],1,0⟩, copy1 := some ⟨z 48,2,[],[],0,[],[],1,0⟩ } })
     (match fwValid s.tch.slotA s with
       | some i => decide (patchValid i s = true) && decide (secState s ≠ 1)
       | _ => false)),
    (let b : BootIn := ⟨0,true,none,none,true,true⟩
     let s : State := live |> (fun s : State => fset F.WARD_STATE_SEC_STATE 0 1 { s with tch := { s.tch with slotA := some ⟨0,1,2,3,true,z 4,z 5⟩ } })
     (match fwValid s.tch.slotA s with
       | some i =>
         let u := fwLoad i 0 s
         let v := patchLoad i u
         decide (patchValid i s = true) && decide (secState s = 1) && decide (storePick b v = none)
       | _ => false)),
    (let b : BootIn := ⟨0,true,none,none,true,true⟩
     let s : State := live |> (fun s : State => fset F.WARD_STATE_SEC_STATE 0 1 { s with tch := { s.tch with slotA := some ⟨0,1,2,3,true,z 4,z 5⟩ } }) |> (fun s : State => { s with ward := { s.ward with copy0 := some ⟨z 48,1,[],[],0,[],[],0,0⟩ } })
     (match fwValid s.tch.slotA s with
       | some i =>
         let u := fwLoad i 0 s
         let v := patchLoad i u
         decide (patchValid i s = true) && decide (secState s = 1) &&
         (match storePick b v with
           | some _ => true
           | _ => false)
       | _ => false)),
    (let s : State := live
     decide (fwValid s.tch.slotA s = none) && decide (fwValid s.tch.slotB s = none)),
    (let s : State := live |> (fun s : State => { s with mode := .boot, tch := { s.tch with slotA := if true then none else some ⟨3,2,2,3,true,z 4,z 5⟩, slotB := if false then none else some ⟨3,0,2,3,true,z 4,z 5⟩ }, ward := { s.ward with fwSvn := 0, patchSvn := 0, copy0 := if true then none else some ⟨z 48,1,[],[],0,[],[],0,0⟩, copy1 := some ⟨z 48,2,[],[],0,[],[],1,0⟩ } })
     decide (fwValid s.tch.slotA s = none) &&
     (match fwValid s.tch.slotB s with
       | some i => decide (patchValid i s = true) && decide (secState s ≠ 1)
       | _ => false)),
    (let s : State := live
     decide (s.power.lockHeld = false) && decide (haspC4 s = false) && decide (s.power.retImage = none)),
    (let s : State := live |> (fun s : State => { s with power := { s.power with lockHeld := true } })
     decide (s.power.lockHeld = true ∨ haspC4 s = true))] : List Bool).all id = true := by decide +kernel

/-- O60: the hypotheses of each of its clauses are met. -/
theorem wit_ModeRequestsAndStandby : ([
    (let fn : Fn := 0
     let s : State := live |> (fun s : State => { s with mode := .configure })
     decide (Reaches fn .GLB_MODE_REQ 0 s) && decide (s.mode = .configure) && decide (loaded s = true) && decide (fget F.IMG_STATUS_PHASE 0 s = 0)),
    (let fn : Fn := 0
     let s : State := live
     decide (Reaches fn .GLB_MODE_REQ 0 s) && decide (s.mode ≠ .configure ∨ loaded s = false)),
    (let fn : Fn := 0
     let s : State := live
     decide (Reaches fn .GLB_MODE_REQ 0 s) && decide (s.mode = .operate) && decide (transBusy s = false) &&
     decide (flag F.IMG_STATUS_DELTA_PENDING 0 s = false)),
    (let fn : Fn := 0
     let s : State := live |> setFlag F.IMG_STATUS_DELTA_PENDING 0 true
     decide (Reaches fn .GLB_MODE_REQ 0 s) && decide (s.mode = .operate) && decide (transBusy s = false) &&
     decide (flag F.IMG_STATUS_DELTA_PENDING 0 s = true)),
    (let fn : Fn := 0
     let s : State := live |> (fun s : State => { s with power := { s.power with gated := true, retain := true, takenAt := 0, reachedAt := if true then 0 else 90000, resuming := true, firstWake := 0, armed := if true then some true else none, held := if true then some true else none, heldConfigure := true, wakeSeen := if true then some s.time.cclk else none, alarmNs := if true then some 0 else none } })
     decide (Reaches fn .GLB_MODE_REQ 0 s) && decide (s.mode = .operate) && decide (transBusy s = true)),
    (let fn : Fn := 0
     let w : Word := 0xFFFFFFFF#32
     let s : State := live
     decide (Reaches fn .GLB_MODE_REQ 0 s) && decide (s.mode = .operate) && decide (transBusy s = false) && decide (s.power.wakeLow = false) &&
     decide (s.power.wakeSeen ≠ some s.time.cclk) && decide (wbit F.GLB_MODE_REQ_AT_L2 w = true)),
    (let fn : Fn := 0
     let w : Word := 0#32
     let s : State := live
     decide (Reaches fn .GLB_MODE_REQ 0 s) && decide (s.mode = .operate) && decide (transBusy s = false) && decide (s.power.wakeLow = false) &&
     decide (s.power.wakeSeen ≠ some s.time.cclk) && decide (wbit F.GLB_MODE_REQ_AT_L2 w = false)),
    (let s : State := live |> setFlag F.GLB_MODE_TRANSITION 0 true |> fset F.GLB_MODE_TARGET 0 (2)
     decide (s.mode = .operate) && decide (inTransition s = true) && decide (fget F.GLB_MODE_TARGET 0 s = 2) && decide (wireBusy s = false)),
    (let s : State := live |> (fun s : State => { s with pcie := { s.pcie with link := if true then .down else if false then .l0 else .l2Ready } })
     decide (s.power.stbyLow = false) && decide (pinsLive s = true) && decide (flag F.GLB_WAKE_CFG_PIN_REQ 0 s = true) &&
     decide (stbyCheck false s = 0) && decide (flag F.IMG_STATUS_DELTA_PENDING 0 s = false)),
    (let s : State := live |> (fun s : State => if false then setFlag F.GLB_MODE_TRANSITION 0 false { s with mode := .operate, pcie := { s.pcie with link := if true then .l2Ready else .down }, power := { s.power with armed := none, held := none, heldConfigure := false, wakeLow := false, perstHigh := true, wakeSeen := none, inReset := false } } else if true then setFlag F.GLB_MODE_TRANSITION 0 false { s with mode := .operate, pcie := { s.pcie with link := .l0 }, power := { s.power with armed := some true, held := none, heldConfigure := false, wakeLow := false, wakeSeen := if true then some s.time.cclk else none } } else s) |> (fun s : State => { s with time := { s.time with cclk := 85000 } })
     decide (s.pcie.link ≠ .down) && decide (s.mode = .operate) && decide (inTransition s = false) && decide (s.power.held = none) &&
     decide (s.power.heldConfigure = false) &&
     (match s.power.armed with
       | some _ => decide (s.power.wakeLow = false) && decide (s.power.wakeSeen ≠ some s.time.cclk) && decide (flag F.IMG_STATUS_DELTA_PENDING 0 s = false)
       | _ => false)),
    (let s : State := live |> (fun s : State => if false then setFlag F.GLB_MODE_TRANSITION 0 false { s with mode := .operate, pcie := { s.pcie with link := if true then .l2Ready else .down }, power := { s.power with armed := none, held := none, heldConfigure := false, wakeLow := false, perstHigh := true, wakeSeen := none, inReset := false } } else if true then setFlag F.GLB_MODE_TRANSITION 0 false { s with mode := .operate, pcie := { s.pcie with link := .l0 }, power := { s.power with armed := some true, held := none, heldConfigure := false, wakeLow := false, wakeSeen := if true then some s.time.cclk else none } } else s)
     decide (s.pcie.link ≠ .down) && decide (s.mode = .operate) && decide (inTransition s = false) && decide (s.power.held = none) &&
     decide (s.power.heldConfigure = false) &&
     (match s.power.armed with
       | some _ => decide (s.power.wakeSeen = some s.time.cclk)
       | _ => false)),
    (let s : State := live |> setFlag F.GLB_MODE_TRANSITION 0 true |> fset F.GLB_MODE_TARGET 0 (4)
     decide (s.mode = .operate) && decide (inTransition s = true) && decide (fget F.GLB_MODE_TARGET 0 s = 4) && decide (s.power.gated = false)),
    (let s : State := live |> (fun s : State => { s with power := { s.power with gated := true } })
     decide (s.mode = .operate) && decide (s.power.gated = true) && decide (wireBusy s = false)),
    (let s : State := live |> setFlag F.GLB_MODE_TRANSITION 0 true |> fset F.GLB_MODE_TARGET 0 (4)
     decide (s.power.wakeLow = false) && decide (pinsLive s = true) && decide (flag F.GLB_WAKE_CFG_WAKE_PIN 0 s = true) &&
     decide (s.mode = .operate) && decide (inTransition s = true) && decide (fget F.GLB_MODE_TARGET 0 s = 4) && decide (s.power.gated = false)),
    (let s : State := live |> setFlag F.GLB_MODE_TRANSITION 0 true |> fset F.GLB_MODE_TARGET 0 (4) |> (fun s : State => { s with power := { s.power with gated := true } })
     decide (s.power.wakeLow = false) && decide (pinsLive s = true) && decide (flag F.GLB_WAKE_CFG_WAKE_PIN 0 s = true) &&
     decide (s.mode = .operate) && decide (inTransition s = true) && decide (fget F.GLB_MODE_TARGET 0 s = 4) && decide (s.power.gated = true)),
    (let s : State := live |> (fun s : State => { s with mode := .standby })
     decide (s.power.wakeLow = false) && decide (pinsLive s = true) && decide (flag F.GLB_WAKE_CFG_WAKE_PIN 0 s = true) &&
     decide (s.mode = .standby) && decide (s.power.resuming = false) && decide (s.time.cclk < s.power.reachedAt + 80000)),
    (let s : State := live |> (fun s : State => { s with mode := .standby }) |> (fun s : State => { s with time := { s.time with cclk := 85000 } })
     decide (s.power.wakeLow = false) && decide (pinsLive s = true) && decide (flag F.GLB_WAKE_CFG_WAKE_PIN 0 s = true) &&
     decide (s.mode = .standby) && decide (s.power.resuming = false) && decide (s.power.reachedAt + 80000 ≤ s.time.cclk)),
    (let s : State := live |> (fun s : State => { s with power := { s.power with perstHigh := false } })
     decide (s.power.perstHigh = false)),
    (let s : State := live |> (fun s : State => { s with power := { s.power with stbyLow := true } })
     decide (s.power.stbyLow = true)),
    (let s : State := live |> (fun s : State => { s with mode := .standby }) |> (fun s : State => { s with power := { s.power with gated := true, retain := true, takenAt := 0, reachedAt := if true then 0 else 90000, resuming := true, firstWake := 0, armed := if true then some true else none, held := if true then some true else none, heldConfigure := true, wakeSeen := if true then some s.time.cclk else none, alarmNs := if true then some 0 else none } })
     decide (s.mode = .standby) &&
     (match s.power.alarmNs with
       | some n =>
         let u := reachPtp n s
         decide (n ≤ nowNs u)
       | _ => false)),
    (let s : State := live |> (fun s : State => { s with mode := .standby }) |> (fun s : State => { s with power := { s.power with lockHeld := true } })
     decide (s.mode = .standby) && decide (s.power.resuming = false) && decide ((s.power.firstWake ≠ 0 ∨ s.power.lockHeld = true))),
    (let s : State := live |> (fun s : State => { s with power := { s.power with retain := true } })
     decide (s.power.retain = true ∨ s.power.lockHeld = true)),
    (let s : State := live
     decide (s.power.retain = false) && decide (s.power.lockHeld = false)),
    (let s : State := live |> (fun s : State => { s with mode := .standby }) |> (fun s : State => { s with power := { s.power with resuming := true } })
     decide (s.mode = .standby) && decide (s.power.resuming = true) && decide (s.power.lockHeld = false)),
    (let s : State := live |> (fun s : State => { s with mode := .standby }) |> (fun s : State => { s with power := { s.power with resuming := true } }) |> (fun s : State => { s with power := { s.power with lockHeld := true } })
     decide (s.mode = .standby) && decide (s.power.resuming = true) && decide (s.power.lockHeld = true)),
    (let s : State := live
     decide (s.power.recorded = []))] : List Bool).all id = true := by decide +kernel

/-! ### Clauses that need more than evaluation, or that stop at a function of Config -/

theorem crc32h_append (s : Nat) (a b : Bytes) : crc32h s (a ++ b) = crc32h (crc32h s a) b := by simp [crc32h, List.foldl_append]
theorem crc32h_zeros : crc32h 0xFFFFFFFF (z 508) = 0xF04492AB := by
  have h : z 508 = z 127 ++ (z 127 ++ (z 127 ++ z 127)) := by decide +kernel
  have a : crc32h 0xFFFFFFFF (z 127) = 0x8F90B565 := by decide +kernel
  have b : crc32h 0x8F90B565 (z 127) = 0xA13672CF := by decide +kernel
  have c : crc32h 0xA13672CF (z 127) = 0x0A94692B := by decide +kernel
  have d : crc32h 0x0A94692B (z 127) = 0xF04492AB := by decide +kernel
  rw [h, crc32h_append, crc32h_append, crc32h_append, a, b, c, d]
/-- R117: a flit of zeros with its CRC, and SEQ 0 expected. -/
theorem wit_FaushMessages_flit : ∃ (l : Link) (f : Bytes) (s : State), f.length = 512 ∧ flag F.FL_STATUS_FLIT_LOCK l s = true ∧
    fieldLE f 508 4 = crc32 (f.take 508) ∧ fieldLE f 0 2 = (flOf l s).rxSeq ∧ (flOf l s).rxSeq < 4096 ∧ fieldLE f 2 2 = 0 := by
  refine ⟨0, z 508 ++ leBytes 4 (0xF04492AB ^^^ 0xFFFFFFFF), live |> setFlag F.FL_STATUS_FLIT_LOCK 0 true, by decide +kernel, by decide +kernel, ?_,
    by decide +kernel, by decide +kernel, by decide +kernel⟩
  have h : (z 508 ++ leBytes 4 (0xF04492AB ^^^ 0xFFFFFFFF)).take 508 = z 508 := by decide +kernel
  rw [h, crc32, crc32h_zeros]; decide +kernel
/-- R485, R486: the last frame again; a counter that is spent; a fresh counter while the entropy source has failed. -/
theorem wit_AdyelRefusalsHaveNoEffect_critical :
    (∃ a r s, adyelTake a s = some (r, s) ∧ Taken 0x0011 a r s s ∧ frCrit r.frame = true ∧ s.ward.kCmd ≠ [] ∧
      adyelMac s.ward.kCmd (slice r.frame 0 (32 + frLen r.frame)) r.ind = frMac r.frame ∧ frCounter r.frame = s.ward.counter ∧
      frMac r.frame = s.ward.lastFrame ∧ s.ward.lastAnswer ≠ []) ∧
    (∃ a r s, adyelTake a s = some (r, s) ∧ Taken 0x0011 a r s s ∧ frCrit r.frame = true ∧ s.ward.kCmd ≠ [] ∧
      adyelMac s.ward.kCmd (slice r.frame 0 (32 + frLen r.frame)) r.ind = frMac r.frame ∧ frCounter r.frame < s.ward.counter) ∧
    (∃ a r s, adyelTake a s = some (r, s) ∧ Taken 0x0011 a r s s ∧ frCrit r.frame = true ∧ s.ward.kCmd ≠ [] ∧
      adyelMac s.ward.kCmd (slice r.frame 0 (32 + frLen r.frame)) r.ind = frMac r.frame ∧ s.ward.counter < frCounter r.frame ∧
      flag F.WARD_STATE_ENTROPY_OK 0 s = false) := by
  refine ⟨?_, ?_, ?_⟩
  · let s := own |> withWard (fun w => { w with counter := 2, lastFrame := adyelMac (z 48) (head 0x0011 [] 2) [], lastAnswer := z 40 })
    obtain ⟨h1, h2, h3, h4⟩ := crit_taken 0x0011 [] 2 s _ rfl (by decide +kernel)
    exact ⟨_, _, s, h1, h2, by decide +kernel, by decide +kernel, h3, by decide +kernel, h4, by decide +kernel⟩
  · obtain ⟨h1, h2, h3, _⟩ := crit_taken 0x0011 [] 0 own _ rfl (by decide +kernel)
    exact ⟨_, _, own, h1, h2, by decide +kernel, by decide +kernel, h3, by decide +kernel⟩
  · let s := own |> setFlag F.WARD_STATE_ENTROPY_OK 0 false
    obtain ⟨h1, h2, h3, _⟩ := crit_taken 0x0011 [] 2 s _ rfl (by decide +kernel)
    exact ⟨_, _, s, h1, h2, by decide +kernel, by decide +kernel, h3, by decide +kernel, by decide +kernel⟩
/-- FW_WRITE of the mailbox: its head with an indirect payload of 20 bytes, and the state in which it waits. -/
def fwHead (slot : Nat) : Bytes :=
  le 2 0x5941 ++ oct [1, 5] ++ le 2 0x0120 ++ z 2 ++ le 4 4 ++ le 4 20 ++ le 8 2 ++ z 8 ++ oct [slot, 0, 0, 0]
def fwState (slot : Nat) (i : Option FwImage) : State :=
  fset F.MBX_IND_LEN_LEN 0 20 (fset F.MBX_REQ_LEN_LEN 0 52
    { own with tch := { own.tch with mbxReq := fwHead slot ++ adyelMac (z 48) (fwHead slot) (z 20), mbxWaiting := true, slotB := i } })
def fwReq (slot : Nat) : Req := ⟨none, fwHead slot ++ adyelMac (z 48) (fwHead slot) (z 20), z 20⟩
def fwImg : FwImage := ⟨0, 1, 2, 3, true, z 4, z 5⟩
/-- R537: an authentic FW_WRITE of either slot whose image passes its checks. -/
theorem wit_ImagesAndFirmware_mailbox : ∀ slot ∈ [0, 1], ∃ r s t, adyelTake (.mailbox (z 20)) s = some (r, t) ∧
    Taken 0x0120 (.mailbox (z 20)) r s t ∧ Authentic r t ∧
    (decide (byteAt (frPayload r.frame) 0 = slot) && decide (fwCheck r true (some fwImg) (critStart r t) = .inr fwImg)) = true := by
  intro slot h
  have k : ∀ n, n = 0 ∨ n = 1 → (n = slot) → ∃ r s t, adyelTake (.mailbox (z 20)) s = some (r, t) ∧
    Taken 0x0120 (.mailbox (z 20)) r s t ∧ Authentic r t ∧
    (decide (byteAt (frPayload r.frame) 0 = n) && decide (fwCheck r true (some fwImg) (critStart r t) = .inr fwImg)) = true := by
    intro n hn _
    refine ⟨fwReq n, fwState n (some fwImg), _, mbx_authentic 0x0120 (fwHead n) (z 20) (fwState n (some fwImg))
      (fun r t => decide (byteAt (frPayload r.frame) 0 = n) && decide (fwCheck r true (some fwImg) (critStart r t) = .inr fwImg)) rfl (fwReq n) rfl _ rfl ?_⟩
    rcases hn with rfl | rfl <;> decide +kernel
  exact k slot (by simpa using h) rfl
/-- R66, R67, R69: a validation in progress, of an image and of a delta; whether it passes rests on ecdsaVerify. -/
theorem wit_ImagesAndFirmware_validating : ([
    (let s := fset F.IMG_STATUS_PHASE 0 1 { live with tch := { live.tch with imgReply := some (some 3, put (z 40) (oct [0x30]) 4) } };
      validating false s),
    (let s := fset F.IMG_STATUS_PHASE 0 1 { live with tch := { live.tch with imgReply := some (some 3, put (z 40) (oct [0x31]) 4) } };
      validating true s)] : List Bool).all id = true := by decide +kernel
/-- R475, R477: TAKE_OWNERSHIP reaches its checks in CONFIGURE, UNOWNED; whether they pass rests on serial and ecdsaVerify. -/
theorem wit_WardAndTchienCommandsTakeEffect_ownership :
    (let a : AdyelIn := .udp 9 false (fr 0x0010 false (z 304) 0 true); let s := own |> fset F.WARD_STATE_SEC_STATE 0 0;
      match adyelTake a s with | some (r, t) => takenB 0x0010 r s t && decide (t.mode ≠ .lockdown) | _ => false) = true := by decide +kernel
/-- R494, R495: a port with a CAK; whether an MKPDU's ICV and its wrapped SAK are good rests on mkaIcvOk and unwrap3394. -/
theorem wit_EntropyGrantsAndAssociationKeys_mka :
    (let s := withSec 2 (sec [] [portR 0 0 4 0 2 0xFF 1600]) { own with ports := { own.ports with cak := [(0, 16384, 1)] } };
      (portCak 0 s).isSome) = true := by decide +kernel

end Sys2Proof.Tests
end

section
/-! SUPPORT. Rules for the shared operations behind the commands of this family: interrupt sources (R456 to R458), time
carried forward, engines and stream contexts, and requests to the HBM arbiter. -/
namespace Sys2Proof.Machine

/-! ### Interrupt sources (R456 to R458) -/

/-- An event of a group touches its registers and its hold-off alone. -/
theorem groupEvent_parts (g : Nat) (s : State) :
    groupEvent g s = { s with regs := (groupEvent g s).regs, ints := (groupEvent g s).ints } := by
  unfold groupEvent; split <;> rfl

/-- A pending bit and the event that follows it touch registers and hold-offs alone. -/
theorem pendSet_parts (n : Nat) (s : State) :
    pendSet n s = { s with regs := (pendSet n s).regs, ints := (pendSet n s).ints } := by
  unfold pendSet
  split
  · rfl
  · dsimp only
    split
    · rfl
    · rw [groupEvent_parts]; rfl

@[simp] theorem pendSet_mode (n : Nat) (s : State) : (pendSet n s).mode = s.mode := by rw [pendSet_parts]
@[simp] theorem pendSet_time (n : Nat) (s : State) : (pendSet n s).time = s.time := by rw [pendSet_parts]
@[simp] theorem pendSet_coding (n : Nat) (s : State) : (pendSet n s).coding = s.coding := by rw [pendSet_parts]
@[simp] theorem pendSet_mem (n : Nat) (s : State) : (pendSet n s).mem = s.mem := by rw [pendSet_parts]
@[simp] theorem pendSet_loader (n : Nat) (s : State) : (pendSet n s).loader = s.loader := by rw [pendSet_parts]

theorem fget_groupEvent_other {f : Fld} {i g : Nat} {s : State} (h : f.key 0 ≠ F.INT_GRP_STATUS_STATE.key 0)
    (hf : f.key 0 < 16384) : fget f i (groupEvent g s) = fget f i s := by
  unfold groupEvent
  split
  · change fget f i (fset F.INT_GRP_STATUS_STATE g 1 s) = _
    exact fget_fset_other h (by decide) hf
  · rfl

/-- Setting a pending bit keeps every field but the pending words and the states of groups. -/
theorem fget_pendSet_other {f : Fld} {i n : Nat} {s : State} (hp : f.key 0 ≠ F.INT_PEND_PEND.key 0)
    (hg : f.key 0 ≠ F.INT_GRP_STATUS_STATE.key 0) (hf : f.key 0 < 16384) : fget f i (pendSet n s) = fget f i s := by
  unfold pendSet
  split
  · rfl
  · dsimp only
    split
    · exact fget_fset_other hp (by decide) hf
    · rw [fget_groupEvent_other hg hf, fget_fset_other hp (by decide) hf]

/-- R457: the pending bit of the source is set. -/
@[simp] theorem pendOf_pendSet_same (n : Nat) (s : State) : pendOf n (pendSet n s) = true := by
  unfold pendSet
  split
  · assumption
  · have bitSet : ∀ v, bit ((v ||| 2 ^ (n % 32)) % 2 ^ F.INT_PEND_PEND.w) (n % 32) = true := fun v => by
      have : n % 32 < F.INT_PEND_PEND.w := Nat.mod_lt n (by decide)
      simp [bit, Nat.testBit_mod_two_pow, this]
    dsimp only
    split
    · simp only [pendOf, fget_fset_same, bitSet]
    · rw [pendOf, fget_groupEvent_other (by decide) (by decide), fget_fset_same, bitSet]

/-- A pending bit depends on its word of INT_PEND alone. -/
theorem pendOf_congr {n : Nat} {s t : State} (h : ∀ i, fget F.INT_PEND_PEND i t = fget F.INT_PEND_PEND i s) :
    pendOf n t = pendOf n s := by simp only [pendOf, h]

/-- A level source that sees a change sets its pending bit, or nothing. -/
theorem riseIf_eq (n : Nat) (old s : State) : riseIf n old s = pendSet n s ∨ riseIf n old s = s := by
  unfold riseIf; split <;> simp

@[simp] theorem riseIf_mem (n : Nat) (old s : State) : (riseIf n old s).mem = s.mem := by
  rcases riseIf_eq n old s with h | h <;> simp [h]

/-- A change seen by a level source keeps every field but the pending words and the states of groups. -/
theorem fget_riseIf_other {f : Fld} {i n : Nat} {old s : State} (hp : f.key 0 ≠ F.INT_PEND_PEND.key 0)
    (hg : f.key 0 ≠ F.INT_GRP_STATUS_STATE.key 0) (hf : f.key 0 < 16384) : fget f i (riseIf n old s) = fget f i s := by
  rcases riseIf_eq n old s with h | h
  · rw [h, fget_pendSet_other hp hg hf]
  · rw [h]

@[simp] theorem setEvent_mem (f : Fld) (i n : Nat) (s : State) : (setEvent f i n s).mem = s.mem := by simp [setEvent]

/-- The event bit is set. -/
theorem flag_setEvent_same {f : Fld} {i n : Nat} {s : State} (hw : f.w = 1) (hp : f.key 0 ≠ F.INT_PEND_PEND.key 0)
    (hg : f.key 0 ≠ F.INT_GRP_STATUS_STATE.key 0) (hf : f.key 0 < 16384) : flag f i (setEvent f i n s) = true := by
  rw [flag, setEvent, fget_riseIf_other hp hg hf]
  exact flag_setFlag_same f i true s hw

/-- An event keeps every field but its own bit, the pending words and the states of groups. -/
theorem fget_setEvent_other {f g : Fld} {i j n : Nat} {s : State} (h : g.key 0 ≠ f.key 0) (hk : f.key 0 < 16384)
    (hp : g.key 0 ≠ F.INT_PEND_PEND.key 0) (hg : g.key 0 ≠ F.INT_GRP_STATUS_STATE.key 0) (hf : g.key 0 < 16384) :
    fget g j (setEvent f i n s) = fget g j s := by
  rw [setEvent, fget_riseIf_other hp hg hf, fget_setFlag_other h hk hf]

/-! ### Time carried forward (log 3) -/

/-- Time carried forward to a core cycle has reached it. -/
theorem le_reachCclk_cclk (c : Nat) (s : State) : c ≤ (reachCclk c s).time.cclk := by
  change c ≤ s.time.cclk + (c - s.time.cclk); omega

/-! ### Requests to the HBM arbiter (R23) -/

/-- R23: a request is the last of those that wait, in the class that asks. -/
theorem hbmAsk_waiting (cls who : Nat) (s : State) : ∃ r : HbmReq, r.cls = cls ∧ (hbmAsk cls who s).hbm.waiting = s.hbm.waiting ++ [r] :=
  ⟨_, rfl, rfl⟩

end Sys2Proof.Machine
end

section
/-! SUPPORT and CERTIFICATE. Errors of HBM and SRAM, initialisation, promotion, forced refresh and the background passes
(R26, R27, R30, R31, R399, R401, R402). -/
namespace Sys2Proof.Machine

/-! ### Errors (R401, R402) -/

/-- R401: what an uncorrectable error at an address leaves before its Hasp source rises: count, address, poison, event. -/
def ueState (a : Nat) (s : State) : State :=
  let v := fset F.MEM_UE_ADDR_LO_ADDR 0 a (fset F.MEM_UE_ADDR_HI_ADDR 0 (a / 2 ^ 32) (bump F.MEM_HBM_UE_COUNT 0 s))
  setEvent F.MEM_STATUS_UE_SEEN 0 98 { v with mem := { v.mem with poison := Tab.put s.mem.poison (a / 64) true } }

theorem exec_hbmCorrectableError {a : Nat} {s : State} (ha : a < 72 * 2 ^ 30) (hr : memoryRuns s = true) :
    exec (.hbmCorrectableError a) s = .next (haspRise 12 (a / 256 % 2) (bump F.MEM_HBM_CE_COUNT 0 s)) :=
  congrArg Host.Outcome.next (if_pos ⟨ha, hr⟩)

theorem exec_hbmUncorrectableError {a : Nat} {s : State} (ha : a < 72 * 2 ^ 30) (hr : memoryRuns s = true) :
    exec (.hbmUncorrectableError a) s = .next (haspRise 13 (a / 256 % 2) (ueState a s)) :=
  congrArg Host.Outcome.next (if_pos ⟨ha, hr⟩)

/-- R401: the line of the address is poisoned, and no byte changes. -/
theorem ueState_mem (a : Nat) (s : State) :
    (ueState a s).mem = { s.mem with poison := Tab.put s.mem.poison (a / 64) true } := setEvent_mem ..

theorem ueState_cells (a : Nat) (s : State) : (ueState a s).mem.cells = s.mem.cells := by rw [ueState_mem]

theorem poisonedAt_ueState (a : Nat) (s : State) : poisonedAt a (ueState a s) = true := by
  rw [poisonedAt, ueState_mem]; exact Tab.get_put_same ..

/-- R401: the registers of an uncorrectable error. -/
theorem ueState_fields (a : Nat) (s : State) : flag F.MEM_STATUS_UE_SEEN 0 (ueState a s) = true ∧
    fget F.MEM_UE_ADDR_LO_ADDR 0 (ueState a s) = a % 2 ^ 32 ∧
    fget F.MEM_UE_ADDR_HI_ADDR 0 (ueState a s) = a / 2 ^ 32 % 2 ^ F.MEM_UE_ADDR_HI_ADDR.w ∧
    fget F.MEM_HBM_UE_COUNT 0 (ueState a s) = (fget F.MEM_HBM_UE_COUNT 0 s + 1) % 2 ^ F.MEM_HBM_UE_COUNT.w := by
  -- a read of another field than UE_SEEN sees the three writes, for poison is no register
  have seen : ∀ f : Fld, f.key 0 ≠ F.MEM_STATUS_UE_SEEN.key 0 → f.key 0 ≠ F.INT_PEND_PEND.key 0 →
      f.key 0 ≠ F.INT_GRP_STATUS_STATE.key 0 → f.key 0 < 16384 → fget f 0 (ueState a s) =
        fget f 0 (fset F.MEM_UE_ADDR_LO_ADDR 0 a (fset F.MEM_UE_ADDR_HI_ADDR 0 (a / 2 ^ 32) (bump F.MEM_HBM_UE_COUNT 0 s))) :=
    fun f h hp hg hf => fget_setEvent_other h (by decide) hp hg hf
  refine ⟨flag_setEvent_same rfl (by decide) (by decide) (by decide), ?_, ?_, ?_⟩
  · rw [seen _ (by decide) (by decide) (by decide) (by decide), fget_fset_same]; rfl
  · rw [seen _ (by decide) (by decide) (by decide) (by decide), fget_fset_other (by decide) (by decide) (by decide),
      fget_fset_same]
  · rw [seen _ (by decide) (by decide) (by decide) (by decide), fget_fset_other (by decide) (by decide) (by decide),
      fget_fset_other (by decide) (by decide) (by decide), fget_bump_same]

theorem exec_sramError {s : State} (hr : memoryRuns s = true) (x : Fin 5) :
    exec (.sramError x true) s = .next (haspRise 15 x (bump F.MEM_SRAM_CE_COUNT 0 s)) ∧
    exec (.sramError x false) s = .next (haspRise 16 x (bump F.MEM_SRAM_UE_COUNT 0 s)) := by
  constructor <;> simp [exec, execSramError, hr]

theorem exec_backgroundOverrun {s : State} (hr : memoryRuns s = true) (x : Fin 8) : exec (.backgroundOverrun x) s =
    .next (haspRise (45 + x.val) 0 { s with hbm := { s.hbm with pass := Tab.put s.hbm.pass x.val s.time.cclk } }) := by
  simp [exec, execBackgroundOverrun, hr]

/-- In OFF and STANDBY no error and no overrun comes about. -/
theorem exec_memory_error_stopped {s : State} (hr : memoryRuns s = false) (a : Nat) (u : Fin 5) (b : Bool) (x : Fin 8) :
    ∀ c ∈ [Instr.hbmCorrectableError a, .hbmUncorrectableError a, .sramError u b, .backgroundOverrun x],
      exec c s = .next s := by
  intro c hc
  simp only [List.mem_cons, List.not_mem_nil, or_false] at hc
  rcases hc with rfl | rfl | rfl | rfl
  · simp [exec, execHbmCorrectableError, hr]
  · simp [exec, execHbmUncorrectableError, hr]
  · simp [exec, execSramError, hr]
  · simp [exec, execBackgroundOverrun, hr]

/-! ### Initialisation (R399) -/

theorem Tab.get_filter_out {α : Type} (d : α) (p : Nat × α → Bool) (t : Tab α) (n : Nat) (h : ∀ v, p (n, v) = false) :
    Tab.get d (t.filter p) n = d := by
  induction t with
  | nil => rfl
  | cons q r ih =>
    obtain ⟨k, v⟩ := q
    by_cases hq : p (k, v) = true
    · have hk : k ≠ n := fun e => by simp [e, h] at hq
      simpa [hq, Tab.get, hk] using ih
    · simpa [hq] using ih

theorem Tab.get_filter_in {α : Type} (d : α) (p : Nat × α → Bool) (t : Tab α) (n : Nat) (h : ∀ v, p (n, v) = true) :
    Tab.get d (t.filter p) n = Tab.get d t n := by
  induction t with
  | nil => rfl
  | cons q r ih =>
    obtain ⟨k, v⟩ := q
    by_cases hk : k = n
    · simp [hk, h, Tab.get]
    · by_cases hq : p (k, v) = true <;> simpa [hq, Tab.get, hk] using ih

/-- A byte of the zeroed range reads 0. -/
theorem readByte_zeroMem_in {a n b : Nat} (s : State) (h : a ≤ b) (k : b < a + n) : readByte b (zeroMem a n s) = 0#8 :=
  Tab.get_filter_out _ _ _ _ (fun _ => by simp [h, k])

/-- A byte outside the zeroed range keeps its value. -/
theorem readByte_zeroMem_out {a n b : Nat} (s : State) (h : b < a ∨ a + n ≤ b) : readByte b (zeroMem a n s) = readByte b s :=
  Tab.get_filter_in _ _ _ _ (fun _ => by simp; omega)

@[simp] theorem readByte_hbmZero (a : Nat) (s : State) : readByte a (hbmZero s) = readByte a (zeroMem 0 hbmBytes s) := rfl
@[simp] theorem readByte_setFlag (a : Nat) (f : Fld) (i : Nat) (b : Bool) (s : State) :
    readByte a (setFlag f i b s) = readByte a s := rfl

theorem hbmInitDone_completes {s : State} (hm : s.mode = .boot) : Completes .hbmInitDone s fun t =>
    flag F.MEM_STATUS_INIT_DONE 0 t = true ∧ (∀ a, a < 72 * 2 ^ 30 → readByte a t = 0#8) ∧
    (∀ a, 72 * 2 ^ 30 ≤ a → readByte a t = readByte a s) ∧ KeepsFields [F.MEM_STATUS_INIT_DONE.key 0] s t := by
  refine .intro (t := setFlag F.MEM_STATUS_INIT_DONE 0 true (hbmZero s)) (congrArg Host.Outcome.next (if_pos hm))
    ⟨flag_setFlag_same _ _ _ _ rfl, fun a h => ?_, fun a h => ?_, ?_⟩
  · rw [readByte_setFlag, readByte_hbmZero, readByte_zeroMem_in s (Nat.zero_le a) (by rw [Nat.zero_add]; exact h)]
  · rw [readByte_setFlag, readByte_hbmZero, readByte_zeroMem_out s (.inr (by rw [Nat.zero_add]; exact h))]
  · exact (KeepsFields.of_regs (t := hbmZero s) rfl).setFlag (List.mem_singleton_self _)

/-! ### Promotion and refresh (R26, R27) -/

/-- R26: the request at the front is raised when it may be. -/
theorem raiseFirst_cons_of_mayRaise {cls now : Nat} {r : HbmReq} (h : mayRaise cls now r = true) (l : List HbmReq) :
    raiseFirst cls now (r :: l) = { r with cls := max 1 (cls - 1), raised := true } :: l := if_pos h

/-- R26: with no request that may be raised, all stay as they are. -/
theorem raiseFirst_eq_self {cls now : Nat} {l : List HbmReq} (h : ∀ r ∈ l, mayRaise cls now r = false) :
    raiseFirst cls now l = l := by
  induction l with
  | nil => rfl
  | cons r l ih =>
    have head := h r List.mem_cons_self
    have tail := ih (fun q hq => h q (List.mem_cons_of_mem _ hq))
    simp [raiseFirst, head, tail]

theorem mayRaise_iff {cls now : Nat} {r : HbmReq} :
    mayRaise cls now r = true ↔ r.cls = cls ∧ r.raised = false ∧ r.since + 32000 ≤ now := by
  have : mayRaise cls now r = true ↔ r.cls = cls ∧ r.raised = false ∧ r.since + promoteAfter ≤ now := by
    simp [mayRaise, and_assoc]
  exact this

theorem hbmPromotion_completes (x : Fin 3) (s : State) : Completes (.hbmPromotion x) s fun t => t = { s with hbm := t.hbm } ∧
    (∀ r l, s.hbm.waiting = r :: l → r.cls = x.val + 1 → r.raised = false → r.since + 32000 ≤ s.time.cclk →
      t.hbm.waiting = { r with cls := max 1 x.val, raised := true } :: l) ∧
    ((∀ r ∈ s.hbm.waiting, r.cls ≠ x.val + 1 ∨ r.raised = true ∨ s.time.cclk < r.since + 32000) → t = s) := by
  refine .intro rfl ⟨rfl, fun r l hw hc hr hs => ?_, fun none => ?_⟩
  · dsimp only
    rw [hw, raiseFirst_cons_of_mayRaise (mayRaise_iff.2 ⟨hc, hr, hs⟩), Nat.add_sub_cancel]
  · have stay : ∀ r ∈ s.hbm.waiting, mayRaise (x.val + 1) s.time.cclk r = false := fun r hr => by
      rw [Bool.eq_false_iff, Ne, mayRaise_iff]
      rintro ⟨hc, hf, hs⟩
      rcases none r hr with h | h | h
      · exact h hc
      · simp [h] at hf
      · omega
    rw [raiseFirst_eq_self stay]

theorem refreshPostponed_iff (b : Nat) (s : State) :
    refreshPostponed b s = true ↔ ∃ r ∈ s.hbm.waiting, r.cls = 0 ∧ r.bank = b := by simp [refreshPostponed]

theorem hbmRefreshForced_completes (b : Nat) (s : State) :
    ((∃ r ∈ s.hbm.waiting, r.cls = 0 ∧ r.bank = b) → Completes (.hbmRefreshForced b) s fun t => t = { s with hbm := t.hbm } ∧
      Tab.get 0 t.hbm.refresh b = s.time.cclk + 304 ∧ t.hbm.waiting = s.hbm.waiting) ∧
    ((∀ r ∈ s.hbm.waiting, r.cls = 0 → r.bank ≠ b) → Completes (.hbmRefreshForced b) s fun t => t = s) := by
  constructor
  · intro h
    exact .intro (congrArg Host.Outcome.next (if_pos ((refreshPostponed_iff b s).2 h))) ⟨rfl, Tab.get_put_same .., rfl⟩
  · intro h
    refine .intro (congrArg Host.Outcome.next (if_neg ?_)) rfl
    rw [refreshPostponed_iff]
    rintro ⟨r, hr, hc, hb⟩
    exact h r hr hc hb

/-! ### Passes (R30, R31) -/

/-- The instant from which a pass is counted: a period after the one before, or at once. -/
def passWait (key period : Nat) (s : State) : State :=
  match Tab.find? s.hbm.pass key with
  | some c => reachCclk (c + period) s
  | none => s

theorem passBegin_eq (key period : Nat) (s : State) : passBegin key period s = { passWait key period s with
    hbm := { (passWait key period s).hbm with
      pass := Tab.put (passWait key period s).hbm.pass key (passWait key period s).time.cclk } } := rfl

theorem passWait_frame (key period : Nat) (s : State) : (passWait key period s).hbm = s.hbm ∧
    (passWait key period s).regs = s.regs ∧ (passWait key period s).mem = s.mem := by
  unfold passWait; split <;> exact ⟨rfl, rfl, rfl⟩

/-- R30: a pass begins at the present instant, which lies a period after the beginning of the one before. -/
theorem passBegin_spec (key period : Nat) (s : State) : ∀ t, t = passBegin key period s →
    Tab.find? t.hbm.pass key = some t.time.cclk ∧ (∀ c, Tab.find? s.hbm.pass key = some c → c + period ≤ t.time.cclk) ∧
    t.hbm.waiting = s.hbm.waiting ∧ t.regs = s.regs ∧ t.mem = s.mem := by
  rintro _ rfl
  obtain ⟨hbm, regs, mem⟩ := passWait_frame key period s
  rw [passBegin_eq]
  refine ⟨Tab.find?_put_same .., fun c hc => ?_, ?_, regs, mem⟩
  · have : passWait key period s = reachCclk (c + period) s := by simp only [passWait, hc]
    dsimp only
    rw [this]
    exact le_reachCclk_cclk _ s
  · dsimp only
    rw [hbm]

theorem sramPatrolScrub_completes {s : State} (hm : s.mode ≠ .off) : Completes .sramPatrolScrub s fun t =>
    Tab.find? t.hbm.pass 0 = some t.time.cclk ∧ (∀ c, Tab.find? s.hbm.pass 0 = some c → c + 320000000 ≤ t.time.cclk) ∧
    t.hbm.waiting = s.hbm.waiting ∧ t.regs = s.regs ∧ t.mem = s.mem :=
  .intro (congrArg Host.Outcome.next (if_neg hm)) (passBegin_spec 0 320000000 s _ rfl)

/-- R30, R31: the scrub of HBM is a pass that asks for a class D burst. -/
theorem hbmPatrolScrub_completes {s : State} (hm : s.mode ≠ .off) : Completes .hbmPatrolScrub s fun t =>
    Tab.find? t.hbm.pass 1 = some t.time.cclk ∧ (∀ c, Tab.find? s.hbm.pass 1 = some c → c + 34560000000000 ≤ t.time.cclk) ∧
    t.hbm.waiting.dropLast = s.hbm.waiting ∧ t.hbm.waiting.getLast?.map (·.cls) = some 3 ∧ t.regs = s.regs ∧
    t.mem = s.mem := by
  obtain ⟨pass, wait, waiting, regs, mem⟩ := passBegin_spec 1 34560000000000 s _ rfl
  obtain ⟨r, hr, asked⟩ := hbmAsk_waiting 3 130 (passBegin 1 34560000000000 s)
  refine .intro (congrArg Host.Outcome.next (if_neg hm)) ⟨pass, wait, ?_, ?_, regs, mem⟩
  · rw [asked, List.dropLast_concat, waiting]
  · rw [asked, List.getLast?_concat, Option.map_some, hr]

theorem serdesAdaptation_completes {s : State} (hm : s.mode ≠ .off) (l : Fin 280) :
    Completes (.serdesAdaptation l) s fun t => Tab.find? t.hbm.pass (8 + l.val) = some t.time.cclk ∧
      (∀ c, Tab.find? s.hbm.pass (8 + l.val) = some c → c + 16000000 ≤ t.time.cclk) ∧
      t.hbm.waiting = s.hbm.waiting ∧ t.regs = s.regs ∧ t.mem = s.mem :=
  .intro (congrArg Host.Outcome.next (if_neg hm)) (passBegin_spec (8 + l.val) 16000000 s _ rfl)

/-- Settles O36, clause by clause from the rules of each command. -/
theorem memoryErrorsAreCounted : Obligations.MemoryErrorsAreCounted := by
  refine ⟨fun a s ha hr => exec_hbmCorrectableError ha hr, ?uncorrectable, fun x s hr => exec_sramError hr x,
    fun s hm => hbmInitDone_completes hm, hbmPromotion_completes, hbmRefreshForced_completes,
    fun s hm => ⟨sramPatrolScrub_completes hm, hbmPatrolScrub_completes hm⟩, fun l s hm => serdesAdaptation_completes hm l,
    fun x s hr => exec_backgroundOverrun hr x, fun a u b x s hr => exec_memory_error_stopped hr a u b x⟩
  case uncorrectable =>
    rintro a s ha hr _ rfl _ rfl
    obtain ⟨seen, lo, hi, count⟩ := ueState_fields a s
    exact ⟨exec_hbmUncorrectableError ha hr, poisonedAt_ueState a s, seen, lo, hi, count,
      ueState_cells a s⟩

end Sys2Proof.Machine
end

section
/-! SUPPORT and CERTIFICATE. A tick of a domain (R21, R72, R106, R108, R456): what the output lines, the gates of ports and the
waiting channels leave alone, and from that what the tick shows. -/
namespace Sys2Proof.Machine

/-! ### What comes before the index: lines rise and time passes -/

/-- From `s` to `t` lines rise and time passes, and nothing else: no register, no memory, no index of a tick. -/
def Rises (s t : State) : Prop :=
  (∃ pulse cclk ptp ints out,
    t = { s with time := { s.time with pulse := pulse, cclk := cclk, ptp := ptp }, ints := ints, out := out }) ∧
  ∀ n, lineUp n s = true → lineUp n t = true

theorem Rises.refl (s : State) : Rises s s := ⟨⟨_, _, _, _, _, rfl⟩, fun _ h => h⟩

theorem Rises.trans {s t u : State} (h : Rises s t) (k : Rises t u) : Rises s u := by
  obtain ⟨⟨_, _, _, _, _, rfl⟩, up⟩ := h
  obtain ⟨⟨_, _, _, _, _, rfl⟩, up'⟩ := k
  exact ⟨⟨_, _, _, _, _, rfl⟩, fun n h => up' n (up n h)⟩

theorem Rises.cfg {s t : State} (h : Rises s t) : t.cfg = s.cfg := by
  obtain ⟨⟨_, _, _, _, _, rfl⟩, -⟩ := h; rfl

theorem Rises.mode {s t : State} (h : Rises s t) : t.mode = s.mode := by
  obtain ⟨⟨_, _, _, _, _, rfl⟩, -⟩ := h; rfl

theorem Rises.flag {s t : State} (h : Rises s t) (f : Fld) (i : Nat) : flag f i t = flag f i s := by
  obtain ⟨⟨_, _, _, _, _, rfl⟩, -⟩ := h; rfl

theorem Rises.ite {s a b : State} {c : Prop} [Decidable c] (h : Rises s a) (k : Rises s b) : Rises s (if c then a else b) := by
  split <;> assumption

theorem reachPtp_rises (t : Nat) (s : State) : Rises s (reachPtp t s) := ⟨⟨_, _, _, _, _, rfl⟩, fun _ h => h⟩

/-- R108: the line is up from its rise on. -/
theorem lineUp_pulseLine_same (n w : Nat) (s : State) : lineUp n (pulseLine n w s) = true := by
  simp [lineUp, pulseLine]

theorem lineUp_pulseLine {n m w : Nat} {s : State} (h : lineUp m s = true) : lineUp m (pulseLine n w s) = true := by
  by_cases e : m = n
  · subst e; exact lineUp_pulseLine_same m w s
  · have : lineUp m (pulseLine n w s) = lineUp m s := by
      unfold pulseLine lineUp
      split <;> simp [Tab.get_put_ne, e]
    rw [this, h]

theorem pulseLine_rises (n w : Nat) (s : State) : Rises s (pulseLine n w s) := by
  refine ⟨?_, fun _ h => lineUp_pulseLine h⟩
  unfold pulseLine
  split <;> exact ⟨_, _, _, _, _, rfl⟩

/-- R108: the TICK_OUT balls of the domain rise. -/
def raiseBalls (td : Nat) (l : List Nat) (s : State) : State :=
  l.foldl (fun s b => if ballFn s.cfg b == 1 && ballTd s.cfg b == td then pulseLine b 100 s else s) s

theorem raiseBalls_rises (td : Nat) (l : List Nat) (s : State) : Rises s (raiseBalls td l s) := by
  induction l generalizing s with
  | nil => exact .refl s
  | cons b l ih => exact (Rises.ite (pulseLine_rises b 100 s) (.refl s)).trans (ih _)

theorem lineUp_raiseBalls {td b : Nat} {l : List Nat} {s : State} (hb : b ∈ l) (hf : ballFn s.cfg b = 1)
    (ht : ballTd s.cfg b = td) : lineUp b (raiseBalls td l s) = true := by
  induction l generalizing s with
  | nil => cases hb
  | cons c l ih =>
    have first := Rises.ite (c := (ballFn s.cfg c == 1 && ballTd s.cfg c == td) = true) (pulseLine_rises c 100 s) (.refl s)
    rcases List.mem_cons.1 hb with rfl | hb
    · refine (raiseBalls_rises td l _).2 b ?_
      simp [hf, ht, lineUp_pulseLine_same]
    · exact ih hb (by rw [first.cfg, hf]) (by rw [first.cfg, ht])

/-- R129: the modes in which the tick master drives SHK_TICK. -/
def tickMode (m : Mode) : Bool := m == .configure || m == .operate || m == .standby || m == .lockdown

/-- R108, R129: balls and SHK_TICK at the instant of the tick, and the 8 ns until every block sees it. -/
def tickLines (td : Nat) (s : State) : State :=
  let k := tickNext td s
  let s := raiseBalls td (List.range 8) (reachPtp (tickTime s.cfg td k) s)
  let s := if td = 0 && flag F.SHK_STATUS_MASTER 0 s && tickMode s.mode then pulseLine 8 100 s else s
  reachPtp (tickTime s.cfg td k + 8) s

/-- R21, R106: index `k` is seen. -/
def tickShow (td k : Nat) (s : State) : State :=
  let s := setTickNext td (k + 1) (fset F.TICK_IDX_LO_IDX td (k % 2 ^ 32) (fset F.TICK_IDX_HI_IDX td (k / 2 ^ 32) s))
  let s := { s with time := { s.time with tickSeen := Tab.set false s.time.tickSeen td true } }
  pendSet (16 + td) (emit (.tickSeen td k) s)

theorem tickEmit_eq (td : Nat) (s : State) : tickEmit td s = tickShow td (tickNext td s) (tickLines td s) := rfl

theorem tickLines_rises (td : Nat) (s : State) : Rises s (tickLines td s) :=
  (((reachPtp_rises _ s).trans (raiseBalls_rises td _ _)).trans (.ite (pulseLine_rises 8 100 _) (.refl _))).trans
    (reachPtp_rises _ _)

theorem lineUp_tickLines_ball {td b : Nat} {s : State} (hb : b < 8) (hf : ballFn s.cfg b = 1) (ht : ballTd s.cfg b = td) :
    lineUp b (tickLines td s) = true := by
  have balls := lineUp_raiseBalls (s := reachPtp (tickTime s.cfg td (tickNext td s)) s) (List.mem_range.2 hb) hf ht
  exact (reachPtp_rises _ _).2 b ((Rises.ite (pulseLine_rises 8 100 _) (.refl _)).2 b balls)

theorem lineUp_tickLines_shk {s : State} (hm : flag F.SHK_STATUS_MASTER 0 s = true) (mode : tickMode s.mode = true) :
    lineUp 8 (tickLines 0 s) = true := by
  have before := (reachPtp_rises (tickTime s.cfg 0 (tickNext 0 s)) s).trans (raiseBalls_rises 0 (List.range 8) _)
  refine (reachPtp_rises _ _).2 8 ?_
  rw [if_pos (by rw [before.flag, before.mode, hm, mode]; rfl)]
  exact lineUp_pulseLine_same 8 100 _

/-! ### What comes after the index: gates and channels -/

/-- The fields in which a tick shows itself, and the one that says whether a delta waits for it. -/
def tickFields : List Fld := [F.TICK_IDX_HI_IDX, F.TICK_IDX_LO_IDX, F.INT_PEND_PEND, F.IMG_STATUS_DELTA_PENDING]

/-- From `s` to `t` a tick's consumers act: clock, lines, memory, mode, loader and the fields of the tick stay. -/
structure TickKept (s t : State) : Prop where
  time : t.time = s.time
  mem : t.mem = s.mem
  mode : t.mode = s.mode
  loader : t.loader = s.loader
  fields : ∀ f ∈ tickFields, ∀ i, fget f i t = fget f i s

theorem TickKept.refl (s : State) : TickKept s s := ⟨rfl, rfl, rfl, rfl, fun _ _ _ => rfl⟩

theorem TickKept.trans {s t u : State} (h : TickKept s t) (k : TickKept t u) : TickKept s u :=
  ⟨k.time.trans h.time, k.mem.trans h.mem, k.mode.trans h.mode, k.loader.trans h.loader,
    fun f hf i => (k.fields f hf i).trans (h.fields f hf i)⟩

theorem TickKept.foldl {α : Type} {g : State → α → State} (h : ∀ s x, TickKept s (g s x)) (l : List α) (s : State) :
    TickKept s (l.foldl g s) := by
  induction l generalizing s with
  | nil => exact .refl s
  | cons x l ih => exact (h s x).trans (ih _)

theorem fset_tickKept {f : Fld} (h : ∀ g ∈ tickFields, g.key 0 ≠ f.key 0 ∧ g.key 0 < 16384) (hf : f.key 0 < 16384) (i v : Nat)
    (s : State) : TickKept s (fset f i v s) :=
  ⟨rfl, rfl, rfl, rfl, fun g hg _ => fget_fset_other (h g hg).1 hf (h g hg).2⟩

theorem gclTakeOver_tickKept (p w : Nat) (s : State) : TickKept s (gclTakeOver p w s) := by
  have list := fset_tickKept (f := F.TM_GCL_STATUS_OPER_LIST) (by decide) (by decide) p (adminList p s) s
  have pend := fset_tickKept (f := F.TM_GCL_STATUS_PENDING) (by decide) (by decide) p (b2n false)
    (fset F.TM_GCL_STATUS_OPER_LIST p (adminList p s) s)
  exact (list.trans pend).trans ⟨rfl, rfl, rfl, rfl, fun _ _ _ => rfl⟩

/-- R216: a gate cycle that is running starts again, and counts one that the tick cuts short. -/
def gateRestart (p t : Nat) (s : State) : State :=
  match Tab.find? s.tm.running p with
  | some g =>
    let s := if flag F.TM_GCL_CTRL_ENABLE p s && decide (g.cycleStart + gateSum p g s > t) then bump F.TM_GCL_TRUNC_COUNT p s else s
    { s with tm := { s.tm with running := Tab.put s.tm.running p { g with entry := 0, cycleStart := t, entryStart := t } } }
  | none => s

theorem gateRestart_tickKept (p t : Nat) (s : State) : TickKept s (gateRestart p t s) := by
  unfold gateRestart
  split
  · dsimp only
    split
    · exact (fset_tickKept (f := F.TM_GCL_TRUNC_COUNT) (by decide) (by decide) p _ s).trans
        ⟨rfl, rfl, rfl, rfl, fun _ _ _ => rfl⟩
    · exact ⟨rfl, rfl, rfl, rfl, fun _ _ _ => rfl⟩
  · exact .refl s

/-- R216: an administrative list waits that is due at the tick. -/
def gateDue (p t : Nat) (s : State) : Bool :=
  match Tab.find? s.tm.change p with
  | some c => decide (c ≤ t + 1)
  | none => false

theorem gateTick_eq (p t : Nat) (s : State) :
    gateTick p t s = if gateDue p t s then gclTakeOver p t (gateRestart p t s) else gateRestart p t s := rfl

theorem gateTick_tickKept (p t : Nat) (s : State) : TickKept s (gateTick p t s) := by
  rw [gateTick_eq]
  split
  · exact (gateRestart_tickKept p t s).trans (gclTakeOver_tickKept p t _)
  · exact gateRestart_tickKept p t s

theorem dmaTick_tickKept (td : Nat) (s : State) : TickKept s (dmaTick td s) := by
  refine TickKept.foldl (fun s c => ?_) _ s
  split
  · exact ⟨rfl, rfl, rfl, rfl, fun _ _ _ => rfl⟩
  · exact .refl s

/-- R21: gates and channels leave alone what the tick shows. -/
theorem tickConsumers_tickKept (td t : Nat) (s : State) : TickKept s (tickConsumers td t s) := by
  unfold tickConsumers
  split
  · exact .refl s
  · exact (TickKept.foldl (fun s p => gateTick_tickKept p t s) _ s).trans (dmaTick_tickKept td _)

/-! ### The tick -/

/-- Fields of other units keep their values while the tick is shown. -/
theorem fget_tickShow {f : Fld} (hp : f.key 0 ≠ F.INT_PEND_PEND.key 0) (hg : f.key 0 ≠ F.INT_GRP_STATUS_STATE.key 0)
    (hf : f.key 0 < 16384) (td k i : Nat) (s : State) : fget f i (tickShow td k s) =
      fget f i (fset F.TICK_IDX_LO_IDX td (k % 2 ^ 32) (fset F.TICK_IDX_HI_IDX td (k / 2 ^ 32) s)) :=
  fget_pendSet_other hp hg hf

/-- R106: TICK_IDX holds the index. -/
theorem tickIdx_tickShow_same {k : Nat} (hk : k < 2 ^ 64) (td : Nat) (s : State) : tickIdx td (tickShow td k s) = k := by
  rw [tickIdx, fget_tickShow (by decide) (by decide) (by decide), fget_tickShow (by decide) (by decide) (by decide),
    fget_fset_other (by decide) (by decide) (by decide), fget_fset_same, fget_fset_same]
  change k / 2 ^ 32 % 2 ^ 32 * 2 ^ 32 + k % 2 ^ 32 % 2 ^ 32 = k
  omega

theorem tickIdx_tickShow_ne {d td : Nat} (h : d ≠ td) (k : Nat) (s : State) :
    tickIdx d (tickShow td k s) = tickIdx d s := by
  rw [tickIdx, fget_tickShow (by decide) (by decide) (by decide), fget_tickShow (by decide) (by decide) (by decide),
    fget_fset_other (by decide) (by decide) (by decide), fget_fset_inst h, fget_fset_inst h,
    fget_fset_other (by decide) (by decide) (by decide)]
  rfl

theorem tickShow_time (td k : Nat) (s : State) : (tickShow td k s).time =
    { s.time with tickNext := Tab.set 0 s.time.tickNext td (k + 1), tickSeen := Tab.set false s.time.tickSeen td true } :=
  pendSet_time _ _

theorem tickShow_mem (td k : Nat) (s : State) : (tickShow td k s).mem = s.mem := pendSet_mem _ _
theorem tickShow_mode (td k : Nat) (s : State) : (tickShow td k s).mode = s.mode := pendSet_mode _ _
theorem tickShow_loader (td k : Nat) (s : State) : (tickShow td k s).loader = s.loader := pendSet_loader _ _

theorem tickNext_tickShow_same (td k : Nat) (s : State) : tickNext td (tickShow td k s) = k + 1 := by
  simp [tickNext, tickShow_time]

theorem tickNext_tickShow_ne {d td : Nat} (h : d ≠ td) (k : Nat) (s : State) :
    tickNext d (tickShow td k s) = tickNext d s := by
  simp [tickNext, tickShow_time, Tab.get_set_ne, h]

theorem tickSeen_tickShow (td k : Nat) (s : State) : Tab.get false (tickShow td k s).time.tickSeen td = true := by
  simp [tickShow_time]

theorem lineUp_tickShow (n td k : Nat) (s : State) : lineUp n (tickShow td k s) = lineUp n s := by
  simp [lineUp, tickShow_time]

theorem TickKept.tickIdx {s t : State} (h : TickKept s t) (d : Nat) : tickIdx d t = tickIdx d s := by
  rw [Machine.tickIdx, h.fields _ (by simp [tickFields]), h.fields _ (by simp [tickFields])]; rfl

theorem TickKept.tickNext {s t : State} (h : TickKept s t) (d : Nat) : tickNext d t = tickNext d s := by
  rw [Machine.tickNext, h.time]; rfl

theorem TickKept.lineUp {s t : State} (h : TickKept s t) (n : Nat) : lineUp n t = lineUp n s := by
  rw [Machine.lineUp, h.time]; rfl

theorem TickKept.pendOf {s t : State} (h : TickKept s t) (n : Nat) : pendOf n t = pendOf n s :=
  pendOf_congr (h.fields _ (by simp [tickFields]))

/-- R72: the mark of a waiting delta is the loader's alone. -/
theorem deltaTick_parts (td : Nat) (s : State) : deltaTick td s = { s with loader := (deltaTick td s).loader } := by
  unfold deltaTick; split <;> rfl

theorem deltaTick_applySeen {td : Nat} {s : State} (hp : flag F.IMG_STATUS_DELTA_PENDING 0 s = true)
    (ht : byteAt s.loader.pendHeader 0x3A = td) : (deltaTick td s).loader.applySeen = true := by
  simp [deltaTick, hp, ht]

/-- The state once the tick has been seen by gates and channels. -/
def ticked (td : Nat) (s : State) : State := tickConsumers td (tickTime s.cfg td (tickNext td s)) (tickEmit td s)

theorem exec_tick {td : Td} {s : State} (h : tickRuns td s = true) : exec (.tick td) s = .next (deltaTick td (ticked td s)) :=
  congrArg Host.Outcome.next (if_pos h)

/-- What the tick has shown is there when gates and channels have seen it. -/
theorem ticked_kept (td : Nat) (s : State) : TickKept (tickShow td (tickNext td s) (tickLines td s)) (ticked td s) := by
  rw [ticked, tickEmit_eq]; exact tickConsumers_tickKept _ _ _

theorem tickIdx_ticked_same {td : Nat} {s : State} (h : tickNext td s < 2 ^ 64) : tickIdx td (ticked td s) = tickNext td s := by
  rw [(ticked_kept td s).tickIdx, tickIdx_tickShow_same h]

theorem tickNext_ticked_same (td : Nat) (s : State) : tickNext td (ticked td s) = tickNext td s + 1 := by
  rw [(ticked_kept td s).tickNext, tickNext_tickShow_same]

theorem tickSeen_ticked (td : Nat) (s : State) : Tab.get false (ticked td s).time.tickSeen td = true := by
  rw [(ticked_kept td s).time, tickSeen_tickShow]

theorem pendOf_ticked (td : Nat) (s : State) : pendOf (16 + td) (ticked td s) = true := by
  rw [(ticked_kept td s).pendOf]; exact pendOf_pendSet_same _ _

theorem lineUp_ticked {td n : Nat} {s : State} (h : lineUp n (tickLines td s) = true) : lineUp n (ticked td s) = true := by
  rw [(ticked_kept td s).lineUp, lineUp_tickShow, h]

/-- Memory, mode, the loader and every other domain stay. -/
theorem ticked_frame (td : Nat) (s : State) : (ticked td s).mem = s.mem ∧ (ticked td s).mode = s.mode ∧
    (ticked td s).loader = s.loader ∧ ∀ d, d ≠ td → tickIdx d (ticked td s) = tickIdx d s ∧
      tickNext d (ticked td s) = tickNext d s := by
  have kept := ticked_kept td s
  obtain ⟨⟨pulse, cclk, ptp, ints, out, lines⟩, -⟩ := tickLines_rises td s
  refine ⟨?_, ?_, ?_, fun d hd => ⟨?_, ?_⟩⟩
  · rw [kept.mem, tickShow_mem, lines]
  · rw [kept.mode, tickShow_mode, lines]
  · rw [kept.loader, tickShow_loader, lines]
  · rw [kept.tickIdx, tickIdx_tickShow_ne hd, lines]; rfl
  · rw [kept.tickNext, tickNext_tickShow_ne hd, lines]; rfl

theorem deltaPending_ticked (td : Nat) (s : State) :
    flag F.IMG_STATUS_DELTA_PENDING 0 (ticked td s) = flag F.IMG_STATUS_DELTA_PENDING 0 s := by
  rw [flag, (ticked_kept td s).fields _ (by simp [tickFields]), fget_tickShow (by decide) (by decide) (by decide),
    fget_fset_other (by decide) (by decide) (by decide), fget_fset_other (by decide) (by decide) (by decide)]
  exact (tickLines_rises td s).flag _ _

theorem tickMode_of_tickRuns {td : Nat} {s : State} (h : tickRuns td s = true) : tickMode s.mode = true :=
  (Bool.and_eq_true_iff.1 h).2

/-- Settles O11: the delta's mark changes the loader alone, so the tick shows what gates and channels have left. -/
theorem tickAdvancesTheIndex : Obligations.TickAdvancesTheIndex := by
  intro td s runs small
  obtain ⟨mem, mode, loader, others⟩ := ticked_frame td s
  refine .intro (exec_tick runs) ?_
  have delta (hp : flag F.IMG_STATUS_DELTA_PENDING 0 s = true) (ht : byteAt s.loader.pendHeader 0x3A = td) :
      (deltaTick td (ticked td s)).loader.applySeen = true :=
    deltaTick_applySeen (by rw [deltaPending_ticked, hp]) (by rw [loader, ht])
  rw [deltaTick_parts] at delta ⊢
  exact ⟨tickIdx_ticked_same small, tickNext_ticked_same td s, tickSeen_ticked td s, pendOf_ticked td s, mem, mode,
    fun b hb hf ht => lineUp_ticked (lineUp_tickLines_ball hb hf ht),
    fun h hm => lineUp_ticked (by subst h; exact lineUp_tickLines_shk hm (tickMode_of_tickRuns runs)), others, delta⟩

end Sys2Proof.Machine
end

section
/-! SUPPORT and CERTIFICATE. Commits, swaps, restarts and overruns of a coding engine (R275, R284, R285, R289, R290, R403). -/
namespace Sys2Proof.Machine

/-! ### Engines and stream contexts -/

@[simp] theorem engOf_engMod_same (e : Nat) (g : Engine → Engine) (s : State) : engOf e (engMod e g s) = g (engOf e s) := by
  simp [engOf, engMod, Tab.mod]

@[simp] theorem strm_strmMod_same (k : Nat) (g : Stream → Stream) (s : State) : strm k (strmMod k g s) = g (strm k s) := by
  simp [strm, strmMod, Tab.mod]

@[simp] theorem strm_engMod (k e : Nat) (g : Engine → Engine) (s : State) : strm k (engMod e g s) = strm k s := rfl
@[simp] theorem engOf_strmMod (e k : Nat) (g : Stream → Stream) (s : State) : engOf e (strmMod k g s) = engOf e s := rfl

/-- An engine depends on the coding part of the state alone. -/
theorem engOf_congr {e : Nat} {s t : State} (h : t.coding = s.coding) : engOf e t = engOf e s := by simp only [engOf, h]

/-- A stream context depends on the coding part of the state alone. -/
theorem strm_congr {k : Nat} {s t : State} (h : t.coding = s.coding) : strm k t = strm k s := by simp only [strm, h]

/-- Nothing but engines differs. -/
def OnlyEngines (s t : State) : Prop := ∃ eng, t = { s with coding := { s.coding with eng := eng } }

theorem OnlyEngines.refl (s : State) : OnlyEngines s s := ⟨_, rfl⟩

theorem OnlyEngines.trans {s t u : State} (h : OnlyEngines s t) (k : OnlyEngines t u) : OnlyEngines s u := by
  obtain ⟨_, rfl⟩ := h
  obtain ⟨_, rfl⟩ := k
  exact ⟨_, rfl⟩

theorem engMod_onlyEngines (e : Nat) (g : Engine → Engine) (s : State) : OnlyEngines s (engMod e g s) := ⟨_, rfl⟩

theorem OnlyEngines.strm {s t : State} (h : OnlyEngines s t) (k : Nat) : strm k t = strm k s := by
  obtain ⟨_, rfl⟩ := h; rfl

theorem OnlyEngines.fget {s t : State} (h : OnlyEngines s t) (f : Fld) (i : Nat) : fget f i t = fget f i s := by
  obtain ⟨_, rfl⟩ := h; rfl

theorem OnlyEngines.mem {s t : State} (h : OnlyEngines s t) : t.mem = s.mem := by
  obtain ⟨_, rfl⟩ := h; rfl

/-! ### Sequencer words (R558) -/

/-- A sequencer word touches TRC_DROPS and the trace queues alone. -/
theorem routineWord_parts (e ev seg : Nat) (w : Work) (s : State) : routineWord e ev seg w s =
    { s with regs := (routineWord e ev seg w s).regs, trc := (routineWord e ev seg w s).trc } := by
  unfold routineWord seqWord
  split
  · split <;> rfl
  · rfl

@[simp] theorem routineWord_coding (e ev seg : Nat) (w : Work) (s : State) : (routineWord e ev seg w s).coding = s.coding := by
  rw [routineWord_parts]
@[simp] theorem routineWord_mem (e ev seg : Nat) (w : Work) (s : State) : (routineWord e ev seg w s).mem = s.mem := by
  rw [routineWord_parts]

theorem fget_routineWord_other {f : Fld} {i e ev seg : Nat} {w : Work} {s : State} (h : f.key 0 ≠ F.TRC_DROPS_COUNT.key 0)
    (hf : f.key 0 < 16384) : fget f i (routineWord e ev seg w s) = fget f i s := by
  unfold routineWord seqWord
  split
  · split
    · rfl
    · exact fget_bumpBy_other h (by decide) hf
  · rfl

/-! ### Commits (R289, R403) -/

section
variable {e : Eng} {r : SegResult} {s : State} {w : Work} (hw : (engOf (gangHead s.cfg e) s).work = some w)
  (hl : w.cmd ≠ [] ∨ tickGone w.sc w.tick s = false)
include hw hl

/-- R289: a commit of a command, or of a LIVE picture in time. -/
theorem exec_segmentCommit_inTime : exec (.segmentCommit e r) s = .next (if r.poisoned then
      purgeAll (engKick (gangHead s.cfg e) (haspRise (21 + e.val / 8) e.val (failWork (gangHead s.cfg e) 0 s)))
    else if segEmpty w r then s
    else purgeAll (commitSeg (gangHead s.cfg e) r (engAsk (gangHead s.cfg e) w.sc s))) := by
  have inTime : (w.cmd.isEmpty && tickGone w.sc w.tick s) = false := by
    rcases hl with h | h <;> simp [h]
  simp [exec, execSegmentCommit, hw, inTime]

theorem exec_segmentCommit_poisoned (hp : r.poisoned = true) : exec (.segmentCommit e r) s = .next (purgeAll
    (engKick (gangHead s.cfg e) (haspRise (21 + e.val / 8) e.val (failWork (gangHead s.cfg e) 0 s)))) := by
  rw [exec_segmentCommit_inTime hw hl, if_pos hp]

theorem exec_segmentCommit_empty (hp : r.poisoned = false) (he : segEmpty w r = true) :
    exec (.segmentCommit e r) s = .next s := by
  rw [exec_segmentCommit_inTime hw hl, if_neg (by simp [hp]), if_pos he]

theorem exec_segmentCommit_taken (hp : r.poisoned = false) (he : segEmpty w r = false) : exec (.segmentCommit e r) s =
    .next (purgeAll (commitSeg (gangHead s.cfg e) r (engAsk (gangHead s.cfg e) w.sc s))) := by
  rw [exec_segmentCommit_inTime hw hl, if_neg (by simp [hp]), if_neg (by simp [he])]

end

/-- R23: an engine's request joins those that wait. -/
theorem engAsk_waiting_length (e k : Nat) (s : State) : (engAsk e k s).hbm.waiting.length = s.hbm.waiting.length + 1 := by
  obtain ⟨r, -, h⟩ := hbmAsk_waiting (if (strm k s).prio = 0 then 0 else 1) (whoEngine e) s
  rw [engAsk, h, List.length_append, List.length_singleton]

theorem exec_segmentCommit_idle {e : Eng} {s : State} (h : (engOf (gangHead s.cfg e) s).work = none) (r : SegResult) :
    exec (.segmentCommit e r) s = .next s := by simp [exec, execSegmentCommit, h]

/-! ### Swaps (R275) -/

/-- R275: the incoming context is loaded at its instant, and the outgoing one is saved. -/
def swapIn (h k : Nat) (s : State) : State :=
  engMod h (fun g => { g with swapTo := none, loaded := some k, saved := true }) (reachCclk (engOf h s).swapAt s)

theorem exec_swapComplete {e : Eng} {s : State} {k : Nat} (h : (engOf (gangHead s.cfg e) s).swapTo = some k) :
    exec (.swapComplete e) s = .next (engKick (gangHead s.cfg e) (startWork (gangHead s.cfg e) k
      (engAsk (gangHead s.cfg e) k (swapIn (gangHead s.cfg e) k s)))) := by
  simp [exec, execSwapComplete, h, swapIn]

theorem exec_swapComplete_none {e : Eng} {s : State} (h : (engOf (gangHead s.cfg e) s).swapTo = none) :
    exec (.swapComplete e) s = .next s := by simp [exec, execSwapComplete, h]

theorem swapIn_spec (h k : Nat) (s : State) : (engOf h s).swapAt ≤ (swapIn h k s).time.cclk ∧
    (engOf h (swapIn h k s)).swapTo = none ∧ (engOf h (swapIn h k s)).loaded = some k ∧ (swapIn h k s).regs = s.regs := by
  refine ⟨le_reachCclk_cclk _ s, ?_, ?_, rfl⟩ <;> simp [swapIn]

/-! ### Restarts (R290) -/

theorem exec_engineRestart_idle {e : Eng} {s : State} (h : (engOf (gangHead s.cfg e) s).work = none) (c : RestartCause) :
    exec (.engineRestart e c) s = .next s := by simp [exec, execEngineRestart, h]

/-- R290: the work with one more restart. -/
def Work.restarted (w : Work) : Work := { w with restarts := w.restarts + 1 }

/-- R290: a restart is counted on the engine, its work and its context. -/
def countRestart (h e : Nat) (w : Work) (s : State) : State :=
  strmMod w.sc (fun c => { c with restarts := c.restarts + 1 }) (routineWord h 2 w.segments w.restarted
    (setWork h (some w.restarted) (pendSet (112 + e) (bump F.CE_RESTARTS_COUNT e s))))

theorem fget_countRestart_restarts (h e : Nat) (w : Work) (s : State) : fget F.CE_RESTARTS_COUNT e (countRestart h e w s) =
    (fget F.CE_RESTARTS_COUNT e s + 1) % 2 ^ F.CE_RESTARTS_COUNT.w :=
  calc fget F.CE_RESTARTS_COUNT e (countRestart h e w s)
    _ = fget F.CE_RESTARTS_COUNT e (setWork h (some w.restarted) (pendSet (112 + e) (bump F.CE_RESTARTS_COUNT e s))) :=
        fget_routineWord_other (by decide) (by decide)
    _ = fget F.CE_RESTARTS_COUNT e (bump F.CE_RESTARTS_COUNT e s) := fget_pendSet_other (by decide) (by decide) (by decide)
    _ = _ := fget_bump_same _ _ _

theorem pendOf_countRestart (h e : Nat) (w : Work) (s : State) : pendOf (112 + e) (countRestart h e w s) = true := by
  have same : ∀ i, fget F.INT_PEND_PEND i (countRestart h e w s) =
      fget F.INT_PEND_PEND i (pendSet (112 + e) (bump F.CE_RESTARTS_COUNT e s)) :=
    fun _ => fget_routineWord_other (by decide) (by decide)
  rw [pendOf_congr same, pendOf_pendSet_same]

theorem strm_countRestart_restarts (h e : Nat) (w : Work) (s : State) :
    (strm w.sc (countRestart h e w s)).restarts = (strm w.sc s).restarts + 1 := by
  rw [countRestart, strm_strmMod_same, strm_congr (routineWord_coding ..), setWork, strm_engMod, strm_congr (pendSet_coding ..)]
  rfl

theorem engOf_countRestart (h e : Nat) (w : Work) (s : State) :
    engOf h (countRestart h e w s) = { engOf h s with work := some w.restarted } := by
  rw [countRestart, engOf_strmMod, engOf_congr (routineWord_coding ..), setWork, engOf_engMod_same, engOf_congr (pendSet_coding ..)]
  rfl

@[simp] theorem countRestart_mem (h e : Nat) (w : Work) (s : State) : (countRestart h e w s).mem = s.mem := by
  simp [countRestart, setWork, bump]

section
variable {e : Eng} {s : State} {w : Work} (hw : (engOf (gangHead s.cfg e) s).work = some w)
include hw

theorem exec_engineRestart_poisoned : exec (.engineRestart e .poisoned) s = .next (engKick (gangHead s.cfg e)
    (haspRise (21 + e.val / 8) e.val (failWork (gangHead s.cfg e) 0 s))) := by
  simp [exec, execEngineRestart, hw]

/-- R290: a correctable error is counted; the third in a row ends the work. -/
theorem exec_engineRestart_correctable : ∀ h, h = gangHead s.cfg e → ∀ u, u = countRestart h e w s →
    exec (.engineRestart e .correctable) s = .next (if (engOf h s).failRun + 1 = 3 then
      engKick h (haspRise (21 + e.val / 8) e.val (failWork h 3 u))
    else engMod h (fun g => { g with failRun := (engOf h s).failRun + 1 }) u) := by
  rintro _ rfl u rfl
  have run : (engOf (gangHead s.cfg e) (countRestart (gangHead s.cfg e) e w s)).failRun =
      (engOf (gangHead s.cfg e) s).failRun := by rw [engOf_countRestart]
  rw [← run]
  simp only [exec, execEngineRestart, hw]
  rfl

theorem engineRestart_correctable_completes (hn : (engOf (gangHead s.cfg e) s).failRun + 1 ≠ 3) :
    Completes (.engineRestart e .correctable) s fun t =>
      fget F.CE_RESTARTS_COUNT e t = (fget F.CE_RESTARTS_COUNT e s + 1) % 2 ^ F.CE_RESTARTS_COUNT.w ∧
      (engOf (gangHead s.cfg e) t).failRun = (engOf (gangHead s.cfg e) s).failRun + 1 ∧
      (strm w.sc t).restarts = (strm w.sc s).restarts + 1 ∧
      (engOf (gangHead s.cfg e) t).work.map (fun x => x.restarts) = some (w.restarts + 1) ∧
      pendOf (112 + e.val) t = true ∧ t.mem = s.mem := by
  have step := exec_engineRestart_correctable hw _ rfl _ rfl
  rw [if_neg hn] at step
  refine .intro step ⟨fget_countRestart_restarts .., ?_, strm_countRestart_restarts .., ?_, pendOf_countRestart .., countRestart_mem ..⟩
  · rw [engOf_engMod_same]
  · rw [engOf_engMod_same, engOf_countRestart]; rfl

theorem engineRestart_third (hn : (engOf (gangHead s.cfg e) s).failRun = 2) : exec (.engineRestart e .correctable) s =
    .next (engKick (gangHead s.cfg e) (haspRise (21 + e.val / 8) e.val
      (failWork (gangHead s.cfg e) 3 (countRestart (gangHead s.cfg e) e w s)))) := by
  rw [exec_engineRestart_correctable hw _ rfl _ rfl, if_pos (by rw [hn])]

end

/-! ### Overruns (R284, R285) -/

section
variable {k : Sc} {s : State} (hp : (strm k s).prio = 0) (hs : scState k s = 3)
include hp hs

/-- R284: the oldest picture of a running LIVE context, when its tick k + 2 has been seen. -/
theorem exec_liveOverrun {n : Nat} (hn : (liveTicks k s).head? = some n) :
    exec (.liveOverrun k) s = .next (if tickGone k n s then overrun k n s else s) := by
  obtain ⟨l, hl⟩ := List.head?_eq_some_iff.1 hn
  simp [exec, execLiveOverrun, hp, hs, hl]

end

theorem exec_liveOverrun_none {k : Sc} {s : State} (h : (strm k s).prio ≠ 0 ∨ scState k s ≠ 3 ∨ liveTicks k s = []) :
    exec (.liveOverrun k) s = .next s := by
  rcases h with h | h | h <;> simp [exec, execLiveOverrun, h]

/-- R285: a picture that is late already is counted once. -/
theorem overrun_late {k n : Nat} {s : State} {w : Work} (hw : workOf k s = some w) (ht : w.tick = n) (hl : w.late.isSome = true) :
    overrun k n s = s := by simp [overrun, hw, ht, hl]

/-- R273: the oldest picture of a running LIVE context without a work gets one. -/
def liveBegin (k : Nat) (s : State) : State :=
  let c := strm k s
  if c.prio ≠ 0 || scState k s != 3 || (workOf k s).isSome then s
  else match liveTicks k s with
    | [] => s
    | t :: _ =>
      let a := (Tab.find? c.aus t).getD (0, 0, false)
      engMod c.engine (fun g => { g with savedWorks := Tab.put g.savedWorks k { Work.blank with
        sc := k, kind := 1 + c.kind, tick := t, dec := { DecWork.blank with addr := a.1, len := a.2.1, damaged := a.2.2 } } }) s

/-- R273: the work of a context is marked with the instant from which it is ready. -/
def markReady (e k : Nat) (s : State) : State :=
  match Tab.find? (engOf e s).savedWorks k with
  | some w =>
    if w.readyAt.isNone && workReady w s then
      engMod e (fun g => { g with savedWorks := Tab.put g.savedWorks k { w with readyAt := some s.time.cclk } }) s
    else s
  | none => s

theorem liveCheck_eq (k : Nat) (s : State) : liveCheck k s = markReady (strm k s).engine k (liveBegin k s) := rfl

theorem liveBegin_onlyEngines (k : Nat) (s : State) : OnlyEngines s (liveBegin k s) := by
  unfold liveBegin
  dsimp only
  split
  · exact .refl s
  · split
    · exact .refl s
    · exact engMod_onlyEngines ..

theorem markReady_onlyEngines (e k : Nat) (s : State) : OnlyEngines s (markReady e k s) := by
  unfold markReady
  split
  · split
    · exact engMod_onlyEngines ..
    · exact .refl s
  · exact .refl s

/-- R285: the work of the tick is late from an instant on; any other stays. -/
def Work.lateFrom (k n c : Nat) (w : Work) : Work := if w.sc = k ∧ w.tick = n then { w with late := some c } else w

/-- R285: the work in progress on an engine is marked. -/
def markWork (e : Nat) (g : Work → Work) (s : State) : State :=
  match (engOf e s).work with
  | some w => engMod e (fun c => { c with work := some (g w) }) s
  | none => s

/-- R285: every work of an engine, waiting or in progress, is marked. -/
def markWorks (e : Nat) (g : Work → Work) (s : State) : State :=
  markWork e g (engMod e (fun c => { c with savedWorks := c.savedWorks.map (fun (x : Nat × Work) => (x.1, g x.2)) }) s)

theorem markWork_onlyEngines (e : Nat) (g : Work → Work) (s : State) : OnlyEngines s (markWork e g s) := by
  unfold markWork
  split
  · exact engMod_onlyEngines ..
  · exact .refl s

theorem markWorks_onlyEngines (e : Nat) (g : Work → Work) (s : State) : OnlyEngines s (markWorks e g s) :=
  (engMod_onlyEngines ..).trans (markWork_onlyEngines e g _)

theorem strm_countOverrun (k : Nat) (s : State) :
    strm k (countOverrun k s) = { strm k s with overruns := (strm k s).overruns + 1 } := by
  rw [countOverrun, strm_congr (pendSet_coding ..)]
  exact strm_strmMod_same ..

/-- R285: with the policy LATE and no work in progress, the overrun is counted and the picture's work is late. -/
theorem overrun_late_policy {k n : Nat} {s : State} (hw : workOf k s = none) (ho : (strm k s).overrun = 0) :
    ∃ c, overrun k n s = markWorks (strm k s).engine (Work.lateFrom k n c) (liveCheck k (countOverrun k s)) := by
  have stream := strm_countOverrun k s
  have policy : (strm k (countOverrun k s)).overrun = 0 := by rw [stream, ho]
  have engine : (strm k (countOverrun k s)).engine = (strm k s).engine := by rw [stream]
  refine ⟨tickTime (countOverrun k s).cfg (strm k (countOverrun k s)).td (n + 2), ?_⟩
  simp only [overrun, hw, policy, engine]
  rfl

theorem overrun_onlyEngines {k n : Nat} {s : State} (hw : workOf k s = none) (ho : (strm k s).overrun = 0) :
    OnlyEngines (countOverrun k s) (overrun k n s) := by
  obtain ⟨c, h⟩ := overrun_late_policy (n := n) hw ho
  rw [h, liveCheck_eq]
  exact ((liveBegin_onlyEngines ..).trans (markReady_onlyEngines ..)).trans (markWorks_onlyEngines ..)

theorem fget_countOverrun_overruns (k : Nat) (s : State) : fget F.CE_OVERRUNS_COUNT (strm k s).engine (countOverrun k s) =
    (fget F.CE_OVERRUNS_COUNT (strm k s).engine s + 1) % 2 ^ F.CE_OVERRUNS_COUNT.w := by
  rw [countOverrun, fget_pendSet_other (by decide) (by decide) (by decide), fget_bump_same, fget_congr (strmMod_regs ..)]

theorem countOverrun_mem (k : Nat) (s : State) : (countOverrun k s).mem = s.mem := pendSet_mem _ _

/-- R284, R285: with the policy LATE and no work in progress, the overrun is counted and no picture is dropped. -/
theorem overrun_late_policy_counts {k n : Nat} {s : State} (hw : workOf k s = none) (ho : (strm k s).overrun = 0) :
    ∀ t, t = overrun k n s → (strm k t).overruns = (strm k s).overruns + 1 ∧ (strm k t).drops = (strm k s).drops ∧
      fget F.CE_OVERRUNS_COUNT (strm k s).engine t =
        (fget F.CE_OVERRUNS_COUNT (strm k s).engine s + 1) % 2 ^ F.CE_OVERRUNS_COUNT.w ∧ t.mem = s.mem := by
  rintro _ rfl
  have rest := overrun_onlyEngines (n := n) hw ho
  have stream : strm k (overrun k n s) = { strm k s with overruns := (strm k s).overruns + 1 } := by
    rw [rest.strm, strm_countOverrun]
  refine ⟨by rw [stream], by rw [stream], ?_, ?_⟩
  · rw [rest.fget, fget_countOverrun_overruns]
  · rw [rest.mem, countOverrun_mem]

/-! ### The statement -/

/-- Settles O33, clause by clause from the rules of each command. -/
theorem engineWork : Obligations.EngineWork := by
  refine ⟨?commit, ?idle, ?swap, fun e s h => .intro (exec_swapComplete_none h) rfl, ?restart, ?live,
    fun k s h => .intro (exec_liveOverrun_none h) rfl⟩
  case commit =>
    rintro e r s _ rfl w hw hl
    refine ⟨?_, fun hp he => .intro (exec_segmentCommit_empty hw hl hp he) rfl, ?_⟩
    · rintro hp he _ rfl
      exact ⟨exec_segmentCommit_taken hw hl hp he, engAsk_waiting_length ..⟩
    · rintro hp _ rfl
      exact exec_segmentCommit_poisoned hw hl hp
  case idle =>
    intro e r s h
    exact ⟨.intro (exec_segmentCommit_idle h r) rfl, .intro (exec_engineRestart_idle h _) rfl, .intro (exec_engineRestart_idle h _) rfl⟩
  case swap =>
    rintro e s _ rfl k hk _ rfl
    exact ⟨exec_swapComplete hk, swapIn_spec ..⟩
  case restart =>
    rintro e s _ rfl w hw
    refine ⟨exec_engineRestart_poisoned hw, engineRestart_correctable_completes hw, ?_⟩
    rintro third _ rfl _ rfl
    exact ⟨engineRestart_third hw third, fget_countRestart_restarts .., strm_countRestart_restarts ..,
      pendOf_countRestart .., countRestart_mem ..⟩
  case live =>
    intro k s hp hs n hn
    have step := exec_liveOverrun hp hs hn
    refine ⟨fun gone => .intro (by rw [step, gone]; rfl) rfl, fun gone => by rw [step, if_pos gone], fun gone hw ho => ?_,
      fun gone w hw ht hl => ?_⟩
    · exact .intro (by rw [step, if_pos gone]) (overrun_late_policy_counts hw ho _ rfl)
    · exact .intro (by rw [step, if_pos gone, overrun_late hw ht hl]) rfl

end Sys2Proof.Machine
end
section
/-! SUPPORT. What the drains of the data path and a rise at the Hasp leave of the power state. All but a request for
LOCKDOWN leave it whole; a request for LOCKDOWN, and all that can raise one, leave what a STANDBY retains (R586). -/
namespace Sys2Proof.Machine

@[simp] theorem power_ite {c : Prop} [Decidable c] (a b : State) :
    (if c then a else b).power = if c then a.power else b.power := apply_ite ..
@[simp] theorem snd_power_ite {α : Type} {c : Prop} [Decidable c] (a b : α × State) :
    (if c then a else b).2.power = if c then a.2.power else b.2.power := by split <;> rfl
@[simp] theorem retain_ite {c : Prop} [Decidable c] (p q : Power) :
    (if c then p else q).retain = if c then p.retain else q.retain := apply_ite ..

/-- A fold of steps that leave the power state leaves it. -/
@[simp] theorem foldl_power {α : Type} {g : State → α → State} (h : ∀ s x, (g s x).power = s.power) (l : List α) (s : State) :
    (l.foldl g s).power = s.power := by
  induction l generalizing s with
  | nil => rfl
  | cons x l ih => exact (ih _).trans (h s x)

/-- A fold of steps that leave what a STANDBY retains leaves it. -/
theorem foldl_retain {α : Type} {g : State → α → State} (h : ∀ s x, (g s x).power.retain = s.power.retain) (l : List α)
    (s : State) : (l.foldl g s).power.retain = s.power.retain := by
  induction l generalizing s with
  | nil => rfl
  | cons x l ih => exact (ih _).trans (h s x)

theorem OnlyEngines.power {s t : State} (h : OnlyEngines s t) : t.power = s.power := by
  obtain ⟨_, rfl⟩ := h; rfl

theorem eachCopy_power {g : Copy → State → State} (h : ∀ c s, (g c s).power = s.power) (l : List Copy) (s : State) :
    (eachCopy g l s).power = s.power := foldl_power (fun s c => h c s) l s

/-! ### Register fields, counters, the trace FIFO and the log queue -/

@[simp] theorem freshValue_power (what : Nat) (s : State) : (freshValue what s).2.power = s.power := by simp [freshValue]
@[simp] theorem drawBytes_power (len : Nat) (s : State) : (drawBytes len s).2.power = s.power := by simp [drawBytes]
@[simp] theorem passCclk_power (n : Nat) (s : State) : (passCclk n s).power = s.power := by simp [passCclk]
@[simp] theorem reachCclk_power (c : Nat) (s : State) : (reachCclk c s).power = s.power := by simp [reachCclk]
@[simp] theorem cntSet_power (off v : Nat) (s : State) : (cntSet off v s).power = s.power := by simp [cntSet]
@[simp] theorem cntBy_power (off n : Nat) (s : State) : (cntBy off n s).power = s.power := by simp [cntBy]
@[simp] theorem macCnt_power (p k n : Nat) (s : State) : (macCnt p k n s).power = s.power := by simp [macCnt]
@[simp] theorem histCnt_power (p b : Nat) (s : State) : (histCnt p b s).power = s.power := by simp [histCnt]
@[simp] theorem leafCnt_power (q k n : Nat) (s : State) : (leafCnt q k n s).power = s.power := by simp [leafCnt]
@[simp] theorem groupEvent_power (g : Nat) (s : State) : (groupEvent g s).power = s.power := by simp [groupEvent]
@[simp] theorem pendSet_power (n : Nat) (s : State) : (pendSet n s).power = s.power := by simp [pendSet]
@[simp] theorem riseIf_power (n : Nat) (old new : State) : (riseIf n old new).power = new.power := by simp [riseIf]
@[simp] theorem setEvent_power (f : Fld) (i n : Nat) (s : State) : (setEvent f i n s).power = s.power := by simp [setEvent]
@[simp] theorem tracePush_power (w : Nat) (s : State) : (tracePush w s).power = s.power := by simp [tracePush]
@[simp] theorem traceTime_power (s : State) : (traceTime s).power = s.power := by simp [traceTime]
@[simp] theorem traceForget_power (s : State) : (traceForget s).power = s.power := by simp [traceForget]
@[simp] theorem traceDrop_power (n : Nat) (s : State) : (traceDrop n s).power = s.power := by simp [traceDrop]
@[simp] theorem traceOffer_power (w : Nat) (s : State) : (traceOffer w s).power = s.power := by simp [traceOffer]
@[simp] theorem seqWord_power (e event opcode seg : Nat) (s : State) : (seqWord e event opcode seg s).power = s.power := by
  simp [seqWord]
@[simp] theorem logPush_power (kind : Nat) (data : Bytes) (s : State) : (logPush kind data s).power = s.power := by
  simp [logPush]
@[simp] theorem enterMode_power (m : Mode) (cause : Nat) (s : State) : (enterMode m cause s).power = s.power := by
  simp [enterMode]

/-! ### Buffers and queues of the traffic manager -/

@[simp] theorem setShared_power (v : Nat) (s : State) : (setShared v s).power = s.power := by simp [setShared]
@[simp] theorem setLeafUni_power (q v : Nat) (s : State) : (setLeafUni q v s).power = s.power := by simp [setLeafUni]
@[simp] theorem drrJoin_power (ring m : Nat) (s : State) : (drrJoin ring m s).power = s.power := by simp [drrJoin]
@[simp] theorem drrEmptied_power (ring m key : Nat) (s : State) : (drrEmptied ring m key s).power = s.power := by
  simp [drrEmptied]
@[simp] theorem setLeafQueue_power (q : Nat) (l : List Copy) (s : State) : (setLeafQueue q l s).power = s.power := by
  unfold setLeafQueue
  dsimp only
  split
  · rw [setFlag_power]
    dsimp only
    split <;> simp
  · split
    · split <;> simp
    · rfl
@[simp] theorem postcard_power (c : Copy) (f : Fate) (tOut : Nat) (s : State) : (postcard c f tOut s).power = s.power := by
  simp [postcard]
@[simp] theorem copyGone_power (n : Nat) (left : Bool) (s : State) : (copyGone n left s).power = s.power := by
  unfold copyGone
  split <;> simp
@[simp] theorem releaseCells_power (c : Copy) (s : State) : (releaseCells c s).power = s.power := by simp [releaseCells]
@[simp] theorem leafDropCount_power (q len : Nat) (s : State) : (leafDropCount q len s).power = s.power := by
  simp [leafDropCount]
@[simp] theorem dropQueued_power (c : Copy) (s : State) : (dropQueued c s).power = s.power := by simp [dropQueued]

/-! ### Buffer pools, slots and windows -/

@[simp] theorem setBuf_power (a : Nat) (alloc sld : Bool) (owner : Nat) (s : State) :
    (setBuf a alloc sld owner s).power = s.power := by simp [setBuf]
@[simp] theorem setPoolFree_power (p v : Nat) (s : State) : (setPoolFree p v s).power = s.power := by simp [setPoolFree]
@[simp] theorem poolPick_power (p : Nat) (s : State) : (poolPick p s).2.power = s.power := by
  unfold poolPick
  split <;> simp
@[simp] theorem poolTake_power (size owner : Nat) (sld : Bool) (s : State) : (poolTake size owner sld s).2.power = s.power := by
  unfold poolTake
  dsimp only
  split
  · rfl
  · split <;> simp
@[simp] theorem zeroMem_power (a n : Nat) (s : State) : (zeroMem a n s).power = s.power := by simp [zeroMem]
@[simp] theorem poolPut_power (a : Nat) (s : State) : (poolPut a s).power = s.power := by
  unfold poolPut
  split <;> simp
@[simp] theorem winWrite_power (i off : Nat) (b : Bytes) (s : State) : (winWrite i off b s).power = s.power := by
  induction b generalizing off s with
  | nil => rfl
  | cons x b ih => simp [winWrite, ih]
@[simp] theorem winZero_power (i : Nat) (s : State) : (winZero i s).power = s.power := by simp [winZero]
@[simp] theorem fxSet_power (c off : Nat) (b : Bytes) (s : State) : (fxSet c off b s).power = s.power := by simp [fxSet]
@[simp] theorem fFlag_power (c n : Nat) (b : Bool) (s : State) : (fFlag c n b s).power = s.power := by simp [fFlag]
@[simp] theorem fSetState_power (c v : Nat) (s : State) : (fSetState c v s).power = s.power := by simp [fSetState]
@[simp] theorem fFlowMod_power (c : Nat) (f : EssFlow → EssFlow) (s : State) : (fFlowMod c f s).power = s.power := by
  simp [fFlowMod]
@[simp] theorem setSlot_power (i n : Nat) (x : SlotSt) (s : State) : (setSlot i n x s).power = s.power := by simp [setSlot]
@[simp] theorem freeSlot_power (i n : Nat) (s : State) : (freeSlot i n s).power = s.power := by simp [freeSlot]
@[simp] theorem giveRow_power (i n : Nat) (streams : List Nat) (s : State) : (giveRow i n streams s).power = s.power := by
  unfold giveRow
  split
  · rfl
  · dsimp only
    split
    · simp
    · exact (foldl_power (fun _ _ => by rfl) ..).trans (setSlot_power ..)
@[simp] theorem releaseSlot_power (i n r : Nat) (s : State) : (releaseSlot i n r s).power = s.power := by
  unfold releaseSlot
  split <;> simp
@[simp] theorem dropReader_power (r : Nat) (s : State) : (dropReader r s).power = s.power := by
  refine foldl_power (fun s k => ?_) _ s
  split <;> simp

/-! ### Units and their records -/

@[simp] theorem linkFall_power (p : Nat) (s : State) : (linkFall p s).power = s.power := by simp [linkFall]
@[simp] theorem macDrop_power (p : Nat) (s : State) : (macDrop p s).power = s.power := by
  refine foldl_power (fun s q => ?_) _ s
  dsimp only
  rw [eachCopy_power (fun c s => by simp), setLeafQueue_power]
@[simp] theorem macOff_power (p : Nat) (s : State) : (macOff p s).power = s.power := by simp [macOff]
@[simp] theorem macStart_power (p : Nat) (s : State) : (macStart p s).power = s.power := by simp [macStart]
@[simp] theorem macsecClear_power (p : Nat) (s : State) : (macsecClear p s).power = s.power := by simp [macsecClear]
@[simp] theorem macDrained_power (p : Nat) (s : State) : (macDrained p s).power = s.power := by simp [macDrained]
@[simp] theorem macStop_power (p : Nat) (s : State) : (macStop p s).power = s.power := by
  unfold macStop
  dsimp only
  split <;> simp
@[simp] theorem flMod_power (l : Nat) (f : FlLink → FlLink) (s : State) : (flMod l f s).power = s.power := by simp [flMod]
@[simp] theorem flFramesEnd_power (l : Nat) (s : State) : (flFramesEnd l s).power = s.power := by simp [flFramesEnd]
@[simp] theorem flQueuesEnd_power (l : Nat) (s : State) : (flQueuesEnd l s).power = s.power := by simp [flQueuesEnd]
@[simp] theorem flReplayEnd_power (l : Nat) (s : State) : (flReplayEnd l s).power = s.power := by simp [flReplayEnd]
@[simp] theorem flOff_power (l : Nat) (s : State) : (flOff l s).power = s.power := by simp [flOff]
@[simp] theorem flDown_power (l : Nat) (s : State) : (flDown l s).power = s.power := by simp [flDown]
@[simp] theorem flStop_power (l : Nat) (s : State) : (flStop l s).power = s.power := by simp [flStop]
@[simp] theorem cqLose_power (q : Nat) (s : State) : (cqLose q s).power = s.power := by simp [cqLose]
@[simp] theorem cqWrite_power (q : Nat) (rec : Bytes) (s : State) : (cqWrite q rec s).power = s.power := by simp [cqWrite]
@[simp] theorem setDesc_power (f : Fld) (c : Nat) (d : Bytes) (s : State) : (setDesc f c d s).power = s.power := by
  unfold setDesc
  exact foldl_power (fun _ _ => by rfl) ..
@[simp] theorem dmaIssued_power (c status : Nat) (s : State) : (dmaIssued c status s).power = s.power := by
  unfold dmaIssued
  dsimp only
  split
  · exact riseIf_power ..
  · rfl
@[simp] theorem dmaRecord_power (c status detail : Nat) (s : State) : (dmaRecord c status detail s).power = s.power := by
  simp [dmaRecord]
@[simp] theorem dcEnable_power (c : Nat) (v : Bool) (s : State) : (dcEnable c v s).power = s.power := by simp [dcEnable]
@[simp] theorem dcOff_power (c : Nat) (s : State) : (dcOff c s).power = s.power := by simp [dcOff]
@[simp] theorem dcStart_power (c : Nat) (s : State) : (dcStart c s).power = s.power := by
  unfold dcStart
  extract_lets s1 s2 s3 s4
  have h1 : s1.power = s.power := by rw [setDesc_power, setDesc_power]
  have h3 : s3.power = s.power := by rw [setFlag_power, setFlag_power, setFlag_power, setFlag_power, h1]
  have h4 : s4.power = s.power := by rw [power_ite, fset_power, h3, ite_self]
  rw [chanMod_power, h4]
@[simp] theorem dcStop_power (c : Nat) (s : State) : (dcStop c s).power = s.power := by simp [dcStop]
@[simp] theorem statIssue_power (k : Nat) (rec : Bytes) (irq : Bool) (s : State) : (statIssue k rec irq s).power = s.power := by
  simp [statIssue]
@[simp] theorem statFlush_power (k : Nat) (s : State) : (statFlush k s).power = s.power := by
  refine foldl_power (fun s _ => ?_) _ s
  split <;> simp
@[simp] theorem statSend_power (k : Nat) (rb : Bytes) (irq : Bool) (s : State) : (statSend k rb irq s).power = s.power := by
  simp [statSend]
@[simp] theorem statWrite_power (k : Nat) (r : StatRec) (irq : Bool) (s : State) : (statWrite k r irq s).power = s.power := by
  simp [statWrite]
@[simp] theorem cmdRecord_power (k : Nat) (cmd : Bytes) (r : StatRec) (s : State) : (cmdRecord k cmd r s).power = s.power := by
  simp [cmdRecord]
@[simp] theorem cmdStatus_power (k : Nat) (cmd : Bytes) (r : StatRec) (s : State) : (cmdStatus k cmd r s).power = s.power := by
  simp [cmdStatus]
@[simp] theorem setWork_power (e : Nat) (w : Option Work) (s : State) : (setWork e w s).power = s.power := by simp [setWork]
@[simp] theorem routineWord_power (e event seg : Nat) (w : Work) (s : State) : (routineWord e event seg w s).power = s.power := by
  simp [routineWord]
@[simp] theorem endWord_power (e : Nat) (w : Work) (abandoned : Bool) (s : State) : (endWord e w abandoned s).power = s.power := by
  simp [endWord]
@[simp] theorem workBufBack_power (w : Work) (s : State) : (workBufBack w s).power = s.power := by simp [workBufBack]
@[simp] theorem gangEnable_power (e : Nat) (b : Bool) (s : State) : (gangEnable e b s).power = s.power := by
  unfold gangEnable
  exact foldl_power (fun _ _ => by rfl) ..
@[simp] theorem gangFlag_power (f : Fld) (e : Nat) (b : Bool) (s : State) : (gangFlag f e b s).power = s.power := by
  unfold gangFlag
  exact foldl_power (fun _ _ => by rfl) ..
@[simp] theorem ceStart_power (e : Nat) (s : State) : (ceStart e s).power = s.power := by
  refine (foldl_power (fun _ _ => by rfl) ..).trans ((gangFlag_power ..).trans ?_)
  exact foldl_power (fun _ _ => by simp) ..
@[simp] theorem ceStop_power (e : Nat) (s : State) : (ceStop e s).power = s.power := by simp [ceStop]
@[simp] theorem freeSlots_power (i : Nat) (s : State) : (freeSlots i s).power = s.power := by simp [freeSlots]
@[simp] theorem flowDiscard_power (c : Nat) (s : State) : (flowDiscard c s).power = s.power := by simp [flowDiscard]
@[simp] theorem essFree_power (c : Nat) (s : State) : (essFree c s).power = s.power := by simp [essFree]
@[simp] theorem essStop_power (c : Nat) (s : State) : (essStop c s).power = s.power := by simp [essStop]
@[simp] theorem zeroiseKeys_power (s : State) : (zeroiseKeys s).power = s.power := by simp [zeroiseKeys]
@[simp] theorem stopAll_power (s : State) : (stopAll s).power = s.power := by simp [stopAll]

/-! ### Pictures and the event log -/

@[simp] theorem ausTold_power (k : Nat) (s : State) : (ausTold k s).power = s.power := by simp [ausTold]
@[simp] theorem dropWork_power (k : Nat) (s : State) : (dropWork k s).power = s.power := by
  unfold dropWork
  dsimp only
  split
  · rfl
  · split <;> simp
@[simp] theorem restoreSnap_power (k : Nat) (s : State) : (restoreSnap k s).power = s.power := by simp [restoreSnap]
@[simp] theorem endTick_power (k t : Nat) (s : State) : (endTick k t s).power = s.power := by
  refine (foldl_power (fun s n => ?_) ..).trans (foldl_power (fun _ _ => by simp) ..)
  split <;> simp
@[simp] theorem liveGone_power (k t status detail flags : Nat) (s : State) :
    (liveGone k t status detail flags s).power = s.power := by simp [liveGone]
@[simp] theorem abandon_power (k detail liveStatus : Nat) (s : State) : (abandon k detail liveStatus s).power = s.power := by
  unfold abandon
  split
  · simp
  · split <;> simp
@[simp] theorem setScState_power (k st : Nat) (s : State) : (setScState k st s).power = s.power := by simp [setScState]
@[simp] theorem dpbDrop_power (k : Nat) (s : State) : (dpbDrop k s).power = s.power := by simp [dpbDrop]
@[simp] theorem unsealWindows_power (s : State) : (unsealWindows s).power = s.power := by simp [unsealWindows]
@[simp] theorem scFree_power (k : Nat) (s : State) : (scFree k s).power = s.power := by
  have loads (l : List Nat) (b : Nat) (s : State) :
      (l.foldl (fun s e => fset F.CE_LIVE_LOAD_NS e (fget F.CE_LIVE_LOAD_NS e s - b) s) s).power = s.power :=
    foldl_power (fun _ _ => by rfl) l s
  simp [scFree, loads]
@[simp] theorem ceOff_power (e : Nat) (s : State) : (ceOff e s).power = s.power := by
  have drain (l : List Nat) (s : State) : (l.foldl (fun s m => setFlag F.CE_STATUS_DRAINING m true
      (setFlag F.CE_STATUS_ENABLED m false (setFlag F.CE_CTRL_ENABLE m false s))) s).power = s.power :=
    foldl_power (fun _ _ => by rfl) l s
  unfold ceOff
  dsimp only
  split
  · simp
  · split
    · rw [drain, engMod_power, foldl_power (fun _ _ => abandon_power ..)]
      split <;> simp
    · simp
@[simp] theorem logSet_power (n : Nat) (b : LogBlock) (s : State) : (logSet n b s).power = s.power := by simp [logSet]
@[simp] theorem flashBoth_power (block off : Nat) (d : Bytes) (s : State) : (flashBoth block off d s).power = s.power := by
  simp [flashBoth]
@[simp] theorem logOpen_power (s : State) : (logOpen s).power = s.power := by simp [logOpen]
@[simp] theorem logClose_power (s : State) : (logClose s).power = s.power := by simp [logClose]
@[simp] theorem logProgram_power (kind : Nat) (data : Bytes) (time flags : Nat) (s : State) :
    (logProgram kind data time flags s).power = s.power := by simp [logProgram]
@[simp] theorem logWriteOne_power (s : State) : (logWriteOne s).power = s.power := by
  unfold logWriteOne
  split <;> simp
@[simp] theorem logWriteAll_power (s : State) : (logWriteAll s).power = s.power := by simp [logWriteAll]
@[simp] theorem logSealNow_power (s : State) : (logSealNow s).power = s.power := by simp [logSealNow]

/-! ### The Hasp below a request for LOCKDOWN -/

@[simp] theorem haspLog_power (ev n : Nat) (s : State) : (haspLog ev n s).power = s.power := by simp [haspLog]
@[simp] theorem haspEvent_power (ev n : Nat) (s : State) : (haspEvent ev n s).power = s.power := by simp [haspEvent]
@[simp] theorem haspIsolate_power (n detail : Nat) (s : State) : (haspIsolate n detail s).power = s.power := by
  simp [haspIsolate]
@[simp] theorem haspCountRise_power (n : Nat) (s : State) : (haspCountRise n s).2.power = s.power := by simp [haspCountRise]
@[simp] theorem haspReact_power (n detail : Nat) (s : State) : (haspReact n detail s).power = s.power := by simp [haspReact]

/-! ### Commands, engines, links and drains -/

@[simp] theorem ctlSend_power (l : Nat) (m : Bytes) (s : State) : (ctlSend l m s).power = s.power := by simp [ctlSend]
@[simp] theorem linkStateChanged_power (s : State) : (linkStateChanged s).power = s.power := by simp [linkStateChanged]
@[simp] theorem flushRow_power (k : Nat) (s : State) : (flushRow k s).power = s.power := by
  unfold flushRow
  split
  · rfl
  · split
    · rfl
    · simp
@[simp] theorem flushRecs_power (k : Nat) (s : State) : (flushRecs k s).power = s.power := by
  refine foldl_power (fun s _ => ?_) _ s
  split <;> simp
@[simp] theorem flushRows_power (k : Nat) (s : State) : (flushRows k s).power = s.power := by simp [flushRows]
@[simp] theorem flushEngine_power (e : Nat) (s : State) : (flushEngine e s).power = s.power := by simp [flushEngine]
@[simp] theorem queueRows_power (k : Nat) (w : Work) (last : Bool) (s : State) : (queueRows k w last s).2.power = s.power := by
  unfold queueRows
  split <;> simp
@[simp] theorem liveRecord_power (k : Nat) (w : Work) (r : StatRec) (s : State) : (liveRecord k w r s).power = s.power := by
  simp [liveRecord]
@[simp] theorem lateDebt_power (k : Nat) (w : Work) (s : State) : (lateDebt k w s).power = s.power := by
  unfold lateDebt
  split <;> simp
@[simp] theorem liveRepeat_power (k : Nat) (w : Work) (status flags : Nat) (f : Option DecFault) (s : State) :
    (liveRepeat k w status flags f s).power = s.power := by simp [liveRepeat]
@[simp] theorem liveCheck_power (k : Nat) (s : State) : (liveCheck k s).power = s.power := by
  rw [liveCheck_eq, (markReady_onlyEngines ..).power, (liveBegin_onlyEngines ..).power]
@[simp] theorem workDone_power (e : Nat) (w : Work) (s : State) : (workDone e w s).power = s.power := by
  unfold workDone
  dsimp only
  split <;> simp
@[simp] theorem fileBusy_power (e k : Nat) (w : Work) (s : State) : (fileBusy e k w s).power = s.power := by simp [fileBusy]
@[simp] theorem liveDrop_power (k t status : Nat) (s : State) : (liveDrop k t status s).power = s.power := by
  unfold liveDrop
  extract_lets c e a w s1 s2 d s3 x s4
  have h2 : s2.power = s.power := by simp [s2, s1]
  have h4 : s4.power = s2.power := by simp [s4, s3]
  clear_value s4 s2
  split
  · rw [liveRepeat_power, h2]
  · split
    · rw [engMod_power, endTick_power, h4, h2]
    · rw [endTick_power, strmMod_power, statWrite_power, h4, h2]
@[simp] theorem sampleDraw_power (s : State) : (sampleDraw s).2.power = s.power := by simp [sampleDraw]
@[simp] theorem beginDecode_power (e : Nat) (w : Work) (s : State) : (beginDecode e w s).power = s.power := by
  simp [beginDecode]
@[simp] theorem scEnableDo_power (k : Nat) (s : State) : (scEnableDo k s).power = s.power := by simp [scEnableDo]
@[simp] theorem scDrained_power (k : Nat) (s : State) : (scDrained k s).power = s.power := by
  unfold scDrained
  split
  · rfl
  · split <;> simp
@[simp] theorem essEnableDo_power (c : Nat) (s : State) : (essEnableDo c s).power = s.power := by simp [essEnableDo]
@[simp] theorem essDrained_power (c : Nat) (s : State) : (essDrained c s).power = s.power := by simp [essDrained]
@[simp] theorem dcDrained_power (c : Nat) (s : State) : (dcDrained c s).power = s.power := by simp [dcDrained]
@[simp] theorem flDrained_power (l : Nat) (s : State) : (flDrained l s).power = s.power := by simp [flDrained]

/-! ### What a request for LOCKDOWN leaves (R541, R588, R592) -/

/-- R592: what the entry to LOCKDOWN makes of the power state. -/
def lockPower (p : Power) : Power :=
  { p with armed := none, held := none, heldConfigure := false, gated := false, resuming := false, lockHeld := false }

@[simp] theorem lockPower_retain (p : Power) : (lockPower p).retain = p.retain := rfl

@[simp] theorem lockdownEnter_power (cause : Nat) (s : State) : (lockdownEnter cause s).power = lockPower s.power := by
  have entered (u : State) : (logSealNow (enterMode .lockdown cause { u with power := lockPower u.power })).power =
      lockPower u.power := by rw [logSealNow_power, enterMode_power]
  exact (entered _).trans (congrArg lockPower (by rw [setFlag_power, zeroiseKeys_power, stopAll_power]))

@[simp] theorem lockReq_retain (n : Nat) (s : State) : (lockReq n s).power.retain = s.power.retain := by
  unfold lockReq
  dsimp only
  split
  · rfl
  · split
    · simp
    · split <;> simp

@[simp] theorem haspLatch_retain (n detail : Nat) (lasting forced : Bool) (s : State) :
    (haspLatch n detail lasting forced s).power.retain = s.power.retain := by simp [haspLatch]
@[simp] theorem haspMerge_retain (n detail : Nat) (lasting : Bool) (s : State) :
    (haspMerge n detail lasting s).power.retain = s.power.retain := by simp [haspMerge]
@[simp] theorem haspRise_retain (n detail : Nat) (s : State) : (haspRise n detail s).power.retain = s.power.retain := by
  simp [haspRise]

/-! ### What a picture, an engine and the drains leave -/

@[simp] theorem poolAsk_retain (size owner : Nat) (sld : Bool) (s : State) :
    (poolAsk size owner sld s).2.power.retain = s.power.retain := by simp [poolAsk]
@[simp] theorem reconAsk_retain (k n : Nat) (s : State) : (reconAsk k n s).2.power.retain = s.power.retain := by
  simp [reconAsk]
@[simp] theorem reconTake_retain (k : Nat) (p : Bytes) (s : State) :
    (reconTake k p s).2.power.retain = s.power.retain := by
  unfold reconTake
  dsimp only
  split <;> simp

@[simp] theorem pictureStart_retain (k : Nat) (w : Work) (s : State) :
    (pictureStart k w s).2.power.retain = s.power.retain := by
  simp [pictureStart]

@[simp] theorem beginEncode_retain (e : Nat) (w : Work) (s : State) : (beginEncode e w s).power.retain = s.power.retain := by
  unfold beginEncode
  extract_lets k c s1 now x s2
  have h2 : s2.power = s.power := by simp [s2, s1]
  clear_value s2
  split
  · simp [h2]
  · extract_lets w1
    have started := pictureStart_retain k w1 s2
    split <;> rename_i e1 <;> rw [e1, h2] at started <;> simpa using started

@[simp] theorem startWork_retain (e k : Nat) (s : State) : (startWork e k s).power.retain = s.power.retain := by
  unfold startWork
  split
  · rfl
  · extract_lets live wait s1 s2 w1 x w2 s3
    have h2 : s2.power = s.power := by simp [s2, s1]
    have h3 : s3.power = s.power := by simp [s3, x, h2]
    clear_value s3 s2
    split
    · simp [h2]
    · split
      · have started := pictureStart_retain k w2 s3
        split <;> rename_i e1 <;> rw [e1, h3] at started <;> simpa using started
      · simp [h3]

@[simp] theorem engKickN_retain (e n : Nat) (s : State) : (engKickN e n s).power.retain = s.power.retain := by
  induction n generalizing s with
  | zero => rfl
  | succ n ih =>
    unfold engKickN
    dsimp only
    split
    · rfl
    · split <;> simp [ih]

@[simp] theorem engKick_retain (e : Nat) (s : State) : (engKick e s).power.retain = s.power.retain := by simp [engKick]
@[simp] theorem ceDrained_retain (e : Nat) (s : State) : (ceDrained e s).power.retain = s.power.retain := by simp [ceDrained]

/-- R586: the end of every drain leaves what is retained. -/
theorem drainsEnd_retain (s : State) : (drainsEnd s).power.retain = s.power.retain := by
  unfold drainsEnd
  dsimp only
  rw [foldl_power (fun s k => scDrained_power k s), foldl_power (fun s c => essDrained_power c s),
    foldl_power (fun s c => dcDrained_power c s), foldl_retain (fun s e => ceDrained_retain e s),
    foldl_power (fun s l => flDrained_power l s), foldl_power (fun s p => by simp)]

end Sys2Proof.Machine
end
section
/-! SUPPORT. Modes, transitions and wakes: what the entry to a mode, the log and a soft reset leave, the checks of a
request (R583 to R585), and what a wake does in each phase of STANDBY (R588 to R591). -/
namespace Sys2Proof.Machine

/-! ### The log and the entry to a mode -/

/-- The log queue is Tchien's alone. -/
theorem logPush_parts (kind : Nat) (data : Bytes) (s : State) :
    logPush kind data s = { s with tch := (logPush kind data s).tch } := by
  unfold logPush
  dsimp only
  split <;> rfl

@[simp] theorem logPush_regs (kind : Nat) (data : Bytes) (s : State) : (logPush kind data s).regs = s.regs := by
  rw [logPush_parts]
@[simp] theorem logPush_mode (kind : Nat) (data : Bytes) (s : State) : (logPush kind data s).mode = s.mode := by
  rw [logPush_parts]
@[simp] theorem logPush_mem (kind : Nat) (data : Bytes) (s : State) : (logPush kind data s).mem = s.mem := by
  rw [logPush_parts]

/-- A mode is entered: the mode, its field and the log alone. -/
theorem enterMode_parts (m : Mode) (cause : Nat) (s : State) : enterMode m cause s =
    { fset F.GLB_MODE_MODE 0 m.code s with mode := m, tch := (enterMode m cause s).tch } := by
  unfold enterMode
  dsimp only
  split
  · rfl
  · rw [logPush_parts]; rfl

@[simp] theorem enterMode_mode (m : Mode) (cause : Nat) (s : State) : (enterMode m cause s).mode = m := by
  rw [enterMode_parts]
@[simp] theorem enterMode_regs (m : Mode) (cause : Nat) (s : State) :
    (enterMode m cause s).regs = (fset F.GLB_MODE_MODE 0 m.code s).regs := by rw [enterMode_parts]
@[simp] theorem enterMode_tm (m : Mode) (cause : Nat) (s : State) : (enterMode m cause s).tm = s.tm := by
  rw [enterMode_parts]; rfl

theorem fget_enterMode_mode (m : Mode) (cause : Nat) (s : State) :
    fget F.GLB_MODE_MODE 0 (enterMode m cause s) = m.code % 2 ^ F.GLB_MODE_MODE.w := by
  rw [fget_congr (enterMode_regs m cause s), fget_fset_same]

theorem fget_enterMode_other {f : Fld} {i cause : Nat} {m : Mode} {s : State} (h : f.key 0 ≠ F.GLB_MODE_MODE.key 0)
    (hf : f.key 0 < 16384) : fget f i (enterMode m cause s) = fget f i s := by
  rw [fget_congr (enterMode_regs m cause s), fget_fset_other h (by decide) hf]

@[simp] theorem inTransition_enterMode (m : Mode) (cause : Nat) (s : State) :
    inTransition (enterMode m cause s) = inTransition s := by
  rw [inTransition, flag, fget_enterMode_other (by decide) (by decide)]; rfl

theorem inTransition_congr {s t : State} (h : t.regs = s.regs) : inTransition t = inTransition s := flag_congr h

theorem inTransition_cleared (s : State) : inTransition (setFlag F.GLB_MODE_TRANSITION 0 false s) = false :=
  flag_setFlag_same _ _ _ _ rfl

/-! ### Writing the log keeps the mode -/

@[simp] theorem flashBoth_mode (block off : Nat) (d : Bytes) (s : State) : (flashBoth block off d s).mode = s.mode := by
  simp only [flashBoth, List.foldl_cons, List.foldl_nil]
  split <;> split <;> rfl
@[simp] theorem logSet_mode (n : Nat) (b : LogBlock) (s : State) : (logSet n b s).mode = s.mode := rfl
@[simp] theorem logOpen_mode (s : State) : (logOpen s).mode = s.mode := by
  unfold logOpen
  split <;> simp
@[simp] theorem logClose_mode (s : State) : (logClose s).mode = s.mode := by
  unfold logClose
  split <;> simp
@[simp] theorem logProgram_mode (kind : Nat) (data : Bytes) (time flags : Nat) (s : State) :
    (logProgram kind data time flags s).mode = s.mode := by
  unfold logProgram
  dsimp only
  split <;> simp
@[simp] theorem logWriteOne_mode (s : State) : (logWriteOne s).mode = s.mode := by
  unfold logWriteOne
  split
  · rfl
  · dsimp only
    split <;> simp
@[simp] theorem logWriteAll_mode (s : State) : (logWriteAll s).mode = s.mode := by
  unfold logWriteAll
  induction s.tch.queue generalizing s with
  | nil => rfl
  | cons e l ih => exact (ih _).trans (logWriteOne_mode s)
@[simp] theorem logSealNow_mode (s : State) : (logSealNow s).mode = s.mode := by simp [logSealNow]

/-- R592: an entry to LOCKDOWN ends in LOCKDOWN. -/
theorem lockdownEnter_mode (cause : Nat) (s : State) : (lockdownEnter cause s).mode = .lockdown := by
  have entered (u : State) : (logSealNow (enterMode .lockdown cause u)).mode = .lockdown := by
    rw [logSealNow_mode, enterMode_mode]
  exact entered _

/-! ### A soft reset loses memory (R576) -/

/-- Nothing but registers, the trace and Tchien differs. -/
def OnlyTold (s t : State) : Prop := ∃ regs trc tch, t = { s with regs := regs, trc := trc, tch := tch }

theorem OnlyTold.refl (s : State) : OnlyTold s s := ⟨_, _, _, rfl⟩

theorem OnlyTold.trans {s t u : State} (h : OnlyTold s t) (k : OnlyTold t u) : OnlyTold s u := by
  obtain ⟨_, _, _, rfl⟩ := h
  obtain ⟨_, _, _, rfl⟩ := k
  exact ⟨_, _, _, rfl⟩

theorem OnlyTold.mode {s t : State} (h : OnlyTold s t) : t.mode = s.mode := by
  obtain ⟨_, _, _, rfl⟩ := h; rfl

theorem OnlyTold.mem {s t : State} (h : OnlyTold s t) : t.mem = s.mem := by
  obtain ⟨_, _, _, rfl⟩ := h; rfl

theorem OnlyTold.ite {s a b : State} {c : Prop} [Decidable c] (h : OnlyTold s a) (k : OnlyTold s b) :
    OnlyTold s (if c then a else b) := by split <;> assumption

theorem tracePush_onlyTold (w : Nat) (s : State) : OnlyTold s (tracePush w s) := by
  unfold tracePush
  exact .ite ⟨_, _, _, rfl⟩ ⟨_, _, _, rfl⟩

theorem traceTime_onlyTold (s : State) : OnlyTold s (traceTime s) := by
  have push (w : Nat) (t : State) : OnlyTold t (tracePush w t) := tracePush_onlyTold w t
  unfold traceTime
  extract_lets now top mid lo s1 s2
  have h1 : OnlyTold s s1 := .ite (.refl s) ((push ..).trans ⟨_, _, _, rfl⟩)
  have h2 : OnlyTold s1 s2 := .ite (.refl s1) ((push ..).trans ⟨_, _, _, rfl⟩)
  exact h1.trans (h2.trans (.ite (.refl s2) ((push ..).trans ⟨_, _, _, rfl⟩)))

theorem traceOffer_onlyTold (w : Nat) (s : State) : OnlyTold s (traceOffer w s) := by
  have gap (t : State) : OnlyTold t (traceForget { t with trc := { t.trc with gap := 0 } }) := ⟨_, _, _, rfl⟩
  unfold traceOffer
  extract_lets pushed src reported noted
  have h : OnlyTold s reported := .ite (.refl s) ((tracePush_onlyTold ..).trans (gap _))
  refine .ite (.refl s) (.ite ⟨_, _, _, rfl⟩ ?_)
  exact h.trans ((traceTime_onlyTold _).trans ((tracePush_onlyTold ..).trans ⟨_, _, _, rfl⟩))

/-- An event of the Hasp reaches registers, the log and the trace alone. -/
theorem haspEvent_onlyTold (ev n : Nat) (s : State) : OnlyTold s (haspEvent ev n s) := by
  unfold haspEvent
  refine OnlyTold.trans (.ite ?_ (.refl s)) (traceOffer_onlyTold ..)
  rw [haspLog, logPush_parts]
  exact ⟨_, _, _, rfl⟩

/-- R571: in BOOT a request for LOCKDOWN is held until BOOT ends. -/
theorem lockReq_boot {n : Nat} {s : State} (h : s.mode = .boot) : (lockReq n s).mode = .boot ∧ (lockReq n s).mem = s.mem := by
  have told := haspEvent_onlyTold 6 n s
  unfold lockReq
  rw [if_neg (by simp [h])]
  extract_lets s1 s2
  have h2 : OnlyTold s s2 := told.trans (.ite (.refl s1) ⟨_, _, _, rfl⟩)
  rw [if_pos (by rw [h2.mode, h]; rfl)]
  exact ⟨h2.mode.trans h, h2.mem⟩

/-- R511: in BOOT a change of policy keeps mode and memory. -/
theorem haspPolicyChanged_boot {old s : State} (h : s.mode = .boot) :
    (haspPolicyChanged old s).mode = .boot ∧ (haspPolicyChanged old s).mem = s.mem := by
  unfold haspPolicyChanged
  induction List.range 64 generalizing s with
  | nil => exact ⟨h, rfl⟩
  | cons n l ih =>
    have risen : (riseIf (24 + n) old s).mode = .boot := by
      rcases riseIf_eq (24 + n) old s with e | e <;> simp [e, h]
    rw [List.foldl_cons]
    dsimp only
    split
    · obtain ⟨mode, mem⟩ := lockReq_boot (n := n) risen
      obtain ⟨mode', mem'⟩ := ih mode
      exact ⟨mode', by rw [mem', mem, riseIf_mem]⟩
    · obtain ⟨mode', mem'⟩ := ih risen
      exact ⟨mode', by rw [mem', riseIf_mem]⟩

/-- R576: a soft reset leaves memory as the loss of its key leaves it. -/
theorem softReset_mem (wake : Bool) (s : State) : (softReset wake s).mem = State.reset.mem := by
  unfold softReset
  exact (haspPolicyChanged_boot (by rfl)).2

end Sys2Proof.Machine
end
section
/-! SUPPORT and CERTIFICATE. Requests for OPERATE, CONFIGURE and STANDBY (R74, R583 to R586, R597), and the wakes (R588 to
R591, R599). -/
namespace Sys2Proof.Machine

/-! ### Requests for OPERATE and CONFIGURE (R583, R584) -/

section
variable {fn : Fn} {w : Word} {s t : State} {r : Nat} (hr : Reaches fn .GLB_MODE_REQ 0 s)
include hr

theorem exec_modeReqOperate (h : reqOperate s = (r, t)) :
    exec (.modeReqOperate fn w) s = .next (fset F.GLB_MODE_REQ_RESULT 0 r t) := by
  have step : exec (.modeReqOperate fn w) s = .next (modeReq 3 w s) := congrArg _ (hostWr_reaches hr _)
  simp [step, modeReq, h]

theorem exec_modeReqConfigure (h : reqConfigure s = (r, t)) :
    exec (.modeReqConfigure fn w) s = .next (fset F.GLB_MODE_REQ_RESULT 0 r t) := by
  have step : exec (.modeReqConfigure fn w) s = .next (modeReq 2 w s) := congrArg _ (hostWr_reaches hr _)
  simp [step, modeReq, h]

theorem exec_standbyRequest (h : reqStandby (wbit F.GLB_MODE_REQ_RETAIN_HBM w) (wbit F.GLB_MODE_REQ_AT_L2 w) s = (r, t)) :
    exec (.standbyRequest fn w) s = .next (fset F.GLB_MODE_REQ_RESULT 0 r t) := by
  have step : exec (.standbyRequest fn w) s = .next (modeReq 4 w s) := congrArg _ (hostWr_reaches hr _)
  simp [step, modeReq, h]

end

section
variable {s : State}

theorem reqOperate_taken (hm : s.mode = .configure) (hl : loaded s = true) (hp : fget F.IMG_STATUS_PHASE 0 s = 0) :
    reqOperate s = (0, enterMode .operate 0 (enginesOn s)) := by simp [reqOperate, hm, hl, hp]

theorem reqOperate_refused (h : s.mode ≠ .configure ∨ loaded s = false) : reqOperate s = (5, s) := if_pos h

theorem reqConfigure_busy (hm : s.mode = .operate) (hb : transBusy s = true) : reqConfigure s = (1, s) := by
  simp [reqConfigure, hm, hb]

theorem reqConfigure_idle (hm : s.mode = .operate) (hb : transBusy s = false) : reqConfigure s =
    if flag F.IMG_STATUS_DELTA_PENDING 0 s then (2, { s with power := { s.power with heldConfigure := true } })
    else (0, startConfigure s) := by simp [reqConfigure, hm, hb]

end

/-- A request that a check turns away answers its RESULT and changes nothing else. -/
theorem fset_result_spec {r : Nat} (h : r < 256) (s : State) :
    fget F.GLB_MODE_REQ_RESULT 0 (fset F.GLB_MODE_REQ_RESULT 0 r s) = r ∧
    OnlyFields [F.GLB_MODE_REQ_RESULT.key 0] s (fset F.GLB_MODE_REQ_RESULT 0 r s) :=
  ⟨(fget_fset_same ..).trans (Nat.mod_eq_of_lt h), (OnlyFields.refl _ s).fset (List.mem_singleton_self _)⟩

theorem modeReqOperate_completes {fn : Fn} {w : Word} {s : State} (hr : Reaches fn .GLB_MODE_REQ 0 s)
    (hm : s.mode = .configure) (hl : loaded s = true) (hp : fget F.IMG_STATUS_PHASE 0 s = 0) :
    Completes (.modeReqOperate fn w) s fun t => t = fset F.GLB_MODE_REQ_RESULT 0 0 (enterMode .operate 0 (enginesOn s)) ∧
      t.mode = .operate ∧ fget F.GLB_MODE_MODE 0 t = 3 := by
  refine .intro (exec_modeReqOperate hr (reqOperate_taken hm hl hp)) ⟨rfl, (fset_mode ..).trans (enterMode_mode ..), ?_⟩
  rw [fget_fset_other (by decide) (by decide) (by decide), fget_enterMode_mode]; rfl

theorem modeReqOperate_refused {fn : Fn} {w : Word} {s : State} (hr : Reaches fn .GLB_MODE_REQ 0 s)
    (h : s.mode ≠ .configure ∨ loaded s = false) : Completes (.modeReqOperate fn w) s fun t =>
      fget F.GLB_MODE_REQ_RESULT 0 t = 5 ∧ OnlyFields [F.GLB_MODE_REQ_RESULT.key 0] s t :=
  .intro (exec_modeReqOperate hr (reqOperate_refused h)) (fset_result_spec (by decide) s)

theorem modeReqConfigure_held {fn : Fn} {w : Word} {s : State} (hr : Reaches fn .GLB_MODE_REQ 0 s) (hm : s.mode = .operate)
    (hb : transBusy s = false) (hd : flag F.IMG_STATUS_DELTA_PENDING 0 s = true) :
    Completes (.modeReqConfigure fn w) s fun t => fget F.GLB_MODE_REQ_RESULT 0 t = 2 ∧
      t.power = { s.power with heldConfigure := true } ∧ KeepsFields [F.GLB_MODE_REQ_RESULT.key 0] s t := by
  exact .intro (exec_modeReqConfigure hr ((reqConfigure_idle hm hb).trans (if_pos hd)))
    ⟨fget_fset_same .., rfl, (KeepsFields.of_regs rfl).fset (List.mem_singleton_self _)⟩

/-- R584: the longest drain has ended, and CONFIGURE is entered. -/
theorem configureEntry_completes {s : State} (hm : s.mode = .operate) (ht : inTransition s = true)
    (hg : fget F.GLB_MODE_TARGET 0 s = 2) (hw : wireBusy s = false) : Completes .configureEntry s fun t =>
      t.mode = .configure ∧ inTransition t = false ∧
      t = enterMode .configure 0 (setFlag F.GLB_MODE_TRANSITION 0 false (drainsEnd s)) :=
  .intro (congrArg Host.Outcome.next (if_pos (by simp [hm, ht, hg, hw])))
    ⟨enterMode_mode .., by rw [inTransition_enterMode, inTransition_cleared], rfl⟩

/-! ### Requests for STANDBY (R74, R585, R586) -/

section
variable {atL2 retain : Bool} {s : State}

/-- R585: with no transition in progress and no wake, the link decides. -/
theorem stbyCheck_idle (hm : s.mode = .operate) (hb : transBusy s = false) (hw : s.power.wakeLow = false)
    (hs : s.power.wakeSeen ≠ some s.time.cclk) :
    stbyCheck atL2 s = if linkCold s then 0 else if atL2 then 2 else 5 := by simp [stbyCheck, hm, hb, hw, hs]

theorem stbyCheck_woken (hm : s.mode = .operate) (hb : transBusy s = false) (hs : s.power.wakeSeen = some s.time.cclk) :
    stbyCheck atL2 s = 10 := by simp [stbyCheck, hm, hb, hs]

theorem reqStandby_taken (h : stbyCheck atL2 s = 0) : reqStandby retain atL2 s = (2, grantStandby retain s) := by
  simp [reqStandby, h]

theorem reqStandby_armed (h : stbyCheck atL2 s = 2) :
    reqStandby retain atL2 s = (2, stbyStatus 2 { s with power := { s.power with armed := some retain } }) := by
  simp [reqStandby, h]

theorem reqStandby_refused {r : Nat} (h : stbyCheck atL2 s = r) (h0 : r ≠ 0) (h2 : r ≠ 2) :
    reqStandby retain atL2 s = (r, stbyStatus r s) := by
  subst h
  unfold reqStandby
  split
  · exact absurd ‹_› h0
  · exact absurd ‹_› h2
  · rfl

theorem grantStandby_taken (h : flag F.IMG_STATUS_DELTA_PENDING 0 s = false) : grantStandby retain s = takeStandby retain s :=
  if_neg (by simp [h])

theorem inTransition_setTransition (target : Nat) (s : State) : inTransition (setTransition target s) = true := by
  rw [inTransition, setTransition, flag_fset_other (by decide) (by decide) (by decide)]
  exact flag_setFlag_same _ _ _ _ rfl

/-- R586: what a request for STANDBY that is taken shows. -/
theorem takeStandby_fields (retain : Bool) (s : State) : inTransition (takeStandby retain s) = true ∧
    fget F.GLB_MODE_TARGET 0 (takeStandby retain s) = 4 ∧ fget F.STBY_STATUS_STATUS 0 (takeStandby retain s) = 2 := by
  have regs : (takeStandby retain s).regs = (setTransition 4 (stbyStatus 2 s)).regs := rfl
  refine ⟨(inTransition_congr regs).trans (inTransition_setTransition ..), ?_, ?_⟩
  · rw [fget_congr regs]
    exact fget_fset_same ..
  · rw [fget_congr regs, setTransition, fget_fset_other (by decide) (by decide) (by decide),
      fget_setFlag_other (by decide) (by decide) (by decide)]
    exact fget_fset_same ..

end

/-- R447: no host request passes while the link is cold. -/
theorem linkCold_of_reaches {fn : Nat} {r : Reg} {i : Nat} {s : State} (h : Reaches fn r i s) : linkCold s = false := by
  obtain ⟨reach, -⟩ := h
  simpa using (Bool.and_eq_true_iff.1 reach).2

section
variable {fn : Fn} {w : Word} {s : State} (hr : Reaches fn .GLB_MODE_REQ 0 s) (hm : s.mode = .operate)
  (hb : transBusy s = false) (hw : s.power.wakeLow = false) (hs : s.power.wakeSeen ≠ some s.time.cclk)
include hr hm hb hw hs

/-- R585: a write with AT_L2 arms the request. -/
theorem standbyRequest_armed (ha : wbit F.GLB_MODE_REQ_AT_L2 w = true) : Completes (.standbyRequest fn w) s fun t =>
    fget F.GLB_MODE_REQ_RESULT 0 t = 2 ∧ fget F.STBY_STATUS_STATUS 0 t = 2 ∧
    t.power = { s.power with armed := some (wbit F.GLB_MODE_REQ_RETAIN_HBM w) } ∧ t.mode = .operate ∧ t.mem = s.mem := by
  have check : stbyCheck (wbit F.GLB_MODE_REQ_AT_L2 w) s = 2 := by
    rw [stbyCheck_idle hm hb hw hs, linkCold_of_reaches hr, ha]; rfl
  refine .intro (exec_standbyRequest hr (reqStandby_armed check)) ⟨fget_fset_same .., ?_, rfl, hm, rfl⟩
  rw [fget_fset_other (by decide) (by decide) (by decide)]
  exact fget_fset_same ..

/-- R585: one without AT_L2 is refused while the link is up. -/
theorem standbyRequest_refused (ha : wbit F.GLB_MODE_REQ_AT_L2 w = false) : Completes (.standbyRequest fn w) s fun t =>
    fget F.GLB_MODE_REQ_RESULT 0 t = 5 ∧ fget F.STBY_STATUS_STATUS 0 t = 5 ∧
    OnlyFields [F.GLB_MODE_REQ_RESULT.key 0, F.STBY_STATUS_STATUS.key 0] s t := by
  have check : stbyCheck (wbit F.GLB_MODE_REQ_AT_L2 w) s = 5 := by
    rw [stbyCheck_idle hm hb hw hs, linkCold_of_reaches hr, ha]; rfl
  refine .intro (exec_standbyRequest hr (reqStandby_refused check (by decide) (by decide))) ⟨fget_fset_same .., ?_, ?_⟩
  · rw [fget_fset_other (by decide) (by decide) (by decide)]
    exact fget_fset_same ..
  · exact ((OnlyFields.refl _ s).fset (by simp)).fset (by simp)

end

/-- R585: a falling edge of the pin takes the request when every check passes. -/
theorem stbyReqPin_completes {s : State} (hp : s.power.stbyLow = false) (hl : pinsLive s = true)
    (hc : flag F.GLB_WAKE_CFG_PIN_REQ 0 s = true) (hk : stbyCheck false s = 0)
    (hd : flag F.IMG_STATUS_DELTA_PENDING 0 s = false) : Completes .stbyReqPin s fun t => inTransition t = true ∧
      fget F.GLB_MODE_TARGET 0 t = 4 ∧ fget F.STBY_STATUS_STATUS 0 t = 2 ∧ t.power.takenAt = s.time.cclk ∧
      t.power.retain = flag F.GLB_WAKE_CFG_PIN_RETAIN 0 s ∧ t.power.stbyLow = true ∧ t.mode = s.mode ∧ t.mem = s.mem := by
  have check : stbyCheck false { s with power := { s.power with stbyLow := true } } = 0 := hk
  have gate : (!s.power.stbyLow && pinsLive { s with power := { s.power with stbyLow := true } } &&
      flag F.GLB_WAKE_CFG_PIN_REQ 0 { s with power := { s.power with stbyLow := true } }) = true := by
    rw [hp]; exact Bool.and_eq_true_iff.2 ⟨hl, hc⟩
  refine .intro (t := takeStandby (flag F.GLB_WAKE_CFG_PIN_RETAIN 0 s) { s with power := { s.power with stbyLow := true } })
    (congrArg Host.Outcome.next ((if_pos gate).trans ?_)) ?_
  · rw [reqStandby_taken check]
    exact grantStandby_taken hd
  · obtain ⟨trans, target, status⟩ := takeStandby_fields (flag F.GLB_WAKE_CFG_PIN_RETAIN 0 s)
      { s with power := { s.power with stbyLow := true } }
    exact ⟨trans, target, status, rfl, rfl, rfl, rfl, rfl⟩

end Sys2Proof.Machine
end
section
/-! SUPPORT and CERTIFICATE. The request that is armed for L2, gating, and the state in which STANDBY is reached (R585 to R587). -/
namespace Sys2Proof.Machine

/-- The state in which an armed request is checked again: the link is in L2/L3 Ready, and the request no longer armed. -/
def atL2Ready (s : State) : State :=
  { s with pcie := { s.pcie with link := .l2Ready }, power := { s.power with armed := none } }

theorem exec_l2ReadyEntry {s : State} {k : Bool} (hl : s.pcie.link ≠ .down) (ha : s.power.armed = some k) :
    exec .l2ReadyEntry s = .next (if stbyCheck false (atL2Ready s) = 0 then grantStandby k (atL2Ready s)
      else stbyStatus (stbyCheck false (atL2Ready s)) (atL2Ready s)) := by
  have up : (s.pcie.link == .down) = false := by simpa using hl
  simp only [exec, execL2ReadyEntry, up, ha]
  rfl

/-- R585: the request that is checked again does not stand in its own way. -/
theorem transBusy_atL2Ready {s : State} (ht : inTransition s = false) (hh : s.power.held = none)
    (hc : s.power.heldConfigure = false) : transBusy (atL2Ready s) = false := by
  change (inTransition s || false || s.power.held.isSome || s.power.heldConfigure) = false
  simp [ht, hh, hc]

section
variable {s : State} {k : Bool} (hl : s.pcie.link ≠ .down) (hm : s.mode = .operate) (ht : inTransition s = false)
  (hh : s.power.held = none) (hc : s.power.heldConfigure = false) (ha : s.power.armed = some k)
include hl hm ht hh hc ha

/-- R585: an armed request is taken at L2, unless a wake came. -/
theorem l2ReadyEntry_taken (hw : s.power.wakeLow = false) (hs : s.power.wakeSeen ≠ some s.time.cclk)
    (hd : flag F.IMG_STATUS_DELTA_PENDING 0 s = false) : Completes .l2ReadyEntry s fun t => inTransition t = true ∧
      fget F.GLB_MODE_TARGET 0 t = 4 ∧ t.power.retain = k ∧ t.power.armed = none ∧ t.power.takenAt = s.time.cclk ∧
      t.pcie.link = .l2Ready ∧ t.mem = s.mem := by
  have idle := transBusy_atL2Ready ht hh hc
  have check : stbyCheck false (atL2Ready s) = 0 := by rw [stbyCheck_idle (s := atL2Ready s) hm idle hw hs]; rfl
  obtain ⟨trans, target, -⟩ := takeStandby_fields k (atL2Ready s)
  refine .intro (t := takeStandby k (atL2Ready s)) ?_ ⟨trans, target, rfl, rfl, rfl, rfl, rfl⟩
  rw [exec_l2ReadyEntry hl ha, if_pos check, grantStandby_taken (s := atL2Ready s) hd]

/-- R585: a wake at the instant of the check withdraws the request. -/
theorem l2ReadyEntry_woken (hs : s.power.wakeSeen = some s.time.cclk) : Completes .l2ReadyEntry s fun t =>
    inTransition t = false ∧ t.power.armed = none ∧ fget F.STBY_STATUS_STATUS 0 t = 0x0A ∧ t.pcie.link = .l2Ready ∧
    t.mem = s.mem := by
  have idle := transBusy_atL2Ready ht hh hc
  have check : stbyCheck false (atL2Ready s) = 10 := stbyCheck_woken (s := atL2Ready s) hm idle hs
  refine .intro (t := stbyStatus 10 (atL2Ready s)) ?_ ⟨?_, rfl, fget_fset_same .., rfl, rfl⟩
  · rw [exec_l2ReadyEntry hl ha, check]; rfl
  · rw [inTransition, stbyStatus, flag_fset_other (by decide) (by decide) (by decide)]
    exact ht

end

/-- R586: 2 µs after the request the units are recorded and the data path stops. -/
theorem exec_standbyGating {s : State} (hm : s.mode = .operate) (ht : inTransition s = true)
    (hg : fget F.GLB_MODE_TARGET 0 s = 4) (h : s.power.gated = false) : ∀ u, u = reachCclk (s.power.takenAt + 3200) s →
    exec .standbyGating s = .next (logSealNow (quiesce (grantStop 4
      { u with power := { u.power with gated := true, recorded := enabledUnits u } }))) := by
  rintro _ rfl
  exact congrArg Host.Outcome.next (if_pos (by simp [hm, ht, hg, h]))

/-! ### STANDBY is reached (R586, R587, R589) -/

theorem haspCause_haspLevel (n m : Nat) (b : Bool) (s : State) :
    haspCause n (haspLevel m b s) = if n = m then b else haspCause n s := by
  split
  case isTrue h => subst h; exact flag_setFlag_same _ _ _ _ rfl
  case isFalse h => exact flag_setFlag_ne (fun e => h (Fld.key_inj.1 e)) _ _

/-- R587: the lines of the listed sources are low. -/
theorem haspCause_lowered {n : Nat} {l : List Nat} {s : State} (h : n ∈ l ∨ haspCause n s = false) :
    haspCause n (l.foldl (fun s m => haspLevel m false s) s) = false := by
  induction l generalizing s with
  | nil => simpa using h
  | cons m l ih =>
    refine ih ?_
    by_cases e : n = m
    · exact .inr (by rw [haspCause_haspLevel, if_pos e])
    · rw [haspCause_haspLevel, if_neg e]
      simpa [e] using h

theorem standbyLines_parts (s : State) : standbyLines s = { s with regs := (standbyLines s).regs } := by
  unfold standbyLines
  induction [1, 6, 9, 14, 37, 38, 39, 40] generalizing s with
  | nil => rfl
  | cons n l ih => rw [List.foldl_cons, ih]; rfl

theorem standbyLines_mode (s : State) : (standbyLines s).mode = s.mode := by rw [standbyLines_parts]
theorem standbyLines_power (s : State) : (standbyLines s).power = s.power := by rw [standbyLines_parts]

theorem fget_standbyLines_other {f : Fld} {i : Nat} {s : State} (h : f.key 0 ≠ F.HASP_SRC_STATE_CAUSE.key 0)
    (hf : f.key 0 < 16384) : fget f i (standbyLines s) = fget f i s := by
  unfold standbyLines
  induction [1, 6, 9, 14, 37, 38, 39, 40] generalizing s with
  | nil => rfl
  | cons n l ih => exact (ih ..).trans (fget_setFlag_other h (by decide) hf)

/-- What STANDBY shows from its entry to the first wake that is acted on, `keep` being what the request asked to retain. -/
structure InStandby (keep : Bool) (t : State) : Prop where
  mode : t.mode = .standby
  gated : t.power.gated = false
  transition : inTransition t = false
  status : fget F.STBY_STATUS_STATUS 0 t = 0
  retained : flag F.GLB_MODE_RETAINED 0 t = keep
  reached : t.power.reachedAt = t.time.cclk
  lines : ∀ n ∈ [1, 6, 9, 14, 37, 38, 39, 40], haspCause n t = false

theorem InStandby.fset {keep : Bool} {t : State} (h : InStandby keep t) {f : Fld} {i v : Nat} (hf : f.key 0 < 16384)
    (hn : ∀ g ∈ [F.GLB_MODE_TRANSITION, F.STBY_STATUS_STATUS, F.GLB_MODE_RETAINED, F.HASP_SRC_STATE_CAUSE],
      g.key 0 ≠ f.key 0 ∧ g.key 0 < 16384) : InStandby keep (fset f i v t) := by
  have other (g : Fld) (j : Nat) (hg : g ∈ [F.GLB_MODE_TRANSITION, F.STBY_STATUS_STATUS, F.GLB_MODE_RETAINED,
      F.HASP_SRC_STATE_CAUSE]) : fget g j (Machine.fset f i v t) = fget g j t :=
    fget_fset_other (hn g hg).1 hf (hn g hg).2
  refine ⟨h.mode, h.gated, ?_, ?_, ?_, h.reached, fun n hn => ?_⟩
  · rw [inTransition, flag, other _ _ (by simp)]; exact h.transition
  · rw [other _ _ (by simp)]; exact h.status
  · rw [flag, other _ _ (by simp)]; exact h.retained
  · rw [haspCause, flag, other _ _ (by simp)]; exact h.lines n hn

/-- R590: a wake that is latched leaves all that STANDBY shows. -/
theorem InStandby.wakeLatch {keep : Bool} {t : State} (h : InStandby keep t) (code : Nat) :
    InStandby keep (wakeLatch code t) := by
  have latched : InStandby keep (setFlag F.STBY_STATUS_WAKE_LATCHED 0 true t) := h.fset (by decide) (by decide)
  unfold Machine.wakeLatch
  dsimp only
  split
  · exact latched
  · refine InStandby.fset ?_ (by decide) (by decide)
    exact ⟨latched.mode, latched.gated, latched.transition, latched.status, latched.retained, latched.reached, latched.lines⟩

theorem InStandby.ite {keep : Bool} {a b : State} {c : Prop} [Decidable c] (h : InStandby keep a) (k : InStandby keep b) :
    InStandby keep (if c then a else b) := by split <;> assumption

theorem InStandby.disarmed {keep : Bool} {t : State} (h : InStandby keep t) :
    InStandby keep { t with power := { t.power with alarmNs := none } } :=
  ⟨h.mode, h.gated, h.transition, h.status, h.retained, h.reached, h.lines⟩

/-- R586: STATUS, RETAINED and ENTRIES as the entry to STANDBY sets them. -/
def standbyShown (keep : Bool) (n : Nat) (s : State) : State :=
  fset F.STBY_STATUS_ENTRIES 0 n (setFlag F.GLB_MODE_RETAINED 0 keep (stbyStatus 0 s))

theorem fget_standbyShown_other {f : Fld} {i n : Nat} {keep : Bool} {s : State} (he : f.key 0 ≠ F.STBY_STATUS_ENTRIES.key 0)
    (hr : f.key 0 ≠ F.GLB_MODE_RETAINED.key 0) (hs : f.key 0 ≠ F.STBY_STATUS_STATUS.key 0) (hf : f.key 0 < 16384) :
    fget f i (standbyShown keep n s) = fget f i s := by
  rw [standbyShown, fget_fset_other he (by decide) hf, fget_setFlag_other hr (by decide) hf, stbyStatus,
    fget_fset_other hs (by decide) hf]

/-- R586: core domains are gated at the present instant, and the registers show it. -/
theorem inStandby_of_shown {s u : State} {keep : Bool} {n : Nat} (ht : inTransition s = false)
    (hl : ∀ n ∈ [1, 6, 9, 14, 37, 38, 39, 40], haspCause n s = false) (hr : u.regs = (standbyShown keep n s).regs)
    (hm : u.mode = .standby) (hg : u.power.gated = false) (ha : u.power.reachedAt = u.time.cclk) : InStandby keep u := by
  refine ⟨hm, hg, ?_, ?_, ?_, ha, fun n hn => ?_⟩
  · rw [inTransition_congr hr, inTransition, flag,
      fget_standbyShown_other (by decide) (by decide) (by decide) (by decide)]
    exact ht
  · rw [fget_congr hr, standbyShown, fget_fset_other (by decide) (by decide) (by decide),
      fget_setFlag_other (by decide) (by decide) (by decide)]
    exact fget_fset_same ..
  · rw [flag_congr hr, standbyShown, flag_fset_other (by decide) (by decide) (by decide)]
    exact flag_setFlag_same _ _ _ _ rfl
  · rw [haspCause, flag_congr hr, flag, fget_standbyShown_other (by decide) (by decide) (by decide) (by decide)]
    exact hl n hn

/-- R586: the drains have ended, STANDBY is entered, and the lines that are not live in it are low. -/
theorem standbyEntered_spec (s : State) : ∀ t, t = standbyLines (setFlag F.GLB_MODE_TRANSITION 0 false
    (enterMode .standby 0 (drainsEnd s))) → t.mode = .standby ∧ inTransition t = false ∧
      (∀ n ∈ [1, 6, 9, 14, 37, 38, 39, 40], haspCause n t = false) ∧ t.power.retain = s.power.retain := by
  rintro _ rfl
  refine ⟨?_, ?_, fun n hn => haspCause_lowered (.inl hn), ?_⟩
  · rw [standbyLines_mode, setFlag_mode, enterMode_mode]
  · rw [inTransition, flag, fget_standbyLines_other (by decide) (by decide)]
    exact inTransition_cleared _
  · rw [standbyLines_power, setFlag_power, enterMode_power, drainsEnd_retain]

theorem standbyReached_completes {s : State} (hm : s.mode = .operate) (hg : s.power.gated = true) (hw : wireBusy s = false) :
    Completes .standbyReached s (InStandby s.power.retain) := by
  refine .intro (congrArg Host.Outcome.next (if_pos (by simp [hm, hg, hw]))) ?_
  extract_lets drained entered shown counted t alarm power gated woken power'
  obtain ⟨mode, trans, lines, retain⟩ := standbyEntered_spec s entered rfl
  clear_value entered
  have reached : InStandby entered.power.retain gated := inStandby_of_shown trans lines rfl mode rfl rfl
  rw [retain] at reached
  clear_value gated
  have awake : InStandby s.power.retain woken := .ite (reached.wakeLatch 1) reached
  exact .ite (awake.disarmed.wakeLatch 4) awake

end Sys2Proof.Machine
end
section
/-! CERTIFICATE. Wakes before and after gating, in STANDBY, and the resume (R585, R588 to R591, R599). -/
namespace Sys2Proof.Machine

/-! ### Wakes (R585, R588 to R590, R599) -/

/-- R590: a wake is latched; the first keeps its source. -/
theorem wakeLatch_parts (code : Nat) (s : State) :
    wakeLatch code s = { s with regs := (wakeLatch code s).regs, power := (wakeLatch code s).power } := by
  unfold wakeLatch
  dsimp only
  split <;> rfl

theorem wakeLatch_mode (code : Nat) (s : State) : (wakeLatch code s).mode = s.mode := by rw [wakeLatch_parts]
theorem wakeLatch_time (code : Nat) (s : State) : (wakeLatch code s).time = s.time := by rw [wakeLatch_parts]

/-- R590: of the power state a latched wake changes its own source alone. -/
theorem wakeLatch_power (code : Nat) (s : State) :
    (wakeLatch code s).power = { s.power with firstWake := (wakeLatch code s).power.firstWake } := by
  unfold wakeLatch
  dsimp only
  split <;> rfl

theorem wakeLatch_latched (code : Nat) (s : State) : flag F.STBY_STATUS_WAKE_LATCHED 0 (wakeLatch code s) = true := by
  have latched : flag F.STBY_STATUS_WAKE_LATCHED 0 (setFlag F.STBY_STATUS_WAKE_LATCHED 0 true s) = true :=
    flag_setFlag_same _ _ _ _ rfl
  unfold wakeLatch
  dsimp only
  split
  · exact latched
  · rw [flag_fset_other (by decide) (by decide) (by decide)]
    exact latched

theorem wakeLatch_first {s : State} (h : s.power.firstWake = 0) (code : Nat) : (wakeLatch code s).power.firstWake = code ∧
    fget F.STBY_STATUS_WAKE_SRC 0 (wakeLatch code s) = code % 2 ^ F.STBY_STATUS_WAKE_SRC.w := by
  have : wakeLatch code s = fset F.STBY_STATUS_WAKE_SRC 0 code { setFlag F.STBY_STATUS_WAKE_LATCHED 0 true s with
      power := { s.power with firstWake := code } } := if_neg (not_not.2 h)
  rw [this]
  exact ⟨rfl, fget_fset_same ..⟩

theorem wakeLatch_later {s : State} (h : s.power.firstWake ≠ 0) (code : Nat) :
    wakeLatch code s = setFlag F.STBY_STATUS_WAKE_LATCHED 0 true s := if_pos h

section
variable {code : Nat} {s : State} (hm : s.mode = .operate) (ht : inTransition s = true) (hg : fget F.GLB_MODE_TARGET 0 s = 4)
include hm ht hg

/-- R585: on the way to STANDBY a wake withdraws the request before gating, and is latched after it. -/
theorem wakeEvent_operate : ∀ u, u = { s with power := { s.power with wakeSeen := some s.time.cclk } } → wakeEvent code s =
    if s.power.gated then wakeLatch code u else setFlag F.GLB_MODE_TRANSITION 0 false (stbyStatus 0x0A u) := by
  rintro _ rfl
  have entering : (s.mode == .operate && inTransition s && fget F.GLB_MODE_TARGET 0 s == 4) = true := by simp [hm, ht, hg]
  exact if_pos entering

end

/-- R590: in STANDBY a wake is latched, and acted on 50 µs after STANDBY was reached. -/
theorem wakeEvent_standby {code : Nat} {s : State} (hm : s.mode = .standby) (hr : s.power.resuming = false) :
    ∀ u, u = wakeLatch code { s with power := { s.power with wakeSeen := some s.time.cclk } } → wakeEvent code s =
      if s.power.reachedAt + 80000 ≤ s.time.cclk then wakeAct u else u := by
  rintro _ rfl
  have notEntering : ¬ (s.mode == .operate && inTransition s && fget F.GLB_MODE_TARGET 0 s == 4) = true := by simp [hm]
  have inStandby : (s.mode == .standby) = true := by rw [hm]; rfl
  refine (if_neg notEntering).trans ((if_pos inStandby).trans ?_)
  generalize hv : ({ s with power := { s.power with wakeSeen := some s.time.cclk } } : State) = v
  have power : v.power.resuming = false ∧ v.power.reachedAt = s.power.reachedAt ∧ v.time = s.time := by
    subst hv; exact ⟨hr, rfl, rfl⟩
  obtain ⟨resuming, reached, time⟩ := power
  dsimp only
  rw [wakeLatch_power, wakeLatch_time]
  simp [resuming, reached, time]

/-- R589: WAKE_N falls while it is watched and enabled. -/
theorem exec_wakeN {s : State} (hw : s.power.wakeLow = false) (hp : pinsLive s = true)
    (hc : flag F.GLB_WAKE_CFG_WAKE_PIN 0 s = true) :
    exec (.wake .wakeN false) s = .next (wakeEvent 1 { s with power := { s.power with wakeLow := true } }) := by
  have fell : (!s.power.wakeLow && !false) = true := by rw [hw]; rfl
  refine congrArg Host.Outcome.next ((if_pos fell).trans (if_pos ?_))
  exact Bool.and_eq_true_iff.2 ⟨hp, hc⟩

theorem exec_wake_perst {s : State} (h : s.power.perstHigh = false) : exec (.wake .perstN false) s =
    .next (wakeIf F.GLB_WAKE_CFG_PERST 3 { s with power := { s.power with perstHigh := true } }) :=
  congrArg Host.Outcome.next (if_neg (by simp [h]))

theorem exec_wake_stbyReq {s : State} (h : s.power.stbyLow = true) : exec (.wake .stbyReqN false) s =
    .next (wakeIf F.GLB_WAKE_CFG_STBY_PIN 2 { s with power := { s.power with stbyLow := false } }) :=
  congrArg Host.Outcome.next (if_neg (by simp [h]))

/-- R599: the alarm time has been reached. -/
theorem exec_alarm {s : State} {n : Nat} (hm : s.mode = .standby) (ha : s.power.alarmNs = some n) :
    ∀ u, u = reachPtp n s → n ≤ nowNs u →
      exec .alarm s = .next (wakeEvent 4 { u with power := { u.power with alarmNs := none } }) := by
  rintro _ rfl hn
  simp only [exec, execAlarm, alarmRun, ha]
  rw [if_neg (not_not.2 hm), if_neg (not_lt.2 hn)]

/-- R590: a wake that is latched, or a request for LOCKDOWN, is acted on at the end of the dwell. -/
theorem exec_wakeDwellEnd {s : State} (hm : s.mode = .standby) (hr : s.power.resuming = false)
    (h : s.power.firstWake ≠ 0 ∨ s.power.lockHeld = true) :
    exec .wakeDwellEnd s = .next (wakeAct (reachCclk (s.power.reachedAt + 80000) s)) :=
  congrArg Host.Outcome.next (if_pos (by simpa [hm, hr] using h))

/-- R591: what is retained, or held for LOCKDOWN, resumes. -/
theorem wakeAct_resumes {s : State} (h : s.power.retain = true ∨ s.power.lockHeld = true) : ∀ u, u = wakeAct s →
    u.power.resuming = true ∧ u.power.wokeAt = s.time.cclk ∧ inTransition u = true ∧ u.mode = s.mode ∧ u.mem = s.mem := by
  have resumes : ∀ target, wakeAct s = { setTransition target s with
      power := { s.power with resuming := true, wokeAt := s.time.cclk } } → ∀ u, u = wakeAct s → u.power.resuming = true ∧
      u.power.wokeAt = s.time.cclk ∧ inTransition u = true ∧ u.mode = s.mode ∧ u.mem = s.mem := by
    rintro target e _ rfl
    rw [e]
    exact ⟨rfl, rfl, inTransition_setTransition target s, rfl, rfl⟩
  exact resumes _ (if_pos (by simpa using h))

/-- R587, R591: without retention the wake enters BOOT, and only the image is kept. -/
theorem wakeAct_boots {s : State} (hr : s.power.retain = false) (hl : s.power.lockHeld = false) : ∀ u, u = wakeAct s →
    u.mode = .boot ∧ flag F.GLB_RESET_CAUSE_STANDBY_WAKE 0 u = true ∧ u.power.bootCause = 9 ∧ u.mem.cells = [] ∧
    u.power.retImage.isSome = loaded s := by
  rintro _ rfl
  have boots : wakeAct s = bootEnter true 9 F.GLB_RESET_CAUSE_STANDBY_WAKE (passCclk 336000 s) := if_neg (by simp [hr, hl])
  rw [boots]
  unfold bootEnter
  extract_lets fromMode img reset
  have cleared : reset.mem.cells = [] := by
    rw [show reset = setFlag _ 0 true _ from rfl, setFlag_mem, softReset_mem]; rfl
  have caused : flag F.GLB_RESET_CAUSE_STANDBY_WAKE 0 reset = true := flag_setFlag_same _ _ _ _ rfl
  have kept : img.isSome = loaded s := by
    have held : loaded (passCclk 336000 s) = loaded s := rfl
    simp only [img, held]
    cases loaded s <;> rfl
  clear_value img reset
  exact ⟨rfl, caused, rfl, cleared, kept⟩

/-! ### The resume (R591) -/

theorem exec_wakeResume {s : State} (hm : s.mode = .standby) (hr : s.power.resuming = true) :
    ∀ u, u = reachCclk (s.power.wokeAt + 640000) s → exec .wakeResume s =
      .next (if u.power.lockHeld then lockdownEnter 5 (if u.power.retain then u else unretained u) else resumeOperate u) := by
  rintro _ rfl
  have due : (s.mode == .standby && s.power.resuming) = true := by simp [hm, hr]
  rw [exec, execWakeResume, if_pos due]

theorem wakePme_parts (s : State) : wakePme s = { s with pcie := (wakePme s).pcie } := by
  unfold wakePme
  split <;> rfl

/-- R591: with no unit to enable again, the resume ends in OPERATE with empty queues. -/
theorem resumeOperate_idle {s : State} (h : s.power.recorded = []) : ∀ u, u = resumeOperate s → u.mode = .operate ∧
    inTransition u = false ∧ u.power.resuming = false ∧ u.tm.queues = [] := by
  rintro _ rfl
  unfold resumeOperate
  extract_lets entered units power u
  have none : units = [] := by
    simp only [units, entered, enterMode_power]
    exact h
  have mode : entered.mode = .operate := enterMode_mode ..
  have trans : inTransition entered = false := (inTransition_enterMode ..).trans (inTransition_cleared _)
  have tm : entered.tm = (storesZero s).tm := enterMode_tm ..
  clear_value units entered
  subst none
  rw [List.foldl_nil, wakePme_parts]
  exact ⟨mode, trans, rfl, by rw [show u.tm = entered.tm from rfl, tm]; rfl⟩

/-! ### A fall of WAKE_N in each phase (R585, R589, R590) -/

section
variable {s : State} (hw : s.power.wakeLow = false) (hp : pinsLive s = true) (hc : flag F.GLB_WAKE_CFG_WAKE_PIN 0 s = true)
include hw hp hc

/-- R585: before gating it withdraws the request. -/
theorem wakeN_withdraws (hm : s.mode = .operate) (ht : inTransition s = true) (hg : fget F.GLB_MODE_TARGET 0 s = 4)
    (h : s.power.gated = false) : ∀ u, u = { s with power := { s.power with wakeLow := true, wakeSeen := some s.time.cclk } } →
    Completes (.wake .wakeN false) s fun t => inTransition t = false ∧ fget F.STBY_STATUS_STATUS 0 t = 0x0A ∧
      t.power = u.power ∧ t.mem = s.mem := by
  rintro _ rfl
  have woken := wakeEvent_operate (code := 1) (s := { s with power := { s.power with wakeLow := true } }) hm ht hg _ rfl
  refine .intro ((exec_wakeN hw hp hc).trans (congrArg _ (woken.trans (if_neg ?_)))) ⟨inTransition_cleared _, ?_, rfl, rfl⟩
  · exact ne_true_of_eq_false h
  · rw [fget_setFlag_other (by decide) (by decide) (by decide)]
    exact fget_fset_same ..

/-- R590: after gating it is latched. -/
theorem wakeN_gated (hm : s.mode = .operate) (ht : inTransition s = true) (hg : fget F.GLB_MODE_TARGET 0 s = 4)
    (h : s.power.gated = true) : ∀ u, u = { s with power := { s.power with wakeLow := true, wakeSeen := some s.time.cclk } } →
    exec (.wake .wakeN false) s = .next (wakeLatch 1 u) := by
  rintro _ rfl
  have woken := wakeEvent_operate (code := 1) (s := { s with power := { s.power with wakeLow := true } }) hm ht hg _ rfl
  exact (exec_wakeN hw hp hc).trans (congrArg _ (woken.trans (if_pos h)))

/-- R590: in the dwell it is latched, and the first wake keeps its source. -/
theorem wakeN_dwells (hm : s.mode = .standby) (hr : s.power.resuming = false) (h : s.time.cclk < s.power.reachedAt + 80000) :
    ∀ u, u = { s with power := { s.power with wakeLow := true, wakeSeen := some s.time.cclk } } →
    Completes (.wake .wakeN false) s fun t => flag F.STBY_STATUS_WAKE_LATCHED 0 t = true ∧ t.mode = .standby ∧
      (s.power.firstWake = 0 → t.power.firstWake = 1 ∧ fget F.STBY_STATUS_WAKE_SRC 0 t = 1) ∧
      (s.power.firstWake ≠ 0 → t.power = u.power ∧ fget F.STBY_STATUS_WAKE_SRC 0 t = fget F.STBY_STATUS_WAKE_SRC 0 s) := by
  intro u hu
  have woken := wakeEvent_standby (code := 1) (s := { s with power := { s.power with wakeLow := true } }) hm hr _ rfl
  refine .intro (t := wakeLatch 1 u) ((exec_wakeN hw hp hc).trans (congrArg _ (woken.trans ((if_neg ?_).trans ?_)))) ?_
  · exact Nat.not_le.2 h
  · rw [hu]
  · have same : u.mode = .standby ∧ u.power.firstWake = s.power.firstWake ∧ u.regs = s.regs := by
      rw [hu]; exact ⟨hm, rfl, rfl⟩
    obtain ⟨mode, first, regs⟩ := same
    clear hu
    refine ⟨wakeLatch_latched .., (wakeLatch_mode ..).trans mode, fun hf => wakeLatch_first (first.trans hf) 1, fun hf => ?_⟩
    rw [wakeLatch_later (ne_of_eq_of_ne first hf), setFlag_power, fget_setFlag_other (by decide) (by decide) (by decide),
      fget_congr regs]
    exact ⟨rfl, rfl⟩

/-- R590: after the dwell it is acted on. -/
theorem wakeN_acts (hm : s.mode = .standby) (hr : s.power.resuming = false) (h : s.power.reachedAt + 80000 ≤ s.time.cclk) :
    ∀ u, u = { s with power := { s.power with wakeLow := true, wakeSeen := some s.time.cclk } } →
    exec (.wake .wakeN false) s = .next (wakeAct (wakeLatch 1 u)) := by
  rintro _ rfl
  have woken := wakeEvent_standby (code := 1) (s := { s with power := { s.power with wakeLow := true } }) hm hr _ rfl
  exact (exec_wakeN hw hp hc).trans (congrArg _ (woken.trans (if_pos h)))

end

/-- Settles O60: each request, step and wake by its own rule above. -/
theorem modeRequestsAndStandby : Obligations.ModeRequestsAndStandby := by
  unfold Obligations.ModeRequestsAndStandby
  refine ⟨fun fn w s hr => ⟨modeReqOperate_completes hr, modeReqOperate_refused hr, fun hm hb hd => ?_,
      modeReqConfigure_held hr, fun hm hb => ?_, fun hm hb hw hs => ⟨standbyRequest_armed hr hm hb hw hs,
      standbyRequest_refused hr hm hb hw hs⟩⟩,
    fun s => configureEntry_completes, fun s => stbyReqPin_completes,
    fun s hl hm ht hh hc k ha => ⟨l2ReadyEntry_taken hl hm ht hh hc ha, l2ReadyEntry_woken hl hm ht hh hc ha⟩,
    fun s => exec_standbyGating, fun s hm hg hw => ?_,
    fun s hw hp hc u hu => ⟨fun hm ht hg h => wakeN_withdraws hw hp hc hm ht hg h u hu,
      fun hm ht hg h => wakeN_gated hw hp hc hm ht hg h u hu, fun hm hr h => wakeN_dwells hw hp hc hm hr h u hu,
      fun hm hr h => wakeN_acts hw hp hc hm hr h u hu⟩,
    fun s => exec_wake_perst, fun s => exec_wake_stbyReq, fun s hm n ha => exec_alarm hm ha,
    fun s => exec_wakeDwellEnd, fun s u hu => ⟨fun h => wakeAct_resumes h u hu, fun hr hl => wakeAct_boots hr hl u hu⟩,
    fun s hm hr u hu => ⟨fun hl => ?_, fun hl => ?_⟩, fun s u hu h => resumeOperate_idle h u hu⟩
  case refine_1 => exact exec_modeReqConfigure hr ((reqConfigure_idle hm hb).trans (if_neg (by simp [hd])))
  case refine_2 => exact .intro (exec_modeReqConfigure hr (reqConfigure_busy hm hb)) (fset_result_spec (by decide) s)
  case refine_3 =>
    obtain ⟨t, step, h⟩ := standbyReached_completes hm hg hw
    exact .intro step ⟨h.mode, h.gated, h.transition, h.status, h.retained, h.reached, h.lines⟩
  case refine_4 =>
    have held : u.power.lockHeld = false := by rw [hu, reachCclk_power, hl]
    exact (exec_wakeResume hm hr u hu).trans (congrArg _ (if_neg (by simp [held])))
  case refine_5 =>
    have held : u.power.lockHeld = true := by rw [hu, reachCclk_power, hl]
    exact .intro ((exec_wakeResume hm hr u hu).trans (congrArg _ (if_pos held))) (lockdownEnter_mode ..)

end Sys2Proof.Machine
end
section
/-! SUPPORT and CERTIFICATE. The events of a port (R82, R85, R89, R102, R549): what a counter, an event and the fall of a
link leave, and O13. -/
namespace Sys2Proof.Machine

/-! ### BAR2 counters (R548, R549) -/

theorem cntSet_parts (off v : Nat) (s : State) :
    cntSet off v s = { s with counters := Tab.set 0 s.counters (off / 8) (v % 2 ^ 64), trc := (cntSet off v s).trc } := by
  unfold cntSet
  dsimp only
  split <;> rfl

/-- A counter of a MAC record touches the counters and a running dump alone. -/
theorem macCnt_parts (p k n : Nat) (s : State) :
    macCnt p k n s = { s with counters := (macCnt p k n s).counters, trc := (macCnt p k n s).trc } := by
  rw [macCnt, cntBy, cntSet_parts]

@[simp] theorem macCnt_regs (p k n : Nat) (s : State) : (macCnt p k n s).regs = s.regs := by rw [macCnt_parts]
@[simp] theorem macCnt_mem (p k n : Nat) (s : State) : (macCnt p k n s).mem = s.mem := by rw [macCnt_parts]
@[simp] theorem macCnt_tm (p k n : Nat) (s : State) : (macCnt p k n s).tm = s.tm := by rw [macCnt_parts]
@[simp] theorem macCnt_loader (p k n : Nat) (s : State) : (macCnt p k n s).loader = s.loader := by rw [macCnt_parts]

/-- R549: index `k` of the port's record counts. -/
theorem macCnt_counts (p k n : Nat) (s : State) : Tab.get 0 (macCnt p k n s).counters ((145 * 65536 + p * 256 + k * 8) / 8) =
    (Tab.get 0 s.counters ((145 * 65536 + p * 256 + k * 8) / 8) + n) % 2 ^ 64 := by
  rw [macCnt, cntBy, cntSet_parts, Tab.get_set_same]

/-! ### Events and the fall of a link (R85, R89) -/

@[simp] theorem riseIf_tm (n : Nat) (old s : State) : (riseIf n old s).tm = s.tm := by
  rcases riseIf_eq n old s with h | h <;> rw [h]
  rw [pendSet_parts]
@[simp] theorem riseIf_counters (n : Nat) (old s : State) : (riseIf n old s).counters = s.counters := by
  rcases riseIf_eq n old s with h | h <;> rw [h]
  rw [pendSet_parts]
@[simp] theorem riseIf_loader (n : Nat) (old s : State) : (riseIf n old s).loader = s.loader := by
  rcases riseIf_eq n old s with h | h <;> rw [h]
  rw [pendSet_parts]

@[simp] theorem setEvent_tm (f : Fld) (i n : Nat) (s : State) : (setEvent f i n s).tm = s.tm := riseIf_tm ..
@[simp] theorem setEvent_counters (f : Fld) (i n : Nat) (s : State) : (setEvent f i n s).counters = s.counters :=
  riseIf_counters ..
@[simp] theorem setEvent_loader (f : Fld) (i n : Nat) (s : State) : (setEvent f i n s).loader = s.loader := riseIf_loader ..

/-- The fall of a link leaves memory, queues and configuration. -/
theorem linkFall_rest (p : Nat) (s : State) :
    (linkFall p s).mem = s.mem ∧ (linkFall p s).tm = s.tm ∧ (linkFall p s).loader = s.loader := by
  unfold linkFall
  split <;> simp

theorem linkFall_eq_self {p : Nat} {s : State} (h : flag F.MAC_STATUS_LINK_UP p s = false) : linkFall p s = s :=
  if_neg (by simp [h])

/-- R85: a link that is up falls, and the event shows. -/
theorem linkFall_flags {p : Nat} {s : State} (h : flag F.MAC_STATUS_LINK_UP p s = true) :
    flag F.MAC_STATUS_LINK_UP p (linkFall p s) = false ∧ flag F.MAC_STATUS_LINK_DOWN_EVT p (linkFall p s) = true ∧
    flag F.MAC_STATUS_ENABLED p (linkFall p s) = flag F.MAC_STATUS_ENABLED p s := by
  have falls : linkFall p s =
      macCnt p 25 1 (setEvent F.MAC_STATUS_LINK_DOWN_EVT p (224 + p) (setFlag F.MAC_STATUS_LINK_UP p false s)) := if_pos h
  rw [falls, flag_congr (macCnt_regs ..), flag_congr (macCnt_regs ..), flag_congr (macCnt_regs ..)]
  refine ⟨?_, flag_setEvent_same rfl (by decide) (by decide) (by decide), ?_⟩
  · rw [flag, fget_setEvent_other (by decide) (by decide) (by decide) (by decide) (by decide)]
    exact flag_setFlag_same _ _ _ _ rfl
  · rw [flag, fget_setEvent_other (by decide) (by decide) (by decide) (by decide) (by decide),
      fget_setFlag_other (by decide) (by decide) (by decide)]
    rfl

/-- What shows of a port whose link has fallen. -/
def LinkFallen (p : Nat) (s t : State) : Prop :=
  flag F.MAC_STATUS_LINK_UP p t = false ∧ flag F.MAC_STATUS_LINK_DOWN_EVT p t = true ∧ flag F.MAC_STATUS_FEC_LOCK p t = false ∧
  t.mem = s.mem ∧ t.tm = s.tm

/-- R89: the link falls, and FEC_LOCK with it. -/
theorem linkFall_unlocked {p : Nat} {s : State} (h : flag F.MAC_STATUS_LINK_UP p s = true) :
    ∀ u, u = setFlag F.MAC_STATUS_FEC_LOCK p false (linkFall p s) → LinkFallen p s u ∧
      flag F.MAC_STATUS_ENABLED p u = flag F.MAC_STATUS_ENABLED p s ∧ u.loader = s.loader := by
  rintro _ rfl
  obtain ⟨up, evt, enabled⟩ := linkFall_flags h
  obtain ⟨mem, tm, loader⟩ := linkFall_rest p s
  refine ⟨⟨?_, ?_, flag_setFlag_same _ _ _ _ rfl, mem, tm⟩, ?_, loader⟩
  · rw [flag, fget_setFlag_other (by decide) (by decide) (by decide)]; exact up
  · rw [flag, fget_setFlag_other (by decide) (by decide) (by decide)]; exact evt
  · rw [flag, fget_setFlag_other (by decide) (by decide) (by decide)]; exact enabled

/-- R84: a port without AN, or that is not enabled, does not negotiate. -/
theorem anAgain_eq_self {p : Nat} {s : State} (h : ¬(portAn s.cfg p = true ∧ flag F.MAC_STATUS_ENABLED p s = true)) :
    anAgain p s = s := if_neg (by simpa using h)

/-- R84: an enabled port with AN whose link is down negotiates again. -/
theorem anAgain_negotiates {p : Nat} {s u : State} (ha : portAn u.cfg p = true) (he : flag F.MAC_STATUS_ENABLED p u = true)
    (h : LinkFallen p s u) : ∀ t, t = anAgain p u → LinkFallen p s t ∧ flag F.MAC_STATUS_AN_DONE p t = false ∧
      Tab.get false t.ports.anRunning p = true := by
  rintro _ rfl
  obtain ⟨up, evt, -, mem, tm⟩ := h
  have gate : (portAn u.cfg p && flag F.MAC_STATUS_ENABLED p u) = true := by rw [ha, he]; rfl
  have again : anAgain p u = { setFlag F.MAC_STATUS_AN_DONE p false (setFlag F.MAC_STATUS_FEC_LOCK p false u) with
      ports := { u.ports with anRunning := Tab.set false u.ports.anRunning p true } } := by
    refine (if_pos gate).trans ?_
    rw [linkFall_eq_self up]; rfl
  have regs : (anAgain p u).regs = (setFlag F.MAC_STATUS_AN_DONE p false (setFlag F.MAC_STATUS_FEC_LOCK p false u)).regs := by
    rw [again]
  have running : (anAgain p u).ports.anRunning = Tab.set false u.ports.anRunning p true := by rw [again]
  refine ⟨⟨?_, ?_, ?_, by rw [again]; exact mem, by rw [again]; exact tm⟩, ?_, by rw [running, Tab.get_set_same]⟩
  · rw [flag_congr regs, flag, fget_setFlag_other (by decide) (by decide) (by decide),
      fget_setFlag_other (by decide) (by decide) (by decide)]
    exact up
  · rw [flag_congr regs, flag, fget_setFlag_other (by decide) (by decide) (by decide),
      fget_setFlag_other (by decide) (by decide) (by decide)]
    exact evt
  · rw [flag_congr regs, flag, fget_setFlag_other (by decide) (by decide) (by decide)]
    exact flag_setFlag_same _ _ _ _ rfl
  · rw [flag_congr regs]
    exact flag_setFlag_same _ _ _ _ rfl

/-- R85, R89: a link that is up falls. -/
theorem linkDown_completes {p : Port} {s : State} (h : flag F.MAC_STATUS_LINK_UP p s = true) :
    Completes (.linkDown p) s fun t => LinkFallen p s t ∧ (portAn s.cfg p = true → flag F.MAC_STATUS_ENABLED p s = true →
      flag F.MAC_STATUS_AN_DONE p t = false ∧ Tab.get false t.ports.anRunning p = true) := by
  refine .intro (congrArg Host.Outcome.next (if_pos h)) ?_
  obtain ⟨fallen, enabled, loader⟩ := linkFall_unlocked h _ rfl
  generalize setFlag F.MAC_STATUS_FEC_LOCK p.val false (linkFall p.val s) = u at fallen enabled loader
  have cfg : u.cfg = s.cfg := congrArg Loader.secs loader
  by_cases ha : portAn s.cfg p = true ∧ flag F.MAC_STATUS_ENABLED p s = true
  · obtain ⟨again, negotiates⟩ := anAgain_negotiates (cfg ▸ ha.1) (enabled.trans ha.2) fallen _ rfl
    exact ⟨again, fun _ _ => negotiates⟩
  · rw [anAgain_eq_self (by rwa [cfg, enabled])]
    exact ⟨fallen, fun an en => absurd ⟨an, en⟩ ha⟩

/-! ### The other events -/

/-- R82: negotiation and link training are complete. -/
theorem anDone_completes {p : Port} {s : State} (hr : Tab.get false s.ports.anRunning p = true)
    (he : flag F.MAC_STATUS_ENABLED p s = true) (ho : octetOn p s = true) : Completes (.anDone p) s fun t =>
      flag F.MAC_STATUS_AN_DONE p t = true ∧ Tab.get false t.ports.anRunning p = false ∧
      KeepsFields [F.MAC_STATUS_AN_DONE.key p] s t ∧ t.mem = s.mem ∧ t.tm = s.tm :=
  .intro (congrArg Host.Outcome.next (if_pos (by simp [hr, he, ho]))) ⟨flag_setFlag_same _ _ _ _ rfl, Tab.get_del_same ..,
    (KeepsFields.of_regs rfl).setFlag (List.mem_singleton_self _), rfl, rfl⟩

/-- R43, R85: the PCS reports link up. -/
theorem linkUp_completes {p : Port} {s : State} (he : flag F.MAC_STATUS_ENABLED p s = true) (ho : octetOn p s = true)
    (ha : portAn s.cfg p = false ∨ flag F.MAC_STATUS_AN_DONE p s = true) : Completes (.linkUp p) s fun t =>
      flag F.MAC_STATUS_LINK_UP p t = true ∧ flag F.MAC_STATUS_FEC_LOCK p t = (portFec s.cfg p != 0) ∧
      OnlyFields [F.MAC_STATUS_LINK_UP.key p, F.MAC_STATUS_FEC_LOCK.key p] s t := by
  refine .intro (congrArg Host.Outcome.next (if_pos (by simpa [he, ho] using ha)))
    ⟨flag_setFlag_same _ _ _ _ rfl, ?_, ((OnlyFields.refl _ s).setFlag (by simp)).setFlag (by simp)⟩
  rw [flag, fget_setFlag_other (by decide) (by decide) (by decide)]
  exact flag_setFlag_same _ _ _ _ rfl

/-- R85, R549: an uncorrectable codeword is counted, and the event shows. -/
theorem fecUncorrCodeword_completes {p : Port} {s : State}
    (he : flag F.MAC_STATUS_ENABLED p s = true ∨ flag F.MAC_STATUS_DRAINING p s = true) (hf : portFec s.cfg p ≠ 0) :
    Completes (.fecUncorrCodeword p) s fun t => flag F.MAC_STATUS_FEC_UNCORR_EVT p t = true ∧
      Tab.get 0 t.counters ((145 * 65536 + p * 256 + 13 * 8) / 8) =
        (Tab.get 0 s.counters ((145 * 65536 + p * 256 + 13 * 8) / 8) + 1) % 2 ^ 64 ∧ t.mem = s.mem := by
  refine .intro (congrArg Host.Outcome.next (if_pos (by simp [he, hf])))
    ⟨flag_setEvent_same rfl (by decide) (by decide) (by decide), ?_, ?_⟩
  · rw [setEvent_counters, macCnt_counts]
  · rw [setEvent_mem, macCnt_mem]

/-- R102: a read returns the oldest timestamp and removes it. -/
theorem txtsPop_completes {fn : Fn} {p : Port} {s : State} {id ns sec : Nat} {r : List (Nat × Nat × Nat)}
    (hs : Shows fn .MAC_TXTS_SEC p s) (hq : Tab.get [] s.ports.txts p = (id, ns, sec) :: r) :
    Completes (.txtsPop fn p) s fun t => Tab.get [] t.ports.txts p = r ∧ t.out = .readData fn sec :: s.out ∧
      t.regs = s.regs ∧ t.mem = s.mem := by
  have pop : txtsPop p s = (sec, { s with ports := { s.ports with
      txts := Tab.set [] s.ports.txts p r, txtsOverflow := Tab.set false s.ports.txtsOverflow p false } }) := by
    simp only [txtsPop, hq]
  refine .intro (congrArg Host.Outcome.next (hostRd_shows hs _)) ?_
  rw [pop]
  exact ⟨Tab.get_set_same .., rfl, rfl, rfl⟩

/-- Settles O13: each event by its own rule above. -/
theorem portEventsAreReported : Obligations.PortEventsAreReported := by
  unfold Obligations.PortEventsAreReported
  refine ⟨fun p s => anDone_completes, fun p s => linkUp_completes, fun p s h => ?_, fun p s => fecUncorrCodeword_completes,
    fun fn p s id ns sec r => txtsPop_completes⟩
  obtain ⟨t, step, ⟨up, evt, lock, mem, tm⟩, again⟩ := linkDown_completes h
  exact .intro step ⟨up, evt, lock, again, mem, tm⟩

end Sys2Proof.Machine
end
section
/-! SUPPORT and CERTIFICATE. A FAULT_POLICY that brings a set source to class C4 (R511): the image that carries it ends in
LOCKDOWN, which refutes O52. -/
namespace Sys2Proof.Machine

/-! ### What the effective class of a source rests on (R510, R515) -/

/-- The fields from which the effective class of a source is read. -/
def classFields : List Fld :=
  [F.HASP_SRC_STATE_SET, F.HASP_SRC_STATE_LASTING, F.HASP_SRC_STATE_ESCALATED, F.HASP_SRC_CLASS_CLASS]

/-- From `s` to `t` the mode, the configuration and the effective class of every source stay. -/
structure ClassKept (s t : State) : Prop where
  mode : t.mode = s.mode
  loader : t.loader = s.loader
  hasp : t.hasp = s.hasp
  fields : ∀ f ∈ classFields, ∀ i, fget f i t = fget f i s

theorem ClassKept.refl (s : State) : ClassKept s s := ⟨rfl, rfl, rfl, fun _ _ _ => rfl⟩

theorem ClassKept.trans {s t u : State} (h : ClassKept s t) (k : ClassKept t u) : ClassKept s u :=
  ⟨k.mode.trans h.mode, k.loader.trans h.loader, k.hasp.trans h.hasp, fun f hf i => (k.fields f hf i).trans (h.fields f hf i)⟩

theorem ClassKept.ite {s a b : State} {c : Prop} [Decidable c] (h : ClassKept s a) (k : ClassKept s b) :
    ClassKept s (if c then a else b) := by split <;> assumption

theorem ClassKept.foldl {α : Type} {g : State → α → State} (h : ∀ s x, ClassKept s (g s x)) (l : List α) (s : State) :
    ClassKept s (l.foldl g s) := by
  induction l generalizing s with
  | nil => exact .refl s
  | cons x l ih => exact (h s x).trans (ih _)

theorem ClassKept.fset {s t : State} (h : ClassKept s t) {f : Fld} (hn : ∀ g ∈ classFields, g.key 0 ≠ f.key 0 ∧ g.key 0 < 16384)
    (hf : f.key 0 < 16384) (i v : Nat) : ClassKept s (fset f i v t) :=
  h.trans ⟨rfl, rfl, rfl, fun g hg _ => fget_fset_other (hn g hg).1 hf (hn g hg).2⟩

theorem ClassKept.cfg {s t : State} (h : ClassKept s t) : t.cfg = s.cfg := congrArg Loader.secs h.loader

theorem ClassKept.isSet {s t : State} (h : ClassKept s t) (n : Nat) : haspIsSet n t = haspIsSet n s := by
  rw [haspIsSet, flag, h.fields _ (by simp [classFields])]; rfl

theorem ClassKept.eff {s t : State} (h : ClassKept s t) (n : Nat) : haspEff n t = haspEff n s := by
  have same (f : Fld) (hf : f ∈ classFields) : fget f n t = fget f n s := h.fields f hf n
  rw [haspEff, h.isSet, haspForced, h.hasp, haspBase, same F.HASP_SRC_STATE_LASTING (by simp [classFields]),
    same F.HASP_SRC_STATE_ESCALATED (by simp [classFields]), same F.HASP_SRC_CLASS_CLASS (by simp [classFields])]
  rfl

/-- A set source of class C4 is at C4 in effect. -/
theorem haspEff_of_class {n : Nat} {s : State} (hs : haspIsSet n s = true) (hc : fget F.HASP_SRC_CLASS_CLASS n s = 4) :
    haspEff n s = 4 := by
  rw [haspEff, haspBase, hs, hc]
  cases haspForced n s <;> simp; omega

theorem riseIf_classKept (n : Nat) (old s : State) : ClassKept s (riseIf n old s) := by
  refine ⟨?_, riseIf_loader .., ?_, fun f hf i => ?_⟩
  · rcases riseIf_eq n old s with h | h <;> rw [h]
    exact pendSet_mode n s
  · rcases riseIf_eq n old s with h | h <;> rw [h]
    rw [pendSet_parts]
  · have other : ∀ f ∈ classFields, f.key 0 ≠ F.INT_PEND_PEND.key 0 ∧ f.key 0 ≠ F.INT_GRP_STATUS_STATE.key 0 ∧
        f.key 0 < 16384 := by decide
    obtain ⟨hp, hg, hk⟩ := other f hf
    exact fget_riseIf_other hp hg hk

/-! ### A change of policy (R511) -/

/-- R519: a request for LOCKDOWN in CONFIGURE enters it. -/
theorem lockReq_configure {n : Nat} {s : State} (h : s.mode = .configure) : (lockReq n s).mode = .lockdown := by
  have told := haspEvent_onlyTold 6 n s
  unfold lockReq
  rw [if_neg (by simp [h])]
  extract_lets s1 s2
  have h2 : s2.mode = .configure := by
    have : OnlyTold s s2 := told.trans (.ite (.refl s1) ⟨_, _, _, rfl⟩)
    rw [this.mode, h]
  clear_value s2
  rw [if_neg (by simp [h2]), if_neg (by simp [h2])]
  exact lockdownEnter_mode ..

/-- R511: what a change of policy from `old` does at source `n`. -/
def policyStep (old s : State) (n : Nat) : State :=
  if haspIsSet n (riseIf (24 + n) old s) && haspEff n (riseIf (24 + n) old s) == 4 && haspEff n old != 4 then
    lockReq n (riseIf (24 + n) old s) else riseIf (24 + n) old s

theorem haspPolicyChanged_eq (old s : State) : haspPolicyChanged old s = (List.range 64).foldl (policyStep old) s := rfl

theorem policySteps_lockdown {old s : State} (h : s.mode = .lockdown) (l : List Nat) :
    (l.foldl (policyStep old) s).mode = .lockdown := by
  induction l generalizing s with
  | nil => exact h
  | cons n l ih =>
    have risen : (riseIf (24 + n) old s).mode = .lockdown := (riseIf_classKept ..).mode.trans h
    have locked : lockReq n (riseIf (24 + n) old s) = riseIf (24 + n) old s := if_pos (by rw [risen]; rfl)
    refine ih ?_
    rw [policyStep, locked, ite_self, risen]

/-- R511: a set source that the policy brings to C4 ends CONFIGURE in LOCKDOWN. -/
theorem policySteps_lock {old s : State} {n : Nat} {l : List Nat} (hn : n ∈ l) (hm : s.mode = .configure)
    (hs : haspIsSet n s = true) (h4 : haspEff n s = 4) (ho : haspEff n old ≠ 4) :
    (l.foldl (policyStep old) s).mode = .lockdown := by
  induction l generalizing s with
  | nil => cases hn
  | cons m l ih =>
    have kept := riseIf_classKept (24 + m) old s
    rw [List.foldl_cons, policyStep]
    split
    case isTrue => exact policySteps_lockdown (lockReq_configure (kept.mode.trans hm)) l
    case isFalse stays =>
      rcases List.mem_cons.1 hn with rfl | hn
      · exact absurd (by simp [kept.isSet, kept.eff, hs, h4, ho]) stays
      · exact ih hn (kept.mode.trans hm) ((kept.isSet n).trans hs) ((kept.eff n).trans h4)

/-- R511: the record of a policy for source `n` takes effect. -/
def policyRecord (c : Cfg) (s : State) (n : Nat) : State :=
  match fpRec c n with
  | some r =>
    let s := fset F.HASP_SRC_CLASS_CLASS n (byteAt r 1) (fset F.HASP_SRC_CLASS_REACTION n (byteAt r 2) s)
    fset F.HASP_SRC_WINDOW_N n (fieldLE r 6 2) (fset F.HASP_SRC_WINDOW_WINDOW_MS n (fieldLE r 4 2) s)
  | none => s

/-- R511: the policy registers, and the record of every source. -/
def policySet (s : State) : State :=
  (List.range 64).foldl (policyRecord s.cfg)
    (setFlag F.HASP_CTRL_POLICY_IMAGE 0 true (setFlag F.HASP_CTRL_DRIVE_SHK_FAULT 0 (fpDrive s.cfg)
      (fset F.HASP_CTRL_FAULT_N_CLASS 0 (fpClass s.cfg) (fset F.HASP_CTRL_C4_EXIT 0 (fpC4Exit s.cfg) s))))

theorem haspPolicy_eq (s : State) : haspPolicy s = haspPolicyChanged s (policySet s) := rfl

theorem policyRecord_mode (c : Cfg) (s : State) (m : Nat) : (policyRecord c s m).mode = s.mode := by
  unfold policyRecord
  split <;> rfl

theorem isSet_policyRecord (c : Cfg) (s : State) (m n : Nat) : haspIsSet n (policyRecord c s m) = haspIsSet n s := by
  unfold policyRecord
  split
  · dsimp only
    rw [haspIsSet, flag_fset_other (by decide) (by decide) (by decide), flag_fset_other (by decide) (by decide) (by decide),
      flag_fset_other (by decide) (by decide) (by decide), flag_fset_other (by decide) (by decide) (by decide)]
    rfl
  · rfl

theorem class_policyRecord_same {c : Cfg} {n : Nat} {r : Bytes} (h : fpRec c n = some r) (s : State) :
    fget F.HASP_SRC_CLASS_CLASS n (policyRecord c s n) = byteAt r 1 % 2 ^ F.HASP_SRC_CLASS_CLASS.w := by
  unfold policyRecord
  rw [h]
  dsimp only
  rw [fget_fset_other (by decide) (by decide) (by decide), fget_fset_other (by decide) (by decide) (by decide), fget_fset_same]

theorem class_policyRecord_ne {c : Cfg} {n m : Nat} (h : n ≠ m) (s : State) :
    fget F.HASP_SRC_CLASS_CLASS n (policyRecord c s m) = fget F.HASP_SRC_CLASS_CLASS n s := by
  unfold policyRecord
  split
  · dsimp only
    rw [fget_fset_other (by decide) (by decide) (by decide), fget_fset_other (by decide) (by decide) (by decide),
      fget_fset_inst h, fget_fset_other (by decide) (by decide) (by decide)]
  · rfl

theorem policyRecords_isSet (c : Cfg) (l : List Nat) (n : Nat) (s : State) :
    haspIsSet n (l.foldl (policyRecord c) s) = haspIsSet n s ∧ (l.foldl (policyRecord c) s).mode = s.mode := by
  induction l generalizing s with
  | nil => exact ⟨rfl, rfl⟩
  | cons m l ih =>
    obtain ⟨set, mode⟩ := ih (policyRecord c s m)
    exact ⟨set.trans (isSet_policyRecord ..), mode.trans (policyRecord_mode ..)⟩

theorem policyRecords_class {c : Cfg} {n : Nat} {r : Bytes} (h : fpRec c n = some r) {l : List Nat} {s : State}
    (hl : n ∈ l ∨ fget F.HASP_SRC_CLASS_CLASS n s = byteAt r 1 % 2 ^ F.HASP_SRC_CLASS_CLASS.w) :
    fget F.HASP_SRC_CLASS_CLASS n (l.foldl (policyRecord c) s) = byteAt r 1 % 2 ^ F.HASP_SRC_CLASS_CLASS.w := by
  induction l generalizing s with
  | nil => simpa using hl
  | cons m l ih =>
    refine ih ?_
    by_cases e : n = m
    · exact .inr (e ▸ class_policyRecord_same (e ▸ h) s)
    · rw [class_policyRecord_ne e]
      simpa [e] using hl

/-- R511: a policy that gives a set source class C4 ends CONFIGURE in LOCKDOWN. -/
theorem haspPolicy_locks {n : Nat} {r : Bytes} {s : State} (hn : n < 64) (hm : s.mode = .configure)
    (hs : haspIsSet n s = true) (ho : haspEff n s ≠ 4) (hr : fpRec s.cfg n = some r) (hc : byteAt r 1 = 4) :
    (haspPolicy s).mode = .lockdown := by
  have ctrl : ClassKept s (setFlag F.HASP_CTRL_POLICY_IMAGE 0 true (setFlag F.HASP_CTRL_DRIVE_SHK_FAULT 0 (fpDrive s.cfg)
      (fset F.HASP_CTRL_FAULT_N_CLASS 0 (fpClass s.cfg) (fset F.HASP_CTRL_C4_EXIT 0 (fpC4Exit s.cfg) s)))) :=
    ((((ClassKept.refl s).fset (by decide) (by decide) ..).fset (by decide) (by decide) ..).fset (by decide) (by decide) ..).fset
      (by decide) (by decide) ..
  obtain ⟨set, mode⟩ := policyRecords_isSet s.cfg (List.range 64) n _
  have set' : haspIsSet n (policySet s) = true := set.trans ((ctrl.isSet n).trans hs)
  have c4 : fget F.HASP_SRC_CLASS_CLASS n (policySet s) = 4 :=
    (policyRecords_class hr (.inl (List.mem_range.2 hn))).trans (by rw [hc]; rfl)
  rw [haspPolicy_eq, haspPolicyChanged_eq]
  exact policySteps_lock (List.mem_range.2 hn) (mode.trans (ctrl.mode.trans hm)) set' (haspEff_of_class set' c4) ho

/-! ### What else an image that is applied does (R68, R610) -/

theorem setShared_classKept (v : Nat) (s : State) : ClassKept s (setShared v s) :=
  ((ClassKept.refl s).fset (by decide) (by decide) ..).fset (by decide) (by decide) ..

theorem setTickNext_classKept (td k : Nat) (s : State) : ClassKept s (setTickNext td k s) :=
  ⟨rfl, rfl, rfl, fun _ _ _ => rfl⟩

theorem domainApply_classKept (old : Cfg) (td : Nat) (s : State) : ClassKept s (domainApply old td s) := by
  unfold domainApply
  extract_lets c on same s1 s2
  have shown : ClassKept s s1 :=
    (((ClassKept.refl s).fset (by decide) (by decide) ..).fset (by decide) (by decide) ..).fset (by decide) (by decide) ..
  have afresh : ClassKept s s2 := shown.trans (.ite (.refl _) (setTickNext_classKept ..))
  exact .ite (afresh.trans (setTickNext_classKept ..)) afresh

/-- R610: the fields of a configuration leave the effective classes. -/
theorem cfgApply_classKept (old : Cfg) (s : State) : ClassKept s (cfgApply old s) := by
  unfold cfgApply
  extract_lets c domains engines
  have h1 : ClassKept s (sharedRecount old s) := .foldl (fun s x => setShared_classKept _ s) _ s
  have h2 : ClassKept (sharedRecount old s) domains := .foldl (fun s td => domainApply_classKept old td s) _ _
  have h3 : ClassKept domains engines := .foldl (fun s e => (ClassKept.refl s).fset (by decide) (by decide) ..) _ _
  refine ((h1.trans h2).trans h3).trans (.foldl (fun s g => ?_) _ _)
  exact (((((ClassKept.refl s).fset (by decide) (by decide) ..).fset (by decide) (by decide) ..).fset (by decide) (by decide)
    ..).fset (by decide) (by decide) ..).fset (by decide) (by decide) ..

/-- R410: so do the pools. -/
theorem poolsApply_classKept (s : State) : ClassKept s (poolsApply s) := by
  unfold poolsApply
  extract_lets c mem s1
  refine ClassKept.trans (t := s1) ⟨rfl, rfl, rfl, fun _ _ _ => rfl⟩ (.foldl (fun s p => ?_) _ _)
  exact ((((((ClassKept.refl s).fset (by decide) (by decide) ..).fset (by decide) (by decide) ..).fset (by decide) (by decide)
    ..).fset (by decide) (by decide) ..).fset (by decide) (by decide) ..).fset (by decide) (by decide) ..

theorem floorRaise_parts (s : State) : floorRaise s = { s with ward := (floorRaise s).ward } := by
  unfold floorRaise epochBurn storeWrite
  split
  · split <;> rfl
  · rfl

theorem grantStop_mode (cause : Nat) (s : State) : (grantStop cause s).mode = s.mode := by
  unfold grantStop grantLog
  split
  · rfl
  · exact logPush_mode ..

/-- R511, R68: an image whose policy gives a set source class C4 ends CONFIGURE in LOCKDOWN. -/
theorem imageApply_locks {m : Img} {n : Nat} {r : Bytes} {s : State} (hn : n < 64) (hm : s.mode = .configure)
    (hs : haspIsSet n s = true) (ho : haspEff n s ≠ 4) (hr : fpRec m.cfg n = some r) (hc : byteAt r 1 = 4) :
    (imageApply m s).mode = .lockdown := by
  unfold imageApply
  extract_lets old d loader s1
  have raised : ClassKept s1 (floorRaise s1) := by
    rw [floorRaise_parts]; exact ⟨rfl, rfl, rfl, fun _ _ _ => rfl⟩
  have inForce : (imageInForce old (floorRaise s1)).mode = .lockdown := by
    unfold imageInForce
    extract_lets h s2 s3
    have kept : ClassKept s1 (poolsApply (cfgApply old s2)) :=
      (((raised.fset (by decide) (by decide) ..).fset (by decide) (by decide) ..).trans (cfgApply_classKept ..)).trans
        (poolsApply_classKept _)
    have locked : s3.mode = .lockdown :=
      haspPolicy_locks hn (kept.mode.trans hm) ((kept.isSet n).trans hs) (by rw [kept.eff]; exact ho)
        (by rw [kept.cfg]; exact hr) hc
    clear_value s3
    split
    · rw [grantStop_mode, locked]
    · exact locked
  exact (logPush_mode ..).trans inForce

/-! ### The counterexample -/

/-- CONFIGURE with the bit of source 12 set, at its default class. -/
def latchedState : State := setFlag F.HASP_SRC_STATE_SET 12 true { State.reset with mode := .configure }

/-- FAULT_POLICY with one record, that of source 12 at class C4 (R60). -/
def lockPolicy : Bytes :=
  leBytes 2 4 ++ leBytes 2 8 ++ leBytes 4 1 ++ leBytes 4 4 ++ leBytes 1 12 ++ leBytes 1 4 ++ leBytes 6 0

def lockImage : Img := { hdr := [], plain := [], offs := [], carried := [], cfg := [(12, lockPolicy)], delta := false }

theorem latchedState_mode : latchedState.mode = .configure := setFlag_mode ..

theorem latchedState_isSet : haspIsSet 12 latchedState = true := flag_setFlag_same _ _ _ _ rfl

theorem latchedState_eff : haspEff 12 latchedState ≠ 4 := by decide

theorem lockImage_record : ∃ r, fpRec lockImage.cfg 12 = some r ∧ byteAt r 1 = 4 := ⟨_, rfl, by decide⟩

/-- Refutes O52: its clause on an image that is applied keeps the mode, but an image whose policy brings a set source to class
C4 enters LOCKDOWN as it is applied (R511). -/
theorem not_imagesAndFirmware : ¬ Obligations.ImagesAndFirmware := by
  unfold Obligations.ImagesAndFirmware
  rintro ⟨-, -, -, -, applied, -, -⟩
  obtain ⟨-, -, -, -, -, mode, -, -⟩ := applied lockImage latchedState _ rfl
  obtain ⟨r, hr, hc⟩ := lockImage_record
  rw [imageApply_locks (by decide) latchedState_mode latchedState_isSet latchedState_eff hr hc, latchedState_mode] at mode
  cases mode

end Sys2Proof.Machine
end

section
/-! SUPPORT and CERTIFICATE. The time unit (R94 to R114): TIME_INCR, TIME_CTRL, the events at its pins and balls, SYNC_GPIO
and the interval timers; O6 to O10. -/
namespace Sys2Proof.Machine

/-! ### TIME_INCR (R103) -/

theorem clampN_eq_max_min {lo hi : Nat} (h : lo ≤ hi) (v : Nat) : clampN lo hi v = max lo (min hi v) := by
  unfold clampN
  split
  · omega
  · split <;> omega

/-- R103: the increment is held at the nearer limit. -/
theorem fget_timeIncrSet (v : Nat) (s : State) :
    fget F.TIME_INCR_INCR 0 (timeIncrSet v s) = max 0x0FFBE76D (min 0x10041893 v) := by
  rw [timeIncrSet, fget_fset_same, clampN_eq_max_min (by decide)]
  exact Nat.mod_eq_of_lt (show _ < 2 ^ 32 by omega)

/-- Settles O6: the write is the clamped one, and it sets one field. -/
theorem timeIncrIsHeldInRange : Obligations.TimeIncrIsHeldInRange := by
  intro fn w s hr
  exact .intro (congrArg Host.Outcome.next (hostWr_reaches hr _))
    ⟨fget_timeIncrSet _ s, (OnlyFields.refl _ s).fset (List.mem_singleton_self _)⟩

/-! ### Steps of the time (R96) -/

/-- What a forward step passes over: indices of ticks and firings, and the count of ticks. -/
def Skips (s t : State) : Prop :=
  (∃ regs ticks firings, t = { s with regs := regs, time := { s.time with tickNext := ticks, tmrNext := firings } }) ∧
  ∀ f i, f.key 0 ≠ F.TICK_SKIP_COUNT.key 0 → f.key 0 < 16384 → fget f i t = fget f i s

theorem Skips.refl (s : State) : Skips s s := ⟨⟨_, _, _, rfl⟩, fun _ _ _ _ => rfl⟩

theorem Skips.trans {s t u : State} (h : Skips s t) (k : Skips t u) : Skips s u := by
  obtain ⟨⟨_, _, _, rfl⟩, fields⟩ := h
  obtain ⟨⟨_, _, _, rfl⟩, fields'⟩ := k
  exact ⟨⟨_, _, _, rfl⟩, fun f i hf hk => (fields' f i hf hk).trans (fields f i hf hk)⟩

theorem Skips.ite {s a b : State} {c : Prop} [Decidable c] (h : Skips s a) (k : Skips s b) : Skips s (if c then a else b) := by
  split <;> assumption

theorem Skips.foldl {α : Type} {g : State → α → State} (h : ∀ s x, Skips s (g s x)) (l : List α) (s : State) :
    Skips s (l.foldl g s) := by
  induction l generalizing s with
  | nil => exact .refl s
  | cons x l ih => exact (h s x).trans (ih _)

theorem setTickNext_skips (td k : Nat) (s : State) : Skips s (setTickNext td k s) := ⟨⟨_, _, _, rfl⟩, fun _ _ _ _ => rfl⟩

theorem countSkipped_skips (td v : Nat) (s : State) : Skips s (fset F.TICK_SKIP_COUNT td v s) :=
  ⟨⟨_, _, _, rfl⟩, fun _ _ hf hk => fget_fset_other hf (by decide) hk⟩

theorem tickSkip_skips (td : Nat) (s : State) : Skips s (tickSkip td s) := by
  unfold tickSkip
  exact .ite (.refl s) ((countSkipped_skips ..).trans (setTickNext_skips ..))

theorem tmrSkip_skips (i : Nat) (s : State) : Skips s (tmrSkip i s) := by
  unfold tmrSkip
  exact .ite (.refl s) ⟨⟨_, _, _, rfl⟩, fun _ _ _ _ => rfl⟩

/-- R96: the time after a step of `d`, before what it passes over is counted. -/
def timeMoved (d : Int) (s : State) : State :=
  { s with time := { s.time with ptp := (((s.time.ptp : Int) + d) % (ptpWrap : Int)).toNat } }

theorem ptpWrap_pos : 0 < ptpWrap := Nat.mul_pos (Nat.two_pow_pos 48) (Nat.mul_pos (by decide) (Nat.two_pow_pos 28))

theorem timeMoved_ptp (d : Int) (s : State) : ((timeMoved d s).time.ptp : Int) = ((s.time.ptp : Int) + d) % (ptpWrap : Int) := by
  simp only [timeMoved]
  exact Int.toNat_of_nonneg (Int.emod_nonneg _ (Int.natCast_ne_zero.2 ptpWrap_pos.ne'))

@[simp] theorem riseIf_time (n : Nat) (old s : State) : (riseIf n old s).time = s.time := by
  rcases riseIf_eq n old s with h | h <;> simp [h]
@[simp] theorem setEvent_time (f : Fld) (i n : Nat) (s : State) : (setEvent f i n s).time = s.time := by simp [setEvent]

/-- R96: a step moves the time, passes over what lies before it, and shows. -/
theorem timeStepBy_eq (d : Int) (s : State) : ∃ u, Skips (timeMoved d s) u ∧ timeStepBy d s = setEvent F.TIME_STATUS_STEPPED 0 94 u := by
  refine ⟨_, ?_, rfl⟩
  exact .ite ((Skips.foldl (fun s td => .ite (tickSkip_skips td s) (.refl s)) _ _).trans (.foldl (fun s i => tmrSkip_skips i s) _ _))
    (.refl _)

/-- The fields that a step of the time touches. -/
def stepFields : List Fld := [F.TICK_SKIP_COUNT, F.TIME_STATUS_STEPPED, F.INT_PEND_PEND, F.INT_GRP_STATUS_STATE]

/-- R96: what a step leaves. -/
theorem timeStepBy_spec (d : Int) (s : State) : ∀ t, t = timeStepBy d s →
    (t.time.ptp : Int) = ((s.time.ptp : Int) + d) % (ptpWrap : Int) ∧
    (∃ ptp ticks firings, t.time = { s.time with ptp := ptp, tickNext := ticks, tmrNext := firings }) ∧ t.mem = s.mem ∧
    flag F.TIME_STATUS_STEPPED 0 t = true ∧
    ∀ f i, (∀ g ∈ stepFields, f.key 0 ≠ g.key 0) → f.key 0 < 16384 → fget f i t = fget f i s := by
  rintro _ rfl
  obtain ⟨u, ⟨parts, fields⟩, eq⟩ := timeStepBy_eq d s
  have moved := timeMoved_ptp d s
  rw [eq]
  refine ⟨?_, ?_, ?_, flag_setEvent_same rfl (by decide) (by decide) (by decide), fun f i hf hk => ?_⟩
  · obtain ⟨_, _, _, rfl⟩ := parts
    rw [setEvent_time]; exact moved
  · obtain ⟨_, _, _, rfl⟩ := parts
    rw [setEvent_time]; exact ⟨_, _, _, rfl⟩
  · obtain ⟨_, _, _, rfl⟩ := parts
    rw [setEvent_mem]; rfl
  · simp only [stepFields, List.forall_mem_cons] at hf
    obtain ⟨skip, stepped, pend, grp, -⟩ := hf
    rw [fget_setEvent_other stepped (by decide) pend grp hk, fields f i skip hk]; rfl

/-! ### TIME_CTRL (R95, R104, R107) -/

/-- R107: arming the ticks sets their next indices alone. -/
theorem tickArmAll_parts (s : State) : ∃ ticks, tickArmAll s = { s with time := { s.time with tickNext := ticks } } := by
  have steps (l : List Nat) (s : State) : ∃ ticks,
      l.foldl (fun s td => if tdEnabled td s then tickArm td s else s) s = { s with time := { s.time with tickNext := ticks } } := by
    induction l generalizing s with
    | nil => exact ⟨_, rfl⟩
    | cons td l ih =>
      have one : ∃ ticks, (if tdEnabled td s then tickArm td s else s) = { s with time := { s.time with tickNext := ticks } } := by
        split <;> exact ⟨_, rfl⟩
      obtain ⟨_, one⟩ := one
      rw [List.foldl_cons, one]
      obtain ⟨ticks, rest⟩ := ih { s with time := { s.time with tickNext := _ } }
      exact ⟨ticks, rest⟩
  exact steps _ s

/-- R95, R107: FREQ_IN_DISABLE and RUN take their values, and the ticks are armed where the unit starts. -/
def timeCtrlSet (w : Word) (s : State) : State :=
  let t := setFlag F.TIME_CTRL_RUN 0 (wbit F.TIME_CTRL_RUN w) (freqDisable (wbit F.TIME_CTRL_FREQ_IN_DISABLE w) s)
  if running t && !running s then tickArmAll t else t

/-- R104: the time is latched before a step of the same write. -/
def timeLatched (w : Word) (s : State) : State :=
  if wbit F.TIME_CTRL_SNAPSHOT w then takeSnapshot (timeCtrlSet w s) else timeCtrlSet w s

theorem timeCtrlWrite_eq (w : Word) (s : State) : timeCtrlWrite w s =
    if wbit F.TIME_CTRL_STEP w then timeStepBy (stepUnits (timeLatched w s)) (timeLatched w s) else timeLatched w s := rfl

/-- From `s` to `t` a write of TIME_CTRL is carried out, up to its step. -/
structure TimeCtrlTaken (w : Word) (s t : State) : Prop where
  time : ∃ freqFrom ticks, t.time = { s.time with freqFrom := freqFrom, tickNext := ticks }
  mem : t.mem = s.mem
  run : flag F.TIME_CTRL_RUN 0 t = wbit F.TIME_CTRL_RUN w
  disable : flag F.TIME_CTRL_FREQ_IN_DISABLE 0 t = wbit F.TIME_CTRL_FREQ_IN_DISABLE w
  sysclk : wbit F.TIME_CTRL_FREQ_IN_DISABLE w = true → flag F.TIME_STATUS_FREQ_SRC 0 t = false
  step : stepUnits t = stepUnits s

/-- The fields that hold a step. -/
def stepOperands : List Fld := [F.TIME_STEP_SEC_SEC, F.TIME_STEP_NS_NS, F.TIME_STEP_NS_SIGN]

/-- R96: the step depends on its three fields alone. -/
theorem stepUnits_congr {s t : State} (h : ∀ f ∈ stepOperands, fget f 0 t = fget f 0 s) : stepUnits t = stepUnits s := by
  simp only [stepOperands, List.forall_mem_cons] at h
  obtain ⟨sec, ns, sign, -⟩ := h
  unfold stepUnits flag
  rw [sec, ns, sign]

theorem stepUnits_fset {f : Fld} (h : ∀ g ∈ stepOperands, g.key 0 ≠ f.key 0 ∧ g.key 0 < 16384) (hf : f.key 0 < 16384) (i v : Nat)
    (s : State) : stepUnits (fset f i v s) = stepUnits s :=
  stepUnits_congr fun g hg => fget_fset_other (h g hg).1 hf (h g hg).2

theorem stepUnits_setFlag {f : Fld} (h : ∀ g ∈ stepOperands, g.key 0 ≠ f.key 0 ∧ g.key 0 < 16384) (hf : f.key 0 < 16384) (i : Nat)
    (b : Bool) (s : State) : stepUnits (setFlag f i b s) = stepUnits s := stepUnits_fset h hf ..

/-- R95: FREQ_IN_DISABLE takes its value, and 1 selects SYSCLK. -/
theorem freqDisable_spec (b : Bool) (s : State) : ∀ t, t = freqDisable b s →
    (∃ freqFrom, t.time = { s.time with freqFrom := freqFrom }) ∧ t.mem = s.mem ∧
    flag F.TIME_CTRL_FREQ_IN_DISABLE 0 t = b ∧ (b = true → flag F.TIME_STATUS_FREQ_SRC 0 t = false) ∧
    stepUnits t = stepUnits s := by
  rintro _ rfl
  unfold freqDisable
  extract_lets was s1
  have set : flag F.TIME_CTRL_FREQ_IN_DISABLE 0 s1 = b := flag_setFlag_same _ _ _ _ rfl
  have step : stepUnits s1 = stepUnits s := stepUnits_setFlag (by decide) (by decide) ..
  split
  case isTrue on =>
    exact ⟨⟨_, rfl⟩, rfl, (flag_setFlag_other (by decide) (by decide) (by decide)).trans set,
      fun _ => flag_setFlag_same _ _ _ _ rfl, (stepUnits_setFlag (by decide) (by decide) ..).trans step⟩
  case isFalse off =>
    have stays : b = true → flag F.TIME_STATUS_FREQ_SRC 0 s1 = false := fun on => absurd on off
    split
    · exact ⟨⟨_, rfl⟩, rfl, set, stays, step⟩
    · exact ⟨⟨_, rfl⟩, rfl, set, stays, step⟩

/-- R95, R107: what the values of FREQ_IN_DISABLE and RUN leave, before the latch and the step. -/
theorem timeCtrlSet_taken (w : Word) (s : State) : TimeCtrlTaken w s (timeCtrlSet w s) := by
  obtain ⟨⟨_, time⟩, mem, disable, sysclk, step⟩ := freqDisable_spec (wbit F.TIME_CTRL_FREQ_IN_DISABLE w) s _ rfl
  have run : TimeCtrlTaken w s (setFlag F.TIME_CTRL_RUN 0 (wbit F.TIME_CTRL_RUN w)
      (freqDisable (wbit F.TIME_CTRL_FREQ_IN_DISABLE w) s)) :=
    ⟨⟨_, _, time⟩, mem, flag_setFlag_same _ _ _ _ rfl,
      (flag_setFlag_other (by decide) (by decide) (by decide)).trans disable,
      fun on => (flag_setFlag_other (by decide) (by decide) (by decide)).trans (sysclk on),
      (stepUnits_setFlag (by decide) (by decide) ..).trans step⟩
  unfold timeCtrlSet
  extract_lets t
  change TimeCtrlTaken w s t at run
  split
  · obtain ⟨_, armed⟩ := tickArmAll_parts t
    obtain ⟨⟨_, _, time⟩, mem, run, disable, sysclk, step⟩ := run
    rw [armed]
    exact ⟨⟨_, _, by rw [time]⟩, mem, run, disable, sysclk, step⟩
  · exact run

/-- R104: the registers of a snapshot hold the time. -/
theorem takeSnapshot_shows (s : State) : ∀ t, t = takeSnapshot s → fget F.TIME_SNAP_NS_NS 0 t = nsNs (nowNs s) ∧
    fget F.TIME_SNAP_SEC_LO_SEC 0 t = nsSec (nowNs s) % 2 ^ 32 ∧
    fget F.TIME_SNAP_SEC_HI_SEC 0 t = nsSec (nowNs s) / 2 ^ 32 % 2 ^ 16 := by
  rintro _ rfl
  unfold takeSnapshot
  refine ⟨?_, ?_, ?_⟩
  · rw [fget_fset_same]
    exact Nat.mod_eq_of_lt (lt_trans (Nat.mod_lt _ (by decide)) (by decide))
  · rw [fget_fset_other (by decide) (by decide) (by decide), fget_fset_same]
    exact Nat.mod_mod _ _
  · rw [fget_fset_other (by decide) (by decide) (by decide), fget_fset_other (by decide) (by decide) (by decide), fget_fset_same]
    rfl

theorem TimeCtrlTaken.fset {w : Word} {s t : State} (h : TimeCtrlTaken w s t) {f : Fld}
    (hn : ∀ g ∈ stepOperands ++ [F.TIME_CTRL_RUN, F.TIME_CTRL_FREQ_IN_DISABLE, F.TIME_STATUS_FREQ_SRC],
      g.key 0 ≠ f.key 0 ∧ g.key 0 < 16384) (hf : f.key 0 < 16384) (i v : Nat) : TimeCtrlTaken w s (fset f i v t) := by
  obtain ⟨time, mem, run, disable, sysclk, step⟩ := h
  have other (g : Fld) (hg : g ∈ [F.TIME_CTRL_RUN, F.TIME_CTRL_FREQ_IN_DISABLE, F.TIME_STATUS_FREQ_SRC]) (j : Nat) :
      flag g j (Machine.fset f i v t) = flag g j t :=
    flag_fset_other (hn g (List.mem_append_right _ hg)).1 hf (hn g (List.mem_append_right _ hg)).2
  exact ⟨time, mem, by rw [other _ (by simp)]; exact run, by rw [other _ (by simp)]; exact disable,
    fun on => by rw [other _ (by simp)]; exact sysclk on,
    (stepUnits_fset (fun g hg => hn g (List.mem_append_left _ hg)) hf ..).trans step⟩

theorem timeLatched_taken (w : Word) (s : State) : TimeCtrlTaken w s (timeLatched w s) := by
  have taken := timeCtrlSet_taken w s
  unfold timeLatched
  split
  · exact ((taken.fset (by decide) (by decide) ..).fset (by decide) (by decide) ..).fset (by decide) (by decide) ..
  · exact taken

/-- The present time is that of the write. -/
theorem TimeCtrlTaken.nowNs {w : Word} {s t : State} (h : TimeCtrlTaken w s t) : nowNs t = nowNs s := by
  obtain ⟨_, _, time⟩ := h.time
  rw [Machine.nowNs, time]; rfl

/-- R104: what a write of TIME_CTRL leaves: memory, the core cycle, and every field but those of a step. -/
theorem timeCtrlWrite_frame (w : Word) (s : State) : ∀ t, t = timeCtrlWrite w s →
    t.mem = s.mem ∧ t.time.cclk = s.time.cclk ∧
    ∀ f i, (∀ g ∈ stepFields, f.key 0 ≠ g.key 0) → f.key 0 < 16384 → fget f i t = fget f i (timeLatched w s) := by
  rintro _ rfl
  obtain ⟨⟨_, _, time⟩, mem, -⟩ := timeLatched_taken w s
  rw [timeCtrlWrite_eq]
  split
  · obtain ⟨-, ⟨_, _, _, time'⟩, mem', -, fields⟩ := timeStepBy_spec (stepUnits (timeLatched w s)) (timeLatched w s) _ rfl
    exact ⟨mem'.trans mem, by rw [time', time], fields⟩
  · exact ⟨mem, by rw [time], fun _ _ _ _ => rfl⟩

theorem flag_timeCtrlWrite {f : Fld} (h : ∀ g ∈ stepFields, f.key 0 ≠ g.key 0) (hk : f.key 0 < 16384) (i : Nat) (w : Word)
    (s : State) : flag f i (timeCtrlWrite w s) = flag f i (timeLatched w s) := by
  obtain ⟨-, -, fields⟩ := timeCtrlWrite_frame w s _ rfl
  rw [flag, fields f i h hk]; rfl

/-- A command that writes TIME_CTRL with one bit forced. -/
theorem timeCtrl_completes {c : Instr} {fn : Nat} {w : Word} {s : State} {P : State → Prop} (hr : Reaches fn .TIME_CTRL 0 s)
    (hc : exec c s = .next (hostWr fn .TIME_CTRL 0 s (timeCtrlWrite w))) (h : P (timeCtrlWrite w s)) : Completes c s P :=
  .intro (hc.trans (congrArg Host.Outcome.next (hostWr_reaches hr _))) h

/-- Settles O7: each bit, and what the latch and the step leave of it. -/
theorem timeControlWrites : Obligations.TimeControlWrites := by
  intro fn w s hr
  have frame (n : Nat) (b : Bool) := timeCtrlWrite_frame (withBit w n b) s _ rfl
  refine ⟨timeCtrl_completes hr rfl ?snapshot, timeCtrl_completes hr rfl ?step, timeCtrl_completes hr rfl ?run,
    timeCtrl_completes hr rfl ?disable, timeCtrl_completes hr rfl ?enable⟩
  case snapshot =>
    obtain ⟨mem, cclk, fields⟩ := frame 1 true
    obtain ⟨ns, lo, hi⟩ := takeSnapshot_shows (timeCtrlSet (withBit w 1 true) s) _ rfl
    have latched : timeLatched (withBit w 1 true) s = takeSnapshot (timeCtrlSet (withBit w 1 true) s) :=
      if_pos (wbit_withBit_same F.TIME_CTRL_SNAPSHOT w true rfl (by decide))
    rw [← latched, (timeCtrlSet_taken _ s).nowNs] at ns lo hi
    exact ⟨(fields _ _ (by decide) (by decide)).trans ns, (fields _ _ (by decide) (by decide)).trans lo,
      (fields _ _ (by decide) (by decide)).trans hi, mem, cclk⟩
  case step =>
    obtain ⟨mem, cclk, -⟩ := frame 2 true
    obtain ⟨⟨_, _, time⟩, -, -, -, -, units⟩ := timeLatched_taken (withBit w 2 true) s
    have on : wbit F.TIME_CTRL_STEP (withBit w 2 true) = true := wbit_withBit_same F.TIME_CTRL_STEP w true rfl (by decide)
    have stepped : timeCtrlWrite (withBit w 2 true) s = timeStepBy (stepUnits s) (timeLatched (withBit w 2 true) s) := by
      rw [timeCtrlWrite_eq, if_pos on, units]
    obtain ⟨ptp, -, -, shows, -⟩ := timeStepBy_spec _ _ _ stepped
    exact ⟨by rw [ptp, time], shows, mem, cclk⟩
  case run =>
    refine ⟨?_, (frame 0 true).1⟩
    rw [running, flag_timeCtrlWrite (by decide) (by decide), (timeLatched_taken _ s).run]
    exact wbit_withBit_same F.TIME_CTRL_RUN w true rfl (by decide)
  case disable =>
    have on : wbit F.TIME_CTRL_FREQ_IN_DISABLE (withBit w 3 true) = true :=
      wbit_withBit_same F.TIME_CTRL_FREQ_IN_DISABLE w true rfl (by decide)
    refine ⟨?_, ?_, (frame 3 true).1⟩
    · rw [flag_timeCtrlWrite (by decide) (by decide), (timeLatched_taken _ s).disable, on]
    · rw [flag_timeCtrlWrite (by decide) (by decide), (timeLatched_taken _ s).sysclk on]
  case enable =>
    refine ⟨?_, (frame 3 false).1⟩
    rw [flag_timeCtrlWrite (by decide) (by decide), (timeLatched_taken _ s).disable]
    exact wbit_withBit_same F.TIME_CTRL_FREQ_IN_DISABLE w false rfl (by decide)

/-! ### Events of the time unit (R95, R105, R108) -/

/-- R105: the instant of an edge on PPS_IN. -/
theorem ppsCapture_completes (s : State) : Completes .ppsCapture s fun t =>
    fget F.TIME_PPS_NS_NS 0 t = nsNs (nowNs s) ∧ fget F.TIME_PPS_SEC_SEC 0 t = nsSec (nowNs s) % 2 ^ 32 ∧
    flag F.TIME_STATUS_PPS_CAPTURED 0 t = true ∧ t.time = s.time ∧ t.mem = s.mem := by
  refine .intro rfl ⟨?_, ?_, flag_setEvent_same rfl (by decide) (by decide) (by decide), setEvent_time .., setEvent_mem ..⟩
  · rw [fget_setEvent_other (by decide) (by decide) (by decide) (by decide) (by decide), fget_fset_same]
    exact Nat.mod_eq_of_lt (lt_trans (Nat.mod_lt _ (by decide)) (by decide))
  · rw [fget_setEvent_other (by decide) (by decide) (by decide) (by decide) (by decide),
      fget_fset_other (by decide) (by decide) (by decide), fget_fset_same]
    exact Nat.mod_mod _ _

/-- R95: FREQ_IN is the source from a core cycle on. -/
theorem freqSelect_spec (c : Nat) (s : State) : ∀ t, t = setFlag F.TIME_STATUS_FREQ_SRC 0 true (reachCclk c s) →
    flag F.TIME_STATUS_FREQ_SRC 0 t = true ∧ c ≤ t.time.cclk ∧ KeepsFields [F.TIME_STATUS_FREQ_SRC.key 0] s t := by
  rintro _ rfl
  exact ⟨flag_setFlag_same _ _ _ _ rfl, le_reachCclk_cclk c s, (KeepsFields.of_regs rfl).setFlag (List.mem_singleton_self _)⟩

/-- R95: a FREQ_IN that is restored and not disabled is the source 10 ms after it became clean. -/
theorem freqInRestore_completes {s : State} (hd : flag F.TIME_CTRL_FREQ_IN_DISABLE 0 s = false)
    (hs : flag F.TIME_STATUS_FREQ_SRC 0 s = false) : Completes .freqInRestore s fun t =>
      flag F.TIME_STATUS_FREQ_SRC 0 t = true ∧ s.time.freqFrom + 16000000 ≤ t.time.cclk ∧
      KeepsFields [F.TIME_STATUS_FREQ_SRC.key 0] s t := by
  refine .intro (congrArg Host.Outcome.next ((if_neg (ne_true_of_eq_false hd)).trans (if_neg (ne_true_of_eq_false hs)))) ?_
  obtain ⟨src, reached, fields⟩ := freqSelect_spec (s.time.freqFrom + 16000000) { s with time := { s.time with freqClean := true } } _ rfl
  exact ⟨src, reached, fields⟩

theorem Rises.foldl {α : Type} {g : State → α → State} (h : ∀ s x, Rises s (g s x)) (l : List α) (s : State) :
    Rises s (l.foldl g s) := by
  induction l generalizing s with
  | nil => exact .refl s
  | cons x l ih => exact (h s x).trans (ih _)

/-- A line that its own step raises is up when all steps are done. -/
theorem lineUp_foldl {g : State → Nat → State} (h : ∀ s x, Rises s (g s x)) {b : Nat} {l : List Nat} {s : State} (hb : b ∈ l)
    (up : ∀ t, Rises s t → lineUp b (g t b) = true) : lineUp b (l.foldl g s) = true := by
  induction l generalizing s with
  | nil => cases hb
  | cons c l ih =>
    rcases List.mem_cons.1 hb with rfl | hb
    · exact (Rises.foldl h l _).2 b (up s (.refl s))
    · exact ih hb fun t ht => up t ((h s c).trans ht)

theorem Rises.frame {s t : State} (h : Rises s t) : t.regs = s.regs ∧ t.mem = s.mem := by
  obtain ⟨⟨_, _, _, _, _, rfl⟩, -⟩ := h; exact ⟨rfl, rfl⟩

/-- R108: a PPS_OUT ball rises. -/
def ppsBall (s : State) (b : Nat) : State := if ballFn s.cfg b == 2 then pulseLine b (10 ^ 8) s else s

theorem ppsBall_rises (s : State) (b : Nat) : Rises s (ppsBall s b) := .ite (pulseLine_rises ..) (.refl s)

/-- R108: every PPS_OUT ball is up after a whole second. -/
theorem ppsSecond_completes {s : State} (hr : running s = true) : Completes .ppsSecond s fun t =>
    (∀ b, b < 8 → ballFn s.cfg b = 2 → lineUp b t = true) ∧ t.regs = s.regs ∧ t.mem = s.mem := by
  have reach := reachPtp_rises (ceilDiv (nowCeil s) (10 ^ 9) * 10 ^ 9) s
  generalize hu : reachPtp (ceilDiv (nowCeil s) (10 ^ 9) * 10 ^ 9) s = u at reach
  generalize hv : (if u.ports.smpteTlv.isEmpty then u else emit (.smpte u.ports.smpteTlv) u) = v
  have told : Rises s v := by
    rw [← hv]; exact reach.trans (.ite (.refl u) ⟨⟨_, _, _, _, _, rfl⟩, fun _ h => h⟩)
  have step : exec .ppsSecond s = .next ((List.range 8).foldl ppsBall v) := by
    refine (if_neg (by simp [hr])).trans ?_
    subst hv hu; rfl
  refine .intro step ⟨fun b hb hf => ?_, (told.trans (Rises.foldl ppsBall_rises _ v)).frame⟩
  refine lineUp_foldl ppsBall_rises (List.mem_range.2 hb) fun t ht => ?_
  rw [ppsBall, if_pos (by rw [(told.trans ht).cfg, hf]; rfl)]
  exact lineUp_pulseLine_same ..

/-- R108: the line falls at the end of its pulse. -/
theorem outputPulseEnd_completes {l : Fin 9} {s : State} (h : lineUp l s = true) : Completes (.outputPulseEnd l) s fun t =>
    lineUp l t = false ∧ t.regs = s.regs ∧ t.mem = s.mem :=
  .intro (if_neg (by simpa [lineUp] using h)) ⟨by simp [lineUp, emit, Tab.get_del_same], rfl, rfl⟩

/-- R108, R109: an edge at a TIMER_CAPTURE ball. -/
theorem timerCapture_completes {b : Ball} {s : State} (h : ballFn s.cfg b = 4) : Completes (.timerCapture b) s fun t =>
    fget F.TMR_CAP_NS_NS (ballTimer s.cfg b) t = nsNs (nowNs s) ∧
    fget F.TMR_CAP_SEC_SEC (ballTimer s.cfg b) t = nsSec (nowNs s) % 2 ^ 32 ∧
    Tab.get false t.time.ballIn b = !ballInvert s.cfg b ∧ t.mem = s.mem ∧ t.out = s.out ∧
    KeepsFields [F.TMR_CAP_NS_NS.key (ballTimer s.cfg b), F.TMR_CAP_SEC_SEC.key (ballTimer s.cfg b)] s t := by
  refine .intro (if_pos (by rw [h]; rfl)) ⟨?_, ?_, Tab.get_set_same .., rfl, rfl,
    ((KeepsFields.of_regs rfl).fset (by simp)).fset (by simp)⟩
  · rw [fget_fset_same]
    exact Nat.mod_eq_of_lt (lt_trans (Nat.mod_lt _ (by decide)) (by decide))
  · rw [fget_fset_other (by decide) (by decide) (by decide), fget_fset_same]
    exact Nat.mod_mod _ _

/-- Settles O8: each event by its own rule above. -/
theorem timeEventsAreRecorded : Obligations.TimeEventsAreRecorded :=
  ⟨ppsCapture_completes, fun _ h => congrArg Host.Outcome.next (if_pos h), fun _ => freqInRestore_completes,
    fun _ => ppsSecond_completes, fun _ _ => outputPulseEnd_completes, fun _ _ => timerCapture_completes⟩

/-! ### SYNC_GPIO (R109, R110) -/

/-- R110: the word would change OE or OUT of a ball that GPIO does not have. -/
def gpioConflict (w : Word) (s : State) : Bool :=
  (List.range 8).any (fun b => ballFn s.cfg b != 5 &&
    (bit (wfld F.SYNC_GPIO_OE w) b != bit (fget F.SYNC_GPIO_OE 0 s) b ||
      bit (wfld F.SYNC_GPIO_OUT w) b != bit (fget F.SYNC_GPIO_OUT 0 s) b))

theorem gpioConflict_iff {w : Word} {s : State} : gpioConflict w s = true ↔ ∃ b, b < 8 ∧ ballFn s.cfg b ≠ 5 ∧
    (bit (wfld F.SYNC_GPIO_OE w) b ≠ bit (fget F.SYNC_GPIO_OE 0 s) b ∨
      bit (wfld F.SYNC_GPIO_OUT w) b ≠ bit (fget F.SYNC_GPIO_OUT 0 s) b) := by
  simp [gpioConflict]

/-- R110: the fields of a write that is carried out. -/
def gpioStored (w : Word) (s : State) : State :=
  fset F.SYNC_GPIO_RESULT 0 0 (fset F.SYNC_GPIO_OUT 0 (wfld F.SYNC_GPIO_OUT w) (fset F.SYNC_GPIO_OE 0 (wfld F.SYNC_GPIO_OE w) s))

theorem gpioStored_spec (w : Word) (s : State) : fget F.SYNC_GPIO_RESULT 0 (gpioStored w s) = 0 ∧
    fget F.SYNC_GPIO_OE 0 (gpioStored w s) = wfld F.SYNC_GPIO_OE w ∧
    fget F.SYNC_GPIO_OUT 0 (gpioStored w s) = wfld F.SYNC_GPIO_OUT w ∧
    KeepsFields [F.SYNC_GPIO_RESULT.key 0, F.SYNC_GPIO_OE.key 0, F.SYNC_GPIO_OUT.key 0] s (gpioStored w s) := by
  unfold gpioStored
  refine ⟨fget_fset_same .., ?_, ?_, (((KeepsFields.refl _ s).fset (by simp)).fset (by simp)).fset (by simp)⟩
  · rw [fget_fset_other (by decide) (by decide) (by decide), fget_fset_other (by decide) (by decide) (by decide),
      fget_fset_same, Nat.mod_eq_of_lt (wfld_lt _ w (by decide))]
  · rw [fget_fset_other (by decide) (by decide) (by decide), fget_fset_same, Nat.mod_eq_of_lt (wfld_lt _ w (by decide))]

/-- R109: the balls whose level changes show an edge, and nothing else changes. -/
theorem gpioWrite_stored {w : Word} {s : State} (h : gpioConflict w s = false) :
    ∃ out, gpioWrite w s = { gpioStored w s with out := out } := by
  have edges (l : List Nat) (u : State) : ∃ out, l.foldl (fun u b =>
      if ballDriven b u && ballLevel b u != ballLevel b s then emit (.edge b (ballLevel b u)) u else u) u = { u with out := out } := by
    induction l generalizing u with
    | nil => exact ⟨_, rfl⟩
    | cons b l ih =>
      rw [List.foldl_cons]
      split
      · exact ih (emit (.edge b (ballLevel b u)) u)
      · exact ih u
  obtain ⟨out, eq⟩ := edges (List.range 8) (gpioStored w s)
  exact ⟨out, (if_neg (ne_true_of_eq_false h)).trans eq⟩

/-- Settles O9: a write with a conflict sets RESULT alone, any other one is stored. -/
theorem gpioWriteConflicts : Obligations.GpioWriteConflicts := by
  intro fn w s hr
  have step := congrArg (Host.Outcome.next (φ := Fault) (ρ := Refusal)) (hostWr_reaches hr (gpioWrite w))
  refine ⟨fun h => .intro step ?_, fun h => .intro step ?_⟩
  · rw [show gpioWrite w s = fset F.SYNC_GPIO_RESULT 0 3 s from if_pos (gpioConflict_iff.2 h)]
    exact ⟨fget_fset_same .., (OnlyFields.refl _ s).fset (List.mem_singleton_self _)⟩
  · have none : gpioConflict w s = false := by
      rw [Bool.eq_false_iff, Ne, gpioConflict_iff]
      rintro ⟨b, hb, hf, h'⟩
      obtain ⟨oe, out⟩ := h b hb hf
      exact h'.elim (· oe) (· out)
    obtain ⟨out, eq⟩ := gpioWrite_stored none
    rw [eq]
    obtain ⟨result, oe, gpio, fields⟩ := gpioStored_spec w s
    exact ⟨result, oe, gpio, fields, rfl, rfl⟩

/-! ### Timers (R112 to R114) -/

/-- R113: the result of a check fits its field. -/
theorem tmrCheck_lt (i m : Nat) (b : Bool) (s : State) : tmrCheck i m b s < 2 ^ F.TMR_CTRL_RESULT.w := by
  have small (r : Nat) (h : r ≤ 6) : r < 2 ^ F.TMR_CTRL_RESULT.w := lt_of_le_of_lt h (by decide)
  refine small _ ?_
  unfold tmrCheck
  extract_lets p w own
  have : own ≤ 6 := by
    unfold own
    split <;> split <;> decide
  split
  · decide
  · split
    · exact this
    · split <;> decide

theorem fget_result_tmrCheck (i m : Nat) (b : Bool) (s : State) :
    fget F.TMR_CTRL_RESULT i (fset F.TMR_CTRL_RESULT i (tmrCheck i m b s) s) = tmrCheck i m b s := by
  rw [fget_fset_same, Nat.mod_eq_of_lt (tmrCheck_lt ..)]

/-- R113: a write that fails its checks sets RESULT alone. -/
theorem tmrCtrlWrite_refused {i : Nat} {w : Word} {s : State}
    (h : tmrCheck i (wfld F.TMR_CTRL_MODE w) (wbit F.TMR_CTRL_START w) s ≠ 0) : tmrCtrlWrite i w s =
      fset F.TMR_CTRL_RESULT i (tmrCheck i (wfld F.TMR_CTRL_MODE w) (wbit F.TMR_CTRL_START w) s) s := if_pos h

/-- R113: RESULT and MODE of a write that passes. -/
def tmrPassed (i : Nat) (w : Word) (s : State) : State :=
  fset F.TMR_CTRL_MODE i (wfld F.TMR_CTRL_MODE w) (fset F.TMR_CTRL_RESULT i 0 s)

theorem tmrCtrlWrite_passed {i : Nat} {w : Word} {s : State}
    (h : tmrCheck i (wfld F.TMR_CTRL_MODE w) (wbit F.TMR_CTRL_START w) s = 0) : ∀ u,
      u = (if wbit F.TMR_CTRL_START w then tmrStart i (tmrPassed i w s) else tmrPassed i w s) →
      tmrCtrlWrite i w s = if wbit F.TMR_CTRL_STOP w then setFlag F.TMR_CTRL_RUNNING i false u else u := by
  rintro _ rfl
  refine (if_neg (not_not.2 h)).trans ?_
  rw [h]; rfl

theorem fget_result_tmrPassed (i : Nat) (w : Word) (s : State) : fget F.TMR_CTRL_RESULT i (tmrPassed i w s) = 0 := by
  rw [tmrPassed, fget_fset_other (by decide) (by decide) (by decide), fget_fset_same]; rfl

theorem fget_tmrPassed_other {f : Fld} (h : f.key 0 ≠ F.TMR_CTRL_MODE.key 0) (h' : f.key 0 ≠ F.TMR_CTRL_RESULT.key 0)
    (hk : f.key 0 < 16384) (i j : Nat) (w : Word) (s : State) : fget f j (tmrPassed i w s) = fget f j s := by
  rw [tmrPassed, fget_fset_other h (by decide) hk, fget_fset_other h' (by decide) hk]

/-- R114: a timer with its first firing, its period and the number of its next firing. -/
def timerLoad (i st p m : Nat) (s : State) : State :=
  { s with time := { s.time with tmrStart := Tab.put s.time.tmrStart i st, tmrPeriod := Tab.put s.time.tmrPeriod i p,
                                 tmrNext := Tab.put s.time.tmrNext i m } }

theorem tmrS_timerLoad (i st p m : Nat) (s : State) : tmrS i (timerLoad i st p m s) = st := Tab.get_put_same ..
theorem tmrP_timerLoad (i st p m : Nat) (s : State) : tmrP i (timerLoad i st p m s) = p := Tab.get_put_same ..
theorem tmrAt_timerLoad (i st p m : Nat) (s : State) : tmrAt i (timerLoad i st p m s) = st + m * p := by
  rw [tmrAt, tmrS_timerLoad, tmrP_timerLoad, show Tab.get 0 (timerLoad i st p m s).time.tmrNext i = m from Tab.get_put_same ..]

theorem fget_timerLoad (f : Fld) (j i st p m : Nat) (s : State) : fget f j (timerLoad i st p m s) = fget f j s := rfl

theorem tmrStart_loads (i : Nat) (s : State) : ∀ st p, st = nearestSec (fget F.TMR_START_SEC_SEC i s) s * 10 ^ 9 + fget F.TMR_START_NS_NS i s →
    p = fget F.TMR_PERIOD_NS_NS i s →
    tmrStart i s = timerLoad i st p (firstFiring st p (nowCeil s + 1000)) (setFlag F.TMR_CTRL_RUNNING i true s) := by
  rintro _ _ rfl rfl; rfl

/-- R114: what a start takes: S from TMR_START, P from TMR_PERIOD, and the first firing at least 1,000 ns ahead. -/
theorem tmrStart_spec (i : Nat) (s : State) : ∀ t, t = tmrStart i s → tmrRunning i t = true ∧
    tmrP i t = fget F.TMR_PERIOD_NS_NS i s ∧
    tmrS i t = nearestSec (fget F.TMR_START_SEC_SEC i s) s * 10 ^ 9 + fget F.TMR_START_NS_NS i s ∧
    tmrAt i t = tmrS i t + firstFiring (tmrS i t) (tmrP i t) (nowCeil s + 1000) * tmrP i t ∧
    fget F.TMR_CTRL_RESULT i t = fget F.TMR_CTRL_RESULT i s ∧ t.mem = s.mem := by
  rintro _ rfl
  rw [tmrStart_loads i s _ _ rfl rfl, tmrAt_timerLoad, tmrS_timerLoad, tmrP_timerLoad]
  exact ⟨flag_setFlag_same F.TMR_CTRL_RUNNING i true s rfl, rfl, rfl, rfl,
    (fget_timerLoad ..).trans (fget_setFlag_other (by decide) (by decide) (by decide)), rfl⟩

/-- The command that writes TMR_CTRL. -/
theorem tmrCtrl_completes {c : Instr} {fn i : Nat} {w : Word} {s : State} {P : State → Prop} (hr : Reaches fn .TMR_CTRL i s)
    (hc : exec c s = .next (hostWr fn .TMR_CTRL i s (tmrCtrlWrite i w))) (h : P (tmrCtrlWrite i w s)) : Completes c s P :=
  .intro (hc.trans (congrArg Host.Outcome.next (hostWr_reaches hr _))) h

theorem mode_withBit (w : Word) (n : Nat) (h : n < 4) (b : Bool) : wfld F.TMR_CTRL_MODE (withBit w n b) = wfld F.TMR_CTRL_MODE w :=
  wfld_withBit_other F.TMR_CTRL_MODE w n b (by omega) (by decide) (.inl h)

section
variable {fn : Fn} {i : Timer} {w : Word} {s : State} (hr : Reaches fn .TMR_CTRL i s)
include hr

/-- R113: a start that fails its checks sets RESULT alone. -/
theorem timerStart_refused (h : tmrCheck i (wfld F.TMR_CTRL_MODE w) true s ≠ 0) : Completes (.timerStart fn i w) s fun t =>
    fget F.TMR_CTRL_RESULT i t = tmrCheck i (wfld F.TMR_CTRL_MODE w) true s ∧ OnlyFields [F.TMR_CTRL_RESULT.key i] s t := by
  have start : wbit F.TMR_CTRL_START (withBit w 0 true) = true := wbit_withBit_same F.TMR_CTRL_START w true rfl (by decide)
  have eq := tmrCtrlWrite_refused (i := i) (w := withBit w 0 true) (s := s) (by rwa [start, mode_withBit w 0 (by decide)])
  rw [start, mode_withBit w 0 (by decide)] at eq
  refine tmrCtrl_completes hr rfl ?_
  rw [eq]
  exact ⟨fget_result_tmrCheck .., (OnlyFields.refl _ s).fset (List.mem_singleton_self _)⟩

/-- R114: a start that passes and does not stop. -/
theorem timerStart_taken (h : tmrCheck i (wfld F.TMR_CTRL_MODE w) true s = 0) (hs : wbit F.TMR_CTRL_STOP w = false) :
    Completes (.timerStart fn i w) s fun t => fget F.TMR_CTRL_RESULT i t = 0 ∧ tmrRunning i t = true ∧
      tmrP i t = fget F.TMR_PERIOD_NS_NS i s ∧
      tmrS i t = nearestSec (fget F.TMR_START_SEC_SEC i s) s * 10 ^ 9 + fget F.TMR_START_NS_NS i s ∧
      tmrAt i t = tmrS i t + firstFiring (tmrS i t) (tmrP i t) (nowCeil s + 1000) * tmrP i t ∧ t.mem = s.mem := by
  have start : wbit F.TMR_CTRL_START (withBit w 0 true) = true := wbit_withBit_same F.TMR_CTRL_START w true rfl (by decide)
  have stop : wbit F.TMR_CTRL_STOP (withBit w 0 true) = false :=
    (wbit_withBit_other F.TMR_CTRL_STOP w 0 true (by decide) (by decide) (.inl (by decide))).trans hs
  have eq : tmrCtrlWrite i (withBit w 0 true) s = tmrStart i (tmrPassed i (withBit w 0 true) s) := by
    rw [tmrCtrlWrite_passed (by rwa [start, mode_withBit w 0 (by decide)]) _ rfl, if_neg (ne_true_of_eq_false stop), if_pos start]
  obtain ⟨runs, period, first, next, result, mem⟩ := tmrStart_spec i.val (tmrPassed i (withBit w 0 true) s) _ eq
  rw [fget_tmrPassed_other (by decide) (by decide) (by decide)] at period
  rw [fget_tmrPassed_other (by decide) (by decide) (by decide), fget_tmrPassed_other (by decide) (by decide) (by decide)] at first
  exact tmrCtrl_completes hr rfl ⟨result.trans (fget_result_tmrPassed ..), runs, period, first, next, mem⟩

/-- R112: a write with STOP that passes ends RUNNING. -/
theorem timerStop_completes (h : tmrCheck i (wfld F.TMR_CTRL_MODE w) (wbit F.TMR_CTRL_START w) s = 0) :
    Completes (.timerStop fn i w) s fun t => fget F.TMR_CTRL_RESULT i t = 0 ∧ tmrRunning i t = false ∧ t.mem = s.mem := by
  have stop : wbit F.TMR_CTRL_STOP (withBit w 1 true) = true := wbit_withBit_same F.TMR_CTRL_STOP w true rfl (by decide)
  have start : wbit F.TMR_CTRL_START (withBit w 1 true) = wbit F.TMR_CTRL_START w :=
    wbit_withBit_other F.TMR_CTRL_START w 1 true (by decide) (by decide) (.inr (by decide))
  refine tmrCtrl_completes hr rfl ?_
  rw [tmrCtrlWrite_passed (by rwa [start, mode_withBit w 1 (by decide)]) _ rfl, if_pos stop]
  refine ⟨(fget_setFlag_other (by decide) (by decide) (by decide)).trans ?_, flag_setFlag_same _ _ _ _ rfl, ?_⟩
  · split
    · exact (tmrStart_spec i.val _ _ rfl).2.2.2.2.1.trans (fget_result_tmrPassed ..)
    · exact fget_result_tmrPassed ..
  · rw [setFlag_mem]; split <;> rfl

end

/-- A pending bit stays when another one is set. -/
theorem pendOf_pendSet {m n : Nat} {s : State} (h : pendOf n s = true) : pendOf n (pendSet m s) = true := by
  unfold pendSet
  split
  · exact h
  · extract_lets v s1
    have set : pendOf n s1 = true := by
      unfold s1 pendOf
      by_cases e : n / 32 = m / 32
      · have small : n % 32 < F.INT_PEND_PEND.w := Nat.mod_lt n (by decide)
        rw [pendOf, e] at h
        rw [e, fget_fset_same]
        simp only [bit] at h ⊢
        simp [Nat.testBit_mod_two_pow, small, v, h]
      · rw [fget_fset_inst e]; exact h
    split
    · exact set
    · rwa [pendOf_congr fun i => fget_groupEvent_other (by decide) (by decide)]

theorem pendSet_cfg (n : Nat) (s : State) : (pendSet n s).cfg = s.cfg := congrArg Loader.secs (pendSet_loader n s)

/-- R456: a firing sets the source of each group that the timer serves. -/
def fireGroup (i : Nat) (s : State) (g : Nat) : State :=
  if secHas s.cfg 11 && grTimer s.cfg g == i then pendSet (4032 + g) s else s

theorem fireGroup_frame (i : Nat) (s : State) (g : Nat) : (fireGroup i s g).time = s.time ∧ (fireGroup i s g).mem = s.mem ∧
    (fireGroup i s g).cfg = s.cfg ∧ ∀ n, pendOf n s = true → pendOf n (fireGroup i s g) = true := by
  unfold fireGroup
  split
  · exact ⟨pendSet_time .., pendSet_mem .., pendSet_cfg .., fun _ => pendOf_pendSet⟩
  · exact ⟨rfl, rfl, rfl, fun _ h => h⟩

theorem fireGroups_frame (i : Nat) (l : List Nat) (s : State) :
    (l.foldl (fireGroup i) s).time = s.time ∧ (l.foldl (fireGroup i) s).mem = s.mem ∧
    ∀ n, (pendOf n s = true ∨ ∃ g ∈ l, secHas s.cfg 11 = true ∧ grTimer s.cfg g = i ∧ n = 4032 + g) →
      pendOf n (l.foldl (fireGroup i) s) = true := by
  induction l generalizing s with
  | nil => exact ⟨rfl, rfl, fun n h => h.elim id fun ⟨_, hg, _⟩ => nomatch hg⟩
  | cons g l ih =>
    obtain ⟨time, mem, cfg, kept⟩ := fireGroup_frame i s g
    obtain ⟨time', mem', pend⟩ := ih (fireGroup i s g)
    refine ⟨time'.trans time, mem'.trans mem, fun n h => pend n ?_⟩
    rw [cfg]
    rcases h with h | ⟨g', hg, sec, served, rfl⟩
    · exact .inl (kept n h)
    · rcases List.mem_cons.1 hg with rfl | hg
      · left
        rw [fireGroup, if_pos (by rw [sec, served]; simp)]
        exact pendOf_pendSet_same ..
      · exact .inr ⟨g', hg, sec, served, rfl⟩

/-- R108: the TIMER_OUT balls of a timer rise at its firing. -/
def fireBall (i : Nat) (s : State) (b : Nat) : State :=
  if ballFn s.cfg b == 3 && ballTimer s.cfg b == i then pulseLine b (fget F.TMR_PULSE_NS_NS i s) s else s

theorem fireBalls_rises (i : Nat) (l : List Nat) (s : State) : Rises s (l.foldl (fireBall i) s) :=
  .foldl (fun s _ => .ite (pulseLine_rises ..) (.refl s)) l s

/-- R114: a firing moves the timer to the next one. -/
def firedState (i : Nat) (s : State) : State :=
  { s with time := { s.time with tmrNext := Tab.mod 0 s.time.tmrNext i (· + 1) } }

theorem Tab.get_mod_same {α : Type} [DecidableEq α] (d : α) (t : Tab α) (n : Nat) (f : α → α) :
    Tab.get d (Tab.mod d t n f) n = f (Tab.get d t n) := Tab.get_set_same ..

theorem tmrAt_firedState (i : Nat) (s : State) : tmrAt i (firedState i s) = tmrAt i s + tmrP i s := by
  have next : Tab.get 0 (firedState i s).time.tmrNext i = Tab.get 0 s.time.tmrNext i + 1 :=
    Tab.get_mod_same 0 s.time.tmrNext i (· + 1)
  rw [tmrAt, next]
  change tmrS i s + (Tab.get 0 s.time.tmrNext i + 1) * tmrP i s = _
  rw [Nat.succ_mul, ← Nat.add_assoc]; rfl

theorem Rises.tmrAt {s t : State} (h : Rises s t) (i : Nat) : tmrAt i t = tmrAt i s ∧ tmrP i t = tmrP i s := by
  obtain ⟨⟨_, _, _, _, _, rfl⟩, -⟩ := h; exact ⟨rfl, rfl⟩

theorem tmrAt_congr {s t : State} (h : t.time = s.time) (i : Nat) : tmrAt i t = tmrAt i s := by
  simp only [tmrAt, tmrS, tmrP, h]

theorem timerFire_completes {i : Timer} {s : State} (ht : tmrRunning i s = true) (hr : running s = true) :
    Completes (.timerFire i) s fun t => tmrAt i t = tmrAt i s + tmrP i s ∧
      (∀ g, g < 64 → secHas s.cfg 11 = true → grTimer s.cfg g = i.val → pendOf (4032 + g) t = true) ∧ t.mem = s.mem := by
  have reach := reachPtp_rises (tmrAt i s) s
  generalize hu : reachPtp (tmrAt i s) s = u at reach
  have step : exec (.timerFire i) s =
      .next ((List.range 64).foldl (fireGroup i) ((List.range 8).foldl (fireBall i) (firedState i u))) := by
    refine (if_neg (by simp [ht, hr])).trans ?_
    subst hu; rfl
  have balls := fireBalls_rises i (List.range 8) (firedState i u)
  generalize (List.range 8).foldl (fireBall i) (firedState i u) = v at step balls
  have cfg : v.cfg = s.cfg := balls.cfg.trans reach.cfg
  obtain ⟨time, mem, pend⟩ := fireGroups_frame i (List.range 64) v
  refine .intro step ⟨?_, fun g hg sec served => pend _ (.inr ⟨g, List.mem_range.2 hg, ?_, ?_, rfl⟩), ?_⟩
  · rw [tmrAt_congr time, (balls.tmrAt i).1, tmrAt_firedState, (reach.tmrAt i).1, (reach.tmrAt i).2]
  · rw [cfg, sec]
  · rw [cfg, served]
  · exact mem.trans (balls.frame.2.trans reach.frame.2)

/-- Settles O10: a start that is refused, a start, a stop and a firing. -/
theorem timersStartStopAndFire : Obligations.TimersStartStopAndFire :=
  ⟨fun _ _ _ _ hr => ⟨timerStart_refused hr, timerStart_taken hr, timerStop_completes hr⟩, fun _ _ => timerFire_completes⟩

end Sys2Proof.Machine
end

section
/-! SUPPORT and CERTIFICATE. The Shackle lines: SHK_TICK at a follower and SHK_FAULT_N (R129 to R133); O23. -/
namespace Sys2Proof.Machine

/-- R132: what a follower shows of an edge that came `d` ns after its index. -/
def edgeShown (d : Int) (s : State) : State :=
  fset F.SHK_STATUS_PHASE_ERR 0 (twos 8 (max (-127) (min 127 d)))
    { s with time := { s.time with nextSync := s.time.nextSync.map fun x => (x.1, x.2 + 1) } }

/-- R132: TIME_INCR of a follower whose increment is `i`, `d` ns ahead, by the free value `v`. -/
def steeredIncr (d : Int) (i v : Nat) : Nat :=
  if 0 < d then i - v % (i - 0x0FFBE76D + 1) else i + v % (0x10041893 - i + 1)

/-- R132: a follower `d` ns ahead steps, keeps its increment, or steers it. -/
def edgeMoved (d : Int) (s : State) : State :=
  if 1000 < d.natAbs then timeStepBy (-(d * 2 ^ 28)) s
  else if d = 0 then s
  else timeIncrSet (steeredIncr d (fget F.TIME_INCR_INCR 0 s) (freshValue 3 s).1) (freshValue 3 s).2

/-- R133: the eighth edge in a row locks. -/
def edgeLocked (s : State) : State := if 8 ≤ s.time.shkEdges then setFlag F.SHK_STATUS_TICK_LOCK 0 true s else s

/-- R132: how far the follower's time lies after the index of the edge. -/
def edgeLate (s : State) : Int :=
  ((nowNs s - fget F.SHK_CTRL_DELAY_NS 0 s : Nat) : Int) - (tickTime s.cfg 0 (edgeIdx (nowNs s - fget F.SHK_CTRL_DELAY_NS 0 s) s) : Int)

theorem followEdge_eq (s : State) :
    followEdge s = edgeLocked (edgeMoved (edgeLate (edgeNote s)) (edgeShown (edgeLate (edgeNote s)) (edgeNote s))) := rfl

/-- R132: an edge that no TIME_SYNC announced takes the index nearest to its stamp. -/
theorem edgeLate_edgeNote {s : State} (h : s.time.nextSync = none) : edgeLate (edgeNote s) = edgeLate s := by
  have idx (x : Nat) : edgeIdx x (edgeNote s) = edgeIdx x s := by
    unfold edgeIdx
    rw [show (edgeNote s).time.nextSync = none by rw [edgeNote, h]; rfl, h]
    rfl
  rw [edgeLate, idx]
  rfl

theorem edgeNote_spec (s : State) : (edgesMissed s = 0 → (edgeNote s).time.shkEdges = s.time.shkEdges + 1) ∧
    (edgesMissed s ≠ 0 → (edgeNote s).time.shkEdges = 1) ∧ (edgeNote s).time.edgeAt = some s.time.cclk :=
  ⟨fun h => if_pos h, fun h => if_neg h, rfl⟩

/-- R132: moving the time or the increment leaves the count of edges, the last edge and memory. -/
theorem edgeMoved_frame (d : Int) (s : State) : ∀ t, t = edgeMoved d s →
    t.time.shkEdges = s.time.shkEdges ∧ t.time.edgeAt = s.time.edgeAt ∧ t.mem = s.mem := by
  rintro _ rfl
  unfold edgeMoved
  split
  · obtain ⟨-, ⟨_, _, _, time⟩, mem, -⟩ := timeStepBy_spec (-(d * 2 ^ 28)) s _ rfl
    rw [time, mem]
    exact ⟨rfl, rfl, rfl⟩
  · split <;> exact ⟨rfl, rfl, rfl⟩

theorem edgeLocked_frame (s : State) : (edgeLocked s).time = s.time ∧ (edgeLocked s).mem = s.mem := by
  unfold edgeLocked
  split <;> exact ⟨rfl, rfl⟩

theorem edgeLocked_other {f : Fld} (h : F.SHK_STATUS_TICK_LOCK.key 0 ≠ f.key 0) (hk : f.key 0 < 16384) (i : Nat) (s : State) :
    fget f i (edgeLocked s) = fget f i s := by
  unfold edgeLocked
  split
  · exact fget_setFlag_other h.symm (by decide) hk
  · rfl

theorem flag_edgeLocked {f : Fld} (h : F.SHK_STATUS_TICK_LOCK.key 0 ≠ f.key 0) (hk : f.key 0 < 16384) (i : Nat) (s : State) :
    flag f i (edgeLocked s) = flag f i s := congrArg (· == 1) (edgeLocked_other h hk i s)

/-- R133: the edges in a row of a follower, and its lock. -/
theorem followEdge_counts (s : State) : ∀ t, t = followEdge s →
    (edgesMissed s = 0 → t.time.shkEdges = s.time.shkEdges + 1) ∧ (edgesMissed s ≠ 0 → t.time.shkEdges = 1) ∧
    (edgesMissed s = 0 → 7 ≤ s.time.shkEdges → flag F.SHK_STATUS_TICK_LOCK 0 t = true) ∧
    t.time.edgeAt = some s.time.cclk ∧ t.mem = s.mem := by
  rintro _ rfl
  rw [followEdge_eq]
  obtain ⟨edges, last, mem⟩ := edgeMoved_frame (edgeLate (edgeNote s)) (edgeShown (edgeLate (edgeNote s)) (edgeNote s)) _ rfl
  obtain ⟨next, first, at_⟩ := edgeNote_spec s
  generalize edgeMoved _ _ = u at edges last mem
  obtain ⟨time, mem'⟩ := edgeLocked_frame u
  rw [time, mem', edges, last, mem]
  refine ⟨next, first, fun h seven => ?_, at_, rfl⟩
  have eight : 8 ≤ u.time.shkEdges := by
    rw [edges]
    exact (next h).symm ▸ Nat.succ_le_succ seven
  rw [edgeLocked, if_pos eight]
  exact flag_setFlag_same _ _ _ _ rfl

/-- R103, R132: steering a follower that is ahead lowers the increment, within its range. -/
theorem steered_down {d : Int} {i : Nat} (hi : 0x0FFBE76D ≤ i) (hd : 0 < d) (v : Nat) :
    max 0x0FFBE76D (min 0x10041893 (steeredIncr d i v)) ≤ i ∧ 0x0FFBE76D ≤ max 0x0FFBE76D (min 0x10041893 (steeredIncr d i v)) := by
  rw [steeredIncr, if_pos hd]
  omega

/-- R103, R132: steering a follower that is behind raises the increment, within its range. -/
theorem steered_up {d : Int} {i : Nat} (hi : i ≤ 0x10041893) (hd : d < 0) (v : Nat) :
    i ≤ max 0x0FFBE76D (min 0x10041893 (steeredIncr d i v)) ∧ max 0x0FFBE76D (min 0x10041893 (steeredIncr d i v)) ≤ 0x10041893 := by
  have := Nat.mod_lt v (Nat.succ_pos (0x10041893 - i))
  rw [steeredIncr, if_neg (by omega)]
  omega

/-- R132: what an edge `d` ns after its index does to the time and to TIME_INCR. -/
theorem edgeMoved_spec (d : Int) (s : State) : ∀ t, t = edgeMoved d s → ∀ i, i = fget F.TIME_INCR_INCR 0 s →
    (d.natAbs ≤ 1000 → t.time.ptp = s.time.ptp ∧ (d = 0 → fget F.TIME_INCR_INCR 0 t = i) ∧
      (0x0FFBE76D ≤ i → 0 < d → fget F.TIME_INCR_INCR 0 t ≤ i ∧ 0x0FFBE76D ≤ fget F.TIME_INCR_INCR 0 t) ∧
      (i ≤ 0x10041893 → d < 0 → i ≤ fget F.TIME_INCR_INCR 0 t ∧ fget F.TIME_INCR_INCR 0 t ≤ 0x10041893)) ∧
    (1000 < d.natAbs → (t.time.ptp : Int) = ((s.time.ptp : Int) - d * 2 ^ 28) % (ptpWrap : Int) ∧
      flag F.TIME_STATUS_STEPPED 0 t = true) := by
  rintro _ rfl i rfl
  refine ⟨fun near => ?_, fun far => ?_⟩
  · rw [edgeMoved, if_neg (Nat.not_lt.2 near)]
    rcases eq_or_ne d 0 with rfl | hd
    · exact ⟨rfl, fun _ => rfl, fun _ h => absurd h (lt_irrefl 0), fun _ h => absurd h (lt_irrefl 0)⟩
    · rw [if_neg hd, fget_timeIncrSet]
      exact ⟨rfl, fun h => absurd h hd, fun lo h => steered_down lo h _, fun hi h => steered_up hi h _⟩
  · obtain ⟨ptp, -, -, stepped, -⟩ := timeStepBy_spec (-(d * 2 ^ 28)) s _ rfl
    rw [edgeMoved, if_pos far, Int.sub_eq_add_neg]
    exact ⟨ptp, stepped⟩

/-- R133: what a follower that lost the tick forgets. -/
theorem shkTickLost_exec {s : State} (h : follower s = true) :
    ∀ u, u = (if s.time.edgeAt = none then s else reachCclk (s.time.edgeAt.getD 0 + td0Cclk 3 s.cfg) s) →
    exec .shkTickLost s = .next (haspRise 11 2 (setFlag F.SHK_STATUS_TICK_LOCK 0 false
      (setEvent F.SHK_STATUS_TICK_LOST 0 95 { u with time := { u.time with shkEdges := 0, edgeAt := none, nextSync := none } }))) := by
  rintro _ rfl
  refine congrArg Host.Outcome.next ((if_pos h).trans ?_)
  cases s.time.edgeAt <;> rfl

/-- R129: the level at SHK_FAULT_N does not decide whether the device drives it. -/
theorem shkDrive_faultIn (b : Bool) (s : State) : shkDrive { s with power := { s.power with shkFaultIn := b } } = shkDrive s := rfl

/-- Settles O23: edges of SHK_TICK, their loss, and a fault of a peer. -/
theorem shackleLines : Obligations.ShackleLines := by
  refine ⟨fun s h => .intro (congrArg Host.Outcome.next (if_pos h)) (followEdge_counts s _ rfl), ?_,
    fun s h => shkTickLost_exec h, fun s drives cause => ?_⟩
  · rintro s h none x rfl d hd i hi
    refine .intro (congrArg Host.Outcome.next (if_pos h)) ?_
    have late : edgeLate (edgeNote s) = d := (edgeLate_edgeNote none).trans hd.symm
    have spec := edgeMoved_spec d (edgeShown d (edgeNote s)) _ rfl i (hi.trans ?_)
    · rw [followEdge_eq, late, (edgeLocked_frame _).1, edgeLocked_other (by decide) (by decide),
        flag_edgeLocked (by decide) (by decide)]
      exact spec
    · exact (fget_fset_other (by decide) (by decide) (by decide)).symm
  · exact congrArg Host.Outcome.next (if_neg (by
      rw [shkDrive_faultIn, drives]
      exact (Bool.not_eq_true _).mpr cause))

end Sys2Proof.Machine
end

section
/-! SUPPORT and CERTIFICATE. The entropy source, the end of a debug grant, MKPDUs and secure association keys (R90, R466,
R495, R503); O50. -/
namespace Sys2Proof.Machine

/-- R466: the source passes again. -/
theorem entropyRestore_completes {s : State} (h : haspCause 1 s = true) : Completes .entropyRestore s fun t =>
    flag F.WARD_STATE_ENTROPY_OK 0 t = true ∧ haspCause 1 t = false ∧
    OnlyFields [F.WARD_STATE_ENTROPY_OK.key 0, F.HASP_SRC_STATE_CAUSE.key 1] s t := by
  refine .intro (congrArg Host.Outcome.next (if_pos h)) ⟨flag_setFlag_same F.WARD_STATE_ENTROPY_OK 0 true _ rfl, ?_, ?_⟩
  · exact (flag_setFlag_other (f := F.WARD_STATE_ENTROPY_OK) (g := F.HASP_SRC_STATE_CAUSE) (by decide) (by decide) (by decide)).trans
      (flag_setFlag_same F.HASP_SRC_STATE_CAUSE 1 false s rfl)
  · exact ((OnlyFields.refl _ s).setFlag (f := F.HASP_SRC_STATE_CAUSE) (by decide)).setFlag (f := F.WARD_STATE_ENTROPY_OK) (by decide)

/-- R503: what the end of a grant leaves, before the log has it. -/
def grantCleared (s : State) : State :=
  let s := setFlag F.TRC_CTRL_SINK 0 false (setFlag F.WARD_STATE_OBSERVE 0 false (setFlag F.WARD_STATE_CONSOLE 0 false s))
  { s with ward := { s.ward with grantEnd := 0, grantSecs := 0 }, trc := { s.trc with sinceSync := none } }

theorem grantStop_eq {s : State} (h : granted s = true) (cause : Nat) : grantStop cause s =
    grantLog (fget F.WARD_STATE_OBSERVE 0 s + 2 * fget F.WARD_STATE_CONSOLE 0 s) s.ward.grantSecs cause (grantCleared s) :=
  if_neg (by rw [h]; decide)

theorem flag_grantCleared {f : Fld} {s : State}
    (h : f = F.TRC_CTRL_SINK ∨ f = F.WARD_STATE_OBSERVE ∨ f = F.WARD_STATE_CONSOLE) : flag f 0 (grantCleared s) = false := by
  have one : flag F.WARD_STATE_CONSOLE 0 (setFlag F.WARD_STATE_CONSOLE 0 false s) = false := flag_setFlag_same _ _ _ _ rfl
  have two (u : State) : flag F.WARD_STATE_OBSERVE 0 (setFlag F.WARD_STATE_OBSERVE 0 false u) = false := flag_setFlag_same _ _ _ _ rfl
  have three (u : State) : flag F.TRC_CTRL_SINK 0 (setFlag F.TRC_CTRL_SINK 0 false u) = false := flag_setFlag_same _ _ _ _ rfl
  change flag f 0 (setFlag F.TRC_CTRL_SINK 0 false (setFlag F.WARD_STATE_OBSERVE 0 false (setFlag F.WARD_STATE_CONSOLE 0 false s))) = false
  rcases h with rfl | rfl | rfl
  · exact three _
  · rw [flag_setFlag_other (by decide) (by decide) (by decide), two]
  · rw [flag_setFlag_other (by decide) (by decide) (by decide), flag_setFlag_other (by decide) (by decide) (by decide), one]

/-- R503: a grant that ends. -/
theorem grantStop_spec {s : State} (h : granted s = true) (cause : Nat) : ∀ t, t = grantStop cause s →
    granted t = false ∧ t.ward.grantEnd = 0 ∧ flag F.TRC_CTRL_SINK 0 t = false ∧ t.trc.sinceSync = none ∧ t.time = s.time ∧
    t.mem = s.mem ∧ t.mode = s.mode := by
  rintro _ rfl
  rw [grantStop_eq h, grantLog]
  generalize leBytes _ _ ++ _ ++ _ = b
  obtain ⟨tch, eq⟩ : ∃ tch, logPush 0x50 b (grantCleared s) = { grantCleared s with tch := tch } := ⟨_, logPush_parts ..⟩
  have ends : granted (grantCleared s) = false := by
    rw [granted, flag_grantCleared (.inr (.inl rfl)), flag_grantCleared (.inr (.inr rfl))]; rfl
  rw [eq]
  exact ⟨ends, rfl, flag_grantCleared (.inl rfl), rfl, rfl, rfl, rfl⟩

theorem granted_reachCclk (c : Nat) (s : State) : granted (reachCclk c s) = granted s := rfl

theorem grantExpire_completes {s : State} (h : granted s = true) : Completes .grantExpire s fun t => granted t = false ∧
    t.ward.grantEnd = 0 ∧ flag F.TRC_CTRL_SINK 0 t = false ∧ t.trc.sinceSync = none ∧ s.ward.grantEnd ≤ t.time.cclk ∧
    t.mem = s.mem ∧ t.mode = s.mode := by
  refine .intro (congrArg Host.Outcome.next (if_pos h)) ?_
  obtain ⟨ends, stop, sink, sync, time, mem, mode⟩ :=
    grantStop_spec ((granted_reachCclk s.ward.grantEnd s).trans h) 1 _ rfl
  exact ⟨ends, stop, sink, sync, time ▸ le_reachCclk_cclk .., mem, mode⟩

/-- R495: an MKPDU at a port that has a CAK. -/
theorem mkpduReceive_spec {p : Port} {m : Mkpdu} {s : State} {k : Bytes} (hk : portCak p s = some k) :
    (Config.mkaIcvOk k m.body m.icv = false → exec (.mkpduReceive p m) s = .next s) ∧
    (Config.mkaIcvOk k m.body m.icv = true → m.wrappedSak ≠ [] → ∀ b, Config.unwrap3394 (Config.mkaKek k) m.wrappedSak = some b →
      exec (.mkpduReceive p m) s = .next { s with ports := { s.ports with sak := Tab.put s.ports.sak (p.val * 8) (fitTo 44 b) } }) := by
  refine ⟨fun bad => ?_, fun good wrapped b hb => ?_⟩ <;> refine congrArg Host.Outcome.next ?_ <;> rw [hk]
  · exact if_pos (by rw [bad]; rfl)
  · refine (if_neg (by simp [good, wrapped])).trans ?_
    rw [hb]

/-- R90: the key that an association takes. -/
theorem sakFor_received {p : Nat} {k : SakIn} (h : k.received = true) (held : Option Sa) (s : State) :
    sakFor p k held s = (Tab.find? s.ports.sak (p * 8)).map fun b => (b, s) := by
  unfold sakFor
  rw [if_pos h, if_pos h]; rfl

theorem sakFor_drawn {p : Nat} {k : SakIn} (h : k.received = false) {s : State} (none : Tab.find? s.ports.sak (p * 8 + 1 + k.an) = none)
    (entropy : flag F.WARD_STATE_ENTROPY_OK 0 s = true) (held : Option Sa) : ∀ d, d = drawBytes 44 s → sakFor p k held s =
      some (d.1, { d.2 with ports := { d.2.ports with sak := Tab.put d.2.ports.sak (p * 8 + 1 + k.an) d.1 } }) := by
  rintro _ rfl
  rw [Nat.add_assoc] at none ⊢
  unfold sakFor
  simp [h, none, entropy]

/-- R90, R495: a port that takes keys, and the channel that a key comes for. -/
theorem sakInstall_at {p : Port} {k : SakIn} {s : State} (hm : portMacsec s.cfg p = true) (hk : portCak p s ≠ none) :
    (chanFor p k.rxSci s = none → exec (.sakInstall p k) s = .next s) ∧
    ∀ n, chanFor p k.rxSci s = some n → ∀ c, c = (Tab.find? s.ports.secChans n).getD (chanNew p k.rxSci) →
      (sakFor p k (Tab.find? c.sas k.an) s = none → exec (.sakInstall p k) s = .next s) ∧
      ∀ b u, sakFor p k (Tab.find? c.sas k.an) s = some (b, u) → ∀ pn, pn = k.firstPn % 2 ^ 64 →
        ∀ now, now = (if k.rxSci = none then k.an.val else c.current) →
        ∀ y : Sa, y = { key := b.take 32, salt := b.drop 32, nextPn := pn, rekeyRaised := decide (0xC000000000000000 ≤ pn) } →
        ∀ v, v = { c with sas := Tab.put c.sas k.an y, window := min k.window (2 ^ 30), current := now } →
        exec (.sakInstall p k) s = .next { u with ports := { u.ports with secChans := Tab.put u.ports.secChans n v } } := by
  have open_ : ¬ (!portMacsec s.cfg p || (portCak p s).isNone) = true := by simp [hm, hk]
  refine ⟨fun none => ?_, fun n hn c hc => ⟨fun none => ?_, ?_⟩⟩
  · exact congrArg Host.Outcome.next ((if_neg open_).trans (by rw [none]))
  · refine congrArg Host.Outcome.next ((if_neg open_).trans ?_)
    rw [hn]
    simp only [← hc, none]
  · rintro b u hb _ rfl _ rfl _ rfl _ rfl
    refine congrArg Host.Outcome.next ((if_neg open_).trans ?_)
    rw [hn]
    simp only [← hc, hb]
    cases k.rxSci <;> rfl

/-- Settles O50: the entropy source, the end of a grant, an MKPDU and the keys of MACsec. -/
theorem entropyGrantsAndAssociationKeys : Obligations.EntropyGrantsAndAssociationKeys := by
  refine ⟨fun s live cause => ?_, fun _ => entropyRestore_completes, fun _ => grantExpire_completes,
    fun _ _ _ _ hk => mkpduReceive_spec hk, fun p k s hm hk => ?_⟩
  · refine congrArg Host.Outcome.next ((if_neg (by rw [live]; decide)).trans ?_)
    exact (if_pos (by rfl)).trans (if_neg (by rw [cause]; decide))
  · obtain ⟨full, chan⟩ := sakInstall_at hm hk
    by_cases hn : ∃ n, chanFor p k.rxSci s = some n
    · obtain ⟨n, hn⟩ := hn
      obtain ⟨missing, taken⟩ := chan n hn _ rfl
      refine ⟨full, fun hr hs => missing (by rw [sakFor_received hr, hs]; rfl), ?_⟩
      rintro n' hn' _ rfl pn hpn now hnow
      obtain rfl : n = n' := Option.some.inj (hn.symm.trans hn')
      refine ⟨fun hr b hb y hy v hv => taken b s (by rw [sakFor_received hr, hb]; rfl) pn hpn now hnow y hy v hv, ?_⟩
      rintro hr hs he d hd y hy u rfl v hv
      exact taken d.1 _ (sakFor_drawn hr hs he _ d hd) pn hpn now hnow y hy v hv
    · have none : chanFor p k.rxSci s = none := Option.eq_none_iff_forall_not_mem.2 fun n h => hn ⟨n, h⟩
      exact ⟨full, fun _ _ => full none, fun n h => absurd ⟨n, h⟩ hn⟩

end Sys2Proof.Machine
end

section
/-! SUPPORT and CERTIFICATE. The rails and the reset pins (R571 to R582), and what a soft reset keeps (R576); O58. -/
namespace Sys2Proof.Machine

/-! ### Writing the log (R523, R525) -/

/-- Nothing but Tchien's state and the outputs differs. -/
def OnlyLogged (s t : State) : Prop := ∃ tch out, t = { s with tch := tch, out := out }

theorem OnlyLogged.refl (s : State) : OnlyLogged s s := ⟨_, _, rfl⟩

theorem OnlyLogged.trans {s t u : State} (h : OnlyLogged s t) (k : OnlyLogged t u) : OnlyLogged s u := by
  obtain ⟨_, _, rfl⟩ := h
  obtain ⟨_, _, rfl⟩ := k
  exact ⟨_, _, rfl⟩

theorem OnlyLogged.ite {s a b : State} {c : Prop} [Decidable c] (h : OnlyLogged s a) (k : OnlyLogged s b) :
    OnlyLogged s (if c then a else b) := by split <;> assumption

theorem OnlyLogged.foldl {α : Type} {g : State → α → State} (h : ∀ s x, OnlyLogged s (g s x)) (l : List α) (s : State) :
    OnlyLogged s (l.foldl g s) := by
  induction l generalizing s with
  | nil => exact .refl s
  | cons x l ih => exact (h s x).trans (ih _)

theorem flashBoth_onlyLogged (block off : Nat) (d : Bytes) (s : State) : OnlyLogged s (flashBoth block off d s) :=
  .foldl (fun s _ => .ite (.refl s) ⟨_, _, rfl⟩) _ s

theorem logOpen_onlyLogged (s : State) : OnlyLogged s (logOpen s) :=
  .ite (.refl s) (OnlyLogged.trans ⟨_, _, rfl⟩ (flashBoth_onlyLogged ..))

theorem logClose_onlyLogged (s : State) : OnlyLogged s (logClose s) :=
  .ite (.refl s) (OnlyLogged.trans ⟨_, _, rfl⟩ (flashBoth_onlyLogged ..))

theorem logProgram_onlyLogged (kind : Nat) (data : Bytes) (time flags : Nat) (s : State) :
    OnlyLogged s (logProgram kind data time flags s) := by
  have opened := logOpen_onlyLogged s
  unfold logProgram
  extract_lets u body chain n b i written log counted programmed
  have stored : OnlyLogged s programmed := opened.trans ((show OnlyLogged u counted from ⟨_, _, rfl⟩).trans (flashBoth_onlyLogged ..))
  exact .ite (stored.trans (logClose_onlyLogged _)) stored

theorem logWriteOne_onlyLogged (s : State) : OnlyLogged s (logWriteOne s) := by
  unfold logWriteOne
  split
  · exact .refl s
  · extract_lets n t lost reported
    have told : OnlyLogged s reported := .ite (.refl s) (.trans ⟨_, _, rfl⟩ (logProgram_onlyLogged ..))
    exact told.trans (.trans ⟨_, _, rfl⟩ (logProgram_onlyLogged ..))

theorem logWriteAll_onlyLogged (s : State) : OnlyLogged s (logWriteAll s) := .foldl (fun s _ => logWriteOne_onlyLogged s) _ s

theorem logWriteAll_frame (s : State) : (logWriteAll s).regs = s.regs ∧ (logWriteAll s).ward = s.ward ∧
    (logWriteAll s).time = s.time := by
  obtain ⟨_, _, h⟩ := logWriteAll_onlyLogged s
  rw [h]
  exact ⟨rfl, rfl, rfl⟩

/-! ### A change of policy in BOOT (R511, R571) -/

/-- The fields in which a change of policy in BOOT is told. -/
def policyTold : List Fld :=
  [F.INT_PEND_PEND, F.INT_GRP_STATUS_STATE, F.TRC_DROPS_COUNT, F.HASP_PINS_LOCK_SOURCE, F.HASP_PINS_LOCK_VALID]

/-- What a change of policy in BOOT leaves: a lock that it asks for waits (R571). -/
structure BootKept (s t : State) : Prop where
  mode : t.mode = s.mode
  mem : t.mem = s.mem
  time : t.time = s.time
  ward : t.ward = s.ward
  power : ∃ b, t.power = { s.power with lockHeld := b }
  fields : ∀ f i, (∀ g ∈ policyTold, f.key 0 ≠ g.key 0) → f.key 0 < 16384 → fget f i t = fget f i s

theorem BootKept.refl (s : State) : BootKept s s := ⟨rfl, rfl, rfl, rfl, ⟨_, rfl⟩, fun _ _ _ _ => rfl⟩

theorem BootKept.trans {s t u : State} (h : BootKept s t) (k : BootKept t u) : BootKept s u := by
  obtain ⟨b, power⟩ := h.power
  obtain ⟨c, power'⟩ := k.power
  exact ⟨k.mode.trans h.mode, k.mem.trans h.mem, k.time.trans h.time, k.ward.trans h.ward, ⟨c, by rw [power', power]⟩,
    fun f i hf hk => (k.fields f i hf hk).trans (h.fields f i hf hk)⟩

theorem BootKept.ite {s a b : State} {c : Prop} [Decidable c] (h : BootKept s a) (k : BootKept s b) :
    BootKept s (if c then a else b) := by split <;> assumption

/-- An update of the trace, the log or the interrupt state alone. -/
theorem BootKept.told {s : State} (trc : Trace) (tch : Tchien) : BootKept s { s with trc := trc, tch := tch } :=
  ⟨rfl, rfl, rfl, rfl, ⟨_, rfl⟩, fun _ _ _ _ => rfl⟩

theorem BootKept.fset {g : Fld} (hg : g ∈ policyTold) (i v : Nat) (s : State) : BootKept s (Machine.fset g i v s) := by
  have small : ∀ g ∈ policyTold, g.key 0 < 16384 := by decide
  exact ⟨rfl, rfl, rfl, rfl, ⟨_, rfl⟩, fun f j hf hk => fget_fset_other (hf g hg) (small g hg) hk⟩

theorem tracePush_bootKept (w : Nat) (s : State) : BootKept s (tracePush w s) := by
  unfold tracePush
  exact .ite (.told _ _) (.told _ _)

theorem traceTime_bootKept (s : State) : BootKept s (traceTime s) := by
  have push (w : Nat) (t : State) : BootKept t (tracePush w t) := tracePush_bootKept w t
  unfold traceTime
  extract_lets now top mid lo s1 s2
  have h1 : BootKept s s1 := .ite (.refl s) ((push ..).trans (.told _ _))
  have h2 : BootKept s1 s2 := .ite (.refl s1) ((push ..).trans (.told _ _))
  exact h1.trans (h2.trans (.ite (.refl s2) ((push ..).trans (.told _ _))))

theorem traceOffer_bootKept (w : Nat) (s : State) : BootKept s (traceOffer w s) := by
  have gap (t : State) : BootKept t (traceForget { t with trc := { t.trc with gap := 0 } }) := .told _ _
  have drop (n : Nat) (t : State) : BootKept t (traceDrop n t) := .trans (.told _ _) (.fset (by decide) ..)
  unfold traceOffer
  extract_lets pushed src reported noted
  have h : BootKept s reported := .ite (.refl s) ((tracePush_bootKept ..).trans (gap _))
  refine .ite (.refl s) (.ite (drop 1 s) ?_)
  exact h.trans ((traceTime_bootKept _).trans ((tracePush_bootKept ..).trans (.told _ _)))

theorem haspEvent_bootKept (ev n : Nat) (s : State) : BootKept s (haspEvent ev n s) := by
  unfold haspEvent
  refine BootKept.trans (.ite ?_ (.refl s)) (traceOffer_bootKept ..)
  rw [haspLog, logPush_parts]
  exact .told _ _

theorem riseIf_bootKept (n : Nat) (old s : State) : BootKept s (riseIf n old s) := by
  refine ⟨?_, riseIf_mem .., riseIf_time .., ?_, ⟨s.power.lockHeld, by rw [riseIf_power]⟩, fun f i hf hk => ?_⟩
  · rcases riseIf_eq n old s with h | h <;> rw [h]
    exact pendSet_mode n s
  · rcases riseIf_eq n old s with h | h <;> rw [h]
    rw [pendSet_parts]
  · exact fget_riseIf_other (hf _ (by decide)) (hf _ (by decide)) hk

/-- R571: in BOOT a lock waits for the end of BOOT. -/
theorem lockReq_bootKept {n : Nat} {s : State} (h : s.mode = .boot) : BootKept s (lockReq n s) := by
  have told := haspEvent_bootKept 6 n s
  unfold lockReq
  rw [if_neg (by simp [h])]
  extract_lets s1 s2
  have h2 : BootKept s s2 := told.trans (.ite (.refl s1) (.trans (.fset (by decide) ..) (.fset (by decide) ..)))
  rw [if_pos (by rw [h2.mode, h]; rfl)]
  exact h2.trans ⟨rfl, rfl, rfl, rfl, ⟨true, rfl⟩, fun _ _ _ _ => rfl⟩

theorem haspPolicyChanged_bootKept (old : State) {s : State} (h : s.mode = .boot) : BootKept s (haspPolicyChanged old s) := by
  rw [haspPolicyChanged_eq]
  induction List.range 64 generalizing s with
  | nil => exact .refl s
  | cons n l ih =>
    have risen := riseIf_bootKept (24 + n) old s
    have step : BootKept s (policyStep old s n) :=
      risen.trans (.ite (lockReq_bootKept (risen.mode.trans h)) (.refl _))
    exact step.trans (ih (step.mode.trans h))

/-! ### A soft reset (R576) -/

/-- The fields of the Hasp's policy, which a reset gives their reset values (R511). -/
def policyFields : List Fld :=
  [F.HASP_SRC_CLASS_REACTION, F.HASP_SRC_CLASS_CLASS, F.HASP_SRC_WINDOW_WINDOW_MS, F.HASP_SRC_WINDOW_N,
    F.HASP_CTRL_FAULT_N_CLASS, F.HASP_CTRL_C4_EXIT, F.HASP_CTRL_DRIVE_SHK_FAULT, F.HASP_CTRL_POLICY_IMAGE]

/-- R576: the device after a soft reset, before the Hasp's policy is back at its reset values. -/
def softCleared (s : State) : State :=
  fset F.WARD_STATE_SEC_STATE 0 (secOfFuses s.ward) (ownCounts s
    { State.reset with
      regs := s.regs.filter fun x => softKept x.1
      time := { TimeUnit.init with cclk := s.time.cclk, ptp := s.time.ptp, tickNext := s.time.tickNext,
                                   tickSeen := s.time.tickSeen, freqClean := s.time.freqClean, freqFrom := s.time.freqFrom,
                                   ballIn := s.time.ballIn }
      hasp := s.hasp, ward := wardCold false s.ward, tch := tchCold s.tch, power := pinsKept s.power })

/-- R511: the policy at its reset values. -/
def policyCleared (s : State) : State :=
  { s with regs := s.regs.filter fun x => !policyFields.any fun f => f.key 0 == x.1 % 16384 }

theorem softReset_eq (s : State) : softReset false s = haspPolicyChanged (softCleared s) (policyCleared (softCleared s)) := rfl

theorem Fld.key_mod {f : Fld} (h : f.key 0 < 16384) (i : Nat) : f.key i % 16384 = f.key 0 := by
  unfold Fld.key at *
  omega

theorem fget_policyCleared {f : Fld} (h : ∀ g ∈ policyFields, g.key 0 ≠ f.key 0) (hk : f.key 0 < 16384) (i : Nat) (s : State) :
    fget f i (policyCleared s) = fget f i s :=
  Tab.get_filter_in _ _ _ _ fun v => by simpa [Fld.key_mod hk] using h

theorem fget_softCleared {f : Fld} (h : softKept (f.key 0) = true) (hs : f.key 0 ≠ F.WARD_STATE_SEC_STATE.key 0)
    (hk : f.key 0 < 16384) (i : Nat) (s : State) : fget f i (softCleared s) = fget f i s := by
  have kept : softKept (f.key i) = true := by
    rw [softKept, Fld.key_mod hk]
    rwa [softKept, Fld.key_mod hk] at h
  exact (fget_fset_other hs (by decide) hk).trans (Tab.get_filter_in _ _ s.regs _ fun _ => kept)

/-- R576: what a soft reset brings and what it keeps. -/
theorem softReset_spec (s : State) : ∀ t, softReset false s = t → t.mode = .boot ∧ t.mem = State.reset.mem ∧
    t.ward = wardCold false s.ward ∧ t.time.cclk = s.time.cclk ∧ t.time.ptp = s.time.ptp ∧
    (∃ b, t.power = { pinsKept s.power with lockHeld := b }) ∧
    ∀ f i, f ∈ [F.TIME_INCR_INCR, F.HASP_SRC_STATE_SET] → fget f i t = fget f i s := by
  intro t h
  have kept := haspPolicyChanged_bootKept (softCleared s) (s := policyCleared (softCleared s)) rfl
  rw [← softReset_eq, h] at kept
  refine ⟨kept.mode, kept.mem, kept.ward, (congrArg TimeUnit.cclk kept.time).trans rfl, (congrArg TimeUnit.ptp kept.time).trans rfl, kept.power, fun f i hf => ?_⟩
  have outside : ∀ f ∈ [F.TIME_INCR_INCR, F.HASP_SRC_STATE_SET], (∀ g ∈ policyTold, f.key 0 ≠ g.key 0) ∧
      (∀ g ∈ policyFields, g.key 0 ≠ f.key 0) ∧ softKept (f.key 0) = true ∧ f.key 0 ≠ F.WARD_STATE_SEC_STATE.key 0 ∧
      f.key 0 < 16384 := by decide
  obtain ⟨told, policy, soft, sec, small⟩ := outside f hf
  rw [kept.fields f i told small, fget_policyCleared policy small, fget_softCleared soft sec small]

theorem bootEnter_eq {cause : Nat} {bit : Fld} {s : State} : ∀ u, softReset false (logWriteAll s) = u →
    bootEnter false cause bit s = { setFlag bit 0 true u with
      mode := .boot, power := { u.power with bootCause := cause, bootFrom := s.mode.code, retImage := none } } := by
  intro u h
  rw [bootEnter, h]; rfl

/-- R576: a reset that enters BOOT with cause `cause`, shown by `bit`. -/
theorem bootEnter_spec (cause : Nat) {bit : Fld} (hb : bit = F.GLB_RESET_CAUSE_SYSRST ∨ bit = F.GLB_RESET_CAUSE_SHK_RST) (s : State) :
    ∀ t, bootEnter false cause bit s = t → t.mode = .boot ∧ t.mem = State.reset.mem ∧
    flag bit 0 t = true ∧ t.ward.fwSvn = s.ward.fwSvn ∧ t.time.cclk = s.time.cclk ∧ t.time.ptp = s.time.ptp ∧
    t.power.bootCause = cause ∧ t.power.configured = false ∧
    fget F.TIME_INCR_INCR 0 t = fget F.TIME_INCR_INCR 0 s ∧ ∀ n, haspIsSet n t = haspIsSet n s := by
  obtain ⟨regs, fuses, time⟩ := logWriteAll_frame s
  have spec := softReset_spec (logWriteAll s)
  generalize hu : softReset false (logWriteAll s) = u at spec
  rw [bootEnter_eq u hu]
  obtain ⟨-, mem, ward, cclk, ptp, ⟨b, power⟩, fields⟩ := spec u rfl
  rintro _ rfl
  have other : ∀ f ∈ [F.TIME_INCR_INCR, F.HASP_SRC_STATE_SET], f.key 0 ≠ bit.key 0 ∧ f.key 0 < 16384 ∧ bit.key 0 < 16384 := by
    rcases hb with rfl | rfl <;> decide
  have kept (f : Fld) (i : Nat) (hf : f ∈ [F.TIME_INCR_INCR, F.HASP_SRC_STATE_SET]) : fget f i (setFlag bit 0 true u) = fget f i s := by
    obtain ⟨ne, small, small'⟩ := other f hf
    exact (fget_fset_other ne small' small).trans ((fields f i hf).trans (fget_congr regs))
  refine ⟨rfl, mem, ?_, ?_, ?_, ?_, rfl, ?_, kept _ 0 (by decide), fun n => congrArg (· == 1) (kept _ n (by decide))⟩
  · exact flag_setFlag_same bit 0 true u (by rcases hb with rfl | rfl <;> rfl)
  · exact (congrArg Ward.fwSvn ward).trans (congrArg (fun w => (wardCold false w).fwSvn) fuses)
  · exact cclk.trans (congrArg TimeUnit.cclk time)
  · exact ptp.trans (congrArg TimeUnit.ptp time)
  · exact congrArg Power.configured power

/-! ### The rails, PORST_N and the resets (R571 to R582) -/


theorem bootBegin_spec (e : Bool) (s : State) : flag F.GLB_MODE_BOARD_TEST 0 (bootBegin e s) = e ∧
    fget F.GLB_MODE_MODE 0 (bootBegin e s) = 1 :=
  ⟨flag_setFlag_same _ _ _ _ rfl, (fget_setFlag_other (by decide) (by decide) (by decide)).trans (fget_fset_same ..)⟩

theorem powerUp_completes (e : Bool) {s : State} (hr : s.power.rails = true) (hp : s.power.porstHigh = false)
    (hi : s.power.inReset = false) : Completes (.powerUp e) s fun t => t.mode = .boot ∧ flag F.GLB_MODE_BOARD_TEST 0 t = e ∧
      fget F.GLB_MODE_MODE 0 t = 1 ∧ t.power.porstHigh = true ∧ t.power.driveShkRst = false ∧
      t.time.cclk = s.time.cclk + 16000 ∧ t.mem = s.mem ∧ t.ward = s.ward := by
  refine .intro (congrArg Host.Outcome.next ((if_neg (by simp [hr, hp])).trans (if_neg ?_))) ?_
  · exact (Bool.not_eq_true _).mpr hi
  have test : (e && !s.power.inReset) = e := by simp [hi]
  rw [test]
  exact ⟨rfl, (bootBegin_spec ..).1, (bootBegin_spec ..).2, rfl, rfl, rfl, rfl, rfl⟩

theorem goOff_spec (s : State) : ∀ t, t = goOff s → t.mode = .off ∧ t.mem.cells = [] ∧ t.ward = wardCold true s.ward ∧
    t.tch = tchCold s.tch ∧ t.power = pinsKept s.power ∧ fget F.GLB_MODE_MODE 0 t = 0 := by
  rintro _ rfl
  exact ⟨rfl, rfl, rfl, rfl, rfl, fget_fset_same ..⟩

theorem railLoss_completes (s : State) : Completes .railLoss s fun t => t.mode = .off ∧ t.power.rails = false ∧ t.mem.cells = [] ∧
    t.ward.fwSvn = s.ward.fwSvn ∧ t.ward.patchSvn = s.ward.patchSvn ∧ t.ward.banks = s.ward.banks ∧
    t.ward.storeEpoch = s.ward.storeEpoch ∧ t.ward.decommissioned = s.ward.decommissioned ∧ t.ward.kCmd = [] ∧
    t.ward.hbmKey = State.reset.ward.hbmKey ∧ t.tch.slotA = s.tch.slotA ∧ t.tch.blocks = s.tch.blocks ∧
    fget F.GLB_MODE_MODE 0 t = 0 := by
  refine .intro rfl ?_
  obtain ⟨mode, mem, ward, tch, power, shown⟩ :=
    goOff_spec { s with power := { s.power with rails := false, inReset := false, driveShkRst := false } } _ rfl
  rw [ward, tch, power]
  exact ⟨mode, rfl, mem, rfl, rfl, rfl, rfl, rfl, rfl, rfl, rfl, rfl, shown⟩

theorem porstFall_completes {s : State} (hp : s.power.porstHigh = true) (hr : s.power.rails = true) :
    Completes .porstFall s fun t => t.mode = .off ∧ t.power.porstHigh = false ∧ t.power.driveShkRst = true ∧
      flag F.GLB_RESET_CAUSE_PORST 0 t = true ∧ flag F.GLB_RESET_CAUSE_POWER_ON 0 t = false ∧ t.mem.cells = [] ∧
      t.ward.fwSvn = s.ward.fwSvn := by
  refine .intro (congrArg Host.Outcome.next ((if_neg (by simp [hp])).trans (if_neg (by simp [hr])))) ?_
  generalize hu : goOff _ = u
  obtain ⟨mode, mem, ward, -, power, -⟩ := goOff_spec _ u hu.symm
  refine ⟨mode, congrArg Power.porstHigh power, congrArg Power.driveShkRst power, flag_setFlag_same F.GLB_RESET_CAUSE_PORST 0 true _ rfl, ?_,
    mem, (congrArg Ward.fwSvn ward).trans rfl⟩
  have cleared : flag F.GLB_RESET_CAUSE_POWER_ON 0 (setFlag F.GLB_RESET_CAUSE_POWER_ON 0 false u) = false :=
    flag_setFlag_same _ _ _ _ rfl
  rw [flag_setFlag_other (by decide) (by decide) (by decide), cleared]

/-- R576: a reset of a device that is on and not yet in reset. -/
theorem resetTake_enters {cause : Nat} {bit : Fld} {drive : Bool} {s : State} (hr : s.power.rails = true) (hm : s.mode ≠ .off)
    (hi : s.power.inReset = false) : ∀ u, bootEnter false cause bit s = u →
    resetTake cause bit drive s = { u with power := { u.power with inReset := true, driveShkRst := drive } } := by
  rintro _ rfl
  exact (if_neg (by simp [hr])).trans (if_neg (by simp [hm, hi]))

theorem resets_complete {s : State} (hr : s.power.rails = true) (hm : s.mode ≠ .off) (hi : s.power.inReset = false) :
    (Completes .sysrst s fun t => t.mode = .boot ∧ t.power.inReset = true ∧ t.power.driveShkRst = true ∧ t.power.bootCause = 2 ∧
      flag F.GLB_RESET_CAUSE_SYSRST 0 t = true ∧ t.mem.cells = [] ∧ t.power.configured = false ∧ t.ward.fwSvn = s.ward.fwSvn ∧
      t.time.cclk = s.time.cclk ∧ t.time.ptp = s.time.ptp ∧ fget F.TIME_INCR_INCR 0 t = fget F.TIME_INCR_INCR 0 s ∧
      (∀ n, haspIsSet n t = haspIsSet n s)) ∧
    (Completes .shkReset s fun t => t.mode = .boot ∧ t.power.inReset = true ∧ t.power.driveShkRst = false ∧ t.power.bootCause = 3 ∧
      flag F.GLB_RESET_CAUSE_SHK_RST 0 t = true ∧ t.mem.cells = [] ∧ t.power.configured = false ∧ t.ward.fwSvn = s.ward.fwSvn) := by
  constructor
  · have spec := bootEnter_spec 2 (.inl rfl) s
    generalize hu : bootEnter false 2 F.GLB_RESET_CAUSE_SYSRST s = u at spec
    obtain ⟨mode, mem, bit, svn, cclk, ptp, cause, configured, incr, sources⟩ := spec u rfl
    exact .intro (congrArg Host.Outcome.next (resetTake_enters hr hm hi u hu))
      ⟨mode, rfl, rfl, cause, bit, congrArg Memory.cells mem, configured, svn, cclk, ptp, incr, sources⟩
  · have spec := bootEnter_spec 3 (.inr rfl) s
    generalize hu : bootEnter false 3 F.GLB_RESET_CAUSE_SHK_RST s = u at spec
    obtain ⟨mode, mem, bit, svn, -, -, cause, configured, -, -⟩ := spec u rfl
    exact .intro (congrArg Host.Outcome.next (resetTake_enters hr hm hi u hu))
      ⟨mode, rfl, rfl, cause, bit, congrArg Memory.cells mem, configured, svn⟩

/-- R577: after the release the device drives SHK_RST_N for 10 µs more. -/
def shkRstReleased (s : State) : State :=
  if s.power.driveShkRst && s.power.porstHigh then
    { passCclk 16000 s with power := { s.power with driveShkRst := false } }
  else s

theorem resetRelease_exec {e : Bool} {s : State} (h : s.power.inReset = true) : exec (.resetRelease e) s =
    .next (shkRstReleased (if s.mode = .boot then bootBegin e { s with power := { s.power with inReset := false } }
      else { s with power := { s.power with inReset := false } })) :=
  congrArg Host.Outcome.next (if_neg (by simp [h]))

theorem shkRstReleased_spec (s : State) : ∀ t, t = shkRstReleased s → t.mode = s.mode ∧ t.power.inReset = s.power.inReset ∧
    t.regs = s.regs ∧ t.mem = s.mem ∧ (s.power.porstHigh = true → t.power.driveShkRst = false ∧
      t.time.cclk = s.time.cclk + if s.power.driveShkRst = true then 16000 else 0) := by
  rintro _ rfl
  cases hd : s.power.driveShkRst
  · rw [shkRstReleased, if_neg (by simp [hd])]
    exact ⟨rfl, rfl, rfl, rfl, fun _ => ⟨hd, rfl⟩⟩
  · cases hp : s.power.porstHigh
    · rw [shkRstReleased, if_neg (by simp [hp])]
      exact ⟨rfl, rfl, rfl, rfl, fun h => nomatch h⟩
    · rw [shkRstReleased, if_pos (by simp [hd, hp])]
      exact ⟨rfl, rfl, rfl, rfl, fun _ => ⟨rfl, rfl⟩⟩

theorem resetRelease_completes (e : Bool) {s : State} (h : s.power.inReset = true) :
    (s.mode = .boot → Completes (.resetRelease e) s fun t => t.mode = .boot ∧
      t.power.inReset = false ∧ flag F.GLB_MODE_BOARD_TEST 0 t = e ∧ t.mem = s.mem ∧
      (s.power.porstHigh = true → t.power.driveShkRst = false ∧
        t.time.cclk = s.time.cclk + if s.power.driveShkRst = true then 16000 else 0)) ∧
    (s.mode = .off → s.power.porstHigh = false →
      exec (.resetRelease e) s = .next { s with power := { s.power with inReset := false } }) := by
  refine ⟨fun boot => .intro (resetRelease_exec h) ?_, fun off low => (resetRelease_exec h).trans (congrArg _ ?_)⟩
  · rw [if_pos boot]
    obtain ⟨mode, reset, regs, mem, own⟩ := shkRstReleased_spec (bootBegin e { s with power := { s.power with inReset := false } }) _ rfl
    exact ⟨mode, reset, (flag_congr regs).trans (bootBegin_spec ..).1, mem, own⟩
  · rw [if_neg (by simp [off])]
    exact if_neg (by simp [low])

/-- R582: a fall of PCIE_PERST_N where the interface stands. -/
theorem perstFall_exec {s : State} (hp : s.power.perstHigh = true) (hi : s.power.inReset = false) (hm : s.mode ≠ .off) :
    ∀ u, u = linkDownAct (setFlag F.GLB_RESET_CAUSE_PERST 0 true { s with power := { s.power with perstHigh := false } }) →
    exec .perstFall s = .next (pcieReset (if u.mode == .configure || u.mode == .operate || u.mode == .lockdown then flr 0 u else u)) := by
  rintro _ rfl
  exact congrArg Host.Outcome.next ((if_neg (by simp [hp])).trans (if_neg (by simp [hm, hi])))

theorem perstFall_spec {s : State} (hp : s.power.perstHigh = true) (hi : s.power.inReset = false) :
    ∀ u, u = linkDownAct (setFlag F.GLB_RESET_CAUSE_PERST 0 true { s with power := { s.power with perstHigh := false } }) →
    (s.mode = .configure ∨ s.mode = .operate ∨ s.mode = .lockdown → exec .perstFall s = .next (pcieReset (flr 0 u))) ∧
    (s.mode = .boot ∨ s.mode = .standby → exec .perstFall s = .next (pcieReset u)) := by
  intro u hu
  have mode : u.mode = s.mode := by rw [hu]; rfl
  constructor
  · intro h
    rw [perstFall_exec hp hi (by rcases h with h | h | h <;> simp [h]) u hu, mode, if_pos (by rcases h with h | h | h <;> simp [h])]
  · intro h
    rw [perstFall_exec hp hi (by rcases h with h | h <;> simp [h]) u hu, mode, if_neg (by rcases h with h | h <;> simp [h])]

/-- R589: a rise of PCIE_PERST_N wakes nothing while its wake is disabled. -/
theorem perstRise_exec {s : State} (hp : s.power.perstHigh = false) (hw : flag F.GLB_WAKE_CFG_PERST 0 s = false) :
    exec .perstRise s = .next { s with power := { s.power with perstHigh := true } } := by
  refine congrArg Host.Outcome.next ((if_neg (by simp [hp])).trans (if_neg ?_))
  have low : flag F.GLB_WAKE_CFG_PERST 0 { s with power := { s.power with perstHigh := true } } = false := hw
  simp [low]

/-- Settles O58: the rails and the reset pins. -/
theorem railsAndResetPins : Obligations.RailsAndResetPins :=
  ⟨fun _ h => congrArg Host.Outcome.next (if_neg (by simp [h])), fun e _ => powerUp_completes e, railLoss_completes,
    fun _ => porstFall_completes, fun _ => resets_complete, fun e _ => resetRelease_completes e, fun _ => perstFall_spec,
    fun _ => perstRise_exec⟩

end Sys2Proof.Machine
end

section
/-! SUPPORT. What the operations on queued copies leave (chapters 05 and 03): memory, time, the configuration, the state
of the ports and of the Faush links, and the counts of received frames. -/
namespace Sys2Proof.Machine

/-- The fields of the ports and of the links that decide whether they run. -/
def heldFields : List Fld :=
  [F.MAC_CTRL_ENABLE, F.MAC_STATUS_ENABLED, F.MAC_STATUS_ENABLE_PENDING, F.MAC_STATUS_DRAINING, F.MAC_STATUS_LINK_UP,
    F.MAC_STATUS_AN_DONE, F.FL_CTRL_ENABLE, F.FL_STATUS_ENABLE_PENDING, F.FL_STATUS_DRAINING, F.FL_STATUS_FLIT_LOCK,
    F.FL_STATUS_PEER_UP]

/-- R549: the slots of RX_FRAMES and RX_BYTES of the ports. -/
def rxSlot (n : Nat) : Prop := 145 * 8192 ≤ n ∧ n < 146 * 8192 ∧ n % 32 < 2

/-- What moving copies about leaves. -/
structure Carried (s t : State) : Prop where
  mode : t.mode = s.mode
  mem : t.mem = s.mem
  time : t.time = s.time
  loader : t.loader = s.loader
  fields : ∀ f ∈ heldFields, ∀ i, fget f i t = fget f i s
  rx : ∀ n, rxSlot n → Tab.get 0 t.counters n = Tab.get 0 s.counters n

namespace Carried

theorem refl (s : State) : Carried s s := ⟨rfl, rfl, rfl, rfl, fun _ _ _ => rfl, fun _ _ => rfl⟩

theorem trans {s t u : State} (h : Carried s t) (k : Carried t u) : Carried s u :=
  ⟨k.mode.trans h.mode, k.mem.trans h.mem, k.time.trans h.time, k.loader.trans h.loader,
    fun f hf i => (k.fields f hf i).trans (h.fields f hf i), fun n hn => (k.rx n hn).trans (h.rx n hn)⟩

theorem ite {s a b : State} {c : Prop} [Decidable c] (h : Carried s a) (k : Carried s b) : Carried s (if c then a else b) := by
  split <;> assumption

theorem foldl {α : Type} {g : State → α → State} (h : ∀ s x, Carried s (g s x)) (l : List α) (s : State) :
    Carried s (l.foldl g s) := by
  induction l generalizing s with
  | nil => exact .refl s
  | cons x l ih => exact (h s x).trans (ih _)

/-- The parts that copies live in. -/
theorem rest (s : State) (ports : Ports) (mesh : Mesh) (pipe : Pipe) (tm : Tm) (trc : Trace) (fresh : Nat) (out : List Out) :
    Carried s { s with ports := ports, mesh := mesh, pipe := pipe, tm := tm, trc := trc, fresh := fresh, out := out } :=
  ⟨rfl, rfl, rfl, rfl, fun _ _ _ => rfl, fun _ _ => rfl⟩

theorem fset {f : Fld} (h : ∀ g ∈ heldFields, g.key 0 ≠ f.key 0) (hf : f.key 0 < 16384) (i v : Nat) (s : State) :
    Carried s (Machine.fset f i v s) := by
  have small : ∀ g ∈ heldFields, g.key 0 < 16384 := by decide
  exact ⟨rfl, rfl, rfl, rfl, fun g hg _ => fget_fset_other (h g hg) hf (small g hg), fun _ _ => rfl⟩

theorem setFlag {f : Fld} (h : ∀ g ∈ heldFields, g.key 0 ≠ f.key 0) (hf : f.key 0 < 16384) (i : Nat) (b : Bool) (s : State) :
    Carried s (Machine.setFlag f i b s) := fset h hf i _ s

theorem bump {f : Fld} (h : ∀ g ∈ heldFields, g.key 0 ≠ f.key 0) (hf : f.key 0 < 16384) (i : Nat) (s : State) :
    Carried s (Machine.bump f i s) := fset h hf i _ s

theorem bumpBy {f : Fld} (h : ∀ g ∈ heldFields, g.key 0 ≠ f.key 0) (hf : f.key 0 < 16384) (i n : Nat) (s : State) :
    Carried s (Machine.bumpBy f i n s) := fset h hf i _ s

theorem flag {s t : State} (h : Carried s t) {f : Fld} (hf : f ∈ heldFields) (i : Nat) :
    Machine.flag f i t = Machine.flag f i s := congrArg (· == 1) (h.fields f hf i)

theorem cfg {s t : State} (h : Carried s t) : t.cfg = s.cfg := congrArg Loader.secs h.loader

end Carried

/-! ### Counters (R549, R550) -/

theorem get_cntBy_ne {off n : Nat} (h : n ≠ off / 8) (m : Nat) (s : State) :
    Tab.get 0 (cntBy off m s).counters n = Tab.get 0 s.counters n := by
  rw [cntBy, cntSet_parts]
  exact Tab.get_set_ne 0 0 s.counters _ h

theorem cntBy_carried {off : Nat} (h : ¬ rxSlot (off / 8)) (n : Nat) (s : State) : Carried s (cntBy off n s) := by
  have rx (m : Nat) (hm : rxSlot m) : Tab.get 0 (cntBy off n s).counters m = Tab.get 0 s.counters m :=
    get_cntBy_ne (fun e => h (e ▸ hm)) n s
  refine ⟨?_, ?_, ?_, ?_, ?_, rx⟩ <;> rw [cntBy, cntSet_parts]
  exact fun _ _ _ => rfl

theorem macCnt_carried {k : Nat} (hk : 2 ≤ k ∧ k < 32) (p n : Nat) (s : State) : Carried s (macCnt p k n s) :=
  cntBy_carried (by unfold rxSlot; omega) n s

theorem leafCnt_carried (q k n : Nat) (s : State) : Carried s (leafCnt q k n s) := cntBy_carried (by unfold rxSlot; omega) n s

theorem histCnt_carried (p b : Nat) (s : State) : Carried s (histCnt p b s) := cntBy_carried (by unfold rxSlot; omega) 1 s

theorem flowCnt_carried {set : Nat} (h : set < 65536) (n : Nat) (s : State) : Carried s (flowCnt set n s) :=
  (cntBy_carried (by unfold rxSlot; omega) 1 s).trans (cntBy_carried (by unfold rxSlot; omega) n _)

/-! ### Leaves and their copies (R181, R193, R205, R206) -/

theorem setShared_carried (v : Nat) (s : State) : Carried s (setShared v s) :=
  (Carried.fset (by decide) (by decide) ..).trans (.fset (by decide) (by decide) ..)

theorem setLeafUni_carried (q v : Nat) (s : State) : Carried s (setLeafUni q v s) :=
  (setShared_carried ..).trans (.rest ..)

theorem drrJoin_carried (ring m : Nat) (s : State) : Carried s (drrJoin ring m s) := by
  unfold drrJoin
  exact .ite (.refl s) (.rest ..)

theorem drrEmptied_carried (ring m key : Nat) (s : State) : Carried s (drrEmptied ring m key s) := .rest ..

theorem setLeafQueue_carried (q : Nat) (l : List Copy) (s : State) : Carried s (setLeafQueue q l s) := by
  have shown (b : Bool) (t : State) : Carried t (setFlag F.TM_LEAF_STATUS_STALLED q b t) := .setFlag (by decide) (by decide) ..
  unfold setLeafQueue
  extract_lets old tm put left
  have stored : Carried s put := .rest ..
  split
  · have ended : Carried put left := by
      unfold left
      clear_value old
      split
      · exact (drrEmptied_carried ..).trans (.ite (.refl _) (drrEmptied_carried ..))
      · exact .refl _
    exact stored.trans (ended.trans ((Carried.rest left ..).trans (shown ..)))
  · split
    · split
      · exact stored.trans ((Carried.rest put ..).trans ((drrJoin_carried ..).trans (drrJoin_carried ..)))
      · exact stored.trans (Carried.rest put ..)
    · exact stored

theorem traceDrop_carried (n : Nat) (s : State) : Carried s (traceDrop n s) :=
  (Carried.rest s ..).trans (.bumpBy (by decide) (by decide) ..)

theorem postcard_carried (c : Copy) (f : Fate) (t : Nat) (s : State) : Carried s (postcard c f t s) := by
  unfold postcard
  exact .ite (.refl s) (.ite (.rest ..) ((Carried.rest s ..).trans (traceDrop_carried ..)))

theorem copyGone_carried (n : Nat) (left : Bool) (s : State) : Carried s (copyGone n left s) := by
  unfold copyGone
  split
  · exact .refl s
  · extract_lets f pipe s1 s2 tm s3
    have h1 : Carried s s1 := .rest ..
    have h2 : Carried s1 s2 := .ite (.refl _) (setShared_carried ..)
    have h3 : Carried s2 s3 := .ite (.rest ..) (.refl _)
    exact .ite (h1.trans (h2.trans (h3.trans (.ite (histCnt_carried ..) (.refl _))))) (.rest ..)

theorem releaseCells_carried (c : Copy) (s : State) : Carried s (releaseCells c s) := by
  unfold releaseCells
  exact (Carried.fset (by decide) (by decide) ..).trans (.ite (.refl _) (setLeafUni_carried ..))

theorem leafDropCount_carried (q len : Nat) (s : State) : Carried s (leafDropCount q len s) :=
  (Carried.bump (by decide) (by decide) ..).trans ((leafCnt_carried ..).trans (leafCnt_carried ..))

theorem endCopy_carried (c : Copy) (f : Fate) (s : State) : Carried s (endCopy c f s) :=
  (postcard_carried ..).trans (copyGone_carried ..)

theorem dropQueued_carried (c : Copy) (s : State) : Carried s (dropQueued c s) :=
  (releaseCells_carried ..).trans ((leafDropCount_carried ..).trans (endCopy_carried ..))

/-! ### Links and their packets (R120, R125) -/

theorem flMod_carried (l : Nat) (f : FlLink → FlLink) (s : State) : Carried s (flMod l f s) := .rest ..

theorem lostPkts_carried (l n : Nat) (s : State) : Carried s (bumpBy F.FL_LOST_PKTS_COUNT l n s) :=
  .bumpBy (by decide) (by decide) ..

theorem linkAdmit_carried (l : Nat) (c : Copy) (s : State) : Carried s (linkAdmit l c s) := by
  unfold linkAdmit
  refine .ite (Carried.trans (.ite (.refl s) (setShared_carried ..)) (flMod_carried ..)) ?_
  exact (lostPkts_carried l 1 s).trans (endCopy_carried ..)

theorem meshSend_carried (j : Nat) (c : Copy) (s : State) : Carried s (meshSend j c s) := by
  unfold meshSend
  split
  · exact linkAdmit_carried ..
  · exact (lostPkts_carried _ 1 s).trans (endCopy_carried ..)

/-- R125: a waiting packet gives back its cells. -/
theorem cellsBack_carried (c : Copy) (s : State) : Carried s (if c.mcast then s else setShared (sharedUsed s - c.cells) s) :=
  .ite (.refl s) (setShared_carried ..)

theorem linkRequeue_carried (l : Nat) (s : State) : Carried s (linkRequeue l s) := by
  refine (flMod_carried l _ s).trans (.foldl (fun s c => ?_) _ _)
  extract_lets u
  refine (show Carried s u from cellsBack_carried c s).trans ?_
  split
  · exact linkAdmit_carried ..
  · exact (lostPkts_carried l 1 _).trans (endCopy_carried ..)

theorem flFramesEnd_carried (l : Nat) (s : State) : Carried s (flFramesEnd l s) :=
  (flMod_carried l _ s).trans (.foldl (fun _ _ => copyGone_carried ..) _ _)

theorem flReplayEnd_carried (l : Nat) (s : State) : Carried s (flReplayEnd l s) :=
  (lostPkts_carried ..).trans ((flMod_carried ..).trans (flFramesEnd_carried ..))

theorem flQueuesEnd_carried (l : Nat) (s : State) : Carried s (flQueuesEnd l s) := by
  refine (flMod_carried l _ s).trans (.foldl (fun s c => (cellsBack_carried c s).trans ?_) _ _)
  exact (lostPkts_carried l 1 _).trans (endCopy_carried ..)

end Sys2Proof.Machine
end

section
/-! SUPPORT and CERTIFICATE. Enabling, draining and negotiating a MAC (R84 to R88); O12. -/
namespace Sys2Proof.Machine

/-! ### The link of a port falls (R85, R88) -/

/-- What the fall of a link tells. -/
def fallTold : List Fld := [F.MAC_STATUS_LINK_UP, F.MAC_STATUS_LINK_DOWN_EVT, F.INT_PEND_PEND, F.INT_GRP_STATUS_STATE]

theorem fget_linkFall {f : Fld} (h : ∀ g ∈ fallTold, f.key 0 ≠ g.key 0) (hk : f.key 0 < 16384) (i p : Nat) (s : State) :
    fget f i (linkFall p s) = fget f i s := by
  simp only [fallTold, List.forall_mem_cons] at h
  obtain ⟨up, evt, pend, grp, -⟩ := h
  unfold linkFall
  split
  · dsimp only
    rw [fget_congr (macCnt_regs ..), fget_setEvent_other evt (by decide) pend grp hk, fget_setFlag_other up (by decide) hk]
  · rfl

theorem flag_linkFall {f : Fld} (h : ∀ g ∈ fallTold, f.key 0 ≠ g.key 0) (hk : f.key 0 < 16384) (i p : Nat) (s : State) :
    flag f i (linkFall p s) = flag f i s := congrArg (· == 1) (fget_linkFall h hk i p s)

theorem linkFall_down (p : Nat) (s : State) : flag F.MAC_STATUS_LINK_UP p (linkFall p s) = false := by
  cases up : flag F.MAC_STATUS_LINK_UP p s
  · rw [linkFall_eq_self up, up]
  · exact (linkFall_flags up).1

/-! ### Negotiation again (R88) -/

/-- R88: what auto-negotiation leaves when it starts afresh. -/
theorem anAgain_keeps (p : Nat) (s : State) : ∀ t, t = anAgain p s → t.mem = s.mem ∧ t.tm = s.tm ∧
    ∀ f ∈ [F.MAC_CTRL_ENABLE, F.MAC_STATUS_ENABLED, F.MAC_STATUS_ENABLE_PENDING, F.MAC_STATUS_DRAINING], flag f p t = flag f p s := by
  rintro _ rfl
  unfold anAgain
  split
  · obtain ⟨mem, tm, -⟩ := linkFall_rest p s
    refine ⟨mem, tm, fun f hf => ?_⟩
    have other : ∀ f ∈ [F.MAC_CTRL_ENABLE, F.MAC_STATUS_ENABLED, F.MAC_STATUS_ENABLE_PENDING, F.MAC_STATUS_DRAINING],
        (∀ g ∈ fallTold, f.key 0 ≠ g.key 0) ∧ f.key 0 ≠ F.MAC_STATUS_AN_DONE.key 0 ∧ f.key 0 ≠ F.MAC_STATUS_FEC_LOCK.key 0 ∧
        f.key 0 < 16384 := by decide
    obtain ⟨fall, done, fec, small⟩ := other f hf
    calc flag f p (setFlag F.MAC_STATUS_AN_DONE p false (setFlag F.MAC_STATUS_FEC_LOCK p false (linkFall p s)))
      _ = flag f p (linkFall p s) := by
        rw [flag_setFlag_other done (by decide) small, flag_setFlag_other fec (by decide) small]
      _ = flag f p s := flag_linkFall fall small ..
  · exact ⟨rfl, rfl, fun _ _ => rfl⟩

/-- R88: an enabled port with auto-negotiation loses its link until negotiation is done. -/
theorem anAgain_starts {p : Nat} {s : State} (ha : portAn s.cfg p = true) (he : flag F.MAC_STATUS_ENABLED p s = true) :
    ∀ t, t = anAgain p s → flag F.MAC_STATUS_LINK_UP p t = false ∧ flag F.MAC_STATUS_AN_DONE p t = false ∧
      Tab.get false t.ports.anRunning p = true := by
  rintro _ rfl
  rw [anAgain, if_pos (by rw [ha, he]; rfl)]
  refine ⟨?_, flag_setFlag_same F.MAC_STATUS_AN_DONE p false _ rfl,
    Tab.get_set_same false (linkFall p s).ports.anRunning p true⟩
  calc flag F.MAC_STATUS_LINK_UP p (setFlag F.MAC_STATUS_AN_DONE p false (setFlag F.MAC_STATUS_FEC_LOCK p false (linkFall p s)))
    _ = flag F.MAC_STATUS_LINK_UP p (linkFall p s) := by
      rw [flag_setFlag_other (by decide) (by decide) (by decide), flag_setFlag_other (by decide) (by decide) (by decide)]
    _ = false := linkFall_down p s

/-! ### ENABLE (R84, R86) -/

theorem flag_macStart {f : Fld} (h : f.key 0 ≠ F.MAC_STATUS_ENABLED.key 0) (hk : f.key 0 < 16384) (p : Nat) (s : State) :
    flag f p (macStart p s) = flag f p s :=
  (flag_congr (t := macStart p s) (s := setFlag F.MAC_STATUS_ENABLED p true s) rfl).trans (flag_setFlag_other h (by decide) hk)

theorem macOn_spec (p : Nat) (s : State) : ∀ t, t = macOn p s → flag F.MAC_CTRL_ENABLE p t = true ∧ t.mem = s.mem ∧ t.tm = s.tm ∧
    (flag F.MAC_STATUS_DRAINING p s = true → flag F.MAC_STATUS_ENABLE_PENDING p t = true ∧
      flag F.MAC_STATUS_ENABLED p t = flag F.MAC_STATUS_ENABLED p s) ∧
    (flag F.MAC_STATUS_DRAINING p s = false → flag F.MAC_STATUS_ENABLED p t = true) := by
  rintro _ rfl
  have on : flag F.MAC_CTRL_ENABLE p (setFlag F.MAC_CTRL_ENABLE p true s) = true := flag_setFlag_same _ _ _ _ rfl
  have draining : flag F.MAC_STATUS_DRAINING p (setFlag F.MAC_CTRL_ENABLE p true s) = flag F.MAC_STATUS_DRAINING p s :=
    flag_setFlag_other (by decide) (by decide) (by decide)
  have enabled : flag F.MAC_STATUS_ENABLED p (setFlag F.MAC_CTRL_ENABLE p true s) = flag F.MAC_STATUS_ENABLED p s :=
    flag_setFlag_other (by decide) (by decide) (by decide)
  unfold macOn
  dsimp only
  rw [draining, enabled]
  split
  case isTrue drains =>
    refine ⟨?_, rfl, rfl, fun _ => ⟨flag_setFlag_same _ _ _ _ rfl, ?_⟩, fun h => absurd (h.symm.trans drains) (by decide)⟩
    · rw [flag_setFlag_other (by decide) (by decide) (by decide), on]
    · rw [flag_setFlag_other (by decide) (by decide) (by decide), enabled]
  case isFalse rests =>
    split
    case isTrue runs => exact ⟨on, rfl, rfl, fun h => absurd h rests, fun _ => enabled.trans runs⟩
    case isFalse stopped =>
      refine ⟨?_, rfl, rfl, fun h => absurd h rests, fun _ =>
        flag_setFlag_same F.MAC_STATUS_ENABLED p true (setFlag F.MAC_CTRL_ENABLE p true s) rfl⟩
      exact (flag_macStart (by decide) (by decide) ..).trans on

theorem macDrop_carried (p : Nat) (s : State) : Carried s (macDrop p s) :=
  .foldl (fun s q => (setLeafQueue_carried q [] s).trans
    (.foldl (fun s c => (dropQueued_carried c s).trans (macCnt_carried (by decide) ..)) _ _)) _ s

theorem macOff_spec (p : Nat) (s : State) : ∀ t, t = macOff p s → flag F.MAC_CTRL_ENABLE p t = false ∧ t.mem = s.mem ∧
    (flag F.MAC_STATUS_DRAINING p s = true → flag F.MAC_STATUS_ENABLE_PENDING p t = false) ∧
    (flag F.MAC_STATUS_DRAINING p s = false → flag F.MAC_STATUS_ENABLED p s = true →
      flag F.MAC_STATUS_DRAINING p t = true ∧ flag F.MAC_STATUS_ENABLED p t = false) := by
  rintro _ rfl
  have off : flag F.MAC_CTRL_ENABLE p (setFlag F.MAC_CTRL_ENABLE p false s) = false := flag_setFlag_same _ _ _ _ rfl
  have draining : flag F.MAC_STATUS_DRAINING p (setFlag F.MAC_CTRL_ENABLE p false s) = flag F.MAC_STATUS_DRAINING p s :=
    flag_setFlag_other (by decide) (by decide) (by decide)
  have enabled : flag F.MAC_STATUS_ENABLED p (setFlag F.MAC_CTRL_ENABLE p false s) = flag F.MAC_STATUS_ENABLED p s :=
    flag_setFlag_other (by decide) (by decide) (by decide)
  unfold macOff
  extract_lets s1 ports s2
  rw [show flag F.MAC_STATUS_DRAINING p s1 = _ from draining, show flag F.MAC_STATUS_ENABLED p s1 = _ from enabled]
  split
  case isTrue drains =>
    refine ⟨?_, rfl, fun _ => flag_setFlag_same _ _ _ _ rfl, fun h => absurd (h.symm.trans drains) (by decide)⟩
    exact (flag_setFlag_other (by decide) (by decide) (by decide)).trans off
  case isFalse rests =>
    split
    case isTrue runs =>
      have dropped := macDrop_carried p (setFlag F.MAC_STATUS_DRAINING p true (setFlag F.MAC_STATUS_ENABLED p false s2))
      refine ⟨?_, dropped.mem, fun h => absurd h rests, fun _ _ => ⟨?_, ?_⟩⟩
      · rw [dropped.flag (by decide), flag_setFlag_other (by decide) (by decide) (by decide),
          flag_setFlag_other (by decide) (by decide) (by decide)]
        exact off
      · rw [dropped.flag (by decide)]
        exact flag_setFlag_same _ _ _ _ rfl
      · rw [dropped.flag (by decide), flag_setFlag_other (by decide) (by decide) (by decide)]
        exact flag_setFlag_same _ _ _ _ rfl
    case isFalse stopped => exact ⟨off, rfl, fun h => absurd h rests, fun _ h => absurd h stopped⟩

/-! ### The end of a drain (R86) -/

theorem macDrained_spec (p : Nat) (s : State) : ∀ t, t = macDrained p s → flag F.MAC_STATUS_DRAINING p t = false ∧
    flag F.MAC_STATUS_LINK_UP p t = false ∧
    (flag F.MAC_STATUS_ENABLE_PENDING p s = true → flag F.MAC_STATUS_ENABLED p t = true ∧
      flag F.MAC_STATUS_ENABLE_PENDING p t = false) ∧ t.mem = s.mem := by
  rintro _ rfl
  have told {f : Fld} (h1 : f.key 0 ≠ F.MAC_STATUS_AN_DONE.key 0) (h2 : f.key 0 ≠ F.MAC_STATUS_FEC_LOCK.key 0)
      (hk : f.key 0 < 16384) (u : State) :
      flag f p (setFlag F.MAC_STATUS_AN_DONE p false (setFlag F.MAC_STATUS_FEC_LOCK p false u)) = flag f p u := by
    rw [flag_setFlag_other h1 (by decide) hk, flag_setFlag_other h2 (by decide) hk]
  have drained (u : State) : flag F.MAC_STATUS_DRAINING p (setFlag F.MAC_STATUS_DRAINING p false u) = false :=
    flag_setFlag_same _ _ _ _ rfl
  unfold macDrained
  extract_lets s1 s2 ports s3
  have regs : s3.regs = s2.regs := rfl
  have drains : flag F.MAC_STATUS_DRAINING p s3 = false :=
    (flag_congr regs).trans ((told (by decide) (by decide) (by decide) s1).trans (drained _))
  have down : flag F.MAC_STATUS_LINK_UP p s3 = false :=
    (flag_congr regs).trans ((told (by decide) (by decide) (by decide) s1).trans
      ((flag_setFlag_other (by decide) (by decide) (by decide)).trans (linkFall_down p s)))
  have pending : flag F.MAC_STATUS_ENABLE_PENDING p s3 = flag F.MAC_STATUS_ENABLE_PENDING p s :=
    (flag_congr regs).trans ((told (by decide) (by decide) (by decide) s1).trans
      ((flag_setFlag_other (by decide) (by decide) (by decide)).trans (flag_linkFall (by decide) (by decide) ..)))
  have mem : s3.mem = s.mem := (linkFall_rest p s).1
  rw [pending]
  split
  case isTrue waits =>
    have start (u : State) : flag F.MAC_STATUS_ENABLED p (setFlag F.MAC_STATUS_ENABLED p true u) = true := flag_setFlag_same _ _ _ _ rfl
    have none (u : State) : flag F.MAC_STATUS_ENABLE_PENDING p (setFlag F.MAC_STATUS_ENABLE_PENDING p false u) = false :=
      flag_setFlag_same _ _ _ _ rfl
    refine ⟨?_, ?_, fun _ => ⟨start _, ?_⟩, mem⟩
    · rw [flag_macStart (by decide) (by decide), flag_setFlag_other (by decide) (by decide) (by decide), drains]
    · rw [flag_macStart (by decide) (by decide), flag_setFlag_other (by decide) (by decide) (by decide), down]
    · rw [flag_macStart (by decide) (by decide), none]
  case isFalse => exact ⟨drains, down, fun h => absurd h ‹_›, mem⟩

/-! ### MAC_CTRL -/

/-- A write to MAC_CTRL of a port of PORT_MAP in OPERATE. -/
theorem macCtrl_completes {c : Instr} {fn p : Nat} {w : Word} {s : State} {P : State → Prop} (hr : Reaches fn .MAC_CTRL p s)
    (hm : s.mode = .operate) (hp : portOn s.cfg p = true) (hc : exec c s = .next (hostWr fn .MAC_CTRL p s (macCtrlWrite p w)))
    (h : ∀ u, u = (if wbit F.MAC_CTRL_ENABLE w then macOn p s else macOff p s) →
      P (if wbit F.MAC_CTRL_AN_RESTART w then anAgain p u else u)) : Completes c s P := by
  refine .intro (hc.trans (congrArg Host.Outcome.next (hostWr_reaches hr _))) ?_
  have taken := h _ rfl
  rwa [macCtrlWrite, if_neg (by simp [hm, hp])]

section
variable {fn : Fn} {p : Port} {w : Word} {s : State} (hr : Reaches fn .MAC_CTRL p s) (hm : s.mode = .operate)
  (hp : portOn s.cfg p = true)
include hr hm hp

/-- R84: ENABLE 1. -/
theorem macEnable_completes : Completes (.macEnable fn p w) s fun t => flag F.MAC_CTRL_ENABLE p t = true ∧ t.mem = s.mem ∧
    t.tm = s.tm ∧
    (flag F.MAC_STATUS_DRAINING p s = true → flag F.MAC_STATUS_ENABLE_PENDING p t = true ∧
      flag F.MAC_STATUS_ENABLED p t = flag F.MAC_STATUS_ENABLED p s) ∧
    (flag F.MAC_STATUS_DRAINING p s = false → flag F.MAC_STATUS_ENABLED p t = true) := by
  have on : wbit F.MAC_CTRL_ENABLE (withBit w 0 true) = true := wbit_withBit_same F.MAC_CTRL_ENABLE w true rfl (by decide)
  refine macCtrl_completes hr hm hp rfl fun u hu => ?_
  obtain ⟨enable, mem, tm, drains, rests⟩ := macOn_spec p s u (hu.trans (if_pos on))
  split
  · obtain ⟨mem', tm', kept⟩ := anAgain_keeps p u _ rfl
    rw [mem', tm', kept _ (by decide), kept _ (by decide), kept _ (by decide)]
    exact ⟨enable, mem, tm, drains, rests⟩
  · exact ⟨enable, mem, tm, drains, rests⟩

/-- R86: ENABLE 0. -/
theorem macDisable_completes (hw : wbit F.MAC_CTRL_AN_RESTART w = false) : Completes (.macDisable fn p w) s fun t =>
    flag F.MAC_CTRL_ENABLE p t = false ∧ t.mem = s.mem ∧
    (flag F.MAC_STATUS_DRAINING p s = true → flag F.MAC_STATUS_ENABLE_PENDING p t = false) ∧
    (flag F.MAC_STATUS_DRAINING p s = false → flag F.MAC_STATUS_ENABLED p s = true →
      flag F.MAC_STATUS_DRAINING p t = true ∧ flag F.MAC_STATUS_ENABLED p t = false) := by
  have off : wbit F.MAC_CTRL_ENABLE (withBit w 0 false) = false := wbit_withBit_same F.MAC_CTRL_ENABLE w false rfl (by decide)
  have again : wbit F.MAC_CTRL_AN_RESTART (withBit w 0 false) = false :=
    (wbit_withBit_other F.MAC_CTRL_AN_RESTART w 0 false (by decide) (by decide) (.inl (by decide))).trans hw
  refine macCtrl_completes hr hm hp rfl fun u hu => ?_
  rw [if_neg (ne_true_of_eq_false again)]
  exact macOff_spec p s u (hu.trans (if_neg (ne_true_of_eq_false off)))

/-- R88: AN_RESTART on an enabled port. -/
theorem anRestart_completes (ha : portAn s.cfg p = true)
    (hd : flag F.MAC_STATUS_DRAINING p s = false) (hw : wbit F.MAC_CTRL_ENABLE w = true) : Completes (.anRestart fn p w) s fun t =>
    flag F.MAC_STATUS_LINK_UP p t = false ∧ flag F.MAC_STATUS_AN_DONE p t = false ∧
    Tab.get false t.ports.anRunning p = true ∧ t.mem = s.mem := by
  have again : wbit F.MAC_CTRL_AN_RESTART (withBit w 4 true) = true := wbit_withBit_same F.MAC_CTRL_AN_RESTART w true rfl (by decide)
  have on : wbit F.MAC_CTRL_ENABLE (withBit w 4 true) = true :=
    (wbit_withBit_other F.MAC_CTRL_ENABLE w 4 true (by decide) (by decide) (.inr (by decide))).trans hw
  refine macCtrl_completes hr hm hp rfl fun u hu => ?_
  rw [if_pos again]
  rw [if_pos on] at hu
  obtain ⟨-, mem, -, -, rests⟩ := macOn_spec p s u hu
  have loader : u.loader = s.loader := by
    rw [hu]
    unfold macOn
    dsimp only
    split
    · rfl
    · split <;> rfl
  obtain ⟨down, done, runs⟩ := anAgain_starts (s := u) (by rw [show u.cfg = s.cfg from congrArg Loader.secs loader, ha])
    (rests hd) _ rfl
  exact ⟨down, done, runs, (anAgain_keeps p u _ rfl).1.trans mem⟩

end

/-- Settles O12: ENABLE, the drain of a port, and AN_RESTART. -/
theorem macEnableAndDrain : Obligations.MacEnableAndDrain :=
  ⟨fun _ _ _ _ hr hm hp => ⟨macEnable_completes hr hm hp, macDisable_completes hr hm hp, fun ha _ => anRestart_completes hr hm hp ha⟩,
    fun p s hd hw => .intro (congrArg Host.Outcome.next (if_pos (by rw [hd, hw]; rfl))) (macDrained_spec p s _ rfl)⟩

end Sys2Proof.Machine
end

section
/-! SUPPORT. What the end of a copy leaves: the wires, the links, the outputs, the leaves' queues and the counts of the
ports (R181, R193, R549). -/
namespace Sys2Proof.Machine

/-- R549: the slots of the ports' counters. -/
def macSlot (n : Nat) : Prop := 145 * 8192 ≤ n ∧ n < 146 * 8192

/-- What the end of a copy leaves. -/
structure Released (s t : State) : Prop where
  ports : t.ports = s.ports
  mesh : t.mesh = s.mesh
  out : t.out = s.out
  queues : t.tm.queues = s.tm.queues
  mem : t.mem = s.mem
  mac : ∀ n, macSlot n → Tab.get 0 t.counters n = Tab.get 0 s.counters n

namespace Released

theorem refl (s : State) : Released s s := ⟨rfl, rfl, rfl, rfl, rfl, fun _ _ => rfl⟩

theorem trans {s t u : State} (h : Released s t) (k : Released t u) : Released s u :=
  ⟨k.ports.trans h.ports, k.mesh.trans h.mesh, k.out.trans h.out, k.queues.trans h.queues, k.mem.trans h.mem,
    fun n hn => (k.mac n hn).trans (h.mac n hn)⟩

theorem ite {s a b : State} {c : Prop} [Decidable c] (h : Released s a) (k : Released s b) :
    Released s (if c then a else b) := by split <;> assumption

theorem foldl {α : Type} {g : State → α → State} (h : ∀ s x, Released s (g s x)) (l : List α) (s : State) :
    Released s (l.foldl g s) := by
  induction l generalizing s with
  | nil => exact .refl s
  | cons x l ih => exact (h s x).trans (ih _)

/-- Registers, frames in flight and postcards. -/
theorem rest (s : State) (regs : Tab Nat) (pipe : Pipe) (trc : Trace) (n : Nat) (occ : Tab Nat) :
    Released s { s with regs := regs, pipe := pipe, trc := trc, tm := { s.tm with mcastUsed := n, occ := occ } } :=
  ⟨rfl, rfl, rfl, rfl, rfl, fun _ _ => rfl⟩

end Released

theorem cntBy_released {off : Nat} (h : ¬ macSlot (off / 8)) (n : Nat) (s : State) : Released s (cntBy off n s) := by
  have mac (m : Nat) (hm : macSlot m) : Tab.get 0 (cntBy off n s).counters m = Tab.get 0 s.counters m :=
    get_cntBy_ne (fun e => h (e ▸ hm)) n s
  refine ⟨?_, ?_, ?_, ?_, ?_, mac⟩ <;> rw [cntBy, cntSet_parts]

theorem leafCnt_released (q k n : Nat) (s : State) : Released s (leafCnt q k n s) :=
  cntBy_released (by unfold macSlot; omega) n s

theorem histCnt_released (p b : Nat) (s : State) : Released s (histCnt p b s) := cntBy_released (by unfold macSlot; omega) 1 s

theorem setShared_released (v : Nat) (s : State) : Released s (setShared v s) := .rest s _ _ _ _ _

theorem releaseCells_released (c : Copy) (s : State) : Released s (releaseCells c s) :=
  .trans (.rest s _ _ _ _ _) (.ite (.refl _) ((setShared_released ..).trans (.rest _ _ _ _ _ _)))

theorem postcard_released (c : Copy) (f : Fate) (t : Nat) (s : State) : Released s (postcard c f t s) := by
  unfold postcard
  exact .ite (.refl s) (.ite (.rest s _ _ _ _ _) (.rest s _ _ _ _ _))

theorem copyGone_released (n : Nat) (left : Bool) (s : State) : Released s (copyGone n left s) := by
  unfold copyGone
  split
  · exact .refl s
  · extract_lets f pipe s1 s2 tm s3
    have h1 : Released s s1 := .rest s _ _ _ _ _
    have h2 : Released s1 s2 := .ite (.refl _) (setShared_released ..)
    have h3 : Released s2 s3 := .ite (.rest s2 _ _ _ _ _) (.refl _)
    exact .ite (h1.trans (h2.trans (h3.trans (.ite (histCnt_released ..) (.refl _))))) (.rest s _ _ _ _ _)

end Sys2Proof.Machine
end

section
/-! SUPPORT and CERTIFICATE. The Faush links: enabling, locking, losing, restoring and draining them, their flits and their
control messages (R116 to R133); O21 and O22. -/
namespace Sys2Proof.Machine

/-! ### One link, and messages on the links (R122, R123) -/

theorem flOf_flMod_same (l : Nat) (f : FlLink → FlLink) (s : State) : flOf l (flMod l f s) = f (flOf l s) :=
  Tab.get_mod_same FlLink.init s.mesh.links l f

theorem flOf_flMod_ne {l m : Nat} (h : m ≠ l) (f : FlLink → FlLink) (s : State) : flOf m (flMod l f s) = flOf m s :=
  Tab.get_set_ne FlLink.init FlLink.init s.mesh.links _ h

theorem flag_flMod (f : Fld) (i l : Nat) (g : FlLink → FlLink) (s : State) : flag f i (flMod l g s) = flag f i s := rfl

/-- Only control messages wait that did not wait before. -/
structure Relayed (s t : State) : Prop where
  parts : ∃ links, t = { s with mesh := { s.mesh with links := links } }
  link : ∀ l, ∃ ms, flOf l t = { flOf l s with control := ms }

namespace Relayed

theorem refl (s : State) : Relayed s s := ⟨⟨_, rfl⟩, fun _ => ⟨_, rfl⟩⟩

theorem trans {s t u : State} (h : Relayed s t) (k : Relayed t u) : Relayed s u := by
  refine ⟨?_, fun l => ?_⟩
  · obtain ⟨_, ht⟩ := h.parts
    obtain ⟨_, hu⟩ := k.parts
    exact ⟨_, by rw [hu, ht]⟩
  · obtain ⟨_, ht⟩ := h.link l
    obtain ⟨ms, hu⟩ := k.link l
    exact ⟨ms, by rw [hu, ht]⟩

theorem ite {s a b : State} {c : Prop} [Decidable c] (h : Relayed s a) (k : Relayed s b) : Relayed s (if c then a else b) := by
  split <;> assumption

theorem foldl {α : Type} {g : State → α → State} (h : ∀ s x, Relayed s (g s x)) (l : List α) (s : State) :
    Relayed s (l.foldl g s) := by
  induction l generalizing s with
  | nil => exact .refl s
  | cons x l ih => exact (h s x).trans (ih _)

end Relayed

theorem ctlSend_relayed (l : Nat) (m : Bytes) (s : State) : Relayed s (ctlSend l m s) := by
  refine ⟨⟨_, rfl⟩, fun l' => ?_⟩
  rcases eq_or_ne l' l with rfl | h
  · exact ⟨_, flOf_flMod_same ..⟩
  · exact ⟨_, flOf_flMod_ne h ..⟩

/-- R123: telling the others of the links' state leaves all but the mesh, and of each link all but the messages. -/
theorem linkStateChanged_told (s : State) : ∀ t, t = linkStateChanged s →
    (∃ mesh, t = { s with mesh := mesh }) ∧ ∀ l, ∃ ms, flOf l t = { flOf l s with control := ms } := by
  rintro _ rfl
  unfold linkStateChanged
  extract_lets i m q mesh noted msg
  split
  · exact ⟨⟨_, rfl⟩, fun l => ⟨_, rfl⟩⟩
  · have told : Relayed noted ((List.range 3).foldl (fun s l => if linkLive l s then ctlSend l msg s else s) noted) :=
      .foldl (fun s l => .ite (ctlSend_relayed ..) (.refl s)) _ _
    obtain ⟨_, parts⟩ := told.parts
    exact ⟨⟨_, parts⟩, told.link⟩

theorem linkStateChanged_rest (s : State) : (linkStateChanged s).regs = s.regs ∧ (linkStateChanged s).mem = s.mem ∧
    (linkStateChanged s).time = s.time := by
  obtain ⟨_, h⟩ := (linkStateChanged_told s _ rfl).1
  rw [h]
  exact ⟨rfl, rfl, rfl⟩

theorem flag_linkStateChanged (f : Fld) (i : Nat) (s : State) : flag f i (linkStateChanged s) = flag f i s :=
  flag_congr (linkStateChanged_rest s).1

/-! ### FL_CTRL (R128) -/

theorem flCtrl_completes {c : Instr} {fn l : Nat} {w : Word} {s : State} {P : State → Prop} (hr : Reaches fn .FL_CTRL l s)
    (hf : flCan l s = true) (hc : exec c s = .next (hostWr fn .FL_CTRL l s (flCtrlWrite l w)))
    (h : P (if wbit F.FL_CTRL_ENABLE w then flOn l s else linkStateChanged (linkRequeue l (flOff l s)))) : Completes c s P := by
  refine .intro (hc.trans (congrArg Host.Outcome.next (hostWr_reaches hr _))) ?_
  rwa [flCtrlWrite, if_neg (by simp [hf])]

theorem flOn_spec (l : Nat) (s : State) : ∀ t, t = flOn l s → flag F.FL_CTRL_ENABLE l t = true ∧
    (flag F.FL_STATUS_DRAINING l s = true → flag F.FL_STATUS_ENABLE_PENDING l t = true) ∧ t.mem = s.mem ∧ t.tm = s.tm := by
  rintro _ rfl
  have on : flag F.FL_CTRL_ENABLE l (setFlag F.FL_CTRL_ENABLE l true s) = true := flag_setFlag_same _ _ _ _ rfl
  have draining : flag F.FL_STATUS_DRAINING l (setFlag F.FL_CTRL_ENABLE l true s) = flag F.FL_STATUS_DRAINING l s :=
    flag_setFlag_other (by decide) (by decide) (by decide)
  unfold flOn
  dsimp only
  rw [draining]
  split
  · refine ⟨?_, fun _ => flag_setFlag_same _ _ _ _ rfl, rfl, rfl⟩
    rw [flag_setFlag_other (by decide) (by decide) (by decide), on]
  · exact ⟨on, fun h => absurd h ‹_›, rfl, rfl⟩

theorem flOff_spec (l : Nat) (s : State) : ∀ t, t = flOff l s → flag F.FL_CTRL_ENABLE l t = false ∧
    (flag F.FL_CTRL_ENABLE l s = true → flag F.FL_STATUS_DRAINING l s = false → flag F.FL_STATUS_DRAINING l t = true) ∧
    t.mem = s.mem := by
  rintro _ rfl
  have off : flag F.FL_CTRL_ENABLE l (setFlag F.FL_CTRL_ENABLE l false s) = false := flag_setFlag_same _ _ _ _ rfl
  have draining : flag F.FL_STATUS_DRAINING l (setFlag F.FL_CTRL_ENABLE l false s) = flag F.FL_STATUS_DRAINING l s :=
    flag_setFlag_other (by decide) (by decide) (by decide)
  unfold flOff
  cases enabled : flag F.FL_CTRL_ENABLE l s
  · rw [if_pos (by decide)]
    exact ⟨enabled, fun h => absurd h (by decide), rfl⟩
  · dsimp only
    rw [if_neg (by decide), draining]
    split
    case isTrue drains =>
      refine ⟨?_, fun _ rests => absurd (rests.symm.trans drains) (by decide), rfl⟩
      rw [flag_setFlag_other (by decide) (by decide) (by decide), off]
    case isFalse =>
      refine ⟨?_, fun _ _ => flag_setFlag_same _ _ _ _ rfl, rfl⟩
      rw [flag_setFlag_other (by decide) (by decide) (by decide)]
      exact off

section
variable {fn : Fn} {l : Link} {w : Word} {s : State} (hr : Reaches fn .FL_CTRL l s) (hf : flCan l s = true)
include hr hf

theorem flEnable_completes : Completes (.flEnable fn l w) s fun t => flag F.FL_CTRL_ENABLE l t = true ∧
    (flag F.FL_STATUS_DRAINING l s = true → flag F.FL_STATUS_ENABLE_PENDING l t = true) ∧ t.mem = s.mem ∧ t.tm = s.tm := by
  have on : wbit F.FL_CTRL_ENABLE (withBit w 0 true) = true := wbit_withBit_same F.FL_CTRL_ENABLE w true rfl (by decide)
  refine flCtrl_completes hr hf rfl ?_
  rw [if_pos on]
  exact flOn_spec l s _ rfl

theorem flDisable_completes : Completes (.flDisable fn l w) s fun t => flag F.FL_CTRL_ENABLE l t = false ∧
    (flag F.FL_CTRL_ENABLE l s = true → flag F.FL_STATUS_DRAINING l s = false → flag F.FL_STATUS_DRAINING l t = true) ∧
    t.mem = s.mem := by
  have off : wbit F.FL_CTRL_ENABLE (withBit w 0 false) = false := wbit_withBit_same F.FL_CTRL_ENABLE w false rfl (by decide)
  refine flCtrl_completes hr hf rfl ?_
  rw [if_neg (ne_true_of_eq_false off)]
  obtain ⟨disabled, drains, mem⟩ := flOff_spec l s _ rfl
  have queued := linkRequeue_carried l (flOff l s)
  rw [flag_linkStateChanged, flag_linkStateChanged, (linkStateChanged_rest _).2.1, queued.flag (by decide),
    queued.flag (by decide), queued.mem]
  exact ⟨disabled, drains, mem⟩

end

/-! ### Lock, loss, restoration and the end of a drain (R116, R121, R124, R126, R128) -/

/-- R121: every VC of a link that has locked holds 1,024 credits. -/
theorem freshCredit : ∀ v, v < 8 → Tab.get 0 ((List.range 8).map fun v => (v, 1024)) v = 1024 := by decide

theorem lockUp_spec (l : Nat) (s : State) : ∀ t, t = lockUp l s → flag F.FL_STATUS_FLIT_LOCK l t = true ∧
    flag F.FL_STATUS_PEER_UP l t = false ∧ (∀ v, v < 8 → Tab.get 0 (flOf l t).credit v = 1024) ∧
    (flOf l t).control = [ownHello s] ∧ (flOf l t).replay = [] ∧ (flOf l t).txSeq = 0 ∧ (flOf l t).rxSeq = 0 ∧
    (flOf l t).lockAt = s.time.cclk ∧ t.mem = s.mem := by
  rintro _ rfl
  have carried : Carried (setFlag F.FL_STATUS_PEER_UP l false s) (linkRequeue l (flReplayEnd l (setFlag F.FL_STATUS_PEER_UP l false s))) :=
    (flReplayEnd_carried ..).trans (linkRequeue_carried ..)
  unfold lockUp
  generalize linkRequeue l _ = u at carried
  have peer : flag F.FL_STATUS_PEER_UP l (setFlag F.FL_STATUS_PEER_UP l false s) = false := flag_setFlag_same _ _ _ _ rfl
  have locked : flag F.FL_STATUS_FLIT_LOCK l (setFlag F.FL_STATUS_FLIT_LOCK l true u) = true := flag_setFlag_same _ _ _ _ rfl
  dsimp only
  rw [flOf_flMod_same, flag_flMod, flag_flMod]
  refine ⟨?_, ?_, freshCredit, ?_, rfl, rfl, rfl, congrArg TimeUnit.cclk carried.time, carried.mem⟩
  · rw [flag_setFlag_other (by decide) (by decide) (by decide), locked]
  · rw [flag_setFlag_other (by decide) (by decide) (by decide), flag_setFlag_other (by decide) (by decide) (by decide), carried.flag (by decide), peer]
  · have hello {a b : State} (h : a.loader = b.loader) : ownHello a = ownHello b := by
      simp only [ownHello, State.cfg, h]
    exact congrArg (fun x => [x]) (hello carried.loader)

theorem flDown_spec (l : Nat) (s : State) : ∀ t, t = flDown l s → flag F.FL_STATUS_FLIT_LOCK l t = false ∧
    flag F.FL_STATUS_PEER_UP l t = false ∧ flOf l t = FlLink.init ∧ t.mem = s.mem ∧ t.time = s.time := by
  rintro _ rfl
  have lock (u : State) : flag F.FL_STATUS_FLIT_LOCK l (setFlag F.FL_STATUS_FLIT_LOCK l false u) = false := flag_setFlag_same _ _ _ _ rfl
  refine ⟨?_, ?_, flOf_flMod_same .., rfl, rfl⟩ <;> rw [flDown, flag_flMod]
  case refine_2 => exact flag_setFlag_same _ _ _ _ rfl
  rw [flag_setFlag_other (by decide) (by decide) (by decide), flag_setFlag_other (by decide) (by decide) (by decide), lock]

theorem flitLockLoss_completes {l : Link} {x : LockLoss} {s : State} (h : x = .controlBlock ∨ 64 ≤ (flOf l s).crcFails) :
    Completes (.flitLockLoss l x) s fun t => flag F.FL_STATUS_FLIT_LOCK l t = false ∧
      OnlyFields [F.FL_STATUS_FLIT_LOCK.key l] s t :=
  .intro (congrArg Host.Outcome.next (if_pos (by simpa using h)))
    ⟨flag_setFlag_same _ _ _ _ rfl, (OnlyFields.refl _ s).setFlag (List.mem_singleton_self _)⟩

/-- R124: a link whose peer is lost, before the others and the Hasp are told. -/
def peerGone (l : Nat) (s : State) : State :=
  flMod l (fun k => { k with restoring := true }) (flDown l (linkRequeue l (flReplayEnd l
    (setFlag F.FL_STATUS_PEER_UP l false (setEvent F.FL_STATUS_PEER_LOST_EVT l (100 + l) s)))))

theorem peerLost_eq (l : Nat) (s : State) : peerLost l s = haspRise (42 + l) 2 (linkStateChanged (peerGone l s)) := rfl

theorem peerGone_spec (l : Nat) (s : State) : ∀ u, u = peerGone l s → flag F.FL_STATUS_PEER_UP l u = false ∧
    flag F.FL_STATUS_FLIT_LOCK l u = false ∧ (flOf l u).restoring = true ∧ (flOf l u).queues = [] ∧ u.mem = s.mem := by
  rintro _ rfl
  have carried := (flReplayEnd_carried l
    (setFlag F.FL_STATUS_PEER_UP l false (setEvent F.FL_STATUS_PEER_LOST_EVT l (100 + l) s))).trans (linkRequeue_carried l _)
  unfold peerGone
  generalize linkRequeue l _ = v at carried
  obtain ⟨lock, peer, link, mem, -⟩ := flDown_spec l v _ rfl
  generalize flDown l v = u at lock peer link mem
  rw [flOf_flMod_same, link]
  exact ⟨peer, lock, rfl, rfl, mem.trans (carried.mem.trans (setEvent_mem ..))⟩

theorem peerLost_completes {l : Link} {s : State} (he : flag F.FL_CTRL_ENABLE l s = true) (hp : flag F.FL_STATUS_PEER_UP l s = true) :
    ∀ v, v = (if flitsStopped l s then s else reachCclk ((flOf l s).goodAt + 3200) s) → ∀ u, u = peerGone l v →
    Completes (.peerLost l) s fun t => t = haspRise (42 + l) 2 (linkStateChanged u) ∧ flag F.FL_STATUS_PEER_UP l u = false ∧
      flag F.FL_STATUS_FLIT_LOCK l u = false ∧ (flOf l u).restoring = true ∧ (flOf l u).queues = [] ∧ u.mem = s.mem := by
  intro v hv u hu
  have step : exec (.peerLost l) s = .next (peerLost l v) := by
    rw [hv]
    exact congrArg Host.Outcome.next (if_pos (by simp [he, hp]))
  have mem : v.mem = s.mem := by
    rw [hv]
    split <;> rfl
  obtain ⟨peer, lock, restoring, queues, kept⟩ := peerGone_spec l v u hu
  exact .intro step ⟨by rw [peerLost_eq, hu], peer, lock, restoring, queues, kept.trans mem⟩

/-- R126: a link that waited `c` cclk in lock is restored. -/
theorem restored_spec (l c : Nat) (s : State) : ∀ t, t = linkStateChanged (setFlag F.FL_STATUS_PEER_UP l true
      (flMod l (fun k => { k with restoring := false }) (reachCclk c s))) →
    flag F.FL_STATUS_PEER_UP l t = true ∧ (flOf l t).restoring = false ∧ c ≤ t.time.cclk ∧ t.mem = s.mem := by
  rintro _ rfl
  generalize hu : setFlag F.FL_STATUS_PEER_UP l true (flMod l _ (reachCclk c s)) = u
  obtain ⟨ms, link⟩ := (linkStateChanged_told u _ rfl).2 l
  obtain ⟨regs, mem, time⟩ := linkStateChanged_rest u
  rw [flag_congr regs, link, time, mem]
  subst hu
  refine ⟨flag_setFlag_same _ _ _ _ rfl, ?_, le_reachCclk_cclk c s, rfl⟩
  exact congrArg FlLink.restoring (flOf_flMod_same l (fun k => { k with restoring := false }) (reachCclk c s))

theorem linkRestore_completes {l : Link} {s : State} (hl : flag F.FL_STATUS_FLIT_LOCK l s = true) (hh : (flOf l s).helloOk = true)
    (hr : (flOf l s).restoring = true) (hd : detourWaits l (meshPeer (selfDev s) l) s = false) :
    Completes (.linkRestore l) s fun t => flag F.FL_STATUS_PEER_UP l t = true ∧ (flOf l t).restoring = false ∧
      (flOf l s).lockAt + 1600000 ≤ t.time.cclk ∧ t.mem = s.mem :=
  .intro (congrArg Host.Outcome.next (if_pos (by simp [hl, hh, hr, hd]))) (restored_spec l _ s _ rfl)

/-- R128: the end of a drain at a device whose time is that of `v`. -/
theorem drained_spec (l : Nat) (back : Bool) (v : State) : ∀ t, t = linkStateChanged (setFlag F.FL_STATUS_ENABLE_PENDING l false
      (setFlag F.FL_STATUS_DRAINING l false (flMod l (fun k => { k with restoring := back })
        (flDown l (flQueuesEnd l (flReplayEnd l v)))))) →
    flag F.FL_STATUS_DRAINING l t = false ∧ flag F.FL_STATUS_FLIT_LOCK l t = false ∧ flag F.FL_STATUS_PEER_UP l t = false ∧
    (flOf l t).queues = [] ∧ (flOf l t).replay = [] ∧ t.time = v.time ∧ t.mem = v.mem := by
  rintro _ rfl
  have carried := (flReplayEnd_carried l v).trans (flQueuesEnd_carried l _)
  generalize flQueuesEnd l _ = x at carried
  obtain ⟨lock, peer, link, mem, time⟩ := flDown_spec l x _ rfl
  generalize flDown l x = y at lock peer link mem time
  have other {f : Fld} (h1 : f.key 0 ≠ F.FL_STATUS_ENABLE_PENDING.key 0) (h2 : f.key 0 ≠ F.FL_STATUS_DRAINING.key 0)
      (hk : f.key 0 < 16384) (u : State) :
      flag f l (setFlag F.FL_STATUS_ENABLE_PENDING l false (setFlag F.FL_STATUS_DRAINING l false u)) = flag f l u := by
    rw [flag_setFlag_other h1 (by decide) hk, flag_setFlag_other h2 (by decide) hk]
  have drained (u : State) : flag F.FL_STATUS_DRAINING l (setFlag F.FL_STATUS_ENABLE_PENDING l false
      (setFlag F.FL_STATUS_DRAINING l false u)) = false :=
    (flag_setFlag_other (by decide) (by decide) (by decide)).trans (flag_setFlag_same _ _ _ _ rfl)
  generalize hu : setFlag F.FL_STATUS_ENABLE_PENDING l false _ = u
  obtain ⟨ms, told⟩ := (linkStateChanged_told u _ rfl).2 l
  obtain ⟨regs, mem', time'⟩ := linkStateChanged_rest u
  rw [flag_congr regs, flag_congr regs, flag_congr regs, told, time', mem']
  subst hu
  have fresh : flOf l (flMod l (fun k => { k with restoring := back }) y) = { FlLink.init with restoring := back } := by
    rw [flOf_flMod_same, link]
  refine ⟨drained _, (other (by decide) (by decide) (by decide) _).trans lock, (other (by decide) (by decide) (by decide) _).trans peer,
    congrArg FlLink.queues fresh, congrArg FlLink.replay fresh, time.trans carried.time, mem.trans carried.mem⟩

theorem flDrainEnd_completes {l : Link} {s : State} (h : flag F.FL_STATUS_DRAINING l s = true) : Completes (.flDrainEnd l) s fun t =>
    flag F.FL_STATUS_DRAINING l t = false ∧ flag F.FL_STATUS_FLIT_LOCK l t = false ∧ flag F.FL_STATUS_PEER_UP l t = false ∧
    (flOf l t).queues = [] ∧ (flOf l t).replay = [] ∧
    ((flOf l s).replay ≠ [] → (flOf l s).drainAt + 80000 ≤ t.time.cclk) ∧ t.mem = s.mem := by
  refine .intro (congrArg Host.Outcome.next (if_pos h)) ?_
  generalize (flOf l s).drainAt + 80000 = c
  obtain ⟨drained, lock, peer, queues, replay, time, mem⟩ :=
    drained_spec l ((flOf l s).restoring || flag F.FL_STATUS_PEER_UP l s) (if (flOf l s).replay.isEmpty then s else reachCclk c s) _ rfl
  refine ⟨drained, lock, peer, queues, replay, fun waits => ?_, mem.trans ?_⟩
  · rw [time, if_neg (by simpa using waits)]
    exact le_reachCclk_cclk ..
  · split <;> rfl

/-- Settles O21: the links come and go. -/
theorem faushLinksComeAndGo : Obligations.FaushLinksComeAndGo := by
  refine ⟨fun _ _ _ _ hr hf => ⟨flEnable_completes hr hf, flDisable_completes hr hf⟩, fun l s he hd hl => ?_,
    fun _ _ _ => flitLockLoss_completes, fun l s he hp u hu => peerLost_completes he hp _ rfl u hu, fun _ _ => linkRestore_completes,
    fun _ _ => flDrainEnd_completes⟩
  exact .intro (congrArg Host.Outcome.next (if_pos (by simp [he, hd, hl]))) (lockUp_spec l s _ rfl)

end Sys2Proof.Machine
end

section
/-! CERTIFICATE. Flits and control messages of a Faush link (R116 to R123, R132); O22. -/
namespace Sys2Proof.Machine

/-! ### Receiving a flit (R116 to R118) -/

theorem flitBad_spec (l : Nat) (s : State) (hl : flag F.FL_STATUS_FLIT_LOCK l s = true) : ∀ t, t = flitBad l s →
    (flOf l t).nak = true ∧ (flOf l t).discarding = true ∧ (flOf l t).crcFails = (flOf l s).crcFails + 1 ∧
    (flOf l t).rxSeq = (flOf l s).rxSeq ∧ t.pipe = s.pipe ∧ t.tm = s.tm ∧
    flag F.FL_STATUS_FLIT_LOCK l t = decide ((flOf l s).crcFails < 63) ∧ KeepsFields [F.FL_STATUS_FLIT_LOCK.key l] s t ∧
    t.mem = s.mem := by
  rintro _ rfl
  have asked : flOf l (flMod l (fun k => { k with crcFails := (flOf l s).crcFails + 1, nak := true, discarding := true }) s) =
      { flOf l s with crcFails := (flOf l s).crcFails + 1, nak := true, discarding := true } := flOf_flMod_same ..
  unfold flitBad
  extract_lets n u
  have link : flOf l u = { flOf l s with crcFails := n, nak := true, discarding := true } := asked
  split
  case isTrue last =>
    have same : flOf l (setFlag F.FL_STATUS_FLIT_LOCK l false u) = flOf l u := rfl
    rw [same, link]
    refine ⟨rfl, rfl, rfl, rfl, rfl, rfl, ?_, (KeepsFields.of_regs (t := u) (s := s) rfl).setFlag (List.mem_singleton_self _), rfl⟩
    rw [decide_eq_false (by omega)]
    exact flag_setFlag_same _ _ _ _ rfl
  case isFalse more =>
    rw [link]
    refine ⟨rfl, rfl, rfl, rfl, rfl, rfl, ?_, KeepsFields.of_regs rfl, rfl⟩
    rw [decide_eq_true (by omega)]
    exact hl

theorem flitReceive_bad {l : Link} {f : Bytes} {s : State} (hl : flag F.FL_STATUS_FLIT_LOCK l s = true)
    (hf : fieldLE f 508 4 ≠ crc32 (f.take 508)) : exec (.flitReceive l f) s = .next (flitBad l s) :=
  congrArg Host.Outcome.next ((if_neg (by simp [hl])).trans (if_pos hf))

/-- R118: an ACK field of 0 acknowledges nothing. -/
theorem ackIn_zero (l : Nat) (s : State) : ackIn l 0 s = s := by
  unfold ackIn
  extract_lets k v d
  split
  · rfl
  · exact (if_neg (by decide)).trans (if_neg (by decide))

/-- R117, R121: what a good flit notes, and the credit that it returns. -/
def flitNoted (l cr : Nat) (s : State) : State :=
  flMod l (fun k => { k with discarding := false, credit := Tab.mod 0 k.credit (cr % 8) (· + cr / 8) })
    (flMod l (fun k => { k with crcFails := 0, goodAt := s.time.cclk }) s)

theorem flOf_flitNoted (l cr : Nat) (s : State) : flOf l (flitNoted l cr s) =
    { flOf l s with crcFails := 0, goodAt := s.time.cclk, discarding := false,
                    credit := Tab.mod 0 (flOf l s).credit (cr % 8) (· + cr / 8) } := by
  rw [flitNoted, flOf_flMod_same, flOf_flMod_same]

theorem flitIn_idle {l : Nat} {f : Bytes} {s : State} (hl : flag F.FL_STATUS_FLIT_LOCK l s = true)
    (hf : fieldLE f 508 4 = crc32 (f.take 508)) (hq : fieldLE f 0 2 = (flOf l s).rxSeq) (hr : (flOf l s).rxSeq < 4096)
    (ha : fieldLE f 2 2 = 0) : flitIn l f s = flitNoted l (fieldLE f 4 2) s := by
  have seq : (flOf l (flMod l (fun k => { k with crcFails := 0, goodAt := s.time.cclk }) s)).rxSeq = (flOf l s).rxSeq := by
    rw [flOf_flMod_same]
  have next : fieldLE f 0 2 % 4096 = (flOf l s).rxSeq := by rw [hq, Nat.mod_eq_of_lt hr]
  have idle : fieldLE f 0 2 / 4096 = 0 := by rw [hq, Nat.div_eq_of_lt hr]
  unfold flitIn
  rw [if_neg (by simp [hl]), if_neg (not_not.2 hf)]
  dsimp only
  rw [seq, next, if_neg (not_not.2 rfl), ha, ackIn_zero, if_pos idle]
  rfl

theorem flitReceive_idle {l : Link} {f : Bytes} {s : State} (hl : flag F.FL_STATUS_FLIT_LOCK l s = true)
    (hf : fieldLE f 508 4 = crc32 (f.take 508)) (hq : fieldLE f 0 2 = (flOf l s).rxSeq) (hr : (flOf l s).rxSeq < 4096)
    (ha : fieldLE f 2 2 = 0) : Completes (.flitReceive l f) s fun t =>
      Tab.get 0 (flOf l t).credit (fieldLE f 4 2 % 8) = Tab.get 0 (flOf l s).credit (fieldLE f 4 2 % 8) + fieldLE f 4 2 / 8 ∧
      (flOf l t).crcFails = 0 ∧ (flOf l t).rxSeq = (flOf l s).rxSeq ∧ t.regs = s.regs ∧ t.pipe = s.pipe ∧ t.mem = s.mem := by
  refine .intro (congrArg Host.Outcome.next (flitIn_idle hl hf hq hr ha)) ?_
  rw [flOf_flitNoted]
  exact ⟨Tab.get_mod_same 0 (flOf l s).credit (fieldLE f 4 2 % 8) (· + fieldLE f 4 2 / 8), rfl, rfl, rfl, rfl, rfl⟩

/-! ### Control messages (R122, R123, R132) -/

/-- R122: a HELLO that fits. -/
def helloTaken (l : Nat) (b : Bytes) (s : State) : State :=
  flMod l (fun k => { k with helloOk := true, peerMaster := byteAt b 2 == 1 }) (fset F.FL_STATUS_PEER_INDEX l (byteAt b 0) s)

/-- R122: a HELLO that does not fit, before it is told. -/
def helloRefused (l : Nat) (b : Bytes) (s : State) : State :=
  setFlag F.FL_STATUS_PEER_UP l false (setEvent F.FL_STATUS_HELLO_MISMATCH l (100 + l)
    (flMod l (fun k => { k with helloOk := false }) (fset F.FL_STATUS_PEER_INDEX l (byteAt b 0) s)))

theorem helloIn_good {l : Nat} {b : Bytes} {s : State} (hl : flag F.FL_STATUS_FLIT_LOCK l s = true) (hb : helloBad l b s = false)
    (hr : (flOf l s).restoring = false) :
    helloIn l b s = linkStateChanged (setFlag F.FL_STATUS_PEER_UP l true (helloTaken l b s)) := by
  have same : helloBad l b (fset F.FL_STATUS_PEER_INDEX l (byteAt b 0) s) = helloBad l b s := rfl
  have rests : (flOf l (helloTaken l b s)).restoring = false := (congrArg FlLink.restoring (flOf_flMod_same ..)).trans hr
  unfold helloIn
  rw [if_neg (by simp [hl])]
  dsimp only
  rw [same, hb, if_neg (by decide)]
  exact if_neg (ne_true_of_eq_false rests)

theorem helloIn_bad {l : Nat} {b : Bytes} {s : State} (hl : flag F.FL_STATUS_FLIT_LOCK l s = true) (hb : helloBad l b s = true) :
    helloIn l b s = linkStateChanged (haspRise (42 + l) 1 (helloRefused l b s)) := by
  have same : helloBad l b (fset F.FL_STATUS_PEER_INDEX l (byteAt b 0) s) = helloBad l b s := rfl
  unfold helloIn
  rw [if_neg (by simp [hl])]
  dsimp only
  rw [same, if_pos hb]
  rfl

theorem hello_completes {l : Link} {b : Bytes} {s : State} (hl : flag F.FL_STATUS_FLIT_LOCK l s = true)
    (hb : helloBad l b s = false) (hr : (flOf l s).restoring = false) : Completes (.hello l b) s fun t =>
      flag F.FL_STATUS_PEER_UP l t = true ∧ (flOf l t).helloOk = true ∧
      fget F.FL_STATUS_PEER_INDEX l t = byteAt b 0 % 2 ^ F.FL_STATUS_PEER_INDEX.w ∧ t.mem = s.mem := by
  refine .intro (congrArg Host.Outcome.next (helloIn_good hl hb hr)) ?_
  generalize hu : setFlag F.FL_STATUS_PEER_UP l true (helloTaken l b s) = u
  obtain ⟨ms, link⟩ := (linkStateChanged_told u _ rfl).2 l
  obtain ⟨regs, mem, -⟩ := linkStateChanged_rest u
  rw [flag_congr regs, fget_congr regs, link, mem]
  subst hu
  have taken : flOf l (helloTaken l b s) = { flOf l s with helloOk := true, peerMaster := byteAt b 2 == 1 } := flOf_flMod_same ..
  have index : fget F.FL_STATUS_PEER_INDEX l (helloTaken l b s) = byteAt b 0 % 2 ^ F.FL_STATUS_PEER_INDEX.w :=
    fget_fset_same F.FL_STATUS_PEER_INDEX l (byteAt b 0) s
  refine ⟨flag_setFlag_same _ _ _ _ rfl, congrArg FlLink.helloOk taken, ?_, rfl⟩
  rw [fget_setFlag_other (by decide) (by decide) (by decide), index]

theorem setEvent_mesh (f : Fld) (i n : Nat) (s : State) : (setEvent f i n s).mesh = s.mesh := by
  unfold setEvent
  rcases riseIf_eq n s (setFlag f i true s) with h | h <;> rw [h]
  · rw [pendSet_parts]; rfl
  · rfl

theorem helloRefused_spec (l : Nat) (b : Bytes) (s : State) : ∀ u, u = helloRefused l b s → flag F.FL_STATUS_PEER_UP l u = false ∧
    flag F.FL_STATUS_HELLO_MISMATCH l u = true ∧ (flOf l u).helloOk = false := by
  rintro _ rfl
  unfold helloRefused
  generalize hv : flMod l _ _ = v
  have mismatch : flag F.FL_STATUS_HELLO_MISMATCH l (setEvent F.FL_STATUS_HELLO_MISMATCH l (100 + l) v) = true :=
    flag_setEvent_same rfl (by decide) (by decide) (by decide)
  have link : flOf l (setFlag F.FL_STATUS_PEER_UP l false (setEvent F.FL_STATUS_HELLO_MISMATCH l (100 + l) v)) = flOf l v :=
    congrArg (fun (m : Mesh) => Tab.get FlLink.init m.links l) (setEvent_mesh ..)
  refine ⟨flag_setFlag_same _ _ _ _ rfl, ?_, ?_⟩
  · rw [flag_setFlag_other (by decide) (by decide) (by decide), mismatch]
  · rw [link, ← hv, flOf_flMod_same]

/-- R123: a later LINK_STATE of another device. -/
def stateTaken (b : Bytes) (s : State) : State :=
  { s with mesh := { s.mesh with stateSeq := Tab.put s.mesh.stateSeq (byteAt b 0 % 4) (fieldLE b 4 4),
                                 upMask := Tab.set 0 s.mesh.upMask (byteAt b 0 % 4) (byteAt b 1 % 16) } }

theorem linkStateIn_later {l : Nat} {b : Bytes} {s : State} {o : Nat} (hl : flag F.FL_STATUS_FLIT_LOCK l s = true)
    (hd : byteAt b 0 % 4 ≠ selfDev s) (ho : Tab.find? s.mesh.stateSeq (byteAt b 0 % 4) = some o) (hn : fieldLE b 4 4 ≠ o)
    (ha : atOrAfter32 (fieldLE b 4 4) o = true) : linkStateIn l b s = (List.range 3).foldl (fun s l' =>
      if l' != l && linkLive l' s then ctlSend l' (ctlMsg 2 b) s else s) (stateTaken b s) := by
  unfold linkStateIn
  dsimp only
  rw [ho]
  exact if_neg (by simp [hl, hd, hn, ha])

theorem linkState_completes {l : Link} {b : Bytes} {s : State} {o : Nat} (hl : flag F.FL_STATUS_FLIT_LOCK l s = true)
    (hd : byteAt b 0 % 4 ≠ selfDev s) (ho : Tab.find? s.mesh.stateSeq (byteAt b 0 % 4) = some o) (hn : fieldLE b 4 4 ≠ o)
    (ha : atOrAfter32 (fieldLE b 4 4) o = true) : Completes (.linkState l b) s fun t =>
      Tab.find? t.mesh.stateSeq (byteAt b 0 % 4) = some (fieldLE b 4 4) ∧
      Tab.get 0 t.mesh.upMask (byteAt b 0 % 4) = byteAt b 1 % 16 ∧ t.regs = s.regs ∧ t.mem = s.mem := by
  refine .intro (congrArg Host.Outcome.next (linkStateIn_later hl hd ho hn ha)) ?_
  have told : Relayed (stateTaken b s) ((List.range 3).foldl (fun s (l' : Nat) =>
      if l' != l && linkLive l' s then ctlSend l' (ctlMsg 2 b) s else s) (stateTaken b s)) :=
    .foldl (fun s l' => .ite (ctlSend_relayed ..) (.refl s)) _ _
  obtain ⟨_, parts⟩ := told.parts
  rw [parts]
  exact ⟨Tab.find?_put_same .., Tab.get_set_same .., rfl, rfl⟩

/-- R123: a message goes out once on every live link of a list. -/
theorem control_sent (m : Bytes) {ls : List Nat} (hd : ls.Nodup) (l : Nat) (s : State) :
    (flOf l (ls.foldl (fun s l => if linkLive l s then ctlSend l m s else s) s)).control =
      if l ∈ ls ∧ linkLive l s = true then (flOf l s).control ++ [m] else (flOf l s).control := by
  induction ls generalizing s with
  | nil => simp
  | cons x ls ih =>
    obtain ⟨notin, hd⟩ := List.nodup_cons.1 hd
    have live (y : Nat) : linkLive y (ctlSend x m s) = linkLive y s := rfl
    rw [List.foldl_cons, ih hd]
    rcases eq_or_ne l x with rfl | ne
    · cases on : linkLive l s
      · simp [on]
      · rw [if_pos rfl, if_neg (fun h => notin h.1), if_pos ⟨List.mem_cons_self, rfl⟩]
        exact congrArg FlLink.control (flOf_flMod_same ..)
    · have same : flOf l (if linkLive x s then ctlSend x m s else s) = flOf l s ∧
          linkLive l (if linkLive x s then ctlSend x m s else s) = linkLive l s := by
        split
        · exact ⟨flOf_flMod_ne ne .., live l⟩
        · exact ⟨rfl, rfl⟩
      rw [same.1, same.2]
      simp [ne]

theorem timeSyncSend_completes {s : State} (hm : flag F.SHK_STATUS_MASTER 0 s = true) (hr : running s = true)
    (ht : tdEnabled 0 s = true) : Completes .timeSyncSend s fun t =>
      (∀ l, l < 3 → linkLive l s = true → (flOf l t).control = (flOf l s).control ++
        [ctlMsg 3 (leBytes 8 (nsSec (tickTime s.cfg 0 (tickNext 0 s)) % 2 ^ 48) ++ leBytes 8 (tickNext 0 s))]) ∧
      t.regs = s.regs ∧ t.mem = s.mem := by
  refine .intro (if_pos (by simp [hm, hr, ht])) ?_
  generalize ctlMsg 3 _ = m
  have told : Relayed s ((List.range 3).foldl (fun s l => if linkLive l s then ctlSend l m s else s) s) :=
    .foldl (fun s l => .ite (ctlSend_relayed ..) (.refl s)) _ _
  obtain ⟨_, parts⟩ := told.parts
  refine ⟨fun l hl live => ?_, by rw [parts], by rw [parts]⟩
  exact (control_sent m List.nodup_range l s).trans (if_pos ⟨List.mem_range.2 hl, live⟩)

/-! ### Sending a flit (R116 to R121) -/

/-- R117: what a flit that is laid out leaves of its link. -/
theorem sendFlit_spec (l ty first : Nat) (payload : Bytes) (s : State) : ∀ t, t = sendFlit l ty first payload s →
    (∃ f, t.out = .flit l f :: s.out) ∧ t.mem = s.mem ∧ (flOf l t).control = (flOf l s).control ∧
    (ty ≠ 0 → (flOf l t).txSeq = ((flOf l s).txSeq + 1) % 4096 ∧ (flOf l t).replay.length = (flOf l s).replay.length + 1) := by
  rintro _ rfl
  unfold sendFlit
  extract_lets k vc n body flit u
  have link : flOf l (emit (.flit l flit) u) = flOf l u := rfl
  rw [link, show flOf l u = _ from flOf_flMod_same ..]
  refine ⟨⟨flit, rfl⟩, rfl, rfl, fun h => ?_⟩
  dsimp only
  rw [if_neg h, if_neg h, List.length_append]
  exact ⟨rfl, rfl⟩

theorem startPacket_carried (l : Nat) (s : State) : Carried s (startPacket l s) := by
  unfold startPacket
  extract_lets k
  split
  · exact .refl s
  · split
    · exact .refl s
    · extract_lets b u v
      have taken : Carried s u := flMod_carried ..
      exact taken.trans ((show Carried u v from cellsBack_carried _ u).trans (postcard_carried ..))

theorem fillFlit_carried (l n : Nat) (s : State) : Carried s (fillFlit l n s) := by
  induction n generalizing s with
  | zero => exact .refl s
  | succ n ih => exact .ite (.refl s) ((startPacket_carried l s).trans (ih _))

theorem sendData_sends (l : Nat) (s : State) : (∃ f r, (sendData l s).out = .flit l f :: r) ∧ (sendData l s).mem = s.mem := by
  unfold sendData
  extract_lets before u k first x sent
  have filled : Carried s u := .ite (fillFlit_carried ..) (.refl s)
  split
  · obtain ⟨⟨f, out⟩, mem, -⟩ := sendFlit_spec l 0 0x7FFF [] u _ rfl
    exact ⟨⟨f, _, out⟩, mem.trans filled.mem⟩
  · obtain ⟨⟨f, out⟩, mem, -⟩ := sendFlit_spec l 1 first (k.txBytes.take 500)
      (flMod l (fun k => { k with txBytes := k.txBytes.drop 500, txFrames := x.2 }) u) _ rfl
    have gone : Released sent (x.1.foldl (fun s f => copyGone f false s) sent) := .foldl (fun _ _ => copyGone_released ..) _ _
    exact ⟨⟨f, _, gone.out.trans out⟩, gone.mem.trans (mem.trans filled.mem)⟩

theorem flitOut_spec {l : Nat} {s : State} (hl : flag F.FL_STATUS_FLIT_LOCK l s = true) : ∀ t, t = flitOut l s →
    (∃ f r, t.out = .flit l f :: r) ∧ t.mem = s.mem ∧
    (∀ x r, (flOf l s).resend = x :: r → t.out = .flit l x.2 :: s.out ∧ (flOf l t).resend = r ∧
      fget F.FL_REPLAYS_COUNT l t = (fget F.FL_REPLAYS_COUNT l s + 1) % 2 ^ F.FL_REPLAYS_COUNT.w) ∧
    ((flOf l s).resend = [] → (flOf l s).replay.length < 2047 → ∀ m r, (flOf l s).control = m :: r →
      (flOf l t).control = r ∧ (flOf l t).txSeq = ((flOf l s).txSeq + 1) % 4096 ∧
      (flOf l t).replay.length = (flOf l s).replay.length + 1) := by
  rintro _ rfl
  unfold flitOut
  extract_lets k
  rw [if_neg (by simp [hl])]
  have hk : flOf l s = k := rfl
  clear_value k
  rw [hk]
  split
  case h_1 i f r again =>
    refine ⟨⟨f, s.out, rfl⟩, rfl, fun x r' h => ?_, fun h => nomatch again.symm.trans h⟩
    obtain ⟨rfl, rfl⟩ := List.cons.inj (again.symm.trans h)
    refine ⟨rfl, congrArg FlLink.resend (flOf_flMod_same ..), ?_⟩
    exact fget_bump_same F.FL_REPLAYS_COUNT l (flMod l (fun k => { k with resend := r }) s)
  case h_2 none =>
    have noResend : ∀ {P : Prop} (x : Nat × Bytes) r, k.resend = x :: r → P := fun x r h => nomatch none.symm.trans h
    split
    case isTrue full =>
      obtain ⟨⟨f, out⟩, mem, -⟩ := sendFlit_spec l 0 0x7FFF [] s _ rfl
      exact ⟨⟨f, _, out⟩, mem, fun x r h => noResend x r h, fun _ h => absurd h (Nat.not_lt.2 full)⟩
    case isFalse room =>
      split
      case h_1 m r waits =>
        obtain ⟨⟨f, out⟩, mem, control, sent⟩ := sendFlit_spec l 2 0x7FFF m (flMod l (fun k => { k with control := r }) s) _ rfl
        obtain ⟨seq, held⟩ := sent (by decide)
        rw [flOf_flMod_same, hk] at control seq held
        refine ⟨⟨f, _, out⟩, mem, fun x r h => noResend x r h, fun _ _ m' r' h => ?_⟩
        obtain ⟨rfl, rfl⟩ := List.cons.inj (waits.symm.trans h)
        exact ⟨control, seq, held⟩
      case h_2 quiet =>
        obtain ⟨out, mem⟩ := sendData_sends l s
        exact ⟨out, mem, fun x r h => noResend x r h, fun _ _ m r h => nomatch quiet.symm.trans h⟩

/-- Settles O22: flits and control messages. -/
theorem faushMessages : Obligations.FaushMessages := by
  refine ⟨fun l f s hl hf => .intro (flitReceive_bad hl hf) (flitBad_spec l s hl _ rfl),
    fun _ _ _ => flitReceive_idle, fun l b s hl => ⟨hello_completes hl, fun u hu hb => ?_⟩,
    fun _ _ _ _ => linkState_completes, fun l b s hl hm hp => ?_,
    fun l s hl => .intro rfl (flitOut_spec hl _ rfl), fun _ => timeSyncSend_completes⟩
  · exact .intro (congrArg Host.Outcome.next (helloIn_bad hl hb)) ⟨by rw [hu]; rfl, helloRefused_spec l b s u hu⟩
  · exact .intro (congrArg Host.Outcome.next (if_neg (by simp [hl, hm, hp]))) ⟨rfl, rfl, rfl, rfl⟩

end Sys2Proof.Machine
end

section
/-! SUPPORT. Folds whose steps each have their own index, and the choice of a class and a leaf (R204 to R206, R210). -/
namespace Sys2Proof.Machine

/-! ### Folds whose steps each have their own index -/

/-- Steps that leave `φ` alone leave it alone together. -/
theorem foldl_keeps {α β : Type} {φ : State → β} {g : State → α → State} {l : List α}
    (keep : ∀ s, ∀ a ∈ l, φ (g s a) = φ s) (s : State) : φ (l.foldl g s) = φ s := by
  induction l generalizing s with
  | nil => rfl
  | cons a l ih => exact (ih (fun s b hb => keep s b (List.mem_cons_of_mem a hb)) _).trans (keep s a List.mem_cons_self)

/-- What every step does, the fold does. -/
theorem foldl_rel {α : Type} {R : State → State → Prop} (refl : ∀ s, R s s) (trans : ∀ {s t u}, R s t → R t u → R s u)
    {g : State → α → State} (step : ∀ s a, R s (g s a)) (l : List α) (s : State) : R s (l.foldl g s) := by
  induction l generalizing s with
  | nil => exact refl s
  | cons a l ih => exact trans (step s a) (ih _)

/-- A fold over distinct indices has one step that `φ` sees: that of its own index. -/
theorem foldl_visits {α β : Type} {R : State → State → Prop} (refl : ∀ s, R s s) (trans : ∀ {s t u}, R s t → R t u → R s u)
    {g : State → α → State} (step : ∀ s a, R s (g s a)) {l : List α} (hd : l.Nodup) {k : α} (hk : k ∈ l) {φ : State → β}
    (keep : ∀ s, ∀ a ∈ l, a ≠ k → φ (g s a) = φ s) (s : State) :
    ∃ u, R s u ∧ φ u = φ s ∧ φ (l.foldl g s) = φ (g u k) ∧ R (g u k) (l.foldl g s) := by
  obtain ⟨before, after, rfl⟩ := List.append_of_mem hk
  obtain ⟨-, hd', apart⟩ := List.nodup_append.1 hd
  have notAfter : k ∉ after := (List.nodup_cons.1 hd').1
  refine ⟨before.foldl g s, foldl_rel refl trans step .., ?_, ?_, ?_⟩
  · exact foldl_keeps (fun s a ha => keep s a (List.mem_append_left _ ha) (apart a ha k List.mem_cons_self)) s
  · rw [List.foldl_append, List.foldl_cons]
    exact foldl_keeps (fun s a ha => keep s a (List.mem_append_right _ (List.mem_cons_of_mem k ha)) fun e => notAfter (e ▸ ha)) _
  · rw [List.foldl_append, List.foldl_cons]
    exact foldl_rel refl trans step ..

/-! ### Lists in rising order -/

theorem mem_insertRising {x n : Nat} {l : List Nat} : x ∈ insertRising n l ↔ x = n ∨ x ∈ l := by
  induction l with
  | nil => simp [insertRising]
  | cons k r ih =>
    unfold insertRising
    split
    · simp
    · split
      case isTrue e => simp [e]
      case isFalse => simp [ih, or_left_comm]

theorem insertRising_rises {n : Nat} {l : List Nat} (h : l.Pairwise (· < ·)) : (insertRising n l).Pairwise (· < ·) := by
  induction l with
  | nil => simp [insertRising]
  | cons k r ih =>
    obtain ⟨above, rises⟩ := List.pairwise_cons.1 h
    unfold insertRising
    split
    case isTrue low =>
      exact List.pairwise_cons.2 ⟨fun x hx => (List.mem_cons.1 hx).elim (fun e => e ▸ low) fun hx => low.trans (above x hx), h⟩
    case isFalse low =>
      split
      case isTrue => exact h
      case isFalse ne =>
        refine List.pairwise_cons.2 ⟨fun x hx => ?_, ih rises⟩
        rcases mem_insertRising.1 hx with rfl | hx
        · omega
        · exact above x hx

/-- The distinct members of a list, rising. -/
theorem rising_spec (l : List Nat) : (l.foldl (fun r i => insertRising i r) []).Nodup ∧
    ∀ x, x ∈ l.foldl (fun r i => insertRising i r) [] ↔ x ∈ l := by
  have steps (l r : List Nat) (h : r.Pairwise (· < ·)) : (l.foldl (fun r i => insertRising i r) r).Pairwise (· < ·) ∧
      ∀ x, x ∈ l.foldl (fun r i => insertRising i r) r ↔ x ∈ l ∨ x ∈ r := by
    induction l generalizing r with
    | nil => simp [h]
    | cons a l ih =>
      obtain ⟨rises, mem⟩ := ih _ (insertRising_rises h)
      refine ⟨rises, fun x => (mem x).trans ?_⟩
      rw [mem_insertRising, List.mem_cons]
      tauto
  obtain ⟨rises, mem⟩ := steps l [] .nil
  exact ⟨rises.imp Nat.ne_of_lt, fun x => by simp [mem x]⟩

/-! ### Deficit rounds (R205, R206) -/

/-- Only the state of the deficit rounds differs. -/
def OnlyRounds (s t : State) : Prop :=
  ∃ deficit granted rounds, t = { s with tm := { s.tm with deficit := deficit, granted := granted, rounds := rounds } }

theorem drrRun_mem {ms : List DrrMember} {n : Nat} {d : DrrState} {x : DrrMember × DrrState} (h : drrRun ms n d = some x) :
    x.1 ∈ ms := by
  induction n generalizing d with
  | zero => simp [drrRun] at h
  | succ n ih =>
    rw [drrRun] at h
    split at h
    · cases h
    case h_2 m turn =>
      extract_lets held at h
      split at h
      · obtain ⟨n, -, found⟩ := List.exists_of_findSome?_eq_some turn
        cases h
        exact List.mem_of_find?_eq_some found
      · exact ih h

theorem drrPick_some {ring : Nat} {ms : List DrrMember} {s : State} {x : DrrMember × State} (h : drrPick ring ms s = some x) :
    x.1 ∈ ms ∧ OnlyRounds s x.2 := by
  unfold drrPick at h
  obtain ⟨y, hy, rfl⟩ := Option.map_eq_some_iff.1 h
  exact ⟨drrRun_mem hy, _, _, _, rfl⟩

theorem drrPick_nil (ring : Nat) (s : State) : drrPick ring [] s = none := by
  have none (n : Nat) (d : DrrState) : drrRun [] n d = none := by
    cases n with
    | zero => rfl
    | succ n =>
      rw [drrRun, show d.order.findSome? (fun n => ([] : List DrrMember).find? fun m => m.num == n) = none by simp]
  exact congrArg (Option.map _) (none ..)

/-! ### Ready leaves and classes (R210) -/

theorem gateCloses_rounds {s t : State} (h : OnlyRounds s t) (p k : Nat) (g : GateRun) (fuel n e st : Nat) :
    gateCloses p k g t fuel n e st = gateCloses p k g s fuel n e st := by
  obtain ⟨_, _, _, rfl⟩ := h
  induction fuel generalizing n e st with
  | zero => rfl
  | succ fuel ih =>
    rw [gateCloses, gateCloses]
    dsimp only
    rw [ih]
    rfl

theorem readyLeaves_rounds {s t : State} (h : OnlyRounds s t) (p k : Nat) : readyLeaves p k t = readyLeaves p k s := by
  have fits (len : Nat) : gateFits p k len t = gateFits p k len s := by
    have closes := gateCloses_rounds h p k
    obtain ⟨_, _, _, rfl⟩ := h
    simp only [gateFits, closes]
    rfl
  obtain ⟨_, _, _, rfl⟩ := h
  simp only [readyLeaves, fits]
  rfl

/-- R204: the class that a class node gives strict precedence. -/
def classMode (p k : Nat) (s : State) : Nat := ((classNode s.cfg p k).map cnMode).getD 0

/-- R204: the eligible classes of a port. -/
def classesReady (p : Nat) (s : State) : List Nat := (List.range 8).filter fun k => classReady p k s

theorem mem_classesReady {p k : Nat} {s : State} : k ∈ classesReady p s ↔ k < 8 ∧ classReady p k s = true := by
  simp [classesReady]

/-- R205: the leaf that a class would send now. -/
def classLeaf (p k : Nat) (s : State) : Option (DrrMember × State) := drrPick (1000 + 8 * p + k) (readyLeaves p k s) s

/-- R205: the classes that share a port's deficit round. -/
def sharedMembers (p : Nat) (s : State) : List DrrMember :=
  (classesReady p s).filterMap fun k => (classLeaf p k s).map fun x =>
    ⟨k, classKey p k, ((classNode s.cfg p k).map cnWeight).getD 1, x.1.head⟩

theorem schedPick_strict {p k : Nat} {s : State} (h : ((classesReady p s).filter fun k => classMode p k s == 0).getLast? = some k) :
    schedPick p s = (classLeaf p k s).map fun x => (x.1.num, x.2) := by
  unfold schedPick
  dsimp only
  rw [show (((List.range 8).filter fun k => classReady p k s).filter fun k => ((classNode s.cfg p k).map cnMode).getD 0 == 0).getLast? =
    some k from h]
  rfl

theorem schedPick_shared {p : Nat} {s : State} (h : ((classesReady p s).filter fun k => classMode p k s == 0).getLast? = none) :
    schedPick p s = (drrPick p (sharedMembers p s) s).bind fun y => (classLeaf p y.1.num y.2).map fun x => (x.1.num, x.2) := by
  unfold schedPick
  dsimp only
  rw [show (((List.range 8).filter fun k => classReady p k s).filter fun k => ((classNode s.cfg p k).map cnMode).getD 0 == 0).getLast? =
    none from h]
  rfl

/-- The last member of a rising list is its greatest. -/
theorem le_of_getLast? {l : List Nat} (h : l.Pairwise (· < ·)) {k j : Nat} (hk : l.getLast? = some k) (hj : j ∈ l) : j ≤ k := by
  obtain ⟨ys, rfl⟩ := List.getLast?_eq_some_iff.1 hk
  rcases List.mem_append.1 hj with hj | hj
  · exact ((List.pairwise_append.1 h).2.2 j hj k (List.mem_singleton_self k)).le
  · exact (List.mem_singleton.1 hj).le

/-- R204, R210: what scheduling chooses. -/
theorem schedPick_spec {p : Nat} {s : State} {x : Nat × State} (h : schedPick p s = some x) : OnlyRounds s x.2 ∧
    ∃ k, k < 8 ∧ classReady p k s = true ∧ x.1 ∈ (readyLeaves p k s).map (·.num) ∧
      ∀ j, j < 8 → classReady p j s = true → classMode p j s = 0 → classMode p k s = 0 ∧ j ≤ k := by
  have strictMem {k : Nat} : k ∈ (classesReady p s).filter (fun k => classMode p k s == 0) ↔
      (k < 8 ∧ classReady p k s = true) ∧ classMode p k s = 0 := by
    simp [mem_classesReady]
  cases last : ((classesReady p s).filter fun k => classMode p k s == 0).getLast? with
  | some k =>
    rw [schedPick_strict last] at h
    obtain ⟨y, hy, rfl⟩ := Option.map_eq_some_iff.1 h
    obtain ⟨leaf, rounds⟩ := drrPick_some hy
    obtain ⟨⟨small, ready⟩, strict⟩ := strictMem.1 (List.mem_of_getLast? last)
    refine ⟨rounds, k, small, ready, List.mem_map_of_mem leaf, fun j hj hr hs => ⟨strict, ?_⟩⟩
    have rises : ((classesReady p s).filter fun k => classMode p k s == 0).Pairwise (· < ·) :=
      (List.pairwise_lt_range.filter _).filter _
    exact le_of_getLast? rises last (strictMem.2 ⟨⟨hj, hr⟩, hs⟩)
  | none =>
    rw [schedPick_shared last] at h
    obtain ⟨y, hy, hx⟩ := Option.bind_eq_some_iff.1 h
    obtain ⟨z, hz, rfl⟩ := Option.map_eq_some_iff.1 hx
    obtain ⟨member, rounds⟩ := drrPick_some hy
    obtain ⟨leaf, rounds'⟩ := drrPick_some hz
    obtain ⟨k, hk, hm⟩ := List.mem_filterMap.1 member
    obtain ⟨w, -, hw⟩ := Option.map_eq_some_iff.1 hm
    have num : y.1.num = k := by rw [← hw]
    obtain ⟨small, ready⟩ := mem_classesReady.1 hk
    rw [num, readyLeaves_rounds rounds] at leaf
    have noStrict : (classesReady p s).filter (fun k => classMode p k s == 0) = [] := List.getLast?_eq_none_iff.1 last
    refine ⟨?_, k, small, ready, List.mem_map_of_mem leaf, fun j hj hr hs => ?_⟩
    · obtain ⟨_, _, _, e⟩ := rounds
      obtain ⟨_, _, _, e'⟩ := rounds'
      exact ⟨_, _, _, by rw [e', e]⟩
    · have := strictMem.2 ⟨⟨hj, hr⟩, hs⟩
      rw [noStrict] at this
      cases this

/-- R210: without an eligible class nothing is chosen. -/
theorem schedPick_none {p : Nat} {s : State} (h : ∀ k, k < 8 → classReady p k s = false) : schedPick p s = none := by
  have empty : classesReady p s = [] := by
    refine List.eq_nil_iff_forall_not_mem.2 fun k hk => ?_
    obtain ⟨small, ready⟩ := mem_classesReady.1 hk
    exact absurd (ready.symm.trans (h k small)) (by decide)
  rw [schedPick_shared (by rw [empty]; rfl), sharedMembers, empty, List.filterMap_nil, drrPick_nil]
  rfl

end Sys2Proof.Machine
end

section
/-! SUPPORT. The head of a leaf goes to its wire, and a copy leaves its wire (R181, R204, R207, R217). -/
namespace Sys2Proof.Machine

/-! ### The head of a leaf goes to its wire (R204, R217) -/

/-- Only the traffic manager differs, of the registers only the stall of leaf `q`, and every leaf has its queue. -/
structure Turned (q : Nat) (s t : State) : Prop where
  parts : ∃ regs tm, t = { s with regs := regs, tm := tm }
  queues : t.tm.queues = s.tm.queues
  fields : KeepsFields [F.TM_LEAF_STATUS_STALLED.key q] s t

namespace Turned

theorem refl (q : Nat) (s : State) : Turned q s s := ⟨⟨_, _, rfl⟩, rfl, fun _ _ _ => rfl⟩

theorem trans {q : Nat} {s t u : State} (h : Turned q s t) (k : Turned q t u) : Turned q s u := by
  obtain ⟨_, _, ht⟩ := h.parts
  obtain ⟨_, _, hu⟩ := k.parts
  exact ⟨⟨_, _, by rw [hu, ht]⟩, k.queues.trans h.queues,
    fun f i n => (k.fields f i n).trans (h.fields f i n)⟩

theorem ite {q : Nat} {s a b : State} {c : Prop} [Decidable c] (h : Turned q s a) (k : Turned q s b) :
    Turned q s (if c then a else b) := by split <;> assumption

theorem stalled (q : Nat) (b : Bool) (s : State) : Turned q s (setFlag F.TM_LEAF_STATUS_STALLED q b s) :=
  ⟨⟨_, _, rfl⟩, rfl, KeepsFields.setFlag (t := s) (fun _ _ _ => rfl) (List.mem_singleton_self _)⟩

end Turned

theorem drrJoin_turned (q ring m : Nat) (s : State) : Turned q s (drrJoin ring m s) := by
  unfold drrJoin
  exact .ite (.refl q s) ⟨⟨_, _, rfl⟩, rfl, fun _ _ _ => rfl⟩

theorem drrEmptied_turned (q ring m key : Nat) (s : State) : Turned q s (drrEmptied ring m key s) :=
  ⟨⟨_, _, rfl⟩, rfl, fun _ _ _ => rfl⟩

theorem nodePass_turned (q k len : Nat) (s : State) : Turned q s (nodePass k len s) := by
  unfold nodePass
  exact .ite ⟨⟨_, _, rfl⟩, rfl, fun _ _ _ => rfl⟩ (.refl q s)

/-- R217: when a leaf last sent. -/
theorem lastSent_turned (q : Nat) (x : Tab Nat) (s : State) : Turned q s { s with tm := { s.tm with lastSent := x } } :=
  ⟨⟨_, _, rfl⟩, rfl, fun _ _ _ => rfl⟩

/-- R205, R217: setting a leaf's queue. -/
theorem setLeafQueue_turned (q : Nat) (l : List Copy) (s : State) :
    Turned q { s with tm := { s.tm with queues := Tab.set [] s.tm.queues q l } } (setLeafQueue q l s) := by
  unfold setLeafQueue
  extract_lets tm old put left
  split
  · have ended : Turned q put left := by
      unfold left
      clear_value old
      split
      · exact (drrEmptied_turned ..).trans (.ite (.refl q _) (drrEmptied_turned ..))
      · exact .refl q _
    exact ended.trans ((lastSent_turned ..).trans (.stalled ..))
  · split
    · split
      · exact (lastSent_turned ..).trans ((drrJoin_turned ..).trans (drrJoin_turned ..))
      · exact lastSent_turned ..
    · exact .refl q _

/-- R204, R207, R217: the head of a leaf goes to the wire of its port. -/
theorem startFrame_spec {p q : Nat} {c : Copy} {r : List Copy} {s : State} (h : leafQueue q s = c :: r) : ∀ t, t = startFrame p q s →
    Tab.find? t.ports.wire p = some { c with tDeq := nowNs s } ∧ leafQueue q t = r ∧
    (∀ q', q' ≠ q → leafQueue q' t = leafQueue q' s) ∧ flag F.TM_LEAF_STATUS_STALLED q t = false ∧
    KeepsFields [F.TM_LEAF_STATUS_STALLED.key q] s t ∧ t.mem = s.mem ∧ t.out = s.out := by
  rintro _ rfl
  unfold startFrame
  rw [h]
  dsimp only
  have passed : Turned q s (nodePass (portKey p) c.len (nodePass (classKey p c.cls) c.len (nodePass (leafKey q) c.len s))) :=
    (nodePass_turned ..).trans ((nodePass_turned ..).trans (nodePass_turned ..))
  generalize nodePass (portKey p) c.len _ = u at passed
  obtain ⟨_, _, hu⟩ := passed.parts
  have fields := passed.fields
  have queues : u.tm.queues = s.tm.queues := passed.queues
  have stored : Turned q { u with tm := { u.tm with queues := Tab.set [] u.tm.queues q r } }
      (setFlag F.TM_LEAF_STATUS_STALLED q false (setLeafQueue q r u)) := (setLeafQueue_turned ..).trans (.stalled ..)
  have running : flag F.TM_LEAF_STATUS_STALLED q (setFlag F.TM_LEAF_STATUS_STALLED q false (setLeafQueue q r u)) = false :=
    flag_setFlag_same _ _ _ _ rfl
  generalize setFlag F.TM_LEAF_STATUS_STALLED q false _ = v at stored running
  have sent : Turned q v (if r.isEmpty then v else { v with tm := { v.tm with lastSent := Tab.put v.tm.lastSent q v.time.cclk } }) :=
    .ite (.refl q v) (lastSent_turned ..)
  have regs : (if r.isEmpty then v else { v with tm := { v.tm with lastSent := Tab.put v.tm.lastSent q v.time.cclk } }).regs = v.regs := by
    split <;> rfl
  generalize (if r.isEmpty then v else _) = w at sent regs
  have all := stored.trans sent
  obtain ⟨_, _, hw⟩ := all.parts
  have set : w.tm.queues = Tab.set [] s.tm.queues q r := all.queues.trans (congrArg (Tab.set [] · q r) queues)
  have now : nowNs w = nowNs s := by rw [hw, hu]; rfl
  refine ⟨(Tab.find?_put_same ..).trans (by rw [now]), ?_, fun q' ne => ?_, (flag_congr regs).trans running,
    fun f i n => (all.fields f i n).trans (fields f i n), by rw [hw, hu], by rw [hw, hu]⟩
  · exact (congrArg (Tab.get [] · q) set).trans (Tab.get_set_same ..)
  · exact (congrArg (Tab.get [] · q') set).trans (Tab.get_set_ne _ _ _ _ ne)

theorem OnlyRounds.frame {s t : State} (h : OnlyRounds s t) : t.tm.queues = s.tm.queues ∧ t.regs = s.regs ∧ t.mem = s.mem ∧
    t.out = s.out ∧ t.time = s.time := by
  obtain ⟨_, _, _, rfl⟩ := h
  exact ⟨rfl, rfl, rfl, rfl, rfl⟩

theorem schedulerSelect_completes {p : Port} {s : State} (hp : portReady p s = true) {x : Nat × State}
    (hx : schedPick p s = some x) {c : Copy} {r : List Copy} (hq : leafQueue x.1 s = c :: r) :
    Completes (.schedulerSelect p) s fun t =>
      Tab.find? t.ports.wire p = some { c with tDeq := nowNs s } ∧ leafQueue x.1 t = r ∧
      (∀ q, q ≠ x.1 → leafQueue q t = leafQueue q s) ∧ flag F.TM_LEAF_STATUS_STALLED x.1 t = false ∧
      KeepsFields [F.TM_LEAF_STATUS_STALLED.key x.1] s t ∧ t.mem = s.mem ∧ t.out = s.out := by
  have step : exec (.schedulerSelect p) s = .next (startFrame p x.1 x.2) := by
    refine congrArg Host.Outcome.next ((if_neg (by simp [hp])).trans ?_)
    rw [hx]
  obtain ⟨rounds, -⟩ := schedPick_spec hx
  obtain ⟨queues, regs, mem, out, time⟩ := rounds.frame
  have queue (q : Nat) : leafQueue q x.2 = leafQueue q s := congrArg (Tab.get [] · q) queues
  obtain ⟨wire, head, others, stall, fields, mem', out'⟩ := startFrame_spec (p := p) ((queue x.1).trans hq) _ rfl
  have now : nowNs x.2 = nowNs s := congrArg (fun t : TimeUnit => t.ptp / 2 ^ 28) time
  exact .intro step ⟨wire.trans (by rw [now]), head, fun q ne => (others q ne).trans (queue q), stall,
    fun f i n => (fields f i n).trans (fget_congr regs), mem'.trans mem, out'.trans out⟩

theorem schedulerSelect_idle {p : Port} {s : State} (h : portReady p s = false ∨ ∀ k, k < 8 → classReady p k s = false) :
    Completes (.schedulerSelect p) s fun t => t = s := by
  refine .intro (congrArg Host.Outcome.next ?_) rfl
  unfold schedule
  split
  · rfl
  case isFalse ready =>
    rcases h with h | h
    · exact absurd (by rw [h]; rfl) ready
    · rw [schedPick_none h]

/-! ### A copy leaves its wire (R83, R181) -/

/-- What the egress MAC changes: the ports, the counters and the trace. -/
def OnlyMac (s t : State) : Prop := ∃ ports counters trc, t = { s with ports := ports, counters := counters, trc := trc }

namespace OnlyMac

theorem refl (s : State) : OnlyMac s s := ⟨_, _, _, rfl⟩

theorem trans {s t u : State} (h : OnlyMac s t) (k : OnlyMac t u) : OnlyMac s u := by
  obtain ⟨_, _, _, rfl⟩ := h
  obtain ⟨_, _, _, rfl⟩ := k
  exact ⟨_, _, _, rfl⟩

theorem ite {s a b : State} {c : Prop} [Decidable c] (h : OnlyMac s a) (k : OnlyMac s b) : OnlyMac s (if c then a else b) := by
  split <;> assumption

theorem frame {s t : State} (h : OnlyMac s t) : t.mem = s.mem ∧ t.tm.queues = s.tm.queues ∧ t.out = s.out := by
  obtain ⟨_, _, _, rfl⟩ := h
  exact ⟨rfl, rfl, rfl⟩

end OnlyMac

theorem macCnt_onlyMac (p k n : Nat) (s : State) : OnlyMac s (macCnt p k n s) := by
  rw [macCnt_parts]
  exact ⟨_, _, _, rfl⟩

theorem txtsPush_onlyMac (p id ns sec : Nat) (s : State) : OnlyMac s (txtsPush p id ns sec s) := by
  unfold txtsPush
  exact .ite ⟨_, _, _, rfl⟩ ⟨_, _, _, rfl⟩

theorem setSa_onlyMac (k an : Nat) (a : Sa) (s : State) : OnlyMac s (setSa k an a s) := by
  unfold setSa
  split
  · exact ⟨_, _, _, rfl⟩
  · exact .refl s

theorem ptpTx_onlyMac (p ingMac tIn now : Nat) (relayed fromPort : Bool) (b : Bytes) (s : State) :
    OnlyMac s (ptpTx p ingMac tIn now relayed fromPort b s).2 := by
  unfold ptpTx
  split
  · exact .refl s
  · split
    · exact .refl s
    · extract_lets ty tc res b1 one b2 u id
      split
      · exact .refl s
      · split
        · exact macCnt_onlyMac ..
        · exact (macCnt_onlyMac ..).trans (txtsPush_onlyMac ..)

theorem macsecTx_onlyMac (p : Nat) (b : Bytes) (s : State) : OnlyMac s (macsecTx p b s).2 := by
  unfold macsecTx
  split
  · exact .refl s
  · split
    · exact .refl s
    · exact (setSa_onlyMac ..).trans ((macCnt_onlyMac ..).trans (.ite (macCnt_onlyMac ..) (.refl _)))

theorem egressBytes_onlyMac (p : Nat) (c : Copy) (s : State) : OnlyMac s (egressBytes p c s).2 := by
  unfold egressBytes
  extract_lets f x y fcs
  split
  · exact macCnt_onlyMac ..
  · split
    · exact .refl s
    · exact (ptpTx_onlyMac ..).trans (macsecTx_onlyMac ..)

/-- R83: at a port without MACsec and PTP a copy leaves as it is, up to the MTU. -/
theorem egressBytes_plain {p : Nat} {c : Copy} {s : State} (hs : portMacsec s.cfg p = false) (hp : portPtp s.cfg p = false) :
    egressBytes p c s = if portMtu s.cfg p < c.bytes.length + 4 then (none, macCnt p 18 1 s)
      else (some (c.bytes ++ if c.bad then (fcsOf c.bytes).map (fun b => ~~~ b) else fcsOf c.bytes), s) := by
  have ptp (a b d : Nat) (f g : Bool) : ptpTx p a b d f g c.bytes s = (c.bytes, s) := if_pos (by rw [hp]; rfl)
  have sec : macsecTx p c.bytes s = (c.bytes, s) := if_pos (by rw [hs]; rfl)
  have len : secLen p c.bytes s.cfg = 0 := if_neg (by simp [hs])
  have free : macsecHeld p s = false := by rw [macsecHeld, hs]; rfl
  unfold egressBytes
  dsimp only
  rw [ptp, len, free, sec]
  rfl

/-- R181: the wire of a port is free again and the copy's cells are back. -/
def wireFreed (p : Nat) (c : Copy) (s : State) : State :=
  releaseCells c { s with ports := { s.ports with wire := Tab.del s.ports.wire p } }

theorem wireFreed_spec (p : Nat) (c : Copy) (s : State) : ∀ t, t = wireFreed p c s → Tab.find? t.ports.wire p = none ∧
    t.mem = s.mem ∧ t.tm.queues = s.tm.queues ∧ t.out = s.out ∧
    ∀ n, macSlot n → Tab.get 0 t.counters n = Tab.get 0 s.counters n := by
  rintro _ rfl
  have back := releaseCells_released c { s with ports := { s.ports with wire := Tab.del s.ports.wire p } }
  exact ⟨(congrArg (fun x : Ports => Tab.find? x.wire p) back.ports).trans (Tab.find?_del_same ..), back.mem, back.queues, back.out, back.mac⟩

/-- R550, R559: the counts of a copy of `n` bytes that left at `t`, those of its port apart. -/
def copyCounted (p : Nat) (c : Copy) (n t : Nat) (s : State) : State :=
  let s := leafCnt c.leaf 1 c.len (leafCnt c.leaf 0 1 s)
  let s := if bwOpen s then { s with trc := { s.trc with txNow := Tab.mod 0 s.trc.txNow p (· + (n + 20)) } } else s
  histCnt c.ingMac (histBin ((t - c.tIn) % 2 ^ 64)) s

theorem copyCounted_released (p : Nat) (c : Copy) (n t : Nat) (s : State) : Released s (copyCounted p c n t s) := by
  unfold copyCounted
  generalize histBin _ = b
  exact ((leafCnt_released ..).trans (leafCnt_released ..)).trans
    ((Released.ite (.rest _ _ _ _ _ _) (.refl _)).trans (histCnt_released ..))

/-- R549: a copy that left as `b` is counted and told. -/
def copySent (p : Nat) (c : Copy) (b : Bytes) (s : State) : State :=
  copyGone c.frame true (postcard c .sent (egressStamp p c s) (emit (.frame p b)
    (copyCounted p c b.length (egressStamp p c s) (macCnt p 17 b.length (macCnt p 16 1 s)))))

theorem finishFrame_eq {p : Nat} {c : Copy} {s : State} (h : Tab.find? s.ports.wire p = some c) (hc : c.cutThrough = false) :
    ((egressBytes p c s).1 = none → finishFrame p s =
      copyGone c.frame false (postcard c .dropped 0 (wireFreed p c (egressBytes p c s).2))) ∧
    ∀ b, (egressBytes p c s).1 = some b → finishFrame p s = copySent p c b (wireFreed p c (egressBytes p c s).2) := by
  unfold finishFrame wireFreed
  rw [h]
  dsimp only
  rw [if_neg (by simp [hc])]
  generalize egressBytes p c s = x
  obtain ⟨o, u⟩ := x
  dsimp only
  generalize releaseCells c _ = v
  cases o with
  | none => exact ⟨fun _ => rfl, fun b h => (nomatch h)⟩
  | some b =>
    refine ⟨fun h => (nomatch h), fun b' h => ?_⟩
    obtain rfl : b = b' := Option.some.inj h
    dsimp only
    unfold copySent copyCounted
    dsimp only

theorem macSlot_of_port {p k : Nat} (hp : p < 256) (hk : k < 32) : macSlot ((145 * 65536 + p * 256 + k * 8) / 8) := by
  unfold macSlot
  omega

theorem macCnt_ports (p k n : Nat) (s : State) : (macCnt p k n s).ports = s.ports := by rw [macCnt_parts]

/-- R549: a count of one kind leaves that of another. -/
theorem get_macCnt_ne {j k : Nat} (h : j ≠ k) (p n : Nat) (s : State) :
    Tab.get 0 (macCnt p k n s).counters ((145 * 65536 + p * 256 + j * 8) / 8) =
      Tab.get 0 s.counters ((145 * 65536 + p * 256 + j * 8) / 8) := get_cntBy_ne (by omega) n s

theorem copySent_spec {p : Nat} (hp : p < 256) (c : Copy) (b : Bytes) (s : State) : ∀ t, t = copySent p c b s →
    t.ports = s.ports ∧ t.mem = s.mem ∧ t.tm.queues = s.tm.queues ∧ t.out = .frame p b :: s.out ∧
    Tab.get 0 t.counters ((145 * 65536 + p * 256 + 16 * 8) / 8) =
      (Tab.get 0 s.counters ((145 * 65536 + p * 256 + 16 * 8) / 8) + 1) % 2 ^ 64 ∧
    Tab.get 0 t.counters ((145 * 65536 + p * 256 + 17 * 8) / 8) =
      (Tab.get 0 s.counters ((145 * 65536 + p * 256 + 17 * 8) / 8) + b.length) % 2 ^ 64 := by
  intro t h
  unfold copySent at h
  generalize egressStamp p c s = x at h
  have counted := copyCounted_released p c b.length x (macCnt p 17 b.length (macCnt p 16 1 s))
  generalize copyCounted p c b.length x _ = u at h counted
  have ended : Released (emit (.frame p b) u) t := by
    rw [h]
    exact (postcard_released ..).trans (copyGone_released ..)
  have mac (k : Nat) (hk : k < 32) := (ended.mac _ (macSlot_of_port hp hk)).trans (counted.mac _ (macSlot_of_port hp hk))
  have ports := (macCnt_ports p 17 b.length (macCnt p 16 1 s)).trans (macCnt_ports ..)
  have other : OnlyMac s (macCnt p 17 b.length (macCnt p 16 1 s)) := (macCnt_onlyMac ..).trans (macCnt_onlyMac ..)
  obtain ⟨mem, queues, out⟩ := other.frame
  refine ⟨ended.ports.trans (counted.ports.trans ports), ended.mem.trans (counted.mem.trans mem),
    ended.queues.trans (counted.queues.trans queues),
    ended.out.trans (congrArg (Out.frame p b :: ·) (counted.out.trans out)), (mac 16 (by decide)).trans ?_, (mac 17 (by decide)).trans ?_⟩
  · rw [get_macCnt_ne (by decide), macCnt_counts]
  · rw [macCnt_counts, get_macCnt_ne (by decide)]

/-- R83, R181: the copy on the wire of a port leaves it. -/
theorem finishFrame_spec {p : Nat} (hp : p < 256) {c : Copy} {s : State} (h : Tab.find? s.ports.wire p = some c)
    (hc : c.cutThrough = false) : ∀ t, t = finishFrame p s →
    Tab.find? t.ports.wire p = none ∧ t.mem = s.mem ∧ t.tm.queues = s.tm.queues ∧
    (portMacsec s.cfg p = false → portPtp s.cfg p = false →
      (c.bytes.length + 4 ≤ portMtu s.cfg p →
        t.out = .frame p (c.bytes ++ if c.bad then (fcsOf c.bytes).map (fun b => ~~~ b) else fcsOf c.bytes) :: s.out ∧
        Tab.get 0 t.counters ((145 * 65536 + p * 256 + 16 * 8) / 8) =
          (Tab.get 0 s.counters ((145 * 65536 + p * 256 + 16 * 8) / 8) + 1) % 2 ^ 64 ∧
        Tab.get 0 t.counters ((145 * 65536 + p * 256 + 17 * 8) / 8) =
          (Tab.get 0 s.counters ((145 * 65536 + p * 256 + 17 * 8) / 8) + (c.bytes.length + 4)) % 2 ^ 64) ∧
      (portMtu s.cfg p < c.bytes.length + 4 → t.out = s.out ∧
        Tab.get 0 t.counters ((145 * 65536 + p * 256 + 18 * 8) / 8) =
          (Tab.get 0 s.counters ((145 * 65536 + p * 256 + 18 * 8) / 8) + 1) % 2 ^ 64)) := by
  rintro _ rfl
  obtain ⟨lost, sent⟩ := finishFrame_eq h hc
  have mac := egressBytes_onlyMac p c s
  have plain := egressBytes_plain (p := p) (c := c) (s := s)
  generalize egressBytes p c s = x at lost sent mac plain
  obtain ⟨o, u⟩ := x
  obtain ⟨wire, mem, queues, out, slots⟩ := wireFreed_spec p c u _ rfl
  obtain ⟨mem', queues', -⟩ := mac.frame
  cases o with
  | none =>
    have ended : Released (wireFreed p c u) (copyGone c.frame false (postcard c .dropped 0 (wireFreed p c u))) :=
      (postcard_released ..).trans (copyGone_released ..)
    rw [lost rfl]
    refine ⟨by rw [ended.ports, wire], ended.mem.trans (mem.trans mem'), ended.queues.trans (queues.trans queues'), fun hs hp' => ?_⟩
    have long := plain hs hp'
    have beyond : portMtu s.cfg p < c.bytes.length + 4 := by
      by_contra fits
      rw [if_neg fits] at long
      cases (Prod.mk.inj long).1
    rw [if_pos beyond] at long
    obtain rfl := (Prod.mk.inj long).2
    refine ⟨fun fits => absurd fits (Nat.not_le.2 beyond), fun _ => ⟨?_, ?_⟩⟩
    · exact ended.out.trans (out.trans (by rw [macCnt_parts]))
    · rw [ended.mac _ (macSlot_of_port hp (by decide)), slots _ (macSlot_of_port hp (by decide)), macCnt_counts]
  | some b =>
    obtain ⟨ports, sentMem, sentQueues, out', frames, bytes⟩ := copySent_spec hp c b (wireFreed p c u) _ rfl
    rw [sent b rfl]
    refine ⟨by rw [ports, wire], sentMem.trans (mem.trans mem'), sentQueues.trans (queues.trans queues'), fun hs hp' => ?_⟩
    have short := plain hs hp'
    have fits : ¬ portMtu s.cfg p < c.bytes.length + 4 := by
      intro beyond
      rw [if_pos beyond] at short
      cases (Prod.mk.inj short).1
    rw [if_neg fits] at short
    obtain ⟨hb, rfl⟩ := Prod.mk.inj short
    have hb := Option.some.inj hb
    have four : b.length = c.bytes.length + 4 := by
      rw [hb]
      split <;> simp [fcsOf, leBytes]
    refine ⟨fun _ => ⟨?_, ?_, ?_⟩, fun beyond => absurd beyond fits⟩
    · rw [out', out, hb]
    · rw [frames, slots _ (macSlot_of_port hp (by decide))]
    · rw [bytes, slots _ (macSlot_of_port hp (by decide)), four]

end Sys2Proof.Machine
end

section
/-! SUPPORT and CERTIFICATE. Pauses and shapers (R207 to R209); O16. -/
namespace Sys2Proof.Machine

/-! ### Tables at other keys -/

theorem Tab.get_eq_find? {α : Type} (d : α) (t : Tab α) (n : Nat) : Tab.get d t n = (Tab.find? t n).getD d := by
  induction t with
  | nil => rfl
  | cons p r ih =>
    obtain ⟨k, v⟩ := p
    by_cases h : k = n
    · simp [Tab.get, Tab.find?, h]
    · simpa [Tab.get, Tab.find?, h] using ih

/-- The value at a key, as the value of the table of its values. -/
theorem Tab.find?_eq_get {α : Type} (t : Tab α) (n : Nat) : Tab.find? t n = Tab.get none (t.map fun x => (x.1, some x.2)) n := by
  induction t with
  | nil => rfl
  | cons p r ih =>
    obtain ⟨k, v⟩ := p
    by_cases h : k = n
    · simp [Tab.get, Tab.find?, h]
    · simpa [Tab.get, Tab.find?, h] using ih

theorem Tab.find?_del_ne {α : Type} (t : Tab α) {n m : Nat} (h : m ≠ n) : Tab.find? (Tab.del t n) m = Tab.find? t m := by
  rw [Tab.find?_eq_get, Tab.find?_eq_get, ← Tab.get_del_ne none (t.map fun x => (x.1, some x.2)) h, Tab.del, Tab.del, List.filter_map]
  rfl

theorem Tab.find?_put_ne {α : Type} (t : Tab α) {n m : Nat} (v : α) (h : m ≠ n) : Tab.find? (Tab.put t n v) m = Tab.find? t m := by
  have ins (u : Tab α) : (Tab.ins n v u).map (fun x => (x.1, some x.2)) = Tab.ins n (some v) (u.map fun x => (x.1, some x.2)) := by
    induction u with
    | nil => rfl
    | cons p r ih => by_cases hl : n < p.1 <;> simp [Tab.ins, hl, ih]
  rw [Tab.put, Tab.find?_eq_get, ins, Tab.get_ins_ne none _ _ h, ← Tab.find?_eq_get, Tab.find?_del_ne t h]

/-! ### The classes that a port pauses (R209) -/

/-- The mask of paused classes with class `k` paused or not. -/
def maskSet (m k : Nat) (b : Bool) : Nat := (if bit m k then m - 2 ^ k else m) + if b then 2 ^ k else 0

theorem maskSet_eq (m k : Nat) (b : Bool) : maskSet m k b = 2 ^ k * (2 * (m / 2 ^ k / 2) + b2n b) + m % 2 ^ k := by
  have whole := Nat.div_add_mod m (2 ^ k)
  have half := Nat.div_add_mod (m / 2 ^ k) 2
  have on : bit m k = decide (m / 2 ^ k % 2 = 1) := Nat.testBit_eq_decide_div_mod_eq
  generalize m / 2 ^ k = h at whole half on
  generalize m % 2 ^ k = r at whole
  generalize hx : 2 ^ k = x at whole
  rw [maskSet, on, hx, Nat.mul_add, Nat.mul_left_comm]
  have grown : x * h = 2 * (x * (h / 2)) + x * (h % 2) := by
    rw [← Nat.mul_left_comm, ← Nat.mul_add, half]
  rcases Nat.mod_two_eq_zero_or_one h with e | e <;> cases b <;> simp [e, b2n] at * <;> omega

theorem testBit_maskSet (m k j : Nat) (b : Bool) : (maskSet m k b).testBit j = if j = k then b else m.testBit j := by
  rw [maskSet_eq, Nat.testBit_two_pow_mul_add _ (Nat.mod_lt m (Nat.two_pow_pos k))]
  rcases lt_trichotomy j k with h | rfl | h
  · rw [if_pos h, if_neg h.ne, Nat.testBit_mod_two_pow, decide_eq_true h, Bool.true_and]
  · rw [if_neg (lt_irrefl j), if_pos rfl, Nat.sub_self, Nat.testBit_zero]
    cases b <;> simp [b2n]
  · obtain ⟨n, rfl⟩ := Nat.exists_eq_add_of_lt h
    have half : (2 * (m / 2 ^ k / 2) + b2n b) / 2 = m / 2 ^ k / 2 := by cases b <;> simp [b2n]; omega
    rw [if_neg h.le.not_gt, if_neg h.ne', show k + n + 1 - k = n + 1 by omega, Nat.testBit_succ, half, ← Nat.testBit_succ,
      Nat.testBit_div_two_pow, show n.succ + k = k + n + 1 by omega]

theorem setPause_eq (p k q : Nat) (s : State) : ∃ x, setPause p k q s =
    { fset F.TM_PORT_PAUSED_CLASS p (maskSet (fget F.TM_PORT_PAUSED_CLASS p s) k (decide (q ≠ 0))) s with
      tm := { s.tm with pauseUntil := x } } ∧ (∀ j, j ≠ p * 8 + k → Tab.find? x j = Tab.find? s.tm.pauseUntil j) ∧
    (q ≠ 0 → Tab.find? x (p * 8 + k) = some (s.time.cclk + ceilDiv (q * 512 * 8) (5 * portGbps s.cfg p))) := by
  unfold setPause maskSet
  dsimp only
  split
  case isTrue zero =>
    subst zero
    exact ⟨_, rfl, fun j ne => Tab.find?_del_ne _ ne, fun h => absurd rfl h⟩
  case isFalse some =>
    rw [decide_eq_true some]
    exact ⟨_, rfl, fun j ne => Tab.find?_put_ne _ _ ne, fun _ => Tab.find?_put_same ..⟩

/-- R209: what pauses leave. -/
structure PauseKept (p : Nat) (s t : State) : Prop where
  parts : ∃ regs tm, t = { s with regs := regs, tm := tm }
  queues : t.tm.queues = s.tm.queues
  fields : KeepsFields [F.TM_PORT_PAUSED_CLASS.key p] s t

namespace PauseKept

theorem refl (p : Nat) (s : State) : PauseKept p s s := ⟨⟨_, _, rfl⟩, rfl, fun _ _ _ => rfl⟩

theorem trans {p : Nat} {s t u : State} (h : PauseKept p s t) (k : PauseKept p t u) : PauseKept p s u := by
  obtain ⟨_, _, ht⟩ := h.parts
  obtain ⟨_, _, hu⟩ := k.parts
  exact ⟨⟨_, _, by rw [hu, ht]⟩, k.queues.trans h.queues, fun f i n => (k.fields f i n).trans (h.fields f i n)⟩

theorem frame {p : Nat} {s t : State} (h : PauseKept p s t) : t.mem = s.mem ∧ t.time = s.time ∧ t.cfg = s.cfg ∧ t.pipe = s.pipe ∧
    t.counters = s.counters := by
  obtain ⟨_, _, ht⟩ := h.parts
  rw [ht]
  exact ⟨rfl, rfl, rfl, rfl, rfl⟩

end PauseKept

theorem setPause_pauseKept (p k q : Nat) (s : State) : PauseKept p s (setPause p k q s) := by
  obtain ⟨x, h, -⟩ := setPause_eq p k q s
  rw [h]
  exact ⟨⟨_, _, rfl⟩, rfl, KeepsFields.fset (t := s) (fun _ _ _ => rfl) (List.mem_singleton_self _)⟩

theorem pausedAt_setPause {p k j q : Nat} (hj : j < 8) (s : State) :
    pausedAt p j (setPause p k q s) = if j = k then decide (q ≠ 0) else pausedAt p j s := by
  obtain ⟨x, h, -⟩ := setPause_eq p k q s
  have mask : fget F.TM_PORT_PAUSED_CLASS p (setPause p k q s) =
      maskSet (fget F.TM_PORT_PAUSED_CLASS p s) k (decide (q ≠ 0)) % 2 ^ 8 := by
    rw [h]
    exact fget_fset_same F.TM_PORT_PAUSED_CLASS p _ s
  rw [pausedAt, mask, bit, Nat.testBit_mod_two_pow, decide_eq_true hj, Bool.true_and, testBit_maskSet]
  rfl

/-- R209: a class's pause and its end. -/
def pauseOf (p k : Nat) (s : State) : Bool × Option Nat := (pausedAt p k s, Tab.find? s.tm.pauseUntil (p * 8 + k))

theorem pauseOf_setPause_ne {p k j : Nat} (h : j ≠ k) (hj : j < 8) (q : Nat) (s : State) :
    pauseOf p j (setPause p k q s) = pauseOf p j s := by
  have paused : pausedAt p j (setPause p k q s) = pausedAt p j s := (pausedAt_setPause hj s).trans (if_neg h)
  obtain ⟨x, e, others, -⟩ := setPause_eq p k q s
  have until_ : Tab.find? (setPause p k q s).tm.pauseUntil (p * 8 + j) = Tab.find? s.tm.pauseUntil (p * 8 + j) := by
    rw [e]
    exact others _ (by omega)
  rw [pauseOf, paused, until_]; rfl

/-- R209: setting the pauses of the classes that `b` names, each by its quanta. -/
theorem setPauses_spec (p : Nat) (b : Nat → Bool) (q : Nat → Nat) (s : State) : ∀ t,
    t = (List.range 8).foldl (fun s k => if b k then setPause p k (q k) s else s) s → PauseKept p s t ∧
    ∀ k, k < 8 → pausedAt p k t = (if b k then decide (q k ≠ 0) else pausedAt p k s) ∧
      (b k = true → q k ≠ 0 → Tab.find? t.tm.pauseUntil (p * 8 + k) =
        some (s.time.cclk + ceilDiv (q k * 512 * 8) (5 * portGbps s.cfg p))) := by
  intro t ht
  have step (s : State) (k : Nat) : PauseKept p s (if b k then setPause p k (q k) s else s) := by
    split
    · exact setPause_pauseKept ..
    · exact .refl p s
  have kept : PauseKept p s t := ht ▸ foldl_rel (R := PauseKept p) (.refl p) PauseKept.trans step _ s
  refine ⟨kept, fun k hk => ?_⟩
  have keep (s : State) (a : Nat) (_ : a ∈ List.range 8) (ne : a ≠ k) :
      pauseOf p k (if b a then setPause p a (q a) s else s) = pauseOf p k s := by
    split
    · exact pauseOf_setPause_ne ne.symm hk ..
    · rfl
  obtain ⟨u, before, same, last, -⟩ := foldl_visits (R := PauseKept p) (.refl p) PauseKept.trans step List.nodup_range (List.mem_range.2 hk) keep s
  rw [← ht] at last
  obtain ⟨paused, ends⟩ := Prod.mk.inj last
  rw [paused, ends]
  obtain ⟨-, time, cfg, -, -⟩ := before.frame
  split
  case isTrue on =>
    rw [pausedAt_setPause hk, if_pos rfl]
    refine ⟨rfl, fun _ some => ?_⟩
    obtain ⟨x, e, -, mine⟩ := setPause_eq p k (q k) u
    rw [e, ← time, ← cfg]
    exact mine some
  case isFalse off => exact ⟨(Prod.mk.inj same).1, fun on => absurd on off⟩

/-! ### Pause frames (R209, R549) -/

/-- R209: a pause frame that is honoured. -/
theorem pauseTake_pause {p : Nat} {q : BitVec 16} {s : State} (h : flag F.TM_PORT_CTRL_PAUSE_RX p s = true) :
    pauseTake p (.pause q) s = (List.range 8).foldl (fun s k => if true then setPause p k q.toNat s else s) (macCnt p 5 1 s) :=
  if_pos ((flag_congr (macCnt_regs ..)).trans h)

theorem pauseTake_pfc {p : Nat} {e : BitVec 8} {qs : List (BitVec 16)} {s : State} (h : flag F.TM_PORT_CTRL_PFC_RX p s = true) :
    pauseTake p (.pfc e qs) s = (List.range 8).foldl (fun s k => if bit e.toNat k then setPause p k (qs.getD k 0).toNat s else s)
      (macCnt p 6 1 s) :=
  if_pos ((flag_congr (macCnt_regs ..)).trans h)

/-- R549: what a pause frame counts at its port before it is taken. -/
def pauseCounted (p : Nat) (s : State) : State :=
  let s := macCnt p 1 64 (macCnt p 0 1 s)
  if bwOpen s then { s with trc := { s.trc with rxNow := Tab.mod 0 s.trc.rxNow p (· + 84) } } else s

theorem pauseReceive_exec {p : Port} {f : PauseFrame} {s : State} (he : flag F.MAC_STATUS_ENABLED p s = true)
    (hl : flag F.MAC_STATUS_LINK_UP p s = true) : exec (.pauseReceive p f) s = .next (pauseTake p f (pauseCounted p s)) :=
  congrArg Host.Outcome.next (if_pos (by simp [he, hl]))

/-- The counters, the trace and the ports alone differ: what counting a frame does. -/
theorem pauseCounted_onlyMac (p : Nat) (s : State) : OnlyMac s (pauseCounted p s) := by
  unfold pauseCounted
  exact ((macCnt_onlyMac ..).trans (macCnt_onlyMac ..)).trans (.ite ⟨_, _, _, rfl⟩ (.refl _))

theorem get_pauseCounted {k : Nat} (hk : k ≠ 0 ∧ k ≠ 1) (p : Nat) (s : State) :
    Tab.get 0 (pauseCounted p s).counters ((145 * 65536 + p * 256 + k * 8) / 8) =
      Tab.get 0 s.counters ((145 * 65536 + p * 256 + k * 8) / 8) := by
  have counted : Tab.get 0 (macCnt p 1 64 (macCnt p 0 1 s)).counters ((145 * 65536 + p * 256 + k * 8) / 8) = _ :=
    get_macCnt_ne hk.2 ..
  rw [get_macCnt_ne hk.1] at counted
  unfold pauseCounted
  dsimp only
  split <;> exact counted

/-- What a state that counted more still holds. -/
theorem OnlyMac.rest {s t : State} (h : OnlyMac s t) : t.regs = s.regs ∧ t.time = s.time ∧ t.cfg = s.cfg ∧ t.tm = s.tm ∧
    t.pipe = s.pipe := by
  obtain ⟨_, _, _, rfl⟩ := h
  exact ⟨rfl, rfl, rfl, rfl, rfl⟩

/-- R209: what an honoured pause frame does, counted as kind `n`, to the state `u` that it was counted in. -/
theorem pauses_after {p n : Nat} {b : Nat → Bool} {q : Nat → Nat} {s u : State} (hu : OnlyMac s u) : ∀ t,
    t = (List.range 8).foldl (fun s k => if b k then setPause p k (q k) s else s) (macCnt p n 1 u) →
    (∀ k, k < 8 → pausedAt p k t = (if b k then decide (q k ≠ 0) else pausedAt p k s) ∧
      (b k = true → q k ≠ 0 → Tab.find? t.tm.pauseUntil (p * 8 + k) =
        some (s.time.cclk + ceilDiv (q k * 512 * 8) (5 * portGbps s.cfg p)))) ∧
    Tab.get 0 t.counters ((145 * 65536 + p * 256 + n * 8) / 8) =
      (Tab.get 0 u.counters ((145 * 65536 + p * 256 + n * 8) / 8) + 1) % 2 ^ 64 ∧
    KeepsFields [F.TM_PORT_PAUSED_CLASS.key p] s t ∧ t.tm.queues = s.tm.queues ∧ t.mem = s.mem ∧ t.pipe = s.pipe := by
  intro t ht
  obtain ⟨kept, each⟩ := setPauses_spec p b q (macCnt p n 1 u) t ht
  have counted : OnlyMac s (macCnt p n 1 u) := hu.trans (macCnt_onlyMac ..)
  obtain ⟨regs, time, cfg, tm, pipe⟩ := counted.rest
  obtain ⟨mem, queues, -⟩ := counted.frame
  obtain ⟨mem', -, -, pipe', counters⟩ := kept.frame
  have paused (k : Nat) : pausedAt p k (macCnt p n 1 u) = pausedAt p k s := by rw [pausedAt, fget_congr regs]; rfl
  rw [time, cfg] at each
  refine ⟨fun k hk => ?_, ?_, fun f i n => (kept.fields f i n).trans (fget_congr regs), kept.queues.trans queues, mem'.trans mem, pipe'.trans pipe⟩
  · rw [← paused k]
    exact each k hk
  · rw [counters, macCnt_counts]

theorem toNat_ne_zero {q : BitVec 16} : q.toNat ≠ 0 ↔ q ≠ 0 := by
  rw [ne_eq, ne_eq, BitVec.toNat_eq]
  rfl

theorem pauseReceive_pause {p : Port} {q : BitVec 16} {s : State} (he : flag F.MAC_STATUS_ENABLED p s = true)
    (hl : flag F.MAC_STATUS_LINK_UP p s = true) (hr : flag F.TM_PORT_CTRL_PAUSE_RX p s = true) :
    Completes (.pauseReceive p (.pause q)) s fun t =>
      (∀ k, k < 8 → pausedAt p k t = decide (q ≠ 0) ∧ (q ≠ 0 → Tab.find? t.tm.pauseUntil (p * 8 + k) =
        some (s.time.cclk + ceilDiv (q.toNat * 512 * 8) (5 * portGbps s.cfg p)))) ∧
      Tab.get 0 t.counters ((145 * 65536 + p * 256 + 5 * 8) / 8) =
        (Tab.get 0 s.counters ((145 * 65536 + p * 256 + 5 * 8) / 8) + 1) % 2 ^ 64 ∧
      KeepsFields [F.TM_PORT_PAUSED_CLASS.key p] s t ∧ t.tm.queues = s.tm.queues ∧ t.mem = s.mem := by
  have counted := pauseCounted_onlyMac p s
  refine .intro (pauseReceive_exec he hl) ?_
  rw [pauseTake_pause ((flag_congr counted.rest.1).trans hr)]
  obtain ⟨each, count, fields, queues, mem, -⟩ := pauses_after (p := p) (n := 5) (b := fun _ => true) (q := fun _ => q.toNat) counted _ rfl
  rw [get_pauseCounted (by decide)] at count
  refine ⟨fun k hk => ?_, count, fields, queues, mem⟩
  obtain ⟨paused, ends⟩ := each k hk
  exact ⟨paused.trans (decide_eq_decide.2 toNat_ne_zero), fun h => ends rfl (toNat_ne_zero.2 h)⟩

theorem pauseReceive_pfc {p : Port} {e : BitVec 8} {qs : List (BitVec 16)} {s : State} (he : flag F.MAC_STATUS_ENABLED p s = true)
    (hl : flag F.MAC_STATUS_LINK_UP p s = true) (hr : flag F.TM_PORT_CTRL_PFC_RX p s = true) :
    Completes (.pauseReceive p (.pfc e qs)) s fun t =>
      (∀ k, k < 8 → pausedAt p k t = if bit e.toNat k then decide (qs.getD k 0 ≠ 0) else pausedAt p k s) ∧
      KeepsFields [F.TM_PORT_PAUSED_CLASS.key p] s t ∧ t.tm.queues = s.tm.queues ∧ t.mem = s.mem := by
  have counted := pauseCounted_onlyMac p s
  refine .intro (pauseReceive_exec he hl) ?_
  rw [pauseTake_pfc ((flag_congr counted.rest.1).trans hr)]
  obtain ⟨each, -, fields, queues, mem, -⟩ :=
    pauses_after (p := p) (n := 6) (b := bit e.toNat) (q := fun k => (qs.getD k 0).toNat) counted _ rfl
  refine ⟨fun k hk => (each k hk).1.trans ?_, fields, queues, mem⟩
  rw [decide_eq_decide.2 toNat_ne_zero]

/-! ### Pauses that run out (R209) -/

/-- R209: what the end of pauses leaves: time may pass. -/
structure ExpiryKept (p : Nat) (s t : State) : Prop where
  later : s.time.cclk ≤ t.time.cclk
  queues : t.tm.queues = s.tm.queues
  mem : t.mem = s.mem
  fields : KeepsFields [F.TM_PORT_PAUSED_CLASS.key p] s t

theorem ExpiryKept.refl (p : Nat) (s : State) : ExpiryKept p s s := ⟨le_refl _, rfl, rfl, fun _ _ _ => rfl⟩

theorem ExpiryKept.trans {p : Nat} {s t u : State} (h : ExpiryKept p s t) (k : ExpiryKept p t u) : ExpiryKept p s u :=
  ⟨h.later.trans k.later, k.queues.trans h.queues, k.mem.trans h.mem, fun f i n => (k.fields f i n).trans (h.fields f i n)⟩

theorem reachCclk_expiryKept (p c : Nat) (s : State) : ExpiryKept p s (reachCclk c s) :=
  ⟨Nat.le_add_right .., rfl, rfl, fun _ _ _ => rfl⟩

/-- R209: the pause of class `k` ends at its time. -/
def expireClass (p : Nat) (m : Nat) (s : State) (k : Nat) : State :=
  if bit m k && pausedAt p k s then setPause p k 0 (reachCclk (Tab.get 0 s.tm.pauseUntil (p * 8 + k)) s) else s

theorem pauseOf_reachCclk (p k c : Nat) (s : State) : pauseOf p k (reachCclk c s) = pauseOf p k s := rfl

theorem expireClass_kept (p m : Nat) (s : State) (k : Nat) : ExpiryKept p s (expireClass p m s k) := by
  unfold expireClass
  split
  · have ended := setPause_pauseKept p k 0 (reachCclk (Tab.get 0 s.tm.pauseUntil (p * 8 + k)) s)
    obtain ⟨mem, time, -⟩ := ended.frame
    exact (reachCclk_expiryKept p _ s).trans ⟨time ▸ le_refl _, ended.queues, mem, ended.fields⟩
  · exact .refl p s

theorem pauseExpire_completes (p : Port) (m : BitVec 8) (s : State) : Completes (.pauseExpire p m) s fun t =>
    (∀ k, k < 8 → pausedAt p k t = (pausedAt p k s && !bit m.toNat k) ∧
      (bit m.toNat k = true → pausedAt p k s = true → Tab.get 0 s.tm.pauseUntil (p * 8 + k) ≤ t.time.cclk)) ∧
    KeepsFields [F.TM_PORT_PAUSED_CLASS.key p] s t ∧ t.tm.queues = s.tm.queues ∧ t.mem = s.mem := by
  refine .intro (t := (List.range 8).foldl (expireClass p m.toNat) s) rfl ?_
  have all : ExpiryKept p s ((List.range 8).foldl (expireClass p m.toNat) s) :=
    foldl_rel (R := ExpiryKept p) (.refl p.val) ExpiryKept.trans (expireClass_kept p m.toNat) _ s
  refine ⟨fun k hk => ?_, all.fields, all.queues, all.mem⟩
  have keep (s : State) (a : Nat) (_ : a ∈ List.range 8) (ne : a ≠ k) :
      pauseOf p k (expireClass p m.toNat s a) = pauseOf p k s := by
    unfold expireClass
    split
    · exact (pauseOf_setPause_ne ne.symm hk ..).trans (pauseOf_reachCclk ..)
    · rfl
  obtain ⟨u, before, same, last, after⟩ :=
    foldl_visits (R := ExpiryKept p) (.refl p.val) ExpiryKept.trans (expireClass_kept p m.toNat) List.nodup_range (List.mem_range.2 hk) keep s
  obtain ⟨pausedU, untilU⟩ := Prod.mk.inj same
  rw [(Prod.mk.inj last).1]
  cases on : bit m.toNat k && pausedAt p k u
  case false =>
    have stays : expireClass p m.toNat u k = u := if_neg (by rw [on]; decide)
    rw [stays, pausedU]
    rw [pausedU] at on
    refine ⟨?_, fun hb hp => absurd on (by rw [hb, hp]; decide)⟩
    cases hp : pausedAt p k s <;> simp_all
  case true =>
    have ends : expireClass p m.toNat u k = setPause p k 0 (reachCclk (Tab.get 0 u.tm.pauseUntil (p * 8 + k)) u) := if_pos on
    rw [ends] at after
    rw [ends, pausedAt_setPause hk, if_pos rfl]
    obtain ⟨hb, -⟩ := Bool.and_eq_true_iff.1 on
    refine ⟨by simp [hb], fun _ _ => ?_⟩
    have time := (setPause_pauseKept p k 0 (reachCclk (Tab.get 0 u.tm.pauseUntil (p * 8 + k)) u)).frame.2.1
    have same' : Tab.get 0 u.tm.pauseUntil (p * 8 + k) = Tab.get 0 s.tm.pauseUntil (p * 8 + k) := by
      rw [Tab.get_eq_find?, Tab.get_eq_find?, untilU]
    rw [← same']
    exact (le_reachCclk_cclk ..).trans ((congrArg TimeUnit.cclk time).symm.le.trans after.later)

end Sys2Proof.Machine
end

section
/-! CERTIFICATE. The refill of the shapers (R207, R208); O16. -/
namespace Sys2Proof.Machine

/-! ### One refill (R207, R208) -/

/-- Only the tokens and the values in force differ. -/
def OnlyRefilled (s t : State) : Prop := ∃ tokens applied, t = { s with tm := { s.tm with tokens := tokens, applied := applied } }

theorem OnlyRefilled.refl (s : State) : OnlyRefilled s s := ⟨_, _, rfl⟩

theorem OnlyRefilled.trans {s t u : State} (h : OnlyRefilled s t) (k : OnlyRefilled t u) : OnlyRefilled s u := by
  obtain ⟨_, _, rfl⟩ := h
  obtain ⟨_, _, rfl⟩ := k
  exact ⟨_, _, rfl⟩

/-- R207: the values of a node that are in force, and its tokens. -/
def nodeOf (k : Nat) (s : State) : (Nat × Nat × Bool) × Option Int := (nodeApplied k s, Tab.find? s.tm.tokens k)

theorem refillNode_only (k : Nat) (en rate burst : Fld) (i : Nat) (s : State) : OnlyRefilled s (refillNode k en rate burst i s) :=
  ⟨_, _, rfl⟩

theorem nodeOf_refillNode_ne {k j : Nat} (h : j ≠ k) (en rate burst : Fld) (i : Nat) (s : State) :
    nodeOf j (refillNode k en rate burst i s) = nodeOf j s :=
  congrArg₂ Prod.mk (Tab.get_set_ne _ _ s.tm.applied _ h) (Tab.find?_put_ne s.tm.tokens _ h)

theorem nodeOf_refillNode_same (k : Nat) (en rate burst : Fld) (i : Nat) (s : State) : nodeOf k (refillNode k en rate burst i s) =
    (shapeDue k en rate burst i s, some (min (nodeTokens k (nodeApplied k s).2.1 s + ((shapeDue k en rate burst i s).1 : Int))
      ((shapeDue k en rate burst i s).2.1 * 16 : Nat))) :=
  congrArg₂ Prod.mk (Tab.get_set_same _ s.tm.applied k _) (Tab.find?_put_same s.tm.tokens k _)

/-- R208: without a write in the present cclk the written values come into force. -/
theorem shapeDue_written {k i : Nat} {en rate burst : Fld} {s : State} (h : s.tm.shapeWr = []) :
    shapeDue k en rate burst i s = (fget rate i s, fget burst i s, flag en i s) := by
  rw [shapeDue, h]; rfl

/-- The nodes of one kind that a refill visits. -/
def refilled (key : Nat → Nat) (n : Nat) (en rate burst : Fld) (s : State) : List Nat :=
  (instsOf en s ++ instsOf rate s ++ instsOf burst s ++
    ((s.tm.applied.map (·.1) ++ s.tm.shapeWr.map (·.1)).filter (fun x => decide (key 0 ≤ x) && decide (x < key 0 + n))).map
      (· - key 0)).foldl (fun l i => insertRising i l) []

theorem refillKind_eq (key : Nat → Nat) (n : Nat) (en rate burst : Fld) (s : State) : refillKind key n en rate burst s =
    (refilled key n en rate burst s).foldl (fun s i => refillNode (key i) en rate burst i s) s := rfl

theorem refillKind_only (key : Nat → Nat) (n : Nat) (en rate burst : Fld) (s : State) :
    OnlyRefilled s (refillKind key n en rate burst s) :=
  foldl_rel .refl .trans (fun s i => refillNode_only (key i) en rate burst i s) _ s

/-- A refill of one kind leaves the nodes of the others. -/
theorem nodeOf_refillKind_ne {key : Nat → Nat} {k : Nat} (h : ∀ i, k ≠ key i) (n : Nat) (en rate burst : Fld) (s : State) :
    nodeOf k (refillKind key n en rate burst s) = nodeOf k s :=
  foldl_keeps (fun s i _ => nodeOf_refillNode_ne (h i) en rate burst i s) s

theorem Tab.mem_of_get_ne {α : Type} {d : α} {t : Tab α} {n : Nat} (h : Tab.get d t n ≠ d) : ∃ v, (n, v) ∈ t := by
  induction t with
  | nil => exact absurd rfl h
  | cons p r ih =>
    obtain ⟨k, v⟩ := p
    by_cases e : k = n
    · exact ⟨v, by simp [e]⟩
    · obtain ⟨w, hw⟩ := ih (by simpa [Tab.get, e] using h)
      exact ⟨w, List.mem_cons_of_mem _ hw⟩

/-- A flag that does not stand at its reset value is among the instances that do not. -/
theorem mem_instsOf {f : Fld} {i : Nat} {s : State} (hf : f.key 0 < 16384) (h : fget f i s ≠ resetOf f i) : i ∈ instsOf f s := by
  obtain ⟨v, hv⟩ := Tab.mem_of_get_ne h
  refine List.mem_map.2 ⟨_, List.mem_filter.2 ⟨hv, by simpa using Fld.key_mod hf i⟩, ?_⟩
  have : f.key i = f.key 0 + 16384 * i := by simp [Fld.key]
  omega

/-- R207, R208: the refill of an enabled port shaper. -/
theorem nodeOf_refillPorts {p : Nat} {s : State} (hw : s.tm.shapeWr = []) (he : flag F.TM_PORT_SHAPE_ENABLE p s = true) :
    nodeOf (portKey p) (refillKind portKey 256 F.TM_PORT_SHAPE_ENABLE F.TM_PORT_SHAPE_RATE F.TM_PORT_BURST_BURST s) =
      ((fget F.TM_PORT_SHAPE_RATE p s, fget F.TM_PORT_BURST_BURST p s, true),
        some (min (nodeTokens (portKey p) (nodeApplied (portKey p) s).2.1 s + (fget F.TM_PORT_SHAPE_RATE p s : Int))
          (fget F.TM_PORT_BURST_BURST p s * 16 : Nat))) := by
  rw [refillKind_eq]
  obtain ⟨nodup, mem⟩ := rising_spec (instsOf F.TM_PORT_SHAPE_ENABLE s ++ instsOf F.TM_PORT_SHAPE_RATE s ++
    instsOf F.TM_PORT_BURST_BURST s ++ ((s.tm.applied.map (·.1) ++ s.tm.shapeWr.map (·.1)).filter
      (fun x => decide (portKey 0 ≤ x) && decide (x < portKey 0 + 256))).map (· - portKey 0))
  have on : p ∈ instsOf F.TM_PORT_SHAPE_ENABLE s :=
    mem_instsOf (by decide) (by rw [show fget _ p s = 1 from eq_of_beq he]; exact Nat.one_ne_zero)
  have visited : p ∈ refilled portKey 256 F.TM_PORT_SHAPE_ENABLE F.TM_PORT_SHAPE_RATE F.TM_PORT_BURST_BURST s :=
    (mem p).2 (by simp [on])
  obtain ⟨u, before, same, last, -⟩ := foldl_visits (R := OnlyRefilled) .refl .trans
    (fun s i => refillNode_only (portKey i) F.TM_PORT_SHAPE_ENABLE F.TM_PORT_SHAPE_RATE F.TM_PORT_BURST_BURST i s) nodup visited
    (φ := nodeOf (portKey p)) (fun s a _ ne => nodeOf_refillNode_ne ne.symm ..) s
  have written : shapeDue (portKey p) F.TM_PORT_SHAPE_ENABLE F.TM_PORT_SHAPE_RATE F.TM_PORT_BURST_BURST p u =
      (fget F.TM_PORT_SHAPE_RATE p s, fget F.TM_PORT_BURST_BURST p s, true) := by
    obtain ⟨_, _, parts⟩ := before
    have regs : u.regs = s.regs := by rw [parts]
    have unwritten : u.tm.shapeWr = [] := by rw [parts]; exact hw
    rw [shapeDue_written unwritten, fget_congr regs, fget_congr regs, flag_congr regs, he]
  obtain ⟨applied, tokens⟩ := Prod.mk.inj same
  refine last.trans ?_
  rw [nodeOf_refillNode_same, written, applied, nodeTokens, Tab.get_eq_find?, tokens, ← Tab.get_eq_find?]
  rfl

/-- R208: what is noted of the writes is no part of a node. -/
theorem nodeOf_shapeWr (k : Nat) (w : List (Nat × Nat × Nat × Nat × Bool)) (u : State) :
    nodeOf k { u with tm := { u.tm with shapeWr := w } } = nodeOf k u := rfl

/-- R207: the port shapers are refilled first, and the other kinds leave them. -/
theorem nodeOf_refillAll {p : Nat} (hp : p < 256) (s : State) : nodeOf (portKey p) (refillAll s) =
    nodeOf (portKey p) (refillKind portKey 256 F.TM_PORT_SHAPE_ENABLE F.TM_PORT_SHAPE_RATE F.TM_PORT_BURST_BURST s) := by
  have tenant : ∀ i, portKey p ≠ tenantKey i := by intro i; unfold portKey tenantKey; omega
  have leaf : ∀ i, portKey p ≠ leafKey i := by intro i; unfold portKey leafKey; omega
  have class' : ∀ i, portKey p ≠ 1000 + i := by intro i; unfold portKey; omega
  unfold refillAll
  extract_lets ports classes leaves tenants
  calc nodeOf (portKey p) _
    _ = nodeOf (portKey p) tenants := nodeOf_shapeWr ..
    _ = nodeOf (portKey p) leaves := nodeOf_refillKind_ne tenant ..
    _ = nodeOf (portKey p) classes := nodeOf_refillKind_ne leaf ..
    _ = nodeOf (portKey p) ports := nodeOf_refillKind_ne class' ..

theorem refillAll_only (s : State) : ∃ tokens applied written,
    refillAll s = { s with tm := { s.tm with tokens := tokens, applied := applied, shapeWr := written } } := by
  unfold refillAll
  extract_lets ports classes leaves tenants
  have h1 : OnlyRefilled s ports := refillKind_only ..
  have h2 : OnlyRefilled ports classes := refillKind_only ..
  have h3 : OnlyRefilled classes leaves := refillKind_only ..
  have h4 : OnlyRefilled leaves tenants := refillKind_only ..
  have all := h1.trans (h2.trans (h3.trans h4))
  clear_value tenants
  obtain ⟨tokens, applied, rfl⟩ := all
  exact ⟨tokens, applied, _, rfl⟩

/-- R207: a refill of every shaper, for an enabled port shaper. -/
theorem refillAll_port {p : Nat} {s : State} (hp : p < 256) (hw : s.tm.shapeWr = [])
    (he : flag F.TM_PORT_SHAPE_ENABLE p s = true) :
    nodeApplied (portKey p) (refillAll s) = (fget F.TM_PORT_SHAPE_RATE p s, fget F.TM_PORT_BURST_BURST p s, true) ∧
    nodeTokens (portKey p) (fget F.TM_PORT_BURST_BURST p s) (refillAll s) =
      min (nodeTokens (portKey p) (nodeApplied (portKey p) s).2.1 s + (fget F.TM_PORT_SHAPE_RATE p s : Int))
        (fget F.TM_PORT_BURST_BURST p s * 16 : Nat) := by
  obtain ⟨applied, tokens⟩ := Prod.mk.inj ((nodeOf_refillAll hp s).trans (nodeOf_refillPorts hw he))
  refine ⟨applied, ?_⟩
  rw [nodeTokens, Tab.get_eq_find?, tokens]
  rfl

theorem shaperRefill_completes (s : State) : Completes .shaperRefill s fun t =>
    t.tm.refillAt = s.tm.refillAt + 1024 ∧ s.tm.refillAt + 1024 ≤ t.time.cclk ∧
    t.tm.queues = s.tm.queues ∧ t.mem = s.mem ∧ t.regs = s.regs ∧
    (∀ p, p < 256 → s.tm.shapeWr = [] → flag F.TM_PORT_SHAPE_ENABLE p s = true →
      nodeApplied (portKey p) t = (fget F.TM_PORT_SHAPE_RATE p s, fget F.TM_PORT_BURST_BURST p s, true) ∧
      nodeTokens (portKey p) (fget F.TM_PORT_BURST_BURST p s) t =
        min (nodeTokens (portKey p) (nodeApplied (portKey p) s).2.1 s + (fget F.TM_PORT_SHAPE_RATE p s : Int))
          (fget F.TM_PORT_BURST_BURST p s * 16 : Nat)) := by
  refine .intro rfl ?_
  obtain ⟨_, _, _, parts⟩ := refillAll_only { reachCclk (s.tm.refillAt + 1024) s with
    tm := { (reachCclk (s.tm.refillAt + 1024) s).tm with refillAt := s.tm.refillAt + 1024 } }
  refine ⟨by rw [parts], ?_, by rw [parts]; rfl, by rw [parts]; rfl, by rw [parts]; rfl, fun _ hp hw he => refillAll_port hp hw he⟩
  rw [parts]
  exact le_reachCclk_cclk ..

/-- Settles O16: scheduling, egress, refills and pauses. -/
theorem pausesShapersAndFrames : Obligations.PausesShapersAndFrames :=
  ⟨fun _ _ _ h => (schedPick_spec h).2, fun _ _ hp _ hx _ _ hq => schedulerSelect_completes hp hx hq,
    fun _ _ => schedulerSelect_idle, fun p _ _ h hc => .intro rfl (finishFrame_spec p.isLt h hc _ rfl), shaperRefill_completes,
    fun _ _ _ => pauseReceive_pause, fun _ _ _ _ => pauseReceive_pfc, pauseExpire_completes⟩

end Sys2Proof.Machine
end

section
/-! SUPPORT. What a frame's way through the pipeline leaves (chapters 04 and 05): the counts of received frames, memory
and the state of the ports. -/
namespace Sys2Proof.Machine

/-! ### Queueing a copy (R181 to R193) -/

theorem nodePass_carried (k len : Nat) (s : State) : Carried s (nodePass k len s) := .ite (.rest ..) (.refl s)

theorem enqueueCopy_carried (c : Copy) (l3 : L3) (s : State) : Carried s (enqueueCopy c l3 s) := by
  unfold enqueueCopy
  extract_lets d deep uni
  have stored : Carried s uni :=
    (Carried.fset (by decide) (by decide) ..).trans (.ite (.refl _) (setLeafUni_carried ..))
  refine stored.trans ?_
  split
  · extract_lets e
    refine .ite ?_ (setLeafQueue_carried ..)
    exact ((Carried.bump (by decide) (by decide) ..).trans (macCnt_carried (by decide) ..)).trans (setLeafQueue_carried ..)
  · exact setLeafQueue_carried ..

theorem admitCopy_carried (c : Copy) (l3 : L3) (s : State) : Carried s (admitCopy c l3 s) := by
  have unserved (t : State) : Carried t (endCopy c .dropped (bump F.TM_NO_LEAF_COUNT 0 t)) :=
    (Carried.bump (by decide) (by decide) ..).trans (endCopy_carried ..)
  have dropped (t : State) : Carried t (endCopy c .dropped (leafDropCount c.leaf c.len t)) :=
    (leafDropCount_carried ..).trans (endCopy_carried ..)
  unfold admitCopy
  split
  · exact unserved s
  · refine .ite ((Carried.ite (.bump (by decide) (by decide) ..) (.bump (by decide) (by decide) ..)).trans (endCopy_carried ..)) ?_
    refine .ite ((leafDropCount_carried ..).trans ((macCnt_carried (by decide) ..).trans (endCopy_carried ..))) ?_
    refine .ite (dropped s) ?_
    extract_lets tk passed m
    refine .ite ((Carried.bump (by decide) (by decide) ..).trans (endCopy_carried ..)) ?_
    exact (nodePass_carried ..).trans (.ite (enqueueCopy_carried ..) (dropped _))

theorem startFrame_carried (p q : Nat) (s : State) : Carried s (startFrame p q s) := by
  unfold startFrame
  split
  · exact .refl s
  · extract_lets passed taken tm sent
    have h1 : Carried s passed := (nodePass_carried ..).trans ((nodePass_carried ..).trans (nodePass_carried ..))
    have h2 : Carried passed taken := (setLeafQueue_carried ..).trans (.setFlag (by decide) (by decide) ..)
    have h3 : Carried taken sent := .ite (.refl _) (.rest ..)
    exact h1.trans (h2.trans (h3.trans (.rest ..)))

theorem schedule_carried (p : Nat) (s : State) : Carried s (schedule p s) := by
  unfold schedule
  refine .ite (.refl s) ?_
  split
  case h_1 q t pick =>
    obtain ⟨⟨_, _, _, rounds⟩, -⟩ := schedPick_spec pick
    have kept : Carried s t := by
      rw [show t = _ from rounds]
      exact .rest ..
    exact kept.trans (startFrame_carried ..)
  case h_2 => exact .refl s

theorem toPortAny_carried (c : Copy) (l3 : L3) (s : State) : Carried s (toPortAny c l3 s) := by
  unfold toPortAny
  extract_lets before admitted held
  have h1 : Carried s admitted := admitCopy_carried ..
  have h2 : Carried admitted held := .ite (macCnt_carried (by decide) ..) (.refl _)
  refine .ite h1 (h1.trans (h2.trans (.ite ?_ (.refl _))))
  exact (Carried.bump (by decide) (by decide) ..).trans (schedule_carried ..)

theorem toPort_carried (v : Bool) (c : Copy) (l3 : L3) (s : State) : Carried s (toPort v c l3 s) :=
  .ite (endCopy_carried ..) (toPortAny_carried ..)

/-! ### The copies of a frame (R165 to R174) -/

theorem addCopy_carried (n : Nat) (s : State) : Carried s (addCopy n s) := by
  unfold addCopy
  split
  · exact .rest ..
  · exact .refl s

theorem unicastVc_carried (cls : Option Nat) (leaf : Nat) (s : State) : Carried s (unicastVc cls leaf s).2 := by
  unfold unicastVc
  split
  · exact .refl s
  · exact .refl s
  · exact .rest ..

theorem toUnicast_carried (h : Head) (l3 : L3) (egr leaf dev : Nat) (ct : Bool) (s : State) :
    Carried s (toUnicast h l3 egr leaf dev ct s) := by
  unfold toUnicast
  extract_lets added c v hd
  have h1 : Carried s added := addCopy_carried ..
  refine h1.trans (.ite ?_ ?_)
  · exact .ite (toPort_carried ..) ((Carried.bump (by decide) (by decide) ..).trans (toPort_carried ..))
  · exact (unicastVc_carried ..).trans (meshSend_carried ..)

theorem toEssence_carried (h : Head) (ctx : Nat) (byEm : Bool) (l2 : Option (Nat × Nat × Nat)) (vlan : Nat) (s : State) :
    Carried s (toEssence h ctx byEm l2 vlan s) := by
  unfold toEssence
  extract_lets added q used e
  have h1 : Carried s added := addCopy_carried ..
  exact h1.trans (.ite ((Carried.bump (by decide) (by decide) ..).trans (endCopy_carried ..)) (.rest ..))

theorem mcastPort_carried (h : Head) (l3 : L3) (k p : Nat) (s : State) : Carried s (mcastPort h l3 k p s) := by
  unfold mcastPort
  extract_lets added
  have h1 : Carried s added := addCopy_carried ..
  refine h1.trans ?_
  split
  · exact (Carried.bump (by decide) (by decide) ..).trans (endCopy_carried ..)
  · exact toPort_carried ..

theorem setHeld_carried (n cells : Nat) (r : Bool) (s : State) : Carried s (setHeld n cells r s) := by
  unfold setHeld
  split
  · exact .rest ..
  · exact .refl s

theorem groupCopies_carried (h : Head) (l3 : L3) (g k : Nat) (e : Bytes) (ports devs : List Nat) (s : State) :
    Carried s (groupCopies h l3 g k e ports devs s) := by
  unfold groupCopies
  extract_lets ess attached sent
  have h1 : Carried s attached := .foldl (fun _ _ => toEssence_carried ..) ..
  have h2 : Carried attached sent := .foldl (fun _ _ => mcastPort_carried ..) ..
  exact h1.trans (h2.trans (.foldl (fun _ _ => (addCopy_carried ..).trans (meshSend_carried ..)) ..))

theorem holdEpoch_carried (n b : Nat) (s : State) : Carried s (holdEpoch n b s) := by
  unfold holdEpoch
  split
  · exact .refl s
  · exact .ite (.refl s) (.rest ..)

theorem replicateAs_carried (h : Head) (l3 : L3) (g : Nat) (near : Bool) (cls : Option Nat) (s : State) :
    Carried s (replicateAs h l3 g near cls s) := by
  unfold replicateAs
  extract_lets e held k ports devs c tm counted
  have h1 : Carried s held := holdEpoch_carried ..
  refine .ite (postcard_carried ..) (h1.trans (.ite ?_ (.ite ?_ ?_)))
  · exact (Carried.bump (by decide) (by decide) ..).trans (postcard_carried ..)
  · exact (Carried.bump (by decide) (by decide) ..).trans (postcard_carried ..)
  · have h2 : Carried held counted := (Carried.rest held ..).trans (setHeld_carried ..)
    exact h2.trans ((Carried.ite (.refl _) (setShared_carried ..)).trans (groupCopies_carried ..))

theorem dropHead_carried (h : Head) (s : State) : Carried s (dropHead h s) := postcard_carried ..

theorem puntHead_carried (h : Head) (s : State) : Carried s (puntHead h s) := by
  unfold puntHead
  extract_lets sec n pipe windowed c pipe' tm punted stamp
  have h1 : Carried s windowed := .rest ..
  refine .ite (postcard_carried ..) (.ite ?_ (h1.trans (.ite ?_ ?_)))
  · exact (Carried.bump (by decide) (by decide) ..).trans (postcard_carried ..)
  · exact (Carried.bump (by decide) (by decide) ..).trans (postcard_carried ..)
  · have h2 : Carried windowed punted := (Carried.rest windowed ..).trans (addCopy_carried ..)
    exact h2.trans ((Carried.rest punted ..).trans (postcard_carried ..))

/-! ### Routes and bridging (R149 to R164) -/

theorem routeMissed_carried (h : Head) (s : State) : Carried s (routeMissed h s) := (Carried.rest s ..).trans (dropHead_carried ..)

theorem toMember_carried (h : Head) (p : Parsed) (routed : Bool) (i : Nat) (leaf : Option Nat) (ct : Bool) (s : State) :
    Carried s (toMember h p routed i leaf ct s) := by
  unfold toMember
  extract_lets m held head
  have h1 : Carried s held := holdEpoch_carried ..
  exact .ite (dropHead_carried ..) (h1.trans (toUnicast_carried ..))

theorem toGroup_carried (h : Head) (p : Parsed) (routed : Bool) (g : Nat) (leaf : Option Nat) (ct : Bool) (s : State) :
    Carried s (toGroup h p routed g leaf ct s) := by
  unfold toGroup
  extract_lets e held base m1 seed
  have h1 : Carried s held := holdEpoch_carried ..
  exact .ite (routeMissed_carried ..) (h1.trans (.ite (routeMissed_carried ..) (toMember_carried ..)))

theorem toRoute_carried (h : Head) (p : Parsed) (r : Nat) (leaf : Option Nat) (ct : Bool) (s : State) :
    Carried s (toRoute h p r leaf ct s) := by
  unfold toRoute
  split
  · exact toMember_carried ..
  · exact toGroup_carried ..
  · exact puntHead_carried ..
  · exact dropHead_carried ..

theorem routeStage_carried (h : Head) (p : Parsed) (vrf : Nat) (s : State) : Carried s (routeStage h p vrf s).2 := by
  unfold routeStage
  split
  · exact holdEpoch_carried ..
  · exact .refl s

theorem actDefault_carried (h : Head) (p : Parsed) (vrf : Nat) (l2 : Option (Nat × Nat × Nat)) (vlan : Nat) (leaf : Option Nat)
    (ct : Bool) (s : State) : Carried s (actDefault h p vrf l2 vlan leaf ct s) := by
  unfold actDefault
  extract_lets r
  have routed : Carried s r.2 := routeStage_carried ..
  refine .ite (routed.trans (.ite (puntHead_carried ..) ?_)) ?_
  · split
    · exact toRoute_carried ..
    · exact routeMissed_carried ..
  · split
    · exact .ite (dropHead_carried ..) (toUnicast_carried ..)
    · exact replicateAs_carried ..

theorem actEm_carried (h : Head) (p : Parsed) (em : Option Bytes) (l2 : Option (Nat × Nat × Nat)) (vlan : Nat) (s : State) :
    Carried s (actEm h p em l2 vlan s) := by
  unfold actEm
  split
  · exact actDefault_carried ..
  · extract_lets vrf0 ct leaf target
    split
    · exact actDefault_carried ..
    · exact toMember_carried ..
    · exact toGroup_carried ..
    · exact replicateAs_carried ..
    · exact toEssence_carried ..
    · exact puntHead_carried ..
    · exact dropHead_carried ..

theorem l2Lookup_carried (h : Head) (vlan mac : Nat) (s : State) : Carried s (l2Lookup h vlan mac s).2 := by
  unfold l2Lookup
  split
  · exact (Carried.rest s ..).trans (holdEpoch_carried ..)
  · exact .refl s

theorem learnDefer_carried (q : LearnReq) (s : State) : Carried s (learnDefer q s) :=
  .ite (.rest ..) (.bump (by decide) (by decide) ..)

theorem learnStage_carried (h : Head) (vlan smac : Nat) (keep : Bool) (s : State) : Carried s (learnStage h vlan smac keep s).2 := by
  unfold learnStage
  extract_lets q
  split
  · exact .refl s
  · exact learnDefer_carried ..
  · exact .bump (by decide) (by decide) ..
  · exact .rest ..
  · exact .rest ..

theorem bridgeStage_carried (h : Head) (p : Parsed) (em : Option Bytes) (s : State) : Carried s (bridgeStage h p em s).2 := by
  unfold bridgeStage
  split
  · exact .refl s
  case h_2 vlan _ =>
    extract_lets d hit bridged
    have found : Carried s d.2 := by
      unfold d
      split
      · exact l2Lookup_carried ..
      · exact .refl s
    split
    · exact found
    · extract_lets u r
      have looked : Carried d.2 u.2 := l2Lookup_carried ..
      have learnt : Carried u.2 r.2 := by
        unfold r
        split
        · exact learnStage_carried ..
        · exact .refl _
      exact found.trans (looked.trans learnt)

/-! ### The slice (R136 to R148) -/

theorem emPick_carried (l : List Nat) (s : State) : Carried s (emPick l s).2 := by
  unfold emPick
  split
  · exact .refl s
  · exact .rest ..

theorem emSearch_carried (h : Head) (p : Parsed) (s : State) : Carried s (emSearch h p s).2 := by
  unfold emSearch
  split
  · exact .refl s
  · extract_lets prof
    split
    · exact .refl s
    · exact emPick_carried ..

theorem sliceRun_carried (h : Head) (s : State) : Carried s (sliceRun h s) := by
  unfold sliceRun
  extract_lets p limited x em hit b counted
  have h1 : Carried s limited := .ite (.bump (by decide) (by decide) ..) (.refl s)
  have h2 : Carried limited x.2 := emSearch_carried ..
  have h3 : Carried x.2 hit := by
    unfold hit
    split
    · exact (Carried.rest x.2 ..).trans (holdEpoch_carried ..)
    · exact .refl _
  have h4 : Carried hit b.2 := bridgeStage_carried ..
  have h5 : Carried b.2 counted := flowCnt_carried (Nat.mod_lt _ (by decide)) ..
  exact h1.trans (h2.trans (h3.trans (h4.trans (h5.trans ((actEm_carried ..).trans (copyGone_carried ..))))))

theorem newFlight_carried (ing : Nat) (a b : Bool) (s : State) : Carried s (newFlight ing a b s).2 := .rest ..

theorem tagDraw_carried (sl : Nat) (s : State) : Carried s (tagDraw sl s).2 := .rest ..

theorem enterSlice_carried (p len : Nat) (b : Bytes) (bad : Bool) (s : State) : Carried s (enterSlice p len b bad s) :=
  ((newFlight_carried p true true s).trans (tagDraw_carried ..)).trans (sliceRun_carried ..)

theorem eapolIn_carried (p len : Nat) (b : Bytes) (bad : Bool) (s : State) : Carried s (eapolIn p len b bad s) := by
  unfold eapolIn
  extract_lets f h
  have new : Carried s f.2 := newFlight_carried ..
  exact new.trans ((macCnt_carried (by decide) ..).trans ((puntHead_carried ..).trans (copyGone_carried ..)))

/-! ### The ingress MAC (R83, R91, R209) -/

theorem setSa_carried (k an : Nat) (a : Sa) (s : State) : Carried s (setSa k an a s) := by
  unfold setSa
  split
  · exact .rest ..
  · exact .refl s

theorem macsecRx_carried (p : Nat) (b : Bytes) (s : State) : Carried s (macsecRx p b s).2 := by
  unfold macsecRx
  split
  · exact .refl s
  · split
    · exact .refl s
    · extract_lets tci an hasSci hdr low ch body ct plainOf enc
      clear_value ch
      split
      · exact .refl s
      · split
        · exact .refl s
        · extract_lets pn pt
          clear_value pt
          split
          · exact .refl s
          · extract_lets d
            split
            · exact .refl s
            · exact setSa_carried ..

theorem macRx_carried (p len : Nat) (b : Bytes) (bad : Bool) (s : State) : Carried s (macRx p len b bad s) := by
  unfold macRx
  extract_lets go r
  have entered (b : Bytes) (bad : Bool) (s : State) : Carried s (go b bad s) :=
    (Carried.ite (macCnt_carried (by decide) ..) (.refl s)).trans (enterSlice_carried ..)
  have taken : Carried s r.2 := macsecRx_carried ..
  clear_value go r
  refine .ite (entered ..) (taken.trans ?_)
  split
  · exact entered ..
  · exact eapolIn_carried ..
  · exact macCnt_carried (by decide) ..
  · exact (macCnt_carried (by decide) ..).trans (entered ..)
  · exact (macCnt_carried (by decide) ..).trans (entered ..)

theorem setPause_carried (p k q : Nat) (s : State) : Carried s (setPause p k q s) :=
  .ite ((Carried.fset (f := F.TM_PORT_PAUSED_CLASS) (by decide) (by decide) ..).trans (.rest ..))
    ((Carried.fset (f := F.TM_PORT_PAUSED_CLASS) (by decide) (by decide) ..).trans (.rest ..))

theorem pauseTake_carried (p : Nat) (f : PauseFrame) (s : State) : Carried s (pauseTake p f s) := by
  cases f with
  | pause q => exact (macCnt_carried (by decide) ..).trans (.ite (.foldl (fun _ _ => setPause_carried ..) ..) (.refl _))
  | pfc e qs =>
    exact (macCnt_carried (by decide) ..).trans (.ite (.foldl (fun _ _ => .ite (setPause_carried ..) (.refl _)) ..) (.refl _))

end Sys2Proof.Machine
end

section
/-! CERTIFICATE. Frames at an ingress MAC (R83, R86, R91, R209, R549); O20. -/
namespace Sys2Proof.Machine

/-! ### What is counted before a frame is looked at (R549, R559) -/

/-- R549: the counts of a received frame of `len` bytes. -/
def rxCounted (p len cw sym : Nat) (s : State) : State :=
  let s := macCnt p 1 len (macCnt p 0 1 (macCnt p 14 sym (macCnt p 12 cw s)))
  if bwOpen s then { s with trc := { s.trc with rxNow := Tab.mod 0 s.trc.rxNow p (· + (len + 20)) } } else s

theorem rxCounted_onlyMac (p len cw sym : Nat) (s : State) : OnlyMac s (rxCounted p len cw sym s) := by
  unfold rxCounted
  have counted : OnlyMac s (macCnt p 1 len (macCnt p 0 1 (macCnt p 14 sym (macCnt p 12 cw s)))) :=
    (macCnt_onlyMac ..).trans ((macCnt_onlyMac ..).trans ((macCnt_onlyMac ..).trans (macCnt_onlyMac ..)))
  exact counted.trans (.ite ⟨_, _, _, rfl⟩ (.refl _))

theorem rxCounted_counters (p len cw sym : Nat) (s : State) : (rxCounted p len cw sym s).counters =
    (macCnt p 1 len (macCnt p 0 1 (macCnt p 14 sym (macCnt p 12 cw s)))).counters := by
  unfold rxCounted
  dsimp only
  split <;> rfl

theorem get_rxCounted_frames (p len cw sym : Nat) (s : State) :
    Tab.get 0 (rxCounted p len cw sym s).counters ((145 * 65536 + p * 256 + 0 * 8) / 8) =
      (Tab.get 0 s.counters ((145 * 65536 + p * 256 + 0 * 8) / 8) + 1) % 2 ^ 64 := by
  rw [rxCounted_counters, get_macCnt_ne (by decide), macCnt_counts, get_macCnt_ne (by decide), get_macCnt_ne (by decide)]

theorem get_rxCounted_bytes (p len cw sym : Nat) (s : State) :
    Tab.get 0 (rxCounted p len cw sym s).counters ((145 * 65536 + p * 256 + 1 * 8) / 8) =
      (Tab.get 0 s.counters ((145 * 65536 + p * 256 + 1 * 8) / 8) + len) % 2 ^ 64 := by
  rw [rxCounted_counters, macCnt_counts, get_macCnt_ne (by decide), get_macCnt_ne (by decide), get_macCnt_ne (by decide)]

theorem get_rxCounted_ne {k : Nat} (h : k ∉ [0, 1, 12, 14]) (p len cw sym : Nat) (s : State) :
    Tab.get 0 (rxCounted p len cw sym s).counters ((145 * 65536 + p * 256 + k * 8) / 8) =
      Tab.get 0 s.counters ((145 * 65536 + p * 256 + k * 8) / 8) := by
  simp only [List.mem_cons, List.not_mem_nil, or_false, not_or] at h
  obtain ⟨h0, h1, h12, h14⟩ := h
  rw [rxCounted_counters, get_macCnt_ne h1, get_macCnt_ne h0, get_macCnt_ne h14, get_macCnt_ne h12]

/-! ### What the length and the FCS decide (R83) -/

theorem macIngress_runt {p : Nat} {f : Bytes} (h : f.length < 64) (cw sym : Nat) (s : State) :
    macIngress p f cw sym s = macCnt p 3 1 (rxCounted p f.length cw sym s) := if_pos h

theorem macIngress_good {p : Nat} {f : Bytes} {s : State} (h : 64 ≤ f.length) (hm : f.length ≤ portMtu s.cfg p)
    (hf : f.drop (f.length - 4) = fcsOf (f.take (f.length - 4))) (cw sym : Nat) : macIngress p f cw sym s =
      match macControl (f.take (f.length - 4)) with
      | some q => pauseTake p q (rxCounted p f.length cw sym s)
      | none => macRx p f.length (f.take (f.length - 4)) false (rxCounted p f.length cw sym s) :=
  (if_neg (Nat.not_lt.2 h)).trans ((if_neg (Nat.not_lt.2 hm)).trans (if_neg fun bad => bad hf.symm))

/-- R83: whatever becomes of a frame, it was counted first. -/
theorem macIngress_carried (p : Nat) (f : Bytes) (cw sym : Nat) (s : State) :
    Carried (rxCounted p f.length cw sym s) (macIngress p f cw sym s) := by
  have short (u : State) : Carried u (macCnt p 3 1 u) := macCnt_carried (by decide) ..
  refine .ite (short _) (.ite ?_ (.ite ?_ ?_))
  · exact (macCnt_carried (by decide) ..).trans (macRx_carried ..)
  · exact (macCnt_carried (by decide) ..).trans (macRx_carried ..)
  · split
    · exact pauseTake_carried ..
    · exact macRx_carried ..

/-! ### Frames at a port that receives -/

/-- R86: no frame is in progress at the port once this one has come. -/
def tailOver (p : Nat) (s : State) : State := { s with ports := { s.ports with rxTail := Tab.del s.ports.rxTail p } }

theorem frameIngress_exec {p : Port} {s : State} (h : rxOpen p s = true) (f : Bytes) (a b : Nat) :
    exec (.frameIngress p f a b) s = .next (macIngress p f a b (tailOver p s)) := congrArg Host.Outcome.next (if_pos h)

theorem rxSlot_of_port {p k : Nat} (hp : p < 256) (hk : k < 2) : rxSlot ((145 * 65536 + p * 256 + k * 8) / 8) := by
  unfold rxSlot
  omega

theorem frameIngress_counts {p : Port} {s : State} (h : rxOpen p s = true) (f : Bytes) (a b : Nat) :
    Completes (.frameIngress p f a b) s fun t =>
      Tab.get 0 t.counters ((145 * 65536 + p * 256) / 8) = (Tab.get 0 s.counters ((145 * 65536 + p * 256) / 8) + 1) % 2 ^ 64 ∧
      Tab.get 0 t.counters ((145 * 65536 + p * 256 + 8) / 8) =
        (Tab.get 0 s.counters ((145 * 65536 + p * 256 + 8) / 8) + f.length) % 2 ^ 64 ∧
      (f.length < 64 → t.pipe = s.pipe ∧ t.tm = s.tm ∧ t.mem = s.mem ∧ t.regs = s.regs ∧ t.out = s.out ∧
        Tab.get 0 t.counters ((145 * 65536 + p * 256 + 3 * 8) / 8) =
          (Tab.get 0 s.counters ((145 * 65536 + p * 256 + 3 * 8) / 8) + 1) % 2 ^ 64) := by
  refine .intro (frameIngress_exec h f a b) ?_
  have gone := macIngress_carried p f a b (tailOver p s)
  refine ⟨(gone.rx _ (rxSlot_of_port (k := 0) p.isLt (by decide))).trans (get_rxCounted_frames ..),
    (gone.rx _ (rxSlot_of_port (k := 1) p.isLt (by decide))).trans (get_rxCounted_bytes ..), fun short => ?_⟩
  rw [macIngress_runt short]
  have counted : OnlyMac (tailOver p s) (macCnt p 3 1 (rxCounted p f.length a b (tailOver p s))) :=
    (rxCounted_onlyMac ..).trans (macCnt_onlyMac ..)
  obtain ⟨regs, -, -, tm, pipe⟩ := counted.rest
  obtain ⟨mem, -, out⟩ := counted.frame
  refine ⟨pipe, tm, mem, regs, out, ?_⟩
  rw [macCnt_counts, get_rxCounted_ne (by decide)]
  rfl

theorem beNat_lt (b : Bytes) : beNat b < 256 ^ b.length := by
  have step (b : Bytes) (a : Nat) : b.foldl (fun a x => a * 256 + x.toNat) a < (a + 1) * 256 ^ b.length := by
    induction b generalizing a with
    | nil => simp
    | cons x b ih =>
      calc b.foldl (fun a x => a * 256 + x.toNat) (a * 256 + x.toNat)
        _ < (a * 256 + x.toNat + 1) * 256 ^ b.length := ih _
        _ ≤ ((a + 1) * 256) * 256 ^ b.length := Nat.mul_le_mul_right _ (by have := x.isLt; omega)
        _ = (a + 1) * 256 ^ (b.length + 1) := by rw [Nat.mul_assoc, Nat.pow_succ']
  exact (step b 0).trans_eq (by rw [Nat.zero_add, Nat.one_mul])

theorem fieldBE_lt (b : Bytes) (o n : Nat) : fieldBE b o n < 256 ^ n :=
  (beNat_lt _).trans_le (Nat.pow_le_pow_right (by decide) (by simp [slice]))

/-- R209: a PAUSE frame goes no further than the MAC. -/
theorem frameIngress_pause {p : Port} {f g : Bytes} {s : State} (h : rxOpen p s = true) (hl : 64 ≤ f.length)
    (hm : f.length ≤ portMtu s.cfg p) (hg : g = f.take (f.length - 4)) (hf : f.drop (f.length - 4) = fcsOf g)
    (ht : fieldBE g 12 2 = 0x8808) (ho : fieldBE g 14 2 = 1) (hr : flag F.TM_PORT_CTRL_PAUSE_RX p s = true) :
    Completes (.frameIngress p f 0 0) s fun t => (∀ k, k < 8 → pausedAt p k t = decide (fieldBE g 16 2 ≠ 0)) ∧
      t.pipe = s.pipe ∧ t.tm.queues = s.tm.queues ∧ t.mem = s.mem := by
  subst hg
  refine .intro (frameIngress_exec h f 0 0) ?_
  have control : macControl (f.take (f.length - 4)) = some (.pause (BitVec.ofNat 16 (fieldBE (f.take (f.length - 4)) 16 2))) :=
    (if_neg (not_not.2 ht)).trans (if_pos ho)
  have counted : OnlyMac (tailOver p s) (rxCounted p f.length 0 0 (tailOver p s)) := rxCounted_onlyMac ..
  have fits : f.length ≤ portMtu (tailOver p s).cfg p := hm
  have small : fieldBE (f.take (f.length - 4)) 16 2 < 2 ^ 16 := fieldBE_lt ..
  rw [macIngress_good hl fits hf, control]
  dsimp only
  rw [pauseTake_pause ((flag_congr counted.rest.1).trans hr), BitVec.toNat_ofNat, Nat.mod_eq_of_lt small]
  obtain ⟨each, -, -, queues, mem, pipe⟩ := pauses_after (p := p.val) (n := 5) (b := fun _ => true)
    (q := fun _ => fieldBE (f.take (f.length - 4)) 16 2) counted _ rfl
  exact ⟨fun k hk => (each k hk).1, pipe, queues, mem⟩

theorem macRx_noTag {p : Nat} {b : Bytes} {s : State} (hs : portMacsec s.cfg p = true) (h : macsecRx p b s = (.noTag, s))
    (len : Nat) (bad : Bool) : macRx p len b bad s = macCnt p 7 1 s := by
  unfold macRx
  rw [h, hs]
  rfl

/-- R91: at a MACsec port a frame that is neither EAPOL nor tagged is counted and goes no further. -/
theorem frameIngress_untagged {p : Port} {f g : Bytes} {s : State} (h : rxOpen p s = true) (hl : 64 ≤ f.length)
    (hm : f.length ≤ portMtu s.cfg p) (hg : g = f.take (f.length - 4)) (hf : f.drop (f.length - 4) = fcsOf g)
    (hc : fieldBE g 12 2 ≠ 0x8808) (he : fieldBE g 12 2 ≠ 0x888E) (ht : fieldBE g 12 2 ≠ 0x88E5)
    (hs : portMacsec s.cfg p = true) : Completes (.frameIngress p f 0 0) s fun t =>
      Tab.get 0 t.counters ((145 * 65536 + p * 256 + 7 * 8) / 8) =
        (Tab.get 0 s.counters ((145 * 65536 + p * 256 + 7 * 8) / 8) + 1) % 2 ^ 64 ∧
      t.pipe = s.pipe ∧ t.tm = s.tm ∧ t.mem = s.mem ∧ t.regs = s.regs := by
  subst hg
  refine .intro (frameIngress_exec h f 0 0) ?_
  have control : macControl (f.take (f.length - 4)) = none := if_pos hc
  have counted : OnlyMac (tailOver p s) (rxCounted p f.length 0 0 (tailOver p s)) := rxCounted_onlyMac ..
  have fits : f.length ≤ portMtu (tailOver p s).cfg p := hm
  have untagged (u : State) : macsecRx p (f.take (f.length - 4)) u = (.noTag, u) :=
    (if_neg (by simpa [isEapol] using he)).trans (if_pos ht)
  have secured : portMacsec (rxCounted p f.length 0 0 (tailOver p s)).cfg p = true := by rw [counted.rest.2.2.1]; exact hs
  rw [macIngress_good hl fits hf, control]
  dsimp only
  rw [macRx_noTag secured (untagged _)]
  have all := counted.trans (macCnt_onlyMac p 7 1 _)
  obtain ⟨regs, -, -, tm, pipe⟩ := all.rest
  obtain ⟨mem, -, -⟩ := all.frame
  refine ⟨?_, pipe, tm, mem, regs⟩
  rw [macCnt_counts, get_rxCounted_ne (by decide)]
  rfl

end Sys2Proof.Machine
end

section
/-! SUPPORT and CERTIFICATE. Bytes of table entries, and learning (R149, R150); O20. -/
namespace Sys2Proof.Machine

/-! ### Bytes -/

theorem splice_eq {b new : Bytes} {o : Nat} (h : o + new.length ≤ b.length) :
    splice b o new = b.take o ++ (new ++ b.drop (o + new.length)) := by
  rw [splice, List.append_assoc]
  exact List.take_of_length_le (by simp; omega)

theorem splice_length {b new : Bytes} {o : Nat} (h : o + new.length ≤ b.length) : (splice b o new).length = b.length := by
  rw [splice_eq h]
  simp
  omega

theorem slice_splice_same {b new : Bytes} {o : Nat} (h : o + new.length ≤ b.length) : slice (splice b o new) o new.length = new := by
  have at' : (b.take o).length = o := List.length_take_of_le (by omega)
  rw [splice_eq h, slice, List.drop_append_of_le_length at'.ge, List.drop_of_length_le at'.le, List.nil_append, List.take_left']
  rfl

theorem slice_splice_before {b new : Bytes} {o i n : Nat} (h : o + new.length ≤ b.length) (hi : i + n ≤ o) :
    slice (splice b o new) i n = slice b i n := by
  have at' : (b.take o).length = o := List.length_take_of_le (by omega)
  rw [splice_eq h, slice, slice, List.drop_append_of_le_length (by omega), List.take_append_of_le_length (by simp; omega),
    List.drop_take, List.take_take, min_eq_left (by omega)]

theorem slice_splice_after {b new : Bytes} {o i : Nat} (h : o + new.length ≤ b.length) (hi : o + new.length ≤ i) (n : Nat) :
    slice (splice b o new) i n = slice b i n := by
  have at' : (b.take o).length = o := List.length_take_of_le (by omega)
  rw [splice_eq h, slice, slice, List.drop_append, List.drop_of_length_le (by omega), List.nil_append, at', List.drop_append,
    List.drop_of_length_le (by omega), List.nil_append, List.drop_drop]
  congr 2
  omega

theorem leBytes_length (n v : Nat) : (leBytes n v).length = n := by
  induction n generalizing v with
  | zero => rfl
  | succ n ih => simp [leBytes, ih]

theorem leBytes_leNat (b : Bytes) : leBytes b.length (leNat b) = b := by
  induction b with
  | nil => rfl
  | cons x b ih =>
    have low : BitVec.ofNat 8 (x.toNat + 256 * leNat b) = x := by
      apply BitVec.eq_of_toNat_eq
      have := x.isLt
      rw [BitVec.toNat_ofNat]
      omega
    have high : (x.toNat + 256 * leNat b) / 256 = leNat b := by have := x.isLt; omega
    rw [leNat, List.length_cons, leBytes, low, high, ih]

theorem leNat_leBytes (n v : Nat) : leNat (leBytes n v) = v % 256 ^ n := by
  induction n generalizing v with
  | zero => rw [Nat.pow_zero, Nat.mod_one]; rfl
  | succ n ih =>
    calc leNat (leBytes (n + 1) v)
      _ = (BitVec.ofNat 8 v).toNat + 256 * leNat (leBytes n (v / 256)) := rfl
      _ = v % 256 + 256 * (v / 256 % 256 ^ n) := by rw [ih, BitVec.toNat_ofNat]
      _ = v % 256 ^ (n + 1) := by rw [Nat.pow_succ', Nat.mod_mul]

theorem byteAt_splice_same {b : Bytes} {o : Nat} (h : o < b.length) (v : Nat) :
    byteAt (splice b o [BitVec.ofNat 8 v]) o = v % 256 := by
  have same : slice (splice b o [BitVec.ofNat 8 v]) o 1 = [BitVec.ofNat 8 v] := slice_splice_same h
  rw [byteAt, fieldLE, same]
  simp [leNat]

theorem byteAt_lt (b : Bytes) (i : Nat) : byteAt b i < 256 := by
  rw [byteAt, fieldLE, slice]
  rcases b.drop i with _ | ⟨x, r⟩
  · decide
  · simpa [leNat] using x.isLt

/-! ### Entries of the L2 table (R144, R149) -/

theorem entKey_l2 (n : Nat) : entKey 1 n = (16 + n / 16384) * 65536 + n % 16384 := rfl

theorem entry_length (n : Nat) (s : State) : (entry 1 n s).length = 16 := leBytes_length ..

/-- An entry of 16 bytes is read back as it was stored. -/
theorem entry_of_get {n : Nat} {e : Bytes} {s : State} (he : e.length = 16) (h : Tab.get 0 s.pipe.tbl (entKey 1 n) = leNat e) :
    entry 1 n s = e := by
  rw [entry, h, show entSize (tableBank 1) = e.length from he.symm]
  exact leBytes_leNat e

/-- R145: the bytes that a committed entry has: an L2 or EM entry without its hit bit. -/
def committed (key : Nat) (e : Bytes) : Bytes :=
  if key / 65536 < 32 then splice e 0 [BitVec.ofNat 8 (byteAt e 0 - b2n (bit (byteAt e 0) 1) * 2)] else e

theorem committed_length {e : Bytes} (h : 0 < e.length) (key : Nat) : (committed key e).length = e.length := by
  unfold committed
  split
  · exact splice_length (new := [_]) h
  · rfl

theorem slice_committed {e : Bytes} {i : Nat} (h : 0 < e.length) (hi : 0 < i) (key n : Nat) :
    slice (committed key e) i n = slice e i n := by
  unfold committed
  split
  · exact slice_splice_after (new := [_]) h hi n
  · rfl

/-- R145: what committing an entry changes. -/
theorem commitEntry_spec (key : Nat) (e : Bytes) (s : State) : ∀ t, t = commitEntry key e s →
    t.pipe.learn = s.pipe.learn ∧ Tab.get 0 t.pipe.tbl key = leNat (committed key e) ∧ t.mem = s.mem ∧ t.tm = s.tm := by
  rintro _ rfl
  exact ⟨rfl, Tab.get_set_same .., rfl, rfl⟩

/-! ### One learning request (R149, R150) -/

/-- The request `q` is off the queue. -/
def requestTaken (r : List LearnReq) (s : State) : State := { s with pipe := { s.pipe with learn := r } }

theorem l2Learn_exec {s : State} {q : LearnReq} {r : List LearnReq} (h : s.pipe.learn = q :: r)
    (hf : learnAct q (requestTaken r s) ≠ .full ∨ q.frame = []) : exec .l2Learn s = .next (learnDo q (requestTaken r s)) := by
  show execL2Learn s = _
  unfold execL2Learn
  rw [h]
  refine if_neg fun both => ?_
  obtain ⟨full, frame⟩ := Bool.and_eq_true_iff.1 both
  rcases hf with hf | hf
  · exact hf (eq_of_beq full)
  · rw [hf] at frame
    cases frame

theorem learnDo_insert {q : LearnReq} {n : Nat} {u : State} (h : learnAct q u = .insert n) :
    learnDo q u = commitEntry (entKey 1 n) (learntEntry q u) u := by rw [learnDo, h]

/-- R149: the bytes of an entry whose station moved. -/
def movedEntry (q : LearnReq) (e : Bytes) : Bytes :=
  splice (splice e 1 [BitVec.ofNat 8 q.egrMac]) 10 (leBytes 2 (q.leaf % 32768))

theorem learnDo_move {q : LearnReq} {n : Nat} {u : State} (h : learnAct q u = .move n) :
    learnDo q u = commitEntry (entKey 1 n) (movedEntry q (entry 1 n u)) u := by
  rw [learnDo, h]
  rfl

theorem learnDo_full {q : LearnReq} {u : State} (h : learnAct q u = .full) :
    learnDo q u = bump F.PL_L2_LEARN_FAIL_COUNT 0 u := by rw [learnDo, h]

/-- R149: an entry is learnt in a free place. -/
theorem free_of_insert {q : LearnReq} {n : Nat} {u : State} (h : learnAct q u = .insert n) : entValid (entry 1 n u) = false := by
  unfold learnAct at h
  split at h
  · cases h
  · split at h
    · cases h
    · split at h
      · dsimp only at h
        split at h
        · cases h
        · split at h <;> cases h
      · split at h
        · cases h
        · split at h
          · cases h
          · dsimp only at h
            split at h
            case h_1 free =>
              cases h
              simpa using List.find?_some free
            case h_2 => cases h

/-- R149: a learnt entry has no hit bit. -/
theorem committed_learntEntry (key : Nat) (q : LearnReq) (s : State) : committed key (learntEntry q s) = learntEntry q s := by
  have head : ∃ b, learntEntry q s = 0x11#8 :: b := ⟨_, rfl⟩
  obtain ⟨b, head⟩ := head
  have kept : splice (0x11#8 :: b) 0 [0x11#8] = 0x11#8 :: b := splice_eq (by simp)
  unfold committed
  rw [head]
  split
  · have byte : byteAt (0x11#8 :: b) 0 = 17 := by simp [byteAt, fieldLE, slice, leNat]
    rw [byte, show BitVec.ofNat 8 (17 - b2n (bit 17 1) * 2) = 0x11#8 by decide]
    exact kept
  · rfl

theorem movedEntry_spec {e : Bytes} (h : e.length = 16) (q : LearnReq) : ∀ e', e' = movedEntry q e → e'.length = 16 ∧
    slice e' 1 1 = [BitVec.ofNat 8 q.egrMac] ∧ slice e' 10 2 = leBytes 2 (q.leaf % 32768) ∧ slice e' 2 8 = slice e 2 8 := by
  rintro _ rfl
  have h1 : 1 + [BitVec.ofNat 8 q.egrMac].length ≤ e.length := by simp [h]
  have moved := splice_length h1
  have h2 : 10 + (leBytes 2 (q.leaf % 32768)).length ≤ (splice e 1 [BitVec.ofNat 8 q.egrMac]).length := by
    rw [leBytes_length, moved, h]
    decide
  unfold movedEntry
  refine ⟨(splice_length h2).trans (moved.trans h), ?_, ?_, ?_⟩
  · rw [slice_splice_before h2 (by decide)]
    exact slice_splice_same h1
  · have same := slice_splice_same h2
    rwa [leBytes_length] at same
  · rw [slice_splice_before h2 (by decide), slice_splice_after h1 (le_refl 2)]

theorem l2Learn_insert {s : State} {q : LearnReq} {r : List LearnReq} (h : s.pipe.learn = q :: r) {n : Nat}
    (ha : learnAct q (requestTaken r s) = .insert n) : Completes .l2Learn s fun t => t.pipe.learn = r ∧
      entValid (entry 1 n s) = false ∧ Tab.get 0 t.pipe.tbl (entKey 1 n) = leNat (learntEntry q s) ∧ t.mem = s.mem ∧ t.tm = s.tm := by
  refine .intro (l2Learn_exec h (.inl (by rw [ha]; exact LearnAct.noConfusion))) ?_
  obtain ⟨learn, stored, mem, tm⟩ := commitEntry_spec (entKey 1 n) (learntEntry q (requestTaken r s)) (requestTaken r s) _ rfl
  rw [learnDo_insert ha]
  exact ⟨learn, free_of_insert ha, stored.trans (congrArg leNat (committed_learntEntry ..)), mem, tm⟩

theorem l2Learn_move {s : State} {q : LearnReq} {r : List LearnReq} (h : s.pipe.learn = q :: r) {n : Nat}
    (ha : learnAct q (requestTaken r s) = .move n) : Completes .l2Learn s fun t => t.pipe.learn = r ∧
      byteAt (entry 1 n t) 1 = q.egrMac % 256 ∧ fieldLE (entry 1 n t) 10 2 = q.leaf % 32768 ∧
      slice (entry 1 n t) 2 8 = slice (entry 1 n s) 2 8 ∧ t.mem = s.mem ∧ t.tm = s.tm := by
  refine .intro (l2Learn_exec h (.inl (by rw [ha]; exact LearnAct.noConfusion))) ?_
  obtain ⟨length, mac, leaf, rest⟩ := movedEntry_spec (entry_length n s) q _ rfl
  have pos : 0 < (movedEntry q (entry 1 n s)).length := by rw [length]; decide
  obtain ⟨learn, stored, mem, tm⟩ := commitEntry_spec (entKey 1 n) (movedEntry q (entry 1 n s)) (requestTaken r s) _ rfl
  have now := entry_of_get ((committed_length pos _).trans length) stored
  rw [learnDo_move ha]
  refine ⟨learn, ?_, ?_, ?_, mem, tm⟩
  · rw [show entry 1 n (requestTaken r s) = entry 1 n s from rfl, now, byteAt, fieldLE, slice_committed pos (by decide), mac]
    simp [leNat]
  · rw [show entry 1 n (requestTaken r s) = entry 1 n s from rfl, now, fieldLE, slice_committed pos (by decide), leaf, leNat_leBytes]
    exact Nat.mod_eq_of_lt ((Nat.mod_lt _ (by decide)).trans (by decide))
  · rw [show entry 1 n (requestTaken r s) = entry 1 n s from rfl, now, slice_committed pos (by decide), rest]

theorem l2Learn_full {s : State} {q : LearnReq} {r : List LearnReq} (h : s.pipe.learn = q :: r)
    (ha : learnAct q (requestTaken r s) = .full) (hf : q.frame = []) : Completes .l2Learn s fun t =>
      t.pipe = (requestTaken r s).pipe ∧
      fget F.PL_L2_LEARN_FAIL_COUNT 0 t = (fget F.PL_L2_LEARN_FAIL_COUNT 0 s + 1) % 2 ^ F.PL_L2_LEARN_FAIL_COUNT.w ∧
      KeepsFields [F.PL_L2_LEARN_FAIL_COUNT.key 0] s t := by
  refine .intro (l2Learn_exec h (.inr hf)) ?_
  rw [learnDo_full ha]
  exact ⟨rfl, fget_bump_same .., KeepsFields.fset (t := requestTaken r s) (fun _ _ _ => rfl) (List.mem_singleton_self _)⟩

end Sys2Proof.Machine
end

section
/-! SUPPORT. A pass of the sweeper (R152); O20. -/
namespace Sys2Proof.Machine

/-! ### The part of a table that one bank holds -/

theorem Tab.filter_del {α : Type} {p : Nat × α → Bool} {n : Nat} (h : ∀ v, p (n, v) = false) (t : Tab α) :
    (Tab.del t n).filter p = t.filter p := by
  rw [Tab.del, List.filter_filter]
  refine List.filter_congr fun x _ => ?_
  obtain ⟨k, v⟩ := x
  by_cases e : k = n
  · rw [e, h v, Bool.false_and]
  · simp [e]

theorem Tab.filter_ins {α : Type} {p : Nat × α → Bool} {n : Nat} (h : ∀ v, p (n, v) = false) (v : α) (t : Tab α) :
    (Tab.ins n v t).filter p = t.filter p := by
  induction t with
  | nil => simp [Tab.ins, h v]
  | cons x t ih =>
    obtain ⟨k, w⟩ := x
    rw [Tab.ins]
    split
    · rw [List.filter_cons_of_neg (by simp [h v])]
    · rw [List.filter_cons, List.filter_cons, ih]

theorem Tab.filter_set {α : Type} [DecidableEq α] {p : Nat × α → Bool} {n : Nat} (h : ∀ v, p (n, v) = false) (d v : α)
    (t : Tab α) : (Tab.set d t n v).filter p = t.filter p := by
  unfold Tab.set
  split
  · exact Tab.filter_del h t
  · exact (Tab.filter_ins h v _).trans (Tab.filter_del h t)

/-- R144: the entries and the hit flags of bank `b`. -/
def bankPart (b : Nat) (s : State) : Tab Nat × Tab Bool :=
  (s.pipe.tbl.filter (fun x => x.1 / 65536 == b), s.pipe.hits.filter (fun x => x.1 / 65536 == b))

/-- R152: what the sweeper looks at of L2 entry `n`: its bytes and whether it was hit. -/
def cell (n : Nat) (s : State) : Nat × Bool := (Tab.get 0 s.pipe.tbl (entKey 1 n), Tab.get false s.pipe.hits (entKey 1 n))

theorem cell_of_bankPart {n b : Nat} {s t : State} (hb : entKey 1 n / 65536 = b) (h : bankPart b t = bankPart b s) :
    cell n t = cell n s := by
  obtain ⟨tbl, hits⟩ := Prod.mk.inj h
  unfold cell
  generalize entKey 1 n = k at hb ⊢
  have inT (v : Nat) : (k / 65536 == b) = true := beq_iff_eq.2 hb
  have inH (v : Bool) : (k / 65536 == b) = true := beq_iff_eq.2 hb
  rw [← Tab.get_filter_in 0 (fun x => x.1 / 65536 == b) t.pipe.tbl _ inT,
    ← Tab.get_filter_in 0 (fun x => x.1 / 65536 == b) s.pipe.tbl _ inT, tbl,
    ← Tab.get_filter_in false (fun x => x.1 / 65536 == b) t.pipe.hits _ inH,
    ← Tab.get_filter_in false (fun x => x.1 / 65536 == b) s.pipe.hits _ inH, hits]

theorem entry_of_cell {n : Nat} {s t : State} (h : cell n t = cell n s) : entry 1 n t = entry 1 n s :=
  congrArg (fun x : Nat × Bool => leBytes (entSize (tableBank 1)) x.1) h

theorem hit_of_cell {n : Nat} {s t : State} (h : cell n t = cell n s) :
    Tab.get false t.pipe.hits (entKey 1 n) = Tab.get false s.pipe.hits (entKey 1 n) := congrArg Prod.snd h

theorem entKey_l2_bank (n : Nat) : entKey 1 n / 65536 = 16 + n / 16384 := by
  rw [entKey_l2]
  omega

theorem entKey_l2_injective {n m : Nat} (h : entKey 1 m = entKey 1 n) : m = n := by
  rw [entKey_l2, entKey_l2] at h
  omega

/-! ### The entries of a bank (R152) -/

theorem l2InBank_nodup (b : Nat) (s : State) : (l2InBank b s).Nodup := (rising_spec _).1.filter _

theorem bank_of_mem_l2InBank {b n : Nat} {s : State} (hb : 16 ≤ b) (h : n ∈ l2InBank b s) : 16 + n / 16384 = b := by
  obtain ⟨x, hx, hn⟩ := List.mem_map.1 (((rising_spec _).2 n).1 (List.mem_of_mem_filter h))
  have small := (Bool.and_eq_true_iff.1 (List.mem_filter.1 hx).2).2
  have := of_decide_eq_true small
  omega

theorem l2InBank_congr {b : Nat} {s t : State} (hc : t.cfg = s.cfg) (h : bankPart b t = bankPart b s) :
    l2InBank b t = l2InBank b s := by
  have part (u : State) : u.pipe.tbl.filter (fun x => x.1 / 65536 == b && decide (x.1 % 65536 < 16384)) =
      (bankPart b u).1.filter (fun x => decide (x.1 % 65536 < 16384)) := by
    rw [bankPart, List.filter_filter]
    exact List.filter_congr fun x _ => Bool.and_comm ..
  rw [l2InBank, l2InBank, part, part, h, hc]

/-! ### Ageing one entry (R152) -/

/-- What a sweep changes: epochs, entries, hit flags and the passes owed, which it only adds. -/
structure Swept (s t : State) : Prop where
  parts : ∃ regs tbl hits owed, t = { s with regs := regs, pipe := { s.pipe with tbl := tbl, hits := hits, sweepOwed := owed } }
  locks : ∀ b, bankLocked b t = bankLocked b s
  owed : ∀ b, Tab.get false s.pipe.sweepOwed b = true → Tab.get false t.pipe.sweepOwed b = true

namespace Swept

theorem refl (s : State) : Swept s s := ⟨⟨_, _, _, _, rfl⟩, fun _ => rfl, fun _ h => h⟩

theorem trans {s t u : State} (h : Swept s t) (k : Swept t u) : Swept s u := by
  obtain ⟨_, _, _, _, ht⟩ := h.parts
  obtain ⟨_, _, _, _, hu⟩ := k.parts
  exact ⟨⟨_, _, _, _, by rw [hu, ht]⟩, fun b => (k.locks b).trans (h.locks b), fun b o => k.owed b (h.owed b o)⟩

theorem frame {s t : State} (h : Swept s t) : t.mem = s.mem ∧ t.tm = s.tm ∧ t.cfg = s.cfg := by
  obtain ⟨_, _, _, _, ht⟩ := h.parts
  rw [ht]
  exact ⟨rfl, rfl, rfl⟩

end Swept

/-- The entry at `k` replaced. -/
def putEntry (k v : Nat) (s : State) : State := { s with pipe := { s.pipe with tbl := Tab.set 0 s.pipe.tbl k v } }

/-- The entry at `k` without its hit. -/
def hitTaken (k : Nat) (s : State) : State := { s with pipe := { s.pipe with hits := Tab.del s.pipe.hits k } }

theorem putEntry_swept (k v : Nat) (s : State) : Swept s (putEntry k v s) := ⟨⟨_, _, _, _, rfl⟩, fun _ => rfl, fun _ h => h⟩

theorem hitTaken_swept (k : Nat) (s : State) : Swept s (hitTaken k s) := ⟨⟨_, _, _, _, rfl⟩, fun _ => rfl, fun _ h => h⟩

theorem bumpEpoch_swept (b : Nat) (s : State) : Swept s (bumpEpoch b s) :=
  ⟨⟨_, _, _, _, rfl⟩, fun _ => flag_fset_other (by decide) (by decide) (by decide), fun _ h => h⟩

theorem get_putEntry (k v : Nat) (s : State) : Tab.get 0 (putEntry k v s).pipe.tbl k = v := Tab.get_set_same 0 s.pipe.tbl k v

theorem hits_putEntry (k v : Nat) (s : State) : (putEntry k v s).pipe.hits = s.pipe.hits := rfl

theorem get_hitTaken (k : Nat) (s : State) : Tab.get false (hitTaken k s).pipe.hits k = false := Tab.get_del_same false s.pipe.hits k

/-- Entry `n` with flags `v`. -/
def putFlags (n v : Nat) (s : State) : State :=
  putEntry (entKey 1 n) (leNat (splice (entry 1 n s) 0 [BitVec.ofNat 8 v])) s

theorem hits_putFlags (n v : Nat) (s : State) : (putFlags n v s).pipe.hits = s.pipe.hits := by
  rw [putFlags, hits_putEntry]

theorem byteAt_putFlags {v : Nat} (h : v < 256) (n : Nat) (s : State) : byteAt (entry 1 n (putFlags n v s)) 0 = v := by
  have pos : 0 < (entry 1 n s).length := by rw [entry_length]; decide
  have length : (splice (entry 1 n s) 0 [BitVec.ofNat 8 v]).length = 16 :=
    (splice_length (new := [BitVec.ofNat 8 v]) pos).trans (entry_length n s)
  rw [putFlags, entry_of_get length (get_putEntry ..), byteAt_splice_same pos, Nat.mod_eq_of_lt h]

theorem entry_congr {n : Nat} {s t : State} (h : t.pipe = s.pipe) : entry 1 n t = entry 1 n s := by rw [entry, entry, h]

theorem sweepEntry_skip {n : Nat} {s : State} (h : entValid (entry 1 n s) = false ∨ bit (byteAt (entry 1 n s) 0) 2 = true) :
    sweepEntry n s = s := if_pos (by rcases h with h | h <;> simp [h])

section
variable {n : Nat} {s : State} (hv : entValid (entry 1 n s) = true) (hs : bit (byteAt (entry 1 n s) 0) 2 = false)
include hv hs

theorem sweepEntry_hit (h : Tab.get false s.pipe.hits (entKey 1 n) = true) : sweepEntry n s =
    putFlags n (byteAt (entry 1 n s) 0 - if bit (byteAt (entry 1 n s) 0) 3 then 8 else 0) (hitTaken (entKey 1 n) s) :=
  (if_neg (by simp [hv, hs])).trans (if_pos h)

theorem sweepEntry_young (h : Tab.get false s.pipe.hits (entKey 1 n) = false) (ho : bit (byteAt (entry 1 n s) 0) 3 = false) :
    sweepEntry n s = putFlags n (byteAt (entry 1 n s) 0 + 8) s :=
  (if_neg (by simp [hv, hs])).trans ((if_neg (by simp [h])).trans (if_pos (by simp [ho])))

theorem sweepEntry_old (h : Tab.get false s.pipe.hits (entKey 1 n) = false) (ho : bit (byteAt (entry 1 n s) 0) 3 = true) :
    sweepEntry n s = bumpEpoch (bankOf 1 n) (putFlags n (byteAt (entry 1 n s) 0 - 1) s) :=
  (if_neg (by simp [hv, hs])).trans ((if_neg (by simp [h])).trans (if_neg (by simp [ho])))

end

theorem bit_eq_decide (v k : Nat) : bit v k = decide (v / 2 ^ k % 2 = 1) := Nat.testBit_eq_decide_div_mod_eq

/-- R152: the flags of a valid entry (bit 0) made young (bit 3). -/
theorem flags_young {v : Nat} (h : bit v 0 = true) : bit (v - if bit v 3 then 8 else 0) 0 = true ∧
    bit (v - if bit v 3 then 8 else 0) 3 = false := by
  simp only [bit_eq_decide, decide_eq_true_eq, decide_eq_false_iff_not] at h ⊢
  split <;> omega

theorem flags_old {v : Nat} (hv : v < 256) (h : bit v 0 = true) (ho : bit v 3 = false) :
    v + 8 < 256 ∧ bit (v + 8) 0 = true ∧ bit (v + 8) 3 = true := by
  simp only [bit_eq_decide, decide_eq_true_eq, decide_eq_false_iff_not] at h ho ⊢
  omega

theorem flags_removed {v : Nat} (h : bit v 0 = true) : bit (v - 1) 0 = false := by
  simp only [bit_eq_decide, decide_eq_true_eq, decide_eq_false_iff_not] at h ⊢
  omega

/-- R152: what ageing does to an entry that is valid and not static. -/
theorem sweepEntry_ages {n : Nat} {s : State} (hv : entValid (entry 1 n s) = true) (hs : bit (byteAt (entry 1 n s) 0) 2 = false) :
    Tab.get false (sweepEntry n s).pipe.hits (entKey 1 n) = false ∧
    entValid (entry 1 n (sweepEntry n s)) = (Tab.get false s.pipe.hits (entKey 1 n) || !bit (byteAt (entry 1 n s) 0) 3) ∧
    (entValid (entry 1 n (sweepEntry n s)) = true →
      bit (byteAt (entry 1 n (sweepEntry n s)) 0) 3 = !Tab.get false s.pipe.hits (entKey 1 n)) := by
  have small := byteAt_lt (entry 1 n s) 0
  cases hit : Tab.get false s.pipe.hits (entKey 1 n) with
  | true =>
    obtain ⟨valid, young⟩ := flags_young hv
    rw [sweepEntry_hit hv hs hit, entValid, byteAt_putFlags (by omega), hits_putFlags]
    exact ⟨get_hitTaken .., valid, fun _ => young⟩
  | false =>
    cases ho : bit (byteAt (entry 1 n s) 0) 3 with
    | false =>
      obtain ⟨fits, valid, old⟩ := flags_old small hv ho
      rw [sweepEntry_young hv hs hit ho, entValid, byteAt_putFlags fits, hits_putFlags]
      exact ⟨hit, valid, fun _ => old⟩
    | true =>
      have gone := flags_removed hv
      have same (t : State) : (bumpEpoch (bankOf 1 n) t).pipe = t.pipe := rfl
      rw [sweepEntry_old hv hs hit ho, entry_congr (same _), same, entValid, byteAt_putFlags (by omega), hits_putFlags]
      exact ⟨hit, gone, fun valid => absurd (gone.symm.trans valid) (by decide)⟩

/-! ### What ageing one entry leaves -/

/-- R152: the four things that ageing an entry can do. -/
theorem sweepEntry_cases (n : Nat) (s : State) : sweepEntry n s = s ∨
    (∃ v, sweepEntry n s = putEntry (entKey 1 n) v (hitTaken (entKey 1 n) s)) ∨
    (∃ v, sweepEntry n s = putEntry (entKey 1 n) v s) ∨ ∃ v b, sweepEntry n s = bumpEpoch b (putEntry (entKey 1 n) v s) := by
  cases hv : entValid (entry 1 n s) with
  | false => exact .inl (sweepEntry_skip (.inl hv))
  | true =>
    cases hs : bit (byteAt (entry 1 n s) 0) 2 with
    | true => exact .inl (sweepEntry_skip (.inr hs))
    | false =>
      cases hit : Tab.get false s.pipe.hits (entKey 1 n) with
      | true => exact .inr (.inl ⟨_, sweepEntry_hit hv hs hit⟩)
      | false =>
        cases ho : bit (byteAt (entry 1 n s) 0) 3 with
        | false => exact .inr (.inr (.inl ⟨_, sweepEntry_young hv hs hit ho⟩))
        | true => exact .inr (.inr (.inr ⟨_, _, sweepEntry_old hv hs hit ho⟩))

theorem sweepEntry_swept (n : Nat) (s : State) : Swept s (sweepEntry n s) := by
  obtain h | ⟨v, h⟩ | ⟨v, h⟩ | ⟨v, b, h⟩ := sweepEntry_cases n s <;> rw [h]
  · exact .refl s
  · exact (hitTaken_swept ..).trans (putEntry_swept ..)
  · exact putEntry_swept ..
  · exact (putEntry_swept ..).trans (bumpEpoch_swept ..)

/-- Ageing an entry leaves what only the other entries have. -/
theorem sweepEntry_keeps {β : Type} {n : Nat} {φ : State → β} (tbl : ∀ v s, φ (putEntry (entKey 1 n) v s) = φ s)
    (hits : ∀ s, φ (hitTaken (entKey 1 n) s) = φ s) (epochs : ∀ b s, φ (bumpEpoch b s) = φ s) (s : State) :
    φ (sweepEntry n s) = φ s := by
  obtain h | ⟨v, h⟩ | ⟨v, h⟩ | ⟨v, b, h⟩ := sweepEntry_cases n s <;> rw [h]
  · exact (tbl ..).trans (hits ..)
  · exact tbl ..
  · exact (epochs ..).trans (tbl ..)

theorem cell_putEntry {n k : Nat} (h : entKey 1 n ≠ k) (v : Nat) (s : State) : cell n (putEntry k v s) = cell n s :=
  congrArg (·, Tab.get false s.pipe.hits (entKey 1 n)) (Tab.get_set_ne 0 0 s.pipe.tbl v h)

theorem cell_hitTaken {n k : Nat} (h : entKey 1 n ≠ k) (s : State) : cell n (hitTaken k s) = cell n s :=
  congrArg (Tab.get 0 s.pipe.tbl (entKey 1 n), ·) (Tab.get_del_ne false s.pipe.hits h)

theorem bankPart_putEntry {b k : Nat} (h : k / 65536 ≠ b) (v : Nat) (s : State) : bankPart b (putEntry k v s) = bankPart b s :=
  congrArg (·, (bankPart b s).2) (Tab.filter_set (p := fun x => x.1 / 65536 == b) (fun _ => beq_eq_false_iff_ne.2 h) 0 v s.pipe.tbl)

theorem bankPart_hitTaken {b k : Nat} (h : k / 65536 ≠ b) (s : State) : bankPart b (hitTaken k s) = bankPart b s :=
  congrArg ((bankPart b s).1, ·) (Tab.filter_del (p := fun x => x.1 / 65536 == b) (fun _ => beq_eq_false_iff_ne.2 h) s.pipe.hits)

theorem cell_sweepEntry_ne {n m : Nat} (h : n ≠ m) (s : State) : cell n (sweepEntry m s) = cell n s := by
  have apart : entKey 1 n ≠ entKey 1 m := fun e => h (entKey_l2_injective e)
  exact sweepEntry_keeps (φ := cell n) (cell_putEntry apart) (cell_hitTaken apart) (fun _ _ => rfl) s

theorem bankPart_sweepEntry_ne {m b : Nat} (h : entKey 1 m / 65536 ≠ b) (s : State) : bankPart b (sweepEntry m s) = bankPart b s :=
  sweepEntry_keeps (φ := bankPart b) (bankPart_putEntry h) (bankPart_hitTaken h) (fun _ _ => rfl) s

/-! ### A bank, and all of them (R152) -/

theorem sweepBank_locked {b : Nat} {s : State} (h : bankLocked b s = true) : sweepBank b s =
    { s with pipe := { s.pipe with sweepOwed := Tab.set false s.pipe.sweepOwed b true } } := if_pos h

theorem sweepBank_free {b : Nat} {s : State} (h : bankLocked b s = false) :
    sweepBank b s = (l2InBank b s).foldl (fun s n => sweepEntry n s) s := if_neg (by simp [h])

theorem owed_swept (b : Nat) (s : State) :
    Swept s { s with pipe := { s.pipe with sweepOwed := Tab.set false s.pipe.sweepOwed b true } } := by
  refine ⟨⟨_, _, _, _, rfl⟩, fun _ => rfl, fun c h => ?_⟩
  have put : Tab.get false (Tab.set false s.pipe.sweepOwed b true) c = true := by
    by_cases e : c = b
    · rw [e, Tab.get_set_same]
    · rw [Tab.get_set_ne false false _ _ e, h]
  exact put

theorem sweepBank_swept (b : Nat) (s : State) : Swept s (sweepBank b s) := by
  cases h : bankLocked b s with
  | true =>
    rw [sweepBank_locked h]
    exact owed_swept b s
  | false =>
    rw [sweepBank_free h]
    exact foldl_rel (R := Swept) .refl .trans (fun s n => sweepEntry_swept n s) _ s

/-- R152: sweeping one bank leaves the others. -/
theorem bankPart_sweepBank_ne {a b : Nat} (ha : 16 ≤ a) (h : a ≠ b) (s : State) : bankPart b (sweepBank a s) = bankPart b s := by
  cases hl : bankLocked a s with
  | true => rw [sweepBank_locked hl]; rfl
  | false =>
    rw [sweepBank_free hl]
    refine foldl_keeps (φ := bankPart b) (fun s m hm => bankPart_sweepEntry_ne ?_ s) s
    rw [entKey_l2_bank, bank_of_mem_l2InBank ha hm]
    exact h

/-- R152: sweeping an unlocked bank ages each of its entries once. -/
theorem cell_sweepBank {b n : Nat} {s : State} (h : bankLocked b s = false) (hn : n ∈ l2InBank b s) :
    ∃ u, cell n u = cell n s ∧ cell n (sweepBank b s) = cell n (sweepEntry n u) := by
  obtain ⟨u, -, same, last, -⟩ := foldl_visits (R := Swept) .refl .trans (fun s n => sweepEntry_swept n s) (l2InBank_nodup b s) hn
    (φ := cell n) (fun s m _ ne => cell_sweepEntry_ne ne.symm s) s
  rw [sweepBank_free h]
  exact ⟨u, same, last⟩

/-- R152: the state in which bank `16 + i` has its pass, and what the whole pass leaves of it. -/
theorem sweep_visits {i : Nat} (hi : i < 16) (s : State) : ∃ u, Swept s u ∧ bankPart (16 + i) u = bankPart (16 + i) s ∧
    bankPart (16 + i) ((List.range 16).foldl (fun s i => sweepBank (16 + i) s) s) = bankPart (16 + i) (sweepBank (16 + i) u) ∧
    Swept (sweepBank (16 + i) u) ((List.range 16).foldl (fun s i => sweepBank (16 + i) s) s) :=
  foldl_visits (R := Swept) .refl .trans (fun s i => sweepBank_swept (16 + i) s) List.nodup_range (List.mem_range.2 hi)
    (fun s a _ ne => bankPart_sweepBank_ne (Nat.le_add_right 16 a) (by omega) s) s

theorem l2Sweep_completes (s : State) : Completes .l2Sweep s fun t => t.mem = s.mem ∧ t.tm = s.tm ∧
    (∀ i, i < 16 → bankLocked (16 + i) s = true → Tab.get false t.pipe.sweepOwed (16 + i) = true) ∧
    (∀ i n, i < 16 → bankLocked (16 + i) s = true → n / 16384 = i → entry 1 n t = entry 1 n s) ∧
    (∀ i n, i < 16 → bankLocked (16 + i) s = false → n ∈ l2InBank (16 + i) s → entValid (entry 1 n s) = true →
      bit (byteAt (entry 1 n s) 0) 2 = false → Tab.get false t.pipe.hits (entKey 1 n) = false ∧
      entValid (entry 1 n t) = (Tab.get false s.pipe.hits (entKey 1 n) || !bit (byteAt (entry 1 n s) 0) 3) ∧
      (entValid (entry 1 n t) = true → bit (byteAt (entry 1 n t) 0) 3 = !Tab.get false s.pipe.hits (entKey 1 n))) := by
  refine .intro (t := (List.range 16).foldl (fun s i => sweepBank (16 + i) s) s) rfl ?_
  have all : Swept s ((List.range 16).foldl (fun s i => sweepBank (16 + i) s) s) :=
    foldl_rel (R := Swept) .refl .trans (fun s i => sweepBank_swept (16 + i) s) _ s
  obtain ⟨mem, tm, -⟩ := all.frame
  refine ⟨mem, tm, fun i hi hl => ?_, fun i n hi hl hn => ?_, fun i n hi hl hn hv hs => ?_⟩
  · obtain ⟨u, before, -, -, after⟩ := sweep_visits hi s
    refine after.owed _ ?_
    rw [sweepBank_locked ((before.locks _).trans hl)]
    exact Tab.get_set_same false u.pipe.sweepOwed _ true
  · obtain ⟨u, before, same, last, -⟩ := sweep_visits hi s
    rw [sweepBank_locked ((before.locks _).trans hl)] at last
    have mine : entKey 1 n / 65536 = 16 + i := by rw [entKey_l2_bank, hn]
    exact entry_of_cell (cell_of_bankPart mine (last.trans same))
  · obtain ⟨u, before, same, last, -⟩ := sweep_visits hi s
    have mine : entKey 1 n / 65536 = 16 + i := (entKey_l2_bank n).trans (bank_of_mem_l2InBank (Nat.le_add_right 16 i) hn)
    have here : n ∈ l2InBank (16 + i) u := by rwa [l2InBank_congr before.frame.2.2 same]
    obtain ⟨v, own, aged⟩ := cell_sweepBank ((before.locks _).trans hl) here
    have start : cell n v = cell n s := own.trans (cell_of_bankPart mine same)
    have done := (cell_of_bankPart mine last).trans aged
    rw [hit_of_cell done, entry_of_cell done, ← hit_of_cell start, ← entry_of_cell start]
    rw [← entry_of_cell start] at hv hs
    exact sweepEntry_ages hv hs

end Sys2Proof.Machine
end

section
/-! CERTIFICATE. Tails of cut-through frames (R201, R202); O20. -/
namespace Sys2Proof.Machine

/-! ### The cells that a frame did not use (R193, R201) -/

/-- A field that is not of the shared carve keeps its value when a leaf's cells change. -/
theorem fget_setLeafUni_other {f : Fld} (hu : f.key 0 ≠ F.TM_SHARED_USED_CELLS.key 0) (hp : f.key 0 ≠ F.TM_SHARED_PEAK_CELLS.key 0)
    (hf : f.key 0 < 16384) (i q v : Nat) (s : State) : fget f i (setLeafUni q v s) = fget f i s := by
  have shared (n : Nat) : fget f i (setShared n s) = fget f i s :=
    (fget_fset_other hp (by decide) hf).trans (fget_fset_other hu (by decide) hf)
  exact shared _

theorem leafDepth_tailCells (c : Copy) (s : State) : leafDepth c.leaf (tailCells c s) =
    (leafDepth c.leaf s - (c.cells - cellsOf c.len)) % 2 ^ F.TM_LEAF_DEPTH_CELLS.w :=
  (fget_setLeafUni_other (by decide) (by decide) (by decide) ..).trans (fget_fset_same ..)

theorem fget_tailCells_stomp (c : Copy) (i : Nat) (s : State) :
    fget F.TM_CT_STOMP_TX_COUNT i (tailCells c s) = fget F.TM_CT_STOMP_TX_COUNT i s :=
  (fget_setLeafUni_other (by decide) (by decide) (by decide) ..).trans (fget_fset_other (by decide) (by decide) (by decide))

theorem tailCells_released (c : Copy) (s : State) : Released s (tailCells c s) :=
  .trans (.rest s _ _ _ _ _) ((setShared_released ..).trans (.rest _ _ _ _ _ _))

/-! ### A stomped frame (R202) -/

theorem stompCount_spec (c : Copy) (s : State) : ∀ t, t = stompCount c s → t.ports = s.ports ∧ t.mem = s.mem ∧ t.out = s.out ∧
    leafDepth c.leaf t = leafDepth c.leaf s ∧
    fget F.TM_CT_STOMP_TX_COUNT c.egr t = (fget F.TM_CT_STOMP_TX_COUNT c.egr s + 1) % 2 ^ F.TM_CT_STOMP_TX_COUNT.w := by
  rintro _ rfl
  unfold stompCount
  have counted (u : State) : OnlyMac u (macCnt c.egr 21 1 (macCnt c.ingMac 15 1 u)) := (macCnt_onlyMac ..).trans (macCnt_onlyMac ..)
  have ports (u : State) : (macCnt c.egr 21 1 (macCnt c.ingMac 15 1 u)).ports = u.ports := (macCnt_ports ..).trans (macCnt_ports ..)
  obtain ⟨mem, -, out⟩ := (counted (bump F.TM_CT_STOMP_TX_COUNT c.egr (bump F.TM_CT_STOMP_RX_COUNT c.ingMac s))).frame
  obtain ⟨regs, -⟩ := (counted (bump F.TM_CT_STOMP_TX_COUNT c.egr (bump F.TM_CT_STOMP_RX_COUNT c.ingMac s))).rest
  refine ⟨ports _, mem, out, (fget_congr regs).trans ?_, (fget_congr regs).trans ?_⟩
  · rw [fget_bump_other (by decide) (by decide) (by decide), fget_bump_other (by decide) (by decide) (by decide)]
    rfl
  · rw [fget_bump_same, fget_bump_other (by decide) (by decide) (by decide)]

/-! ### The tail of the copy on a wire -/

/-- R201: the copy whose tail has arrived, on the wire of `p`. -/
def wireDone (p : Nat) (c : Copy) (s : State) : State :=
  { tailCells c s with
    ports := { (tailCells c s).ports with
      wire := Tab.put (tailCells c s).ports.wire p { c with cutThrough := false, cells := cellsOf c.len } } }

theorem tailArrives_wire {p : Nat} {s : State} {c : Copy} (h : Tab.find? s.ports.wire p = some c) (hc : c.cutThrough = true) :
    tailArrives p s = if c.bad then stompCount c (wireDone p c s) else wireDone p c s := by
  unfold tailArrives
  rw [h, Option.filter_some, if_pos hc]
  rfl

theorem wireDone_spec (p : Nat) (c : Copy) (s : State) : ∀ t, t = wireDone p c s →
    Tab.find? t.ports.wire p = some { c with cutThrough := false, cells := cellsOf c.len } ∧
    leafDepth c.leaf t = (leafDepth c.leaf s - (c.cells - cellsOf c.len)) % 2 ^ F.TM_LEAF_DEPTH_CELLS.w ∧
    fget F.TM_CT_STOMP_TX_COUNT c.egr t = fget F.TM_CT_STOMP_TX_COUNT c.egr s ∧ t.mem = s.mem ∧ t.out = s.out := by
  rintro _ rfl
  have back := tailCells_released c s
  have depth := leafDepth_tailCells c s
  have stomps := fget_tailCells_stomp c c.egr s
  unfold wireDone
  generalize tailCells c s = u at back depth stomps ⊢
  exact ⟨Tab.find?_put_same .., depth, stomps, back.mem, back.out⟩

theorem cutThroughTail_completes {p : Port} {s : State} {c : Copy} (h : Tab.find? s.ports.wire p = some c) (hc : c.cutThrough = true) :
    Completes (.cutThroughTail p) s fun t =>
      Tab.find? t.ports.wire p = some { c with cutThrough := false, cells := cellsOf c.len } ∧
      leafDepth c.leaf t = (leafDepth c.leaf s - (c.cells - cellsOf c.len)) % 2 ^ F.TM_LEAF_DEPTH_CELLS.w ∧
      (c.bad = true → fget F.TM_CT_STOMP_TX_COUNT c.egr t =
        (fget F.TM_CT_STOMP_TX_COUNT c.egr s + 1) % 2 ^ F.TM_CT_STOMP_TX_COUNT.w) ∧ t.mem = s.mem ∧ t.out = s.out := by
  obtain ⟨wire, depth, stomps, mem, out⟩ := wireDone_spec p c s _ rfl
  refine .intro (congrArg Host.Outcome.next (tailArrives_wire h hc)) ?_
  split
  case isTrue bad =>
    obtain ⟨ports, mem', out', depth', stomped⟩ := stompCount_spec c (wireDone p c s) _ rfl
    exact ⟨by rw [ports, wire], depth'.trans depth, fun _ => by rw [stomped, stomps], mem'.trans mem, out'.trans out⟩
  case isFalse good => exact ⟨wire, depth, fun bad => absurd bad good, mem, out⟩

/-- Settles O20: frames at an ingress MAC, learning, ageing and cut-through tails. -/
theorem framesEnterAndLearn : Obligations.FramesEnterAndLearn := by
  refine ⟨fun _ f a b _ h => frameIngress_counts h f a b, fun _ _ _ _ => frameIngress_pause, fun _ _ _ _ => frameIngress_untagged,
    fun s q r h => ?_, l2Sweep_completes, fun _ _ _ => cutThroughTail_completes⟩
  rintro u rfl
  exact ⟨fun _ => l2Learn_insert h, fun _ => l2Learn_move h, l2Learn_full h⟩

end Sys2Proof.Machine
end

section
/-! SUPPORT and CERTIFICATE. Writes of table entries, and the locks of the L2 banks (R174, R175, R177, R180); O18. -/
namespace Sys2Proof.Machine

/-! ### A committed entry (R175, R180) -/

theorem entSize_pos (b : Nat) : 0 < entSize b := by
  unfold entSize
  split_ifs <;> decide

/-- R174: the entries of a bank have keys of their own. -/
theorem entCount_le (b : Nat) : entCount b ≤ 65536 := by
  unfold entCount
  split_ifs <;> decide

/-- R176: an entry without a hit bit is stored as it is written. -/
theorem committed_of_unhit {key : Nat} {e : Bytes} (he : 0 < e.length) (h : 32 ≤ key / 65536 ∨ bit (byteAt e 0) 1 = false) :
    committed key e = e := by
  unfold committed
  split
  case isTrue l2 =>
    have unhit : bit (byteAt e 0) 1 = false := h.resolve_left (by omega)
    cases e with
    | nil => exact absurd he (by decide)
    | cons x r =>
      have first : byteAt (x :: r) 0 = x.toNat := by simp [byteAt, fieldLE, slice, leNat]
      rw [unhit, first]
      exact (splice_eq (by simp)).trans (by simp [b2n])
  case isFalse => rfl

theorem get_commitEntry (key : Nat) (e : Bytes) (s : State) (m : Nat) : Tab.get 0 (commitEntry key e s).pipe.tbl m =
    if m = key then leNat (committed key e) else Tab.get 0 s.pipe.tbl m := Tab.get_set ..

theorem commitEntry_keeps (key : Nat) (e : Bytes) (s : State) :
    KeepsFields [F.TBL_EPOCH_EPOCH.key (key / 65536)] s (commitEntry key e s) :=
  fun _ _ other => fget_fset_ne (fun same => other (by simp [same])) ..

theorem fget_commitEntry_epoch (key : Nat) (e : Bytes) (s : State) : fget F.TBL_EPOCH_EPOCH (key / 65536) (commitEntry key e s) =
    (fget F.TBL_EPOCH_EPOCH (key / 65536) s + 1) % 2 ^ 32 := fget_bump_same ..

/-- R157: units 1 to 3 of an IPv6 entry of the LPM pool. -/
theorem get_restUnits (key : Nat) (e : Bytes) (s : State) (m : Nat) : Tab.get 0 (restUnits key e s).pipe.tbl m =
    if key < m ∧ m < key + 4 then leNat (slice e (16 * (m - key)) 16) else Tab.get 0 s.pipe.tbl m := by
  have stored : Tab.get 0 (restUnits key e s).pipe.tbl m = if m = key + 3 then leNat (slice e 48 16)
      else if m = key + 2 then leNat (slice e 32 16) else if m = key + 1 then leNat (slice e 16 16) else Tab.get 0 s.pipe.tbl m := by
    simp [restUnits, List.range_succ, Tab.get_set, Nat.add_assoc]
  rw [stored]
  by_cases inside : key < m ∧ m < key + 4
  · obtain rfl | rfl | rfl : m = key + 1 ∨ m = key + 2 ∨ m = key + 3 := by omega
    all_goals simp
  · rw [if_neg inside, if_neg (by omega), if_neg (by omega), if_neg (by omega)]

/-! ### A write of a bank, case by case (R175, R177) -/

section
variable {b i : Nat} {e : Bytes} {s : State}

theorem tableWrite_unlocked (hi : i < entCount b) (hb : 16 ≤ b ∧ b < 32) (h : bankLocked b s = false) :
    tableWrite b i e s = bump F.PL_TBL_BAD_WR_COUNT 0 (setFlag F.TBL_STATUS_UNLOCKED_WR b true s) :=
  (if_neg (by omega)).trans (if_pos ⟨hb.1, hb.2, h⟩)

/-- R175: a write of an entry of another length covers part of an entry. -/
theorem tablePartial_of_length (h : e.length ≠ entLen b e) : tablePartial b i e s = true := by simp [tablePartial, h]

theorem length_of_whole (h : tablePartial b i e s = false) : e.length = entLen b e := by
  by_contra other
  exact Bool.noConfusion (h.symm.trans (tablePartial_of_length other))

/-- R157: only the LPM pool has entries of another length than its units. -/
theorem entLen_cases (b : Nat) (e : Bytes) : entLen b e = entSize b ∨ (32 ≤ b ∧ b < 48) ∧ entLen b e = 64 ∧ entSize b = 16 := by
  unfold entLen
  split
  case isTrue pool =>
    obtain ⟨low, high, -⟩ := pool
    exact .inr ⟨⟨low, high⟩, rfl, by rw [entSize, if_neg (by omega), if_pos high]⟩
  case isFalse => exact .inl rfl

variable (hi : i < entCount b) (hl : b < 16 ∨ 32 ≤ b ∨ bankLocked b s = true)
include hi hl

/-- R177: a write inside a bank that is not held off is taken, or refused as partial. -/
theorem tableWrite_admitted : tableWrite b i e s =
    if tablePartial b i e s then bump F.PL_TBL_BAD_WR_COUNT 0 (setFlag F.TBL_STATUS_PARTIAL_WR b true s)
    else if 48 ≤ b ∧ b < 56 then { s with pipe := { s.pipe with tbl := Tab.set 0 s.pipe.tbl (b * 65536 + i) (leNat e) } }
    else if entLen b e = entSize b then commitEntry (b * 65536 + i) e s
    else commitEntry (b * 65536 + i) (e.take 16) (restUnits (b * 65536 + i) e s) := by
  refine (if_neg (by omega)).trans (if_neg ?_)
  rintro ⟨low, high, free⟩
  obtain h | h | h := hl
  · omega
  · omega
  · exact Bool.noConfusion (free.symm.trans h)

theorem tableWrite_partial (h : tablePartial b i e s = true) :
    tableWrite b i e s = bump F.PL_TBL_BAD_WR_COUNT 0 (setFlag F.TBL_STATUS_PARTIAL_WR b true s) :=
  (tableWrite_admitted hi hl).trans (if_pos h)

theorem tableWrite_ring (h : tablePartial b i e s = false) (hr : 48 ≤ b ∧ b < 56) : tableWrite b i e s =
    { s with pipe := { s.pipe with tbl := Tab.set 0 s.pipe.tbl (b * 65536 + i) (leNat e) } } :=
  (tableWrite_admitted hi hl).trans ((if_neg (by simp [h])).trans (if_pos hr))

theorem tableWrite_whole (h : tablePartial b i e s = false) (hr : b < 48 ∨ 56 ≤ b) : tableWrite b i e s =
    if entLen b e = entSize b then commitEntry (b * 65536 + i) e s
    else commitEntry (b * 65536 + i) (e.take 16) (restUnits (b * 65536 + i) e s) :=
  (tableWrite_admitted hi hl).trans ((if_neg (by simp [h])).trans (if_neg (by omega)))

end

/-! ### The commands that write a bank -/

/-- R175, R180: bank `b` holds the entry `e` at `i`, in as many units as it takes, and its epoch has advanced. -/
structure EntryCommitted (b i : Nat) (e : Bytes) (s t : State) : Prop where
  epoch : fget F.TBL_EPOCH_EPOCH b t = (fget F.TBL_EPOCH_EPOCH b s + 1) % 2 ^ 32
  first : 32 ≤ b ∨ bit (byteAt e 0) 1 = false → Tab.get 0 t.pipe.tbl (b * 65536 + i) = leNat (e.take (entSize b))
  units : ∀ k, 0 < k → k < e.length / entSize b → Tab.get 0 t.pipe.tbl (b * 65536 + i + k) = leNat (slice e (16 * k) 16)
  others : ∀ k, k < b * 65536 + i ∨ b * 65536 + i + e.length / entSize b ≤ k → Tab.get 0 t.pipe.tbl k = Tab.get 0 s.pipe.tbl k
  fields : KeepsFields [F.TBL_EPOCH_EPOCH.key b] s t
  mem : t.mem = s.mem

section
variable {b i : Nat} {e : Bytes} (s : State) (hi : i < entCount b)
include hi

theorem bank_of_key : (b * 65536 + i) / 65536 = b := by
  have := entCount_le b
  omega

/-- An entry of one unit. -/
theorem commitEntry_committed (he : e.length = entSize b) : EntryCommitted b i e s (commitEntry (b * 65536 + i) e s) := by
  have bank := bank_of_key hi
  have pos : 0 < e.length := he ▸ entSize_pos b
  have one : e.length / entSize b = 1 := by rw [he, Nat.div_self (entSize_pos b)]
  have epoch := fget_commitEntry_epoch (b * 65536 + i) e s
  have fields := commitEntry_keeps (b * 65536 + i) e s
  rw [bank] at epoch fields
  refine ⟨epoch, fun unhit => ?_, fun k _ _ => by omega, fun k _ => ?_, fields, rfl⟩
  · rw [get_commitEntry, if_pos rfl, committed_of_unhit pos (by rwa [bank]), List.take_of_length_le he.le]
  · rw [get_commitEntry, if_neg (by omega)]

/-- An IPv6 entry of the LPM pool: four units. -/
theorem commitEntry_restUnits_committed (hb : 32 ≤ b) (he : e.length = 64) (hs : entSize b = 16) :
    EntryCommitted b i e s (commitEntry (b * 65536 + i) (e.take 16) (restUnits (b * 65536 + i) e s)) := by
  have bank := bank_of_key hi
  have pos : 0 < (e.take 16).length := by simp [he]
  have four : e.length / entSize b = 4 := by rw [he, hs]
  have epoch := fget_commitEntry_epoch (b * 65536 + i) (e.take 16) (restUnits (b * 65536 + i) e s)
  have fields := commitEntry_keeps (b * 65536 + i) (e.take 16) (restUnits (b * 65536 + i) e s)
  rw [bank] at epoch fields
  refine ⟨epoch, fun unhit => ?_, fun k _ _ => ?_, fun k _ => ?_, fields, rfl⟩
  · rw [get_commitEntry, if_pos rfl, committed_of_unhit pos (by omega), hs]
  · rw [get_commitEntry, if_neg (by omega), get_restUnits, if_pos (by omega), Nat.add_sub_cancel_left]
  · rw [get_commitEntry, if_neg (by omega), get_restUnits, if_neg (by omega)]

end

section
variable {b : Bank} {i : Nat} {e : Bytes} {s : State}

theorem tableWriteCommit_whole (hi : i < entCount b) (hp : tablePartial b i e s = false) (hr : b.val < 48 ∨ 56 ≤ b.val)
    (hl : b.val < 16 ∨ 32 ≤ b.val ∨ bankLocked b s = true) : Completes (.tableWriteCommit b i e) s (EntryCommitted b i e s) := by
  refine .intro (congrArg Host.Outcome.next (tableWrite_whole hi hl hp hr)) ?_
  have whole := length_of_whole hp
  split
  case isTrue unit => exact commitEntry_committed s hi (whole.trans unit)
  case isFalse several =>
    obtain ⟨⟨low, -⟩, four, size⟩ := (entLen_cases b e).resolve_left several
    exact commitEntry_restUnits_committed s hi low (whole.trans four) size

/-- R174: a record of 32 bytes inside a trie ring is a whole entry. -/
theorem ring_whole (hr : 48 ≤ b.val ∧ b.val < 56) (hi : i < 1024) (he : e.length = 32) :
    entCount b = 1024 ∧ tablePartial b i e s = false := by
  have count : entCount b = 1024 := by unfold entCount; split_ifs <;> omega
  have size : entSize b = 32 := by unfold entSize; split_ifs <;> omega
  have length : entLen b e = 32 := size ▸ (entLen_cases b e).resolve_right fun h => absurd h.1.2 (by omega)
  refine ⟨count, ?_⟩
  simp only [tablePartial, count, size, length, he, Bool.or_eq_false_iff, Bool.and_eq_false_iff, decide_eq_false_iff_not]
  exact ⟨⟨rfl, by omega⟩, .inl (.inr (by omega))⟩

theorem tableWriteCommit_ring (low : 48 ≤ b.val) (high : b.val < 56) (hi : i < 1024) (he : e.length = 32) :
    Completes (.tableWriteCommit b i e) s fun t => Tab.get 0 t.pipe.tbl (b * 65536 + i) = leNat e ∧ t.regs = s.regs ∧
      (∀ k, k ≠ b * 65536 + i → Tab.get 0 t.pipe.tbl k = Tab.get 0 s.pipe.tbl k) ∧ t.mem = s.mem := by
  obtain ⟨count, whole⟩ := ring_whole (s := s) ⟨low, high⟩ hi he
  exact .intro (congrArg Host.Outcome.next (tableWrite_ring (by omega) (by omega) whole ⟨low, high⟩))
    ⟨Tab.get_set_same .., rfl, fun _ other => Tab.get_set_ne _ _ _ _ other, rfl⟩

end

/-- R175, R177: a refused write sets its bit of TBL_STATUS, counts, and does nothing else. -/
theorem refusedWrite_spec {f : Fld} {b : Nat} {s : State} (hw : f.w = 1) (hk : f.key 0 < 16384)
    (hc : f.key 0 ≠ F.PL_TBL_BAD_WR_COUNT.key 0) : ∀ t, t = bump F.PL_TBL_BAD_WR_COUNT 0 (setFlag f b true s) →
      flag f b t = true ∧
      fget F.PL_TBL_BAD_WR_COUNT 0 t = (fget F.PL_TBL_BAD_WR_COUNT 0 s + 1) % 2 ^ F.PL_TBL_BAD_WR_COUNT.w ∧
      OnlyFields [f.key b, F.PL_TBL_BAD_WR_COUNT.key 0] s t := by
  rintro _ rfl
  refine ⟨?_, ?_, ((OnlyFields.refl _ s).setFlag (by simp)).bump (by simp)⟩
  · rw [flag_bump_other hc (by decide) hk, flag_setFlag_same f b true s hw]
  · rw [fget_bump_same, fget_setFlag_other hc.symm hk (by decide)]

/-! ### Locks (R177) -/

/-- R177: the lock of bank `b`, asked for and held, and the memory. -/
def lockPart (b : Nat) (s : State) : Bool × Bool × Memory := (flag F.TBL_CTRL_LOCK b s, bankLocked b s, s.mem)

theorem lockPart_bump {f : Fld} (hk : f.key 0 < 16384) (hc : F.TBL_CTRL_LOCK.key 0 ≠ f.key 0)
    (ha : F.TBL_STATUS_LOCK_ACTIVE.key 0 ≠ f.key 0) (b i : Nat) (s : State) : lockPart b (bump f i s) = lockPart b s := by
  rw [lockPart, bankLocked, flag_bump_other hc hk (by decide), flag_bump_other ha hk (by decide)]
  rfl

theorem lockPart_commitEntry (b key : Nat) (e : Bytes) (s : State) : lockPart b (commitEntry key e s) = lockPart b s :=
  lockPart_bump (by decide) (by decide) (by decide) b (key / 65536) _

theorem lockPart_learnDo (b : Nat) (q : LearnReq) (s : State) : lockPart b (learnDo q s) = lockPart b s := by
  cases h : learnAct q s with
  | nothing => rw [learnDo, h]
  | locked =>
    rw [learnDo, h]
    dsimp only
    unfold learnDefer
    split
    · rfl
    · exact lockPart_bump (by decide) (by decide) (by decide) ..
  | move n => exact (congrArg _ (learnDo_move h)).trans (lockPart_commitEntry ..)
  | insert n => exact (congrArg _ (learnDo_insert h)).trans (lockPart_commitEntry ..)
  | full => exact (congrArg _ (learnDo_full h)).trans (lockPart_bump (by decide) (by decide) (by decide) ..)

theorem lockPart_sweepBank (b c : Nat) (s : State) : lockPart b (sweepBank c s) = lockPart b s := by
  cases h : bankLocked c s with
  | true => rw [sweepBank_locked h]; rfl
  | false =>
    rw [sweepBank_free h]
    refine foldl_keeps (φ := lockPart b) (fun s n _ => sweepEntry_keeps (φ := lockPart b) (fun _ _ => rfl) (fun _ => rfl) ?_ s) s
    exact fun c s => lockPart_bump (by decide) (by decide) (by decide) b c s

/-- The lock of `b` is neither asked for nor held. -/
def lockDropped (b : Nat) (s : State) : State :=
  setFlag F.TBL_STATUS_LOCK_ACTIVE b false (setFlag F.TBL_CTRL_LOCK b false s)

theorem lockPart_lockDropped (b : Nat) (s : State) : lockPart b (lockDropped b s) = (false, false, s.mem) := by
  rw [lockPart, lockDropped, bankLocked, flag_setFlag_other (by decide) (by decide) (by decide),
    flag_setFlag_same _ _ _ _ rfl, flag_setFlag_same _ _ _ _ rfl]
  rfl

theorem bankLocked_ctrl (b : Nat) (s : State) : bankLocked b (setFlag F.TBL_CTRL_LOCK b false s) = bankLocked b s :=
  flag_setFlag_other (by decide) (by decide) (by decide)

/-- The requests that waited for a lock are carried out. -/
def deferredDone (s : State) : State :=
  s.pipe.deferred.foldl (fun s q => learnDo q s) { s with pipe := { s.pipe with deferred := [] } }

theorem lockPart_deferredDone (b : Nat) (s : State) : lockPart b (deferredDone s) = lockPart b s :=
  foldl_keeps (φ := lockPart b) (fun s q _ => lockPart_learnDo b q s) _

theorem bankUnlock_free {b : Nat} {s : State} (h : bankLocked b s = false) :
    bankUnlock b s = setFlag F.TBL_CTRL_LOCK b false s := if_pos (by rw [bankLocked_ctrl, h]; rfl)

theorem bankUnlock_held {b : Nat} {s : State} (h : bankLocked b s = true) : ∀ u, u = deferredDone (lockDropped b s) →
    bankUnlock b s = if Tab.get false u.pipe.sweepOwed b then
      sweepBank b { u with pipe := { u.pipe with sweepOwed := Tab.del u.pipe.sweepOwed b } } else u := by
  rintro _ rfl
  exact if_neg (by rw [bankLocked_ctrl, h]; decide)

theorem lockPart_bankUnlock (b : Nat) (s : State) : lockPart b (bankUnlock b s) = (false, false, s.mem) := by
  cases h : bankLocked b s with
  | false =>
    rw [bankUnlock_free h, lockPart, bankLocked_ctrl, h, flag_setFlag_same _ _ _ _ rfl]
    rfl
  | true =>
    have done := (lockPart_deferredDone b (lockDropped b s)).trans (lockPart_lockDropped b s)
    rw [bankUnlock_held h _ rfl]
    split
    · exact (lockPart_sweepBank ..).trans done
    · exact done

theorem tblLock_completes {fn : Fn} {b : Bank} {s : State} (hr : Reaches fn .TBL_CTRL b s) (w : Word) :
    Completes (.tblLock fn b w) s fun t => flag F.TBL_CTRL_LOCK b t = true ∧ OnlyFields [F.TBL_CTRL_LOCK.key b] s t := by
  have asked : wbit F.TBL_CTRL_LOCK (withBit w 0 true) = true := wbit_withBit_same F.TBL_CTRL_LOCK w true rfl (by decide)
  exact .intro (congrArg Host.Outcome.next ((hostWr_reaches hr _).trans (if_pos asked)))
    ⟨flag_setFlag_same _ _ _ _ rfl, (OnlyFields.refl _ s).setFlag (List.mem_singleton_self _)⟩

theorem tblUnlock_completes {fn : Fn} {b : Bank} {s : State} (hr : Reaches fn .TBL_CTRL b s) (w : Word) :
    Completes (.tblUnlock fn b w) s fun t => flag F.TBL_CTRL_LOCK b t = false ∧ bankLocked b t = false ∧ t.mem = s.mem := by
  have released : wbit F.TBL_CTRL_LOCK (withBit w 0 false) = false := wbit_withBit_same F.TBL_CTRL_LOCK w false rfl (by decide)
  have unlocked : lockPart b (bankUnlock b s) = (false, false, s.mem) := lockPart_bankUnlock b s
  simp only [lockPart, Prod.mk.injEq] at unlocked
  exact .intro (congrArg Host.Outcome.next ((hostWr_reaches hr _).trans (if_neg (by simp [released])))) unlocked

theorem lockActive_completes {b : Bank} {s : State} (h : flag F.TBL_CTRL_LOCK b s = true) : Completes (.lockActive b) s fun t =>
    bankLocked b t = true ∧ OnlyFields [F.TBL_STATUS_LOCK_ACTIVE.key b] s t :=
  .intro (congrArg Host.Outcome.next (if_pos h))
    ⟨flag_setFlag_same _ _ _ _ rfl, (OnlyFields.refl _ s).setFlag (List.mem_singleton_self _)⟩

/-- Settles O18: writes of whole, partial and unlocked entries, and the locks. -/
theorem tableWritesAndLocks : Obligations.TableWritesAndLocks := by
  refine ⟨fun b i e s hi hp hr hl => ?_, fun _ _ _ _ => tableWriteCommit_ring, fun b i e s hi he hl => ?_,
    fun b i e s low high hi hl => ?_, fun _ _ w _ hr => ⟨tblLock_completes hr w, tblUnlock_completes hr w⟩,
    fun _ _ => lockActive_completes⟩
  · obtain ⟨t, step, done⟩ := tableWriteCommit_whole hi hp hr hl
    exact ⟨t, step, done.epoch, done.first, done.units, done.others, done.fields, done.mem⟩
  · exact .intro (congrArg Host.Outcome.next (tableWrite_partial hi hl (tablePartial_of_length he)))
      (refusedWrite_spec rfl (by decide) (by decide) _ rfl)
  · exact .intro (congrArg Host.Outcome.next (tableWrite_unlocked hi ⟨low, high⟩ hl))
      (refusedWrite_spec rfl (by decide) (by decide) _ rfl)

end Sys2Proof.Machine
end

section
/-! SUPPORT and CERTIFICATE. The trie builder (R161, R162, R180); O19. -/
namespace Sys2Proof.Machine

/-! ### The record at HEAD (R162) -/

/-- R161: the record of slot `k` at HEAD. -/
def trieRecord (k : Nat) (s : State) : Bytes :=
  leBytes 32 (Tab.get 0 s.pipe.tbl ((48 + k) * 65536 + fget F.TRIE_RING_HEAD_HEAD k s))

/-- R162: HEAD of slot `k` has advanced. -/
def trieTaken (k : Nat) (s : State) : State := fset F.TRIE_RING_HEAD_HEAD k ((fget F.TRIE_RING_HEAD_HEAD k s + 1) % 1024) s

/-- R162: bits of an address of the record's family. -/
def recordWidth (r : Bytes) : Nat := if byteAt r 24 = 6 then 128 else 32

/-- R162: the record is one that slot `k` takes. -/
def RecordGood (k : Nat) (r : Bytes) (s : State) : Prop := (privVrfs s.cfg)[k]? = some (fieldLE r 2 2) ∧
  (byteAt r 24 = 4 ∨ byteAt r 24 = 6) ∧ byteAt r 1 ≤ recordWidth r ∧ byteAt r 0 ≤ 2

/-- Key of the record's prefix in the trie of slot `k`. -/
def recordKey (k : Nat) (r : Bytes) : Nat :=
  trieKey k (byteAt r 24 == 6) (byteAt r 1) (maskLen (recordWidth r) (byteAt r 1) (fieldBE r 8 (recordWidth r / 8)))

/-- R162: the trie after a record that adds or deletes its prefix. -/
def trieChanged (k : Nat) (r : Bytes) (s : State) : State := { s with pipe := { s.pipe with
  trie := if byteAt r 0 = 1 then Tab.put s.pipe.trie (recordKey k r) (fieldLE r 4 4 + 1) else Tab.del s.pipe.trie (recordKey k r) } }

/-- R162: what the builder makes of the record `r` that it took. -/
def trieApply (k : Nat) (fits : Bool) (r : Bytes) (s : State) : State :=
  if byteAt r 0 = 0 then bumpEpoch (48 + k) s
  else if byteAt r 0 = 1 ∧ fits = false then setEvent F.TRIE_STATUS_NO_NODE k (104 + k) s
  else bumpEpoch (48 + k) (trieChanged k r s)

/-- R162: a record is refused or applied. -/
theorem trieBuild_eq (k : Nat) (fits : Bool) (s : State) : trieBuild k fits s =
    if (privVrfs s.cfg)[k]? ≠ some (fieldLE (trieRecord k s) 2 2) ∨
        (byteAt (trieRecord k s) 24 ≠ 4 ∧ byteAt (trieRecord k s) 24 ≠ 6) ∨
        recordWidth (trieRecord k s) < byteAt (trieRecord k s) 1 ∨ 2 < byteAt (trieRecord k s) 0 then
      setEvent F.TRIE_STATUS_BAD_RECORD k (104 + k) (trieTaken k s)
    else trieApply k fits (trieRecord k s) (trieTaken k s) := by
  unfold trieBuild trieApply trieChanged recordKey
  extract_lets head r taken op len fam v6 w
  have width : w = recordWidth r := by simp [w, v6, fam, recordWidth]
  clear_value w
  subst width
  rfl

theorem trieBuild_bad {k : Nat} {s : State} (h : ¬ RecordGood k (trieRecord k s) s) (fits : Bool) :
    trieBuild k fits s = setEvent F.TRIE_STATUS_BAD_RECORD k (104 + k) (trieTaken k s) := by
  rw [trieBuild_eq, if_pos]
  simpa only [RecordGood, not_and_or, not_or, not_le] using h

theorem trieBuild_good {k : Nat} {s : State} (h : RecordGood k (trieRecord k s) s) (fits : Bool) :
    trieBuild k fits s = trieApply k fits (trieRecord k s) (trieTaken k s) := by
  rw [trieBuild_eq, if_neg]
  simpa only [RecordGood, not_or, not_and_or, not_not, not_lt] using h

/-! ### What the builder leaves -/

@[simp] theorem setEvent_pipe (f : Fld) (i n : Nat) (s : State) : (setEvent f i n s).pipe = s.pipe := by
  obtain h | h := riseIf_eq n s (setFlag f i true s) <;> rw [setEvent, h]
  · rw [pendSet_parts]
    rfl
  · rfl

theorem fget_trieTaken_head (k : Nat) (s : State) :
    fget F.TRIE_RING_HEAD_HEAD k (trieTaken k s) = (fget F.TRIE_RING_HEAD_HEAD k s + 1) % 1024 :=
  (fget_fset_same ..).trans (Nat.mod_mod ..)

theorem fget_trieTaken_epoch (k b : Nat) (s : State) :
    fget F.TBL_EPOCH_EPOCH b (trieTaken k s) = fget F.TBL_EPOCH_EPOCH b s :=
  fget_fset_other (by decide) (by decide) (by decide)

/-- What every way to deal with a record keeps: HEAD and memory. -/
theorem trieApply_keeps (k : Nat) (fits : Bool) (r : Bytes) (s : State) :
    fget F.TRIE_RING_HEAD_HEAD k (trieApply k fits r s) = fget F.TRIE_RING_HEAD_HEAD k s ∧ (trieApply k fits r s).mem = s.mem := by
  have counted (u : State) : fget F.TRIE_RING_HEAD_HEAD k (bumpEpoch (48 + k) u) = fget F.TRIE_RING_HEAD_HEAD k u :=
    fget_bump_other (by decide) (by decide) (by decide)
  unfold trieApply
  split
  · exact ⟨counted s, rfl⟩
  · split
    · exact ⟨fget_setEvent_other (by decide) (by decide) (by decide) (by decide) (by decide), setEvent_mem ..⟩
    · exact ⟨counted _, rfl⟩

section
variable {k : Nat} {fits : Bool} {r : Bytes}

theorem trieApply_full (ho : byteAt r 0 = 1) (hf : fits = false) (s : State) :
    (trieApply k fits r s).pipe.trie = s.pipe.trie ∧ flag F.TRIE_STATUS_NO_NODE k (trieApply k fits r s) = true := by
  have full : trieApply k fits r s = setEvent F.TRIE_STATUS_NO_NODE k (104 + k) s :=
    (if_neg (by omega)).trans (if_pos ⟨ho, hf⟩)
  rw [full, setEvent_pipe]
  exact ⟨rfl, flag_setEvent_same rfl (by decide) (by decide) (by decide)⟩

/-- R180: a record that is built advances the epoch of the slot's bank. -/
theorem fget_trieApply_epoch (hf : byteAt r 0 = 1 → fits = true) (s : State) :
    fget F.TBL_EPOCH_EPOCH (48 + k) (trieApply k fits r s) = (fget F.TBL_EPOCH_EPOCH (48 + k) s + 1) % 2 ^ 32 := by
  unfold trieApply
  split
  · exact fget_bump_same ..
  · rw [if_neg (fun full => Bool.noConfusion (full.2.symm.trans (hf full.1)))]
    exact fget_bump_same F.TBL_EPOCH_EPOCH (48 + k) (trieChanged k r s)

theorem trieApply_nothing (ho : byteAt r 0 = 0) (s : State) : (trieApply k fits r s).pipe.trie = s.pipe.trie := by
  rw [trieApply, if_pos ho]
  rfl

/-- R162: a record that adds puts its prefix, another removes it. -/
theorem find?_trieApply (ho : byteAt r 0 ≠ 0) (hf : byteAt r 0 = 1 → fits = true) (s : State) :
    Tab.find? (trieApply k fits r s).pipe.trie (recordKey k r) = if byteAt r 0 = 1 then some (fieldLE r 4 4 + 1) else none := by
  rw [trieApply, if_neg ho, if_neg (fun full => Bool.noConfusion (full.2.symm.trans (hf full.1)))]
  show Tab.find? (ite _ _ _) _ = _
  split
  · exact Tab.find?_put_same ..
  · exact Tab.find?_del_same ..

end

/-! ### The commands -/

theorem trieRingTail_completes {fn : Fn} {k : TrieSlot} {s : State} (hr : Reaches fn .TRIE_RING_TAIL k s) (w : Word) :
    Completes (.trieRingTail fn k w) s fun t => fget F.TRIE_RING_TAIL_TAIL k t = wfld F.TRIE_RING_TAIL_TAIL w ∧
      OnlyFields [F.TRIE_RING_TAIL_TAIL.key k] s t :=
  .intro (congrArg Host.Outcome.next (hostWr_reaches hr _))
    ⟨(fget_fset_same ..).trans (Nat.mod_eq_of_lt (wfld_lt _ w (by decide))), (OnlyFields.refl _ s).fset (List.mem_singleton_self _)⟩

theorem trieRecordCommit_exec {k : TrieSlot} {s : State} (h : fget F.TRIE_RING_HEAD_HEAD k s ≠ fget F.TRIE_RING_TAIL_TAIL k s)
    (fits : Bool) : exec (.trieRecordCommit k fits) s = .next (trieBuild k fits s) := congrArg Host.Outcome.next (if_neg h)

/-- R162: a record that the slot does not take. -/
theorem trieBuild_bad_spec {k : Nat} {s : State} (h : ¬ RecordGood k (trieRecord k s) s) (fits : Bool) :
    ∀ t, t = trieBuild k fits s → fget F.TRIE_RING_HEAD_HEAD k t = (fget F.TRIE_RING_HEAD_HEAD k s + 1) % 1024 ∧ t.mem = s.mem ∧
      t.pipe.trie = s.pipe.trie ∧ flag F.TRIE_STATUS_BAD_RECORD k t = true := by
  intro t ht
  rw [ht, trieBuild_bad h]
  refine ⟨?_, setEvent_mem .., by rw [setEvent_pipe]; rfl, flag_setEvent_same rfl (by decide) (by decide) (by decide)⟩
  exact (fget_setEvent_other (by decide) (by decide) (by decide) (by decide) (by decide)).trans (fget_trieTaken_head k s)

/-- Settles O19: TAIL, and the record at HEAD: refused, without room, or built. -/
theorem trieRecords : Obligations.TrieRecords := by
  refine ⟨fun _ _ w _ hr => trieRingTail_completes hr w, ?_⟩
  rintro k fits s waits r rfl w rfl good hg
  refine .intro (trieRecordCommit_exec waits fits) ?_
  by_cases h : RecordGood k (trieRecord k s) s
  · have taken : good = true := hg.trans (decide_eq_true h)
    obtain ⟨head, mem⟩ := trieApply_keeps k fits (trieRecord k s) (trieTaken k s)
    rw [trieBuild_good h]
    refine ⟨head.trans (fget_trieTaken_head k s), mem, fun bad => Bool.noConfusion (bad.symm.trans taken),
      fun _ ho hf => trieApply_full ho hf _, fun _ hf => ⟨?_, fun ho => trieApply_nothing ho _, fun ho => find?_trieApply ho hf _⟩⟩
    exact (fget_trieApply_epoch hf _).trans (by rw [fget_trieTaken_epoch])
  · have refused : good = false := hg.trans (decide_eq_false h)
    obtain ⟨head, mem, trie, event⟩ := trieBuild_bad_spec h fits _ rfl
    exact ⟨head, mem, fun _ => ⟨trie, event⟩, fun good => Bool.noConfusion (good.symm.trans refused),
      fun good => Bool.noConfusion (good.symm.trans refused)⟩

end Sys2Proof.Machine
end

section
/-! SUPPORT and CERTIFICATE. Gate lists: the writes of TM_GCL_CTRL, and what a gate list does at its change time and at the end
of its entries (R213 to R216); O14 and O15. -/
namespace Sys2Proof.Machine

/-! ### ARM (R214, R215) -/

/-- The fields that an accepted ARM sets. -/
def armFields : List Fld := [F.TM_GCL_STATUS_PENDING, F.TM_GCL_CHANGE_NS_NS, F.TM_GCL_CHANGE_SEC_SEC]

theorem gclArmCheck_pending {p : Nat} {s : State} (h : flag F.TM_GCL_STATUS_PENDING p s = true) : gclArmCheck p s = 1 := if_pos h

theorem gclArmCheck_bad {p : Nat} {s : State} (h : flag F.TM_GCL_STATUS_PENDING p s = false) (hb : gclBad p s = true) :
    gclArmCheck p s = 6 := (if_neg (by rw [h]; decide)).trans (if_pos hb)

theorem gclArmCheck_good {p : Nat} {s : State} (h : flag F.TM_GCL_STATUS_PENDING p s = false) (hb : gclBad p s = false) :
    gclArmCheck p s = 0 := (if_neg (by rw [h]; decide)).trans (if_neg (by rw [hb]; decide))

theorem fget_gclArmNow_other {f : Fld} (h : ∀ g ∈ armFields, f.key 0 ≠ g.key 0) (hk : f.key 0 < 16384) (i p : Nat) (s : State) :
    fget f i (gclArmNow p s) = fget f i s := by
  change fget f i (fset F.TM_GCL_CHANGE_NS_NS p _ (fset F.TM_GCL_CHANGE_SEC_SEC p _ (setFlag F.TM_GCL_STATUS_PENDING p true s))) = _
  rw [fget_fset_other (h _ (by decide)) (by decide) hk, fget_fset_other (h _ (by decide)) (by decide) hk,
    fget_setFlag_other (h _ (by decide)) (by decide) hk]

/-- R214: an accepted ARM. -/
theorem gclArmNow_spec (p : Nat) (s : State) : ∀ t, t = gclArmNow p s → flag F.TM_GCL_STATUS_PENDING p t = true ∧
    fget F.TM_GCL_CHANGE_NS_NS p t = nsNs (gclChangeAt p s).1 ∧
    fget F.TM_GCL_CHANGE_SEC_SEC p t = nsSec (gclChangeAt p s).1 % 2 ^ 32 ∧
    Tab.find? t.tm.change p = some ((gclChangeAt p s).2 + 1) ∧ t.mem = s.mem ∧ t.tm.queues = s.tm.queues ∧
    t.tm.gates = s.tm.gates := by
  rintro _ rfl
  have fits : nsNs (gclChangeAt p s).1 < 2 ^ F.TM_GCL_CHANGE_NS_NS.w := (Nat.mod_lt _ (by decide)).trans (by decide)
  refine ⟨?_, (fget_fset_same ..).trans (Nat.mod_eq_of_lt fits), ?_, Tab.find?_put_same .., rfl, rfl, rfl⟩
  · change flag F.TM_GCL_STATUS_PENDING p (fset F.TM_GCL_CHANGE_NS_NS p _ (fset F.TM_GCL_CHANGE_SEC_SEC p _ _)) = true
    rw [flag_fset_other (by decide) (by decide) (by decide), flag_fset_other (by decide) (by decide) (by decide)]
    exact flag_setFlag_same _ _ _ _ rfl
  · change fget F.TM_GCL_CHANGE_SEC_SEC p (fset F.TM_GCL_CHANGE_NS_NS p _ (fset F.TM_GCL_CHANGE_SEC_SEC p _ _)) = _
    rw [fget_fset_other (by decide) (by decide) (by decide), fget_fset_same]
    exact Nat.mod_mod ..

/-! ### Writes of TM_GCL_CTRL (R214 to R216, log 93) -/

/-- RESULT and ENABLE as a write that is not refused stores them. -/
def gclStored (p : Nat) (en : Bool) (s : State) : State := setFlag F.TM_GCL_CTRL_ENABLE p en (fset F.TM_GCL_CTRL_RESULT p 0 s)

/-- R215: a list that waits no longer. -/
def gclWithdrawn (p : Nat) (s : State) : State :=
  { setFlag F.TM_GCL_STATUS_PENDING p false s with tm := { s.tm with change := Tab.del s.tm.change p } }

theorem gclStored_only (p : Nat) (en : Bool) (s : State) :
    OnlyFields [F.TM_GCL_CTRL_RESULT.key p, F.TM_GCL_CTRL_ENABLE.key p] s (gclStored p en s) :=
  ((OnlyFields.refl _ s).fset List.mem_cons_self).setFlag (List.mem_cons_of_mem _ List.mem_cons_self)

theorem flag_gclStored_enable (p : Nat) (en : Bool) (s : State) : flag F.TM_GCL_CTRL_ENABLE p (gclStored p en s) = en :=
  flag_setFlag_same _ _ _ _ rfl

theorem fget_gclStored_result (p : Nat) (en : Bool) (s : State) : fget F.TM_GCL_CTRL_RESULT p (gclStored p en s) = 0 :=
  (fget_setFlag_other (by decide) (by decide) (by decide)).trans (fget_fset_same ..)

theorem fget_gclStored_other {f : Fld} (hr : f.key 0 ≠ F.TM_GCL_CTRL_RESULT.key 0) (he : f.key 0 ≠ F.TM_GCL_CTRL_ENABLE.key 0)
    (hk : f.key 0 < 16384) (i p : Nat) (en : Bool) (s : State) : fget f i (gclStored p en s) = fget f i s :=
  (fget_setFlag_other he (by decide) hk).trans (fget_fset_other hr (by decide) hk)

theorem gclChangeAt_gclStored (p : Nat) (en : Bool) (s : State) : gclChangeAt p (gclStored p en s) = gclChangeAt p s := by
  have field (f : Fld) (h : f ∈ [F.TM_GCL_BASE_SEC_HI_SEC_HI, F.TM_GCL_BASE_SEC_SEC, F.TM_GCL_BASE_NS_NS, F.TM_GCL_CYCLE_NS_CYCLE]) :
      fget f p (gclStored p en s) = fget f p s := by
    have apart : ∀ f ∈ [F.TM_GCL_BASE_SEC_HI_SEC_HI, F.TM_GCL_BASE_SEC_SEC, F.TM_GCL_BASE_NS_NS, F.TM_GCL_CYCLE_NS_CYCLE],
        f.key 0 ≠ F.TM_GCL_CTRL_RESULT.key 0 ∧ f.key 0 ≠ F.TM_GCL_CTRL_ENABLE.key 0 ∧ f.key 0 < 16384 := by decide
    obtain ⟨hr, he, hk⟩ := apart f h
    exact fget_gclStored_other hr he hk ..
  have base : gclBase p (gclStored p en s) = gclBase p s := by
    simp only [gclBase, field F.TM_GCL_BASE_SEC_HI_SEC_HI (by decide), field F.TM_GCL_BASE_SEC_SEC (by decide),
      field F.TM_GCL_BASE_NS_NS (by decide)]
  simp only [gclChangeAt, base, field F.TM_GCL_CYCLE_NS_CYCLE (by decide)]
  rfl

theorem gclCtrlWrite_refused {p : Nat} {w : Word} {s : State} (ha : wbit F.TM_GCL_CTRL_ARM w = true) (h : gclArmCheck p s ≠ 0) :
    gclCtrlWrite p w s = fset F.TM_GCL_CTRL_RESULT p (gclArmCheck p s) s := by
  simp [gclCtrlWrite, ha, h]

theorem gclCtrlWrite_armed {p : Nat} {w : Word} {s : State} (ha : wbit F.TM_GCL_CTRL_ARM w = true) (h : gclArmCheck p s = 0)
    (hp : flag F.TM_GCL_STATUS_PENDING p s = false) :
    gclCtrlWrite p w s = gclArmNow p (gclStored p (wbit F.TM_GCL_CTRL_ENABLE w) s) := by
  have idle : flag F.TM_GCL_STATUS_PENDING p (gclStored p (wbit F.TM_GCL_CTRL_ENABLE w) s) = false :=
    (congrArg (· == 1) (fget_gclStored_other (by decide) (by decide) (by decide) ..)).trans hp
  rw [gclStored] at idle ⊢
  simp [gclCtrlWrite, ha, h, idle]

theorem gclCtrlWrite_enables {p : Nat} {w : Word} {s : State} (ha : wbit F.TM_GCL_CTRL_ARM w = false)
    (he : wbit F.TM_GCL_CTRL_ENABLE w = true) : gclCtrlWrite p w s = gclStored p true s := by
  simp [gclCtrlWrite, gclStored, ha, he]

theorem gclCtrlWrite_disables {p : Nat} {w : Word} {s : State} (ha : wbit F.TM_GCL_CTRL_ARM w = false)
    (he : wbit F.TM_GCL_CTRL_ENABLE w = false) : gclCtrlWrite p w s =
      if flag F.TM_GCL_STATUS_PENDING p (gclStored p false s) then gclWithdrawn p (gclStored p false s) else gclStored p false s := by
  simp only [gclCtrlWrite, ha, he]
  rfl

theorem flag_gclWithdrawn (f : Fld) (i p : Nat) (s : State) :
    flag f i (gclWithdrawn p s) = flag f i (setFlag F.TM_GCL_STATUS_PENDING p false s) := rfl

section

variable {fn : Fn} {p : Port} {w : Word} {s : State}

/-- A command that writes TM_GCL_CTRL with one bit forced. -/
theorem gclCtrl_completes {c : Instr} {P : State → Prop} (hr : Reaches fn .TM_GCL_CTRL p s)
    (hc : exec c s = .next (hostWr fn .TM_GCL_CTRL p s (gclCtrlWrite p w))) (h : P (gclCtrlWrite p w s)) : Completes c s P :=
  .intro (hc.trans (congrArg Host.Outcome.next (hostWr_reaches hr _))) h

/-- R215: an ARM that is refused changes RESULT only. -/
theorem gclArm_refused {r : Nat} (hr : Reaches fn .TM_GCL_CTRL p s) (hc : gclArmCheck p s = r) (h0 : r ≠ 0)
    (hw : r < 2 ^ F.TM_GCL_CTRL_RESULT.w) : Completes (.gclArm fn p w) s fun t => fget F.TM_GCL_CTRL_RESULT p t = r ∧
      OnlyFields [F.TM_GCL_CTRL_RESULT.key p] s t := by
  subst hc
  have arm : wbit F.TM_GCL_CTRL_ARM (withBit w 1 true) = true := wbit_withBit_same F.TM_GCL_CTRL_ARM w true rfl (by decide)
  refine gclCtrl_completes hr rfl ?_
  rw [gclCtrlWrite_refused arm h0]
  exact ⟨(fget_fset_same ..).trans (Nat.mod_eq_of_lt hw), (OnlyFields.refl _ s).fset List.mem_cons_self⟩

/-- R214: an ARM that is accepted. -/
theorem gclArm_accepted (hr : Reaches fn .TM_GCL_CTRL p s) (hp : flag F.TM_GCL_STATUS_PENDING p s = false)
    (hb : gclBad p s = false) : Completes (.gclArm fn p w) s fun t => fget F.TM_GCL_CTRL_RESULT p t = 0 ∧
      flag F.TM_GCL_STATUS_PENDING p t = true ∧ fget F.TM_GCL_CHANGE_NS_NS p t = nsNs (gclChangeAt p s).1 ∧
      fget F.TM_GCL_CHANGE_SEC_SEC p t = nsSec (gclChangeAt p s).1 % 2 ^ 32 ∧
      Tab.find? t.tm.change p = some ((gclChangeAt p s).2 + 1) ∧ operList p t = operList p s ∧ t.mem = s.mem ∧
      t.tm.queues = s.tm.queues ∧ t.tm.gates = s.tm.gates := by
  have arm : wbit F.TM_GCL_CTRL_ARM (withBit w 1 true) = true := wbit_withBit_same F.TM_GCL_CTRL_ARM w true rfl (by decide)
  refine gclCtrl_completes hr rfl ?_
  rw [gclCtrlWrite_armed arm (gclArmCheck_good hp hb) hp]
  generalize wbit F.TM_GCL_CTRL_ENABLE _ = en
  obtain ⟨pending, ns, sec, change, mem, queues, gates⟩ := gclArmNow_spec p (gclStored p en s) _ rfl
  rw [gclChangeAt_gclStored] at ns sec change
  refine ⟨?_, pending, ns, sec, change, ?_, mem, queues, gates⟩
  · exact (fget_gclArmNow_other (by decide) (by decide) ..).trans (fget_gclStored_result ..)
  · exact (fget_gclArmNow_other (by decide) (by decide) ..).trans
      (fget_gclStored_other (by decide) (by decide) (by decide) ..)

/-- R216: ENABLE 1 without ARM. -/
theorem gclEnable_completes (hr : Reaches fn .TM_GCL_CTRL p s) (ha : wbit F.TM_GCL_CTRL_ARM w = false) :
    Completes (.gclEnable fn p w) s fun t => flag F.TM_GCL_CTRL_ENABLE p t = true ∧
      OnlyFields [F.TM_GCL_CTRL_RESULT.key p, F.TM_GCL_CTRL_ENABLE.key p] s t := by
  have enable : wbit F.TM_GCL_CTRL_ENABLE (withBit w 0 true) = true :=
    wbit_withBit_same F.TM_GCL_CTRL_ENABLE w true rfl (by decide)
  have unarmed := (wbit_withBit_other F.TM_GCL_CTRL_ARM w 0 true (by decide) (by decide) (by decide)).trans ha
  refine gclCtrl_completes hr rfl ?_
  rw [gclCtrlWrite_enables unarmed enable]
  exact ⟨flag_gclStored_enable .., gclStored_only ..⟩

/-- R215: ENABLE 0 without ARM; a list that waits is withdrawn. -/
theorem gclDisable_completes (hr : Reaches fn .TM_GCL_CTRL p s) (ha : wbit F.TM_GCL_CTRL_ARM w = false) :
    Completes (.gclDisable fn p w) s fun t => flag F.TM_GCL_CTRL_ENABLE p t = false ∧
      flag F.TM_GCL_STATUS_PENDING p t = false ∧ gateRun p t = none ∧ t.mem = s.mem ∧ t.tm.queues = s.tm.queues := by
  have noRun {t : State} (h : flag F.TM_GCL_CTRL_ENABLE p t = false) : gateRun p t = none := if_neg (by rw [h]; decide)
  have disable : wbit F.TM_GCL_CTRL_ENABLE (withBit w 0 false) = false :=
    wbit_withBit_same F.TM_GCL_CTRL_ENABLE w false rfl (by decide)
  have unarmed := (wbit_withBit_other F.TM_GCL_CTRL_ARM w 0 false (by decide) (by decide) (by decide)).trans ha
  refine gclCtrl_completes hr rfl ?_
  rw [gclCtrlWrite_disables unarmed disable]
  have off := flag_gclStored_enable p false s
  split
  case isTrue =>
    have stillOff : flag F.TM_GCL_CTRL_ENABLE p (gclWithdrawn p (gclStored p false s)) = false := by
      rw [flag_gclWithdrawn, flag_setFlag_other (by decide) (by decide) (by decide), off]
    have idle : flag F.TM_GCL_STATUS_PENDING p (gclWithdrawn p (gclStored p false s)) = false := by
      rw [flag_gclWithdrawn, flag_setFlag_same _ _ _ _ rfl]
    exact ⟨stillOff, idle, noRun stillOff, rfl, rfl⟩
  case isFalse idle => exact ⟨off, Bool.eq_false_iff.2 idle, noRun off, rfl, rfl⟩

end

/-- Settles O14: each answer to an ARM, and ENABLE without ARM. -/
theorem gateListWrites : Obligations.GateListWrites := fun _ _ _ _ hr =>
  ⟨fun hp => gclArm_refused hr (gclArmCheck_pending hp) (by decide) (by decide),
    fun hp hb => gclArm_refused hr (gclArmCheck_bad hp hb) (by decide) (by decide),
    gclArm_accepted hr, gclEnable_completes hr, gclDisable_completes hr⟩

/-! ### The change time, and the entries of a list (R213, R214) -/

/-- R214: the prepared list comes into operation. -/
theorem gclTakeOver_spec (p at_ : Nat) (s : State) : ∀ t, t = gclTakeOver p at_ s →
    operList p t = (1 - operList p s) % 2 ^ F.TM_GCL_STATUS_OPER_LIST.w ∧ flag F.TM_GCL_STATUS_PENDING p t = false ∧
    Tab.find? t.tm.change p = none ∧
    (∃ g, Tab.find? t.tm.running p = some g ∧ g.entry = 0 ∧ g.cycleStart = at_ ∧ g.len = fget F.TM_GCL_LEN_ADMIN_LEN p s) ∧
    t.mem = s.mem := by
  rintro _ rfl
  refine ⟨?_, flag_setFlag_same F.TM_GCL_STATUS_PENDING p false _ rfl, Tab.find?_del_same ..,
    ⟨_, Tab.find?_put_same .., rfl, rfl, ?_⟩, rfl⟩
  · change fget F.TM_GCL_STATUS_OPER_LIST p (setFlag F.TM_GCL_STATUS_PENDING p false (fset F.TM_GCL_STATUS_OPER_LIST p _ s)) = _
    rw [fget_setFlag_other (by decide) (by decide) (by decide), fget_fset_same]
    rfl
  · dsimp only
    rw [fget_setFlag_other (by decide) (by decide) (by decide), fget_fset_other (by decide) (by decide) (by decide)]

theorem gclChange_completes {p : Port} {s : State} {c : Nat} (hc : Tab.find? s.tm.change p = some c) (hg : gateTied p s = false)
    (hr : running s = true) : Completes (.gclChange p) s fun t =>
      operList p t = (1 - operList p s) % 2 ^ F.TM_GCL_STATUS_OPER_LIST.w ∧ flag F.TM_GCL_STATUS_PENDING p t = false ∧
      Tab.find? t.tm.change p = none ∧
      (∃ g, Tab.find? t.tm.running p = some g ∧ g.entry = 0 ∧ g.cycleStart = c - 1 ∧ g.len = fget F.TM_GCL_LEN_ADMIN_LEN p s) ∧
      t.mem = s.mem := by
  have step : exec (.gclChange p) s = .next (gclTakeOver p (c - 1) (reachPtp (c - 1) s)) := by
    simp [exec, execGclChange, hc, hg, hr]
  exact .intro step (gclTakeOver_spec p (c - 1) (reachPtp (c - 1) s) _ rfl)

/-- R213: what ends at the end of an entry: a cycle, which counts when its list is cut short, or the entry alone. -/
def gateStepped (p : Nat) (g : GateRun) (x : Nat × Bool) (s : State) : State :=
  if x.2 then
    let s := if g.cycleStart + gateSum p g s > x.1 then bump F.TM_GCL_TRUNC_COUNT p s else s
    { s with tm := { s.tm with running := Tab.put s.tm.running p { g with entry := 0, cycleStart := x.1, entryStart := x.1 } } }
  else { s with tm := { s.tm with running := Tab.put s.tm.running p { g with entry := g.entry + 1, entryStart := x.1 } } }

theorem gateAdvance_eq {p : Nat} {s : State} {g : GateRun} (hg : gateRun p s = some g) (hr : running s = true)
    (ht : gateTied p s = false) : gateAdvance p s =
      gateStepped p g (entryEnd p 0 g.entry g.entryStart g s) (reachPtp (entryEnd p 0 g.entry g.entryStart g s).1 s) := by
  simp only [gateAdvance, hg, hr, ht, Bool.and_false]
  rfl

theorem gateStepped_spec (p : Nat) (g : GateRun) (x : Nat × Bool) (s : State) : ∀ t, t = gateStepped p g x s →
    (∃ h, Tab.find? t.tm.running p = some h ∧ h.entryStart = x.1 ∧ h.entry = if x.2 then 0 else g.entry + 1) ∧
    t.mem = s.mem ∧ t.tm.queues = s.tm.queues := by
  rintro _ rfl
  unfold gateStepped
  split
  case isTrue =>
    dsimp only
    split <;> exact ⟨⟨_, Tab.find?_put_same .., rfl, rfl⟩, rfl, rfl⟩
  case isFalse => exact ⟨⟨_, Tab.find?_put_same .., rfl, rfl⟩, rfl, rfl⟩

theorem gateEntryAdvance_completes {p : Port} {s : State} {g : GateRun} (hg : gateRun p s = some g) (hr : running s = true)
    (ht : gateTied p s = false) : Completes (.gateEntryAdvance p) s fun t => (∃ h, Tab.find? t.tm.running p = some h ∧
      h.entryStart = (entryEnd p 0 g.entry g.entryStart g s).1 ∧
      h.entry = if (entryEnd p 0 g.entry g.entryStart g s).2 then 0 else g.entry + 1) ∧ t.mem = s.mem ∧
      t.tm.queues = s.tm.queues :=
  .intro (congrArg Host.Outcome.next (gateAdvance_eq hg hr ht)) (gateStepped_spec p g _ (reachPtp _ s) _ rfl)

/-- Settles O15: the change time and the end of an entry. -/
theorem gatesChangeAndAdvance : Obligations.GatesChangeAndAdvance :=
  ⟨fun _ _ _ => gclChange_completes, fun _ _ _ => gateEntryAdvance_completes⟩

end Sys2Proof.Machine
end

section
/-! SUPPORT and CERTIFICATE. Flushes and stalls of a leaf (R217, R218): what a flush leaves and counts, and the register file in
which O17 fails. -/
namespace Sys2Proof.Machine

/-! ### Registers that the end of a copy leaves (R181, R193, R556) -/

/-- The fields that the release of a copy's cells and its postcard set. -/
def cellFields : List Fld := [F.TM_SHARED_USED_CELLS, F.TM_SHARED_PEAK_CELLS, F.TM_LEAF_DEPTH_CELLS, F.TRC_DROPS_COUNT]

section

variable {f : Fld} (h : ∀ g ∈ cellFields, f.key 0 ≠ g.key 0) (hk : f.key 0 < 16384)
include h hk

theorem fget_setShared_other (i v : Nat) (s : State) : fget f i (setShared v s) = fget f i s :=
  (fget_fset_other (h _ (by decide)) (by decide) hk).trans (fget_fset_other (h _ (by decide)) (by decide) hk)

theorem fget_releaseCells_other (i : Nat) (c : Copy) (s : State) : fget f i (releaseCells c s) = fget f i s := by
  have depth (v : Nat) : fget f i (fset F.TM_LEAF_DEPTH_CELLS c.leaf v s) = fget f i s :=
    fget_fset_other (h _ (by decide)) (by decide) hk
  unfold releaseCells
  dsimp only
  split
  · exact depth _
  · exact (fget_setLeafUni_other (h _ (by decide)) (h _ (by decide)) hk ..).trans (depth _)

theorem fget_postcard_other (i : Nat) (c : Copy) (fate : Fate) (t : Nat) (s : State) : fget f i (postcard c fate t s) = fget f i s := by
  unfold postcard
  split
  · rfl
  · split
    · rfl
    · exact fget_bumpBy_other (f := F.TRC_DROPS_COUNT) (h _ (by decide)) (by decide) hk

theorem fget_copyGone_other (i n : Nat) (left : Bool) (s : State) : fget f i (copyGone n left s) = fget f i s := by
  unfold copyGone
  split
  · rfl
  · extract_lets r pipe s1 s2 tm s3
    have shared : fget f i s2 = fget f i s1 := by
      unfold s2; split
      · rfl
      · exact fget_setShared_other h hk ..
    have record : fget f i s3 = fget f i s2 := by unfold s3; split <;> rfl
    split
    · refine Eq.trans ?_ (record.trans shared)
      split
      · exact fget_congr (by rw [histCnt, cntBy, cntSet_parts])
      · rfl
    · rfl

end

/-! ### A flush (R218) -/

/-- TM_LEAF_FLUSHED with one frame more. -/
def flushedNext (n : Nat) : Nat := (n + 1) % 2 ^ F.TM_LEAF_FLUSHED_COUNT.w

/-- A count within its field advances modulo its width. -/
theorem flushedNext_iterate {n : Nat} (h : n < 2 ^ F.TM_LEAF_FLUSHED_COUNT.w) (k : Nat) :
    flushedNext^[k] n = (n + k) % 2 ^ F.TM_LEAF_FLUSHED_COUNT.w := by
  induction k with
  | zero => exact (Nat.mod_eq_of_lt h).symm
  | succ k ih => rw [Function.iterate_succ_apply', ih, flushedNext, Nat.mod_add_mod, Nat.add_assoc]

theorem fget_flushQueued_count (c : Copy) (s : State) :
    fget F.TM_LEAF_FLUSHED_COUNT c.leaf (flushQueued c s) = flushedNext (fget F.TM_LEAF_FLUSHED_COUNT c.leaf s) := by
  have apart : ∀ g ∈ cellFields, F.TM_LEAF_FLUSHED_COUNT.key 0 ≠ g.key 0 := by decide
  rw [flushQueued, fget_copyGone_other apart (by decide), fget_postcard_other apart (by decide), fget_bump_same,
    fget_releaseCells_other apart (by decide)]
  rfl

theorem flushQueued_released (c : Copy) (s : State) : Released s (flushQueued c s) :=
  (releaseCells_released c s).trans ((Released.rest _ _ _ _ _ _).trans ((postcard_released ..).trans (copyGone_released ..)))

/-- Each of the removed frames counts in the leaf that held it. -/
theorem fget_flushed_count {q : Nat} {l : List Copy} (h : ∀ c ∈ l, c.leaf = q) (s : State) :
    fget F.TM_LEAF_FLUSHED_COUNT q (eachCopy flushQueued l s) = flushedNext^[l.length] (fget F.TM_LEAF_FLUSHED_COUNT q s) := by
  induction l generalizing s with
  | nil => rfl
  | cons c l ih =>
    obtain rfl := h c List.mem_cons_self
    exact (ih (fun d hd => h d (List.mem_cons_of_mem c hd)) _).trans (congrArg _ (fget_flushQueued_count c s))

/-- The frames of a leaf that a flush removes: those queued in an earlier cclk. -/
def flushOld (q : Nat) (s : State) : List Copy := (leafQueue q s).filter fun c => decide (c.enqAt < s.time.cclk)

/-- The leaf with the frames that a flush keeps. -/
def flushKept (q : Nat) (s : State) : State :=
  setLeafQueue q ((leafQueue q s).filter fun c => !decide (c.enqAt < s.time.cclk)) s

theorem leafFlushNow_eq (q : Nat) (s : State) : leafFlushNow q s =
    setFlag F.TM_LEAF_STATUS_FLUSH_BUSY q true (eachCopy flushQueued (flushOld q s) (flushKept q s)) := rfl

theorem leafFlushNow_queues (q : Nat) (s : State) : (leafFlushNow q s).tm.queues =
    Tab.set [] s.tm.queues q ((leafQueue q s).filter fun c => decide (s.time.cclk ≤ c.enqAt)) := by
  have kept : (fun c : Copy => !decide (c.enqAt < s.time.cclk)) = fun c => decide (s.time.cclk ≤ c.enqAt) := by
    funext c
    rw [← decide_not]
    exact decide_eq_decide.2 Nat.not_lt
  rw [leafFlushNow_eq, setFlag_tm]
  exact (Released.foldl (fun s c => flushQueued_released c s) _ _).queues.trans ((setLeafQueue_turned ..).queues.trans (by rw [kept]))

theorem leafFlushNow_mem (q : Nat) (s : State) : (leafFlushNow q s).mem = s.mem := by
  have kept : (flushKept q s).mem = s.mem := by
    obtain ⟨_, _, e⟩ := (setLeafQueue_turned q ((leafQueue q s).filter fun c => !decide (c.enqAt < s.time.cclk)) s).parts
    rw [flushKept, e]
  exact (Released.foldl (fun s c => flushQueued_released c s) (flushOld q s) _).mem.trans kept

theorem fget_leafFlushNow_count {q : Nat} {s : State} (h : ∀ c ∈ leafQueue q s, c.leaf = q) :
    fget F.TM_LEAF_FLUSHED_COUNT q (leafFlushNow q s) = flushedNext^[(flushOld q s).length] (fget F.TM_LEAF_FLUSHED_COUNT q s) := by
  have kept : fget F.TM_LEAF_FLUSHED_COUNT q (flushKept q s) = fget F.TM_LEAF_FLUSHED_COUNT q s :=
    (setLeafQueue_turned ..).fields F.TM_LEAF_FLUSHED_COUNT q fun m =>
      Fld.key_ne (by decide) (by decide) (by decide) q q (List.mem_singleton.1 m)
  have old : ∀ c ∈ flushOld q s, c.leaf = q := fun c hc => h c (List.mem_of_mem_filter hc)
  rw [leafFlushNow_eq, fget_setFlag_other (by decide) (by decide) (by decide), fget_flushed_count old, kept]

theorem leafFlush_exec {fn : Fn} {q : Leaf} {s : State} (hr : Reaches fn .TM_LEAF_STATUS q s) (w : Word) :
    exec (.leafFlush fn q w) s = .next (leafFlushNow q s) := by
  have flush : wbit F.TM_LEAF_STATUS_FLUSH (withBit w 0 true) = true :=
    wbit_withBit_same F.TM_LEAF_STATUS_FLUSH w true rfl (by decide)
  exact congrArg Host.Outcome.next ((hostWr_reaches hr _).trans (if_pos flush))

/-- R218: a flush, where TM_LEAF_FLUSHED holds a value of its width. -/
theorem leafFlush_completes {fn : Fn} {q : Leaf} {s : State} (hr : Reaches fn .TM_LEAF_STATUS q s) (w : Word)
    (hc : fget F.TM_LEAF_FLUSHED_COUNT q s < 2 ^ F.TM_LEAF_FLUSHED_COUNT.w) : Completes (.leafFlush fn q w) s fun t =>
      leafQueue q t = (leafQueue q s).filter (fun c => decide (s.time.cclk ≤ c.enqAt)) ∧
      flag F.TM_LEAF_STATUS_FLUSH_BUSY q t = true ∧ (∀ x, x ≠ q.val → leafQueue x t = leafQueue x s) ∧
      ((∀ c ∈ leafQueue q s, c.leaf = q.val) → fget F.TM_LEAF_FLUSHED_COUNT q t =
        (fget F.TM_LEAF_FLUSHED_COUNT q s + (flushOld q s).length) % 2 ^ F.TM_LEAF_FLUSHED_COUNT.w) ∧ t.mem = s.mem := by
  have queue (x : Nat) : leafQueue x (leafFlushNow q s) = Tab.get [] (Tab.set [] s.tm.queues q _) x :=
    congrArg (Tab.get [] · x) (leafFlushNow_queues q s)
  refine .intro (leafFlush_exec hr w) ⟨(queue q).trans (Tab.get_set_same ..), flag_setFlag_same _ _ _ _ rfl,
    fun x hx => (queue x).trans (Tab.get_set_ne _ _ _ _ hx), fun h => ?_, leafFlushNow_mem q s⟩
  rw [fget_leafFlushNow_count h, flushedNext_iterate hc]

/-- R218: the end of a flush. -/
theorem leafFlushEnd_completes (q : Leaf) (s : State) : Completes (.leafFlushEnd q) s fun t =>
    flag F.TM_LEAF_STATUS_FLUSH_BUSY q t = false ∧ OnlyFields [F.TM_LEAF_STATUS_FLUSH_BUSY.key q] s t :=
  .intro rfl ⟨flag_setFlag_same _ _ _ _ rfl, (OnlyFields.refl _ s).setFlag List.mem_cons_self⟩

/-! ### A stall (R217, log 96) -/

theorem leafStall_exec {q : Leaf} {s : State} (hq : leafQueue q s ≠ []) (hs : flag F.TM_LEAF_STATUS_STALLED q s = false) :
    ∀ u, u = reachCclk (stallAt q s) s → exec (.leafStall q) s =
      .next (riseIf 91 u (bump F.TM_LEAF_STALL_COUNT q (setFlag F.TM_LEAF_STATUS_STALLED q true u))) := by
  rintro _ rfl
  exact if_neg (by simp [hq, hs])

theorem leafStall_completes {q : Leaf} {s : State} (hq : leafQueue q s ≠ []) (hs : flag F.TM_LEAF_STATUS_STALLED q s = false) :
    Completes (.leafStall q) s fun t => flag F.TM_LEAF_STATUS_STALLED q t = true ∧
      fget F.TM_LEAF_STALL_COUNT q t = (fget F.TM_LEAF_STALL_COUNT q s + 1) % 2 ^ F.TM_LEAF_STALL_COUNT.w ∧
      Tab.get 0 s.tm.lastSent q + max 1 (fget F.TM_CTRL_STALL_US 0 s) * 1600 ≤ t.time.cclk ∧ t.tm = s.tm ∧ t.mem = s.mem := by
  refine .intro (leafStall_exec hq hs _ rfl) ⟨?_, ?_, ?_, riseIf_tm .., riseIf_mem ..⟩
  · rw [flag, fget_riseIf_other (by decide) (by decide) (by decide), fget_bump_other (by decide) (by decide) (by decide)]
    exact flag_setFlag_same F.TM_LEAF_STATUS_STALLED q true _ rfl
  · rw [fget_riseIf_other (by decide) (by decide) (by decide), fget_bump_same, fget_setFlag_other (by decide) (by decide) (by decide)]
    rfl
  · rw [riseIf_time]
    exact le_reachCclk_cclk (stallAt q s) s

/-! ### The counterexample -/

/-- What a command that completes makes true holds of the state that it answers. -/
theorem Completes.elim {c : Instr} {s t : State} {P : State → Prop} (h : Completes c s P) (e : exec c s = .next t) : P t := by
  obtain ⟨u, eu, hu⟩ := h
  cases e.symm.trans eu
  exact hu

/-- OPERATE with leaf 0 empty, and a register file in which its TM_LEAF_FLUSHED holds 2^32, one more than its 32 bits hold. -/
def overCounted : State :=
  { State.reset with
      mode := .operate
      regs := [(F.TM_LEAF_FLUSHED_COUNT.key 0, 2 ^ 32)]
      power := { State.reset.power with configured := true, inReset := false }
      pcie := { State.reset.pcie with link := .l0 } }

theorem overCounted_reaches : Reaches (0 : Fn) .TM_LEAF_STATUS (0 : Leaf) overCounted := by decide

theorem overCounted_count : fget F.TM_LEAF_FLUSHED_COUNT (0 : Leaf) overCounted = 2 ^ 32 := by decide

theorem overCounted_empty : leafQueue (0 : Leaf) overCounted = [] := rfl

/-- A flush that finds no frame leaves the count as it stands. -/
theorem overCounted_flushed : fget F.TM_LEAF_FLUSHED_COUNT (0 : Leaf) (leafFlushNow (0 : Leaf) overCounted) = 2 ^ 32 := by
  have noFrame : flushOld (0 : Leaf) overCounted = [] := by rw [flushOld, overCounted_empty, List.filter_nil]
  rw [fget_leafFlushNow_count (by rw [overCounted_empty]; simp), noFrame, overCounted_count]
  rfl

/-- Refutes O17: its clause on a flush gives TM_LEAF_FLUSHED modulo 2^32 in every state, but a flush of an empty leaf counts
nothing, so a count that stands beyond its width stays there. With a count of its width the clause holds
(`leafFlush_completes`), and so do the others (`leafFlushEnd_completes`, `leafStall_completes`). -/
theorem not_leafFlushAndStall : ¬ Obligations.LeafFlushAndStall := by
  unfold Obligations.LeafFlushAndStall
  rintro ⟨flush, -, -⟩
  obtain ⟨-, -, -, count, -⟩ := (flush 0 0 0 overCounted overCounted_reaches).elim (leafFlush_exec overCounted_reaches 0)
  have counts := count (by rw [overCounted_empty]; simp)
  have small : 2 ^ 32 < 2 ^ F.TM_LEAF_FLUSHED_COUNT.w := by
    rw [← overCounted_flushed, counts]
    exact Nat.mod_lt _ (by decide)
  exact absurd small (by decide)

end Sys2Proof.Machine
end

section
/-! SUPPORT. Context images, flow records and slots of the essence engine (R234, R242, R255): what the accessors read after
each update. -/
namespace Sys2Proof.Machine

/-! ### Bytes -/

theorem leNat_append (a b : Bytes) : leNat (a ++ b) = leNat a + 256 ^ a.length * leNat b := by
  induction a with
  | nil => simp [leNat]
  | cons x a ih => rw [List.cons_append, leNat, ih, leNat, List.length_cons, Nat.pow_succ']; ring

theorem leNat_zeros (n : Nat) : leNat (List.replicate n 0#8) = 0 := by
  induction n with
  | zero => rfl
  | succ n ih => simp [List.replicate_succ, leNat, ih]

theorem leNat_lt (b : Bytes) : leNat b < 256 ^ b.length := by
  have exact' := leNat_leBytes b.length (leNat b)
  rw [leBytes_leNat] at exact'
  exact exact' ▸ Nat.mod_lt _ (by positivity)

theorem fieldLE_lt (b : Bytes) (o n : Nat) : fieldLE b o n < 256 ^ n :=
  (leNat_lt _).trans_le (Nat.pow_le_pow_right (by decide) (List.length_take_le ..))

theorem fitTo_length (n : Nat) (b : Bytes) : (fitTo n b).length = n := by simp [fitTo]

theorem fitTo_of_length {n : Nat} {b : Bytes} (h : b.length = n) : fitTo n b = b := by simp [fitTo, ← h]

/-- Missing bytes read as zeros. -/
theorem fieldLE_fitTo {m o n : Nat} (b : Bytes) (h : o + n ≤ m) : fieldLE (fitTo m b) o n = fieldLE b o n := by
  have cut : slice (fitTo m b) o n = slice (b ++ List.replicate m 0#8) o n := by
    rw [slice, slice, fitTo, List.drop_take, List.take_take, min_eq_left (by omega)]
  rw [fieldLE, fieldLE, cut, slice, slice, List.drop_append, List.take_append, leNat_append, List.drop_replicate,
    List.take_replicate, leNat_zeros, Nat.mul_zero, Nat.add_zero]

theorem fieldLE_splice_same {b : Bytes} {o n : Nat} (h : o + n ≤ b.length) (v : Nat) :
    fieldLE (splice b o (leBytes n v)) o n = v % 256 ^ n := by
  have same := slice_splice_same (b := b) (new := leBytes n v) (o := o) (by rwa [leBytes_length])
  rw [leBytes_length] at same
  rw [fieldLE, same, leNat_leBytes]

theorem slice_splice_apart {b new : Bytes} {o i n : Nat} (h : o + new.length ≤ b.length) (ha : i + n ≤ o ∨ o + new.length ≤ i) :
    slice (splice b o new) i n = slice b i n := ha.elim (slice_splice_before h) (slice_splice_after h · n)

/-! ### Fields of a context image (R234) -/

theorem fctx_fxSet (c off : Nat) (b : Bytes) (s : State) : fctx c (fxSet c off b s) = splice (fitTo 256 (fctx c s)) off b :=
  Tab.get_set_same ..

theorem fx_fxSet_same {off n : Nat} (h : off + n ≤ 256) (c v : Nat) (s : State) :
    fx c off n (fxSet c off (leBytes n v) s) = v % 256 ^ n := by
  rw [fx, fctx_fxSet, fieldLE_splice_same (by rwa [fitTo_length])]

theorem fx_fxSet_apart {off i n : Nat} {b : Bytes} (h : off + b.length ≤ 256) (hi : i + n ≤ 256)
    (ha : i + n ≤ off ∨ off + b.length ≤ i) (c : Nat) (s : State) : fx c i n (fxSet c off b s) = fx c i n s := by
  rw [fx, fctx_fxSet, fieldLE, slice_splice_apart (by rwa [fitTo_length]) ha]
  exact fieldLE_fitTo _ hi

/-- A field of a context image is below the power of its width. -/
theorem fx_lt (c off n : Nat) (s : State) : fx c off n s < 256 ^ n := fieldLE_lt ..

/-- Fields of a context depend on the images alone. -/
theorem fx_congr {s t : State} (h : t.ess.ctx = s.ess.ctx) (c off n : Nat) : fx c off n t = fx c off n s := by
  rw [fx, fx, fctx, fctx, h]

theorem fEc_congr {c : Nat} {s t : State} (hc : fClass c t = fClass c s) (h : t.loader = s.loader) : fEc c t = fEc c s := by
  rw [fEc, fEc, hc, State.cfg, State.cfg, h]

theorem fIngest_congr {c : Nat} {s t : State} (h : fEc c t = fEc c s) : fIngest c t = fIngest c s := by rw [fIngest, fIngest, h]

/-! ### STATE and FLAGS of a context (R234) -/

theorem fState_fSetState {v : Nat} (h : v < 256) (c : Nat) (s : State) : fState c (fSetState c v s) = v :=
  (fx_fxSet_same (by decide) c v s).trans (Nat.mod_eq_of_lt h)

theorem fx_fSetState {i n : Nat} (h : 1 ≤ i) (hi : i + n ≤ 256) (c v : Nat) (s : State) :
    fx c i n (fSetState c v s) = fx c i n s :=
  fx_fxSet_apart (by rw [leBytes_length]; decide) hi (.inr (by rwa [leBytes_length])) c s

theorem fx_fFlag {i n : Nat} (h : i + n ≤ 2 ∨ 4 ≤ i) (hi : i + n ≤ 256) (c k : Nat) (b : Bool) (s : State) :
    fx c i n (fFlag c k b s) = fx c i n s :=
  fx_fxSet_apart (by rw [leBytes_length]; decide) hi (by rwa [leBytes_length]) c s

theorem fState_fFlag (c k : Nat) (b : Bool) (s : State) : fState c (fFlag c k b s) = fState c s :=
  fx_fFlag (.inl (by decide)) (by decide) ..

theorem bit_zero (v : Nat) : bit v 0 = decide (v % 2 = 1) := Nat.testBit_zero v
theorem bit_one (v : Nat) : bit v 1 = decide (v / 2 % 2 = 1) := by
  rw [bit, Nat.testBit_succ, Nat.testBit_zero]

/-- FLAGS after ENABLED (bit 0) or PENDING (bit 1) is set. -/
theorem flags_fFlag {k : Nat} (h : k < 2) (c : Nat) (b : Bool) (s : State) : fx c 2 2 (fFlag c k b s) =
    fx c 2 2 s - (if bit (fx c 2 2 s) k then 2 ^ k else 0) + b2n b * 2 ^ k := by
  refine (fx_fxSet_same (by decide) c _ s).trans (Nat.mod_eq_of_lt ?_)
  have small := fx_lt c 2 2 s
  have one : b2n b ≤ 1 := by cases b <;> decide
  obtain rfl | rfl : k = 0 ∨ k = 1 := by omega
  · simp only [bit_zero, decide_eq_true_eq]; split <;> omega
  · simp only [bit_one, decide_eq_true_eq]; split <;> omega

theorem fEnabled_fFlag_zero (c : Nat) (b : Bool) (s : State) : fEnabled c (fFlag c 0 b s) = b := by
  rw [fEnabled, flags_fFlag (by decide)]
  cases b <;> simp only [bit_zero, b2n, decide_eq_true_eq, decide_eq_false_iff_not] <;> split <;> simp <;> omega

theorem fPending_fFlag_zero (c : Nat) (b : Bool) (s : State) : fPending c (fFlag c 0 b s) = fPending c s := by
  rw [fPending, fPending, flags_fFlag (by decide), bit_one, bit_one, bit_zero, decide_eq_decide]
  cases b <;> simp only [b2n, decide_eq_true_eq] <;> split <;> simp <;> omega

theorem fPending_fFlag_one (c : Nat) (b : Bool) (s : State) : fPending c (fFlag c 1 b s) = b := by
  rw [fPending, flags_fFlag (by decide)]
  cases b <;> simp only [bit_one, b2n, decide_eq_true_eq, decide_eq_false_iff_not] <;> split <;> simp <;> omega

theorem fEnabled_fFlag_one (c : Nat) (b : Bool) (s : State) : fEnabled c (fFlag c 1 b s) = fEnabled c s := by
  rw [fEnabled, fEnabled, flags_fFlag (by decide), bit_zero, bit_zero, bit_one, decide_eq_decide]
  cases b <;> simp only [b2n, decide_eq_true_eq] <;> split <;> simp <;> omega

/-! ### Flow records and keys -/

@[simp] theorem fFlow_fFlowMod_same (c : Nat) (f : EssFlow → EssFlow) (s : State) : fFlow c (fFlowMod c f s) = f (fFlow c s) :=
  Tab.get_mod_same ..

theorem fState_fFlowMod (c d : Nat) (f : EssFlow → EssFlow) (s : State) : fState c (fFlowMod d f s) = fState c s := rfl
theorem fEnabled_fFlowMod (c d : Nat) (f : EssFlow → EssFlow) (s : State) : fEnabled c (fFlowMod d f s) = fEnabled c s := rfl
theorem fPending_fFlowMod (c d : Nat) (f : EssFlow → EssFlow) (s : State) : fPending c (fFlowMod d f s) = fPending c s := rfl
theorem fFlow_fFlag (c d n : Nat) (b : Bool) (s : State) : fFlow c (fFlag d n b s) = fFlow c s := rfl

/-! ### Slots (R242) -/

/-- Nothing but the staging slots differs. -/
def OnlySlots (s t : State) : Prop := ∃ slots, t = { s with ess := { s.ess with slots := slots } }

theorem OnlySlots.refl (s : State) : OnlySlots s s := ⟨_, rfl⟩

theorem OnlySlots.trans {s t u : State} (h : OnlySlots s t) (k : OnlySlots t u) : OnlySlots s u := by
  obtain ⟨_, rfl⟩ := h
  obtain ⟨_, rfl⟩ := k
  exact ⟨_, rfl⟩

theorem setSlot_onlySlots (i n : Nat) (x : SlotSt) (s : State) : OnlySlots s (setSlot i n x s) := ⟨_, rfl⟩
theorem freeSlot_onlySlots (i n : Nat) (s : State) : OnlySlots s (freeSlot i n s) := ⟨_, rfl⟩

theorem releaseSlot_onlySlots (i n r : Nat) (s : State) : OnlySlots s (releaseSlot i n r s) := by
  unfold releaseSlot
  split
  · exact .refl s
  · dsimp only
    split
    · exact freeSlot_onlySlots ..
    · exact setSlot_onlySlots ..

theorem dropReader_onlySlots (r : Nat) (s : State) : OnlySlots s (dropReader r s) :=
  foldl_rel .refl .trans (fun s k => by
    split
    · split
      · exact releaseSlot_onlySlots ..
      · exact .refl s
    · exact .refl s) ..

end Sys2Proof.Machine
end

section
/-! SUPPORT and CERTIFICATE. Commands on an essence context: their result, the image that they return, and the states that
refuse them (R233, R255, R256); O25. -/
namespace Sys2Proof.Machine

/-! ### The result of a command (R233) -/

/-- The fields in which a command answers. -/
abbrev answerKeys : List Nat := [F.ESS_CMD_RESULT.key 0, F.ESS_CMD_DETAIL.key 0]

theorem essResult_only (r d : Nat) (s : State) : OnlyFields answerKeys s (essResult r d s) :=
  ((OnlyFields.refl _ s).fset (by decide)).fset (by decide)

theorem fget_essResult_result {r : Nat} (h : r < 256) (d : Nat) (s : State) : fget F.ESS_CMD_RESULT 0 (essResult r d s) = r := by
  rw [essResult, fget_fset_other (by decide) (by decide) (by decide), fget_fset_same]
  exact Nat.mod_eq_of_lt h

theorem fget_essResult_detail {d : Nat} (h : d < 256) (r : Nat) (s : State) : fget F.ESS_CMD_DETAIL 0 (essResult r d s) = d := by
  rw [essResult, fget_fset_same]
  exact Nat.mod_eq_of_lt h

theorem fget_essResult_other {f : Fld} (hr : f.key 0 ≠ F.ESS_CMD_RESULT.key 0) (hd : f.key 0 ≠ F.ESS_CMD_DETAIL.key 0)
    (hf : f.key 0 < 16384) (i r d : Nat) (s : State) : fget f i (essResult r d s) = fget f i s := by
  rw [essResult, fget_fset_other hd (by decide) hf, fget_fset_other hr (by decide) hf]

@[simp] theorem essResult_ess (r d : Nat) (s : State) : (essResult r d s).ess = s.ess := rfl
@[simp] theorem essResult_mem (r d : Nat) (s : State) : (essResult r d s).mem = s.mem := rfl
@[simp] theorem essResult_counters (r d : Nat) (s : State) : (essResult r d s).counters = s.counters := rfl

/-! ### ESS_ARG -/

/-- R233: an image returned in ESS_ARG changes its words alone. -/
theorem essArgPut_parts (b : Bytes) (s : State) : ∃ regs, essArgPut b s = { s with regs := regs } :=
  foldl_rel (R := fun s t => ∃ regs, t = { s with regs := regs }) (fun _ => ⟨_, rfl⟩)
    (by rintro s _ _ ⟨_, rfl⟩ ⟨_, rfl⟩; exact ⟨_, rfl⟩) (fun _ _ => ⟨_, rfl⟩) _ s

@[simp] theorem essArgPut_ess (b : Bytes) (s : State) : (essArgPut b s).ess = s.ess := by
  obtain ⟨_, put⟩ := essArgPut_parts b s; rw [put]
@[simp] theorem essArgPut_mem (b : Bytes) (s : State) : (essArgPut b s).mem = s.mem := by
  obtain ⟨_, put⟩ := essArgPut_parts b s; rw [put]
@[simp] theorem essArgPut_counters (b : Bytes) (s : State) : (essArgPut b s).counters = s.counters := by
  obtain ⟨_, put⟩ := essArgPut_parts b s; rw [put]

theorem fget_essArgPut_other {f : Fld} (h : f.key 0 ≠ F.ESS_ARG_DATA.key 0) (hf : f.key 0 < 16384) (i : Nat) (b : Bytes)
    (s : State) : fget f i (essArgPut b s) = fget f i s :=
  foldl_keeps (φ := fget f i) (fun _ _ _ => fget_fset_other h (by decide) hf) s

/-- R233: word `i` of ESS_ARG is word `i` of the image. -/
theorem fget_essArgPut_same {i : Nat} (h : i < 64) (b : Bytes) (s : State) :
    fget F.ESS_ARG_DATA i (essArgPut b s) = fieldLE b (4 * i) 4 := by
  obtain ⟨u, -, -, visit, -⟩ := foldl_visits (R := fun _ _ => True) (fun _ => trivial) (fun _ _ => trivial) (fun _ _ => trivial)
    List.nodup_range (List.mem_range.2 h) (φ := fget F.ESS_ARG_DATA i)
    (g := fun s i => fset F.ESS_ARG_DATA i (fieldLE b (4 * i) 4) s) (fun _ _ _ ne => fget_fset_inst (Ne.symm ne)) s
  exact visit.trans ((fget_fset_same ..).trans (Nat.mod_eq_of_lt (fieldLE_lt ..)))

/-! ### Commands -/

section
variable {fn : Fn} {s : State}

/-- R233: a command that reaches ESS_CMD while none is in progress is run. -/
theorem essCmd_runs (hr : Reaches fn .ESS_CMD 0 s) (hb : flag F.ESS_CMD_BUSY 0 s = false) (op : Nat) :
    hostWr fn.val .ESS_CMD 0 s (essCmdWrite op) = essCommand op s :=
  (hostWr_reaches hr _).trans (if_neg (by simp [hb]))

/-- A command answers BAD_STATE and changes nothing else. -/
theorem completes_badState {c : Instr} (h : exec c s = .next (essResult 5 0 s)) : Completes c s fun t =>
    fget F.ESS_CMD_RESULT 0 t = 5 ∧ fget F.ESS_CMD_DETAIL 0 t = 0 ∧ OnlyFields answerKeys s t :=
  .intro h ⟨fget_essResult_result (by decide) .., fget_essResult_detail (by decide) .., essResult_only ..⟩

/-- R233: READ answers with the image. -/
theorem essRead_completes (hr : Reaches fn .ESS_CMD 0 s) (hb : flag F.ESS_CMD_BUSY 0 s = false) (w : Word) :
    Completes (.essRead fn w) s fun t => fget F.ESS_CMD_RESULT 0 t = 0 ∧
      (∀ i, i < 64 → fget F.ESS_ARG_DATA i t = fieldLE (essImage (fget F.ESS_CMD_CTX_CTX 0 s) s) (4 * i) 4) ∧
      t.mem = s.mem ∧ t.ess = s.ess := by
  have runs : exec (.essRead fn w) s = .next (essResult 0 0 (essArgPut (essImage (fget F.ESS_CMD_CTX_CTX 0 s) s) s)) :=
    congrArg Host.Outcome.next (essCmd_runs hr hb 5)
  refine .intro runs ⟨fget_essResult_result (by decide) .., fun i hi => ?_, ?_⟩
  · exact (fget_essResult_other (by decide) (by decide) (by decide) ..).trans (fget_essArgPut_same hi ..)
  · simp

end

/-- Settles O25: a command that its context's state refuses is the first case of its branch, and READ copies the image into
ESS_ARG word by word. -/
theorem essenceCommandsInWrongState : Obligations.EssenceCommandsInWrongState := by
  unfold Obligations.EssenceCommandsInWrongState
  intro fn w s hr hb c bad
  have refused {i : Instr} (op : Nat) (e : exec i s = .next (hostWr fn.val .ESS_CMD 0 s (essCmdWrite op)))
      (h : essCommand op s = essResult 5 0 s) : Completes i s bad :=
    completes_badState (e.trans (congrArg Host.Outcome.next ((essCmd_runs hr hb op).trans h)))
  exact ⟨fun free => refused 2 rfl (if_pos free), fun h => refused 3 rfl (if_pos (by simpa using h)),
    fun idle => ⟨refused 4 rfl (if_pos idle), refused 6 rfl (if_pos idle)⟩,
    fun h => refused 7 rfl (if_pos (by simpa using h)), essRead_completes hr hb w⟩

end Sys2Proof.Machine
end

section
/-! SUPPORT. Disabling, closing, enabling and freeing a flow, and the seals of windows (R232, R243, R255, R256, R408): what they
give and what they leave. -/
namespace Sys2Proof.Machine

/-! ### The essence engine alone -/

/-- Nothing but the state of the essence engine differs. -/
def OnlyEss (s t : State) : Prop := ∃ ess, t = { s with ess := ess }

namespace OnlyEss

theorem refl (s : State) : OnlyEss s s := ⟨_, rfl⟩

theorem trans {s t u : State} (h : OnlyEss s t) (k : OnlyEss t u) : OnlyEss s u := by
  obtain ⟨_, rfl⟩ := h
  obtain ⟨_, rfl⟩ := k
  exact ⟨_, rfl⟩

theorem ite {s a b : State} {c : Prop} [Decidable c] (h : OnlyEss s a) (k : OnlyEss s b) : OnlyEss s (if c then a else b) := by
  split <;> assumption

theorem eq {s t : State} (h : OnlyEss s t) : t = { s with ess := t.ess } := by obtain ⟨_, rfl⟩ := h; rfl
theorem regs {s t : State} (h : OnlyEss s t) : t.regs = s.regs := by rw [h.eq]
theorem mem {s t : State} (h : OnlyEss s t) : t.mem = s.mem := by rw [h.eq]
theorem time {s t : State} (h : OnlyEss s t) : t.time = s.time := by rw [h.eq]
theorem loader {s t : State} (h : OnlyEss s t) : t.loader = s.loader := by rw [h.eq]

end OnlyEss

theorem OnlySlots.onlyEss {s t : State} (h : OnlySlots s t) : OnlyEss s t := by obtain ⟨_, rfl⟩ := h; exact ⟨_, rfl⟩
theorem fFlag_onlyEss (c n : Nat) (b : Bool) (s : State) : OnlyEss s (fFlag c n b s) := ⟨_, rfl⟩
theorem fSetState_onlyEss (c v : Nat) (s : State) : OnlyEss s (fSetState c v s) := ⟨_, rfl⟩
theorem fFlowMod_onlyEss (c : Nat) (f : EssFlow → EssFlow) (s : State) : OnlyEss s (fFlowMod c f s) := ⟨_, rfl⟩

/-! ### What a disabled flow discards (R255) -/

/-- What is left of a flow's record. -/
def EssFlow.discarded (f : EssFlow) : EssFlow :=
  { EssFlow.init with oldKey := f.oldKey, newKey := f.newKey, srtpTop := f.srtpTop, closing := f.closing }

theorem flowDiscard_eq (c : Nat) (s : State) :
    flowDiscard c s = fFlowMod c (fun _ => (fFlow c s).discarded) (if fIngest c s then freeSlots (fWin c s) s else dropReader (1024 + c) s) :=
  rfl

/-- R242: a flow lets go of staging slots alone. -/
theorem slotsGone_onlySlots (c : Nat) (s : State) :
    OnlySlots s (if fIngest c s then freeSlots (fWin c s) s else dropReader (1024 + c) s) := by
  split
  · exact ⟨_, rfl⟩
  · exact dropReader_onlySlots ..

theorem flowDiscard_onlyEss (c : Nat) (s : State) : OnlyEss s (flowDiscard c s) :=
  (slotsGone_onlySlots c s).onlyEss.trans (fFlowMod_onlyEss ..)

theorem flowDiscard_ctx (c : Nat) (s : State) : (flowDiscard c s).ess.ctx = s.ess.ctx := by
  obtain ⟨_, gone⟩ := slotsGone_onlySlots c s
  rw [flowDiscard_eq, gone]; rfl

theorem fFlow_flowDiscard (c : Nat) (s : State) : fFlow c (flowDiscard c s) = (fFlow c s).discarded := by
  rw [flowDiscard_eq, fFlow_fFlowMod_same]

/-- R242, R255: an ingest flow leaves no slot of its window. -/
theorem slots_flowDiscard {c : Nat} {s : State} (h : fIngest c s = true) :
    (flowDiscard c s).ess.slots.all (fun x => x.1 / 4096 != fWin c s) = true := by
  rw [flowDiscard_eq, if_pos h]
  exact List.all_eq_true.2 fun x hx => (List.mem_filter.1 hx).2

/-! ### DISABLE and CLOSE (R255, R256) -/

theorem essOff_onlyEss (c : Nat) (s : State) : OnlyEss s (essOff c s) :=
  (fFlag_onlyEss c 0 false s).trans ((fSetState_onlyEss ..).trans (flowDiscard_onlyEss ..))

theorem fState_essOff (c : Nat) (s : State) : fState c (essOff c s) = 2 :=
  (fx_congr (flowDiscard_ctx ..) ..).trans (fState_fSetState (by decide) ..)

/-- FLAGS of a disabled flow. -/
theorem flags_essOff (c : Nat) (s : State) : fx c 2 2 (essOff c s) = fx c 2 2 (fFlag c 0 false s) :=
  (fx_congr (flowDiscard_ctx ..) ..).trans (fx_fSetState (by decide) (by decide) ..)

theorem fEnabled_essOff (c : Nat) (s : State) : fEnabled c (essOff c s) = false :=
  (congrArg (bit · 0) (flags_essOff c s)).trans (fEnabled_fFlag_zero ..)

theorem fPending_essOff (c : Nat) (s : State) : fPending c (essOff c s) = fPending c s :=
  (congrArg (bit · 1) (flags_essOff c s)).trans (fPending_fFlag_zero ..)

theorem fFlow_essOff (c : Nat) (s : State) : fFlow c (essOff c s) = (fFlow c s).discarded := fFlow_flowDiscard ..

/-- The class, the engine and the window of a flow are the same in both states. -/
structure SameFlow (c : Nat) (s t : State) : Prop where
  fEc : fEc c t = fEc c s
  fWin : fWin c t = fWin c s

theorem fFlag_sameFlow (c n : Nat) (b : Bool) (s : State) : SameFlow c s (fFlag c n b s) :=
  ⟨fEc_congr (fx_fFlag (.inl (by decide)) (by decide) ..) rfl,
    congrArg₂ winIdx (fx_fFlag (.inr (by decide)) (by decide) ..) (fx_fFlag (.inr (by decide)) (by decide) ..)⟩

theorem fSetState_sameFlow (c v : Nat) (s : State) : SameFlow c s (fSetState c v s) :=
  ⟨fEc_congr (fx_fSetState (by decide) (by decide) ..) rfl,
    congrArg₂ winIdx (fx_fSetState (by decide) (by decide) ..) (fx_fSetState (by decide) (by decide) ..)⟩

theorem SameFlow.trans {c : Nat} {s t u : State} (h : SameFlow c s t) (k : SameFlow c t u) : SameFlow c s u :=
  ⟨k.fEc.trans h.fEc, k.fWin.trans h.fWin⟩

theorem SameFlow.fIngest {c : Nat} {s t : State} (h : SameFlow c s t) : fIngest c t = fIngest c s := fIngest_congr h.fEc

theorem slots_essOff {c : Nat} {s : State} (h : fIngest c s = true) :
    (essOff c s).ess.slots.all (fun x => x.1 / 4096 != fWin c s) = true := by
  have same := (fFlag_sameFlow c 0 false s).trans (fSetState_sameFlow c 2 _)
  have gone := slots_flowDiscard (same.fIngest.trans h)
  rwa [same.fWin] at gone

theorem essShut_of_active {c : Nat} {s : State} (h : fState c s = 1) :
    essShut c s = fFlowMod c (fun f => { f with closing := true }) (essOff c (fFlag c 1 false s)) :=
  congrArg (fFlowMod c _) (if_pos ((fx_fFlag (.inl (by decide)) (by decide) ..).trans h))

theorem essShut_of_inactive {c : Nat} {s : State} (h : fState c s ≠ 1) :
    essShut c s = fFlowMod c (fun f => { f with closing := true }) (fFlag c 1 false s) :=
  congrArg (fFlowMod c _) (if_neg fun e => h ((fx_fFlag (.inl (by decide)) (by decide) ..).symm.trans e))

/-- R256: CLOSE drains an ACTIVE flow and withdraws a pending ENABLE. -/
theorem essShut_spec (c : Nat) (s : State) : ∀ u, u = essShut c s → (fFlow c u).closing = true ∧ fPending c u = false ∧
    (fState c s = 1 → fState c u = 2 ∧ fEnabled c u = false) ∧ OnlyEss s u := by
  rintro _ rfl
  have withdrawn : OnlyEss s (fFlag c 1 false s) := fFlag_onlyEss ..
  by_cases h : fState c s = 1
  · rw [essShut_of_active h, fFlow_fFlowMod_same, fPending_fFlowMod, fState_fFlowMod, fEnabled_fFlowMod, fPending_essOff,
      fPending_fFlag_one, fState_essOff, fEnabled_essOff]
    exact ⟨rfl, rfl, fun _ => ⟨rfl, rfl⟩, withdrawn.trans ((essOff_onlyEss ..).trans (fFlowMod_onlyEss ..))⟩
  · rw [essShut_of_inactive h, fFlow_fFlowMod_same, fPending_fFlowMod, fPending_fFlag_one]
    exact ⟨rfl, rfl, fun active => absurd active h, withdrawn.trans (fFlowMod_onlyEss ..)⟩

/-! ### ENABLE (R255) -/

/-- The record of a flow that starts afresh, of which `f` was the record before. -/
def enabledFlow (c td : Nat) (f : EssFlow) (s : State) : EssFlow :=
  { EssFlow.init with
    waitNew := fIngest c s
    startTick := if fIngest c s then 0
      else if Tab.get false s.time.tickSeen td then tickIdx td s + 1 else firstTickAt s.cfg td (nowCeil s)
    oldKey := f.oldKey, newKey := f.newKey, srtpTop := f.srtpTop
    bucket := 8 * 8 * fx c 0x14 2 s * bucketBit, bucketAt := s.time.ptp }

/-- The flow `f` starts, before its flags say so. -/
def flowBegun (c : Nat) (s : State) : State :=
  fFlowMod c (fun _ => enabledFlow c (ecTd (fEc c s)) (fFlow c s) (flowDiscard c s)) (flowDiscard c s)

theorem essEnableDo_eq (c : Nat) (s : State) : essEnableDo c s = fFlag c 0 true (fFlag c 1 false (flowBegun c s)) := rfl

theorem fFlow_essEnableDo (c : Nat) (s : State) :
    fFlow c (essEnableDo c s) = enabledFlow c (ecTd (fEc c s)) (fFlow c s) (flowDiscard c s) := by
  rw [essEnableDo_eq, fFlow_fFlag, fFlow_fFlag, flowBegun, fFlow_fFlowMod_same]

theorem essEnableDo_onlyEss (c : Nat) (s : State) : OnlyEss s (essEnableDo c s) :=
  (flowDiscard_onlyEss c s).trans ((fFlowMod_onlyEss ..).trans ((fFlag_onlyEss ..).trans (fFlag_onlyEss ..)))

theorem flags_essEnableDo (c : Nat) (s : State) : fState c (essEnableDo c s) = fState c s ∧ fEnabled c (essEnableDo c s) = true ∧
    fPending c (essEnableDo c s) = false := by
  rw [essEnableDo_eq, fEnabled_fFlag_zero, fPending_fFlag_zero, fPending_fFlag_one, fState_fFlag, fState_fFlag,
    flowBegun, fState_fFlowMod]
  exact ⟨fx_congr (flowDiscard_ctx c s) .., rfl, rfl⟩

theorem fIngest_flowDiscard (c : Nat) (s : State) : fIngest c (flowDiscard c s) = fIngest c s :=
  fIngest_congr (fEc_congr (fx_congr (flowDiscard_ctx ..) ..) (flowDiscard_onlyEss ..).loader)

theorem tickIdx_congr {s t : State} (h : t.regs = s.regs) (td : Nat) : tickIdx td t = tickIdx td s := by
  rw [tickIdx, tickIdx, fget_congr h, fget_congr h]

/-- R255: an egress flow starts with the tick after the last one seen. -/
theorem startTick_essEnableDo {c : Nat} {s : State} (hi : fIngest c s = false)
    (ht : Tab.get false s.time.tickSeen (ecTd (fEc c s)) = true) :
    (fFlow c (essEnableDo c s)).startTick = tickIdx (ecTd (fEc c s)) s + 1 := by
  have egress : fIngest c (flowDiscard c s) = false := (fIngest_flowDiscard c s).trans hi
  have seen : Tab.get false (flowDiscard c s).time.tickSeen (ecTd (fEc c s)) = true :=
    (congrArg (fun t : TimeUnit => Tab.get false t.tickSeen (ecTd (fEc c s))) (flowDiscard_onlyEss c s).time).trans ht
  have tick : tickIdx (ecTd (fEc c s)) (flowDiscard c s) = tickIdx (ecTd (fEc c s)) s :=
    tickIdx_congr (flowDiscard_onlyEss c s).regs _
  simp only [fFlow_essEnableDo, enabledFlow, egress, seen, tick, Bool.false_eq_true, if_false, if_true]

/-- An ENABLE has been carried out on flow `c` of `s`. -/
structure FlowStarted (c : Nat) (s u : State) : Prop where
  state : fState c u = fState c s
  enabled : fEnabled c u = true
  pending : fPending c u = false
  top : (fFlow c u).top = none
  seen : (fFlow c u).seen = []
  pics : (fFlow c u).pics = []
  waitNew : (fFlow c u).waitNew = fIngest c s
  startTick : fIngest c s = false → Tab.get false s.time.tickSeen (ecTd (fEc c s)) = true →
    (fFlow c u).startTick = tickIdx (ecTd (fEc c s)) s + 1
  only : OnlyEss s u

theorem essEnableDo_started (c : Nat) (s : State) : FlowStarted c s (essEnableDo c s) := by
  have record := fFlow_essEnableDo c s
  obtain ⟨state, enabled, pending⟩ := flags_essEnableDo c s
  exact ⟨state, enabled, pending, congrArg EssFlow.top record, congrArg EssFlow.seen record, congrArg EssFlow.pics record,
    (congrArg EssFlow.waitNew record).trans (fIngest_flowDiscard c s), startTick_essEnableDo, essEnableDo_onlyEss c s⟩

/-! ### Seals of windows (R340, R408) -/

/-- Nothing but memory and the seals of windows differs. -/
structure OnlySeals (s t : State) : Prop where
  rest : ∃ regs mem, t = { s with regs := regs, mem := mem }
  fields : ∀ f : Fld, f.key 0 ≠ F.CE_WIN_STATUS_SEALED.key 0 → f.key 0 < 16384 → ∀ i, fget f i t = fget f i s

namespace OnlySeals

theorem refl (s : State) : OnlySeals s s := ⟨⟨_, _, rfl⟩, fun _ _ _ _ => rfl⟩

theorem trans {s t u : State} (h : OnlySeals s t) (k : OnlySeals t u) : OnlySeals s u := by
  refine ⟨?_, fun f hs hf i => (k.fields f hs hf i).trans (h.fields f hs hf i)⟩
  obtain ⟨_, _, rfl⟩ := h.rest
  obtain ⟨_, _, rfl⟩ := k.rest
  exact ⟨_, _, rfl⟩

theorem ess {s t : State} (h : OnlySeals s t) : t.ess = s.ess := by obtain ⟨_, _, rfl⟩ := h.rest; rfl
theorem counters {s t : State} (h : OnlySeals s t) : t.counters = s.counters := by obtain ⟨_, _, rfl⟩ := h.rest; rfl

end OnlySeals

theorem setSealed_onlySeals (i : Nat) (b : Bool) (s : State) : OnlySeals s (setFlag F.CE_WIN_STATUS_SEALED i b s) :=
  ⟨⟨_, _, rfl⟩, fun _ hs hf _ => fget_setFlag_other hs (by decide) hf⟩

theorem winZero_onlySeals (i : Nat) (s : State) : OnlySeals s (winZero i s) := ⟨⟨_, _, rfl⟩, fun _ _ _ _ => rfl⟩

theorem sealWindows_onlySeals (s : State) : OnlySeals s (sealWindows s) :=
  foldl_rel .refl .trans (fun s i => setSealed_onlySeals i true s) ..

theorem unsealWindows_onlySeals (s : State) : OnlySeals s (unsealWindows s) :=
  foldl_rel .refl .trans (fun s i => (setSealed_onlySeals i false s).trans (winZero_onlySeals ..)) ..

@[simp] theorem sealWindows_mem (s : State) : (sealWindows s).mem = s.mem :=
  foldl_keeps (φ := State.mem) (g := fun s i => setFlag F.CE_WIN_STATUS_SEALED i true s) (fun _ _ _ => rfl) s

end Sys2Proof.Machine
end

section
/-! SUPPORT and CERTIFICATE. The commands that change a flow, the end of its drain and the end of an old key (R232, R233, R243,
R253 to R256); O26. -/
namespace Sys2Proof.Machine

/-! ### Keys of a flow (R254, R496) -/

theorem srtpKey_congr {s t : State} (h : t.ess.srtp = s.ess.srtp) (c slot : Nat) : srtpKey c slot t = srtpKey c slot s := by
  rw [srtpKey, srtpKey, h]

/-- R254: REKEY of an ingest flow: the new key is used at once, the old one stays for the overlap. -/
def ingestRekeyed (c h : Nat) (s : State) : State :=
  let u := fxSet c 0x38 (leBytes 4 h) s
  fFlowMod c (fun f => { f with oldKey := some (fx c 0x38 4 s, none) }) { u with ess := { u.ess with
    srtp := Tab.set [] (Tab.set [] u.ess.srtp (65536 + c) (srtpKey c 0 s)) c (srtpSession h s) } }

/-- R254: REKEY of an egress flow: the new key waits for the next picture. -/
def egressRekeyed (c h : Nat) (s : State) : State :=
  let u := fxSet c 0x38 (leBytes 4 h) s
  fFlowMod c (fun f => { f with newKey := some h }) { u with ess := { u.ess with
    srtp := Tab.set [] u.ess.srtp (65536 + c) (srtpSession h s) } }

theorem fx_key_fxSet {v : Nat} (h : v < 256 ^ 4) (c : Nat) (s : State) : fx c 0x38 4 (fxSet c 0x38 (leBytes 4 v) s) = v :=
  (fx_fxSet_same (by decide) ..).trans (Nat.mod_eq_of_lt h)

theorem fEc_fxSet_key (c v : Nat) (s : State) : fEc c (fxSet c 0x38 (leBytes 4 v) s) = fEc c s :=
  fEc_congr (fx_fxSet_apart (by rw [leBytes_length]; decide) (by decide) (.inl (by decide)) ..) rfl

section
variable {c : Nat} {s : State}

theorem essRekeyDo_plain (h : ecSrtp (fEc c s) = false) :
    essRekeyDo c s = (0, fxSet c 0x38 (leBytes 4 (fieldLE (essArg s) 0x38 4)) s) := if_pos (by rw [h]; rfl)

theorem essRekeyDo_unusable (h : ecSrtp (fEc c s) = true) (k : keyUsable (fieldLE (essArg s) 0x38 4) useSrtp 0 s = false) :
    essRekeyDo c s = (7, s) := (if_neg (by rw [h]; decide)).trans (if_pos (by rw [k]; rfl))

theorem essRekeyDo_ingest (h : ecSrtp (fEc c s) = true) (k : keyUsable (fieldLE (essArg s) 0x38 4) useSrtp 0 s = true)
    (i : fIngest c s = true) : essRekeyDo c s = (0, ingestRekeyed c (fieldLE (essArg s) 0x38 4) s) :=
  (if_neg (by rw [h]; decide)).trans ((if_neg (by rw [k]; decide)).trans (if_pos ((fIngest_congr (fEc_fxSet_key ..)).trans i)))

theorem essRekeyDo_egress (h : ecSrtp (fEc c s) = true) (k : keyUsable (fieldLE (essArg s) 0x38 4) useSrtp 0 s = true)
    (i : fIngest c s = false) : essRekeyDo c s = (0, egressRekeyed c (fieldLE (essArg s) 0x38 4) s) := by
  have out : fIngest c (fxSet c 0x38 (leBytes 4 (fieldLE (essArg s) 0x38 4)) s) = false := (fIngest_congr (fEc_fxSet_key ..)).trans i
  exact (if_neg (by rw [h]; decide)).trans ((if_neg (by rw [k]; decide)).trans (if_neg (by rw [out]; decide)))

end

theorem ingestRekeyed_spec (c h : Nat) (s : State) : ∀ t, t = ingestRekeyed c h s → srtpKey c 0 t = srtpSession h s ∧
    srtpKey c 1 t = srtpKey c 0 s ∧ (fFlow c t).oldKey = some (fx c 0x38 4 s, none) ∧
    fctx c t = fctx c (fxSet c 0x38 (leBytes 4 h) s) ∧ t.mem = s.mem := by
  rintro _ rfl
  refine ⟨?_, ?_, congrArg EssFlow.oldKey (fFlow_fFlowMod_same ..), rfl, rfl⟩
  · rw [srtpKey, Nat.mul_zero, Nat.zero_add]
    exact Tab.get_set_same ..
  · rw [srtpKey, Nat.mul_one]
    exact (Tab.get_set_ne _ _ _ _ (by omega)).trans (Tab.get_set_same ..)

theorem egressRekeyed_spec (c h : Nat) (s : State) : ∀ t, t = egressRekeyed c h s → srtpKey c 0 t = srtpKey c 0 s ∧
    srtpKey c 1 t = srtpSession h s ∧ (fFlow c t).newKey = some h ∧
    fctx c t = fctx c (fxSet c 0x38 (leBytes 4 h) s) ∧ t.mem = s.mem := by
  rintro _ rfl
  refine ⟨?_, ?_, congrArg EssFlow.newKey (fFlow_fFlowMod_same ..), rfl, rfl⟩
  · exact Tab.get_set_ne _ _ _ _ (by omega)
  · rw [srtpKey, Nat.mul_one]
    exact Tab.get_set_same ..

/-! ### The image that BIND checks and stores (R232, R233) -/

/-- R233: the image of the context with the fields that BIND takes from ESS_ARG. -/
def boundImage (c : Nat) (s : State) : Bytes :=
  splice (splice (splice (splice (fitTo 256 (fctx c s)) 4 (slice (essArg s) 4 5)) 0x28 (slice (essArg s) 0x28 16)) 0x50
    (slice (essArg s) 0x50 4)) 0x60 (slice (essArg s) 0x60 160)

theorem slice_length_le (b : Bytes) (o n : Nat) : (slice b o n).length ≤ n := List.length_take_le ..

/-- BIND keeps what lies before the engine, and between the legs and the template lengths. -/
theorem fieldLE_boundImage {i n : Nat} (h : i + n ≤ 4 ∨ 0x38 ≤ i ∧ i + n ≤ 0x50) (c : Nat) (s : State) :
    fieldLE (boundImage c s) i n = fx c i n s := by
  have l1 := slice_length_le (essArg s) 4 5
  have l2 := slice_length_le (essArg s) 0x28 16
  have l3 := slice_length_le (essArg s) 0x50 4
  have l4 := slice_length_le (essArg s) 0x60 160
  have b0 := fitTo_length 256 (fctx c s)
  have b1 := splice_length (b := fitTo 256 (fctx c s)) (o := 4) (new := slice (essArg s) 4 5) (by omega)
  have b2 := splice_length (b := splice (fitTo 256 (fctx c s)) 4 (slice (essArg s) 4 5)) (o := 0x28) (new := slice (essArg s) 0x28 16)
    (by omega)
  have b3 := splice_length (o := 0x50) (new := slice (essArg s) 0x50 4)
    (b := splice (splice (fitTo 256 (fctx c s)) 4 (slice (essArg s) 4 5)) 0x28 (slice (essArg s) 0x28 16)) (by omega)
  rw [fieldLE, boundImage, slice_splice_apart (by omega) (by omega), slice_splice_apart (by omega) (by omega),
    slice_splice_apart (by omega) (by omega), slice_splice_apart (by omega) (by omega)]
  exact fieldLE_fitTo _ (by omega)

/-- The context holds its new image, before its key is derived. -/
def bindStored (c : Nat) (s : State) : State := { s with ess := { s.ess with ctx := Tab.put s.ess.ctx c (boundImage c s) } }

theorem fctx_bindStored (c : Nat) (s : State) : fctx c (bindStored c s) = boundImage c s := Tab.get_put_same ..

theorem fx_bindStored {i n : Nat} (h : i + n ≤ 4 ∨ 0x38 ≤ i ∧ i + n ≤ 0x50) (c : Nat) (s : State) :
    fx c i n (bindStored c s) = fx c i n s := by rw [fx, fctx_bindStored, fieldLE_boundImage h]

theorem essBindDo_refused {c : Nat} {s : State} (h : imgCheck (some c) (boundImage c s) s ≠ 0) :
    essBindDo c s = (imgCheck (some c) (boundImage c s) s, s) := if_pos h

theorem essBindDo_bound {c : Nat} {s : State} (h : imgCheck (some c) (boundImage c s) s = 0) :
    essBindDo c s = (0, sealWindows (unsealWindows (keyLoad c (bindStored c s)))) := if_neg (not_not.2 h)

theorem srtpSession_congr {s t : State} (h : t.ward = s.ward) (k : Nat) : srtpSession k t = srtpSession k s := by
  have gen : keyGen (keySlot k) t = keyGen (keySlot k) s := by rw [keyGen, keyGen, h]
  have found : keyRec k t = keyRec k s := by rw [keyRec, keyRec, gen, h]
  rw [srtpSession, srtpSession, found]

theorem keyLoad_parts (c : Nat) (s : State) : ∃ srtp, keyLoad c s = { s with ess := { s.ess with srtp := srtp } } := by
  unfold keyLoad; split <;> exact ⟨_, rfl⟩

/-- R496: a flow with SRTP has the session key of its handle. -/
theorem srtpKey_keyLoad {c : Nat} {s : State} (h : ecSrtp (fEc c s) = true) :
    srtpKey c 0 (keyLoad c s) = srtpSession (fx c 0x38 4 s) s := by
  rw [srtpKey, Nat.mul_zero, Nat.zero_add, keyLoad, if_pos h]
  exact Tab.get_set_same ..

/-- The results that the checks of an image give. -/
theorem imgCheck_lt (c : Option Nat) (b : Bytes) (s : State) : imgCheck c b s < 256 := by
  unfold imgCheck
  split
  · decide
  · repeat' split
    all_goals decide

/-- What BIND leaves of the flow, and what it gives. -/
theorem bound_spec (c : Nat) (s : State) : ∀ t, t = sealWindows (unsealWindows (keyLoad c (bindStored c s))) →
    fctx c t = boundImage c s ∧ (ecSrtp (fEc c s) = true → srtpKey c 0 t = srtpSession (fx c 0x38 4 s) s) ∧
    t.ess.flow = s.ess.flow := by
  rintro _ rfl
  have ess : (sealWindows (unsealWindows (keyLoad c (bindStored c s)))).ess = (keyLoad c (bindStored c s)).ess :=
    ((unsealWindows_onlySeals _).trans (sealWindows_onlySeals _)).ess
  obtain ⟨srtp, loaded⟩ := keyLoad_parts c (bindStored c s)
  have sameClass : fEc c (bindStored c s) = fEc c s := fEc_congr (fx_bindStored (.inl (by decide)) ..) rfl
  refine ⟨?_, fun h => ?_, ?_⟩
  · rw [fctx, ess, loaded]
    exact fctx_bindStored c s
  · rw [srtpKey_congr (congrArg Ess.srtp ess), srtpKey_keyLoad (sameClass ▸ h), fx_bindStored (.inr (by decide))]
    exact srtpSession_congr rfl _
  · rw [ess, loaded]
    rfl

/-! ### The end of a drain, and of an old key (R254 to R256) -/

theorem essDrainEnd_stays {x : Ctx} {s : State} (h : fState x s = 2) (hc : (fFlow x s).closing = false) (hp : fPending x s = false) :
    exec (.essDrainEnd x) s = .next (fSetState x 1 s) := by
  have idle : fPending x (fSetState x 1 s) = false :=
    (congrArg (bit · 1) (fx_fSetState (by decide) (by decide) ..)).trans hp
  exact congrArg Host.Outcome.next ((if_neg (not_not.2 h)).trans ((if_neg (by simp [hc])).trans (if_neg (by simp [idle]))))

theorem essDrainEnd_starts {x : Ctx} {s : State} (h : fState x s = 2) (hc : (fFlow x s).closing = false) (hp : fPending x s = true) :
    exec (.essDrainEnd x) s = .next (essEnableDo x (fSetState x 1 s)) := by
  have waits : fPending x (fSetState x 1 s) = true :=
    (congrArg (bit · 1) (fx_fSetState (by decide) (by decide) ..)).trans hp
  exact congrArg Host.Outcome.next ((if_neg (not_not.2 h)).trans ((if_neg (by simp [hc])).trans (if_pos waits)))

theorem essDrainEnd_frees {x : Ctx} {s : State} (h : fState x s = 2) (hc : (fFlow x s).closing = true) :
    exec (.essDrainEnd x) s = .next (unsealWindows (essFree x s)) :=
  congrArg Host.Outcome.next ((if_neg (not_not.2 h)).trans (if_pos hc))

/-- R256: a context that is freed leaves nothing, and its ring space returns. -/
theorem freed_spec (c : Nat) (s : State) : ∀ t, t = unsealWindows (essFree c s) → fState c t = 0 ∧
    fget F.ESS_RING_FREE_KIB 0 t = (fget F.ESS_RING_FREE_KIB 0 s + fx c 0x1C 4 s) % 2 ^ F.ESS_RING_FREE_KIB.w ∧
    srtpKey c 0 t = [] ∧ srtpKey c 1 t = [] ∧ fFlow c t = EssFlow.init := by
  rintro _ rfl
  have seals := unsealWindows_onlySeals (essFree c s)
  have ess := seals.ess
  refine ⟨?_, ?_, ?_, ?_, ?_⟩
  · have gone : fctx c (essFree c s) = [] := Tab.get_del_same ..
    rw [fState, fx_congr (congrArg Ess.ctx ess), fx, gone]
    rfl
  · rw [seals.fields _ (by decide) (by decide)]
    exact fget_fset_same F.ESS_RING_FREE_KIB 0 _ s
  · rw [srtpKey_congr (congrArg Ess.srtp ess), srtpKey, Nat.mul_zero, Nat.zero_add]
    exact (Tab.get_del_ne _ _ (by omega)).trans (Tab.get_del_same ..)
  · rw [srtpKey_congr (congrArg Ess.srtp ess), srtpKey, Nat.mul_one]
    exact Tab.get_del_same ..
  · rw [fFlow, ess]
    exact Tab.get_del_same ..

section
variable {x : Ctx} {s : State} {h at_ : Nat} (ho : (fFlow x s).oldKey = some (h, some at_))
include ho

theorem srtpOldKeyExpire_exec : exec (.srtpOldKeyExpire x) s = .next (if nowNs (reachPtp at_ s) < at_ then reachPtp at_ s
    else fFlowMod x (fun f => { f with oldKey := none }) { reachPtp at_ s with ess := { s.ess with
      srtp := Tab.del s.ess.srtp (65536 + x) } }) := by
  change Host.Outcome.next (match (fFlow x s).oldKey with | some (_, some t) => _ | _ => s) = _
  rw [ho]
  rfl

/-- R254: the old key of an ingest flow goes at its time. -/
theorem srtpOldKeyExpire_completes (ht : at_ ≤ nowNs (reachPtp at_ s)) : Completes (.srtpOldKeyExpire x) s fun t =>
    (fFlow x t).oldKey = none ∧ Tab.find? t.ess.srtp (65536 + x) = none ∧ t.regs = s.regs ∧ t.mem = s.mem :=
  .intro ((srtpOldKeyExpire_exec ho).trans (congrArg Host.Outcome.next (if_neg (not_lt.2 ht))))
    ⟨congrArg EssFlow.oldKey (fFlow_fFlowMod_same ..), Tab.find?_del_same .., rfl, rfl⟩

end

/-! ### The commands -/

section
variable {fn : Fn} {w : Word} {s : State} {c : Nat} (hr : Reaches fn .ESS_CMD 0 s) (hb : flag F.ESS_CMD_BUSY 0 s = false)
  (hc : c = fget F.ESS_CMD_CTX_CTX 0 s)
include hr hb hc

theorem essDisable_exec (h : fState c s = 1) : exec (.essDisable fn w) s = .next (essResult 0 0 (slotsMoved c (essOff c s))) := by
  subst hc
  exact congrArg Host.Outcome.next ((essCmd_runs hr hb 4).trans (if_neg (not_not.2 h)))

theorem essClose_exec (h : fState c s ≠ 0) : exec (.essClose fn w) s = .next (essResult 0 0 (slotsMoved c (essShut c s))) := by
  subst hc
  exact congrArg Host.Outcome.next ((essCmd_runs hr hb 2).trans (if_neg h))

theorem essEnable_exec_active (h : fState c s = 1) (hm : s.mode = .operate) :
    exec (.essEnable fn w) s = .next (essResult 0 0 (slotsMoved c (essEnableDo c s))) := by
  subst hc
  exact congrArg Host.Outcome.next ((essCmd_runs hr hb 3).trans ((if_neg (by simp [h, hm])).trans (if_neg (by rw [h]; decide))))

theorem essEnable_exec_draining (h : fState c s = 2) (hm : s.mode = .operate) :
    exec (.essEnable fn w) s = .next (essResult 0 0 (fFlag c 1 true s)) := by
  subst hc
  exact congrArg Host.Outcome.next ((essCmd_runs hr hb 3).trans ((if_neg (by simp [h, hm])).trans (if_pos h)))

theorem essRekey_exec (h : fState c s = 1) {r : Nat} {t : State} (answer : essRekeyDo c s = (r, t)) :
    exec (.essRekey fn w) s = .next (essResult r 0 t) := by
  subst hc
  rw [show essResult r 0 t = essResult (r, t).1 0 (r, t).2 from rfl, ← answer]
  exact congrArg Host.Outcome.next ((essCmd_runs hr hb 6).trans (if_neg (not_not.2 h)))

theorem essBind_exec (h : fState c s = 1) (he : fEnabled c s = false) {r : Nat} {t : State} (answer : essBindDo c s = (r, t)) :
    exec (.essBind fn w) s = .next (essResult r 0 t) := by
  subst hc
  rw [show essResult r 0 t = essResult (r, t).1 0 (r, t).2 from rfl, ← answer]
  exact congrArg Host.Outcome.next ((essCmd_runs hr hb 7).trans (if_neg (by simp [h, he])))

/-- R255: ENABLE of a flow that drains is kept pending. -/
theorem essEnable_draining (h : fState c s = 2) (hm : s.mode = .operate) : Completes (.essEnable fn w) s fun t =>
    fget F.ESS_CMD_RESULT 0 t = 0 ∧ fState c t = 2 ∧ fPending c t = true ∧ t = { s with regs := t.regs, ess := t.ess } ∧
      t.ess.flow = s.ess.flow :=
  .intro (essEnable_exec_draining hr hb hc h hm) ⟨fget_essResult_result (by decide) .., (fState_fFlag ..).trans h,
    fPending_fFlag_one .., rfl, rfl⟩

/-- R254: a handle that is not usable. -/
theorem essRekey_unusable (h : fState c s = 1) (hs : ecSrtp (fEc c s) = true)
    (hu : keyUsable (fieldLE (essArg s) 0x38 4) useSrtp 0 s = false) : Completes (.essRekey fn w) s fun t =>
      fget F.ESS_CMD_RESULT 0 t = 7 ∧ OnlyFields answerKeys s t := by
  exact .intro (essRekey_exec hr hb hc h (essRekeyDo_unusable hs hu)) ⟨fget_essResult_result (by decide) .., essResult_only ..⟩

/-- R233, R254: what REKEY does with a handle that it accepts. -/
theorem essRekey_accepted (h : fState c s = 1) : ∀ k, k = fieldLE (essArg s) 0x38 4 →
    (ecSrtp (fEc c s) = false ∨ keyUsable k useSrtp 0 s = true) → Completes (.essRekey fn w) s fun t =>
      fget F.ESS_CMD_RESULT 0 t = 0 ∧ fx c 0x38 4 t = k ∧
      (ecSrtp (fEc c s) = true → fIngest c s = true → srtpKey c 0 t = srtpSession k s ∧ srtpKey c 1 t = srtpKey c 0 s ∧
        (fFlow c t).oldKey = some (fx c 0x38 4 s, none)) ∧
      (ecSrtp (fEc c s) = true → fIngest c s = false → srtpKey c 0 t = srtpKey c 0 s ∧ srtpKey c 1 t = srtpSession k s ∧
        (fFlow c t).newKey = some k) ∧ t.mem = s.mem := by
  rintro _ rfl ok
  have key : fx c 0x38 4 (fxSet c 0x38 (leBytes 4 (fieldLE (essArg s) 0x38 4)) s) = fieldLE (essArg s) 0x38 4 :=
    fx_key_fxSet (fieldLE_lt ..) c s
  cases hs : ecSrtp (fEc c s) with
  | false =>
    exact .intro (essRekey_exec hr hb hc h (essRekeyDo_plain hs)) ⟨fget_essResult_result (by decide) .., key, nofun, nofun, rfl⟩
  | true =>
    have usable := ok.resolve_left (by rw [hs]; decide)
    cases hi : fIngest c s with
    | true =>
      obtain ⟨now, old, overlap, image, mem⟩ := ingestRekeyed_spec c (fieldLE (essArg s) 0x38 4) s _ rfl
      exact .intro (essRekey_exec hr hb hc h (essRekeyDo_ingest hs usable hi)) ⟨fget_essResult_result (by decide) ..,
        (congrArg (fieldLE · 0x38 4) image).trans key,
        fun _ _ => ⟨now, old, overlap⟩, nofun, mem⟩
    | false =>
      obtain ⟨now, next, waits, image, mem⟩ := egressRekeyed_spec c (fieldLE (essArg s) 0x38 4) s _ rfl
      exact .intro (essRekey_exec hr hb hc h (essRekeyDo_egress hs usable hi)) ⟨fget_essResult_result (by decide) ..,
        (congrArg (fieldLE · 0x38 4) image).trans key,
        nofun, fun _ _ => ⟨now, next, waits⟩, mem⟩

/-- R232: BIND of an image that fails a check. -/
theorem essBind_refused (h : fState c s = 1) (he : fEnabled c s = false) (hi : imgCheck (some c) (boundImage c s) s ≠ 0) :
    Completes (.essBind fn w) s fun t => fget F.ESS_CMD_RESULT 0 t = imgCheck (some c) (boundImage c s) s ∧
      OnlyFields answerKeys s t := by
  exact .intro (essBind_exec hr hb hc h he (essBindDo_refused hi)) ⟨fget_essResult_result (imgCheck_lt ..) .., essResult_only ..⟩

/-- R232, R233: BIND of an image that passes. -/
theorem essBind_bound (h : fState c s = 1) (he : fEnabled c s = false) (hi : imgCheck (some c) (boundImage c s) s = 0) :
    Completes (.essBind fn w) s fun t => fget F.ESS_CMD_RESULT 0 t = 0 ∧ fctx c t = boundImage c s ∧
      (ecSrtp (fEc c s) = true → srtpKey c 0 t = srtpSession (fx c 0x38 4 s) s) ∧ t.ess.flow = s.ess.flow := by
  obtain ⟨image, key, flow⟩ := bound_spec c s _ rfl
  exact .intro (essBind_exec hr hb hc h he (essBindDo_bound hi)) ⟨fget_essResult_result (by decide) .., image, key, flow⟩

end

/-- Settles O26: each command is one branch of its function, and what it makes of the flow is read off by the rules for the
image, the flow record and the keys. -/
theorem essenceCommandsTakeEffect : Obligations.EssenceCommandsTakeEffect := by
  unfold Obligations.EssenceCommandsTakeEffect
  refine ⟨fun fn w s hr hb c hc => ⟨?_, ?_, ?_, ?_, ?_, ?_⟩, fun x s h hcl => ⟨?_, ?_⟩, ?_, ?_⟩
  · rintro active _ rfl
    have discarded := fFlow_essOff c s
    exact ⟨essDisable_exec hr hb hc active, fState_essOff .., fEnabled_essOff .., congrArg EssFlow.pics discarded,
      congrArg EssFlow.packets discarded, slots_essOff, (essOff_onlyEss ..).mem⟩
  · rintro open_ _ rfl
    obtain ⟨closing, pending, drains, only⟩ := essShut_spec c s _ rfl
    exact ⟨essClose_exec hr hb hc open_, closing, pending, drains, only.mem⟩
  · rintro active operate _ rfl
    have started := essEnableDo_started c s
    exact ⟨essEnable_exec_active hr hb hc active operate, started.state.trans active, started.enabled, started.pending, started.top,
      started.seen, started.pics, started.waitNew, started.startTick, started.only.mem, started.only.regs⟩
  · exact essEnable_draining hr hb hc
  · rintro active k rfl
    exact ⟨essRekey_unusable hr hb hc active, essRekey_accepted hr hb hc active _ rfl⟩
  · rintro active off _ rfl _ rfl
    exact ⟨essBind_refused hr hb hc active off, essBind_bound hr hb hc active off⟩
  · exact fun hp => .intro (essDrainEnd_stays h hcl hp) ⟨fState_fSetState (by decide) .., rfl, rfl, rfl⟩
  · intro hp
    have started := essEnableDo_started x (fSetState x 1 s)
    exact .intro (essDrainEnd_starts h hcl hp) ⟨started.state.trans (fState_fSetState (by decide) ..), started.enabled,
      started.pending, started.top, started.waitNew.trans (fSetState_sameFlow ..).fIngest, started.only.regs, started.only.mem⟩
  · exact fun x s h hcl => .intro (essDrainEnd_frees h hcl) (freed_spec x s _ rfl)
  · rintro x s h at_ ho _ rfl
    exact ⟨srtpOldKeyExpire_completes ho, fun early => (srtpOldKeyExpire_exec ho).trans (congrArg Host.Outcome.next (if_pos early))⟩

end Sys2Proof.Machine
end

section
/-! SUPPORT and CERTIFICATE. Copies at the essence engine (R229, R230, R235, R236, R245, R246, R257); O27. -/
namespace Sys2Proof.Machine

/-! ### The end of a copy, and the counters of the flows -/

/-- R257: the slots of the flows' counters. -/
abbrev flowSlot (n : Nat) : Prop := n < 65536 * 16

/-- What the end of a copy leaves of the essence engine. -/
structure EndKept (s t : State) : Prop where
  ess : t.ess = s.ess
  attach : t.pipe.attach = s.pipe.attach
  mem : t.mem = s.mem
  counts : ∀ n, flowSlot n → Tab.get 0 t.counters n = Tab.get 0 s.counters n

namespace EndKept

theorem refl (s : State) : EndKept s s := ⟨rfl, rfl, rfl, fun _ _ => rfl⟩

theorem trans {s t u : State} (h : EndKept s t) (k : EndKept t u) : EndKept s u :=
  ⟨k.ess.trans h.ess, k.attach.trans h.attach, k.mem.trans h.mem, fun n hn => (k.counts n hn).trans (h.counts n hn)⟩

theorem ite {s a b : State} {c : Prop} [Decidable c] (h : EndKept s a) (k : EndKept s b) : EndKept s (if c then a else b) := by
  split <;> assumption

/-- Registers, the frames in flight, the queues and the trace. -/
theorem rest (s : State) (regs : Tab Nat) (flights : Tab Flight) (tm : Tm) (trc : Trace) :
    EndKept s { s with regs := regs, pipe := { s.pipe with flights := flights }, tm := tm, trc := trc } :=
  ⟨rfl, rfl, rfl, fun _ _ => rfl⟩

end EndKept

theorem histCnt_endKept (p b : Nat) (s : State) : EndKept s (histCnt p b s) := by
  have counts (n : Nat) (hn : flowSlot n) : Tab.get 0 (histCnt p b s).counters n = Tab.get 0 s.counters n :=
    get_cntBy_ne (by unfold flowSlot at hn; omega) 1 s
  refine ⟨?_, ?_, ?_, counts⟩ <;> rw [histCnt, cntBy, cntSet_parts]

theorem postcard_endKept (c : Copy) (f : Fate) (t : Nat) (s : State) : EndKept s (postcard c f t s) := by
  unfold postcard
  exact .ite (.refl s) (.ite (.rest s _ _ _ _) (.rest s _ _ _ _))

theorem copyGone_endKept (n : Nat) (left : Bool) (s : State) : EndKept s (copyGone n left s) := by
  unfold copyGone
  split
  · exact .refl s
  · extract_lets f pipe s1 s2 tm s3
    have h1 : EndKept s s1 := .rest s _ _ _ _
    have h2 : EndKept s1 s2 := .ite (.refl _) (.rest s1 _ _ _ _)
    have h3 : EndKept s2 s3 := .ite (.rest s2 _ _ _ _) (.refl _)
    exact .ite (h1.trans (h2.trans (h3.trans (.ite (histCnt_endKept ..) (.refl _))))) (.rest s _ _ _ _)

theorem endCopy_endKept (c : Copy) (f : Fate) (s : State) : EndKept s (endCopy c f s) :=
  (postcard_endKept ..).trans (copyGone_endKept ..)

theorem fget_endCopy_other {f : Fld} (h : ∀ g ∈ cellFields, f.key 0 ≠ g.key 0) (hk : f.key 0 < 16384) (i : Nat) (c : Copy)
    (fate : Fate) (s : State) : fget f i (endCopy c fate s) = fget f i s :=
  (fget_copyGone_other h hk ..).trans (fget_postcard_other h hk ..)

/-- Nothing but the pipeline, the counters and a running dump differs. -/
def OnlyCounted (s t : State) : Prop := ∃ pipe counters trc, t = { s with pipe := pipe, counters := counters, trc := trc }

theorem OnlyCounted.trans {s t u : State} (h : OnlyCounted s t) (k : OnlyCounted t u) : OnlyCounted s u := by
  obtain ⟨_, _, _, rfl⟩ := h
  obtain ⟨_, _, _, rfl⟩ := k
  exact ⟨_, _, _, rfl⟩

theorem fCnt_parts (c k n : Nat) (s : State) : fCnt c k n s = { s with
    counters := (fCnt c k n s).counters, trc := (fCnt c k n s).trc } := by rw [fCnt, cntBy, cntSet_parts]

theorem fCnt_onlyCounted (c k n : Nat) (s : State) : OnlyCounted s (fCnt c k n s) := ⟨_, _, _, fCnt_parts c k n s⟩

/-- R257: counter `k` of the flow counts. -/
theorem get_fCnt_same (c k n : Nat) (s : State) : Tab.get 0 (fCnt c k n s).counters ((c * 128 + k * 8) / 8) =
    (Tab.get 0 s.counters ((c * 128 + k * 8) / 8) + n) % 2 ^ 64 := by
  rw [fCnt, cntBy, cntSet_parts, Tab.get_set_same]

/-- R257: another counter of the flow stays. -/
theorem get_fCnt_ne {j k : Nat} (h : j ≠ k) (c n : Nat) (s : State) :
    Tab.get 0 (fCnt c k n s).counters ((c * 128 + j * 8) / 8) = Tab.get 0 s.counters ((c * 128 + j * 8) / 8) :=
  get_cntBy_ne (by omega) n s

theorem flowSlot_of_lt {c k : Nat} (hc : c < 65536) (hk : k < 16) : flowSlot ((c * 128 + k * 8) / 8) := by
  unfold flowSlot; omega

/-! ### What counting leaves of a flow -/

section
variable {s t : State} (h : OnlyCounted s t)
include h

theorem OnlyCounted.ess : t.ess = s.ess := by obtain ⟨_, _, _, rfl⟩ := h; rfl
theorem OnlyCounted.mem : t.mem = s.mem := by obtain ⟨_, _, _, rfl⟩ := h; rfl
theorem OnlyCounted.fx (c off n : Nat) : fx c off n t = fx c off n s := fx_congr (congrArg Ess.ctx h.ess) c off n
theorem OnlyCounted.fFlow (c : Nat) : fFlow c t = fFlow c s := by rw [Machine.fFlow, Machine.fFlow, h.ess]

theorem OnlyCounted.fEc (c : Nat) : fEc c t = fEc c s :=
  fEc_congr (h.fx c 1 1) (by obtain ⟨_, _, _, rfl⟩ := h; rfl)

theorem OnlyCounted.fGeo (c : Nat) : fGeo c t = fGeo c s := by rw [Machine.fGeo, Machine.fGeo, h.fEc, h.fx]

theorem OnlyCounted.hdrOk (c : Nat) (r : Rtp) : hdrOk c r t = hdrOk c r s := by
  simp only [Machine.hdrOk, h.fx, h.fEc, h.fGeo]

theorem OnlyCounted.seqValue (c : Nat) (r : Rtp) : seqValue c r t = seqValue c r s := by
  simp only [Machine.seqValue, h.fEc, h.fFlow]

theorem OnlyCounted.tickOfTs (td ts : Nat) : tickOfTs td ts t = tickOfTs td ts s := by
  obtain ⟨_, _, _, rfl⟩ := h; rfl

theorem OnlyCounted.lineShut (c k y : Nat) : lineShut c k y t = lineShut c k y s := by
  have seen (td : Nat) : tickOver td k t = tickOver td k s := by obtain ⟨_, _, _, rfl⟩ := h; rfl
  simp only [Machine.lineShut, picOf, h.fFlow, h.fEc, seen]

end

/-! ### What a flow does with a copy (R235, R236, R245) -/

theorem srtpIn_plain {c : Nat} {s : State} (h : ecSrtp (fEc c s) = false) (r : Rtp) : srtpIn c r s = (some r, s) :=
  if_pos (by rw [h]; rfl)

section
variable {c : Nat} {e : EssCopy} {s : State}

theorem ingestCopy_bad (h : e.bad = true) : ingestCopy c e s = fCnt c 7 1 s := if_pos h

theorem ingestCopy_noRtp (hb : e.bad = false) (h : rtpOf e.bytes = none) : ingestCopy c e s = fCnt c 5 1 s := by
  simp [ingestCopy, hb, h]

variable {r : Rtp} (hb : e.bad = false) (hr : rtpOf e.bytes = some r) (hs : ecSrtp (fEc c s) = false)
include hb hr hs

theorem ingestCopy_badHeader (h : hdrOk c r s = false) : ingestCopy c e s = fCnt c 5 1 s := by
  simp [ingestCopy, hb, hr, srtpIn_plain hs, h]

/-- R255: a flow that does not wait for a picture takes a packet of none before its first. -/
theorem ingestCopy_merged (h : hdrOk c r s = true) (hw : (fFlow c s).waitNew = false)
    (ht : (fFlow c s).startTick ≤ tickOfTs (ecTd (fEc c s)) r.ts s) : ingestCopy c e s = mergeCopy c r s := by
  have taken : awaitPic c r s = (false, s) := by
    rw [awaitPic, if_pos (by rw [hw]; rfl), decide_eq_false (not_lt.2 ht)]
  simp [ingestCopy, hb, hr, srtpIn_plain hs, h, taken]

end

section
variable {c : Nat} {r : Rtp} {s : State}

theorem mergeCopy_late (h : 131072 ≤ seqBehind (fFlow c s) (seqValue c r s)) (h' : seqBehind (fFlow c s) (seqValue c r s) < 2 ^ 31) :
    mergeCopy c r s = fCnt c 3 1 s := if_pos ⟨h, h'⟩

theorem mergeCopy_repeated (h : seqBehind (fFlow c s) (seqValue c r s) < 131072)
    (seen : Tab.get false (fFlow c s).seen (seqValue c r s % 262144) = true) : mergeCopy c r s = fCnt c 2 1 s :=
  (if_neg (by omega)).trans (if_pos (by rw [seen, decide_eq_true (by omega)]; rfl))

/-- R236: a packet of an ST 2110-20 flow whose value is ahead, or not far behind and not seen, and whose lines are open. -/
theorem mergeCopy_stored (h : 2 ^ 31 ≤ seqBehind (fFlow c s) (seqValue c r s) ∨ (seqBehind (fFlow c s) (seqValue c r s) < 131072 ∧
      Tab.get false (fFlow c s).seen (seqValue c r s % 262144) = false)) (hf : ecFormat (fEc c s) = 0)
    (opened : ∀ y ∈ (srdsOf r.payload).flatMap (srdLines (fGeo c s)), lineShut c (tickOfTs (ecTd (fEc c s)) r.ts s) y s = false) :
    mergeCopy c r s = storePic c (tickOfTs (ecTd (fEc c s)) r.ts s) (seqValue c r s) r s := by
  have fresh : ¬ (Tab.get false (fFlow c s).seen (seqValue c r s % 262144) &&
      decide (seqBehind (fFlow c s) (seqValue c r s) < 2 ^ 31)) = true := by
    rcases h with ahead | ⟨-, unseen⟩
    · rw [decide_eq_false (not_lt.2 ahead), Bool.and_false]; decide
    · rw [unseen, Bool.false_and]; decide
  have inTime : ¬ ((srdsOf r.payload).flatMap (srdLines (fGeo c s))).any
      (fun y => lineShut c (tickOfTs (ecTd (fEc c s)) r.ts s) y s) = true := by
    simpa only [List.any_eq_true, not_exists, not_and, Bool.not_eq_true] using opened
  exact (if_neg (by omega)).trans ((if_neg fresh).trans ((if_pos hf).trans (if_neg inTime)))

end

/-! ### The oldest copy of a slice (R229, R230) -/

/-- The oldest copy of the slice is off its attach queue. -/
def copyTaken (x : Fin 8) (r : List EssCopy) (s : State) : State :=
  { s with pipe := { s.pipe with attach := Tab.set [] s.pipe.attach x r } }

theorem copyTaken_onlyCounted (x : Fin 8) (r : List EssCopy) (s : State) : OnlyCounted s (copyTaken x r s) := ⟨_, _, _, rfl⟩

theorem essenceCopy_exec {x : Fin 8} {s : State} {e : EssCopy} {r : List EssCopy} (h : Tab.get [] s.pipe.attach x = e :: r) :
    exec (.essenceCopy x) s = .next (essTake e (copyTaken x r s)) := by
  change execEssenceCopy x s = _
  rw [execEssenceCopy, h]
  rfl

theorem essTake_noContext {e : EssCopy} {s : State} (h : fState e.ctx s = 0 ∨ fIngest e.ctx s = false) :
    essTake e s = noContext e s := if_pos (by simpa using h)

/-- R230: what an exact-match entry's copy without a context leaves to the default action. -/
theorem noContext_byEm {e : EssCopy} (h : e.byEm = true) (s : State) :
    ∀ v, v = setEvent F.ESS_EVENT_CTX_OVERFLOW 0 88 (bump F.ESS_CTX_OVERFLOW_COUNT 0 s) → noContext e s = copyGone e.frame false
      (actDefault e.head (parseFrame v.cfg e.bytes) (fget F.PL_PORT_CFG0_DEFAULT_VRF e.ingMac v) e.l2 e.vlan none false v) := by
  rintro _ rfl
  exact if_pos h

theorem noContext_dropped {e : EssCopy} (h : e.byEm = false) (s : State) : noContext e s =
    endCopy e.head.copy .dropped (setEvent F.ESS_EVENT_CTX_OVERFLOW 0 88 (bump F.ESS_CTX_OVERFLOW_COUNT 0 s)) :=
  if_neg (by rw [h]; decide)

@[simp] theorem setEvent_ess (f : Fld) (i n : Nat) (s : State) : (setEvent f i n s).ess = s.ess := by
  obtain h | h := riseIf_eq n s (setFlag f i true s) <;> rw [setEvent, h]
  · rw [pendSet_parts]
    rfl
  · rfl

/-- R257: a copy without a context counts and shows. -/
theorem noContext_spec {e : EssCopy} (h : e.byEm = false) (s : State) : ∀ t, t = noContext e s →
    fget F.ESS_CTX_OVERFLOW_COUNT 0 t = (fget F.ESS_CTX_OVERFLOW_COUNT 0 s + 1) % 2 ^ F.ESS_CTX_OVERFLOW_COUNT.w ∧
    flag F.ESS_EVENT_CTX_OVERFLOW 0 t = true ∧ t.pipe.attach = s.pipe.attach ∧ t.mem = s.mem ∧ t.ess = s.ess := by
  rintro _ rfl
  rw [noContext_dropped h]
  have kept := endCopy_endKept e.head.copy .dropped (setEvent F.ESS_EVENT_CTX_OVERFLOW 0 88 (bump F.ESS_CTX_OVERFLOW_COUNT 0 s))
  refine ⟨?_, ?_, ?_, ?_, ?_⟩
  · rw [fget_endCopy_other (by decide) (by decide), fget_setEvent_other (by decide) (by decide) (by decide) (by decide) (by decide),
      fget_bump_same]
  · rw [flag, fget_endCopy_other (by decide) (by decide)]
    exact flag_setEvent_same rfl (by decide) (by decide) (by decide)
  · rw [kept.attach, setEvent_pipe, bump_pipe]
  · rw [kept.mem, setEvent_mem, bump_mem]
  · rw [kept.ess, setEvent_ess, bump_ess]

/-- R245: the leg of a copy: 1 for that of the second engine and device of the context, else 0. -/
def copyLeg (e : EssCopy) (s : State) : Nat := if e.ingMac = fx e.ctx 0x0C 1 s ∧ e.srcDev = fx e.ctx 0x0B 1 s then 1 else 0

theorem copyLeg_lt (e : EssCopy) (s : State) : copyLeg e s < 2 := by unfold copyLeg; split <;> decide

/-- The copy has counted for its leg. -/
def legCounted (e : EssCopy) (s : State) : State := fCnt e.ctx (copyLeg e s) 1 s

theorem legCounted_onlyCounted (e : EssCopy) (s : State) : OnlyCounted s (legCounted e s) := fCnt_onlyCounted ..

section
variable {e : EssCopy} {s : State} (ho : fState e.ctx s ≠ 0) (hi : fIngest e.ctx s = true)
include ho hi

/-- A copy of an ingest context counts for its leg, and an enabled flow takes it. -/
theorem essTake_counted : essTake e s = endCopy e.head.copy .essence
    (if fState e.ctx s = 1 && fEnabled e.ctx s then ingestCopy e.ctx e (legCounted e s) else fCnt e.ctx 8 1 (legCounted e s)) := by
  have leg : b2n (e.ingMac == fx e.ctx 0x0C 1 s && e.srcDev == fx e.ctx 0x0B 1 s) = copyLeg e s := by
    simp [b2n, copyLeg]
  have enabled : fEnabled e.ctx (legCounted e s) = fEnabled e.ctx s :=
    congrArg (bit · 0) ((legCounted_onlyCounted e s).fx ..)
  refine (if_neg (by simp [ho, hi])).trans ?_
  rw [leg, ← enabled]
  rfl

theorem essTake_disabled (h : fState e.ctx s ≠ 1 ∨ fEnabled e.ctx s = false) :
    essTake e s = endCopy e.head.copy .essence (fCnt e.ctx 8 1 (legCounted e s)) := by
  rw [essTake_counted ho hi, if_neg (by simpa [← Bool.not_eq_true, imp_iff_not_or] using h)]

theorem essTake_enabled (h : fState e.ctx s = 1) (he : fEnabled e.ctx s = true) :
    essTake e s = endCopy e.head.copy .essence (ingestCopy e.ctx e (legCounted e s)) := by
  rw [essTake_counted ho hi, if_pos (by simp [h, he])]

end

/-! ### Copies that are counted and go no further -/

/-- A copy that ends with one more count beside that of its leg. -/
theorem countedCopy_spec {e : EssCopy} (hc : e.ctx < 65536) {k : Nat} (hk : 2 ≤ k ∧ k < 16) (q : Copy) (f : Fate) (s : State) :
    ∀ t, t = endCopy q f (fCnt e.ctx k 1 (legCounted e s)) →
    Tab.get 0 t.counters ((e.ctx * 128 + copyLeg e s * 8) / 8) =
      (Tab.get 0 s.counters ((e.ctx * 128 + copyLeg e s * 8) / 8) + 1) % 2 ^ 64 ∧
    Tab.get 0 t.counters ((e.ctx * 128 + k * 8) / 8) = (Tab.get 0 s.counters ((e.ctx * 128 + k * 8) / 8) + 1) % 2 ^ 64 ∧
    t.pipe.attach = s.pipe.attach ∧ t.ess = s.ess ∧ t.mem = s.mem := by
  rintro _ rfl
  have kept := endCopy_endKept q f (fCnt e.ctx k 1 (legCounted e s))
  have counted := (legCounted_onlyCounted e s).trans (fCnt_onlyCounted e.ctx k 1 _)
  have leg := copyLeg_lt e s
  refine ⟨?_, ?_, ?_, kept.ess.trans counted.ess, kept.mem.trans counted.mem⟩
  · rw [kept.counts _ (flowSlot_of_lt hc (by omega)), get_fCnt_ne (by omega), legCounted, get_fCnt_same]
  · rw [kept.counts _ (flowSlot_of_lt hc hk.2), get_fCnt_same, legCounted, get_fCnt_ne (by omega)]
  · rw [kept.attach, fCnt_parts, legCounted, fCnt_parts]

/-- A command that completes with more completes with less. -/
theorem Completes.mono {c : Instr} {s : State} {P Q : State → Prop} (h : Completes c s P) (k : ∀ t, P t → Q t) : Completes c s Q := by
  obtain ⟨t, e, p⟩ := h
  exact ⟨t, e, k t p⟩

section
variable {x : Fin 8} {s : State} {e : EssCopy} {r : List EssCopy} (ha : Tab.get [] s.pipe.attach x = e :: r)
include ha

/-- A copy that a context discards with one count, in the terms of the state before the command. -/
theorem copy_counts (hc : e.ctx < 65536) {k : Nat} (hk : 2 ≤ k ∧ k < 16)
    (taken : essTake e (copyTaken x r s) = endCopy e.head.copy .essence (fCnt e.ctx k 1 (legCounted e (copyTaken x r s)))) :
    Completes (.essenceCopy x) s fun t =>
      Tab.get 0 t.counters ((e.ctx * 128 + copyLeg e s * 8) / 8) =
        (Tab.get 0 s.counters ((e.ctx * 128 + copyLeg e s * 8) / 8) + 1) % 2 ^ 64 ∧
      Tab.get 0 t.counters ((e.ctx * 128 + k * 8) / 8) = (Tab.get 0 s.counters ((e.ctx * 128 + k * 8) / 8) + 1) % 2 ^ 64 ∧
      t.pipe.attach = (copyTaken x r s).pipe.attach ∧ t.ess = s.ess ∧ t.mem = s.mem :=
  .intro ((essenceCopy_exec ha).trans (congrArg Host.Outcome.next taken))
    (countedCopy_spec hc hk e.head.copy .essence (copyTaken x r s) _ rfl)

end

/-- A copy of a flow that is not enabled. -/
theorem copy_disabled {x : Fin 8} {s : State} {e : EssCopy} {r : List EssCopy} (ho : fState e.ctx s ≠ 0) (hi : fIngest e.ctx s = true)
    (h : fState e.ctx s ≠ 1 ∨ fEnabled e.ctx s = false) :
    essTake e (copyTaken x r s) = endCopy e.head.copy .essence (fCnt e.ctx 8 1 (legCounted e (copyTaken x r s))) :=
  essTake_disabled (s := copyTaken x r s) ho hi h

/-! ### Copies of an enabled flow -/

/-- The state in which the flow takes the copy. -/
abbrev copyState (x : Fin 8) (e : EssCopy) (r : List EssCopy) (s : State) : State := legCounted e (copyTaken x r s)

theorem copyState_onlyCounted (x : Fin 8) (e : EssCopy) (r : List EssCopy) (s : State) : OnlyCounted s (copyState x e r s) :=
  (copyTaken_onlyCounted x r s).trans (legCounted_onlyCounted ..)

section
variable {x : Fin 8} {s : State} {e : EssCopy} {r : List EssCopy} (hi : fIngest e.ctx s = true) (h1 : fState e.ctx s = 1)
  (he : fEnabled e.ctx s = true)
include hi h1 he

theorem copy_enabled : essTake e (copyTaken x r s) = endCopy e.head.copy .essence (ingestCopy e.ctx e (copyState x e r s)) :=
  essTake_enabled (s := copyTaken x r s) (by rw [show fState e.ctx (copyTaken x r s) = 1 from h1]; decide) hi h1 he

theorem copy_bad (hb : e.bad = true) :
    essTake e (copyTaken x r s) = endCopy e.head.copy .essence (fCnt e.ctx 7 1 (copyState x e r s)) := by
  rw [copy_enabled hi h1 he, ingestCopy_bad hb]

variable (hb : e.bad = false)
include hb

theorem copy_noRtp (hp : rtpOf e.bytes = none) :
    essTake e (copyTaken x r s) = endCopy e.head.copy .essence (fCnt e.ctx 5 1 (copyState x e r s)) := by
  rw [copy_enabled hi h1 he, ingestCopy_noRtp hb hp]

variable {p : Rtp} (hp : rtpOf e.bytes = some p) (hs : ecSrtp (fEc e.ctx s) = false)
include hp hs

theorem copy_badHeader (hh : hdrOk e.ctx p s = false) :
    essTake e (copyTaken x r s) = endCopy e.head.copy .essence (fCnt e.ctx 5 1 (copyState x e r s)) := by
  have same := copyState_onlyCounted x e r s
  rw [copy_enabled hi h1 he, ingestCopy_badHeader hb hp (by rw [same.fEc, hs]) (by rw [same.hdrOk, hh])]

variable (hh : hdrOk e.ctx p s = true) (hw : (fFlow e.ctx s).waitNew = false)
  (ht : (fFlow e.ctx s).startTick ≤ tickOfTs (ecTd (fEc e.ctx s)) p.ts s)
include hh hw ht

theorem copy_merged : essTake e (copyTaken x r s) = endCopy e.head.copy .essence (mergeCopy e.ctx p (copyState x e r s)) := by
  have same := copyState_onlyCounted x e r s
  rw [copy_enabled hi h1 he, ingestCopy_merged hb hp (by rw [same.fEc, hs]) (by rw [same.hdrOk, hh]) (by rw [same.fFlow, hw])
    (by rwa [same.fFlow, same.fEc, same.tickOfTs])]

theorem copy_late (hd : 131072 ≤ seqBehind (fFlow e.ctx s) (seqValue e.ctx p s))
    (hd' : seqBehind (fFlow e.ctx s) (seqValue e.ctx p s) < 2 ^ 31) :
    essTake e (copyTaken x r s) = endCopy e.head.copy .essence (fCnt e.ctx 3 1 (copyState x e r s)) := by
  have same := copyState_onlyCounted x e r s
  rw [copy_merged hi h1 he hb hp hs hh hw ht, mergeCopy_late (by rwa [same.fFlow, same.seqValue]) (by rwa [same.fFlow, same.seqValue])]

theorem copy_repeated (hd : seqBehind (fFlow e.ctx s) (seqValue e.ctx p s) < 131072)
    (seen : Tab.get false (fFlow e.ctx s).seen (seqValue e.ctx p s % 262144) = true) :
    essTake e (copyTaken x r s) = endCopy e.head.copy .essence (fCnt e.ctx 2 1 (copyState x e r s)) := by
  have same := copyState_onlyCounted x e r s
  rw [copy_merged hi h1 he hb hp hs hh hw ht, mergeCopy_repeated (by rwa [same.fFlow, same.seqValue])
    (by rwa [same.fFlow, same.seqValue])]

theorem copy_stored (hd : 2 ^ 31 ≤ seqBehind (fFlow e.ctx s) (seqValue e.ctx p s) ∨
      (seqBehind (fFlow e.ctx s) (seqValue e.ctx p s) < 131072 ∧
        Tab.get false (fFlow e.ctx s).seen (seqValue e.ctx p s % 262144) = false)) (hf : ecFormat (fEc e.ctx s) = 0)
    (opened : ∀ y ∈ (srdsOf p.payload).flatMap (srdLines (fGeo e.ctx s)),
      lineShut e.ctx (tickOfTs (ecTd (fEc e.ctx s)) p.ts s) y s = false) :
    essTake e (copyTaken x r s) = endCopy e.head.copy .essence
      (storePic e.ctx (tickOfTs (ecTd (fEc e.ctx s)) p.ts s) (seqValue e.ctx p s) p (copyState x e r s)) := by
  have same := copyState_onlyCounted x e r s
  rw [copy_merged hi h1 he hb hp hs hh hw ht, mergeCopy_stored (by rwa [same.fFlow, same.seqValue]) (by rw [same.fEc, hf])
    (by rw [same.fGeo, same.fEc, same.tickOfTs]; exact fun y hy => (same.lineShut ..).trans (opened y hy)),
    same.seqValue, same.fEc, same.tickOfTs]

end

/-- Settles O27: each check of a copy is a branch of what the engine does with it, and neither the counts nor the end of the copy
touch what the checks look at. -/
theorem essenceCopies : Obligations.EssenceCopies := by
  unfold Obligations.EssenceCopies
  rintro x s e r ha _ rfl
  refine ⟨fun none drop => ?_, fun none em v hv => ?_, fun open_ ingest hc _ hleg => ?_⟩
  · exact .intro ((essenceCopy_exec ha).trans (congrArg Host.Outcome.next (essTake_noContext (s := copyTaken x r s) none)))
      (noContext_spec drop (copyTaken x r s) _ rfl)
  · exact (essenceCopy_exec ha).trans (congrArg Host.Outcome.next
      ((essTake_noContext (s := copyTaken x r s) none).trans (noContext_byEm em _ v hv)))
  obtain rfl : _ = copyLeg e s := hleg
  refine ⟨fun off => copy_counts ha hc (by decide) (copy_disabled open_ ingest off),
    fun h1 he hb => copy_counts ha hc (by decide) (copy_bad ingest h1 he hb), fun h1 he hb hp => ?_,
    fun h1 he hb p hp hs => ⟨fun hh => ?_, ?_⟩⟩
  · exact (copy_counts ha hc (by decide) (copy_noRtp ingest h1 he hb hp)).mono fun _ h => h.2
  · exact (copy_counts ha hc (by decide) (copy_badHeader ingest h1 he hb hp hs hh)).mono fun _ h => h.2
  · rintro hh hw ht _ rfl _ rfl
    refine ⟨fun hd hd' => ?_, fun hd seen => ?_, fun hd hf opened => ?_⟩
    · exact (copy_counts ha hc (by decide) (copy_late ingest h1 he hb hp hs hh hw ht hd hd')).mono fun _ h => h.2
    · exact (copy_counts ha hc (by decide) (copy_repeated ingest h1 he hb hp hs hh hw ht hd seen)).mono fun _ h => h.2
    · exact (essenceCopy_exec ha).trans (congrArg Host.Outcome.next (copy_stored ingest h1 he hb hp hs hh hw ht hd hf opened))

end Sys2Proof.Machine
end

section
/-! SUPPORT. What sending a frame touches: registers, ports, links, the pipeline, queues, counters and what leaves the device, and
nothing else (chapters 04 and 05). So an egress flow that sends a packet keeps its own record but for the sequence number
(R247, R250). -/
namespace Sys2Proof.Machine

/-- Nothing differs but what frames and their copies live in. -/
def OnlyTraffic (s t : State) : Prop := ∃ regs ports mesh pipe tm trc counters fresh out, t = { s with
  regs := regs, ports := ports, mesh := mesh, pipe := pipe, tm := tm, trc := trc, counters := counters, fresh := fresh, out := out }

namespace OnlyTraffic

theorem rest (s : State) (regs : Tab Nat) (ports : Ports) (mesh : Mesh) (pipe : Pipe) (tm : Tm) (trc : Trace) (counters : Tab Nat)
    (fresh : Nat) (out : List Out) : OnlyTraffic s { s with
      regs := regs, ports := ports, mesh := mesh, pipe := pipe, tm := tm, trc := trc, counters := counters, fresh := fresh, out := out } :=
  ⟨_, _, _, _, _, _, _, _, _, rfl⟩

theorem refl (s : State) : OnlyTraffic s s := rest ..

theorem trans {s t u : State} (h : OnlyTraffic s t) (k : OnlyTraffic t u) : OnlyTraffic s u := by
  obtain ⟨_, _, _, _, _, _, _, _, _, rfl⟩ := h
  obtain ⟨_, _, _, _, _, _, _, _, _, rfl⟩ := k
  exact rest ..

theorem ite {s a b : State} {c : Prop} [Decidable c] (h : OnlyTraffic s a) (k : OnlyTraffic s b) :
    OnlyTraffic s (if c then a else b) := by split <;> assumption

theorem foldl {α : Type} {g : State → α → State} (h : ∀ s x, OnlyTraffic s (g s x)) (l : List α) (s : State) :
    OnlyTraffic s (l.foldl g s) := foldl_rel refl trans h l s

theorem ess {s t : State} (h : OnlyTraffic s t) : t.ess = s.ess := by obtain ⟨_, _, _, _, _, _, _, _, _, rfl⟩ := h; rfl

end OnlyTraffic

/-! ### Counters, cells, queues and postcards -/

theorem cntBy_traffic (off n : Nat) (s : State) : OnlyTraffic s (cntBy off n s) := by
  rw [cntBy, cntSet_parts]
  exact .rest ..

theorem flowCnt_traffic (set len : Nat) (s : State) : OnlyTraffic s (flowCnt set len s) :=
  (cntBy_traffic ..).trans (cntBy_traffic ..)

theorem leafDropCount_traffic (q len : Nat) (s : State) : OnlyTraffic s (leafDropCount q len s) :=
  (OnlyTraffic.rest s ..).trans ((cntBy_traffic ..).trans (cntBy_traffic ..))

theorem postcard_traffic (c : Copy) (f : Fate) (t : Nat) (s : State) : OnlyTraffic s (postcard c f t s) :=
  .ite (.refl s) (.ite (.rest ..) (.rest ..))

theorem copyGone_traffic (n : Nat) (left : Bool) (s : State) : OnlyTraffic s (copyGone n left s) := by
  unfold copyGone
  split
  · exact .refl s
  · extract_lets f pipe s1 s2 tm s3
    have h1 : OnlyTraffic s s1 := .rest ..
    have h2 : OnlyTraffic s1 s2 := .ite (.refl _) (.rest ..)
    have h3 : OnlyTraffic s2 s3 := .ite (.rest ..) (.refl _)
    exact .ite (h1.trans (h2.trans (h3.trans (.ite (cntBy_traffic ..) (.refl _))))) (.rest ..)

theorem endCopy_traffic (c : Copy) (f : Fate) (s : State) : OnlyTraffic s (endCopy c f s) :=
  (postcard_traffic ..).trans (copyGone_traffic ..)

theorem bump_traffic (f : Fld) (i : Nat) (s : State) : OnlyTraffic s (bump f i s) := .rest ..

/-- A copy that ends in a count of its own. -/
theorem bumped_endCopy_traffic (f : Fld) (i : Nat) (c : Copy) (fate : Fate) (s : State) : OnlyTraffic s (endCopy c fate (bump f i s)) :=
  (bump_traffic ..).trans (endCopy_traffic ..)

theorem drrJoin_traffic (ring m : Nat) (s : State) : OnlyTraffic s (drrJoin ring m s) := .ite (.refl s) (.rest ..)

theorem drrEmptied_traffic (ring m key : Nat) (s : State) : OnlyTraffic s (drrEmptied ring m key s) := .rest ..

theorem setLeafQueue_traffic (q : Nat) (l : List Copy) (s : State) : OnlyTraffic s (setLeafQueue q l s) := by
  unfold setLeafQueue
  extract_lets old tm put left
  have stored : OnlyTraffic s put := .rest ..
  split
  · have ended : OnlyTraffic put left := by
      unfold left
      clear_value old
      split
      · exact (drrEmptied_traffic ..).trans (.ite (.refl _) (drrEmptied_traffic ..))
      · exact .refl _
    exact stored.trans (ended.trans (.rest ..))
  · split
    · split
      · exact stored.trans ((OnlyTraffic.rest put ..).trans ((drrJoin_traffic ..).trans (drrJoin_traffic ..)))
      · exact stored.trans (.rest put ..)
    · exact stored

/-! ### Ports and links -/

theorem nodePass_traffic (k len : Nat) (s : State) : OnlyTraffic s (nodePass k len s) := .ite (.rest ..) (.refl s)

theorem setLeafUni_traffic (q v : Nat) (s : State) : OnlyTraffic s (setLeafUni q v s) :=
  (show OnlyTraffic s (setShared _ s) from .rest ..).trans (.rest ..)

theorem enqueueCopy_traffic (c : Copy) (l3 : L3) (s : State) : OnlyTraffic s (enqueueCopy c l3 s) := by
  unfold enqueueCopy
  extract_lets d deep uni
  have stored : OnlyTraffic s uni := (show OnlyTraffic s deep from .rest ..).trans (.ite (.refl _) (setLeafUni_traffic ..))
  refine stored.trans ?_
  split
  · exact .ite ((OnlyTraffic.rest uni ..).trans ((cntBy_traffic ..).trans (setLeafQueue_traffic ..))) (setLeafQueue_traffic ..)
  · exact setLeafQueue_traffic ..

theorem admitCopy_traffic (c : Copy) (l3 : L3) (s : State) : OnlyTraffic s (admitCopy c l3 s) := by
  have dropped (t : State) : OnlyTraffic t (endCopy c .dropped (leafDropCount c.leaf c.len t)) :=
    (leafDropCount_traffic ..).trans (endCopy_traffic ..)
  unfold admitCopy
  split
  · exact bumped_endCopy_traffic ..
  · refine .ite ((OnlyTraffic.ite (bump_traffic ..) (bump_traffic ..)).trans (endCopy_traffic ..)) (.ite ?_ (.ite (dropped s) ?_))
    · exact (leafDropCount_traffic ..).trans ((cntBy_traffic ..).trans (endCopy_traffic ..))
    · extract_lets tk passed m
      exact .ite (bumped_endCopy_traffic ..) ((nodePass_traffic ..).trans (.ite (enqueueCopy_traffic ..) (dropped _)))

theorem startFrame_traffic (p q : Nat) (s : State) : OnlyTraffic s (startFrame p q s) := by
  unfold startFrame
  split
  · exact .refl s
  · extract_lets passed taken tm sent
    have h1 : OnlyTraffic s passed := (nodePass_traffic ..).trans ((nodePass_traffic ..).trans (nodePass_traffic ..))
    have h2 : OnlyTraffic passed taken := (setLeafQueue_traffic ..).trans (.rest ..)
    have h3 : OnlyTraffic taken sent := .ite (.refl _) (.rest ..)
    exact h1.trans (h2.trans (h3.trans (.rest ..)))

theorem schedule_traffic (p : Nat) (s : State) : OnlyTraffic s (schedule p s) := by
  unfold schedule
  refine .ite (.refl s) ?_
  split
  case h_1 q t pick =>
    obtain ⟨⟨_, _, _, rounds⟩, -⟩ := schedPick_spec pick
    exact (show OnlyTraffic s t from (show t = _ from rounds) ▸ .rest ..).trans (startFrame_traffic ..)
  case h_2 => exact .refl s

theorem toPort_traffic (v : Bool) (c : Copy) (l3 : L3) (s : State) : OnlyTraffic s (toPort v c l3 s) := by
  refine .ite (endCopy_traffic ..) ?_
  unfold toPortAny
  extract_lets before admitted held
  have h1 : OnlyTraffic s admitted := admitCopy_traffic ..
  have h2 : OnlyTraffic admitted held := .ite (cntBy_traffic ..) (.refl _)
  exact .ite h1 (h1.trans (h2.trans (.ite ((OnlyTraffic.rest held ..).trans (schedule_traffic ..)) (.refl _))))

theorem meshSend_traffic (j : Nat) (c : Copy) (s : State) : OnlyTraffic s (meshSend j c s) := by
  unfold meshSend
  split
  · exact .ite ((OnlyTraffic.ite (.refl s) (.rest ..)).trans (.rest ..)) (bumped_endCopy_traffic ..)
  · exact bumped_endCopy_traffic ..

/-! ### Copies of a frame -/

theorem addCopy_traffic (n : Nat) (s : State) : OnlyTraffic s (addCopy n s) := by
  unfold addCopy
  split
  · exact .rest ..
  · exact .refl s

theorem holdEpoch_traffic (n b : Nat) (s : State) : OnlyTraffic s (holdEpoch n b s) := by
  unfold holdEpoch
  split
  · exact .refl s
  · exact .ite (.refl s) (.rest ..)

theorem setHeld_traffic (n cells : Nat) (r : Bool) (s : State) : OnlyTraffic s (setHeld n cells r s) := by
  unfold setHeld
  split
  · exact .rest ..
  · exact .refl s

theorem unicastVc_traffic (cls : Option Nat) (leaf : Nat) (s : State) : OnlyTraffic s (unicastVc cls leaf s).2 := by
  unfold unicastVc
  split
  · exact .refl s
  · exact .refl s
  · exact .rest ..

theorem toUnicast_traffic (h : Head) (l3 : L3) (egr leaf dev : Nat) (ct : Bool) (s : State) :
    OnlyTraffic s (toUnicast h l3 egr leaf dev ct s) := by
  unfold toUnicast
  extract_lets added c v hd
  refine (show OnlyTraffic s added from addCopy_traffic ..).trans (.ite (.ite (toPort_traffic ..) ?_) ?_)
  · exact (OnlyTraffic.rest added ..).trans (toPort_traffic ..)
  · exact (unicastVc_traffic ..).trans (meshSend_traffic ..)

theorem toEssence_traffic (h : Head) (ctx : Nat) (byEm : Bool) (l2 : Option (Nat × Nat × Nat)) (vlan : Nat) (s : State) :
    OnlyTraffic s (toEssence h ctx byEm l2 vlan s) :=
  (addCopy_traffic h.num s).trans (.ite (bumped_endCopy_traffic ..) (.rest ..))

theorem mcastPort_traffic (h : Head) (l3 : L3) (k p : Nat) (s : State) : OnlyTraffic s (mcastPort h l3 k p s) := by
  unfold mcastPort
  extract_lets added
  refine (show OnlyTraffic s added from addCopy_traffic ..).trans ?_
  split
  · exact bumped_endCopy_traffic ..
  · exact toPort_traffic ..

theorem groupCopies_traffic (h : Head) (l3 : L3) (g k : Nat) (e : Bytes) (ports devs : List Nat) (s : State) :
    OnlyTraffic s (groupCopies h l3 g k e ports devs s) :=
  (OnlyTraffic.foldl (fun _ _ => toEssence_traffic ..) _ s).trans ((OnlyTraffic.foldl (fun _ _ => mcastPort_traffic ..) _ _).trans
    (.foldl (fun _ _ => (addCopy_traffic ..).trans (meshSend_traffic ..)) _ _))

/-! ### Fates of a frame (R158 to R172) -/

theorem bumped_postcard_traffic (f : Fld) (i : Nat) (c : Copy) (fate : Fate) (t : Nat) (s : State) :
    OnlyTraffic s (postcard c fate t (bump f i s)) := (bump_traffic ..).trans (postcard_traffic ..)

theorem replicateAs_traffic (h : Head) (l3 : L3) (g : Nat) (near : Bool) (cls : Option Nat) (s : State) :
    OnlyTraffic s (replicateAs h l3 g near cls s) := by
  unfold replicateAs
  extract_lets e held k ports devs c tm counted
  have h1 : OnlyTraffic s held := holdEpoch_traffic ..
  have h2 : OnlyTraffic held counted := (OnlyTraffic.rest held ..).trans (setHeld_traffic ..)
  refine .ite (postcard_traffic ..) (h1.trans (.ite (bumped_postcard_traffic ..) (.ite (bumped_postcard_traffic ..) ?_)))
  exact h2.trans ((OnlyTraffic.ite (.refl _) (.rest ..)).trans (groupCopies_traffic ..))

theorem puntHead_traffic (h : Head) (s : State) : OnlyTraffic s (puntHead h s) := by
  unfold puntHead
  extract_lets sec n pipe windowed c pipe' tm punted stamp
  have h1 : OnlyTraffic s windowed := .rest ..
  have h2 : OnlyTraffic windowed punted := (OnlyTraffic.rest windowed ..).trans (addCopy_traffic ..)
  refine .ite (postcard_traffic ..) (.ite (bumped_postcard_traffic ..) (h1.trans (.ite (bumped_postcard_traffic ..) ?_)))
  exact h2.trans ((OnlyTraffic.rest punted ..).trans (postcard_traffic ..))

theorem routeMissed_traffic (h : Head) (s : State) : OnlyTraffic s (routeMissed h s) :=
  (OnlyTraffic.rest s ..).trans (postcard_traffic ..)

theorem toMember_traffic (h : Head) (p : Parsed) (routed : Bool) (i : Nat) (leaf : Option Nat) (ct : Bool) (s : State) :
    OnlyTraffic s (toMember h p routed i leaf ct s) :=
  .ite (postcard_traffic ..) ((holdEpoch_traffic ..).trans (toUnicast_traffic ..))

theorem toGroup_traffic (h : Head) (p : Parsed) (routed : Bool) (g : Nat) (leaf : Option Nat) (ct : Bool) (s : State) :
    OnlyTraffic s (toGroup h p routed g leaf ct s) :=
  .ite (routeMissed_traffic ..) ((holdEpoch_traffic ..).trans (.ite (routeMissed_traffic ..) (toMember_traffic ..)))

theorem toRoute_traffic (h : Head) (p : Parsed) (r : Nat) (leaf : Option Nat) (ct : Bool) (s : State) :
    OnlyTraffic s (toRoute h p r leaf ct s) := by
  unfold toRoute
  split
  · exact toMember_traffic ..
  · exact toGroup_traffic ..
  · exact puntHead_traffic ..
  · exact postcard_traffic ..

theorem routeStage_traffic (h : Head) (p : Parsed) (vrf : Nat) (s : State) : OnlyTraffic s (routeStage h p vrf s).2 := by
  unfold routeStage
  split
  · exact holdEpoch_traffic ..
  · exact .refl s

/-! ### An egress flow sends (R247, R250) -/

theorem egrSend_traffic (c e : Nat) (b : Bytes) (s : State) : OnlyTraffic s (egrSend c e b s) := by
  unfold egrSend
  extract_lets f t h counted p target r sent
  have h1 : OnlyTraffic s counted := ((OnlyTraffic.rest s ..).trans (.rest ..)).trans (flowCnt_traffic ..)
  have h2 : OnlyTraffic counted sent := by
    unfold sent
    split
    · exact replicateAs_traffic ..
    · exact toMember_traffic ..
    · refine (show OnlyTraffic counted r.2 from routeStage_traffic ..).trans (.ite (puntHead_traffic ..) ?_)
      split
      · exact toRoute_traffic ..
      · exact routeMissed_traffic ..
    · exact postcard_traffic ..
  exact h1.trans (h2.trans (copyGone_traffic ..))

theorem OnlyTraffic.fFlow {s t : State} (h : OnlyTraffic s t) (c : Nat) : fFlow c t = fFlow c s := by
  rw [Machine.fFlow, Machine.fFlow, h.ess]

theorem nextSeqOut_traffic (c : Nat) (s : State) : OnlyTraffic s (nextSeqOut c s).2 := by
  unfold nextSeqOut
  split
  · exact .refl s
  · exact .rest ..

theorem fFlow_fxSet (c d off : Nat) (b : Bytes) (s : State) : fFlow c (fxSet d off b s) = fFlow c s := rfl

/-- R247: a packet that leaves changes the flow's newest sequence number alone. -/
theorem fFlow_rtpSend (c ts : Nat) (m : Bool) (body : Nat → Bytes) (s : State) :
    fFlow c (rtpSend c ts m body s) = { fFlow c s with top := some (nextSeqOut c s).1 } := by
  have first : fFlow c (nextSeqOut c s).2 = fFlow c s := (nextSeqOut_traffic c s).fFlow c
  unfold rtpSend
  extract_lets q s1 seq s2 hdr p s3 s4 leg s5
  have wrapped : fFlow c s2 = fFlow c s1 := by
    unfold s2
    split
    · exact fFlow_fxSet ..
    · rfl
  have topSet : fFlow c s3 = { fFlow c s2 with top := some q.1 } := fFlow_fFlowMod_same ..
  have counted : fFlow c s4 = fFlow c s3 :=
    ((fCnt_onlyCounted ..).fFlow c).trans ((fFlow_fxSet ..).trans (fFlow_fxSet ..))
  have sent : ∀ off lenOff at_ t, fFlow c (leg off lenOff at_ t) = fFlow c t := fun _ _ _ t => (egrSend_traffic ..).fFlow c
  have legA : fFlow c s5 = fFlow c s4 := sent ..
  have both : fFlow c s5 = { fFlow c s with top := some q.1 } := by rw [legA, counted, topSet, wrapped, first]
  split
  · exact both
  · exact (sent ..).trans both

end Sys2Proof.Machine
end

section
/-! SUPPORT and CERTIFICATE. Line deadlines, the closes of pictures, moves into slots, releases and egress packets (R236, R237,
R242, R247 to R249, R251); O28. -/
namespace Sys2Proof.Machine

/-! ### Deadlines, closes and moves (R236, R237, R242) -/

theorem lineDeadline_coded {x : Ctx} {s : State} {at_ : Nat} (h1 : fState x s = 1) (he : fEnabled x s = true)
    (hi : fIngest x s = true) (hf : ecFormat (fEc x s) ≠ 0) (hg : (fFlow x s).gapAt = some at_) (y : Nat) :
    exec (.lineDeadline x y) s = .next (codedGiveUp x (reachCclk at_ s)) := by
  change execLineDeadline x y s = _
  simp only [execLineDeadline, h1, he, hi, hf, hg, ne_eq, not_true, not_false_eq_true, decide_false, Bool.not_true, Bool.or_false,
    if_true, Bool.false_eq_true, if_false]

/-- R236: the open lines up to `y` whose deadline has passed. -/
def linesDue (p : EssPic) (y : Nat) (s : State) : List Nat :=
  (List.range (y + 1)).filter fun z => !(p.line z).closed && (p.line z).deadline.any fun d => decide (d ≤ s.time.cclk)

theorem lineDeadline_closes {x : Ctx} {y : Nat} {s : State} {p : EssPic} {d : Nat} (h1 : fState x s = 1) (he : fEnabled x s = true)
    (hi : fIngest x s = true) (hf : ecFormat (fEc x s) = 0) (hp : (fFlow x s).pics = [p]) (hd : (p.line y).deadline = some d)
    (hc : (p.line y).closed = false) : exec (.lineDeadline x y) s =
      .next ((linesDue p y (reachCclk d s)).foldl (fun s z => closeLine x p.tick z s) (reachCclk d s)) := by
  change execLineDeadline x y s = _
  simp only [execLineDeadline, h1, he, hi, hf, hp, hd, hc, List.findSome?_cons, ne_eq, not_true, decide_false, Bool.not_true,
    Bool.or_false, Bool.false_eq_true, if_false, Option.map_some]
  congr 2
  refine List.filter_congr fun z _ => ?_
  cases (p.line z).deadline <;> rfl

/-- The line whose deadline it is closes. -/
theorem mem_linesDue {p : EssPic} {y d : Nat} (hd : (p.line y).deadline = some d) (hc : (p.line y).closed = false) (s : State) :
    y ∈ linesDue p y (reachCclk d s) := by
  have passed := le_reachCclk_cclk d s
  simp [linesDue, hd, hc, passed]

theorem pictureClose_exec {x : Ctx} {s : State} {p : EssPic}
    (h : (fFlow x s).pics.find? (fun p : EssPic => tickOver (ecTd (fEc x s)) p.tick s) = some p) : exec (.pictureClose x) s =
      .next (((List.range (fGeo x s).h).filter (fun y => !(p.line y).closed)).foldl (fun s y => closeLine x p.tick y s) s) := by
  change execPictureClose x s = _
  simp only [execPictureClose, h]

theorem lineToSlot_exec (x : Ctx) (s : State) :
    exec (.lineToSlot x) s = .next ((nextMove x s).elim s fun m => moveLine x m.1 m.2 s) := by
  change execLineToSlot x s = _
  rw [execLineToSlot]
  cases nextMove x s <;> rfl

/-- R242: the line that moves is closed and waits, and its slot is ready. -/
theorem nextMove_spec {c : Nat} {s : State} {m : Nat × Nat} (h : nextMove c s = some m) :
    slotReady c m.1 ((fGeo c s).rowOf m.2) s = true ∧ ∃ p ∈ (fFlow c s).pics, p.tick = m.1 ∧
      ∃ l ∈ p.lines, l.1 = m.2 ∧ l.2.closed = true ∧ l.2.moved = false := by
  obtain ⟨p, hp, found⟩ := List.exists_of_findSome?_eq_some h
  obtain ⟨l, hl, rfl⟩ := Option.map_eq_some_iff.1 found
  obtain ⟨listed, waits⟩ := List.mem_filter.1 (List.mem_of_find?_eq_some hl)
  obtain ⟨closed, still⟩ := Bool.and_eq_true_iff.1 waits
  have ready : slotReady c p.tick ((fGeo c s).rowOf l.1) s = true :=
    List.find?_some (p := fun l : Nat × LineSt => slotReady c p.tick ((fGeo c s).rowOf l.1) s) hl
  exact ⟨ready, p, hp, rfl, l, listed, rfl, closed, by simpa using still⟩

/-! ### Releases (R242) -/

section
variable {i n : Nat}

theorem releaseSlot_free {s : State} (h : slotOf i n s = none) (r : Nat) : releaseSlot i n r s = s := by
  simp only [releaseSlot, h]

theorem releases_free {s : State} (h : slotOf i n s = none) (rs : List Nat) : rs.foldl (fun s r => releaseSlot i n r s) s = s := by
  induction rs with
  | nil => rfl
  | cons r rs ih => rw [List.foldl_cons, releaseSlot_free h, ih]

/-- A reader lets a row go, and the slot is free once none holds it. -/
theorem slotOf_releaseSlot {s : State} {x : SlotSt} (h : slotOf i n s = some x) (hg : x.given = true) (r : Nat) :
    slotOf i n (releaseSlot i n r s) = if (x.readers.filter (· != r)).isEmpty then none
      else some { x with readers := x.readers.filter (· != r) } := by
  simp only [releaseSlot, h, hg, Bool.true_and]
  split
  · exact Tab.find?_del_same ..
  · exact Tab.find?_put_same ..

/-- Readers let a row go one after another. -/
theorem slotOf_releases {s : State} {x : SlotSt} (h : slotOf i n s = some x) (hg : x.given = true) (hr : x.readers ≠ []) (rs : List Nat) :
    slotOf i n (rs.foldl (fun s r => releaseSlot i n r s) s) =
      if (x.readers.filter fun r => !rs.contains r).isEmpty then none
      else some { x with readers := x.readers.filter fun r => !rs.contains r } := by
  induction rs generalizing s x with
  | nil => simp [h, hr]
  | cons r rs ih =>
    have both : (x.readers.filter (· != r)).filter (fun q => !rs.contains q) = x.readers.filter fun q => !(r :: rs).contains q := by
      rw [List.filter_filter]
      refine List.filter_congr fun q _ => ?_
      rw [List.contains_cons, Bool.not_or, Bool.and_comm]
      rfl
    have once := slotOf_releaseSlot h hg r
    rw [List.foldl_cons, ← both]
    by_cases none' : x.readers.filter (· != r) = []
    · rw [none', List.isEmpty_nil, if_pos rfl] at once
      rw [releases_free once, once, none']
      rfl
    · rw [if_neg (by simpa using none')] at once
      exact ih once hg none'

end

theorem slotRelease_exec {e : Eng} {w : Win} {n : Nat} {s : State} {x : SlotSt} (h : slotOf (winIdx e w) n s = some x)
    (hg : x.given = true) : ∀ u, u = (x.readers.filter fun r => if r < 1024 then rowSpent r x.tick x.row s
      else decide (x.tick < egressTick (r - 1024) s)).foldl (fun s r => releaseSlot (winIdx e w) n r s) s →
    exec (.slotRelease e w n) s = .next (flushEngine (gangHead u.cfg e) u) := by
  rintro _ rfl
  change execSlotRelease e w n s = _
  simp only [execSlotRelease, h, hg, Bool.not_true, Bool.false_eq_true, if_false]

/-- Those who let go are the readers that are not among those who hold on. -/
theorem filter_not_held (l : List Nat) (p : Nat → Bool) :
    l.filter (fun r => !(l.filter fun r => !p r).contains r) = l.filter p := by
  refine List.filter_congr fun r hr => ?_
  have held : (l.filter fun r => !p r).contains r = !p r := by
    rw [Bool.eq_iff_iff, List.contains_iff_mem, List.mem_filter]
    exact ⟨fun h => h.2, fun h => ⟨hr, h⟩⟩
  rw [held, Bool.not_not]

/-! ### Egress packets (R247 to R249) -/

theorem fEc_reachPtp (c d : Nat) (s : State) : fEc c (reachPtp d s) = fEc c s := rfl

/-- R248: the time of packet `i` of the picture of tick `k`. -/
def packetDue (c k i : Nat) (s : State) : Nat := tickTime s.cfg (ecTd (fEc c s)) k + fx c 0x18 4 s + trsAt c i s

theorem packetDue_reachPtp (c k i d : Nat) (s : State) : packetDue c k i (reachPtp d s) = packetDue c k i s := rfl

theorem truncAt_reachPtp (c k d : Nat) (s : State) : truncAt c k (reachPtp d s) = truncAt c k s := rfl

theorem fFlow_reachPtp (c d : Nat) (s : State) : fFlow c (reachPtp d s) = fFlow c s := rfl

theorem counters_reachPtp (d : Nat) (s : State) : (reachPtp d s).counters = s.counters := rfl

/-- R247: the first line, or line of a pair, of packet `i` of a picture. -/
def packetLine (c i : Nat) (s : State) : Nat := i / max 1 (packPer c (fGeo c s) s) * (if (fGeo c s).smp = 1 then 2 else 1)

/-- A later packet of the picture needs the staging row `r`. -/
def rowNeeded (c i r : Nat) (s : State) : Bool :=
  (List.range (fGeo c s).h).any fun z => decide (packetLine c i s ≤ z) && (fGeo c s).rowOf z == r

/-- The slot of the row of the next packet. -/
def packetSlot (c : Nat) (s : State) : Nat := (fGeo c s).rowOf (packetLine c (fFlow c s).pkt s) % fSlots c s

theorem egressPacketDue_exec {x : Ctx} {s : State} (h : egressOn x 0 s = true) :
    exec (.egressPacketDue x) s = .next (egressPacket x s) := congrArg Host.Outcome.next (if_pos h)

theorem egressPacket_noRow {c : Nat} {s : State} (h : slotOf (fWin c s) (packetSlot c s) s = none) : egressPacket c s = s := by
  simp only [packetSlot, packetLine] at h
  simp only [egressPacket, h]

/-- A flow whose record differs in the sequence number takes its place in the picture from the record before. -/
theorem fFlowMod_pkt {c k i : Nat} {s : State} (h : (fFlow c s).pkt = i) :
    fFlowMod c (fun f => { f with picTick := some k, pkt := f.pkt + 1 }) s =
      fFlowMod c (fun f => { f with picTick := some k, pkt := i + 1 }) s := by
  unfold fFlow at h
  simp only [fFlowMod, Tab.mod, h]

section
variable {c i : Nat} {s u : State} {z : SlotSt} (hi : i = (fFlow c s).pkt) (h0 : 0 < i)
  (hn : i + 1 < (fGeo c s).packLines * packPer c (fGeo c s) s) (h : slotOf (fWin c s) (packetSlot c s) s = some z)
  (hg : z.given = true) (ht : z.tick = egressTick c s) (hr : z.row = (fGeo c s).rowOf (packetLine c i s))
  (hu : u = reachPtp (packetDue c (egressTick c s) i s) s)
include hi h0 hn h hg ht hr hu

/-- Before its time, or behind the limit of its picture, the packet does not leave. -/
theorem egressPacket_waits (hw : nowNs u < packetDue c (egressTick c s) i s ∨ truncAt c (egressTick c s) u ≤ nowNs u) :
    egressPacket c s = u := by
  have some' : ¬ (fGeo c s).packLines * packPer c (fGeo c s) s = 0 := by omega
  rw [← packetDue_reachPtp, ← hu] at hw
  subst hi
  simp only [packetSlot, packetLine, packetDue] at h hr hu hw
  simp only [egressPacket, h, hg, ht, hr, some', ← hu, if_pos hw, Bool.not_true, bne_self_eq_false, Bool.or_self, decide_false,
    Bool.false_eq_true, if_false]

/-- A packet within its picture, whose row another packet needs, leaves. -/
theorem egressPacket_sends (hd : packetDue c (egressTick c s) i s ≤ nowNs u) (hl : nowNs u < truncAt c (egressTick c s) u)
    (hm : rowNeeded c (i + 1) ((fGeo c s).rowOf (packetLine c i s)) s = true) :
    egressPacket c s = fFlowMod c (fun f => { f with picTick := some (egressTick c s), pkt := i + 1 })
      (rtpSend c (media90 (ecTd (fEc c u)) (egressTick c s) u % 2 ^ 32) false (fun q => packBody c (packetSlot c s) i q u) u) := by
  have some' : ¬ (fGeo c s).packLines * packPer c (fGeo c s) s = 0 := by omega
  have inner : ((fFlow c s).pkt + 1 == (fGeo c s).packLines * packPer c (fGeo c s) s) = false := by
    rw [← hi]
    exact beq_false_of_ne (by omega)
  have notFirst : ¬ (fFlow c s).pkt = 0 := by omega
  rw [← packetDue_reachPtp, ← hu] at hd
  have leaves := not_or.2 ⟨Nat.not_lt.2 hd, Nat.not_le.2 hl⟩
  have kept : (fFlow c (rtpSend c (media90 (ecTd (fEc c u)) (egressTick c s) u % 2 ^ 32) false
      (fun q => packBody c (packetSlot c s) i q u) u)).pkt = i := by
    rw [fFlow_rtpSend, hu, hi]
    rfl
  rw [← fFlowMod_pkt kept]
  subst hi
  simp only [packetSlot, packetLine, packetDue, rowNeeded, ← List.any_filter] at h hr hu leaves hm
  simp only [egressPacket, packetSlot, packetLine, h, hg, ht, hr, inner, notFirst, some', ← hu, if_neg leaves, Bool.not_true,
    bne_self_eq_false, Bool.or_self, decide_false, Bool.false_eq_true, if_false]
  exact congrArg _ (if_pos hm)

end

/-- R249: the rest of the picture is abandoned. -/
def picAbandoned (c k : Nat) (s : State) : State :=
  fFlowMod c (fun f => { f with picTick := some (k + 1), pkt := 0 }) (fCnt c 15 1 s)

theorem egressTick_picAbandoned (c k : Nat) (s : State) : egressTick c (picAbandoned c k s) = k + 1 := by
  rw [egressTick, picAbandoned, fFlow_fFlowMod_same]
  rfl

theorem picAbandoned_counts (c k : Nat) (s : State) : Tab.get 0 (picAbandoned c k s).counters ((c * 128 + 15 * 8) / 8) =
    (Tab.get 0 s.counters ((c * 128 + 15 * 8) / 8) + 1) % 2 ^ 64 := get_fCnt_same ..

section
variable {x : Ctx} {s u : State} (h : egressOn x 0 s = true) (hu : u = reachPtp (truncAt x (egressTick x s) s) s)
include h hu

theorem egressPicTrunc_early (hl : nowNs u < truncAt x (egressTick x s) u) : exec (.egressPicTrunc x) s = .next u := by
  subst hu
  have on : ¬ (!egressOn x 0 s) = true := by rw [h]; decide
  exact congrArg Host.Outcome.next ((if_neg on).trans (if_pos hl))

theorem egressPicTrunc_abandons (hl : truncAt x (egressTick x s) u ≤ nowNs u) :
    exec (.egressPicTrunc x) s = .next (slotsMoved x (egressDone x (picAbandoned x (egressTick x s) u))) := by
  subst hu
  have on : ¬ (!egressOn x 0 s) = true := by rw [h]; decide
  exact congrArg Host.Outcome.next ((if_neg on).trans (if_neg (Nat.not_lt.2 hl)))

end

/-- A flow that sends no raw video does nothing. -/
theorem egress_off {x : Ctx} {s : State} (h : egressOn x 0 s = false) :
    exec (.egressPacketDue x) s = .next s ∧ exec (.egressPicTrunc x) s = .next s := by
  constructor
  · exact congrArg Host.Outcome.next (if_neg (by rw [h]; decide))
  · exact congrArg Host.Outcome.next (if_pos (by rw [h]; rfl))

/-! ### Coded egress (R251) -/

theorem codedPacketSend_off {x : Ctx} {s : State} (h : egressOn x 1 s = false) : exec (.codedPacketSend x) s = .next s :=
  congrArg Host.Outcome.next (if_neg (by rw [h]; decide))

theorem codedPacketSend_on {x : Ctx} {s : State} (h : egressOn x 1 s = true) : exec (.codedPacketSend x) s = .next (codedPacket x s) :=
  congrArg Host.Outcome.next (if_pos h)

theorem codedPacket_noSource {c : Nat} {s : State} (h : codedSource c s = none) : codedPacket c s = s := by
  simp only [codedPacket, h]

/-! ### Settlement -/

theorem slotRelease_spec {e : Eng} {w : Win} {n : Nat} {s : State} {x : SlotSt} (h : slotOf (winIdx e w) n s = some x)
    (hg : x.given = true) (hr : x.readers ≠ []) {l : List Nat} (hl : l = x.readers.filter fun r =>
      !(if r < 1024 then rowSpent r x.tick x.row s else decide (x.tick < egressTick (r - 1024) s))) {u : State}
    (hu : u = (x.readers.filter fun r => !l.contains r).foldl (fun s r => releaseSlot (winIdx e w) n r s) s) :
    exec (.slotRelease e w n) s = .next (flushEngine (gangHead s.cfg e) u) ∧ u.regs = s.regs ∧ u.mem = s.mem ∧
      slotOf (winIdx e w) n u = if l.isEmpty then none else some { x with readers := l } := by
  have spent := filter_not_held x.readers fun r => if r < 1024 then rowSpent r x.tick x.row s
    else decide (x.tick < egressTick (r - 1024) s)
  have held : (x.readers.filter fun r => !(x.readers.filter fun r => !l.contains r).contains r) = l := by
    rw [hl, spent]
    refine List.filter_congr fun r hr => ?_
    rw [Bool.not_inj_iff, Bool.eq_iff_iff, List.contains_iff_mem, List.mem_filter]
    exact ⟨fun h => h.2, fun h => ⟨hr, h⟩⟩
  have slot := slotOf_releases h hg hr (x.readers.filter fun r => !l.contains r)
  rw [← hu, held] at slot
  have slots : OnlySlots s u := hu ▸ foldl_rel OnlySlots.refl OnlySlots.trans (fun _ _ => releaseSlot_onlySlots ..) _ s
  have run := slotRelease_exec h hg u (by rw [hu, hl, spent])
  obtain ⟨_, rfl⟩ := slots
  exact ⟨run, rfl, rfl, slot⟩

/-- Settles O28: lines close by their deadlines and with their picture, move into ready slots, and egress flows send them. -/
theorem essenceLinesAndPackets : Obligations.EssenceLinesAndPackets := by
  unfold Obligations.EssenceLinesAndPackets
  refine ⟨fun x y s at_ h1 he hi hf hg => lineDeadline_coded h1 he hi hf hg y, ?_, fun x s p => pictureClose_exec, ?_, ?_,
    fun e w n s x h hg hr l hl u hu => slotRelease_spec h hg hr hl hu, ?_, ?_, ?_, ?_, fun x s => codedPacketSend_on⟩
  · rintro x y s h1 he hi hf p hp d hd hc _ rfl _ rfl
    exact ⟨mem_linesDue hd hc s, lineDeadline_closes h1 he hi hf hp hd hc⟩
  · intro x s h
    exact .intro ((lineToSlot_exec x s).trans (by rw [h]; rfl)) rfl
  · intro x s m h
    exact ⟨(lineToSlot_exec x s).trans (by rw [h]; rfl), nextMove_spec h⟩
  · rintro x s h _ rfl _ rfl i hi _ rfl _ rfl _ rfl _ rfl u hu
    have slot : packetSlot x s = (fGeo x s).rowOf (packetLine x i s) % fSlots x s := by rw [hi]; rfl
    refine ⟨fun none' => ?_, fun z hz hg ht hr h0 hn => ⟨fun hw => ?_, fun hd hl hm => ?_⟩⟩
    · exact .intro ((egressPacketDue_exec h).trans (congrArg Host.Outcome.next (egressPacket_noRow (slot ▸ none')))) rfl
    · exact (egressPacketDue_exec h).trans (congrArg Host.Outcome.next
        (egressPacket_waits hi h0 hn (slot ▸ hz) hg ht hr hu hw))
    · have sent := egressPacket_sends hi h0 hn (slot ▸ hz) hg ht hr hu hd hl hm
      rw [slot] at sent
      exact (egressPacketDue_exec h).trans (congrArg Host.Outcome.next sent)
  · rintro x s h u hu
    refine ⟨?_, egressPicTrunc_early h hu⟩
    rintro hl _ rfl
    refine ⟨egressPicTrunc_abandons h hu hl, egressTick_picAbandoned .., ?_⟩
    rw [← counters_reachPtp (truncAt x (egressTick x s) s) s, ← hu]
    exact picAbandoned_counts ..
  · intro x s h
    obtain ⟨packet, trunc⟩ := egress_off h
    exact ⟨.intro packet rfl, .intro trunc rfl⟩
  · rintro x s (h | h)
    · exact .intro (codedPacketSend_off h) rfl
    · cases on : egressOn x 1 s
      · exact .intro (codedPacketSend_off on) rfl
      · exact .intro ((codedPacketSend_on on).trans (congrArg Host.Outcome.next (codedPacket_noSource h))) rfl

end Sys2Proof.Machine
end

section
/-! SUPPORT and CERTIFICATE. OPEN of an essence context (R231, R232, R233, R243, R257); the refutation of O24. -/
namespace Sys2Proof.Machine

/-! ### What OPEN decides (R231, R232) -/

/-- R231: the context that OPEN takes. -/
def openPlace (s : State) : Option Nat := (List.range 65536).find? fun c => fState c s == 0

theorem openPlace_lt {c : Nat} {s : State} (h : openPlace s = some c) : c < 65536 := by
  rw [openPlace] at h
  have listed := List.mem_of_find?_eq_some h
  rwa [List.mem_range] at listed

/-- R232: the contexts of a class that are in use. -/
def classUsed (k : Nat) (s : State) : Nat :=
  (((s.ess.ctx.map (·.1)).filter fun c => fState c s != 0).filter fun c => fClass c s == k).length

/-- R232: which room is used up: 1 for the contexts, 2 for the places of the class, 3 for the ring space, 0 for none. -/
def roomGone (ec : Bytes) (s : State) : Nat :=
  if (openPlace s).isNone then 1
  else if ecMaxFlows ec ≠ 0 ∧ ecMaxFlows ec ≤ classUsed (im (essArg s) 1 1) s then 2
  else if fget F.ESS_RING_FREE_KIB 0 s < ringKib ec s then 3 else 0

theorem roomGone_lt (ec : Bytes) (s : State) : roomGone ec s < 256 := by
  unfold roomGone
  repeat' split
  all_goals decide

/-- R232: OPEN finds no room. -/
theorem roomGone_full {ec : Bytes} {s : State} (h : openPlace s = none ∨
      (ecMaxFlows ec ≠ 0 ∧ ecMaxFlows ec ≤ classUsed (im (essArg s) 1 1) s) ∨ fget F.ESS_RING_FREE_KIB 0 s < ringKib ec s) :
    roomGone ec s = if openPlace s = none then 1
      else if ecMaxFlows ec ≠ 0 ∧ ecMaxFlows ec ≤ classUsed (im (essArg s) 1 1) s then 2 else 3 := by
  by_cases place : openPlace s = none
  · rw [roomGone, place]
    rfl
  · rw [roomGone, if_neg (by rwa [Option.isNone_iff_eq_none]), if_neg place]
    split
    case isTrue => rfl
    case isFalse class_ => exact if_pos ((h.resolve_left place).resolve_left class_)

theorem roomGone_zero {ec : Bytes} {s : State} (ho : openPlace s ≠ none)
    (hn : ecMaxFlows ec = 0 ∨ classUsed (im (essArg s) 1 1) s < ecMaxFlows ec) (hk : ringKib ec s ≤ fget F.ESS_RING_FREE_KIB 0 s) :
    roomGone ec s = 0 := by
  rw [roomGone, if_neg (by rwa [Option.isNone_iff_eq_none]), if_neg (by omega), if_neg (Nat.not_lt.2 hk)]

/-! ### What OPEN makes (R234, R243, R257) -/

/-- R234: the image of a new context. -/
def openedImage (b ec : Bytes) (kib : Nat) : Bytes :=
  fitTo 256 (leBytes 1 1 ++ slice b 1 1 ++ leBytes 2 (classFlags ec) ++ slice b 4 9 ++ leBytes 3 0 ++ slice b 0x10 6 ++ leBytes 2 0 ++
    slice b 0x18 4 ++ leBytes 4 kib ++ slice b 0x20 28 ++ leBytes 20 0 ++ slice b 0x50 4 ++ leBytes 12 0 ++ slice b 0x60 160)

/-- Context `c` with the image and no record. -/
def ctxMade (c : Nat) (img : Bytes) (s : State) : State :=
  { s with ess := { s.ess with ctx := Tab.put s.ess.ctx c img, flow := Tab.del s.ess.flow c } }

/-- R243: the ring space of a flow is taken, its counters are cleared, and ESS_CMD_CTX names it. -/
def ctxNamed (c : Nat) (ec : Bytes) (s : State) : State :=
  fset F.ESS_CMD_CTX_CTX 0 c (fset F.ESS_RING_FREE_KIB 0 (fget F.ESS_RING_FREE_KIB 0 s - ringKib ec s)
    (clearCounters c (ctxMade c (openedImage (essArg s) ec (ringKib ec s)) s)))

/-- The state in which OPEN leaves the new context `c`. -/
def ctxOpened (c : Nat) (ec : Bytes) (s : State) : State := sealWindows (keyLoad c (ctxNamed c ec s))

section
variable {ec : Bytes} {s : State}

theorem essOpenDo_refused (h : imgCheck none (essArg s) s ≠ 0) : essOpenDo s = ((imgCheck none (essArg s) s, 0), s) := if_pos h

theorem essOpenDo_full (hc : essClass s.cfg (im (essArg s) 1 1) = some ec) (hi : imgCheck none (essArg s) s = 0)
    (h : roomGone ec s ≠ 0) : essOpenDo s =
      ((4, roomGone ec s), setEvent F.ESS_EVENT_CTX_OVERFLOW 0 88 (bump F.ESS_OPEN_REFUSED_COUNT 0 s)) := by
  unfold roomGone classUsed openPlace at *
  simp only [essOpenDo, hi, hc, Option.getD_some, ne_eq, not_true, if_false]
  exact if_pos h

theorem essOpenDo_opens (hc : essClass s.cfg (im (essArg s) 1 1) = some ec) (hi : imgCheck none (essArg s) s = 0)
    (h : roomGone ec s = 0) : essOpenDo s = ((0, 0), ctxOpened ((openPlace s).getD 0) ec s) := by
  unfold roomGone classUsed openPlace at *
  simp only [essOpenDo, hi, hc, Option.getD_some, ne_eq, not_true, if_false]
  exact if_neg (not_not.2 h)

end

/-! ### The new context -/

theorem essArg_length (s : State) : (essArg s).length = 256 := by
  simp [essArg, List.length_flatMap, leBytes_length]

/-- R234: a new context is ACTIVE and of the class that the image names. -/
theorem openedImage_parts {b : Bytes} (h : 2 ≤ b.length) (ec : Bytes) (kib : Nat) :
    fieldLE (openedImage b ec kib) 0 1 = 1 ∧ fieldLE (openedImage b ec kib) 1 1 = im b 1 1 := by
  have one : (slice b 1 1).length = 1 := by simp only [slice, List.length_take, List.length_drop]; omega
  constructor
  · rw [openedImage, fieldLE_fitTo _ (by decide)]
    simp only [List.append_assoc]
    rfl
  · rw [openedImage, fieldLE_fitTo _ (by decide), im, fieldLE, fieldLE]
    simp only [List.append_assoc]
    exact congrArg leNat (List.take_left' one)

/-- R257: the counters of a flow alone are cleared. -/
theorem clearCounters_parts (c : Nat) (s : State) :
    ∃ counters trc, clearCounters c s = { s with counters := counters, trc := trc } :=
  foldl_rel (R := fun s t => ∃ counters trc, t = { s with counters := counters, trc := trc }) (fun _ => ⟨_, _, rfl⟩)
    (by rintro s _ _ ⟨_, _, rfl⟩ ⟨_, _, rfl⟩; exact ⟨_, _, rfl⟩) (fun _ _ => ⟨_, _, cntSet_parts ..⟩) _ s

theorem get_clearCounters {k : Nat} (h : k < 16) (c : Nat) (s : State) :
    Tab.get 0 (clearCounters c s).counters ((c * 128 + k * 8) / 8) = 0 := by
  obtain ⟨u, -, -, visit, -⟩ := foldl_visits (R := fun _ _ => True) (fun _ => trivial) (fun _ _ => trivial) (fun _ _ => trivial)
    List.nodup_range (List.mem_range.2 h) (φ := fun s : State => Tab.get 0 s.counters ((c * 128 + k * 8) / 8))
    (g := fun s k => cntSet (c * 128 + k * 8) 0 s) (fun s j _ ne => by
      rw [cntSet_parts, Tab.get_set_ne _ _ _ _ (by omega)]) s
  exact visit.trans (by rw [cntSet_parts, Tab.get_set_same, Nat.zero_mod])

/-! ### The state that OPEN leaves -/

/-- R496: deriving a flow's key changes no register, counter or memory. -/
theorem keyLoad_elsewhere (c : Nat) (s : State) : (keyLoad c s).regs = s.regs ∧ (keyLoad c s).counters = s.counters ∧
    (keyLoad c s).mem = s.mem ∧ (keyLoad c s).ess.ctx = s.ess.ctx := by
  obtain ⟨srtp, loaded⟩ := keyLoad_parts c s
  rw [loaded]
  exact ⟨rfl, rfl, rfl, rfl⟩

theorem fget_ctxOpened {f : Fld} (hs : f.key 0 ≠ F.CE_WIN_STATUS_SEALED.key 0) (hf : f.key 0 < 16384) (c : Nat) (ec : Bytes)
    (s : State) : fget f 0 (ctxOpened c ec s) = fget f 0 (ctxNamed c ec s) :=
  have ⟨regs, _⟩ := keyLoad_elsewhere c (ctxNamed c ec s)
  ((sealWindows_onlySeals _).fields f hs hf 0).trans (fget_congr regs)

theorem fctx_ctxOpened (c : Nat) (ec : Bytes) (s : State) :
    fctx c (ctxOpened c ec s) = openedImage (essArg s) ec (ringKib ec s) := by
  obtain ⟨-, -, -, ctx⟩ := keyLoad_elsewhere c (ctxNamed c ec s)
  obtain ⟨_, _, cleared⟩ := clearCounters_parts c (ctxMade c (openedImage (essArg s) ec (ringKib ec s)) s)
  rw [fctx, ctxOpened, (sealWindows_onlySeals _).ess, ctx, ctxNamed, cleared]
  exact Tab.get_put_same ..

theorem get_ctxOpened {k : Nat} (h : k < 16) (c : Nat) (ec : Bytes) (s : State) :
    Tab.get 0 (ctxOpened c ec s).counters ((c * 128 + k * 8) / 8) = 0 := by
  obtain ⟨-, counters, -⟩ := keyLoad_elsewhere c (ctxNamed c ec s)
  rw [ctxOpened, (sealWindows_onlySeals _).counters, counters, ctxNamed, fset_counters, fset_counters, get_clearCounters h]

theorem ctxOpened_mem (c : Nat) (ec : Bytes) (s : State) : (ctxOpened c ec s).mem = s.mem := by
  obtain ⟨-, -, mem, -⟩ := keyLoad_elsewhere c (ctxNamed c ec s)
  obtain ⟨_, _, cleared⟩ := clearCounters_parts c (ctxMade c (openedImage (essArg s) ec (ringKib ec s)) s)
  rw [ctxOpened, sealWindows_mem, mem, ctxNamed, cleared]
  rfl

/-- R233: the image and the answer that return leave every other register field. -/
theorem fget_answered {f : Fld} (ha : f.key 0 ≠ F.ESS_ARG_DATA.key 0) (hr : f.key 0 ≠ F.ESS_CMD_RESULT.key 0)
    (hd : f.key 0 ≠ F.ESS_CMD_DETAIL.key 0) (hf : f.key 0 < 16384) (i r d : Nat) (b : Bytes) (s : State) :
    fget f i (essResult r d (essArgPut b s)) = fget f i s :=
  (fget_essResult_other hr hd hf ..).trans (fget_essArgPut_other ha hf ..)

/-! ### The answers of OPEN -/

section
variable {fn : Fn} {s : State} (hr : Reaches fn .ESS_CMD 0 s) (hb : flag F.ESS_CMD_BUSY 0 s = false) {w : Word}
include hr hb

theorem essOpen_exec : exec (.essOpen fn w) s = .next (essCommand 1 s) := congrArg Host.Outcome.next (essCmd_runs hr hb 1)

/-- A failed OPEN answers. -/
theorem essOpen_fails {r d : Nat} {t : State} (h : essOpenDo s = ((r, d), t)) (h0 : r ≠ 0) :
    exec (.essOpen fn w) s = .next (essResult r d t) := by
  rw [essOpen_exec hr hb]
  simp only [essCommand, h, if_neg h0]

/-- An OPEN that succeeds returns the image. -/
theorem essOpen_succeeds {t : State} (h : essOpenDo s = ((0, 0), t)) :
    exec (.essOpen fn w) s = .next (essResult 0 0 (essArgPut (essImage (fget F.ESS_CMD_CTX_CTX 0 t) t) t)) := by
  rw [essOpen_exec hr hb]
  simp only [essCommand, h, if_true]

/-- R232: OPEN of an image that fails a check. -/
theorem essOpen_refused (h : imgCheck none (essArg s) s ≠ 0) : Completes (.essOpen fn w) s fun t =>
    fget F.ESS_CMD_RESULT 0 t = imgCheck none (essArg s) s ∧ fget F.ESS_CMD_DETAIL 0 t = 0 ∧ OnlyFields answerKeys s t :=
  .intro (essOpen_fails hr hb (essOpenDo_refused h) h)
    ⟨fget_essResult_result (imgCheck_lt ..) .., fget_essResult_detail (by decide) .., essResult_only ..⟩

/-- R232, R257: OPEN without room. -/
theorem essOpen_full {ec : Bytes} (hc : essClass s.cfg (im (essArg s) 1 1) = some ec) (hi : imgCheck none (essArg s) s = 0)
    (h : roomGone ec s ≠ 0) : Completes (.essOpen fn w) s fun t =>
      fget F.ESS_CMD_RESULT 0 t = 4 ∧ fget F.ESS_CMD_DETAIL 0 t = roomGone ec s ∧
      fget F.ESS_OPEN_REFUSED_COUNT 0 t = (fget F.ESS_OPEN_REFUSED_COUNT 0 s + 1) % 2 ^ F.ESS_OPEN_REFUSED_COUNT.w ∧
      flag F.ESS_EVENT_CTX_OVERFLOW 0 t = true ∧ t.ess = s.ess ∧ t.mem = s.mem := by
  refine .intro (essOpen_fails hr hb (essOpenDo_full hc hi h) (by decide))
    ⟨fget_essResult_result (by decide) .., fget_essResult_detail (roomGone_lt ..) .., ?_, ?_, ?_, ?_⟩
  · rw [fget_essResult_other (by decide) (by decide) (by decide),
      fget_setEvent_other (by decide) (by decide) (by decide) (by decide) (by decide), fget_bump_same]
  · rw [flag, fget_essResult_other (by decide) (by decide) (by decide)]
    exact flag_setEvent_same rfl (by decide) (by decide) (by decide)
  · rw [essResult_ess, setEvent_ess, bump_ess]
  · rw [essResult_mem, setEvent_mem, bump_mem]

/-- R231, R243, R257: OPEN that finds room makes the lowest FREE context. -/
theorem essOpen_opened {ec : Bytes} (hc : essClass s.cfg (im (essArg s) 1 1) = some ec) (hi : imgCheck none (essArg s) s = 0)
    (h : roomGone ec s = 0) {c : Nat} (ho : openPlace s = some c) : Completes (.essOpen fn w) s fun t =>
      fget F.ESS_CMD_RESULT 0 t = 0 ∧ fget F.ESS_CMD_CTX_CTX 0 t = c ∧ fState c t = 1 ∧ fClass c t = im (essArg s) 1 1 ∧
      fget F.ESS_RING_FREE_KIB 0 t = (fget F.ESS_RING_FREE_KIB 0 s - ringKib ec s) % 2 ^ F.ESS_RING_FREE_KIB.w ∧
      (∀ k, k < 16 → Tab.get 0 t.counters ((c * 128 + k * 8) / 8) = 0) ∧ t.mem = s.mem := by
  have low := openPlace_lt ho
  have opens := essOpenDo_opens hc hi h
  rw [ho, Option.getD_some] at opens
  have image := fctx_ctxOpened c ec s
  obtain ⟨active, class_⟩ := openedImage_parts (b := essArg s) (by rw [essArg_length]; decide) ec (ringKib ec s)
  have sameCtx (b : Bytes) : (essResult 0 0 (essArgPut b (ctxOpened c ec s))).ess.ctx = (ctxOpened c ec s).ess.ctx := by
    rw [essResult_ess, essArgPut_ess]
  refine .intro (essOpen_succeeds hr hb opens) ⟨fget_essResult_result (by decide) .., ?_, ?_, ?_, ?_, fun k hk => ?_, ?_⟩
  · rw [fget_answered (by decide) (by decide) (by decide) (by decide), fget_ctxOpened (by decide) (by decide), ctxNamed, fget_fset_same]
    exact Nat.mod_eq_of_lt low
  · rw [fState, fx_congr (sameCtx _), fx, image, active]
  · rw [fClass, fx_congr (sameCtx _), fx, image, class_]
  · rw [fget_answered (by decide) (by decide) (by decide) (by decide), fget_ctxOpened (by decide) (by decide), ctxNamed,
      fget_fset_other (by decide) (by decide) (by decide), fget_fset_same]
  · rw [essResult_counters, essArgPut_counters, get_ctxOpened hk]
  · rw [essResult_mem, essArgPut_mem, ctxOpened_mem]

end

/-! ### The counterexample -/

/-- An ESSENCE_CLASSES section whose only class is a coded ingest class. -/
def codedClassSec : Bytes := ([0, 0, 32, 0, 1, 0, 0, 0, 0, 0, 1] ++ List.replicate 29 0).map (BitVec.ofNat 8)

/-- OPERATE with every context FREE, the image of a context of the coded ingest class in ESS_ARG, and a register file in
which ESS_RING_FREE holds 2^24, more than its 23 bits hold. -/
def ringBeyondWidth : State :=
  { State.reset with
      mode := .operate
      regs := [(F.ESS_ARG_DATA.key 1, 0xFFFF0000), (F.ESS_ARG_DATA.key 2, 0x6020), (F.ESS_ARG_DATA.key 5, 1400),
        (F.ESS_ARG_DATA.key 20, 0x2A002A), (F.ESS_RING_FREE_KIB.key 0, 2 ^ 24)]
      loader := { State.reset.loader with secs := [(7, codedClassSec)] }
      power := { State.reset.power with configured := true, inReset := false }
      pcie := { State.reset.pcie with link := .l0 } }

/-- The record of the coded ingest class. -/
def codedClassRec : Bytes := ([0, 0, 1] ++ List.replicate 29 0).map (BitVec.ofNat 8)

theorem ringBeyondWidth_reaches : Reaches (0 : Fn) .ESS_CMD 0 ringBeyondWidth := by decide

theorem ringBeyondWidth_ready : flag F.ESS_CMD_BUSY 0 ringBeyondWidth = false := by decide

theorem ringBeyondWidth_class : essClass ringBeyondWidth.cfg (im (essArg ringBeyondWidth) 1 1) = some codedClassRec := by
  decide +kernel

theorem ringBeyondWidth_passes : imgCheck none (essArg ringBeyondWidth) ringBeyondWidth = 0 := by decide +kernel

theorem ringBeyondWidth_free : fget F.ESS_RING_FREE_KIB 0 ringBeyondWidth = 2 ^ 24 := by decide

theorem ringBeyondWidth_need : ringKib codedClassRec ringBeyondWidth = 16384 := by decide

/-- Every context is FREE. -/
theorem ringBeyondWidth_place : openPlace ringBeyondWidth = some 0 := by
  rw [openPlace, List.range_eq_range', List.range'_succ]
  exact List.find?_cons_of_pos rfl

/-- Refutes O24: it takes the ring space from ESS_RING_FREE without a bound, but the field keeps its 23 bits, so an OPEN while the
register stands beyond its width does not leave the difference. Modulo 2^23 the clause holds (`essOpen_opened`), and so do the
others (`essOpen_refused`; `essOpen_full`, `roomGone_full`). -/
theorem not_essenceOpenChecks : ¬ Obligations.EssenceOpenChecks := by
  unfold Obligations.EssenceOpenChecks
  intro all
  obtain ⟨-, opens⟩ := all 0 0 ringBeyondWidth ringBeyondWidth_reaches ringBeyondWidth_ready
  obtain ⟨-, room⟩ := opens codedClassRec ringBeyondWidth_class ringBeyondWidth_passes _ rfl _ rfl _ rfl
  have enough : ringKib codedClassRec ringBeyondWidth ≤ fget F.ESS_RING_FREE_KIB 0 ringBeyondWidth := by
    rw [ringBeyondWidth_need, ringBeyondWidth_free]
    decide
  have place : openPlace ringBeyondWidth ≠ none := by rw [ringBeyondWidth_place]; exact nofun
  have noBound : ecMaxFlows codedClassRec = 0 := by decide
  obtain ⟨t, runs, -, -, -, -, left, -⟩ := essOpen_opened (w := 0) ringBeyondWidth_reaches ringBeyondWidth_ready ringBeyondWidth_class
    ringBeyondWidth_passes (roomGone_zero place (.inl noBound) enough) ringBeyondWidth_place
  obtain ⟨-, -, -, -, claimed, -⟩ := (room place (.inl noBound) enough).elim runs
  rw [left, ringBeyondWidth_need, ringBeyondWidth_free] at claimed
  exact absurd claimed (by decide)

end Sys2Proof.Machine
end

section
/-! SUPPORT and CERTIFICATE. Writes of CE_CTRL and the end of an engine's drain: the members of a gang answer and change state
together (R261, R291 to R293, R298, R570); O32. -/
namespace Sys2Proof.Machine

/-! ### One field of every member of a gang -/

/-- What the step at `a` establishes and every step keeps, a fold that visits `a` establishes. -/
theorem foldl_settles {α : Type} {P : State → Prop} {g : State → α → State} {l : List α} {a : α} (ha : a ∈ l)
    (set : ∀ s, P (g s a)) (keep : ∀ s b, P s → P (g s b)) (s : State) : P (l.foldl g s) := by
  obtain ⟨before, after, rfl⟩ := List.append_of_mem ha
  rw [List.foldl_append, List.foldl_cons]
  exact List.foldlRecOn after g (set _) fun s hs b _ => keep s b hs

/-- One field takes the same value in each of the listed places. -/
def fsetEach (f : Fld) (ms : List Nat) (v : Nat) (s : State) : State := ms.foldl (fun s m => fset f m v s) s

theorem gangFlag_eq (f : Fld) (e : Nat) (b : Bool) (s : State) : gangFlag f e b s = fsetEach f (gangOf s.cfg e) (b2n b) s := rfl

theorem gangEnable_eq (e : Nat) (b : Bool) (s : State) : gangEnable e b s = gangFlag F.CE_CTRL_ENABLE e b s := rfl

theorem fget_fsetEach_same {ms : List Nat} {m : Nat} (hm : m ∈ ms) (f : Fld) (v : Nat) (s : State) :
    fget f m (fsetEach f ms v s) = v % 2 ^ f.w := by
  refine foldl_settles (P := fun s => fget f m s = v % 2 ^ f.w) hm (fget_fset_same f m v) (fun s b hs => ?_) s
  obtain rfl | ne := eq_or_ne m b
  · exact fget_fset_same ..
  · exact (fget_fset_inst ne).trans hs

theorem OnlyFields.fsetEach {ks : List Nat} {s t : State} (h : OnlyFields ks s t) {f : Fld} {ms : List Nat}
    (hk : ∀ m ∈ ms, f.key m ∈ ks) (v : Nat) : OnlyFields ks s (fsetEach f ms v t) :=
  List.foldlRecOn ms _ h fun _ ht m hm => ht.fset (hk m hm)

theorem fget_fsetEach_other {f g : Fld} (h : g.key 0 ≠ f.key 0) (hf : f.key 0 < 16384) (hg : g.key 0 < 16384) (i : Nat)
    (ms : List Nat) (v : Nat) (s : State) : fget g i (fsetEach f ms v s) = fget g i s :=
  foldl_keeps (φ := fget g i) (fun _ _ _ => fget_fset_other h hf hg) s

@[simp] theorem fsetEach_cfg (f : Fld) (ms : List Nat) (v : Nat) (s : State) : (fsetEach f ms v s).cfg = s.cfg :=
  foldl_keeps (φ := State.cfg) (g := fun s m => fset f m v s) (fun _ _ _ => rfl) s

@[simp] theorem fsetEach_mode (f : Fld) (ms : List Nat) (v : Nat) (s : State) : (fsetEach f ms v s).mode = s.mode :=
  foldl_keeps (φ := State.mode) (g := fun s m => fset f m v s) (fun _ _ _ => rfl) s

@[simp] theorem gangFlag_cfg (f : Fld) (e : Nat) (b : Bool) (s : State) : (gangFlag f e b s).cfg = s.cfg := fsetEach_cfg ..

@[simp] theorem gangFlag_mode (f : Fld) (e : Nat) (b : Bool) (s : State) : (gangFlag f e b s).mode = s.mode := fsetEach_mode ..

theorem flag_gangFlag_same {f : Fld} (hw : f.w = 1) {e m : Nat} {s : State} (hm : m ∈ gangOf s.cfg e) (b : Bool) :
    flag f m (gangFlag f e b s) = b := by
  rw [flag, gangFlag_eq, fget_fsetEach_same hm, hw]
  cases b <;> rfl

theorem fget_gangFlag_other {f g : Fld} (h : g.key 0 ≠ f.key 0) (hf : f.key 0 < 16384) (hg : g.key 0 < 16384) (i e : Nat) (b : Bool)
    (s : State) : fget g i (gangFlag f e b s) = fget g i s := fget_fsetEach_other h hf hg ..

theorem flag_gangFlag_other {f g : Fld} (h : g.key 0 ≠ f.key 0) (hf : f.key 0 < 16384) (hg : g.key 0 < 16384) (i e : Nat) (b : Bool)
    (s : State) : flag g i (gangFlag f e b s) = flag g i s := congrArg (· == 1) (fget_gangFlag_other h hf hg ..)

/-- A flag that has the value already has it wherever it is set. -/
theorem flag_setFlag_keeps {f : Fld} (hw : f.w = 1) {i : Nat} {b : Bool} {s : State} (h : flag f i s = b) (j : Nat) :
    flag f i (setFlag f j b s) = b := by
  obtain rfl | ne := eq_or_ne i j
  · exact flag_setFlag_same _ _ _ _ hw
  · exact (flag_setFlag_ne (fun e => ne (Fld.key_inj.1 e)) b s).trans h

/-! ### Writes of CE_CTRL (R261, R298, R570) -/

/-- R298: the write is refused: LIVE_EXCLUSIVE of an engine with FILE contexts or not for LIVE, or ENABLE of one that is OFF. -/
def ceConflict (h : Nat) (w : Word) (s : State) : Bool :=
  (wbit F.CE_CTRL_LIVE_EXCLUSIVE w && !flag F.CE_CTRL_LIVE_EXCLUSIVE h s && (fileHomed h s || ceUse s.cfg h != 1)) ||
    (wbit F.CE_CTRL_ENABLE w && ceUse s.cfg h == 2)

/-- R298: the result of a write, on each member of the gang. -/
def gangResult (h v : Nat) (s : State) : State := fsetEach F.CE_CTRL_RESULT (gangOf s.cfg h) v s

/-- R261: an accepted write has set RESULT and LIVE_EXCLUSIVE of the gang. -/
def ceTaken (h : Nat) (w : Word) (s : State) : State :=
  gangFlag F.CE_CTRL_LIVE_EXCLUSIVE h (wbit F.CE_CTRL_LIVE_EXCLUSIVE w) (gangResult h 0 s)

section
variable {h e : Nat} {w : Word} {s : State} (hh : h = gangHead s.cfg e)
include hh

theorem ceCtrlWrite_refused (hc : ceConflict h w s = true) : ceCtrlWrite e w s = gangResult h 3 s := by
  subst hh; exact if_pos hc

theorem ceCtrlWrite_outside (hc : ceConflict h w s = false) (hm : s.mode ≠ .operate) : ceCtrlWrite e w s = ceTaken h w s := by
  subst hh
  refine (if_neg (ne_true_of_eq_false hc)).trans (if_pos ?_)
  rw [gangFlag_mode]
  exact bne_iff_ne.2 ((fsetEach_mode ..).trans_ne hm)

theorem ceCtrlWrite_operate (hc : ceConflict h w s = false) (hm : s.mode = .operate) : ceCtrlWrite e w s =
    engKick h (if wbit F.CE_CTRL_ENABLE w then ceOn h (ceTaken h w s) else ceOff h (ceTaken h w s)) := by
  subst hh
  refine (if_neg (ne_true_of_eq_false hc)).trans (if_neg ?_)
  rw [gangFlag_mode]
  exact fun ne => bne_iff_ne.1 ne ((fsetEach_mode ..).trans hm)

end

theorem gangResult_spec (h : Nat) {v : Nat} (hv : v < 256) (s : State) :
    (∀ m ∈ gangOf s.cfg h, fget F.CE_CTRL_RESULT m (gangResult h v s) = v) ∧
    OnlyFields ((gangOf s.cfg h).map fun m => F.CE_CTRL_RESULT.key m) s (gangResult h v s) :=
  ⟨fun _ hm => (fget_fsetEach_same hm ..).trans (Nat.mod_eq_of_lt hv),
    (OnlyFields.refl _ s).fsetEach (fun _ hm => List.mem_map_of_mem hm) v⟩

@[simp] theorem ceTaken_cfg (h : Nat) (w : Word) (s : State) : (ceTaken h w s).cfg = s.cfg :=
  (gangFlag_cfg ..).trans (fsetEach_cfg ..)

theorem fget_ceTaken_result {h m : Nat} {s : State} (hm : m ∈ gangOf s.cfg h) (w : Word) :
    fget F.CE_CTRL_RESULT m (ceTaken h w s) = 0 :=
  (fget_gangFlag_other (by decide) (by decide) (by decide) ..).trans ((gangResult_spec h (by decide) s).1 m hm)

theorem flag_ceTaken_exclusive {h m : Nat} {s : State} (hm : m ∈ gangOf s.cfg h) (w : Word) :
    flag F.CE_CTRL_LIVE_EXCLUSIVE m (ceTaken h w s) = wbit F.CE_CTRL_LIVE_EXCLUSIVE w :=
  flag_gangFlag_same rfl (by rwa [gangResult, fsetEach_cfg]) _

theorem ceTaken_only (h : Nat) (w : Word) (s : State) : OnlyFields ((gangOf s.cfg h).map (fun m => F.CE_CTRL_RESULT.key m) ++
    (gangOf s.cfg h).map (fun m => F.CE_CTRL_LIVE_EXCLUSIVE.key m)) s (ceTaken h w s) := by
  rw [ceTaken, gangFlag_eq, gangResult, fsetEach_cfg]
  exact ((OnlyFields.refl _ s).fsetEach (fun m hm => List.mem_append_left _ (List.mem_map_of_mem hm)) _).fsetEach
    (fun m hm => List.mem_append_right _ (List.mem_map_of_mem hm)) _

theorem flag_ceTaken_other {f : Fld} (hr : f.key 0 ≠ F.CE_CTRL_RESULT.key 0) (hx : f.key 0 ≠ F.CE_CTRL_LIVE_EXCLUSIVE.key 0)
    (hf : f.key 0 < 16384) (i h : Nat) (w : Word) (s : State) : flag f i (ceTaken h w s) = flag f i s :=
  (flag_gangFlag_other hx (by decide) hf ..).trans (congrArg (· == 1) (fget_fsetEach_other hr (by decide) hf ..))

/-! ### ENABLE (R291, R293) -/

/-- R293: the upper quarter of each member's scratch is zeroed. -/
def gangZero (h : Nat) (s : State) : State :=
  (gangOf s.cfg h).foldl (fun s m => zeroMem (scratchBase m + 3072 * 1024) (1024 * 1024) s) s

/-- R293: each member runs nothing and has its context to load. -/
def gangFresh (h : Nat) (s : State) : State :=
  (gangOf s.cfg h).foldl (fun s m => engMod m (fun g => { Engine.init with savedWorks := g.savedWorks }) s) s

theorem ceStart_eq (e : Nat) (s : State) : ceStart e s =
    gangFresh (gangHead s.cfg e) (gangFlag F.CE_STATUS_ENABLED (gangHead s.cfg e) true (gangZero (gangHead s.cfg e) s)) := rfl

/-- A gang's scratch is memory alone. -/
theorem gangZero_parts (h : Nat) (s : State) : ∃ mem, gangZero h s = { s with mem := mem } :=
  foldl_rel (R := fun s t => ∃ mem, t = { s with mem := mem }) (fun _ => ⟨_, rfl⟩)
    (by rintro s _ _ ⟨_, rfl⟩ ⟨_, rfl⟩; exact ⟨_, rfl⟩) (fun _ _ => ⟨_, rfl⟩) _ s

theorem gangFresh_onlyEngines (h : Nat) (s : State) : OnlyEngines s (gangFresh h s) :=
  foldl_rel (R := OnlyEngines) .refl .trans (fun _ _ => engMod_onlyEngines ..) ..

theorem fget_ceStart_other {f : Fld} (hf : f.key 0 ≠ F.CE_STATUS_ENABLED.key 0) (hk : f.key 0 < 16384) (i e : Nat) (s : State) :
    fget f i (ceStart e s) = fget f i s := by
  obtain ⟨_, zero⟩ := gangZero_parts (gangHead s.cfg e) s
  rw [ceStart_eq, (gangFresh_onlyEngines ..).fget, fget_gangFlag_other hf (by decide) hk, zero]
  rfl

section
variable {h m : Nat} {s : State} (hh : gangHead s.cfg h = h)
include hh

/-- R293: the members of a gang that starts are enabled. -/
theorem flag_ceStart_enabled (hm : m ∈ gangOf s.cfg h) : flag F.CE_STATUS_ENABLED m (ceStart h s) = true := by
  obtain ⟨_, zero⟩ := gangZero_parts h s
  rw [ceStart_eq, hh, flag, (gangFresh_onlyEngines ..).fget]
  exact flag_gangFlag_same rfl (by rw [zero]; exact hm) true

theorem ceOn_eq : ceOn h s = if flag F.CE_STATUS_DRAINING h s then gangFlag F.CE_STATUS_ENABLE_PENDING h true (gangEnable h true s)
    else if flag F.CE_STATUS_ENABLED h s then gangEnable h true s else ceStart h (gangEnable h true s) := by
  have other (f : Fld) (hf : f.key 0 ≠ F.CE_CTRL_ENABLE.key 0) (hk : f.key 0 < 16384) :
      flag f h (gangEnable h true s) = flag f h s := flag_gangFlag_other hf (by decide) hk ..
  rw [ceOn, hh, other _ (by decide) (by decide), other _ (by decide) (by decide)]

theorem fget_ceOn_result (i : Nat) : fget F.CE_CTRL_RESULT i (ceOn h s) = fget F.CE_CTRL_RESULT i s := by
  have enable : fget F.CE_CTRL_RESULT i (gangEnable h true s) = fget F.CE_CTRL_RESULT i s :=
    fget_gangFlag_other (by decide) (by decide) (by decide) ..
  rw [ceOn_eq hh]
  split
  · exact (fget_gangFlag_other (by decide) (by decide) (by decide) ..).trans enable
  · split
    · exact enable
    · exact (fget_ceStart_other (by decide) (by decide) i _ _).trans enable

/-- R291, R293: ENABLE is 1 on every member; one that drains is enabled at the end, one that neither runs nor drains at once. -/
theorem ceOn_members (hm : m ∈ gangOf s.cfg h) : flag F.CE_CTRL_ENABLE m (ceOn h s) = true ∧
    (flag F.CE_STATUS_DRAINING h s = true → flag F.CE_STATUS_ENABLE_PENDING m (ceOn h s) = true) ∧
    (flag F.CE_STATUS_DRAINING h s = false → flag F.CE_STATUS_ENABLED h s = false →
      flag F.CE_STATUS_ENABLED m (ceOn h s) = true) := by
  have enable : flag F.CE_CTRL_ENABLE m (gangEnable h true s) = true := flag_gangFlag_same rfl hm true
  have cfg : (gangEnable h true s).cfg = s.cfg := gangFlag_cfg ..
  rw [ceOn_eq hh]
  refine ⟨?_, fun drains => ?_, fun rests off => ?_⟩
  · split
    · exact (flag_gangFlag_other (by decide) (by decide) (by decide) ..).trans enable
    · split
      · exact enable
      · exact (congrArg (· == 1) (fget_ceStart_other (by decide) (by decide) m _ _)).trans enable
  · rw [if_pos drains]
    exact flag_gangFlag_same rfl (by rwa [cfg]) true
  · rw [if_neg (by simp [rests]), if_neg (by simp [off])]
    exact flag_ceStart_enabled (by rwa [cfg]) (by rwa [cfg])

end

/-! ### Disabling (R292, R293) -/

/-- R292: the routines of an engine are abandoned: of its LIVE contexts, the one in progress, and those that wait. -/
def ceAbandon (h : Nat) (s : State) : State :=
  let s := (liveScs h s).foldl (fun s k => abandon k 1 0x0B s) s
  let s := (match (engOf h s).work with
    | some w => abandon w.sc 1 0x0B s
    | none => s)
  let ks := ((engOf h s).savedWorks.filter (fun (x : Nat × Work) => x.2.begun)).map (·.1)
  let s := ks.foldl (fun s k => abandon k 1 0x0B s) s
  engMod h (fun g => { g with swapTo := none, loaded := none, saved := true }) s

/-- R292: a member is disabled and drains. -/
def memberDrains (s : State) (m : Nat) : State :=
  setFlag F.CE_STATUS_DRAINING m true (setFlag F.CE_STATUS_ENABLED m false (setFlag F.CE_CTRL_ENABLE m false s))

/-- R292: engine `m` has been disabled and drains. -/
structure Drains (m : Nat) (s : State) : Prop where
  enable : flag F.CE_CTRL_ENABLE m s = false
  draining : flag F.CE_STATUS_DRAINING m s = true
  enabled : flag F.CE_STATUS_ENABLED m s = false

theorem memberDrains_drains (m : Nat) (s : State) : Drains m (memberDrains s m) where
  enable := by
    rw [memberDrains, flag_setFlag_other (by decide) (by decide) (by decide),
      flag_setFlag_other (by decide) (by decide) (by decide)]
    exact flag_setFlag_same _ _ _ _ rfl
  draining := flag_setFlag_same _ _ _ _ rfl
  enabled := by
    rw [memberDrains, flag_setFlag_other (by decide) (by decide) (by decide)]
    exact flag_setFlag_same _ _ _ _ rfl

theorem Drains.memberDrains {m : Nat} {s : State} (h : Drains m s) (j : Nat) : Drains m (memberDrains s j) where
  enable := by
    rw [Machine.memberDrains, flag_setFlag_other (by decide) (by decide) (by decide),
      flag_setFlag_other (by decide) (by decide) (by decide)]
    exact flag_setFlag_keeps rfl h.enable j
  draining := by
    refine flag_setFlag_keeps rfl ?_ j
    rw [flag_setFlag_other (by decide) (by decide) (by decide), flag_setFlag_other (by decide) (by decide) (by decide)]
    exact h.draining
  enabled := by
    rw [Machine.memberDrains, flag_setFlag_other (by decide) (by decide) (by decide)]
    refine flag_setFlag_keeps rfl ?_ j
    rw [flag_setFlag_other (by decide) (by decide) (by decide)]
    exact h.enabled

section
variable {h m : Nat} {s : State} (hh : gangHead s.cfg h = h)
include hh

theorem ceOff_eq : ceOff h s =
    if flag F.CE_STATUS_DRAINING h s then gangFlag F.CE_STATUS_ENABLE_PENDING h false (gangEnable h false s)
    else if flag F.CE_STATUS_ENABLED h s then (gangOf s.cfg h).foldl memberDrains (ceAbandon h s) else gangEnable h false s := by
  rw [ceOff, hh]; rfl

/-- R292, R293: ENABLE is 0 on every member; an enable that waits is withdrawn, and an engine that runs drains. -/
theorem ceOff_members (hm : m ∈ gangOf s.cfg h) : flag F.CE_CTRL_ENABLE m (ceOff h s) = false ∧
    (flag F.CE_STATUS_DRAINING h s = true → flag F.CE_STATUS_ENABLE_PENDING m (ceOff h s) = false) ∧
    (flag F.CE_STATUS_DRAINING h s = false → flag F.CE_STATUS_ENABLED h s = true →
      flag F.CE_STATUS_DRAINING m (ceOff h s) = true ∧ flag F.CE_STATUS_ENABLED m (ceOff h s) = false) := by
  have disable : flag F.CE_CTRL_ENABLE m (gangEnable h false s) = false := flag_gangFlag_same rfl hm false
  have drains : Drains m ((gangOf s.cfg h).foldl memberDrains (ceAbandon h s)) :=
    foldl_settles hm (memberDrains_drains m) (fun _ j d => d.memberDrains j) _
  rw [ceOff_eq hh]
  refine ⟨?_, fun busy => ?_, fun rests on => ?_⟩
  · split
    · exact (flag_gangFlag_other (by decide) (by decide) (by decide) ..).trans disable
    · split
      · exact drains.enable
      · exact disable
  · rw [if_pos busy]
    exact flag_gangFlag_same rfl (by rwa [gangEnable_eq, gangFlag_cfg]) false
  · rw [if_neg (by simp [rests]), if_pos on]
    exact ⟨drains.draining, drains.enabled⟩

end

/-! ### A write that is taken in OPERATE -/

section
variable {h m : Nat} {s : State} (hh : gangHead s.cfg h = h) (hm : m ∈ gangOf s.cfg h)
include hh hm

theorem ceOn_ceTaken (w : Word) : fget F.CE_CTRL_RESULT m (ceOn h (ceTaken h w s)) = 0 ∧
    flag F.CE_CTRL_ENABLE m (ceOn h (ceTaken h w s)) = true ∧
    (flag F.CE_STATUS_DRAINING h s = true → flag F.CE_STATUS_ENABLE_PENDING m (ceOn h (ceTaken h w s)) = true) ∧
    (flag F.CE_STATUS_DRAINING h s = false → flag F.CE_STATUS_ENABLED h s = false →
      flag F.CE_STATUS_ENABLED m (ceOn h (ceTaken h w s)) = true) := by
  have head : gangHead (ceTaken h w s).cfg h = h := by rwa [ceTaken_cfg]
  have members := ceOn_members head (by rwa [ceTaken_cfg])
  rw [flag_ceTaken_other (by decide) (by decide) (by decide), flag_ceTaken_other (by decide) (by decide) (by decide)] at members
  exact ⟨(fget_ceOn_result head m).trans (fget_ceTaken_result hm w), members⟩

theorem ceOff_ceTaken (w : Word) : flag F.CE_CTRL_ENABLE m (ceOff h (ceTaken h w s)) = false ∧
    (flag F.CE_STATUS_DRAINING h s = true → flag F.CE_STATUS_ENABLE_PENDING m (ceOff h (ceTaken h w s)) = false) ∧
    (flag F.CE_STATUS_DRAINING h s = false → flag F.CE_STATUS_ENABLED h s = true →
      flag F.CE_STATUS_DRAINING m (ceOff h (ceTaken h w s)) = true ∧
      flag F.CE_STATUS_ENABLED m (ceOff h (ceTaken h w s)) = false) := by
  have members := ceOff_members (s := ceTaken h w s) (by rwa [ceTaken_cfg]) (by rwa [ceTaken_cfg])
  rwa [flag_ceTaken_other (by decide) (by decide) (by decide), flag_ceTaken_other (by decide) (by decide) (by decide)] at members

end

/-! ### The end of a drain (R293) -/

/-- R293: the drain of a gang is over, and an enable that waited no longer waits. -/
def drainOver (h : Nat) (s : State) : State := gangFlag F.CE_STATUS_ENABLE_PENDING h false (gangFlag F.CE_STATUS_DRAINING h false s)

section
variable {e : Eng} {h : Nat} {s : State} (hh : h = gangHead s.cfg e) (hd : flag F.CE_STATUS_DRAINING h s = true)
include hh hd

theorem ceDrainEnd_exec : exec (.ceDrainEnd e) s = .next (if flag F.CE_STATUS_ENABLE_PENDING h s
    then engKick h (ceStart h (drainOver h s)) else gangFlag F.CE_STATUS_DRAINING h false s) := by
  subst hh
  have pending : flag F.CE_STATUS_ENABLE_PENDING (gangHead s.cfg e) (gangFlag F.CE_STATUS_DRAINING (gangHead s.cfg e) false s) =
      flag F.CE_STATUS_ENABLE_PENDING (gangHead s.cfg e) s := flag_gangFlag_other (by decide) (by decide) (by decide) ..
  refine congrArg Host.Outcome.next ((if_neg (by simp [hd])).trans ?_)
  exact if_congr (by rw [pending]) rfl rfl

end

theorem drainOver_started {h m : Nat} {s : State} (hh : gangHead s.cfg h = h) (hm : m ∈ gangOf s.cfg h) :
    flag F.CE_STATUS_DRAINING m (ceStart h (drainOver h s)) = false ∧
    flag F.CE_STATUS_ENABLE_PENDING m (ceStart h (drainOver h s)) = false ∧
    flag F.CE_STATUS_ENABLED m (ceStart h (drainOver h s)) = true := by
  have cfg : (drainOver h s).cfg = s.cfg := (gangFlag_cfg ..).trans (gangFlag_cfg ..)
  have other (f : Fld) (hf : f.key 0 ≠ F.CE_STATUS_ENABLED.key 0) (hk : f.key 0 < 16384) :
      flag f m (ceStart h (drainOver h s)) = flag f m (drainOver h s) := congrArg (· == 1) (fget_ceStart_other hf hk m _ _)
  refine ⟨(other _ (by decide) (by decide)).trans ?_, (other _ (by decide) (by decide)).trans ?_,
    flag_ceStart_enabled (by rwa [cfg]) (by rwa [cfg])⟩
  · exact (flag_gangFlag_other (by decide) (by decide) (by decide) ..).trans (flag_gangFlag_same rfl hm false)
  · exact flag_gangFlag_same rfl (by rwa [gangFlag_cfg]) false

/-! ### The statement -/

section
variable {fn : Fn} {e : Eng} {w : Word} {s : State} (hr : Reaches fn .CE_CTRL e s) {h : Nat} (hh : h = gangHead s.cfg e)
include hr hh

theorem liveExclusive_refused (hx : flag F.CE_CTRL_LIVE_EXCLUSIVE h s = false) (hc : fileHomed h s = true ∨ ceUse s.cfg h ≠ 1) :
    exec (.liveExclusive fn e w) s = .next (gangResult h 3 s) := by
  have sets : wbit F.CE_CTRL_LIVE_EXCLUSIVE (withBit w 1 true) = true :=
    wbit_withBit_same F.CE_CTRL_LIVE_EXCLUSIVE w true rfl (by decide)
  have refused : ceConflict h (withBit w 1 true) s = true := by rw [ceConflict, sets, hx]; simp [hc]
  exact congrArg Host.Outcome.next ((hostWr_reaches hr _).trans (ceCtrlWrite_refused hh refused))

theorem liveExclusive_outside (hm : s.mode ≠ .operate)
    (hx : flag F.CE_CTRL_LIVE_EXCLUSIVE h s = true ∨ (fileHomed h s = false ∧ ceUse s.cfg h = 1))
    (hc : wbit F.CE_CTRL_ENABLE w = false ∨ ceUse s.cfg h ≠ 2) :
    exec (.liveExclusive fn e w) s = .next (ceTaken h (withBit w 1 true) s) := by
  have enable : wbit F.CE_CTRL_ENABLE (withBit w 1 true) = wbit F.CE_CTRL_ENABLE w :=
    wbit_withBit_other F.CE_CTRL_ENABLE w 1 true (by decide) (by decide) (.inr (by decide))
  have taken : ceConflict h (withBit w 1 true) s = false := by
    rw [ceConflict, enable, Bool.or_eq_false_iff]
    constructor
    · rcases hx with on | ⟨none, live⟩
      · simp [on]
      · simp [none, live]
    · rcases hc with off | use
      · simp [off]
      · simp [use]
  exact congrArg Host.Outcome.next ((hostWr_reaches hr _).trans (ceCtrlWrite_outside hh taken hm))

theorem ceEnable_refused (hc : ceUse s.cfg h = 2) : exec (.ceEnable fn e w) s = .next (gangResult h 3 s) := by
  have sets : wbit F.CE_CTRL_ENABLE (withBit w 0 true) = true := wbit_withBit_same F.CE_CTRL_ENABLE w true rfl (by decide)
  have refused : ceConflict h (withBit w 0 true) s = true := by rw [ceConflict, sets, hc]; simp
  exact congrArg Host.Outcome.next ((hostWr_reaches hr _).trans (ceCtrlWrite_refused hh refused))

section
variable (hm : s.mode = .operate) (hx : wbit F.CE_CTRL_LIVE_EXCLUSIVE w = false)
include hm hx

/-- In OPERATE a write with LIVE_EXCLUSIVE 0 and ENABLE `b`, of an engine that may be enabled. -/
theorem ceCtrlWrite_enable {b : Bool} (hc : b = false ∨ ceUse s.cfg h ≠ 2) :
    hostWr fn .CE_CTRL e.val s (ceCtrlWrite e.val (withBit w 0 b)) =
      engKick h (if b then ceOn h (ceTaken h w s) else ceOff h (ceTaken h w s)) := by
  have enable : wbit F.CE_CTRL_ENABLE (withBit w 0 b) = b := wbit_withBit_same F.CE_CTRL_ENABLE w b rfl (by decide)
  have shared : wbit F.CE_CTRL_LIVE_EXCLUSIVE (withBit w 0 b) = wbit F.CE_CTRL_LIVE_EXCLUSIVE w :=
    wbit_withBit_other F.CE_CTRL_LIVE_EXCLUSIVE w 0 b (by decide) (by decide) (.inl (by decide))
  have taken : ceConflict h (withBit w 0 b) s = false := by
    rw [ceConflict, enable, shared, hx]
    rcases hc with off | use
    · simp [off]
    · simp [use]
  rw [hostWr_reaches hr, ceCtrlWrite_operate hh taken hm, enable, ceTaken, shared, ← ceTaken]

theorem ceEnable_exec (hc : ceUse s.cfg h ≠ 2) : exec (.ceEnable fn e w) s = .next (engKick h (ceOn h (ceTaken h w s))) :=
  congrArg Host.Outcome.next ((ceCtrlWrite_enable (b := true) hr hh hm hx (.inr hc)).trans (congrArg (engKick h) (if_pos rfl)))

theorem ceDisable_exec : exec (.ceDisable fn e w) s = .next (engKick h (ceOff h (ceTaken h w s))) :=
  congrArg Host.Outcome.next
    ((ceCtrlWrite_enable (b := false) hr hh hm hx (.inl rfl)).trans (congrArg (engKick h) (if_neg Bool.false_ne_true)))

end
end

/-- Settles O32: each write of CE_CTRL, refused or taken, and the end of a drain. -/
theorem engineControl : Obligations.EngineControl := by
  refine ⟨fun fn e w s hr h hh => ⟨?exclusiveRefused, ?enableRefused, ?outside, ?operate⟩, fun e s h hh hd => ⟨?ends, ?again⟩⟩
  case exclusiveRefused =>
    exact fun hx hc => .intro (liveExclusive_refused hr hh hx hc) (gangResult_spec h (by decide) s)
  case enableRefused =>
    exact fun hc => .intro (ceEnable_refused hr hh hc) (gangResult_spec h (by decide) s)
  case outside =>
    intro mode hx hc
    have sets : wbit F.CE_CTRL_LIVE_EXCLUSIVE (withBit w 1 true) = true :=
      wbit_withBit_same F.CE_CTRL_LIVE_EXCLUSIVE w true rfl (by decide)
    exact .intro (liveExclusive_outside hr hh mode hx hc)
      ⟨fun m hm => ⟨fget_ceTaken_result hm _, (flag_ceTaken_exclusive hm _).trans sets⟩, ceTaken_only ..⟩
  case operate =>
    intro mode hx u hu
    rw [show u = ceTaken h w s from hu.trans (by rw [ceTaken, hx]; rfl)]
    refine ⟨?_, ?_⟩
    · intro hc v hv
      rw [hv]
      exact ⟨ceEnable_exec hr hh mode hx hc, fun head m hm => ceOn_ceTaken head hm w⟩
    · intro v hv
      rw [hv]
      exact ⟨ceDisable_exec hr hh mode hx, fun head m hm => ceOff_ceTaken head hm w⟩
  case ends =>
    intro none
    refine .intro ((ceDrainEnd_exec hh hd).trans (congrArg _ (if_neg (by simp [none]))))
      ⟨fun m hm => flag_gangFlag_same rfl hm false, ?_⟩
    exact (OnlyFields.refl _ s).fsetEach (fun _ hm => List.mem_map_of_mem hm) _
  case again =>
    intro waits u hu
    rw [hu]
    exact ⟨(ceDrainEnd_exec hh hd).trans (congrArg _ (if_pos waits)), fun head m hm => drainOver_started head hm⟩

end Sys2Proof.Machine
end

section
/-! SUPPORT. Stream contexts: their record, their state (R262), and what the release of buffers, slots and windows leaves of
them. -/
namespace Sys2Proof.Machine

/-! ### The record and the state of a context -/

/-- Another context keeps its record. -/
theorem strm_strmMod_ne {j k : Nat} (h : j ≠ k) (g : Stream → Stream) (s : State) : strm j (strmMod k g s) = strm j s :=
  Tab.get_set_ne _ _ _ _ h

/-- R262: entering a state other than STOPPED sets the field alone. -/
theorem setScState_eq {st : Nat} (h : st ≠ 5) (k : Nat) (s : State) : setScState k st s = fset F.SC_STATE_STATE k st s := if_neg h

theorem setScState_coding {st : Nat} (h : st ≠ 5) (k : Nat) (s : State) : (setScState k st s).coding = s.coding := by
  rw [setScState_eq h, fset_coding]

theorem strm_setScState {st : Nat} (h : st ≠ 5) (j k : Nat) (s : State) : strm j (setScState k st s) = strm j s :=
  strm_congr (setScState_coding h k s)

theorem scState_setScState_same {st : Nat} (h : st < 5) (k : Nat) (s : State) : scState k (setScState k st s) = st := by
  rw [setScState_eq (by omega), scState, fget_fset_same]
  exact Nat.mod_eq_of_lt (Nat.lt_trans h (by decide))

theorem scState_setScState_ne {j k st : Nat} (hj : j ≠ k) (h : st ≠ 5) (s : State) : scState j (setScState k st s) = scState j s := by
  rw [setScState_eq h, scState, fget_fset_inst hj, scState]

theorem fget_setScState_other {f : Fld} (hf : f.key 0 ≠ F.SC_STATE_STATE.key 0) (hk : f.key 0 < 16384) {st : Nat} (h : st ≠ 5)
    (i k : Nat) (s : State) : fget f i (setScState k st s) = fget f i s := by
  rw [setScState_eq h, fget_fset_other hf (by decide) hk]

/-! ### Registers that keep their values -/

/-- Fields of other names than those listed keep their values, wherever they stand. -/
structure KeepsOthers (fs : List Fld) (s t : State) : Prop where
  fields : ∀ f : Fld, (∀ g ∈ fs, f.key 0 ≠ g.key 0) → f.key 0 < 16384 → ∀ i, fget f i t = fget f i s

namespace KeepsOthers
variable {fs : List Fld} {s t u : State}

theorem refl (fs : List Fld) (s : State) : KeepsOthers fs s s := ⟨fun _ _ _ _ => rfl⟩

theorem trans (h : KeepsOthers fs s t) (k : KeepsOthers fs t u) : KeepsOthers fs s u :=
  ⟨fun f hf hk i => (k.fields f hf hk i).trans (h.fields f hf hk i)⟩

theorem mono {gs : List Fld} (h : KeepsOthers fs s t) (hs : fs ⊆ gs) : KeepsOthers gs s t :=
  ⟨fun f hf hk => h.fields f (fun g hg => hf g (hs hg)) hk⟩

theorem of_regs (fs : List Fld) (h : t.regs = s.regs) : KeepsOthers fs s t := ⟨fun _ _ _ _ => fget_congr h⟩

theorem fset {g : Fld} (h : KeepsOthers fs s t) (hg : g ∈ fs ∧ g.key 0 < 16384) (i v : Nat) :
    KeepsOthers fs s (Machine.fset g i v t) :=
  ⟨fun f hf hk j => (fget_fset_other (hf g hg.1) hg.2 hk).trans (h.fields f hf hk j)⟩

theorem ite {c : Prop} [Decidable c] (h : KeepsOthers fs s t) (k : KeepsOthers fs s u) :
    KeepsOthers fs s (if c then t else u) := by split <;> assumption

theorem foldl {α : Type} {g : State → α → State} (h : ∀ s x, KeepsOthers fs s (g s x)) (l : List α) (s : State) :
    KeepsOthers fs s (l.foldl g s) := foldl_rel (refl fs) trans h l s

end KeepsOthers

end Sys2Proof.Machine
end

section
/-! SUPPORT and CERTIFICATE. Allocation of a stream context, its doorbell, and the fetch of its commands (R263, R266, R443,
R447); O29. -/
namespace Sys2Proof.Machine

/-! ### CG_ALLOC (R263, R443) -/

/-- The RESULT and SC that a function reads in CG_ALLOC. -/
def allocAnswer (fn r k : Nat) (s : State) : State :=
  { s with coding := { s.coding with allocOf := Tab.put s.coding.allocOf fn (r, k) } }

theorem allocAnswer_read (fn r k : Nat) (s : State) : Tab.get (0, 0) (allocAnswer fn r k s).coding.allocOf fn = (r, k) :=
  Tab.get_put_same ..

theorem strm_allocAnswer (j fn r k : Nat) (s : State) : strm j (allocAnswer fn r k s) = strm j s := rfl
theorem fget_allocAnswer (f : Fld) (i fn r k : Nat) (s : State) : fget f i (allocAnswer fn r k s) = fget f i s := rfl
theorem scState_allocAnswer (j fn r k : Nat) (s : State) : scState j (allocAnswer fn r k s) = scState j s := rfl
theorem allocAnswer_mem (fn r k : Nat) (s : State) : (allocAnswer fn r k s).mem = s.mem := rfl

/-- R263: a reserved context has empty rings and no event. -/
def ringsEmpty (k : Nat) (s : State) : State :=
  let s := fset F.SC_RING_LO_BASE_LO k 0 (fset F.SC_RING_HI_BASE_HI k 0 (fset F.SC_RING_CFG_LOG2_ENTRIES k 4 s))
  let s := fset F.SC_HEAD_HEAD k 0 (fset F.SC_STAT_HEAD_HEAD k 0 (fset F.SC_STAT_TAIL_TAIL k 0 s))
  setFlag F.SC_STATE_BAD_DOORBELL k false (setFlag F.SC_STATE_ENABLE_PENDING k false s)

/-- The record of a context that a function has reserved. -/
def reservedFor (fn : Nat) : Stream := { Stream.init with fn := fn, phase := true, srcStream := 0xFFFF }

/-- R263: context `k` is reserved for the function. -/
def scReserved (fn k : Nat) (s : State) : State := setScState k 1 (strmMod k (fun _ => reservedFor fn) (ringsEmpty k s))

/-- R443: a VF whose contexts reach its quota. -/
def quotaReached (fn : Fn) (s : State) : Bool :=
  fn.val != 0 && decide (fget F.HIF_VF_QUOTA_SC_QUOTA (fn.val - 1) s ≤ (scsOf fn s).length)

/-- The fields that a reservation sets. -/
def ringFields : List Fld := [F.SC_RING_LO_BASE_LO, F.SC_RING_HI_BASE_HI, F.SC_RING_CFG_LOG2_ENTRIES, F.SC_HEAD_HEAD,
  F.SC_STAT_HEAD_HEAD, F.SC_STAT_TAIL_TAIL, F.SC_STATE_BAD_DOORBELL, F.SC_STATE_ENABLE_PENDING]

theorem ringsEmpty_keepsOthers (k : Nat) (s : State) : KeepsOthers ringFields s (ringsEmpty k s) :=
  ((((((((KeepsOthers.refl ringFields s).fset (by decide) _ _).fset (by decide) _ _).fset (by decide) _ _).fset (by decide) _ _).fset
    (by decide) _ _).fset (by decide) _ _).fset (by decide) _ _).fset (by decide) _ _

theorem scState_ringsEmpty (j k : Nat) (s : State) : scState j (ringsEmpty k s) = scState j s :=
  (ringsEmpty_keepsOthers k s).fields F.SC_STATE_STATE (by decide) (by decide) j

theorem ringsEmpty_heads (k : Nat) (s : State) :
    fget F.SC_HEAD_HEAD k (ringsEmpty k s) = 0 ∧ fget F.SC_STAT_HEAD_HEAD k (ringsEmpty k s) = 0 := by
  constructor
  · rw [ringsEmpty, fget_setFlag_other (by decide) (by decide) (by decide), fget_setFlag_other (by decide) (by decide) (by decide),
      fget_fset_same]
    rfl
  · rw [ringsEmpty, fget_setFlag_other (by decide) (by decide) (by decide), fget_setFlag_other (by decide) (by decide) (by decide),
      fget_fset_other (by decide) (by decide) (by decide), fget_fset_same]
    rfl

/-- R263: the context is RESERVED for the function with empty rings, and no other context changes. -/
theorem scReserved_spec (fn k : Nat) (s : State) : ∀ t, t = scReserved fn k s → scState k t = 1 ∧ strm k t = reservedFor fn ∧
    fget F.SC_HEAD_HEAD k t = 0 ∧ fget F.SC_STAT_HEAD_HEAD k t = 0 ∧
    (∀ j, j ≠ k → strm j t = strm j s ∧ scState j t = scState j s) ∧ t.mem = s.mem := by
  rintro _ rfl
  have record (j : Nat) : strm j (scReserved fn k s) = strm j (strmMod k (fun _ => reservedFor fn) (ringsEmpty k s)) :=
    strm_setScState (by decide) ..
  have head (f : Fld) (hf : f.key 0 ≠ F.SC_STATE_STATE.key 0 ∧ f.key 0 < 16384) :
      fget f k (scReserved fn k s) = fget f k (ringsEmpty k s) := fget_setScState_other hf.1 hf.2 (by decide) ..
  obtain ⟨ring, stat⟩ := ringsEmpty_heads k s
  refine ⟨scState_setScState_same (by decide) .., (record k).trans (strm_strmMod_same ..), (head _ (by decide)).trans ring,
    (head _ (by decide)).trans stat, fun j hj => ⟨(record j).trans (strm_strmMod_ne hj ..), ?_⟩, ?_⟩
  · exact (scState_setScState_ne hj (by decide) _).trans (scState_ringsEmpty j k s)
  · rw [scReserved, setScState_eq (by decide)]
    rfl

section
variable {fn : Fn} {s : State} (hr : Reaches fn .CG_ALLOC 0 s)
include hr

theorem cgAlloc_exec (w : Word) : exec (.cgAlloc fn w) s = .next (cgAllocWrite fn.val s) :=
  congrArg Host.Outcome.next (hostWr_reaches hr _)

/-- R263: outside OPERATE the write answers BAD_STATE. -/
theorem cgAlloc_outside (hm : s.mode ≠ .operate) (w : Word) : Completes (.cgAlloc fn w) s fun t =>
    (Tab.get (0, 0) t.coding.allocOf fn).1 = 5 ∧ t.regs = s.regs ∧ t.coding.sc = s.coding.sc ∧ t.mem = s.mem := by
  have refused : cgAllocWrite fn.val s = allocAnswer fn 5 (Tab.get (0, 0) s.coding.allocOf fn).2 s := by
    rw [cgAllocWrite, if_pos (bne_iff_ne.2 hm)]
    rfl
  exact .intro ((cgAlloc_exec hr w).trans (congrArg _ refused)) ⟨congrArg Prod.fst (allocAnswer_read ..), rfl, rfl, rfl⟩

variable (hm : s.mode = .operate)
include hm

/-- R263, R443: in OPERATE the lowest FREE context is reserved, or the write answers NO_CONTEXT and counts. -/
theorem cgAlloc_operate (w : Word) : exec (.cgAlloc fn w) s = .next (
    match (List.range 1024).find? (fun k => scState k s == 0), quotaReached fn s with
    | some k, false => allocAnswer fn 0 k (scReserved fn k s)
    | _, _ => allocAnswer fn 4 (Tab.get (0, 0) s.coding.allocOf fn).2 (bump F.CG_NO_CONTEXT_COUNT 0 s)) := by
  rw [cgAlloc_exec hr, cgAllocWrite, if_neg (by simp [hm])]
  refine congrArg _ ?_
  cases find : (List.range 1024).find? (fun k => scState k s == 0) with
  | none => rfl
  | some k =>
    change (if quotaReached fn s then _ else _) = _
    cases quotaReached fn s <;> rfl

theorem cgAlloc_reserves {k : Nat} (hk : (List.range 1024).find? (fun k => scState k s == 0) = some k)
    (hq : quotaReached fn s = false) (w : Word) : Completes (.cgAlloc fn w) s fun t =>
      Tab.get (0, 0) t.coding.allocOf fn = (0, k) ∧ scState k s = 0 ∧ scState k t = 1 ∧ (strm k t).fn = fn ∧
      (strm k t).queue = [] ∧ fget F.SC_HEAD_HEAD k t = 0 ∧ fget F.SC_STAT_HEAD_HEAD k t = 0 ∧
      (∀ j, j ≠ k → strm j t = strm j s ∧ scState j t = scState j s) ∧ t.mem = s.mem := by
  have free : scState k s = 0 := beq_iff_eq.1 (List.find?_some (p := fun k => scState k s == 0) hk)
  obtain ⟨state, record, head, stat, others, mem⟩ := scReserved_spec fn k s _ rfl
  have reserves := cgAlloc_operate hr hm w
  rw [hk, hq] at reserves
  refine .intro reserves ⟨allocAnswer_read .., free, ?_⟩
  simp only [strm_allocAnswer, fget_allocAnswer, scState_allocAnswer, allocAnswer_mem, record]
  exact ⟨state, rfl, rfl, head, stat, others, mem⟩

theorem cgAlloc_noContext (h : (List.range 1024).find? (fun k => scState k s == 0) = none ∨ quotaReached fn s = true) (w : Word) :
    Completes (.cgAlloc fn w) s fun t => (Tab.get (0, 0) t.coding.allocOf fn).1 = 4 ∧
      fget F.CG_NO_CONTEXT_COUNT 0 t = (fget F.CG_NO_CONTEXT_COUNT 0 s + 1) % 2 ^ F.CG_NO_CONTEXT_COUNT.w ∧
      t.coding.sc = s.coding.sc ∧ KeepsFields [F.CG_NO_CONTEXT_COUNT.key 0] s t ∧ t.mem = s.mem := by
  have refused : exec (.cgAlloc fn w) s =
      .next (allocAnswer fn 4 (Tab.get (0, 0) s.coding.allocOf fn).2 (bump F.CG_NO_CONTEXT_COUNT 0 s)) := by
    rw [cgAlloc_operate hr hm]
    rcases h with none | full
    · rw [none]
    · rw [full]
      cases (List.range 1024).find? _ <;> rfl
  exact .intro refused ⟨congrArg Prod.fst (allocAnswer_read ..), fget_bump_same F.CG_NO_CONTEXT_COUNT 0 s, rfl,
    (KeepsFields.refl _ s).fset (by simp), rfl⟩

end

/-! ### SC_DOORBELL (R266) -/

section
variable {fn : Fn} {k : Sc} {w : Word} {s : State} (hr : Reaches fn .SC_DOORBELL k s) (hs : scState k s ≠ 0)
include hr hs

theorem doorbell_exec : exec (.doorbell fn k w) s = .next (
    if 2 ^ fget F.SC_RING_CFG_LOG2_ENTRIES k s ≤ wfld F.SC_DOORBELL_TAIL w then setFlag F.SC_STATE_BAD_DOORBELL k true s
    else strmMod k (fun c => { c with
      tail := if wfld F.SC_DOORBELL_TAIL w = fget F.SC_HEAD_HEAD k s then none else some (wfld F.SC_DOORBELL_TAIL w) }) s) :=
  congrArg Host.Outcome.next ((hostWr_reaches hr _).trans (if_neg hs))

theorem doorbell_beyond (h : 2 ^ fget F.SC_RING_CFG_LOG2_ENTRIES k s ≤ wfld F.SC_DOORBELL_TAIL w) :
    Completes (.doorbell fn k w) s fun t => flag F.SC_STATE_BAD_DOORBELL k t = true ∧ OnlyFields [F.SC_STATE_BAD_DOORBELL.key k] s t :=
  .intro ((doorbell_exec hr hs).trans (congrArg _ (if_pos h)))
    ⟨flag_setFlag_same _ _ _ _ rfl, (OnlyFields.refl _ s).setFlag List.mem_cons_self⟩

theorem doorbell_within (h : wfld F.SC_DOORBELL_TAIL w < 2 ^ fget F.SC_RING_CFG_LOG2_ENTRIES k s) :
    Completes (.doorbell fn k w) s fun t =>
      (strm k t).tail = (if wfld F.SC_DOORBELL_TAIL w = fget F.SC_HEAD_HEAD k s then none else some (wfld F.SC_DOORBELL_TAIL w)) ∧
      (strm k t).queue = (strm k s).queue ∧ t.regs = s.regs ∧ t.mem = s.mem :=
  .intro ((doorbell_exec hr hs).trans (congrArg _ (if_neg (Nat.not_le.2 h))))
    ⟨by rw [strm_strmMod_same], by rw [strm_strmMod_same], rfl, rfl⟩

end

/-! ### COMMAND_FETCH (R266, R447) -/

/-- Records that one fetch takes: at most 16, up to the tail and up to the end of the ring. -/
def fetchCount (given size head tail : Nat) : Nat := min given (min (min 16 ((tail + size - head) % size)) (size - head))

theorem commandFetch_exec {k : Sc} {s : State} {b : Nat} (hb : (strm k s).tail = some b) (hs : scState k s ≠ 0)
    (hd : fnD0 (strm k s).fn s = true) (rs : List Bytes) : ∀ size, size = 2 ^ fget F.SC_RING_CFG_LOG2_ENTRIES k s →
    ∀ a, a = fget F.SC_HEAD_HEAD k s → ∀ n, n = fetchCount rs.length size a b → exec (.commandFetch k rs) s =
      .next (purgeBad k (strmMod k (fun c => { c with
        queue := c.queue ++ (rs.take n).map (fitTo 64), tail := if (a + n) % size = b then none else some b })
        (fset F.SC_HEAD_HEAD k ((a + n) % size) s))) := by
  rintro _ rfl _ rfl _ rfl
  have fetches : ¬ (scState k s = 0 || !fnD0 (strm k s).fn s) = true := by simp [hs, hd]
  simp only [exec, execCommandFetch, hb]
  rw [if_neg fetches]
  rfl

theorem commandFetch_idle {k : Sc} {s : State} (h : (strm k s).tail = none ∨ scState k s = 0 ∨ fnD0 (strm k s).fn s = false)
    (rs : List Bytes) : exec (.commandFetch k rs) s = .next s := by
  simp only [exec, execCommandFetch]
  split
  · rfl
  · next b hb =>
    have rests : (scState k s = 0 || !fnD0 (strm k s).fn s) = true := by
      rcases h with none | free | low
      · simp [none] at hb
      · simp [free]
      · simp [low]
    rw [if_pos rests]

/-! ### The statement -/

/-- Settles O29: each answer of CG_ALLOC, each doorbell, and a fetch. -/
theorem streamContextsAreAllocated : Obligations.StreamContextsAreAllocated := by
  refine ⟨fun fn w s hr => ⟨fun hm => cgAlloc_outside hr hm w, ?alloc⟩,
    fun fn k w s hr hs => ⟨doorbell_beyond hr hs, doorbell_within hr hs⟩, ?fetch, fun k rs s h => .intro (commandFetch_idle h rs) rfl⟩
  case alloc =>
    intro hm o ho full hf
    rw [ho, show full = quotaReached fn s from hf]
    exact ⟨fun k hk hq => cgAlloc_reserves hr hm hk hq w, fun h => cgAlloc_noContext hr hm h w⟩
  case fetch =>
    exact fun k rs s b hb hs hd size hsize a ha n hn => commandFetch_exec hb hs hd rs size hsize a ha n hn

end Sys2Proof.Machine
end

section
/-! SUPPORT. What the end of a routine leaves: status records, buffers that return, slots that are released (R242, R271, R292,
R412) touch few registers. -/
namespace Sys2Proof.Machine

/-- The registers in which reports and returned buffers show. -/
def reportFields : List Fld := [F.POOL_FREE_COUNT, F.POOL_MIN_FREE_COUNT, F.TRC_DROPS_COUNT, F.CQ_HEAD_HEAD, F.CQ_LOST_COUNT,
  F.INT_PEND_PEND, F.INT_GRP_STATUS_STATE, F.SC_STAT_HEAD_HEAD]

/-- Reports and returned buffers leave the registers of other names. -/
abbrev Reports (s t : State) : Prop := KeepsOthers reportFields s t

theorem OnlySlots.regs {s t : State} (h : OnlySlots s t) : t.regs = s.regs := by obtain ⟨_, rfl⟩ := h; rfl
theorem OnlySlots.coding {s t : State} (h : OnlySlots s t) : t.coding = s.coding := by obtain ⟨_, rfl⟩ := h; rfl
theorem OnlySeals.coding {s t : State} (h : OnlySeals s t) : t.coding = s.coding := by obtain ⟨_, _, rfl⟩ := h.rest; rfl

/-! ### Status and completion records (R271, R431, R432) -/

/-- The registers that a completion record sets. -/
def cqFields : List Fld := [F.CQ_HEAD_HEAD, F.INT_PEND_PEND, F.INT_GRP_STATUS_STATE]

theorem strmMod_reports (k : Nat) (g : Stream → Stream) (s : State) : Reports s (strmMod k g s) := .of_regs _ rfl
theorem engMod_reports (e : Nat) (g : Engine → Engine) (s : State) : Reports s (engMod e g s) := .of_regs _ rfl

theorem cqLose_reports (q : Nat) (s : State) : Reports s (cqLose q s) :=
  (KeepsOthers.refl _ s).fset (g := F.CQ_LOST_COUNT) (by decide) ..

theorem cqWrite_keepsOthers (q : Nat) (rec : Bytes) (s : State) : KeepsOthers cqFields s (cqWrite q rec s) := by
  unfold cqWrite
  extract_lets h fl rb base s1 h' s2 s3
  have head : KeepsOthers cqFields s s2 :=
    (KeepsOthers.of_regs cqFields (s := s) (t := s1) rfl).fset (g := F.CQ_HEAD_HEAD) (by decide) ..
  have phase : KeepsOthers cqFields s s3 := head.trans (by unfold s3; split <;> exact .of_regs _ rfl)
  have pending : KeepsOthers cqFields s3 (pendSet q s3) :=
    ⟨fun _ hf hk _ => fget_pendSet_other (hf _ (by decide)) (hf _ (by decide)) hk⟩
  exact (phase.trans pending).ite phase

theorem cqWrite_reports (q : Nat) (rec : Bytes) (s : State) : Reports s (cqWrite q rec s) :=
  (cqWrite_keepsOthers q rec s).mono (by decide)

theorem statIssue_reports (k : Nat) (rec : Bytes) (irq : Bool) (s : State) : Reports s (statIssue k rec irq s) := by
  unfold statIssue
  extract_lets c h rb s1 h' s2 s3 cr
  have head : Reports s s2 := (KeepsOthers.of_regs reportFields (s := s) (t := s1) rfl).fset (g := F.SC_STAT_HEAD_HEAD) (by decide) ..
  have phase : Reports s s3 := head.trans (by unfold s3; split <;> exact .of_regs _ rfl)
  exact (phase.trans (cqLose_reports ..)).ite (phase.trans (cqWrite_reports ..))

theorem statFlush_reports (k : Nat) (s : State) : Reports s (statFlush k s) := by
  refine KeepsOthers.foldl (fun s _ => ?_) _ s
  split
  · exact .ite ((strmMod_reports k _ s).trans (statIssue_reports ..)) (.refl _ s)
  · exact .refl _ s

theorem statSend_reports (k : Nat) (rb : Bytes) (irq : Bool) (s : State) : Reports s (statSend k rb irq s) := by
  unfold statSend
  exact .ite
    (.ite ((strmMod_reports k _ s).trans (cqLose_reports ..)) (.ite (strmMod_reports k _ s) (statIssue_reports ..)))
    ((strmMod_reports k _ s).trans (statFlush_reports ..))

theorem cmdRecord_reports (k : Nat) (cmd : Bytes) (r : StatRec) (s : State) : Reports s (cmdRecord k cmd r s) :=
  (KeepsOthers.refl _ s).ite (statSend_reports ..)

theorem cmdStatus_reports (k : Nat) (cmd : Bytes) (r : StatRec) (s : State) : Reports s (cmdStatus k cmd r s) :=
  (strmMod_reports k _ s).trans (cmdRecord_reports ..)

/-! ### Buffers (R412) -/

theorem poolPut_reports (a : Nat) (s : State) : Reports s (poolPut a s) := by
  unfold poolPut
  split
  · exact .refl _ s
  · refine .ite (.refl _ s) ?_
    extract_lets s1 s2 s3
    have zeroed : Reports s s1 := by unfold s1; split <;> exact .of_regs _ rfl
    have buffer : Reports s s2 := zeroed.trans (.of_regs _ rfl)
    have free : Reports s s3 := (buffer.fset (g := F.POOL_FREE_COUNT) (by decide) ..).fset (g := F.POOL_MIN_FREE_COUNT) (by decide) ..
    exact free.trans (.of_regs _ rfl)

@[simp] theorem poolPut_coding (a : Nat) (s : State) : (poolPut a s).coding = s.coding := by
  unfold poolPut
  split
  · rfl
  · split
    · rfl
    · split <;> rfl

theorem poolPuts_coding (l : List Nat) (s : State) : (l.foldl (fun s a => poolPut a s) s).coding = s.coding :=
  foldl_keeps (φ := State.coding) (g := fun s a => poolPut a s) (fun s a _ => poolPut_coding a s) s

theorem poolPuts_reports (l : List Nat) (s : State) : Reports s (l.foldl (fun s a => poolPut a s) s) :=
  KeepsOthers.foldl (fun s a => poolPut_reports a s) l s

/-! ### Routines that end (R289, R292, R294) -/

theorem routineWord_reports (e event seg : Nat) (w : Work) (s : State) : Reports s (routineWord e event seg w s) :=
  ⟨fun _ hf hk _ => fget_routineWord_other (hf _ (by decide)) hk⟩

theorem workBufBack_reports (w : Work) (s : State) : Reports s (workBufBack w s) := (KeepsOthers.refl _ s).ite (poolPut_reports ..)

theorem dropWork_reports (k : Nat) (s : State) : Reports s (dropWork k s) := by
  unfold dropWork
  extract_lets e
  split
  · exact .refl _ s
  · next w _ =>
    extract_lets s1 s2
    have ended : Reports s (if w.begun then endWord e w true s else s) := KeepsOthers.ite (routineWord_reports ..) (.refl _ s)
    have back : Reports s s2 := ended.trans ((workBufBack_reports w _).trans (.of_regs _ rfl))
    split
    · exact .ite (back.trans (engMod_reports ..)) back
    · exact back

theorem restoreSnap_reports (k : Nat) (s : State) : Reports s (restoreSnap k s) := .of_regs _ rfl

theorem endTick_reports (k t : Nat) (s : State) : Reports s (endTick k t s) := by
  unfold endTick
  extract_lets c old s1 s2
  have freed : Reports s s1 := KeepsOthers.foldl (fun s _ => poolPut_reports _ s) old s
  have released : Reports s1 s2 := KeepsOthers.foldl (fun s n => by
    split
    · exact KeepsOthers.ite (.of_regs _ (releaseSlot_onlySlots ..).regs) (.refl _ s)
    · exact .refl _ s) _ s1
  exact freed.trans (released.trans (.of_regs _ rfl))

theorem liveGone_reports (k t status detail flags : Nat) (s : State) : Reports s (liveGone k t status detail flags s) := by
  unfold liveGone
  extract_lets _ w s1 enc s2 g _ w' pic _ r s3
  have dropped : Reports s s1 := KeepsOthers.ite (dropWork_reports ..) (.refl _ s)
  have skipped : Reports s1 s2 := by
    unfold s2
    split
    · split
      · exact (restoreSnap_reports k s1).trans (.of_regs _ rfl)
      · exact .of_regs _ rfl
    · exact .refl _ s1
  have told : Reports s2 s3 := statSend_reports ..
  refine (dropped.trans (skipped.trans told)).trans ?_
  split
  · exact endTick_reports ..
  · exact (KeepsOthers.of_regs reportFields (s := s3) (t := ausTold k s3) rfl).trans (endTick_reports ..)

theorem abandon_reports (k detail liveStatus : Nat) (s : State) : Reports s (abandon k detail liveStatus s) := by
  unfold abandon
  split
  · exact KeepsOthers.foldl (fun s _ => liveGone_reports ..) _ s
  · split
    · exact .refl _ s
    · exact ((dropWork_reports k s).trans (restoreSnap_reports ..)).trans ((strmMod_reports ..).trans (cmdStatus_reports ..))

/-! ### The picture buffer (R393, R394) -/

theorem strm_dpbDrop (k : Nat) (s : State) :
    strm k (dpbDrop k s) = { strm k s with dpb := [], outRows := [], outRecs := [] } := by
  rw [dpbDrop, strm_strmMod_same, strm_congr (poolPuts_coding ..)]

theorem dpbDrop_reports (k : Nat) (s : State) : Reports s (dpbDrop k s) := (poolPuts_reports _ s).trans (.of_regs _ rfl)

end Sys2Proof.Machine
end

section
/-! SUPPORT. How a stream context's command is run and reported (R267 to R271). -/
namespace Sys2Proof.Machine

/-! ### Commands that are taken -/

section
variable {op k : Nat} {early : Bool} {act : Bytes → State → Nat × State} {s : State} {x : Bytes × State}
  (hx : takeCmd op k early s = some x)
include hx

/-- R268, R269: a command that the state or class does not admit ends with BAD_STATE. -/
theorem runCmd_refused (ha : opAllowed op k x.2 = false) : runCmd op k early act s = cmdEnd k x.1 5 x.2 := by
  simp only [runCmd, hx, ha]
  rfl

theorem runCmd_runs (ha : opAllowed op k x.2 = true) :
    runCmd op k early act s = cmdEnd k x.1 (act x.1 x.2).1 (act x.1 x.2).2 := by
  simp only [runCmd, hx, ha]
  rfl

end

/-! ### Status records (R271) -/

/-- R271: FLAGS of a record stands in byte 0x0B. -/
theorem byteAt_statRec_flags (r : StatRec) (k : Nat) : byteAt (r.bytes k) 0x0B = r.flags % 256 := by
  obtain ⟨rest, parts⟩ : ∃ rest, r.bytes k = (leBytes 1 r.opcode ++ leBytes 1 r.status ++ leBytes 2 r.detail ++ leBytes 4 r.tag ++
      leBytes 2 k ++ leBytes 1 r.engine) ++ (leBytes 1 r.flags ++ rest) := ⟨_, by simp only [StatRec.bytes, List.append_assoc]; rfl⟩
  rw [byteAt, fieldLE, slice, parts, List.drop_left' (by simp [leBytes_length]), List.take_left' (leBytes_length ..), leNat_leBytes]
  rfl

/-- What has been sent stays sent. -/
theorem mem_out_cqWrite {o : Out} {s : State} (h : o ∈ s.out) (q : Nat) (rec : Bytes) : o ∈ (cqWrite q rec s).out := by
  have out (n : Nat) (u : State) : (pendSet n u).out = u.out := by rw [pendSet_parts]
  unfold cqWrite
  extract_lets hd fl rb base s1 h' s2 s3
  have sent : o ∈ s3.out := by
    unfold s3
    split <;> exact List.mem_cons_of_mem _ h
  split
  · rw [out]; exact sent
  · exact sent

/-- R271: the record that the ring takes: its PHASE is that of the present pass. -/
def statOut (k : Nat) (rec : Bytes) (s : State) : Out :=
  .hostWrite (strm k s).fn ((strm k s).statBase + 256 * fget F.SC_STAT_HEAD_HEAD k s)
    (splice rec 0x0B [BitVec.ofNat 8 (byteAt rec 0x0B % 128 + 128 * b2n (strm k s).phase)])

theorem statIssue_spec (k : Nat) (rec : Bytes) (irq : Bool) (s : State) : statOut k rec s ∈ (statIssue k rec irq s).out ∧
    fget F.SC_STAT_HEAD_HEAD k (statIssue k rec irq s) =
      (fget F.SC_STAT_HEAD_HEAD k s + 1) % 2 ^ (strm k s).statLog2 % 2 ^ F.SC_STAT_HEAD_HEAD.w := by
  unfold statIssue
  extract_lets c hd rb s1 h' s2 s3 cr
  have sent : statOut k rec s ∈ s3.out := by
    unfold s3
    split <;> exact List.mem_cons_self
  have head : fget F.SC_STAT_HEAD_HEAD k s3 = h' % 2 ^ F.SC_STAT_HEAD_HEAD.w := by
    have set : fget F.SC_STAT_HEAD_HEAD k s2 = h' % 2 ^ F.SC_STAT_HEAD_HEAD.w := fget_fset_same ..
    unfold s3
    split <;> exact set
  split
  · refine ⟨sent, Eq.trans ?_ head⟩
    exact fget_bump_other (by decide) (by decide) (by decide)
  · exact ⟨mem_out_cqWrite sent .., ((cqWrite_keepsOthers ..).fields F.SC_STAT_HEAD_HEAD (by decide) (by decide) k).trans head⟩

/-- R271: a FILE record that finds room, with none before it, goes to the ring. -/
theorem statSend_room {k : Nat} {s : State} (hp : (strm k s).prio ≠ 0) (hw : (strm k s).waits = []) (hr : statRoom k s = true)
    (rb : Bytes) (irq : Bool) : ∃ u, statSend k rb irq s = statIssue k rb irq u ∧ u.regs = s.regs ∧ strm k u = strm k s := by
  have queued (ws : List (Bytes × Bool)) (u : State) (hu : strm k u = { strm k s with waits := ws }) (regs : u.regs = s.regs) :
      statRoom k u = true := by
    have field (f : Fld) (i : Nat) : fget f i u = fget f i s := fget_congr regs
    rw [← hr]
    simp only [statRoom, statFull, cqOn, cqFull, cqSize, fnD0, flag, field, hu]
  have added : strm k (strmMod k (fun c => { c with waits := c.waits ++ [(rb, irq)] }) s) = { strm k s with waits := [(rb, irq)] } := by
    rw [strm_strmMod_same, hw]
    rfl
  refine ⟨strmMod k (fun c => { c with waits := [] }) (strmMod k (fun c => { c with waits := c.waits ++ [(rb, irq)] }) s), ?_, rfl, ?_⟩
  · rw [statSend, if_neg hp, statFlush, added]
    simp only [List.foldl_cons, List.foldl_nil, added]
    rw [if_pos (queued _ _ added rfl)]
  · rw [strm_strmMod_same, added, ← hw]

/-- R265: the context has completed one command more. -/
def commandCounted (k : Nat) (s : State) : State := strmMod k (fun c => { c with commands := c.commands + 1 }) s

/-- R271: the record of a command: its opcode, its tag and the time at which it ends. -/
def StatRec.ofCommand (r : StatRec) (cmd : Bytes) (at_ : Nat) : StatRec :=
  { r with opcode := byteAt cmd 0, tag := fieldLE cmd 4 4, tEnd := at_ }

/-- R267, R271: the record of a command that ends well with NO_STATUS set is left out. -/
theorem cmdStatus_silent {cmd : Bytes} {r : StatRec} (hr : r.status = 0) (hs : bit (byteAt cmd 1) 0 = true) (k : Nat) (s : State) :
    cmdStatus k cmd r s = commandCounted k s := if_pos ⟨hr, hs⟩

theorem cmdStatus_told {cmd : Bytes} (hs : bit (byteAt cmd 1) 0 = false) (r : StatRec) (k : Nat) (s : State) :
    cmdStatus k cmd r s = statSend k ((r.ofCommand cmd (nowNs s)).bytes k) (!bit (byteAt cmd 1) 1) (commandCounted k s) :=
  if_neg fun h => by simp [hs] at h

/-- R271: a FILE context with room in its rings sends the record of a command at once. -/
theorem cmdStatus_room {k : Nat} {cmd : Bytes} {r : StatRec} {s : State} (hs : bit (byteAt cmd 1) 0 = false)
    (hf : r.flags = 0) (hp : (strm k s).prio ≠ 0) (hw : (strm k s).waits = []) (hr : statRoom k s = true) :
    Out.hostWrite (strm k s).fn ((strm k s).statBase + 256 * fget F.SC_STAT_HEAD_HEAD k s)
        (splice ((r.ofCommand cmd (nowNs s)).bytes k) 0x0B [BitVec.ofNat 8 (128 * b2n (strm k s).phase)]) ∈ (cmdStatus k cmd r s).out ∧
      fget F.SC_STAT_HEAD_HEAD k (cmdStatus k cmd r s) =
        (fget F.SC_STAT_HEAD_HEAD k s + 1) % 2 ^ (strm k s).statLog2 % 2 ^ F.SC_STAT_HEAD_HEAD.w := by
  have flags : byteAt ((r.ofCommand cmd (nowNs s)).bytes k) 0x0B = 0 := by
    rw [byteAt_statRec_flags, StatRec.ofCommand, hf]
  have counted : strm k (commandCounted k s) = { strm k s with commands := (strm k s).commands + 1 } := strm_strmMod_same ..
  have room : statRoom k (commandCounted k s) = true := by
    rw [← hr]
    simp only [statRoom, statFull, counted]
    rfl
  obtain ⟨u, issued, regs, record⟩ := statSend_room (by rw [counted]; exact hp) (by rw [counted]; exact hw) room
    ((r.ofCommand cmd (nowNs s)).bytes k) (!bit (byteAt cmd 1) 1)
  have head : fget F.SC_STAT_HEAD_HEAD k u = fget F.SC_STAT_HEAD_HEAD k s :=
    fget_congr (regs.trans (strmMod_regs ..))
  have spec := statIssue_spec k ((r.ofCommand cmd (nowNs s)).bytes k) (!bit (byteAt cmd 1) 1) u
  rw [statOut, flags, record, counted, head, Nat.zero_mod, Nat.zero_add] at spec
  rw [cmdStatus_told hs, issued]
  exact spec

end Sys2Proof.Machine
end

section
/-! SUPPORT. The states that a stream context passes through: it is opened, enabled, drained, closed and freed (R262, R270, R294 to
R296). -/
namespace Sys2Proof.Machine

/-! ### Drains (R294) -/

/-- R294: a drain abandons the routine and drops what waits for output. -/
def drainDrops (k : Nat) (s : State) : State :=
  if (strm k (abandon k 2 5 s)).kind = 1 then dpbDrop k (abandon k 2 5 s) else abandon k 2 5 s

theorem scDrain_eq (k : Nat) (s : State) : scDrain k s = setScState k 4 (dropReader k (drainDrops k s)) := rfl

theorem scState_scDrain (k : Nat) (s : State) : scState k (scDrain k s) = 4 := scState_setScState_same (by decide) ..

/-- R294: the drain of a context leaves the ENABLE that waits. -/
theorem flag_scDrain_pending (k : Nat) (s : State) :
    flag F.SC_STATE_ENABLE_PENDING k (scDrain k s) = flag F.SC_STATE_ENABLE_PENDING k s := by
  have drops : Reports s (drainDrops k s) :=
    .ite ((abandon_reports k 2 5 s).trans (dpbDrop_reports ..)) (abandon_reports k 2 5 s)
  rw [scDrain_eq, flag, fget_setScState_other (by decide) (by decide) (by decide), fget_congr (dropReader_onlySlots ..).regs,
    drops.fields _ (by decide) (by decide)]
  rfl

/-- R294: a decoder that drains holds no picture. -/
theorem scDrain_dpb {k : Nat} {s : State} (h : (strm k (scDrain k s)).kind = 1) : (strm k (scDrain k s)).dpb = [] := by
  have record : strm k (scDrain k s) = strm k (drainDrops k s) := by
    rw [scDrain_eq, strm_setScState (by decide), strm_congr (dropReader_onlySlots ..).coding]
  rw [record] at h ⊢
  unfold drainDrops at h ⊢
  split at h
  · next decoder => rw [if_pos decoder, strm_dpbDrop]
  · next encoder => exact absurd h encoder

/-! ### A context is freed or closed (R296) -/

theorem scState_scFree (k : Nat) (s : State) : scState k (scFree k s) = 0 := by
  unfold scFree
  extract_lets c s1 s2 s3 s4 s5
  have set : scState k s3 = 0 := by
    rw [scState, fget_setFlag_other (by decide) (by decide) (by decide)]
    exact scState_setScState_same (by decide) ..
  have released : fget F.SC_STATE_STATE k s4 = fget F.SC_STATE_STATE k s3 := fget_congr (dropReader_onlySlots ..).regs
  have unsealed : OnlySeals s4 s5 := by
    unfold s5
    split
    · exact unsealWindows_onlySeals s4
    · exact .refl s4
  exact (unsealed.fields F.SC_STATE_STATE (by decide) (by decide) k).trans (released.trans set)

/-- R296: a freed context has the record of one that was never opened. -/
theorem strm_scFree (k : Nat) (s : State) : strm k (scFree k s) = Stream.init := Tab.get_del_same ..

/-- R296: a context that closes drains, and no ENABLE waits. -/
theorem scClose_drains {k : Nat} {s : State} (h : 2 ≤ scState k s) (cmd : Bytes) : scState k (scClose k cmd s) = 4 ∧
    flag F.SC_STATE_ENABLE_PENDING k (scClose k cmd s) = false ∧ (strm k (scClose k cmd s)).closing = some cmd := by
  rw [scClose, if_neg (by omega), if_neg (by omega)]
  extract_lets s1 s2
  have off : flag F.SC_STATE_ENABLE_PENDING k s1 = false := flag_setFlag_same _ _ _ _ rfl
  have drains : scState k s2 = 4 ∧ flag F.SC_STATE_ENABLE_PENDING k s2 = false := by
    unfold s2
    split
    · next already => exact ⟨already, off⟩
    · exact ⟨scState_scDrain .., (flag_scDrain_pending ..).trans off⟩
  exact ⟨drains.1, drains.2, by rw [strm_strmMod_same]⟩

/-! ### An ENABLE carried out (R295) -/

/-- R295: a decoder that is enabled holds no picture. -/
def enableDrops (k : Nat) (s : State) : State := if (strm k s).kind = 1 then dpbDrop k s else s

/-- R295: the record of a context that starts afresh, with the tick up to which its input is over. -/
def Stream.started (t : Option Nat) (c : Stream) : Stream :=
  if c.kind = 0 then
    { c with gop := c.gop.restart, rc := { RcSt.init with record := c.rc.record, pend := c.rc.pend }, debt := 0, fastNext := false,
             doneTick := t }
  else { c with waitIrap := true, skipRasl := false, concealing := false, debt := 0, fastNext := false, doneTick := t }

theorem scEnableDo_eq (k : Nat) (s : State) : scEnableDo k s = setScState k 3 (strmMod k
    (Stream.started (if (strm k s).prio = 0 then startTick k s else none)) (enableDrops k s)) := rfl

theorem scState_scEnableDo (k : Nat) (s : State) : scState k (scEnableDo k s) = 3 := scState_setScState_same (by decide) ..

theorem flag_scEnableDo_pending (k : Nat) (s : State) :
    flag F.SC_STATE_ENABLE_PENDING k (scEnableDo k s) = flag F.SC_STATE_ENABLE_PENDING k s := by
  have drops : Reports s (enableDrops k s) := .ite (dpbDrop_reports k s) (.refl _ s)
  rw [scEnableDo_eq, flag, fget_setScState_other (by decide) (by decide) (by decide),
    (drops.trans (strmMod_reports ..)).fields _ (by decide) (by decide)]
  rfl

/-- R295: no debt is left; an encoder's structure starts again, a decoder waits for an IRAP with no picture held. -/
theorem strm_scEnableDo (k : Nat) (s : State) : ∀ c, c = strm k (scEnableDo k s) → c.debt = 0 ∧ c.fastNext = false ∧
    ((strm k s).kind = 0 → c.gop = (strm k s).gop.restart) ∧ ((strm k s).kind = 1 → c.waitIrap = true ∧ c.dpb = []) := by
  intro c enabled
  have record : strm k (scEnableDo k s) =
      Stream.started (if (strm k s).prio = 0 then startTick k s else none) (strm k (enableDrops k s)) := by
    rw [scEnableDo_eq, strm_setScState (by decide), strm_strmMod_same]
  rw [enabled, record]
  by_cases decoder : (strm k s).kind = 1
  · have drops : strm k (enableDrops k s) = { strm k s with dpb := [], outRows := [], outRecs := [] } := by
      rw [enableDrops, if_pos decoder, strm_dpbDrop]
    simp [Stream.started, drops, decoder]
  · have drops : enableDrops k s = s := if_neg decoder
    rw [drops, Stream.started]
    split
    · exact ⟨rfl, rfl, fun _ => rfl, fun h => absurd h decoder⟩
    · next other => exact ⟨rfl, rfl, fun h => absurd h other, fun h => absurd h decoder⟩

/-! ### OPEN (R270) -/

/-- R271: the status ring and the completion queue that an OPEN names are those of its own record. -/
def openRings (k : Nat) (cmd : Bytes) (s : State) : State :=
  let log2 := bits (cmdArg cmd 3) 3 0
  let cq := bits (cmdArg cmd 0) 59 56
  let s := if cmdArg cmd 2 % 256 = 0 ∧ 4 ≤ log2 ∧ log2 ≤ 12 then
      strmMod k (fun c => { c with statBase := cmdArg cmd 2, statLog2 := log2 }) s else s
  if fget F.HIF_CQ_OWNER_OWNER cq s = (strm k s).fn then strmMod k (fun c => { c with cq := cq }) s else s

section
variable {p : Bytes} {k : Nat} {cmd : Bytes} {s : State}

theorem scOpenRun_ok {e : Nat} (h : openCheck k cmd (fitTo 64 p) (openRings k cmd s) = .inl e) :
    scOpenRun p k cmd s = (0, openDo k e cmd (fitTo 64 p) (openRings k cmd s)) := by
  unfold scOpenRun
  extract_lets log2 cq s1 s2
  have rings : s2 = openRings k cmd s := rfl
  rw [rings, h]

theorem scOpenRun_failed {st : Nat} (h : openCheck k cmd (fitTo 64 p) (openRings k cmd s) = .inr st) :
    scOpenRun p k cmd s = (st, openRings k cmd s) := by
  unfold scOpenRun
  extract_lets log2 cq s1 s2
  have rings : s2 = openRings k cmd s := rfl
  rw [rings, h]

end

/-- The registers, and the parts of a context's record that its rings do not concern, are alike. -/
structure SameStream (k : Nat) (s t : State) : Prop where
  regs : t.regs = s.regs
  kind : (strm k t).kind = (strm k s).kind
  gop : (strm k t).gop = (strm k s).gop
  fn : (strm k t).fn = (strm k s).fn

theorem SameStream.trans {k : Nat} {s t u : State} (h : SameStream k s t) (i : SameStream k t u) : SameStream k s u :=
  ⟨i.regs.trans h.regs, i.kind.trans h.kind, i.gop.trans h.gop, i.fn.trans h.fn⟩

theorem sameStream_ite (k : Nat) (c : Prop) [Decidable c] {g : Stream → Stream}
    (hg : ∀ x, (g x).kind = x.kind ∧ (g x).gop = x.gop ∧ (g x).fn = x.fn) (s : State) :
    SameStream k s (if c then strmMod k g s else s) := by
  obtain ⟨kind, gop, fn⟩ := hg (strm k s)
  split
  · refine ⟨rfl, ?_, ?_, ?_⟩ <;> rw [strm_strmMod_same] <;> assumption
  · exact ⟨rfl, rfl, rfl, rfl⟩

theorem openRings_sameStream (k : Nat) (cmd : Bytes) (s : State) : SameStream k s (openRings k cmd s) := by
  unfold openRings
  extract_lets log2 cq s1
  have ring : SameStream k s s1 := by
    refine sameStream_ite k _ ?_ s
    exact fun _ => ⟨rfl, rfl, rfl⟩
  refine ring.trans (sameStream_ite k _ ?_ s1)
  exact fun _ => ⟨rfl, rfl, rfl⟩

/-- R270: a failure of OPEN has a status other than OK. -/
theorem openCheck_ne_ok (k : Nat) (cmd p : Bytes) (s : State) : openCheck k cmd p s ≠ .inr 0 := by
  unfold openCheck
  dsimp only
  split
  · simp
  · split
    · simp
    · split_ifs <;> simp

theorem liveLoadAdd_coding (e : Nat) (d : Int) (s : State) : (liveLoadAdd e d s).coding = s.coding :=
  foldl_keeps (φ := State.coding)
    (g := fun s m => fset F.CE_LIVE_LOAD_NS m ((fget F.CE_LIVE_LOAD_NS m s : Int) + d).toNat s) (fun _ _ _ => rfl) s

/-- R270: an OPEN that succeeds makes the context READY, with the class and the record of the command. -/
theorem openDo_spec (k e : Nat) (cmd p : Bytes) (s : State) : ∀ t, t = openDo k e cmd p s → scState k t = 2 ∧
    (strm k t).kind = bits (cmdArg cmd 0) 7 0 ∧ (strm k t).codec = bits (cmdArg cmd 0) 15 8 ∧
    (strm k t).prio = bits (cmdArg cmd 0) 23 16 ∧ (strm k t).gop.params = p ∧ (strm k t).fn = (strm k s).fn := by
  intro t opened
  rw [opened]
  unfold openDo
  extract_lets a0 f live sld key b d s1 dk _ _ s2 s3
  have seals : OnlySeals s3 (if sld then sealWindows s3 else s3) := by
    split
    · exact sealWindows_onlySeals s3
    · exact .refl s3
  have drawn : s1.coding = s.coding := by
    unfold s1 d
    split <;> rfl
  have coding : s3.coding = s2.coding := by
    refine (setScState_coding (by decide) k _).trans ?_
    split
    · exact liveLoadAdd_coding ..
    · rfl
  have record : strm k (if sld then sealWindows s3 else s3) = strm k s2 := strm_congr (seals.coding.trans coding)
  have fn : (strm k s1).fn = (strm k s).fn := by rw [strm_congr drawn]
  have state : scState k (if sld then sealWindows s3 else s3) = scState k s3 := seals.fields _ (by decide) (by decide) k
  rw [record, state]
  refine ⟨scState_setScState_same (by decide) .., ?_⟩
  unfold s2
  rw [strm_strmMod_same]
  exact ⟨rfl, rfl, rfl, rfl, fn⟩

/-- R270: OPEN makes the context READY with the class and record of the command, or fails and leaves its state. -/
theorem scOpenRun_spec (p : Bytes) (k : Nat) (cmd : Bytes) (s : State) : ∀ v, v = scOpenRun p k cmd s →
    (v.1 = 0 → scState k v.2 = 2 ∧ (strm k v.2).kind = bits (cmdArg cmd 0) 7 0 ∧
      (strm k v.2).codec = bits (cmdArg cmd 0) 15 8 ∧ (strm k v.2).prio = bits (cmdArg cmd 0) 23 16 ∧
      (strm k v.2).gop.params = fitTo 64 p ∧ (strm k v.2).fn = (strm k s).fn) ∧
    (v.1 ≠ 0 → v.2.regs = s.regs ∧ (strm k v.2).kind = (strm k s).kind ∧ (strm k v.2).gop = (strm k s).gop) := by
  intro v run
  have rings := openRings_sameStream k cmd s
  cases check : openCheck k cmd (fitTo 64 p) (openRings k cmd s) with
  | inl e =>
    obtain ⟨state, kind, codec, prio, params, fn⟩ := openDo_spec k e cmd (fitTo 64 p) (openRings k cmd s) _ rfl
    rw [run, scOpenRun_ok check]
    exact ⟨fun _ => ⟨state, kind, codec, prio, params, fn.trans rings.fn⟩, fun h => absurd rfl h⟩
  | inr st =>
    have failed : st ≠ 0 := fun ok => openCheck_ne_ok k cmd (fitTo 64 p) (openRings k cmd s) (check.trans (by rw [ok]))
    rw [run, scOpenRun_failed check]
    exact ⟨fun h => absurd h failed, fun _ => ⟨rings.regs, rings.kind, rings.gop⟩⟩

end Sys2Proof.Machine
end

section
/-! SUPPORT and CERTIFICATE. The commands of a stream context that no engine runs: OPEN, CLOSE, ENABLE, DISABLE, QUERY, SET_PARAMS,
SET_RC, SET_POLICY and NOP, and commands that a state does not admit (R265, R267 to R271, R294 to R296, R314, R345, R369); O30. -/
namespace Sys2Proof.Machine

/-! ### Work that a state does not admit (R268, R269) -/

section
variable {k : Sc} {s : State} {x : Bytes × State}

theorem scEncodePicture_refused (hx : takeCmd 0x10 k false s = some x) (ha : opAllowed 0x10 k x.2 = false) :
    exec (.scEncodePicture k) s = .next (cmdEnd k x.1 5 x.2) := by
  simp only [exec, execScEncodePicture, hx, ha]
  rfl

theorem scDecodeAu_refused (hx : takeCmd 0x11 k false s = some x) (ha : opAllowed 0x11 k x.2 = false) :
    exec (.scDecodeAu k) s = .next (cmdEnd k x.1 5 x.2) := by
  simp only [exec, execScDecodeAu, hx, ha]
  rfl

theorem scFlush_refused (hx : takeCmd 0x12 k false s = some x) (ha : opAllowed 0x12 k x.2 = false) :
    exec (.scFlush k) s = .next (cmdEnd k x.1 5 x.2) := by
  simp only [exec, execScFlush, hx, ha]
  rfl

/-! ### CLOSE (R296) -/

theorem scClose_reserved (hx : takeCmd 0x02 k true s = some x) (hs : scState k x.2 = 1) :
    exec (.scClose k) s = .next (scFree k x.2) := by
  simp only [exec, execScClose, hx]
  rw [if_neg (by omega), if_pos hs]

theorem scClose_closes (hx : takeCmd 0x02 k true s = some x) (hs : 2 ≤ scState k x.2) :
    exec (.scClose k) s = .next (engKick (strm k x.2).engine (cmdEnd k x.1 0 (scClose k x.1 x.2))) := by
  simp only [exec, execScClose, hx]
  rw [if_neg (by omega), if_neg (by omega)]

/-! ### OPEN, ENABLE, DISABLE and QUERY (R265, R270, R294, R295) -/

theorem scOpen_runs {r : Bytes} (hx : takeCmd 0x01 k false s = some x) (hs : scState k x.2 = 1) :
    exec (.scOpen k r) s = .next (cmdEnd k x.1 (scOpenRun r k x.1 x.2).1 (scOpenRun r k x.1 x.2).2) :=
  congrArg Host.Outcome.next (runCmd_runs hx (beq_iff_eq.2 hs))

theorem scEnable_runs (hx : takeCmd 0x03 k false s = some x) (hs : scState k x.2 = 2) :
    exec (.scEnable k) s = .next (cmdEnd k x.1 0 (scEnableDo k x.2)) := by
  refine congrArg Host.Outcome.next ((runCmd_runs hx (by simp [opAllowed, hs])).trans ?_)
  rw [if_neg (by omega)]

theorem scEnable_waits (hx : takeCmd 0x03 k false s = some x) (hs : scState k x.2 = 4) :
    exec (.scEnable k) s = .next (cmdEnd k x.1 0 (setFlag F.SC_STATE_ENABLE_PENDING k true x.2)) := by
  refine congrArg Host.Outcome.next ((runCmd_runs hx (by simp [opAllowed, hs])).trans ?_)
  rw [if_pos hs]

theorem scDisable_runs (hx : takeCmd 0x04 k true s = some x) (hs : scState k x.2 = 3 ∨ scState k x.2 = 5) :
    exec (.scDisable k) s = .next (cmdEnd k x.1 0 (engKick (strm k x.2).engine (scDrain k x.2))) := by
  refine congrArg Host.Outcome.next ((runCmd_runs hx ?_).trans ?_)
  · rcases hs with h | h <;> simp [opAllowed, h]
  · dsimp only

theorem scQuery_runs (hx : takeCmd 0x05 k false s = some x) (hs : 2 ≤ scState k x.2) (hd : fnD0 (strm k x.2).fn x.2 = true) :
    exec (.scQuery k) s =
      .next (cmdEnd k x.1 0 (emit (.hostWrite (strm k x.2).fn (cmdArg x.1 0) (scDescriptor k x.2)) x.2)) := by
  refine congrArg Host.Outcome.next ((runCmd_runs hx (by simp [opAllowed, hs])).trans ?_)
  rw [if_pos hd]

/-! ### SET_POLICY (R269) -/

section
variable (hx : takeCmd 0x08 k false s = some x) (hs : scState k x.2 = 2 ∨ scState k x.2 = 3 ∨ scState k x.2 = 5)
include hx hs

theorem scSetPolicy_exec : exec (.scSetPolicy k) s = .next (
    if 1 < cmdArg x.1 0 % 256 ∨ 1 < cmdArg x.1 0 / 256 % 256 ∨ (cmdArg x.1 0 / 256 % 256 = 1 ∧ (strm k x.2).prio ≠ 0) then
      cmdEnd k x.1 6 x.2
    else cmdEnd k x.1 0 (strmMod k (fun c => { c with
      overrun := cmdArg x.1 0 % 256, errPolicy := cmdArg x.1 0 / 256 % 256 }) x.2)) := by
  refine congrArg Host.Outcome.next ((runCmd_runs hx (by rcases hs with h | h | h <;> simp [opAllowed, h])).trans ?_)
  dsimp only
  split <;> rfl

theorem scSetPolicy_sets (ho : cmdArg x.1 0 % 256 ≤ 1) (hp : cmdArg x.1 0 / 256 % 256 ≤ 1)
    (hl : cmdArg x.1 0 / 256 % 256 = 0 ∨ (strm k x.2).prio = 0) : exec (.scSetPolicy k) s =
      .next (cmdEnd k x.1 0 (strmMod k (fun c => { c with
        overrun := cmdArg x.1 0 % 256, errPolicy := cmdArg x.1 0 / 256 % 256 }) x.2)) := by
  rw [scSetPolicy_exec hx hs, if_neg (by omega)]

end

/-! ### NOP (R269, R271) -/

theorem scNop_runs (hx : takeCmd 0x3F k false s = some x) (hs : 2 ≤ scState k x.2) : exec (.scNop k) s =
    .next (purgeBad k (cmdStatus k x.1 { engine := (strm k x.2).engine, tStart := nowNs x.2 } x.2)) := by
  refine congrArg Host.Outcome.next ((runCmd_runs hx (by simp [opAllowed, hs])).trans ?_)
  simp only [cmdEnd, Nat.zero_mod, Nat.zero_div]

end

/-! ### SET_PARAMS and SET_RC (R314, R345, R346, R369) -/

/-- R346: a change of budget changes a context's record in its budget alone. -/
theorem strm_budgetTo (k b : Nat) (s : State) : ∃ n, strm k (budgetTo k b s).2 = { strm k s with budget := n } := by
  unfold budgetTo
  dsimp only
  split
  · exact ⟨_, rfl⟩
  · split
    · exact ⟨_, rfl⟩
    · exact ⟨b, by rw [strm_strmMod_same, strm_congr (liveLoadAdd_coding ..)]⟩

/-- R314, R369: what SET_PARAMS may answer: it fails and changes nothing, or the record of an encoder waits, or that of a decoder
is in force. -/
structure ParamsAnswer (p : Bytes) (k : Nat) (cmd : Bytes) (s : State) (v : Nat × State) : Prop where
  failed : v.1 ≠ 0 → v.2 = s
  addr : v.1 = 0 → (strm k v.2).paramAddr = cmdArg cmd 0
  encoder : v.1 = 0 → (strm k s).kind = 0 → (strm k v.2).gop.pend = some ⟨p, bit (cmdArg cmd 1) 0⟩ ∧
    (strm k v.2).gop.params = (strm k s).gop.params
  decoder : v.1 = 0 → (strm k s).kind ≠ 0 → (strm k v.2).gop.params = p

theorem ParamsAnswer.refused {p : Bytes} {k : Nat} {cmd : Bytes} {s : State} {st : Nat} (h : st ≠ 0) :
    ParamsAnswer p k cmd s (st, s) :=
  ⟨fun _ => rfl, fun ok => absurd ok h, fun ok => absurd ok h, fun ok => absurd ok h⟩

theorem setParamsRun_answer (rec : Bytes) (k : Nat) (cmd : Bytes) (s : State) :
    ParamsAnswer (fitTo 64 rec) k cmd s (setParamsRun rec k cmd s) := by
  unfold setParamsRun
  extract_lets c p live at_ cap x y
  split
  · exact .refused (by decide)
  · split
    · next encoder =>
      split
      · exact .refused (by decide)
      · split
        · exact .refused (by decide)
        · obtain ⟨n, budget⟩ := strm_budgetTo k (liveBudget 0 c.engine c.codec p cap s) s
          split
          · exact .refused (by decide)
          · refine ⟨fun h => absurd rfl h, fun _ => ?_, fun _ _ => ?_, fun _ h => absurd encoder h⟩
            · rw [strm_strmMod_same]
            · rw [strm_strmMod_same, budget]
              exact ⟨rfl, rfl⟩
    · next decoder =>
      split
      · exact .refused (by decide)
      · split
        · exact .refused (by decide)
        · refine ⟨fun h => absurd rfl h, fun _ => ?_, fun _ h => absurd h decoder, fun _ _ => ?_⟩ <;> rw [strm_strmMod_same]

/-- R345: what SET_RC may answer: it fails and changes nothing, or the record waits. -/
structure RcAnswer (r : Bytes) (k : Nat) (s : State) (v : Nat × State) : Prop where
  failed : v.1 ≠ 0 → v.2 = s
  waits : v.1 = 0 → (strm k v.2).rc.pend.map (·.record) = some r ∧ (strm k v.2).rc.record = (strm k s).rc.record

theorem RcAnswer.refused {r : Bytes} {k : Nat} {s : State} {st : Nat} (h : st ≠ 0) : RcAnswer r k s (st, s) :=
  ⟨fun _ => rfl, fun ok => absurd ok h⟩

theorem setRcRun_answer (rec : Bytes) (k : Nat) (cmd : Bytes) (s : State) :
    RcAnswer (fitTo 64 rec) k s (setRcRun rec k cmd s) := by
  unfold setRcRun
  extract_lets c r t p x
  split
  · exact .refused (by decide)
  · split
    · exact .refused (by decide)
    · obtain ⟨n, budget⟩ := strm_budgetTo k (liveBudget 0 c.engine c.codec p (rcCapBits r) s) s
      refine ⟨fun h => absurd rfl h, fun _ => ?_⟩
      rw [strm_strmMod_same, budget]
      exact ⟨rfl, rfl⟩

/-! ### The statement -/

/-- Settles O30: each command by its own rule above. -/
theorem streamContextCommands : Obligations.StreamContextCommands := by
  intro k r s
  have refused {op : Nat} {early : Bool} {act : Bytes → State → Nat × State} (x : Bytes × State)
      (hx : takeCmd op k early s = some x) (ha : opAllowed op k x.2 = false) :
      (Host.Outcome.next (runCmd op k early act s) : Host.Outcome State Fault Refusal) = .next (cmdEnd k x.1 5 x.2) :=
    congrArg _ (runCmd_refused hx ha)
  refine ⟨refused, refused, refused, refused, refused, refused, fun x => scEncodePicture_refused, fun x => scDecodeAu_refused,
    fun x => scFlush_refused, refused, refused, refused, ?opens, fun x hx hs => ⟨scClose_reserved hx hs, scState_scFree k x.2⟩,
    ?closes, ?enables, fun x hx hs u hu => hu ▸ scEnable_waits hx hs, ?disables, fun x => scQuery_runs, ?params, ?rc, ?policy, ?nop⟩
  case opens =>
    intro x hx hs v hv
    exact ⟨hv ▸ scOpen_runs hx hs, scOpenRun_spec r k x.1 x.2 v hv⟩
  case closes =>
    intro x hx hs u hu
    rw [hu]
    exact ⟨scClose_closes hx hs, scClose_drains hs x.1⟩
  case enables =>
    intro x hx hs u hu
    rw [hu]
    exact ⟨scEnable_runs hx hs, scState_scEnableDo k x.2, strm_scEnableDo k x.2 _ rfl⟩
  case disables =>
    intro x hx hs u hu
    rw [hu]
    exact ⟨scDisable_runs hx hs, scState_scDrain k x.2, scDrain_dpb⟩
  case params =>
    intro x hx hs v hv
    rw [hv]
    obtain ⟨failed, addr, encoder, decoder⟩ := setParamsRun_answer r k x.1 x.2
    exact ⟨congrArg _ (runCmd_runs hx (by rcases hs with h | h <;> simp [opAllowed, h])), failed,
      fun ok => ⟨addr ok, encoder ok, decoder ok⟩⟩
  case rc =>
    intro x hx encoder hs v hv
    rw [hv]
    obtain ⟨failed, waits⟩ := setRcRun_answer r k x.1 x.2
    exact ⟨congrArg _ (runCmd_runs hx (by rcases hs with h | h <;> simp [opAllowed, encoder, h])), failed, waits⟩
  case policy =>
    intro x hx hs o ho p hp
    rw [ho, hp]
    exact ⟨fun bad => (scSetPolicy_exec hx hs).trans (congrArg _ (if_pos bad)), fun ho hp hl => scSetPolicy_sets hx hs ho hp hl⟩
  case nop =>
    intro x hx hs v hv
    rw [hv]
    exact ⟨scNop_runs hx hs, fun silent => cmdStatus_silent rfl silent k x.2,
      fun told file none room => cmdStatus_room told rfl file none room⟩

end Sys2Proof.Machine
end

section
/-! SUPPORT and CERTIFICATE. Pictures, access units, FLUSH, KEY_PICTURE, RELEASE_OUTPUT and RESTART, the end of a drain, and a tick
without an access unit (R269, R294 to R296, R311, R316, R318, R372, R375, R388, R393); O31. -/
namespace Sys2Proof.Machine

section
variable {k : Sc} {s : State} {x : Bytes × State}

/-! ### ENCODE_PICTURE and DECODE_AU (R311, R316, R372) -/

/-- R311, R316: a picture is refused, held, or waits for its engine. -/
theorem scEncodePicture_exec (hx : takeCmd 0x10 k false s = some x) (ha : opAllowed 0x10 k x.2 = true) :
    ∀ g, g = (strm k x.2).gop.feed (cmdArg x.1 4) x.1 x.2.time.cclk → exec (.scEncodePicture k) s = .next (
      if planesOk (nextParams (strm k x.2) g) x.1 = false then cmdEnd k x.1 6 x.2
      else if g.1 = [] then cmdEnd k x.1 0 (strmMod k (fun c => { c with gop := g.2 }) x.2)
      else purgeAll (submit k x.1 { Work.blank with sc := k, kind := 1, cmd := x.1 } x.2)) := by
  intro g hg
  rw [hg]
  simp only [exec, execScEncodePicture, hx]
  rw [if_neg (by simp [ha])]
  simp only [Bool.not_eq_true', List.isEmpty_iff]

theorem scDecodeAu_exec (hx : takeCmd 0x11 k false s = some x) (ha : opAllowed 0x11 k x.2 = true)
    (hl : cmdArg x.1 1 % 2 ^ 32 ≤ pMaxAu (strm k x.2).gop.params) : exec (.scDecodeAu k) s = .next (purgeAll (submit k x.1
      { Work.blank with
        sc := k, kind := 2, cmd := x.1
        dec := { DecWork.blank with addr := cmdArg x.1 0, len := cmdArg x.1 1 % 2 ^ 32, damaged := bit (cmdArg x.1 1) 32,
                                    eos := bit (cmdArg x.1 1) 33, pts := cmdArg x.1 2 } } x.2)) := by
  simp only [exec, execScDecodeAu, hx]
  rw [if_neg (by simp [ha]), if_neg (Nat.not_lt.2 hl)]

/-! ### FLUSH (R269) -/

theorem scFlush_exec (hx : takeCmd 0x12 k false s = some x) (ha : opAllowed 0x12 k x.2 = true) : exec (.scFlush k) s = .next (
    if (strm k x.2).kind = 1 then cmdEnd k x.1 0 (strmMod k (fun c => { c with waitIrap := true }) (dpbFlush k x.2))
    else if (strm k x.2).gop.held = [] then cmdEnd k x.1 0 x.2
    else purgeAll (submit k x.1 { Work.blank with sc := k, kind := 1, cmd := x.1 } x.2)) := by
  simp only [exec, execScFlush, hx]
  rw [if_neg (by simp [ha])]
  simp only [List.isEmpty_iff]

/-! ### KEY_PICTURE (R318) -/

theorem keyAsk_keyReq (g : GopSt) (now : Nat) (early : Bool) : (g.keyAsk now early).keyReq = true := by
  unfold GopSt.keyAsk
  split
  · assumption
  · rfl

/-- R318: a key picture is asked for. -/
def keyAsked (k : Nat) (s : State) : State := strmMod k (fun c => { c with gop := c.gop.keyAsk s.time.cclk (morePictures k s) }) s

theorem keyAsked_keyReq (k : Nat) (s : State) : (strm k (keyAsked k s)).gop.keyReq = true := by
  rw [keyAsked, strm_strmMod_same]
  exact keyAsk_keyReq ..

theorem scKeyPicture_exec (hx : takeCmd 0x13 k true s = some x) (ha : opAllowed 0x13 k x.2 = true) :
    exec (.scKeyPicture k) s = .next (cmdEnd k x.1 0 (keyAsked k x.2)) :=
  congrArg Host.Outcome.next ((runCmd_runs hx ha).trans (by dsimp only; rfl))

/-! ### RELEASE_OUTPUT (R375) -/

/-- R375: the host holds the output buffer no longer. -/
def outputReleased (k a : Nat) (s : State) : State := strmMod k (fun c => { c with hostBufs := c.hostBufs.filter (· != a) }) s

section
variable (hx : takeCmd 0x14 k false s = some x) (ha : opAllowed 0x14 k x.2 = true)
include hx ha

theorem scReleaseOutput_notHeld (hh : cmdArg x.1 0 ∉ (strm k x.2).hostBufs) :
    exec (.scReleaseOutput k) s = .next (cmdEnd k x.1 6 x.2) := by
  refine congrArg Host.Outcome.next ((runCmd_runs hx ha).trans ?_)
  dsimp only
  rw [if_pos (by simpa using hh)]

theorem scReleaseOutput_held (hh : cmdArg x.1 0 ∈ (strm k x.2).hostBufs) : exec (.scReleaseOutput k) s = .next (cmdEnd k x.1 0 (
    if (strm k x.2).dpb.any (fun p => p.buf == cmdArg x.1 0 + 1) then outputReleased k (cmdArg x.1 0) x.2
    else poolPut (cmdArg x.1 0) (outputReleased k (cmdArg x.1 0) x.2))) := by
  refine congrArg Host.Outcome.next ((runCmd_runs hx ha).trans ?_)
  dsimp only
  rw [if_neg (by simpa using hh)]
  rfl

end

/-! ### RESTART (R393) -/

/-- R393: a stopped decoder holds no picture, waits for an IRAP and is ACTIVE. -/
def restarted (k : Nat) (flush : Bool) (s : State) : State :=
  setScState k 3 (strmMod k (fun c => { c with waitIrap := true }) (dpbDrop k (if flush then dpbFlush k s else s)))

theorem restarted_spec (k : Nat) (flush : Bool) (s : State) : scState k (restarted k flush s) = 3 ∧
    (strm k (restarted k flush s)).waitIrap = true ∧ (strm k (restarted k flush s)).dpb = [] := by
  have record : strm k (restarted k flush s) =
      { strm k (dpbDrop k (if flush then dpbFlush k s else s)) with waitIrap := true } := by
    rw [restarted, strm_setScState (by decide), strm_strmMod_same]
  refine ⟨scState_setScState_same (by decide) .., ?_⟩
  rw [record, strm_dpbDrop]
  exact ⟨rfl, rfl⟩

theorem scRestart_exec (hx : takeCmd 0x15 k false s = some x) (ha : opAllowed 0x15 k x.2 = true) :
    exec (.scRestart k) s = .next (cmdEnd k x.1 0 (restarted k (bit (cmdArg x.1 0) 0) x.2)) :=
  congrArg Host.Outcome.next ((runCmd_runs hx ha).trans (by dsimp only; rfl))

end

/-! ### The end of a drain (R294 to R296) -/

section
variable {k : Sc} {s : State} (hs : scState k s = 4)
include hs

/-- R294: a context that drained is READY. -/
theorem scDrainEnd_ready (hc : (strm k s).closing = none) (hp : flag F.SC_STATE_ENABLE_PENDING k s = false) :
    Completes (.scDrainEnd k) s fun t => scState k t = 2 ∧ OnlyFields [F.SC_STATE_STATE.key k] s t := by
  have ready := setScState_eq (st := 2) (by decide) k s
  have pending : flag F.SC_STATE_ENABLE_PENDING k (setScState k 2 s) = false := by
    rw [ready, flag_fset_other (by decide) (by decide) (by decide), hp]
  have drained : scDrained k s = setScState k 2 s := by
    rw [scDrained, if_neg (by omega), hc]
    dsimp only
    rw [if_neg (by simp [pending])]
  refine .intro (congrArg Host.Outcome.next drained) ⟨scState_setScState_same (by decide) .., ?_⟩
  rw [ready]
  exact (OnlyFields.refl _ s).fset List.mem_cons_self

/-- R295: an ENABLE that waited is carried out. -/
theorem scDrainEnd_enables (hc : (strm k s).closing = none) (hp : flag F.SC_STATE_ENABLE_PENDING k s = true) :
    Completes (.scDrainEnd k) s fun t =>
      scState k t = 3 ∧ flag F.SC_STATE_ENABLE_PENDING k t = false ∧ (strm k t).debt = 0 := by
  have pending : flag F.SC_STATE_ENABLE_PENDING k (setScState k 2 s) = true := by
    rw [setScState_eq (by decide), flag_fset_other (by decide) (by decide) (by decide), hp]
  have drained : scDrained k s = scEnableDo k (setFlag F.SC_STATE_ENABLE_PENDING k false (setScState k 2 s)) := by
    rw [scDrained, if_neg (by omega), hc]
    dsimp only
    rw [if_pos pending]
  obtain ⟨debt, -⟩ := strm_scEnableDo k (setFlag F.SC_STATE_ENABLE_PENDING k false (setScState k 2 s)) _ rfl
  exact .intro (congrArg Host.Outcome.next drained) ⟨scState_scEnableDo ..,
    (flag_scEnableDo_pending ..).trans (flag_setFlag_same _ _ _ _ rfl), debt⟩

/-- R296: a context that closes is freed once no record waits. -/
theorem scDrainEnd_frees {c : Bytes} (hc : (strm k s).closing = some c) (hw : (strm k s).waits = []) :
    Completes (.scDrainEnd k) s fun t => scState k t = 0 ∧ strm k t = Stream.init := by
  have told : statFlush k s = s := by rw [statFlush, hw, List.foldl_nil]
  have drained : scDrained k s = scFree k s := by
    rw [scDrained, if_neg (by omega), hc]
    dsimp only
    rw [told, if_neg (by simp [hw])]
  exact .intro (congrArg Host.Outcome.next drained) ⟨scState_scFree k s, strm_scFree k s⟩

end

/-! ### A tick without an access unit (R388) -/

theorem decodeUnderrun_repeats {k : Sc} {s : State} {d : Nat} (hp : (strm k s).prio = 0) (hk : (strm k s).kind = 1)
    (ht : Tab.get false s.time.tickSeen (strm k s).td = true) (hd : (strm k s).doneTick = some d)
    (hn : d + 3 ≤ tickIdx (strm k s).td s) (hl : d + 1 ∉ liveTicks k s) (hs : scState k s = 3) :
    exec (.decodeUnderrun k) s =
      .next (liveRepeat k { Work.blank with sc := k, kind := 2, tick := d + 1 } 0 4 (some (faultAt 7 0 0)) s) := by
  have early : ¬ tickIdx (strm k s).td s < 2 := by omega
  have passed : ¬ tickIdx (strm k s).td s < d + 1 + 2 := by omega
  simp only [exec, execDecodeUnderrun, hd]
  rw [if_neg (by simp [hp, hk, ht, early]), if_neg (by simp [passed, hl]), if_pos hs]

/-! ### The statement -/

/-- Settles O31: each command, the ends of a drain and an underrun by their own rules above. -/
theorem streamWorkCommands : Obligations.StreamWorkCommands := by
  intro k s
  refine ⟨?encode, fun x hx ha hl => scDecodeAu_exec hx ha hl, ?flush, ?key, ?release, ?restart, scDrainEnd_ready, scDrainEnd_enables,
    fun c hs hc hw => scDrainEnd_frees hs hc hw, fun d hp hk ht hd hn hl hs => decodeUnderrun_repeats hp hk ht hd hn hl hs⟩
  case encode =>
    intro x hx ha g hg
    rw [scEncodePicture_exec hx ha g hg]
    refine ⟨fun bad => by rw [if_pos bad], fun ok held => ?_, fun ok works => ?_⟩
    · rw [if_neg (by simp [ok]), if_pos held]
    · rw [if_neg (by simp [ok]), if_neg works]
  case flush =>
    intro x hx ha
    rw [scFlush_exec hx ha]
    refine ⟨fun decoder => by rw [if_pos decoder], fun encoder none => ?_, fun encoder held => ?_⟩
    · rw [if_neg (by omega), if_pos none]
    · rw [if_neg (by omega), if_neg held]
  case key =>
    intro x hx ha u hu
    rw [show u = keyAsked k x.2 from hu]
    exact ⟨scKeyPicture_exec hx ha, keyAsked_keyReq k x.2⟩
  case release =>
    intro x hx ha
    refine ⟨fun hh => scReleaseOutput_notHeld hx ha hh, fun hh u hu => ?_⟩
    rw [show u = outputReleased k (cmdArg x.1 0) x.2 from hu, scReleaseOutput_held hx ha hh]
    refine ⟨fun unheld => ?_, fun held => by rw [if_pos held]⟩
    rw [if_neg]
    simpa using unheld
  case restart =>
    intro x hx ha u hu
    rw [show u = restarted k (bit (cmdArg x.1 0) 0) x.2 from hu]
    exact ⟨scRestart_exec hx ha, restarted_spec ..⟩

end Sys2Proof.Machine
end

section
/-! SUPPORT. An answer in one field: the value that it reads, and that nothing else changes. -/
namespace Sys2Proof.Machine

/-- A field that takes a value of its width reads it, and nothing else changes. -/
theorem fset_answers {f : Fld} {v : Nat} (h : v < 2 ^ f.w) (i : Nat) (s : State) :
    fget f i (fset f i v s) = v ∧ OnlyFields [f.key i] s (fset f i v s) :=
  ⟨(fget_fset_same f i v s).trans (Nat.mod_eq_of_lt h), (OnlyFields.refl _ s).fset List.mem_cons_self⟩

/-- A flag that takes a value has it, and nothing else changes. -/
theorem setFlag_answers {f : Fld} (h : f.w = 1) (i : Nat) (b : Bool) (s : State) :
    flag f i (setFlag f i b s) = b ∧ OnlyFields [f.key i] s (setFlag f i b s) :=
  ⟨flag_setFlag_same f i b s h, (OnlyFields.refl _ s).setFlag List.mem_cons_self⟩

end Sys2Proof.Machine
end
section
/-! SUPPORT and CERTIFICATE. The scratch windows: CE_WIN_CFG, ALLOC and FREE (R405, R406); O35. -/
namespace Sys2Proof.Machine

/-! ### CE_WIN_CFG (R405) -/

/-- The range and its writer, as a write of CE_WIN_CFG stores them. -/
theorem winCfg_stores (fn : Fn) (i : Nat) (w : Word) {s : State} (h : winExists s i = false) : ∀ t, t = winCfg fn i w s →
    fget F.CE_WIN_CFG_BASE_U i t = wfld F.CE_WIN_CFG_BASE_U w ∧ fget F.CE_WIN_CFG_SIZE_U i t = wfld F.CE_WIN_CFG_SIZE_U w ∧
    fget F.CE_WIN_CFG_WRITER i t = fn.val ∧
    OnlyFields [F.CE_WIN_CFG_BASE_U.key i, F.CE_WIN_CFG_SIZE_U.key i, F.CE_WIN_CFG_WRITER.key i] s t := by
  rintro _ rfl
  rw [winCfg, if_neg (ne_true_of_eq_false h)]
  refine ⟨?base, ?size, ?writer, (((OnlyFields.refl _ s).fset ?_).fset ?_).fset ?_⟩
  case base =>
    rw [fget_fset_other (by decide) (by decide) (by decide), fget_fset_other (by decide) (by decide) (by decide), fget_fset_same]
    exact Nat.mod_eq_of_lt (wfld_lt _ w (by decide))
  case size =>
    rw [fget_fset_other (by decide) (by decide) (by decide), fget_fset_same]
    exact Nat.mod_eq_of_lt (wfld_lt _ w (by decide))
  case writer => exact (fget_fset_same ..).trans (Nat.mod_eq_of_lt (Nat.lt_trans fn.isLt (by decide)))
  all_goals simp

theorem winCfg_exists (fn i : Nat) (w : Word) {s : State} (h : winExists s i = true) : winCfg fn i w s = s := if_pos h

/-! ### CE_WIN_CTRL (R405, R406) -/

/-- R405: the window belongs to the function, with its USE. -/
def winGiven (fn i use : Nat) (s : State) : State :=
  let s := fset F.CE_WIN_STATUS_OWNER i fn (setFlag F.CE_WIN_STATUS_ALLOCATED i true (fset F.CE_WIN_CTRL_USE i use s))
  { s with mem := { s.mem with winUse := Tab.put s.mem.winUse i use } }

section
variable {fn i : Nat} {w : Word} {s : State}

theorem winCtrl_both (ha : wbit F.CE_WIN_CTRL_ALLOC w = true) (hf : wbit F.CE_WIN_CTRL_FREE w = true) :
    winCtrl fn i w s = fset F.CE_WIN_CTRL_RESULT i 6 s := by
  rw [winCtrl, ha, hf]; rfl

theorem winCtrl_alloc (ha : wbit F.CE_WIN_CTRL_ALLOC w = true) (hf : wbit F.CE_WIN_CTRL_FREE w = false) :
    winCtrl fn i w s = if winAllocCheck fn i (wfld F.CE_WIN_CTRL_USE w) s ≠ 0
      then fset F.CE_WIN_CTRL_RESULT i (winAllocCheck fn i (wfld F.CE_WIN_CTRL_USE w) s) s
      else fset F.CE_WIN_CTRL_RESULT i 0 (winGiven fn i (wfld F.CE_WIN_CTRL_USE w) s) := by
  rw [winCtrl, ha, hf]; rfl

theorem winCtrl_free (ha : wbit F.CE_WIN_CTRL_ALLOC w = false) (hf : wbit F.CE_WIN_CTRL_FREE w = true) :
    winCtrl fn i w s = if winFreeCheck fn i s ≠ 0 then fset F.CE_WIN_CTRL_RESULT i (winFreeCheck fn i s) s
      else fset F.CE_WIN_CTRL_RESULT i 0 (winRelease i (fset F.CE_WIN_CTRL_USE i (wfld F.CE_WIN_CTRL_USE w) s)) := by
  rw [winCtrl, ha, hf]; rfl

end

theorem winAllocCheck_lt (fn i use : Nat) (s : State) : winAllocCheck fn i use s < 256 := by
  unfold winAllocCheck
  dsimp only
  split_ifs <;> decide

theorem winFreeCheck_lt (fn i : Nat) (s : State) : winFreeCheck fn i s < 256 := by
  unfold winFreeCheck
  split_ifs <;> decide

/-- R406: what an ALLOC that passes answers. -/
theorem winGiven_spec (fn : Fn) (i : Nat) {use : Nat} (hu : use < 4) (s : State) :
    ∀ t, t = fset F.CE_WIN_CTRL_RESULT i 0 (winGiven fn i use s) →
    fget F.CE_WIN_CTRL_RESULT i t = 0 ∧ flag F.CE_WIN_STATUS_ALLOCATED i t = true ∧ fget F.CE_WIN_STATUS_OWNER i t = fn.val ∧
    fget F.CE_WIN_CTRL_USE i t = use ∧ t.mem.cells = s.mem.cells := by
  rintro _ rfl
  have regs (f : Fld) : fget f i (winGiven fn i use s) = fget f i (fset F.CE_WIN_STATUS_OWNER i fn
      (setFlag F.CE_WIN_STATUS_ALLOCATED i true (fset F.CE_WIN_CTRL_USE i use s))) := rfl
  refine ⟨fget_fset_same .., ?allocated, ?owner, ?use, rfl⟩
  case allocated =>
    rw [flag_fset_other (by decide) (by decide) (by decide), flag, regs, ← flag, flag_fset_other (by decide) (by decide) (by decide)]
    exact flag_setFlag_same _ _ _ _ rfl
  case owner =>
    rw [fget_fset_other (by decide) (by decide) (by decide), regs, fget_fset_same]
    exact Nat.mod_eq_of_lt (Nat.lt_trans fn.isLt (by decide))
  case use =>
    rw [fget_fset_other (by decide) (by decide) (by decide), regs, fget_fset_other (by decide) (by decide) (by decide),
      fget_setFlag_other (by decide) (by decide) (by decide), fget_fset_same]
    exact Nat.mod_eq_of_lt hu

/-- R406: what a FREE that passes answers. -/
theorem winRelease_spec (i use : Nat) (s : State) :
    ∀ t, t = fset F.CE_WIN_CTRL_RESULT i 0 (winRelease i (fset F.CE_WIN_CTRL_USE i use s)) →
    fget F.CE_WIN_CTRL_RESULT i t = 0 ∧ flag F.CE_WIN_STATUS_ALLOCATED i t = false ∧ t.mem.cells = s.mem.cells := by
  rintro _ rfl
  refine ⟨fget_fset_same .., ?_, rfl⟩
  rw [flag_fset_other (by decide) (by decide) (by decide), winRelease, flag_fset_other (by decide) (by decide) (by decide)]
  exact flag_setFlag_same _ _ _ _ rfl

/-! ### The commands -/

section
variable {fn : Fn} {e : Eng} {v : Win} {s : State}

theorem winCfgWrite_exec (hr : Reaches fn .CE_WIN_CFG (winIdx e v) s) (w : Word) :
    exec (.winCfgWrite fn e v w) s = .next (winCfg fn (winIdx e v) w s) := congrArg Host.Outcome.next (hostWr_reaches hr _)

variable (hr : Reaches fn .CE_WIN_CTRL (winIdx e v) s)
include hr

theorem winAlloc_exec (w : Word) : exec (.winAlloc fn e v w) s = .next (winCtrl fn (winIdx e v) (withBit w 0 true) s) :=
  congrArg Host.Outcome.next (hostWr_reaches hr _)

theorem winFree_exec (w : Word) : exec (.winFree fn e v w) s = .next (winCtrl fn (winIdx e v) (withBit w 1 true) s) :=
  congrArg Host.Outcome.next (hostWr_reaches hr _)

end

/-- Settles O35: CE_WIN_CFG, and each answer to an ALLOC and to a FREE. -/
theorem scratchWindows : Obligations.ScratchWindows := by
  intro fn e v w s i
  have alloc : wbit F.CE_WIN_CTRL_ALLOC (withBit w 0 true) = true := wbit_withBit_same F.CE_WIN_CTRL_ALLOC w true rfl (by decide)
  have free : wbit F.CE_WIN_CTRL_FREE (withBit w 1 true) = true := wbit_withBit_same F.CE_WIN_CTRL_FREE w true rfl (by decide)
  have keepsFree : wbit F.CE_WIN_CTRL_FREE (withBit w 0 true) = wbit F.CE_WIN_CTRL_FREE w :=
    wbit_withBit_other _ _ _ _ (by decide) (by decide) (by decide)
  have keepsAlloc : wbit F.CE_WIN_CTRL_ALLOC (withBit w 1 true) = wbit F.CE_WIN_CTRL_ALLOC w :=
    wbit_withBit_other _ _ _ _ (by decide) (by decide) (by decide)
  have keepsUse : wfld F.CE_WIN_CTRL_USE (withBit w 0 true) = wfld F.CE_WIN_CTRL_USE w :=
    wfld_withBit_other _ _ _ _ (by decide) (by decide) (by decide)
  refine ⟨fun hr h => .intro (winCfgWrite_exec hr w) (winCfg_stores fn i w h _ rfl),
    fun hr h => (winCfgWrite_exec hr w).trans (congrArg _ (winCfg_exists _ _ _ h)), fun hr both => ?_, fun hr both => ?_,
    fun hr single => ?_, fun hr single => ?_⟩
  · rw [← keepsFree] at both
    refine .intro (winAlloc_exec hr w) ?_
    rw [winCtrl_both alloc both]
    exact fset_answers (by decide) ..
  · rw [← keepsAlloc] at both
    refine .intro (winFree_exec hr w) ?_
    rw [winCtrl_both both free]
    exact fset_answers (by decide) ..
  · rw [← keepsFree] at single
    have exec := winAlloc_exec hr w
    rw [winCtrl_alloc alloc single, keepsUse] at exec
    refine ⟨fun fails => .intro exec ?_, fun passes => .intro exec ?_⟩
    · rw [if_pos fails]
      exact fset_answers (winAllocCheck_lt ..) ..
    · rw [if_neg (not_not_intro passes)]
      exact winGiven_spec fn i (wfld_lt F.CE_WIN_CTRL_USE w (by decide)) s _ rfl
  · rw [← keepsAlloc] at single
    have exec := winFree_exec hr w
    rw [winCtrl_free single free] at exec
    refine ⟨fun fails => .intro exec ?_, fun passes => .intro exec ?_⟩
    · rw [if_pos fails]
      exact fset_answers (winFreeCheck_lt ..) ..
    · rw [if_neg (not_not_intro passes)]
      exact winRelease_spec i _ s _ rfl

end Sys2Proof.Machine
end

section
/-! SUPPORT. Channels of the DMA engine: their state beside the registers, their two sets of descriptor words, and the parts
of a write of DC_CTRL (R418 to R425, R434 to R436). -/
namespace Sys2Proof.Machine

/-! ### Registers and channels -/

theorem KeepsOthers.flag {fs : List Fld} {s t : State} (h : KeepsOthers fs s t) {f : Fld} (hf : ∀ g ∈ fs, f.key 0 ≠ g.key 0)
    (hk : f.key 0 < 16384) (i : Nat) : flag f i t = flag f i s := congrArg (· == 1) (h.fields f hf hk i)

@[simp] theorem fget_chanMod (f : Fld) (i c : Nat) (g : Channel → Channel) (s : State) : fget f i (chanMod c g s) = fget f i s := rfl

@[simp] theorem chan_chanMod_same (c : Nat) (g : Channel → Channel) (s : State) : chan c (chanMod c g s) = g (chan c s) :=
  Tab.get_mod_same ..

/-- The state of a channel depends on the table of channels alone. -/
theorem chan_congr {s t : State} (h : t.dma = s.dma) (c : Nat) : chan c t = chan c s := by rw [chan, chan, h]

/-! ### The two sets (R418) -/

/-- A descriptor set depends on its words alone. -/
theorem actDesc_congr {s t : State} (h : ∀ i, fget F.DC_ACT_DATA i t = fget F.DC_ACT_DATA i s) (c : Nat) :
    actDesc c t = actDesc c s := by simp only [actDesc, h]

theorem shdDesc_congr {s t : State} (h : ∀ i, fget F.DC_SHD_DATA i t = fget F.DC_SHD_DATA i s) (c : Nat) :
    shdDesc c t = shdDesc c s := by simp only [shdDesc, h]

/-- The words of both sets keep their values where only fields of other names are set. -/
theorem KeepsOthers.descs {fs : List Fld} {s t : State} (h : KeepsOthers fs s t) (hs : ∀ g ∈ fs, F.DC_SHD_DATA.key 0 ≠ g.key 0)
    (ha : ∀ g ∈ fs, F.DC_ACT_DATA.key 0 ≠ g.key 0) (c : Nat) : shdDesc c t = shdDesc c s ∧ actDesc c t = actDesc c s :=
  ⟨shdDesc_congr (h.fields _ hs (by decide)) c, actDesc_congr (h.fields _ ha (by decide)) c⟩

/-! ### Parts of a write of DC_CTRL (R422, R434 to R436) -/

theorem hingeSoon_regs (c : Nat) (s : State) : (hingeSoon c s).regs = s.regs := by unfold hingeSoon; split <;> rfl
theorem hingeSoon_mem (c : Nat) (s : State) : (hingeSoon c s).mem = s.mem := by unfold hingeSoon; split <;> rfl

theorem dcResume_keepsOthers (c : Nat) (s : State) : KeepsOthers [F.DC_STATUS_HALTED] s (dcResume c s) := by
  have cleared : KeepsOthers [F.DC_STATUS_HALTED] s (setFlag F.DC_STATUS_HALTED c false s) :=
    (KeepsOthers.refl _ s).fset (by decide) ..
  exact KeepsOthers.ite (.refl _ s) (cleared.trans (.of_regs _ (hingeSoon_regs ..)))

theorem dcResume_mem (c : Nat) (s : State) : (dcResume c s).mem = s.mem := by
  unfold dcResume
  split
  · rfl
  · exact hingeSoon_mem ..

/-- R434: the channel no longer halts. -/
theorem flag_dcResume_halted (c : Nat) (s : State) : flag F.DC_STATUS_HALTED c (dcResume c s) = false := by
  unfold dcResume
  split
  · next clear => simpa using clear
  · exact (flag_congr (hingeSoon_regs ..)).trans (flag_setFlag_same _ _ _ _ rfl)

/-- R435: a write of ENABLE 1 to a channel whose ENABLE is 1. -/
theorem dcOn_enabled {c : Nat} {s : State} (h : flag F.DC_CTRL_ENABLE c s = true) : dcOn c s = s := if_pos (by simp [h])

/-- The fields that a write of DC_CTRL stores as they are written. -/
def ctrlStored (c : Nat) (w : Word) (s : State) : State :=
  setFlag F.DC_CTRL_MODE c (wbit F.DC_CTRL_MODE w)
    (setFlag F.DC_CTRL_HALT_ON_ERR c (wbit F.DC_CTRL_HALT_ON_ERR w) (fset F.DC_CTRL_HINGE_TD c (wfld F.DC_CTRL_HINGE_TD w) s))

/-- The names of those fields. -/
def ctrlFields : List Fld := [F.DC_CTRL_MODE, F.DC_CTRL_HALT_ON_ERR, F.DC_CTRL_HINGE_TD]

theorem ctrlStored_keepsOthers (c : Nat) (w : Word) (s : State) : KeepsOthers ctrlFields s (ctrlStored c w s) :=
  (((KeepsOthers.refl ctrlFields s).fset (by decide) _ _).fset (by decide) _ _).fset (by decide) _ _

theorem fget_ctrlStored_td (c : Nat) (w : Word) (s : State) :
    fget F.DC_CTRL_HINGE_TD c (ctrlStored c w s) = wfld F.DC_CTRL_HINGE_TD w := by
  rw [ctrlStored, fget_setFlag_other (by decide) (by decide) (by decide), fget_setFlag_other (by decide) (by decide) (by decide),
    fget_fset_same]
  exact Nat.mod_eq_of_lt (wfld_lt _ w (by decide))

/-- R422: the shadow is armed. -/
def shadowArmed (c : Nat) (s : State) : State := hingeSoon c (setFlag F.DC_STATUS_SHADOW_ARMED c true s)

theorem shadowArmed_keepsOthers (c : Nat) (s : State) : KeepsOthers [F.DC_STATUS_SHADOW_ARMED] s (shadowArmed c s) :=
  have armed : KeepsOthers [F.DC_STATUS_SHADOW_ARMED] s (setFlag F.DC_STATUS_SHADOW_ARMED c true s) :=
    (KeepsOthers.refl _ s).fset (by decide) ..
  armed.trans (.of_regs _ (hingeSoon_regs ..))

theorem flag_shadowArmed (c : Nat) (s : State) : flag F.DC_STATUS_SHADOW_ARMED c (shadowArmed c s) = true :=
  (flag_congr (hingeSoon_regs ..)).trans (flag_setFlag_same _ _ _ _ rfl)

theorem shadowArmed_mem (c : Nat) (s : State) : (shadowArmed c s).mem = s.mem := hingeSoon_mem ..

/-- R434: RESUME in the written word. -/
def resumedBy (c : Nat) (w : Word) (s : State) : State := if wbit F.DC_CTRL_RESUME w then dcResume c s else s

theorem resumedBy_keepsOthers (c : Nat) (w : Word) (s : State) : KeepsOthers [F.DC_STATUS_HALTED] s (resumedBy c w s) :=
  (dcResume_keepsOthers c s).ite (.refl _ s)

theorem resumedBy_mem (c : Nat) (w : Word) (s : State) : (resumedBy c w s).mem = s.mem := by
  unfold resumedBy
  split
  · exact dcResume_mem ..
  · rfl

/-! ### A write of DC_CTRL -/

/-- R422, R436: why a write is refused, 0 when it is taken. -/
def ctrlRefusal (c : Nat) (w : Word) (s : State) : Nat :=
  if wbit F.DC_CTRL_MODE w != flag F.DC_CTRL_MODE c s && flag F.DC_CTRL_ENABLE c s then 5
  else if wbit F.DC_CTRL_ARM w then armCheck c s else 0

/-- R422, R434: what a write that is taken does before its ENABLE acts. -/
def ctrlApplied (c : Nat) (w : Word) (s : State) : State :=
  resumedBy c w (if wbit F.DC_CTRL_ARM w then shadowArmed c (ctrlStored c w s) else ctrlStored c w s)

theorem dcCtrl_eq (c : Nat) (w : Word) (s : State) : dcCtrl c w s =
    if ctrlRefusal c w s ≠ 0 then fset F.DC_CTRL_RESULT c (ctrlRefusal c w s) s
    else fset F.DC_CTRL_RESULT c 0
      (if wbit F.DC_CTRL_ENABLE w then dcOn c (ctrlApplied c w s) else dcOff c (ctrlApplied c w s)) := rfl

section
variable {c r : Nat} {w : Word} {s : State}

theorem dcCtrl_refused (hr : ctrlRefusal c w s = r) (h : r ≠ 0) : dcCtrl c w s = fset F.DC_CTRL_RESULT c r s := by
  subst hr; exact if_pos h

theorem dcCtrl_on (hr : ctrlRefusal c w s = 0) (he : wbit F.DC_CTRL_ENABLE w = true) :
    dcCtrl c w s = fset F.DC_CTRL_RESULT c 0 (dcOn c (ctrlApplied c w s)) := by
  rw [dcCtrl_eq, if_neg (not_not_intro hr), if_pos he]

theorem dcCtrl_off (hr : ctrlRefusal c w s = 0) (he : wbit F.DC_CTRL_ENABLE w = false) :
    dcCtrl c w s = fset F.DC_CTRL_RESULT c 0 (dcOff c (ctrlApplied c w s)) := by
  rw [dcCtrl_eq, if_neg (not_not_intro hr), if_neg (ne_true_of_eq_false he)]

/-- R436: MODE does not change while ENABLE is 1. -/
theorem ctrlRefusal_mode (hm : wbit F.DC_CTRL_MODE w ≠ flag F.DC_CTRL_MODE c s) (he : flag F.DC_CTRL_ENABLE c s = true) :
    ctrlRefusal c w s = 5 := if_pos (by simp [hm, he])

/-- R422: a write that keeps MODE is refused for its ARM alone. -/
theorem ctrlRefusal_arm (hm : wbit F.DC_CTRL_MODE w = flag F.DC_CTRL_MODE c s) :
    ctrlRefusal c w s = if wbit F.DC_CTRL_ARM w then armCheck c s else 0 := if_neg (by simp [hm])

theorem ctrlApplied_arms (ha : wbit F.DC_CTRL_ARM w = true) :
    ctrlApplied c w s = resumedBy c w (shadowArmed c (ctrlStored c w s)) := by rw [ctrlApplied, if_pos ha]

theorem ctrlApplied_plain (ha : wbit F.DC_CTRL_ARM w = false) : ctrlApplied c w s = resumedBy c w (ctrlStored c w s) := by
  rw [ctrlApplied, if_neg (ne_true_of_eq_false ha)]

end

/-- What a write that is taken touches before its ENABLE acts. -/
theorem ctrlApplied_keepsOthers (c : Nat) (w : Word) (s : State) :
    KeepsOthers (F.DC_STATUS_HALTED :: F.DC_STATUS_SHADOW_ARMED :: ctrlFields) s (ctrlApplied c w s) := by
  have stored := (ctrlStored_keepsOthers c w s).mono (List.subset_append_right [F.DC_STATUS_HALTED, F.DC_STATUS_SHADOW_ARMED] _)
  have armed := (shadowArmed_keepsOthers c (ctrlStored c w s)).mono (gs := F.DC_STATUS_HALTED :: F.DC_STATUS_SHADOW_ARMED :: ctrlFields)
    (by decide)
  exact ((stored.trans armed).ite stored).trans ((resumedBy_keepsOthers ..).mono (by decide))

theorem ctrlApplied_mem (c : Nat) (w : Word) (s : State) : (ctrlApplied c w s).mem = s.mem := by
  rw [ctrlApplied, resumedBy_mem]
  split
  · exact shadowArmed_mem ..
  · rfl

/-! ### The commands of DC_CTRL -/

section
variable {fn : Fn} {c : Chan} {s : State} (hr : Reaches fn .DC_CTRL c s)
include hr

theorem dcArm_exec (w : Word) : exec (.dcArm fn c w) s = .next (dcCtrl c (withBit w 1 true) s) :=
  congrArg Host.Outcome.next (hostWr_reaches hr _)

theorem dcResume_exec (w : Word) : exec (.dcResume fn c w) s = .next (dcCtrl c (withBit w 5 true) s) :=
  congrArg Host.Outcome.next (hostWr_reaches hr _)

theorem dcEnable_exec (w : Word) : exec (.dcEnable fn c w) s = .next (dcCtrl c (withBit w 0 true) s) :=
  congrArg Host.Outcome.next (hostWr_reaches hr _)

theorem dcDisable_exec (w : Word) : exec (.dcDisable fn c w) s = .next (dcCtrl c (withBit w 0 false) s) :=
  congrArg Host.Outcome.next (hostWr_reaches hr _)

end

theorem wbit_arm_forced (w : Word) : wbit F.DC_CTRL_ARM (withBit w 1 true) = true :=
  wbit_withBit_same F.DC_CTRL_ARM w true rfl (by decide)

theorem wbit_resume_forced (w : Word) : wbit F.DC_CTRL_RESUME (withBit w 5 true) = true :=
  wbit_withBit_same F.DC_CTRL_RESUME w true rfl (by decide)

theorem wbit_enable_forced (w : Word) (b : Bool) : wbit F.DC_CTRL_ENABLE (withBit w 0 b) = b :=
  wbit_withBit_same F.DC_CTRL_ENABLE w b rfl (by decide)

/-- The bits that the commands force are none of MODE. -/
theorem wbit_mode_forced {n : Nat} (hn : n < 3 ∨ 4 ≤ n) (h : n < 32) (w : Word) (b : Bool) :
    wbit F.DC_CTRL_MODE (withBit w n b) = wbit F.DC_CTRL_MODE w := wbit_withBit_other _ _ _ _ h (by decide) hn

end Sys2Proof.Machine
end
section
/-! CERTIFICATE. ARM, RESUME and writes of the shadow (R422, R424, R426, R434, R436); O37. -/
namespace Sys2Proof.Machine

/-! ### DC_CTRL (R422, R434, R436) -/

/-- R422: what an ARM answers that is refused. -/
theorem armCheck_eq (c : Nat) (s : State) : armCheck c s =
    if flag F.DC_STATUS_SHADOW_ARMED c s = true ∨ (chan c s).hingedAt = some s.time.cclk then 1
    else if flag F.DC_CTRL_MODE c s = true then 3 else if flag F.DC_CTRL_ENABLE c s = false then 5 else 0 := by
  simp [armCheck]

theorem dcArm_refusal {c : Nat} {w : Word} {s : State} (hm : wbit F.DC_CTRL_MODE w = flag F.DC_CTRL_MODE c s) :
    ctrlRefusal c (withBit w 1 true) s = armCheck c s := by
  rw [ctrlRefusal_arm (by rwa [wbit_mode_forced (by decide) (by decide)]), if_pos (wbit_arm_forced w)]

section
variable {fn : Fn} {c : Chan} {w : Word} {s : State} (hr : Reaches fn .DC_CTRL c s)
include hr

/-- Each of the four commands is a write of DC_CTRL that keeps the written MODE. -/
theorem ctrlCommand_exec {x : Instr} (hx : x ∈ [Instr.dcArm fn c w, .dcResume fn c w, .dcEnable fn c w, .dcDisable fn c w]) :
    ∃ v, exec x s = .next (dcCtrl c v s) ∧ wbit F.DC_CTRL_MODE v = wbit F.DC_CTRL_MODE w := by
  simp only [List.mem_cons, List.not_mem_nil, or_false] at hx
  obtain rfl | rfl | rfl | rfl := hx
  · exact ⟨_, dcArm_exec hr w, wbit_mode_forced (by decide) (by decide) ..⟩
  · exact ⟨_, dcResume_exec hr w, wbit_mode_forced (by decide) (by decide) ..⟩
  · exact ⟨_, dcEnable_exec hr w, wbit_mode_forced (by decide) (by decide) ..⟩
  · exact ⟨_, dcDisable_exec hr w, wbit_mode_forced (by decide) (by decide) ..⟩

variable (hm : wbit F.DC_CTRL_MODE w = flag F.DC_CTRL_MODE c s)
include hm

/-- R422: an ARM that is refused changes RESULT alone. -/
theorem dcArm_refused {r : Nat} (ha : armCheck c s = r) (h : r ≠ 0) (hl : r < 256) : Completes (.dcArm fn c w) s fun t =>
    fget F.DC_CTRL_RESULT c t = r ∧ OnlyFields [F.DC_CTRL_RESULT.key c] s t := by
  refine .intro (dcArm_exec hr w) ?_
  rw [dcCtrl_refused ((dcArm_refusal hm).trans ha) h]
  exact fset_answers hl ..

/-- R422: an ARM that is accepted arms the shadow, and both sets keep their words. -/
theorem dcArm_arms (ha : armCheck c s = 0) (he : flag F.DC_CTRL_ENABLE c s = true) (hw : wbit F.DC_CTRL_ENABLE w = true) :
    Completes (.dcArm fn c w) s fun t => fget F.DC_CTRL_RESULT c t = 0 ∧ flag F.DC_STATUS_SHADOW_ARMED c t = true ∧
      fget F.DC_CTRL_HINGE_TD c t = wfld F.DC_CTRL_HINGE_TD w ∧ shdDesc c t = shdDesc c s ∧ actDesc c t = actDesc c s ∧
      t.mem = s.mem := by
  refine .intro (dcArm_exec hr w) ?_
  have stays : wbit F.DC_CTRL_ENABLE (withBit w 1 true) = true :=
    (wbit_withBit_other _ _ _ _ (by decide) (by decide) (by decide)).trans hw
  have td : wfld F.DC_CTRL_HINGE_TD (withBit w 1 true) = wfld F.DC_CTRL_HINGE_TD w :=
    wfld_withBit_other _ _ _ _ (by decide) (by decide) (by decide)
  have all := ctrlApplied_keepsOthers c (withBit w 1 true) s
  have on : flag F.DC_CTRL_ENABLE c (ctrlApplied c (withBit w 1 true) s) = true :=
    (all.flag (by decide) (by decide) c).trans he
  have answered : KeepsOthers [F.DC_CTRL_RESULT] (ctrlApplied c (withBit w 1 true) s)
      (fset F.DC_CTRL_RESULT c 0 (ctrlApplied c (withBit w 1 true) s)) := (KeepsOthers.refl _ _).fset (by decide) ..
  have resumed := resumedBy_keepsOthers c (withBit w 1 true) (shadowArmed c (ctrlStored c (withBit w 1 true) s))
  rw [dcCtrl_on ((dcArm_refusal hm).trans ha) stays, dcOn_enabled on]
  obtain ⟨shd, act⟩ := answered.descs (by decide) (by decide) c
  obtain ⟨shd', act'⟩ := all.descs (by decide) (by decide) c
  refine ⟨fget_fset_same .., (answered.flag (by decide) (by decide) c).trans ?armed,
    (answered.fields _ (by decide) (by decide) c).trans ?td, shd.trans shd', act.trans act', ctrlApplied_mem ..⟩
  all_goals rw [ctrlApplied_arms (wbit_arm_forced w)]
  case armed => exact (resumed.flag (by decide) (by decide) c).trans (flag_shadowArmed ..)
  case td =>
    rw [resumed.fields _ (by decide) (by decide), (shadowArmed_keepsOthers ..).fields _ (by decide) (by decide), fget_ctrlStored_td, td]

/-- R434: RESUME on a channel that stays enabled. -/
theorem dcResume_resumes (ha : wbit F.DC_CTRL_ARM w = false) (hw : wbit F.DC_CTRL_ENABLE w = true)
    (he : flag F.DC_CTRL_ENABLE c s = true) : Completes (.dcResume fn c w) s fun t => flag F.DC_STATUS_HALTED c t = false ∧
      fget F.DC_CTRL_RESULT c t = 0 ∧ actDesc c t = actDesc c s ∧ t.mem = s.mem := by
  refine .intro (dcResume_exec hr w) ?_
  have noArm : wbit F.DC_CTRL_ARM (withBit w 5 true) = false :=
    (wbit_withBit_other _ _ _ _ (by decide) (by decide) (by decide)).trans ha
  have stays : wbit F.DC_CTRL_ENABLE (withBit w 5 true) = true :=
    (wbit_withBit_other _ _ _ _ (by decide) (by decide) (by decide)).trans hw
  have taken : ctrlRefusal c (withBit w 5 true) s = 0 := by
    rw [ctrlRefusal_arm (by rwa [wbit_mode_forced (by decide) (by decide)]), if_neg (ne_true_of_eq_false noArm)]
  have all := ctrlApplied_keepsOthers c (withBit w 5 true) s
  have on : flag F.DC_CTRL_ENABLE c (ctrlApplied c (withBit w 5 true) s) = true :=
    (all.flag (by decide) (by decide) c).trans he
  have answered : KeepsOthers [F.DC_CTRL_RESULT] (ctrlApplied c (withBit w 5 true) s)
      (fset F.DC_CTRL_RESULT c 0 (ctrlApplied c (withBit w 5 true) s)) := (KeepsOthers.refl _ _).fset (by decide) ..
  rw [dcCtrl_on taken stays, dcOn_enabled on]
  obtain ⟨-, act⟩ := answered.descs (by decide) (by decide) c
  obtain ⟨-, act'⟩ := all.descs (by decide) (by decide) c
  refine ⟨(answered.flag (by decide) (by decide) c).trans ?_, fget_fset_same .., act.trans act', ctrlApplied_mem ..⟩
  rw [ctrlApplied_plain noArm, resumedBy, if_pos (wbit_resume_forced w)]
  exact flag_dcResume_halted ..

end

/-! ### Writes of the shadow (R424, R426) -/

/-- R424: DC_SHD_STAMP says whether a write of the shadow has landed, with the hinge count. -/
def shdStamp (c : Nat) (landed : Bool) (s : State) : State :=
  fset F.DC_SHD_STAMP_COUNT c (fget F.DC_HINGE_CNT_COUNT c s) (setFlag F.DC_SHD_STAMP_LANDED c landed s)

theorem shdStamp_keepsOthers (c : Nat) (landed : Bool) (s : State) :
    KeepsOthers [F.DC_SHD_STAMP_COUNT, F.DC_SHD_STAMP_LANDED] s (shdStamp c landed s) :=
  ((KeepsOthers.refl _ s).fset (g := F.DC_SHD_STAMP_LANDED) (by decide) c _).fset (by decide) c _

theorem flag_shdStamp_landed (c : Nat) (landed : Bool) (s : State) : flag F.DC_SHD_STAMP_LANDED c (shdStamp c landed s) = landed :=
  (flag_fset_other (by decide) (by decide) (by decide)).trans (flag_setFlag_same _ _ _ _ rfl)

section
variable {c i : Nat} {w : Word} {s : State}

theorem shadowPut_ring (hm : flag F.DC_CTRL_MODE c s = true) :
    shadowPut c i w s = shdStamp c false (fset F.DC_CTRL_RESULT c 3 s) := if_pos hm

theorem shadowPut_locked (hm : flag F.DC_CTRL_MODE c s = false) (ha : flag F.DC_STATUS_SHADOW_ARMED c s = true) :
    shadowPut c i w s = shdStamp c false (setFlag F.DC_STATUS_LOCKED_WR c true s) :=
  (if_neg (ne_true_of_eq_false hm)).trans (if_pos ha)

theorem shadowPut_lands (hm : flag F.DC_CTRL_MODE c s = false) (ha : flag F.DC_STATUS_SHADOW_ARMED c s = false) :
    shadowPut c i w s = shdStamp c true (fset F.DC_SHD_DATA (16 * c + i) w.toNat s) :=
  (if_neg (ne_true_of_eq_false hm)).trans (if_neg (ne_true_of_eq_false ha))

end

section
variable {fn : Fn} {c : Chan} {i : Fin 16} {w : Word} {s : State} (hr : Reaches fn .DC_SHD (16 * c.val + i.val) s)
include hr

theorem shadowWrite_exec : exec (.shadowWrite fn c i w) s = .next (shadowPut c i w s) :=
  congrArg Host.Outcome.next (hostWr_reaches hr _)

/-- R426: in ring mode the shadow takes no write. -/
theorem shadowWrite_ring (hm : flag F.DC_CTRL_MODE c s = true) : Completes (.shadowWrite fn c i w) s fun t =>
    fget F.DC_CTRL_RESULT c t = 3 ∧ flag F.DC_SHD_STAMP_LANDED c t = false ∧ shdDesc c t = shdDesc c s ∧ t.mem = s.mem := by
  refine .intro (shadowWrite_exec hr) ?_
  rw [shadowPut_ring hm]
  have stamp := shdStamp_keepsOthers c false (fset F.DC_CTRL_RESULT c 3 s)
  have answered : KeepsOthers [F.DC_CTRL_RESULT] s (fset F.DC_CTRL_RESULT c 3 s) := (KeepsOthers.refl _ s).fset (by decide) ..
  exact ⟨(stamp.fields _ (by decide) (by decide) c).trans (fget_fset_same ..), flag_shdStamp_landed ..,
    (stamp.descs (by decide) (by decide) c).1.trans (answered.descs (by decide) (by decide) c).1, rfl⟩

/-- R424: an armed shadow takes no write. -/
theorem shadowWrite_locked (hm : flag F.DC_CTRL_MODE c s = false) (ha : flag F.DC_STATUS_SHADOW_ARMED c s = true) :
    Completes (.shadowWrite fn c i w) s fun t => flag F.DC_STATUS_LOCKED_WR c t = true ∧ flag F.DC_SHD_STAMP_LANDED c t = false ∧
      shdDesc c t = shdDesc c s ∧ t.mem = s.mem := by
  refine .intro (shadowWrite_exec hr) ?_
  rw [shadowPut_locked hm ha]
  have stamp := shdStamp_keepsOthers c false (setFlag F.DC_STATUS_LOCKED_WR c true s)
  have locked : KeepsOthers [F.DC_STATUS_LOCKED_WR] s (setFlag F.DC_STATUS_LOCKED_WR c true s) :=
    (KeepsOthers.refl _ s).fset (by decide) ..
  exact ⟨(stamp.flag (by decide) (by decide) c).trans (flag_setFlag_same _ _ _ _ rfl), flag_shdStamp_landed ..,
    (stamp.descs (by decide) (by decide) c).1.trans (locked.descs (by decide) (by decide) c).1, rfl⟩

/-- R424: otherwise the word lands. -/
theorem shadowWrite_lands (hm : flag F.DC_CTRL_MODE c s = false) (ha : flag F.DC_STATUS_SHADOW_ARMED c s = false) :
    Completes (.shadowWrite fn c i w) s fun t => fget F.DC_SHD_DATA (16 * c.val + i.val) t = w.toNat ∧
      flag F.DC_SHD_STAMP_LANDED c t = true ∧
      fget F.DC_SHD_STAMP_COUNT c t = fget F.DC_HINGE_CNT_COUNT c s % 2 ^ F.DC_SHD_STAMP_COUNT.w ∧
      KeepsFields [F.DC_SHD_DATA.key (16 * c.val + i.val), F.DC_SHD_STAMP_LANDED.key c, F.DC_SHD_STAMP_COUNT.key c] s t ∧
      t.mem = s.mem := by
  refine .intro (shadowWrite_exec hr) ?_
  rw [shadowPut_lands hm ha]
  have stamp := shdStamp_keepsOthers c true (fset F.DC_SHD_DATA (16 * c.val + i.val) w.toNat s)
  refine ⟨?word, flag_shdStamp_landed .., ?count, ?keeps, rfl⟩
  case word => exact (stamp.fields _ (by decide) (by decide) _).trans ((fget_fset_same ..).trans (Nat.mod_eq_of_lt w.isLt))
  case count => rw [shdStamp, fget_fset_same, fget_fset_other (by decide) (by decide) (by decide)]
  case keeps => exact (((KeepsFields.refl _ s).fset (by simp)).setFlag (by simp)).fset (by simp)

end

/-! ### The statement -/

/-- Settles O37: a change of MODE, each answer to an ARM, RESUME, and each fate of a write of the shadow. -/
theorem channelArming : Obligations.ChannelArming := by
  refine ⟨fun fn c w s hr => ⟨?mode, fun hm => ⟨?busy, ?free, fun ha hw he => dcResume_resumes hr hm ha hw he⟩⟩,
    fun fn c i w s hr => ⟨shadowWrite_ring hr, shadowWrite_locked hr, shadowWrite_lands hr⟩⟩
  case mode =>
    intro hm he x hx
    obtain ⟨v, runs, mode⟩ := ctrlCommand_exec hr hx
    refine .intro runs ?_
    rw [dcCtrl_refused (ctrlRefusal_mode (by rwa [mode]) he) (by decide)]
    exact fset_answers (by decide) ..
  case busy =>
    exact fun h => dcArm_refused hr hm (by rw [armCheck_eq, if_pos h]) (by decide) (by decide)
  case free =>
    intro idle apart
    have check : armCheck c s = if flag F.DC_CTRL_MODE c s = true then 3 else if flag F.DC_CTRL_ENABLE c s = false then 5 else 0 := by
      rw [armCheck_eq, if_neg (by simp [idle, apart])]
    refine ⟨fun ring => ?_, fun block off => ?_, fun block on stays => ?_⟩
    · exact dcArm_refused hr hm (by rw [check, if_pos ring]) (by decide) (by decide)
    · exact dcArm_refused hr hm (by rw [check, if_neg (ne_true_of_eq_false block), if_pos off]) (by decide) (by decide)
    · exact dcArm_arms hr hm (by rw [check, if_neg (ne_true_of_eq_false block), if_neg (by simp [on])]) on stays

end Sys2Proof.Machine
end

section
/-! SUPPORT and CERTIFICATE. The two sets of a channel as words, and the hinge that exchanges them (R418, R420, R423, R425);
O38. -/
namespace Sys2Proof.Machine

/-! ### The words of a set (R418) -/

/-- Writing a set changes its words alone. -/
theorem setDesc_parts (f : Fld) (c : Nat) (d : Bytes) (s : State) : ∃ regs, setDesc f c d s = { s with regs := regs } :=
  foldl_rel (R := fun s t => ∃ regs, t = { s with regs := regs }) (fun _ => ⟨_, rfl⟩)
    (by rintro s _ _ ⟨_, rfl⟩ ⟨_, rfl⟩; exact ⟨_, rfl⟩) (fun _ _ => ⟨_, rfl⟩) _ s

theorem setDesc_mem (f : Fld) (c : Nat) (d : Bytes) (s : State) : (setDesc f c d s).mem = s.mem := by
  obtain ⟨_, set⟩ := setDesc_parts f c d s
  rw [set]

theorem setDesc_time (f : Fld) (c : Nat) (d : Bytes) (s : State) : (setDesc f c d s).time = s.time := by
  obtain ⟨_, set⟩ := setDesc_parts f c d s
  rw [set]

theorem setDesc_out (f : Fld) (c : Nat) (d : Bytes) (s : State) : (setDesc f c d s).out = s.out := by
  obtain ⟨_, set⟩ := setDesc_parts f c d s
  rw [set]

theorem setDesc_keepsOthers {f : Fld} (hf : f.key 0 < 16384) (c : Nat) (d : Bytes) (s : State) : KeepsOthers [f] s (setDesc f c d s) :=
  KeepsOthers.foldl (fun s _ => (KeepsOthers.refl _ s).fset ⟨List.mem_singleton_self f, hf⟩ ..) _ s

/-- Each word of a set that is written reads its bytes of the descriptor. -/
theorem fget_setDesc (f : Fld) {i : Nat} (hi : i < 16) (c : Nat) (d : Bytes) (s : State) :
    fget f (16 * c + i) (setDesc f c d s) = fieldLE d (4 * i) 4 % 2 ^ f.w := by
  obtain ⟨u, -, -, last, -⟩ := foldl_visits (R := fun _ _ => True) (fun _ => trivial) (fun _ _ => trivial)
    (g := fun s i => fset f (16 * c + i) (fieldLE d (4 * i) 4) s) (fun _ _ => trivial) List.nodup_range (List.mem_range.2 hi)
    (φ := fget f (16 * c + i)) (fun s j _ ne => fget_fset_inst (by omega)) s
  exact last.trans (fget_fset_same ..)

/-- The words of a list of numbers, one after another. -/
def wordsOf (g : Nat → Nat) (n : Nat) : Bytes := (List.range n).flatMap (fun i => leBytes 4 (g i))

theorem wordsOf_succ (g : Nat → Nat) (n : Nat) : wordsOf g (n + 1) = wordsOf g n ++ leBytes 4 (g n) := by
  simp [wordsOf, List.range_succ]

theorem wordsOf_length (g : Nat → Nat) (n : Nat) : (wordsOf g n).length = 4 * n := by
  simp [wordsOf, List.length_flatMap, leBytes_length, Nat.mul_comm]

/-- Word `i` of the list reads its number. -/
theorem fieldLE_wordsOf (g : Nat → Nat) {i n : Nat} (hi : i < n) : fieldLE (wordsOf g n) (4 * i) 4 = g i % 2 ^ 32 := by
  induction n with
  | zero => omega
  | succ n ih =>
    rw [wordsOf_succ]
    rcases Nat.lt_succ_iff_lt_or_eq.1 hi with lt | rfl
    · rw [← ih lt, fieldLE, fieldLE, slice, slice, List.drop_append_of_le_length (by rw [wordsOf_length]; omega),
        List.take_append_of_le_length (by rw [List.length_drop, wordsOf_length]; omega)]
    · rw [fieldLE, slice, List.drop_left' (wordsOf_length ..), List.take_of_length_le (leBytes_length ..).le, leNat_leBytes]
      rfl

/-- Four bytes hold a number modulo 2^32. -/
theorem leBytes_mod (n v : Nat) : leBytes n (v % 256 ^ n) = leBytes n v := by
  have same := leBytes_leNat (leBytes n v)
  rwa [leBytes_length, leNat_leBytes] at same

/-- A set that is written from words reads those words. -/
theorem wordsOf_setDesc {f : Fld} (hf : f.w = 32) (g : Nat → Nat) (c : Nat) (s : State) :
    wordsOf (fun i => fget f (16 * c + i) (setDesc f c (wordsOf g 16) s)) 16 = wordsOf g 16 := by
  refine List.flatMap_congr fun i hi => ?_
  beta_reduce
  rw [fget_setDesc f (List.mem_range.1 hi), fieldLE_wordsOf g (List.mem_range.1 hi), hf, Nat.mod_mod]
  exact leBytes_mod 4 (g i)

theorem actDesc_eq (c : Nat) (s : State) : actDesc c s = wordsOf (fun i => fget F.DC_ACT_DATA (16 * c + i) s) 16 := rfl
theorem shdDesc_eq (c : Nat) (s : State) : shdDesc c s = wordsOf (fun i => fget F.DC_SHD_DATA (16 * c + i) s) 16 := rfl

/-! ### The exchange (R423) -/

/-- R423: the two sets change roles. -/
def setsExchanged (c : Nat) (u : State) : State := setDesc F.DC_ACT_DATA c (shdDesc c u) (setDesc F.DC_SHD_DATA c (actDesc c u) u)

theorem setsExchanged_descs (c : Nat) (u : State) :
    actDesc c (setsExchanged c u) = shdDesc c u ∧ shdDesc c (setsExchanged c u) = actDesc c u := by
  constructor
  · rw [setsExchanged, actDesc_eq, shdDesc_eq, wordsOf_setDesc rfl]
  · rw [setsExchanged, shdDesc_congr ((setDesc_keepsOthers (by decide) ..).fields _ (by decide) (by decide)), shdDesc_eq, actDesc_eq,
      wordsOf_setDesc rfl]

theorem setsExchanged_keepsOthers (c : Nat) (u : State) : KeepsOthers [F.DC_ACT_DATA, F.DC_SHD_DATA] u (setsExchanged c u) :=
  ((setDesc_keepsOthers (by decide) c _ u).mono (by decide)).trans ((setDesc_keepsOthers (by decide) c _ _).mono (by decide))

theorem setsExchanged_mem (c : Nat) (u : State) : (setsExchanged c u).mem = u.mem := (setDesc_mem ..).trans (setDesc_mem ..)
theorem setsExchanged_time (c : Nat) (u : State) : (setsExchanged c u).time = u.time := (setDesc_time ..).trans (setDesc_time ..)

/-- R423: the hinge counts, disarms the shadow and makes the new active descriptor busy. -/
def hingeCounted (c : Nat) (s : State) : State :=
  setFlag F.DC_STATUS_ACTIVE_BUSY c true (setFlag F.DC_STATUS_SHADOW_ARMED c false (bump F.DC_HINGE_CNT_COUNT c s))

def hingeFields : List Fld := [F.DC_STATUS_ACTIVE_BUSY, F.DC_STATUS_SHADOW_ARMED, F.DC_HINGE_CNT_COUNT]

theorem hingeCounted_keepsOthers (c : Nat) (s : State) : KeepsOthers hingeFields s (hingeCounted c s) :=
  (((KeepsOthers.refl hingeFields s).fset (by decide) _ _).fset (by decide) _ _).fset (by decide) _ _

theorem hingeCounted_spec (c : Nat) (s : State) : flag F.DC_STATUS_ACTIVE_BUSY c (hingeCounted c s) = true ∧
    flag F.DC_STATUS_SHADOW_ARMED c (hingeCounted c s) = false ∧
    fget F.DC_HINGE_CNT_COUNT c (hingeCounted c s) = (fget F.DC_HINGE_CNT_COUNT c s + 1) % 2 ^ F.DC_HINGE_CNT_COUNT.w := by
  refine ⟨flag_setFlag_same _ _ _ _ rfl, ?_, ?_⟩
  · rw [hingeCounted, flag_setFlag_other (by decide) (by decide) (by decide)]
    exact flag_setFlag_same _ _ _ _ rfl
  · rw [hingeCounted, fget_setFlag_other (by decide) (by decide) (by decide), fget_setFlag_other (by decide) (by decide) (by decide),
      fget_bump_same]

/-- The channel after a hinge at a core cycle. -/
def hingedChannel (now : Nat) (k : Channel) : Channel :=
  { k with done := false, tickSeen := false, bytes := 0, actIdx := k.shdIdx, shdIdx := k.actIdx, hingedAt := some now }

/-- R423: the state after a hinge, before the new active descriptor is checked. -/
def hinged (c : Nat) (s : State) : State :=
  let u := reachCclk (chan c s).hingeAt s
  chanMod c (hingedChannel u.time.cclk) (hingeCounted c (setsExchanged c u))

/-- What a hinge does beside the registers leaves them. -/
theorem fget_hinged (f : Fld) (i c : Nat) (s : State) :
    fget f i (hinged c s) = fget f i (hingeCounted c (setsExchanged c (reachCclk (chan c s).hingeAt s))) := by
  rw [hinged, fget_chanMod]

theorem hinged_keepsOthers (c : Nat) (s : State) : KeepsOthers (F.DC_ACT_DATA :: F.DC_SHD_DATA :: hingeFields) s (hinged c s) := by
  refine ⟨fun f hf hk i => ?_⟩
  simp only [List.forall_mem_cons] at hf
  obtain ⟨act, shd, rest⟩ := hf
  rw [fget_hinged, (hingeCounted_keepsOthers ..).fields f rest hk,
    (setsExchanged_keepsOthers ..).fields f (by simp [act, shd]) hk]
  rfl

theorem hinged_mem (c : Nat) (s : State) : (hinged c s).mem = s.mem := by
  rw [hinged, chanMod_mem, hingeCounted, setFlag_mem, setFlag_mem, bump_mem, setsExchanged_mem]
  rfl

theorem hinged_time (c : Nat) (s : State) : (hinged c s).time = (reachCclk (chan c s).hingeAt s).time := by
  rw [hinged, chanMod_time, hingeCounted, setFlag_time, setFlag_time, bump_time, setsExchanged_time]

theorem hinged_spec (c : Nat) (s : State) : ∀ v, v = hinged c s →
    actDesc c v = shdDesc c s ∧ shdDesc c v = actDesc c s ∧ flag F.DC_STATUS_ACTIVE_BUSY c v = true ∧
    flag F.DC_STATUS_SHADOW_ARMED c v = false ∧
    fget F.DC_HINGE_CNT_COUNT c v = (fget F.DC_HINGE_CNT_COUNT c s + 1) % 2 ^ F.DC_HINGE_CNT_COUNT.w ∧
    (chan c s).hingeAt ≤ v.time.cclk ∧ v.mem = s.mem := by
  rintro _ rfl
  let u := reachCclk (chan c s).hingeAt s
  have counted := hingeCounted_keepsOthers c (setsExchanged c u)
  obtain ⟨act, shd⟩ := setsExchanged_descs c u
  obtain ⟨shdKept, actKept⟩ := counted.descs (by decide) (by decide) c
  obtain ⟨busy, disarmed, count⟩ := hingeCounted_spec c (setsExchanged c u)
  refine ⟨(actDesc_congr (fget_hinged _ · c s) c).trans (actKept.trans act),
    (shdDesc_congr (fget_hinged _ · c s) c).trans (shdKept.trans shd), ?_, ?_, ?_, ?_, hinged_mem c s⟩
  · rw [flag, fget_hinged]
    exact busy
  · rw [flag, fget_hinged]
    exact disarmed
  · rw [fget_hinged, count, (setsExchanged_keepsOthers c u).fields _ (by decide) (by decide)]
    rfl
  · rw [hinged_time]
    exact le_reachCclk_cclk ..

/-- R423: the hinge, and the check of the new active descriptor. -/
theorem hinge_eq (c : Nat) (s : State) : ∀ r, r = descCheck (dcOwner c s) (shdDesc c s) (hinged c s) →
    hinge c s = if r.1 = 0 then hinged c s else dmaRecord c r.1 r.2 (hinged c s) := by
  have owner : dcOwner c (hinged c s) = dcOwner c s := (hinged_keepsOthers c s).fields _ (by decide) (by decide) c
  have unfolded : hinge c s = if (descCheck (dcOwner c (hinged c s)) (shdDesc c s) (hinged c s)).1 = 0 then hinged c s
      else dmaRecord c (descCheck (dcOwner c (hinged c s)) (shdDesc c s) (hinged c s)).1
        (descCheck (dcOwner c (hinged c s)) (shdDesc c s) (hinged c s)).2 (hinged c s) := rfl
  rintro _ rfl
  rw [unfolded, owner]

/-! ### The statement -/

/-- Settles O38: the state after a hinge is checked, and without its conditions nothing happens. -/
theorem hingesExchangeTheSets : Obligations.HingesExchangeTheSets := by
  refine ⟨fun c s ready tick u hu v hv r hr => ?falls, fun c s h => ?rests⟩
  case falls =>
    subst hu
    have same : v = hinged c s := hv
    subst same
    have falls : exec (.hinge c) s = .next (hinge c s) := by
      refine congrArg Host.Outcome.next (if_pos ?_)
      rcases tick with none | seen
      · simp [ready, none]
      · simp [ready, seen]
    rw [hinge_eq c s r hr] at falls
    refine ⟨fun passes => ?_, fun fails => ?_, hinged_spec c s _ rfl⟩
    · rw [falls, if_pos passes]
    · rw [falls, if_neg fails]
  case rests =>
    refine .intro (t := s) (congrArg Host.Outcome.next (if_neg ?_)) rfl
    rcases h with off | ⟨waits, unseen⟩
    · simp [off]
    · have named : (dcTd c s).isNone = false := by
        cases td : dcTd c s with
        | none => exact absurd td waits
        | some _ => rfl
      simp [named, unseen]

end Sys2Proof.Machine
end

section
/-! SUPPORT. The start, the stop and the drain of a channel (R434, R435, R448). -/
namespace Sys2Proof.Machine

/-! ### ENABLE (R448) -/

/-- R448: some channel has ENABLE 1. -/
def anyEnabled (s : State) : Bool := (List.range 64).any (fun i => flag F.DC_CTRL_ENABLE i s)

theorem dcEnable_eq (c : Nat) (v : Bool) (s : State) : dcEnable c v s =
    if anyEnabled (setFlag F.DC_CTRL_ENABLE c v s) = anyEnabled s then setFlag F.DC_CTRL_ENABLE c v s
    else emit (.ltr (if anyEnabled (setFlag F.DC_CTRL_ENABLE c v s) then some 40 else none)) (setFlag F.DC_CTRL_ENABLE c v s) := rfl

/-- Beside ENABLE, a write of it changes what is sent to the outside alone. -/
theorem dcEnable_parts (c : Nat) (v : Bool) (s : State) : ∃ out, dcEnable c v s = { setFlag F.DC_CTRL_ENABLE c v s with out := out } := by
  rw [dcEnable_eq]; split <;> exact ⟨_, rfl⟩

theorem fget_dcEnable (f : Fld) (i c : Nat) (v : Bool) (s : State) :
    fget f i (dcEnable c v s) = fget f i (setFlag F.DC_CTRL_ENABLE c v s) := by
  obtain ⟨_, parts⟩ := dcEnable_parts c v s
  rw [parts]; rfl

theorem flag_dcEnable_same (c : Nat) (v : Bool) (s : State) : flag F.DC_CTRL_ENABLE c (dcEnable c v s) = v := by
  rw [flag, fget_dcEnable]
  exact flag_setFlag_same _ _ _ _ rfl

theorem dcEnable_keepsOthers (c : Nat) (v : Bool) (s : State) : KeepsOthers [F.DC_CTRL_ENABLE] s (dcEnable c v s) :=
  ⟨fun f hf hk i => (fget_dcEnable ..).trans (fget_setFlag_other (hf _ List.mem_cons_self) (by decide) hk)⟩

theorem dcEnable_mem (c : Nat) (v : Bool) (s : State) : (dcEnable c v s).mem = s.mem := by
  obtain ⟨_, parts⟩ := dcEnable_parts c v s
  rw [parts]; rfl

theorem dcEnable_dma (c : Nat) (v : Bool) (s : State) : (dcEnable c v s).dma = s.dma := by
  obtain ⟨_, parts⟩ := dcEnable_parts c v s
  rw [parts]; rfl

/-- R448: the first channel that is enabled reports the latency tolerance. -/
theorem dcEnable_first {c : Nat} (hc : c < 64) {s : State} (h : anyEnabled s = false) :
    (dcEnable c true s).out = .ltr (some 40) :: s.out := by
  have any : anyEnabled (setFlag F.DC_CTRL_ENABLE c true s) = true :=
    List.any_eq_true.2 ⟨c, List.mem_range.2 hc, flag_setFlag_same _ _ _ _ rfl⟩
  rw [dcEnable_eq, any, h, if_neg (by decide)]
  rfl

/-! ### The start (R435) -/

/-- R435: both sets are empty. -/
def setsEmptied (c : Nat) (s : State) : State := setDesc F.DC_SHD_DATA c [] (setDesc F.DC_ACT_DATA c [] s)

/-- R435: the channel is enabled, with an idle active set and a free shadow. -/
def channelOn (c : Nat) (s : State) : State :=
  setFlag F.DC_STATUS_HALTED c false (setFlag F.DC_STATUS_ENABLED c true
    (setFlag F.DC_STATUS_SHADOW_ARMED c false (setFlag F.DC_STATUS_ACTIVE_BUSY c false s)))

def channelOnFields : List Fld := [F.DC_STATUS_HALTED, F.DC_STATUS_ENABLED, F.DC_STATUS_SHADOW_ARMED, F.DC_STATUS_ACTIVE_BUSY]

/-- R435: in ring mode the fetcher starts at the tail. -/
def ringRestarted (c : Nat) (s : State) : State :=
  if flag F.DC_CTRL_MODE c s then fset F.DC_RING_HEAD_HEAD c (fget F.DC_RING_TAIL_TAIL c s) s else s

theorem dcStart_eq (c : Nat) (s : State) : dcStart c s =
    chanMod c (fun k => { Channel.init with record := k.record }) (ringRestarted c (channelOn c (setsEmptied c s))) := rfl

theorem setsEmptied_keepsOthers (c : Nat) (s : State) : KeepsOthers [F.DC_SHD_DATA, F.DC_ACT_DATA] s (setsEmptied c s) :=
  ((setDesc_keepsOthers (by decide) c [] s).mono (by decide)).trans ((setDesc_keepsOthers (by decide) c [] _).mono (by decide))

/-- A set that is written from no bytes holds zeros. -/
theorem fget_setDesc_nil (f : Fld) {i : Nat} (hi : i < 16) (c : Nat) (s : State) : fget f (16 * c + i) (setDesc f c [] s) = 0 := by
  rw [fget_setDesc f hi, fieldLE, slice, List.drop_nil, List.take_nil]
  exact Nat.zero_mod _

theorem setsEmptied_words {i : Nat} (hi : i < 16) (c : Nat) (s : State) :
    fget F.DC_ACT_DATA (16 * c + i) (setsEmptied c s) = 0 ∧ fget F.DC_SHD_DATA (16 * c + i) (setsEmptied c s) = 0 := by
  refine ⟨?_, fget_setDesc_nil _ hi ..⟩
  rw [setsEmptied, (setDesc_keepsOthers (by decide) ..).fields _ (by decide) (by decide)]
  exact fget_setDesc_nil _ hi ..

theorem channelOn_keepsOthers (c : Nat) (s : State) : KeepsOthers channelOnFields s (channelOn c s) :=
  ((((KeepsOthers.refl channelOnFields s).fset (by decide) _ _).fset (by decide) _ _).fset (by decide) _ _).fset (by decide) _ _

theorem channelOn_flags (c : Nat) (s : State) : flag F.DC_STATUS_ENABLED c (channelOn c s) = true ∧
    flag F.DC_STATUS_ACTIVE_BUSY c (channelOn c s) = false ∧ flag F.DC_STATUS_SHADOW_ARMED c (channelOn c s) = false ∧
    flag F.DC_STATUS_HALTED c (channelOn c s) = false := by
  refine ⟨?_, ?_, ?_, flag_setFlag_same _ _ _ _ rfl⟩
  · rw [channelOn, flag_setFlag_other (by decide) (by decide) (by decide)]
    exact flag_setFlag_same _ _ _ _ rfl
  · rw [channelOn, flag_setFlag_other (by decide) (by decide) (by decide), flag_setFlag_other (by decide) (by decide) (by decide),
      flag_setFlag_other (by decide) (by decide) (by decide)]
    exact flag_setFlag_same _ _ _ _ rfl
  · rw [channelOn, flag_setFlag_other (by decide) (by decide) (by decide), flag_setFlag_other (by decide) (by decide) (by decide)]
    exact flag_setFlag_same _ _ _ _ rfl

theorem ringRestarted_keepsOthers (c : Nat) (s : State) : KeepsOthers [F.DC_RING_HEAD_HEAD] s (ringRestarted c s) :=
  ((KeepsOthers.refl _ s).fset (by decide) ..).ite (.refl _ s)

theorem dcStart_mem (c : Nat) (s : State) : (dcStart c s).mem = s.mem := by
  have ring (u : State) : (ringRestarted c u).mem = u.mem := by unfold ringRestarted; split <;> rfl
  rw [dcStart_eq, chanMod_mem, ring, channelOn, setFlag_mem, setFlag_mem, setFlag_mem, setFlag_mem, setsEmptied, setDesc_mem, setDesc_mem]

theorem dcStart_out (c : Nat) (s : State) : (dcStart c s).out = s.out := by
  have ring (u : State) : (ringRestarted c u).out = u.out := by unfold ringRestarted; split <;> rfl
  rw [dcStart_eq, chanMod_out, ring, channelOn, setFlag_out, setFlag_out, setFlag_out, setFlag_out, setsEmptied, setDesc_out, setDesc_out]

theorem fget_dcStart {f : Fld} (hf : f.key 0 ≠ F.DC_RING_HEAD_HEAD.key 0) (hk : f.key 0 < 16384) (i c : Nat) (s : State) :
    fget f i (dcStart c s) = fget f i (channelOn c (setsEmptied c s)) := by
  rw [dcStart_eq, fget_chanMod]
  exact (ringRestarted_keepsOthers ..).fields f (by simpa using hf) hk i

/-- A field that a start does not name keeps its value. -/
theorem fget_dcStart_other {f : Fld} (hf : ∀ g ∈ F.DC_RING_HEAD_HEAD :: F.DC_SHD_DATA :: F.DC_ACT_DATA :: channelOnFields, f.key 0 ≠ g.key 0)
    (hk : f.key 0 < 16384) (i c : Nat) (s : State) : fget f i (dcStart c s) = fget f i s := by
  simp only [List.forall_mem_cons] at hf
  obtain ⟨head, shd, act, rest⟩ := hf
  rw [fget_dcStart head hk, (channelOn_keepsOthers ..).fields f rest hk, (setsEmptied_keepsOthers ..).fields f (by simp [act, shd]) hk]

/-- R435: the channel is enabled and idle, and both sets are empty. -/
theorem dcStart_spec (c : Nat) (s : State) : ∀ t, t = dcStart c s → flag F.DC_STATUS_ENABLED c t = true ∧
    flag F.DC_STATUS_ACTIVE_BUSY c t = false ∧ flag F.DC_STATUS_SHADOW_ARMED c t = false ∧ flag F.DC_STATUS_HALTED c t = false ∧
    (∀ i, i < 16 → fget F.DC_ACT_DATA (16 * c + i) t = 0 ∧ fget F.DC_SHD_DATA (16 * c + i) t = 0) := by
  rintro _ rfl
  have flags : ∀ f : Fld, f.key 0 ≠ F.DC_RING_HEAD_HEAD.key 0 → f.key 0 < 16384 →
      flag f c (dcStart c s) = flag f c (channelOn c (setsEmptied c s)) := fun f hf hk => congrArg (· == 1) (fget_dcStart hf hk c c s)
  have on := channelOn_keepsOthers c (setsEmptied c s)
  rw [flags _ (by decide) (by decide), flags _ (by decide) (by decide), flags _ (by decide) (by decide), flags _ (by decide) (by decide)]
  obtain ⟨enabled, idle, free, runs⟩ := channelOn_flags c (setsEmptied c s)
  refine ⟨enabled, idle, free, runs, fun i hi => ?_⟩
  obtain ⟨act, shd⟩ := setsEmptied_words hi c s
  rw [fget_dcStart (by decide) (by decide), fget_dcStart (by decide) (by decide), on.fields _ (by decide) (by decide),
    on.fields _ (by decide) (by decide)]
  exact ⟨act, shd⟩

/-- R435, R583: ENABLE of a channel that is not enabled, in OPERATE. -/
theorem dcOn_operate {c : Nat} {s : State} (he : flag F.DC_CTRL_ENABLE c s = false) (hm : s.mode = .operate) : dcOn c s =
    if flag F.DC_STATUS_DRAINING c s then setFlag F.DC_STATUS_ENABLE_PENDING c true (dcEnable c true s)
    else dcStart c (dcEnable c true s) := by
  have draining : flag F.DC_STATUS_DRAINING c (dcEnable c true s) = flag F.DC_STATUS_DRAINING c s :=
    (dcEnable_keepsOthers ..).flag (by decide) (by decide) c
  rw [← draining]
  exact if_neg (by simp [he, hm])

theorem dcOn_outside {c : Nat} {s : State} (hm : s.mode ≠ .operate) : dcOn c s = s := if_pos (by simp [hm])

/-! ### The stop and the drain (R434, R435) -/

/-- R434, R435: ENABLE is 0, and the channel drains. -/
def drainBegun (c : Nat) (s : State) : State :=
  setFlag F.DC_STATUS_SHADOW_ARMED c false (setFlag F.DC_STATUS_DRAINING c true (setFlag F.DC_STATUS_ENABLED c false (dcEnable c false s)))

def drainFields : List Fld := [F.DC_STATUS_SHADOW_ARMED, F.DC_STATUS_DRAINING, F.DC_STATUS_ENABLED, F.DC_CTRL_ENABLE]

theorem drainBegun_keepsOthers (c : Nat) (s : State) : KeepsOthers drainFields s (drainBegun c s) :=
  have off : KeepsOthers drainFields s (dcEnable c false s) := (dcEnable_keepsOthers ..).mono (by decide)
  ((off.fset (by decide) _ _).fset (by decide) _ _).fset (by decide) _ _

theorem drainBegun_spec (c : Nat) (s : State) : flag F.DC_CTRL_ENABLE c (drainBegun c s) = false ∧
    flag F.DC_STATUS_DRAINING c (drainBegun c s) = true ∧ flag F.DC_STATUS_ENABLED c (drainBegun c s) = false ∧
    flag F.DC_STATUS_SHADOW_ARMED c (drainBegun c s) = false ∧ (drainBegun c s).mem = s.mem := by
  refine ⟨?_, ?_, ?_, flag_setFlag_same _ _ _ _ rfl, ?_⟩
  · rw [drainBegun, flag_setFlag_other (by decide) (by decide) (by decide), flag_setFlag_other (by decide) (by decide) (by decide),
      flag_setFlag_other (by decide) (by decide) (by decide), flag_dcEnable_same]
  · rw [drainBegun, flag_setFlag_other (by decide) (by decide) (by decide)]
    exact flag_setFlag_same _ _ _ _ rfl
  · rw [drainBegun, flag_setFlag_other (by decide) (by decide) (by decide), flag_setFlag_other (by decide) (by decide) (by decide)]
    exact flag_setFlag_same _ _ _ _ rfl
  · rw [drainBegun, setFlag_mem, setFlag_mem, setFlag_mem, dcEnable_mem]

/-- R434: a channel that is disabled drains, and its active descriptor is stopped. -/
theorem dcOff_drains {c : Nat} {s : State} (he : flag F.DC_CTRL_ENABLE c s = true) (hd : flag F.DC_STATUS_DRAINING c s = false) :
    dcOff c s = if flag F.DC_STATUS_ACTIVE_BUSY c s && (chan c s).record.isNone then dmaRecord c 5 6 (drainBegun c s)
      else drainBegun c s := by
  have draining : flag F.DC_STATUS_DRAINING c (dcEnable c false s) = false :=
    ((dcEnable_keepsOthers ..).flag (by decide) (by decide) c).trans hd
  have busy : flag F.DC_STATUS_ACTIVE_BUSY c (drainBegun c s) = flag F.DC_STATUS_ACTIVE_BUSY c s :=
    (drainBegun_keepsOthers c s).flag (by decide) (by decide) c
  have channel : chan c (drainBegun c s) = chan c s := chan_congr (dcEnable_dma c false s) c
  rw [← busy, ← channel]
  exact (if_pos he).trans (if_neg (ne_true_of_eq_false draining))

theorem dcDrained_pending {c : Nat} {s : State} (hd : flag F.DC_STATUS_DRAINING c s = true)
    (hp : flag F.DC_STATUS_ENABLE_PENDING c s = true) : dcDrained c s =
      dcStart c (setFlag F.DC_STATUS_ENABLE_PENDING c false (setFlag F.DC_STATUS_DRAINING c false s)) := by
  have waits : flag F.DC_STATUS_ENABLE_PENDING c (setFlag F.DC_STATUS_DRAINING c false s) = true :=
    (flag_setFlag_other (by decide) (by decide) (by decide)).trans hp
  exact (if_neg (by simp [hd])).trans (if_pos waits)

theorem dcDrained_rests {c : Nat} {s : State} (hd : flag F.DC_STATUS_DRAINING c s = true)
    (hp : flag F.DC_STATUS_ENABLE_PENDING c s = false) : dcDrained c s = setFlag F.DC_STATUS_DRAINING c false s := by
  have rests : flag F.DC_STATUS_ENABLE_PENDING c (setFlag F.DC_STATUS_DRAINING c false s) = false :=
    (flag_setFlag_other (by decide) (by decide) (by decide)).trans hp
  exact (if_neg (by simp [hd])).trans (if_neg (ne_true_of_eq_false rests))

end Sys2Proof.Machine
end

section
/-! CERTIFICATE. Descriptors that end or fail, channels that are enabled and drained, rings and completion queues (R419, R426,
R427, R434, R435, R437, R439, R448); O39. -/
namespace Sys2Proof.Machine

/-! ### Descriptors end or fail (R427, R434, R439) -/

/-- What a descriptor streams does not depend on the requests that wait at the arbiter. -/
theorem descStream_hbmAsk (d h : Bytes) (n cls who : Nat) (s : State) : descStream d h n (hbmAsk cls who s) = descStream d h n s := rfl

section
variable {c : Chan} {h : Bytes} {s : State} (hm : dcMoving c s = true)
include hm

theorem descriptorEnd_good (hp : poisonedLine (actDesc c s) s = none) : exec (.descriptorEnd c h) s =
    .next (dcMove c h (dTotal (actDesc c s)) 0 0 s) := by
  simp only [exec, execDescriptorEnd, hm, hp]; rfl

theorem descriptorEnd_poisoned {i : Nat} (hp : poisonedLine (actDesc c s) s = some i) : exec (.descriptorEnd c h) s =
    .next (dcMove c h (i * dSrcLen (actDesc c s)) 5 1 s) := by
  simp only [exec, execDescriptorEnd, hm, hp]; rfl

theorem dmaError_poisoned (n : Nat) (hf : dFill (actDesc c s) = false) : exec (.dmaError c .poisoned h n) s =
    .next (dcMove c h (min n (dTotal (actDesc c s))) 5 1
      (if dSrcSpace (actDesc c s) = 0 then aerLog (dcOwner c s) 0 s else s)) := by
  simp only [exec, execDmaError, hm, hf]; rfl

theorem dmaError_pcie (n : Nat) (hf : dFill (actDesc c s) = false) (hs : dSrcSpace (actDesc c s) = 0) :
    exec (.dmaError c .pcieError h n) s = .next (dcMove c h (min n (dTotal (actDesc c s))) 5 2 (aerLog (dcOwner c s) 1 s)) := by
  simp only [exec, execDmaError, hm, hf, hs]; rfl

end

theorem descriptorEnd_idle {c : Chan} {s : State} (hm : dcMoving c s = false) (h : Bytes) : exec (.descriptorEnd c h) s = .next s :=
  congrArg Host.Outcome.next (if_pos (by simp [hm]))

theorem dmaError_idle {c : Chan} {s : State} (hm : dcMoving c s = false) (x : DmaErr) (h : Bytes) (n : Nat) :
    exec (.dmaError c x h n) s = .next s := congrArg Host.Outcome.next (if_pos (by simp [hm]))

/-! ### ENABLE (R434, R435, R448) -/

/-- The fields that a write of DC_CTRL stores do not hold ENABLE. -/
theorem ctrlStored_forced (c : Nat) (w : Word) (b : Bool) (s : State) : ctrlStored c (withBit w 0 b) s = ctrlStored c w s := by
  rw [ctrlStored, wbit_mode_forced (by decide) (by decide), wbit_withBit_other _ _ _ _ (by decide) (by decide) (by decide),
    wfld_withBit_other _ _ _ _ (by decide) (by decide) (by decide), ctrlStored]

theorem ctrlRefusal_forced {c : Nat} {w : Word} {s : State} (hm : wbit F.DC_CTRL_MODE w = flag F.DC_CTRL_MODE c s)
    (ha : wbit F.DC_CTRL_ARM w = false) (b : Bool) : ctrlRefusal c (withBit w 0 b) s = 0 := by
  have noArm : wbit F.DC_CTRL_ARM (withBit w 0 b) = false :=
    (wbit_withBit_other _ _ _ _ (by decide) (by decide) (by decide)).trans ha
  rw [ctrlRefusal_arm (by rwa [wbit_mode_forced (by decide) (by decide)]), if_neg (ne_true_of_eq_false noArm)]

theorem ctrlApplied_forced {c : Nat} {w : Word} {s : State} (ha : wbit F.DC_CTRL_ARM w = false) (hu : wbit F.DC_CTRL_RESUME w = false)
    (b : Bool) : ctrlApplied c (withBit w 0 b) s = ctrlStored c w s := by
  have noArm : wbit F.DC_CTRL_ARM (withBit w 0 b) = false :=
    (wbit_withBit_other _ _ _ _ (by decide) (by decide) (by decide)).trans ha
  have noResume : wbit F.DC_CTRL_RESUME (withBit w 0 b) = false :=
    (wbit_withBit_other _ _ _ _ (by decide) (by decide) (by decide)).trans hu
  rw [ctrlApplied_plain noArm, resumedBy, if_neg (ne_true_of_eq_false noResume), ctrlStored_forced]

section
variable {fn : Fn} {c : Chan} {w : Word} {s : State} (hr : Reaches fn .DC_CTRL c s)
  (hm : wbit F.DC_CTRL_MODE w = flag F.DC_CTRL_MODE c s) (ha : wbit F.DC_CTRL_ARM w = false)
  (hu : wbit F.DC_CTRL_RESUME w = false)
include hr hm ha hu

theorem dcEnable_runs : exec (.dcEnable fn c w) s = .next (fset F.DC_CTRL_RESULT c 0 (dcOn c (ctrlStored c w s))) := by
  rw [dcEnable_exec hr, dcCtrl_on (ctrlRefusal_forced hm ha true) (wbit_enable_forced w true), ctrlApplied_forced ha hu]

theorem dcDisable_runs : exec (.dcDisable fn c w) s = .next (fset F.DC_CTRL_RESULT c 0 (dcOff c (ctrlStored c w s))) := by
  rw [dcDisable_exec hr, dcCtrl_off (ctrlRefusal_forced hm ha false) (wbit_enable_forced w false), ctrlApplied_forced ha hu]

/-- R435, R448: ENABLE starts a channel that does not drain. -/
theorem dcEnable_starts (ho : s.mode = .operate) (he : flag F.DC_CTRL_ENABLE c s = false)
    (hd : flag F.DC_STATUS_DRAINING c s = false) : Completes (.dcEnable fn c w) s fun t =>
      flag F.DC_CTRL_ENABLE c t = true ∧ flag F.DC_STATUS_ENABLED c t = true ∧
      flag F.DC_STATUS_ACTIVE_BUSY c t = false ∧ flag F.DC_STATUS_SHADOW_ARMED c t = false ∧ flag F.DC_STATUS_HALTED c t = false ∧
      (∀ i, i < 16 → fget F.DC_ACT_DATA (16 * c + i) t = 0 ∧ fget F.DC_SHD_DATA (16 * c + i) t = 0) ∧
      ((List.range 64).all (fun i => !flag F.DC_CTRL_ENABLE i s) = true → t.out = .ltr (some 40) :: s.out) ∧ t.mem = s.mem := by
  have stored := ctrlStored_keepsOthers c w s
  have off : flag F.DC_CTRL_ENABLE c (ctrlStored c w s) = false := (stored.flag (by decide) (by decide) c).trans he
  have rests : flag F.DC_STATUS_DRAINING c (ctrlStored c w s) = false := (stored.flag (by decide) (by decide) c).trans hd
  have runs := dcEnable_runs hr hm ha hu
  rw [dcOn_operate off ho, if_neg (ne_true_of_eq_false rests)] at runs
  refine .intro runs ?_
  obtain ⟨enabled, idle, free, goes, words⟩ := dcStart_spec c (dcEnable c true (ctrlStored c w s)) _ rfl
  rw [flag_fset_other (by decide) (by decide) (by decide), flag_fset_other (by decide) (by decide) (by decide),
    flag_fset_other (by decide) (by decide) (by decide), flag_fset_other (by decide) (by decide) (by decide),
    flag_fset_other (by decide) (by decide) (by decide)]
  refine ⟨?on, enabled, idle, free, goes, fun i hi => ?words, fun none => ?ltr, ?mem⟩
  case on =>
    rw [flag, fget_dcStart_other (by decide) (by decide)]
    exact flag_dcEnable_same ..
  case words =>
    rw [fget_fset_other (by decide) (by decide) (by decide), fget_fset_other (by decide) (by decide) (by decide)]
    exact words i hi
  case ltr =>
    have nobody : anyEnabled (ctrlStored c w s) = false := by
      refine List.any_eq_false.2 fun i hi => ?_
      rw [stored.flag (by decide) (by decide)]
      simpa using List.all_eq_true.1 none i hi
    rw [fset_out, dcStart_out, dcEnable_first c.isLt nobody]
    rfl
  case mem =>
    rw [fset_mem, dcStart_mem, dcEnable_mem]
    rfl

/-- R435: ENABLE of a channel that drains waits for the end of the drain. -/
theorem dcEnable_waits (ho : s.mode = .operate) (he : flag F.DC_CTRL_ENABLE c s = false)
    (hd : flag F.DC_STATUS_DRAINING c s = true) : Completes (.dcEnable fn c w) s fun t =>
      flag F.DC_CTRL_ENABLE c t = true ∧ flag F.DC_STATUS_ENABLE_PENDING c t = true ∧
      flag F.DC_STATUS_ENABLED c t = flag F.DC_STATUS_ENABLED c s ∧ t.mem = s.mem := by
  have stored := ctrlStored_keepsOthers c w s
  have off : flag F.DC_CTRL_ENABLE c (ctrlStored c w s) = false := (stored.flag (by decide) (by decide) c).trans he
  have drains : flag F.DC_STATUS_DRAINING c (ctrlStored c w s) = true := (stored.flag (by decide) (by decide) c).trans hd
  have runs := dcEnable_runs hr hm ha hu
  rw [dcOn_operate off ho, if_pos drains] at runs
  refine .intro runs ?_
  rw [flag_fset_other (by decide) (by decide) (by decide), flag_fset_other (by decide) (by decide) (by decide),
    flag_fset_other (by decide) (by decide) (by decide)]
  refine ⟨?_, flag_setFlag_same _ _ _ _ rfl, ?_, ?_⟩
  · rw [flag_setFlag_other (by decide) (by decide) (by decide), flag_dcEnable_same]
  · rw [flag_setFlag_other (by decide) (by decide) (by decide), (dcEnable_keepsOthers ..).flag (by decide) (by decide),
      stored.flag (by decide) (by decide)]
  · rw [fset_mem, setFlag_mem, dcEnable_mem]
    rfl

/-- R570: outside OPERATE no channel is enabled. -/
theorem dcEnable_outside (ho : s.mode ≠ .operate) : Completes (.dcEnable fn c w) s fun t =>
    flag F.DC_CTRL_ENABLE c t = flag F.DC_CTRL_ENABLE c s ∧ flag F.DC_STATUS_ENABLED c t = flag F.DC_STATUS_ENABLED c s ∧
    t.mem = s.mem := by
  have stored := ctrlStored_keepsOthers c w s
  have runs := dcEnable_runs hr hm ha hu
  rw [dcOn_outside (show (ctrlStored c w s).mode ≠ .operate from ho)] at runs
  refine .intro runs ⟨?_, ?_, rfl⟩
  · rw [flag_fset_other (by decide) (by decide) (by decide), stored.flag (by decide) (by decide)]
  · rw [flag_fset_other (by decide) (by decide) (by decide), stored.flag (by decide) (by decide)]

variable (he : flag F.DC_CTRL_ENABLE c s = true) (hd : flag F.DC_STATUS_DRAINING c s = false)
include he hd

/-- R434: what ENABLE 0 does to a channel that does not drain. -/
theorem dcDisable_drains : exec (.dcDisable fn c w) s = .next (fset F.DC_CTRL_RESULT c 0
    (if flag F.DC_STATUS_ACTIVE_BUSY c s && (chan c s).record.isNone then dmaRecord c 5 6 (drainBegun c (ctrlStored c w s))
      else drainBegun c (ctrlStored c w s))) := by
  have stored := ctrlStored_keepsOthers c w s
  have on : flag F.DC_CTRL_ENABLE c (ctrlStored c w s) = true := (stored.flag (by decide) (by decide) c).trans he
  have rests : flag F.DC_STATUS_DRAINING c (ctrlStored c w s) = false := (stored.flag (by decide) (by decide) c).trans hd
  have runs := dcDisable_runs hr hm ha hu
  rw [dcOff_drains on rests, stored.flag (by decide) (by decide)] at runs
  exact runs

/-- R435: ENABLE 0 of a channel whose active set is idle. -/
theorem dcDisable_idle (hb : flag F.DC_STATUS_ACTIVE_BUSY c s = false) : Completes (.dcDisable fn c w) s fun t =>
    flag F.DC_CTRL_ENABLE c t = false ∧ flag F.DC_STATUS_DRAINING c t = true ∧ flag F.DC_STATUS_ENABLED c t = false ∧
    flag F.DC_STATUS_SHADOW_ARMED c t = false ∧ t.mem = s.mem := by
  have runs := dcDisable_drains hr hm ha hu he hd
  rw [if_neg (by simp [hb])] at runs
  refine .intro runs ?_
  rw [flag_fset_other (by decide) (by decide) (by decide), flag_fset_other (by decide) (by decide) (by decide),
    flag_fset_other (by decide) (by decide) (by decide), flag_fset_other (by decide) (by decide) (by decide)]
  exact drainBegun_spec c (ctrlStored c w s)

end

/-! ### The end of a drain (R435) -/

theorem dcDrainEnd_completes {c : Chan} {s : State} (hd : flag F.DC_STATUS_DRAINING c s = true) :
    Completes (.dcDrainEnd c) s fun t => flag F.DC_STATUS_DRAINING c t = false ∧
      (flag F.DC_STATUS_ENABLE_PENDING c s = true → flag F.DC_STATUS_ENABLED c t = true ∧ flag F.DC_STATUS_ENABLE_PENDING c t = false) ∧
      (flag F.DC_STATUS_ENABLE_PENDING c s = false → OnlyFields [F.DC_STATUS_DRAINING.key c] s t) ∧ t.mem = s.mem := by
  refine .intro (t := dcDrained c s) rfl ?_
  cases hp : flag F.DC_STATUS_ENABLE_PENDING c s with
  | false =>
    rw [dcDrained_rests hd hp]
    obtain ⟨ended, only⟩ := setFlag_answers (f := F.DC_STATUS_DRAINING) rfl c false s
    exact ⟨ended, nofun, fun _ => only, rfl⟩
  | true =>
    rw [dcDrained_pending hd hp]
    obtain ⟨enabled, -⟩ := dcStart_spec c (setFlag F.DC_STATUS_ENABLE_PENDING c false (setFlag F.DC_STATUS_DRAINING c false s)) _ rfl
    refine ⟨?_, fun _ => ⟨enabled, ?_⟩, nofun, (dcStart_mem ..).trans rfl⟩
    · rw [flag, fget_dcStart_other (by decide) (by decide), ← flag, flag_setFlag_other (by decide) (by decide) (by decide)]
      exact flag_setFlag_same _ _ _ _ rfl
    · rw [flag, fget_dcStart_other (by decide) (by decide)]
      exact flag_setFlag_same _ _ _ _ rfl

/-! ### Rings (R426, R439) -/

section
variable {fn : Fn} {c : Chan} {w : Word} {s : State} (hr : Reaches fn .DC_RING_TAIL c s)
include hr

theorem dcRingTail_exec : exec (.dcRingTail fn c w) s = .next (ringTail c w s) := congrArg Host.Outcome.next (hostWr_reaches hr _)

theorem dcRingTail_beyond (h : 2 ^ fget F.DC_RING_CFG_LOG2_ENTRIES c s ≤ wfld F.DC_RING_TAIL_TAIL w) :
    Completes (.dcRingTail fn c w) s fun t => flag F.DC_STATUS_BAD_TAIL c t = true ∧ OnlyFields [F.DC_STATUS_BAD_TAIL.key c] s t := by
  refine .intro (dcRingTail_exec hr) ?_
  rw [ringTail, if_pos h]
  exact setFlag_answers rfl ..

theorem dcRingTail_within (h : wfld F.DC_RING_TAIL_TAIL w < 2 ^ fget F.DC_RING_CFG_LOG2_ENTRIES c s) :
    Completes (.dcRingTail fn c w) s fun t => fget F.DC_RING_TAIL_TAIL c t = wfld F.DC_RING_TAIL_TAIL w ∧
      chan c t = { chan c s with fetchHeld := false } ∧ t = { s with regs := t.regs, dma := t.dma } ∧
      KeepsFields [F.DC_RING_TAIL_TAIL.key c] s t := by
  refine .intro (dcRingTail_exec hr) ?_
  rw [ringTail, if_neg (Nat.not_le.2 h)]
  exact ⟨(fget_fset_same ..).trans (Nat.mod_eq_of_lt (wfld_lt _ w (by decide))), by rw [chan_congr (fset_dma ..), chan_chanMod_same], rfl,
    (KeepsFields.of_regs rfl).fset List.mem_cons_self⟩

end

/-- R426: the free shadow takes the descriptor, and the fetcher advances. -/
def ringFetched (c : Nat) (d : Bytes) (s : State) : State :=
  fset F.DC_RING_HEAD_HEAD c ((fget F.DC_RING_HEAD_HEAD c s + 1) % 2 ^ fget F.DC_RING_CFG_LOG2_ENTRIES c s) (setDesc F.DC_SHD_DATA c d s)

/-- R426: the shadow is armed with the descriptor at an index of the ring. -/
def ringArmed (c h : Nat) (s : State) : State :=
  hingeSoon c (chanMod c (fun k => { k with shdIdx := h }) (setFlag F.DC_STATUS_SHADOW_ARMED c true s))

theorem fget_ringArmed (f : Fld) (i c h : Nat) (s : State) :
    fget f i (ringArmed c h s) = fget f i (setFlag F.DC_STATUS_SHADOW_ARMED c true s) := fget_congr (hingeSoon_regs ..)

theorem chan_ringArmed (c h : Nat) (s : State) : (chan c (ringArmed c h s)).shdIdx = h := by
  rw [ringArmed, hingeSoon]
  split
  · rw [chan_chanMod_same]
  · rw [chan_chanMod_same, chan_chanMod_same]

section
variable {c : Chan} {s : State}

theorem descriptorFetch_exec (hm : flag F.DC_CTRL_MODE c s = true) (he : flag F.DC_STATUS_ENABLED c s = true)
    (ha : flag F.DC_STATUS_SHADOW_ARMED c s = false) (hh : fget F.DC_RING_HEAD_HEAD c s ≠ fget F.DC_RING_TAIL_TAIL c s)
    (hf : (chan c s).fetchHeld = false) (hd : fnD0 (dcOwner c s) s = true) (d : Bytes) : exec (.descriptorFetch c d) s =
      .next (ringArmed c (fget F.DC_RING_HEAD_HEAD c s) (ringFetched c d s)) := by
  have log : fget F.DC_RING_CFG_LOG2_ENTRIES c (setDesc F.DC_SHD_DATA c d s) = fget F.DC_RING_CFG_LOG2_ENTRIES c s :=
    (setDesc_keepsOthers (by decide) ..).fields _ (by decide) (by decide) c
  rw [ringFetched, ← log]
  exact congrArg Host.Outcome.next (if_neg (by simp [hm, he, ha, hh, hf, hd]))

theorem descriptorFetch_idle (h : flag F.DC_CTRL_MODE c s = false ∨ flag F.DC_STATUS_ENABLED c s = false ∨
    flag F.DC_STATUS_SHADOW_ARMED c s = true ∨ (chan c s).fetchHeld = true ∨ fnD0 (dcOwner c s) s = false) (d : Bytes) :
    exec (.descriptorFetch c d) s = .next s := by
  refine congrArg Host.Outcome.next (if_pos ?_)
  rcases h with block | off | armed | held | low
  · simp [block]
  · simp [off]
  · simp [armed]
  · simp [held]
  · simp [low]

end

/-- R426: what a fetch leaves. -/
theorem ringArmed_spec (c : Nat) (d : Bytes) (s : State) : ∀ t, t = ringArmed c (fget F.DC_RING_HEAD_HEAD c s) (ringFetched c d s) →
    flag F.DC_STATUS_SHADOW_ARMED c t = true ∧ shdDesc c t = shdDesc c (setDesc F.DC_SHD_DATA c d s) ∧ actDesc c t = actDesc c s ∧
    fget F.DC_RING_HEAD_HEAD c t = (fget F.DC_RING_HEAD_HEAD c s + 1) % 2 ^ fget F.DC_RING_CFG_LOG2_ENTRIES c s % 2 ^ F.DC_RING_HEAD_HEAD.w ∧
    (chan c t).shdIdx = fget F.DC_RING_HEAD_HEAD c s ∧ t.mem = s.mem := by
  rintro _ rfl
  refine ⟨?armed, shdDesc_congr (fun i => ?shd) c, actDesc_congr (fun i => ?act) c, ?head, chan_ringArmed .., ?mem⟩
  case armed =>
    rw [flag, fget_ringArmed]
    exact flag_setFlag_same _ _ _ _ rfl
  case shd =>
    rw [fget_ringArmed, fget_setFlag_other (by decide) (by decide) (by decide), ringFetched,
      fget_fset_other (by decide) (by decide) (by decide)]
  case act =>
    rw [fget_ringArmed, fget_setFlag_other (by decide) (by decide) (by decide), ringFetched,
      fget_fset_other (by decide) (by decide) (by decide), (setDesc_keepsOthers (by decide) ..).fields _ (by decide) (by decide)]
  case head =>
    rw [fget_ringArmed, fget_setFlag_other (by decide) (by decide) (by decide), ringFetched, fget_fset_same]
  case mem => rw [ringArmed, hingeSoon_mem, chanMod_mem, setFlag_mem, ringFetched, fset_mem, setDesc_mem]

/-! ### Completion queues (R437) -/

/-- R437: a queue that is enabled, with its size and an empty HEAD. -/
def cqStarted (q : Nat) (w : Word) (s : State) : State :=
  fset F.CQ_HEAD_HEAD q 0 (setFlag F.CQ_CFG_ENABLE q true (fset F.CQ_CFG_LOG2_ENTRIES q (clampN 4 16 (wfld F.CQ_CFG_LOG2_ENTRIES w)) s))

theorem clampN_eq {lo hi : Nat} (h : lo ≤ hi) (v : Nat) : clampN lo hi v = max lo (min hi v) := by
  unfold clampN
  split_ifs <;> omega

theorem cqStarted_spec (q : Nat) (w : Word) (s : State) : cqOn q (cqStarted q w s) = true ∧ fget F.CQ_HEAD_HEAD q (cqStarted q w s) = 0 ∧
    fget F.CQ_CFG_LOG2_ENTRIES q (cqStarted q w s) = max 4 (min 16 (wfld F.CQ_CFG_LOG2_ENTRIES w)) ∧ (cqStarted q w s).mem = s.mem := by
  refine ⟨?_, fget_fset_same .., ?_, rfl⟩
  · rw [cqOn, cqStarted, flag_fset_other (by decide) (by decide) (by decide)]
    exact flag_setFlag_same _ _ _ _ rfl
  · rw [cqStarted, fget_fset_other (by decide) (by decide) (by decide), fget_setFlag_other (by decide) (by decide) (by decide),
      fget_fset_same, clampN_eq (by decide)]
    have width : F.CQ_CFG_LOG2_ENTRIES.w = 5 := rfl
    rw [width]
    omega

theorem cqEnable_exec {fn : Fn} {q : Cq} {s : State} (hr : Reaches fn .CQ_CFG q s) (he : flag F.CQ_CFG_ENABLE q s = false) (w : Word) :
    exec (.cqEnable fn q w) s = .next (retryRecords { cqStarted q w s with cqPhase := Tab.del s.cqPhase q }) := by
  have on : wbit F.CQ_CFG_ENABLE (withBit w 31 true) = true := wbit_withBit_same F.CQ_CFG_ENABLE w true rfl (by decide)
  have log : wfld F.CQ_CFG_LOG2_ENTRIES (withBit w 31 true) = wfld F.CQ_CFG_LOG2_ENTRIES w :=
    wfld_withBit_other _ _ _ _ (by decide) (by decide) (by decide)
  refine congrArg Host.Outcome.next ((hostWr_reaches hr _).trans ?_)
  rw [cqCfg, on, log, if_neg (ne_true_of_eq_false he)]
  rfl

/-! ### The statement -/

/-- Settles O39: each end of a descriptor, ENABLE and the drain, the ring and the completion queue by their own rules above. -/
theorem channelsRunAndDrain : Obligations.ChannelsRunAndDrain := by
  refine ⟨?descriptors, fun c h n x s hm => ⟨.intro (descriptorEnd_idle hm h) rfl, .intro (dmaError_idle hm x h n) rfl⟩,
    fun fn c w s hr hm ha hu => ⟨dcEnable_starts hr hm ha hu, dcEnable_waits hr hm ha hu, dcEnable_outside hr hm ha hu,
      dcDisable_idle hr hm ha hu, ?stop⟩,
    fun c s => dcDrainEnd_completes, fun fn c w s hr => ⟨dcRingTail_beyond hr, dcRingTail_within hr⟩,
    fun c d s => ⟨fun hm he ha hh hf hd => .intro (descriptorFetch_exec hm he ha hh hf hd d) (ringArmed_spec c d s _ rfl),
      fun h => .intro (descriptorFetch_idle h d) rfl⟩, ?queue⟩
  case descriptors =>
    rintro c h s hm _ rfl
    refine ⟨fun good => ?_, fun i => descriptorEnd_poisoned hm, fun n fills device => ?_, fun n fills host => ?_,
      fun n => dmaError_pcie hm n⟩
    · rw [descStream_hbmAsk]
      exact descriptorEnd_good hm good
    · rw [dmaError_poisoned hm n fills, if_neg device]
    · rw [dmaError_poisoned hm n fills, if_pos host]
  case stop =>
    intro he hd busy none u eq
    rw [show u = drainBegun c (ctrlStored c w s) from eq, dcDisable_drains hr hm ha hu he hd, busy, none]
    rfl
  case queue =>
    intro fn q w s hr he v hv
    rw [show v = cqStarted q w s from hv]
    exact ⟨cqEnable_exec hr he w, cqStarted_spec q w s⟩

end Sys2Proof.Machine
end

section
/-! SUPPORT and CERTIFICATE. Requests to the pool manager and returns of buffers (R403, R411 to R416, R443); O34. -/
namespace Sys2Proof.Machine

/-! ### A request to the arbiter (R23) leaves the pools -/

@[simp] theorem fget_hbmAsk (f : Fld) (i cls who : Nat) (s : State) : fget f i (hbmAsk cls who s) = fget f i s := rfl
@[simp] theorem flag_hbmAsk (f : Fld) (i cls who : Nat) (s : State) : flag f i (hbmAsk cls who s) = flag f i s := rfl
@[simp] theorem hbmAsk_mem (cls who : Nat) (s : State) : (hbmAsk cls who s).mem = s.mem := rfl
@[simp] theorem hbmAsk_coding (cls who : Nat) (s : State) : (hbmAsk cls who s).coding = s.coding := rfl
@[simp] theorem hbmAsk_cfg (cls who : Nat) (s : State) : (hbmAsk cls who s).cfg = s.cfg := rfl
@[simp] theorem poolFree_hbmAsk (p cls who : Nat) (s : State) : poolFree p (hbmAsk cls who s) = poolFree p s := rfl
@[simp] theorem wouldTake_hbmAsk (n cls who : Nat) (s : State) : wouldTake n (hbmAsk cls who s) = wouldTake n s := rfl
@[simp] theorem poisonedIn_hbmAsk (a n cls who : Nat) (s : State) : poisonedIn a n (hbmAsk cls who s) = poisonedIn a n s := rfl
@[simp] theorem bufAllocated_hbmAsk (a cls who : Nat) (s : State) : bufAllocated a (hbmAsk cls who s) = bufAllocated a s := rfl
@[simp] theorem bufSealed_hbmAsk (a cls who : Nat) (s : State) : bufSealed a (hbmAsk cls who s) = bufSealed a s := rfl
@[simp] theorem bufOwner_hbmAsk (a cls who : Nat) (s : State) : bufOwner a (hbmAsk cls who s) = bufOwner a s := rfl

@[simp] theorem ownedBytes_hbmAsk (fn cls who : Nat) (s : State) : ownedBytes fn (hbmAsk cls who s) = ownedBytes fn s := by
  rw [ownedBytes, ownedBytes, hbmAsk_mem, hbmAsk_cfg]

@[simp] theorem decoderBytes_hbmAsk (fn cls who : Nat) (s : State) : decoderBytes fn (hbmAsk cls who s) = decoderBytes fn s := by
  rw [decoderBytes, decoderBytes, hbmAsk_coding, hbmAsk_cfg]

@[simp] theorem quotaAllows_hbmAsk (fn n cls who : Nat) (s : State) : quotaAllows fn n (hbmAsk cls who s) = quotaAllows fn n s := by
  rw [quotaAllows, quotaAllows, ownedBytes_hbmAsk, decoderBytes_hbmAsk, fget_hbmAsk]

/-! ### The state of a buffer (R414) -/

theorem bufState_setBuf (a : Nat) (alloc sld : Bool) (o : Nat) (s : State) :
    bufState a (setBuf a alloc sld o s) = b2n alloc * 2 ^ 15 + b2n sld * 2 ^ 14 + o % 128 := Tab.get_set_same ..

/-- R414: the state of a buffer reads what was set. -/
theorem setBuf_spec (a : Nat) (alloc sld : Bool) (o : Nat) (s : State) : bufAllocated a (setBuf a alloc sld o s) = alloc ∧
    bufSealed a (setBuf a alloc sld o s) = sld ∧ bufOwner a (setBuf a alloc sld o s) = o % 128 := by
  rw [bufAllocated, bufSealed, bufOwner, bufState_setBuf, bit, bit, Nat.testBit_eq_decide_div_mod_eq, Nat.testBit_eq_decide_div_mod_eq]
  have := Nat.mod_lt o (show 0 < 128 by decide)
  refine ⟨?_, ?_, by omega⟩
  · cases alloc <;> cases sld <;> simp [b2n] <;> omega
  · cases alloc <;> cases sld <;> simp [b2n] <;> omega

@[simp] theorem bufAllocated_fset (a : Nat) (f : Fld) (i v : Nat) (s : State) : bufAllocated a (fset f i v s) = bufAllocated a s := rfl
@[simp] theorem bufSealed_fset (a : Nat) (f : Fld) (i v : Nat) (s : State) : bufSealed a (fset f i v s) = bufSealed a s := rfl
@[simp] theorem readByte_fset (a : Nat) (f : Fld) (i v : Nat) (s : State) : readByte a (fset f i v s) = readByte a s := rfl

/-- The state of a buffer depends on the states of the buffers alone. -/
theorem bufState_congr {s t : State} (h : t.mem.buf = s.mem.buf) (a : Nat) : bufState a t = bufState a s := by rw [bufState, bufState, h]

/-- R412, R417: POOL_FREE reads what was set, as far as it fits. -/
theorem poolFree_setPoolFree (p v : Nat) (s : State) : poolFree p (setPoolFree p v s) = v % 2 ^ F.POOL_FREE_COUNT.w := by
  rw [poolFree, setPoolFree, fget_fset_other (by decide) (by decide) (by decide), fget_fset_same]

/-! ### Taking a buffer (R411, R412) -/

/-- What handing out a buffer leaves. -/
theorem poolPick_parts (p : Nat) (s : State) : ∃ mem fresh, (poolPick p s).2 = { s with mem := mem, fresh := fresh } ∧
    mem.cells = s.mem.cells := by
  unfold poolPick
  split <;> exact ⟨_, _, rfl, rfl⟩

theorem poolPick_cells (p : Nat) (s : State) : (poolPick p s).2.mem.cells = s.mem.cells := by
  obtain ⟨_, _, parts, cells⟩ := poolPick_parts p s
  rw [parts, cells]

theorem poolFree_poolPick (p q : Nat) (s : State) : poolFree q (poolPick p s).2 = poolFree q s := by
  obtain ⟨_, _, parts, -⟩ := poolPick_parts p s
  rw [parts]; rfl

/-- R411 to R414: the buffer that pool `p` hands out goes to an owner. -/
def bufferTaken (p owner : Nat) (sld : Bool) (s : State) : State :=
  setBuf (poolPick p s).1 true sld owner (setPoolFree p (poolFree p (poolPick p s).2 - 1) (poolPick p s).2)

/-- R411: a request that another pool than the smallest serves is counted. -/
def fallbackCounted (size p : Nat) (c : Cfg) (s : State) : State :=
  if (poolsFor c size).head? = some p then s else bump F.POOL_FALLBACK_COUNT p s

theorem fallbackCounted_mem (size p : Nat) (c : Cfg) (s : State) : (fallbackCounted size p c s).mem = s.mem := by
  unfold fallbackCounted; split <;> rfl

theorem poolFree_fallbackCounted (q size p : Nat) (c : Cfg) (s : State) : poolFree q (fallbackCounted size p c s) = poolFree q s := by
  unfold fallbackCounted
  split
  · rfl
  · exact fget_bump_other (by decide) (by decide) (by decide)

/-- R411: the pool that serves a request is one of those with buffers of the size, and it has a free one. -/
theorem poolTake_served {size owner : Nat} {sld : Bool} {s : State} (h : (poolTake size owner sld s).1.result = 0) :
    ∃ p, p ∈ poolsFor s.cfg size ∧ 0 < poolFree p s ∧ poolTake size owner sld s =
      (⟨0, p, (poolPick p s).1⟩, fallbackCounted size p s.cfg (bufferTaken p owner sld s)) := by
  unfold poolTake at h ⊢
  dsimp only at h ⊢
  split at h
  · exact absurd h (by simp)
  · next fits =>
    rw [if_neg fits]
    split at h
    · exact absurd h (by simp)
    · next p find =>
      split at h
      · exact absurd h (by simp)
      · next good =>
        rw [if_neg good]
        refine ⟨p, List.mem_of_find?_eq_some find, by simpa using List.find?_some find, rfl⟩

theorem bufferTaken_spec (p : Nat) (fn : Fn) (s : State) : ∀ t, t = bufferTaken p fn false s →
    bufAllocated (poolPick p s).1 t = true ∧ bufSealed (poolPick p s).1 t = false ∧ bufOwner (poolPick p s).1 t = fn.val ∧
    poolFree p t = (poolFree p s - 1) % 2 ^ F.POOL_FREE_COUNT.w ∧ t.mem.cells = s.mem.cells := by
  rintro _ rfl
  obtain ⟨allocated, free, owner⟩ := setBuf_spec (poolPick p s).1 true false fn
    (setPoolFree p (poolFree p (poolPick p s).2 - 1) (poolPick p s).2)
  refine ⟨allocated, free, owner.trans (Nat.mod_eq_of_lt (Nat.lt_trans fn.isLt (by decide))), ?_, poolPick_cells p s⟩
  exact (poolFree_setPoolFree ..).trans (by rw [poolFree_poolPick])

/-! ### POOL_REQ (R411, R443) -/

/-- R411: the answer in POOL_RESP and POOL_PTR. -/
def poolAnswered (fn : Nat) (a : PoolAns × State) : State :=
  if a.1.result ≠ 0 then fset F.POOL_RESP_RESULT fn a.1.result a.2
  else fset F.POOL_PTR_HI_PTR fn (a.1.addr / 2 ^ 32) (fset F.POOL_PTR_LO_PTR fn a.1.addr
    (fset F.POOL_RESP_POOL fn a.1.pool (fset F.POOL_RESP_RESULT fn a.1.result a.2)))

/-- R443: the request has a size that pools serve, and its buffer would exceed the function's quota. -/
def overQuota (fn size : Nat) (s : State) : Bool :=
  decide (0 < size) && decide (size ≤ 268435456) && poolsFor s.cfg size != [] && !quotaAllows fn (wouldTake size s) s

theorem poolRequest_eq (fn : Nat) (w : Word) (s : State) : poolRequest fn w s =
    if flag F.POOL_RESP_PENDING fn s then s
    else poolAnswered fn (if overQuota fn (wfld F.POOL_REQ_BYTES w) s then (⟨1, 0, 0⟩, s)
      else poolAsk (wfld F.POOL_REQ_BYTES w) fn false s) := rfl

def poolAnswerFields : List Fld := [F.POOL_PTR_HI_PTR, F.POOL_PTR_LO_PTR, F.POOL_RESP_POOL, F.POOL_RESP_RESULT]

/-- R411: what a function reads of an answer OK. -/
theorem poolAnswered_ok (fn p a : Nat) (hp : p < 8) (s : State) : ∀ t, t = poolAnswered fn (⟨0, p, a⟩, s) →
    fget F.POOL_RESP_RESULT fn t = 0 ∧ fget F.POOL_RESP_POOL fn t = p ∧ fget F.POOL_PTR_LO_PTR fn t = a % 2 ^ 32 ∧
    fget F.POOL_PTR_HI_PTR fn t = a / 2 ^ 32 % 2 ^ F.POOL_PTR_HI_PTR.w ∧ KeepsOthers poolAnswerFields s t ∧ t.mem = s.mem := by
  rintro _ rfl
  rw [poolAnswered, if_neg (by simp)]
  refine ⟨?result, ?pool, ?low, fget_fset_same .., ?keeps, rfl⟩
  case result =>
    rw [fget_fset_other (by decide) (by decide) (by decide), fget_fset_other (by decide) (by decide) (by decide),
      fget_fset_other (by decide) (by decide) (by decide), fget_fset_same]
    rfl
  case pool =>
    rw [fget_fset_other (by decide) (by decide) (by decide), fget_fset_other (by decide) (by decide) (by decide), fget_fset_same]
    exact Nat.mod_eq_of_lt hp
  case low =>
    rw [fget_fset_other (by decide) (by decide) (by decide), fget_fset_same]
    rfl
  case keeps =>
    exact ((((KeepsOthers.refl poolAnswerFields s).fset (by decide) _ _).fset (by decide) _ _).fset (by decide) _ _).fset (by decide) _ _

/-- R403: an answer OK is that of the pools. -/
theorem poolAsk_ok {size owner : Nat} {sld : Bool} {s : State} (h : (poolAsk size owner sld s).1.result = 0) :
    poolAsk size owner sld s = poolTake size owner sld s := by
  unfold poolAsk at h ⊢
  dsimp only at h ⊢
  split at h
  · next poisoned => exact absurd (poisoned.symm.trans h) (by decide)
  · next good => rw [if_neg good]

section
variable {fn n : Nat} {w : Word} {s : State} (hn : n = wfld F.POOL_REQ_BYTES w) (hp : flag F.POOL_RESP_PENDING fn s = false)
include hn hp

/-- R411: a request of 0 bytes. -/
theorem poolRequest_none (h : n = 0) : poolRequest fn w s = fset F.POOL_RESP_RESULT fn 6 s := by
  subst h
  rw [poolRequest_eq, if_neg (ne_true_of_eq_false hp), ← hn]
  rfl

/-- R443: a request beyond the quota. -/
theorem poolRequest_beyond (h : overQuota fn n s = true) : poolRequest fn w s = fset F.POOL_RESP_RESULT fn 1 s := by
  rw [poolRequest_eq, if_neg (ne_true_of_eq_false hp), ← hn, if_pos h]
  rfl

/-- R411, R443: a request within the quota is what the pools answer. -/
theorem poolRequest_within (h : quotaAllows fn (wouldTake n s) s = true) :
    poolRequest fn w s = poolAnswered fn (poolAsk n fn false s) := by
  have within : overQuota fn n s = false := by simp [overQuota, h]
  rw [poolRequest_eq, if_neg (ne_true_of_eq_false hp), ← hn, if_neg (ne_true_of_eq_false within)]

end

/-- R411 to R414: what the pools answer to a request that they serve. -/
theorem poolAsk_serves {fn : Fn} {n : Nat} {s : State} : ∀ x, x = poolAsk n fn false s → x.1.result = 0 →
    ∀ t, t = poolAnswered fn x →
    fget F.POOL_RESP_RESULT fn t = 0 ∧ fget F.POOL_RESP_POOL fn t = x.1.pool ∧ fget F.POOL_PTR_LO_PTR fn t = x.1.addr % 2 ^ 32 ∧
    fget F.POOL_PTR_HI_PTR fn t = x.1.addr / 2 ^ 32 % 2 ^ F.POOL_PTR_HI_PTR.w ∧ n ≤ 2 ^ poolLog2 s.cfg x.1.pool ∧
    bufAllocated x.1.addr t = true ∧ bufSealed x.1.addr t = false ∧ bufOwner x.1.addr t = fn.val ∧
    0 < poolFree x.1.pool s ∧ poolFree x.1.pool t = (poolFree x.1.pool s - 1) % 2 ^ F.POOL_FREE_COUNT.w ∧
    t.mem.cells = s.mem.cells := by
  rintro _ rfl ok _ rfl
  rw [poolAsk_ok ok]
  rw [poolAsk_ok ok] at ok
  obtain ⟨p, serves, free, taken⟩ := poolTake_served ok
  rw [taken]
  obtain ⟨mem, size⟩ := List.mem_filter.1 serves
  simp only [Bool.and_eq_true, decide_eq_true_eq] at size
  obtain ⟨allocated, unsealed, owner, count, cells⟩ := bufferTaken_spec p fn s _ rfl
  obtain ⟨result, pool, low, high, keeps, same⟩ := poolAnswered_ok fn p (poolPick p s).1 (List.mem_range.1 mem)
    (fallbackCounted n p s.cfg (bufferTaken p fn false s)) _ rfl
  have memory := same.trans (fallbackCounted_mem ..)
  have states := bufState_congr (congrArg Memory.buf memory) (poolPick p s).1
  refine ⟨result, pool, low, high, size.2, ?_, ?_, ?_, free, ?_, (congrArg Memory.cells memory).trans cells⟩
  · rw [bufAllocated, states]
    exact allocated
  · rw [bufSealed, states]
    exact unsealed
  · rw [bufOwner, states]
    exact owner
  · rw [poolFree, keeps.fields _ (by decide) (by decide), ← poolFree, poolFree_fallbackCounted, count]

section
variable {fn : Fn} {w : Word} {s : State} (hr : Reaches fn .POOL_REQ fn s)
include hr

theorem poolRequest_exec : exec (.poolRequest fn w) s = .next (poolRequest fn w (hbmAsk 2 128 s)) :=
  congrArg Host.Outcome.next (hostWr_reaches hr _)

/-- R411: a request while a response is pending asks the arbiter alone. -/
theorem poolRequest_pending (hp : flag F.POOL_RESP_PENDING fn s = true) :
    Completes (.poolRequest fn w) s fun t => t.regs = s.regs ∧ t.mem = s.mem := by
  refine .intro (poolRequest_exec hr) ?_
  rw [poolRequest_eq, flag_hbmAsk, if_pos hp]
  exact ⟨rfl, rfl⟩

/-- A request that is turned away answers in RESULT alone. -/
theorem poolRequest_refused {r : Nat} (hl : r < 256)
    (h : poolRequest fn w (hbmAsk 2 128 s) = fset F.POOL_RESP_RESULT fn r (hbmAsk 2 128 s)) : Completes (.poolRequest fn w) s fun t =>
      fget F.POOL_RESP_RESULT fn t = r ∧ KeepsFields [F.POOL_RESP_RESULT.key fn] s t ∧ t.mem = s.mem :=
  .intro ((poolRequest_exec hr).trans (congrArg _ h))
    ⟨(fget_fset_same ..).trans (Nat.mod_eq_of_lt hl), (KeepsFields.of_regs rfl).fset List.mem_cons_self, rfl⟩

variable {n : Nat} (hn : n = wfld F.POOL_REQ_BYTES w) (hp : flag F.POOL_RESP_PENDING fn s = false)
include hn hp

/-- R411: a request of 0 bytes answers BAD_ARG. -/
theorem poolRequest_zero (h : n = 0) : Completes (.poolRequest fn w) s fun t =>
    fget F.POOL_RESP_RESULT fn t = 6 ∧ KeepsFields [F.POOL_RESP_RESULT.key fn] s t ∧ t.mem = s.mem :=
  poolRequest_refused hr (by decide) (poolRequest_none hn (by rwa [flag_hbmAsk]) h)

/-- R443: a request beyond the quota answers BUSY. -/
theorem poolRequest_overQuota (h0 : 0 < n) (hl : n ≤ 268435456) (hf : poolsFor s.cfg n ≠ [])
    (hq : quotaAllows fn (wouldTake n s) s = false) : Completes (.poolRequest fn w) s fun t =>
      fget F.POOL_RESP_RESULT fn t = 1 ∧ KeepsFields [F.POOL_RESP_RESULT.key fn] s t ∧ t.mem = s.mem :=
  poolRequest_refused hr (by decide) (poolRequest_beyond hn (by rwa [flag_hbmAsk]) (by simp [overQuota, h0, hl, hf, hq]))

/-- R411 to R414: a request that the pools serve. -/
theorem poolRequest_served (hq : quotaAllows fn (wouldTake n s) s = true) : ∀ x, x = poolAsk n fn false (hbmAsk 2 128 s) →
    x.1.result = 0 → Completes (.poolRequest fn w) s fun t =>
      fget F.POOL_RESP_RESULT fn t = 0 ∧ fget F.POOL_RESP_POOL fn t = x.1.pool ∧ fget F.POOL_PTR_LO_PTR fn t = x.1.addr % 2 ^ 32 ∧
      fget F.POOL_PTR_HI_PTR fn t = x.1.addr / 2 ^ 32 % 2 ^ F.POOL_PTR_HI_PTR.w ∧ n ≤ 2 ^ poolLog2 s.cfg x.1.pool ∧
      bufAllocated x.1.addr t = true ∧ bufSealed x.1.addr t = false ∧ bufOwner x.1.addr t = fn.val ∧
      0 < poolFree x.1.pool s ∧ poolFree x.1.pool t = (poolFree x.1.pool s - 1) % 2 ^ F.POOL_FREE_COUNT.w ∧
      t.mem.cells = s.mem.cells := by
  intro x hx ok
  have answer := poolRequest_within (fn := fn) (s := hbmAsk 2 128 s) hn (by rwa [flag_hbmAsk])
    (by rwa [wouldTake_hbmAsk, quotaAllows_hbmAsk])
  rw [← hx] at answer
  refine .intro ((poolRequest_exec hr).trans (congrArg _ answer)) ?_
  have serves := poolAsk_serves x hx ok _ rfl
  rwa [hbmAsk_cfg, poolFree_hbmAsk, hbmAsk_mem] at serves

end

/-! ### POOL_RET (R403, R415, R416) -/

/-- R415: a return that is refused is counted and shown. -/
def returnRefused (fn : Nat) (s : State) : State :=
  fset F.POOL_RET_RESP_RESULT fn 6 (setEvent F.MEM_STATUS_BAD_RETURN 0 99 (bump F.POOL_BAD_RET_COUNT fn s))

theorem returnRefused_spec (fn : Nat) (s : State) : ∀ t, t = returnRefused fn s → fget F.POOL_RET_RESP_RESULT fn t = 6 ∧
    fget F.POOL_BAD_RET_COUNT fn t = (fget F.POOL_BAD_RET_COUNT fn s + 1) % 2 ^ F.POOL_BAD_RET_COUNT.w ∧
    flag F.MEM_STATUS_BAD_RETURN 0 t = true ∧ t.mem = s.mem := by
  rintro _ rfl
  refine ⟨fget_fset_same .., ?_, ?_, ?_⟩
  · rw [returnRefused, fget_fset_other (by decide) (by decide) (by decide),
      fget_setEvent_other (by decide) (by decide) (by decide) (by decide) (by decide), fget_bump_same]
  · rw [returnRefused, flag_fset_other (by decide) (by decide) (by decide)]
    exact flag_setEvent_same rfl (by decide) (by decide) (by decide)
  · rw [returnRefused, fset_mem, setEvent_mem, bump_mem]

/-- R415: the address is in a pool, but it is no buffer of it, or one of good state that the function does not own. -/
def badReturn (fn a p : Nat) (s : State) : Bool :=
  decide ((a - poolBase s.cfg p) % 2 ^ poolLog2 s.cfg p ≠ 0) ||
    (!poisonedIn (bufStateAddr s.cfg a) 2 s && (!bufAllocated a s || bufOwner a s != fn))

theorem badReturn_hbmAsk (fn a p cls who : Nat) (s : State) : badReturn fn a p (hbmAsk cls who s) = badReturn fn a p s := by
  rw [badReturn, badReturn, hbmAsk_cfg, poisonedIn_hbmAsk, bufAllocated_hbmAsk, bufOwner_hbmAsk]

section
variable {fn a p : Nat} {s : State}

theorem poolReturn_outside (h : poolOf s.cfg a = none) : poolReturn fn a s = returnRefused fn s := by
  rw [poolReturn, h]; rfl

theorem poolReturn_bad (h : poolOf s.cfg a = some p) (hb : badReturn fn a p s = true) : poolReturn fn a s = returnRefused fn s := by
  rw [poolReturn, h]
  dsimp only
  split
  · rfl
  · next buffer =>
    have bad : poisonedIn (bufStateAddr s.cfg a) 2 s = false ∧ (!bufAllocated a s || bufOwner a s != fn) = true := by
      simpa [badReturn, buffer] using hb
    rw [if_neg (ne_true_of_eq_false bad.1), if_pos bad.2]
    rfl

variable (h : poolOf s.cfg a = some p) (hb : (a - poolBase s.cfg p) % 2 ^ poolLog2 s.cfg p = 0)
include h hb

theorem poolReturn_poisoned (hp : poisonedIn (bufStateAddr s.cfg a) 2 s = true) :
    poolReturn fn a s = fset F.POOL_RET_RESP_RESULT fn 5 (haspRise 17 0 s) := by
  rw [poolReturn, h]
  exact (if_neg (not_not_intro hb)).trans (if_pos hp)

theorem poolReturn_good (hp : poisonedIn (bufStateAddr s.cfg a) 2 s = false) (ha : bufAllocated a s = true) (ho : bufOwner a s = fn) :
    poolReturn fn a s = fset F.POOL_RET_RESP_RESULT fn 0 (poolPut a s) := by
  rw [poolReturn, h]
  exact (if_neg (not_not_intro hb)).trans ((if_neg (ne_true_of_eq_false hp)).trans (if_neg (by simp [ha, ho])))

end

/-- R416: a buffer that was SEALED is written with zeros. -/
def unsealed (a p : Nat) (s : State) : State := if bufSealed a s then zeroMem a (2 ^ poolLog2 s.cfg p) s else s

theorem unsealed_parts (a p : Nat) (s : State) : ∃ cells, unsealed a p s = { s with mem := { s.mem with cells := cells } } := by
  unfold unsealed; split <;> exact ⟨_, rfl⟩

/-- R412: the buffer is the next that its pool hands out. -/
def handedNext (p a : Nat) (s : State) : State :=
  { s with mem := { s.mem with returned := Tab.set [] s.mem.returned p (a :: Tab.get [] s.mem.returned p) } }

theorem returned_handedNext (p a : Nat) (s : State) :
    Tab.get [] (handedNext p a s).mem.returned p = a :: Tab.get [] s.mem.returned p :=
  Tab.get_set_same [] s.mem.returned p (a :: Tab.get [] s.mem.returned p)

theorem bufState_handedNext (b p a : Nat) (s : State) : bufState b (handedNext p a s) = bufState b s := rfl
theorem poolFree_handedNext (q p a : Nat) (s : State) : poolFree q (handedNext p a s) = poolFree q s := rfl

/-- R412: the buffer is free, and it is counted and handed out next. -/
def bufferFreed (a p : Nat) (s : State) : State :=
  handedNext p a (setPoolFree p (poolFree p (setBuf a false false 0 s) + 1) (setBuf a false false 0 s))

theorem poolPut_allocated {a p : Nat} {s : State} (h : poolOf s.cfg a = some p) (ha : bufAllocated a s = true) :
    poolPut a s = bufferFreed a p (unsealed a p s) := by
  rw [poolPut, h]
  exact if_neg (by simp [ha])

/-- R412, R415, R416: a buffer that returns. -/
theorem bufferFreed_spec (a p : Nat) (s : State) : ∀ t, t = bufferFreed a p (unsealed a p s) →
    bufAllocated a t = false ∧ bufSealed a t = false ∧ poolFree p t = (poolFree p s + 1) % 2 ^ F.POOL_FREE_COUNT.w ∧
    Tab.get [] t.mem.returned p = a :: Tab.get [] s.mem.returned p ∧ (bufSealed a s = false → t.mem.cells = s.mem.cells) ∧
    (bufSealed a s = true → ∀ k, k < 2 ^ poolLog2 s.cfg p → readByte (a + k) t = 0#8) := by
  rintro _ rfl
  obtain ⟨_, parts⟩ := unsealed_parts a p s
  obtain ⟨allocated, isSealed, -⟩ := setBuf_spec a false false 0 (unsealed a p s)
  have count : poolFree p (setBuf a false false 0 (unsealed a p s)) = poolFree p s := by rw [parts]; rfl
  have last : (setBuf a false false 0 (unsealed a p s)).mem.returned = s.mem.returned := by rw [parts]; rfl
  have state : bufState a (bufferFreed a p (unsealed a p s)) = bufState a (setBuf a false false 0 (unsealed a p s)) :=
    (bufState_handedNext ..).trans (bufState_congr rfl a)
  refine ⟨?allocated, ?isSealed, ?free, ?next, fun plain => ?plain, fun sld k hk => ?zeros⟩
  case allocated =>
    rw [bufAllocated, state]
    exact allocated
  case isSealed =>
    rw [bufSealed, state]
    exact isSealed
  case free => rw [bufferFreed, poolFree_handedNext, poolFree_setPoolFree, count]
  case next =>
    rw [bufferFreed, returned_handedNext, ← last]
    rfl
  case plain =>
    have same : unsealed a p s = s := if_neg (ne_true_of_eq_false plain)
    rw [same]
    rfl
  case zeros =>
    have zeroed : unsealed a p s = zeroMem a (2 ^ poolLog2 s.cfg p) s := if_pos sld
    rw [zeroed]
    exact readByte_zeroMem_in s (Nat.le_add_right a k) (Nat.add_lt_add_left hk a)

section
variable {fn : Fn} {w : Word} {s : State} (hr : Reaches fn .POOL_RET_HI fn s) {a : Nat}
  (ha : a = w.toNat * 2 ^ 32 + fget F.POOL_RET_LO_PTR fn s)
include hr ha

theorem poolReturn_exec : exec (.poolReturn fn w) s = .next (poolReturn fn a (hbmAsk 2 128 s)) := by
  subst ha
  exact congrArg Host.Outcome.next (hostWr_reaches hr _)

/-- R415: a return that is refused leaves every buffer as it was. -/
theorem poolReturn_refused (hb : poolOf s.cfg a = none ∨ (poolOf s.cfg a).any (fun p => badReturn fn a p s) = true) :
    Completes (.poolReturn fn w) s fun t => fget F.POOL_RET_RESP_RESULT fn t = 6 ∧
      fget F.POOL_BAD_RET_COUNT fn t = (fget F.POOL_BAD_RET_COUNT fn s + 1) % 2 ^ F.POOL_BAD_RET_COUNT.w ∧
      flag F.MEM_STATUS_BAD_RETURN 0 t = true ∧ t.mem = s.mem := by
  have refused : poolReturn fn a (hbmAsk 2 128 s) = returnRefused fn (hbmAsk 2 128 s) := by
    rcases hb with outside | bad
    · exact poolReturn_outside outside
    · obtain ⟨p, pool⟩ : ∃ p, poolOf s.cfg a = some p := by
        cases pool : poolOf s.cfg a with
        | none => simp [pool] at bad
        | some p => exact ⟨p, rfl⟩
      rw [pool, Option.any_some] at bad
      exact poolReturn_bad (s := hbmAsk 2 128 s) pool ((badReturn_hbmAsk ..).trans bad)
  exact .intro ((poolReturn_exec hr ha).trans (congrArg _ refused)) (returnRefused_spec fn (hbmAsk 2 128 s) _ rfl)

variable {p : Nat} (hp : poolOf s.cfg a = some p) (hb : (a - poolBase s.cfg p) % 2 ^ poolLog2 s.cfg p = 0)
include hp hb

/-- R403: a return of a buffer whose state is poisoned. -/
theorem poolReturn_raises (hx : poisonedIn (bufStateAddr s.cfg a) 2 s = true) :
    exec (.poolReturn fn w) s = .next (fset F.POOL_RET_RESP_RESULT fn 5 (haspRise 17 0 (hbmAsk 2 128 s))) := by
  rw [poolReturn_exec hr ha, poolReturn_poisoned (s := hbmAsk 2 128 s) hp hb hx]

/-- R412, R415, R416: a good return. -/
theorem poolReturn_frees (hx : poisonedIn (bufStateAddr s.cfg a) 2 s = false) (hal : bufAllocated a s = true)
    (ho : bufOwner a s = fn.val) : Completes (.poolReturn fn w) s fun t => fget F.POOL_RET_RESP_RESULT fn t = 0 ∧
      bufAllocated a t = false ∧ bufSealed a t = false ∧ poolFree p t = (poolFree p s + 1) % 2 ^ F.POOL_FREE_COUNT.w ∧
      Tab.get [] t.mem.returned p = a :: Tab.get [] s.mem.returned p ∧ (bufSealed a s = false → t.mem.cells = s.mem.cells) ∧
      (bufSealed a s = true → ∀ k, k < 2 ^ poolLog2 s.cfg p → readByte (a + k) t = 0#8) := by
  have runs := poolReturn_exec hr ha
  rw [poolReturn_good (s := hbmAsk 2 128 s) hp hb hx hal ho, poolPut_allocated (s := hbmAsk 2 128 s) hp hal] at runs
  have spec := bufferFreed_spec a p (hbmAsk 2 128 s) _ rfl
  rw [poolFree_hbmAsk, hbmAsk_mem, bufSealed_hbmAsk, hbmAsk_cfg] at spec
  obtain ⟨free, plain, count, rest⟩ := spec
  refine .intro runs ⟨fget_fset_same .., ?_⟩
  simp only [bufAllocated_fset, bufSealed_fset, fset_mem, readByte_fset]
  exact ⟨free, plain, (fget_fset_other (by decide) (by decide) (by decide)).trans count, rest⟩

end

/-! ### The counterexample -/

/-- A POOLS section whose only pool, pool 0, has 16 buffers of 4096 bytes. -/
def onePoolSec : Bytes := [0, 0, 8, 0, 1, 0, 0, 0, 0, 12, 0, 0, 16, 0, 0, 0].map (BitVec.ofNat 8)

/-- OPERATE with a buffer of pool 0 that has been returned, and a register file in which POOL_FREE holds 2^32 + 1, more than its
32 bits hold. -/
def freeBeyondWidth : State :=
  { State.reset with
      mode := .operate
      regs := [(F.POOL_FREE_COUNT.key 0, 2 ^ 32 + 1)]
      mem := { State.reset.mem with returned := [(0, [0])] }
      loader := { State.reset.loader with secs := [(9, onePoolSec)] }
      power := { State.reset.power with configured := true, inReset := false }
      pcie := { State.reset.pcie with link := .l0 } }

theorem freeBeyondWidth_reaches : Reaches (0 : Fn) .POOL_REQ (0 : Fn) freeBeyondWidth := by decide

theorem freeBeyondWidth_ready : flag F.POOL_RESP_PENDING (0 : Fn) freeBeyondWidth = false := by decide

theorem freeBeyondWidth_free : poolFree 0 freeBeyondWidth = 2 ^ 32 + 1 := by decide

/-- Pool 0 serves a request of one byte with the buffer at address 0. -/
theorem freeBeyondWidth_serves : (poolAsk 1 (0 : Fn) false (hbmAsk 2 128 freeBeyondWidth)).1 = ⟨0, 0, 0⟩ := by decide +kernel

/-- Refutes O34: it takes one from POOL_FREE without a bound, but the register keeps its 32 bits, so a request that is served while
the register stands beyond its width does not leave the difference. Modulo 2^32 the clause holds (`poolRequest_served`), and so do
the others (`poolRequest_pending`, `poolRequest_zero`, `poolRequest_overQuota`; `poolReturn_refused`, `poolReturn_raises`,
`poolReturn_frees`). -/
theorem not_poolRequestsAndReturns : ¬ Obligations.PoolRequestsAndReturns := by
  unfold Obligations.PoolRequestsAndReturns
  rintro ⟨requests, -⟩
  have one : (1 : Nat) = wfld F.POOL_REQ_BYTES 1#32 := by decide
  have served : (poolAsk 1 (0 : Fn) false (hbmAsk 2 128 freeBeyondWidth)).1.result = 0 := by rw [freeBeyondWidth_serves]
  obtain ⟨-, -, -, serves⟩ := requests 0 1#32 freeBeyondWidth freeBeyondWidth_reaches 1 one
  obtain ⟨t, runs, -, -, -, -, -, -, -, -, -, left, -⟩ :=
    poolRequest_served freeBeyondWidth_reaches one freeBeyondWidth_ready rfl _ rfl served
  obtain ⟨-, -, -, -, -, -, -, -, -, claimed, -⟩ := (serves freeBeyondWidth_ready rfl _ rfl served).elim runs
  rw [left, freeBeyondWidth_serves, freeBeyondWidth_free] at claimed
  exact absurd claimed (by decide)

end Sys2Proof.Machine
end
